-- ==== Sys2Proof/Word.lean ====
section
/-! DEFINITION. The word and byte types of the KN-7200 model, and nothing else (their arithmetic is in Machine/Bits.lean). -/
namespace Sys2Proof

/-- A register: 32 bits (R15). -/
abbrev Word := BitVec 32

/-- A byte of memory, the unit every address names (R47). -/
abbrev Byte := BitVec 8

/-- A physical address: 48 bits of address space (R47), computed and keyed as a natural number. -/
abbrev Addr := Nat

end Sys2Proof
end

