-- ==== Sys2Proof/Syntax.lean ====
section
/-! DEFINITION. The commands and events the KN-7200 takes: one constructor per row of spec/opcode_table.json, in the
table's order, each with the operands its row's text and rule give it. -/
namespace Sys2Proof

/-- A failure report on its way to the integrity controller (R392): the kind of R406, the unit acted on (master ID, 0xFF for
none), the cluster concerned (64 for none), the identity of the failed operation and of the failed move (0 for none), the
block's address, the watermarks expected and found, the detail, and of a Calender row the chain it ended (R113), of a payload its bytes (R390). -/
structure Report where
  kind : Nat
  unit : Nat
  clu : Nat
  op : Nat
  move : Nat
  addr : Nat
  expected : Nat
  found : Nat
  detail : Nat
  chain : Nat
deriving DecidableEq, Repr

/-- A field test of start-up (R635): the cluster, its outcome (0 pass, 1 located, 2 not located), the located row and column, the stress row
at which it failed first, whether it failed at the nominal point already, and whether the repair's fuses verify. -/
structure BootTest where
  clu : Nat
  out : Nat
  row : Option Nat
  col : Option Nat
  srow : Nat
  nom : Bool
  ok : Bool
deriving DecidableEq, Repr

/-- How an application core reaches an address (R619, R620): it fetches an instruction, loads, stores, or makes an access of an AMO or of an
LR and SC pair. -/
inductive HartAccess where
  | fetch
  | load
  | store
  | atomic
deriving DecidableEq, Repr

/-- What start-up meets outside the device's own state: whether the flash is usable, whether its parameter table allows 8D-8D-8D, the slots whose header cannot be read, the sections (slot and
index) that cannot be read, the rail (0) or domain (1) that fails to come up, the memory sites that fail (site, channels that do not train, the
self-test's first error as its BIST_ADDR word), the clusters' junction temperature, and the results of cluster tests that are not a
pass at once, in order. -/
structure BootEnv where
  flashOk : Bool
  octal : Bool
  badHeader : List Nat
  badSection : List (Nat × Nat)
  powerFail : Option (Nat × Nat)
  memFail : List (Nat × Nat × Option Nat)
  tj : Int
  tests : List BootTest
deriving DecidableEq, Repr

/-- The commands of the block (spec/opcode_table.json): accesses by masters (self: the hart behind one, h in machine mode, 25 + h in a lower mode, 24
where none is named), operations reached by its sequencers, events on
pins, links and clocks. Operands are what the outside (or the moment) fixes; everything else is read from State. -/
inductive Instr where
  /-- REGISTER_WRITE (R14). A write to a register that has no row of its own updates its fields by their access codes (RW, W1C, W1S, RO ignored). -/
  | registerWrite (m : Nat) (self : Nat) (a : Nat) (bytes : Nat) (w : Nat)
  /-- RC_READ (R14). A read of a read-clears field returns its value and clears it, keeping an event that lands in the same cycle. -/
  | rcRead (m : Nat) (self : Nat) (a : Nat) (bytes : Nat)
  /-- LOW_WORD_READ (R19). A read of the low word of a 64-bit pair latches the high word for the reading master. -/
  | lowWordRead (m : Nat) (self : Nat) (a : Nat)
  /-- FMT_DESC_LO_WRITE (R90). A write of MGT_FMT_DESC_LO_n is held until the entry's HI word is written. -/
  | fmtDescLoWrite (m : Nat) (n : Nat) (v : Nat)
  /-- FMT_DESC_HI_WRITE (R90). A write of MGT_FMT_DESC_HI_n checks the entry against the table and the lock and, if accepted, starts copying it to every decoder. -/
  | fmtDescHiWrite (m : Nat) (n : Nat) (v : Nat)
  /-- FMT_ENTRY_COPY_DONE (R90). The copy of an accepted format entry to every unit completes and BUSY clears. -/
  | fmtEntryCopyDone
  /-- OPERATION_DISPATCH (R248). The Deckle ranks ready tasks, places the first on a cluster or engine and pops and sends its next operation. -/
  | operationDispatch (e : Nat)
  /-- NOP (R166). A Qoraz NOP reads and writes nothing and completes OK, optionally signalling a cell or writing a record. -/
  | qorazNop (n : Nat)
  /-- GEMM (R166). A GEMM operation is decoded, checked and run on the Calender as pass chains over its tiles. -/
  | gemm (n : Nat)
  /-- CONV (R145). A CONV operation is decoded, checked and run on the Calender as an implicit GEMM. -/
  | conv (n : Nat)
  /-- LOAD (R178). The address generator copies a tensor into the Vat, optionally applying space-to-depth or depth-to-space. -/
  | qorazLoad (n : Nat)
  /-- STORE (R178). The address generator copies a Vat tensor out to DRAM, a Vat window or a KV cache. -/
  | qorazStore (n : Nat)
  /-- EW (R132). An element-wise Beater operation computes add, subtract, multiply, FMA, min, max, compare or select. -/
  | ew (n : Nat)
  /-- CONVERT (R132). A Beater operation converts formats, including MX output with block scales. -/
  | convertOp (n : Nat)
  /-- CURVE (R139). A Beater operation evaluates a ROM or record curve, optionally times x. -/
  | curveOp (n : Nat)
  /-- REDUCE (R133). A Beater operation reduces rows by sum, sum of squares, max, min or arg-max. -/
  | reduceOp (n : Nat)
  /-- NORM (R132). A Beater operation normalises rows with mean and variance, or in RMS form. -/
  | normOp (n : Nat)
  /-- SPLITK_SUM (R72). A Beater operation adds FP32 partial results of a split K in increasing chunk order. -/
  | splitkSum (n : Nat)
  /-- DOT (R134). A Beater operation computes a matrix-vector product with beta·C, bias and optional curve. -/
  | dotOp (n : Nat)
  /-- WINDOW (R143). A Beater operation runs a depth-wise or grouped convolution on the sliding-window path. -/
  | windowOp (n : Nat)
  /-- ATTN_EXP (R150). A Beater operation forms softmax weights of a key block and updates each row's running max and sum. -/
  | attnExp (n : Nat)
  /-- ATTN_MERGE (R152). A Beater operation folds a partial attention output into the running output. -/
  | attnMerge (n : Nat)
  /-- ATTN_NORM (R152). A Beater operation divides the running output by the row sum. -/
  | attnNorm (n : Nat)
  /-- BOX_DECODE (R153). The Sieve applies anchor deltas to candidates. -/
  | boxDecode (n : Nat)
  /-- NMS (R157). The Sieve sorts candidates by score and suppresses overlaps, writing a header and records. -/
  | nms (n : Nat)
  /-- STATE_STEP (R298). A Beater operation performs the recurrent linear state update for stream rows. -/
  | stateStep (n : Nat)
  /-- WORK_CYCLE (R104). The issue credit counter reaches 64 and the Calender performs one accumulation work cycle. -/
  | workCycle (n : Nat)
  /-- CHAIN_ACCUMULATION_END (R99). A chain finishes its last work cycle and its bank freezes, holding if the drain path is busy. -/
  | chainAccumulationEnd (n : Nat)
  /-- DRAIN_START (R102). When the drain path frees, a finished bank starts draining rows through the converter. -/
  | drainStart (n : Nat) (ups : List (Nat × Nat × Nat))
  /-- COW_COPY_COMPLETE (R284). The copy of a shared sheet completes, the page table is updated and the stalled write lands. -/
  | cowCopyComplete (i : Nat)
  /-- DRAIN_COMPLETE (R101). A drain writes its last row and frees its bank and the drain path. -/
  | drainComplete (n : Nat)
  /-- CALENDER_OP_COMPLETE (R102). A Calender operation's last chain completes and the operation completes. -/
  | calenderOpComplete (n : Nat) (ep : Nat)
  /-- LANE_PHASE_START (R753). A Beater operation's lane phase begins after the previous lane phase, any Vat wait and its curve load. -/
  | lanePhaseStart (n : Nat) (stall : Nat)
  /-- CURVE_SLOT_LOAD_DONE (R141). A curve record load into a slot completes and the record is checked. -/
  | curveSlotLoadDone (n : Nat)
  /-- BEATER_OP_COMPLETE (R753). A Beater operation completes 12 cycles after its lane phase ends, in acceptance order. -/
  | beaterOpComplete (n : Nat) (ep : Nat)
  /-- REPAIR_RECORD_COMMIT (R116). An in-field repair fuse record is programmed and its commit bit verifies, putting the skip entry in force. -/
  | repairRecordCommit (n : Nat) (ok : Bool)
  /-- ADMIT_OBJECT (R205). An admit command checks a program object in order and grants all its resources or refuses it with one reason. -/
  | admitObject (m : Nat)
  /-- ADMISSION_COMPLETE (R206). Admission finishes zeroing the Vat ranges, writes GRANT and sets DONE. -/
  | admissionComplete
  /-- UNLOAD_OBJECT (R208). An unload command ignores the object's doorbells and cancels its undispatched operations. -/
  | unloadObject (m : Nat) (h : Nat)
  /-- UNLOAD_COMPLETE (R208). After in-flight operations complete, the object's sequences, curve slots and resources are released and DONE sets. -/
  | unloadComplete
  /-- QUEUE_DOORBELL (R218). A write of DCK_QUEUE_DB_q pushes n entries or is refused FULL. -/
  | queueDoorbell (m : Nat) (q : Nat) (v : Nat)
  /-- QUEUE_CFG_WRITE (R223). A write of DCK_QUEUE_CFG_q enables or disables the queue under its conditions, else sets CFG_ERR. -/
  | queueCfgWrite (m : Nat) (q : Nat) (v : Nat)
  /-- CPL_HEAD_WRITE (R221). Software pops completion records by writing a new head count, refused whole if too many. -/
  | cplHeadWrite (m : Nat) (q : Nat) (v : Nat)
  /-- CANCEL_TASK (R253). CTRL.CANCEL_TASK cancels the unpopped entries of the queue's current task. -/
  | cancelTask (m : Nat) (q : Nat) (res : Bool)
  /-- CANCEL_ALL (R253). CTRL.CANCEL_ALL cancels every entry up to TAIL, a held wait and the saved task. -/
  | cancelAll (m : Nat) (q : Nat) (res : Bool)
  /-- RESUME (R228). CTRL.RESUME clears HALT and the queue continues after the halting entry. -/
  | resumeQueue (m : Nat) (q : Nat)
  /-- TASK (R227). A TASK control entry ends the current task and starts one with a deadline or band and a residency tag. -/
  | taskEntry (q : Nat)
  /-- WAIT (R227). A WAIT control entry blocks the queue until a cell reaches TARGET. -/
  | waitEntry (q : Nat)
  /-- TIMED_WAIT (R244). A TIMED_WAIT control entry blocks the queue until a cell reaches TARGET or a timeout. -/
  | timedWaitEntry (q : Nat)
  /-- SIGNAL (R234). A SIGNAL control entry adds VALUE to a cell, optionally after earlier operations retire. -/
  | signalEntry (q : Nat)
  /-- SET (R234). A SET control entry sets a cell's VALUE and optionally clears its flags. -/
  | setEntry (q : Nat)
  /-- FENCE (R226). A FENCE control entry blocks the queue until every earlier operation has retired. -/
  | fenceEntry (q : Nat)
  /-- TASK_END (R229). A TASK_END control entry ends the current task; following entries belong to the default task. -/
  | taskEndEntry (q : Nat)
  /-- RESERVED_CONTROL_ENTRY (R228). A control entry with a reserved code, bad field or foreign cell halts its queue. -/
  | reservedControlEntry (q : Nat)
  /-- WAIT_RELEASE (R236). A cell change makes a waiting queue head reach its target and the queue proceeds or cancels on CANCEL. -/
  | waitRelease (q : Nat)
  /-- TIMED_WAIT_TIMEOUT (R244). DL_NOW passes a timed wait's timeout; TO_CELL is signalled and ON_TIMEOUT is followed. -/
  | timedWaitTimeout (q : Nat)
  /-- FENCE_RELEASE (R226). The last earlier operation retires and a blocked FENCE or AFTER entry proceeds. -/
  | fenceRelease (q : Nat)
  /-- CELL_WRITE (R268). A write of DCK_CELL_n sets the cell's value. -/
  | cellWrite (m : Nat) (n : Nat) (v : Nat)
  /-- CELL_ADD_WRITE (R268). A write of DCK_CELL_ADD_n signals the cell with the written value. -/
  | cellAddWrite (m : Nat) (n : Nat) (v : Nat)
  /-- DEADLINE_TICK (R241). DL_NOW advances one microsecond and every task with a deadline is evaluated for overdue. -/
  | deadlineTick
  /-- PREEMPT (R249). A first-ranked task with no eligible cluster pre-empts a lower task at a pre-emption point and its live ranges are saved. -/
  | preemptTask
  /-- SAVE_COMPLETE (R251). The save of a pre-empted task completes, the task is unbound and the waiting task is dispatched. -/
  | saveComplete (q : Nat)
  /-- RESTORE (R252). A saved task is placed on an eligible cluster and its live ranges restored. -/
  | restoreTask
  /-- RESTORE_COMPLETE (R252). A restore completes, the task is bound and resumed, and its slot is freed. -/
  | restoreComplete (q : Nat)
  /-- CLUSTER_DRAINED (R257). A cluster being drained loses its last bound task and reads DRAINED. -/
  | clusterDrained (n : Nat)
  /-- ADMIT (R278). The Quire ADMIT command takes a free KV slot for an object and clears its page table. -/
  | quiAdmit (m : Nat) (p : Nat)
  /-- ADMIT_STREAM (R303). The Quire ADMIT_STREAM command takes a free stream slot. -/
  | admitStream (m : Nat) (p : Nat)
  /-- RELEASE (R291). The Quire RELEASE command frees a slot and its sheets, deferred if the slot is in a step. -/
  | quiRelease (m : Nat) (p : Nat)
  /-- FORK (R287). The Quire FORK command admits a slot sharing the source's pages up to TOKENS. -/
  | quiFork (m : Nat) (p : Nat)
  /-- MAP (R289). The Quire MAP command maps a fresh or held sheet into one page-table entry. -/
  | quiMap (m : Nat) (p : Nat)
  /-- TRUNCATE (R288). The Quire TRUNCATE command shortens a KV slot, unmapping and zeroing pages past the new length. -/
  | quiTruncate (m : Nat) (p : Nat)
  /-- RETAIN (R289). The Quire RETAIN command increments a held sheet's count. -/
  | quiRetain (m : Nat) (p : Nat)
  /-- DROP (R289). The Quire DROP command decrements a sheet's count and frees it at zero. -/
  | quiDrop (m : Nat) (p : Nat)
  /-- BATCH_OPEN (R290). The Quire BATCH_OPEN command takes the lowest free batch for an object and kind. -/
  | batchOpen (m : Nat) (p : Nat)
  /-- BATCH_CLOSE (R291). The Quire BATCH_CLOSE command frees a batch with no open step. -/
  | batchClose (m : Nat) (p : Nat)
  /-- JOIN (R291). The Quire JOIN command adds a slot to a batch, at once or pending the next step. -/
  | quiJoin (m : Nat) (p : Nat)
  /-- LEAVE (R291). The Quire LEAVE command removes a slot from a batch, at once or at the step's close. -/
  | quiLeave (m : Nat) (p : Nat)
  /-- STEP_BEGIN (R292). The Quire STEP_BEGIN command applies joins, maps pages, excludes members, writes the step record and signals READY_CELL. -/
  | stepBegin (m : Nat) (p : Nat)
  /-- STEP_COMMIT (R295). The Quire STEP_COMMIT command advances lengths and applies pending leaves and releases. -/
  | stepCommit (m : Nat) (p : Nat)
  /-- STEP_ABORT (R295). The Quire STEP_ABORT command closes the step without changing lengths. -/
  | stepAbort (m : Nat) (p : Nat)
  /-- EXPORT (R301). The Quire EXPORT command writes a stream slot's state record. -/
  | quiExport (m : Nat) (p : Nat)
  /-- IMPORT (R301). The Quire IMPORT command checks a state record and copies it into a stream row. -/
  | quiImport (m : Nat) (p : Nat)
  /-- ARMED_COMMIT (R295). COMMIT_CELL reaches TARGET and the armed commit runs when the command engine is idle, aborting if CANCEL is set. -/
  | armedCommit (b : Nat)
  /-- QUIRE_COMMAND_DONE (R305). A Quire command completes, writes CODE and results, and sets DONE. -/
  | quireCommandDone (p : Nat)
  /-- DRAM_WRITE (R324). A write reaches a memory controller, is parity-checked, merged for partial blocks after a watermark check, and stored with a new watermark and tags. -/
  | dramWrite (m : Nat) (ep : Nat) (a : Nat) (bs : List Byte) (prov : Bool) (pois : Bool) (par : Bool) (link : Nat) (op : Nat) (mv : Nat)
    (h : Nat) (k : HartAccess)
  /-- DRAM_READ (R325). A read reaches a memory controller and the whole block is read and checked against its watermark, with one retry. -/
  | dramRead (m : Nat) (ep : Nat) (a : Nat) (n : Nat) (link : Nat) (flips : List (Nat × Nat)) (h : Nat) (k : HartAccess)
  /-- METADATA_REGION_ACCESS (R327). An access to the metadata region is served to core reads and otherwise returns a bus error. -/
  | metadataRegionAccess (m : Nat) (a : Nat) (n : Nat) (wr : Bool)
  /-- PATROL_SWEEP_START (R329). A controller starts a patrol sweep once the previous one completed and SWEEP_S has passed. -/
  | patrolSweepStart (i : Nat)
  /-- PATROL_READ (R329). The patrol reads one data block and checks its watermark, poisoning it on a persistent mismatch. -/
  | patrolRead (i : Nat) (j : Nat) (link : Nat) (flips : List (Nat × Nat))
  /-- MEM_SPLIT_WRITE (R352). A write of MEM_SPLIT sets BOTH_32M unless locked or too large, or sets LOCK. -/
  | memSplitWrite (m : Nat) (v : Nat)
  /-- PMV_DOORBELL (R332). A doorbell on a page-mover ring pushes move descriptors. -/
  | pmvDoorbell (m : Nat) (i : Nat) (r : Nat) (v : Nat)
  /-- PMV_RING_CFG_WRITE (R332). A write of a page-mover ring CFG enables or disables the ring under its conditions. -/
  | pmvRingCfgWrite (m : Nat) (i : Nat) (r : Nat) (v : Nat)
  /-- COPY (R335). A COPY move starts, setting FILL_PEND on its DRAM destination and copying bytes. -/
  | pmvCopy (m : Nat)
  /-- FILL (R335). A FILL move writes FILL_BYTE over its destination. -/
  | pmvFill (m : Nat)
  /-- TRANSPOSE (R338). A TRANSPOSE move writes each matrix transposed in tiles. -/
  | pmvTranspose (m : Nat)
  /-- DECOMP (R346). A DECOMP move expands compressed frames into contiguous plain bytes. -/
  | pmvDecomp (m : Nat)
  /-- FETCH (R347). A FETCH move reads sheets from a PCIe or Zetha window into DRAM. -/
  | pmvFetch (m : Nat)
  /-- FETCH_NVME (R347). A FETCH_NVME move issues one NVMe Read per sheet into DRAM. -/
  | pmvFetchNvme (m : Nat)
  /-- NVME_COMPLETION (R347). An inbound write into an NVMe completion queue is reported to the page mover, which ends or fails that sheet read. -/
  | nvmeCompletion (m : Nat)
  /-- SHEET_READ_TIMEOUT (R348). A tier-2 sheet read gets no completion within T2_TIMEOUT and is retried or the move abandoned. -/
  | sheetReadTimeout (m : Nat) (i : Nat) (k : Nat)
  /-- MOVE_COMPLETE (R337). A move's bytes and tags become visible, FILL_PEND clears and the cell is signalled or cancel-signalled. -/
  | moveComplete (m : Nat) (i : Nat)
  /-- HBX_REQUEST_FORWARD (R363). The Headbox forwards a request to a controller or link and charges its bytes to its class. -/
  | hbxRequestForward (new : Bool) (m : Nat) (part : Nat) (src : Nat) (a : Nat) (n : Nat) (rd : Bool) (k : Nat) (j : Nat)
  /-- HBX_WINDOW_BOUNDARY (R368). A class window ends, resetting USED counts and clearing hold bits. -/
  | hbxWindowBoundary (i : Nat) (c : Nat)
  /-- HBX_READ_COMPLETE (R375). A measured read completes, updating LAT_AVG and the class priority level. -/
  | hbxReadComplete (k : Nat) (j : Nat)
  /-- HBX_AGE_RAISE (R376). A request that has waited AGE_64NS × 64 ns is raised to level 7. -/
  | hbxAgeRaise (k : Nat) (j : Nat)
  /-- HBX_MATCH_CTRL_WRITE (R367). A write of HBX_MATCH_CTRL_e checks the entry and starts copying it to every port, or sets REJECT. -/
  | hbxMatchCtrlWrite (m : Nat) (e : Nat) (v : Nat)
  /-- HBX_TABLE_COPY_DONE (R367). An accepted class-table entry reaches every port and BUSY clears. -/
  | hbxTableCopyDone
  /-- HBX_CLASS_WRITE (R373). A write of a class or budget register takes effect at the first boundary of the new window length. -/
  | hbxClassWrite (m : Nat) (i : Nat) (c : Nat) (k : Nat) (v : Nat)
  /-- CHECK_FAILURE_REPORT (R392). A failure report reaches the integrity controller, which writes a broke record, poisons, fails the job and acts on the unit. -/
  | checkFailureReport (ext : Option Report)
  /-- WATCHDOG_EXPIRY (R400). A cluster's oldest operation exceeds WDOG × 100 µs and the cluster is quarantined with kind HANG. -/
  | watchdogExpiry (n : Nat)
  /-- MESH_PARITY_ERROR (R391). A control-mesh hop receiving bad parity has the message replayed. -/
  | meshParityError (tries : Nat)
  /-- HEADER_PARITY_ERROR (R391). A port finding bad header parity returns an error response and the requester fails with PARITY. -/
  | headerParityError (u : Nat) (op : Nat) (move : Nat)
  /-- LOCKSTEP_TLT_MISMATCH (R402). The Tilth pair disagrees; nothing leaves, samples are missed, a broke record is written and the pair resets. -/
  | lockstepTltMismatch
  /-- TILTH_PAIR_RESET_DONE (R402). The Tilth pair reset completes and contexts resume at their next samples. -/
  | tilthPairResetDone
  /-- LOCKSTEP_MGT_MISMATCH (R403). The management pair disagrees, is held, a broke record is written and it restarts from ROM. -/
  | lockstepMgtMismatch (serving : Bool)
  /-- MGT_PAIR_RESTART (R660). The management pair runs again, closes channels, ends updates and answers the interrupted request RESTARTED. -/
  | mgtPairRestart
  /-- TRACKER_RESOLVE (R409). An open provisional tracker entry resolves CONFIRMED or BROKE and a notice is sent. -/
  | trackerResolve (p : Nat) (i : Nat)
  /-- PROV_TIMEOUT (R409). A tracker entry open for PROV_TIMEOUT resolves BROKE with a PROV_BROKE record. -/
  | provTimeout (p : Nat) (i : Nat)
  /-- FT_REQUEST (R424). A write of ITG_FT_REQ requests a field test of a cluster or the oldest-tested one. -/
  | ftRequest (m : Nat) (v : Nat)
  /-- SWEEP_TEST_DUE (R412). A cluster reaches SWEEP_H hours since its last passed test and a sweep test is requested. -/
  | sweepTestDue (n : Nat)
  /-- FIELD_TEST_START (R414). A field test starts on a drained or quarantined cluster by cycling its power domain. -/
  | fieldTestStart (tj : Int)
  /-- FIELD_TEST_END (R415). A field test ends PASS, FAIL_LOCATED with a repair request, or retirement. -/
  | fieldTestEnd (n : Nat) (out : Nat) (row : Option Nat) (col : Option Nat) (srow : Nat) (nom : Bool)
  /-- BROKE_HEAD_WRITE (R417). A write of ITG_BROKE_HEAD pops broke records. -/
  | brokeHeadWrite (m : Nat) (v : Nat)
  /-- DUN_NOP (R435). A Dune NOP completes OK. -/
  | dunNop (e : Nat) (fault : Nat)
  /-- BIND (R441). Dune BIND checks a roadmap and binds it to the lowest free slot. -/
  | dunBind (e : Nat) (fault : Nat)
  /-- UNBIND (R442). Dune UNBIND frees a slot bound by the calling object. -/
  | dunUnbind (e : Nat) (fault : Nat)
  /-- OCC_LOAD (R444). Dune OCC_LOAD reads an occupancy image into the free bank, waiting for one, and makes it current. -/
  | occLoad (e : Nat) (fault : Nat)
  /-- VALIDATE (R447). Dune VALIDATE checks edges against the current occupancy and writes state words. -/
  | dunValidate (e : Nat) (fault : Nat)
  /-- SEARCH (R451). Dune SEARCH finds a path over unblocked edges to a goal and writes the result. -/
  | dunSearch (e : Nat) (fault : Nat)
  /-- SLV_NOP (R464). A Marl NOP completes OK. -/
  | slvNop (e : Nat) (fault : Nat)
  /-- QP_BIND (R468). Marl QP_BIND checks a problem record and binds it to a slot with its symbolic factor. -/
  | qpBind (e : Nat) (fault : Nat)
  /-- QP_UNBIND (R469). Marl QP_UNBIND frees a slot and its factor store. -/
  | qpUnbind (e : Nat) (fault : Nat)
  /-- QP_FACTOR (R469). Marl QP_FACTOR factorises the KKT matrix with pivot regularisation. -/
  | qpFactor (e : Nat) (fault : Nat)
  /-- QP_SOLVE (R470). Marl QP_SOLVE iterates ADMM against the factor with convergence checks and writes the result. -/
  | qpSolve (e : Nat) (fault : Nat)
  /-- MPC_STEP (R476). Marl MPC_STEP factors, solves, and writes results and setpoints or substitutes the shifted plan. -/
  | mpcStep (e : Nat) (fault : Nat)
  /-- BATCH_FACTOR (R478). Marl BATCH_FACTOR factorises COUNT dense matrices. -/
  | batchFactor (e : Nat) (fault : Nat)
  /-- BATCH_SOLVE (R479). Marl BATCH_SOLVE solves with COUNT dense factors. -/
  | batchSolve (e : Nat) (fault : Nat)
  /-- SOLVER_DEADLINE_MISSED (R474). A Marl deadline passes, abandoning the factorisation or stopping the solve at the next boundary. -/
  | solverDeadlineMissed (e : Nat) (fac : Bool) (k : Nat)
  /-- LOM_NOP (R513). A Loam NOP completes OK. -/
  | lomNop (fault : Nat)
  /-- FRAME_LOAD (R516). Loam FRAME_LOAD writes or invalidates frame transform entries. -/
  | frameLoad (fault : Nat)
  /-- TRANSFORM (R517). Loam TRANSFORM moves detections into the body frame. -/
  | lomTransform (fault : Nat)
  /-- ASSOCIATE (R519). Loam ASSOCIATE runs the auction assignment between tracks and detections. -/
  | lomAssociate (fault : Nat)
  /-- TRACK_APPLY (R522). Loam TRACK_APPLY updates, coasts, deletes and creates tracks. -/
  | trackApply (fault : Nat)
  /-- TRACK_READ (R524). Loam TRACK_READ writes the fused track list. -/
  | trackRead (fault : Nat)
  /-- CONTEXT_ENABLE (R485). Setting TLT_c_CFG.EN enables a loop context if its law and times are valid, else sets CFG_REJECT. -/
  | contextEnable (m : Nat) (c : Nat) (v : Nat)
  /-- CONTEXT_DISABLE (R487). Clearing EN stops a context after the sample in progress launches. -/
  | contextDisable (m : Nat) (c : Nat) (v : Nat)
  /-- TLT_INPUT_WRITE (R488). A write of TLT_c_IN_i writes the staged value, or the live value if in no group. -/
  | tltInputWrite (m : Nat) (c : Nat) (i : Nat) (v : Nat)
  /-- GROUP_COMMIT (R488). A write of TLT_c_COMMIT copies staged groups to live inputs and stamps them. -/
  | groupCommit (m : Nat) (c : Nat) (v : Nat)
  /-- SAMPLE_INSTANT (R495). At a sample instant Tilth snapshots inputs, applies pending law and setpoints and computes the law output. -/
  | sampleInstant (c : Nat)
  /-- SAMPLE_DEADLINE (R497). A sample not in the launch buffer by its deadline is missed and the previous values are launched. -/
  | sampleDeadline (c : Nat)
  /-- LAW_LOAD (R494). TLT_c_LAW_CMD.LOAD starts reading a law table into the inactive bank. -/
  | lawLoad (m : Nat) (c : Nat)
  /-- LAW_LOAD_DONE (R494). A law load completes, setting PENDING or LAW_ERR and LAW_DONE. -/
  | lawLoadDone (c : Nat)
  /-- SETPOINT_CELL_CHANGE (R490). A change of SP_CELL starts a read of the setpoint block into the shadow buffer. -/
  | setpointCellChange (c : Nat)
  /-- SETPOINT_READ_DONE (R490). A setpoint read completes and the block is accepted or rejected. -/
  | setpointReadDone (c : Nat)
  /-- RESTART (R500). TLT_CTRL.RESTART while stopped clears STOPPED and contexts resume. -/
  | tltRestart (m : Nat)
  /-- TEST_RUN (R501). Setting TEST_CFG.RUN starts a test signal injection at the next instant, or sets TEST_REJECT. -/
  | testRun (m : Nat) (c : Nat) (v : Nat)
  /-- TILTH_FRAME_LAUNCH (R546). At the launch time the MAC frames and sends a Tilth output, or drops it. -/
  | tilthFrameLaunch (n : Nat) (c : Nat)
  /-- TIME_BASE_TICK (R532). The time base advances by 0, 1 or 2 ns per cycle according to the rate accumulator. -/
  | timeBaseTick (n : Nat)
  /-- TIME_BASE_WRAP (R531). The time base wraps past 0xFFFF_FFFF, incrementing WRAPS and setting EVENT.WRAP. -/
  | timeBaseWrap
  /-- TIM_RATE_WRITE (R532). A write of TIM_RATE sets the rate adjustment, clamped, from the next cycle. -/
  | timRateWrite (m : Nat) (v : Nat)
  /-- STEP (R533). TIM_CTRL.STEP adds the signed offset to the extended time and sets STEPPED. -/
  | timStep (m : Nat)
  /-- EPOCH_HI_WRITE (R550). A write of TIM_EPOCH_HI puts a new EPOCH into effect. -/
  | epochHiWrite (m : Nat) (v : Nat)
  /-- ETH_FRAME_RECEIVE (R540). A received frame is checked, classified, time-stamped and written to a receive ring or delivered to Tilth. -/
  | ethFrameReceive (n at_ : Nat) (fcsOk : Bool) (f : List Byte)
  /-- PAUSE_FRAME_RECEIVE (R539). A received PAUSE frame is obeyed. -/
  | pauseFrameReceive (n : Nat) (quanta : Nat)
  /-- ETH_DOORBELL (R540). A doorbell on an Ethernet transmit or receive ring pushes descriptors. -/
  | ethDoorbell (m : Nat) (n : Nat) (q : Nat) (rx : Nat) (v : Nat)
  /-- ETH_FRAME_TRANSMIT (R543). On an idle line the MAC starts the frame of the highest eligible queue. -/
  | ethFrameTransmit (n : Nat)
  /-- ETH_TX_COMPLETE (R540). A frame is sent or refused, its descriptor is written back and popped. -/
  | ethTxComplete (n : Nat) (q : Nat)
  /-- LATE_DROP (R543). A launch-time frame that cannot start by LT + LATE_NS is refused with LATE_DROP. -/
  | lateDrop (n : Nat) (q : Nat)
  /-- GATE_CHANGE_REQUEST (R544). Writing GATE_CTRL.CHANGE schedules the administrative list for the next change time, or sets REJECT. -/
  | gateChangeRequest (m : Nat) (n : Nat) (v : Nat)
  /-- GATE_LIST_CHANGE (R544). At the change time the administrative gate list becomes operational. -/
  | gateListChange (n : Nat)
  /-- GATE_ENTRY_ADVANCE (R544). A gate list entry's interval expires and the next entry's gates take effect. -/
  | gateEntryAdvance (n : Nat)
  /-- ETH_CLS_WORD0_WRITE (R541). A write of word 0 of a classification entry puts the held entry into effect. -/
  | ethClsWord0Write (m : Nat) (n : Nat) (e : Nat) (v : Nat)
  /-- ZTH_PORT_ENABLE (R560). Setting ZTH_p_CFG.EN starts training from DETECT. -/
  | zthPortEnable (m : Nat) (p : Nat)
  /-- ZTH_PORT_DISABLE (R560). Clearing EN sends the port to DOWN. -/
  | zthPortDisable (m : Nat) (p : Nat)
  /-- TRAIN_STATE_TIMEOUT (R560). A training state exceeds its limit, counts TRAIN_FAIL and returns to DETECT after 1 ms. -/
  | trainStateTimeout (p : Nat)
  /-- CAP_FLIT_RECEIVE (R561). A CAP flit is received in NEGOTIATE, negotiating version and credits, entering ACTIVE or MISMATCH. -/
  | capFlitReceive (p : Nat) (ls : List (List (Nat × List Byte)))
  /-- FLIT_RECEIVE (R563). A flit is received, CRC-checked, sequenced, and its ACK and credits applied. -/
  | flitReceive (p : Nat) (ls : List (List (Nat × List Byte)))
  /-- NAK_RECEIVE (R563). A NAK makes the sender replay buffered flits from a + 1. -/
  | nakReceive (p : Nat) (ls : List (List (Nat × List Byte)))
  /-- RETRAIN (R564). CFG.RETRAIN or loss of block lock starts a retrain keeping link-layer state. -/
  | zthRetrain (m : Nat) (p : Nat) (lost : Option Nat)
  /-- LINK_DROP (R564). A failed retrain drops the link, flushing flits and failing outstanding requests. -/
  | linkDrop (p : Nat)
  /-- ZTH_WINDOW_ACCESS (R569). A move or hart access to a Zetha window is routed by the route table and sent as messages. -/
  | zthWindowAccess (m : Nat) (a : Nat) (n : Nat) (bs : List Byte) (wr : Bool)
  /-- WRITE (R568). An arriving WRITE message is checked against the inbound range and watermarks and its data written. -/
  | zthWriteMsg (p : Nat)
  /-- READ_REQ (R571). An arriving READ_REQ is answered by one READ_RESP. -/
  | zthReadReq (p : Nat)
  /-- READ_RESP (R568). An arriving READ_RESP completes a read, writing a fetched sheet with its watermarks. -/
  | zthReadResp (p : Nat)
  /-- WRITE_ACK (R571). An arriving WRITE_ACK completes a write at the sender. -/
  | zthWriteAck (p : Nat)
  /-- NOTICE (R573). An arriving NOTICE confirms or poisons the covered inbound provisional blocks. -/
  | zthNotice (p : Nat)
  /-- ZTH_ROUTE_WRITE (R569). A write of word 0 of a route entry puts it into effect. -/
  | zthRouteWrite (m : Nat) (e : Nat) (v : Nat)
  /-- CSI_LONG_PACKET (R584). A long packet matching a context is written as the next line of the open frame. -/
  | csiLongPacket (p : Nat) (ecc : Nat) (vc : Nat) (dt : Nat) (bs : List Byte) (crcBad : Bool)
  /-- CSI_FRAME_START (R584). A Frame Start takes a descriptor, time-stamps the frame and closes any open frame. -/
  | csiFrameStart (p : Nat) (ecc : Nat) (vc : Nat) (num : Nat)
  /-- CSI_FRAME_END (R585). A Frame End pads the last block, writes back the descriptor and signals the cell. -/
  | csiFrameEnd (p : Nat) (ecc : Nat) (vc : Nat)
  /-- CSI_DOORBELL (R583). A doorbell on a camera frame ring posts buffers. -/
  | csiDoorbell (m : Nat) (p : Nat) (v : Nat) (n : Nat)
  /-- PCIE_INBOUND_REQUEST (R626). An inbound PCIe request is translated by the IOMMU or BAR0 mapping, or refused. -/
  | pcieInboundRequest (p : Nat) (wr : Bool) (rid : Nat) (a : Nat) (n : Nat) (bs : List Byte)
  /-- POISONED_TLP_RECEIVE (R591). A received poisoned write poisons its blocks; a poisoned completion fails the read. -/
  | poisonedTlpReceive (p : Nat) (cpl : Bool) (tag : Nat) (rid : Nat) (a : Nat) (bs : List Byte)
  /-- PCIE_CPL_TIMEOUT (R592). A non-posted request with no completion within the timeout completes with an error. -/
  | pcieCplTimeout (p : Nat) (tag : Nat)
  /-- MSIX_TRIG (R595). A write of PCI_p_MSIX_TRIG raises an MSI-X vector in the endpoint role. -/
  | msixTrig (m : Nat) (p : Nat) (v : Nat)
  /-- PERST_ASSERT (R730). An assertion of PCI_p_PERST_N on an endpoint resets that port alone. -/
  | perstAssert (p : Nat)
  /-- FLASH_READ (R600). An xSPI read command reads flash bytes into management SRAM. -/
  | flashRead (m : Nat) (opcode : Nat)
  /-- FLASH_PROGRAM (R600). An xSPI program command writes up to one page of flash. -/
  | flashProgram (m : Nat) (opcode : Nat)
  /-- FLASH_ERASE (R600). An xSPI erase command erases one 64 KiB sector. -/
  | flashErase (m : Nat) (opcode : Nat)
  /-- FLASH_READ_SFDP (R600). An xSPI command reads the JESD216 parameter table. -/
  | flashReadSfdp (m : Nat) (opcode : Nat)
  /-- FLASH_REG_READ (R600). An xSPI command reads a flash register. -/
  | flashRegRead (m : Nat) (opcode : Nat)
  /-- FLASH_REG_WRITE (R600). An xSPI command writes a flash register. -/
  | flashRegWrite (m : Nat) (opcode : Nat)
  /-- XSP_CMD_DONE (R601). A flash command completes, sets DONE or ERROR and starts any held command. -/
  | xspCmdDone (err : Bool)
  /-- CAN_TX_REQ (R603). A write of CAN_n_TX_REQ makes transmit buffers pending for arbitration. -/
  | canTxReq (m : Nat) (n : Nat) (v : Nat)
  /-- CAN_TX_COMPLETE (R603). A CAN frame is sent or a one-shot frame fails, writing back its time. -/
  | canTxComplete (n : Nat) (sent : Bool) (sof : Nat)
  /-- CAN_FRAME_RECEIVE (R604). A received CAN frame is filtered and written to a receive ring or discarded. -/
  | canFrameReceive (n : Nat) (w : Nat) (dlc : Nat) (flags : Nat) (data : List Byte) (sof : Nat)
  /-- RECOVER (R607). CAN_n_CTRL.RECOVER starts bus-off recovery. -/
  | canRecover (m : Nat) (n : Nat)
  /-- ABORT_ALL (R607). CAN_n_CTRL.ABORT_ALL withdraws pending transmit buffers. -/
  | canAbortAll (m : Nat) (n : Nat) (busy : Option Nat)
  /-- CAN_RX_DOORBELL (R609). A doorbell on a CAN receive ring frees entries. -/
  | canRxDoorbell (m : Nat) (n : Nat) (r : Nat) (v : Nat)
  /-- PIN_FUNC_WRITE (R614). A write changing a pin's FUNC starts a four-cycle park interval. -/
  | pinFuncWrite (m : Nat) (n : Nat) (v : Nat)
  /-- PARK_INTERVAL_END (R614). The park interval ends and the new function takes the pin. -/
  | parkIntervalEnd (n : Nat)
  /-- PWM_START (R612). A PWM channel starts its first period when the time base reaches START. -/
  | pwmStart (n : Nat) (start : Nat) (period : Nat) (high : Nat)
  /-- CAPTURE_EDGE (R612). An edge on a capture pin records the time base or counts CAP_LOST. -/
  | captureEdge (n : Nat) (sel : Nat) (rising : Bool)
  /-- HART_START (R630). APC_HART_CTRL.START starts a stopped hart, powering its group if needed. -/
  | hartStart (m : Nat) (self : Nat) (h : Nat)
  /-- HART_STOP (R630). APC_HART_CTRL.STOP from the hart itself stops it. -/
  | hartStop (m : Nat) (self : Nat) (h : Nat)
  /-- CACHE_ERROR (R621). A cache error is corrected, refetched, or poisons the DRAM block of a dirty line. -/
  | cacheError (kind : Nat) (a : Nat)
  /-- MSI_MESSAGE (R623). An interrupt message sets a pending bit in a hart's IMSIC file. -/
  | msiMessage (h : Nat) (file : Nat) (e : Nat) (claimed : List Nat)
  /-- STIMECMP_MATCH (R617). Time reaches stimecmp and the supervisor timer interrupt becomes pending. -/
  | stimecmpMatch (h : Nat) (t : Nat)
  /-- START_UP (R632). Module reset release runs start-up steps 2 to 6 from slot selection to hand-off. -/
  | startUp (env : BootEnv)
  /-- RESET_N_ASSERT (R737). A low pulse on RESET_N of at least the filter length causes a module reset. -/
  | resetNAssert (ns : Nat)
  /-- RAIL_MONITOR_TRIP (R735). VDD_IO_0 or VIO_18 falls below threshold and the device holds module reset. -/
  | railMonitorTrip (rail : Nat) (mv : Nat)
  /-- MAILBOX_DOORBELL (R654). A write of MGT_MBX_DB queues a channel's request, or sets DB_REJECT if busy. -/
  | mailboxDoorbell (m : Nat) (v : Nat)
  /-- OPEN (R655). Mailbox OPEN negotiates a version and opens the channel. -/
  | mbxOpen
  /-- CLOSE (R656). Mailbox CLOSE closes the channel. -/
  | mbxClose
  /-- INFO (R656). Mailbox INFO returns boot status, slots, ISN, F and RETIRED. -/
  | mbxInfo
  /-- FMT_WRITE (R656). Mailbox FMT_WRITE writes a loadable format entry. -/
  | fmtWrite
  /-- PART_WRITE (R656). Mailbox PART_WRITE replaces a partition record of a partition with no loaded object. -/
  | partWrite
  /-- HBX_WRITE (R656). Mailbox HBX_WRITE writes Headbox registers in order. -/
  | hbxWrite
  /-- PIN_WRITE (R656). Mailbox PIN_WRITE writes a GPIO pin register. -/
  | pinWrite
  /-- LOG_READ (R656). Mailbox LOG_READ returns committed event log entries. -/
  | logRead
  /-- UPDATE_BEGIN (R658). Mailbox UPDATE_BEGIN opens an update session and erases the inactive slot. -/
  | updateBegin (err : Option Nat)
  /-- UPDATE_WRITE (R658). Mailbox UPDATE_WRITE programs image bytes from DRAM into the target slot. -/
  | updateWrite (err : Bool)
  /-- UPDATE_COMMIT (R659). Mailbox UPDATE_COMMIT checks the target and writes its commit record. -/
  | updateCommit (err : Nat)
  /-- UPDATE_ABORT (R658). Mailbox UPDATE_ABORT erases the commit sector and ends the session. -/
  | updateAbort (err : Bool)
  /-- ROLLBACK_ADVANCE (R656). Mailbox ROLLBACK_ADVANCE programs anti-rollback fuses up to the running image's value. -/
  | rollbackAdvance
  /-- FUSE_KEY (R643). Mailbox FUSE_KEY programs the key-hash fuses once. -/
  | fuseKey
  /-- MODULE_RESET (R656). Mailbox MODULE_RESET writes its response and schedules a module reset 1 ms later. -/
  | moduleReset
  /-- MODULE_RESET_DELAY_EXPIRY (R633). The 1 ms after MODULE_RESET expires and the module resets. -/
  | moduleResetDelayExpiry
  /-- LOG_ENTRY_WRITE (R662). A queued event log entry is programmed to flash, rotating sectors when full. -/
  | logEntryWrite (ok : Bool)
  /-- RTC_TICK (R663). The calendar clock advances by one 32.768 kHz tick, carrying into the date. -/
  | rtcTick
  /-- RTC_SET (R664). MGT_RTC_CTRL.SET checks the set date and time and applies them at the next tick, or sets DATE_REJECT. -/
  | rtcSet (m : Nat)
  /-- VAON_POWER_UP (R663). VAON first comes up and the calendar clock starts with LOST set. -/
  | vaonPowerUp
  /-- PMU_PERIOD (R677). Every 100 µs the PMU forms module power, updates phase demands and shares the cap into issue rates. -/
  | pmuPeriod
  /-- PHASE_REPORT (R677). A cluster's phase report reaches the PMU, which recomputes issue rates within 1 µs. -/
  | phaseReport (n : Nat)
  /-- CAP_WRITE (R675). A write of PMU_CAP sets the cap from the next period or sets CAP_REJECT. -/
  | capWrite (m : Nat) (v : Nat)
  /-- ENERGY_APPORTION (R674). Every 10 µs each rail's energy is divided among domains and operations. -/
  | energyApportion (act : List Nat) (moved : List Nat) (occ : List (Nat × Nat × Nat)) (charged : List (Nat × Nat × Nat))
  /-- DROOP_FIRING (R680). A cluster's droop detector fires and its issue rate is clamped to DROOP_Q. -/
  | droopFiring (n : Nat)
  /-- DROOP_RELEASE (R680). DROOP_HOLD cycles pass with no further firing and the droop clamp releases. -/
  | droopRelease (n : Nat)
  /-- PHASE_FAULT_INPUT (R681). A rail's phase-fault input goes low and an unnamed phase is declared failed and clamped. -/
  | phaseFaultInput (r : Nat) (low : Bool)
  /-- TELEMETRY_SAMPLE (R681). A rail telemetry sample arrives and phases are named failed, sensed failed or restored. -/
  | telemetrySample (r : Nat) (mv : Nat) (is : List Nat)
  /-- PHASE_RESTORE_REQUEST (R682). Writing 1 to a PMU_RAIL_r_FAULT bit requests restoration of a failed phase. -/
  | phaseRestoreRequest (m : Nat) (r : Nat) (v : Nat)
  /-- THERMAL_SAMPLE (R685). Each sensor is read every 20 µs and cluster thermal ceilings recomputed. -/
  | thermalSample (rs : List (Option Int))
  /-- SHUTDOWN_HOLD_RELEASE (R686). Reset assertion or VAON cycling ends the shutdown hold and start-up begins. -/
  | shutdownHoldRelease (vaon : Bool)
  /-- DOMAIN_ON_REQUEST (R688). A PMU_PD_d ON request closes the domain's header switch after its CORE domain. -/
  | domainOnRequest (m : Nat) (d : Nat)
  /-- DOMAIN_OFF_REQUEST (R688). A PMU_PD_d OFF request switches a domain off, or is refused. -/
  | domainOffRequest (m : Nat) (d : Nat)
  /-- POWER_GOOD (R688). Power-good arrives and the domain is released from isolation and reset. -/
  | powerGood (d : Nat)
  /-- POWER_GOOD_TIMEOUT (R690). Power-good does not arrive within 50 µs; the domain stays off and DOMAIN_FAIL is logged. -/
  | powerGoodTimeout (d : Nat)
  /-- AUTO_GATE_IDLE (R689). A cluster idle 1 ms, or a group with all harts stopped, is switched off. -/
  | autoGateIdle (d : Nat)
  /-- TEST_BUDGET_GRANT (R679). The PMU grants a field test's power budget when it fits. -/
  | testBudgetGrant (n : Nat)
  /-- ADC_SAMPLE (R710). A metrology current and voltage sample updates the residues and legal registers. -/
  | adcSample (cI : Int) (cV : Int) (badI : Bool) (badV : Bool)
  /-- CHECKPOINT (R712). Every 10 s the island writes a checkpoint of legal registers and residues. -/
  | mtiCheckpoint (bad : Bool)
  /-- POWER_FAIL_SIGNAL (R712). MTI_PF_N goes low and a clean checkpoint is written within 2 ms. -/
  | powerFailSignal (bad : Bool)
  /-- MTI_START (R706). The island starts, checks its ROM and resumes from its newest checkpoint. -/
  | mtiStart (crc : Nat) (worn : List Nat)
  /-- CLOCK_CHECK (R705). Once a second the island compares its clock with its reference and may raise CLOCK_FAULT. -/
  | clockCheck (bad : Bool)
  /-- RING_SWEEP (R716). Every SWEEP_MS the island reads the battery monitors from end A then end B. -/
  | ringSweep (a : List (List (List Byte) × List (List Byte))) (b : List (List (List Byte) × List (List Byte)))
  /-- SOC_EVALUATION (R718). Once a second the island evaluates SOC_CC and SOC_V, rest state and disagreement. -/
  | socEvaluation
  /-- SNAPSHOT_REFRESH (R720). The island refreshes its snapshot and raises APLIC source 7. -/
  | snapshotRefresh
  /-- SNAPSHOT_LATCH_READ (R720). A read of offset 0x0100 or 0x1000 latches the snapshot or sweep record for the reader. -/
  | snapshotLatchRead (m : Nat) (sweep : Bool)
  /-- PARAM_WRITE (R708). Service port PARAM_WRITE checks and stores a parameter table. -/
  | paramWrite (en : Bool) (table : List Byte) (crc : Nat) (bad : Bool)
  /-- PARAM_READ (R708). Service port PARAM_READ returns the stored table. -/
  | paramRead (en : Bool) (crc : Nat)
  /-- RAW_READ (R708). Service port RAW_READ returns the latest raw codes. -/
  | rawRead (en : Bool) (crc : Nat)
  /-- SEAL (R708). Service port SEAL programs the seal fuse, clears legal registers and disables the port. -/
  | mtiSeal (en : Bool) (pcrc : Nat) (crc : Nat)
  /-- ZTH_ENERGY_DETECT (R560). In DETECT the port finds the peer's receiver and energy on all 8 lanes and moves to LOCK. -/
  | zthEnergyDetect (p : Nat)
  /-- ZTH_BLOCK_LOCK (R560). Bit and block lock is achieved on every lane and the port moves from LOCK to ALIGN. -/
  | zthBlockLock (p : Nat) (lanes : Nat)
  /-- ZTH_ALIGN_DONE (R560). Deskew, polarity and reversal detection complete and the port moves to NEGOTIATE, or back to ACTIVE after a retrain. -/
  | zthAlignDone (p : Nat) (rev : Bool) (pol : Nat)
  /-- CAP_SEND (R561). In NEGOTIATE each end sends a CAP flit every 1 µs. -/
  | capSend (p : Nat)
  /-- FLIT_SLOT (R566). At each flit slot the port sends the next flit by VC priority and rotation, within credits and the replay window, or an IDLE flit. -/
  | flitSlot (p : Nat)
  /-- ETH_LINK_UP (R553). The USXGMII link of a MAC comes up, LINK sets and held notices are sent. -/
  | ethLinkUp (n : Nat)
  /-- ETH_LINK_DOWN (R553). The link of a MAC goes down, LINK clears and frames are written back LINK_DOWN or Tilth frames dropped. -/
  | ethLinkDown (n : Nat)
  /-- PCIE_LINK_UP (R593). The PCIe data link layer becomes active and LINK_UP, WIDTH and RATE are set. -/
  | pcieLinkUp (p : Nat) (width : Nat) (rate : Nat)
  /-- PCIE_LINK_DOWN (R596). The PCIe link leaves the active state and EVENT.LINK_DOWN sets. -/
  | pcieLinkDown (p : Nat)
  /-- PCIE_COMPLETION (R591). A completion for an outbound non-posted request arrives and completes a fetch sheet or hart read. -/
  | pcieCompletion (p : Nat) (tag : Nat) (err : Bool) (bs : List Byte)
  /-- PERST_RELEASE (R730). A root port releases PCI_p_PERST_N 100 ms after its reference clock is stable. -/
  | perstRelease (p : Nat)
  /-- CAN_ARBITRATION_LOST (R603). A frame being offered loses arbitration, counts ARB_LOST and is retried. -/
  | canArbitrationLost (n : Nat) (sof : Nat)
  /-- CAN_BUS_ERROR (R607). An error on the bus updates TEC or REC, counts TX_ERR or RX_ERR and may move the controller to error passive or bus-off. -/
  | canBusError (n : Nat) (tx : Bool) (inc : Nat) (sof : Nat)
  /-- CAN_RECOVERY_COMPLETE (R604). The bus-off recovery sequence completes and the controller returns to error active. -/
  | canRecoveryComplete (n : Nat)
  /-- SAMPLE_COMPLETE (R496). A sample's output reaches the launch buffer and the next waiting sample of another context starts. -/
  | sampleComplete
  /-- ENGINE_OP_COMPLETE (R431). A Dune, Marl or Loam operation finishes, writes its record, signals its cell and frees its unit or bank. -/
  | engineOpComplete (e : Nat) (load : Bool)
  /-- LOAD_STORE_COMPLETE (R184). A LOAD or STORE finishes its transfer, its tags are visible and it completes with its record and signal. -/
  | loadStoreComplete (n : Nat) (i : Nat) (ep : Nat)
  /-- VMET_POWER_LOSS (R704). VMET leaves its range and the metrology island stops, keeping only its non-volatile store. -/
  | vmetPowerLoss (cut : Bool)
  /-- VAON_POWER_LOSS (R52). VAON is removed and the always-on domain, calendar clock and shutdown hold are lost. -/
  | vaonPowerLoss
  /-- JTAG_TAP_CYCLE (R738). A TCK edge advances the IEEE 1149.1 test access port and its instructions, including debug reads. -/
  | jtagTapCycle (tms : Bool) (tdi : Bool) (trst : Bool)
deriving DecidableEq, Repr

end Sys2Proof
end

