-- ==== Sys2Proof/Decode.lean ====
section
/-! DEFINITION. Words that spell commands. The KN-7200 takes commands, not encoded instructions: the table gives no row any bits, so no word spells a
command. -/
namespace Sys2Proof

/-- The command a word of nbits bits spells by the table's bits: none, since no row has any. -/
def decodeTableWord (nbits w : Nat) : Option Instr :=
  let rows : List (Nat × Nat × Nat × Instr) := []
  (rows.find? (fun r => r.1 == nbits && Nat.land w r.2.1 == r.2.2.1)).map (fun r => r.2.2.2)

end Sys2Proof
end

