-- ==== Sys2Proof/Config.lean ====
section
/-! DEFINITION. What an implementation fixes and the spec leaves open: uninterpreted constants, one per open value, so that
nothing can be proved of the value chosen. -/
namespace Sys2Proof.Config

/-- A fresh open value of w bits: the n-th the machine has met (State.freeCtr counts). -/
opaque freeValue : (w : Nat) → Nat → BitVec w

/-- The coefficients of ROM curve id (R135 states the function and its bound, not the coefficients): the FP32 patterns of LO,
INV_W, of coefficient j of segment s, and the number of segments less one. -/
opaque romLo : Nat → Word
opaque romInvW : Nat → Word
opaque romSegs : Nat → Nat
opaque romCoef : Nat → Nat → Nat → Word

/-- The code of an element that is no NaN, in an output block of scale 0xFF (R65 states none): of its width and its FP32 pattern. -/
opaque nanBlockCode : Nat → Nat → Nat

/-- Which of the listed master IDs the Deckle's own writes carry (R41): R365 gives the Deckle none. -/
opaque deckleMaster : Nat

/-- The bytes of the boot ROM (R48). -/
opaque bootRom : Nat → Byte

/-- The boot flash device's own registers and its JESD216 table (R597, R600: the device follows JESD251-C). -/
opaque flashReg : Nat → Byte
opaque flashSfdp : Nat → Byte

/-- The calibration fuse that weights a domain's activity count in the division of rail energy (R674). -/
opaque energyWeight : Nat → Nat

/-- The IDCODE of the test access port, the length of its instruction register, the instruction its contents select (0 BYPASS,
1 SAMPLE/PRELOAD, 2 EXTEST, 3 IDCODE, 4 to 6 the debug reads of MGT_BOOT_STATUS and MGT_BOOT_SLOT_0 and _1), and the length of its
boundary register (R738). -/
opaque tapIdcode : Word
opaque tapIrLength : Nat
opaque tapInstruction : Nat → Nat
opaque tapBoundary : Nat

/-- The firmware version word of the mailbox's information page (R653). -/
opaque mgtFirmware : Word

end Sys2Proof.Config
end

