-- ==== Sys2Proof/Machine/Bits.lean ====
section
/-! DEFINITION. Bit fields of numbers and words, two's complement readings, and lists of bytes, little-endian (R15, R23). -/
namespace Sys2Proof.Machine

/-- Bits [hi:lo] of a number (R23). -/
def bitsN (n hi lo : Nat) : Nat := n / 2 ^ lo % 2 ^ (hi + 1 - lo)

/-- Bit i of a number, as a truth value. -/
def bitN (n i : Nat) : Bool := n / 2 ^ i % 2 == 1

/-- A number with bits [hi:lo] replaced by v. -/
def insN (n hi lo v : Nat) : Nat :=
  n / 2 ^ (hi + 1) * 2 ^ (hi + 1) + v % 2 ^ (hi + 1 - lo) * 2 ^ lo + n % 2 ^ lo

/-- Bits [hi:lo] of a register word. -/
def bits (w : Word) (hi lo : Nat) : Nat := bitsN w.toNat hi lo

/-- A register word with bits [hi:lo] replaced by v. -/
def ins (w : Word) (hi lo v : Nat) : Word := BitVec.ofNat 32 (insN w.toNat hi lo v)

/-- The number a truth value stands for in a one-bit field. -/
def b2n (b : Bool) : Nat := if b then 1 else 0

/-- The two's complement reading of the low w bits of n. -/
def signed (w n : Nat) : Int :=
  let m := n % 2 ^ w
  if m < 2 ^ (w - 1) then (m : Int) else (m : Int) - (2 ^ w : Nat)

/-- The low w bits of the two's complement pattern of an integer. -/
def unsigned (w : Nat) (i : Int) : Nat := (i % ((2 ^ w : Nat) : Int)).toNat

/-- An integer held inside [lo, hi]. -/
def clampI (lo hi i : Int) : Int := if i < lo then lo else if hi < i then hi else i

/-- A count that saturates at cap (R121 and the like). -/
def satAdd (cap a b : Nat) : Nat := if cap ≤ a + b then cap else a + b

/-- The all-ones word, where the 32-bit event counters saturate. -/
def sat32 : Nat := 0xFFFFFFFF

/-- floor(log2 n), and 0 for 0. -/
def log2 (n : Nat) : Nat := Nat.log2 n

/-- n rounded up to a multiple of m. -/
def alignUp (n m : Nat) : Nat := (n + m - 1) / m * m

/-- Quotient rounded up. -/
def ceilDiv (a b : Nat) : Nat := (a + b - 1) / b

/-- The little-endian number a list of bytes spells (R15). -/
def leNat : List Byte → Nat
  | [] => 0
  | b :: bs => b.toNat + 256 * leNat bs

/-- The n low bytes of a number, little-endian. -/
def leBytes : Nat → Nat → List Byte
  | 0, _ => []
  | n + 1, v => BitVec.ofNat 8 v :: leBytes n (v / 256)

/-- The big-endian number a list of bytes spells. -/
def beNat (bs : List Byte) : Nat := bs.foldl (fun a b => a * 256 + b.toNat) 0

/-- The n low bytes of a number, big-endian. -/
def beBytes (n v : Nat) : List Byte := (leBytes n v).reverse

/-- Bytes [off, off+n) of a list of bytes, as a little-endian number; bytes past the end count as 0. -/
def leAt (bs : List Byte) (off n : Nat) : Nat := leNat ((bs.drop off).take n)

/-- The number whose bit i is the truth value at place i of a list. -/
def bitsToNat : List Bool → Nat
  | [] => 0
  | b :: bs => b2n b + 2 * bitsToNat bs

/-- How many bits of the low w of n are set. -/
def popcount (w n : Nat) : Nat := ((List.range w).filter (fun i => bitN n i)).length

/-- The lowest set bit of n below w, if there is one. -/
def lowestBit (w n : Nat) : Option Nat := (List.range w).find? (fun i => bitN n i)

/-- A list with place i replaced (unchanged past the end). -/
def setAt {α : Type} : List α → Nat → α → List α
  | [], _, _ => []
  | _ :: xs, 0, v => v :: xs
  | x :: xs, i + 1, v => x :: setAt xs i v

/-- The entry at place i, or d past the end. -/
def getAt {α : Type} (d : α) : List α → Nat → α
  | [], _ => d
  | x :: _, 0 => x
  | _ :: xs, i + 1 => getAt d xs i

/-- The sum of a list of numbers. -/
def sumN (l : List Nat) : Nat := l.foldl (· + ·) 0

/-- The largest of a list of numbers, 0 for none. -/
def maxN (l : List Nat) : Nat := l.foldl (fun a b => if a < b then b else a) 0

end Sys2Proof.Machine
end

