-- ==== Sys2Proof/Machine/Crc.lean ====
section
/-! DEFINITION. The check values the spec names: CRC-32C (R322), CRC-16 and others, each over bytes in ascending order. -/
namespace Sys2Proof.Machine

/-- One bit of a reflected CRC with the given polynomial. -/
def crcBit (poly c : Nat) : Nat := if c % 2 = 1 then Nat.xor (c / 2) poly else c / 2

/-- One byte of a reflected CRC. -/
def crcByte (poly c : Nat) (b : Byte) : Nat := (List.range 8).foldl (fun a _ => crcBit poly a) (Nat.xor c b.toNat)

/-- CRC-32C: reflected polynomial 0x82F6_3B78, initial value and final XOR 0xFFFF_FFFF (R322). -/
def crc32c (bs : List Byte) : Nat := Nat.xor (bs.foldl (crcByte 0x82F63B78) 0xFFFFFFFF) 0xFFFFFFFF

/-- The frame check sequence of IEEE 802.3: reflected polynomial 0xEDB8_8320, initial value and final XOR 0xFFFF_FFFF (R538, R539). -/
def crc32Eth (bs : List Byte) : Nat := Nat.xor (bs.foldl (crcByte 0xEDB88320) 0xFFFFFFFF) 0xFFFFFFFF

end Sys2Proof.Machine
end

