-- ==== Sys2Proof/Machine/Sparse.lean ====
section
/-! DEFINITION. Sparse tables: a list of key and value pairs, keys strictly rising, no entry equal to what an unlisted
key reads as. Memory, block metadata and the register file are held this way, so that equal contents are equal data. -/
namespace Sys2Proof.Machine

/-- The value at a key: the listed one, else the default d of that key. -/
def Sparse.get {β : Type} (d : Nat → β) : List (Nat × β) → Nat → β
  | [], k => d k
  | (k', v) :: l, k => if k = k' then v else if k < k' then d k else Sparse.get d l k

/-- A pair in front of a list, unless its value is what the key reads as anyway. -/
def Sparse.cons {β : Type} [DecidableEq β] (d : Nat → β) (k : Nat) (v : β) (l : List (Nat × β)) : List (Nat × β) :=
  if v = d k then l else (k, v) :: l

/-- Writing a key keeps the canonical form: rising keys, no default listed. -/
def Sparse.set {β : Type} [DecidableEq β] (d : Nat → β) : List (Nat × β) → Nat → β → List (Nat × β)
  | [], k, v => Sparse.cons d k v []
  | (k', v') :: l, k, v =>
    if k < k' then Sparse.cons d k v ((k', v') :: l)
    else if k = k' then Sparse.cons d k v l
    else (k', v') :: Sparse.set d l k v

/-- The canonical form above a bound: keys strictly rising from lo on, no entry equal to its key's default. -/
def Sparse.wfFrom {β : Type} [DecidableEq β] (d : Nat → β) : Nat → List (Nat × β) → Bool
  | _, [] => true
  | lo, (k, v) :: l => decide (lo ≤ k) && !decide (v = d k) && Sparse.wfFrom d (k + 1) l

/-- The canonical form of a sparse table. -/
def Sparse.wf {β : Type} [DecidableEq β] (d : Nat → β) (l : List (Nat × β)) : Bool := Sparse.wfFrom d 0 l

/-- Every entry whose key satisfies p goes back to its default. -/
def Sparse.drop {β : Type} (p : Nat → Bool) : List (Nat × β) → List (Nat × β)
  | [] => []
  | (k, v) :: l => if p k then Sparse.drop p l else (k, v) :: Sparse.drop p l

end Sys2Proof.Machine
end

