-- ==== Sys2Proof/Machine/RegMap.lean ====
section
/-! DEFINITION. The register map: for every register of the spec its address, its fields with the spec's names and access
codes (R14), its reset value and who may write it; made from the register tables of the chapters. The APLIC and the IOMMU have the registers of
the standards that chapter 19 names (log 40). -/
namespace Sys2Proof.Machine

/-- A field of a register: the register's address and the field's bit range. -/
structure Fld where
  addr : Nat
  hi : Nat
  lo : Nat
deriving DecidableEq, Repr

/-- Which masters may write a register: every master, the management cores only (master 0x61), the application and the
management cores, or nobody outside the unit. -/
inductive Writers where
  | all
  | mgt
  | appsMgt
  | nobody
deriving DecidableEq, Repr

/-- A register of the map: first address, the stride and count of each index (outermost first), reset value, the bit masks of
its access codes (R14; a bit in none of them is RO or RSVD), the masters that may write it, and whether a write to it is a
command of its own row of the table. -/
structure RegDesc where
  base : Nat
  dims : List (Nat × Nat)
  reset : Nat
  rw : Nat
  w1c : Nat
  w1s : Nat
  wo : Nat
  rc : Nat
  who : Writers
  own : Bool
deriving DecidableEq, Repr

/-- MGT_DEVICE_ID (R10). -/
def MGT_DEVICE_ID.addr : Nat := 0x10000000
def MGT_DEVICE_ID.PART : Fld := ⟨MGT_DEVICE_ID.addr, 31, 16⟩
def MGT_DEVICE_ID.CMP_STEP_LETTER : Fld := ⟨MGT_DEVICE_ID.addr, 15, 12⟩
def MGT_DEVICE_ID.CMP_STEP_NUM : Fld := ⟨MGT_DEVICE_ID.addr, 11, 8⟩
def MGT_DEVICE_ID.IOD_STEP_LETTER : Fld := ⟨MGT_DEVICE_ID.addr, 7, 4⟩
def MGT_DEVICE_ID.IOD_STEP_NUM : Fld := ⟨MGT_DEVICE_ID.addr, 3, 0⟩
/-- MGT_VARIANT (R11). -/
def MGT_VARIANT.addr : Nat := 0x10000004
def MGT_VARIANT.SITE_MAP : Fld := ⟨MGT_VARIANT.addr, 23, 16⟩
def MGT_VARIANT.SITE_GIB : Fld := ⟨MGT_VARIANT.addr, 11, 10⟩
def MGT_VARIANT.IOD1_PRESENT : Fld := ⟨MGT_VARIANT.addr, 9, 9⟩
def MGT_VARIANT.TEMP_GRADE : Fld := ⟨MGT_VARIANT.addr, 8, 8⟩
/-- MGT_FMT_DESC_LO (R86). -/
def MGT_FMT_DESC_LO.addr (n : Nat) : Nat := 0x10000200 + n * 0x8
def MGT_FMT_DESC_LO.KIND (n : Nat) : Fld := ⟨MGT_FMT_DESC_LO.addr n, 31, 28⟩
def MGT_FMT_DESC_LO.ELEM_BITS (n : Nat) : Fld := ⟨MGT_FMT_DESC_LO.addr n, 27, 22⟩
def MGT_FMT_DESC_LO.EXP_BITS (n : Nat) : Fld := ⟨MGT_FMT_DESC_LO.addr n, 21, 18⟩
def MGT_FMT_DESC_LO.MAN_BITS (n : Nat) : Fld := ⟨MGT_FMT_DESC_LO.addr n, 17, 13⟩
def MGT_FMT_DESC_LO.BIAS (n : Nat) : Fld := ⟨MGT_FMT_DESC_LO.addr n, 12, 5⟩
def MGT_FMT_DESC_LO.SPECIALS (n : Nat) : Fld := ⟨MGT_FMT_DESC_LO.addr n, 4, 3⟩
def MGT_FMT_DESC_LO.OVF (n : Nat) : Fld := ⟨MGT_FMT_DESC_LO.addr n, 1, 0⟩
/-- MGT_FMT_DESC_HI (R87). -/
def MGT_FMT_DESC_HI.addr (n : Nat) : Nat := 0x10000204 + n * 0x8
def MGT_FMT_DESC_HI.BLOCK_LOG2 (n : Nat) : Fld := ⟨MGT_FMT_DESC_HI.addr n, 31, 28⟩
def MGT_FMT_DESC_HI.SCALE_FMT (n : Nat) : Fld := ⟨MGT_FMT_DESC_HI.addr n, 27, 26⟩
def MGT_FMT_DESC_HI.SUB_BLOCK (n : Nat) : Fld := ⟨MGT_FMT_DESC_HI.addr n, 25, 24⟩
def MGT_FMT_DESC_HI.CB_ENTRIES (n : Nat) : Fld := ⟨MGT_FMT_DESC_HI.addr n, 23, 19⟩
def MGT_FMT_DESC_HI.CB_FMT (n : Nat) : Fld := ⟨MGT_FMT_DESC_HI.addr n, 18, 16⟩
def MGT_FMT_DESC_HI.FRAC_BITS (n : Nat) : Fld := ⟨MGT_FMT_DESC_HI.addr n, 15, 12⟩
/-- MGT_FMT_CTRL (R88). -/
def MGT_FMT_CTRL.addr : Nat := 0x10000100
def MGT_FMT_CTRL.BUSY : Fld := ⟨MGT_FMT_CTRL.addr, 31, 31⟩
def MGT_FMT_CTRL.REJECT : Fld := ⟨MGT_FMT_CTRL.addr, 30, 30⟩
def MGT_FMT_CTRL.LOCKED : Fld := ⟨MGT_FMT_CTRL.addr, 29, 29⟩
def MGT_FMT_CTRL.LAST_INDEX : Fld := ⟨MGT_FMT_CTRL.addr, 28, 24⟩
/-- CLU_CAL_STATUS (R118). -/
def CLU_CAL_STATUS.addr (n : Nat) : Nat := 0x30010000 + n * 0x100000
def CLU_CAL_STATUS.STATE (n : Nat) : Fld := ⟨CLU_CAL_STATUS.addr n, 31, 30⟩
def CLU_CAL_STATUS.BANK (n : Nat) : Fld := ⟨CLU_CAL_STATUS.addr n, 29, 29⟩
def CLU_CAL_STATUS.HOLD (n : Nat) : Fld := ⟨CLU_CAL_STATUS.addr n, 28, 28⟩
def CLU_CAL_STATUS.THROTTLED (n : Nat) : Fld := ⟨CLU_CAL_STATUS.addr n, 27, 27⟩
def CLU_CAL_STATUS.ISSUE_Q (n : Nat) : Fld := ⟨CLU_CAL_STATUS.addr n, 26, 20⟩
/-- CLU_CAL_STALL (R119). -/
def CLU_CAL_STALL.addr (n : Nat) : Nat := 0x30010004 + n * 0x100000
def CLU_CAL_STALL.STALL_CYCLES (n : Nat) : Fld := ⟨CLU_CAL_STALL.addr n, 31, 0⟩
/-- CLU_CAL_EMPTY_RED (R120). -/
def CLU_CAL_EMPTY_RED.addr (n : Nat) : Nat := 0x30010008 + n * 0x100000
def CLU_CAL_EMPTY_RED.COUNT (n : Nat) : Fld := ⟨CLU_CAL_EMPTY_RED.addr n, 31, 0⟩
/-- CLU_CAL_SKIP_CHECK (R121). -/
def CLU_CAL_SKIP_CHECK.addr (n : Nat) : Nat := 0x3001000C + n * 0x100000
def CLU_CAL_SKIP_CHECK.COUNT (n : Nat) : Fld := ⟨CLU_CAL_SKIP_CHECK.addr n, 31, 0⟩
/-- CLU_CAL_CHECK_LOG (R122). -/
def CLU_CAL_CHECK_LOG.addr (n : Nat) : Nat := 0x30010010 + n * 0x100000
def CLU_CAL_CHECK_LOG.FAIL_COUNT (n : Nat) : Fld := ⟨CLU_CAL_CHECK_LOG.addr n, 31, 16⟩
def CLU_CAL_CHECK_LOG.VALID (n : Nat) : Fld := ⟨CLU_CAL_CHECK_LOG.addr n, 15, 15⟩
def CLU_CAL_CHECK_LOG.LAST_ROW (n : Nat) : Fld := ⟨CLU_CAL_CHECK_LOG.addr n, 7, 0⟩
/-- CLU_CAL_REPAIR (R123). -/
def CLU_CAL_REPAIR.addr (n : Nat) : Nat := 0x30010020 + n * 0x100000
def CLU_CAL_REPAIR.ROWS_USED (n : Nat) : Fld := ⟨CLU_CAL_REPAIR.addr n, 31, 28⟩
def CLU_CAL_REPAIR.COLS_USED (n : Nat) : Fld := ⟨CLU_CAL_REPAIR.addr n, 27, 26⟩
def CLU_CAL_REPAIR.RECORDS_LEFT (n : Nat) : Fld := ⟨CLU_CAL_REPAIR.addr n, 25, 23⟩
def CLU_CAL_REPAIR.REPAIR_FAIL (n : Nat) : Fld := ⟨CLU_CAL_REPAIR.addr n, 22, 22⟩
def CLU_CAL_REPAIR.PENDING (n : Nat) : Fld := ⟨CLU_CAL_REPAIR.addr n, 21, 21⟩
/-- CLU_ROW_SKIP (R124). -/
def CLU_ROW_SKIP.addr (n j : Nat) : Nat := 0x30010040 + n * 0x100000 + j * 0x4
def CLU_ROW_SKIP.VALID (n j : Nat) : Fld := ⟨CLU_ROW_SKIP.addr n j, 31, 31⟩
def CLU_ROW_SKIP.FIELD (n j : Nat) : Fld := ⟨CLU_ROW_SKIP.addr n j, 30, 30⟩
def CLU_ROW_SKIP.PHYS_ROW (n j : Nat) : Fld := ⟨CLU_ROW_SKIP.addr n j, 8, 0⟩
/-- CLU_COL_SKIP (R125). -/
def CLU_COL_SKIP.addr (n j : Nat) : Nat := 0x30010060 + n * 0x100000 + j * 0x4
def CLU_COL_SKIP.VALID (n j : Nat) : Fld := ⟨CLU_COL_SKIP.addr n j, 31, 31⟩
def CLU_COL_SKIP.FIELD (n j : Nat) : Fld := ⟨CLU_COL_SKIP.addr n j, 30, 30⟩
def CLU_COL_SKIP.PHYS_COL (n j : Nat) : Fld := ⟨CLU_COL_SKIP.addr n j, 5, 0⟩
/-- CLU_BTR_STATUS (R159). -/
def CLU_BTR_STATUS.addr (n : Nat) : Nat := 0x30020000 + n * 0x100000
def CLU_BTR_STATUS.STATE (n : Nat) : Fld := ⟨CLU_BTR_STATUS.addr n, 31, 30⟩
def CLU_BTR_STATUS.INFLIGHT (n : Nat) : Fld := ⟨CLU_BTR_STATUS.addr n, 29, 26⟩
def CLU_BTR_STATUS.SLOTS_VALID (n : Nat) : Fld := ⟨CLU_BTR_STATUS.addr n, 25, 21⟩
/-- CLU_BTR_VAT_STALL (R160). -/
def CLU_BTR_VAT_STALL.addr (n : Nat) : Nat := 0x30020004 + n * 0x100000
def CLU_BTR_VAT_STALL.STALL_CYCLES (n : Nat) : Fld := ⟨CLU_BTR_VAT_STALL.addr n, 31, 0⟩
/-- CLU_BTR_CURVE_MISS (R161). -/
def CLU_BTR_CURVE_MISS.addr (n : Nat) : Nat := 0x30020008 + n * 0x100000
def CLU_BTR_CURVE_MISS.COUNT (n : Nat) : Fld := ⟨CLU_BTR_CURVE_MISS.addr n, 31, 0⟩
/-- CLU_BTR_SMX_EMPTY (R162). -/
def CLU_BTR_SMX_EMPTY.addr (n : Nat) : Nat := 0x3002000C + n * 0x100000
def CLU_BTR_SMX_EMPTY.COUNT (n : Nat) : Fld := ⟨CLU_BTR_SMX_EMPTY.addr n, 31, 0⟩
/-- DCK_LOAD_OBJ_LO (R210). -/
def DCK_LOAD_OBJ_LO.addr : Nat := 0x200F0000
def DCK_LOAD_OBJ_LO.ADDR_LO : Fld := ⟨DCK_LOAD_OBJ_LO.addr, 31, 6⟩
/-- DCK_LOAD_OBJ_HI (R211). -/
def DCK_LOAD_OBJ_HI.addr : Nat := 0x200F0004
def DCK_LOAD_OBJ_HI.ADDR_HI : Fld := ⟨DCK_LOAD_OBJ_HI.addr, 15, 0⟩
/-- DCK_LOAD_CMD (R212). -/
def DCK_LOAD_CMD.addr : Nat := 0x200F0008
def DCK_LOAD_CMD.OP : Fld := ⟨DCK_LOAD_CMD.addr, 31, 30⟩
def DCK_LOAD_CMD.HANDLE : Fld := ⟨DCK_LOAD_CMD.addr, 7, 0⟩
/-- DCK_LOAD_STATUS (R213). -/
def DCK_LOAD_STATUS.addr : Nat := 0x200F000C
def DCK_LOAD_STATUS.BUSY : Fld := ⟨DCK_LOAD_STATUS.addr, 31, 31⟩
def DCK_LOAD_STATUS.DONE : Fld := ⟨DCK_LOAD_STATUS.addr, 30, 30⟩
def DCK_LOAD_STATUS.CMD_REJECT : Fld := ⟨DCK_LOAD_STATUS.addr, 29, 29⟩
def DCK_LOAD_STATUS.REASON : Fld := ⟨DCK_LOAD_STATUS.addr, 23, 16⟩
def DCK_LOAD_STATUS.HANDLE : Fld := ⟨DCK_LOAD_STATUS.addr, 7, 0⟩
/-- DCK_LOAD_LOST (R215). -/
def DCK_LOAD_LOST.addr : Nat := 0x200F0010
def DCK_LOAD_LOST.COUNT : Fld := ⟨DCK_LOAD_LOST.addr, 31, 0⟩
/-- DCK_PART_REC (R201). -/
def DCK_PART_REC.addr (p w : Nat) : Nat := 0x200E0000 + p * 0x40 + w * 0x4
def DCK_PART_REC.WORD (p w : Nat) : Fld := ⟨DCK_PART_REC.addr p w, 31, 0⟩
/-- DCK_DL_NOW (R270). -/
def DCK_DL_NOW.addr : Nat := 0x20000000
def DCK_DL_NOW.NOW : Fld := ⟨DCK_DL_NOW.addr, 31, 0⟩
/-- DCK_INFLIGHT (R271). -/
def DCK_INFLIGHT.addr : Nat := 0x20000004
def DCK_INFLIGHT.COUNT : Fld := ⟨DCK_INFLIGHT.addr, 12, 0⟩
/-- DCK_INFLIGHT_RESERVE (R271). -/
def DCK_INFLIGHT_RESERVE.addr (p : Nat) : Nat := 0x20000100 + p * 0x4
def DCK_INFLIGHT_RESERVE.COUNT (p : Nat) : Fld := ⟨DCK_INFLIGHT_RESERVE.addr p, 12, 0⟩
/-- DCK_PART_AGE (R272). -/
def DCK_PART_AGE.addr (p b : Nat) : Nat := 0x20000200 + p * 0x10 + b * 0x4
def DCK_PART_AGE.AGE_US (p b : Nat) : Fld := ⟨DCK_PART_AGE.addr p b, 30, 0⟩
/-- DCK_SAVE_LO (R273). -/
def DCK_SAVE_LO.addr (p : Nat) : Nat := 0x20000300 + p * 0x10
def DCK_SAVE_LO.BASE (p : Nat) : Fld := ⟨DCK_SAVE_LO.addr p, 31, 16⟩
/-- DCK_SAVE_HI (R273). -/
def DCK_SAVE_HI.addr (p : Nat) : Nat := 0x20000304 + p * 0x10
def DCK_SAVE_HI.BASE (p : Nat) : Fld := ⟨DCK_SAVE_HI.addr p, 31, 16⟩
/-- DCK_SAVE_SLOT (R274). -/
def DCK_SAVE_SLOT.addr (p : Nat) : Nat := 0x20000308 + p * 0x10
def DCK_SAVE_SLOT.SLOTS (p : Nat) : Fld := ⟨DCK_SAVE_SLOT.addr p, 31, 24⟩
def DCK_SAVE_SLOT.SLOT_SHEETS (p : Nat) : Fld := ⟨DCK_SAVE_SLOT.addr p, 22, 16⟩
def DCK_SAVE_SLOT.SLOTS_FREE (p : Nat) : Fld := ⟨DCK_SAVE_SLOT.addr p, 15, 8⟩
/-- DCK_PART_JOBS (R266). -/
def DCK_PART_JOBS.addr (p : Nat) : Nat := 0x20000400 + p * 0x4
def DCK_PART_JOBS.COUNT (p : Nat) : Fld := ⟨DCK_PART_JOBS.addr p, 31, 0⟩
/-- DCK_CLU_STATE (R275). -/
def DCK_CLU_STATE.addr (n : Nat) : Nat := 0x20001000 + n * 0x4
def DCK_CLU_STATE.STATE (n : Nat) : Fld := ⟨DCK_CLU_STATE.addr n, 31, 29⟩
def DCK_CLU_STATE.DEADLINE (n : Nat) : Fld := ⟨DCK_CLU_STATE.addr n, 28, 28⟩
def DCK_CLU_STATE.QUEUE (n : Nat) : Fld := ⟨DCK_CLU_STATE.addr n, 14, 0⟩
/-- DCK_CLU_TAG (R276). -/
def DCK_CLU_TAG.addr (n j : Nat) : Nat := 0x20002000 + n * 0x20 + j * 0x4
def DCK_CLU_TAG.TAG (n j : Nat) : Fld := ⟨DCK_CLU_TAG.addr n j, 31, 0⟩
/-- DCK_CELL (R268). -/
def DCK_CELL.addr (n : Nat) : Nat := (if n < 32768 then 0x20100000 + n * 0x4 else 0x20900000 + (n - 32768) * 0x4)
def DCK_CELL.VALUE (n : Nat) : Fld := ⟨DCK_CELL.addr n, 31, 0⟩
/-- DCK_CELL_ADD (R268). -/
def DCK_CELL_ADD.addr (n : Nat) : Nat := (if n < 32768 then 0x20120000 + n * 0x4 else 0x20920000 + (n - 32768) * 0x4)
def DCK_CELL_ADD.VALUE (n : Nat) : Fld := ⟨DCK_CELL_ADD.addr n, 31, 0⟩
/-- DCK_CELL_FLAGS (R269). -/
def DCK_CELL_FLAGS.addr (n : Nat) : Nat := (if n < 32768 then 0x20140000 + n * 0x4 else 0x20940000 + (n - 32768) * 0x4)
def DCK_CELL_FLAGS.CANCEL (n : Nat) : Fld := ⟨DCK_CELL_FLAGS.addr n, 1, 1⟩
def DCK_CELL_FLAGS.WRAP (n : Nat) : Fld := ⟨DCK_CELL_FLAGS.addr n, 0, 0⟩
/-- DCK_QUEUE_CFG (R259). -/
def DCK_QUEUE_CFG.addr (q : Nat) : Nat := (if q < 16384 then 0x20200000 + q * 0x40 else 0x20A00000 + (q - 16384) * 0x40)
def DCK_QUEUE_CFG.EN (q : Nat) : Fld := ⟨DCK_QUEUE_CFG.addr q, 31, 31⟩
def DCK_QUEUE_CFG.ENGINE (q : Nat) : Fld := ⟨DCK_QUEUE_CFG.addr q, 30, 28⟩
def DCK_QUEUE_CFG.DEF_BAND (q : Nat) : Fld := ⟨DCK_QUEUE_CFG.addr q, 27, 26⟩
def DCK_QUEUE_CFG.VER_MAX (q : Nat) : Fld := ⟨DCK_QUEUE_CFG.addr q, 25, 22⟩
def DCK_QUEUE_CFG.VER_MIN (q : Nat) : Fld := ⟨DCK_QUEUE_CFG.addr q, 21, 18⟩
def DCK_QUEUE_CFG.VER_USED (q : Nat) : Fld := ⟨DCK_QUEUE_CFG.addr q, 17, 14⟩
/-- DCK_QUEUE_RING_LO (R260). -/
def DCK_QUEUE_RING_LO.addr (q : Nat) : Nat := (if q < 16384 then 0x20200004 + q * 0x40 else 0x20A00004 + (q - 16384) * 0x40)
def DCK_QUEUE_RING_LO.BASE_LO (q : Nat) : Fld := ⟨DCK_QUEUE_RING_LO.addr q, 31, 12⟩
def DCK_QUEUE_RING_LO.LOG2_SIZE (q : Nat) : Fld := ⟨DCK_QUEUE_RING_LO.addr q, 4, 0⟩
/-- DCK_QUEUE_RING_HI (R261). -/
def DCK_QUEUE_RING_HI.addr (q : Nat) : Nat := (if q < 16384 then 0x20200008 + q * 0x40 else 0x20A00008 + (q - 16384) * 0x40)
def DCK_QUEUE_RING_HI.BASE_HI (q : Nat) : Fld := ⟨DCK_QUEUE_RING_HI.addr q, 15, 0⟩
/-- DCK_QUEUE_CPL_LO (R260). -/
def DCK_QUEUE_CPL_LO.addr (q : Nat) : Nat := (if q < 16384 then 0x2020000C + q * 0x40 else 0x20A0000C + (q - 16384) * 0x40)
def DCK_QUEUE_CPL_LO.BASE_LO (q : Nat) : Fld := ⟨DCK_QUEUE_CPL_LO.addr q, 31, 12⟩
def DCK_QUEUE_CPL_LO.LOG2_SIZE (q : Nat) : Fld := ⟨DCK_QUEUE_CPL_LO.addr q, 4, 0⟩
/-- DCK_QUEUE_CPL_HI (R261). -/
def DCK_QUEUE_CPL_HI.addr (q : Nat) : Nat := (if q < 16384 then 0x20200010 + q * 0x40 else 0x20A00010 + (q - 16384) * 0x40)
def DCK_QUEUE_CPL_HI.BASE_HI (q : Nat) : Fld := ⟨DCK_QUEUE_CPL_HI.addr q, 15, 0⟩
/-- DCK_QUEUE_HEAD (R262). -/
def DCK_QUEUE_HEAD.addr (q : Nat) : Nat := (if q < 16384 then 0x20200014 + q * 0x40 else 0x20A00014 + (q - 16384) * 0x40)
def DCK_QUEUE_HEAD.COUNT (q : Nat) : Fld := ⟨DCK_QUEUE_HEAD.addr q, 31, 0⟩
/-- DCK_QUEUE_TAIL (R262). -/
def DCK_QUEUE_TAIL.addr (q : Nat) : Nat := (if q < 16384 then 0x20200018 + q * 0x40 else 0x20A00018 + (q - 16384) * 0x40)
def DCK_QUEUE_TAIL.COUNT (q : Nat) : Fld := ⟨DCK_QUEUE_TAIL.addr q, 31, 0⟩
/-- DCK_QUEUE_DB (R263). -/
def DCK_QUEUE_DB.addr (q : Nat) : Nat := (if q < 16384 then 0x2020001C + q * 0x40 else 0x20A0001C + (q - 16384) * 0x40)
def DCK_QUEUE_DB.NEW_COUNT (q : Nat) : Fld := ⟨DCK_QUEUE_DB.addr q, 31, 0⟩
/-- DCK_QUEUE_CPL_HEAD (R263). -/
def DCK_QUEUE_CPL_HEAD.addr (q : Nat) : Nat := (if q < 16384 then 0x20200020 + q * 0x40 else 0x20A00020 + (q - 16384) * 0x40)
def DCK_QUEUE_CPL_HEAD.NEW_COUNT (q : Nat) : Fld := ⟨DCK_QUEUE_CPL_HEAD.addr q, 31, 0⟩
/-- DCK_QUEUE_CPL_TAIL (R262). -/
def DCK_QUEUE_CPL_TAIL.addr (q : Nat) : Nat := (if q < 16384 then 0x20200024 + q * 0x40 else 0x20A00024 + (q - 16384) * 0x40)
def DCK_QUEUE_CPL_TAIL.COUNT (q : Nat) : Fld := ⟨DCK_QUEUE_CPL_TAIL.addr q, 31, 0⟩
/-- DCK_QUEUE_STATUS (R264). -/
def DCK_QUEUE_STATUS.addr (q : Nat) : Nat := (if q < 16384 then 0x20200028 + q * 0x40 else 0x20A00028 + (q - 16384) * 0x40)
def DCK_QUEUE_STATUS.HALT (q : Nat) : Fld := ⟨DCK_QUEUE_STATUS.addr q, 31, 31⟩
def DCK_QUEUE_STATUS.BOUND (q : Nat) : Fld := ⟨DCK_QUEUE_STATUS.addr q, 30, 30⟩
def DCK_QUEUE_STATUS.CPL_STALL (q : Nat) : Fld := ⟨DCK_QUEUE_STATUS.addr q, 29, 29⟩
def DCK_QUEUE_STATUS.WAITING (q : Nat) : Fld := ⟨DCK_QUEUE_STATUS.addr q, 28, 28⟩
def DCK_QUEUE_STATUS.PREEMPTED (q : Nat) : Fld := ⟨DCK_QUEUE_STATUS.addr q, 27, 27⟩
def DCK_QUEUE_STATUS.OVERDUE (q : Nat) : Fld := ⟨DCK_QUEUE_STATUS.addr q, 26, 26⟩
def DCK_QUEUE_STATUS.FULL_REJ (q : Nat) : Fld := ⟨DCK_QUEUE_STATUS.addr q, 25, 25⟩
def DCK_QUEUE_STATUS.CPL_REJ (q : Nat) : Fld := ⟨DCK_QUEUE_STATUS.addr q, 24, 24⟩
def DCK_QUEUE_STATUS.DB_IGNORED (q : Nat) : Fld := ⟨DCK_QUEUE_STATUS.addr q, 23, 23⟩
def DCK_QUEUE_STATUS.CFG_ERR (q : Nat) : Fld := ⟨DCK_QUEUE_STATUS.addr q, 22, 20⟩
def DCK_QUEUE_STATUS.HALT_CODE (q : Nat) : Fld := ⟨DCK_QUEUE_STATUS.addr q, 19, 16⟩
def DCK_QUEUE_STATUS.CLUSTER (q : Nat) : Fld := ⟨DCK_QUEUE_STATUS.addr q, 7, 0⟩
/-- DCK_QUEUE_CTRL (R265). -/
def DCK_QUEUE_CTRL.addr (q : Nat) : Nat := (if q < 16384 then 0x2020002C + q * 0x40 else 0x20A0002C + (q - 16384) * 0x40)
def DCK_QUEUE_CTRL.CANCEL_TASK (q : Nat) : Fld := ⟨DCK_QUEUE_CTRL.addr q, 31, 31⟩
def DCK_QUEUE_CTRL.CANCEL_ALL (q : Nat) : Fld := ⟨DCK_QUEUE_CTRL.addr q, 30, 30⟩
def DCK_QUEUE_CTRL.RESUME (q : Nat) : Fld := ⟨DCK_QUEUE_CTRL.addr q, 29, 29⟩
/-- DCK_QUEUE_JOBS (R266). -/
def DCK_QUEUE_JOBS.addr (q : Nat) : Nat := (if q < 16384 then 0x20200030 + q * 0x40 else 0x20A00030 + (q - 16384) * 0x40)
def DCK_QUEUE_JOBS.COUNT (q : Nat) : Fld := ⟨DCK_QUEUE_JOBS.addr q, 31, 0⟩
/-- DCK_QUEUE_CANCELS (R266). -/
def DCK_QUEUE_CANCELS.addr (q : Nat) : Nat := (if q < 16384 then 0x20200034 + q * 0x40 else 0x20A00034 + (q - 16384) * 0x40)
def DCK_QUEUE_CANCELS.COUNT (q : Nat) : Fld := ⟨DCK_QUEUE_CANCELS.addr q, 31, 0⟩
/-- DCK_QUEUE_IRQ (R267). -/
def DCK_QUEUE_IRQ.addr (q : Nat) : Nat := (if q < 16384 then 0x20200038 + q * 0x40 else 0x20A00038 + (q - 16384) * 0x40)
def DCK_QUEUE_IRQ.EN (q : Nat) : Fld := ⟨DCK_QUEUE_IRQ.addr q, 31, 31⟩
def DCK_QUEUE_IRQ.ERR_ONLY (q : Nat) : Fld := ⟨DCK_QUEUE_IRQ.addr q, 30, 30⟩
def DCK_QUEUE_IRQ.HART (q : Nat) : Fld := ⟨DCK_QUEUE_IRQ.addr q, 20, 16⟩
def DCK_QUEUE_IRQ.EIID (q : Nat) : Fld := ⟨DCK_QUEUE_IRQ.addr q, 10, 0⟩
/-- QUI_ARG (R307). -/
def QUI_ARG.addr (p j : Nat) : Nat := 0x21010000 + p * 0x10000 + j * 0x4
def QUI_ARG.VALUE (p j : Nat) : Fld := ⟨QUI_ARG.addr p j, 31, 0⟩
/-- QUI_CMD (R308). -/
def QUI_CMD.addr (p : Nat) : Nat := 0x21010020 + p * 0x10000
def QUI_CMD.OP (p : Nat) : Fld := ⟨QUI_CMD.addr p, 31, 24⟩
/-- QUI_CMD_STATUS (R309). -/
def QUI_CMD_STATUS.addr (p : Nat) : Nat := 0x21010024 + p * 0x10000
def QUI_CMD_STATUS.BUSY (p : Nat) : Fld := ⟨QUI_CMD_STATUS.addr p, 31, 31⟩
def QUI_CMD_STATUS.DONE (p : Nat) : Fld := ⟨QUI_CMD_STATUS.addr p, 30, 30⟩
def QUI_CMD_STATUS.CMD_REJECT (p : Nat) : Fld := ⟨QUI_CMD_STATUS.addr p, 29, 29⟩
def QUI_CMD_STATUS.LAST_OP (p : Nat) : Fld := ⟨QUI_CMD_STATUS.addr p, 15, 8⟩
def QUI_CMD_STATUS.CODE (p : Nat) : Fld := ⟨QUI_CMD_STATUS.addr p, 7, 0⟩
/-- QUI_RESULT (R310). -/
def QUI_RESULT.addr (p j : Nat) : Nat := 0x21010028 + p * 0x10000 + j * 0x4
def QUI_RESULT.VALUE (p j : Nat) : Fld := ⟨QUI_RESULT.addr p j, 31, 0⟩
/-- QUI_IRQ (R311). -/
def QUI_IRQ.addr (p : Nat) : Nat := 0x21010030 + p * 0x10000
def QUI_IRQ.EN (p : Nat) : Fld := ⟨QUI_IRQ.addr p, 31, 31⟩
def QUI_IRQ.ERR_ONLY (p : Nat) : Fld := ⟨QUI_IRQ.addr p, 30, 30⟩
def QUI_IRQ.HART (p : Nat) : Fld := ⟨QUI_IRQ.addr p, 20, 16⟩
def QUI_IRQ.EIID (p : Nat) : Fld := ⟨QUI_IRQ.addr p, 10, 0⟩
/-- QUI_COW (R312). -/
def QUI_COW.addr (p : Nat) : Nat := 0x21010040 + p * 0x10000
def QUI_COW.COUNT (p : Nat) : Fld := ⟨QUI_COW.addr p, 31, 0⟩
/-- QUI_POOL_EMPTY (R312). -/
def QUI_POOL_EMPTY.addr (p : Nat) : Nat := 0x21010044 + p * 0x10000
def QUI_POOL_EMPTY.COUNT (p : Nat) : Fld := ⟨QUI_POOL_EMPTY.addr p, 31, 0⟩
/-- QUI_POOL_FREE (R313). -/
def QUI_POOL_FREE.addr (p : Nat) : Nat := 0x21010048 + p * 0x10000
def QUI_POOL_FREE.COUNT (p : Nat) : Fld := ⟨QUI_POOL_FREE.addr p, 22, 0⟩
/-- QUI_PINNED (R313). -/
def QUI_PINNED.addr (p : Nat) : Nat := 0x2101004C + p * 0x10000
def QUI_PINNED.COUNT (p : Nat) : Fld := ⟨QUI_PINNED.addr p, 22, 0⟩
/-- QUI_POOL_LO (R314). -/
def QUI_POOL_LO.addr (p : Nat) : Nat := 0x21010080 + p * 0x10000
def QUI_POOL_LO.BASE (p : Nat) : Fld := ⟨QUI_POOL_LO.addr p, 31, 16⟩
/-- QUI_POOL_HI (R314). -/
def QUI_POOL_HI.addr (p : Nat) : Nat := 0x21010084 + p * 0x10000
def QUI_POOL_HI.BASE (p : Nat) : Fld := ⟨QUI_POOL_HI.addr p, 31, 16⟩
/-- QUI_META_LO (R314). -/
def QUI_META_LO.addr (p : Nat) : Nat := 0x21010088 + p * 0x10000
def QUI_META_LO.BASE (p : Nat) : Fld := ⟨QUI_META_LO.addr p, 31, 16⟩
/-- QUI_META_HI (R314). -/
def QUI_META_HI.addr (p : Nat) : Nat := 0x2101008C + p * 0x10000
def QUI_META_HI.BASE (p : Nat) : Fld := ⟨QUI_META_HI.addr p, 31, 16⟩
/-- QUI_POOL_SHEETS (R315). -/
def QUI_POOL_SHEETS.addr (p : Nat) : Nat := 0x21010090 + p * 0x10000
def QUI_POOL_SHEETS.SHEETS (p : Nat) : Fld := ⟨QUI_POOL_SHEETS.addr p, 22, 0⟩
/-- QUI_BATCH (R316). -/
def QUI_BATCH.addr (b : Nat) : Nat := 0x21000100 + b * 0x4
def QUI_BATCH.OPEN (b : Nat) : Fld := ⟨QUI_BATCH.addr b, 31, 31⟩
def QUI_BATCH.STEP_OPEN (b : Nat) : Fld := ⟨QUI_BATCH.addr b, 30, 30⟩
def QUI_BATCH.KIND (b : Nat) : Fld := ⟨QUI_BATCH.addr b, 29, 29⟩
def QUI_BATCH.ARMED (b : Nat) : Fld := ⟨QUI_BATCH.addr b, 28, 28⟩
def QUI_BATCH.PARTITION (b : Nat) : Fld := ⟨QUI_BATCH.addr b, 27, 25⟩
def QUI_BATCH.MEMBERS (b : Nat) : Fld := ⟨QUI_BATCH.addr b, 24, 14⟩
/-- QUI_SLOT (R279). -/
def QUI_SLOT.addr (s w : Nat) : Nat := (if s < 512 then 0x21100000 + s * 0x20 else 0x21900000 + (s - 512) * 0x20) + w * 0x4
def QUI_SLOT.WORD (s w : Nat) : Fld := ⟨QUI_SLOT.addr s w, 31, 0⟩
/-- MEM_SPLIT (R352). -/
def MEM_SPLIT.addr : Nat := 0x2300F000
def MEM_SPLIT.LOCK : Fld := ⟨MEM_SPLIT.addr, 31, 31⟩
def MEM_SPLIT.BOTH_32M : Fld := ⟨MEM_SPLIT.addr, 11, 0⟩
/-- MEM_STALL (R353). -/
def MEM_STALL.addr (p c : Nat) : Nat := 0x2300F100 + p * 0x20 + c * 0x4
def MEM_STALL.COUNT (p c : Nat) : Fld := ⟨MEM_STALL.addr p c, 31, 0⟩
/-- MEM_CTL_STATUS (R354). -/
def MEM_CTL_STATUS.addr (n : Nat) : Nat := 0x23000000 + n * 0x100000
def MEM_CTL_STATUS.TRAINED (n : Nat) : Fld := ⟨MEM_CTL_STATUS.addr n, 31, 31⟩
def MEM_CTL_STATUS.BIST_DONE (n : Nat) : Fld := ⟨MEM_CTL_STATUS.addr n, 30, 30⟩
def MEM_CTL_STATUS.BIST_FAIL (n : Nat) : Fld := ⟨MEM_CTL_STATUS.addr n, 29, 29⟩
def MEM_CTL_STATUS.INIT_DONE (n : Nat) : Fld := ⟨MEM_CTL_STATUS.addr n, 28, 28⟩
def MEM_CTL_STATUS.CH_FAIL (n : Nat) : Fld := ⟨MEM_CTL_STATUS.addr n, 15, 0⟩
/-- MEM_CTL_BIST_ADDR (R355). -/
def MEM_CTL_BIST_ADDR.addr (n : Nat) : Nat := 0x23000004 + n * 0x100000
def MEM_CTL_BIST_ADDR.CHANNEL (n : Nat) : Fld := ⟨MEM_CTL_BIST_ADDR.addr n, 31, 28⟩
def MEM_CTL_BIST_ADDR.BLOCK (n : Nat) : Fld := ⟨MEM_CTL_BIST_ADDR.addr n, 22, 0⟩
/-- MEM_CTL_LINK_CORR (R356). -/
def MEM_CTL_LINK_CORR.addr (n : Nat) : Nat := 0x23000010 + n * 0x100000
def MEM_CTL_LINK_CORR.COUNT (n : Nat) : Fld := ⟨MEM_CTL_LINK_CORR.addr n, 31, 0⟩
/-- MEM_CTL_LINK_UNCORR (R356). -/
def MEM_CTL_LINK_UNCORR.addr (n : Nat) : Nat := 0x23000014 + n * 0x100000
def MEM_CTL_LINK_UNCORR.COUNT (n : Nat) : Fld := ⟨MEM_CTL_LINK_UNCORR.addr n, 31, 0⟩
/-- MEM_CTL_WM_RETRY_OK (R356). -/
def MEM_CTL_WM_RETRY_OK.addr (n : Nat) : Nat := 0x23000018 + n * 0x100000
def MEM_CTL_WM_RETRY_OK.COUNT (n : Nat) : Fld := ⟨MEM_CTL_WM_RETRY_OK.addr n, 31, 0⟩
/-- MEM_CTL_WM_FAIL (R356). -/
def MEM_CTL_WM_FAIL.addr (n : Nat) : Nat := 0x2300001C + n * 0x100000
def MEM_CTL_WM_FAIL.COUNT (n : Nat) : Fld := ⟨MEM_CTL_WM_FAIL.addr n, 31, 0⟩
/-- MEM_CTL_PATROL (R357). -/
def MEM_CTL_PATROL.addr (n : Nat) : Nat := 0x23000020 + n * 0x100000
def MEM_CTL_PATROL.SWEEP_S (n : Nat) : Fld := ⟨MEM_CTL_PATROL.addr n, 31, 16⟩
def MEM_CTL_PATROL.SWEEPS (n : Nat) : Fld := ⟨MEM_CTL_PATROL.addr n, 15, 0⟩
/-- MEM_PMV_RING_CFG (R358). -/
def MEM_PMV_RING_CFG.addr (m r : Nat) : Nat := 0x23800100 + m * 0x10000 + r * 0x40
def MEM_PMV_RING_CFG.EN (m r : Nat) : Fld := ⟨MEM_PMV_RING_CFG.addr m r, 31, 31⟩
def MEM_PMV_RING_CFG.CFG_ERR (m r : Nat) : Fld := ⟨MEM_PMV_RING_CFG.addr m r, 30, 28⟩
/-- MEM_PMV_RING_LO (R358). -/
def MEM_PMV_RING_LO.addr (m r : Nat) : Nat := 0x23800104 + m * 0x10000 + r * 0x40
def MEM_PMV_RING_LO.BASE_LO (m r : Nat) : Fld := ⟨MEM_PMV_RING_LO.addr m r, 31, 12⟩
def MEM_PMV_RING_LO.LOG2_SIZE (m r : Nat) : Fld := ⟨MEM_PMV_RING_LO.addr m r, 4, 0⟩
/-- MEM_PMV_RING_HI (R358). -/
def MEM_PMV_RING_HI.addr (m r : Nat) : Nat := 0x23800108 + m * 0x10000 + r * 0x40
def MEM_PMV_RING_HI.BASE_HI (m r : Nat) : Fld := ⟨MEM_PMV_RING_HI.addr m r, 15, 0⟩
/-- MEM_PMV_RING_HEAD (R358). -/
def MEM_PMV_RING_HEAD.addr (m r : Nat) : Nat := 0x2380010C + m * 0x10000 + r * 0x40
def MEM_PMV_RING_HEAD.COUNT (m r : Nat) : Fld := ⟨MEM_PMV_RING_HEAD.addr m r, 31, 0⟩
/-- MEM_PMV_RING_TAIL (R358). -/
def MEM_PMV_RING_TAIL.addr (m r : Nat) : Nat := 0x23800110 + m * 0x10000 + r * 0x40
def MEM_PMV_RING_TAIL.COUNT (m r : Nat) : Fld := ⟨MEM_PMV_RING_TAIL.addr m r, 31, 0⟩
/-- MEM_PMV_RING_DB (R358). -/
def MEM_PMV_RING_DB.addr (m r : Nat) : Nat := 0x23800114 + m * 0x10000 + r * 0x40
def MEM_PMV_RING_DB.NEW_COUNT (m r : Nat) : Fld := ⟨MEM_PMV_RING_DB.addr m r, 31, 0⟩
/-- MEM_PMV_RING_STATUS (R359). -/
def MEM_PMV_RING_STATUS.addr (m r : Nat) : Nat := 0x23800118 + m * 0x10000 + r * 0x40
def MEM_PMV_RING_STATUS.FULL_REJ (m r : Nat) : Fld := ⟨MEM_PMV_RING_STATUS.addr m r, 31, 31⟩
def MEM_PMV_RING_STATUS.FAILED (m r : Nat) : Fld := ⟨MEM_PMV_RING_STATUS.addr m r, 30, 30⟩
def MEM_PMV_RING_STATUS.IN_PROGRESS (m r : Nat) : Fld := ⟨MEM_PMV_RING_STATUS.addr m r, 29, 24⟩
def MEM_PMV_RING_STATUS.LAST_CODE (m r : Nat) : Fld := ⟨MEM_PMV_RING_STATUS.addr m r, 23, 20⟩
def MEM_PMV_RING_STATUS.LAST_SLOT (m r : Nat) : Fld := ⟨MEM_PMV_RING_STATUS.addr m r, 15, 0⟩
/-- MEM_PMV_T2_TIMEOUT (R360). -/
def MEM_PMV_T2_TIMEOUT.addr (m : Nat) : Nat := 0x23800040 + m * 0x10000
def MEM_PMV_T2_TIMEOUT.US (m : Nat) : Fld := ⟨MEM_PMV_T2_TIMEOUT.addr m, 15, 0⟩
/-- MEM_PMV_NVME_CFG (R361). -/
def MEM_PMV_NVME_CFG.addr (m : Nat) : Nat := 0x23800800 + m * 0x10000
def MEM_PMV_NVME_CFG.EN (m : Nat) : Fld := ⟨MEM_PMV_NVME_CFG.addr m, 31, 31⟩
def MEM_PMV_NVME_CFG.LBA_4K (m : Nat) : Fld := ⟨MEM_PMV_NVME_CFG.addr m, 30, 30⟩
def MEM_PMV_NVME_CFG.PORT (m : Nat) : Fld := ⟨MEM_PMV_NVME_CFG.addr m, 29, 29⟩
def MEM_PMV_NVME_CFG.LOG2_QSIZE (m : Nat) : Fld := ⟨MEM_PMV_NVME_CFG.addr m, 28, 24⟩
def MEM_PMV_NVME_CFG.QID (m : Nat) : Fld := ⟨MEM_PMV_NVME_CFG.addr m, 15, 0⟩
/-- MEM_PMV_NVME_NSID (R361). -/
def MEM_PMV_NVME_NSID.addr (m : Nat) : Nat := 0x23800804 + m * 0x10000
def MEM_PMV_NVME_NSID.NSID (m : Nat) : Fld := ⟨MEM_PMV_NVME_NSID.addr m, 31, 0⟩
/-- MEM_PMV_NVME_LO (R361). -/
def MEM_PMV_NVME_LO.addr (m k : Nat) : Nat := 0x23800808 + m * 0x10000 + k * 0x8
def MEM_PMV_NVME_LO.ADDR (m k : Nat) : Fld := ⟨MEM_PMV_NVME_LO.addr m k, 31, 2⟩
/-- MEM_PMV_NVME_HI (R361). -/
def MEM_PMV_NVME_HI.addr (m k : Nat) : Nat := 0x2380080C + m * 0x10000 + k * 0x8
def MEM_PMV_NVME_HI.ADDR (m k : Nat) : Fld := ⟨MEM_PMV_NVME_HI.addr m k, 15, 0⟩
/-- ITG_BROKE_LO (R416). -/
def ITG_BROKE_LO.addr : Nat := 0x13000000
def ITG_BROKE_LO.BASE_LO : Fld := ⟨ITG_BROKE_LO.addr, 31, 12⟩
def ITG_BROKE_LO.LOG2_SIZE : Fld := ⟨ITG_BROKE_LO.addr, 4, 0⟩
/-- ITG_BROKE_HI (R416). -/
def ITG_BROKE_HI.addr : Nat := 0x13000004
def ITG_BROKE_HI.BASE_HI : Fld := ⟨ITG_BROKE_HI.addr, 15, 0⟩
/-- ITG_BROKE_TAIL (R417). -/
def ITG_BROKE_TAIL.addr : Nat := 0x13000008
def ITG_BROKE_TAIL.COUNT : Fld := ⟨ITG_BROKE_TAIL.addr, 31, 0⟩
/-- ITG_BROKE_HEAD (R417). -/
def ITG_BROKE_HEAD.addr : Nat := 0x1300000C
def ITG_BROKE_HEAD.COUNT : Fld := ⟨ITG_BROKE_HEAD.addr, 31, 0⟩
/-- ITG_BROKE_STATUS (R418). -/
def ITG_BROKE_STATUS.addr : Nat := 0x13000010
def ITG_BROKE_STATUS.EN : Fld := ⟨ITG_BROKE_STATUS.addr, 31, 31⟩
def ITG_BROKE_STATUS.FULL : Fld := ⟨ITG_BROKE_STATUS.addr, 30, 30⟩
/-- ITG_BROKE_LOST (R419). -/
def ITG_BROKE_LOST.addr : Nat := 0x13000014
def ITG_BROKE_LOST.COUNT : Fld := ⟨ITG_BROKE_LOST.addr, 31, 0⟩
/-- ITG_BROKE_IRQ (R420). -/
def ITG_BROKE_IRQ.addr : Nat := 0x13000018
def ITG_BROKE_IRQ.EN : Fld := ⟨ITG_BROKE_IRQ.addr, 31, 31⟩
def ITG_BROKE_IRQ.ERR_ONLY : Fld := ⟨ITG_BROKE_IRQ.addr, 30, 30⟩
def ITG_BROKE_IRQ.HART : Fld := ⟨ITG_BROKE_IRQ.addr, 20, 16⟩
def ITG_BROKE_IRQ.EIID : Fld := ⟨ITG_BROKE_IRQ.addr, 10, 0⟩
/-- ITG_POLICY (R421). -/
def ITG_POLICY.addr : Nat := 0x13000020
def ITG_POLICY.STRIKE_LIMIT : Fld := ⟨ITG_POLICY.addr, 31, 28⟩
def ITG_POLICY.PROV_TIMEOUT_MS : Fld := ⟨ITG_POLICY.addr, 27, 12⟩
def ITG_POLICY.WDOG : Fld := ⟨ITG_POLICY.addr, 11, 0⟩
/-- ITG_SWEEP (R422). -/
def ITG_SWEEP.addr : Nat := 0x13000024
def ITG_SWEEP.SWEEP_H : Fld := ⟨ITG_SWEEP.addr, 15, 0⟩
/-- ITG_STRESS (R423). -/
def ITG_STRESS.addr (r : Nat) : Nat := 0x13000040 + r * 0x4
def ITG_STRESS.TJ_LO (r : Nat) : Fld := ⟨ITG_STRESS.addr r, 31, 24⟩
def ITG_STRESS.TJ_HI (r : Nat) : Fld := ⟨ITG_STRESS.addr r, 23, 16⟩
def ITG_STRESS.V_DROP_5MV (r : Nat) : Fld := ⟨ITG_STRESS.addr r, 15, 11⟩
def ITG_STRESS.F_UP_PCT (r : Nat) : Fld := ⟨ITG_STRESS.addr r, 10, 4⟩
def ITG_STRESS.VALID (r : Nat) : Fld := ⟨ITG_STRESS.addr r, 0, 0⟩
/-- ITG_FT_REQ (R424). -/
def ITG_FT_REQ.addr : Nat := 0x13000100
def ITG_FT_REQ.ANY : Fld := ⟨ITG_FT_REQ.addr, 31, 31⟩
def ITG_FT_REQ.FORCE : Fld := ⟨ITG_FT_REQ.addr, 30, 30⟩
def ITG_FT_REQ.CLUSTER : Fld := ⟨ITG_FT_REQ.addr, 5, 0⟩
/-- ITG_FT_STATUS (R425). -/
def ITG_FT_STATUS.addr : Nat := 0x13000104
def ITG_FT_STATUS.REJECT : Fld := ⟨ITG_FT_STATUS.addr, 31, 31⟩
def ITG_FT_STATUS.ACTIVE : Fld := ⟨ITG_FT_STATUS.addr, 26, 24⟩
def ITG_FT_STATUS.PENDING : Fld := ⟨ITG_FT_STATUS.addr, 6, 0⟩
/-- ITG_CLU (R426). -/
def ITG_CLU.addr (n : Nat) : Nat := 0x13001000 + n * 0x4
def ITG_CLU.SVC (n : Nat) : Fld := ⟨ITG_CLU.addr n, 31, 29⟩
def ITG_CLU.EPOCH (n : Nat) : Fld := ⟨ITG_CLU.addr n, 23, 20⟩
def ITG_CLU.STRIKES (n : Nat) : Fld := ⟨ITG_CLU.addr n, 19, 16⟩
def ITG_CLU.LAST_KIND (n : Nat) : Fld := ⟨ITG_CLU.addr n, 15, 8⟩
/-- ITG_FT_RESULT (R427). -/
def ITG_FT_RESULT.addr (n : Nat) : Nat := 0x13001100 + n * 0x4
def ITG_FT_RESULT.OUTCOME (n : Nat) : Fld := ⟨ITG_FT_RESULT.addr n, 31, 30⟩
def ITG_FT_RESULT.NO_STRESS (n : Nat) : Fld := ⟨ITG_FT_RESULT.addr n, 29, 29⟩
def ITG_FT_RESULT.STRESS_ROW (n : Nat) : Fld := ⟨ITG_FT_RESULT.addr n, 28, 26⟩
def ITG_FT_RESULT.FAIL_AT_NOM (n : Nat) : Fld := ⟨ITG_FT_RESULT.addr n, 25, 25⟩
def ITG_FT_RESULT.FAULT_COL_VALID (n : Nat) : Fld := ⟨ITG_FT_RESULT.addr n, 24, 24⟩
def ITG_FT_RESULT.FAULT_ROW_VALID (n : Nat) : Fld := ⟨ITG_FT_RESULT.addr n, 23, 23⟩
def ITG_FT_RESULT.FAULT_COL (n : Nat) : Fld := ⟨ITG_FT_RESULT.addr n, 22, 17⟩
def ITG_FT_RESULT.FAULT_ROW (n : Nat) : Fld := ⟨ITG_FT_RESULT.addr n, 16, 8⟩
def ITG_FT_RESULT.PASSES (n : Nat) : Fld := ⟨ITG_FT_RESULT.addr n, 7, 0⟩
/-- ITG_STALE_DROP (R428). -/
def ITG_STALE_DROP.addr (n : Nat) : Nat := 0x13001200 + n * 0x4
def ITG_STALE_DROP.COUNT (n : Nat) : Fld := ⟨ITG_STALE_DROP.addr n, 31, 0⟩
/-- ITG_UNIT_FAIL (R428). -/
def ITG_UNIT_FAIL.addr (m : Nat) : Nat := 0x13001400 + m * 0x4
def ITG_UNIT_FAIL.COUNT (m : Nat) : Fld := ⟨ITG_UNIT_FAIL.addr m, 31, 0⟩
/-- ITG_PROV_STALL (R428). -/
def ITG_PROV_STALL.addr (p : Nat) : Nat := 0x13001300 + p * 0x4
def ITG_PROV_STALL.COUNT (p : Nat) : Fld := ⟨ITG_PROV_STALL.addr p, 31, 0⟩
/-- ITG_PROV (R429). -/
def ITG_PROV.addr (p : Nat) : Nat := 0x13001340 + p * 0x4
def ITG_PROV.OPEN (p : Nat) : Fld := ⟨ITG_PROV.addr p, 24, 16⟩
def ITG_PROV.NEXT_SEQ (p : Nat) : Fld := ⟨ITG_PROV.addr p, 15, 0⟩
/-- ITG_LOCKSTEP (R430). -/
def ITG_LOCKSTEP.addr : Nat := 0x13000200
def ITG_LOCKSTEP.TLT : Fld := ⟨ITG_LOCKSTEP.addr, 31, 16⟩
def ITG_LOCKSTEP.MGT : Fld := ⟨ITG_LOCKSTEP.addr, 15, 0⟩
/-- HBX_TBL_CTRL (R377). -/
def HBX_TBL_CTRL.addr : Nat := 0x22000800
def HBX_TBL_CTRL.BUSY : Fld := ⟨HBX_TBL_CTRL.addr, 31, 31⟩
def HBX_TBL_CTRL.REJECT : Fld := ⟨HBX_TBL_CTRL.addr, 30, 30⟩
def HBX_TBL_CTRL.LAST_ENTRY : Fld := ⟨HBX_TBL_CTRL.addr, 29, 24⟩
def HBX_TBL_CTRL.DEFAULT_CLASS : Fld := ⟨HBX_TBL_CTRL.addr, 20, 16⟩
/-- HBX_MULTI_MATCH (R378). -/
def HBX_MULTI_MATCH.addr : Nat := 0x22000804
def HBX_MULTI_MATCH.COUNT : Fld := ⟨HBX_MULTI_MATCH.addr, 31, 0⟩
/-- HBX_NO_MATCH (R378). -/
def HBX_NO_MATCH.addr : Nat := 0x22000808
def HBX_NO_MATCH.COUNT : Fld := ⟨HBX_NO_MATCH.addr, 31, 0⟩
/-- HBX_MATCH_CTRL (R379). -/
def HBX_MATCH_CTRL.addr (e : Nat) : Nat := 0x22001000 + e * 0x10
def HBX_MATCH_CTRL.VALID (e : Nat) : Fld := ⟨HBX_MATCH_CTRL.addr e, 31, 31⟩
def HBX_MATCH_CTRL.WIN_EN (e : Nat) : Fld := ⟨HBX_MATCH_CTRL.addr e, 30, 30⟩
def HBX_MATCH_CTRL.PRIO (e : Nat) : Fld := ⟨HBX_MATCH_CTRL.addr e, 29, 28⟩
def HBX_MATCH_CTRL.CLASS (e : Nat) : Fld := ⟨HBX_MATCH_CTRL.addr e, 20, 16⟩
def HBX_MATCH_CTRL.MID (e : Nat) : Fld := ⟨HBX_MATCH_CTRL.addr e, 15, 8⟩
def HBX_MATCH_CTRL.MID_MASK (e : Nat) : Fld := ⟨HBX_MATCH_CTRL.addr e, 7, 0⟩
/-- HBX_MATCH_BASE (R380). -/
def HBX_MATCH_BASE.addr (e : Nat) : Nat := 0x22001004 + e * 0x10
def HBX_MATCH_BASE.ADDR (e : Nat) : Fld := ⟨HBX_MATCH_BASE.addr e, 31, 0⟩
/-- HBX_MATCH_LIMIT (R380). -/
def HBX_MATCH_LIMIT.addr (e : Nat) : Nat := 0x22001008 + e * 0x10
def HBX_MATCH_LIMIT.ADDR (e : Nat) : Fld := ⟨HBX_MATCH_LIMIT.addr e, 31, 0⟩
/-- HBX_CFG (R381). -/
def HBX_CFG.addr (i : Nat) : Nat := 0x22000000 + i * 0x800000
def HBX_CFG.CTL_HWM (i : Nat) : Fld := ⟨HBX_CFG.addr i, 31, 23⟩
def HBX_CFG.LINK_HWM (i : Nat) : Fld := ⟨HBX_CFG.addr i, 22, 15⟩
def HBX_CFG.AGE_64NS (i : Nat) : Fld := ⟨HBX_CFG.addr i, 11, 0⟩
/-- HBX_AGED (R382). -/
def HBX_AGED.addr (i : Nat) : Nat := 0x22000004 + i * 0x800000
def HBX_AGED.COUNT (i : Nat) : Fld := ⟨HBX_AGED.addr i, 31, 0⟩
/-- HBX_CLASS (R383). -/
def HBX_CLASS.addr (i c : Nat) : Nat := 0x22010000 + i * 0x800000 + c * 0x40
def HBX_CLASS.WINDOW_LOG2 (i c : Nat) : Fld := ⟨HBX_CLASS.addr i c, 31, 28⟩
def HBX_CLASS.BASE_LEVEL (i c : Nat) : Fld := ⟨HBX_CLASS.addr i c, 27, 25⟩
def HBX_CLASS.THROTTLE_Q (i c : Nat) : Fld := ⟨HBX_CLASS.addr i c, 24, 18⟩
def HBX_CLASS.LAT_TARGET (i c : Nat) : Fld := ⟨HBX_CLASS.addr i c, 15, 0⟩
/-- HBX_BUDGET (R384). -/
def HBX_BUDGET.addr (i c : Nat) : Nat := 0x22010004 + i * 0x800000 + c * 0x40
def HBX_BUDGET.UNITS (i c : Nat) : Fld := ⟨HBX_BUDGET.addr i c, 31, 0⟩
/-- HBX_LINK_BUDGET (R384). -/
def HBX_LINK_BUDGET.addr (i c l : Nat) : Nat := 0x22010008 + i * 0x800000 + c * 0x40 + l * 0x4
def HBX_LINK_BUDGET.UNITS (i c l : Nat) : Fld := ⟨HBX_LINK_BUDGET.addr i c l, 31, 0⟩
/-- HBX_STATUS (R385). -/
def HBX_STATUS.addr (i c : Nat) : Nat := 0x22010014 + i * 0x800000 + c * 0x40
def HBX_STATUS.OVER (i c : Nat) : Fld := ⟨HBX_STATUS.addr i c, 31, 31⟩
def HBX_STATUS.HOLD (i c : Nat) : Fld := ⟨HBX_STATUS.addr i c, 30, 24⟩
def HBX_STATUS.LEVEL (i c : Nat) : Fld := ⟨HBX_STATUS.addr i c, 23, 21⟩
def HBX_STATUS.LAT_AVG (i c : Nat) : Fld := ⟨HBX_STATUS.addr i c, 15, 0⟩
/-- HBX_USED (R386). -/
def HBX_USED.addr (i c : Nat) : Nat := 0x22010018 + i * 0x800000 + c * 0x40
def HBX_USED.UNITS (i c : Nat) : Fld := ⟨HBX_USED.addr i c, 31, 0⟩
/-- HBX_BYTES_LO (R387). -/
def HBX_BYTES_LO.addr (i c : Nat) : Nat := 0x22010020 + i * 0x800000 + c * 0x40
def HBX_BYTES_LO.BYTES (i c : Nat) : Fld := ⟨HBX_BYTES_LO.addr i c, 31, 0⟩
/-- HBX_BYTES_HI (R387). -/
def HBX_BYTES_HI.addr (i c : Nat) : Nat := 0x22010024 + i * 0x800000 + c * 0x40
def HBX_BYTES_HI.BYTES (i c : Nat) : Fld := ⟨HBX_BYTES_HI.addr i c, 31, 0⟩
/-- HBX_OVER_WIN (R388). -/
def HBX_OVER_WIN.addr (i c : Nat) : Nat := 0x22010028 + i * 0x800000 + c * 0x40
def HBX_OVER_WIN.COUNT (i c : Nat) : Fld := ⟨HBX_OVER_WIN.addr i c, 31, 0⟩
/-- HBX_HELD (R388). -/
def HBX_HELD.addr (i c : Nat) : Nat := 0x2201002C + i * 0x800000 + c * 0x40
def HBX_HELD.COUNT (i c : Nat) : Fld := ⟨HBX_HELD.addr i c, 31, 0⟩
/-- TIM_NOW_LO (R549). -/
def TIM_NOW_LO.addr : Nat := 0x14000000
def TIM_NOW_LO.VALUE : Fld := ⟨TIM_NOW_LO.addr, 31, 0⟩
/-- TIM_NOW_HI (R549). -/
def TIM_NOW_HI.addr : Nat := 0x14000004
def TIM_NOW_HI.VALUE : Fld := ⟨TIM_NOW_HI.addr, 31, 0⟩
/-- TIM_STEP_LO (R550). -/
def TIM_STEP_LO.addr : Nat := 0x14000008
def TIM_STEP_LO.VALUE : Fld := ⟨TIM_STEP_LO.addr, 31, 0⟩
/-- TIM_STEP_HI (R550). -/
def TIM_STEP_HI.addr : Nat := 0x1400000C
def TIM_STEP_HI.VALUE : Fld := ⟨TIM_STEP_HI.addr, 31, 0⟩
/-- TIM_RATE (R551). -/
def TIM_RATE.addr : Nat := 0x14000010
def TIM_RATE.RHO : Fld := ⟨TIM_RATE.addr, 31, 0⟩
/-- TIM_CTRL (R552). -/
def TIM_CTRL.addr : Nat := 0x14000014
def TIM_CTRL.STEP : Fld := ⟨TIM_CTRL.addr, 31, 31⟩
/-- TIM_EPOCH_LO (R550). -/
def TIM_EPOCH_LO.addr : Nat := 0x14000018
def TIM_EPOCH_LO.VALUE : Fld := ⟨TIM_EPOCH_LO.addr, 31, 0⟩
/-- TIM_EPOCH_HI (R550). -/
def TIM_EPOCH_HI.addr : Nat := 0x1400001C
def TIM_EPOCH_HI.VALUE : Fld := ⟨TIM_EPOCH_HI.addr, 31, 0⟩
/-- TIM_EVENT (R552). -/
def TIM_EVENT.addr : Nat := 0x14000020
def TIM_EVENT.WRAP : Fld := ⟨TIM_EVENT.addr, 31, 31⟩
def TIM_EVENT.STEPPED : Fld := ⟨TIM_EVENT.addr, 30, 30⟩
/-- TIM_IRQ (R552). -/
def TIM_IRQ.addr : Nat := 0x14000024
def TIM_IRQ.EN : Fld := ⟨TIM_IRQ.addr, 31, 31⟩
def TIM_IRQ.ERR_ONLY : Fld := ⟨TIM_IRQ.addr, 30, 30⟩
def TIM_IRQ.HART : Fld := ⟨TIM_IRQ.addr, 20, 16⟩
def TIM_IRQ.EIID : Fld := ⟨TIM_IRQ.addr, 10, 0⟩
/-- ETH_CFG (R553). -/
def ETH_CFG.addr (n : Nat) : Nat := 0x60000000 + n * 0x100000
def ETH_CFG.EN (n : Nat) : Fld := ⟨ETH_CFG.addr n, 31, 31⟩
def ETH_CFG.LINK (n : Nat) : Fld := ⟨ETH_CFG.addr n, 30, 30⟩
def ETH_CFG.SPEED (n : Nat) : Fld := ⟨ETH_CFG.addr n, 29, 28⟩
def ETH_CFG.DEF_QUEUE (n : Nat) : Fld := ⟨ETH_CFG.addr n, 27, 25⟩
def ETH_CFG.NOTICE_Q (n : Nat) : Fld := ⟨ETH_CFG.addr n, 24, 22⟩
def ETH_CFG.LATE_NS (n : Nat) : Fld := ⟨ETH_CFG.addr n, 15, 0⟩
/-- ETH_LAT (R553). -/
def ETH_LAT.addr (n : Nat) : Nat := 0x60000004 + n * 0x100000
def ETH_LAT.TX_NS (n : Nat) : Fld := ⟨ETH_LAT.addr n, 31, 16⟩
def ETH_LAT.RX_NS (n : Nat) : Fld := ⟨ETH_LAT.addr n, 15, 0⟩
/-- ETH_MAC_ADDR_LO (R553). -/
def ETH_MAC_ADDR_LO.addr (n : Nat) : Nat := 0x60000008 + n * 0x100000
def ETH_MAC_ADDR_LO.ADDR (n : Nat) : Fld := ⟨ETH_MAC_ADDR_LO.addr n, 31, 0⟩
/-- ETH_MAC_ADDR_HI (R553). -/
def ETH_MAC_ADDR_HI.addr (n : Nat) : Nat := 0x6000000C + n * 0x100000
def ETH_MAC_ADDR_HI.ADDR (n : Nat) : Fld := ⟨ETH_MAC_ADDR_HI.addr n, 15, 0⟩
/-- ETH_NOTICE_DA_LO (R553). -/
def ETH_NOTICE_DA_LO.addr (n : Nat) : Nat := 0x60000010 + n * 0x100000
def ETH_NOTICE_DA_LO.DA (n : Nat) : Fld := ⟨ETH_NOTICE_DA_LO.addr n, 31, 0⟩
/-- ETH_NOTICE_DA_HI (R553). -/
def ETH_NOTICE_DA_HI.addr (n : Nat) : Nat := 0x60000014 + n * 0x100000
def ETH_NOTICE_DA_HI.TAG_EN (n : Nat) : Fld := ⟨ETH_NOTICE_DA_HI.addr n, 31, 31⟩
def ETH_NOTICE_DA_HI.PCP (n : Nat) : Fld := ⟨ETH_NOTICE_DA_HI.addr n, 30, 28⟩
def ETH_NOTICE_DA_HI.VID (n : Nat) : Fld := ⟨ETH_NOTICE_DA_HI.addr n, 27, 16⟩
def ETH_NOTICE_DA_HI.DA (n : Nat) : Fld := ⟨ETH_NOTICE_DA_HI.addr n, 15, 0⟩
/-- ETH_TPL (R553). -/
def ETH_TPL.addr (n c k : Nat) : Nat := 0x60000080 + n * 0x100000 + c * 0x10 + k * 0x4
def ETH_TPL.WORD (n c k : Nat) : Fld := ⟨ETH_TPL.addr n c k, 31, 0⟩
/-- ETH_Q_CFG (R554). -/
def ETH_Q_CFG.addr (n q : Nat) : Nat := 0x60000100 + n * 0x100000 + q * 0x4
def ETH_Q_CFG.TX_EN (n q : Nat) : Fld := ⟨ETH_Q_CFG.addr n q, 31, 31⟩
def ETH_Q_CFG.RX_EN (n q : Nat) : Fld := ⟨ETH_Q_CFG.addr n q, 30, 30⟩
def ETH_Q_CFG.TILTH (n q : Nat) : Fld := ⟨ETH_Q_CFG.addr n q, 29, 29⟩
def ETH_Q_CFG.LATE_POLICY (n q : Nat) : Fld := ⟨ETH_Q_CFG.addr n q, 28, 28⟩
/-- ETH_CLS (R555). -/
def ETH_CLS.addr (n e : Nat) : Nat := 0x60000400 + n * 0x100000 + e * 0x10
def ETH_CLS.VALID (n e : Nat) : Fld := ⟨ETH_CLS.addr n e, 31, 31⟩
def ETH_CLS.ACTION (n e : Nat) : Fld := ⟨ETH_CLS.addr n e, 30, 29⟩
def ETH_CLS.QUEUE (n e : Nat) : Fld := ⟨ETH_CLS.addr n e, 28, 26⟩
def ETH_CLS.MATCH (n e : Nat) : Fld := ⟨ETH_CLS.addr n e, 25, 21⟩
def ETH_CLS.TLT_CTX (n e : Nat) : Fld := ⟨ETH_CLS.addr n e, 20, 19⟩
def ETH_CLS.TLT_GROUP (n e : Nat) : Fld := ⟨ETH_CLS.addr n e, 18, 15⟩
def ETH_CLS.PAYLOAD_OFF (n e : Nat) : Fld := ⟨ETH_CLS.addr n e, 13, 0⟩
/-- ETH_CLS_W1 (R555). -/
def ETH_CLS_W1.addr (n e : Nat) : Nat := 0x60000404 + n * 0x100000 + e * 0x10
def ETH_CLS_W1.DA (n e : Nat) : Fld := ⟨ETH_CLS_W1.addr n e, 31, 0⟩
/-- ETH_CLS_W2 (R555). -/
def ETH_CLS_W2.addr (n e : Nat) : Nat := 0x60000408 + n * 0x100000 + e * 0x10
def ETH_CLS_W2.ETYPE (n e : Nat) : Fld := ⟨ETH_CLS_W2.addr n e, 31, 16⟩
def ETH_CLS_W2.DA (n e : Nat) : Fld := ⟨ETH_CLS_W2.addr n e, 15, 0⟩
/-- ETH_CLS_W3 (R555). -/
def ETH_CLS_W3.addr (n e : Nat) : Nat := 0x6000040C + n * 0x100000 + e * 0x10
def ETH_CLS_W3.PCP (n e : Nat) : Fld := ⟨ETH_CLS_W3.addr n e, 30, 28⟩
def ETH_CLS_W3.VID (n e : Nat) : Fld := ⟨ETH_CLS_W3.addr n e, 27, 16⟩
def ETH_CLS_W3.UDP (n e : Nat) : Fld := ⟨ETH_CLS_W3.addr n e, 15, 0⟩
/-- ETH_GATE_CTRL (R556). -/
def ETH_GATE_CTRL.addr (n : Nat) : Nat := 0x60000800 + n * 0x100000
def ETH_GATE_CTRL.GATE_EN (n : Nat) : Fld := ⟨ETH_GATE_CTRL.addr n, 31, 31⟩
def ETH_GATE_CTRL.CHANGE (n : Nat) : Fld := ⟨ETH_GATE_CTRL.addr n, 30, 30⟩
def ETH_GATE_CTRL.REJECT (n : Nat) : Fld := ⟨ETH_GATE_CTRL.addr n, 29, 29⟩
def ETH_GATE_CTRL.LIST_LEN (n : Nat) : Fld := ⟨ETH_GATE_CTRL.addr n, 8, 0⟩
/-- ETH_GATE_CYCLE (R556). -/
def ETH_GATE_CYCLE.addr (n : Nat) : Nat := 0x60000804 + n * 0x100000
def ETH_GATE_CYCLE.CYCLE_NS (n : Nat) : Fld := ⟨ETH_GATE_CYCLE.addr n, 31, 0⟩
/-- ETH_GATE_BASE_LO (R556). -/
def ETH_GATE_BASE_LO.addr (n : Nat) : Nat := 0x60000808 + n * 0x100000
def ETH_GATE_BASE_LO.BASE (n : Nat) : Fld := ⟨ETH_GATE_BASE_LO.addr n, 31, 0⟩
/-- ETH_GATE_BASE_HI (R556). -/
def ETH_GATE_BASE_HI.addr (n : Nat) : Nat := 0x6000080C + n * 0x100000
def ETH_GATE_BASE_HI.BASE (n : Nat) : Fld := ⟨ETH_GATE_BASE_HI.addr n, 31, 0⟩
/-- ETH_CNT (R557). -/
def ETH_CNT.addr (n k : Nat) : Nat := 0x60000C00 + n * 0x100000 + k * 0x4
def ETH_CNT.COUNT (n k : Nat) : Fld := ⟨ETH_CNT.addr n k, 31, 0⟩
/-- ETH_TXQ_LO (R540). -/
def ETH_TXQ_LO.addr (n q : Nat) : Nat := 0x60001000 + n * 0x100000 + q * 0x40
def ETH_TXQ_LO.BASE_LO (n q : Nat) : Fld := ⟨ETH_TXQ_LO.addr n q, 31, 12⟩
def ETH_TXQ_LO.LOG2_SIZE (n q : Nat) : Fld := ⟨ETH_TXQ_LO.addr n q, 4, 0⟩
/-- ETH_TXQ_HI (R540). -/
def ETH_TXQ_HI.addr (n q : Nat) : Nat := 0x60001004 + n * 0x100000 + q * 0x40
def ETH_TXQ_HI.BASE_HI (n q : Nat) : Fld := ⟨ETH_TXQ_HI.addr n q, 15, 0⟩
/-- ETH_TXQ_HEAD (R540). -/
def ETH_TXQ_HEAD.addr (n q : Nat) : Nat := 0x60001008 + n * 0x100000 + q * 0x40
def ETH_TXQ_HEAD.COUNT (n q : Nat) : Fld := ⟨ETH_TXQ_HEAD.addr n q, 31, 0⟩
/-- ETH_TXQ_TAIL (R540). -/
def ETH_TXQ_TAIL.addr (n q : Nat) : Nat := 0x6000100C + n * 0x100000 + q * 0x40
def ETH_TXQ_TAIL.COUNT (n q : Nat) : Fld := ⟨ETH_TXQ_TAIL.addr n q, 31, 0⟩
/-- ETH_TXQ_DB (R540). -/
def ETH_TXQ_DB.addr (n q : Nat) : Nat := 0x60001010 + n * 0x100000 + q * 0x40
def ETH_TXQ_DB.NEW_COUNT (n q : Nat) : Fld := ⟨ETH_TXQ_DB.addr n q, 31, 0⟩
/-- ETH_RXQ_LO (R540). -/
def ETH_RXQ_LO.addr (n q : Nat) : Nat := 0x60001400 + n * 0x100000 + q * 0x40
def ETH_RXQ_LO.BASE_LO (n q : Nat) : Fld := ⟨ETH_RXQ_LO.addr n q, 31, 12⟩
def ETH_RXQ_LO.LOG2_SIZE (n q : Nat) : Fld := ⟨ETH_RXQ_LO.addr n q, 4, 0⟩
/-- ETH_RXQ_HI (R540). -/
def ETH_RXQ_HI.addr (n q : Nat) : Nat := 0x60001404 + n * 0x100000 + q * 0x40
def ETH_RXQ_HI.BASE_HI (n q : Nat) : Fld := ⟨ETH_RXQ_HI.addr n q, 15, 0⟩
/-- ETH_RXQ_HEAD (R540). -/
def ETH_RXQ_HEAD.addr (n q : Nat) : Nat := 0x60001408 + n * 0x100000 + q * 0x40
def ETH_RXQ_HEAD.COUNT (n q : Nat) : Fld := ⟨ETH_RXQ_HEAD.addr n q, 31, 0⟩
/-- ETH_RXQ_TAIL (R540). -/
def ETH_RXQ_TAIL.addr (n q : Nat) : Nat := 0x6000140C + n * 0x100000 + q * 0x40
def ETH_RXQ_TAIL.COUNT (n q : Nat) : Fld := ⟨ETH_RXQ_TAIL.addr n q, 31, 0⟩
/-- ETH_RXQ_DB (R540). -/
def ETH_RXQ_DB.addr (n q : Nat) : Nat := 0x60001410 + n * 0x100000 + q * 0x40
def ETH_RXQ_DB.NEW_COUNT (n q : Nat) : Fld := ⟨ETH_RXQ_DB.addr n q, 31, 0⟩
/-- ETH_GCL (R556). -/
def ETH_GCL.addr (n e : Nat) : Nat := 0x60001800 + n * 0x100000 + e * 0x4
def ETH_GCL.GATES (n e : Nat) : Fld := ⟨ETH_GCL.addr n e, 31, 24⟩
def ETH_GCL.INTERVAL (n e : Nat) : Fld := ⟨ETH_GCL.addr n e, 23, 0⟩
/-- ZTH_CFG (R575). -/
def ZTH_CFG.addr (p : Nat) : Nat := 0x63000000 + p * 0x100000
def ZTH_CFG.EN (p : Nat) : Fld := ⟨ZTH_CFG.addr p, 31, 31⟩
def ZTH_CFG.RETRAIN (p : Nat) : Fld := ⟨ZTH_CFG.addr p, 30, 30⟩
/-- ZTH_STATUS (R576). -/
def ZTH_STATUS.addr (p : Nat) : Nat := 0x63000004 + p * 0x100000
def ZTH_STATUS.STATE (p : Nat) : Fld := ⟨ZTH_STATUS.addr p, 31, 29⟩
def ZTH_STATUS.REVERSED (p : Nat) : Fld := ⟨ZTH_STATUS.addr p, 28, 28⟩
def ZTH_STATUS.POLARITY (p : Nat) : Fld := ⟨ZTH_STATUS.addr p, 27, 20⟩
def ZTH_STATUS.VER_USED (p : Nat) : Fld := ⟨ZTH_STATUS.addr p, 19, 16⟩
def ZTH_STATUS.PEER_NODE (p : Nat) : Fld := ⟨ZTH_STATUS.addr p, 15, 8⟩
def ZTH_STATUS.LANE_LOCK (p : Nat) : Fld := ⟨ZTH_STATUS.addr p, 7, 0⟩
/-- ZTH_EVENT (R577). -/
def ZTH_EVENT.addr (p : Nat) : Nat := 0x63000008 + p * 0x100000
def ZTH_EVENT.UP (p : Nat) : Fld := ⟨ZTH_EVENT.addr p, 31, 31⟩
def ZTH_EVENT.DOWN (p : Nat) : Fld := ⟨ZTH_EVENT.addr p, 30, 30⟩
def ZTH_EVENT.MISMATCH (p : Nat) : Fld := ⟨ZTH_EVENT.addr p, 29, 29⟩
def ZTH_EVENT.PEER_RESET (p : Nat) : Fld := ⟨ZTH_EVENT.addr p, 28, 28⟩
/-- ZTH_IRQ (R578). -/
def ZTH_IRQ.addr (p : Nat) : Nat := 0x6300000C + p * 0x100000
def ZTH_IRQ.EN (p : Nat) : Fld := ⟨ZTH_IRQ.addr p, 31, 31⟩
def ZTH_IRQ.ERR_ONLY (p : Nat) : Fld := ⟨ZTH_IRQ.addr p, 30, 30⟩
def ZTH_IRQ.HART (p : Nat) : Fld := ⟨ZTH_IRQ.addr p, 20, 16⟩
def ZTH_IRQ.EIID (p : Nat) : Fld := ⟨ZTH_IRQ.addr p, 10, 0⟩
/-- ZTH_IN_BASE (R570). -/
def ZTH_IN_BASE.addr (p : Nat) : Nat := 0x63000010 + p * 0x100000
def ZTH_IN_BASE.ADDR (p : Nat) : Fld := ⟨ZTH_IN_BASE.addr p, 31, 0⟩
/-- ZTH_IN_LIMIT (R570). -/
def ZTH_IN_LIMIT.addr (p : Nat) : Nat := 0x63000014 + p * 0x100000
def ZTH_IN_LIMIT.ADDR (p : Nat) : Fld := ⟨ZTH_IN_LIMIT.addr p, 31, 0⟩
/-- ZTH_NODE (R570). -/
def ZTH_NODE.addr : Nat := 0x63000020
def ZTH_NODE.NODE_ID : Fld := ⟨ZTH_NODE.addr, 7, 0⟩
/-- ZTH_ROUTE_MULTI (R569). -/
def ZTH_ROUTE_MULTI.addr : Nat := 0x63000024
def ZTH_ROUTE_MULTI.COUNT : Fld := ⟨ZTH_ROUTE_MULTI.addr, 31, 0⟩
/-- ZTH_CNT (R578). -/
def ZTH_CNT.addr (p k : Nat) : Nat := 0x63000100 + p * 0x100000 + k * 0x4
def ZTH_CNT.COUNT (p k : Nat) : Fld := ⟨ZTH_CNT.addr p k, 31, 0⟩
/-- ZTH_ROUTE (R579). -/
def ZTH_ROUTE.addr (e : Nat) : Nat := 0x63008000 + e * 0x10
def ZTH_ROUTE.VALID (e : Nat) : Fld := ⟨ZTH_ROUTE.addr e, 31, 31⟩
def ZTH_ROUTE.KIND (e : Nat) : Fld := ⟨ZTH_ROUTE.addr e, 30, 30⟩
def ZTH_ROUTE.PORT (e : Nat) : Fld := ⟨ZTH_ROUTE.addr e, 29, 28⟩
def ZTH_ROUTE.VC (e : Nat) : Fld := ⟨ZTH_ROUTE.addr e, 27, 26⟩
def ZTH_ROUTE.WIN (e : Nat) : Fld := ⟨ZTH_ROUTE.addr e, 25, 24⟩
def ZTH_ROUTE.DST_NODE (e : Nat) : Fld := ⟨ZTH_ROUTE.addr e, 23, 16⟩
/-- ZTH_ROUTE_W1 (R579). -/
def ZTH_ROUTE_W1.addr (e : Nat) : Nat := 0x63008004 + e * 0x10
def ZTH_ROUTE_W1.WIN_LIMIT (e : Nat) : Fld := ⟨ZTH_ROUTE_W1.addr e, 29, 16⟩
def ZTH_ROUTE_W1.WIN_BASE (e : Nat) : Fld := ⟨ZTH_ROUTE_W1.addr e, 13, 0⟩
/-- ZTH_ROUTE_W2 (R579). -/
def ZTH_ROUTE_W2.addr (e : Nat) : Nat := 0x63008008 + e * 0x10
def ZTH_ROUTE_W2.REMOTE (e : Nat) : Fld := ⟨ZTH_ROUTE_W2.addr e, 31, 0⟩
/-- ZTH_ROUTE_W3 (R579). -/
def ZTH_ROUTE_W3.addr (e : Nat) : Nat := 0x6300800C + e * 0x10
def ZTH_ROUTE_W3.RSVD0 (e : Nat) : Fld := ⟨ZTH_ROUTE_W3.addr e, 31, 0⟩
/-- CSI_CFG (R587). -/
def CSI_CFG.addr (p : Nat) : Nat := 0x61000000 + p * 0x100000
def CSI_CFG.EN (p : Nat) : Fld := ⟨CSI_CFG.addr p, 31, 31⟩
def CSI_CFG.LANES (p : Nat) : Fld := ⟨CSI_CFG.addr p, 30, 29⟩
def CSI_CFG.LANE_MAP (p : Nat) : Fld := ⟨CSI_CFG.addr p, 28, 21⟩
def CSI_CFG.DATA_POL (p : Nat) : Fld := ⟨CSI_CFG.addr p, 20, 17⟩
def CSI_CFG.CLK_POL (p : Nat) : Fld := ⟨CSI_CFG.addr p, 16, 16⟩
def CSI_CFG.RATE_10M (p : Nat) : Fld := ⟨CSI_CFG.addr p, 15, 6⟩
/-- CSI_LAT (R588). -/
def CSI_LAT.addr (p : Nat) : Nat := 0x61000004 + p * 0x100000
def CSI_LAT.LAT_NS (p : Nat) : Fld := ⟨CSI_LAT.addr p, 15, 0⟩
/-- CSI_CNT (R589). -/
def CSI_CNT.addr (p k : Nat) : Nat := 0x61000040 + p * 0x100000 + k * 0x4
def CSI_CNT.COUNT (p k : Nat) : Fld := ⟨CSI_CNT.addr p k, 31, 0⟩
/-- CSI_CTX_CFG (R586). -/
def CSI_CTX_CFG.addr (p v : Nat) : Nat := 0x61000100 + p * 0x100000 + v * 0x20
def CSI_CTX_CFG.EN (p v : Nat) : Fld := ⟨CSI_CTX_CFG.addr p v, 31, 31⟩
def CSI_CTX_CFG.SIGNAL_EN (p v : Nat) : Fld := ⟨CSI_CTX_CFG.addr p v, 30, 30⟩
def CSI_CTX_CFG.VC (p v : Nat) : Fld := ⟨CSI_CTX_CFG.addr p v, 29, 26⟩
def CSI_CTX_CFG.DT (p v : Nat) : Fld := ⟨CSI_CTX_CFG.addr p v, 25, 20⟩
def CSI_CTX_CFG.LINE_PITCH_64 (p v : Nat) : Fld := ⟨CSI_CTX_CFG.addr p v, 11, 0⟩
/-- CSI_CTX_LO (R586). -/
def CSI_CTX_LO.addr (p v : Nat) : Nat := 0x61000104 + p * 0x100000 + v * 0x20
def CSI_CTX_LO.BASE_LO (p v : Nat) : Fld := ⟨CSI_CTX_LO.addr p v, 31, 12⟩
def CSI_CTX_LO.LOG2_SIZE (p v : Nat) : Fld := ⟨CSI_CTX_LO.addr p v, 4, 0⟩
/-- CSI_CTX_HI (R586). -/
def CSI_CTX_HI.addr (p v : Nat) : Nat := 0x61000108 + p * 0x100000 + v * 0x20
def CSI_CTX_HI.BASE_HI (p v : Nat) : Fld := ⟨CSI_CTX_HI.addr p v, 15, 0⟩
/-- CSI_CTX_HEAD (R586). -/
def CSI_CTX_HEAD.addr (p v : Nat) : Nat := 0x6100010C + p * 0x100000 + v * 0x20
def CSI_CTX_HEAD.COUNT (p v : Nat) : Fld := ⟨CSI_CTX_HEAD.addr p v, 31, 0⟩
/-- CSI_CTX_TAIL (R586). -/
def CSI_CTX_TAIL.addr (p v : Nat) : Nat := 0x61000110 + p * 0x100000 + v * 0x20
def CSI_CTX_TAIL.COUNT (p v : Nat) : Fld := ⟨CSI_CTX_TAIL.addr p v, 31, 0⟩
/-- CSI_CTX_DB (R586). -/
def CSI_CTX_DB.addr (p v : Nat) : Nat := 0x61000114 + p * 0x100000 + v * 0x20
def CSI_CTX_DB.NEW_COUNT (p v : Nat) : Fld := ⟨CSI_CTX_DB.addr p v, 31, 0⟩
/-- CSI_CTX_CELL (R586). -/
def CSI_CTX_CELL.addr (p v : Nat) : Nat := 0x61000118 + p * 0x100000 + v * 0x20
def CSI_CTX_CELL.CELL (p v : Nat) : Fld := ⟨CSI_CTX_CELL.addr p v, 15, 0⟩
/-- PCI_CFG (R593). -/
def PCI_CFG.addr (p : Nat) : Nat := 0x62000000 + p * 0x800000
def PCI_CFG.MODE (p : Nat) : Fld := ⟨PCI_CFG.addr p, 31, 30⟩
def PCI_CFG.LOCK (p : Nat) : Fld := ⟨PCI_CFG.addr p, 29, 29⟩
def PCI_CFG.MAX_WIDTH (p : Nat) : Fld := ⟨PCI_CFG.addr p, 28, 27⟩
def PCI_CFG.MAX_RATE (p : Nat) : Fld := ⟨PCI_CFG.addr p, 26, 24⟩
def PCI_CFG.LINK_UP (p : Nat) : Fld := ⟨PCI_CFG.addr p, 23, 23⟩
def PCI_CFG.WIDTH (p : Nat) : Fld := ⟨PCI_CFG.addr p, 22, 21⟩
def PCI_CFG.RATE (p : Nat) : Fld := ⟨PCI_CFG.addr p, 20, 18⟩
def PCI_CFG.BAR0_LOG2 (p : Nat) : Fld := ⟨PCI_CFG.addr p, 15, 11⟩
/-- PCI_OB_BASE_LO (R594). -/
def PCI_OB_BASE_LO.addr (p : Nat) : Nat := 0x62000010 + p * 0x800000
def PCI_OB_BASE_LO.ADDR (p : Nat) : Fld := ⟨PCI_OB_BASE_LO.addr p, 31, 20⟩
/-- PCI_OB_BASE_HI (R594). -/
def PCI_OB_BASE_HI.addr (p : Nat) : Nat := 0x62000014 + p * 0x800000
def PCI_OB_BASE_HI.ADDR (p : Nat) : Fld := ⟨PCI_OB_BASE_HI.addr p, 31, 0⟩
/-- PCI_IN_BASE_LO (R594). -/
def PCI_IN_BASE_LO.addr (p : Nat) : Nat := 0x62000018 + p * 0x800000
def PCI_IN_BASE_LO.ADDR (p : Nat) : Fld := ⟨PCI_IN_BASE_LO.addr p, 31, 20⟩
/-- PCI_IN_BASE_HI (R594). -/
def PCI_IN_BASE_HI.addr (p : Nat) : Nat := 0x6200001C + p * 0x800000
def PCI_IN_BASE_HI.ADDR (p : Nat) : Fld := ⟨PCI_IN_BASE_HI.addr p, 15, 0⟩
/-- PCI_MSIX_TRIG (R595). -/
def PCI_MSIX_TRIG.addr (p : Nat) : Nat := 0x62000020 + p * 0x800000
def PCI_MSIX_TRIG.VECTOR (p : Nat) : Fld := ⟨PCI_MSIX_TRIG.addr p, 5, 0⟩
/-- PCI_CPL_TIMEOUT (R595). -/
def PCI_CPL_TIMEOUT.addr (p : Nat) : Nat := 0x62000024 + p * 0x800000
def PCI_CPL_TIMEOUT.US (p : Nat) : Fld := ⟨PCI_CPL_TIMEOUT.addr p, 15, 0⟩
/-- PCI_EVENT (R596). -/
def PCI_EVENT.addr (p : Nat) : Nat := 0x62000028 + p * 0x800000
def PCI_EVENT.CPL_TIMEOUT (p : Nat) : Fld := ⟨PCI_EVENT.addr p, 31, 31⟩
def PCI_EVENT.POISON_RX (p : Nat) : Fld := ⟨PCI_EVENT.addr p, 30, 30⟩
def PCI_EVENT.LINK_DOWN (p : Nat) : Fld := ⟨PCI_EVENT.addr p, 29, 29⟩
def PCI_EVENT.UR_SENT (p : Nat) : Fld := ⟨PCI_EVENT.addr p, 28, 28⟩
/-- PCI_PROV_READ (R596). -/
def PCI_PROV_READ.addr (p : Nat) : Nat := 0x6200002C + p * 0x800000
def PCI_PROV_READ.COUNT (p : Nat) : Fld := ⟨PCI_PROV_READ.addr p, 31, 0⟩
/-- XSP_CFG (R599). -/
def XSP_CFG.addr : Nat := 0x64000000
def XSP_CFG.OCTAL : Fld := ⟨XSP_CFG.addr, 31, 31⟩
def XSP_CFG.CLK_DIV : Fld := ⟨XSP_CFG.addr, 23, 16⟩
def XSP_CFG.DUMMY : Fld := ⟨XSP_CFG.addr, 15, 8⟩
/-- XSP_CMD (R600). -/
def XSP_CMD.addr : Nat := 0x64000004
def XSP_CMD.GO : Fld := ⟨XSP_CMD.addr, 31, 31⟩
def XSP_CMD.KIND : Fld := ⟨XSP_CMD.addr, 30, 28⟩
def XSP_CMD.OPCODE : Fld := ⟨XSP_CMD.addr, 15, 0⟩
/-- XSP_ADDR (R600). -/
def XSP_ADDR.addr : Nat := 0x64000008
def XSP_ADDR.ADDR : Fld := ⟨XSP_ADDR.addr, 31, 0⟩
/-- XSP_LEN (R600). -/
def XSP_LEN.addr : Nat := 0x6400000C
def XSP_LEN.BYTES : Fld := ⟨XSP_LEN.addr, 12, 0⟩
/-- XSP_BUF (R600). -/
def XSP_BUF.addr : Nat := 0x64000010
def XSP_BUF.OFFSET : Fld := ⟨XSP_BUF.addr, 20, 0⟩
/-- XSP_STATUS (R601). -/
def XSP_STATUS.addr : Nat := 0x64000014
def XSP_STATUS.BUSY : Fld := ⟨XSP_STATUS.addr, 31, 31⟩
def XSP_STATUS.DONE : Fld := ⟨XSP_STATUS.addr, 30, 30⟩
def XSP_STATUS.ERROR : Fld := ⟨XSP_STATUS.addr, 29, 29⟩
def XSP_STATUS.REJECT : Fld := ⟨XSP_STATUS.addr, 28, 28⟩
/-- CAN_CFG (R605). -/
def CAN_CFG.addr (n : Nat) : Nat := 0x65000000 + n * 0x10000
def CAN_CFG.EN (n : Nat) : Fld := ⟨CAN_CFG.addr n, 31, 31⟩
def CAN_CFG.FD_EN (n : Nat) : Fld := ⟨CAN_CFG.addr n, 30, 30⟩
def CAN_CFG.TDC_EN (n : Nat) : Fld := ⟨CAN_CFG.addr n, 29, 29⟩
def CAN_CFG.UNMATCHED (n : Nat) : Fld := ⟨CAN_CFG.addr n, 28, 27⟩
def CAN_CFG.TDC_OFF (n : Nat) : Fld := ⟨CAN_CFG.addr n, 26, 20⟩
/-- CAN_NBT (R606). -/
def CAN_NBT.addr (n : Nat) : Nat := 0x65000004 + n * 0x10000
def CAN_NBT.PRESC_M1 (n : Nat) : Fld := ⟨CAN_NBT.addr n, 31, 24⟩
def CAN_NBT.TSEG1_M1 (n : Nat) : Fld := ⟨CAN_NBT.addr n, 23, 16⟩
def CAN_NBT.TSEG2_M1 (n : Nat) : Fld := ⟨CAN_NBT.addr n, 15, 8⟩
def CAN_NBT.SJW_M1 (n : Nat) : Fld := ⟨CAN_NBT.addr n, 7, 0⟩
/-- CAN_DBT (R606). -/
def CAN_DBT.addr (n : Nat) : Nat := 0x65000008 + n * 0x10000
def CAN_DBT.PRESC_M1 (n : Nat) : Fld := ⟨CAN_DBT.addr n, 31, 24⟩
def CAN_DBT.TSEG1_M1 (n : Nat) : Fld := ⟨CAN_DBT.addr n, 23, 16⟩
def CAN_DBT.TSEG2_M1 (n : Nat) : Fld := ⟨CAN_DBT.addr n, 15, 8⟩
def CAN_DBT.SJW_M1 (n : Nat) : Fld := ⟨CAN_DBT.addr n, 7, 0⟩
/-- CAN_CTRL (R607). -/
def CAN_CTRL.addr (n : Nat) : Nat := 0x6500000C + n * 0x10000
def CAN_CTRL.RECOVER (n : Nat) : Fld := ⟨CAN_CTRL.addr n, 31, 31⟩
def CAN_CTRL.ABORT_ALL (n : Nat) : Fld := ⟨CAN_CTRL.addr n, 30, 30⟩
/-- CAN_STATUS (R607). -/
def CAN_STATUS.addr (n : Nat) : Nat := 0x65000010 + n * 0x10000
def CAN_STATUS.STATE (n : Nat) : Fld := ⟨CAN_STATUS.addr n, 31, 30⟩
def CAN_STATUS.TEC (n : Nat) : Fld := ⟨CAN_STATUS.addr n, 24, 16⟩
def CAN_STATUS.REC (n : Nat) : Fld := ⟨CAN_STATUS.addr n, 7, 0⟩
/-- CAN_TX_REQ (R609). -/
def CAN_TX_REQ.addr (n : Nat) : Nat := 0x65000020 + n * 0x10000
def CAN_TX_REQ.REQ (n : Nat) : Fld := ⟨CAN_TX_REQ.addr n, 31, 0⟩
/-- CAN_TX_DONE (R609). -/
def CAN_TX_DONE.addr (n : Nat) : Nat := 0x65000024 + n * 0x10000
def CAN_TX_DONE.DONE (n : Nat) : Fld := ⟨CAN_TX_DONE.addr n, 31, 0⟩
/-- CAN_TX_FAIL (R609). -/
def CAN_TX_FAIL.addr (n : Nat) : Nat := 0x65000028 + n * 0x10000
def CAN_TX_FAIL.FAIL (n : Nat) : Fld := ⟨CAN_TX_FAIL.addr n, 31, 0⟩
/-- CAN_CNT (R608). -/
def CAN_CNT.addr (n k : Nat) : Nat := 0x65000040 + n * 0x10000 + k * 0x4
def CAN_CNT.COUNT (n k : Nat) : Fld := ⟨CAN_CNT.addr n k, 31, 0⟩
/-- CAN_RXR_LO (R609). -/
def CAN_RXR_LO.addr (n r : Nat) : Nat := 0x65000100 + n * 0x10000 + r * 0x20
def CAN_RXR_LO.BASE_LO (n r : Nat) : Fld := ⟨CAN_RXR_LO.addr n r, 31, 12⟩
def CAN_RXR_LO.LOG2_SIZE (n r : Nat) : Fld := ⟨CAN_RXR_LO.addr n r, 4, 0⟩
/-- CAN_RXR_HI (R609). -/
def CAN_RXR_HI.addr (n r : Nat) : Nat := 0x65000104 + n * 0x10000 + r * 0x20
def CAN_RXR_HI.BASE_HI (n r : Nat) : Fld := ⟨CAN_RXR_HI.addr n r, 15, 0⟩
/-- CAN_RXR_HEAD (R609). -/
def CAN_RXR_HEAD.addr (n r : Nat) : Nat := 0x65000108 + n * 0x10000 + r * 0x20
def CAN_RXR_HEAD.COUNT (n r : Nat) : Fld := ⟨CAN_RXR_HEAD.addr n r, 31, 0⟩
/-- CAN_RXR_TAIL (R609). -/
def CAN_RXR_TAIL.addr (n r : Nat) : Nat := 0x6500010C + n * 0x10000 + r * 0x20
def CAN_RXR_TAIL.COUNT (n r : Nat) : Fld := ⟨CAN_RXR_TAIL.addr n r, 31, 0⟩
/-- CAN_RXR_DB (R609). -/
def CAN_RXR_DB.addr (n r : Nat) : Nat := 0x65000110 + n * 0x10000 + r * 0x20
def CAN_RXR_DB.NEW_COUNT (n r : Nat) : Fld := ⟨CAN_RXR_DB.addr n r, 31, 0⟩
/-- CAN_FLT_ID (R609). -/
def CAN_FLT_ID.addr (n f : Nat) : Nat := 0x65000800 + n * 0x10000 + f * 0x8
def CAN_FLT_ID.VALID (n f : Nat) : Fld := ⟨CAN_FLT_ID.addr n f, 31, 31⟩
def CAN_FLT_ID.IDE (n f : Nat) : Fld := ⟨CAN_FLT_ID.addr n f, 30, 30⟩
def CAN_FLT_ID.RING (n f : Nat) : Fld := ⟨CAN_FLT_ID.addr n f, 29, 29⟩
def CAN_FLT_ID.ID (n f : Nat) : Fld := ⟨CAN_FLT_ID.addr n f, 28, 0⟩
/-- CAN_FLT_MASK (R609). -/
def CAN_FLT_MASK.addr (n f : Nat) : Nat := 0x65000804 + n * 0x10000 + f * 0x8
def CAN_FLT_MASK.MASK (n f : Nat) : Fld := ⟨CAN_FLT_MASK.addr n f, 28, 0⟩
/-- CAN_TXB (R609). -/
def CAN_TXB.addr (n b w : Nat) : Nat := 0x65001000 + n * 0x10000 + b * 0x80 + w * 0x4
def CAN_TXB.WORD (n b w : Nat) : Fld := ⟨CAN_TXB.addr n b w, 31, 0⟩
/-- GPIO_PIN (R613). -/
def GPIO_PIN.addr (n : Nat) : Nat := 0x66000000 + n * 0x4
def GPIO_PIN.FUNC (n : Nat) : Fld := ⟨GPIO_PIN.addr n, 31, 29⟩
def GPIO_PIN.PARK (n : Nat) : Fld := ⟨GPIO_PIN.addr n, 28, 27⟩
def GPIO_PIN.PULL (n : Nat) : Fld := ⟨GPIO_PIN.addr n, 26, 25⟩
def GPIO_PIN.DRIVE (n : Nat) : Fld := ⟨GPIO_PIN.addr n, 24, 23⟩
def GPIO_PIN.PARKING (n : Nat) : Fld := ⟨GPIO_PIN.addr n, 22, 22⟩
def GPIO_PIN.OE (n : Nat) : Fld := ⟨GPIO_PIN.addr n, 2, 2⟩
def GPIO_PIN.OUT (n : Nat) : Fld := ⟨GPIO_PIN.addr n, 1, 1⟩
def GPIO_PIN.IN (n : Nat) : Fld := ⟨GPIO_PIN.addr n, 0, 0⟩
/-- APC_HART_START_LO (R630). -/
def APC_HART_START_LO.addr (h : Nat) : Nat := 0x50000100 + h * 0x10
def APC_HART_START_LO.ADDR_LO (h : Nat) : Fld := ⟨APC_HART_START_LO.addr h, 31, 2⟩
/-- APC_HART_START_HI (R630). -/
def APC_HART_START_HI.addr (h : Nat) : Nat := 0x50000104 + h * 0x10
def APC_HART_START_HI.ADDR_HI (h : Nat) : Fld := ⟨APC_HART_START_HI.addr h, 15, 0⟩
/-- APC_HART_CTRL (R630). -/
def APC_HART_CTRL.addr (h : Nat) : Nat := 0x50000108 + h * 0x10
def APC_HART_CTRL.START (h : Nat) : Fld := ⟨APC_HART_CTRL.addr h, 31, 31⟩
def APC_HART_CTRL.STOP (h : Nat) : Fld := ⟨APC_HART_CTRL.addr h, 30, 30⟩
/-- APC_HART_STATUS (R630). -/
def APC_HART_STATUS.addr (h : Nat) : Nat := 0x5000010C + h * 0x10
def APC_HART_STATUS.STATE (h : Nat) : Fld := ⟨APC_HART_STATUS.addr h, 31, 30⟩
def APC_HART_STATUS.REJECT (h : Nat) : Fld := ⟨APC_HART_STATUS.addr h, 29, 29⟩
/-- APC_CACHE_CORR (R631). -/
def APC_CACHE_CORR.addr : Nat := 0x50000400
def APC_CACHE_CORR.COUNT : Fld := ⟨APC_CACHE_CORR.addr, 31, 0⟩
/-- APC_CACHE_UNCORR (R631). -/
def APC_CACHE_UNCORR.addr : Nat := 0x50000404
def APC_CACHE_UNCORR.COUNT : Fld := ⟨APC_CACHE_UNCORR.addr, 31, 0⟩
/-- MGT_BOOT_STATUS (R666). -/
def MGT_BOOT_STATUS.addr : Nat := 0x10000400
def MGT_BOOT_STATUS.STAGE : Fld := ⟨MGT_BOOT_STATUS.addr, 31, 28⟩
def MGT_BOOT_STATUS.STOPPED : Fld := ⟨MGT_BOOT_STATUS.addr, 27, 27⟩
def MGT_BOOT_STATUS.OPEN : Fld := ⟨MGT_BOOT_STATUS.addr, 26, 26⟩
def MGT_BOOT_STATUS.SLOT : Fld := ⟨MGT_BOOT_STATUS.addr, 25, 25⟩
def MGT_BOOT_STATUS.FELL_BACK : Fld := ⟨MGT_BOOT_STATUS.addr, 24, 24⟩
def MGT_BOOT_STATUS.STOP_CODE : Fld := ⟨MGT_BOOT_STATUS.addr, 23, 16⟩
def MGT_BOOT_STATUS.ROLLBACK_F : Fld := ⟨MGT_BOOT_STATUS.addr, 15, 8⟩
def MGT_BOOT_STATUS.VER_USED : Fld := ⟨MGT_BOOT_STATUS.addr, 7, 0⟩
/-- MGT_BOOT_SLOT (R667). -/
def MGT_BOOT_SLOT.addr (s : Nat) : Nat := 0x10000404 + s * 0x4
def MGT_BOOT_SLOT.REASON (s : Nat) : Fld := ⟨MGT_BOOT_SLOT.addr s, 31, 24⟩
def MGT_BOOT_SLOT.SECTION (s : Nat) : Fld := ⟨MGT_BOOT_SLOT.addr s, 23, 16⟩
/-- MGT_BOOT_ISN (R667). -/
def MGT_BOOT_ISN.addr (s : Nat) : Nat := 0x1000040C + s * 0x4
def MGT_BOOT_ISN.ISN (s : Nat) : Fld := ⟨MGT_BOOT_ISN.addr s, 31, 0⟩
/-- MGT_MBX_DB (R668). -/
def MGT_MBX_DB.addr : Nat := 0x10000500
def MGT_MBX_DB.RING : Fld := ⟨MGT_MBX_DB.addr, 7, 0⟩
/-- MGT_MBX_STATUS (R668). -/
def MGT_MBX_STATUS.addr : Nat := 0x10000504
def MGT_MBX_STATUS.RESTARTED : Fld := ⟨MGT_MBX_STATUS.addr, 25, 25⟩
def MGT_MBX_STATUS.DB_REJECT : Fld := ⟨MGT_MBX_STATUS.addr, 24, 24⟩
def MGT_MBX_STATUS.OPEN : Fld := ⟨MGT_MBX_STATUS.addr, 23, 16⟩
def MGT_MBX_STATUS.BUSY : Fld := ⟨MGT_MBX_STATUS.addr, 15, 8⟩
def MGT_MBX_STATUS.DONE : Fld := ⟨MGT_MBX_STATUS.addr, 7, 0⟩
/-- MGT_RTC_DATE (R669). -/
def MGT_RTC_DATE.addr : Nat := 0x10000600
def MGT_RTC_DATE.YEAR_OFF : Fld := ⟨MGT_RTC_DATE.addr, 24, 16⟩
def MGT_RTC_DATE.MONTH : Fld := ⟨MGT_RTC_DATE.addr, 11, 8⟩
def MGT_RTC_DATE.DAY : Fld := ⟨MGT_RTC_DATE.addr, 4, 0⟩
/-- MGT_RTC_TIME (R670). -/
def MGT_RTC_TIME.addr : Nat := 0x10000604
def MGT_RTC_TIME.HOUR : Fld := ⟨MGT_RTC_TIME.addr, 31, 27⟩
def MGT_RTC_TIME.MIN : Fld := ⟨MGT_RTC_TIME.addr, 26, 21⟩
def MGT_RTC_TIME.SEC : Fld := ⟨MGT_RTC_TIME.addr, 20, 15⟩
def MGT_RTC_TIME.SUBSEC : Fld := ⟨MGT_RTC_TIME.addr, 14, 0⟩
/-- MGT_RTC_SET_DATE (R669). -/
def MGT_RTC_SET_DATE.addr : Nat := 0x10000608
def MGT_RTC_SET_DATE.YEAR_OFF : Fld := ⟨MGT_RTC_SET_DATE.addr, 24, 16⟩
def MGT_RTC_SET_DATE.MONTH : Fld := ⟨MGT_RTC_SET_DATE.addr, 11, 8⟩
def MGT_RTC_SET_DATE.DAY : Fld := ⟨MGT_RTC_SET_DATE.addr, 4, 0⟩
/-- MGT_RTC_SET_TIME (R670). -/
def MGT_RTC_SET_TIME.addr : Nat := 0x1000060C
def MGT_RTC_SET_TIME.HOUR : Fld := ⟨MGT_RTC_SET_TIME.addr, 31, 27⟩
def MGT_RTC_SET_TIME.MIN : Fld := ⟨MGT_RTC_SET_TIME.addr, 26, 21⟩
def MGT_RTC_SET_TIME.SEC : Fld := ⟨MGT_RTC_SET_TIME.addr, 20, 15⟩
def MGT_RTC_SET_TIME.SUBSEC : Fld := ⟨MGT_RTC_SET_TIME.addr, 14, 0⟩
/-- MGT_RTC_CTRL (R671). -/
def MGT_RTC_CTRL.addr : Nat := 0x10000610
def MGT_RTC_CTRL.SET : Fld := ⟨MGT_RTC_CTRL.addr, 31, 31⟩
def MGT_RTC_CTRL.DATE_REJECT : Fld := ⟨MGT_RTC_CTRL.addr, 30, 30⟩
def MGT_RTC_CTRL.CENTURY_WRAP : Fld := ⟨MGT_RTC_CTRL.addr, 29, 29⟩
def MGT_RTC_CTRL.LOST : Fld := ⟨MGT_RTC_CTRL.addr, 28, 28⟩
def MGT_RTC_CTRL.SET_PENDING : Fld := ⟨MGT_RTC_CTRL.addr, 27, 27⟩
/-- DUN_STATUS (R456). -/
def DUN_STATUS.addr (e : Nat) : Nat := 0x40000000 + e * 0x800000
def DUN_STATUS.MAIN_BUSY (e : Nat) : Fld := ⟨DUN_STATUS.addr e, 31, 31⟩
def DUN_STATUS.LOAD_BUSY (e : Nat) : Fld := ⟨DUN_STATUS.addr e, 30, 30⟩
def DUN_STATUS.OCC_VALID (e : Nat) : Fld := ⟨DUN_STATUS.addr e, 29, 29⟩
def DUN_STATUS.CUR_BANK (e : Nat) : Fld := ⟨DUN_STATUS.addr e, 28, 28⟩
def DUN_STATUS.OCC_PROV (e : Nat) : Fld := ⟨DUN_STATUS.addr e, 27, 27⟩
def DUN_STATUS.SLOTS_BOUND (e : Nat) : Fld := ⟨DUN_STATUS.addr e, 26, 24⟩
def DUN_STATUS.SLICES (e : Nat) : Fld := ⟨DUN_STATUS.addr e, 23, 18⟩
def DUN_STATUS.UNITS_USED (e : Nat) : Fld := ⟨DUN_STATUS.addr e, 17, 0⟩
/-- DUN_OCC_GEN (R457). -/
def DUN_OCC_GEN.addr (e : Nat) : Nat := 0x40000004 + e * 0x800000
def DUN_OCC_GEN.GEN (e : Nat) : Fld := ⟨DUN_OCC_GEN.addr e, 31, 0⟩
/-- DUN_SLOT (R458). -/
def DUN_SLOT.addr (e s : Nat) : Nat := 0x40000100 + e * 0x800000 + s * 0x10
def DUN_SLOT.BOUND (e s : Nat) : Fld := ⟨DUN_SLOT.addr e s, 31, 31⟩
def DUN_SLOT.FULL_VALID (e s : Nat) : Fld := ⟨DUN_SLOT.addr e s, 30, 30⟩
def DUN_SLOT.HANDLE (e s : Nat) : Fld := ⟨DUN_SLOT.addr e s, 15, 0⟩
/-- DUN_SLOT_GEN (R458). -/
def DUN_SLOT_GEN.addr (e s : Nat) : Nat := 0x40000104 + e * 0x800000 + s * 0x10
def DUN_SLOT_GEN.VAL_GEN (e s : Nat) : Fld := ⟨DUN_SLOT_GEN.addr e s, 31, 0⟩
/-- DUN_LIMIT_FLAGGED (R459). -/
def DUN_LIMIT_FLAGGED.addr (e : Nat) : Nat := 0x40000200 + e * 0x800000
def DUN_LIMIT_FLAGGED.COUNT (e : Nat) : Fld := ⟨DUN_LIMIT_FLAGGED.addr e, 31, 0⟩
/-- DUN_OOB_RUNS (R459). -/
def DUN_OOB_RUNS.addr (e : Nat) : Nat := 0x40000204 + e * 0x800000
def DUN_OOB_RUNS.COUNT (e : Nat) : Fld := ⟨DUN_OOB_RUNS.addr e, 31, 0⟩
/-- DUN_PARITY (R459). -/
def DUN_PARITY.addr (e : Nat) : Nat := 0x40000208 + e * 0x800000
def DUN_PARITY.COUNT (e : Nat) : Fld := ⟨DUN_PARITY.addr e, 31, 0⟩
/-- SLV_STATUS (R482). -/
def SLV_STATUS.addr (e : Nat) : Nat := 0x41000000 + e * 0x800000
def SLV_STATUS.BUSY (e : Nat) : Fld := ⟨SLV_STATUS.addr e, 31, 31⟩
def SLV_STATUS.SLOTS_BOUND (e : Nat) : Fld := ⟨SLV_STATUS.addr e, 30, 28⟩
def SLV_STATUS.STORE_USED (e : Nat) : Fld := ⟨SLV_STATUS.addr e, 20, 0⟩
/-- SLV_SLOT (R483). -/
def SLV_SLOT.addr (e s : Nat) : Nat := 0x41000100 + e * 0x800000 + s * 0x10
def SLV_SLOT.BOUND (e s : Nat) : Fld := ⟨SLV_SLOT.addr e s, 31, 31⟩
def SLV_SLOT.FACTOR_VALID (e s : Nat) : Fld := ⟨SLV_SLOT.addr e s, 30, 30⟩
def SLV_SLOT.HAS_LAST (e s : Nat) : Fld := ⟨SLV_SLOT.addr e s, 29, 29⟩
def SLV_SLOT.SUBST_RUN (e s : Nat) : Fld := ⟨SLV_SLOT.addr e s, 23, 16⟩
def SLV_SLOT.HANDLE (e s : Nat) : Fld := ⟨SLV_SLOT.addr e s, 15, 0⟩
/-- SLV_SLOT_GEN (R483). -/
def SLV_SLOT_GEN.addr (e s : Nat) : Nat := 0x41000104 + e * 0x800000 + s * 0x10
def SLV_SLOT_GEN.FACTOR_GEN (e s : Nat) : Fld := ⟨SLV_SLOT_GEN.addr e s, 31, 0⟩
/-- SLV_DEADLINE (R484). -/
def SLV_DEADLINE.addr (e : Nat) : Nat := 0x41000200 + e * 0x800000
def SLV_DEADLINE.COUNT (e : Nat) : Fld := ⟨SLV_DEADLINE.addr e, 31, 0⟩
/-- SLV_SUBST (R484). -/
def SLV_SUBST.addr (e : Nat) : Nat := 0x41000204 + e * 0x800000
def SLV_SUBST.COUNT (e : Nat) : Fld := ⟨SLV_SUBST.addr e, 31, 0⟩
/-- SLV_PIVOT_REG (R484). -/
def SLV_PIVOT_REG.addr (e : Nat) : Nat := 0x41000208 + e * 0x800000
def SLV_PIVOT_REG.COUNT (e : Nat) : Fld := ⟨SLV_PIVOT_REG.addr e, 31, 0⟩
/-- SLV_PARITY (R484). -/
def SLV_PARITY.addr (e : Nat) : Nat := 0x4100020C + e * 0x800000
def SLV_PARITY.COUNT (e : Nat) : Fld := ⟨SLV_PARITY.addr e, 31, 0⟩
/-- LOM_STATUS (R528). -/
def LOM_STATUS.addr : Nat := 0x43000000
def LOM_STATUS.BUSY : Fld := ⟨LOM_STATUS.addr, 31, 31⟩
def LOM_STATUS.FRAMES_VALID : Fld := ⟨LOM_STATUS.addr, 20, 12⟩
def LOM_STATUS.TRACKS : Fld := ⟨LOM_STATUS.addr, 11, 0⟩
/-- LOM_FRAME_GEN (R529). -/
def LOM_FRAME_GEN.addr : Nat := 0x43000004
def LOM_FRAME_GEN.GEN : Fld := ⟨LOM_FRAME_GEN.addr, 31, 0⟩
/-- LOM_BIRTH_REFUSED (R530). -/
def LOM_BIRTH_REFUSED.addr : Nat := 0x43000100
def LOM_BIRTH_REFUSED.COUNT : Fld := ⟨LOM_BIRTH_REFUSED.addr, 31, 0⟩
/-- LOM_BUDGET_HIT (R530). -/
def LOM_BUDGET_HIT.addr : Nat := 0x43000104
def LOM_BUDGET_HIT.COUNT : Fld := ⟨LOM_BUDGET_HIT.addr, 31, 0⟩
/-- LOM_PARITY (R530). -/
def LOM_PARITY.addr : Nat := 0x43000108
def LOM_PARITY.COUNT : Fld := ⟨LOM_PARITY.addr, 31, 0⟩
/-- TLT_STATUS (R503). -/
def TLT_STATUS.addr : Nat := 0x42000000
def TLT_STATUS.STOPPED : Fld := ⟨TLT_STATUS.addr, 31, 31⟩
def TLT_STATUS.MISMATCHES : Fld := ⟨TLT_STATUS.addr, 30, 29⟩
def TLT_STATUS.CTX_EN : Fld := ⟨TLT_STATUS.addr, 28, 25⟩
/-- TLT_CTRL (R503). -/
def TLT_CTRL.addr : Nat := 0x42000004
def TLT_CTRL.RESTART : Fld := ⟨TLT_CTRL.addr, 31, 31⟩
/-- TLT_EVENT (R504). -/
def TLT_EVENT.addr : Nat := 0x42000008
def TLT_EVENT.FAULT_STOP : Fld := ⟨TLT_EVENT.addr, 31, 31⟩
def TLT_EVENT.TEST_DONE : Fld := ⟨TLT_EVENT.addr, 30, 27⟩
def TLT_EVENT.CAP_FULL : Fld := ⟨TLT_EVENT.addr, 26, 23⟩
def TLT_EVENT.LAW_DONE : Fld := ⟨TLT_EVENT.addr, 22, 19⟩
def TLT_EVENT.MISS : Fld := ⟨TLT_EVENT.addr, 18, 15⟩
/-- TLT_IRQ (R503). -/
def TLT_IRQ.addr : Nat := 0x4200000C
def TLT_IRQ.EN : Fld := ⟨TLT_IRQ.addr, 31, 31⟩
def TLT_IRQ.ERR_ONLY : Fld := ⟨TLT_IRQ.addr, 30, 30⟩
def TLT_IRQ.HART : Fld := ⟨TLT_IRQ.addr, 20, 16⟩
def TLT_IRQ.EIID : Fld := ⟨TLT_IRQ.addr, 10, 0⟩
/-- TLT_CFG (R505). -/
def TLT_CFG.addr (c : Nat) : Nat := 0x42000100 + c * 0x100
def TLT_CFG.EN (c : Nat) : Fld := ⟨TLT_CFG.addr c, 31, 31⟩
def TLT_CFG.STALE_HOLD (c : Nat) : Fld := ⟨TLT_CFG.addr c, 30, 30⟩
def TLT_CFG.MISS_IRQ (c : Nat) : Fld := ⟨TLT_CFG.addr c, 29, 29⟩
def TLT_CFG.OUT_MAC (c : Nat) : Fld := ⟨TLT_CFG.addr c, 28, 27⟩
def TLT_CFG.OUT_QUEUE (c : Nat) : Fld := ⟨TLT_CFG.addr c, 26, 24⟩
def TLT_CFG.PERIOD_NS (c : Nat) : Fld := ⟨TLT_CFG.addr c, 20, 0⟩
/-- TLT_LAUNCH (R505). -/
def TLT_LAUNCH.addr (c : Nat) : Nat := 0x42000104 + c * 0x100
def TLT_LAUNCH.LAUNCH_NS (c : Nat) : Fld := ⟨TLT_LAUNCH.addr c, 20, 0⟩
/-- TLT_START_LO (R505). -/
def TLT_START_LO.addr (c : Nat) : Nat := 0x42000108 + c * 0x100
def TLT_START_LO.START (c : Nat) : Fld := ⟨TLT_START_LO.addr c, 31, 0⟩
/-- TLT_START_HI (R505). -/
def TLT_START_HI.addr (c : Nat) : Nat := 0x4200010C + c * 0x100
def TLT_START_HI.START (c : Nat) : Fld := ⟨TLT_START_HI.addr c, 31, 0⟩
/-- TLT_LAW_LO (R505). -/
def TLT_LAW_LO.addr (c : Nat) : Nat := 0x42000110 + c * 0x100
def TLT_LAW_LO.ADDR_LO (c : Nat) : Fld := ⟨TLT_LAW_LO.addr c, 31, 6⟩
/-- TLT_LAW_HI (R505). -/
def TLT_LAW_HI.addr (c : Nat) : Nat := 0x42000114 + c * 0x100
def TLT_LAW_HI.ADDR_HI (c : Nat) : Fld := ⟨TLT_LAW_HI.addr c, 15, 0⟩
/-- TLT_LAW_CMD (R506). -/
def TLT_LAW_CMD.addr (c : Nat) : Nat := 0x42000118 + c * 0x100
def TLT_LAW_CMD.LOAD (c : Nat) : Fld := ⟨TLT_LAW_CMD.addr c, 31, 31⟩
def TLT_LAW_CMD.BUSY (c : Nat) : Fld := ⟨TLT_LAW_CMD.addr c, 30, 30⟩
def TLT_LAW_CMD.PENDING (c : Nat) : Fld := ⟨TLT_LAW_CMD.addr c, 29, 29⟩
def TLT_LAW_CMD.ACTIVE (c : Nat) : Fld := ⟨TLT_LAW_CMD.addr c, 28, 28⟩
def TLT_LAW_CMD.LAW_ERR (c : Nat) : Fld := ⟨TLT_LAW_CMD.addr c, 27, 24⟩
/-- TLT_SP_LO (R505). -/
def TLT_SP_LO.addr (c : Nat) : Nat := 0x4200011C + c * 0x100
def TLT_SP_LO.ADDR (c : Nat) : Fld := ⟨TLT_SP_LO.addr c, 31, 5⟩
/-- TLT_SP_HI (R505). -/
def TLT_SP_HI.addr (c : Nat) : Nat := 0x42000120 + c * 0x100
def TLT_SP_HI.ADDR_HI (c : Nat) : Fld := ⟨TLT_SP_HI.addr c, 15, 0⟩
/-- TLT_SP_CTL (R507). -/
def TLT_SP_CTL.addr (c : Nat) : Nat := 0x42000124 + c * 0x100
def TLT_SP_CTL.SP_EN (c : Nat) : Fld := ⟨TLT_SP_CTL.addr c, 31, 31⟩
def TLT_SP_CTL.SP_MAX_AGE_100US (c : Nat) : Fld := ⟨TLT_SP_CTL.addr c, 30, 16⟩
def TLT_SP_CTL.SP_CELL (c : Nat) : Fld := ⟨TLT_SP_CTL.addr c, 15, 0⟩
/-- TLT_FLAGS (R508). -/
def TLT_FLAGS.addr (c : Nat) : Nat := 0x42000128 + c * 0x100
def TLT_FLAGS.MISSED (c : Nat) : Fld := ⟨TLT_FLAGS.addr c, 31, 31⟩
def TLT_FLAGS.INPUT_STALE (c : Nat) : Fld := ⟨TLT_FLAGS.addr c, 30, 30⟩
def TLT_FLAGS.SP_STALE (c : Nat) : Fld := ⟨TLT_FLAGS.addr c, 29, 29⟩
def TLT_FLAGS.SP_SUBST (c : Nat) : Fld := ⟨TLT_FLAGS.addr c, 28, 28⟩
def TLT_FLAGS.SP_REJECT (c : Nat) : Fld := ⟨TLT_FLAGS.addr c, 27, 27⟩
def TLT_FLAGS.CLAMPED (c : Nat) : Fld := ⟨TLT_FLAGS.addr c, 26, 26⟩
def TLT_FLAGS.CFG_REJECT (c : Nat) : Fld := ⟨TLT_FLAGS.addr c, 25, 25⟩
def TLT_FLAGS.TEST_REJECT (c : Nat) : Fld := ⟨TLT_FLAGS.addr c, 24, 24⟩
def TLT_FLAGS.LAST_CAUSE (c : Nat) : Fld := ⟨TLT_FLAGS.addr c, 18, 16⟩
/-- TLT_SAMPLES (R510). -/
def TLT_SAMPLES.addr (c : Nat) : Nat := 0x4200012C + c * 0x100
def TLT_SAMPLES.COUNT (c : Nat) : Fld := ⟨TLT_SAMPLES.addr c, 31, 0⟩
/-- TLT_MISSED (R510). -/
def TLT_MISSED.addr (c : Nat) : Nat := 0x42000130 + c * 0x100
def TLT_MISSED.COUNT (c : Nat) : Fld := ⟨TLT_MISSED.addr c, 31, 0⟩
/-- TLT_SP_REJECT (R510). -/
def TLT_SP_REJECT.addr (c : Nat) : Nat := 0x42000134 + c * 0x100
def TLT_SP_REJECT.COUNT (c : Nat) : Fld := ⟨TLT_SP_REJECT.addr c, 31, 0⟩
/-- TLT_GROUP (R509). -/
def TLT_GROUP.addr (c g : Nat) : Nat := 0x42000140 + c * 0x100 + g * 0x4
def TLT_GROUP.VALID (c g : Nat) : Fld := ⟨TLT_GROUP.addr c g, 31, 31⟩
def TLT_GROUP.FIRST (c g : Nat) : Fld := ⟨TLT_GROUP.addr c g, 30, 23⟩
def TLT_GROUP.COUNT_M1 (c g : Nat) : Fld := ⟨TLT_GROUP.addr c g, 22, 15⟩
def TLT_GROUP.MAX_AGE_10US (c g : Nat) : Fld := ⟨TLT_GROUP.addr c g, 14, 0⟩
/-- TLT_TEST_CFG (R511). -/
def TLT_TEST_CFG.addr (c : Nat) : Nat := 0x42000180 + c * 0x100
def TLT_TEST_CFG.RUN (c : Nat) : Fld := ⟨TLT_TEST_CFG.addr c, 31, 31⟩
def TLT_TEST_CFG.WAVE (c : Nat) : Fld := ⟨TLT_TEST_CFG.addr c, 30, 29⟩
def TLT_TEST_CFG.OUT (c : Nat) : Fld := ⟨TLT_TEST_CFG.addr c, 28, 22⟩
def TLT_TEST_CFG.PRBS_HOLD (c : Nat) : Fld := ⟨TLT_TEST_CFG.addr c, 21, 14⟩
def TLT_TEST_CFG.CAP_EN (c : Nat) : Fld := ⟨TLT_TEST_CFG.addr c, 13, 13⟩
def TLT_TEST_CFG.TABLE_LEN_M1 (c : Nat) : Fld := ⟨TLT_TEST_CFG.addr c, 11, 0⟩
/-- TLT_TEST_AMP (R511). -/
def TLT_TEST_AMP.addr (c : Nat) : Nat := 0x42000184 + c * 0x100
def TLT_TEST_AMP.AMP (c : Nat) : Fld := ⟨TLT_TEST_AMP.addr c, 31, 0⟩
/-- TLT_TEST_F0 (R511). -/
def TLT_TEST_F0.addr (c : Nat) : Nat := 0x42000188 + c * 0x100
def TLT_TEST_F0.F0 (c : Nat) : Fld := ⟨TLT_TEST_F0.addr c, 31, 0⟩
/-- TLT_TEST_F1 (R511). -/
def TLT_TEST_F1.addr (c : Nat) : Nat := 0x4200018C + c * 0x100
def TLT_TEST_F1.F1 (c : Nat) : Fld := ⟨TLT_TEST_F1.addr c, 31, 0⟩
/-- TLT_TEST_N (R511). -/
def TLT_TEST_N.addr (c : Nat) : Nat := 0x42000190 + c * 0x100
def TLT_TEST_N.N (c : Nat) : Fld := ⟨TLT_TEST_N.addr c, 31, 0⟩
/-- TLT_TEST_SEED (R511). -/
def TLT_TEST_SEED.addr (c : Nat) : Nat := 0x42000194 + c * 0x100
def TLT_TEST_SEED.SEED (c : Nat) : Fld := ⟨TLT_TEST_SEED.addr c, 31, 0⟩
/-- TLT_TEST_TAB_LO (R511). -/
def TLT_TEST_TAB_LO.addr (c : Nat) : Nat := 0x42000198 + c * 0x100
def TLT_TEST_TAB_LO.ADDR_LO (c : Nat) : Fld := ⟨TLT_TEST_TAB_LO.addr c, 31, 6⟩
/-- TLT_TEST_TAB_HI (R511). -/
def TLT_TEST_TAB_HI.addr (c : Nat) : Nat := 0x4200019C + c * 0x100
def TLT_TEST_TAB_HI.ADDR_HI (c : Nat) : Fld := ⟨TLT_TEST_TAB_HI.addr c, 15, 0⟩
/-- TLT_TEST_CAP_LO (R511). -/
def TLT_TEST_CAP_LO.addr (c : Nat) : Nat := 0x420001A0 + c * 0x100
def TLT_TEST_CAP_LO.ADDR_LO (c : Nat) : Fld := ⟨TLT_TEST_CAP_LO.addr c, 31, 6⟩
/-- TLT_TEST_CAP_HI (R511). -/
def TLT_TEST_CAP_HI.addr (c : Nat) : Nat := 0x420001A4 + c * 0x100
def TLT_TEST_CAP_HI.ADDR_HI (c : Nat) : Fld := ⟨TLT_TEST_CAP_HI.addr c, 15, 0⟩
/-- TLT_CAP_RECORDS (R511). -/
def TLT_CAP_RECORDS.addr (c : Nat) : Nat := 0x420001A8 + c * 0x100
def TLT_CAP_RECORDS.RECORDS (c : Nat) : Fld := ⟨TLT_CAP_RECORDS.addr c, 31, 0⟩
/-- TLT_CAP_SEL (R511). -/
def TLT_CAP_SEL.addr (c k : Nat) : Nat := 0x420001AC + c * 0x100 + k * 0x4
def TLT_CAP_SEL.SEL (c k : Nat) : Fld := ⟨TLT_CAP_SEL.addr c k, 31, 0⟩
/-- TLT_CAP_COUNT (R511). -/
def TLT_CAP_COUNT.addr (c : Nat) : Nat := 0x420001B8 + c * 0x100
def TLT_CAP_COUNT.COUNT (c : Nat) : Fld := ⟨TLT_CAP_COUNT.addr c, 31, 0⟩
/-- TLT_IN (R488). -/
def TLT_IN.addr (c i : Nat) : Nat := 0x42010000 + c * 0x400 + i * 0x4
def TLT_IN.VALUE (c i : Nat) : Fld := ⟨TLT_IN.addr c i, 31, 0⟩
/-- TLT_COMMIT (R488). -/
def TLT_COMMIT.addr (c : Nat) : Nat := 0x42011000 + c * 0x40
def TLT_COMMIT.GROUPS (c : Nat) : Fld := ⟨TLT_COMMIT.addr c, 15, 0⟩
/-- PMU_CAP (R694). -/
def PMU_CAP.addr : Nat := 0x11000000
def PMU_CAP.CAP_W : Fld := ⟨PMU_CAP.addr, 8, 0⟩
/-- PMU_STATUS (R695). -/
def PMU_STATUS.addr : Nat := 0x11000004
def PMU_STATUS.OVER_CAP : Fld := ⟨PMU_STATUS.addr, 31, 31⟩
def PMU_STATUS.THROTTLE : Fld := ⟨PMU_STATUS.addr, 26, 26⟩
def PMU_STATUS.MODULE_W10 : Fld := ⟨PMU_STATUS.addr, 19, 0⟩
/-- PMU_EVENT (R695). -/
def PMU_EVENT.addr : Nat := 0x11000008
def PMU_EVENT.OVER_CAP : Fld := ⟨PMU_EVENT.addr, 31, 31⟩
def PMU_EVENT.CAP_REJECT : Fld := ⟨PMU_EVENT.addr, 30, 30⟩
def PMU_EVENT.PHASE_FAIL : Fld := ⟨PMU_EVENT.addr, 29, 29⟩
def PMU_EVENT.SENSE_FAIL : Fld := ⟨PMU_EVENT.addr, 28, 28⟩
def PMU_EVENT.DOMAIN_FAIL : Fld := ⟨PMU_EVENT.addr, 27, 27⟩
def PMU_EVENT.THROTTLE : Fld := ⟨PMU_EVENT.addr, 26, 26⟩
def PMU_EVENT.SENSOR_FAULT : Fld := ⟨PMU_EVENT.addr, 25, 25⟩
/-- PMU_STOP_DETAIL (R701). -/
def PMU_STOP_DETAIL.addr : Nat := 0x11000080
def PMU_STOP_DETAIL.VALID : Fld := ⟨PMU_STOP_DETAIL.addr, 31, 31⟩
def PMU_STOP_DETAIL.KIND : Fld := ⟨PMU_STOP_DETAIL.addr, 30, 30⟩
def PMU_STOP_DETAIL.INDEX : Fld := ⟨PMU_STOP_DETAIL.addr, 15, 8⟩
/-- PMU_SHUTDOWN_CAUSE (R701). -/
def PMU_SHUTDOWN_CAUSE.addr : Nat := 0x11000084
def PMU_SHUTDOWN_CAUSE.VALID : Fld := ⟨PMU_SHUTDOWN_CAUSE.addr, 31, 31⟩
def PMU_SHUTDOWN_CAUSE.INDEX : Fld := ⟨PMU_SHUTDOWN_CAUSE.addr, 15, 8⟩
def PMU_SHUTDOWN_CAUSE.VALUE : Fld := ⟨PMU_SHUTDOWN_CAUSE.addr, 7, 0⟩
/-- PMU_RAIL (R696). -/
def PMU_RAIL.addr (r : Nat) : Nat := 0x11000100 + r * 0x10
def PMU_RAIL.STALE (r : Nat) : Fld := ⟨PMU_RAIL.addr r, 31, 31⟩
def PMU_RAIL.CLAMPED (r : Nat) : Fld := ⟨PMU_RAIL.addr r, 30, 30⟩
def PMU_RAIL.MV (r : Nat) : Fld := ⟨PMU_RAIL.addr r, 29, 16⟩
def PMU_RAIL.I_100MA (r : Nat) : Fld := ⟨PMU_RAIL.addr r, 15, 0⟩
/-- PMU_RAIL_FAULT (R696). -/
def PMU_RAIL_FAULT.addr (r : Nat) : Nat := 0x11000104 + r * 0x10
def PMU_RAIL_FAULT.UNNAMED (r : Nat) : Fld := ⟨PMU_RAIL_FAULT.addr r, 31, 31⟩
def PMU_RAIL_FAULT.FAILED (r : Nat) : Fld := ⟨PMU_RAIL_FAULT.addr r, 15, 0⟩
/-- PMU_PHASE_D (R697). -/
def PMU_PHASE_D.addr (p : Nat) : Nat := 0x11000400 + p * 0x4
def PMU_PHASE_D.SAMPLES (p : Nat) : Fld := ⟨PMU_PHASE_D.addr p, 31, 16⟩
def PMU_PHASE_D.D_MW (p : Nat) : Fld := ⟨PMU_PHASE_D.addr p, 15, 0⟩
/-- PMU_CLU (R698). -/
def PMU_CLU.addr (n : Nat) : Nat := 0x11000600 + n * 0x4
def PMU_CLU.QCAP (n : Nat) : Fld := ⟨PMU_CLU.addr n, 31, 25⟩
def PMU_CLU.QTH (n : Nat) : Fld := ⟨PMU_CLU.addr n, 24, 18⟩
def PMU_CLU.QRAIL (n : Nat) : Fld := ⟨PMU_CLU.addr n, 17, 11⟩
def PMU_CLU.PHASE (n : Nat) : Fld := ⟨PMU_CLU.addr n, 10, 5⟩
/-- PMU_CLU_DROOPS (R698). -/
def PMU_CLU_DROOPS.addr (n : Nat) : Nat := 0x11000700 + n * 0x4
def PMU_CLU_DROOPS.COUNT (n : Nat) : Fld := ⟨PMU_CLU_DROOPS.addr n, 31, 0⟩
/-- PMU_PD_CTRL (R699). -/
def PMU_PD_CTRL.addr : Nat := 0x11000FFC
def PMU_PD_CTRL.AUTO_GATE : Fld := ⟨PMU_PD_CTRL.addr, 31, 31⟩
/-- PMU_PD (R699). -/
def PMU_PD.addr (d : Nat) : Nat := 0x11001000 + d * 0x4
def PMU_PD.STATE (d : Nat) : Fld := ⟨PMU_PD.addr d, 31, 30⟩
def PMU_PD.REFUSED (d : Nat) : Fld := ⟨PMU_PD.addr d, 29, 29⟩
def PMU_PD.PG_FAIL (d : Nat) : Fld := ⟨PMU_PD.addr d, 28, 28⟩
def PMU_PD.ON (d : Nat) : Fld := ⟨PMU_PD.addr d, 1, 1⟩
def PMU_PD.OFF (d : Nat) : Fld := ⟨PMU_PD.addr d, 0, 0⟩
/-- PMU_PD_ENERGY_LO (R700). -/
def PMU_PD_ENERGY_LO.addr (d : Nat) : Nat := 0x11002000 + d * 0x8
def PMU_PD_ENERGY_LO.UJ (d : Nat) : Fld := ⟨PMU_PD_ENERGY_LO.addr d, 31, 0⟩
/-- PMU_PD_ENERGY_HI (R700). -/
def PMU_PD_ENERGY_HI.addr (d : Nat) : Nat := 0x11002004 + d * 0x8
def PMU_PD_ENERGY_HI.UJ (d : Nat) : Fld := ⟨PMU_PD_ENERGY_HI.addr d, 31, 0⟩
/-- THM_SENSOR (R702). -/
def THM_SENSOR.addr (s : Nat) : Nat := 0x12000000 + s * 0x4
def THM_SENSOR.FAULT (s : Nat) : Fld := ⟨THM_SENSOR.addr s, 31, 31⟩
def THM_SENSOR.MAX_C (s : Nat) : Fld := ⟨THM_SENSOR.addr s, 15, 8⟩
def THM_SENSOR.T_C (s : Nat) : Fld := ⟨THM_SENSOR.addr s, 7, 0⟩
/-- MTI_STATUS (R723). -/
def MTI_STATUS.addr : Nat := 0x15000000
def MTI_STATUS.SEALED : Fld := ⟨MTI_STATUS.addr, 31, 31⟩
def MTI_STATUS.RUNNING : Fld := ⟨MTI_STATUS.addr, 30, 30⟩
def MTI_STATUS.ROM_FAIL : Fld := ⟨MTI_STATUS.addr, 29, 29⟩
def MTI_STATUS.CHAIN_BREAKS : Fld := ⟨MTI_STATUS.addr, 15, 0⟩
/-- MTI_FW_VERSION (R724). -/
def MTI_FW_VERSION.addr : Nat := 0x15000004
def MTI_FW_VERSION.MAJOR : Fld := ⟨MTI_FW_VERSION.addr, 31, 16⟩
def MTI_FW_VERSION.MINOR : Fld := ⟨MTI_FW_VERSION.addr, 15, 0⟩
/-- MTI_FW_CRC (R725). -/
def MTI_FW_CRC.addr : Nat := 0x15000008
def MTI_FW_CRC.CRC : Fld := ⟨MTI_FW_CRC.addr, 31, 0⟩
/-- MTI_PARAM_CRC (R725). -/
def MTI_PARAM_CRC.addr : Nat := 0x1500000C
def MTI_PARAM_CRC.CRC : Fld := ⟨MTI_PARAM_CRC.addr, 31, 0⟩
/-- MTI_SNAP (R720). -/
def MTI_SNAP.addr (w : Nat) : Nat := 0x15000100 + w * 0x4
def MTI_SNAP.WORD (w : Nat) : Fld := ⟨MTI_SNAP.addr w, 31, 0⟩
/-- MTI_SWEEP (R720). -/
def MTI_SWEEP.addr (w : Nat) : Nat := 0x15001000 + w * 0x4
def MTI_SWEEP.WORD (w : Nat) : Fld := ⟨MTI_SWEEP.addr w, 31, 0⟩
/-- MTI_AUDIT (R720). -/
def MTI_AUDIT.addr (n w : Nat) : Nat := 0x15008000 + n * 0x20 + w * 0x4
def MTI_AUDIT.WORD (n w : Nat) : Fld := ⟨MTI_AUDIT.addr n w, 31, 0⟩
/-- APC_IMSIC_M (R622). -/
def APC_IMSIC_M.addr (h : Nat) : Nat := 0x50100000 + h * 0x1000
def APC_IMSIC_M.EIID (h : Nat) : Fld := ⟨APC_IMSIC_M.addr h, 31, 0⟩
/-- APC_IMSIC_S (R622). -/
def APC_IMSIC_S.addr (h j : Nat) : Nat := 0x50200000 + h * 0x8000 + j * 0x1000
def APC_IMSIC_S.EIID (h j : Nat) : Fld := ⟨APC_IMSIC_S.addr h j, 31, 0⟩

/-- APLIC_DOMAINCFG (R622, AIA 1.0). -/
def APLIC_DOMAINCFG.addr (d : Nat) : Nat := 0x50400000 + d * 0x10000
def APLIC_DOMAINCFG.IE (d : Nat) : Fld := ⟨APLIC_DOMAINCFG.addr d, 8, 8⟩
def APLIC_DOMAINCFG.DM (d : Nat) : Fld := ⟨APLIC_DOMAINCFG.addr d, 2, 2⟩
/-- APLIC_SOURCECFG (R622, AIA 1.0). -/
def APLIC_SOURCECFG.addr (d k : Nat) : Nat := 0x50400004 + d * 0x10000 + k * 0x4
def APLIC_SOURCECFG.D (d k : Nat) : Fld := ⟨APLIC_SOURCECFG.addr d k, 10, 10⟩
def APLIC_SOURCECFG.SM (d k : Nat) : Fld := ⟨APLIC_SOURCECFG.addr d k, 2, 0⟩
/-- APLIC_MMSIADDRCFGH (R622, AIA 1.0). -/
def APLIC_MMSIADDRCFGH.addr : Nat := 0x50401BC4
def APLIC_MMSIADDRCFGH.L : Fld := ⟨APLIC_MMSIADDRCFGH.addr, 31, 31⟩
/-- APLIC_SETIP (R622, AIA 1.0). -/
def APLIC_SETIP.addr (d k : Nat) : Nat := 0x50401C00 + d * 0x10000 + k * 0x4
def APLIC_SETIP.BITS (d k : Nat) : Fld := ⟨APLIC_SETIP.addr d k, 31, 0⟩
/-- APLIC_SETIPNUM (R622, AIA 1.0). -/
def APLIC_SETIPNUM.addr (d : Nat) : Nat := 0x50401CDC + d * 0x10000
def APLIC_SETIPNUM.N (d : Nat) : Fld := ⟨APLIC_SETIPNUM.addr d, 31, 0⟩
/-- APLIC_CLRIP (R622, AIA 1.0). -/
def APLIC_CLRIP.addr (d k : Nat) : Nat := 0x50401D00 + d * 0x10000 + k * 0x4
def APLIC_CLRIP.BITS (d k : Nat) : Fld := ⟨APLIC_CLRIP.addr d k, 31, 0⟩
/-- APLIC_CLRIPNUM (R622, AIA 1.0). -/
def APLIC_CLRIPNUM.addr (d : Nat) : Nat := 0x50401DDC + d * 0x10000
def APLIC_CLRIPNUM.N (d : Nat) : Fld := ⟨APLIC_CLRIPNUM.addr d, 31, 0⟩
/-- APLIC_SETIE (R622, AIA 1.0). -/
def APLIC_SETIE.addr (d k : Nat) : Nat := 0x50401E00 + d * 0x10000 + k * 0x4
def APLIC_SETIE.BITS (d k : Nat) : Fld := ⟨APLIC_SETIE.addr d k, 31, 0⟩
/-- APLIC_SETIENUM (R622, AIA 1.0). -/
def APLIC_SETIENUM.addr (d : Nat) : Nat := 0x50401EDC + d * 0x10000
def APLIC_SETIENUM.N (d : Nat) : Fld := ⟨APLIC_SETIENUM.addr d, 31, 0⟩
/-- APLIC_CLRIE (R622, AIA 1.0). -/
def APLIC_CLRIE.addr (d k : Nat) : Nat := 0x50401F00 + d * 0x10000 + k * 0x4
def APLIC_CLRIE.BITS (d k : Nat) : Fld := ⟨APLIC_CLRIE.addr d k, 31, 0⟩
/-- APLIC_CLRIENUM (R622, AIA 1.0). -/
def APLIC_CLRIENUM.addr (d : Nat) : Nat := 0x50401FDC + d * 0x10000
def APLIC_CLRIENUM.N (d : Nat) : Fld := ⟨APLIC_CLRIENUM.addr d, 31, 0⟩
/-- APLIC_SETIPNUM_LE (R622, AIA 1.0). -/
def APLIC_SETIPNUM_LE.addr (d : Nat) : Nat := 0x50402000 + d * 0x10000
def APLIC_SETIPNUM_LE.N (d : Nat) : Fld := ⟨APLIC_SETIPNUM_LE.addr d, 31, 0⟩
/-- APLIC_GENMSI (R622, AIA 1.0). -/
def APLIC_GENMSI.addr (d : Nat) : Nat := 0x50403000 + d * 0x10000
def APLIC_GENMSI.HART (d : Nat) : Fld := ⟨APLIC_GENMSI.addr d, 31, 18⟩
def APLIC_GENMSI.EIID (d : Nat) : Fld := ⟨APLIC_GENMSI.addr d, 10, 0⟩
/-- APLIC_TARGET (R622, AIA 1.0). -/
def APLIC_TARGET.addr (d k : Nat) : Nat := 0x50403004 + d * 0x10000 + k * 0x4
def APLIC_TARGET.HART (d k : Nat) : Fld := ⟨APLIC_TARGET.addr d k, 31, 18⟩
def APLIC_TARGET.GUEST (d k : Nat) : Fld := ⟨APLIC_TARGET.addr d k, 17, 12⟩
def APLIC_TARGET.EIID (d k : Nat) : Fld := ⟨APLIC_TARGET.addr d k, 10, 0⟩
/-- IOM_CAP_LO (R625, RISC-V IOMMU 1.0). -/
def IOM_CAP_LO.addr : Nat := 0x50500000
def IOM_CAP_LO.WORD : Fld := ⟨IOM_CAP_LO.addr, 31, 0⟩
/-- IOM_CAP_HI (R625, RISC-V IOMMU 1.0). -/
def IOM_CAP_HI.addr : Nat := 0x50500004
def IOM_CAP_HI.WORD : Fld := ⟨IOM_CAP_HI.addr, 31, 0⟩
/-- IOM_FCTL (R625, RISC-V IOMMU 1.0). -/
def IOM_FCTL.addr : Nat := 0x50500008
def IOM_FCTL.WSI : Fld := ⟨IOM_FCTL.addr, 1, 1⟩
/-- IOM_DDTP_LO (R625, RISC-V IOMMU 1.0). -/
def IOM_DDTP_LO.addr : Nat := 0x50500010
def IOM_DDTP_LO.PPN_LO : Fld := ⟨IOM_DDTP_LO.addr, 31, 10⟩
def IOM_DDTP_LO.MODE : Fld := ⟨IOM_DDTP_LO.addr, 3, 0⟩
/-- IOM_DDTP_HI (R625, RISC-V IOMMU 1.0). -/
def IOM_DDTP_HI.addr : Nat := 0x50500014
def IOM_DDTP_HI.PPN_HI : Fld := ⟨IOM_DDTP_HI.addr, 21, 0⟩
/-- IOM_CQB_LO (R625, RISC-V IOMMU 1.0). -/
def IOM_CQB_LO.addr : Nat := 0x50500018
def IOM_CQB_LO.PPN_LO : Fld := ⟨IOM_CQB_LO.addr, 31, 10⟩
def IOM_CQB_LO.LOG2SZ_M1 : Fld := ⟨IOM_CQB_LO.addr, 4, 0⟩
/-- IOM_CQB_HI (R625, RISC-V IOMMU 1.0). -/
def IOM_CQB_HI.addr : Nat := 0x5050001C
def IOM_CQB_HI.PPN_HI : Fld := ⟨IOM_CQB_HI.addr, 21, 0⟩
/-- IOM_CQH (R625, RISC-V IOMMU 1.0). -/
def IOM_CQH.addr : Nat := 0x50500020
def IOM_CQH.INDEX : Fld := ⟨IOM_CQH.addr, 31, 0⟩
/-- IOM_CQT (R625, RISC-V IOMMU 1.0). -/
def IOM_CQT.addr : Nat := 0x50500024
def IOM_CQT.INDEX : Fld := ⟨IOM_CQT.addr, 31, 0⟩
/-- IOM_FQB_LO (R625, RISC-V IOMMU 1.0). -/
def IOM_FQB_LO.addr : Nat := 0x50500028
def IOM_FQB_LO.PPN_LO : Fld := ⟨IOM_FQB_LO.addr, 31, 10⟩
def IOM_FQB_LO.LOG2SZ_M1 : Fld := ⟨IOM_FQB_LO.addr, 4, 0⟩
/-- IOM_FQB_HI (R625, RISC-V IOMMU 1.0). -/
def IOM_FQB_HI.addr : Nat := 0x5050002C
def IOM_FQB_HI.PPN_HI : Fld := ⟨IOM_FQB_HI.addr, 21, 0⟩
/-- IOM_FQH (R625, RISC-V IOMMU 1.0). -/
def IOM_FQH.addr : Nat := 0x50500030
def IOM_FQH.INDEX : Fld := ⟨IOM_FQH.addr, 31, 0⟩
/-- IOM_FQT (R625, RISC-V IOMMU 1.0). -/
def IOM_FQT.addr : Nat := 0x50500034
def IOM_FQT.INDEX : Fld := ⟨IOM_FQT.addr, 31, 0⟩
/-- IOM_CQCSR (R625, RISC-V IOMMU 1.0). -/
def IOM_CQCSR.addr : Nat := 0x50500048
def IOM_CQCSR.CQON : Fld := ⟨IOM_CQCSR.addr, 16, 16⟩
def IOM_CQCSR.FENCE_W_IP : Fld := ⟨IOM_CQCSR.addr, 11, 11⟩
def IOM_CQCSR.CMD_ILL : Fld := ⟨IOM_CQCSR.addr, 10, 10⟩
def IOM_CQCSR.CMD_TO : Fld := ⟨IOM_CQCSR.addr, 9, 9⟩
def IOM_CQCSR.CQMF : Fld := ⟨IOM_CQCSR.addr, 8, 8⟩
def IOM_CQCSR.CIE : Fld := ⟨IOM_CQCSR.addr, 1, 1⟩
def IOM_CQCSR.CQEN : Fld := ⟨IOM_CQCSR.addr, 0, 0⟩
/-- IOM_FQCSR (R625, RISC-V IOMMU 1.0). -/
def IOM_FQCSR.addr : Nat := 0x5050004C
def IOM_FQCSR.FQON : Fld := ⟨IOM_FQCSR.addr, 16, 16⟩
def IOM_FQCSR.FQOF : Fld := ⟨IOM_FQCSR.addr, 9, 9⟩
def IOM_FQCSR.FQMF : Fld := ⟨IOM_FQCSR.addr, 8, 8⟩
def IOM_FQCSR.FIE : Fld := ⟨IOM_FQCSR.addr, 1, 1⟩
def IOM_FQCSR.FQEN : Fld := ⟨IOM_FQCSR.addr, 0, 0⟩
/-- IOM_IPSR (R625, RISC-V IOMMU 1.0). -/
def IOM_IPSR.addr : Nat := 0x50500054
def IOM_IPSR.FIP : Fld := ⟨IOM_IPSR.addr, 1, 1⟩
def IOM_IPSR.CIP : Fld := ⟨IOM_IPSR.addr, 0, 0⟩
/-- IOM_ICVEC_LO (R625, RISC-V IOMMU 1.0). -/
def IOM_ICVEC_LO.addr : Nat := 0x505002F8
def IOM_ICVEC_LO.WORD : Fld := ⟨IOM_ICVEC_LO.addr, 31, 0⟩
/-- IOM_ICVEC_HI (R625, RISC-V IOMMU 1.0). -/
def IOM_ICVEC_HI.addr : Nat := 0x505002FC
def IOM_ICVEC_HI.WORD : Fld := ⟨IOM_ICVEC_HI.addr, 31, 0⟩

/-- Registers of the 16 MiB region at 0x1000_0000, part 0. -/
def regsRegion10_0 : List RegDesc := [
  ⟨0x10000000, [], 0x72001001, 0x0, 0x0, 0x0, 0x0, 0x0, .all, false⟩,
  ⟨0x10000004, [], 0x770100, 0x0, 0x0, 0x0, 0x0, 0x0, .all, false⟩,
  ⟨0x10000200, [(0x8, 32)], 0x0, 0xFFFFFFFB, 0x0, 0x0, 0x0, 0x0, .mgt, true⟩,
  ⟨0x10000204, [(0x8, 32)], 0x0, 0xFFFFF000, 0x0, 0x0, 0x0, 0x0, .mgt, true⟩,
  ⟨0x10000100, [], 0x0, 0x0, 0x60000000, 0x0, 0x0, 0x0, .mgt, false⟩,
  ⟨0x10000400, [], 0x4000000, 0x0, 0x0, 0x0, 0x0, 0x0, .nobody, false⟩,
  ⟨0x10000404, [(0x4, 2)], 0x0, 0x0, 0x0, 0x0, 0x0, 0x0, .nobody, false⟩,
  ⟨0x1000040C, [(0x4, 2)], 0x0, 0x0, 0x0, 0x0, 0x0, 0x0, .nobody, false⟩,
  ⟨0x10000500, [], 0x0, 0x0, 0x0, 0x0, 0xFF, 0x0, .appsMgt, true⟩,
  ⟨0x10000504, [], 0x0, 0x0, 0x30000FF, 0x0, 0x0, 0x0, .appsMgt, false⟩,
  ⟨0x10000600, [], 0x101, 0x0, 0x0, 0x0, 0x0, 0x0, .nobody, false⟩,
  ⟨0x10000604, [], 0x0, 0x0, 0x0, 0x0, 0x0, 0x0, .nobody, false⟩,
  ⟨0x10000608, [], 0x101, 0x1FF0F1F, 0x0, 0x0, 0x0, 0x0, .appsMgt, false⟩,
  ⟨0x1000060C, [], 0x0, 0xFFFFFFFF, 0x0, 0x0, 0x0, 0x0, .appsMgt, false⟩,
  ⟨0x10000610, [], 0x10000000, 0x0, 0x70000000, 0x0, 0x80000000, 0x0, .appsMgt, true⟩]

/-- Registers of the 16 MiB region at 0x1100_0000, part 0. -/
def regsRegion11_0 : List RegDesc := [
  ⟨0x11000000, [], 0x0, 0x1FF, 0x0, 0x0, 0x0, 0x0, .appsMgt, true⟩,
  ⟨0x11000004, [], 0x0, 0x0, 0x0, 0x0, 0x0, 0x0, .mgt, false⟩,
  ⟨0x11000008, [], 0x0, 0x0, 0xFE000000, 0x0, 0x0, 0x0, .appsMgt, false⟩,
  ⟨0x11000080, [], 0x0, 0x0, 0x0, 0x0, 0x0, 0x0, .mgt, false⟩,
  ⟨0x11000084, [], 0x0, 0x0, 0x80000000, 0x0, 0x0, 0x0, .mgt, false⟩,
  ⟨0x11000100, [(0x10, 11)], 0x0, 0x0, 0x0, 0x0, 0x0, 0x0, .mgt, false⟩,
  ⟨0x11000104, [(0x10, 11)], 0x0, 0x0, 0xFFFF, 0x0, 0x0, 0x0, .mgt, true⟩,
  ⟨0x11000400, [(0x4, 64)], 0x0, 0xFFFF, 0x0, 0x0, 0x0, 0x0, .mgt, false⟩,
  ⟨0x11000600, [(0x4, 64)], 0x81020000, 0x0, 0x0, 0x0, 0x0, 0x0, .mgt, false⟩,
  ⟨0x11000700, [(0x4, 64)], 0x0, 0x0, 0x0, 0x0, 0x0, 0xFFFFFFFF, .mgt, false⟩,
  ⟨0x11000FFC, [], 0x0, 0x80000000, 0x0, 0x0, 0x0, 0x0, .mgt, false⟩,
  ⟨0x11001000, [(0x4, 96)], 0x0, 0x0, 0x20000000, 0x0, 0x3, 0x0, .mgt, true⟩,
  ⟨0x11002000, [(0x8, 96)], 0x0, 0x0, 0x0, 0x0, 0x0, 0x0, .mgt, false⟩,
  ⟨0x11002004, [(0x8, 96)], 0x0, 0x0, 0x0, 0x0, 0x0, 0x0, .mgt, false⟩]

/-- Registers of the 16 MiB region at 0x1200_0000, part 0. -/
def regsRegion12_0 : List RegDesc := [
  ⟨0x12000000, [(0x4, 128)], 0x8080, 0x0, 0x0, 0x0, 0x0, 0xFF00, .mgt, false⟩]

/-- Registers of the 16 MiB region at 0x1300_0000, part 0. -/
def regsRegion13_0 : List RegDesc := [
  ⟨0x13000000, [], 0x4, 0xFFFFF01F, 0x0, 0x0, 0x0, 0x0, .appsMgt, false⟩,
  ⟨0x13000004, [], 0x0, 0xFFFF, 0x0, 0x0, 0x0, 0x0, .appsMgt, false⟩,
  ⟨0x13000008, [], 0x0, 0x0, 0x0, 0x0, 0x0, 0x0, .appsMgt, false⟩,
  ⟨0x1300000C, [], 0x0, 0xFFFFFFFF, 0x0, 0x0, 0x0, 0x0, .appsMgt, true⟩,
  ⟨0x13000010, [], 0x0, 0x80000000, 0x0, 0x0, 0x0, 0x0, .appsMgt, false⟩,
  ⟨0x13000014, [], 0x0, 0x0, 0x0, 0x0, 0x0, 0xFFFFFFFF, .appsMgt, false⟩,
  ⟨0x13000018, [], 0x0, 0xC01F07FF, 0x0, 0x0, 0x0, 0x0, .appsMgt, false⟩,
  ⟨0x13000020, [], 0x0, 0xFFFFFFFF, 0x0, 0x0, 0x0, 0x0, .mgt, false⟩,
  ⟨0x13000024, [], 0x0, 0xFFFF, 0x0, 0x0, 0x0, 0x0, .mgt, false⟩,
  ⟨0x13000040, [(0x4, 8)], 0x0, 0xFFFFFFF1, 0x0, 0x0, 0x0, 0x0, .mgt, false⟩,
  ⟨0x13000100, [], 0x0, 0x0, 0x0, 0x0, 0xC000003F, 0x0, .appsMgt, true⟩,
  ⟨0x13000104, [], 0x0, 0x0, 0x80000000, 0x0, 0x0, 0x0, .mgt, false⟩,
  ⟨0x13001000, [(0x4, 64)], 0x0, 0x0, 0x0, 0x0, 0x0, 0x0, .mgt, false⟩,
  ⟨0x13001100, [(0x4, 64)], 0x0, 0x0, 0x0, 0x0, 0x0, 0x0, .mgt, false⟩,
  ⟨0x13001200, [(0x4, 64)], 0x0, 0x0, 0x0, 0x0, 0x0, 0xFFFFFFFF, .mgt, false⟩,
  ⟨0x13001400, [(0x4, 128)], 0x0, 0x0, 0x0, 0x0, 0x0, 0xFFFFFFFF, .mgt, false⟩,
  ⟨0x13001300, [(0x4, 11)], 0x0, 0x0, 0x0, 0x0, 0x0, 0xFFFFFFFF, .mgt, false⟩,
  ⟨0x13001340, [(0x4, 11)], 0x0, 0x0, 0x0, 0x0, 0x0, 0x0, .mgt, false⟩,
  ⟨0x13000200, [], 0x0, 0x0, 0x0, 0x0, 0x0, 0xFFFFFFFF, .mgt, false⟩]

/-- Registers of the 16 MiB region at 0x1400_0000, part 0. -/
def regsRegion14_0 : List RegDesc := [
  ⟨0x14000000, [], 0x0, 0x0, 0x0, 0x0, 0x0, 0x0, .appsMgt, false⟩,
  ⟨0x14000004, [], 0x0, 0x0, 0x0, 0x0, 0x0, 0x0, .appsMgt, false⟩,
  ⟨0x14000008, [], 0x0, 0xFFFFFFFF, 0x0, 0x0, 0x0, 0x0, .appsMgt, false⟩,
  ⟨0x1400000C, [], 0x0, 0xFFFFFFFF, 0x0, 0x0, 0x0, 0x0, .appsMgt, false⟩,
  ⟨0x14000010, [], 0x0, 0xFFFFFFFF, 0x0, 0x0, 0x0, 0x0, .appsMgt, true⟩,
  ⟨0x14000014, [], 0x0, 0x0, 0x0, 0x0, 0x80000000, 0x0, .appsMgt, true⟩,
  ⟨0x14000018, [], 0x0, 0xFFFFFFFF, 0x0, 0x0, 0x0, 0x0, .appsMgt, false⟩,
  ⟨0x1400001C, [], 0x0, 0xFFFFFFFF, 0x0, 0x0, 0x0, 0x0, .appsMgt, true⟩,
  ⟨0x14000020, [], 0x0, 0x0, 0xC0000000, 0x0, 0x0, 0x0, .appsMgt, false⟩,
  ⟨0x14000024, [], 0x0, 0xC01F07FF, 0x0, 0x0, 0x0, 0x0, .appsMgt, false⟩]

/-- Registers of the 16 MiB region at 0x1500_0000, part 0. -/
def regsRegion15_0 : List RegDesc := [
  ⟨0x15000000, [], 0x0, 0x0, 0x0, 0x0, 0x0, 0x0, .nobody, false⟩,
  ⟨0x15000004, [], 0x10000, 0x0, 0x0, 0x0, 0x0, 0x0, .nobody, false⟩,
  ⟨0x15000008, [], 0x0, 0x0, 0x0, 0x0, 0x0, 0x0, .nobody, false⟩,
  ⟨0x1500000C, [], 0x0, 0x0, 0x0, 0x0, 0x0, 0x0, .nobody, false⟩,
  ⟨0x15000100, [(0x4, 16)], 0x0, 0x0, 0x0, 0x0, 0x0, 0x0, .nobody, false⟩,
  ⟨0x15001000, [(0x4, 264)], 0x0, 0x0, 0x0, 0x0, 0x0, 0x0, .nobody, false⟩,
  ⟨0x15008000, [(0x20, 1024), (0x4, 8)], 0x0, 0x0, 0x0, 0x0, 0x0, 0x0, .nobody, false⟩]

/-- Registers of the 16 MiB region at 0x2000_0000, part 0. -/
def regsRegion20_0 : List RegDesc := [
  ⟨0x200F0000, [], 0x0, 0xFFFFFFC0, 0x0, 0x0, 0x0, 0x0, .appsMgt, false⟩,
  ⟨0x200F0004, [], 0x0, 0xFFFF, 0x0, 0x0, 0x0, 0x0, .appsMgt, false⟩,
  ⟨0x200F0008, [], 0x0, 0x0, 0x0, 0x0, 0xC00000FF, 0x0, .appsMgt, true⟩,
  ⟨0x200F000C, [], 0x0, 0x0, 0x60000000, 0x0, 0x0, 0x0, .appsMgt, false⟩,
  ⟨0x200F0010, [], 0x0, 0x0, 0x0, 0x0, 0x0, 0x0, .appsMgt, false⟩,
  ⟨0x200E0000, [(0x40, 8), (0x4, 16)], 0x0, 0x0, 0x0, 0x0, 0x0, 0x0, .all, false⟩,
  ⟨0x20000000, [], 0x0, 0x0, 0x0, 0x0, 0x0, 0x0, .all, false⟩,
  ⟨0x20000004, [], 0x0, 0x0, 0x0, 0x0, 0x0, 0x0, .all, false⟩,
  ⟨0x20000100, [(0x4, 8)], 0x0, 0x1FFF, 0x0, 0x0, 0x0, 0x0, .mgt, false⟩,
  ⟨0x20000200, [(0x10, 8), (0x4, 4)], 0x0, 0x7FFFFFFF, 0x0, 0x0, 0x0, 0x0, .mgt, false⟩,
  ⟨0x20000300, [(0x10, 8)], 0x0, 0xFFFF0000, 0x0, 0x0, 0x0, 0x0, .mgt, false⟩,
  ⟨0x20000304, [(0x10, 8)], 0x0, 0xFFFF0000, 0x0, 0x0, 0x0, 0x0, .mgt, false⟩,
  ⟨0x20000308, [(0x10, 8)], 0x0, 0xFF7F0000, 0x0, 0x0, 0x0, 0x0, .mgt, false⟩,
  ⟨0x20000400, [(0x4, 8)], 0x0, 0x0, 0x0, 0x0, 0x0, 0xFFFFFFFF, .appsMgt, false⟩,
  ⟨0x20001000, [(0x4, 64)], 0x7FFF, 0x0, 0x0, 0x0, 0x0, 0x0, .all, false⟩,
  ⟨0x20002000, [(0x20, 64), (0x4, 8)], 0x0, 0x0, 0x0, 0x0, 0x0, 0x0, .all, false⟩,
  ⟨0x20900000, [(0x4, 32768)], 0x0, 0xFFFFFFFF, 0x0, 0x0, 0x0, 0x0, .appsMgt, true⟩,
  ⟨0x20100000, [(0x4, 32768)], 0x0, 0xFFFFFFFF, 0x0, 0x0, 0x0, 0x0, .appsMgt, true⟩,
  ⟨0x20920000, [(0x4, 32768)], 0x0, 0x0, 0x0, 0x0, 0xFFFFFFFF, 0x0, .appsMgt, true⟩,
  ⟨0x20120000, [(0x4, 32768)], 0x0, 0x0, 0x0, 0x0, 0xFFFFFFFF, 0x0, .appsMgt, true⟩,
  ⟨0x20940000, [(0x4, 32768)], 0x0, 0x0, 0x3, 0x0, 0x0, 0x0, .appsMgt, false⟩,
  ⟨0x20140000, [(0x4, 32768)], 0x0, 0x0, 0x3, 0x0, 0x0, 0x0, .appsMgt, false⟩,
  ⟨0x20A00000, [(0x40, 16384)], 0x440000, 0xFFFC0000, 0x0, 0x0, 0x0, 0x0, .appsMgt, true⟩,
  ⟨0x20200000, [(0x40, 16384)], 0x440000, 0xFFFC0000, 0x0, 0x0, 0x0, 0x0, .appsMgt, true⟩,
  ⟨0x20A00004, [(0x40, 16384)], 0x4, 0xFFFFF01F, 0x0, 0x0, 0x0, 0x0, .appsMgt, false⟩,
  ⟨0x20200004, [(0x40, 16384)], 0x4, 0xFFFFF01F, 0x0, 0x0, 0x0, 0x0, .appsMgt, false⟩,
  ⟨0x20A00008, [(0x40, 16384)], 0x0, 0xFFFF, 0x0, 0x0, 0x0, 0x0, .appsMgt, false⟩,
  ⟨0x20200008, [(0x40, 16384)], 0x0, 0xFFFF, 0x0, 0x0, 0x0, 0x0, .appsMgt, false⟩,
  ⟨0x20A0000C, [(0x40, 16384)], 0x4, 0xFFFFF01F, 0x0, 0x0, 0x0, 0x0, .appsMgt, false⟩,
  ⟨0x2020000C, [(0x40, 16384)], 0x4, 0xFFFFF01F, 0x0, 0x0, 0x0, 0x0, .appsMgt, false⟩]

/-- Registers of the 16 MiB region at 0x2000_0000, part 1. -/
def regsRegion20_1 : List RegDesc := [
  ⟨0x20A00010, [(0x40, 16384)], 0x0, 0xFFFF, 0x0, 0x0, 0x0, 0x0, .appsMgt, false⟩,
  ⟨0x20200010, [(0x40, 16384)], 0x0, 0xFFFF, 0x0, 0x0, 0x0, 0x0, .appsMgt, false⟩,
  ⟨0x20A00014, [(0x40, 16384)], 0x0, 0x0, 0x0, 0x0, 0x0, 0x0, .appsMgt, false⟩,
  ⟨0x20200014, [(0x40, 16384)], 0x0, 0x0, 0x0, 0x0, 0x0, 0x0, .appsMgt, false⟩,
  ⟨0x20A00018, [(0x40, 16384)], 0x0, 0x0, 0x0, 0x0, 0x0, 0x0, .appsMgt, false⟩,
  ⟨0x20200018, [(0x40, 16384)], 0x0, 0x0, 0x0, 0x0, 0x0, 0x0, .appsMgt, false⟩,
  ⟨0x20A0001C, [(0x40, 16384)], 0x0, 0x0, 0x0, 0x0, 0xFFFFFFFF, 0x0, .appsMgt, true⟩,
  ⟨0x2020001C, [(0x40, 16384)], 0x0, 0x0, 0x0, 0x0, 0xFFFFFFFF, 0x0, .appsMgt, true⟩,
  ⟨0x20A00020, [(0x40, 16384)], 0x0, 0xFFFFFFFF, 0x0, 0x0, 0x0, 0x0, .appsMgt, true⟩,
  ⟨0x20200020, [(0x40, 16384)], 0x0, 0xFFFFFFFF, 0x0, 0x0, 0x0, 0x0, .appsMgt, true⟩,
  ⟨0x20A00024, [(0x40, 16384)], 0x0, 0x0, 0x0, 0x0, 0x0, 0x0, .appsMgt, false⟩,
  ⟨0x20200024, [(0x40, 16384)], 0x0, 0x0, 0x0, 0x0, 0x0, 0x0, .appsMgt, false⟩,
  ⟨0x20A00028, [(0x40, 16384)], 0xFF, 0x0, 0x3800000, 0x0, 0x0, 0x0, .appsMgt, false⟩,
  ⟨0x20200028, [(0x40, 16384)], 0xFF, 0x0, 0x3800000, 0x0, 0x0, 0x0, .appsMgt, false⟩,
  ⟨0x20A0002C, [(0x40, 16384)], 0x0, 0x0, 0x0, 0x0, 0xE0000000, 0x0, .appsMgt, true⟩,
  ⟨0x2020002C, [(0x40, 16384)], 0x0, 0x0, 0x0, 0x0, 0xE0000000, 0x0, .appsMgt, true⟩,
  ⟨0x20A00030, [(0x40, 16384)], 0x0, 0x0, 0x0, 0x0, 0x0, 0xFFFFFFFF, .appsMgt, false⟩,
  ⟨0x20200030, [(0x40, 16384)], 0x0, 0x0, 0x0, 0x0, 0x0, 0xFFFFFFFF, .appsMgt, false⟩,
  ⟨0x20A00034, [(0x40, 16384)], 0x0, 0x0, 0x0, 0x0, 0x0, 0xFFFFFFFF, .appsMgt, false⟩,
  ⟨0x20200034, [(0x40, 16384)], 0x0, 0x0, 0x0, 0x0, 0x0, 0xFFFFFFFF, .appsMgt, false⟩,
  ⟨0x20A00038, [(0x40, 16384)], 0x0, 0xC01F07FF, 0x0, 0x0, 0x0, 0x0, .appsMgt, false⟩,
  ⟨0x20200038, [(0x40, 16384)], 0x0, 0xC01F07FF, 0x0, 0x0, 0x0, 0x0, .appsMgt, false⟩]

/-- Registers of the 16 MiB region at 0x2100_0000, part 0. -/
def regsRegion21_0 : List RegDesc := [
  ⟨0x21010000, [(0x10000, 8), (0x4, 6)], 0x0, 0xFFFFFFFF, 0x0, 0x0, 0x0, 0x0, .appsMgt, false⟩,
  ⟨0x21010020, [(0x10000, 8)], 0x0, 0x0, 0x0, 0x0, 0xFF000000, 0x0, .appsMgt, true⟩,
  ⟨0x21010024, [(0x10000, 8)], 0x0, 0x0, 0x60000000, 0x0, 0x0, 0x0, .appsMgt, false⟩,
  ⟨0x21010028, [(0x10000, 8), (0x4, 2)], 0x0, 0x0, 0x0, 0x0, 0x0, 0x0, .appsMgt, false⟩,
  ⟨0x21010030, [(0x10000, 8)], 0x0, 0xC01F07FF, 0x0, 0x0, 0x0, 0x0, .appsMgt, false⟩,
  ⟨0x21010040, [(0x10000, 8)], 0x0, 0x0, 0x0, 0x0, 0x0, 0xFFFFFFFF, .appsMgt, false⟩,
  ⟨0x21010044, [(0x10000, 8)], 0x0, 0x0, 0x0, 0x0, 0x0, 0xFFFFFFFF, .appsMgt, false⟩,
  ⟨0x21010048, [(0x10000, 8)], 0x0, 0x0, 0x0, 0x0, 0x0, 0x0, .appsMgt, false⟩,
  ⟨0x2101004C, [(0x10000, 8)], 0x0, 0x0, 0x0, 0x0, 0x0, 0x0, .appsMgt, false⟩,
  ⟨0x21010080, [(0x10000, 8)], 0x0, 0xFFFF0000, 0x0, 0x0, 0x0, 0x0, .mgt, false⟩,
  ⟨0x21010084, [(0x10000, 8)], 0x0, 0xFFFF0000, 0x0, 0x0, 0x0, 0x0, .mgt, false⟩,
  ⟨0x21010088, [(0x10000, 8)], 0x0, 0xFFFF0000, 0x0, 0x0, 0x0, 0x0, .mgt, false⟩,
  ⟨0x2101008C, [(0x10000, 8)], 0x0, 0xFFFF0000, 0x0, 0x0, 0x0, 0x0, .mgt, false⟩,
  ⟨0x21010090, [(0x10000, 8)], 0x0, 0x7FFFFF, 0x0, 0x0, 0x0, 0x0, .mgt, false⟩,
  ⟨0x21000100, [(0x4, 32)], 0x0, 0x0, 0x0, 0x0, 0x0, 0x0, .all, false⟩,
  ⟨0x21900000, [(0x20, 512), (0x4, 8)], 0x0, 0x0, 0x0, 0x0, 0x0, 0x0, .all, false⟩,
  ⟨0x21100000, [(0x20, 512), (0x4, 8)], 0x0, 0x0, 0x0, 0x0, 0x0, 0x0, .all, false⟩]

/-- Registers of the 16 MiB region at 0x2200_0000, part 0. -/
def regsRegion22_0 : List RegDesc := [
  ⟨0x22000800, [], 0x0, 0x1F0000, 0x40000000, 0x0, 0x0, 0x0, .mgt, false⟩,
  ⟨0x22000804, [], 0x0, 0x0, 0x0, 0x0, 0x0, 0xFFFFFFFF, .mgt, false⟩,
  ⟨0x22000808, [], 0x0, 0x0, 0x0, 0x0, 0x0, 0xFFFFFFFF, .mgt, false⟩,
  ⟨0x22001000, [(0x10, 64)], 0x0, 0xF01FFFFF, 0x0, 0x0, 0x0, 0x0, .mgt, true⟩,
  ⟨0x22001004, [(0x10, 64)], 0x0, 0xFFFFFFFF, 0x0, 0x0, 0x0, 0x0, .mgt, false⟩,
  ⟨0x22001008, [(0x10, 64)], 0x0, 0xFFFFFFFF, 0x0, 0x0, 0x0, 0x0, .mgt, false⟩,
  ⟨0x22000000, [(0x800000, 2)], 0x0, 0xFFFF8FFF, 0x0, 0x0, 0x0, 0x0, .mgt, false⟩,
  ⟨0x22000004, [(0x800000, 2)], 0x0, 0x0, 0x0, 0x0, 0x0, 0xFFFFFFFF, .mgt, false⟩,
  ⟨0x22010000, [(0x800000, 2), (0x40, 32)], 0x0, 0xFFFCFFFF, 0x0, 0x0, 0x0, 0x0, .mgt, true⟩,
  ⟨0x22010004, [(0x800000, 2), (0x40, 32)], 0x0, 0xFFFFFFFF, 0x0, 0x0, 0x0, 0x0, .mgt, true⟩,
  ⟨0x22010008, [(0x800000, 2), (0x40, 32), (0x4, 3)], 0x0, 0xFFFFFFFF, 0x0, 0x0, 0x0, 0x0, .mgt, true⟩,
  ⟨0x22010014, [(0x800000, 2), (0x40, 32)], 0x0, 0x0, 0x0, 0x0, 0x0, 0x0, .mgt, false⟩,
  ⟨0x22010018, [(0x800000, 2), (0x40, 32)], 0x0, 0x0, 0x0, 0x0, 0x0, 0x0, .mgt, false⟩,
  ⟨0x22010020, [(0x800000, 2), (0x40, 32)], 0x0, 0x0, 0x0, 0x0, 0x0, 0x0, .mgt, false⟩,
  ⟨0x22010024, [(0x800000, 2), (0x40, 32)], 0x0, 0x0, 0x0, 0x0, 0x0, 0x0, .mgt, false⟩,
  ⟨0x22010028, [(0x800000, 2), (0x40, 32)], 0x0, 0x0, 0x0, 0x0, 0x0, 0xFFFFFFFF, .mgt, false⟩,
  ⟨0x2201002C, [(0x800000, 2), (0x40, 32)], 0x0, 0x0, 0x0, 0x0, 0x0, 0xFFFFFFFF, .mgt, false⟩]

/-- Registers of the 16 MiB region at 0x2300_0000, part 0. -/
def regsRegion23_0 : List RegDesc := [
  ⟨0x2300F000, [], 0x0, 0xFFF, 0x0, 0x80000000, 0x0, 0x0, .appsMgt, true⟩,
  ⟨0x2300F100, [(0x20, 8), (0x4, 8)], 0x0, 0x0, 0x0, 0x0, 0x0, 0xFFFFFFFF, .appsMgt, false⟩,
  ⟨0x23000000, [(0x100000, 8)], 0x0, 0x0, 0x0, 0x0, 0x0, 0x0, .appsMgt, false⟩,
  ⟨0x23000004, [(0x100000, 8)], 0x0, 0x0, 0x0, 0x0, 0x0, 0x0, .appsMgt, false⟩,
  ⟨0x23000010, [(0x100000, 8)], 0x0, 0x0, 0x0, 0x0, 0x0, 0xFFFFFFFF, .appsMgt, false⟩,
  ⟨0x23000014, [(0x100000, 8)], 0x0, 0x0, 0x0, 0x0, 0x0, 0xFFFFFFFF, .appsMgt, false⟩,
  ⟨0x23000018, [(0x100000, 8)], 0x0, 0x0, 0x0, 0x0, 0x0, 0xFFFFFFFF, .appsMgt, false⟩,
  ⟨0x2300001C, [(0x100000, 8)], 0x0, 0x0, 0x0, 0x0, 0x0, 0xFFFFFFFF, .appsMgt, false⟩,
  ⟨0x23000020, [(0x100000, 8)], 0x0, 0xFFFF0000, 0x0, 0x0, 0x0, 0x0, .appsMgt, false⟩,
  ⟨0x23800100, [(0x10000, 16), (0x40, 8)], 0x0, 0x80000000, 0x0, 0x0, 0x0, 0x0, .appsMgt, true⟩,
  ⟨0x23800104, [(0x10000, 16), (0x40, 8)], 0x4, 0xFFFFF01F, 0x0, 0x0, 0x0, 0x0, .appsMgt, false⟩,
  ⟨0x23800108, [(0x10000, 16), (0x40, 8)], 0x0, 0xFFFF, 0x0, 0x0, 0x0, 0x0, .appsMgt, false⟩,
  ⟨0x2380010C, [(0x10000, 16), (0x40, 8)], 0x0, 0x0, 0x0, 0x0, 0x0, 0x0, .appsMgt, false⟩,
  ⟨0x23800110, [(0x10000, 16), (0x40, 8)], 0x0, 0x0, 0x0, 0x0, 0x0, 0x0, .appsMgt, false⟩,
  ⟨0x23800114, [(0x10000, 16), (0x40, 8)], 0x0, 0x0, 0x0, 0x0, 0xFFFFFFFF, 0x0, .appsMgt, true⟩,
  ⟨0x23800118, [(0x10000, 16), (0x40, 8)], 0x0, 0x0, 0xC0000000, 0x0, 0x0, 0x0, .appsMgt, false⟩,
  ⟨0x23800040, [(0x10000, 16)], 0x2710, 0xFFFF, 0x0, 0x0, 0x0, 0x0, .appsMgt, false⟩,
  ⟨0x23800800, [(0x10000, 16)], 0x4000001, 0xFF00FFFF, 0x0, 0x0, 0x0, 0x0, .appsMgt, false⟩,
  ⟨0x23800804, [(0x10000, 16)], 0x1, 0xFFFFFFFF, 0x0, 0x0, 0x0, 0x0, .appsMgt, false⟩,
  ⟨0x23800808, [(0x10000, 16), (0x8, 4)], 0x0, 0xFFFFFFFC, 0x0, 0x0, 0x0, 0x0, .appsMgt, false⟩,
  ⟨0x2380080C, [(0x10000, 16), (0x8, 4)], 0x0, 0xFFFF, 0x0, 0x0, 0x0, 0x0, .appsMgt, false⟩]

/-- Registers of the 16 MiB region at 0x3000_0000, part 0. -/
def regsRegion30_0 : List RegDesc := [
  ⟨0x30010000, [(0x100000, 64)], 0x4000000, 0x0, 0x0, 0x0, 0x0, 0x0, .all, false⟩,
  ⟨0x30010004, [(0x100000, 64)], 0x0, 0x0, 0x0, 0x0, 0x0, 0xFFFFFFFF, .all, false⟩,
  ⟨0x30010008, [(0x100000, 64)], 0x0, 0x0, 0x0, 0x0, 0x0, 0xFFFFFFFF, .all, false⟩,
  ⟨0x3001000C, [(0x100000, 64)], 0x0, 0x0, 0x0, 0x0, 0x0, 0xFFFFFFFF, .all, false⟩,
  ⟨0x30010010, [(0x100000, 64)], 0x0, 0x0, 0x0, 0x0, 0x0, 0xFFFF80FF, .all, false⟩,
  ⟨0x30010020, [(0x100000, 64)], 0x2000000, 0x0, 0x400000, 0x0, 0x0, 0x0, .all, false⟩,
  ⟨0x30010040, [(0x100000, 64), (0x4, 8)], 0x0, 0x0, 0x0, 0x0, 0x0, 0x0, .all, false⟩,
  ⟨0x30010060, [(0x100000, 64), (0x4, 2)], 0x0, 0x0, 0x0, 0x0, 0x0, 0x0, .all, false⟩,
  ⟨0x30020000, [(0x100000, 64)], 0x0, 0x0, 0x0, 0x0, 0x0, 0x0, .all, false⟩,
  ⟨0x30020004, [(0x100000, 64)], 0x0, 0x0, 0x0, 0x0, 0x0, 0xFFFFFFFF, .all, false⟩,
  ⟨0x30020008, [(0x100000, 64)], 0x0, 0x0, 0x0, 0x0, 0x0, 0xFFFFFFFF, .all, false⟩,
  ⟨0x3002000C, [(0x100000, 64)], 0x0, 0x0, 0x0, 0x0, 0x0, 0xFFFFFFFF, .all, false⟩]

/-- Registers of the 16 MiB region at 0x4000_0000, part 0. -/
def regsRegion40_0 : List RegDesc := [
  ⟨0x40000000, [(0x800000, 2)], 0x0, 0x0, 0x0, 0x0, 0x0, 0x0, .nobody, false⟩,
  ⟨0x40000004, [(0x800000, 2)], 0x0, 0x0, 0x0, 0x0, 0x0, 0x0, .nobody, false⟩,
  ⟨0x40000100, [(0x800000, 2), (0x10, 4)], 0x0, 0x0, 0x0, 0x0, 0x0, 0x0, .nobody, false⟩,
  ⟨0x40000104, [(0x800000, 2), (0x10, 4)], 0x0, 0x0, 0x0, 0x0, 0x0, 0x0, .nobody, false⟩,
  ⟨0x40000200, [(0x800000, 2)], 0x0, 0x0, 0x0, 0x0, 0x0, 0xFFFFFFFF, .nobody, false⟩,
  ⟨0x40000204, [(0x800000, 2)], 0x0, 0x0, 0x0, 0x0, 0x0, 0xFFFFFFFF, .nobody, false⟩,
  ⟨0x40000208, [(0x800000, 2)], 0x0, 0x0, 0x0, 0x0, 0x0, 0xFFFFFFFF, .nobody, false⟩]

/-- Registers of the 16 MiB region at 0x4100_0000, part 0. -/
def regsRegion41_0 : List RegDesc := [
  ⟨0x41000000, [(0x800000, 2)], 0x0, 0x0, 0x0, 0x0, 0x0, 0x0, .nobody, false⟩,
  ⟨0x41000100, [(0x800000, 2), (0x10, 4)], 0x0, 0x0, 0x0, 0x0, 0x0, 0x0, .nobody, false⟩,
  ⟨0x41000104, [(0x800000, 2), (0x10, 4)], 0x0, 0x0, 0x0, 0x0, 0x0, 0x0, .nobody, false⟩,
  ⟨0x41000200, [(0x800000, 2)], 0x0, 0x0, 0x0, 0x0, 0x0, 0xFFFFFFFF, .nobody, false⟩,
  ⟨0x41000204, [(0x800000, 2)], 0x0, 0x0, 0x0, 0x0, 0x0, 0xFFFFFFFF, .nobody, false⟩,
  ⟨0x41000208, [(0x800000, 2)], 0x0, 0x0, 0x0, 0x0, 0x0, 0xFFFFFFFF, .nobody, false⟩,
  ⟨0x4100020C, [(0x800000, 2)], 0x0, 0x0, 0x0, 0x0, 0x0, 0xFFFFFFFF, .nobody, false⟩]

/-- Registers of the 16 MiB region at 0x4200_0000, part 0. -/
def regsRegion42_0 : List RegDesc := [
  ⟨0x42000000, [], 0x0, 0x0, 0x0, 0x0, 0x0, 0x0, .appsMgt, false⟩,
  ⟨0x42000004, [], 0x0, 0x0, 0x0, 0x0, 0x80000000, 0x0, .appsMgt, true⟩,
  ⟨0x42000008, [], 0x0, 0x0, 0xFFFF8000, 0x0, 0x0, 0x0, .appsMgt, false⟩,
  ⟨0x4200000C, [], 0x0, 0xC01F07FF, 0x0, 0x0, 0x0, 0x0, .appsMgt, false⟩,
  ⟨0x42000100, [(0x100, 4)], 0x0, 0xFF1FFFFF, 0x0, 0x0, 0x0, 0x0, .appsMgt, true⟩,
  ⟨0x42000104, [(0x100, 4)], 0x0, 0x1FFFFF, 0x0, 0x0, 0x0, 0x0, .appsMgt, false⟩,
  ⟨0x42000108, [(0x100, 4)], 0x0, 0xFFFFFFFF, 0x0, 0x0, 0x0, 0x0, .appsMgt, false⟩,
  ⟨0x4200010C, [(0x100, 4)], 0x0, 0xFFFFFFFF, 0x0, 0x0, 0x0, 0x0, .appsMgt, false⟩,
  ⟨0x42000110, [(0x100, 4)], 0x0, 0xFFFFFFC0, 0x0, 0x0, 0x0, 0x0, .appsMgt, false⟩,
  ⟨0x42000114, [(0x100, 4)], 0x0, 0xFFFF, 0x0, 0x0, 0x0, 0x0, .appsMgt, false⟩,
  ⟨0x42000118, [(0x100, 4)], 0x0, 0x0, 0x0, 0x0, 0x80000000, 0x0, .appsMgt, true⟩,
  ⟨0x4200011C, [(0x100, 4)], 0x0, 0xFFFFFFE0, 0x0, 0x0, 0x0, 0x0, .appsMgt, false⟩,
  ⟨0x42000120, [(0x100, 4)], 0x0, 0xFFFF, 0x0, 0x0, 0x0, 0x0, .appsMgt, false⟩,
  ⟨0x42000124, [(0x100, 4)], 0x0, 0xFFFFFFFF, 0x0, 0x0, 0x0, 0x0, .appsMgt, false⟩,
  ⟨0x42000128, [(0x100, 4)], 0x0, 0x0, 0xFF000000, 0x0, 0x0, 0x0, .appsMgt, false⟩,
  ⟨0x4200012C, [(0x100, 4)], 0x0, 0x0, 0x0, 0x0, 0x0, 0x0, .appsMgt, false⟩,
  ⟨0x42000130, [(0x100, 4)], 0x0, 0x0, 0x0, 0x0, 0x0, 0xFFFFFFFF, .appsMgt, false⟩,
  ⟨0x42000134, [(0x100, 4)], 0x0, 0x0, 0x0, 0x0, 0x0, 0xFFFFFFFF, .appsMgt, false⟩,
  ⟨0x42000140, [(0x100, 4), (0x4, 16)], 0x0, 0xFFFFFFFF, 0x0, 0x0, 0x0, 0x0, .appsMgt, false⟩,
  ⟨0x42000180, [(0x100, 4)], 0x4000, 0xFFFFEFFF, 0x0, 0x0, 0x0, 0x0, .appsMgt, true⟩,
  ⟨0x42000184, [(0x100, 4)], 0x0, 0xFFFFFFFF, 0x0, 0x0, 0x0, 0x0, .appsMgt, false⟩,
  ⟨0x42000188, [(0x100, 4)], 0x0, 0xFFFFFFFF, 0x0, 0x0, 0x0, 0x0, .appsMgt, false⟩,
  ⟨0x4200018C, [(0x100, 4)], 0x0, 0xFFFFFFFF, 0x0, 0x0, 0x0, 0x0, .appsMgt, false⟩,
  ⟨0x42000190, [(0x100, 4)], 0x0, 0xFFFFFFFF, 0x0, 0x0, 0x0, 0x0, .appsMgt, false⟩,
  ⟨0x42000194, [(0x100, 4)], 0x0, 0xFFFFFFFF, 0x0, 0x0, 0x0, 0x0, .appsMgt, false⟩,
  ⟨0x42000198, [(0x100, 4)], 0x0, 0xFFFFFFC0, 0x0, 0x0, 0x0, 0x0, .appsMgt, false⟩,
  ⟨0x4200019C, [(0x100, 4)], 0x0, 0xFFFF, 0x0, 0x0, 0x0, 0x0, .appsMgt, false⟩,
  ⟨0x420001A0, [(0x100, 4)], 0x0, 0xFFFFFFC0, 0x0, 0x0, 0x0, 0x0, .appsMgt, false⟩,
  ⟨0x420001A4, [(0x100, 4)], 0x0, 0xFFFF, 0x0, 0x0, 0x0, 0x0, .appsMgt, false⟩,
  ⟨0x420001A8, [(0x100, 4)], 0x0, 0xFFFFFFFF, 0x0, 0x0, 0x0, 0x0, .appsMgt, false⟩]

/-- Registers of the 16 MiB region at 0x4200_0000, part 1. -/
def regsRegion42_1 : List RegDesc := [
  ⟨0x420001AC, [(0x100, 4), (0x4, 3)], 0x0, 0xFFFFFFFF, 0x0, 0x0, 0x0, 0x0, .appsMgt, false⟩,
  ⟨0x420001B8, [(0x100, 4)], 0x0, 0x0, 0x0, 0x0, 0x0, 0x0, .appsMgt, false⟩,
  ⟨0x42010000, [(0x400, 4), (0x4, 256)], 0x0, 0xFFFFFFFF, 0x0, 0x0, 0x0, 0x0, .all, true⟩,
  ⟨0x42011000, [(0x40, 4)], 0x0, 0x0, 0x0, 0x0, 0xFFFF, 0x0, .all, true⟩]

/-- Registers of the 16 MiB region at 0x4300_0000, part 0. -/
def regsRegion43_0 : List RegDesc := [
  ⟨0x43000000, [], 0x0, 0x0, 0x0, 0x0, 0x0, 0x0, .nobody, false⟩,
  ⟨0x43000004, [], 0x0, 0x0, 0x0, 0x0, 0x0, 0x0, .nobody, false⟩,
  ⟨0x43000100, [], 0x0, 0x0, 0x0, 0x0, 0x0, 0xFFFFFFFF, .nobody, false⟩,
  ⟨0x43000104, [], 0x0, 0x0, 0x0, 0x0, 0x0, 0xFFFFFFFF, .nobody, false⟩,
  ⟨0x43000108, [], 0x0, 0x0, 0x0, 0x0, 0x0, 0xFFFFFFFF, .nobody, false⟩]

/-- Registers of the 16 MiB region at 0x5000_0000, part 0. -/
def regsRegion50_0 : List RegDesc := [
  ⟨0x50000100, [(0x10, 24)], 0x0, 0xFFFFFFFC, 0x0, 0x0, 0x0, 0x0, .appsMgt, false⟩,
  ⟨0x50000104, [(0x10, 24)], 0x0, 0xFFFF, 0x0, 0x0, 0x0, 0x0, .appsMgt, false⟩,
  ⟨0x50000108, [(0x10, 24)], 0x0, 0x0, 0x0, 0x0, 0xC0000000, 0x0, .appsMgt, true⟩,
  ⟨0x5000010C, [(0x10, 24)], 0x0, 0x0, 0x20000000, 0x0, 0x0, 0x0, .appsMgt, false⟩,
  ⟨0x50000400, [], 0x0, 0x0, 0x0, 0x0, 0x0, 0xFFFFFFFF, .appsMgt, false⟩,
  ⟨0x50000404, [], 0x0, 0x0, 0x0, 0x0, 0x0, 0xFFFFFFFF, .appsMgt, false⟩,
  ⟨0x50100000, [(0x1000, 24)], 0x0, 0x0, 0x0, 0x0, 0xFFFFFFFF, 0x0, .appsMgt, false⟩,
  ⟨0x50200000, [(0x8000, 24), (0x1000, 6)], 0x0, 0x0, 0x0, 0x0, 0xFFFFFFFF, 0x0, .appsMgt, false⟩]

/-- Registers of the 16 MiB region at 0x5000_0000, part 1: the APLIC and the IOMMU, laid out as their standards give (R622, R625, log 40). -/
def regsRegion50_1 : List RegDesc := [
  ⟨0x50400000, [(0x10000, 2)], 0x80000004, 0x0, 0x0, 0x0, 0x0, 0x0, .appsMgt, false⟩,
  ⟨0x50400004, [(0x10000, 2), (0x4, 63)], 0x0, 0x0, 0x0, 0x0, 0x0, 0x0, .appsMgt, false⟩,
  ⟨0x50401BC4, [], 0x80000000, 0x0, 0x0, 0x0, 0x0, 0x0, .appsMgt, false⟩,
  ⟨0x50401C00, [(0x10000, 2), (0x4, 2)], 0x0, 0x0, 0x0, 0x0, 0x0, 0x0, .appsMgt, false⟩,
  ⟨0x50401CDC, [(0x10000, 2)], 0x0, 0x0, 0x0, 0x0, 0x0, 0x0, .appsMgt, false⟩,
  ⟨0x50401D00, [(0x10000, 2), (0x4, 2)], 0x0, 0x0, 0x0, 0x0, 0x0, 0x0, .appsMgt, false⟩,
  ⟨0x50401DDC, [(0x10000, 2)], 0x0, 0x0, 0x0, 0x0, 0x0, 0x0, .appsMgt, false⟩,
  ⟨0x50401E00, [(0x10000, 2), (0x4, 2)], 0x0, 0x0, 0x0, 0x0, 0x0, 0x0, .appsMgt, false⟩,
  ⟨0x50401EDC, [(0x10000, 2)], 0x0, 0x0, 0x0, 0x0, 0x0, 0x0, .appsMgt, false⟩,
  ⟨0x50401F00, [(0x10000, 2), (0x4, 2)], 0x0, 0x0, 0x0, 0x0, 0x0, 0x0, .appsMgt, false⟩,
  ⟨0x50401FDC, [(0x10000, 2)], 0x0, 0x0, 0x0, 0x0, 0x0, 0x0, .appsMgt, false⟩,
  ⟨0x50402000, [(0x10000, 2)], 0x0, 0x0, 0x0, 0x0, 0x0, 0x0, .appsMgt, false⟩,
  ⟨0x50403000, [(0x10000, 2)], 0x0, 0x0, 0x0, 0x0, 0x0, 0x0, .appsMgt, false⟩,
  ⟨0x50403004, [(0x10000, 2), (0x4, 63)], 0x0, 0x0, 0x0, 0x0, 0x0, 0x0, .appsMgt, false⟩,
  ⟨0x50500000, [], 0x10460610, 0x0, 0x0, 0x0, 0x0, 0x0, .appsMgt, false⟩,
  ⟨0x50500004, [], 0x30, 0x0, 0x0, 0x0, 0x0, 0x0, .appsMgt, false⟩,
  ⟨0x50500008, [], 0x2, 0x0, 0x0, 0x0, 0x0, 0x0, .appsMgt, false⟩,
  ⟨0x50500010, [], 0x0, 0x0, 0x0, 0x0, 0x0, 0x0, .appsMgt, false⟩,
  ⟨0x50500014, [], 0x0, 0x3FFFFF, 0x0, 0x0, 0x0, 0x0, .appsMgt, false⟩,
  ⟨0x50500018, [], 0x0, 0xFFFFFC1F, 0x0, 0x0, 0x0, 0x0, .appsMgt, false⟩,
  ⟨0x5050001c, [], 0x0, 0x3FFFFF, 0x0, 0x0, 0x0, 0x0, .appsMgt, false⟩,
  ⟨0x50500020, [], 0x0, 0x0, 0x0, 0x0, 0x0, 0x0, .appsMgt, false⟩,
  ⟨0x50500024, [], 0x0, 0x0, 0x0, 0x0, 0x0, 0x0, .appsMgt, false⟩,
  ⟨0x50500028, [], 0x0, 0xFFFFFC1F, 0x0, 0x0, 0x0, 0x0, .appsMgt, false⟩,
  ⟨0x5050002c, [], 0x0, 0x3FFFFF, 0x0, 0x0, 0x0, 0x0, .appsMgt, false⟩,
  ⟨0x50500030, [], 0x0, 0x0, 0x0, 0x0, 0x0, 0x0, .appsMgt, false⟩,
  ⟨0x50500034, [], 0x0, 0x0, 0x0, 0x0, 0x0, 0x0, .appsMgt, false⟩,
  ⟨0x50500048, [], 0x0, 0x0, 0x0, 0x0, 0x0, 0x0, .appsMgt, false⟩,
  ⟨0x5050004c, [], 0x0, 0x0, 0x0, 0x0, 0x0, 0x0, .appsMgt, false⟩,
  ⟨0x50500054, [], 0x0, 0x0, 0x0, 0x0, 0x0, 0x0, .appsMgt, false⟩,
  ⟨0x505002f8, [], 0x210, 0x0, 0x0, 0x0, 0x0, 0x0, .appsMgt, false⟩,
  ⟨0x505002fc, [], 0x0, 0x0, 0x0, 0x0, 0x0, 0x0, .appsMgt, false⟩]

/-- Registers of the 16 MiB region at 0x6000_0000, part 0. -/
def regsRegion60_0 : List RegDesc := [
  ⟨0x60000000, [(0x100000, 8)], 0x300003E8, 0xBFC0FFFF, 0x0, 0x0, 0x0, 0x0, .appsMgt, false⟩,
  ⟨0x60000004, [(0x100000, 8)], 0x0, 0xFFFFFFFF, 0x0, 0x0, 0x0, 0x0, .appsMgt, false⟩,
  ⟨0x60000008, [(0x100000, 8)], 0x0, 0xFFFFFFFF, 0x0, 0x0, 0x0, 0x0, .appsMgt, false⟩,
  ⟨0x6000000C, [(0x100000, 8)], 0x0, 0xFFFF, 0x0, 0x0, 0x0, 0x0, .appsMgt, false⟩,
  ⟨0x60000010, [(0x100000, 8)], 0x0, 0xFFFFFFFF, 0x0, 0x0, 0x0, 0x0, .appsMgt, false⟩,
  ⟨0x60000014, [(0x100000, 8)], 0x0, 0xFFFFFFFF, 0x0, 0x0, 0x0, 0x0, .appsMgt, false⟩,
  ⟨0x60000080, [(0x100000, 8), (0x10, 4), (0x4, 4)], 0x0, 0xFFFFFFFF, 0x0, 0x0, 0x0, 0x0, .appsMgt, false⟩,
  ⟨0x60000100, [(0x100000, 8), (0x4, 8)], 0x0, 0xF0000000, 0x0, 0x0, 0x0, 0x0, .appsMgt, false⟩,
  ⟨0x60000400, [(0x100000, 8), (0x10, 32)], 0x0, 0xFFFFBFFF, 0x0, 0x0, 0x0, 0x0, .appsMgt, true⟩,
  ⟨0x60000404, [(0x100000, 8), (0x10, 32)], 0x0, 0xFFFFFFFF, 0x0, 0x0, 0x0, 0x0, .appsMgt, false⟩,
  ⟨0x60000408, [(0x100000, 8), (0x10, 32)], 0x0, 0xFFFFFFFF, 0x0, 0x0, 0x0, 0x0, .appsMgt, false⟩,
  ⟨0x6000040C, [(0x100000, 8), (0x10, 32)], 0x0, 0x7FFFFFFF, 0x0, 0x0, 0x0, 0x0, .appsMgt, false⟩,
  ⟨0x60000800, [(0x100000, 8)], 0x0, 0x800001FF, 0x20000000, 0x40000000, 0x0, 0x0, .appsMgt, false⟩,
  ⟨0x60000804, [(0x100000, 8)], 0x0, 0xFFFFFFFF, 0x0, 0x0, 0x0, 0x0, .appsMgt, false⟩,
  ⟨0x60000808, [(0x100000, 8)], 0x0, 0xFFFFFFFF, 0x0, 0x0, 0x0, 0x0, .appsMgt, false⟩,
  ⟨0x6000080C, [(0x100000, 8)], 0x0, 0xFFFFFFFF, 0x0, 0x0, 0x0, 0x0, .appsMgt, false⟩,
  ⟨0x60000C00, [(0x100000, 8), (0x4, 8)], 0x0, 0x0, 0x0, 0x0, 0x0, 0xFFFFFFFF, .appsMgt, false⟩,
  ⟨0x60001000, [(0x100000, 8), (0x40, 8)], 0x4, 0xFFFFF01F, 0x0, 0x0, 0x0, 0x0, .appsMgt, false⟩,
  ⟨0x60001004, [(0x100000, 8), (0x40, 8)], 0x0, 0xFFFF, 0x0, 0x0, 0x0, 0x0, .appsMgt, false⟩,
  ⟨0x60001008, [(0x100000, 8), (0x40, 8)], 0x0, 0x0, 0x0, 0x0, 0x0, 0x0, .appsMgt, false⟩,
  ⟨0x6000100C, [(0x100000, 8), (0x40, 8)], 0x0, 0x0, 0x0, 0x0, 0x0, 0x0, .appsMgt, false⟩,
  ⟨0x60001010, [(0x100000, 8), (0x40, 8)], 0x0, 0x0, 0x0, 0x0, 0xFFFFFFFF, 0x0, .appsMgt, true⟩,
  ⟨0x60001400, [(0x100000, 8), (0x40, 8)], 0x4, 0xFFFFF01F, 0x0, 0x0, 0x0, 0x0, .appsMgt, false⟩,
  ⟨0x60001404, [(0x100000, 8), (0x40, 8)], 0x0, 0xFFFF, 0x0, 0x0, 0x0, 0x0, .appsMgt, false⟩,
  ⟨0x60001408, [(0x100000, 8), (0x40, 8)], 0x0, 0x0, 0x0, 0x0, 0x0, 0x0, .appsMgt, false⟩,
  ⟨0x6000140C, [(0x100000, 8), (0x40, 8)], 0x0, 0x0, 0x0, 0x0, 0x0, 0x0, .appsMgt, false⟩,
  ⟨0x60001410, [(0x100000, 8), (0x40, 8)], 0x0, 0x0, 0x0, 0x0, 0xFFFFFFFF, 0x0, .appsMgt, true⟩,
  ⟨0x60001800, [(0x100000, 8), (0x4, 256)], 0x0, 0xFFFFFFFF, 0x0, 0x0, 0x0, 0x0, .appsMgt, false⟩]

/-- Registers of the 16 MiB region at 0x6100_0000, part 0. -/
def regsRegion61_0 : List RegDesc := [
  ⟨0x61000000, [(0x100000, 16)], 0x1C800000, 0xFFFFFFC0, 0x0, 0x0, 0x0, 0x0, .appsMgt, false⟩,
  ⟨0x61000004, [(0x100000, 16)], 0x0, 0xFFFF, 0x0, 0x0, 0x0, 0x0, .appsMgt, false⟩,
  ⟨0x61000040, [(0x100000, 16), (0x4, 5)], 0x0, 0x0, 0x0, 0x0, 0x0, 0xFFFFFFFF, .appsMgt, false⟩,
  ⟨0x61000100, [(0x100000, 16), (0x20, 4)], 0x0, 0xFFF00FFF, 0x0, 0x0, 0x0, 0x0, .appsMgt, false⟩,
  ⟨0x61000104, [(0x100000, 16), (0x20, 4)], 0x4, 0xFFFFF01F, 0x0, 0x0, 0x0, 0x0, .appsMgt, false⟩,
  ⟨0x61000108, [(0x100000, 16), (0x20, 4)], 0x0, 0xFFFF, 0x0, 0x0, 0x0, 0x0, .appsMgt, false⟩,
  ⟨0x6100010C, [(0x100000, 16), (0x20, 4)], 0x0, 0x0, 0x0, 0x0, 0x0, 0x0, .appsMgt, false⟩,
  ⟨0x61000110, [(0x100000, 16), (0x20, 4)], 0x0, 0x0, 0x0, 0x0, 0x0, 0x0, .appsMgt, false⟩,
  ⟨0x61000114, [(0x100000, 16), (0x20, 4)], 0x0, 0x0, 0x0, 0x0, 0xFFFFFFFF, 0x0, .appsMgt, true⟩,
  ⟨0x61000118, [(0x100000, 16), (0x20, 4)], 0x0, 0xFFFF, 0x0, 0x0, 0x0, 0x0, .appsMgt, false⟩]

/-- Registers of the 16 MiB region at 0x6200_0000, part 0. -/
def regsRegion62_0 : List RegDesc := [
  ⟨0x62000000, [(0x800000, 2)], 0x1D00A000, 0xDF00F800, 0x0, 0x20000000, 0x0, 0x0, .appsMgt, false⟩,
  ⟨0x62000010, [(0x800000, 2)], 0x0, 0xFFF00000, 0x0, 0x0, 0x0, 0x0, .appsMgt, false⟩,
  ⟨0x62000014, [(0x800000, 2)], 0x0, 0xFFFFFFFF, 0x0, 0x0, 0x0, 0x0, .appsMgt, false⟩,
  ⟨0x62000018, [(0x800000, 2)], 0x0, 0xFFF00000, 0x0, 0x0, 0x0, 0x0, .appsMgt, false⟩,
  ⟨0x6200001C, [(0x800000, 2)], 0x0, 0xFFFF, 0x0, 0x0, 0x0, 0x0, .appsMgt, false⟩,
  ⟨0x62000020, [(0x800000, 2)], 0x0, 0x0, 0x0, 0x0, 0x3F, 0x0, .appsMgt, true⟩,
  ⟨0x62000024, [(0x800000, 2)], 0x2710, 0xFFFF, 0x0, 0x0, 0x0, 0x0, .appsMgt, false⟩,
  ⟨0x62000028, [(0x800000, 2)], 0x0, 0x0, 0xF0000000, 0x0, 0x0, 0x0, .appsMgt, false⟩,
  ⟨0x6200002C, [(0x800000, 2)], 0x0, 0x0, 0x0, 0x0, 0x0, 0xFFFFFFFF, .appsMgt, false⟩]

/-- Registers of the 16 MiB region at 0x6300_0000, part 0. -/
def regsRegion63_0 : List RegDesc := [
  ⟨0x63000000, [(0x100000, 3)], 0x0, 0x80000000, 0x0, 0x0, 0x40000000, 0x0, .appsMgt, true⟩,
  ⟨0x63000004, [(0x100000, 3)], 0x0, 0x0, 0x0, 0x0, 0x0, 0x0, .appsMgt, false⟩,
  ⟨0x63000008, [(0x100000, 3)], 0x0, 0x0, 0xF0000000, 0x0, 0x0, 0x0, .appsMgt, false⟩,
  ⟨0x6300000C, [(0x100000, 3)], 0x0, 0xC01F07FF, 0x0, 0x0, 0x0, 0x0, .appsMgt, false⟩,
  ⟨0x63000010, [(0x100000, 3)], 0x0, 0xFFFFFFFF, 0x0, 0x0, 0x0, 0x0, .appsMgt, false⟩,
  ⟨0x63000014, [(0x100000, 3)], 0x0, 0xFFFFFFFF, 0x0, 0x0, 0x0, 0x0, .appsMgt, false⟩,
  ⟨0x63000020, [], 0x0, 0xFF, 0x0, 0x0, 0x0, 0x0, .appsMgt, false⟩,
  ⟨0x63000024, [], 0x0, 0x0, 0x0, 0x0, 0x0, 0xFFFFFFFF, .appsMgt, false⟩,
  ⟨0x63000100, [(0x100000, 3), (0x4, 8)], 0x0, 0x0, 0x0, 0x0, 0x0, 0xFFFFFFFF, .appsMgt, false⟩,
  ⟨0x63008000, [(0x10, 32)], 0x0, 0xFFFF0000, 0x0, 0x0, 0x0, 0x0, .appsMgt, true⟩,
  ⟨0x63008004, [(0x10, 32)], 0x0, 0x3FFF3FFF, 0x0, 0x0, 0x0, 0x0, .appsMgt, false⟩,
  ⟨0x63008008, [(0x10, 32)], 0x0, 0xFFFFFFFF, 0x0, 0x0, 0x0, 0x0, .appsMgt, false⟩,
  ⟨0x6300800C, [(0x10, 32)], 0x0, 0x0, 0x0, 0x0, 0x0, 0x0, .appsMgt, false⟩]

/-- Registers of the 16 MiB region at 0x6400_0000, part 0. -/
def regsRegion64_0 : List RegDesc := [
  ⟨0x64000000, [], 0x80800, 0x80FFFF00, 0x0, 0x0, 0x0, 0x0, .mgt, false⟩,
  ⟨0x64000004, [], 0x0, 0x0, 0x0, 0x0, 0xF000FFFF, 0x0, .mgt, true⟩,
  ⟨0x64000008, [], 0x0, 0xFFFFFFFF, 0x0, 0x0, 0x0, 0x0, .mgt, false⟩,
  ⟨0x6400000C, [], 0x0, 0x1FFF, 0x0, 0x0, 0x0, 0x0, .mgt, false⟩,
  ⟨0x64000010, [], 0x0, 0x1FFFFF, 0x0, 0x0, 0x0, 0x0, .mgt, false⟩,
  ⟨0x64000014, [], 0x0, 0x0, 0x70000000, 0x0, 0x0, 0x0, .mgt, false⟩]

/-- Registers of the 16 MiB region at 0x6500_0000, part 0. -/
def regsRegion65_0 : List RegDesc := [
  ⟨0x65000000, [(0x10000, 4)], 0x0, 0xFFF00000, 0x0, 0x0, 0x0, 0x0, .appsMgt, false⟩,
  ⟨0x65000004, [(0x10000, 4)], 0x0, 0xFFFFFFFF, 0x0, 0x0, 0x0, 0x0, .appsMgt, false⟩,
  ⟨0x65000008, [(0x10000, 4)], 0x0, 0xFFFFFFFF, 0x0, 0x0, 0x0, 0x0, .appsMgt, false⟩,
  ⟨0x6500000C, [(0x10000, 4)], 0x0, 0x0, 0x0, 0x0, 0xC0000000, 0x0, .appsMgt, true⟩,
  ⟨0x65000010, [(0x10000, 4)], 0x0, 0x0, 0x0, 0x0, 0x0, 0x0, .appsMgt, false⟩,
  ⟨0x65000020, [(0x10000, 4)], 0x0, 0x0, 0x0, 0xFFFFFFFF, 0x0, 0x0, .appsMgt, true⟩,
  ⟨0x65000024, [(0x10000, 4)], 0x0, 0x0, 0xFFFFFFFF, 0x0, 0x0, 0x0, .appsMgt, false⟩,
  ⟨0x65000028, [(0x10000, 4)], 0x0, 0x0, 0xFFFFFFFF, 0x0, 0x0, 0x0, .appsMgt, false⟩,
  ⟨0x65000040, [(0x10000, 4), (0x4, 4)], 0x0, 0x0, 0x0, 0x0, 0x0, 0xFFFFFFFF, .appsMgt, false⟩,
  ⟨0x65000100, [(0x10000, 4), (0x20, 2)], 0x4, 0xFFFFF01F, 0x0, 0x0, 0x0, 0x0, .appsMgt, false⟩,
  ⟨0x65000104, [(0x10000, 4), (0x20, 2)], 0x0, 0xFFFF, 0x0, 0x0, 0x0, 0x0, .appsMgt, false⟩,
  ⟨0x65000108, [(0x10000, 4), (0x20, 2)], 0x0, 0x0, 0x0, 0x0, 0x0, 0x0, .appsMgt, false⟩,
  ⟨0x6500010C, [(0x10000, 4), (0x20, 2)], 0x0, 0x0, 0x0, 0x0, 0x0, 0x0, .appsMgt, false⟩,
  ⟨0x65000110, [(0x10000, 4), (0x20, 2)], 0x0, 0x0, 0x0, 0x0, 0xFFFFFFFF, 0x0, .appsMgt, true⟩,
  ⟨0x65000800, [(0x10000, 4), (0x8, 64)], 0x0, 0xFFFFFFFF, 0x0, 0x0, 0x0, 0x0, .appsMgt, false⟩,
  ⟨0x65000804, [(0x10000, 4), (0x8, 64)], 0x0, 0x1FFFFFFF, 0x0, 0x0, 0x0, 0x0, .appsMgt, false⟩,
  ⟨0x65001000, [(0x10000, 4), (0x80, 32), (0x4, 20)], 0x0, 0xFFFFFFFF, 0x0, 0x0, 0x0, 0x0, .appsMgt, false⟩]

/-- Registers of the 16 MiB region at 0x6600_0000, part 0. -/
def regsRegion66_0 : List RegDesc := [
  ⟨0x66000000, [(0x4, 96)], 0x12000000, 0xFF800006, 0x0, 0x0, 0x0, 0x0, .appsMgt, true⟩]

/-- The registers whose first address lies in 16 MiB region b of the address space. -/
def regsOfRegion (b : Nat) : List RegDesc :=
  if b = 0x10 then regsRegion10_0
  else if b = 0x11 then regsRegion11_0
  else if b = 0x12 then regsRegion12_0
  else if b = 0x13 then regsRegion13_0
  else if b = 0x14 then regsRegion14_0
  else if b = 0x15 then regsRegion15_0
  else if b = 0x20 then regsRegion20_0 ++ regsRegion20_1
  else if b = 0x21 then regsRegion21_0
  else if b = 0x22 then regsRegion22_0
  else if b = 0x23 then regsRegion23_0
  else if 0x30 ≤ b ∧ b < 0x34 then regsRegion30_0
  else if b = 0x40 then regsRegion40_0
  else if b = 0x41 then regsRegion41_0
  else if b = 0x42 then regsRegion42_0 ++ regsRegion42_1
  else if b = 0x43 then regsRegion43_0
  else if b = 0x50 then regsRegion50_0 ++ regsRegion50_1
  else if b = 0x60 then regsRegion60_0
  else if b = 0x61 then regsRegion61_0
  else if b = 0x62 then regsRegion62_0
  else if b = 0x63 then regsRegion63_0
  else if b = 0x64 then regsRegion64_0
  else if b = 0x65 then regsRegion65_0
  else if b = 0x66 then regsRegion66_0
  else []

/-- Whether an offset is a sum of index times stride, each index below its count (strides from the outermost in). -/
def dimsMatch : List (Nat × Nat) → Nat → Bool
  | [], off => off == 0
  | (st, ct) :: ds, off => decide (off / st < ct) && dimsMatch ds (off % st)

/-- The register at an address. -/
def regAt (a : Nat) : Option RegDesc :=
  (regsOfRegion (a / 0x1000000)).find? (fun d => decide (d.base ≤ a) && dimsMatch d.dims (a - d.base))

end Sys2Proof.Machine
end

