-- ==== Sys2Proof/Machine/SysUnits.lean ====
section
/-! DEFINITION. The state of the application cores' complex, the power management unit, the metrology island, the management complex and the
test access port, beside their registers. -/
namespace Sys2Proof.Machine

/-! ## Application cores (chapter 19) -/

/-- A hart as last started (R629, R630): pc, a0, a1, machine mode, interrupts enabled, satp, PMP entries that are not OFF; the timer
compare it has set (R617); its last access fault, with the faulting address its trap value register holds (R620); and the cycle and the master
of the last write of its control register that was accepted (R630). -/
structure Hart where
  pc : Nat
  a0 : Nat
  a1 : Nat
  machine : Bool
  mie : Bool
  satp : Nat
  pmp : Nat
  stimecmp : Nat
  trap : Option (HartAccess × Nat)
  ctl : Option (Nat × Nat)
deriving DecidableEq, Repr

/-- A translation the IOMMU keeps (R625): of a guest's soft context (gv, gscid), with a first stage (fv, pscid, or global), from a page of addresses to a
physical page, through page gpn of the guest's; whether reads and writes may use it; and the pages of the first-stage and of the second-stage
leaf it comes from (1 where that stage is off). -/
structure IoEntry where
  gv : Bool
  gscid : Nat
  fv : Bool
  pscid : Nat
  glob : Bool
  vpn : Nat
  gpn : Nat
  ppn : Nat
  rd : Bool
  wr : Bool
  span : Nat
  gspan : Nat
deriving DecidableEq, Repr

def Hart.init : Hart := ⟨0, 0, 0, true, false, 0, 0, 0, none, none⟩

/-! ## Power management (chapter 21) -/

/-- The THERMAL section in force (R693), beside what it loads into registers. -/
structure Thermal where
  coldPlate : Bool
  qFloor : Nat
  guard : Nat
  margin : Nat
  dInit : Nat
  testMw : Nat
  iMax : List Nat
  phases : List Nat
  droopMv : Nat
  droopQ : Nat
  droopHold : Nat
  qMin : Nat
  tThr : Int
  tLim : Int
  tShut : Int
deriving DecidableEq, Repr

/-- Before an image is applied. -/
def Thermal.init : Thermal := ⟨false, 0, 0, 0, 0, 0, [], [], 0, 0, 0, 0, 0, 0, 0⟩

/-- A rail (R672, R673, R681, R682): voltage in mV, current in units of 10 mA, moment of the last sample, its phases' currents, the level of
the phase-fault input (low), consecutive bad and good samples of each phase, phases whose restoration is asked, samples seen since
an unnamed failure, whether its limit cannot be met, what other domains than the clusters drew on it over the last 10 µs, and of its clamp the
rates of a share-out on rails 0 and 1, and on rail 2 the scalings by limit over measured power. -/
structure Rail where
  mv : Nat
  i : Nat
  at_ : Option Nat
  phases : List Nat
  low : Bool
  bad : List Nat
  good : List Nat
  restore : Nat
  naming : Option Nat
  unmet : Bool
  other : Nat
  share : List (Nat × Nat)
  scale : List (Nat × Nat)
deriving DecidableEq, Repr

def Rail.init : Rail := ⟨0, 0, none, [], false, [], [], 0, none, false, 0, [], []⟩

/-- A cluster as the PMU sees it (R676, R680, R685): IDLE_n in µW, domain energy of this period in units of 100 pJ, P_n of the last period
in µW, whether its phase changed in this period, its lowest issue rate in it, the integral of its rate over it, the last moment its
thermal ceiling changed, the last droop firing while the clamp holds, and the last moment it was bound, under test or granted (R689). -/
structure PmuClu where
  idle : Nat
  energy : Nat
  power : Nat
  moved : Bool
  qLow : Nat
  qInt : Nat
  qthAt : Nat
  droop : Option Nat
  busyAt : Nat
deriving DecidableEq, Repr

def PmuClu.init : PmuClu := ⟨250000, 0, 0, false, 64, 0, 0, none, 0⟩

/-- The power management unit: the cap in force, the moment of the last period, the module power formed at it in units of 10 µW, whether the cap
cannot be met, clusters, rails, each domain's energy in units of 100 pJ, moments OVER_CAP and THROTTLE_ENTER were last logged,
consecutive hot samples of sensors, each sensor's latest reading in °C, domains that wait to be switched on, harts that wait for their group, and the moment a domain's
switch began to close. -/
structure Pmu where
  cap : Nat
  period : Nat
  pmod : Nat
  capOver : Bool
  clus : List (Nat × PmuClu)
  rails : List (Nat × Rail)
  energy : List (Nat × Nat)
  overAt : Option Nat
  throttleAt : Option Nat
  hot : List (Nat × Nat)
  temps : List (Nat × Int)
  pdWait : List Nat
  hartWait : List Nat
  pdSince : List (Nat × Nat)
deriving DecidableEq, Repr

def Pmu.init : Pmu := ⟨0, 0, 0, false, [], [], [], none, none, [], [], [], [], []⟩

/-! ## Metrology island (chapter 22) -/

/-- A checkpoint (R712): legal registers, residues, the state of charge (anchor, net charge, seconds at rest and the rest flag, both estimates and
their disagreement), whether it is clean. -/
structure Ckpt where
  regs : List Nat
  residues : List Nat
  anchor : Int
  qnet : Int
  rest : Nat
  atRest : Bool
  socCC : Int
  socV : Nat
  disagree : Bool
  clean : Bool
deriving DecidableEq, Repr

/-- The island's non-volatile store (R704, R708, R712, R714): seal fuse, parameter table, the newest committed checkpoint, audit entries by slot,
the next slot, registers whose saturation has been recorded, whether power cut off the last entry's write (R722), and the audit slots whose
write fails verification (R713). -/
structure MtiStore where
  fuse : Bool
  params : List Byte
  ckpt : Option Ckpt
  audit : List (Nat × List Byte)
  next : Nat
  saturated : Nat
  torn : Bool
  worn : List Nat
deriving DecidableEq, Repr

def MtiStore.init : MtiStore := ⟨false, List.replicate 256 0, none, [], 0, 0, false, []⟩

/-- A position of the battery-monitor ring in the last sweep (R717): STATE, temperatures, cell voltages. -/
structure Monitor where
  state : Nat
  temps : List Nat
  cells : List Nat
deriving DecidableEq, Repr

/-- The island at work (R705–R721): whether it measures; legal registers and residues; runs of end-of-range samples and whether each
channel is in a fault episode; the last codes; sums over this second of i, |i| and v and the samples taken; the means of the last second in
µA and µV; anchor, net charge since it, seconds at rest, rest flag; the two estimates and their disagreement; whether the clock differs; the last
sweep with its sequence number, breaks and time; seconds since the last checkpoint; samples since the last sweep; whether something calls for a refresh; the snapshot
published and its sequence number; the sweep record published; and what each master has latched of them. -/
structure Mti where
  on : Bool
  regs : List Nat
  residues : List Nat
  clipI : Nat
  clipV : Nat
  faultI : Bool
  faultV : Bool
  codeI : Int
  codeV : Int
  sumI : Int
  sumAbs : Nat
  sumV : Int
  samples : Nat
  meanI : Int
  meanV : Int
  anchor : Int
  qnet : Int
  rest : Nat
  atRest : Bool
  socCC : Int
  socV : Nat
  disagree : Bool
  clockBad : Bool
  sweepSeq : Nat
  breakA : Nat
  breakB : Nat
  sweepTime : Nat
  monitors : List Monitor
  sinceCkpt : Nat
  sinceSweep : Nat
  due : Bool
  snapSeq : Nat
  snap : List Byte
  sweepRec : List Byte
  snapLatch : List (Nat × List Byte)
  sweepLatch : List (Nat × List Byte)
deriving DecidableEq, Repr

def Mti.init : Mti :=
  { on := false, regs := [0, 0, 0, 0, 0, 0], residues := [0, 0, 0, 0], clipI := 0, clipV := 0, faultI := false, faultV := false, codeI := 0, codeV := 0,
    sumI := 0, sumAbs := 0, sumV := 0, samples := 0, meanI := 0, meanV := 0, anchor := 0, qnet := 0, rest := 0, atRest := false, socCC := 0, socV := 0,
    disagree := false, clockBad := false, sweepSeq := 0, breakA := 0xFF, breakB := 0xFF, sweepTime := 0, monitors := [], sinceCkpt := 0, sinceSweep := 0, due := false,
    snapSeq := 0, snap := [], sweepRec := [], snapLatch := [], sweepLatch := [] }

/-! ## Management (chapter 20) -/

/-- Fuses that management programs (R643): the key hash, and the count F of anti-rollback fuses. -/
structure Fuses where
  keyHash : Nat
  rollback : Nat
deriving DecidableEq, Repr

/-- The image in force: its slot, ISN, ROLLBACK, clusters retired at start-up, the Tilth contexts it enables, the operating frequencies of its
curves in MHz, the voltages of rails 0–5 in mV (R691), and the rails its power sequence has switched on, in order (R692). -/
structure Running where
  slot : Nat
  isn : Nat
  rollback : Nat
  retired : Nat
  tilth : List Nat
  mhz : List Nat
  mv : List Nat
  rails : List Nat
deriving DecidableEq, Repr

def Running.init : Running := ⟨0, 0, 0, 0, [], [], [], []⟩

/-- An update session (R658): its channel and the end of its last write. -/
structure Session where
  chan : Nat
  upTo : Nat
deriving DecidableEq, Repr

/-- The management complex: channels whose requests wait, in doorbell order; whether the pair is restarting, and the channel whose request was
being served when it stopped; the session; the moment a module reset is due; the cause of the last module reset (0 none, 1 external,
2 mailbox); whether the shutdown hold is armed. -/
structure Mgt where
  queue : List Nat
  down : Bool
  serving : Option Nat
  session : Option Session
  resetAt : Option Nat
  cause : Nat
  hold : Bool
deriving DecidableEq, Repr

def Mgt.init : Mgt := ⟨[], false, none, none, none, 0, false⟩

/-! ## Supplies and resets from outside (R734, R735) -/

/-- The rail monitors, VDD_IO_0 then VIO_18: whether each has found its rail below its threshold; and the moment until which the device stays in
module reset after the last external cause ended. -/
structure Supply where
  lowIo : Bool
  lowVio : Bool
  heldTo : Nat
deriving DecidableEq, Repr

/-- Both rails are in range. -/
def Supply.up (x : Supply) : Bool := !x.lowIo && !x.lowVio

def Supply.init : Supply := ⟨false, false, 0⟩

/-! ## Test access port (R738) -/

/-- The controller's state (the sixteen of IEEE 1149.1 in its figure's order), the instruction in force, the shift register in use, least
significant bit first, and the boundary register's update stage. -/
structure Tap where
  state : Nat
  ir : Option Nat
  shift : List Bool
  boundary : List Bool
deriving DecidableEq, Repr

def Tap.init : Tap := ⟨0, none, [], []⟩

/-- The port shifts: Shift-DR or Shift-IR. -/
def Tap.shifting (x : Tap) : Bool := x.state == 4 || x.state == 11

end Sys2Proof.Machine
end

