-- ==== Sys2Proof/Machine/Num.lean ====
section
/-! DEFINITION. Exact arithmetic before rounding (R69, R79, R81): a number is a NaN, an infinity or a signed binary fraction
m × 2^e held without limit; one rounding function per kind of format (R71, R75, R77, R78, R80). -/
namespace Sys2Proof.Machine

/-- An exact value: the device reads every NaN alike (R60), zeros keep their sign (R81). -/
inductive Num where
  | nan
  | inf (neg : Bool)
  | fin (neg : Bool) (m : Nat) (e : Int)
deriving DecidableEq, Repr

/-- +0. -/
def Num.zero : Num := .fin false 0 0

/-- The integer i. -/
def Num.ofInt (i : Int) : Num := .fin (decide (i < 0)) i.natAbs 0

/-- The natural number n. -/
def Num.ofNat (n : Nat) : Num := .fin false n 0

/-- 2^e. -/
def Num.pow2 (e : Int) : Num := .fin false 1 e

/-- The value with its sign turned. -/
def Num.neg : Num → Num
  | .nan => .nan
  | .inf s => .inf (!s)
  | .fin s m e => .fin (!s) m e

/-- The magnitude. -/
def Num.abs : Num → Num
  | .nan => .nan
  | .inf _ => .inf false
  | .fin _ m e => .fin false m e

/-- The sign bit (false for a NaN). -/
def Num.signBit : Num → Bool
  | .nan => false
  | .inf s => s
  | .fin s _ _ => s

/-- +0 or −0. -/
def Num.isZero : Num → Bool
  | .fin _ m _ => m == 0
  | _ => false

/-- A NaN. -/
def Num.isNan : Num → Bool
  | .nan => true
  | _ => false

/-- Neither a NaN nor an infinity. -/
def Num.isFin : Num → Bool
  | .fin _ _ _ => true
  | _ => false

/-- The signed integer numerator of a finite value over 2^e0, for e0 not above its exponent. -/
def Num.scaled (s : Bool) (m : Nat) (e e0 : Int) : Int :=
  let v : Int := (m * 2 ^ (e - e0).toNat : Nat)
  if s then -v else v

/-- Exact product: NaN operands, infinity times zero and signs as R79 and R81 give. -/
def Num.mul : Num → Num → Num
  | .nan, _ => .nan
  | _, .nan => .nan
  | .inf s, .inf t => .inf (s != t)
  | .inf s, .fin t m _ => if m = 0 then .nan else .inf (s != t)
  | .fin s m _, .inf t => if m = 0 then .nan else .inf (s != t)
  | .fin s m e, .fin t n f => .fin (s != t) (m * n) (e + f)

/-- Exact sum: (+∞) + (−∞) is NaN (R79); a zero sum is +0 unless both are −0 (R81). -/
def Num.add : Num → Num → Num
  | .nan, _ => .nan
  | _, .nan => .nan
  | .inf s, .inf t => if s = t then .inf s else .nan
  | .inf s, .fin _ _ _ => .inf s
  | .fin _ _ _, .inf t => .inf t
  | .fin s m e, .fin t n f =>
    if m = 0 ∧ n = 0 then .fin (s && t) 0 0
    else
      let e0 := if e < f then e else f
      let v := Num.scaled s m e e0 + Num.scaled t n f e0
      .fin (decide (v < 0)) v.natAbs e0

/-- Exact difference. -/
def Num.sub (a b : Num) : Num := a.add b.neg

/-- Exact sum of a list, from the left, starting at a. -/
def Num.sumFrom (a : Num) (l : List Num) : Num := l.foldl Num.add a

/-- a < b, false when either is a NaN; −0 equals +0 (R132). -/
def Num.lt : Num → Num → Bool
  | .nan, _ => false
  | _, .nan => false
  | .inf s, .inf t => s && !t
  | .inf s, .fin _ _ _ => s
  | .fin _ _ _, .inf t => !t
  | .fin s m e, .fin t n f =>
    let e0 := if e < f then e else f
    decide (Num.scaled s m e e0 < Num.scaled t n f e0)

/-- a = b as IEEE 754 compares, false when either is a NaN. -/
def Num.eqv (a b : Num) : Bool := !a.isNan && !b.isNan && !a.lt b && !b.lt a

/-- a ≤ b, false when either is a NaN. -/
def Num.le (a b : Num) : Bool := a.lt b || a.eqv b

/-- IEEE 754-2019 maximum: a NaN gives NaN, −0 is less than +0 (R132). -/
def Num.max (a b : Num) : Num :=
  if a.isNan || b.isNan then .nan
  else if a.lt b then b
  else if b.lt a then a
  else if a.signBit then b else a

/-- IEEE 754-2019 minimum. -/
def Num.min (a b : Num) : Num :=
  if a.isNan || b.isNan then .nan
  else if a.lt b then a
  else if b.lt a then b
  else if a.signBit then a else b

/-- floor(log2 |x|) of a finite value other than zero, and 0 else. -/
def Num.exponent : Num → Int
  | .fin _ m e => if m = 0 then 0 else (Nat.log2 m : Int) + e
  | _ => 0

/-- floor(x) of a finite value. -/
def Num.floor : Num → Int
  | .fin s m e =>
    let v : Int := if s then -(m : Int) else (m : Int)
    if 0 ≤ e then v * ((2 ^ e.toNat : Nat) : Int) else v / ((2 ^ (-e).toNat : Nat) : Int)
  | _ => 0

/-- x × 2^k, exactly. -/
def Num.scale (k : Int) : Num → Num
  | .fin s m e => .fin s m (e + k)
  | x => x

/-- How a conversion rounds: to nearest, ties to even, or stochastically with a 16-bit random value (R75). -/
inductive RMode where
  | rne
  | sr (r : Nat)
deriving DecidableEq, Repr

/-- Whether the magnitude kept goes up by one: m has d bits discarded (R75). -/
def roundUp (mode : RMode) (m d : Nat) : Bool :=
  let keep := m / 2 ^ d
  let rem := m % 2 ^ d
  match mode with
  | .rne => decide (2 ^ d < 2 * rem) || (decide (2 * rem = 2 ^ d) && keep % 2 == 1 && d != 0)
  | .sr r =>
    let top := if 16 ≤ d then rem / 2 ^ (d - 16) else rem * 2 ^ (16 - d)
    decide (65536 ≤ top + r)

/-- m × 2^e brought to a multiple of 2^q: the integer that multiplies 2^q. -/
def quantise (mode : RMode) (m : Nat) (e q : Int) : Nat :=
  if q ≤ e then m * 2 ^ (e - q).toNat
  else
    let d := (q - e).toNat
    m / 2 ^ d + b2n (roundUp mode m d)

/-- A binary floating-point format: exponent bits, fraction bits, bias, SPECIALS code (R58, R86). -/
structure FFmt where
  exp : Nat
  man : Nat
  bias : Nat
  spec : Nat
deriving DecidableEq, Repr

/-- FP32, the format of every accumulator and stage rounding (R71, R127). -/
def fp32 : FFmt := ⟨8, 23, 127, 1⟩
def bf16 : FFmt := ⟨8, 7, 127, 1⟩
def fp16 : FFmt := ⟨5, 10, 15, 1⟩
def e4m3 : FFmt := ⟨4, 3, 7, 2⟩
def e5m2 : FFmt := ⟨5, 2, 15, 1⟩

/-- Exponent of the subnormal least significant bit. -/
def FFmt.minLsb (f : FFmt) : Int := 1 - (f.bias : Int) - (f.man : Int)

/-- The magnitude pattern of the largest finite value (R58): below the exponent of all ones with IEEE specials, below the
all-ones pattern with a NaN only, and all ones where every pattern is finite. -/
def FFmt.maxMag (f : FFmt) : Nat :=
  if f.spec = 1 then (2 ^ f.exp - 1) * 2 ^ f.man - 1
  else if f.spec = 2 then 2 ^ (f.exp + f.man) - 2
  else 2 ^ (f.exp + f.man) - 1

/-- The value of a magnitude pattern taken as finite: exponent field e and fraction f (Floating-point element formats). -/
def FFmt.magValue (f : FFmt) (p : Nat) : Nat × Int :=
  let e := p / 2 ^ f.man
  let fr := p % 2 ^ f.man
  if e = 0 then (fr, f.minLsb) else (2 ^ f.man + fr, f.minLsb + (e - 1 : Nat))

/-- The largest finite value. -/
def FFmt.maxFin (f : FFmt) (neg : Bool) : Num :=
  let v := f.magValue f.maxMag
  .fin neg v.1 v.2

/-- One rounding into a floating-point format (R71, R75, R77): the value, as an exact number. ieee selects IEEE overflow. -/
def FFmt.round (f : FFmt) (mode : RMode) (ieee : Bool) : Num → Num
  | .nan => .nan
  | .inf s => if ieee then .inf s else f.maxFin s
  | .fin s m e =>
    if m = 0 then .fin s 0 0
    else
      let top : Int := (Nat.log2 m : Int) + e - (f.man : Int)
      let q := if f.minLsb < top then top else f.minLsb
      let k := quantise mode m e q
      if (f.maxFin false).lt (.fin false k q) then (if ieee then .inf s else f.maxFin s)
      else .fin s k q

/-- RNE to FP32 with IEEE overflow and gradual underflow: the rounding of every accumulation and stage (R71, R79, R80). -/
def rne32 (x : Num) : Num := fp32.round .rne true x

/-- The magnitude pattern of a finite value that the format represents exactly. -/
def FFmt.magPattern (f : FFmt) (m : Nat) (e : Int) : Nat :=
  if m = 0 then 0
  else
    let top : Int := (Nat.log2 m : Int) + e - (f.man : Int)
    let q := if f.minLsb < top then top else f.minLsb
    let k := quantise .rne m e q
    if k < 2 ^ f.man then k else (q - f.minLsb).toNat * 2 ^ f.man + k

/-- The canonical NaN magnitude of R60: quiet for IEEE specials, all ones for NaN-only; the largest finite value where the
format has no NaN (R79). -/
def FFmt.nanMag (f : FFmt) : Nat :=
  if f.spec = 1 then (2 ^ f.exp - 1) * 2 ^ f.man + 2 ^ (f.man - 1)
  else if f.spec = 2 then 2 ^ (f.exp + f.man) - 1
  else f.maxMag

/-- The bit pattern of a value the format holds exactly. -/
def FFmt.encode (f : FFmt) : Num → Nat
  | .nan => f.nanMag
  | .inf s => b2n s * 2 ^ (f.exp + f.man) + (if f.spec = 1 then (2 ^ f.exp - 1) * 2 ^ f.man else f.maxMag)
  | .fin s m e => b2n s * 2 ^ (f.exp + f.man) + f.magPattern m e

/-- The value of a bit pattern (R58, R59). -/
def FFmt.decode (f : FFmt) (p : Nat) : Num :=
  let s := bitN p (f.exp + f.man)
  let mag := p % 2 ^ (f.exp + f.man)
  if f.spec = 1 ∧ mag / 2 ^ f.man = 2 ^ f.exp - 1 then
    (if mag % 2 ^ f.man = 0 then .inf s else .nan)
  else if f.spec = 2 ∧ mag = 2 ^ (f.exp + f.man) - 1 then .nan
  else let v := f.magValue mag; .fin s v.1 v.2

/-- The value of an FP32 word. -/
def f32 (w : Nat) : Num := fp32.decode w

/-- The FP32 word of an FP32 value. -/
def f32w (x : Num) : Nat := fp32.encode x

/-- One fused multiply-add with one rounding to FP32. -/
def fma32 (a b c : Num) : Num := rne32 ((a.mul b).add c)

/-- Product, sum and difference with one rounding to FP32. -/
def mul32 (a b : Num) : Num := rne32 (a.mul b)
def add32 (a b : Num) : Num := rne32 (a.add b)
def sub32 (a b : Num) : Num := rne32 (a.sub b)

/-- A positive magnitude quotient with at least 64 significant bits and a sticky bit below them. -/
def divSticky (m n : Nat) (e f : Int) : Nat × Int :=
  let k := Nat.log2 n + 66
  let q := m * 2 ^ k / n
  (2 * q + b2n (m * 2 ^ k % n != 0), e - f - (k : Int) - 1)

/-- RNE(a / b) to FP32 under IEEE 754-2019. -/
def div32 : Num → Num → Num
  | .nan, _ => .nan
  | _, .nan => .nan
  | .inf _, .inf _ => .nan
  | .inf s, .fin t _ _ => .inf (s != t)
  | .fin s _ _, .inf t => .fin (s != t) 0 0
  | .fin s m e, .fin t n f =>
    if n = 0 then (if m = 0 then .nan else .inf (s != t))
    else if m = 0 then .fin (s != t) 0 0
    else let v := divSticky m n e f; rne32 (.fin (s != t) v.1 v.2)

/-- The integer square root, by bisection on the bits from b down. -/
def isqrtFrom (n : Nat) : Nat → Nat → Nat
  | 0, r => r
  | b + 1, r => let t := r + 2 ^ b; isqrtFrom n b (if t * t ≤ n then t else r)

/-- RNE(sqrt x) to FP32 under IEEE 754-2019. -/
def sqrt32 : Num → Num
  | .nan => .nan
  | .inf s => if s then .nan else .inf false
  | .fin s m e =>
    if m = 0 then .fin s 0 0
    else if s then .nan
    else
      let e1 := if e % 2 = 0 then e else e - 1
      let m1 := if e % 2 = 0 then m else 2 * m
      let big := m1 * 2 ^ 128
      let r := isqrtFrom big (Nat.log2 big / 2 + 1) 0
      rne32 (.fin false (2 * r + b2n (r * r != big)) (e1 / 2 - 64 - 1))

/-- Rounding into a two's complement integer of w bits, saturating; the second part is INVALID (R78). -/
def roundInt (w : Nat) (mode : RMode) : Num → Int × Bool
  | .nan => (0, true)
  | .inf s => (if s then -((2 ^ (w - 1) : Nat) : Int) else ((2 ^ (w - 1) : Nat) : Int) - 1, true)
  | .fin s m e =>
    let k : Int := (quantise mode m e 0 : Nat)
    (clampI (-((2 ^ (w - 1) : Nat) : Int)) (((2 ^ (w - 1) : Nat) : Int) - 1) (if s then -k else k), false)

/-- Rounding into an MX integer element of w bits: always saturating, to the largest finite magnitude of either sign (R65, R77); the
second part is INVALID, of a NaN only (R78). -/
def roundMxInt (w : Nat) (mode : RMode) (v : Num) : Int × Bool :=
  let top : Int := ((2 ^ (w - 1) : Nat) : Int) - 1
  match v with
  | .nan => (0, true)
  | .inf s => (if s then -top else top, false)
  | .fin _ _ _ => (clampI (-top) top (roundInt w mode v).1, false)

/-- ulp(x) = 2^(floor(log2 x) − 23), and 2^−149 for 0 (R82). -/
def ulp32 (x : Num) : Num := if x.isZero then .pow2 (-149) else .pow2 (x.exponent - 23)

end Sys2Proof.Machine
end

