-- ==== Sys2Proof/Machine/Rom.lean ====
section
/-! DEFINITION. The functions of the nine ROM curves and their bounds (R135): the mathematical value of each at an FP32 input, in 192-bit fixed
point with an error far below every bound of the rule, and whether a result lies within its bound. -/
namespace Sys2Proof.Machine

/-- One in fixed point, and the product of two fixed-point numbers, rounded down. -/
def fxOne : Int := ((2 ^ 192 : Nat) : Int)
def fxMul (a b : Int) : Int := a * b / fxOne

/-- A finite number in fixed point, rounded down; and back. -/
def Num.toFx : Num → Int
  | .fin s m e => let v : Int := if s then -(m : Int) else (m : Int)
    if 0 ≤ e + 192 then v * ((2 ^ (e + 192).toNat : Nat) : Int) else v / ((2 ^ (-(e + 192)).toNat : Nat) : Int)
  | _ => 0
def Num.ofFx (i : Int) : Num := .fin (decide (i < 0)) i.natAbs (-192)

/-- ln 2, log2 e, π and 1/√(2π). -/
def fxLn2 : Int := 0xb17217f7d1cf79abc9e3b39803f2f6af40f343267298b62d
def fxLog2e : Int := 0x171547652b82fe1777d0ffda0d23a7d11d6aef551bad2b4b1
def fxPi : Int := 0x3243f6a8885a308d313198a2e03707344a4093822299f31d0
def fxIsq2pi : Int := 0x662114cf50d942343f2cf1402eae38bfd3829f30512706d8

/-- The sum of n terms, each made from the one before by f. -/
def fxSeries (f : Nat → Int → Int) (n : Nat) (t0 : Int) : Int :=
  ((List.range n).foldl (fun (a : Int × Int) k => let t := f k a.2; (a.1 + t, t)) (t0, t0)).1

/-- 2^v for v in [0, 1), by the series of e^y. -/
def fxExp2 (v : Int) : Int := let y := fxMul v fxLn2; fxSeries (fun k t => fxMul t y / ((k : Int) + 1)) 60 fxOne

/-- 2^y for a fixed-point y, as a number. -/
def numExp2 (y : Int) : Num := let n := y / fxOne; match Num.ofFx (fxExp2 (y - n * fxOne)) with | .fin s m e => .fin s m (e + n) | x => x

/-- log2 of m in [1, 2), bit by bit. -/
def fxLog2 (m : Int) : Int :=
  ((List.range 128).foldl (fun (a : Int × Int) (k : Nat) =>
    let q := fxMul a.2 a.2
    if 2 * fxOne ≤ q then (a.1 + fxOne / ((2 ^ (k + 1) : Nat) : Int), q / 2) else (a.1, q)) (0, m)).1

/-- sin y and cos y for y in [0, 2π). -/
def fxSin (y : Int) : Int :=
  let q := fxMul y y
  fxSeries (fun k t => -(fxMul t q) / ((2 * (k : Int) + 2) * (2 * (k : Int) + 3))) 60 y
def fxCos (y : Int) : Int :=
  let q := fxMul y y
  fxSeries (fun k t => -(fxMul t q) / ((2 * (k : Int) + 1) * (2 * (k : Int) + 2))) 60 fxOne

/-- e^x for |x| < 128, as fixed point. -/
def fxExp (x : Int) : Int := (numExp2 (fxMul x fxLog2e)).toFx

/-- Φ(x) for |x| ≤ 10: one half and 1/√(2π) times the sum of (−1)^k x^(2k+1) / (2^k k! (2k+1)). -/
def fxPhi (x : Int) : Int :=
  let q := fxMul x x
  let s := (List.range 200).foldl (fun (a : Int × Int) (k : Nat) =>
    let t := -(fxMul a.2 q) / (2 * ((k : Int) + 1)); (a.1 + t / (2 * (k : Int) + 3), t)) (x, x)
  fxOne / 2 + fxMul fxIsq2pi s.1

/-- The fraction of x in turns, as an angle (R139, PERIOD). -/
def fxTurn (x : Num) : Int := fxMul (2 * fxPi) ((x.sub (.ofInt x.floor)).toFx)

/-- The function of ROM curve id at an input no special rule of R136 covers (R135). Where |x| is so large that the value is a limit up to less
than 2^−60, the limit. -/
def romTrue (id : Nat) (x : Num) : Num :=
  let big := fun (lim : Nat) => (Num.ofNat lim).lt x.abs
  let end_ := fun (lo : Num) => if x.signBit then lo else Num.ofNat 1
  match id with
  | 0 => numExp2 x.toFx
  | 1 => (Num.ofInt x.exponent).add (.ofFx (fxLog2 (x.scale (-x.exponent)).toFx))
  | 2 => match x with
    | .fin s m e => let v := divSticky 1 m 0 e; .fin s v.1 v.2
    | _ => .nan
  | 3 => match x with
    | .fin _ m e =>
      let m1 := if e % 2 = 0 then m else 2 * m
      let e1 := if e % 2 = 0 then e else e - 1
      .fin false (isqrtFrom (2 ^ 512 / m1) 257 0) (-256 - e1 / 2)
    | _ => .nan
  | 4 => if big 64 then end_ .zero else .ofFx (fxOne * fxOne / (fxOne + fxExp (-x.toFx)))
  | 5 => if big 32 then end_ (.ofInt (-1)) else .ofFx (fxOne - 2 * fxOne * fxOne / (fxOne + fxExp (2 * x.toFx)))
  | 6 => if big 10 then end_ .zero else .ofFx (fxPhi x.toFx)
  | 7 => .ofFx (fxSin (fxTurn x))
  | _ => .ofFx (fxCos (fxTurn x))

/-- The bound of ROM curve id at x, given the function's value (R135). Two ulps of a value below 2^−128 are less than half the spacing of FP32's
subnormals, to which the reconstruction rounds: there the bound is that half (DEDUCED, log 20). -/
def romBound (id : Nat) (x v : Num) : Num :=
  let two := if (Num.pow2 (-150)).lt ((ulp32 v).scale 1) then (ulp32 v).scale 1 else .pow2 (-150)
  match id with
  | 0 | 2 | 3 => two
  | 1 => if (Num.pow2 (-1)).le x && x.lt (.ofNat 2) then .pow2 (-21) else two
  | 4 | 6 => .pow2 (-22)
  | _ => .pow2 (-21)

/-- A result keeps the bound of its curve; an overflow counts as 2^128. The fixed-point value errs by less than 2^−60 of the result, or
of 1 where the bound is absolute: that much is taken off the bound. -/
def romWithin (id : Nat) (x y : Num) : Bool :=
  let v := romTrue id x
  let w := match y with | .inf s => Num.fin s 1 128 | z => z
  let slack := ((ulp32 v).scale (-36)).add (if id = 1 ∨ 4 ≤ id then .pow2 (-60) else .zero)
  ((w.sub v).abs.add slack).le (romBound id x v)

end Sys2Proof.Machine
end

