-- ==== Sys2Proof/Machine/Curves.lean ====
section
/-! DEFINITION. Curve tables of the Beater (R135–R141): curve records, their check, special inputs and evaluation. -/
namespace Sys2Proof.Machine

/-- The curve a record of R137 describes, its values as FP32 numbers. -/
structure Curve where
  reduction : Nat
  symmetry : Nat
  lo : Num
  invW : Num
  symK : Num
  leftA : Num
  leftB : Num
  rightA : Num
  rightB : Num
  segs : List (Num × Num × Num × Num)
deriving DecidableEq, Repr

/-- The length of a record with n segments (R137). -/
def curveBytes (n : Nat) : Nat := 64 + 16 * n

/-- An FP32 value at a byte offset of a record. -/
def f32At (bs : List Byte) (off : Nat) : Num := f32 (leAt bs off 4)

/-- Whether a record keeps every rule of R137 (R138). -/
def curveOk (bs : List Byte) : Bool :=
  leAt bs 0 2 == 1 && decide (1 ≤ leAt bs 2 1 ∧ leAt bs 2 1 ≤ 64) && decide (leAt bs 3 1 ≤ 5) && decide (leAt bs 4 1 ≤ 3)
    && leAt bs 5 3 == 0 && leAt bs 36 28 == 0 && (f32At bs 12).isFin && (Num.zero).lt (f32At bs 12)

/-- The curve of a record (R137). -/
def curveOf (bs : List Byte) : Curve :=
  { reduction := leAt bs 3 1, symmetry := leAt bs 4 1, lo := f32At bs 8, invW := f32At bs 12, symK := f32At bs 16,
    leftA := f32At bs 20, leftB := f32At bs 24, rightA := f32At bs 28, rightB := f32At bs 32,
    segs := (List.range (leAt bs 2 1)).map (fun s =>
      (f32At bs (64 + 16 * s), f32At bs (68 + 16 * s), f32At bs (72 + 16 * s), f32At bs (76 + 16 * s))) }

/-- The limit of the tail line A + B·v at an infinite v (R136). -/
def tailLimit (a b : Num) (neg : Bool) : Num :=
  if a.isNan || b.isNan then .nan
  else if b.isZero then a
  else
    let t := b.mul (.inf neg)
    a.add t

/-- Undoing the symmetry fold (R139). -/
def unfold (c : Curve) (fold : Bool) (y : Num) : Num :=
  if fold then (if c.symmetry = 1 then y else if c.symmetry = 2 then y.neg else rne32 (c.symK.sub y)) else y

/-- The fixed results of special inputs (R136), none where the curve is evaluated. -/
def curveSpecial (c : Curve) (x : Num) : Option Num :=
  if x.isNan then some .nan
  else match c.reduction with
  | 1 => match x with
    | .inf s => some (if s then .zero else .inf false)
    | _ => if Num.le (.ofNat 128) x then some (.inf false) else if x.lt (.ofInt (-150)) then some .zero else none
  | 2 => match x with
    | .inf s => some (if s then .nan else .inf false)
    | _ => if x.isZero then some (.inf true) else if x.signBit then some .nan else none
  | 3 => match x with
    | .inf s => some (.fin s 0 0)
    | _ => if x.isZero then some (.inf x.signBit) else none
  | 4 => match x with
    | .inf s => some (if s then .nan else .zero)
    | _ => if x.isZero then some (.inf x.signBit) else if x.signBit then some .nan else none
  | 5 => match x with
    | .inf _ => some .nan
    | _ => none
  | _ => match x with
    | .inf s =>
      if s && c.symmetry != 0 then some (unfold c true (tailLimit c.rightA c.rightB false))
      else if s then some (tailLimit c.leftA c.leftB true)
      else some (tailLimit c.rightA c.rightB false)
    | _ => none

/-- Evaluation after the special inputs (R139): reduction, fold, segment polynomial or tail, unfolding, reconstruction. -/
def curveBody (c : Curve) (x : Num) : Num :=
  let n : Int := match c.reduction with
    | 1 => x.floor
    | 2 => x.exponent
    | 3 => x.exponent
    | 4 => x.exponent / 2
    | _ => 0
  let v := match c.reduction with
    | 1 => x.sub (.ofInt n)
    | 2 => x.scale (-n)
    | 3 => x.abs.scale (-n)
    | 4 => x.scale (-2 * n)
    | 5 => x.sub (.ofInt x.floor)
    | _ => x
  let fold := c.symmetry != 0 && v.signBit
  let w := if fold then v.neg else v
  let t := (w.sub c.lo).mul c.invW
  let left := rne32 (c.leftA.add (c.leftB.mul w))
  let right := rne32 (c.rightA.add (c.rightB.mul w))
  let y := match t with
    | .nan => .nan
    | .inf s => if s then left else right
    | _ =>
      let s := t.floor
      if s < 0 then left
      else if (c.segs.length : Int) ≤ s then right
      else
        let u := rne32 (t.sub (.ofInt s))
        let k := getAt (.zero, .zero, .zero, .zero) c.segs s.toNat
        fma32 (fma32 (fma32 k.2.2.2 u k.2.2.1) u k.2.1) u k.1
  let y := unfold c fold y
  match c.reduction with
  | 1 => rne32 (y.scale n)
  | 2 => rne32 (y.add (.ofInt n))
  | 3 => let z := rne32 (y.scale (-n)); if x.signBit then z.neg else z
  | 4 => rne32 (y.scale (-n))
  | _ => y

/-- The product of the MULX option: a zero where x is infinite and f(x) is zero (R136), else one rounding (R139). -/
def mulxOf (x y : Num) : Num :=
  match x with
  | .inf s => if y.isZero then .fin (s != y.signBit) 0 0 else mul32 x y
  | _ => mul32 x y

/-- A record curve at x, with the MULX option (R136, R139). -/
def curveEval (c : Curve) (mulx : Bool) (x : Num) : Num :=
  let y := (curveSpecial c x).getD (curveBody c x)
  if mulx then mulxOf x y else y

/-- REDUCTION of a ROM curve (R135). -/
def romReduction (id : Nat) : Nat := if id ≤ 3 then id + 1 else if id ≤ 6 then 0 else 5

/-- SYMMETRY of a ROM curve (R135). -/
def romSymmetry (id : Nat) : Nat := if id = 5 then 2 else if id = 4 ∨ id = 6 then 3 else 0

/-- A ROM curve as a record: REDUCTION, SYMMETRY, K and the tail limits as R135 and R136 state them, the coefficients, which
the spec does not state, from Config (log entry 20). -/
def romCurve (id : Nat) : Curve :=
  let one := Num.ofNat 1
  { reduction := romReduction id, symmetry := romSymmetry id, lo := f32 (Config.romLo id).toNat,
    invW := f32 (Config.romInvW id).toNat, symK := one,
    leftA := if id = 5 then one.neg else .zero, leftB := .zero,
    rightA := one, rightB := .zero,
    segs := (List.range (Config.romSegs id % 64 + 1)).map (fun s =>
      (f32 (Config.romCoef id s 0).toNat, f32 (Config.romCoef id s 1).toNat, f32 (Config.romCoef id s 2).toNat,
        f32 (Config.romCoef id s 3).toNat)) }

/-- The significand of x is a power of two. -/
def Num.isPow2 : Num → Bool
  | .fin _ m _ => m != 0 && m == 2 ^ Nat.log2 m
  | _ => false

/-- The inputs at which R135 makes a ROM curve exact, with the exact result. -/
def romExact (id : Nat) (x : Num) : Option Num :=
  match id with
  | 0 => if x.eqv (.ofInt x.floor) then some (rne32 (.pow2 x.floor)) else none
  | 1 => if x.isPow2 then some (rne32 (.ofInt x.exponent)) else none
  | 2 => if x.isPow2 then some (rne32 (.fin x.signBit 1 (-x.exponent))) else none
  | 3 => if x.isPow2 && x.exponent % 2 == 0 then some (rne32 (.pow2 (-(x.exponent / 2)))) else none
  | 5 => if x.isZero then some (.fin x.signBit 0 0) else none
  | _ => none

/-- A ROM curve at x inside its bound (R135): what its coefficients give, and where the open coefficients of Config would break the bound the
function's value rounded, which the ROM's own coefficients never need. -/
def romInBound (id : Nat) (x : Num) : Num :=
  let y := curveBody (romCurve id) x
  if romWithin id x y then y else rne32 (romTrue id x)

/-- A ROM curve at x (R135, R136, R139). -/
def romEval (id : Nat) (mulx : Bool) (x : Num) : Num :=
  let y := (curveSpecial (romCurve id) x).getD ((romExact id x).getD (romInBound id x))
  if mulx then mulxOf x y else y

end Sys2Proof.Machine
end

