-- ==== Sys2Proof/Machine/Formats.lean ====
section
/-! DEFINITION. Number formats (chapter 02): the format descriptor table's rows, where each may stand, element decode with
scales and codebooks, output conversion, microscaling scales and the stochastic generators. -/
namespace Sys2Proof.Machine

/-- One entry of the format descriptor table (R86, R87). -/
structure Fmt where
  kind : Nat
  elem : Nat
  exp : Nat
  man : Nat
  bias : Nat
  spec : Nat
  ovf : Nat
  blk : Nat
  scale : Nat
  sub : Nat
  cb : Nat
  cbFmt : Nat
  frac : Nat
deriving DecidableEq, Repr

/-- The entry a LO and a HI word hold (R86, R87). -/
def Fmt.ofWords (lo hi : Nat) : Fmt :=
  { kind := bitsN lo 31 28, elem := bitsN lo 27 22, exp := bitsN lo 21 18, man := bitsN lo 17 13, bias := bitsN lo 12 5,
    spec := bitsN lo 4 3, ovf := bitsN lo 1 0, blk := bitsN hi 31 28, scale := bitsN hi 27 26, sub := bitsN hi 25 24,
    cb := bitsN hi 23 19, cbFmt := bitsN hi 18 16, frac := bitsN hi 15 12 }

/-- The LO word of an entry. -/
def Fmt.lo (f : Fmt) : Nat :=
  f.kind * 2 ^ 28 + f.elem * 2 ^ 22 + f.exp * 2 ^ 18 + f.man * 2 ^ 13 + f.bias * 2 ^ 5 + f.spec * 2 ^ 3 + f.ovf

/-- The HI word of an entry. -/
def Fmt.hi (f : Fmt) : Nat :=
  f.blk * 2 ^ 28 + f.scale * 2 ^ 26 + f.sub * 2 ^ 24 + f.cb * 2 ^ 19 + f.cbFmt * 2 ^ 16 + f.frac * 2 ^ 12

/-- The fixed entries 0–16, in order (R85). -/
def fixedFmts : List Fmt := [
  ⟨2, 32, 8, 23, 127, 1, 1, 0, 0, 0, 0, 0, 0⟩,
  ⟨2, 16, 8, 7, 127, 1, 1, 0, 0, 0, 0, 0, 0⟩,
  ⟨2, 16, 5, 10, 15, 1, 1, 0, 0, 0, 0, 0, 0⟩,
  ⟨2, 8, 4, 3, 7, 2, 0, 0, 0, 0, 0, 0, 0⟩,
  ⟨2, 8, 5, 2, 15, 1, 1, 0, 0, 0, 0, 0, 0⟩,
  ⟨1, 8, 0, 0, 0, 0, 0, 0, 0, 0, 0, 0, 0⟩,
  ⟨1, 4, 0, 0, 0, 0, 0, 0, 0, 0, 0, 0, 0⟩,
  ⟨3, 8, 4, 3, 7, 2, 0, 5, 1, 0, 0, 0, 0⟩,
  ⟨3, 8, 5, 2, 15, 1, 0, 5, 1, 0, 0, 0, 0⟩,
  ⟨3, 6, 2, 3, 1, 0, 0, 5, 1, 0, 0, 0, 0⟩,
  ⟨3, 6, 3, 2, 3, 0, 0, 5, 1, 0, 0, 0, 0⟩,
  ⟨3, 4, 2, 1, 1, 0, 0, 5, 1, 0, 0, 0, 0⟩,
  ⟨4, 8, 0, 0, 0, 0, 0, 5, 1, 0, 0, 0, 6⟩,
  ⟨5, 4, 0, 0, 0, 0, 0, 5, 1, 0, 16, 1, 0⟩,
  ⟨5, 3, 0, 0, 0, 0, 0, 5, 1, 0, 8, 1, 0⟩,
  ⟨5, 4, 0, 0, 0, 0, 0, 5, 1, 1, 16, 1, 0⟩,
  ⟨5, 3, 0, 0, 0, 0, 0, 5, 1, 1, 8, 1, 0⟩]

/-- The unused entry: every field 0. -/
def unusedFmt : Fmt := ⟨0, 0, 0, 0, 0, 0, 0, 0, 0, 0, 0, 0, 0⟩

/-- What entry n holds at reset: the row of R85, or unused (R87). -/
def resetFmt (n : Nat) : Fmt := getAt unusedFmt fixedFmts n

/-- Whether a HI write's entry keeps the field codes of R86 and R87 and the table of R90. -/
def Fmt.valid (f : Fmt) : Bool :=
  let codes := decide (f.kind ≤ 5) && f.spec != 3 && decide (f.ovf ≤ 1) && (f.ovf == 0 || f.spec == 1)
    && (f.blk == 0 || f.blk == 5) && decide (f.scale ≤ 1) && decide (f.sub ≤ 1)
    && (f.cb == 0 || f.cb == 8 || f.cb == 16) && decide (f.cbFmt ≤ 1)
  let floatShape := f.elem == 1 + f.exp + f.man && decide (4 ≤ f.elem ∧ f.elem ≤ 8) && decide (2 ≤ f.exp ∧ f.exp ≤ 5)
    && decide (1 ≤ f.man ∧ f.man ≤ 3) && decide (f.bias ≤ 31)
  let noBlock := f.blk == 0 && f.scale == 0 && f.sub == 0 && f.cb == 0 && f.cbFmt == 0
  let mxBlock := f.blk == 5 && f.scale == 1
  codes && (match f.kind with
    | 0 => f == unusedFmt
    | 1 => (f.elem == 4 || f.elem == 8) && f.exp == 0 && f.man == 0 && f.bias == 0 && noBlock && f.ovf == 0
    | 2 => floatShape && noBlock && f.frac == 0
    | 3 => floatShape && mxBlock && f.ovf == 0 && f.sub == 0 && f.cb == 0 && f.cbFmt == 0 && f.frac == 0
    | 4 => (f.elem == 4 || f.elem == 8) && decide (f.frac < f.elem) && mxBlock && f.ovf == 0 && f.exp == 0 && f.man == 0
        && f.bias == 0 && f.sub == 0 && f.cb == 0 && f.cbFmt == 0
    | _ => (f.elem == 3 || f.elem == 4) && f.cb == 2 ^ f.elem && f.cbFmt == 1 && mxBlock && f.ovf == 0)

/-- The element's floating-point parameters, for kinds 2 and 3. -/
def Fmt.ff (f : Fmt) : FFmt := ⟨f.exp, f.man, f.bias, f.spec⟩

/-- Block-scaled: kinds 3, 4 and 5 carry an E8M0 scale per 32 elements (R62, R66). -/
def Fmt.isBlock (f : Fmt) : Bool := f.blk == 5

/-- A 16-bit operand format, which runs at one MAC every four cycles (R57). -/
def Fmt.is16 (f : Fmt) : Bool := f.kind == 2 && f.elem == 16

/-- Counts as 4-bit: 4 bits wide or narrower (R57, R751). -/
def Fmt.is4 (f : Fmt) : Bool := decide (f.elem ≤ 4)

/-- May stand as Calender A (R56, R751). -/
def Fmt.calA (f : Fmt) : Bool := decide (1 ≤ f.kind ∧ f.kind ≤ 5) && decide (f.elem ≤ 16)

/-- May stand as Calender B (R56, R751): 16-bit and 8-bit formats, FP8-placed floats of 5 to 8 bits, block formats only when
exactly 8 bits wide. -/
def Fmt.calB (f : Fmt) : Bool :=
  match f.kind with
  | 1 => f.elem == 8
  | 2 => decide (5 ≤ f.elem ∧ f.elem ≤ 16)
  | 3 => f.elem == 8
  | 4 => f.elem == 8
  | _ => false

/-- May stand in a Beater slot (R56, R751): every used entry. -/
def Fmt.beater (f : Fmt) : Bool := decide (1 ≤ f.kind ∧ f.kind ≤ 5)

/-- May be an output conversion target (R56, R751): every used entry but the table-coded ones. -/
def Fmt.outOk (f : Fmt) : Bool := decide (1 ≤ f.kind ∧ f.kind ≤ 4)

/-- The tolerance factor c of R82 and R83 for a Calender B format. -/
def Fmt.checkC (f : Fmt) : Nat :=
  match f.kind with
  | 1 => 17
  | 2 =>
    let v := f.ff.magValue f.ff.maxMag
    let h : Int := (Nat.log2 v.1 : Int) + v.2
    if h - f.ff.minLsb + 6 ≤ 24 then 17 else 18
  | _ => 18

/-- Accumulation step shape of an operand pairing: k positions per step (R95). -/
def kPerStep (a b : Fmt) (sparse : Bool) : Nat :=
  if a.is16 || b.is16 then 1 else if a.is4 then (if sparse then 4 else 2) else 1

/-- Work cycles per accumulation step (R95). -/
def cyclesPerStep (a b : Fmt) : Nat := if a.is16 || b.is16 then 4 else 1

/-- The pairing may use 2:4 sparse storage: A of 4 bits or fewer with B of 8 bits (R95). -/
def sparseOk (a b : Fmt) : Bool := a.is4 && !b.is16

/-- The K granule of R105. -/
def kGranule (a b : Fmt) (sparse : Bool) : Nat :=
  if a.isBlock || b.isBlock then 32 else kPerStep a b sparse

/-- The element value of a code, without its block scale (R58, R61, R62, R66); cb is the codebook as BF16 patterns. -/
def Fmt.elemValue (f : Fmt) (cb : List Nat) (code : Nat) : Num :=
  match f.kind with
  | 1 => .ofInt (signed f.elem code)
  | 2 => f.ff.decode code
  | 3 => f.ff.decode code
  | 4 => (Num.ofInt (signed f.elem code)).scale (-(f.frac : Int))
  | 5 => bf16.decode (getAt 0 cb code)
  | _ => .zero

/-- The scale X of a block and the sub-scale u of its sub-block, applied exactly (R62, R66). -/
def Fmt.applyScale (f : Fmt) (x : Nat) (u : Nat) (v : Num) : Num :=
  if f.isBlock then
    if x = 255 then .nan
    else
      let w := v.scale ((x : Int) - 127)
      if f.sub = 1 then (w.mul (.ofNat (u + 1))).scale (-4) else w
  else v

/-- One step of a stochastic generator: a Galois LFSR with mask 0x8020_0003 (R76). -/
def lfsrStep (s : Nat) : Nat := if s % 2 = 1 then Nat.xor (s / 2) 0x80200003 else s / 2

/-- Sixteen steps: one conversion (R76). -/
def lfsr16 (s : Nat) : Nat := (List.range 16).foldl (fun a _ => lfsrStep a) s

/-- The seed of generator g: SR_SEED XOR (g × 0x9E37_79B9 mod 2^32), 1 in place of 0 (R76). -/
def srSeed (seed g : Nat) : Nat :=
  let s := Nat.xor seed (g * 0x9E3779B9 % 2 ^ 32)
  if s = 0 then 1 else s

/-- How an operation converts its output: rounding, overflow policy and flush (R75, R77, R80, R165). -/
structure OutOpt where
  sr : Bool
  ieee : Bool
  ftz : Bool
deriving DecidableEq, Repr

/-- Flush of a subnormal result to a zero of the same sign (R80). -/
def FFmt.flush (f : FFmt) (ftz : Bool) (v : Num) : Num :=
  match v with
  | .fin s m e => if ftz && m != 0 && decide (f.magPattern m e < 2 ^ f.man) then .fin s 0 0 else v
  | _ => v

/-- Output conversion of one value into a non-block format: its code, and INVALID (R77, R78, R79). -/
def Fmt.convert (f : Fmt) (o : OutOpt) (r : Nat) (v : Num) : Nat × Bool :=
  let mode := if o.sr then RMode.sr r else RMode.rne
  match f.kind with
  | 1 => let k := roundInt f.elem mode v; (unsigned f.elem k.1, k.2)
  | _ =>
    if v.isNan then (f.ff.nanMag, f.ff.spec == 0)
    else (f.ff.encode (f.ff.flush o.ftz (f.ff.round mode o.ieee v)), false)

/-- The exponent of the element format's largest normal value (R65). -/
def Fmt.emax (f : Fmt) : Int :=
  match f.kind with
  | 3 => let v := f.ff.magValue f.ff.maxMag; (Nat.log2 v.1 : Int) + v.2
  | 4 => (f.elem : Int) - 2 - (f.frac : Int)
  | _ => 0

/-- The block scale byte from the block's results (R65). -/
def Fmt.blockScale (f : Fmt) (vs : List Num) : Nat :=
  if vs.any Num.isNan then 255
  else if vs.any (fun v => !v.isFin) then 254
  else
    let amax := vs.foldl (fun a v => if a.lt v.abs then v.abs else a) Num.zero
    if amax.isZero then 0 else (clampI 0 254 (amax.exponent - f.emax + 127)).toNat

/-- Conversion of one element of a block of scale x: always saturating (R65, R77). In a block of scale 0xFF, which stands for no number
(R62), a NaN converts as R78 and R79 say, and the code of any other element is open (log entry 21). -/
def Fmt.convertScaled (f : Fmt) (o : OutOpt) (r : Nat) (x : Nat) (v : Num) : Nat × Bool :=
  let mode := if o.sr then RMode.sr r else RMode.rne
  if x = 255 ∧ v.isNan = false then (Config.nanBlockCode f.elem (f32w v) % 2 ^ f.elem, false)
  else
    let w := v.scale (127 - (x : Int))
    match f.kind with
    | 4 => let k := roundMxInt f.elem mode (w.scale (f.frac : Int)); (unsigned f.elem k.1, k.2)
    | _ =>
      if w.isNan then (f.ff.nanMag, f.ff.spec == 0)
      else (f.ff.encode (f.ff.flush o.ftz (f.ff.round mode false w)), false)

/-- A list of codes of w bits, the first in the lowest bits (R61, R63). -/
def packCodes (w : Nat) : List Nat → Nat
  | [] => 0
  | c :: cs => c % 2 ^ w + 2 ^ w * packCodes w cs

end Sys2Proof.Machine
end

