-- ==== Sys2Proof/Machine/Tensor.lean ====
section
/-! DEFINITION. Qoraz operation and tensor descriptors (chapter 05): fields, the decode checks of R171 that need no machine
state, element addressing (R174) and footprints. -/
namespace Sys2Proof.Machine

/-- A tensor descriptor (R172). -/
structure TDesc where
  base : Nat
  modeByte : Nat
  layoutByte : Nat
  d0 : Nat
  d1 : Nat
  d2 : Nat
  d3 : Nat
  s1 : Nat
  s2 : Nat
  s3 : Nat
  scaleOff : Nat
  subOff : Nat
  cbOff : Nat
  metaOff : Nat
  kvSel : Nat
  startTok : Nat
  kvHeads : Nat
deriving DecidableEq, Repr

/-- A tensor descriptor from its 64 bytes (R172). -/
def TDesc.ofBytes (b : List Byte) : TDesc :=
  { base := leAt b 0 6, modeByte := leAt b 6 1, layoutByte := leAt b 7 1, d0 := leAt b 8 4, d1 := leAt b 12 4,
    d2 := leAt b 16 4, d3 := leAt b 20 4, s1 := leAt b 24 4, s2 := leAt b 28 4, s3 := leAt b 32 4,
    scaleOff := leAt b 36 4, subOff := leAt b 40 4, cbOff := leAt b 44 4, metaOff := leAt b 48 4,
    kvSel := leAt b 52 4, startTok := leAt b 56 4, kvHeads := leAt b 60 4 }

/-- MODE and LAYOUT (R172, R173). -/
def TDesc.mode (t : TDesc) : Nat := t.modeByte % 16
def TDesc.layout (t : TDesc) : Nat := t.layoutByte % 16
def TDesc.layer (t : TDesc) : Nat := bitsN t.kvSel 15 0
def TDesc.plane (t : TDesc) : Nat := bitsN t.kvSel 16 16
def TDesc.append (t : TDesc) : Bool := bitN t.kvSel 17
def TDesc.headBase (t : TDesc) : Nat := bitsN t.kvHeads 15 0
def TDesc.headTotal (t : TDesc) : Nat := bitsN t.kvHeads 31 16

/-- The number of elements. -/
def TDesc.count (t : TDesc) : Nat := t.d0 * t.d1 * t.d2 * t.d3

/-- The number of DIM0 rows. -/
def TDesc.rows (t : TDesc) : Nat := t.d1 * t.d2 * t.d3

/-- Row r in the order (i3, i2, i1), DIM1 innermost (R174). -/
def TDesc.rowIdx (t : TDesc) (r : Nat) : Nat × Nat × Nat := (r % t.d1, r / t.d1 % t.d2, r / (t.d1 * t.d2))

/-- Blocks of 32 in a row (R64, R174). -/
def rowBlocks (n : Nat) : Nat := ceilDiv n 32

/-- Code bits a row of n elements of a format occupies: whole blocks for block formats (R64), half the codes when 2:4 sparse. -/
def codeBits (f : Fmt) (sparse : Bool) (n : Nat) : Nat :=
  let k := if f.isBlock then rowBlocks n * 32 else n
  f.elem * (if sparse then ceilDiv k 4 * 2 else k)

/-- Physical base of a tensor: VAT offsets are relative to the executing cluster (R173). -/
def vatBase (n : Nat) : Nat := 0x100000000 + n * 0x400000
def TDesc.phys (t : TDesc) (clu : Nat) : Nat := if t.mode = 1 ∨ t.mode = 4 ∨ t.mode = 2 then vatBase clu + t.base else t.base

/-- First byte of row (i1, i2, i3) of the code plane (R174). -/
def TDesc.rowAddr (t : TDesc) (clu i1 i2 i3 : Nat) : Nat := t.phys clu + i1 * t.s1 + i2 * t.s2 + i3 * t.s3

/-- Contents of memory as a model function of the address. -/
abbrev Rd := Nat → Byte

/-- n bytes at an address. -/
def rdBytes (rd : Rd) (a n : Nat) : List Byte := (List.range n).map (fun i => rd (a + i))

/-- A little-endian number of n bytes at an address. -/
def rdNat (rd : Rd) (a n : Nat) : Nat := leNat (rdBytes rd a n)

/-- The w bits from bit position k of the bit string at an address (R63). -/
def rdBits (rd : Rd) (a k w : Nat) : Nat :=
  rdNat rd (a + k / 8) ((k % 8 + w + 7) / 8) / 2 ^ (k % 8) % 2 ^ w

/-- The codebook of a table-coded tensor as BF16 patterns (R67). -/
def codebook (rd : Rd) (f : Fmt) (t : TDesc) (clu : Nat) : List Nat :=
  if f.kind = 5 then (List.range f.cb).map (fun i => rdNat rd (t.phys clu + t.cbOff + 2 * i) 2) else []

/-- Scale byte and sub-scale of the element at position i0 of row r (R63, R66, R174). -/
def scaleAt (rd : Rd) (f : Fmt) (t : TDesc) (clu r i0 : Nat) : Nat × Nat :=
  if f.isBlock then
    let nb := rowBlocks t.d0
    let b := i0 / 32
    let x := (rd (t.phys clu + t.scaleOff + r * nb + b)).toNat
    let u := if f.sub = 1 then bitsN (rdNat rd (t.phys clu + t.subOff + 2 * (r * nb + b)) 2) (4 * (i0 % 32 / 8) + 3) (4 * (i0 % 32 / 8)) else 15
    (x, u)
  else (127, 15)

/-- The value of element i0 of row r (R62, R66, R174). -/
def elemAt (rd : Rd) (f : Fmt) (t : TDesc) (clu r i0 : Nat) : Num :=
  let i := t.rowIdx r
  let a := t.rowAddr clu i.1 i.2.1 i.2.2
  let code := rdBits rd a (f.elem * i0) f.elem
  let s := scaleAt rd f t clu r i0
  f.applyScale s.1 s.2 (f.elemValue (codebook rd f t clu) code)

/-- The value at k position k of row r of a 2:4 sparse A (R109–R111). -/
def sparseAt (rd : Rd) (f : Fmt) (t : TDesc) (clu r k : Nat) : Num :=
  let i := t.rowIdx r
  let a := t.rowAddr clu i.1 i.2.1 i.2.2
  let h := k / 4
  let word := rdNat rd (t.phys clu + t.metaOff + 4 * (r * rowBlocks t.d0 + h / 8)) 4
  let nib := bitsN word (4 * (h % 8) + 3) (4 * (h % 8))
  let p0 := nib % 4
  let p1 := nib / 4
  let s := scaleAt rd f t clu r k
  let val := fun j => f.applyScale s.1 s.2 (f.elemValue (codebook rd f t clu) (rdBits rd a (f.elem * (2 * h + j)) f.elem))
  if k % 4 = p0 then val 0 else if k % 4 = p1 then val 1 else .zero

/-- A byte range: first address and length. -/
abbrev Range := Nat × Nat

/-- The byte ranges a PHYS or VAT tensor occupies: code rows, scale, sub-scale and metadata planes, codebook (R174, R176). -/
def TDesc.footprint (t : TDesc) (f : Fmt) (clu : Nat) (sparse : Bool) : List Range :=
  if t.count = 0 then []
  else
    let nb := rowBlocks t.d0
    let rows := (List.range t.rows).map (fun r =>
      let i := t.rowIdx r; (t.rowAddr clu i.1 i.2.1 i.2.2, ceilDiv (codeBits f sparse t.d0) 8))
    rows ++ (if f.isBlock then [(t.phys clu + t.scaleOff, t.rows * nb)] else [])
      ++ (if f.sub = 1 then [(t.phys clu + t.subOff, 2 * t.rows * nb)] else [])
      ++ (if f.kind = 5 then [(t.phys clu + t.cbOff, 32)] else [])
      ++ (if sparse then [(t.phys clu + t.metaOff, 4 * t.rows * nb)] else [])

/-- Two byte ranges share a byte. -/
def Range.meets (a b : Range) : Bool := decide (a.1 < b.1 + b.2) && decide (b.1 < a.1 + a.2) && decide (0 < a.2 ∧ 0 < b.2)

/-- Two footprints share a byte. -/
def rangesMeet (a b : List Range) : Bool := a.any (fun x => b.any (fun y => x.meets y))

/-- A range lies inside another. -/
def Range.inside (a b : Range) : Bool := decide (b.1 ≤ a.1) && decide (a.1 + a.2 ≤ b.1 + b.2)

/-- A byte range lies inside a union of ranges: the part past any range that holds its first byte lies inside again. -/
def coveredBy (gs : List Range) : Nat → Range → Bool
  | 0, a => a.2 == 0
  | fuel + 1, a =>
    if a.2 = 0 then true
    else match gs.find? (fun g => decide (g.1 ≤ a.1 ∧ a.1 < g.1 + g.2)) with
      | none => false
      | some g =>
        let e := g.1 + g.2
        if a.1 + a.2 ≤ e then true else coveredBy gs fuel (e, a.1 + a.2 - e)

/-- The 4 KiB blocks a list of ranges touches, in order, without repeats side by side. -/
def blocksOf (rs : List Range) : List Nat :=
  rs.foldl (fun acc r =>
    if r.2 = 0 then acc
    else (List.range ((r.1 + r.2 - 1) / 4096 - r.1 / 4096 + 1)).foldl
      (fun l i => let b := r.1 / 4096 + i; if l.contains b then l else l ++ [b]) acc) []

/-- An operation descriptor (R164). -/
structure OpDesc where
  opcode : Nat
  variant : Nat
  flags : Nat
  fmts : List Nat
  fmtBytes : List Nat
  m : Nat
  n : Nat
  k : Nat
  tds : List Nat
  beta : Nat
  p0 : Nat
  p1 : Nat
  seed : Nat
  kchunk : Nat
  partIndex : Nat
  partCount : Nat
  cell : Nat
  liveRec : Nat
  phaseByte : Nat
  fmtBiasByte : Nat
  curveSel : Nat
  rsvd : Nat
  tag : Nat
deriving DecidableEq, Repr

/-- An operation descriptor from its 64 bytes (R164). The TD list runs A, B, C, BIAS, OUT, AUX. -/
def OpDesc.ofBytes (b : List Byte) : OpDesc :=
  { opcode := leAt b 0 1, variant := leAt b 1 1, flags := leAt b 2 2,
    fmts := [leAt b 4 1 % 32, leAt b 5 1 % 32, leAt b 6 1 % 32, leAt b 57 1 % 32, leAt b 7 1 % 32],
    fmtBytes := [leAt b 4 1, leAt b 5 1, leAt b 6 1, leAt b 7 1],
    m := leAt b 8 4, n := leAt b 12 4, k := leAt b 16 4,
    tds := [leAt b 20 2, leAt b 22 2, leAt b 24 2, leAt b 26 2, leAt b 28 2, leAt b 30 2],
    beta := leAt b 32 4, p0 := leAt b 36 4, p1 := leAt b 40 4, seed := leAt b 44 4, kchunk := leAt b 48 2,
    partIndex := leAt b 50 1, partCount := leAt b 51 1, cell := leAt b 52 2, liveRec := leAt b 54 2,
    phaseByte := leAt b 56 1, fmtBiasByte := leAt b 57 1, curveSel := leAt b 58 1, rsvd := leAt b 59 1, tag := leAt b 60 4 }

/-- FLAGS (R165). -/
def OpDesc.acceptProv (d : OpDesc) : Bool := bitN d.flags 10
def OpDesc.record (d : OpDesc) : Bool := bitN d.flags 9
def OpDesc.signal (d : OpDesc) : Bool := bitN d.flags 8
def OpDesc.useBias (d : OpDesc) : Bool := bitN d.flags 7
def OpDesc.useC (d : OpDesc) : Bool := bitN d.flags 6
def OpDesc.sparseA (d : OpDesc) : Bool := bitN d.flags 5
def OpDesc.ovfVal (d : OpDesc) : Bool := bitN d.flags 4
def OpDesc.ovfOvr (d : OpDesc) : Bool := bitN d.flags 3
def OpDesc.ftz (d : OpDesc) : Bool := bitN d.flags 2
def OpDesc.sr (d : OpDesc) : Bool := bitN d.flags 1
def OpDesc.pmark (d : OpDesc) : Bool := bitN d.flags 0
/-- CURVE_SEL (R164). -/
def OpDesc.curveEn (d : OpDesc) : Bool := bitN d.curveSel 7
def OpDesc.mulx (d : OpDesc) : Bool := bitN d.curveSel 6
def OpDesc.fromRecord (d : OpDesc) : Bool := bitN d.curveSel 5
def OpDesc.romId (d : OpDesc) : Nat := d.curveSel % 16
def OpDesc.phase (d : OpDesc) : Nat := d.phaseByte % 64
/-- The operation is a part of a split job (R164, R185). -/
def OpDesc.isSplit (d : OpDesc) : Bool := decide (1 < d.partCount)

/-- The engine an opcode runs on (R166). -/
inductive Engine where
  | none
  | calender
  | addressGen
  | beater
deriving DecidableEq, Repr

/-- The engine of an opcode, nothing where the opcode is reserved (R166). -/
def engineOf (op : Nat) : Option Engine :=
  if op = 0 then some .none
  else if op = 1 ∨ op = 2 then some .calender
  else if op = 8 ∨ op = 9 then some .addressGen
  else if 0x10 ≤ op ∧ op ≤ 0x1D then some .beater
  else Option.none

/-- The slots an opcode may use, A to AUX: false where R166 has a dash. -/
def slotsAllowed (op : Nat) : List Bool :=
  if op = 1 ∨ op = 2 then [true, true, true, true, true, false]
  else if op = 8 ∨ op = 9 then [true, false, false, false, true, false]
  else if op = 0x10 then [true, true, true, false, true, true]
  else if op = 0x11 ∨ op = 0x12 then [true, false, false, false, true, true]
  else if op = 0x13 then [true, false, false, false, true, false]
  else if op = 0x14 then [true, true, false, true, true, false]
  else if op = 0x15 then [true, false, false, false, true, false]
  else if op = 0x16 then [true, true, true, true, true, true]
  else if op = 0x17 then [true, true, false, true, true, true]
  else if op = 0x18 then [true, false, true, true, true, true]
  else if op = 0x19 ∨ op = 0x1A then [true, true, false, false, true, false]
  else if op = 0x1B then [true, true, true, false, true, true]
  else if op = 0x1C then [true, false, false, false, true, false]
  else if op = 0x1D then [true, true, true, false, true, false]
  else [false, false, false, false, false, false]

/-- How many of the three element-wise operands a variant of EW takes (R132, R167). -/
def ewOperands (v : Nat) : Nat := if v = 3 ∨ v = 9 then 3 else 2

/-- The slots an operation uses, A to AUX. -/
def OpDesc.used (d : OpDesc) : List Bool :=
  let op := d.opcode
  let curveAux := d.curveEn && d.fromRecord
  if op = 1 ∨ op = 2 then [true, true, d.useC, d.useBias, true, false]
  else if op = 8 ∨ op = 9 then [true, false, false, false, true, false]
  else if op = 0x10 then [true, true, ewOperands d.variant == 3, false, true, curveAux]
  else if op = 0x11 ∨ op = 0x12 then [true, false, false, false, true, curveAux]
  else if op = 0x13 ∨ op = 0x15 ∨ op = 0x1C then [true, false, false, false, true, false]
  else if op = 0x14 then [true, true, false, d.useBias, true, false]
  else if op = 0x16 then [true, true, d.useC, d.useBias, true, curveAux]
  else if op = 0x17 then [true, true, false, d.useBias, true, curveAux]
  else if op = 0x18 then [true, false, true, true, true, getAt 0 d.tds 5 != 0xFFFF]
  else if op = 0x19 ∨ op = 0x1A then [true, true, false, false, true, false]
  else if op = 0x1B then [true, true, true, false, true, true]
  else if op = 0x1D then [true, true, true, false, true, false]
  else [false, false, false, false, false, false]

/-- Byte offset of the first of a list of (offset, condition that must hold) that fails. -/
def firstBad : List (Nat × Bool) → Option Nat
  | [] => none
  | (o, ok) :: l => if ok then firstBad l else some o

/-- VARIANT is valid for the opcode (R167). -/
def variantOk (op v : Nat) : Bool :=
  if op = 1 ∨ op = 0x14 ∨ op = 0x18 ∨ op = 0x19 ∨ op = 0x1B ∨ op = 0x1C then decide (v ≤ 1)
  else if op = 8 ∨ op = 9 then decide (v ≤ 4)
  else if op = 0x10 then decide (v ≤ 9)
  else if op = 0x13 then decide (v ≤ 4)
  else if op = 0x1D then decide (v ≤ 1)
  else v == 0

/-- The bits of P0 that the opcode reserves (R167). -/
def p0Rsvd (op : Nat) : Nat :=
  if op = 2 ∨ op = 0x17 then 2 ^ 14 - 1
  else if op = 0x14 ∨ op = 0x18 ∨ op = 0x1C then 0
  else 2 ^ 32 - 1

/-- The bits of P1 that the opcode reserves (R167). -/
def p1Rsvd (op : Nat) : Nat :=
  if op = 2 then 2 ^ 15 - 1
  else if op = 0x17 then 2 ^ 11 - 1
  else if op = 0x18 ∨ op = 0x1C then 0
  else 2 ^ 32 - 1

/-- The n bytes of a field from an offset, each with whether the bits of a mask are 0 in it (log entry 71). -/
def bytesClear (off n v mask : Nat) : List (Nat × Bool) :=
  (List.range n).map (fun k => (off + k, v / 256 ^ k % 256 &&& mask / 256 ^ k % 256 == 0))

/-- The n bytes of a field from an offset, each with whether it is 0xFF (log entry 71). -/
def bytesOnes (off n v : Nat) : List (Nat × Bool) := (List.range n).map (fun k => (off + k, v / 256 ^ k % 256 == 0xFF))

/-- A curve stage is well formed: allowed with five opcodes, required by CURVE, and CURVE_SEL 0 bits kept (R170). -/
def curveSelOk (d : OpDesc) : Bool :=
  let allowed := d.opcode == 0x10 || d.opcode == 0x11 || d.opcode == 0x12 || d.opcode == 0x16 || d.opcode == 0x17
  !bitN d.curveSel 4 && (!d.curveEn || allowed) && (d.opcode != 0x12 || d.curveEn)

/-- Byte 2, the low byte of FLAGS, is well formed for the opcode (R165, R170). -/
def flagsOk (d : OpDesc) : Bool :=
  let op := d.opcode
  (!d.sparseA || op == 1) && (!d.useC || op == 1 || op == 2 || op == 0x16)
    && (!d.useBias || op == 1 || op == 2 || op == 0x14 || op == 0x16 || op == 0x17)

/-- Check 2 of R171: the byte offset of the first offending byte, given the object's LIVE_REC_COUNT and cell run. -/
def badParam (d : OpDesc) (liveCount cellBase cellCount : Nat) : Option Nat :=
  let op := d.opcode
  let tdBad := (List.range 6).flatMap (fun i => if getAt false (slotsAllowed op) i then [] else bytesOnes (20 + 2 * i) 2 (getAt 0 d.tds i))
  let shape := if op = 1 ∨ op = 2 ∨ op = 0x16 ∨ op = 0x17 ∨ op = 0x1C then []
    else bytesClear 8 4 d.m (2 ^ 32 - 1) ++ bytesClear 12 4 d.n (2 ^ 32 - 1) ++ bytesClear 16 4 d.k (2 ^ 32 - 1)
  firstBad ([(1, variantOk op d.variant), (2, flagsOk d), (3, d.flags / 2 ^ 11 == 0),
    (4, decide (getAt 0 d.fmtBytes 0 < 32)), (5, decide (getAt 0 d.fmtBytes 1 < 32)),
    (6, decide (getAt 0 d.fmtBytes 2 < 32)), (7, decide (getAt 0 d.fmtBytes 3 < 32))] ++ shape ++ tdBad ++
    bytesClear 36 4 d.p0 (p0Rsvd op) ++ bytesClear 40 4 d.p1 (p1Rsvd op) ++
    (if op = 1 ∨ op = 2 then [] else bytesClear 48 2 d.kchunk 0xFFFF) ++
    [(50, decide (d.partIndex < d.partCount)), (51, decide (1 ≤ d.partCount ∧ d.partCount ≤ 64)),
     (52, !d.signal || decide (cellBase ≤ d.cell ∧ d.cell < cellBase + cellCount))] ++
    (if d.pmark then [(54, d.liveRec == 0xFFFF || decide (d.liveRec < liveCount))] else bytesOnes 54 2 d.liveRec) ++
    [(56, decide (d.phaseByte < 64)), (57, decide (d.fmtBiasByte < 32)), (58, curveSelOk d), (59, d.rsvd == 0)])

end Sys2Proof.Machine
end

