-- ==== Sys2Proof/Machine/OpCheck.lean ====
section
/-! DEFINITION. The decode checks of R171 on formats, tensors, emptiness and shapes, as functions of the descriptor copies the
Deckle sent, the format table and the object's grants. -/
namespace Sys2Proof.Machine

/-- Completion statuses of R194 (engine statuses are defined with their engines). -/
def stOk : Nat := 0x00
def stEmpty : Nat := 0x01
def stCancelled : Nat := 0x02
def stBadOpcode : Nat := 0x10
def stBadParam : Nat := 0x11
def stBadFormat : Nat := 0x12
def stBadTensor : Nat := 0x13
def stBadShape : Nat := 0x14
def stBadCurve : Nat := 0x15
def stPoisoned : Nat := 0x20
def stProvInput : Nat := 0x21
def stKvFault : Nat := 0x22
def stTierFail : Nat := 0x23
def stWatermark : Nat := 0x30
def stCheckFail : Nat := 0x31
def stParity : Nat := 0x32
def stQuarantined : Nat := 0x33

/-- Slot numbers of DETAIL (R193). -/
def slotA : Nat := 0
def slotB : Nat := 1
def slotC : Nat := 2
def slotBias : Nat := 3
def slotOut : Nat := 4
def slotAux : Nat := 5

/-- What the checks read beside the descriptor: resolved formats of slots A, B, C, BIAS and OUT, the tensor descriptors named
(none where the index is past the table), the executing cluster, the object's Vat range on it, the ranges it may read and may
write in DRAM, and the Vat windows of its partition's clusters. -/
structure OpCtx where
  fmts : List Fmt
  tds : List (Option TDesc)
  clu : Nat
  vat : Range
  reads : List Range
  writes : List Range
  windows : List Range
deriving DecidableEq, Repr

/-- The format and the descriptor of a slot. -/
def OpCtx.fmt (x : OpCtx) (s : Nat) : Fmt := getAt unusedFmt x.fmts s
def OpCtx.td (x : OpCtx) (s : Nat) : Option TDesc := getAt none x.tds s

/-- An empty descriptor, standing for a slot that is not used. -/
def noTd : TDesc := ⟨0, 0, 0, 0, 0, 0, 0, 0, 0, 0, 0, 0, 0, 0, 0, 0, 0⟩
def OpCtx.t (x : OpCtx) (s : Nat) : TDesc := (x.td s).getD noTd

/-- A slot whose element format is fixed by R754: FP32 or u32, 4 bytes. -/
def fixedSlot (op s : Nat) : Bool :=
  (op == 0x18 && (s == slotC || s == slotBias || s == slotAux)) || (op == 0x19 && (s == slotA || s == slotB || s == slotOut))
    || (op == 0x1A && (s == slotA || s == slotB))

/-- A slot that names a record: a curve record or a BOX_DECODE parameter record (R166, R173). -/
def recordSlot (op s : Nat) : Bool := s == slotAux && op != 0x18

/-- The format a slot's elements have: FP32's shape where R754 fixes it. -/
def slotFmt (x : OpCtx) (op s : Nat) : Fmt := if fixedSlot op s then resetFmt 0 else x.fmt s

/-- Check 3 for one slot: R56 and R751 by position, the KV formats of R179, the Beater kinds' own format rules. -/
def slotFormatOk (d : OpDesc) (x : OpCtx) (s : Nat) : Bool :=
  let f := x.fmt s
  let kv := (x.t s).mode == 2
  let kvOk := !kv || ((f.kind == 1 || f.kind == 2) && (f.elem == 8 || f.elem == 16))
  if fixedSlot d.opcode s || recordSlot d.opcode s then true
  else if f.kind = 0 then false
  else if s = slotBias then decide (getAt 0 d.fmts slotBias ≤ 2)
  else kvOk && (match d.opcode with
    | 1 | 2 => if s = slotA then f.calA else if s = slotB then f.calB
               else if s = slotOut then f.outOk else f.beater
    | 8 | 9 => true
    | 0x16 => if s = slotA then f.calA else if s = slotB then f.calB else if s = slotOut then f.outOk else f.beater
    | 0x18 => if s = slotA then (f == resetFmt 0 || f == resetFmt 1)
              else f == resetFmt 3 || f == resetFmt 4 || f == resetFmt 1 || f == resetFmt 2
    | 0x1B => if s = slotA then (f == resetFmt 0 || f == resetFmt 1 || f == resetFmt 2)
              else if s = slotB then f == resetFmt 0 else if s = slotOut then f.outOk else f.beater
    | 0x1C => if s = slotOut then f == resetFmt 0 else f.beater
    | 0x1D => if s = slotOut then f.outOk
              else if s = slotC then f == x.fmt slotA else f == resetFmt 0 || f == resetFmt 1 || f == resetFmt 2
    | _ => if s = slotOut then f.outOk else f.beater)

/-- Slots in DETAIL's order that an operation uses. -/
def usedSlots (d : OpDesc) : List Nat := (List.range 6).filter (fun s => getAt false d.used s)

/-- What more check 3 asks of a slot whose format is allowed there: the sparse pairing, charged to A (R171), FMT_A equal to FMT_OUT for LOAD and
STORE (R178), and OVF_OVR (R171), both charged to OUT. -/
def slotPairOk (d : OpDesc) (x : OpCtx) (s : Nat) : Bool :=
  if s = slotA then !(d.opcode == 1 && d.sparseA && slotFormatOk d x slotB) || sparseOk (x.fmt slotA) (x.fmt slotB)
  else if s = slotOut then
    !((d.opcode == 8 || d.opcode == 9) && getAt 0 d.fmts slotA != getAt 0 d.fmts slotOut)
      && !(d.ovfOvr && d.ovfVal && !fixedSlot d.opcode slotOut && (x.fmt slotOut).spec != 1)
  else true

/-- Check 3 of R171, slot by slot: none when it passes, else the slot charged. -/
def badFormat (d : OpDesc) (x : OpCtx) : Option Nat :=
  (usedSlots d).find? (fun s => !slotFormatOk d x s || !slotPairOk d x s)

/-- KCHUNK is a multiple of the granule (R169, R171). -/
def kchunkOk (d : OpDesc) (x : OpCtx) : Bool :=
  d.kchunk % kGranule (x.fmt slotA) (x.fmt slotB) d.sparseA == 0

/-- MODE values allowed in a slot (R173). -/
def modeOk (op s m : Nat) : Bool :=
  if recordSlot op s then m == 3 || m == 4
  else if (op = 8 ∧ s = slotA) ∨ (op = 9 ∧ s = slotOut) then m == 0 || m == 2
  else if op = 1 ∧ s = slotOut then m == 1 || m == 2
  else m == 1

/-- Element bytes for alignment: at least 1 (R175). -/
def elemBytes (f : Fmt) : Nat := if f.elem ≤ 8 then 1 else f.elem / 8

/-- Alignment of BASE and strides (R175). -/
def alignOf (x : OpCtx) (op s : Nat) : Nat :=
  if fixedSlot op s then 4
  else if (op = 1 ∨ op = 2) ∧ s ≠ slotBias then 64
  else if op = 0x16 ∧ s = slotC then 64
  else elemBytes (x.fmt s)

/-- The bytes a slot reaches in memory: a record's bytes, a KV tensor's slot list, or the footprint (R173, R176, R179). -/
def slotRanges (d : OpDesc) (x : OpCtx) (s : Nat) : List Range :=
  let t := x.t s
  if recordSlot d.opcode s then [(t.phys x.clu, t.d0)]
  else if t.mode = 2 then [(t.phys x.clu, 2 * t.d3)]
  else t.footprint (slotFmt x d.opcode s) x.clu (d.sparseA && s == slotA)

/-- Tokens per sheet of a KV tensor, none where it is no power of two (R179). -/
def tokensPerSheet (t : TDesc) (f : Fmt) : Option Nat :=
  let row := t.headTotal * t.d0 * elemBytes f
  if row = 0 ∨ 65536 % row ≠ 0 then none
  else let n := 65536 / row; if n = 2 ^ Nat.log2 n then some n else none

/-- Whether a list holds a value twice. -/
def hasDup : List Nat → Bool
  | [] => false
  | a :: l => l.contains a || hasDup l

/-- No two of a list of ranges share a byte. -/
def rangesApart : List Range → Bool
  | [] => true
  | a :: l => !(l.any (fun b => a.meets b)) && rangesApart l

/-- A byte range lies inside the union of grants and of the windows of the partition's clusters (R176): each step goes past the end of one of
them, so their number bounds the steps. -/
def OpCtx.granted (x : OpCtx) (gs : List Range) (r : Range) : Bool := coveredBy (gs ++ x.windows) (gs.length + x.windows.length + 1) r

/-- A slot is read, or written (R166). -/
def slotRead (op s : Nat) : Bool := s != slotOut && !(op == 0x18 && s == slotBias) || (op == 0x19 && s == slotOut)
def slotWritten (op s : Nat) : Bool :=
  s == slotOut || (op == 0x18 && (s == slotBias || s == slotC)) || (op == 0x1D && s == slotC)

/-- Check 4 for one slot of an operation (R172–R177, R179, R181); slots is the KV slot list read from the Vat. An OUT footprint that overlaps the
slot list of another slot's KV tensor is charged to OUT, whose rule it breaks (DESIGN CHOICE, log 80: R176 names no slot). -/
def tensorOk (d : OpDesc) (x : OpCtx) (slots : List Nat) (s : Nat) : Bool :=
  match x.td s with
  | none => false
  | some t =>
    let f := slotFmt x d.opcode s
    let rec' := recordSlot d.opcode s
    let sparse := d.sparseA && s == slotA
    let common := t.modeByte < 16 && t.layoutByte < 3 && modeOk d.opcode s t.mode
    let inVat := fun (r : Range) => r.2 == 0 || r.inside (vatBase x.clu + x.vat.1, x.vat.2)
    if rec' then
      common && t.layoutByte == 0 && t.d1 == 1 && t.d2 == 1 && t.d3 == 1 && t.s1 == 0 && t.s2 == 0 && t.s3 == 0
        && t.scaleOff == 0 && t.subOff == 0 && t.cbOff == 0 && t.metaOff == 0 && t.kvSel == 0 && t.startTok == 0 && t.kvHeads == 0
        && t.base % (if d.opcode = 0x1B then 32 else 64) == 0
        && (if d.opcode = 0x1B then t.d0 == 32 else decide (80 ≤ t.d0 ∧ t.d0 ≤ 1088) && t.d0 % 16 == 0)
        && (if t.mode = 4 then inVat (t.phys x.clu, t.d0) else x.granted x.reads (t.base, t.d0))
    else if t.mode = 2 then
      common && t.layoutByte == 0 && t.s1 == 0 && t.s2 == 0 && t.s3 == 0 && t.scaleOff == 0 && t.subOff == 0 && t.cbOff == 0
        && t.metaOff == 0 && t.kvSel < 2 ^ 18 && (!t.append || t.startTok == 0) && t.base % 2 == 0
        && inVat (t.phys x.clu, 2 * t.d3) && t.headBase + t.d2 ≤ t.headTotal && slots.all (· ≤ 1023)
        && (tokensPerSheet t f).isSome
        && (d.opcode != 1 || (t.append && !hasDup slots))
        && (s != slotOut || t.count == 0 || !hasDup slots)
    else
      let al := alignOf x d.opcode s
      let fp := slotRanges d x s
      common && t.base % al == 0 && t.s1 % al == 0 && t.s2 % al == 0 && t.s3 % al == 0
        && (if f.isBlock then t.scaleOff % 4 == 0 else t.scaleOff == 0)
        && (if f.sub = 1 then t.subOff % 4 == 0 else t.subOff == 0)
        && (if f.kind = 5 then t.cbOff % 32 == 0 else t.cbOff == 0)
        && (if sparse then t.metaOff % 4 == 0 else t.metaOff == 0)
        && t.kvSel == 0 && t.startTok == 0 && t.kvHeads == 0
        && (if t.mode = 1 then fp.all inVat
            else (!slotRead d.opcode s || fp.all (x.granted x.reads))
              && (!slotWritten d.opcode s || fp.all (x.granted x.writes)))
        && (s != slotOut || (rangesApart fp &&
              !((usedSlots d).any (fun s' => s' != s && rangesMeet fp (slotRanges d x s')))))

/-- Check 4 of R171. -/
def badTensor (d : OpDesc) (x : OpCtx) (slots : List Nat) : Option Nat :=
  (usedSlots d).find? (fun s => !tensorOk d x slots s)

/-- Check 5 of R171: the empty-input rule (R106, R188). -/
def isEmptyOp (d : OpDesc) (x : OpCtx) : Bool :=
  let out := x.t slotOut
  match d.opcode with
  | 1 | 2 => d.m == 0 || d.n == 0
  | 0x16 => d.m == 0
  | 0x17 => out.count == 0 || (x.t slotA).d0 == 0
  | 0x14 => out.d0 != 0 && out.count == 0
  | 0x1C => false
  | _ => out.count == 0

/-- Kernel, stride, dilation and padding of CONV and WINDOW (R167). -/
structure Geo where
  kh : Nat
  kw : Nat
  sy : Nat
  sx : Nat
  dy : Nat
  dx : Nat
  top : Nat
  bottom : Nat
  left : Nat
  right : Nat
  repl : Bool
  g : Nat
deriving DecidableEq, Repr

/-- The geometry of P0 and P1 (R167). -/
def OpDesc.geo (d : OpDesc) : Geo :=
  { kh := bitsN d.p0 31 28 + 1, kw := bitsN d.p0 27 24 + 1, sy := bitsN d.p0 23 22 + 1, sx := bitsN d.p0 21 20 + 1,
    dy := bitsN d.p0 19 17 + 1, dx := bitsN d.p0 16 14 + 1, top := bitsN d.p1 31 28, bottom := bitsN d.p1 27 24,
    left := bitsN d.p1 23 20, right := bitsN d.p1 19 16, repl := bitN d.p1 15, g := bitsN d.p1 14 11 + 1 }

/-- Output length along one axis. -/
def outLen (inp p1 p2 k dil st : Nat) : Nat :=
  let span := dil * (k - 1) + 1
  if inp + p1 + p2 < span then 0 else (inp + p1 + p2 - span) / st + 1

/-- Dimensions agree or broadcast (R178). -/
def bcast (t out : TDesc) : Bool :=
  (t.d0 == out.d0 || t.d0 == 1) && (t.d1 == out.d1 || t.d1 == 1) && (t.d2 == out.d2 || t.d2 == 1) && (t.d3 == out.d3 || t.d3 == 1)

/-- The dimensions of a descriptor are these. -/
def TDesc.dims (t : TDesc) (a b c e : Nat) : Bool := t.d0 == a && t.d1 == b && t.d2 == c && t.d3 == e

/-- Same four dimensions. -/
def sameDims (a b : TDesc) : Bool := a.dims b.d0 b.d1 b.d2 b.d3

/-- The first used slot whose condition fails. -/
def firstSlot (d : OpDesc) (l : List (Nat × Bool)) : Option Nat :=
  (l.find? (fun p => getAt false d.used p.1 && !p.2)).map Prod.fst

/-- Space-to-depth factor of a LOAD or STORE variant (R167). -/
def s2dFactor (v : Nat) : Nat := if v = 1 ∨ v = 3 then 2 else 4

/-- Check 6 of R171: shapes under R168, R178, R142, R157 and KCHUNK's bound (R169): none when it passes, else the slot. -/
def badShape (d : OpDesc) (x : OpCtx) : Option Nat :=
  let a := x.t slotA
  let b := x.t slotB
  let c := x.t slotC
  let bi := x.t slotBias
  let out := x.t slotOut
  let aux := x.t slotAux
  let elemwise := firstSlot d [(slotA, bcast a out), (slotB, bcast b out), (slotC, bcast c out), (slotBias, bcast bi out)]
  let keff := alignUp d.k (kGranule (x.fmt slotA) (x.fmt slotB) d.sparseA)
  let g := d.geo
  match d.opcode with
  | 1 =>
    let kv := out.mode == 2
    match firstSlot d [(slotA, a.dims d.k d.m 1 1), (slotB, b.dims d.k d.n 1 1), (slotC, c.dims d.n d.m 1 1),
      (slotBias, bi.dims (if d.variant % 2 = 0 then d.m else d.n) 1 1 1),
      (slotOut, if kv then d.m == out.d0 * out.d2 && d.n == out.d3 && out.d1 == 1 else out.dims d.n d.m 1 1)] with
    | some s => some s
    | none => if d.kchunk ≤ keff then none else some slotOut
  | 2 =>
    let wo := outLen a.d0 g.left g.right g.kw g.dx 1
    let ho := outLen a.d1 g.top g.bottom g.kh g.dy 1
    match firstSlot d [(slotA, a.layout == 2 && a.d3 == 1 && d.k == g.kh * g.kw * a.d2 && d.m == wo * ho),
      (slotB, b.dims d.k d.n 1 1), (slotC, c.layout == 1 && c.dims d.n wo ho 1), (slotBias, bi.dims d.n 1 1 1),
      (slotOut, out.layout == 1 && out.dims d.n wo ho 1 && g.sx == 1 && g.sy == 1)] with
    | some s => some s
    | none => if d.kchunk ≤ keff then none else some slotOut
  | 8 | 9 =>
    let f := s2dFactor d.variant
    if d.variant = 0 then (if sameDims a out then none else some slotA)
    else firstSlot d [(slotA, a.layout == 1 && !(x.fmt slotA).isBlock && (decide (d.variant ≤ 2) || a.d0 % (f * f) == 0)),
      (slotOut, out.layout == 1 && (if d.variant ≤ 2 then out.dims (f * f * a.d0) (ceilDiv a.d1 f) (ceilDiv a.d2 f) a.d3
        else out.d0 == a.d0 / (f * f) && ceilDiv out.d1 f == a.d1 && ceilDiv out.d2 f == a.d2 && out.d3 == a.d3))]
  | 0x10 | 0x11 | 0x12 => elemwise
  | 0x13 => firstSlot d [(slotA, decide (a.d0 ≤ 16777216)), (slotOut, out.dims 1 a.d1 a.d2 a.d3)]
  | 0x14 => if 1 ≤ a.d0 ∧ a.d0 ≤ 65536 then (if sameDims a out then elemwise else some slotA) else some slotA
  | 0x15 => firstSlot d [(slotA, a.d0 == out.d0 && a.d1 == out.d1 && a.d2 == out.d2), (slotOut, out.d3 == 1)]
  | 0x16 =>
    firstSlot d [(slotA, a.dims d.k d.m 1 1), (slotB, b.dims d.k 1 1 1), (slotC, c.dims d.m 1 1 1),
      (slotBias, bi.dims d.m 1 1 1), (slotOut, d.n == 1 && out.dims d.m 1 1 1)]
  | 0x17 =>
    let wo := outLen a.d1 g.left g.right g.kw g.dx g.sx
    let ho := outLen a.d2 g.top g.bottom g.kh g.dy g.sy
    let limits := decide (g.kh ≤ 11 ∧ g.kw ≤ 11 ∧ g.top ≤ 10 ∧ g.bottom ≤ 10 ∧ g.left ≤ 10 ∧ g.right ≤ 10)
    let fok := fun (f : Fmt) => f == resetFmt 0 || f == resetFmt 1 || f == resetFmt 2 || f == resetFmt 3 || f == resetFmt 4 || f == resetFmt 5
    firstSlot d [(slotA, a.layout == 1 && a.d3 == 1 && a.d0 == d.n && a.d0 % g.g == 0 && d.m == wo * ho && fok (x.fmt slotA)),
      (slotB, b.dims g.g g.kw g.kh d.n && d.k == g.kh * g.kw * g.g && fok (x.fmt slotB)), (slotBias, bi.dims d.n 1 1 1),
      (slotOut, limits && out.layout == 1 && out.dims d.n wo ho 1)]
  | 0x18 => firstSlot d [(slotA, a.d2 == 1 && a.d3 == 1), (slotC, c.dims 2 a.d1 1 1), (slotBias, bi.dims a.d1 1 1 1),
      (slotOut, out.dims a.d0 a.d1 1 1), (slotAux, aux.dims 2 a.d1 1 1)]
  | 0x19 => firstSlot d [(slotA, a.dims out.d0 out.d1 1 1), (slotB, b.dims out.d1 1 1 1), (slotOut, out.d2 == 1 && out.d3 == 1)]
  | 0x1A => firstSlot d [(slotA, a.dims out.d0 out.d1 1 1), (slotB, b.dims 2 out.d1 1 1), (slotOut, out.d2 == 1 && out.d3 == 1)]
  | 0x1B => firstSlot d [(slotA, a.dims 4 out.d1 1 1), (slotB, b.dims 4 out.d1 1 1), (slotC, c.dims 2 out.d1 1 1),
      (slotOut, out.dims 6 out.d1 1 1)]
  | 0x1C =>
    firstSlot d [(slotA, a.d0 == 6 && decide (a.d1 ≤ 65536) && a.d2 == 1 && a.d3 == 1),
      (slotOut, d.k == 0 && decide (1 ≤ d.m ∧ d.m ≤ 8192 ∧ 1 ≤ d.n ∧ d.n ≤ 1024) && out.dims 8 (d.n + 1) 1 1)]
  | 0x1D =>
    let sn := c.d0
    let lim := decide (1 ≤ a.d0 ∧ a.d0 ≤ 8192 ∧ 1 ≤ a.d1 ∧ a.d1 ≤ 256 ∧ 1 ≤ a.d2 ∧ a.d2 ≤ 4096)
    firstSlot d [(slotA, lim && a.d3 == 1),
      (slotB, b.dims ((if d.variant % 2 = 0 then a.d0 else a.d0 * sn) + 2 * sn) a.d1 a.d2 1),
      (slotC, decide (1 ≤ sn ∧ sn ≤ 64) && c.dims sn a.d0 a.d1 1), (slotOut, sameDims a out)]
  | _ => none

/-- Checks 1 to 6 of R171 in order: nothing when the operation runs, else STATUS and DETAIL. -/
def decodeCheck (d : OpDesc) (x : OpCtx) (liveCount cellBase cellCount : Nat) (slots : List Nat) : Option (Nat × Nat) :=
  match engineOf d.opcode with
  | none => some (stBadOpcode, 0)
  | some _ =>
    match badParam d liveCount cellBase cellCount with
    | some o => some (stBadParam, o)
    | none =>
      match badFormat d x with
      | some s => some (stBadFormat, s)
      | none =>
        if (d.opcode = 1 ∨ d.opcode = 2) ∧ !kchunkOk d x then some (stBadParam, 48)
        else match badTensor d x slots with
          | some s => some (stBadTensor, s)
          | none =>
            if d.opcode ≠ 0 ∧ isEmptyOp d x then some (stEmpty, 0)
            else match badShape d x with
              | some s => some (stBadShape, s)
              | none => if d.opcode = 0 then some (stOk, 0) else none

end Sys2Proof.Machine
end

