-- ==== Sys2Proof/Machine/BeaterMath.lean ====
section
/-! DEFINITION. What each Beater operation computes (chapter 04), as functions of memory and the decoded operation: the byte
writes of its results and the flags they set. -/
namespace Sys2Proof.Machine

/-- The bytes an operation writes, whether INVALID was met (R78, R79), and how many rows ATTN_NORM wrote as zero (R152). -/
structure BRes where
  writes : List (Addr × Byte)
  invalid : Bool
  zeroRows : Nat
deriving DecidableEq, Repr

/-- Results in sequence. -/
def BRes.join (l : List BRes) : BRes :=
  ⟨(l.map (·.writes)).flatten, l.any (·.invalid), sumN (l.map (·.zeroRows))⟩

/-- The bytes at consecutive addresses. -/
def atAddr (a : Addr) (bs : List Byte) : List (Addr × Byte) := (List.range bs.length).zip bs |>.map (fun p => (a + p.1, p.2))

/-- The random value of generator g's k-th conversion (R76). -/
def srRandom (seed g k : Nat) : Nat := (List.range (k + 1)).foldl (fun s _ => lfsr16 s) (srSeed seed g) % 65536

/-- The random value for element e of the Beater's output stream: generators 32–95 by index modulo 64 (R76). -/
def streamRandom (o : OutOpt) (seed e : Nat) : Nat := if o.sr then srRandom seed (32 + e % 64) (e / 64) else 0

/-- Output options of an operation (R77, R80, R165). -/
def outOpt (d : OpDesc) (f : Fmt) : OutOpt := ⟨d.sr, if d.ovfOvr then d.ovfVal else f.ovf == 1, d.ftz⟩

/-- Results of one row into memory from column c0, a multiple of 32, on (R63–R65, R174): codes packed from the lowest bits,
block scales in the scale plane; rnd gives the random value of an element by its place in vals; pad gives the open bits of
positions that hold no result. -/
def outRowFrom (c0 : Nat) (f : Fmt) (o : OutOpt) (t : TDesc) (clu r : Nat) (rnd : Nat → Nat) (pad : Nat → Nat) (vals : List Num) : BRes :=
  let i := t.rowIdx r
  let a := t.rowAddr clu i.1 i.2.1 i.2.2 + c0 / 8 * f.elem
  if f.isBlock then
    let nb := rowBlocks t.d0
    let blks := (List.range (rowBlocks vals.length)).map (fun b =>
      let vs := (vals.drop (32 * b)).take 32
      let x := f.blockScale vs
      let cs := (List.range vs.length).map (fun j => f.convertScaled o (rnd (32 * b + j)) x (getAt .zero vs j))
      let codes := cs.map Prod.fst ++ (List.range (32 - vs.length)).map (fun j => pad (r * 32 + j) % 2 ^ f.elem)
      (x, codes, cs.any Prod.snd))
    let codes := (blks.map (fun b => b.2.1)).flatten
    ⟨atAddr a (leBytes (rowBlocks vals.length * 4 * f.elem) (packCodes f.elem codes)) ++
        atAddr (t.phys clu + t.scaleOff + r * nb + c0 / 32) (blks.map (fun b => BitVec.ofNat 8 b.1)), blks.any (fun b => b.2.2), 0⟩
  else
    let cs := (List.range vals.length).map (fun j => f.convert o (rnd j) (getAt .zero vals j))
    let n := ceilDiv (f.elem * vals.length) 8
    let extra := pad r * 2 ^ (f.elem * vals.length)
    ⟨atAddr a (leBytes n (packCodes f.elem (cs.map Prod.fst) + extra)), cs.any Prod.snd, 0⟩

/-- A whole row of results into memory. -/
def outRow (f : Fmt) (o : OutOpt) (t : TDesc) (clu r : Nat) (rnd : Nat → Nat) (pad : Nat → Nat) (vals : List Num) : BRes :=
  outRowFrom 0 f o t clu r rnd pad vals

/-- A whole result tensor, row by row, with the Beater's stream of generators (R76). -/
def outTensor (d : OpDesc) (f : Fmt) (t : TDesc) (clu : Nat) (pad : Nat → Nat) (val : Nat → Nat → Num) : BRes :=
  let o := outOpt d f
  BRes.join ((List.range t.rows).map (fun r =>
    outRow f o t clu r (fun j => streamRandom o d.seed (r * t.d0 + j)) pad ((List.range t.d0).map (val r))))

/-- Value of slot s at place i0 of the row that OUT's row r broadcasts to (R178). -/
def slotVal (rd : Rd) (d : OpDesc) (x : OpCtx) (s r i0 : Nat) : Num :=
  let out := x.t slotOut
  let t := x.t s
  let i := out.rowIdx r
  let j1 := if t.d1 = 1 then 0 else i.1
  let j2 := if t.d2 = 1 then 0 else i.2.1
  let j3 := if t.d3 = 1 then 0 else i.2.2
  elemAt rd (slotFmt x d.opcode s) t x.clu ((j3 * t.d2 + j2) * t.d1 + j1) (if t.d0 = 1 then 0 else i0)

/-- Element i0 of row r of a slot, indices as they stand. -/
def slotAt (rd : Rd) (d : OpDesc) (x : OpCtx) (s r i0 : Nat) : Num := elemAt rd (slotFmt x d.opcode s) (x.t s) x.clu r i0

/-- The operation works on integers only, in 256-element mode, whose arithmetic is exact (R126, R127). -/
def intMode (d : OpDesc) (x : OpCtx) (ss : List Nat) : Bool :=
  (slotOut :: ss).all (fun s => (x.fmt s).kind == 1) && !d.curveEn

/-- The optional curve stage (R127): value rounded to FP32 before it, ROM or record curve, MULX. -/
def curveStage (d : OpDesc) (rec' : List Byte) (v : Num) : Num :=
  if d.curveEn then (if d.fromRecord then curveEval (curveOf rec') d.mulx v else romEval d.romId d.mulx v) else v

/-- One element of EW (R132). -/
def ewValue (v : Nat) (a b c : Num) : Num :=
  let flag := fun (p : Bool) => Num.ofNat (b2n p)
  if v = 0 then a.add b
  else if v = 1 then a.sub b
  else if v = 2 then a.mul b
  else if v = 3 then (a.mul b).add c
  else if v = 4 then a.min b
  else if v = 5 then a.max b
  else if v = 6 then flag (a.eqv b)
  else if v = 7 then flag (a.lt b)
  else if v = 8 then flag (a.le b)
  else if a.isZero then c else b

/-- EW (R132). -/
def ewResult (rd : Rd) (pad : Nat → Nat) (rec' : List Byte) (d : OpDesc) (x : OpCtx) : BRes :=
  let three := ewOperands d.variant == 3
  let exact := intMode d x (if three then [slotA, slotB, slotC] else [slotA, slotB])
  outTensor d (x.fmt slotOut) (x.t slotOut) x.clu pad (fun r i =>
    let v := ewValue d.variant (slotVal rd d x slotA r i) (slotVal rd d x slotB r i)
      (if three then slotVal rd d x slotC r i else .zero)
    if exact then v else curveStage d rec' (rne32 v))

/-- CONVERT (R127, R132): no arithmetic stage; rounded to FP32 only before a curve. -/
def convertResult (rd : Rd) (pad : Nat → Nat) (rec' : List Byte) (d : OpDesc) (x : OpCtx) : BRes :=
  outTensor d (x.fmt slotOut) (x.t slotOut) x.clu pad (fun r i =>
    let v := slotVal rd d x slotA r i
    if d.curveEn then curveStage d rec' (rne32 v) else v)

/-- CURVE (R132, R139). -/
def curveResult (rd : Rd) (pad : Nat → Nat) (rec' : List Byte) (d : OpDesc) (x : OpCtx) : BRes :=
  outTensor d (x.fmt slotOut) (x.t slotOut) x.clu pad (fun r i => curveStage d rec' (rne32 (slotVal rd d x slotA r i)))

/-- Index of the first maximum of a row, or of the first NaN (R133). -/
def argMax : Nat → Option (Nat × Num) → List Num → Option Nat
  | _, best, [] => best.map Prod.fst
  | i, best, v :: vs =>
    if v.isNan then some i
    else match best with
      | none => argMax (i + 1) (some (i, v)) vs
      | some (k, m) => if m.lt v then argMax (i + 1) (some (i, v)) vs else argMax (i + 1) (some (k, m)) vs

/-- One row of REDUCE (R133): exact in integer mode, one rounding a step else. -/
def reduceRow (v : Nat) (exact : Bool) (row : List Num) : Num :=
  let rnd := fun (y : Num) => if exact then y else rne32 y
  if v = 0 then row.foldl (fun s e => rnd (s.add e)) .zero
  else if v = 1 then row.foldl (fun s e => rnd ((e.mul e).add s)) .zero
  else if v = 2 then rnd (row.foldl Num.max (.inf true))
  else if v = 3 then rnd (row.foldl Num.min (.inf false))
  else match argMax 0 none row with
    | some i => rne32 (.ofNat i)
    | none => .ofInt (-1)

/-- REDUCE (R133). -/
def reduceResult (rd : Rd) (pad : Nat → Nat) (d : OpDesc) (x : OpCtx) : BRes :=
  let exact := intMode d x [slotA]
  outTensor d (x.fmt slotOut) (x.t slotOut) x.clu pad (fun r _ =>
    reduceRow d.variant exact ((List.range (x.t slotA).d0).map (slotAt rd d x slotA r)))

/-- NORM (R132): mean, variance in a second pass, rsqrt by ROM curve 3, gain and bias in the scale-and-bias stage. R132 does not say whether the
product of the sum of squares with 1/n and the sum with ε are one fused stage: the model rounds the product, then the sum (DESIGN CHOICE, log 24). -/
def normResult (rd : Rd) (pad : Nat → Nat) (d : OpDesc) (x : OpCtx) : BRes :=
  let n := (x.t slotA).d0
  let inv := div32 (.ofNat 1) (.ofNat n)
  let eps := f32 d.p0
  outTensor d (x.fmt slotOut) (x.t slotOut) x.clu pad (fun r i =>
    let row := (List.range n).map (slotAt rd d x slotA r)
    let mean := if d.variant = 0 then mul32 (reduceRow 0 false row) inv else .zero
    let diff := fun (e : Num) => if d.variant = 0 then sub32 e mean else e
    let ss := row.foldl (fun s e => let y := diff e; fma32 y y s) .zero
    let rs := romEval 3 false (add32 (mul32 ss inv) eps)
    let y := mul32 (diff (getAt .zero row i)) rs
    let gain := slotVal rd d x slotB r i
    if d.useBias then fma32 y gain (slotVal rd d x slotBias r i) else mul32 y gain)

/-- SPLITK_SUM (R72): chunks in increasing DIM3 index, one rounding per addition. -/
def splitkResult (rd : Rd) (pad : Nat → Nat) (d : OpDesc) (x : OpCtx) : BRes :=
  let a := x.t slotA
  outTensor d (x.fmt slotOut) (x.t slotOut) x.clu pad (fun r i =>
    match (List.range a.d3).map (fun q => slotAt rd d x slotA (q * a.d2 * a.d1 + r) i) with
    | [] => .zero
    | v :: vs => vs.foldl add32 (rne32 v))

/-- β·C then bias, each with one rounding (R71, R134). -/
def betaBias (d : OpDesc) (c bias : Num) (acc : Num) : Num :=
  let y := if d.useC then fma32 (f32 d.beta) c acc else acc
  if d.useBias then add32 y bias else y

/-- DOT (R134). -/
def dotResult (rd : Rd) (pad : Nat → Nat) (rec' : List Byte) (d : OpDesc) (x : OpCtx) : BRes :=
  outTensor d (x.fmt slotOut) (x.t slotOut) x.clu pad (fun _ i =>
    let acc := (List.range d.k).foldl (fun s k => fma32 (slotAt rd d x slotA i k) (slotAt rd d x slotB 0 k) s) .zero
    let c := if d.useC then slotAt rd d x slotC 0 i else .zero
    let b := if d.useBias then slotAt rd d x slotBias 0 i else .zero
    curveStage d rec' (betaBias d c b acc))

/-- One activation tap of the window path: inside, replicated edge, or zero padding (R142). -/
def windowTap (rd : Rd) (d : OpDesc) (x : OpCtx) (g : Geo) (iy ix : Int) (c : Nat) : Num :=
  let a := x.t slotA
  let inside := decide (0 ≤ iy ∧ iy < (a.d2 : Int) ∧ 0 ≤ ix ∧ ix < (a.d1 : Int))
  if inside then slotAt rd d x slotA (iy.toNat * a.d1 + ix.toNat) c
  else if g.repl then
    slotAt rd d x slotA ((clampI 0 ((a.d2 : Int) - 1) iy).toNat * a.d1 + (clampI 0 ((a.d1 : Int) - 1) ix).toNat) c
  else .zero

/-- WINDOW (R142, R143). -/
def windowResult (rd : Rd) (pad : Nat → Nat) (rec' : List Byte) (d : OpDesc) (x : OpCtx) : BRes :=
  let g := d.geo
  let out := x.t slotOut
  outTensor d (x.fmt slotOut) out x.clu pad (fun r c =>
    let ox := r % out.d1
    let oy := r / out.d1
    let taps := (List.range g.kh).flatMap (fun ky => (List.range g.kw).flatMap (fun kx => (List.range g.g).map (fun gi => (ky, kx, gi))))
    let acc := taps.foldl (fun s p =>
      let iy : Int := ((oy * g.sy + p.1 * g.dy : Nat) : Int) - (g.top : Int)
      let ix : Int := ((ox * g.sx + p.2.1 * g.dx : Nat) : Int) - (g.left : Int)
      let w := slotAt rd d x slotB ((c * g.kh + p.1) * g.kw + p.2.1) p.2.2
      fma32 (windowTap rd d x g iy ix (c / g.g * g.g + p.2.2)) w s) .zero
    let v := if d.useBias then add32 acc (slotAt rd d x slotBias 0 c) else acc
    curveStage d rec' v)

/-- The bytes of an FP32 result at an element of a fixed-format slot (R754). -/
def fixedWrite (x : OpCtx) (s r i0 : Nat) (v : Num) : List (Addr × Byte) :=
  let t := x.t s
  let i := t.rowIdx r
  atAddr (t.rowAddr x.clu i.1 i.2.1 i.2.2 + 4 * i0) (leBytes 4 (f32w v))

/-- Whether column j of row r of a key block is masked (R150, R167). -/
def attnMasked (rd : Rd) (d : OpDesc) (x : OpCtx) (r j : Nat) : Bool :=
  let causal := d.variant % 2 == 1
  match x.td slotAux with
  | none => causal && decide (r < d.p1 + j)
  | some t =>
    let a := t.rowAddr x.clu r 0 0
    let len := rdNat rd a 4
    let qpos := rdNat rd (a + 4) 4
    decide (len ≤ d.p1 + j) || (causal && decide (qpos < d.p1 + j))

/-- One row of ATTN_EXP (R150, R151): the weights before conversion, and the new m, l and c as functions of the converted sum. -/
def attnRow (rd : Rd) (d : OpDesc) (x : OpCtx) (pad : Nat → Nat) (r : Nat) : BRes :=
  let n := (x.t slotA).d0
  let scale := f32 d.p0
  let m := slotAt rd d x slotC r 0
  let l := slotAt rd d x slotC r 1
  let ts := (List.range n).map (fun j => if attnMasked rd d x r j then Num.inf true else rne32 ((slotAt rd d x slotA r j).mul scale))
  let bad := m.isNan || l.isNan || ts.any Num.isNan
  let mNew := ts.foldl Num.max m
  let f := x.fmt slotOut
  let o := outOpt d f
  let rnd := fun j => streamRandom o d.seed (r * n + j)
  let empty := mNew == .inf true
  let ps := if bad then ts.map (fun _ => Num.nan) else if empty then ts.map (fun _ => Num.zero)
    else ts.map (fun t => romEval 0 false (sub32 t mNew))
  let conv := (List.range n).map (fun j => f.elemValue [] (f.convert o (rnd j) (getAt .zero ps j)).1)
  let sum := conv.foldl add32 .zero
  let c := if bad then Num.nan else if empty then .ofNat 1 else romEval 0 false (sub32 m mNew)
  let row := outRow f o (x.t slotOut) x.clu r rnd pad ps
  let state := if bad then fixedWrite x slotC r 0 .nan ++ fixedWrite x slotC r 1 .nan
    else if empty then []
    else fixedWrite x slotC r 0 mNew ++ fixedWrite x slotC r 1 (fma32 l c sum)
  ⟨row.writes ++ state ++ fixedWrite x slotBias 0 r c, row.invalid, 0⟩

/-- ATTN_EXP (R150). -/
def attnExpResult (rd : Rd) (pad : Nat → Nat) (d : OpDesc) (x : OpCtx) : BRes :=
  BRes.join ((List.range (x.t slotA).d1).map (attnRow rd d x pad))

/-- ATTN_MERGE (R152). O is written as its FP32 result stands: whether FTZ, OVF_OVR and SR act on it the rule does not say, and here none of them
does (DESIGN CHOICE, log 80). -/
def attnMergeResult (rd : Rd) (d : OpDesc) (x : OpCtx) : BRes :=
  let out := x.t slotOut
  ⟨(List.range out.d1).flatMap (fun r => (List.range out.d0).flatMap (fun i =>
    let ob := slotAt rd d x slotA r i
    let v := if d.variant % 2 = 1 then ob else fma32 (slotAt rd d x slotOut r i) (slotAt rd d x slotB 0 r) ob
    fixedWrite x slotOut r i v)), false, 0⟩

/-- ATTN_NORM (R152). -/
def attnNormResult (rd : Rd) (pad : Nat → Nat) (d : OpDesc) (x : OpCtx) : BRes :=
  let out := x.t slotOut
  let zero := fun r => slotAt rd d x slotB r 1 == Num.fin false 0 fp32.minLsb
  let res := outTensor d (x.fmt slotOut) out x.clu pad (fun r i =>
    if zero r then .zero else mul32 (slotAt rd d x slotA r i) (romEval 2 false (slotAt rd d x slotB r 1)))
  { res with zeroRows := ((List.range out.d1).filter zero).length }

/-- LOG2E of R153. -/
def log2e : Num := f32 0x3FB8AA3B

/-- BOX_DECODE of one candidate (R153): x1, y1, x2, y2, score, class. -/
def boxDecodeRow (rd : Rd) (prm : List Byte) (d : OpDesc) (x : OpCtx) (r : Nat) : List Num :=
  let dl := fun i => slotAt rd d x slotA r i
  let an := fun i => slotAt rd d x slotB r i
  let cx := fma32 (mul32 (dl 0) (f32At prm 0)) (an 2) (an 0)
  let cy := fma32 (mul32 (dl 1) (f32At prm 4)) (an 3) (an 1)
  let gw := romEval 0 false (mul32 ((mul32 (dl 2) (f32At prm 8)).min (f32At prm 16)) log2e)
  let gh := romEval 0 false (mul32 ((mul32 (dl 3) (f32At prm 12)).min (f32At prm 16)) log2e)
  let half := fun (v : Num) => rne32 (v.scale (-1))
  let hw := half (mul32 (an 2) gw)
  let hh := half (mul32 (an 3) gh)
  let clip := fun (v lim : Num) => if d.variant % 2 = 1 then (v.max .zero).min lim else v
  let iw := f32At prm 20
  let ih := f32At prm 24
  [clip (sub32 cx hw) iw, clip (sub32 cy hh) ih, clip (add32 cx hw) iw, clip (add32 cy hh) ih,
    slotAt rd d x slotC r 0, slotAt rd d x slotC r 1]

/-- BOX_DECODE (R153). -/
def boxDecodeResult (rd : Rd) (pad : Nat → Nat) (prm : List Byte) (d : OpDesc) (x : OpCtx) : BRes :=
  outTensor d (x.fmt slotOut) (x.t slotOut) x.clu pad (fun r i => getAt .zero (boxDecodeRow rd prm d x r) i)

/-- A candidate of the Sieve: source index, corners, score, class. -/
structure Cand where
  idx : Nat
  x1 : Num
  y1 : Num
  x2 : Num
  y2 : Num
  score : Num
  cls : Nat
deriving DecidableEq, Repr

/-- Insertion by descending score, earlier source index first among equals (R155). -/
def candInsert (c : Cand) : List Cand → List Cand
  | [] => [c]
  | b :: l => if b.score.lt c.score then c :: b :: l else b :: candInsert c l

/-- Candidates in the order of R155. -/
def candSort (l : List Cand) : List Cand := l.foldl (fun acc c => candInsert c acc) []

/-- Area of a box (R156). -/
def boxArea (c : Cand) : Num := mul32 (Num.zero.max (sub32 c.x2 c.x1)) (Num.zero.max (sub32 c.y2 c.y1))

/-- Candidate b overlaps candidate a beyond the threshold (R156). -/
def overlaps (t : Num) (a b : Cand) : Bool :=
  let iw := Num.zero.max (sub32 (a.x2.min b.x2) (a.x1.max b.x1))
  let ih := Num.zero.max (sub32 (a.y2.min b.y2) (a.y1.max b.y1))
  let inter := mul32 iw ih
  let union := sub32 (add32 (boxArea a) (boxArea b)) inter
  if union.le .zero then false else (mul32 t union).lt inter

/-- Emission and suppression (R157): emitted boxes, suppressed count, and whether MAX_OUT stopped it with candidates left. -/
def nmsLoop (t : Num) (agnostic : Bool) : Nat → List Cand → List Cand → Nat → List Cand × Nat × Bool
  | _, [], out, sup => (out.reverse, sup, false)
  | 0, _ :: _, out, sup => (out.reverse, sup, true)
  | n + 1, c :: rest, out, sup =>
    let hit := fun (b : Cand) => (agnostic || b.cls == c.cls) && overlaps t c b
    let kept := rest.filter (fun b => !hit b)
    nmsLoop t agnostic n kept (c :: out) (sup + (rest.length - kept.length))

/-- NMS (R154–R157): header and records. The spec does not say how an element of the candidate tensor becomes the 16-bit class: the model takes its
floor, a negative value as 0, modulo 65,536 (DESIGN CHOICE, log 23). -/
def nmsResult (rd : Rd) (d : OpDesc) (x : OpCtx) : BRes :=
  let a := x.t slotA
  let out := x.t slotOut
  let all := (List.range a.d1).map (fun r =>
    let v := fun i => slotAt rd d x slotA r i
    (⟨r, rne32 (v 0), rne32 (v 1), rne32 (v 2), rne32 (v 3), rne32 (v 4), (v 5).floor.toNat % 65536⟩ : Cand))
  let isBad := fun (c : Cand) => c.score.isNan || c.x1.isNan || c.y1.isNan || c.x2.isNan || c.y2.isNan
  let good := all.filter (fun c => !isBad c && (f32 d.p1).le c.score)
  let sorted := candSort good
  let kept := sorted.take d.m
  let res := nmsLoop (f32 d.p0) (d.variant % 2 == 1) d.n kept [] 0
  let header := leBytes 4 res.1.length ++ leBytes 4 res.2.1 ++ leBytes 4 (sorted.length - kept.length)
    ++ leBytes 4 (all.filter isBad).length ++ leBytes 1 (b2n res.2.2) ++ leBytes 15 0
  let record := fun (c : Cand) => leBytes 4 (f32w c.x1) ++ leBytes 4 (f32w c.y1) ++ leBytes 4 (f32w c.x2) ++ leBytes 4 (f32w c.y2)
    ++ leBytes 4 (f32w c.score) ++ leBytes 4 c.idx ++ leBytes 2 c.cls ++ leBytes 6 0
  let rows := header :: res.1.map record
  ⟨((List.range rows.length).map (fun r => atAddr (out.rowAddr x.clu r 0 0) (getAt [] rows r))).flatten, false, 0⟩

/-- One draw from the Beater's generators, by element index modulo 64 (R76). -/
def drawGen (o : OutOpt) (gens : List Nat) (i : Nat) : Nat × List Nat :=
  if o.sr then let v := lfsr16 (getAt 1 gens (i % 64)); (v % 65536, setAt gens (i % 64) v) else (0, gens)

/-- STATE_STEP of one channel at one token (R298): the state row after it, y and the generators. -/
def stateChannel (fc : Fmt) (o : OutOpt) (a b c : Nat → Num) (x : Num) (base : Nat) (st : List Num) (gens : List Nat) :
    List Num × Num × List Nat :=
  let res := (List.range st.length).foldl (fun (acc : List Num × List Nat) n =>
    let g := drawGen o acc.2 (base + n)
    let v := fma32 (a n) (getAt .zero st n) (mul32 x (b n))
    (acc.1 ++ [fc.elemValue [] (fc.convert o g.1 v).1], g.2)) ([], gens)
  (res.1, (List.range st.length).foldl (fun acc n => fma32 (c n) (getAt .zero res.1 n) acc) .zero, res.2)

/-- STATE_STEP (R297, R298): each stream row, each token, each channel in ascending order; the state is written in place. -/
def stateStepResult (rd : Rd) (pad : Nat → Nat) (d : OpDesc) (x : OpCtx) : BRes :=
  let out := x.t slotOut
  let cT := x.t slotC
  let fc := x.fmt slotC
  let fo := x.fmt slotOut
  let sn := cT.d0
  let aLen := if d.variant % 2 = 0 then out.d0 else out.d0 * sn
  let oc := outOpt d fc
  let oo := outOpt d fo
  let rowStep := fun (gens : List Nat) (r : Nat) =>
    let st0 := (List.range out.d0).map (fun ch => (List.range sn).map (fun n => slotAt rd d x slotC (r * out.d0 + ch) n))
    let fin := (List.range out.d2).foldl (fun (acc : List (List Num) × List BRes × List Nat) t =>
      let row := t * out.d1 + r
      let co := slotAt rd d x slotB row
      let tok := (List.range out.d0).foldl (fun (u : List (List Num) × List Num × List Nat × List Nat) ch =>
        let res := stateChannel fc oc (fun n => co (if d.variant % 2 = 0 then ch else ch * sn + n)) (fun n => co (aLen + n))
          (fun n => co (aLen + sn + n)) (slotAt rd d x slotA row ch) (ch * sn) (getAt [] acc.1 ch) u.2.2.2
        let g := drawGen oo res.2.2 (row * out.d0 + ch)
        (u.1 ++ [res.1], u.2.1 ++ [res.2.1], u.2.2.1 ++ [g.1], g.2)) ([], [], [], acc.2.2)
      (tok.1, acc.2.1 ++ [outRow fo oo out x.clu row (fun j => getAt 0 tok.2.2.1 j) pad tok.2.1], tok.2.2.2)) (st0, [], gens)
    (fin.2.1 ++ (List.range out.d0).map (fun ch => outRow fc oc cT x.clu (r * out.d0 + ch) (fun _ => 0) pad (getAt [] fin.1 ch)), fin.2.2)
  let gens0 := (List.range 64).map (fun i => srSeed d.seed (32 + i))
  BRes.join ((List.range out.d1).foldl (fun (acc : List BRes × List Nat) r =>
    let y := rowStep acc.2 r; (acc.1 ++ y.1, y.2)) ([], gens0)).1

end Sys2Proof.Machine
end

