-- ==== Sys2Proof/Machine/CalMath.lean ====
section
/-! DEFINITION. What the Calender computes (chapters 02, 03): work-cycle counts, the operands of a k position, one accumulation
step of a chain, the check comparison of a row, and the row a drain writes. -/
namespace Sys2Proof.Machine

/-- Accumulators of one logical row: the output cells, the check cell, and the largest magnitude met (R82, R93, R112). -/
structure RowAcc where
  accs : List Num
  chk : Num
  mx : Num
deriving DecidableEq, Repr

/-- The K granule, padded K, work cycles and accumulation steps of a chain (R95, R105). -/
def calG (d : OpDesc) (x : OpCtx) : Nat := kGranule (x.fmt slotA) (x.fmt slotB) d.sparseA
def calKeff (d : OpDesc) (x : OpCtx) : Nat := alignUp d.k (calG d x)
def calSteps (d : OpDesc) (x : OpCtx) : Nat := calKeff d x / kPerStep (x.fmt slotA) (x.fmt slotB) d.sparseA
def calT (d : OpDesc) (x : OpCtx) : Nat := calSteps d x * cyclesPerStep (x.fmt slotA) (x.fmt slotB)

/-- Tiles of the result: row tiles of 256 along M, column tiles of 32 along N; chain c has row tile c mod and column tile c div
the number of row tiles (R105, R752). -/
def calRowTiles (d : OpDesc) : Nat := ceilDiv d.m 256
def calColTiles (d : OpDesc) : Nat := ceilDiv d.n 32
def calChains (d : OpDesc) : Nat := calRowTiles d * calColTiles d
def tileRow0 (d : OpDesc) (c : Nat) : Nat := c % calRowTiles d * 256
def tileCol0 (d : OpDesc) (c : Nat) : Nat := c / calRowTiles d * 32
def tileRows (d : OpDesc) (c : Nat) : Nat := Nat.min 256 (d.m - tileRow0 d c)
def tileCols (d : OpDesc) (c : Nat) : Nat := Nat.min 32 (d.n - tileCol0 d c)

/-- Cleared accumulators of a chain (R98). -/
def clearRows (d : OpDesc) (c : Nat) : List RowAcc :=
  (List.range (tileRows d c)).map (fun _ => ⟨(List.range (tileCols d c)).map (fun _ => Num.zero), .zero, .zero⟩)

/-- A[i, k] (R94, R109, R146): the implicit GEMM reads in[oy + ky·dy − top, ox + kx·dx − left, c], padding without a read. -/
def calA (rd : Rd) (d : OpDesc) (x : OpCtx) (i k : Nat) : Num :=
  let a := x.t slotA
  if d.opcode = 2 then
    let g := d.geo
    let c := k % a.d2
    let kx := k / a.d2 % g.kw
    let ky := k / a.d2 / g.kw
    let wo := (x.t slotOut).d1
    let iy : Int := ((i / wo + ky * g.dy : Nat) : Int) - (g.top : Int)
    let ix : Int := ((i % wo + kx * g.dx : Nat) : Int) - (g.left : Int)
    let cy := clampI 0 ((a.d1 : Int) - 1) iy
    let cx := clampI 0 ((a.d0 : Int) - 1) ix
    if cy = iy ∧ cx = ix then elemAt rd (x.fmt slotA) a x.clu (c * a.d1 + iy.toNat) ix.toNat
    else if g.repl then elemAt rd (x.fmt slotA) a x.clu (c * a.d1 + cy.toNat) cx.toNat
    else .zero
  else if d.sparseA then sparseAt rd (x.fmt slotA) a x.clu i k
  else elemAt rd (x.fmt slotA) a x.clu i k

/-- B[k, j] (R94, R178). -/
def calB (rd : Rd) (d : OpDesc) (x : OpCtx) (k j : Nat) : Num := let _ := d; elemAt rd (x.fmt slotB) (x.t slotB) x.clu j k

/-- s_k: the exact sum of the tile's B[k, j], rounded once (R112). -/
def checkTerm (bs : List Num) : Num := rne32 (Num.sumFrom .zero bs)

/-- The larger of two magnitudes; NaNs and infinities pass through (R82, R84). -/
def maxMagN (a b : Num) : Num := if b.isNan || a.lt b.abs then b.abs else a

/-- One accumulation step of a cell: the exact sum of the products and the accumulator, rounded once (R71). -/
def cellStep (acc : Num) (ps : List Num) : Num := rne32 (Num.sumFrom acc ps)

/-- The k positions of step w: padding positions past K give zero products (R64, R95). -/
def stepKs (d : OpDesc) (x : OpCtx) (w : Nat) : List Nat :=
  let n := kPerStep (x.fmt slotA) (x.fmt slotB) d.sparseA
  (List.range n).map (fun j => w * n + j)

/-- One accumulation step of a tile (R71, R94, R112). -/
def tileStep (rd : Rd) (d : OpDesc) (x : OpCtx) (c w : Nat) (rows : List RowAcc) : List RowAcc :=
  let ks := stepKs d x w
  let cols := List.range (tileCols d c)
  let bs := ks.map (fun k => (decide (k < d.k), if k < d.k then cols.map (fun j => calB rd d x k (tileCol0 d c + j)) else []))
  let sk := bs.map (fun b => if b.1 then checkTerm b.2 else .zero)
  (List.range rows.length).map (fun r =>
    let row := getAt ⟨[], .zero, .zero⟩ rows r
    let as := ks.map (fun k => if k < d.k then calA rd d x (tileRow0 d c + r) k else .zero)
    let prods := fun j => (List.range ks.length).map (fun i =>
      let b := getAt (false, []) bs i
      if b.1 then (getAt .zero as i).mul (getAt .zero b.2 j) else Num.zero)
    let chkPs := (List.range ks.length).map (fun i => (getAt .zero as i).mul (getAt .zero sk i))
    let accs := cols.map (fun j => cellStep (getAt .zero row.accs j) (prods j))
    let chk := cellStep row.chk chkPs
    let mags := (cols.map prods).flatten ++ chkPs ++ accs ++ [chk]
    ⟨accs, chk, mags.foldl maxMagN row.mx⟩)

/-- The outcome of a row's check comparison (R82, R84, R113). -/
inductive RowCheck where
  | pass
  | skip
  | fail
deriving DecidableEq, Repr

/-- The comparison of R82: |D| ≤ (c·P + 2) × ulp(Mx), not made when a value is NaN or infinite. -/
def rowCheck (cTol p : Nat) (row : RowAcc) : RowCheck :=
  if (row.chk :: row.accs).all Num.isFin then
    let dlt := ((Num.sumFrom .zero row.accs).sub row.chk).abs
    let lim := (Num.ofNat (cTol * p + 2)).mul (ulp32 row.mx)
    if dlt.le lim then .pass else .fail
  else .skip

/-- A row with its padded columns, whose accumulators hold zeros (R82, R108). -/
def RowAcc.padded (row : RowAcc) : RowAcc := { row with accs := row.accs ++ List.replicate (32 - row.accs.length) .zero }

/-- An upset of one cell: the FP32 word of the cell at (row, column) has the bits of mask inverted; column 32 is the check cell. -/
def upsetRow (r : Nat) (ups : List (Nat × Nat × Nat)) (row : RowAcc) : RowAcc :=
  ups.foldl (fun a u =>
    if u.1 = r then
      (if u.2.1 = 32 then { a with chk := f32 (Nat.xor (f32w a.chk) u.2.2 % 2 ^ 32) }
       else { a with accs := setAt a.accs u.2.1 (f32 (Nat.xor (f32w (getAt .zero a.accs u.2.1)) u.2.2 % 2 ^ 32)) })
    else a) row

/-- The values a drained row converts: β·C, then bias, each rounded once (R71, R178). -/
def drainValues (rd : Rd) (d : OpDesc) (x : OpCtx) (c r : Nat) (row : RowAcc) : List Num :=
  let i := tileRow0 d c + r
  (List.range row.accs.length).map (fun j =>
    let col := tileCol0 d c + j
    let cv := if d.useC then slotAt rd d x slotC i col else .zero
    let bv := if d.useBias then slotAt rd d x slotBias 0 (if d.opcode = 1 ∧ d.variant % 2 = 0 then i else col) else .zero
    betaBias d cv bv (getAt .zero row.accs j))

/-- How many rows of earlier chains converted column position j: the place drain generator j has reached (R76, R752). -/
def drainCount (d : OpDesc) (c j : Nat) : Nat :=
  sumN ((List.range c).map (fun e => if j < tileCols d e then tileRows d e else 0))

/-- The random value of column position j of row r of chain c (R76, R752). -/
def drainRandom (d : OpDesc) (c r j : Nat) : Nat := if d.sr then srRandom d.seed j (drainCount d c j + r) else 0

/-- The bytes of one drained row of a VAT tensor (R101, R108). -/
def drainRow (rd : Rd) (pad : Nat → Nat) (d : OpDesc) (x : OpCtx) (c r : Nat) (row : RowAcc) : BRes :=
  let f := x.fmt slotOut
  outRowFrom (tileCol0 d c) f (outOpt d f) (x.t slotOut) x.clu (tileRow0 d c + r) (drainRandom d c r) pad
    (drainValues rd d x c r row)

/-- The codes of one drained row of a KV-mode result, one per sequence (R181), and INVALID. -/
def drainCodes (rd : Rd) (d : OpDesc) (x : OpCtx) (c r : Nat) (row : RowAcc) : List Nat × Bool :=
  let f := x.fmt slotOut
  let vs := drainValues rd d x c r row
  let cs := (List.range vs.length).map (fun j => f.convert (outOpt d f) (drainRandom d c r j) (getAt .zero vs j))
  (cs.map Prod.fst, cs.any Prod.snd)

end Sys2Proof.Machine
end

