-- ==== Sys2Proof/Machine/Units.lean ====
section
/-! DEFINITION. The state each unit holds beside its registers, as plain records: blocks of memory, operations, clusters, queues
and tasks, program objects, sequence slots and batches, page moves, integrity. -/
namespace Sys2Proof.Machine

/-! ## Memory -/

/-- What a block's metadata entry holds beside its watermark (R322): last writer, its epoch, and the three tags. -/
structure BlockTag where
  writer : Nat
  epoch : Nat
  fill : Bool
  prov : Bool
  poison : Bool
deriving DecidableEq, Repr

/-- The entry of a block nothing has written since initialisation (R351). -/
def BlockTag.init : BlockTag := ⟨0xFF, 0, false, false, false⟩

/-! ## Operations -/

/-- Where a cluster operation stands: sent to the cluster, accepted, in its lane phase, in the pipeline, or stopped with its
status decided. -/
inductive OpPhase where
  | sent
  | accepted
  | lanes
  | pipe
  | ended
deriving DecidableEq, Repr

/-- An operation in flight: its identity, the queue, ring count and object it came from, its descriptor and tensor descriptor
copies (R177), the task it belongs to (R193), the sequence lengths at dispatch (R179), what is known of its outcome, and the
blocks it has written (R190). -/
structure Op where
  id : Nat
  queue : Nat
  slot : Nat
  handle : Nat
  part : Nat
  clu : Nat
  task : Nat
  bytes : List Byte
  tds : List (Option (List Byte))
  kvLens : List (Nat × Nat)
  overdue : Bool
  split : Bool
  phase : OpPhase
  begun : Nat
  drained : Nat
  waitBlock : Option Nat
  status : Nat
  detail : Nat
  invalid : Bool
  provIn : Bool
  emptyRed : Bool
  skip : Bool
  reported : Bool
  energy : Nat
  acceptTime : Nat
  copied : List Nat
  wrote : List Nat
  blame : Nat
deriving DecidableEq, Repr

/-- A pass chain on the Calender (R98): the operation, its chain number, the bank, work cycles done, the
accumulators, and whether its rows have been written. -/
structure Chain where
  op : Nat
  idx : Nat
  bank : Nat
  cycles : Nat
  rows : List RowAcc
  written : Bool
deriving DecidableEq, Repr

/-- A cached curve record (R141). -/
structure CurveSlot where
  addr : Nat
  bytes : List Byte
deriving DecidableEq, Repr

/-- A tensor cluster beside its registers: operations sent and not yet accepted, accepted operations of each engine in
acceptance order, the chain accumulating, the chains holding their banks, the chain draining, the issue credit (R104), the
phase last accepted (R182), the curve slots from most to least recently used, the moment of the last completion (R400), and
the binding: the queue whose task is bound here, whether that task is a part of a split job (R231), the queue whose task a
pre-emption freed the cluster for (R251), whether the cluster has been drained for a test (R257), and the nanoseconds its watchdog has counted (R400). -/
structure Cluster where
  inbox : List Op
  cal : List Op
  btr : List Op
  ls : List Op
  acc : Option Chain
  held : List Chain
  drain : Option Chain
  lastBank : Nat
  nextBank : Nat
  credit : Nat
  lastPhase : Option Nat
  slots : List CurveSlot
  lastDone : Nat
  bound : Option Nat
  partTask : Bool
  keptFor : Option Nat
  drained : Bool
  wdog : Nat
deriving DecidableEq, Repr

/-- A cluster whose power domain has just come up. -/
def Cluster.init : Cluster := ⟨[], [], [], [], none, [], none, 0, 0, 0, none, [], 0, none, false, none, false, 0⟩

/-! ## Deckle -/

/-- A task's ranking key (R229, R240–R242): whether it has a deadline of its own, its band, the deadline or age deadline if it
has one, and, once overdue, the tick at which it became so and the wrapped time left at that tick. -/
structure TaskKey where
  isDl : Bool
  band : Nat
  deadline : Option Nat
  overdue : Option (Nat × Nat)
deriving DecidableEq, Repr

/-- What a queue's head waits for (R226, R244). -/
inductive QWait where
  | cell (cell target : Nat) (cancelRest : Bool)
  | timed (cell target tEnd : Nat) (cancelRest proceed : Bool) (toCell : Option Nat)
  | fence
  | signalAfter (cell value : Nat)
  | setAfter (cell value : Nat) (clear : Bool)
deriving DecidableEq, Repr

/-- The outcome of one part of a split job; blame as in Op. -/
structure PartDone where
  part : Nat
  clu : Nat
  status : Nat
  detail : Nat
  flags : Nat
  provUsed : Bool
  foot : List Nat
  wrote : List Nat
  blame : Nat
deriving DecidableEq, Repr

/-- A split job under way (R185, R186, R231): ring count and descriptor of part 0, the number of parts, the part that is popped and
dispatched next, and the parts done. -/
structure Job where
  slot : Nat
  bytes : List Byte
  count : Nat
  next : Nat
  done : List PartDone
deriving DecidableEq, Repr

/-- Transfers of a pre-emption in progress on a queue. -/
inductive SaveState where
  | none
  | saving (clu slot liveRec : Nat) (taker : Option Nat)
  | saved (slot liveRec : Nat)
  | restoring (clu slot liveRec : Nat)
deriving DecidableEq, Repr

/-- What the records of one task account for (R193): energy since its last record, whether it was pre-empted since then, and its
operations in flight. -/
structure TaskAcct where
  energy : Nat
  preempted : Bool
  left : Nat
deriving DecidableEq, Repr

/-- A queue beside its registers: the current task's key (none while a default task has no key yet), residency tag, what its
head waits for, the bound cluster, the saved task, a split job, operations in flight, reserved completion slots, the entry up
to which a cancellation runs, the number of the current task with the accounts of the tasks that have operations in flight or
something owed, the live-range record of the last mark when the task stands at one (R184), and, for each doorbell whose entries
still stand in the ring, the tail it gave and the key a default task that it first gave an entry has (R229). -/
structure QState where
  key : Option TaskKey
  resTag : Nat
  wait : Option QWait
  bound : Option Nat
  save : SaveState
  job : Option Job
  inflight : Nat
  reserved : Nat
  cancelTo : Option Nat
  task : Nat
  accts : List (Nat × TaskAcct)
  mark : Option Nat
  releasing : Bool
  stalled : Bool
  bells : List (Nat × TaskKey)
deriving DecidableEq, Repr

/-- A queue that holds nothing. -/
def QState.init : QState := ⟨none, 0, none, none, .none, none, 0, 0, none, 0, [], none, false, false, []⟩

/-- A loaded program object and everything granted to it (R205, R206). -/
structure Obj where
  handle : Nat
  part : Nat
  image : Nat
  size : Nat
  mask : Nat
  vatBase : Nat
  vatBytes : Nat
  qBase : Nat
  qCount : Nat
  cBase : Nat
  cCount : Nat
  seqSlots : Nat
  bw : Nat
  fmtMask : Nat
  tdBase : Nat
  tdCount : Nat
  liveBase : Nat
  liveCount : Nat
  grants : List (Nat × Nat × Nat)
  unloading : Bool
deriving DecidableEq, Repr

/-- The admission unit's command in progress: waiting for the format table (R206), zeroing for an admission whose GRANT is still
to be written, or unloading a handle. -/
inductive Admission where
  | idle
  | waitFmt (image : Nat)
  | finishing (image reason verUsed handle detail mask qBase cBase : Nat)
  | unloading (handle : Nat)
deriving DecidableEq, Repr

/-! ## Robotics engines (chapters 12, 13 and 15) -/

/-- A roadmap slot of Dune (R441, R448): the object that bound it, the roadmap header, whether every edge has been validated, VAL_GEN, and
the validating load as (OCC_GEN, T0, PERIOD_MS, SLICES). -/
structure DuneSlot where
  handle : Nat
  header : List Byte
  full : Bool
  valGen : Nat
  load : Option (Nat × Nat × Nat × Nat)
deriving DecidableEq, Repr

/-- An occupancy bank (R443, R444): dimensions in voxels, slices, period, T0, PROV, and the marked bricks. -/
structure OccBank where
  dx : Nat
  dy : Nat
  dz : Nat
  slices : Nat
  period : Nat
  t0 : Nat
  prov : Bool
  bricks : List (Nat × List Byte)
deriving DecidableEq, Repr

/-- A Dune engine: its roadmap slots, its two banks, which is current, whether one is, and OCC_GEN. -/
structure Dune where
  slots : List (Option DuneSlot)
  banks : List (Option OccBank)
  cur : Nat
  valid : Bool
  gen : Nat
deriving DecidableEq, Repr

def Dune.init : Dune := ⟨[none, none, none, none], [none, none], 0, false, 0⟩

/-- A sparse matrix by columns (R467): column pointers and row indices. -/
structure Csc where
  ptr : List Nat
  rows : List Nat
deriving DecidableEq, Repr

/-- A factor of Marl (R469): the values of L column by column over its pattern, D, the rows' ρ and 1/ρ as FP32 words, and whether it was
built from provisional values. -/
structure Factor where
  l : List (List Nat)
  d : List Nat
  rho : List Nat
  inv : List Nat
  prov : Bool
  pv : List Nat
  av : List Nat
deriving DecidableEq, Repr

/-- A problem slot of Marl (R463): owner, record address and bytes, patterns, permutation, factor with its generation and regularised
pivots, warm-start vectors, last solution, substitution run, MPC_SEQ; all vectors as FP32 words. -/
structure SlvSlot where
  handle : Nat
  addr : Nat
  record : List Byte
  p : Csc
  a : Csc
  l : Csc
  perm : List Nat
  factor : Option Factor
  gen : Nat
  reg : Nat
  x : List Nat
  z : List Nat
  y : List Nat
  last : Option (List Nat)
  run : Nat
  seq : Nat
  prov : Bool
deriving DecidableEq, Repr

/-- A Loam track (R521); position and velocity as FP32 words. confirm: CONFIRM_HITS of its last TRACK_APPLY. -/
structure Track where
  handle : Nat
  group : Nat
  cls : Nat
  p : List Nat
  v : List Nat
  hits : Nat
  misses : Nat
  prov : Bool
  confirm : Nat
deriving DecidableEq, Repr

/-- Loam's tables (R515, R521): valid frames as R then T in FP32 words, and tracks, by number. -/
structure Loam where
  frames : List (Nat × Option (List Nat))
  gen : Nat
  tracks : List (Nat × Option Track)
deriving DecidableEq, Repr

/-- What an engine's operation has come to and lands when it completes: status and DETAIL, writes in order with their provisional mark,
the footprint poisoned at the end, counters advanced (register address and amount), the bank it uses, the boundary at which its
iteration ended and whether it converged there, the tables it changes, and where its writes hold the time base (4 bytes), or the time base
and the wrap count (8), of its completion; the broke record its poison goes back to, as blameOf gives it; and whether it used provisional input (PROV_IN). -/
structure EngOut where
  status : Nat
  detail : Nat
  writes : List (Nat × List Byte)
  prov : Bool
  foot : List (Nat × Nat)
  counts : List (Nat × Nat)
  bank : Option Nat
  iters : Nat
  conv : Bool
  duneSlots : Option (List (Option DuneSlot))
  occ : Option OccBank
  slvSlots : Option (List (Option SlvSlot))
  loam : Option Loam
  stamps : List (Nat × Nat)
  blame : Nat
  provIn : Bool
deriving DecidableEq, Repr

/-- A plain outcome: a status, its DETAIL, and a footprint to poison. -/
def EngOut.of (status detail : Nat) (foot : List (Nat × Nat)) : EngOut :=
  ⟨status, detail, [], false, foot, [], none, 0, false, none, none, none, none, [], 0, false⟩

/-- A robotics engine's units (R431, R460, R512): the operation each has taken and not completed, and what it has come to. Only Dune has a load
unit; hold: the bank that its main unit's operation uses and the OCC_GEN it started under, once it has started (R445). -/
structure EngUnit where
  main : Option Op
  load : Option Op
  mainOut : Option EngOut
  loadOut : Option EngOut
  hold : Option (Option Nat × Nat)
deriving DecidableEq, Repr

/-- An idle engine. -/
def EngUnit.init : EngUnit := ⟨none, none, none, none, none⟩

/-- What an operation has come to, without an object that is unloaded meanwhile: its slots and tracks stay forgotten (R208, R434). -/
def EngOut.forget (out : EngOut) (h : Nat) : EngOut :=
  { out with duneSlots := out.duneSlots.map (fun l => l.map (fun x => x.filter (fun y => y.handle != h))),
             slvSlots := out.slvSlots.map (fun l => l.map (fun x => x.filter (fun y => y.handle != h))),
             loam := out.loam.map (fun l => { l with tracks := l.tracks.filter (fun e => match e.2 with | some t => t.handle != h | none => false) }) }
def EngUnit.forget (u : EngUnit) (h : Nat) : EngUnit :=
  { u with mainOut := u.mainOut.map (fun o => o.forget h), loadOut := u.loadOut.map (fun o => o.forget h) }

/-! ## Quire -/

/-- A sequence slot (R279). kind: false KV, true stream. -/
structure Slot where
  state : Nat
  stream : Bool
  inStep : Bool
  joinPend : Bool
  leavePend : Bool
  releasePend : Bool
  atLimit : Bool
  growFail : Bool
  stateLost : Bool
  handle : Nat
  length : Nat
  stepTokens : Nat
  batch : Nat
  part : Nat
  layers : Nat
  log2Tps : Nat
  fmt : Nat
  maxPages : Nat
  ptBase : Nat
  row : Nat
  lastCommit : Nat
deriving DecidableEq, Repr

/-- A free slot: zeros but for BATCH = 0xFF (R279). -/
def Slot.free : Slot := ⟨0, false, false, false, false, false, false, false, false, 0, 0, 0, 0xFF, 0, 0, 0, 0, 0, 0, 0xFFFF, 0⟩

/-- A batch (R290, R316) with its step area, bounds, state rows and the open step: its armed cell and target, and its rows as
(slot, tokens). -/
structure Batch where
  isOpen : Bool
  stepOpen : Bool
  stream : Bool
  mode : Nat
  part : Nat
  handle : Nat
  area : Nat
  bounds : List Nat
  stateBase : Nat
  rowStride : Nat
  steps : Nat
  armed : Option (Nat × Nat)
  rows : List (Nat × Nat)
deriving DecidableEq, Repr

/-- A free batch. -/
def Batch.free : Batch := ⟨false, false, false, 0, 0, 0, 0, [], 0, 0, 0, none, []⟩

/-- A partition's command engine (R302): the command running with its results, whether it is an armed commit, and, while it has
still to act as memory it reads or writes is being filled (R334), its arguments as they were. -/
structure QuiCmd where
  op : Nat
  code : Nat
  r0 : Nat
  r1 : Nat
  armed : Bool
  held : Option (List Nat)
deriving DecidableEq, Repr

/-- A copy of a shared sheet (R284): the slot and page-table entry that writes, old and new sheet, the page mover that makes it, none
while it waits for one (R336), and the byte from which TRUNCATE has its blocks zeroed, 65,536 for a copy before a write (R288). -/
structure CowCopy where
  part : Nat
  slot : Nat
  entry : Nat
  old : Nat
  new : Nat
  mover : Option Nat
  cut : Nat
deriving DecidableEq, Repr

/-! ## Writes that wait on blocks being filled (R334) -/

/-- What follows a waiting write once it has landed: nothing; a completion record's pointer, interrupt and signal (queue, error, the cell and
whether it is cancelled); a broke record's pointer and interrupt. -/
inductive After where
  | nothing
  | record (q : Nat) (err : Bool) (sig : Option (Nat × Bool))
  | broke
deriving DecidableEq, Repr

/-- What a writer's writes do (R324, R326): a unit applies tags; a camera port does, and every block it touches counts as written whole, since the
padding at the frame's end fills the last one (R585); a silent unit, one R326 does not name, changes none; the application and management cores
change none, and a part of a block they write is stored even where the block fails its check. -/
inductive WKind where
  | unit
  | camera
  | silent
  | core
deriving DecidableEq, Repr

/-- A unit's write that waits: its writer, the die it comes from, its address and bytes, and what follows it. -/
structure Late where
  writer : Nat
  kind : WKind
  die : Nat
  addr : Nat
  bytes : List Byte
  after : After
deriving DecidableEq, Repr

/-! ## Page movers -/

/-- One piece of a move that crosses a port: a sheet of a fetch, or a 64 KiB piece of a copy. How often it was issued, when last,
whether it is outstanding, whether it is done, the bytes it covers as offset and length from the move's start, and the command
identifier of an NVMe read. -/
structure Sheet where
  tries : Nat
  issued : Nat
  out : Bool
  got : Bool
  off : Nat
  len : Nat
  cid : Nat
deriving DecidableEq, Repr

/-- A move in progress (R333–R337): ring, ring count, descriptor, pending blocks, pieces that cross a port, whether a sheet was
retried, the failure code once it has failed (7: a code the spec does not state), whether it was abandoned, the bytes read from one
port on their way to another with their provisional mark, whether those are being written, and the ranges it reads and writes as its start
found them. -/
structure Move where
  id : Nat
  ring : Nat
  slot : Nat
  bytes : List Byte
  blocks : List Nat
  sheets : List Sheet
  retried : Bool
  code : Nat
  abandoned : Bool
  data : List Host.Cell
  prov : Bool
  second : Bool
  reads : List (Nat × Nat)
  writes : List (Nat × Nat)
  blame : Nat
deriving DecidableEq, Repr

/-- A page mover: moves in progress, the rings from the one that started least recently, NVMe submission tail, completion head
and phase, and the completion entries the PCIe port has reported written and that are not taken yet (R592). -/
structure Mover where
  moves : List Move
  order : List Nat
  sqTail : Nat
  cqHead : Nat
  cqPhase : Bool
  reported : List Nat
deriving DecidableEq, Repr

/-- A page mover at reset. -/
def Mover.init : Mover := ⟨[], [0, 1, 2, 3, 4, 5, 6, 7], 0, 0, true, []⟩

/-! ## Zetha ports (chapter 17) -/

/-- A DATA flit's part of a message: its virtual channel, start and end of message, payload. -/
structure ZFlit where
  vc : Nat
  som : Bool
  eom : Bool
  pay : List Byte
deriving DecidableEq, Repr

/-- A request that awaits its response (R571): tag, read or write, the mover and move it is a piece of (mover 0xFF: a core's access),
the piece, length, local destination of a read. -/
structure ZReq where
  tag : Nat
  isWrite : Bool
  mover : Nat
  move : Nat
  piece : Nat
  len : Nat
  dst : Nat
deriving DecidableEq, Repr

/-- An inbound provisional entry (R573): first and last number, lowest and highest block. -/
structure InbEntry where
  first : Nat
  last : Nat
  lo : Nat
  hi : Nat
deriving DecidableEq, Repr

/-- A core's request that found every tag in use (R571): read or write, the core, destination node, peer address, length, virtual channel, data. -/
structure ZWait where
  isWrite : Bool
  master : Nat
  node : Nat
  addr : Nat
  len : Nat
  vc : Nat
  data : List Byte
deriving DecidableEq, Repr

/-- A port's link layer beside its registers: next number to send and next expected, the replay buffer, flits being resent, NAK
owed, the last NAK acted on with its moment, replays from one number without progress, credits held, last credit bytes received,
receive flits freed and owed, flits waiting per virtual channel, the rotation, partly received messages, arrived messages with
their channel, requests, the next tag, inbound entries, and the training exchange: moment of the state, moment at which a failed state falls back to DETECT
(0: none), CAP sent last, peer seen, SEEN sent, SEEN received, first CAP to come; the scrambler of each transmit lane with the data blocks sent
since the last ordered set, the scrambler of each receive lane; requests that wait for a tag; and the cycle in which credits were last returned,
with those credits. -/
structure ZPort where
  txSeq : Nat
  rxSeq : Nat
  gotAny : Bool
  replay : List (Nat × ZFlit)
  resend : List Nat
  nak : Bool
  nakActed : Option (Nat × Nat)
  stuck : Nat × Nat
  cred : List Nat
  lastCredit : List Nat
  freed : List Nat
  owed : List Nat
  vcq : List (List ZFlit)
  rot : Nat
  rxBuf : List (List Byte)
  arrived : List (Nat × List Byte)
  reqs : List ZReq
  nextTag : Nat
  inb : List InbEntry
  since : Nat
  resumeAt : Nat
  capAt : Option Nat
  seen : Bool
  sentSeen : Bool
  gotSeen : Bool
  fresh : Bool
  lfsr : List Nat
  blocks : Nat
  rxLfsr : List Nat
  waiting : List ZWait
  lateCred : Nat × List Nat
deriving DecidableEq, Repr

/-- The seeds of the lanes' scramblers, loaded at every ordered set (R559). -/
def zSeeds : List Nat := (List.range 8).map (0x7FFFFFF0 + ·)

/-- A port at reset. -/
def ZPort.init : ZPort :=
  ⟨0, 0, false, [], [], false, none, (0, 0), [0, 0, 0, 0], [0, 0, 0, 0], [0, 0, 0, 0], [0, 0, 0, 0], [[], [], [], []], 1,
    [[], [], [], []], [], [], 0, [], 0, 0, none, false, false, false, true, zSeeds, 0, zSeeds, [], (0, [0, 0, 0, 0])⟩

/-! ## Other ports (chapter 18) -/

/-- A non-posted request a PCIe port has sent (R592): tag, the mover, move and piece it belongs to (mover 0xFF: a core's read), its
length, local destination, and when it was sent. -/
structure PReq where
  tag : Nat
  mover : Nat
  move : Nat
  piece : Nat
  len : Nat
  dst : Nat
  sent : Nat
deriving DecidableEq, Repr

/-- A PCIe port's requests, its next tag, whether PCI_p_PERST_N is low at an endpoint, and whether a root port has released the ball since its
mode was applied (R730). -/
structure PPort where
  reqs : List PReq
  nextTag : Nat
  perst : Bool
  released : Bool
deriving DecidableEq, Repr

/-- A port at reset. -/
def PPort.init : PPort := ⟨[], 0, false, false⟩

/-- An open camera frame (R584, R585): buffer, its size in sheets, line pitch in bytes, long packets so far, lines written, bytes from the
buffer to the end of the last written line, status bits, frame number, time stamp and wraps. -/
structure Frame where
  buf : Nat
  cap : Nat
  pitch : Nat
  packets : Nat
  lines : Nat
  bytes : Nat
  status : Nat
  num : Nat
  ts : Nat
  wraps : Nat
deriving DecidableEq, Repr

/-- A camera context: its open frame, and whether a frame without a buffer is being dropped. -/
structure CsiCtx where
  frame : Option Frame
  dropping : Bool
deriving DecidableEq, Repr

/-- A flash command (R600): kind, opcode, address, length, buffer offset in management SRAM. -/
structure FlashCmd where
  kind : Nat
  opcode : Nat
  addr : Nat
  len : Nat
  buf : Nat
deriving DecidableEq, Repr

/-- A CAN controller: the extended time at which each pending buffer was requested, the one-shot buffer that has failed and whose end is
still to come, and whether bus-off recovery has begun. -/
structure CanState where
  reqAt : List (Nat × Nat)
  failed : Option Nat
  recovering : Bool
deriving DecidableEq, Repr

def CanState.init : CanState := ⟨[], none, false⟩

/-- A pin: the function that drives the pad, its PWM channel's run as the moment it started, period and high time, the times in its capture buffer, and
captures lost. -/
structure Pin where
  func : Nat
  pwm : Option (Nat × Nat × Nat)
  caps : List Nat
  capLost : Nat
deriving DecidableEq, Repr

def Pin.init : Pin := ⟨0, none, [], 0⟩

/-! ## Tilth (chapter 14) -/

/-- A law held in a bank (R493): sizes, scheduling variables with their breakpoints, setpoint map, limits and gain matrices; values as
FP32 words. -/
structure Law where
  nx : Nat
  nu : Nat
  spCount : Nat
  sched : List (Nat × List Nat)
  spMap : List Nat
  uMin : List Nat
  uMax : List Nat
  gains : List Nat
deriving DecidableEq, Repr

/-- An accepted setpoint block (R490, R492): SEQ, SUBST, values, and when its read completed. -/
structure SpBlock where
  seq : Nat
  subst : Bool
  vals : List Nat
  at_ : Nat
deriving DecidableEq, Repr

/-- A test injection under way (R501): samples so far, phase, shift register, table, and whether RUN has been cleared since it was set. -/
structure TestRun where
  n : Nat
  phi : Nat
  lfsr : Nat
  table : List Nat
  stop : Bool
deriving DecidableEq, Repr

/-- A sample (R495–R498): instant, launch time, result or held values, FLAGS and CAUSE of its header, SP_SEQ, injected value, inputs. -/
structure Sample where
  ctx : Nat
  seq : Nat
  inst : Nat
  launch : Nat
  u : List Nat
  flags : Nat
  cause : Nat
  spSeq : Nat
  inj : Nat
  x : List Nat
deriving DecidableEq, Repr

/-- A loop context beside its registers: staged and live inputs, the groups' last commits, active and pending law (with the moment its
load ended), the table's address while a load runs, the setpoint read under way and whether it is to be repeated, the shadow and the block in use, the cell's
value last seen, the next instant, the values last launched, the test injection, and whether the context stops once its sample has
launched. -/
structure TltCtx where
  staged : List (Nat × Nat)
  live : List (Nat × Nat)
  commits : List (Nat × Option Nat)
  law : Option Law
  pend : Option (Law × Nat)
  loading : Option Nat
  reading : Bool
  again : Bool
  shadow : Option SpBlock
  sp : Option SpBlock
  cell : Nat
  next : Nat
  prev : Option (List Nat)
  test : Option TestRun
  on : Bool
deriving DecidableEq, Repr

def TltCtx.init : TltCtx := ⟨[], [], [], none, none, none, false, false, none, none, 0, 0, none, none, false⟩

/-- The engine: its contexts, the sample running and those waiting, the moments of mismatches in the present window, and whether the
pair is being reset. -/
structure Tilth where
  ctxs : List (Nat × TltCtx)
  run : Option Sample
  wait : List Sample
  faults : List Nat
  inReset : Bool
deriving DecidableEq, Repr

def Tilth.init : Tilth := ⟨[], none, [], [], false⟩

/-! ## Ethernet (chapter 16) -/

/-- A frame on the line of a MAC: the queue it came from, whether it is a ring frame, whether it asked for its time stamp, its
transmit time stamp in extended time, and its provisional number. -/
structure TxFrame where
  queue : Nat
  ring : Bool
  tsReq : Bool
  stamp : Nat
  prov : Option Nat
deriving DecidableEq, Repr

/-- A Tilth output that waits in a MAC (R546): context, queue, launch time in extended time, payload. -/
structure TltFrame where
  ctx : Nat
  queue : Nat
  launch : Nat
  bytes : List Byte
deriving DecidableEq, Repr

/-- The head frame of a transmit ring as the MAC has read it: its descriptor, the bytes of its source, a status other than 0 when it is refused
(BAD_DESC 2, POISONED 3), and its provisional number (R407, R540). -/
structure EthFetch where
  desc : List Byte
  bytes : List Byte
  status : Nat
  prov : Option Nat
deriving DecidableEq, Repr

/-- A MAC beside its registers: the head frames it has read, by queue; the frame on the line, the moment until which a PAUSE frame holds it, notices and Tilth outputs that
wait, and the operational gate list (entries as gates and interval, cycle, base), its entry in force, and of a pending change its time
and cycle length. -/
structure Mac where
  tx : Option TxFrame
  pausedTo : Nat
  notices : List (List Byte)
  tilth : List TltFrame
  gates : List (Nat × Nat)
  cycle : Nat
  base : Nat
  entry : Nat
  change : Option (Nat × Nat)
  heads : List (Nat × Option EthFetch)
deriving DecidableEq, Repr

/-- A MAC at reset. -/
def Mac.init : Mac := ⟨none, 0, [], [], [], 0, 0, 0, none, []⟩

/-! ## Event log (chapter 20) -/

/-- An event log entry that waits to be written (R661): calendar seconds, time base, wrap count, source, code, uncopied broke records,
data. -/
structure LogItem where
  rtc : Nat
  time : Nat
  wraps : Nat
  source : Nat
  code : Nat
  uncopied : Nat
  data : List Byte
deriving DecidableEq, Repr

/-- The log writer (R662): queued entries, entries dropped since the last one written, and where the next entry goes: sector, slot,
entry number, and the sector number of that sector. -/
structure LogState where
  queue : List LogItem
  dropped : Nat
  sector : Nat
  slot : Nat
  seq : Nat
  sectorSeq : Nat
deriving DecidableEq, Repr

/-! ## Integrity -/

/-- A field-test request (R412): cluster, class, FORCE. -/
structure FtReq where
  clu : Nat
  cls : Nat
  force : Bool
deriving DecidableEq, Repr

/-- A provisional tracker entry (R408, R409): first and last number, lowest and highest block, when it opened, whether a whole-block write has
spoilt it, and, once it has resolved, its outcome and the SEQ its notice names, while the notice waits for the link. -/
structure Tracker where
  first : Nat
  last : Nat
  lo : Nat
  hi : Nat
  since : Nat
  spoiled : Bool
  done : Option (Nat × Nat)
deriving DecidableEq, Repr

/-! ## Headbox and memory controllers -/

/-- A class of a Headbox instance beside its registers (R368, R373, R374): the CLASS and budget words that still govern after a write with
its time, bytes charged in this window to the controllers and to each link, the last reads' latencies, over any budget in this window,
a time in this window, and up to when its held cycles are counted. -/
structure HbxClass where
  old : Option ((Word × List Word) × Nat)
  ctl : Nat
  links : List Nat
  lats : List Nat
  wentOver : Bool
  lastB : Nat
  heldSince : Nat
deriving DecidableEq, Repr

/-- A class at reset. -/
def HbxClass.init : HbxClass := ⟨none, 0, [0, 0, 0], [], false, 0, 0⟩

/-- A request on its way through the Headbox (R362–R364, R371, R376): master, the die it comes from, its class, address and bytes, whether it
reads, the targets still ahead, the level it carries, since when it stands in its queue, and whether it has been raised for its age. -/
structure HbxReq where
  m : Nat
  src : Nat
  cls : Nat
  a : Nat
  n : Nat
  rd : Bool
  route : List Nat
  level : Nat
  since : Nat
  aged : Bool
deriving DecidableEq, Repr

/-- A controller's patrol (R329): whether a sweep runs, when the last one began, and the site-local blocks it has visited. -/
structure Patrol where
  running : Bool
  began : Option Nat
  seen : List Nat
deriving DecidableEq, Repr

end Sys2Proof.Machine
end

