-- ==== Sys2Proof/Machine/State.lean ====
section
/-! DEFINITION. The state of the KN-7200: its registers, memory with block metadata, the state of every unit, the queue of
commands that wait, and the outcome and outputs of the last command. Plain data throughout. -/
namespace Sys2Proof.Machine

/-- Why the machine stops: never, for any command the spec gives an effect. The one constructor keeps the type inhabited; it
is raised by nobody, and that is safe. -/
inductive Fault where
  | none
deriving DecidableEq, Repr

/-- Why a command has no meaning. notModelled: raised by the dispatch of a command not yet modelled, safe. -/
inductive Refusal where
  | notModelled (mnemonic : String)
deriving DecidableEq, Repr

/-- What the last command answered its sender: nothing to say, a word or bytes read, a bus error (R15, R21, R47), an access
fault to a hart (R619, R620), an access that waits on a block being filled (R334), a parity error response (R391), a read or write that fails with
an operation status (R324, R325), or that the
event could not happen in this state and changed nothing (DESIGN CHOICE). -/
inductive Resp where
  | done
  | word (w : Word)
  | bytes (l : List Byte)
  | busError
  | accessFault
  | waits
  | parity
  | failed (status : Nat)
  | inapplicable
deriving DecidableEq, Repr

/-- What left the module, or reached the application cores, during the last command. -/
inductive Out where
  | irq (source : Nat)
  | msi (hart file eiid : Nat)
  | mgtIrq (source : Nat)
  | note (kind : String) (args : List Nat)
  | frame (kind : String) (port : Nat) (bytes : List Byte)
deriving DecidableEq, Repr

/-- The reset value of a register: the format table's per-entry value (R85), else the value of its table. -/
def regReset (a : Nat) : Word :=
  if 0x10000200 ≤ a ∧ a < 0x10000300 then
    let n := (a - 0x10000200) / 8
    if a % 8 = 0 then BitVec.ofNat 32 (resetFmt n).lo else BitVec.ofNat 32 (resetFmt n).hi
  else match regAt a with
    | some d => BitVec.ofNat 32 d.reset
    | none => 0

/-- Power state of a domain at module reset: PD_IO0_AON, MTI, MGT and CORE are on, every other domain is off (R52, R632). -/
def pdReset (d : Nat) : Nat := if 80 ≤ d ∧ d ≤ 83 then 2 else 0

structure State where
  pending : List Instr
  resp : Resp
  out : List Out
  freeCtr : Nat
  idCtr : Nat
  now : Nat
  cyc : Nat
  dlNow : Nat
  regs : List (Nat × Word)
  imageRegs : List (Nat × Option Word)
  latches : List (Nat × Option Word)
  held : List (Nat × Option Word)
  pd : List (Nat × Nat)
  mem : List Host.Cell
  upsets : List Host.Cell
  chan : List (Nat × Nat)
  late : List Late
  tags : List (Nat × BlockTag)
  checked : List (Nat × List Nat)
  clusters : List (Nat × Cluster)
  engines : List (Nat × EngUnit)
  dunes : List (Nat × Dune)
  slvs : List (Nat × List (Option SlvSlot))
  loam : Loam
  tilth : Tilth
  phaseReports : List (Nat × Nat)
  queues : List (Nat × QState)
  objs : List Obj
  adm : Admission
  overdueCtr : Nat
  dispatchStopped : Bool
  slots : List (Nat × Slot)
  batches : List (Nat × Batch)
  quiCmds : List (Nat × Option QuiCmd)
  cows : List CowCopy
  movers : List (Nat × Mover)
  reports : List Report
  brokeSeq : Nat
  ftQueue : List FtReq
  lastPass : List (Nat × Nat)
  trackers : List (Nat × List Tracker)
  provNext : List (Nat × Nat)
  brokeCopied : List (Nat × (Option Nat × Nat))
  poisonBy : List (Nat × Nat)
  budgeted : List Nat
  ftPoints : List (Nat × List (Nat × Nat × Nat))
  macs : List (Nat × Mac)
  log : LogState
  timAcc : Nat
  timRho : Int
  timEpoch : Nat
  hbxs : List (Nat × HbxClass)
  hbxq : List (Nat × List HbxReq)
  hbxCopy : Option (Nat × Word × Word × Word)
  patrols : List (Nat × Patrol)
  zports : List (Nat × ZPort)
  pports : List (Nat × PPort)
  csis : List (Nat × CsiCtx)
  flashCmd : Option FlashCmd
  flashHeld : Option FlashCmd
  flash : List Host.Cell
  flashRegs : List (Nat × Nat)
  cans : List (Nat × CanState)
  pins : List (Nat × Pin)
  msis : List (Nat × Nat × Nat)
  eip : List (Nat × List Nat)
  harts : List (Nat × Hart)
  wires : List (Nat × Bool)
  iotlb : List IoEntry
  pmu : Pmu
  thermal : Thermal
  mti : Mti
  mtiStore : MtiStore
  rtcNext : Option (Word × Word)
  lostToLog : Bool
  fuses : Fuses
  running : Running
  mgt : Mgt
  tap : Tap
  supply : Supply
deriving DecidableEq, Repr

/-- The machine right after module reset, before start-up. -/
def State.reset : State :=
  { pending := [], resp := .done, out := [], freeCtr := 0, idCtr := 0, now := 0, cyc := 0, dlNow := 0, regs := [], imageRegs := [], latches := [], held := [], pd := [],
    mem := [], upsets := [], chan := [], late := [], tags := [], checked := [], clusters := [], engines := [], dunes := [], slvs := [], loam := ⟨[], 0, []⟩, tilth := Tilth.init, phaseReports := [], queues := [], objs := [], adm := .idle, overdueCtr := 0,
    dispatchStopped := false, slots := [], batches := [], quiCmds := [], cows := [], movers := [], reports := [], brokeSeq := 0,
    ftQueue := [], lastPass := [], trackers := [], provNext := [], brokeCopied := [], poisonBy := [], budgeted := [], ftPoints := [], macs := [], log := ⟨[], 0, 0, 1, 0, 0⟩, timAcc := 0, timRho := 0, timEpoch := 0,
    hbxs := [], hbxq := [], hbxCopy := none, patrols := [], zports := [],
    pports := [], csis := [], flashCmd := none, flashHeld := none, flash := [], flashRegs := [], cans := [], pins := [],
    msis := [], eip := [], harts := [], wires := [], iotlb := [], pmu := Pmu.init, thermal := Thermal.init, mti := Mti.init, mtiStore := MtiStore.init,
    rtcNext := none, lostToLog := true, fuses := ⟨0, 0⟩, running := Running.init, mgt := Mgt.init, tap := Tap.init, supply := Supply.init }

end Sys2Proof.Machine
end

