-- ==== Sys2Proof/Machine/Ops.lean ====
section
/-! DEFINITION. The named operations over registers, time, interrupts and memory that every command is built from. -/
namespace Sys2Proof.Machine

/-! ## Answers -/

/-- The state as a command finds it: the answer and outputs of the last command put away. -/
def State.start (s : State) : State := { s with resp := .done, out := [] }

/-- A command's outcome: t when its conditions hold; else the event cannot happen here and nothing changes (DESIGN CHOICE). -/
def answer (ok : Bool) (s t : State) : Host.Outcome State Fault Refusal :=
  if ok then .next t else .next { s.start with resp := .inapplicable }

/-- The state with an answer. -/
def State.say (s : State) (r : Resp) : State := { s with resp := r }

/-- A bus error to the requester; nothing changes (R15). -/
def State.busError (s : State) : State := { s.start with resp := .busError }

/-- One more output. -/
def State.emit (s : State) (o : Out) : State := { s with out := s.out ++ [o] }

/-- A fresh identity for an operation or move. -/
def State.newId (s : State) : Nat := s.idCtr + 1
def State.tookId (s : State) : State := { s with idCtr := s.idCtr + 1 }

/-- The next open value of w bits, and the state that has used it. -/
def State.free (s : State) (w : Nat) : Nat := (Config.freeValue w s.freeCtr).toNat
def State.tookFree (s : State) (n : Nat) : State := { s with freeCtr := s.freeCtr + n }

/-! ## Registers -/

/-- The word held at a register's address. -/
def State.rd (s : State) (a : Nat) : Word := Sparse.get regReset s.regs a

/-- The state with a register's word replaced. -/
def State.wr (s : State) (a : Nat) (w : Word) : State := { s with regs := Sparse.set regReset s.regs a w }

/-- A field's value. -/
def State.fld (s : State) (f : Fld) : Nat := bits (s.rd f.addr) f.hi f.lo

/-- A one-bit field as a truth value. -/
def State.flag (s : State) (f : Fld) : Bool := s.fld f == 1

/-- The state with a field replaced. -/
def State.setF (s : State) (f : Fld) (v : Nat) : State := s.wr f.addr (ins (s.rd f.addr) f.hi f.lo v)

/-- A counter field advanced, saturating at all ones. -/
def State.bump (s : State) (f : Fld) (n : Nat) : State := s.setF f (satAdd (2 ^ (f.hi + 1 - f.lo) - 1) (s.fld f) n)

/-- A word written and held until its entry is committed (R90, R367, R541, R550, R569), and what such a register then stands for. -/
def State.hold (s : State) (a : Nat) (w : Word) : State := { s with held := Sparse.set (fun _ => none) s.held a (some w) }
def State.unhold (s : State) (a : Nat) : State := { s with held := Sparse.set (fun _ => none) s.held a none }
def State.heldOr (s : State) (a : Nat) : Word := (Sparse.get (fun _ => none) s.held a).getD (s.rd a)

/-- Registers whose address satisfies p go back to their reset values. -/
def State.resetRegs (s : State) (p : Nat → Bool) : State := { s with regs := Sparse.drop p s.regs }

/-- Two registers as one number, low word first (R19). -/
def State.fld2 (s : State) (lo hi : Fld) (sh : Nat) : Nat := s.fld lo * 2 ^ sh + s.fld hi * 2 ^ 32

/-! ## Variant, dies and power -/

/-- Installed memory sites and their size, from MGT_VARIANT (R11, R12). -/
def State.sitePresent (s : State) (n : Nat) : Bool := bitN (s.fld MGT_VARIANT.SITE_MAP) n
def State.siteBytes (s : State) : Nat := if s.fld MGT_VARIANT.SITE_GIB = 0 then 16 * 2 ^ 30 else 32 * 2 ^ 30
def State.iod1 (s : State) : Bool := s.flag MGT_VARIANT.IOD1_PRESENT

/-- Populated sites of a die in ascending order (R317); every variant gives both dies as many. -/
def State.dieSites (s : State) (die : Nat) : List Nat := ((List.range 4).map (fun i => die * 4 + i)).filter s.sitePresent
def State.allSites (s : State) : List Nat := (List.range 8).filter s.sitePresent

/-- First DRAM address and raw capacity (R22). -/
def dramBase : Nat := 0x1000000000
def State.rawBytes (s : State) : Nat := s.allSites.length * s.siteBytes

/-- Data capacity D of one die (R317). -/
def State.dieData (s : State) : Nat := (s.dieSites 0).length * (s.siteBytes / 512 * 511)

/-- An address is in installed DRAM (R22), in its data part, in the metadata region (R318). -/
def State.isDram (s : State) (a : Nat) : Bool := decide (dramBase ≤ a ∧ a < dramBase + s.rawBytes)
def State.metaBase (s : State) : Nat := dramBase + 2 * s.dieData
def State.isMeta (s : State) (a : Nat) : Bool := decide (s.metaBase ≤ a ∧ a < dramBase + s.rawBytes)
def State.isData (s : State) (a : Nat) : Bool := decide (dramBase ≤ a ∧ a < s.metaBase)
/-- [a, a+n) lies wholly in the data part of installed DRAM. -/
def State.dataRange (s : State) (a n : Nat) : Bool := decide (dramBase ≤ a ∧ a + n ≤ s.metaBase)
def State.dramRange (s : State) (a n : Nat) : Bool := decide (dramBase ≤ a ∧ a + n ≤ dramBase + s.rawBytes)

/-- The Vat window: 64 windows of 4 MiB (R47). -/
def isVat (a : Nat) : Bool := decide (0x100000000 ≤ a ∧ a < 0x110000000)
def vatCluster (a : Nat) : Nat := (a - 0x100000000) / 0x400000

/-- Power state of a domain, and whether it is on (R687, R699). -/
def State.pdState (s : State) (d : Nat) : Nat := Sparse.get pdReset s.pd d
def State.pdOn (s : State) (d : Nat) : Bool := s.pdState d == 2
def State.setPd (s : State) (d v : Nat) : State := { s with pd := Sparse.set pdReset s.pd d v }

/-- Domain numbers (R687). -/
def pdClu (n : Nat) : Nat := if n < 32 then n else n + 8
def pdApc (g : Nat) : Nat := if g < 3 then 32 + g else 69 + g
def pdCore (die : Nat) : Nat := if die = 0 then 36 else 76
def pdMem (die : Nat) : Nat := if die = 0 then 37 else 77
def pdDun (e : Nat) : Nat := if e = 0 then 38 else 78
def pdSlv (e : Nat) : Nat := if e = 0 then 39 else 79
def pdTlt : Nat := 84
def pdLom : Nat := 85
def pdEth (m : Nat) : Nat := if m < 4 then 86 else 91
def pdCsi (p : Nat) : Nat := if p < 8 then 87 else 92
def pdPci (p : Nat) : Nat := if p = 0 then 88 else 93
def pdZth (p : Nat) : Nat := if p = 0 then 89 else 94

/-- Site, and site-local block number, of a DRAM data address (R318, R319). -/
def State.decodeDram (s : State) (a : Nat) : Nat × Nat :=
  let o := a - dramBase
  let sp := s.fld MEM_SPLIT.BOTH_32M * 0x2000000
  let d := s.dieData
  let dl := if o < 2 * sp then (o / 65536 % 2, o / 131072 * 65536 + o % 65536)
    else if o < sp + d then (0, o - sp) else (1, o - d)
  let b := dl.2 / 4096
  let sites := s.dieSites dl.1
  (getAt 0 sites (b % sites.length), b / sites.length)

/-- The site that holds a DRAM address, of data or of the metadata region (R319, R323). -/
def State.siteOf (s : State) (a : Nat) : Nat :=
  if a < s.metaBase then (s.decodeDram a).1 else getAt 0 s.allSites ((a - s.metaBase) / (s.siteBytes / 512))

/-- The DRAM data address of a site's local block (the inverse of R318 and R319). -/
def State.blockAddr (s : State) (site j : Nat) : Nat :=
  let die := site / 4
  let sites := s.dieSites die
  let i := (sites.takeWhile (fun x => x != site)).length
  let l := (j * sites.length + i) * 4096
  let sp := s.fld MEM_SPLIT.BOTH_32M * 0x2000000
  dramBase + (if l < sp then l / 65536 * 131072 + die * 65536 + l % 65536
    else if die = 0 then l + sp else l + s.dieData)

/-! ## Time and interrupts -/

/-- Cycles, between two moments of State.cyc, of a clock that runs at the OP_MHZ of curve k (R691); before an image is applied at the nominal
maximum of R53 (DESIGN CHOICE, log 79). -/
def State.cyclesIn (s : State) (k top a b : Nat) : Nat := b * getAt top s.running.mhz k / 1000 - a * getAt top s.running.mhz k / 1000

/-- Bits [31:0] of the time base. -/
def State.time (s : State) : Nat := s.now % 2 ^ 32

/-- An interrupt message on its way to a file of a hart: 0 supervisor level, 1–5 guest, 6 machine level (R622, R623). -/
def State.sendMsi (s : State) (hart file eiid : Nat) : State := { s.emit (.msi hart file eiid) with msis := s.msis ++ [(hart, file, eiid)] }

/-! ### The wired sources of the APLIC (R622, R624) -/

/-- The domain that has a source, 1 when the machine domain delegates it, and its mode there: 0 inactive, 1 detached, 4 and 5 edges, 6 and 7
levels, the odd ones inverted. -/
def State.aplicMode (s : State) (n : Nat) : Nat × Nat :=
  let d := s.fld (APLIC_SOURCECFG.D 0 (n - 1))
  (d, s.fld (APLIC_SOURCECFG.SM d (n - 1)))

/-- A source's pending and enable bits in a domain. -/
def aplicBit (f : Nat → Nat → Fld) (d n : Nat) : Fld := ⟨(f d (n / 32)).addr, n % 32, n % 32⟩
def aplicIp (d n : Nat) : Fld := aplicBit APLIC_SETIP.BITS d n
def aplicIe (d n : Nat) : Fld := aplicBit APLIC_SETIE.BITS d n

/-- A message of domain d for a hart, a guest index (supervisor domain only) and an identity; one that names no interrupt file goes nowhere. -/
def State.aplicMsi (s : State) (d hart guest eiid : Nat) : State :=
  if hart < 24 ∧ (d = 0 ∨ guest < 6) then s.sendMsi hart (if d = 0 then 6 else guest) eiid else s

/-- Source n of domain d goes out as a message when it is pending and enabled and the domain's interrupts are. -/
def State.aplicForward (s : State) (d n : Nat) : State :=
  if s.flag (APLIC_DOMAINCFG.IE d) && s.flag (aplicIp d n) && s.flag (aplicIe d n) then
    (s.setF (aplicIp d n) 0).aplicMsi d (s.fld (APLIC_TARGET.HART d (n - 1))) (s.fld (APLIC_TARGET.GUEST d (n - 1))) (s.fld (APLIC_TARGET.EIID d (n - 1)))
  else s

/-- What a mode makes of a wire: the rectified input. -/
def rectified (mode : Nat) (level : Bool) : Bool := if mode = 4 ∨ mode = 6 then level else if mode = 5 ∨ mode = 7 then !level else false

/-- The rectified input of source n goes to v in domain d: a rise makes it pending, a fall ends a level's request. -/
def State.aplicInput (s : State) (d n mode : Nat) (v : Bool) : State :=
  if v then (s.setF (aplicIp d n) 1).aplicForward d n else if 6 ≤ mode then s.setF (aplicIp d n) 0 else s

/-- Wire n goes to a level; the APLIC lies in PD_A_CORE (log 77). -/
def State.wireTo (s : State) (n : Nat) (v : Bool) : State :=
  let t := if v then s.emit (.irq n) else s
  let m := s.aplicMode n
  if s.pdOn (pdCore 0) && decide (4 ≤ m.2) then t.aplicInput m.1 n m.2 (rectified m.2 v) else t

/-- An event raises wired source n: a pulse on its wire (log 40). -/
def State.pulse (s : State) (n : Nat) : State := (s.wireTo n true).wireTo n false

/-- The level of a wired source that the spec raises while a condition holds: power and thermal events (R695), CAN (R604), PCIe (R596), the IOMMU's command and fault queues. -/
def State.srcLevel (s : State) (n : Nat) : Bool :=
  if n = 4 then decide (bits (s.rd PMU_EVENT.addr) 31 27 ≠ 0)
  else if n = 5 then decide (bits (s.rd PMU_EVENT.addr) 26 25 ≠ 0)
  else if 8 ≤ n ∧ n ≤ 11 then
    let c := n - 8
    s.rd (CAN_TX_DONE.addr c) != 0 || s.rd (CAN_TX_FAIL.addr c) != 0 || s.fld (CAN_STATUS.STATE c) == 2
      || s.fld (CAN_RXR_TAIL.COUNT c 0) != s.fld (CAN_RXR_HEAD.COUNT c 0) || s.fld (CAN_RXR_TAIL.COUNT c 1) != s.fld (CAN_RXR_HEAD.COUNT c 1)
  else if n = 50 ∨ n = 51 then s.rd (PCI_EVENT.addr (n - 50)) != 0
  else if n = 52 then s.flag IOM_IPSR.CIP
  else if n = 53 then s.flag IOM_IPSR.FIP
  else false

/-- The level a wire was last seen at. -/
def State.wireAt (s : State) (n : Nat) : Bool := Sparse.get (fun _ => false) s.wires n

/-- A level source's wire follows its condition. -/
def State.sense (s : State) (n : Nat) : State :=
  let v := s.srcLevel n
  if s.wireAt n = v then s else ({ s with wires := Sparse.set (fun _ => false) s.wires n v }).wireTo n v

/-- After a write of the register at a: the source its page feeds. -/
def State.senseAt (s : State) (a : Nat) : State :=
  if 0x65000000 ≤ a ∧ a < 0x65040000 then s.sense (8 + (a - 0x65000000) / 0x10000)
  else if a = PMU_EVENT.addr then (s.sense 4).sense 5
  else if 0x62000000 ≤ a ∧ a < 0x63000000 then s.sense (50 + (a - 0x62000000) / 0x800000)
  else s

/-- A message-signalled interrupt under an IRQ register (R267): enabled, not shut out by ERR_ONLY, with a target core and an
identity. err: the record is neither OK nor EMPTY, or the queue halts. -/
def State.irqMsg (s : State) (en errOnly hart eiid : Fld) (err : Bool) : State :=
  if s.flag en && (!s.flag errOnly || err) && decide (s.fld hart < 24) && decide (1 ≤ s.fld eiid) then
    s.sendMsi (s.fld hart) 0 (s.fld eiid)
  else s

/-! ## Bytes of memory -/

/-- The byte last written at an address, and the byte as stored, with the upsets since. -/
def State.byte (s : State) (a : Addr) : Byte := Sparse.get (fun _ => 0) s.mem a
def State.upset (s : State) (a : Addr) : Byte := Sparse.get (fun _ => 0) s.upsets a
def State.stored (s : State) (a : Addr) : Byte := s.byte a ^^^ s.upset a

/-- n bytes from an address on. -/
def State.bytesAt (s : State) (a n : Nat) : List Byte := (List.range n).map (fun i => s.byte (a + i))
def State.nat (s : State) (a n : Nat) : Nat := leNat (s.bytesAt a n)

/-- One byte written, its upset gone. -/
def State.putByte (s : State) (a : Addr) (b : Byte) : State :=
  { s with mem := Sparse.set (fun _ => 0) s.mem a b, upsets := Sparse.set (fun _ => 0) s.upsets a 0 }

/-- Bytes written in order. -/
def State.putAll (s : State) (ws : List (Addr × Byte)) : State := ws.foldl (fun t w => t.putByte w.1 w.2) s

/-- Bits of a stored byte turned over by a storage fault. -/
def State.flip (s : State) (a : Addr) (m : Byte) : State :=
  { s with upsets := Sparse.set (fun _ => 0) s.upsets a (s.upset a ^^^ m) }

/-- Tags of a block, by block number (address / 4096), DRAM and Vat alike (R187, R322). -/
def State.tag (s : State) (b : Nat) : BlockTag := Sparse.get (fun _ => BlockTag.init) s.tags b
def State.setTag (s : State) (b : Nat) (t : BlockTag) : State := { s with tags := Sparse.set (fun _ => BlockTag.init) s.tags b t }

/-- The broke record a block's POISON goes back to, counted from 1; 0: none (R409). -/
def State.blameOf (s : State) (b : Nat) : Nat := Sparse.get (fun _ => 0) s.poisonBy b

/-- Blocks marked POISON (R189, R393), on account of a broke record; a block already accounted for keeps its record. -/
def State.poisonWith (s : State) (cause : Nat) (bs : List Nat) : State :=
  bs.foldl (fun t b =>
    let u := if (t.tag b).poison && t.blameOf b != 0 then t else { t with poisonBy := Sparse.set (fun _ => 0) t.poisonBy b cause }
    u.setTag b { u.tag b with poison := true }) s

/-- Blocks marked POISON with no broke record behind it. -/
def State.poison (s : State) (bs : List Nat) : State := s.poisonWith 0 bs

/-- A block holds an upset. -/
def State.hasUpset (s : State) (b : Nat) : Bool := s.upsets.any (fun p => p.1 / 4096 == b)

/-- The block's watermark (R322), and the check value of what is stored. -/
def State.watermark (s : State) (b : Nat) : Nat := crc32c (s.bytesAt (b * 4096) 4096)
def State.found (s : State) (b : Nat) : Nat := crc32c ((List.range 4096).map (fun i => s.stored (b * 4096 + i)))

/-- The stored block agrees with its watermark. -/
def State.blockOk (s : State) (b : Nat) : Bool := !s.hasUpset b || s.watermark b == s.found b

/-- What is stored becomes what was written: a checked block, or one merged by a core's write (R324, R325). -/
def State.settle (s : State) (b : Nat) : State :=
  if s.hasUpset b then
    (List.range 4096).foldl (fun t i => let a := b * 4096 + i
      if t.upset a = 0 then t else t.putByte a (t.stored a)) s
  else s

/-- The last 64 blocks a controller has checked, newest first (R325). -/
def State.checkedOf (s : State) (site : Nat) : List Nat := Sparse.get (fun _ => []) s.checked site
def State.setChecked (s : State) (site : Nat) (l : List Nat) : State := { s with checked := Sparse.set (fun _ => []) s.checked site l }
def State.noteChecked (s : State) (b : Nat) : State :=
  let site := (s.decodeDram (b * 4096)).1
  s.setChecked site ((b :: (s.checkedOf site).filter (· != b)).take 64)
def State.forgetChecked (s : State) (b : Nat) : State :=
  let site := (s.decodeDram (b * 4096)).1
  if (s.checkedOf site).contains b then s.setChecked site ((s.checkedOf site).filter (· != b)) else s

/-- A report waits for the integrity controller (R392). -/
def State.report (s : State) (r : Report) : State := { s with reports := s.reports ++ [r] }

/-- What the channel will do to the next access of a block in DRAM (R325, R328): 0 nothing, 1 a corrected link error, 2 an uncorrectable
one, 3 a first mismatch of its own. -/
def State.chanOf (s : State) (b : Nat) : Nat := Sparse.get (fun _ => 0) s.chan b
def State.setChan (s : State) (b c : Nat) : State := { s with chan := Sparse.set (fun _ => 0) s.chan b c }

/-- The channel's part of a read of a block: its link error counted, and gone; whether the first read is lost (R328). -/
def State.channel (s : State) (b : Nat) : State × Bool :=
  let site := (s.decodeDram (b * 4096)).1
  let c := s.chanOf b
  let t := if c = 0 then s else s.setChan b 0
  (if c = 1 then t.bump (MEM_CTL_LINK_CORR.COUNT site) 1 else if c = 2 then t.bump (MEM_CTL_LINK_UNCORR.COUNT site) 1 else t, decide (2 ≤ c))

/-- A second read that agrees counts in WM_RETRY_OK (R325). -/
def State.retried (s : State) (b : Nat) (lost : Bool) : State :=
  if lost then s.bump (MEM_CTL_WM_RETRY_OK.COUNT (s.decodeDram (b * 4096)).1) 1 else s

/-- A persistent watermark mismatch: WM_FAIL counts and the controller reports (R325). -/
def State.wmFail (s : State) (b op move : Nat) : State :=
  let site := (s.decodeDram (b * 4096)).1
  (s.bump (MEM_CTL_WM_FAIL.COUNT site) 1).report
    ⟨0x01, (s.tag b).writer, 64, op, move, b * 4096, s.watermark b, s.found b, 0, 0⟩

/-- A DRAM data block read and checked, with one retry (R325, R328). -/
def State.dramCheck (s : State) (b op move : Nat) : State × Bool :=
  let r := s.channel b
  if r.1.blockOk b then (((r.1.settle b).noteChecked b).retried b r.2, true) else (r.1.wmFail b op move, false)

/-- The controller holds a checked copy of a block (R325). -/
def State.isChecked (s : State) (b : Nat) : Bool := (s.checkedOf (s.decodeDram (b * 4096)).1).contains b

/-- An unchecked read of a DRAM data block (R325): only an uncorrectable link error makes it a first mismatch (R328). -/
def State.rawCheck (s : State) (b op move : Nat) : State × Bool :=
  if s.isChecked b then (s, true)
  else if s.chanOf b = 2 then s.dramCheck b op move
  else ((s.channel b).1, true)

/-- What a reader sees that checks no watermark (R325): the controller's checked copy where it holds one, else what is stored. -/
def State.seenByte (s : State) (a : Nat) : Byte := if s.upset a = 0 then s.byte a else if s.isChecked (a / 4096) then s.byte a else s.stored a
def State.seenBytes (s : State) (a n : Nat) : List Byte := (List.range n).map (fun i => s.seenByte (a + i))
def State.seenNat (s : State) (a n : Nat) : Nat := leNat (s.seenBytes a n)

/-- A checked read of a DRAM data block (R325): served from the checked copy, or read and checked. -/
def State.checkRead (s : State) (b op move : Nat) : State × Bool :=
  if s.isChecked b then (s, true) else s.dramCheck b op move

/-- A write of a whole block meets the channel: a corrected link error counts (R328). -/
def State.chanWrite (s : State) (b : Nat) : State := if s.chanOf b = 0 then s else
  let r := if s.chanOf b = 1 then s.bump (MEM_CTL_LINK_CORR.COUNT (s.decodeDram (b * 4096)).1) 1 else s
  r.setChan b 0

/-- The tags a write applies (R187, R326): the writer's master ID, its epoch, the tags of the
operation, move or message, and what kind of writer it is. -/
structure WTag where
  writer : Nat
  epoch : Nat
  prov : Bool
  poison : Bool
  kind : WKind
deriving DecidableEq, Repr

/-- The master IDs that are recorded as writers (R322, R365). -/
def masterIds : List Nat := List.range 0x51 ++ [0x58, 0x59, 0x5A, 0x5B, 0x5C, 0x5D, 0x60, 0x61, 0x70, 0x71, 0x72, 0x74, 0x75, 0x78, 0x79]

/-- The master ID of the Deckle's own writes: one of the list, which one is open (log 19). -/
def deckleMaster : Nat := getAt 0x60 masterIds (Config.deckleMaster % masterIds.length)

/-- The writer that blocks name which a unit without a master ID writes: some ID of the list (R322), which one is open. -/
def State.openMaster (s : State) : Nat := getAt 0x60 masterIds (s.free 8 % masterIds.length)

/-- The application cores and the management cores: their writes never change a block's tags (R326). -/
def isCore (m : Nat) : Bool := m == 0x60 || m == 0x61

/-- The kind of writer a master is. -/
def writerKind (m : Nat) : WKind := if isCore m then .core else .unit

/-- The tags of a block after a write. -/
def BlockTag.after (t : BlockTag) (w : WTag) (whole : Bool) : BlockTag :=
  let flags : BlockTag :=
    if w.kind == .silent || w.kind == .core then t
    else if whole then { t with prov := w.prov, poison := w.poison }
    else { t with prov := t.prov || w.prov, poison := t.poison || w.poison }
  { flags with writer := w.writer, epoch := if w.writer < 64 then w.epoch else 0 }

/-- A whole-block write of a block: an open tracker entry that covers it is spoilt (R409), and what poisoned it is forgotten. -/
def State.spoil (s : State) (b : Nat) (whole : Bool) : State :=
  if whole then
    { s with poisonBy := Sparse.set (fun _ => 0) s.poisonBy b 0,
             trackers := s.trackers.map (fun e => (e.1, e.2.map (fun t => if t.lo ≤ b ∧ b ≤ t.hi then { t with spoiled := true } else t))) }
  else s

/-- One block's part of a write (R324, R326). False: the block failed its check and the write was not stored. Whether a write covers a whole block
(R187) is judged over one drained chain, one whole Beater operation, or one whole LOAD or STORE (DESIGN CHOICE, log 80). -/
def State.storeBlock (s : State) (w : WTag) (b : Nat) (ws : List (Addr × Byte)) (op move : Nat) : State × Bool :=
  let whole := w.kind == .camera || decide (4096 ≤ ws.length) && (List.range 4096).all (fun i => ws.any (fun p => p.1 == b * 4096 + i))
  let read := !(isVat (b * 4096) || whole)
  let c := if read then s.channel b else (if isVat (b * 4096) then s else s.chanWrite b, false)
  let s := c.1
  if !read || s.blockOk b then
    let s1 := if read then (s.settle b).retried b c.2 else s
    let s2 := s1.putAll ws
    let s3 := if isVat (b * 4096) then s2 else s2.forgetChecked b
    ((s3.setTag b ((s3.tag b).after w whole)).spoil b whole, true)
  else
    let s1 := s.wmFail b op move
    let s2 := s1.poison [b]
    if w.kind = .core then
      let s3 := ((s2.settle b).putAll ws).forgetChecked b
      (s3.setTag b ((s3.tag b).after w false), true)
    else (s2, false)

/-- Blocks of a list of byte writes. -/
def writeBlocks (ws : List (Addr × Byte)) : List Nat :=
  (ws.foldl (fun (acc : List Nat) w => match acc with
    | b :: _ => if w.1 / 4096 = b then acc else if acc.contains (w.1 / 4096) then acc else (w.1 / 4096) :: acc
    | [] => [w.1 / 4096]) []).reverse

/-- A write of bytes to DRAM or a Vat window, block by block; the blocks whose check failed and which were not stored. -/
def State.store (s : State) (w : WTag) (ws : List (Addr × Byte)) (op move : Nat) : State × List Nat :=
  (writeBlocks ws).foldl (fun acc b =>
    let r := acc.1.storeBlock w b (ws.filter (fun p => p.1 / 4096 == b)) op move
    (r.1, if r.2 then acc.2 else acc.2 ++ [b])) (s, [])

/-- The first block of a list being filled by a page mover (R334). -/
def State.pendingBlock (s : State) (bs : List Nat) : Option Nat := bs.find? (fun b => (s.tag b).fill)

/-- Blocks of [a, a+n). -/
def rangeBlocks (a n : Nat) : List Nat := if n = 0 then [] else (List.range ((a + n - 1) / 4096 - a / 4096 + 1)).map (fun i => a / 4096 + i)

/-- Bytes placed at consecutive addresses. -/
def placed (a : Nat) (bs : List Byte) : List (Addr × Byte) := (List.range bs.length).zip bs |>.map (fun p => (a + p.1, p.2))

/-- Some block of [a, a+n) is being filled. -/
def State.filling (s : State) (a n : Nat) : Bool :=
  n != 0 && s.tags.any (fun e => e.2.fill && decide (a / 4096 ≤ e.1 ∧ e.1 ≤ (a + n - 1) / 4096))

/-! ## Unit records -/

def State.cl (s : State) (n : Nat) : Cluster := Sparse.get (fun _ => Cluster.init) s.clusters n
def State.setCl (s : State) (n : Nat) (c : Cluster) : State := { s with clusters := Sparse.set (fun _ => Cluster.init) s.clusters n c }
def State.eng (s : State) (n : Nat) : EngUnit := Sparse.get (fun _ => EngUnit.init) s.engines n
def State.setEng (s : State) (n : Nat) (x : EngUnit) : State := { s with engines := Sparse.set (fun _ => EngUnit.init) s.engines n x }
def State.dune (s : State) (e : Nat) : Dune := Sparse.get (fun _ => Dune.init) s.dunes e
def State.setDune (s : State) (e : Nat) (x : Dune) : State := { s with dunes := Sparse.set (fun _ => Dune.init) s.dunes e x }
def noSlots : List (Option SlvSlot) := [none, none, none, none]
def State.slv (s : State) (e : Nat) : List (Option SlvSlot) := Sparse.get (fun _ => noSlots) s.slvs e
def State.setSlv (s : State) (e : Nat) (x : List (Option SlvSlot)) : State := { s with slvs := Sparse.set (fun _ => noSlots) s.slvs e x }
def State.q (s : State) (n : Nat) : QState := Sparse.get (fun _ => QState.init) s.queues n
def State.setQ (s : State) (n : Nat) (q : QState) : State := { s with queues := Sparse.set (fun _ => QState.init) s.queues n q }
def State.slot (s : State) (n : Nat) : Slot := Sparse.get (fun _ => Slot.free) s.slots n
def State.setSlot (s : State) (n : Nat) (x : Slot) : State := { s with slots := Sparse.set (fun _ => Slot.free) s.slots n x }
def State.batch (s : State) (n : Nat) : Batch := Sparse.get (fun _ => Batch.free) s.batches n
def State.setBatch (s : State) (n : Nat) (x : Batch) : State := { s with batches := Sparse.set (fun _ => Batch.free) s.batches n x }
def State.quiCmd (s : State) (p : Nat) : Option QuiCmd := Sparse.get (fun _ => none) s.quiCmds p
def State.setQuiCmd (s : State) (p : Nat) (x : Option QuiCmd) : State := { s with quiCmds := Sparse.set (fun _ => none) s.quiCmds p x }
def State.mover (s : State) (m : Nat) : Mover := Sparse.get (fun _ => Mover.init) s.movers m
def State.setMover (s : State) (m : Nat) (x : Mover) : State := { s with movers := Sparse.set (fun _ => Mover.init) s.movers m x }
def State.trackersOf (s : State) (p : Nat) : List Tracker := Sparse.get (fun _ => []) s.trackers p
def State.setTrackers (s : State) (p : Nat) (x : List Tracker) : State := { s with trackers := Sparse.set (fun _ => []) s.trackers p x }

def State.zport (s : State) (p : Nat) : ZPort := Sparse.get (fun _ => ZPort.init) s.zports p
def State.setZport (s : State) (p : Nat) (x : ZPort) : State := { s with zports := Sparse.set (fun _ => ZPort.init) s.zports p x }
def State.pport (s : State) (p : Nat) : PPort := Sparse.get (fun _ => PPort.init) s.pports p
def State.setPport (s : State) (p : Nat) (x : PPort) : State := { s with pports := Sparse.set (fun _ => PPort.init) s.pports p x }

def State.csi (s : State) (n : Nat) : CsiCtx := Sparse.get (fun _ => ⟨none, false⟩) s.csis n
def State.setCsi (s : State) (n : Nat) (x : CsiCtx) : State := { s with csis := Sparse.set (fun _ => ⟨none, false⟩) s.csis n x }
def State.can (s : State) (n : Nat) : CanState := Sparse.get (fun _ => CanState.init) s.cans n
def State.setCan (s : State) (n : Nat) (x : CanState) : State := { s with cans := Sparse.set (fun _ => CanState.init) s.cans n x }
def State.pin (s : State) (n : Nat) : Pin := Sparse.get (fun _ => Pin.init) s.pins n
def State.setPin (s : State) (n : Nat) (x : Pin) : State := { s with pins := Sparse.set (fun _ => Pin.init) s.pins n x }

def State.hart (s : State) (h : Nat) : Hart := Sparse.get (fun _ => Hart.init) s.harts h
def State.setHart (s : State) (h : Nat) (x : Hart) : State := { s with harts := Sparse.set (fun _ => Hart.init) s.harts h x }
def State.pmuClu (s : State) (n : Nat) : PmuClu := Sparse.get (fun _ => PmuClu.init) s.pmu.clus n
def State.setPmuClu (s : State) (n : Nat) (x : PmuClu) : State := { s with pmu := { s.pmu with clus := Sparse.set (fun _ => PmuClu.init) s.pmu.clus n x } }
def State.rail (s : State) (r : Nat) : Rail := Sparse.get (fun _ => Rail.init) s.pmu.rails r
def State.setRail (s : State) (r : Nat) (x : Rail) : State := { s with pmu := { s.pmu with rails := Sparse.set (fun _ => Rail.init) s.pmu.rails r x } }

def State.mac (s : State) (n : Nat) : Mac := Sparse.get (fun _ => Mac.init) s.macs n
def State.setMac (s : State) (n : Nat) (x : Mac) : State := { s with macs := Sparse.set (fun _ => Mac.init) s.macs n x }

/-- The head frame of a queue, and its change. -/
def Mac.head (x : Mac) (q : Nat) : Option EthFetch := Sparse.get (fun _ => none) x.heads q
def Mac.setHead (x : Mac) (q : Nat) (h : Option EthFetch) : Mac := { x with heads := Sparse.set (fun _ => none) x.heads q h }

/-- The loaded object with a handle. -/
def State.obj (s : State) (h : Nat) : Option Obj := s.objs.find? (fun o => o.handle == h)

/-- The loaded object that holds a queue, or a cell, in its run (R206). -/
def State.objOfQueue (s : State) (q : Nat) : Option Obj := s.objs.find? (fun o => decide (o.qBase ≤ q ∧ q < o.qBase + o.qCount))
def State.objOfCell (s : State) (n : Nat) : Option Obj := s.objs.find? (fun o => decide (o.cBase ≤ n ∧ n < o.cBase + o.cCount))

/-- [a, a+n) lies inside one grant of an object with an access bit: 0 read, 1 write (R198, R223, R302). -/
def Obj.holds (o : Obj) (a n bit : Nat) : Bool := o.grants.any (fun g => decide (g.1 ≤ a ∧ a + n ≤ g.1 + g.2.1) && bitN g.2.2 bit)

/-! ## Rings (R217–R220) -/

/-- A push on a ring held in HEAD and TAIL fields: lands when n entries fit, else is refused, with FULL where the ring has it (R218). -/
def State.ringPush (s : State) (en : Bool) (size : Nat) (head tail : Fld) (full : Option Fld) (v : Nat) : State :=
  let n := (v + 2 ^ 32 - s.fld tail) % 2 ^ 32
  if !en || n == 0 then s
  else if (s.fld tail + 2 ^ 32 - s.fld head) % 2 ^ 32 + n ≤ size then s.setF tail v
  else match full with | some f => s.setF f 1 | none => s

/-! ## Partition records (R201) -/

/-- Bytes [off, off+n) of partition record p, from the words of its mirror. -/
def State.partField (s : State) (p off n : Nat) : Nat :=
  leNat ((List.range n).map (fun i =>
    let k := off + i
    BitVec.ofNat 8 ((s.rd (DCK_PART_REC.addr p (k / 4))).toNat / 2 ^ (8 * (k % 4)))))
def State.partOn (s : State) (p : Nat) : Bool := decide (p < 8) && s.partField p 0 1 % 2 == 1
def State.partMask (s : State) (p : Nat) : Nat := s.partField p 8 8
def State.partQBase (s : State) (p : Nat) : Nat := s.partField p 16 2
def State.partQCount (s : State) (p : Nat) : Nat := s.partField p 18 2
def State.partCBase (s : State) (p : Nat) : Nat := s.partField p 20 2
def State.partCCount (s : State) (p : Nat) : Nat := s.partField p 24 4
def State.partSeq (s : State) (p : Nat) : Nat := s.partField p 28 2
def State.partClass (s : State) (p : Nat) : Nat := s.partField p 30 1
def State.partLo (s : State) (p : Nat) : Nat := s.partField p 32 6
def State.partHi (s : State) (p : Nat) : Nat := s.partField p 40 6
/-- [a, a+n) lies in the partition's DRAM window. -/
def State.inPart (s : State) (p a n : Nat) : Bool := decide (s.partLo p ≤ a ∧ a + n ≤ s.partHi p + 1)

/-! ## Cells (R233, R234) -/

def State.cell (s : State) (n : Nat) : Nat := s.fld (DCK_CELL.VALUE n)

/-- A set: VALUE takes v; with clear, WRAP and CANCEL clear. -/
def State.cellSet (s : State) (n v : Nat) (clear : Bool) : State :=
  let t := s.setF (DCK_CELL.VALUE n) v
  if clear then (t.setF (DCK_CELL_FLAGS.WRAP n) 0).setF (DCK_CELL_FLAGS.CANCEL n) 0 else t

/-- A signal: VALUE advances modulo 2^32; a carry out sets WRAP. -/
def State.cellAdd (s : State) (n v : Nat) : State :=
  let sum := s.cell n + v % 2 ^ 32
  let t := s.setF (DCK_CELL.VALUE n) (sum % 2 ^ 32)
  if 2 ^ 32 ≤ sum then t.setF (DCK_CELL_FLAGS.WRAP n) 1 else t

/-- A cancel signal: as a signal, and CANCEL sets. -/
def State.cellCancel (s : State) (n v : Nat) : State := (s.cellAdd n v).setF (DCK_CELL_FLAGS.CANCEL n) 1

/-- The cell has reached target t: (VALUE − t) mod 2^32 < 2^31 (R235). -/
def State.cellReached (s : State) (n t : Nat) : Bool := decide ((s.cell n + 2 ^ 32 - t % 2 ^ 32) % 2 ^ 32 < 2 ^ 31)

/-- The wait for d is over in the clock's half range: d is d or earlier than now by [1, 2^31) (R241, R244). -/
def passed (now d : Nat) : Bool := let x := (now + 2 ^ 32 - d % 2 ^ 32) % 2 ^ 32; decide (1 ≤ x ∧ x < 2 ^ 31)

end Sys2Proof.Machine
end

