-- ==== Sys2Proof/Machine/Access.lean ====
section
/-! DEFINITION. Who reaches which register page (R15, R21, R47–R50): presence, power, implemented pages, masters. -/
namespace Sys2Proof.Machine

/-- A page of 64 KiB holds one of the registers base, base + strides. -/
def pageHit : List (Nat × Nat) → Nat → Nat → Bool
  | [], base, page => base / 65536 == page
  | (st, ct) :: ds, base, page =>
    if 65536 ≤ st then
      let i := (page * 65536 - base) / st
      (decide (i < ct) && pageHit ds (base + i * st) page) || (decide (i + 1 < ct) && pageHit ds (base + (i + 1) * st) page)
    else
      let span := (ct - 1) * st + sumN (ds.map (fun d => (d.2 - 1) * d.1))
      decide (base / 65536 ≤ page ∧ page ≤ (base + span) / 65536)

/-- The page of an address is implemented: it holds at least one register (R49). -/
def pageImplemented (a : Nat) : Bool :=
  (regsOfRegion (a / 0x1000000)).any (fun d => pageHit d.dims d.base (a / 65536))

/-- The interrupt files of harts 12 to 23 (R622). -/
def imsicHigh (a : Nat) : Bool := decide (0x5010C000 ≤ a ∧ a < 0x50118000) || decide (0x50260000 ≤ a ∧ a < 0x502C0000)

/-- The power domain a register lies in (R49, R50, R51, R622, the Registers sections); 96 for none. The spec names none for the control page
of the APC block, its APLIC and its IOMMU: they lie in PD_A_CORE (DESIGN CHOICE, log 77). -/
def regDomain (a : Nat) : Nat :=
  let b := a / 0x1000000
  let o := a % 0x1000000
  if b = 0x10 then (if 0x10000600 ≤ a ∧ a < 0x10000620 then 80 else 82)
  else if b = 0x11 then (if a = 0x11000084 then 80 else 82)
  else if b = 0x12 ∨ b = 0x13 then 82
  else if b = 0x14 ∨ b = 0x64 ∨ b = 0x65 ∨ b = 0x66 then 83
  else if b = 0x15 then 81
  else if b = 0x20 ∨ b = 0x21 ∨ b = 0x22 then pdCore (o / 0x800000)
  else if b = 0x23 then (if o < 0x800000 then pdMem (o / 0x400000) else if o < 0x900000 then pdMem ((o - 0x800000) / 0x80000) else 96)
  else if 0x30 ≤ b ∧ b < 0x34 then pdClu ((a - 0x30000000) / 0x100000)
  else if b = 0x40 then pdDun (o / 0x800000)
  else if b = 0x41 then pdSlv (o / 0x800000)
  else if b = 0x42 then pdTlt
  else if b = 0x43 then pdLom
  else if b = 0x50 then (if imsicHigh a then pdCore 1 else pdCore 0)
  else if b = 0x60 then (if o < 0x800000 then pdEth (o / 0x100000) else 96)
  else if b = 0x61 then pdCsi (o / 0x100000)
  else if b = 0x62 then pdPci (o / 0x800000)
  else if b = 0x63 then (if o < 0x300000 then pdZth (o / 0x100000) else 96)
  else 96

/-- A domain of the module: those of I/O die 1 exist on X2 only (R52). -/
def State.pdPresent (s : State) (d : Nat) : Bool := decide (d < 90) || (decide (d < 96) && s.iod1)

/-- The unit behind a register page is present and its domain on (R21, R49, R50). -/
def State.unitUp (s : State) (a : Nat) : Bool :=
  let d := regDomain a
  s.pdPresent d && s.pdOn d && (!decide (0x23000000 ≤ a ∧ a < 0x23800000) || s.sitePresent (a % 0x1000000 / 0x100000))

/-- Registers only the application cores and the management cores may reach at all, or only the management cores (true): the Registers
sections of the chapters. -/
def coresOnly (a : Nat) : Bool :=
  let b := a / 0x1000000
  decide (0x20001000 ≤ a ∧ a < 0x20003000) || decide (0x20100000 ≤ a ∧ a < 0x20800000) || decide (0x20900000 ≤ a ∧ a < 0x21000000)
    || decide (0x10000400 ≤ a ∧ a < 0x11000000) || decide (0x14000008 ≤ a ∧ a < 0x15000000)
    || [0x11, 0x12, 0x13, 0x15, 0x21, 0x22, 0x40, 0x41, 0x42, 0x43, 0x50, 0x60, 0x61, 0x62, 0x63, 0x64, 0x65, 0x66].contains b

/-- A master that R15 shuts out of a register: R598 leaves the flash port to the management cores. -/
def barred (m a : Nat) : Bool := (coresOnly a && !isCore m) || (decide (a / 0x1000000 = 0x64) && m != 0x61)

/-- A read of the register at a by master m meets no bus error. -/
def State.mayRead (s : State) (m a : Nat) : Bool :=
  decide (a % 4 = 0) && s.unitUp a && pageImplemented a && !barred m a

/-- Tilth's inputs and commits are open to every master for writes (Registers of chapter 14). -/
def tltOpen (a : Nat) : Bool := decide (0x42010000 ≤ a ∧ a < 0x42011000) || (decide (0x42011000 ≤ a ∧ a < 0x42011100) && a % 0x40 == 0)

/-- A write is open to master m (R14, access notes of the chapters). -/
def Writers.allow (w : Writers) (m : Nat) : Bool :=
  match w with
  | .all => true
  | .mgt => m == 0x61
  | .appsMgt => isCore m
  | .nobody => true

/-- A write of the register at a by master m meets no bus error; doorbells of the mailbox are the application cores' alone (R654). -/
def State.mayWrite (s : State) (m a : Nat) : Bool :=
  decide (a % 4 = 0) && s.unitUp a && pageImplemented a && (tltOpen a || !barred m a)
    && (match regAt a with | some d => d.who.allow m | none => true) && (a != 0x10000500 || m == 0x60)

/-- What only the application cores in machine mode and the management cores may reach: the control page, the machine-level interrupt files, the
machine domain of the APLIC and the IOMMU (R628). -/
def machineOnly (a : Nat) : Bool :=
  decide (a / 0x1000000 = 0x50) && !(decide (0x50200000 ≤ a ∧ a < 0x502C0000) || decide (0x50410000 ≤ a ∧ a < 0x50420000))

/-- A hart in a lower mode (self from 25 on) is shut out of it. -/
def lowBarred (self a : Nat) : Bool := decide (25 ≤ self) && machineOnly a

/-- The outcome of a register write that is a command of its own: a bus error where the access is not allowed, else t. -/
def State.write (s : State) (m a : Nat) (t : State) : Host.Outcome State Fault Refusal :=
  .next (if s.mayWrite m a then t else s.busError)

end Sys2Proof.Machine
end

