-- ==== Sys2Proof/Machine/Headbox.lean ====
section
/-! DEFINITION. The Headbox (chapter 10): routes, classes, charging, holds and queues, windows, latency levels, and the writes of its class
table and class registers. -/
namespace Sys2Proof.Machine

/-! ## Where requests go (R33, R35, R362) -/

/-- The dies a master's requests come from (R49–R51): 0 die A, 1 die B, 2 I/O die 0, 3 I/O die 1. -/
def masterDies (m : Nat) : List Nat :=
  if m < 0x40 then [m / 32]
  else if m < 0x50 then [(m - 0x40) / 8]
  else if m = 0x50 ∨ m = 0x60 then [0, 1]
  else if m = 0x58 ∨ m = 0x5A then [0]
  else if m = 0x59 ∨ m = 0x5B then [1]
  else if m = 0x71 ∨ m = 0x72 ∨ m = 0x75 then [3]
  else if m = 0x78 ∨ m = 0x79 then [2, 3]
  else [2]

/-- The die named, where the master sends from it, else the first it sends from. -/
def srcDie (m d : Nat) : Nat := if (masterDies m).contains d then d else (masterDies m).head?.getD 0

/-- The home die of an address outside the register pages (R33, R47, R48); none for a register, which the control mesh carries (R39), and for a
window of I/O die 1 where there is none (R34). -/
def State.homeDie (s : State) (a : Nat) : Option Nat :=
  let io1 := if s.iod1 then some 3 else none
  if s.isDram a then some (s.siteOf a / 4)
  else if isVat a then some (vatCluster a / 32)
  else if 0x200000000 ≤ a ∧ a < 0x300000000 then (if a < 0x280000000 then some 2 else io1)
  else if 0x300000000 ≤ a ∧ a < 0x3C0000000 then (if a < 0x340000000 then some 2 else io1)
  else if a < 0x10000000 then some 2
  else none

/-- Queues by key: 0–7 the controllers, 8 + 4 x + y the link from die x to die y, 24 the requests that wait at their master ports. -/
def hopCtl (site : Nat) : Nat := site
def hopLink (x y : Nat) : Nat := 8 + 4 * x + y
def hopPorts : Nat := 24

/-- The queues on the way of a request from die src to address a, in order (R35, R362): a request between the I/O dies passes the compute die that bit
16 of the address names. -/
def State.hbxRoute (s : State) (src a : Nat) : List Nat :=
  match s.homeDie a with
  | none => []
  | some h =>
    let ctl := if s.isDram a then [hopCtl (s.siteOf a)] else []
    if src = h then ctl
    else if src < 2 then hopLink src h :: ctl
    else if h < 2 then hopLink src h :: ctl
    else [hopLink src (a / 65536 % 2), hopLink (a / 65536 % 2) h]

/-- A queue that a Headbox instance regulates: the controllers and the links out of the compute dies; the I/O dies carry no instance (R362). -/
def hopOwn (k : Nat) : Bool := decide (k < 16)

/-- Instance and target number of a queue: controllers 0–3, link 0 to the other compute die, 1 and 2 to the I/O dies (R362, R385). -/
def hopInst (k : Nat) : Nat := if k < 8 then k / 4 else (k - 8) / 4
def hopTarget (k : Nat) : Nat := if k < 8 then k % 4 else if (k - 8) % 4 < 2 then 4 else (k - 8) % 4 + 3

/-! ## Classes (R364–R367) -/

/-- The partition a cluster belongs to, none when it is in no enabled partition's mask. -/
def State.cluPart (s : State) (n : Nat) : Option Nat := (List.range 8).find? (fun p => s.partOn p && bitN (s.partMask p) n)

/-- The words of an entry as the master ports hold them: the old ones while a change is still being copied (R367). -/
def State.hbxEntry (s : State) (e : Nat) : Word × Word × Word :=
  let now := (s.rd (HBX_MATCH_CTRL.addr e), s.rd (HBX_MATCH_BASE.addr e), s.rd (HBX_MATCH_LIMIT.addr e))
  match s.hbxCopy with
  | some (k, w) => if k = e then w else now
  | none => now

/-- An entry of the class table matches a request (R366). -/
def State.hbxMatches (s : State) (a m e : Nat) : Bool :=
  let w := s.hbxEntry e
  bits w.1 31 31 == 1 && Nat.land (Nat.xor m (bits w.1 15 8)) (bits w.1 7 0) == 0
    && (bits w.1 30 30 == 0 || decide (w.2.1.toNat ≤ a / 65536 ∧ a / 65536 ≤ w.2.2.toNat))

/-- Rank of an entry on the two tests of R366: window, then priority. -/
def State.hbxRank (s : State) (e : Nat) : Nat := let w := (s.hbxEntry e).1; bits w 30 30 * 4 + bits w 29 28

/-- The entries that match a request and rank highest. -/
def State.hbxTop (s : State) (a m : Nat) : List Nat :=
  let es := (List.range 64).filter (s.hbxMatches a m)
  es.filter (fun e => s.hbxRank e == maxN (es.map s.hbxRank))

/-- The class of a request (R364): part is the partition of a page mover's move or copy, above 7 for its and every other master's other
requests. -/
def State.hbxClass (s : State) (m part a : Nat) : Nat :=
  let table := match s.hbxTop a m with
    | [] => s.fld HBX_TBL_CTRL.DEFAULT_CLASS
    | e :: _ => bits (s.hbxEntry e).1 20 16
  if m < 64 then (match s.cluPart m with | some p => s.partClass p | none => table)
  else if m ≤ 0x50 ∧ part < 8 then s.partClass part
  else table

/-- A request of this master is classified by the table. -/
def State.hbxByTable (s : State) (m part : Nat) : Bool := if m < 64 then (s.cluPart m).isNone else !decide (m ≤ 0x50 ∧ part < 8)

/-- The request counted where the table decides, once, at its master port (R366). -/
def State.hbxCount (s : State) (m part a : Nat) : State :=
  if !s.hbxByTable m part then s
  else match s.hbxTop a m with
    | [] => s.bump HBX_NO_MATCH.COUNT 1
    | [_] => s
    | _ :: _ :: _ => s.bump HBX_MULTI_MATCH.COUNT 1

/-! ## Windows (R368, R373) -/

/-- A class of an instance, by its key. -/
def hbxKey (i c : Nat) : Nat := i * 32 + c
def State.hbx (s : State) (i c : Nat) : HbxClass := Sparse.get (fun _ => HbxClass.init) s.hbxs (hbxKey i c)
def State.setHbx (s : State) (i c : Nat) (x : HbxClass) : State := { s with hbxs := Sparse.set (fun _ => HbxClass.init) s.hbxs (hbxKey i c) x }

/-- Window length of a CLASS word, in ns. -/
def windowNs (w : Word) : Nat := 64 * 2 ^ bits w 31 28

/-- The CLASS and budget words as written, and as they govern: the old ones until the first boundary of the new length (R373). -/
def State.hbxWritten (s : State) (i c : Nat) : Word × List Word :=
  (s.rd (HBX_CLASS.addr i c), s.rd (HBX_BUDGET.addr i c) :: (List.range 3).map (fun l => s.rd (HBX_LINK_BUDGET.addr i c l)))
def State.hbxForce (s : State) (i c : Nat) : Word × List Word := match (s.hbx i c).old with | some o => o.1 | none => s.hbxWritten i c

/-- A boundary has come since the class was last looked at: none, or whether it is one of the written window length. -/
def State.hbxDue (s : State) (i c : Nat) : Option Bool :=
  let x := s.hbx i c
  let w := windowNs (s.hbxForce i c).1
  let new := windowNs (s.hbxWritten i c).1
  if (match x.old with | some o => s.now / new != o.2 / new | none => false) then some true
  else if s.now / w != x.lastB / w then some false
  else none

/-- HELD brought up to moment u of the module clock (R388). -/
def State.hbxHeldTo (s : State) (i c u : Nat) : State :=
  let x := s.hbx i c
  if s.fld (HBX_STATUS.HOLD i c) = 0 ∨ u ≤ x.heldSince then s
  else (s.bump (HBX_HELD.COUNT i c) (s.cyclesIn 1 1600 x.heldSince u)).setHbx i c { x with heldSince := u }

/-- A window of a class ends (R368): USED and the hold bits clear, HELD having counted its cycles up to the first boundary that has come, of the window
length in force or of the one written (R373, R388); renew: written settings come into force. -/
def State.hbxBoundary (s : State) (i c : Nat) (renew : Bool) : State :=
  let w := windowNs (s.hbxForce i c).1
  let new := windowNs (s.hbxWritten i c).1
  let own := ((s.hbx i c).lastB / w + 1) * w
  let first := match (s.hbx i c).old with | some o => Nat.min own ((o.2 / new + 1) * new) | none => own
  let since := s.now - Nat.min s.now first
  let s0 := s.hbxHeldTo i c (s.cyc - Nat.min s.cyc since)
  let x := s0.hbx i c
  let s1 := s0.setHbx i c { x with old := if renew then none else x.old, ctl := 0, links := [0, 0, 0], wentOver := false, lastB := s.now }
  ((s1.setF (HBX_USED.UNITS i c) 0).setF (HBX_STATUS.HOLD i c) 0).setF (HBX_STATUS.OVER i c) 0

/-- A boundary that has come acts before anything else (R373). -/
def State.hbxSync (s : State) (i c : Nat) : State := match s.hbxDue i c with | some r => s.hbxBoundary i c r | none => s

/-- HBX_WINDOW_BOUNDARY (R368): a boundary of class c's window in instance i has come. -/
def execHbxWindowBoundary (i c : Nat) (s : State) : Host.Outcome State Fault Refusal :=
  answer (s.pdOn (pdCore i) && (s.hbxDue i c).isSome) s (s.start.hbxSync i c)

/-- Boundaries that have come before the time base is stepped act first (R373). -/
def State.hbxSettle (s : State) : State := s.hbxs.foldl (fun (t : State) e => t.hbxSync (e.1 / 32) (e.1 % 32)) s

/-- The time base is stepped: every window ends at once (R368); settings written wait for a boundary of the new length. -/
def State.hbxStepOne (s : State) (i c : Nat) : State :=
  let t := (s.hbxHeldTo i c s.cyc).hbxBoundary i c (s.now % windowNs (s.hbxWritten i c).1 == 0)
  let x := t.hbx i c
  t.setHbx i c { x with old := x.old.map (fun o => (o.1, s.now)) }
def State.hbxStepped (s : State) : State := s.hbxs.foldl (fun t e => t.hbxStepOne (e.1 / 32) (e.1 % 32)) s

/-! ## Charging, congestion and holds (R363, R368–R372) -/

/-- Budget in force for target t: 0–3 the controllers, 4–6 the links, in bytes; 0 for none (R368). -/
def State.hbxBudget (s : State) (i c t : Nat) : Nat := (getAt (0 : Word) (s.hbxForce i c).2 (if t < 4 then 0 else t - 3)).toNat * 64

/-- Bytes charged for target t's budget in this window. -/
def HbxClass.used (x : HbxClass) (t : Nat) : Nat := if t < 4 then x.ctl else getAt 0 x.links (t - 4)

/-- The class is over its budget for a target (R369). -/
def State.hbxOver (s : State) (i c t : Nat) : Bool := s.hbxBudget i c t != 0 && decide (s.hbxBudget i c t ≤ (s.hbx i c).used t)

/-- A queue, and its length in entries of 64 bytes. -/
def State.hbxQueue (s : State) (k : Nat) : List HbxReq := Sparse.get (fun _ => []) s.hbxq k
def State.setHbxQueue (s : State) (k : Nat) (l : List HbxReq) : State := { s with hbxq := Sparse.set (fun _ => []) s.hbxq k l }
def entries64 (l : List HbxReq) : Nat := sumN (l.map (fun r => ceilDiv r.n 64))

/-- Entries a target's queue holds; of a link, in the fuller of its two directions (R370). -/
def State.hbxOcc (s : State) (i t : Nat) : Nat :=
  if t < 4 then entries64 (s.hbxQueue (hopCtl (i * 4 + t)))
  else if t = 4 then Nat.max (entries64 (s.hbxQueue (hopLink 0 1))) (entries64 (s.hbxQueue (hopLink 1 0)))
  else Nat.max (entries64 (s.hbxQueue (hopLink i (t - 3)))) (entries64 (s.hbxQueue (hopLink (t - 3) i)))

/-- A target is congested (R370). -/
def State.congested (s : State) (i t : Nat) : Bool :=
  let h := if t < 4 then s.fld (HBX_CFG.CTL_HWM i) else s.fld (HBX_CFG.LINK_HWM i)
  h != 0 && decide (h ≤ s.hbxOcc i t)

/-- n bytes charged to class c for target t, in the window that holds now (R363, R369, R373, R387, R388). -/
def State.hbxCharge (s : State) (i c t n : Nat) : State :=
  let s := s.hbxSync i c
  let x := s.hbx i c
  let x1 := if t < 4 then { x with ctl := x.ctl + n } else { x with links := setAt x.links (t - 4) (getAt 0 x.links (t - 4) + n) }
  let s0 := s.setHbx i c x1
  let above := s0.hbxOver i c t
  let total := (s.fld (HBX_BYTES_LO.BYTES i c) + 2 ^ 32 * s.fld (HBX_BYTES_HI.BYTES i c) + n) % 2 ^ 64
  let s1 := s0.setHbx i c { x1 with wentOver := x.wentOver || above }
  let s2 := (s1.setF (HBX_BYTES_LO.BYTES i c) (total % 2 ^ 32)).setF (HBX_BYTES_HI.BYTES i c) (total / 2 ^ 32)
  let s3 := (s2.setF (HBX_USED.UNITS i c) (Nat.min sat32 (ceilDiv x1.ctl 64))).setF (HBX_STATUS.OVER i c) (b2n (s0.hbxOver i c 0))
  if above && !x.wentOver then s3.bump (HBX_OVER_WIN.COUNT i c) 1 else s3

/-- The hold bit of (c, t) set, once over and congested (R371). -/
def State.hbxHold (s : State) (i c t : Nat) : State :=
  let s := s.hbxSync i c
  let h := s.fld (HBX_STATUS.HOLD i c)
  if s.hbxOver i c t && s.congested i t && !bitN h t then
    let s1 := s.setF (HBX_STATUS.HOLD i c) (h + 2 ^ t)
    if h = 0 then s1.setHbx i c { (s1.hbx i c) with heldSince := s.cyc } else s1
  else s

/-- Every class that is over its budget for a congested target is held. -/
def State.hbxHolds (s : State) : State :=
  s.hbxs.foldl (fun u e => (List.range 7).foldl (fun v t => v.hbxHold (e.1 / 32) (e.1 % 32) t) u) s

/-- A hold bit in force: the bits of a window that is over do not count. -/
def State.hbxHeld (s : State) (i c t : Nat) : Bool := (s.hbxDue i c).isNone && bitN (s.fld (HBX_STATUS.HOLD i c)) t
def State.hbxBarred (s : State) (c : Nat) (route : List Nat) : Bool := route.any (fun k => hopOwn k && s.hbxHeld (hopInst k) c (hopTarget k))

/-- The level of a class from its base level and latencies (R375). -/
def hbxLevel (cls : Word) (avg : Nat) : Nat :=
  let l := if bits cls 15 0 = 0 then 0 else Nat.min 7 (8 * avg / bits cls 15 0)
  Nat.max (bits cls 27 25) l

/-- The level in force: as the last measured read left it; before the first one, the base level (R375). -/
def State.hbxLevelOf (s : State) (i c : Nat) : Nat :=
  if (s.hbx i c).lats.isEmpty then bits (s.hbxForce i c).1 27 25 else s.fld (HBX_STATUS.LEVEL i c)

/-! ## Requests (R362–R364, R371, R376) -/

/-- A request is forwarded to the next queue of its route: by an instance, which charges it and gives it the level of its class, or by an I/O die. -/
def State.hbxPass (s : State) (r : HbxReq) : State :=
  match r.route with
  | [] => s
  | k :: rest =>
    if !hopOwn k then (s.setHbxQueue k (s.hbxQueue k ++ [{ r with route := rest, level := 0, since := s.cyc, aged := false }])).hbxHolds
    else
    let t := s.hbxCharge (hopInst k) r.cls (hopTarget k) r.n
    (t.setHbxQueue k (t.hbxQueue k ++ [{ r with route := rest, level := t.hbxLevelOf (hopInst k) r.cls, since := s.cyc, aged := false }])).hbxHolds

/-- Entries of a queue, and room for one more request. -/
def hopSize (k : Nat) : Nat := if k < 8 then 512 else 256
def State.hbxRoom (s : State) (r : HbxReq) : Bool :=
  match r.route with
  | [] => true
  | k :: _ => (s.hbxQueue k).isEmpty || decide (entries64 (s.hbxQueue k) + ceilDiv r.n 64 ≤ hopSize k)

/-- A request may leave its port: no target of its route is held for its class, there is room, and every earlier request from the same port to a
common target has left, but those of other classes that are held (R371). -/
def State.hbxMayIssue (s : State) (r : HbxReq) (before : List HbxReq) : Bool :=
  !s.hbxBarred r.cls r.route && s.hbxRoom r
    && !before.any (fun x => x.m == r.m && x.src == r.src && x.route.any r.route.contains && (x.cls == r.cls || !s.hbxBarred x.cls x.route))

/-- Instances on a route whose domain is off. -/
def State.hbxDark (s : State) (route : List Nat) : Bool := route.any (fun k => hopOwn k && !s.pdOn (pdCore (hopInst k)))

/-- A new request at its master port: classified once, issued if it may be, else kept there (R364, R371). -/
def State.hbxNew (s : State) (m part src a n : Nat) (rd : Bool) : State :=
  let route := s.hbxRoute src a
  let r : HbxReq := ⟨m, src, s.hbxClass m part a, a, n, rd, route, 0, s.cyc, false⟩
  if route.isEmpty then s
  else
    let t := s.hbxCount m part a
    if t.hbxMayIssue r (t.hbxQueue hopPorts) then t.hbxPass r else t.setHbxQueue hopPorts (t.hbxQueue hopPorts ++ [r])

/-- The request at place j of a queue is the one to be served next (R376): none has a higher level; on a link none of its level is older. In a
controller, one that is not the oldest of its level is a row hit: which requests hit is open (log 84). -/
def hbxNext (k : Nat) (l : List HbxReq) (j : Nat) : Bool :=
  match l[j]? with
  | none => false
  | some r => l.all (fun x => decide (x.level ≤ r.level)) && (decide (k < 8) || (l.take j).all (fun x => decide (x.level < r.level)))

/-- A request leaves a queue: to the next target of its route, or to its end. -/
def State.hbxLeave (s : State) (k j : Nat) (r : HbxReq) : State :=
  let t := s.setHbxQueue k ((s.hbxQueue k).eraseIdx j)
  t.hbxPass r

/-- HBX_REQUEST_FORWARD (R362–R364, R366, R369–R371): with new, a request of n bytes at a, by master m from die src, for a move or copy of
partition part, reaches its master port; else request j of queue k goes on: from its port, from a link, or, a write, into the memory. -/
def execHbxRequestForward (new : Bool) (m part src a n : Nat) (rd : Bool) (k j : Nat) (s : State) : Host.Outcome State Fault Refusal :=
  if new then answer ((masterDies m).contains src && (src != 3 || s.iod1) && n != 0 && !s.hbxDark (s.hbxRoute src a)) s (s.start.hbxNew m part src a n rd)
  else match (s.hbxQueue k)[j]? with
    | none => answer false s s
    | some r =>
      let ok := if k = hopPorts then s.hbxMayIssue r ((s.hbxQueue k).take j) else hbxNext k (s.hbxQueue k) j && s.hbxRoom r && !(decide (k < 8) && r.rd)
      answer (ok && !s.hbxDark (r.route ++ (if k = hopPorts then [] else [k]))) s (s.start.hbxLeave k j r)

/-- Requests whose data another command moves: n bytes at a, charged at every target of their route as they are forwarded there. -/
def State.regulate (s : State) (m part src a n : Nat) : State :=
  let c := s.hbxClass m part a
  let route := s.hbxRoute src a
  if route.isEmpty then s
  else ((route.filter hopOwn).foldl (fun t k => t.hbxCharge (hopInst k) c (hopTarget k) n) (s.hbxCount m part a)).hbxHolds

/-- The same for a range, block by block. -/
def State.regulateRange (s : State) (m part src : Nat) (r : Nat × Nat) : State :=
  (rangeBlocks r.1 r.2).foldl (fun t b =>
    let lo := Nat.max r.1 (b * 4096)
    t.regulate m part src lo (Nat.min (r.1 + r.2) ((b + 1) * 4096) - lo)) s
def State.regulateAll (s : State) (m part src : Nat) (rs : List (Nat × Nat)) : State := rs.foldl (fun t r => t.regulateRange m part src r) s

/-- The same for a list of byte writes. -/
def State.regulateWrites (s : State) (m part src : Nat) (ws : List (Addr × Byte)) : State :=
  (writeBlocks ws).foldl (fun t b => t.regulate m part src (b * 4096) ((ws.filter (fun w => w.1 / 4096 == b)).length)) s

/-- Some of these ranges lies where the class of master m's requests is held: no port issues them now (R371). -/
def State.hbxBars (s : State) (m part src : Nat) (rs : List (Nat × Nat)) : Bool :=
  rs.any (fun r => (rangeBlocks r.1 r.2).any (fun b =>
    let a := Nat.max r.1 (b * 4096)
    s.hbxBarred (s.hbxClass m part a) (s.hbxRoute src a)))
/-- The same for a list of byte writes. -/
def State.hbxBarsWrites (s : State) (m part src : Nat) (ws : List (Addr × Byte)) : Bool :=
  s.hbxBars m part src ((writeBlocks ws).map (fun b => (b * 4096, 1)))

/-- An access stands in a queue; in the last of its route it has been charged everywhere; before that it is still on its way. -/
def State.hbxIn (s : State) (k m a n : Nat) (rd : Bool) : Bool := (s.hbxQueue k).any (fun r => r.m == m && r.a == a && r.n == n && r.rd == rd)
def State.hbxQueued (s : State) (m src a n : Nat) (rd : Bool) : Bool :=
  match (s.hbxRoute src a).getLast? with | some k => s.hbxIn k m a n rd | none => false
def State.hbxOnWay (s : State) (m src a n : Nat) (rd : Bool) : Bool := (hopPorts :: s.hbxRoute src a).any (fun k => s.hbxIn k m a n rd)

/-- The partition whose class a request of a page mover carries: that of the ring of the move mv, or of a move of it in progress with the
address among its ranges, or of a copy it makes from or to there (R364); above 7 for any other request. -/
def State.moverPart (s : State) (m mv a : Nat) : Nat :=
  let holds := fun (v : Move) => (v.reads ++ v.writes).any (fun r => decide (r.1 ≤ a ∧ a < r.1 + r.2))
  if 0x40 ≤ m ∧ m < 0x50 then
    match (s.mover (m - 0x40)).moves.find? (fun v => if mv = 0 then holds v else v.id == mv) with
    | some v => v.ring
    | none => match s.cows.find? (fun c => c.mover == some (m - 0x40) && (c.old == (a - dramBase) / 0x10000 || c.new == (a - dramBase) / 0x10000)) with
      | some c => c.part
      | none => 8
  else 8

/-- An access with the outcome t, of the move mv (0: none), passes the Headbox: one that its port may not issue now is kept there and waits, and it is
charged unless it came through the queues or found no memory to go to (R363, R371). -/
def State.gated (s : State) (m src a n : Nat) (rd : Bool) (mv : Nat) (t : State) : State :=
  let part := s.moverPart m mv a
  let r : HbxReq := ⟨m, src, s.hbxClass m part a, a, n, rd, s.hbxRoute src a, 0, s.cyc, false⟩
  if s.hbxQueued m src a n rd then t
  else if s.hbxOnWay m src a n rd then s.say .waits
  else match t.resp with
    | .waits => t
    | .busError => t
    | .accessFault => t
    | _ =>
      if !s.hbxMayIssue r (s.hbxQueue hopPorts) then (s.hbxNew m part src a n rd).say .waits
      else t.regulate m part src a n

/-! ## Units' own writes (R334) -/

/-- What follows a write that has landed (R221, R238, R267, R403). -/
def State.followed (s : State) : After → State
  | .nothing => s
  | .record q err sig =>
    let t := (s.setF (DCK_QUEUE_CPL_TAIL.COUNT q) ((s.fld (DCK_QUEUE_CPL_TAIL.COUNT q) + 1) % 2 ^ 32)).irqMsg (DCK_QUEUE_IRQ.EN q)
      (DCK_QUEUE_IRQ.ERR_ONLY q) (DCK_QUEUE_IRQ.HART q) (DCK_QUEUE_IRQ.EIID q) err
    match sig with
    | some (c, cancel) => if cancel then t.cellCancel c 1 else t.cellAdd c 1
    | none => t
  | .broke => (s.setF ITG_BROKE_TAIL.COUNT ((s.fld ITG_BROKE_TAIL.COUNT + 1) % 2 ^ 32)).irqMsg ITG_BROKE_IRQ.EN ITG_BROKE_IRQ.ERR_ONLY
      ITG_BROKE_IRQ.HART ITG_BROKE_IRQ.EIID true

/-- Two writes of one ring: they land in order. -/
def After.sameRing : After → After → Bool
  | .record q _ _, .record r _ _ => q == r
  | .broke, .broke => true
  | _, _ => false

/-- A waiting write holds up a later one: of the same ring, or of the same blocks. -/
def Late.before (x : Late) (y : Late) : Bool :=
  x.after.sameRing y.after
    || decide (x.addr / 4096 ≤ (y.addr + y.bytes.length - 1) / 4096 ∧ y.addr / 4096 ≤ (x.addr + x.bytes.length - 1) / 4096)

/-- A unit's write lands, whole record at once, no operation or move behind it, charged to the class the table gives it (R362–R364). -/
def State.landOne (s : State) (x : Late) : State :=
  (((s.regulateRange x.writer 8 x.die (x.addr, x.bytes.length)).store ⟨x.writer, 0, false, false, x.kind⟩ (placed x.addr x.bytes) 0 0).1).followed x.after

/-- A unit's write that its own rules keep inside DRAM it may use: it lands, or waits while a block of it is being filled or an earlier write holds
it up. -/
def State.putThen (s : State) (x : Late) : State :=
  if s.filling x.addr x.bytes.length || s.late.any (fun y => y.before x) then { s with late := s.late ++ [x] } else s.landOne x

/-- A unit's write that nothing follows. -/
def State.put (s : State) (writer a : Nat) (bs : List Byte) : State := s.putThen ⟨writer, writerKind writer, srcDie writer 4, a, bs, .nothing⟩

/-- A unit's read, charged to the class the table gives it. -/
def State.unitRead (s : State) (m a n : Nat) : State := s.regulateRange m 8 (srcDie m 4) (a, n)

/-- Waiting writes whose blocks have been filled land, in order. -/
def State.landLate (s : State) : State := s.late.foldl (fun (t : State) x => t.putThen x) { s with late := [] }

/-- Waiting writes of a ring: its next record comes after them. -/
def State.lateOf (s : State) (k : After) : Nat := (s.late.filter (fun x => x.after.sameRing k)).length

/-! ## Latency and age (R374–R376) -/

/-- A read of class c took lat ns at instance i: LAT_AVG and the level follow (R374, R375). -/
def State.hbxLatency (s : State) (i c lat : Nat) : State :=
  let x := s.hbx i c
  let l := (lat :: x.lats).take 16
  let avg := Nat.min 65535 (sumN l / 16)
  ((s.setHbx i c { x with lats := l }).setF (HBX_STATUS.LAT_AVG i c) avg).setF (HBX_STATUS.LEVEL i c) (hbxLevel (s.hbxForce i c).1 avg)

/-- HBX_READ_COMPLETE (R374–R376): controller k has forwarded the last data byte of read j of its queue. -/
def execHbxReadComplete (k j : Nat) (s : State) : Host.Outcome State Fault Refusal :=
  match (s.hbxQueue k)[j]? with
  | none => answer false s s
  | some r =>
    let t := (s.start.setHbxQueue k ((s.hbxQueue k).eraseIdx j)).hbxSync (k / 4) r.cls
    answer (decide (k < 8) && r.rd && hbxNext k (s.hbxQueue k) j && s.pdOn (pdCore (k / 4))) s (t.hbxLatency (k / 4) r.cls (s.cyc - r.since))

/-- HBX_AGE_RAISE (R376): request j of queue k has waited long enough; it is raised to level 7, once. -/
def execHbxAgeRaise (k j : Nat) (s : State) : Host.Outcome State Fault Refusal :=
  let i := hopInst k
  let a := s.fld (HBX_CFG.AGE_64NS i)
  match (s.hbxQueue k)[j]? with
  | none => answer false s s
  | some r =>
    answer (hopOwn k && s.pdOn (pdCore i) && a != 0 && !r.aged && decide (a * 64 ≤ s.cyc - r.since)) s
      ((s.start.setHbxQueue k (setAt (s.hbxQueue k) j { r with level := 7, aged := true })).bump (HBX_AGED.COUNT i) 1)

/-- An address in a class's registers. -/
def hbxClassReg (a : Nat) : Bool := decide (0x22000000 ≤ a ∧ a < 0x23000000 ∧ 0x10000 ≤ a % 0x800000 ∧ a % 0x800000 < 0x10800)

/-- The registers of a class as a read finds them: a boundary that has come has acted, HELD is counted to this moment, LEVEL is the one in
force (R385–R388). -/
def State.hbxShow (s : State) (i c : Nat) : State :=
  let t := s.hbxSync i c
  let t := t.hbxHeldTo i c t.cyc
  t.setF (HBX_STATUS.LEVEL i c) (t.hbxLevelOf i c)

/-! ## Register writes (R367, R373) -/

/-- A BASE or LIMIT word is held until its CTRL word is written; refused while the table is copied (R367). -/
def State.hbxHeldWrite (s : State) (a : Nat) (w : Word) : State :=
  if s.flag HBX_TBL_CTRL.BUSY then s.setF HBX_TBL_CTRL.REJECT 1 else s.hold a w

/-- The CTRL word of entry e written (R367). -/
def State.hbxMatchWrite (s : State) (e : Nat) (w : Word) : State :=
  let base := s.heldOr (HBX_MATCH_BASE.addr e)
  let limit := s.heldOr (HBX_MATCH_LIMIT.addr e)
  if s.flag HBX_TBL_CTRL.BUSY then s.setF HBX_TBL_CTRL.REJECT 1
  else
    let s1 := s.setF HBX_TBL_CTRL.LAST_ENTRY e
    if bits w 30 30 = 1 ∧ limit.toNat < base.toNat then s1.setF HBX_TBL_CTRL.REJECT 1
    else
      let s1 := { s1 with hbxCopy := some (e, s.hbxEntry e) }
      let s2 := (((s1.wr (HBX_MATCH_CTRL.addr e) (w &&& 0xF01FFFFF)).wr (HBX_MATCH_BASE.addr e) base).wr (HBX_MATCH_LIMIT.addr e) limit)
      ((s2.unhold (HBX_MATCH_BASE.addr e)).unhold (HBX_MATCH_LIMIT.addr e)).setF HBX_TBL_CTRL.BUSY 1

/-- HBX_MATCH_CTRL_WRITE (R367). -/
def execHbxMatchCtrlWrite (m e v : Nat) (s : State) : Host.Outcome State Fault Refusal :=
  s.write m (HBX_MATCH_CTRL.addr e) (s.start.hbxMatchWrite e (BitVec.ofNat 32 v))

/-- The changed entry has reached every master port. -/
def State.hbxCopied (s : State) : State := { s with hbxCopy := none }.setF HBX_TBL_CTRL.BUSY 0

/-- HBX_TABLE_COPY_DONE (R367): the ports switch to the new entry together (log 84). -/
def execHbxTableCopyDone (s : State) : Host.Outcome State Fault Refusal :=
  answer (s.flag HBX_TBL_CTRL.BUSY) s s.start.hbxCopied

/-- A word of a class's settings is written: until the first boundary of the new window length what governs now goes on (R373). -/
def State.hbxKeep (s : State) (i c : Nat) : State :=
  let t := s.hbxSync i c
  t.setHbx i c { (t.hbx i c) with old := some (t.hbxForce i c, t.now) }

/-- A write of a class's CLASS (k = 0), BUDGET (1) or LINK_l_BUDGET (2 + l) register. -/
def State.hbxClassWrite (s : State) (i c k : Nat) (w : Word) : State :=
  if k = 0 then (if 13 ≤ bits w 31 28 then s else (s.hbxKeep i c).wr (HBX_CLASS.addr i c) (w &&& 0xFFFCFFFF))
  else if k = 1 then (s.hbxKeep i c).wr (HBX_BUDGET.addr i c) w
  else (s.hbxKeep i c).wr (HBX_LINK_BUDGET.addr i c (k - 2)) w

/-- Address of such a register. -/
def hbxClassAddr (i c k : Nat) : Nat :=
  if k = 0 then HBX_CLASS.addr i c else if k = 1 then HBX_BUDGET.addr i c else HBX_LINK_BUDGET.addr i c (k - 2)

/-- HBX_CLASS_WRITE (R373, R384): there are three links. -/
def execHbxClassWrite (m i c k v : Nat) (s : State) : Host.Outcome State Fault Refusal :=
  if 5 ≤ k then answer false s s
  else s.write m (hbxClassAddr i c k) (s.start.hbxClassWrite i c k (BitVec.ofNat 32 v))

/-- The rate the Headbox wires drive on a cluster (R372): THROTTLE_Q of its class while any hold bit of the class is set. -/
def State.hbxRate (s : State) (n : Nat) : Nat :=
  match s.cluPart n with
  | none => 64
  | some p =>
    let c := s.partClass p
    (List.range 2).foldl (fun r i =>
      if s.fld (HBX_STATUS.HOLD i c) = 0 ∨ (s.hbxDue i c).isSome then r else Nat.min r (Nat.min 64 (bits (s.hbxForce i c).1 24 18))) 64

end Sys2Proof.Machine
end

