-- ==== Sys2Proof/Machine/Decomp.lean ====
section
/-! DEFINITION. The memory-side decompressor (R340–R344): frames, streams and canonical Huffman codes, as functions of bytes. -/
namespace Sys2Proof.Machine

/-- A stream table entry (R341). -/
structure Stream where
  off : Nat
  bytes : Nat
  comp : Nat
  compBytes : Nat
  coding : Nat
  rsvd : Nat
  sym : Nat

def streamAt (f : List Byte) (i : Nat) : Stream :=
  let e := 32 + 16 * i
  let m := leAt f (e + 15) 1
  ⟨leAt f e 4, leAt f (e + 4) 4, leAt f (e + 8) 4, leAt f (e + 12) 3, m % 4, m / 4 % 4, m / 16⟩

/-- Bit i of a byte string, most significant bit of each byte first (R343). -/
def msbBit (bs : List Byte) (i : Nat) : Nat := leAt bs (i / 8) 1 / 2 ^ (7 - i % 8) % 2

/-- Code lengths of the symbols of a table (R342). -/
def codeLens (bs : List Byte) (w : Nat) : List Nat := (List.range (2 ^ w)).map (fun s => leAt bs (s / 2) 1 / 16 ^ (s % 2) % 16)

/-- The table satisfies R342: Kraft's sum is at most 1, a single symbol has length 1, and some symbol is present. -/
def lensOk (ls : List Nat) : Bool :=
  let present := ls.filter (· != 0)
  decide (0 < present.length ∧ sumN (present.map (fun l => 2 ^ (15 - l))) ≤ 2 ^ 15) && (present.length != 1 || present == [1])

/-- First code of each length: (first, count) for lengths 1 to 15 (R342). -/
def firstCodes (ls : List Nat) : Nat → Nat → List (Nat × Nat)
  | _, 0 => []
  | first, k + 1 =>
    let l := 15 - k
    let c := (ls.filter (· == l)).length
    (first, c) :: firstCodes ls ((first + c) * 2) k

/-- One symbol from bit position i: (symbol, next position), trying lengths 1 to 15. -/
def decodeSym (ls : List Nat) (fc : List (Nat × Nat)) (bs : List Byte) (bits : Nat) : Nat → Nat → Nat → Option (Nat × Nat)
  | 0, _, _ => none
  | k + 1, code, i =>
    if bits ≤ i then none
    else
      let l := 15 - k
      let c := code * 2 + msbBit bs i
      let f := getAt (0, 0) fc (l - 1)
      if f.1 ≤ c ∧ c < f.1 + f.2 then
        match ((List.range ls.length).filter (fun s => getAt 0 ls s == l))[c - f.1]? with
        | some s => some (s, i + 1)
        | none => none
      else decodeSym ls fc bs bits k c (i + 1)

/-- n symbols from position i, and the position after them. -/
def decodeSyms (ls : List Nat) (fc : List (Nat × Nat)) (bs : List Byte) (bits : Nat) : Nat → Nat → Option (List Nat × Nat)
  | 0, i => some ([], i)
  | n + 1, i =>
    match decodeSym ls fc bs bits 15 0 i with
    | none => none
    | some (s, j) => match decodeSyms ls fc bs bits n j with
      | none => none
      | some (l, e) => some (s :: l, e)

/-- The plain bytes of symbols of w bits, least significant bit first (R343). -/
def packSyms (w : Nat) (l : List Nat) : Nat := (l.foldr (fun s acc => s + 2 ^ w * acc) 0)

/-- The plain bytes of a stream of a frame, none when it breaks R341 to R343. -/
def streamPlain (f : List Byte) (x : Stream) : Option (List Byte) :=
  if x.coding = 0 then (if x.compBytes = x.bytes then some ((f.drop x.comp).take x.bytes) else none)
  else if x.coding = 2 then (if x.comp < 256 ∧ x.compBytes = 0 then some (List.replicate x.bytes (BitVec.ofNat 8 x.comp)) else none)
  else
    let data := (f.drop x.comp).take x.compBytes
    let tl := 2 ^ x.sym / 2
    if x.compBytes < tl then none
    else
      let ls := codeLens (data.take tl) x.sym
      if !lensOk ls then none
      else
        let body := data.drop tl
        let nbits := 8 * body.length
        let n := x.bytes * 8 / x.sym
        match decodeSyms ls (firstCodes ls 0 15) body nbits n 0 with
        | none => none
        | some (l, e) =>
          if e + 8 ≤ nbits ∨ (List.range (nbits - e)).any (fun k => msbBit body (e + k) == 1) then none
          else some (leBytes x.bytes (packSyms x.sym l))

/-- A stream entry obeys R341: its coding, symbol width, place and length. -/
def streamOk (f : List Byte) (n flen : Nat) (x : Stream) : Bool :=
  x.coding != 3 && x.rsvd == 0 && decide (1 ≤ x.bytes)
    && (if x.coding = 1 then (x.sym == 3 || x.sym == 4 || x.sym == 8) && (x.sym != 3 || x.bytes % 3 == 0) else x.sym == 0)
    && (x.coding == 2 || decide (32 + 16 * n ≤ x.comp ∧ x.comp + x.compBytes ≤ flen)) && decide (flen ≤ f.length)

/-- A frame's plain bytes from its FRAME_LEN bytes; none: DECOMP_ERR (R344). -/
def framePlain (f : List Byte) : Option (List Byte) :=
  let n := leAt f 3 1
  let plen := leAt f 4 4
  let flen := leAt f 8 4
  let xs := (List.range n).map (streamAt f)
  let place := fun (i : Nat) => sumN ((xs.take i).map (·.bytes))
  let apart := (List.range n).all (fun i => (List.range n).all (fun j =>
    let a := getAt ⟨0, 0, 0, 0, 2, 0, 0⟩ xs i
    let b := getAt ⟨0, 0, 0, 0, 2, 0, 0⟩ xs j
    i == j || a.coding == 2 || b.coding == 2 || decide (a.comp + a.compBytes ≤ b.comp ∨ b.comp + b.compBytes ≤ a.comp)))
  if leAt f 0 2 ≠ 0x4351 ∨ leAt f 2 1 ≠ 1 ∨ n < 1 ∨ 8 < n ∨ plen < 1 ∨ 65536 < plen ∨ flen < 32 + 16 * n ∨ 65792 < flen
      ∨ leAt f 16 16 ≠ 0 ∨ !xs.all (streamOk f n flen) ∨ !apart
      ∨ !(List.range n).all (fun i => (getAt ⟨0, 0, 0, 0, 2, 0, 0⟩ xs i).off == place i) ∨ place n ≠ plen then none
  else
    match xs.foldl (fun acc x => match acc, streamPlain f x with | some a, some b => some (a ++ b) | _, _ => none) (some []) with
    | none => none
    | some p => if crc32c p = leAt f 12 4 then some p else none

/-- Frames of a move, from the memory read at an address: plain bytes and the frames' own byte ranges; none when one fails. -/
def framesPlain (rd : Nat → Nat → List Byte) : Nat → Nat → Option (List Byte)
  | 0, _ => some []
  | n + 1, a =>
    let flen := leNat ((rd a 12).drop 8)
    match framePlain (rd a (Nat.min flen 65792)) with
    | none => none
    | some p => match framesPlain rd n (a + alignUp flen 256) with
      | none => none
      | some q => some (p ++ q)

/-- Byte ranges of the frames of a move. -/
def frameSpans (rd : Nat → Nat → List Byte) : Nat → Nat → List (Nat × Nat)
  | 0, _ => []
  | n + 1, a =>
    let flen := Nat.min (leNat ((rd a 12).drop 8)) 65792
    (a, Nat.max 32 flen) :: frameSpans rd n (a + alignUp (Nat.max 32 flen) 256)

end Sys2Proof.Machine
end

