-- ==== Sys2Proof/Machine/Kv.lean ====
section
/-! DEFINITION. The key/value page walker (R179–R182, R281, R282), the context an operation is checked in (R171, R176), and the
footprint it writes. -/
namespace Sys2Proof.Machine

/-- Format table entry n as the decoders hold it (R85–R87). -/
def State.fmt (s : State) (n : Nat) : Fmt :=
  Fmt.ofWords (s.rd (MGT_FMT_DESC_LO.addr n)).toNat (s.rd (MGT_FMT_DESC_HI.addr n)).toNat

/-- The clusters of a 64-bit mask, in ascending order. -/
def maskClusters (m : Nat) : List Nat := (List.range 64).filter (fun n => bitN m n)

/-- The descriptor of an operation. -/
def Op.desc (o : Op) : OpDesc := OpDesc.ofBytes o.bytes

/-- The context of an operation on its cluster (R171, R176). -/
def State.opCtx (s : State) (o : Op) : OpCtx :=
  let d := o.desc
  let gs := match s.obj o.handle with | some b => b.grants | none => []
  { fmts := d.fmts.map s.fmt, tds := o.tds.map (fun t => t.map TDesc.ofBytes), clu := o.clu,
    vat := match s.obj o.handle with | some b => (b.vatBase, b.vatBytes) | none => (0, 0),
    reads := (gs.filter (fun g => bitN g.2.2 0)).map (fun g => (g.1, g.2.1)),
    writes := (gs.filter (fun g => bitN g.2.2 1)).map (fun g => (g.1, g.2.1)),
    windows := (maskClusters (s.partMask o.part)).map (fun n => (vatBase n, 0x400000)) }

/-- The slot list of a KV tensor: DIM3 u16 numbers in the cluster's Vat (R179). -/
def State.kvSlots (s : State) (t : TDesc) (clu : Nat) : List Nat :=
  (List.range t.d3).map (fun q => s.nat (vatBase clu + t.base + 2 * q) 2)

/-- The KV slot list of an operation's KV-mode tensor, empty when it has none. -/
def State.opKvSlots (s : State) (x : OpCtx) (d : OpDesc) : List Nat :=
  match (usedSlots d).find? (fun i => (x.t i).mode == 2) with
  | some i => s.kvSlots (x.t i) x.clu
  | none => []

/-- Tokens per sheet of a KV tensor in format f. -/
def kvTps (t : TDesc) (f : Fmt) : Nat := (tokensPerSheet t f).getD 1

/-- The slot is free, a stream, another object's, or its geometry does not agree (R282): the walker faults. -/
def State.kvBad (s : State) (handle : Nat) (t : TDesc) (f : Fmt) (sl page : Nat) : Bool :=
  let e := s.slot sl
  e.state == 0 || e.stream || e.handle != handle || decide (e.layers ≤ t.layer) || kvTps t f != 2 ^ e.log2Tps
    || decide (e.maxPages ≤ page)

/-- Page-table entry of a slot (R281). -/
def Slot.entryAddr (e : Slot) (layer plane page : Nat) : Nat := e.ptBase + 4 * ((layer * 2 + plane) * e.maxPages + page)

/-- Physical base of a mapped sheet, nothing when the entry is not VALID. -/
def State.kvSheet (s : State) (sl layer plane page : Nat) : Option Nat :=
  let w := s.nat ((s.slot sl).entryAddr layer plane page) 4
  if bitN w 31 then some (dramBase + bitsN w 21 0 * 0x10000) else none

/-- The token position of token t of sequence q, given the lengths at dispatch (R179). -/
def Op.kvPos (o : Op) (t : TDesc) (sl i1 : Nat) : Nat :=
  (if t.append then Sparse.get (fun _ => 0) o.kvLens sl else t.startTok) + i1

/-- The address of element 0 of head h of a token within its sheet (R179). -/
def kvOffset (t : TDesc) (f : Fmt) (p h : Nat) : Nat :=
  ((p % kvTps t f) * t.headTotal + t.headBase + h) * t.d0 * elemBytes f

/-- What the walker finds for one token and head of sequence q. -/
inductive KvHit where
  | at (a : Nat)
  | zeros
  | fault
deriving DecidableEq, Repr

/-- A lookup for reading (R180, R282): zeros at or beyond the slot's length, a fault for an unmapped page below it. -/
def State.kvRead (s : State) (o : Op) (t : TDesc) (f : Fmt) (sl i1 h : Nat) : KvHit :=
  let p := o.kvPos t sl i1
  let page := p / kvTps t f
  if s.kvBad o.handle t f sl 0 then .fault
  else if (s.slot sl).length ≤ p then .zeros
  else if s.kvBad o.handle t f sl page then .fault
  else match s.kvSheet sl t.layer t.plane page with
    | some a => .at (a + kvOffset t f p h)
    | none => .fault

/-- A lookup for writing (R181, R282). -/
def State.kvWrite (s : State) (o : Op) (t : TDesc) (f : Fmt) (sl i1 h : Nat) : KvHit :=
  let p := o.kvPos t sl i1
  let page := p / kvTps t f
  if s.kvBad o.handle t f sl page then .fault
  else match s.kvSheet sl t.layer t.plane page with
    | some a => .at (a + kvOffset t f p h)
    | none => .fault

/-- Rows of a KV tensor: (sequence, head, token) in the order DIM1 innermost. -/
def kvRows (t : TDesc) : List (Nat × Nat × Nat) :=
  (List.range t.rows).map (fun r => let i := t.rowIdx r; (i.2.2, i.2.1, i.1))

/-- The bytes a KV tensor being written occupies, as far as its pages are mapped. -/
def State.kvFoot (s : State) (o : Op) (t : TDesc) (f : Fmt) : List Range :=
  let sl := s.kvSlots t o.clu
  (kvRows t).filterMap (fun i => match s.kvWrite o t f (getAt 0 sl i.1) i.2.2 i.2.1 with
    | .at a => some (a, t.d0 * elemBytes f)
    | _ => none)

/-- PROVISIONAL cleared on blocks, except where POISON is set (R186, R401). -/
def State.clearProv (s : State) (bs : List Nat) : State :=
  bs.foldl (fun t b => if (t.tag b).poison then t else t.setTag b { t.tag b with prov := false }) s

end Sys2Proof.Machine
end

