-- ==== Sys2Proof/Machine/Prov.lean ====
section
/-! DEFINITION. Provisional results at the egress ports (R407–R409): numbering, trackers and notices. Ports 0–7 are the Ethernet
MACs, 8–10 the Zetha ports. -/
namespace Sys2Proof.Machine

/-- The next provisional number of an egress port (R407). -/
def State.provSeq (s : State) (p : Nat) : Nat := Sparse.get (fun _ => 0) s.provNext p

/-- The newest open entry takes one more unit (R408). -/
def Tracker.joins (t : Tracker) (seq lo hi : Nat) : Bool :=
  let l := Nat.min t.lo lo
  let h := Nat.max t.hi hi
  t.done.isNone && (t.last + 1) % 2 ^ 32 == seq && decide ((seq + 2 ^ 32 - t.first) % 2 ^ 32 + 1 ≤ 4096) && decide ((h - l + 1) * 4096 ≤ 16777216)

/-- A unit of an egress port reads source blocks bs: none when its provisional unit must wait for a tracker entry; else the state,
and its provisional number if a block carries PROVISIONAL. -/
def State.provUnit (s : State) (p : Nat) (bs : List Nat) : Option (State × Option Nat) :=
  if !bs.any (fun b => (s.tag b).prov) then some (s, none)
  else
    let seq := s.provSeq p
    let lo := bs.foldl Nat.min (bs.head?.getD 0)
    let hi := maxN bs
    let ts := s.trackersOf p
    let next := fun (t : State) => { t with provNext := Sparse.set (fun _ => 0) t.provNext p ((seq + 1) % 2 ^ 32) }
    match ts.getLast? with
    | some t =>
      if t.joins seq lo hi then
        some (next (s.setTrackers p (ts.dropLast ++ [{ t with last := seq, lo := Nat.min t.lo lo, hi := Nat.max t.hi hi }])), some seq)
      else if 256 ≤ ts.length then none
      else some (next (s.setTrackers p (ts ++ [⟨seq, seq, lo, hi, s.cyc, false, none⟩])), some seq)
    | none => some (next (s.setTrackers p [⟨seq, seq, lo, hi, s.cyc, false, none⟩]), some seq)

/-- The body of a notice, as R548 lists it, big-endian. -/
def noticeBody (p outcome first last seq : Nat) : List Byte :=
  beBytes 1 2 ++ beBytes 1 outcome ++ beBytes 1 p ++ beBytes 1 0 ++ beBytes 4 first ++ beBytes 4 last ++ beBytes 4 seq

/-- The same, little-endian, as a Zetha NOTICE carries it (R567). -/
def noticeBodyLe (p outcome first last seq : Nat) : List Byte :=
  leBytes 1 2 ++ leBytes 1 outcome ++ leBytes 1 p ++ leBytes 1 0 ++ leBytes 4 first ++ leBytes 4 last ++ leBytes 4 seq

end Sys2Proof.Machine
end

