-- ==== Sys2Proof/Machine/Zetha.lean ====
section
/-! DEFINITION. The shared operations of the Zetha ports (chapter 17): flits, virtual channels, routes, messages, requests, and
what a drop of the link leaves. -/
namespace Sys2Proof.Machine

/-! ## Registers and events -/

/-- A port is present; present and powered; its state. -/
def State.zThere (s : State) (p : Nat) : Bool := decide (p < 3) && (p == 0 || s.iod1)
def State.zUp (s : State) (p : Nat) : Bool := s.zThere p && s.pdOn (pdZth p)
def State.zState (s : State) (p : Nat) : Nat := s.fld (ZTH_STATUS.STATE p)
def State.zActive (s : State) (p : Nat) : Bool := s.zUp p && s.zState p == 5

/-- A port whose link stands: ACTIVE, or in a retrain that has not failed (R564). -/
def State.zLinked (s : State) (p : Nat) : Bool := s.zActive p || (s.zUp p && s.zState p == 6 && (s.zport p).resumeAt == 0)

/-- A port enters a training state at this moment; on its way back to DETECT no lane is in block lock. -/
def State.zEnter (s : State) (p st : Nat) : State :=
  let t := if st = 1 then s.setF (ZTH_STATUS.LANE_LOCK p) 0 else s
  ((t.setF (ZTH_STATUS.STATE p) st).setF (ZTH_STATUS.VER_USED p) (if st = 5 then 1 else 0)).setZport p { (s.zport p) with since := s.cyc, resumeAt := 0 }

/-- Counters of R578. -/
def zCrcErr : Nat := 0
def zReplay : Nat := 1
def zRetrain : Nat := 2
def zTrainFail : Nat := 3
def zInbReject : Nat := 4
def zRouteMiss : Nat := 5
def zWmFail : Nat := 6
def zMsgDrop : Nat := 7
def State.zCount (s : State) (p k : Nat) : State := s.bump (ZTH_CNT.COUNT p k) 1

/-- An EVENT bit sets, and the port's message is sent. -/
def State.zEvent (s : State) (p : Nat) (f : Fld) : State :=
  (s.setF f 1).irqMsg (ZTH_IRQ.EN p) (ZTH_IRQ.ERR_ONLY p) (ZTH_IRQ.HART p) (ZTH_IRQ.EIID p) true

/-- An entry of a four-entry list replaced. -/
def set4 {α : Type} (l : List α) (i : Nat) (v : α) : List α := setAt l i v

/-! ## Messages (R567) -/

/-- A message header. -/
def zHeader (mtype flags dst src len addr tag seq status : Nat) : List Byte :=
  leBytes 1 mtype ++ leBytes 1 flags ++ leBytes 1 dst ++ leBytes 1 src ++ leBytes 4 len ++ leBytes 6 addr ++ leBytes 2 tag ++ leBytes 4 seq
    ++ leBytes 1 status ++ leBytes 11 0

/-- The trailers of a message of whole blocks, read from blocks bs: the watermark and the tags of each block's bytes (R567, R568); bytes that do not
stand in whole blocks at their source take the tags of both blocks they lie in. -/
def State.zTrailers (s : State) (data : List Byte) (bs : List Nat) : List Byte :=
  let n := data.length / 4096
  (List.range n).flatMap (fun i =>
    let from_ := (bs.drop i).take (if bs.length = n then 1 else 2)
    leBytes 4 (match from_ with | [b] => s.watermark b | _ => crc32c ((data.drop (4096 * i)).take 4096))
      ++ leBytes 1 (b2n (from_.any (fun b => (s.tag b).poison)) + 2 * b2n (from_.any (fun b => (s.tag b).prov))) ++ leBytes 3 0)

/-- Payloads of 240 bytes. -/
def chunks (n : Nat) : Nat → List Byte → List (List Byte)
  | 0, _ => []
  | fuel + 1, bs => if bs.isEmpty then [] else bs.take n :: chunks n fuel (bs.drop n)

/-- A message queued on a virtual channel as flits (R566, R567). -/
def State.zQueue (s : State) (p vc : Nat) (msg : List Byte) : State :=
  let ps := chunks 240 (msg.length + 1) msg
  let fl := (List.range ps.length).map (fun i => (⟨vc, i == 0, i + 1 == ps.length, getAt [] ps i⟩ : ZFlit))
  let x := s.zport p
  s.setZport p { x with vcq := set4 x.vcq vc (getAt [] x.vcq vc ++ fl) }

/-- WM is set for whole aligned blocks (R568). -/
def wholeBlocks (a n : Nat) : Bool := a % 4096 == 0 && n % 4096 == 0 && decide (0 < n)

/-- NODE_ID of this device. -/
def State.nodeId (s : State) : Nat := s.fld ZTH_NODE.NODE_ID

/-! ## Routes (R569) -/

/-- The route of an access at window offset o of port p: entry, and whether several matched. -/
def State.zRoute (s : State) (p o : Nat) : Option Nat × Bool :=
  let ms := (List.range 32).filter (fun e => s.flag (ZTH_ROUTE.VALID e) && !s.flag (ZTH_ROUTE.KIND e) && s.fld (ZTH_ROUTE.WIN e) == p
    && decide (s.fld (ZTH_ROUTE.PORT e) < 3)
    && decide (s.fld (ZTH_ROUTE_W1.WIN_BASE e) ≤ o / 65536 ∧ o / 65536 ≤ s.fld (ZTH_ROUTE_W1.WIN_LIMIT e)))
  (ms.head?, decide (1 < ms.length))

/-- Peer address of window offset o under entry e. -/
def State.zRemote (s : State) (e o : Nat) : Nat :=
  (s.fld (ZTH_ROUTE_W2.REMOTE e) * 65536 + o - s.fld (ZTH_ROUTE_W1.WIN_BASE e) * 65536) % 2 ^ 48

/-- The Zetha window: port and offset of an address. -/
def isZWin (a : Nat) : Bool := decide (0x300000000 ≤ a ∧ a < 0x3C0000000)
def zWin (a : Nat) : Nat × Nat := ((a - 0x300000000) / 0x40000000, (a - 0x300000000) % 0x40000000)

/-- An access at a window address resolved (R569): the state with its counters, and entry and egress port; none for an error
response. -/
def State.zResolve (s : State) (a : Nat) : State × Option (Nat × Nat) :=
  let w := zWin a
  let r := s.zRoute w.1 w.2
  let s1 := if r.2 then s.bump ZTH_ROUTE_MULTI.COUNT 1 else s
  match r.1 with
  | some e =>
    let q := s.fld (ZTH_ROUTE.PORT e)
    if q < 3 ∧ s.zActive q then (s1, some (e, q)) else (s1.zCount w.1 zRouteMiss, none)
  | none => (s1.zCount w.1 zRouteMiss, none)

/-- A tag no request of a port holds. -/
def ZPort.freeTag (x : ZPort) : Option Nat :=
  let c := (List.range 1024).map (fun i => (x.nextTag + i) % 1024)
  c.find? (fun t => !(x.reqs.any (fun r => r.tag == t)))

/-- The request a core's access waits with for a tag of port q (R571): by entry e, to window offset o. -/
def State.zWaits (s : State) (e q o : Nat) (isWrite : Bool) (m n : Nat) (data : List Byte) : State :=
  let x := s.zport q
  s.setZport q { x with waiting := x.waiting ++
    [⟨isWrite, m, s.fld (ZTH_ROUTE.DST_NODE e), s.zRemote e o, n, if isWrite then s.fld (ZTH_ROUTE.VC e) else 0, data⟩] }

/-- Requests that wait for a tag of port q go out, oldest first, as far as there are tags (R571). -/
def State.zWake (s : State) (q : Nat) : State :=
  (s.zport q).waiting.foldl (fun (u : State) _ =>
    let x := u.zport q
    match x.waiting, x.freeTag with
    | w :: rest, some t =>
      (u.setZport q { x with nextTag := (t + 1) % 1024, reqs := x.reqs ++ [⟨t, w.isWrite, 0xFF, w.master, 0, w.len, 0⟩], waiting := rest }).zQueue q w.vc
        (zHeader (if w.isWrite then 1 else 2) 0 w.node u.nodeId w.len w.addr t 0 0 ++ w.data)
    | _, _ => u) s

/-- A READ_REQ for n bytes at window address a, of which the response goes to dst (R572); none when no route or no tag. -/
def State.zRead (s : State) (a n mover move piece dst : Nat) : State × Bool :=
  let r := s.zResolve a
  match r.2 with
  | none => (r.1, false)
  | some (e, q) =>
    let x := r.1.zport q
    match x.freeTag with
    | none => (r.1, false)
    | some t =>
      let s1 := r.1.setZport q { x with nextTag := (t + 1) % 1024, reqs := x.reqs ++ [⟨t, false, mover, move, piece, n, dst⟩] }
      let addr := s.zRemote e (zWin a).2
      (s1.zQueue q 0 (zHeader 2 (b2n (wholeBlocks addr n)) (s.fld (ZTH_ROUTE.DST_NODE e)) s.nodeId n addr t 0 0), true)

/-- A WRITE of n source bytes (blocks bs) to window address a (R568, R572); none when no route, tag or tracker entry. -/
def State.zWrite (s : State) (a : Nat) (data : List Byte) (bs : List Nat) (mover move piece : Nat) : State × Bool :=
  let r := s.zResolve a
  match r.2 with
  | none => (r.1, false)
  | some (e, q) =>
    let x := r.1.zport q
    match x.freeTag, r.1.provUnit (8 + q) bs with
    | some t, some (s0, num) =>
      let addr := s.zRemote e (zWin a).2
      let wm := wholeBlocks addr data.length
      let s1 := s0.setZport q { x with nextTag := (t + 1) % 1024, reqs := x.reqs ++ [⟨t, true, mover, move, piece, data.length, 0⟩] }
      let h := zHeader 1 (b2n wm + 2 * b2n num.isSome) (s.fld (ZTH_ROUTE.DST_NODE e)) s.nodeId data.length addr t (num.getD 0) 0
      (s1.zQueue q (s.fld (ZTH_ROUTE.VC e)) (h ++ data ++ (if wm then s.zTrailers data bs else [])), true)
    | _, _ => (r.1, false)

/-! ## Lane coding (R559) -/

/-- One step of a lane's scrambler: its next state and its bit (log 88). -/
def zLfsr (r : Nat) : Nat × Nat :=
  let b := b2n (bitN r 30)
  (r * 2 % 2 ^ 31 + (if bitN r 30 != bitN r 27 then 1 else 0), b)

/-- Bytes of a lane scrambled, the least significant bit of each first. -/
def zScramble (r : Nat) (bs : List Byte) : Nat × List Byte :=
  bs.foldl (fun (acc : Nat × List Byte) b =>
    let w := (List.range 8).foldl (fun (a : Nat × Nat) k => ((zLfsr a.1).1, a.2 + (zLfsr a.1).2 * 2 ^ k)) (acc.1, 0)
    (w.1, acc.2 ++ [b ^^^ BitVec.ofNat 8 w.2])) (r, [])

/-- A flit striped over the lanes: byte i on lane i mod 8, as two data blocks (header 0b01) a lane, with the scramblers after it. -/
def ZPort.lanes (x : ZPort) (flit : List Byte) : List (Nat × List Byte) :=
  (List.range 8).map (fun l =>
    let r := zScramble (getAt 0 x.lfsr l) ((List.range 32).map (fun i => getAt 0 flit (8 * i + l)))
    (r.1, 1 :: r.2.take 16 ++ 1 :: r.2.drop 16))

/-- The blocks of a lane as they come in, its scrambler at r and its seed: an ordered set (header 0b10) reseeds, a data block (0b01) is descrambled,
any other header is a block error. The scrambler after them, the bytes, and whether a block was in error. -/
def zLaneIn (seed r : Nat) (blocks : List (Nat × List Byte)) : Nat × List Byte × Bool :=
  blocks.foldl (fun (a : Nat × List Byte × Bool) b =>
    if b.1 = 2 then (seed, a.2)
    else
      let w := zScramble a.1 b.2
      (w.1, a.2.1 ++ w.2, a.2.2 || b.1 != 1)) (r, [], false)

/-- The blocks of lane l of the link, from the lanes as they are wired: the lanes reversed, and those marked in pol inverted (R560). -/
def zWired (rev : Bool) (pol : Nat) (ls : List (List (Nat × List Byte))) (l : Nat) : List (Nat × List Byte) :=
  let k := if rev then 7 - l else l
  let bs := getAt [] ls k
  if bitN pol k then bs.map (fun b => (3 - b.1, b.2.map (fun y => ~~~y))) else bs

/-- A flit received over the lanes: the port with its descramblers moved on, the flit's bytes, and whether a block was in error or the lanes
brought no whole flit. -/
def ZPort.recv (x : ZPort) (rev : Bool) (pol : Nat) (ls : List (List (Nat × List Byte))) : ZPort × List Byte × Bool :=
  let got := (List.range 8).map (fun l => zLaneIn (0x7FFFFFF0 + l) (getAt 0 x.rxLfsr l) (zWired rev pol ls l))
  ({ x with rxLfsr := got.map (·.1) },
   (List.range 32).flatMap (fun i => got.map (fun g => getAt 0 g.2.1 i)), got.any (fun g => g.2.2 || g.2.1.length != 32))

/-- The same on port p, by its REVERSED and POLARITY. -/
def State.zRecv (s : State) (p : Nat) (ls : List (List (Nat × List Byte))) : State × List Byte × Bool :=
  let r := (s.zport p).recv (s.flag (ZTH_STATUS.REVERSED p)) (s.fld (ZTH_STATUS.POLARITY p)) ls
  (s.setZport p r.1, r.2)

/-- A flit goes out: itself, and as its blocks lane by lane; after every 1,024 data blocks a lane sends a skip ordered set. -/
def State.zSend (s : State) (p : Nat) (flit : List Byte) : State :=
  let x := s.zport p
  let ls := x.lanes flit
  let t := (s.emit (.frame "FLIT" p flit)).emit (.frame "LANES" p (ls.flatMap (·.2)))
  if x.blocks + 2 < 1024 then t.setZport p { x with lfsr := ls.map (·.1), blocks := x.blocks + 2 }
  else (t.emit (.note "SKIP" [p])).setZport p { x with lfsr := zSeeds, blocks := 0 }

/-! ## Flits (R562, R563, R565) -/

/-- The bytes of a flit: type, number, the acknowledgement state of the port, and the payload. -/
def ZPort.flitBytes (x : ZPort) (ty seq : Nat) (f : Option ZFlit) (pay : List Byte) : List Byte :=
  let ack := if x.gotAny then (x.rxSeq + 4095) % 4096 + 4096 else 0
  let ctl := match f with | some d => d.vc + 4 * b2n d.som + 8 * b2n d.eom | none => 0
  let body := leBytes 2 (seq + 4096 * ty) ++ leBytes 2 (ack + 8192 * b2n x.nak) ++ x.freed.flatMap (fun c => leBytes 1 c) ++ leBytes 1 ctl
    ++ leBytes 1 (match f with | some d => d.pay.length | none => 0) ++ leBytes 2 0 ++ pay ++ leBytes (240 - pay.length) 0
  body ++ leBytes 4 (crc32c body)

/-- The credits a slot of cycle now may use: those returned in the same cycle wait for the next slot (R574). -/
def ZPort.usable (x : ZPort) (now v : Nat) : Nat := getAt 0 x.cred v - (if x.lateCred.1 = now then getAt 0 x.lateCred.2 v else 0)

/-- The virtual channel the flit slot of cycle now serves (R566): 0 first, then 1 to 3 in rotation, as far as there are flits and credits. -/
def ZPort.pick (x : ZPort) (now : Nat) : Option Nat :=
  let ok := fun v => !(getAt [] x.vcq v).isEmpty && decide (0 < x.usable now v)
  if ok 0 then some 0
  else ((List.range 3).map (fun i => (x.rot - 1 + i) % 3 + 1)).find? ok

/-- The flit sent at a slot, and the state after it. -/
def State.zSlot (s : State) (p : Nat) : State :=
  let x := s.zport p
  match x.resend with
  | n :: rest =>
    match x.replay.find? (fun e => e.1 == n) with
    | some e => (s.setZport p { x with resend := rest }).zSend p (x.flitBytes 1 n (some e.2) e.2.pay)
    | none => (s.setZport p { x with resend := rest }).zSend p (x.flitBytes 0 0 none [])
  | [] =>
    if 512 ≤ x.replay.length then s.zSend p (x.flitBytes 0 0 none [])
    else match x.pick s.cyc with
      | none => s.zSend p (x.flitBytes 0 0 none [])
      | some v =>
        match getAt [] x.vcq v with
        | [] => s
        | f :: rest =>
          let x1 := { x with vcq := set4 x.vcq v rest, cred := set4 x.cred v (getAt 0 x.cred v - 1),
                             replay := x.replay ++ [(x.txSeq, f)], txSeq := (x.txSeq + 1) % 4096, rot := if v = 0 then x.rot else v % 3 + 1 }
          (s.setZport p x1).zSend p (x.flitBytes 1 x.txSeq (some f) f.pay)

/-- An acknowledgement covers every flit up to number a (R563). -/
def ZPort.acked (x : ZPort) (a : Nat) : ZPort :=
  if x.replay.any (fun e => e.1 == a) then
    let rest := (x.replay.dropWhile (fun e => e.1 != a)).drop 1
    { x with replay := rest, resend := x.resend.filter (fun n => rest.any (fun e => e.1 == n)) }
  else x

/-- Credits returned in cycle now: the difference from the last byte of each channel, modulo 256 (R565). -/
def ZPort.credited (x : ZPort) (now : Nat) (c : List Nat) : ZPort :=
  let back := fun v => (getAt 0 c v + 256 - getAt 0 x.lastCredit v) % 256
  { x with cred := (List.range 4).map (fun v => getAt 0 x.cred v + back v), lastCredit := c,
           lateCred := (now, (List.range 4).map (fun v => back v + (if x.lateCred.1 = now then getAt 0 x.lateCred.2 v else 0))) }

/-! ## A drop of the link (R564) -/

/-- Destination blocks a partly received WRITE has already reached. -/
def partBlocks (m : List Byte) : List Nat :=
  if m.length ≤ 32 ∨ leAt m 0 1 ≠ 1 then [] else rangeBlocks (leAt m 8 6) (Nat.min (m.length - 32) (leAt m 4 4))

/-- Destination blocks of a message that its FILL_PEND covers. -/
def messageBlocks (m : List Byte) : List Nat := if m.length < 32 ∨ leAt m 0 1 ≠ 1 then [] else rangeBlocks (leAt m 8 6) (leAt m 4 4)

/-- FILL_PEND on blocks set or cleared (R334, R568). -/
def State.setFill (s : State) (bs : List Nat) (v : Bool) : State := bs.foldl (fun t b => t.setTag b { t.tag b with fill := v }) s

/-- A message for this node may touch only DRAM inside the port's inbound range, and 1 to 65,536 bytes of it (R567, R570). -/
def State.zInRange (s : State) (p a n : Nat) : Bool :=
  decide (1 ≤ n ∧ n ≤ 65536 ∧ s.fld (ZTH_IN_BASE.ADDR p) * 65536 ≤ a ∧ a + n ≤ (s.fld (ZTH_IN_LIMIT.ADDR p) + 1) * 65536) && s.dataRange a n

end Sys2Proof.Machine
end

