-- ==== Sys2Proof/Machine/Pcie.lean ====
section
/-! DEFINITION. The shared operations of the PCIe ports (R590–R596): windows, outbound requests, errors. -/
namespace Sys2Proof.Machine

/-- The outbound windows: port and offset (R47). -/
def isPWin (a : Nat) : Bool := decide (0x200000000 ≤ a ∧ a < 0x300000000)
def pWin (a : Nat) : Nat × Nat := ((a - 0x200000000) / 0x80000000, (a - 0x200000000) % 0x80000000)

/-- A port is present; present and powered; its role (R593): 0 off, 1 root port, 2 endpoint. -/
def State.pThere (s : State) (p : Nat) : Bool := decide (p < 2) && (p == 0 || s.iod1)
def State.pUp (s : State) (p : Nat) : Bool := s.pThere p && s.pdOn (pdPci p)
def State.pMode (s : State) (p : Nat) : Nat := s.fld (PCI_CFG.MODE p) % 3
def pMaster (p : Nat) : Nat := 0x74 + p

/-- What the configuration header of a port says of it (R590): its type, 1 in the root-port role and 0 as an endpoint; and of an endpoint the
size of BAR0, which is 64-bit and prefetchable, and the MSI-X vectors of its one function. -/
structure PciHeader where
  type : Nat
  bar0 : Nat
  msix : Nat
deriving DecidableEq, Repr

/-- The header a port exposes; a port that is off exposes none. -/
def State.pHeader (s : State) (p : Nat) : Option PciHeader :=
  let k := s.fld (PCI_CFG.BAR0_LOG2 p)
  if s.pMode p = 1 then some ⟨1, 0, 0⟩
  else if s.pMode p = 2 then some ⟨0, 2 ^ (if 20 ≤ k ∧ k ≤ 30 then k else 20), 64⟩
  else none

/-- The PCIe memory address of a window offset, and whether it lies in configuration space (R590). -/
def State.pMap (s : State) (p o : Nat) : Bool × Nat :=
  if o < 0x10000000 then (true, o)
  else (false, s.fld (PCI_OB_BASE_LO.ADDR p) * 0x100000 + s.fld (PCI_OB_BASE_HI.ADDR p) * 2 ^ 32 + (o - 0x10000000))

/-- What the ball PCI_p_PERST_N takes as the port's mode is applied: low (0) of a root port, high impedance (2) otherwise (R730). -/
def State.perstBall (s : State) (p : Nat) : State := s.emit (.note "PCI_PERST_N" [p, if s.pMode p = 1 then 0 else 2])

/-- PCI_CFG with what only an active link shows at its reset value (R593). -/
def pciLinkOff (w : Word) : Word := ins w 23 18 0

/-- An EVENT bit, which drives APLIC source 50 + p (R596). -/
def State.pEvent (s : State) (p : Nat) (f : Fld) : State := (s.setF f 1).sense (50 + p)

/-- A non-posted read of n bytes at window address a; its bytes go to dst (R590, R592). -/
def State.pRead (s : State) (a n mover move piece dst : Nat) : State :=
  let w := pWin a
  let x := s.pport w.1
  let m := s.pMap w.1 w.2
  (s.setPport w.1 { x with reqs := x.reqs ++ [⟨x.nextTag, mover, move, piece, n, dst, s.cyc⟩], nextTag := (x.nextTag + 1) % 1024 }).emit
    (.note (if m.1 then "PCIE_CFG_READ" else "PCIE_READ") [w.1, m.2, n, x.nextTag])

/-- A write of bytes at window address a (posted), poisoned or not; blocks bs are its source (R590, R591). -/
def State.pWrite (s : State) (a : Nat) (data : List Byte) (bs : List Nat) : State :=
  let w := pWin a
  let m := s.pMap w.1 w.2
  let s1 := s.bump (PCI_PROV_READ.COUNT w.1) ((bs.filter (fun b => (s.tag b).prov)).length)
  s1.emit (.frame (if m.1 then "PCIE_CFG_WRITE" else if bs.any (fun b => (s.tag b).poison) then "PCIE_WRITE_POISONED" else "PCIE_WRITE") w.1
    (leBytes 8 m.2 ++ data))

/-- The completion timeout in force, in ns (R595). -/
def State.pTimeout (s : State) (p : Nat) : Nat := Nat.max 50 (Nat.min 50000 (s.fld (PCI_CPL_TIMEOUT.US p))) * 1000

end Sys2Proof.Machine
end

