-- ==== Sys2Proof/Machine/Moves.lean ====
section
/-! DEFINITION. Move descriptors of the page movers (chapter 09): their checks, the ranges they read and write, and the waits on blocks
being filled. -/
namespace Sys2Proof.Machine

/-! ## Descriptors (R333, R335, R338, R346) -/

/-- The fields of a move descriptor. -/
structure MoveDesc where
  op : Nat
  flags : Nat
  cell : Nat
  elem : Nat
  retry : Nat
  batch : Nat
  src : Nat
  dst : Nat
  len : Nat
  rows : Nat
  cols : Nat
  sp : Nat
  dp : Nat
  ss : Nat
  ds : Nat
  due : Nat
  fill : Nat
  expect : Nat
deriving DecidableEq, Repr

def MoveDesc.ofBytes (b : List Byte) : MoveDesc :=
  ⟨leAt b 0 1, leAt b 1 1, leAt b 2 2, leAt b 4 1, leAt b 5 1 % 8, leAt b 6 2, leAt b 8 8, leAt b 16 8, leAt b 24 4, leAt b 28 2, leAt b 30 2,
    leAt b 32 4, leAt b 36 4, leAt b 40 4, leAt b 44 4, leAt b 48 4, leAt b 52 1, leAt b 56 6⟩

def MoveDesc.signal (d : MoveDesc) : Bool := bitN d.flags 0
def MoveDesc.ordered (d : MoveDesc) : Bool := bitN d.flags 1
def MoveDesc.check (d : MoveDesc) : Bool := bitN d.flags 2
def MoveDesc.hasDue (d : MoveDesc) : Bool := bitN d.flags 3
/-- FETCH or FETCH_NVME. -/
def MoveDesc.fetch (d : MoveDesc) : Bool := d.op == 5 || d.op == 6

/-- Bytes of a descriptor that an OP uses. -/
def moveUses (op k : Nat) : Bool :=
  decide (k < 4)
    || (op == 1 && decide (8 ≤ k ∧ k < 28))
    || (op == 2 && (decide (16 ≤ k ∧ k < 28) || k == 52))
    || (op == 3 && (k == 4 || k == 6 || k == 7 || decide (8 ≤ k ∧ k < 24) || decide (28 ≤ k ∧ k < 48)))
    || (op == 4 && decide (8 ≤ k ∧ k < 28))
    || (decide (5 ≤ op) && (k == 5 || decide (8 ≤ k ∧ k < 28) || decide (48 ≤ k ∧ k < 52) || decide (56 ≤ k)))

/-- What a range of addresses is to a page mover: 0 DRAM data, 1 Vat windows, 2 + p a PCIe window, 4 + p a Zetha window. -/
def State.moveClass (s : State) (a n : Nat) : Option Nat :=
  if s.dataRange a n then some 0
  else if isVat a && isVat (a + n - 1) then some 1
  else if isPWin a && isPWin (a + n - 1) && (pWin a).1 == (pWin (a + n - 1)).1 && s.pThere (pWin a).1 then some (2 + (pWin a).1)
  else if isZWin a && isZWin (a + n - 1) && (zWin a).1 == (zWin (a + n - 1)).1 && s.zThere (zWin a).1 then some (4 + (zWin a).1)
  else none

def isLocal (c : Option Nat) : Bool := c == some 0 || c == some 1
def isPort (c : Option Nat) : Bool := match c with | some k => decide (2 ≤ k) | none => false

/-- Row ranges of a TRANSPOSE's source and destination (R338). -/
def MoveDesc.srcRows (d : MoveDesc) : List Range :=
  (List.range d.batch).flatMap (fun i => (List.range d.rows).map (fun r => (d.src + i * d.ss + r * d.sp, d.cols * d.elem)))
def MoveDesc.dstRows (d : MoveDesc) : List Range :=
  (List.range d.batch).flatMap (fun i => (List.range d.cols).map (fun c => (d.dst + i * d.ds + c * d.dp, d.rows * d.elem)))

/-- Plain bytes n frames announce, from a. -/
def State.framesLen (s : State) : Nat → Nat → Nat
  | 0, _ => 0
  | n + 1, a => Nat.min (s.nat (a + 4) 4) 65536 + s.framesLen n (a + alignUp (Nat.max 32 (Nat.min (s.nat (a + 8) 4) 65792)) 256)

/-- Ranges a move reads and writes. -/
def State.mvReads (s : State) (d : MoveDesc) : List Range :=
  if d.op = 1 ∨ d.op = 5 then [(d.src, d.len)]
  else if d.op = 3 then d.srcRows
  else if d.op = 4 then frameSpans s.bytesAt d.len d.src
  else []
def State.mvWrites (s : State) (d : MoveDesc) : List Range :=
  if d.op = 3 then d.dstRows else if d.op = 4 then [(d.dst, s.framesLen d.len d.src)] else [(d.dst, d.len)]

/-- Every address and pitch of a TRANSPOSE fits R338. -/
def MoveDesc.transposeOk (d : MoveDesc) : Bool :=
  (d.elem == 1 || d.elem == 2) && decide (1 ≤ d.batch ∧ 1 ≤ d.rows ∧ 1 ≤ d.cols ∧ d.cols * d.elem ≤ d.sp ∧ d.rows * d.elem ≤ d.dp)
    && [d.src, d.dst, d.sp, d.dp].all (fun x => x % d.elem == 0) && (d.batch == 1 || (d.ss % d.elem == 0 && d.ds % d.elem == 0))
    && !rangesMeet d.srcRows d.dstRows

/-- The descriptor of mover m breaks R333 or R335: BAD_DESC. -/
def State.moveBad (s : State) (m : Nat) (b : List Byte) : Bool :=
  let d := MoveDesc.ofBytes b
  let big := 16777216
  let zeros := (List.range 64).all (fun k => moveUses d.op k || leAt b k 1 == 0)
  let flagsOk := decide (d.flags < (if d.fetch then 16 else 4)) && decide (leAt b 5 1 < 8)
  let sized := decide (64 ≤ d.len ∧ d.len ≤ big ∧ d.len % 64 = 0)
  let fetchSized := decide (65536 ≤ d.len ∧ d.len ≤ big ∧ d.len % 65536 = 0 ∧ d.dst % 65536 = 0 ∧ d.dst < 2 ^ 48)
  let sc := s.moveClass d.src d.len
  let dc := s.moveClass d.dst d.len
  let body :=
    if d.op = 1 then sized && decide (d.src < 2 ^ 48 ∧ d.dst < 2 ^ 48 ∧ d.src % 64 = 0 ∧ d.dst % 64 = 0) && !Range.meets (d.src, d.len) (d.dst, d.len)
      && sc.isSome && dc.isSome
    else if d.op = 2 then sized && decide (d.dst < 2 ^ 48 ∧ d.dst % 64 = 0) && isLocal dc
    else if d.op = 3 then decide (d.src < 2 ^ 48 ∧ d.dst < 2 ^ 48) && d.transposeOk
      && (d.srcRows ++ d.dstRows).all (fun r => isLocal (s.moveClass r.1 r.2))
    else if d.op = 4 then decide (1 ≤ d.len ∧ d.len ≤ 4096 ∧ d.src % 256 = 0 ∧ d.dst % 64 = 0 ∧ d.src < 2 ^ 48 ∧ d.dst < 2 ^ 48)
      && (s.mvReads d).all (fun r => s.moveClass r.1 r.2 == some 0)
      && (s.mvWrites d).all (fun r => r.2 == 0 || isLocal (s.moveClass r.1 r.2))
    else if d.op = 5 then fetchSized && decide (d.src < 2 ^ 48) && isPort sc && dc == some 0
    else if d.op = 6 then fetchSized && dc == some 0 && s.flag (MEM_PMV_NVME_CFG.EN m) && s.pThere (s.fld (MEM_PMV_NVME_CFG.PORT m))
      && s.pMode (s.fld (MEM_PMV_NVME_CFG.PORT m)) == 1
    else false
  !(zeros && flagsOk && body)

/-- A local range lies where partition p may go (R331). -/
def State.moveAllowed (s : State) (p : Nat) (r : Range) : Bool :=
  if isVat r.1 then (List.range (vatCluster (r.1 + r.2 - 1) - vatCluster r.1 + 1)).all (fun i => bitN (s.partMask p) (vatCluster r.1 + i))
  else if s.dataRange r.1 r.2 then s.inPart p r.1 r.2
  else true

/-- SIGNAL_CELL lies in the partition's cell range. -/
def State.moveCellOk (s : State) (p : Nat) (d : MoveDesc) : Bool := decide (s.partCBase p ≤ d.cell ∧ d.cell < s.partCBase p + s.partCCount p)

/-- A move of ring p keeps to the partition's record; its EXPECT entries lie in DRAM data or a Vat (DESIGN CHOICE, log 83). -/
def State.moveGranted (s : State) (p : Nat) (d : MoveDesc) : Bool :=
  (s.mvReads d ++ s.mvWrites d).all (s.moveAllowed p)
    && (!d.check || (isLocal (s.moveClass d.expect (d.len / 1024)) && s.moveAllowed p (d.expect, d.len / 1024)))
    && (!d.signal || s.moveCellOk p d)

/-- The destination a descriptor that breaks R333 or R335 still names, as far as it is local and the partition's own (R337; log 83). -/
def State.badFoot (s : State) (p : Nat) (d : MoveDesc) : List Range :=
  (if d.op = 3 then d.dstRows else if d.op = 4 ∨ d.op = 0 ∨ 6 < d.op then [] else [(d.dst, d.len)]).filter (fun r =>
    r.2 != 0 && isLocal (s.moveClass r.1 r.2) && s.moveAllowed p r)

/-- What becomes of the move a descriptor of ring r of mover m asks for: its failure code, 0 for none, and what it reads and writes. -/
def State.movePlan (s : State) (m r : Nat) (b : List Byte) : Nat × List Range × List Range :=
  let d := MoveDesc.ofBytes b
  if s.moveBad m b then (1, [], s.badFoot r d)
  else if !s.moveGranted r d then (2, [], [])
  else (0, s.mvReads d, s.mvWrites d)

/-- Blocks of ranges in DRAM data or a Vat; those in DRAM. -/
def State.localBlocks (s : State) (rs : List Range) : List Nat := blocksOf (rs.filter (fun r => isVat r.1 || s.isData r.1))
def State.dramBlocks (s : State) (rs : List Range) : List Nat := (s.localBlocks rs).filter (fun b => !isVat (b * 4096))

/-- Blocks that hold the headers a DECOMP reads to learn what it will write: n frames from a on. -/
def State.headerBlocks (s : State) : Nat → Nat → List Nat
  | 0, _ => []
  | n + 1, a => (a / 4096) :: s.headerBlocks n (a + alignUp (Nat.max 32 (Nat.min (s.nat (a + 8) 4) 65792)) 256)

/-! ## Rings (R332) -/

/-- The address of the head entry of a mover's ring, and the entry. -/
def State.headAddr (s : State) (m r : Nat) : Nat :=
  s.fld (MEM_PMV_RING_LO.BASE_LO m r) * 0x1000 + s.fld (MEM_PMV_RING_HI.BASE_HI m r) * 2 ^ 32
    + 64 * (s.fld (MEM_PMV_RING_HEAD.COUNT m r) % 2 ^ s.fld (MEM_PMV_RING_LO.LOG2_SIZE m r))
def State.ringHead (s : State) (m r : Nat) : Option (List Byte) :=
  if !s.flag (MEM_PMV_RING_CFG.EN m r) || s.fld (MEM_PMV_RING_HEAD.COUNT m r) == s.fld (MEM_PMV_RING_TAIL.COUNT m r) then none
  else some (s.bytesAt (s.headAddr m r) 64)

/-! ## Waits on blocks being filled (R334, R350) -/

/-- The blocks being filled among a list. -/
def State.pendings (s : State) (bs : List Nat) : List Nat := bs.filter (fun b => (s.tag b).fill)

/-- Blocks the head of a ring waits on: its entry, the headers it announces, its destination. -/
def State.headWaits (s : State) (m r : Nat) (b : List Byte) : List Nat :=
  let d := MoveDesc.ofBytes b
  let entry := s.pendings [s.headAddr m r / 4096]
  let heads := if d.op = 4 ∧ d.len ≤ 4096 then s.pendings (s.headerBlocks d.len d.src) else []
  if !entry.isEmpty then entry
  else if !heads.isEmpty then heads
  else
    let p := s.movePlan m r b
    if p.1 = 0 then s.pendings (s.dramBlocks p.2.2) else []

/-- All pieces of a fetched sheet have landed, and its blocks are still held. -/
def Move.sheetWhole (v : Move) (dst sh : Nat) : Bool :=
  v.sheets.all (fun y => y.off / 65536 != sh || y.got) && v.blocks.contains (dst / 4096 + 16 * sh)

/-- The EXPECT entries of a sheet (R348). -/
def MoveDesc.expectBlocks (d : MoveDesc) (sh : Nat) : List Nat := if d.check then rangeBlocks (d.expect + 64 * sh) 64 else []

/-- Blocks a move waits on: its sources and the EXPECT entries of sheets that have landed, but not what it fills itself. -/
def State.moveWaits (s : State) (v : Move) : List Nat :=
  let d := MoveDesc.ofBytes v.bytes
  if v.code ≠ 0 then []
  else
    let ex := if d.fetch then ((List.range (d.len / 65536)).filter (v.sheetWhole d.dst)).flatMap d.expectBlocks else []
    (s.pendings (s.dramBlocks v.reads ++ ex)).filter (fun b => !v.blocks.contains b)

/-- Physical base of a sheet, and its blocks. -/
def sheetBase (sh : Nat) : Nat := dramBase + sh * 0x10000
def sheetBlocks (sh : Nat) : List Nat := rangeBlocks (sheetBase sh) 0x10000

/-- What waits on blocks being filled beside operations: the partition and the blocks, for moves, ring heads and Quire copies. -/
def State.waiters (s : State) : List (Nat × List Nat) :=
  s.movers.flatMap (fun e => e.2.moves.map (fun v => (v.ring, s.moveWaits v)))
    ++ (List.range 16).flatMap (fun m => (List.range 8).filterMap (fun r => (s.ringHead m r).map (fun b => (r, s.headWaits m r b))))
    ++ s.cows.map (fun c => (c.part, s.pendings (sheetBlocks c.old)))

/-- An operation waits on one of these blocks. -/
def Op.waitsOn (o : Op) (bs : List Nat) : Bool := match o.waitBlock with | some b => bs.contains b | none => false

/-- Waits of engine operations on a list of blocks end. -/
def EngUnit.endWaits (e : EngUnit) (bs : List Nat) (abandoned : Bool) : EngUnit :=
  let f := fun (x : Option Op) => x.map (fun o =>
    if o.waitsOn bs then (if abandoned then { o with waitBlock := none, status := stTierFail } else { o with waitBlock := none }) else o)
  { e with main := f e.main, load := f e.load }

/-- FILL_PEND clears on blocks: writes that waited land, engine operations go on or have failed, and every move, ring head and copy left with no block to wait on
counts under the cause. -/
def State.fillEnd (s : State) (bs : List Nat) (cause : Nat) (abandoned : Bool) : State :=
  let ws := (s.waiters.filter (fun w => !w.2.isEmpty && w.2.all (fun b => bs.contains b))).map (·.1)
  let t := s.setFill bs false
  let t := State.landLate { t with engines := t.engines.map (fun e => (e.1, e.2.endWaits bs abandoned)) }
  ws.foldl (fun (u : State) p => u.bump (MEM_STALL.COUNT p cause) 1) t

/-- Operations of a list that wait on these blocks go on. -/
def wakeOps (bs : List Nat) (l : List Op) : List Op := l.map (fun o => if o.waitsOn bs then { o with waitBlock := none } else o)

/-- Cluster operations that wait on these blocks go on, each counted under the cause. -/
def State.wakeClusters (s : State) (bs : List Nat) (cause : Nat) : State :=
  let ws := s.clusters.flatMap (fun e => ((e.2.cal ++ e.2.btr ++ e.2.ls).filter (fun o => o.waitsOn bs)).map (·.part))
  let t := { s with clusters := s.clusters.map (fun e =>
    (e.1, { e.2 with cal := wakeOps bs e.2.cal, btr := wakeOps bs e.2.btr, ls := wakeOps bs e.2.ls })) }
  ws.foldl (fun (u : State) p => u.bump (MEM_STALL.COUNT p cause) 1) t

/-- Blocks are filled: FILL_PEND clears and every wait on them ends (R334, R350). -/
def State.wake (s : State) (bs : List Nat) (cause : Nat) : State := (s.fillEnd bs cause false).wakeClusters bs cause

end Sys2Proof.Machine
end

