-- ==== Sys2Proof/Machine/Pool.lean ====
section
/-! DEFINITION. A partition's sheet pool (R280, R283–R285): reference counts and free stack in its metadata area, page-table
entries, the start and end of a copy-on-write, and the OUT footprint of an operation. -/
namespace Sys2Proof.Machine

/-- Pool and metadata area of a partition (R314, R315). -/
def State.poolBase (s : State) (p : Nat) : Nat := s.fld (QUI_POOL_LO.BASE p) * 0x10000 + s.fld (QUI_POOL_HI.BASE p) * 2 ^ 32
def State.metaArea (s : State) (p : Nat) : Nat := s.fld (QUI_META_LO.BASE p) * 0x10000 + s.fld (QUI_META_HI.BASE p) * 2 ^ 32
def State.poolSheets (s : State) (p : Nat) : Nat := s.fld (QUI_POOL_SHEETS.SHEETS p)
/-- Sheets an allocation may take: no more than the pool has, so that with POOL_SHEETS = 0 it is empty (R315; log 83). -/
def State.poolFree (s : State) (p : Nat) : Nat := Nat.min (s.fld (QUI_POOL_FREE.COUNT p)) (s.poolSheets p)

/-- Number of the pool's first sheet, counted from the DRAM base (R281). -/
def State.poolFirst (s : State) (p : Nat) : Nat := (s.poolBase p - dramBase) / 0x10000

/-- A sheet number is a sheet of the partition's pool. -/
def State.inPool (s : State) (p sh : Nat) : Bool := decide (s.poolFirst p ≤ sh ∧ sh < s.poolFirst p + s.poolSheets p)

/-- A sheet's reference count, read and written in the metadata area (R280). -/
def State.refs (s : State) (p sh : Nat) : Nat := s.seenNat (s.metaArea p + 2 * (sh - s.poolFirst p)) 2
def State.setRefs (s : State) (p sh v : Nat) : State := s.put 0x50 (s.metaArea p + 2 * (sh - s.poolFirst p)) (leBytes 2 v)

/-- A count incremented: it saturates at 0xFFFF, and reaching it pins the sheet (R283). -/
def State.incRef (s : State) (p sh : Nat) : State :=
  let c := s.refs p sh
  if 0xFFFF ≤ c then s
  else
    let t := s.setRefs p sh (c + 1)
    if c + 1 = 0xFFFF then t.setF (QUI_PINNED.COUNT p) (t.fld (QUI_PINNED.COUNT p) + 1) else t

/-- A sheet pushed on the free stack (R280). -/
def State.pushSheet (s : State) (p sh : Nat) : State :=
  let n := s.poolFree p
  (s.put 0x50 (s.metaArea p + 2 * s.poolSheets p + 4 * n) (leBytes 4 sh)).setF (QUI_POOL_FREE.COUNT p) (n + 1)

/-- A count decremented, unless the sheet is pinned; a sheet that reaches 0 is pushed (R283, R289). -/
def State.decRef (s : State) (p sh : Nat) : State :=
  let c := s.refs p sh
  if c = 0xFFFF ∨ c = 0 then s
  else
    let t := s.setRefs p sh (c - 1)
    if c = 1 then t.pushSheet p sh else t

/-- A sheet popped from the free stack with count 1; nothing when the pool is empty. -/
def State.popSheet (s : State) (p : Nat) : Option (State × Nat) :=
  let n := s.poolFree p
  if n = 0 then none
  else
    let sh := s.seenNat (s.metaArea p + 2 * s.poolSheets p + 4 * (n - 1)) 4
    some ((s.setF (QUI_POOL_FREE.COUNT p) (n - 1)).setRefs p sh 1, sh)

/-- The pool initialised (R280, R306): counts 0, every sheet on the stack, pops in ascending order, nothing pinned; the
partition's Quire counters at 0. -/
def State.initPool (s : State) (p : Nat) : State :=
  let n := s.poolSheets p
  let t := s.put 0x50 (s.metaArea p) (leBytes (2 * n) 0 ++ ((List.range n).map (fun k => leBytes 4 (s.poolFirst p + (n - 1 - k)))).flatten)
  (((t.setF (QUI_POOL_FREE.COUNT p) n).setF (QUI_PINNED.COUNT p) 0).setF (QUI_COW.COUNT p) 0).setF (QUI_POOL_EMPTY.COUNT p) 0

/-- A page-table entry written: VALID and the sheet, or 0 (R281). -/
def State.writeEntry (s : State) (a : Nat) (sh : Option Nat) : State :=
  s.put 0x50 a (leBytes 4 (match sh with | some n => 0x80000000 + n | none => 0))

/-- A sheet that a write may not land in: its count is above 1 (R284). -/
def State.shared (s : State) (p sh : Nat) : Bool := s.inPool p sh && decide (1 < s.refs p sh)

/-- Moves and Quire copies in progress on page mover m (R336). -/
def State.moverLoad (s : State) (m : Nat) : Nat := (s.mover m).moves.length + (s.cows.filter (fun c => c.mover == some m)).length

/-- The lowest page mover of a sheet's home die that can take one more move (R284, R336; which one is a DESIGN CHOICE, log 83). -/
def State.cowMover (s : State) (sh : Nat) : Option Nat :=
  let die := (s.decodeDram (sheetBase sh)).1 / 4
  if s.pdOn (pdMem die) then ((List.range 8).map (· + 8 * die)).find? (fun m => decide (s.moverLoad m < 16)) else none

/-- A waiting copy starts where a page mover can take it: its new sheet is being filled (R334). -/
def State.takeCow (s : State) (c : CowCopy) : State :=
  match (if c.mover.isNone then s.cowMover c.new else none) with
  | some m => { s.setFill (sheetBlocks c.new) true with cows := s.cows.map (fun x => if x = c then { x with mover := some m } else x) }
  | none => s
def State.startCows (s : State) : State := s.cows.foldl State.takeCow s

/-- A copy of a shared sheet asked for, with the byte from which it is zeroed (R284, R288): a sheet is allocated; none where the pool is
empty. -/
def State.startCow (s : State) (p sl entry old cut : Nat) : Option (State × CowCopy) :=
  (s.popSheet p).map (fun r => ({ r.1 with cows := r.1.cows ++ [⟨p, sl, entry, old, r.2, none, cut⟩] }, ⟨p, sl, entry, old, r.2, none, cut⟩))

/-- One block of a sheet copied with its metadata, its read and its write charged to the partition (R363, R364); a source block that fails its check leaves POISON behind (R325; DESIGN CHOICE, log 83). -/
def State.copyBlock (s : State) (m part die b n : Nat) : State :=
  let r := ((s.regulate m part die (b * 4096) 4096).regulate m part die (n * 4096) 4096).checkRead b 0 0
  let t := r.1.putAll (placed (n * 4096) (r.1.bytesAt (b * 4096) 4096))
  (t.forgetChecked n).setTag n { t.tag b with fill := false, poison := (t.tag b).poison || !r.2 }

/-- The master and die of a copy; its requests are held now (R371). -/
def CowCopy.master (c : CowCopy) : Nat := match c.mover with | some k => 0x40 + k | none => 0x50
def State.cowHeld (s : State) (c : CowCopy) : Bool :=
  s.hbxBars c.master c.part (srcDie c.master (c.slot / 512)) [(sheetBase c.old, 65536), (sheetBase c.new, 65536)]

/-- Zeros over every block of a sheet that lies wholly at or beyond a byte (R288). -/
def State.zeroFrom (s : State) (sh cut : Nat) : State :=
  ((List.range 16).filter (fun i => decide (cut ≤ 4096 * i))).foldl (fun t i => t.put 0x50 (sheetBase sh + 4096 * i) (leBytes 4096 0)) s

/-- The copy is complete (R284): bytes and tags copied, a truncation's blocks zeroed (R288), the entry rewritten, the old count down, COW counted. -/
def State.endCow (s : State) (c : CowCopy) : State :=
  let m := c.master
  let t := (List.range 16).foldl (fun u i => u.copyBlock m c.part (srcDie m (c.slot / 512)) (sheetBase c.old / 4096 + i) (sheetBase c.new / 4096 + i)) s
  let t := (((t.zeroFrom c.new c.cut).writeEntry c.entry (some c.new)).decRef c.part c.old).bump (QUI_COW.COUNT c.part) 1
  { t with cows := t.cows.filter (fun x => x.new != c.new) }

/-- A copy ends: what waited on it goes on, and the next copy may take its place (R284, R336, R350). -/
def State.finishCow (s : State) (c : CowCopy) : State := ((s.endCow c).wake (sheetBlocks c.new) 6).startCows

/-- The copies of a partition in progress come to their end before a command acts on its sheets (R285; log 83). -/
def State.finishCows (s : State) (p : Nat) : State := (s.cows.filter (fun c => c.part == p)).foldl State.finishCow s

/-- A shared sheet copied at once for one page-table entry: none where the pool is empty. -/
def State.copyNow (s : State) (p sl entry old : Nat) : Option State := (s.startCow p sl entry old 65536).map (fun r => r.1.endCow r.2)

/-! ## The OUT footprint, and its poison -/

/-- The bytes of a KV-mode OUT in sheets that no other page-table entry maps: a tag reaches no others (R286). -/
def State.kvOwnFoot (s : State) (o : Op) (t : TDesc) (f : Fmt) : List Range :=
  (s.kvFoot o t f).filter (fun r => !s.shared o.part ((r.1 - dramBase) / 0x10000))

/-- Blocks of the OUT footprint, with slot C's for STATE_STEP (R189, R297). -/
def State.outBlocks (s : State) (o : Op) : List Nat :=
  let d := o.desc
  let x := s.opCtx o
  let out := x.t slotOut
  if 64 ≤ o.clu then [] else
  let r0 := if getAt false d.used slotOut then
      (if out.mode = 2 then s.kvOwnFoot o out (x.fmt slotOut) else slotRanges d x slotOut) else []
  blocksOf (r0 ++ (if d.opcode = 0x1D then slotRanges d x slotC else []))

/-- The page-table entries a KV-mode OUT writes through that hold a sheet: slot, entry and sheet. -/
def State.kvEntries (s : State) (o : Op) (t : TDesc) : List (Nat × Nat × Nat) :=
  let sl := s.kvSlots t o.clu
  ((kvRows t).filterMap (fun i =>
    let q := getAt 0 sl i.1
    let page := o.kvPos t q i.2.2 / kvTps t ((s.opCtx o).fmt slotOut)
    let e := (s.slot q).entryAddr t.layer t.plane page
    let w := s.seenNat e 4
    if bitN w 31 && !s.kvBad o.handle t ((s.opCtx o).fmt slotOut) q page then some (q, e, bitsN w 21 0) else none)).eraseDups

/-- The blocks of the page-table entries an operation's KV-mode tensor is found through, and for one it writes those of its sheets' counts and of the
free stack: the walker and the Quire wait while one is being filled (R334). -/
def State.walkBlocks (s : State) (o : Op) : List Nat :=
  let d := o.desc
  let x := s.opCtx o
  let entries := ((usedSlots d).filter (fun i => (x.t i).mode == 2)).flatMap (fun i =>
    let t := x.t i
    let sl := s.kvSlots t o.clu
    (kvRows t).map (fun r =>
      let q := getAt 0 sl r.1
      (s.slot q).entryAddr t.layer t.plane (o.kvPos t q r.2.2 / kvTps t (x.fmt i))))
  let counts := if (x.t slotOut).mode = 2 ∧ getAt false d.used slotOut then
      entries.map (fun e => s.metaArea o.part + 2 * (bitsN (s.seenNat e 4) 21 0 - s.poolFirst o.part))
        ++ [s.metaArea o.part + 2 * s.poolSheets o.part + 4 * (s.poolFree o.part - 1)]
    else []
  ((entries ++ counts).map (· / 4096)).eraseDups

/-- A shared sheet behind one page-table entry copied at once (R284, R286), once a copy of it in progress has ended (R285); where the pool
is empty the sheet stays shared (log entry 72). -/
def State.ownSheet (s : State) (o : Op) (e : Nat × Nat × Nat) : State :=
  let s := (s.cows.filter (fun c => c.old == e.2.2)).foldl State.finishCow s
  let w := s.seenNat e.2.1 4
  if bitN w 31 && s.shared o.part (bitsN w 21 0) then (s.copyNow o.part e.1 e.2.1 (bitsN w 21 0)).getD s else s

/-- The sheets of an operation's KV-mode OUT made the writing slot's own before poison reaches them (R286). -/
def State.ownSheets (s : State) (o : Op) : State :=
  let d := o.desc
  let out := (s.opCtx o).t slotOut
  if 64 ≤ o.clu ∨ out.mode ≠ 2 ∨ !getAt false d.used slotOut then s
  else (s.kvEntries o out).foldl (fun t e => t.ownSheet o e) s

/-- The OUT footprint poisoned (R189–R192, R286). -/
def State.poisonOut (s : State) (o : Op) : State :=
  let t := s.ownSheets o
  t.poisonWith o.blame (t.outBlocks o)

end Sys2Proof.Machine
end

