-- ==== Sys2Proof/Machine/Deckle.lean ====
section
/-! DEFINITION. The Deckle's shared operations (chapters 05 and 07): rings, completion records and the settling of split jobs, task
keys and ranking, placement, the descriptor reads of a dispatch, and cancellation. -/
namespace Sys2Proof.Machine

/-! ## Rings (R216–R222) -/

/-- Base and size of a queue's work ring and completion ring. -/
def State.ringBase (s : State) (q : Nat) : Nat := s.fld (DCK_QUEUE_RING_LO.BASE_LO q) * 0x1000 + s.fld (DCK_QUEUE_RING_HI.BASE_HI q) * 2 ^ 32
def State.ringSize (s : State) (q : Nat) : Nat := 2 ^ s.fld (DCK_QUEUE_RING_LO.LOG2_SIZE q)
def State.cplBase (s : State) (q : Nat) : Nat := s.fld (DCK_QUEUE_CPL_LO.BASE_LO q) * 0x1000 + s.fld (DCK_QUEUE_CPL_HI.BASE_HI q) * 2 ^ 32
def State.cplSize (s : State) (q : Nat) : Nat := 2 ^ s.fld (DCK_QUEUE_CPL_LO.LOG2_SIZE q)

/-- Counts of a queue, and the depth of its work ring (R217). -/
def State.qHead (s : State) (q : Nat) : Nat := s.fld (DCK_QUEUE_HEAD.COUNT q)
def State.qTail (s : State) (q : Nat) : Nat := s.fld (DCK_QUEUE_TAIL.COUNT q)
def wrapSub (a b : Nat) : Nat := (a + 2 ^ 32 - b % 2 ^ 32) % 2 ^ 32
def State.qDepth (s : State) (q : Nat) : Nat := wrapSub (s.qTail q) (s.qHead q)

/-- The 64 bytes of the entry with count c. -/
def State.entry (s : State) (q c : Nat) : List Byte := s.seenBytes (s.ringBase q + 64 * (c % s.ringSize q)) 64

/-- A queue is enabled, and its completion ring has a free slot, reserved slots counted (R222). -/
def State.qOn (s : State) (q : Nat) : Bool := s.flag (DCK_QUEUE_CFG.EN q)
def State.cplWritten (s : State) (q : Nat) : Nat := wrapSub (s.fld (DCK_QUEUE_CPL_TAIL.COUNT q)) (s.fld (DCK_QUEUE_CPL_HEAD.NEW_COUNT q))
def State.cplFree (s : State) (q : Nat) : Bool :=
  decide (s.cplWritten q + s.lateOf (.record q false none) + (s.q q).reserved < s.cplSize q)

/-- One entry popped (R219): its 64 bytes were read, from the die that holds the queue (R32), and are charged to the class the table gives them
(R363, R364). -/
def State.pop (s : State) (q : Nat) : State :=
  (s.regulate deckleMaster 8 (q / 16384) (s.ringBase q + 64 * (s.qHead q % s.ringSize q)) 64).setF (DCK_QUEUE_HEAD.COUNT q)
    ((s.qHead q + 1) % 2 ^ 32)

/-! ## Completion records (R193) -/

/-- The 32 bytes of a completion record. -/
def recordBytes (status flags tag queue slot clu partEpoch detail failed energy time : Nat) : List Byte :=
  leBytes 1 status ++ leBytes 1 1 ++ leBytes 2 flags ++ leBytes 4 tag ++ leBytes 2 queue ++ leBytes 2 slot ++ leBytes 1 clu
    ++ leBytes 1 partEpoch ++ leBytes 2 detail ++ leBytes 8 failed ++ leBytes 4 energy ++ leBytes 4 time

/-- A record pushed to a queue's completion ring; its pointer, its interrupt and its signal follow once it has landed (R195, R221, R267). Where its
block fails the check of R324 the record is not stored, and the rest goes on (DESIGN CHOICE, log 83). -/
def State.pushRecord (s : State) (q : Nat) (bs : List Byte) (err : Bool) (sig : Option (Nat × Bool)) : State :=
  let c := s.fld (DCK_QUEUE_CPL_TAIL.COUNT q) + s.lateOf (.record q false none)
  s.putThen ⟨deckleMaster, .silent, q / 16384, s.cplBase q + 32 * (c % s.cplSize q), bs, .record q err sig⟩

/-- A cluster's present epoch (R395). -/
def State.epoch (s : State) (n : Nat) : Nat := if n < 64 then s.fld (ITG_CLU.EPOCH n) else 0

/-- A cell lies in the run of the object that holds queue q. -/
def State.ownCell (s : State) (q cell : Nat) : Bool :=
  match s.objOfQueue q with
  | some o => decide (o.cBase ≤ cell ∧ cell < o.cBase + o.cCount)
  | none => false

/-- The signal of a cell by an operation of queue q: made only inside the object's cell run (R200, R238). -/
def State.opSignal (s : State) (q cell : Nat) (cancel : Bool) : State :=
  if s.ownCell q cell then (if cancel then s.cellCancel cell 1 else s.cellAdd cell 1) else s

/-- The signal a descriptor asks for with its record. -/
def State.recordSignal (s : State) (q : Nat) (d : OpDesc) (cancel : Bool) : Option (Nat × Bool) :=
  if d.signal && s.ownCell q d.cell then some (d.cell, cancel) else none

/-! ## Task keys and ranking (R229, R239–R243) -/

/-- δ = (d − DL_NOW) mod 2^32 (R239). -/
def State.left (s : State) (d : Nat) : Nat := wrapSub d s.dlNow

/-- A relative time, clamped below half the range (R240, R244). -/
def clampRel (v : Nat) : Nat := if v < 2 ^ 31 then v else 2 ^ 31 - 1

/-- A key made overdue when its deadline has passed (R240, R241); sticky. -/
def State.aged (s : State) (k : TaskKey) : TaskKey :=
  match k.overdue, k.deadline with
  | none, some d => if 2 ^ 31 ≤ s.left d then { k with overdue := some (s.overdueCtr, s.left d) } else k
  | _, _ => k

/-- The key of a background task of band b in partition p (R242). -/
def State.bandKey (s : State) (p b : Nat) : TaskKey :=
  let age := s.fld (DCK_PART_AGE.AGE_US p b)
  s.aged ⟨false, b, if age = 0 then none else some ((s.dlNow + age) % 2 ^ 32), none⟩

/-- The key a task with a deadline gets (R240). -/
def State.dlKey (s : State) (d : Nat) : TaskKey := s.aged ⟨true, 0, some d, none⟩

/-- A key as a list ordered like R243, the queue last. A background task that never ages ranks last in its band (DESIGN CHOICE, log 90). -/
def State.rank (s : State) (k : TaskKey) (q : Nat) : List Nat :=
  match k.overdue with
  | some (t, d) => [0, t, d, q]
  | none =>
    if k.isDl then [1, s.left (k.deadline.getD 0), 0, q]
    else match k.deadline with
      | some d => [2, k.band, s.left d, q]
      | none => [2, k.band, 2 ^ 32, q]

/-- Lexicographic order. -/
def lexLt : List Nat → List Nat → Bool
  | [], [] => false
  | [], _ :: _ => true
  | _ :: _, [] => false
  | a :: l, b :: m => if a < b then true else if b < a then false else lexLt l m

/-- The least of a list by a rank. -/
def leastBy {α : Type} (r : α → List Nat) : List α → Option α
  | [] => none
  | x :: l => match leastBy r l with
    | none => some x
    | some y => if lexLt (r y) (r x) then some y else some x

/-! ## In-flight places (R247) -/

/-- Operations in flight of a partition, and in the whole device. -/
def State.inflightOf (s : State) (p : Nat) : Nat :=
  sumN (s.queues.map (fun e => match s.objOfQueue e.1 with | some o => if o.part = p then e.2.inflight else 0 | none => 0))
def State.inflight (s : State) : Nat := sumN (s.queues.map (fun e => e.2.inflight))

/-- Partition p may pop one more operation. -/
def State.placeFree (s : State) (p : Nat) : Bool :=
  let reserve := fun i => s.fld (DCK_INFLIGHT_RESERVE.COUNT i)
  let drawn := sumN ((List.range 8).map (fun i => s.inflightOf i - reserve i))
  decide (s.inflightOf p < reserve p) || decide (drawn + sumN ((List.range 8).map reserve) < 6144)

/-! ## Heads of queues -/

/-- The queue executes nothing now: disabled, halted, blocked, cancelling, in a split job, saving, or its object unloading. -/
def State.qHeld (s : State) (q : Nat) : Bool :=
  let st := s.q q
  !s.qOn q || s.flag (DCK_QUEUE_STATUS.HALT q) || st.wait.isSome || st.cancelTo.isSome || st.job.isSome
    || (match s.objOfQueue q with | some o => o.unloading | none => true)

/-- The head entry of a queue that may act on it; while its block is being filled its read waits (R334). -/
def State.headEntry (s : State) (q : Nat) : Option (List Byte) :=
  if s.qHeld q || decide (s.qDepth q = 0) || s.filling (s.ringBase q + 64 * (s.qHead q % s.ringSize q)) 64 then none else some (s.entry q (s.qHead q))

/-- Byte 0 of an entry is a control code (R163). -/
def isControl (b : List Byte) : Bool := decide (0xE0 ≤ leAt b 0 1)

/-- Split parts of a head entry on a cluster queue: PART_COUNT from 2 to 64 (R185). An entry with any other count is one
operation, and check 2 of R171 refuses the counts that R164 does not allow. -/
def splitCount (engine : Nat) (b : List Byte) : Nat := if engine = 0 ∧ 1 < leAt b 51 1 ∧ leAt b 51 1 ≤ 64 then leAt b 51 1 else 1

/-- The task at the head of queue q is ready (R243): its head entry is an operation, with all the entries of a split job, the queue is neither
halted nor blocked, and the completion slot and the in-flight place it needs are free (R222, R247). -/
def State.ready (s : State) (q : Nat) : Bool :=
  match s.objOfQueue q, s.headEntry q with
  | some o, some b =>
    !isControl b && (!(OpDesc.ofBytes b).record || s.cplFree q) && s.placeFree o.part && decide (splitCount (s.fld (DCK_QUEUE_CFG.ENGINE q)) b ≤ s.qDepth q)
      && !(s.q q).releasing && (s.q q).key.isSome
  | _, _ => false

/-- Bytes of a descriptor in which the parts of a split job agree: all but PART_INDEX, M, N, K, the TD fields, SR_SEED, KCHUNK and LIVE_REC
(R185). -/
def splitBytes : List Nat := (List.range 8) ++ (List.range 12).map (· + 32) ++ [51, 52, 53, 56, 57, 58, 59, 60, 61, 62, 63]

/-- Byte k of part i is as R185 has it: PART_INDEX in order, the bytes of splitBytes as in part 0. -/
def splitByteOk (bs : List (List Byte)) (i k : Nat) : Bool :=
  if k = 50 then leAt (getAt [] bs i) 50 1 == i else !splitBytes.contains k || leAt (getAt [] bs i) k 1 == leAt (getAt [] bs 0) k 1

/-- The parts of a split job agree and are in order (R185). -/
def splitOk (bs : List (List Byte)) : Bool := (List.range bs.length).all (fun i => (List.range 64).all (splitByteOk bs i))

/-- First byte of the first field in which a part departs from part 0's (R185, DETAIL of R193). -/
def splitBadByte (bs : List (List Byte)) : Nat :=
  ((List.range 64).find? (fun k => (List.range bs.length).any (fun i => !splitByteOk bs i k))).getD 51

/-! ## Clusters a task may use (R245, R246) -/

/-- A cluster can be bound: powered, in service, unbound, and no save or restore uses it. -/
def State.cluFree (s : State) (n : Nat) : Bool :=
  s.pdOn (pdClu n) && s.fld (ITG_CLU.SVC n) == 0 && (s.cl n).bound.isNone
    && !(s.queues.any (fun p => match p.2.save with | .saving c _ _ _ => c == n | .restoring c _ _ => c == n | _ => false))

/-- Cluster n is not kept for the ready task of a queue other than q: a pre-emption freed it for that task's first operation (R251). -/
def State.notKept (s : State) (q n : Nat) : Bool :=
  match (s.cl n).keptFor with | some h => h == q || !s.ready h || (s.q h).bound.isSome | none => true

/-- Position of a residency tag in a cluster's set, 8 when absent. -/
def State.tagPos (s : State) (n tag : Nat) : Nat :=
  ((List.range 8).find? (fun j => s.fld (DCK_CLU_TAG.TAG n j) == tag)).getD 8

/-- The eligible cluster of a mask that a task of queue q with a residency tag goes to: the one a pre-emption has freed for it, else by R246. -/
def State.place (s : State) (mask tag q : Nat) : Option Nat :=
  let el := (maskClusters mask).filter (fun n => s.cluFree n && s.notKept q n)
  let hit := if tag = 0 then none else leastBy (fun n => [s.tagPos n tag, n]) (el.filter (fun n => decide (s.tagPos n tag < 8)))
  match el.find? (fun n => (s.cl n).keptFor == some q) with
  | some n => some n
  | none => match hit with
    | some n => some n
    | none => match el.find? (fun n => s.fld (DCK_CLU_TAG.TAG n 0) == 0) with
      | some n => some n
      | none => el.head?

/-- A tag entered into a cluster's set (R245). -/
def State.enterTag (s : State) (n tag : Nat) : State :=
  if tag = 0 then s
  else
    let old := (List.range 8).map (fun j => s.fld (DCK_CLU_TAG.TAG n j))
    let rest := old.filter (fun t => t != tag)
    (List.range 8).foldl (fun t j => t.setF (DCK_CLU_TAG.TAG n j) (getAt 0 (tag :: rest) j)) s

/-- A cluster's residency tags cleared (R245). -/
def State.clearTags (s : State) (n : Nat) : State := (List.range 8).foldl (fun t j => t.setF (DCK_CLU_TAG.TAG n j) 0) s

/-- The current task of a queue gives up its cluster. -/
def State.unbind (s : State) (q : Nat) : State :=
  match (s.q q).bound with
  | none => s.setQ q { (s.q q) with releasing := false }
  | some n =>
    let t := s.setQ q { (s.q q) with bound := none, releasing := false }
    if (t.cl n).bound = some q then t.setCl n { (t.cl n) with bound := none, partTask := false } else t

/-- No cluster is kept for the task of queue q any longer. -/
def State.dropKept (s : State) (q : Nat) : State :=
  { s with clusters := s.clusters.map (fun e => (e.1, if e.2.keptFor = some q then { e.2 with keptFor := none } else e.2)) }

/-- Save slots of a partition that hold no task (R274). -/
def State.slotsUsed (s : State) (p : Nat) : List Nat :=
  s.queues.filterMap (fun e => match s.objOfQueue e.1 with
    | some o => if o.part = p then (match e.2.save with
        | .saving _ k _ _ => some k | .saved k _ => some k | .restoring _ k _ => some k | .none => none) else none
    | none => none)
def State.saveSlot (s : State) (p : Nat) : Option Nat :=
  (List.range (s.fld (DCK_SAVE_SLOT.SLOTS p))).find? (fun k => !(s.slotsUsed p).contains k)

/-- The tensor descriptors an operation names, as the Deckle reads them at dispatch (R177). -/
def State.readTds (s : State) (o : Obj) (b : List Byte) : List (Option (List Byte)) :=
  (OpDesc.ofBytes b).tds.map (fun i => if i < o.tdCount then some (s.seenBytes (o.tdBase + 64 * i) 64) else none)

/-- The sequence lengths as they stand (R179). -/
def State.kvLens (s : State) : List (Nat × Nat) := (s.slots.map (fun e => (e.1, e.2.length))).filter (fun e => e.2 != 0)

/-- An operation of the queue's current task as it leaves the Deckle. -/
def State.makeOp (s : State) (o : Obj) (q slot clu : Nat) (b : List Byte) (tds : List (Option (List Byte))) (overdue split : Bool) : Op :=
  { id := s.newId, queue := q, slot := slot, handle := o.handle, part := o.part, clu := clu, task := (s.q q).task, bytes := b, tds := tds,
    kvLens := s.kvLens, overdue := overdue, split := split, phase := .sent, begun := 0, drained := 0, waitBlock := none,
    status := 0, detail := 0, invalid := false, provIn := false, emptyRed := false, skip := false, reported := false,
    energy := 0, acceptTime := 0, copied := [], wrote := [], blame := 0 }

/-- Operations a cluster holds, sent and not completed (R230). -/
def Cluster.ops (c : Cluster) : List Op := c.inbox ++ c.cal ++ c.btr ++ c.ls

/-! ## Task accounts (R193, R258) -/

/-- A task with nothing owed. -/
def noAcct : TaskAcct := ⟨0, false, 0⟩

/-- The account of a task of queue q. -/
def State.acct (s : State) (q t : Nat) : TaskAcct := Sparse.get (fun _ => noAcct) (s.q q).accts t
def State.setAcct (s : State) (q t : Nat) (x : TaskAcct) : State :=
  s.setQ q { (s.q q) with accts := Sparse.set (fun _ => noAcct) (s.q q).accts t x }

/-- The account of a task that has ended and has nothing in flight closes: what no record has shown is owed to no other task. -/
def State.closeAcct (s : State) (q t : Nat) : State := if t ≠ (s.q q).task ∧ (s.acct q t).left = 0 then s.setAcct q t noAcct else s

/-- The task of queue q has ended; the next has an account of its own. -/
def State.nextTask (s : State) (q : Nat) : State := (s.setQ q { (s.q q) with task := (s.q q).task + 1 }).closeAcct q (s.q q).task

/-- ENERGY_UJ of a record: what has been apportioned to its operations, and their shares of the interval that still runs, which the PMU divides
only at its end and R703 gives to within 5% or 5 µJ: an open value (log 93). -/
def State.openEnergy (s : State) (e : Nat) : Nat := Nat.min sat32 ((e + 5000) / 10000 + s.free 32)

/-- A job of a task retires: counters, record and signal (R195, R222, R258). The record covers what the task's earlier records did not. -/
def State.jobDone (s : State) (q slot part task : Nat) (d : OpDesc) (status flags clu detail failed : Nat) : State :=
  let s1 := (s.bump (DCK_QUEUE_JOBS.COUNT q) 1).bump (DCK_PART_JOBS.COUNT part) 1
  if d.record then
    let a := s1.acct q task
    let t := (s1.tookFree 1).pushRecord q (recordBytes status (flags + 16 * b2n a.preempted) d.tag q (slot % s1.ringSize q) clu (part + 16 * s1.epoch clu) detail failed
      (s1.openEnergy a.energy) s1.time) (decide (1 < status)) (s1.recordSignal q d false)
    (t.setQ q { (t.q q) with reserved := (t.q q).reserved - 1 }).setAcct q task { a with preempted := false, energy := 0 }
  else if d.signal then s1.opSignal q d.cell false else s1

/-! ## Cancellation (R253, R254) -/

/-- A CANCELLED record (R254); the next record of a task that was pre-empted carries PREEMPTED, and it is a record of its task (R193, R251). -/
def State.cancelRecord (s : State) (q slot part : Nat) (d : OpDesc) (split : Bool) : State :=
  let t := (s.q q).task
  let a := s.acct q t
  (s.pushRecord q (recordBytes stCancelled (16 * b2n a.preempted + 128 * b2n split) d.tag q (slot % s.ringSize q) 0xFF part 0 0 0 s.time) true
    (s.recordSignal q d true)).setAcct q t { a with preempted := false, energy := 0 }

/-- One cancelled job: its record where a slot is free, its cancel signal, its counts. During an unload a full ring loses the
record, and DCK_LOAD_LOST counts it (R208). -/
def State.cancelJob (s : State) (q slot part : Nat) (d : OpDesc) (split : Bool) : State :=
  let s1 := (s.bump (DCK_QUEUE_CANCELS.COUNT q) 1).bump (DCK_PART_JOBS.COUNT part) 1
  if s.cplFree q then s1.cancelRecord q slot part d split
  else let s2 := s1.bump DCK_LOAD_LOST.COUNT 1
       if d.signal then s2.opSignal q d.cell true else s2

/-- A cancelled control entry: a SIGNAL or SET acts on its cell of the object's run (R254); the pop of a TASK or TASK_END ends the current task
(R230). -/
def State.cancelControl (s : State) (o : Obj) (q code cell v : Nat) : State :=
  if code = 0xE0 ∨ code = 0xE6 then s.nextTask q
  else if o.cBase ≤ cell ∧ cell < o.cBase + o.cCount then
    (if code = 0xE3 then s.cellCancel cell v else if code = 0xE4 then s.setF (DCK_CELL_FLAGS.CANCEL cell) 1 else s)
  else s

/-- Cancelled entries popped in ring order up to count stop, at most fuel of them; force: an unload, which never waits. -/
def State.cancelRun (s : State) (o : Obj) (q stop : Nat) (force : Bool) : Nat → State
  | 0 => s
  | fuel + 1 =>
    let h := s.qHead q
    if h = stop then s.setQ q { (s.q q) with cancelTo := none, stalled := false }
    else
      let b := s.entry q h
      if isControl b then
        ((s.pop q).cancelControl o q (leAt b 0 1) (leAt b 4 2) (leAt b 8 4)).cancelRun o q stop force fuel
      else if !force && !s.cplFree q then s.setQ q { (s.q q) with cancelTo := some stop, stalled := true }
      else
        let n := splitCount (s.fld (DCK_QUEUE_CFG.ENGINE q)) b
        let k := Nat.min n (wrapSub stop h)
        let s1 := (List.range k).foldl (fun t _ => t.pop q) s
        (s1.cancelJob q h o.part (OpDesc.ofBytes b) (decide (1 < n))).cancelRun o q stop force fuel

/-- Whether a queue's bound cluster has still to accept operations of the queue (R254). -/
def State.unaccepted (s : State) (q : Nat) : Bool :=
  match (s.q q).bound with
  | some n => (s.cl n).inbox.any (fun o => o.queue == q)
  | none => false

/-- The binding of a cancelled task goes once its popped operations have been accepted. -/
def State.releaseAfterCancel (s : State) (q : Nat) : State :=
  if s.unaccepted q then s.setQ q { (s.q q) with releasing := true } else s.unbind q

/-- Where a cancellation up to count stop ends: a cancellation under way that runs further goes on to its own end (R253). -/
def State.cancelStop (s : State) (q stop : Nat) : Nat :=
  match (s.q q).cancelTo with
  | some t => if wrapSub stop (s.qHead q) < wrapSub t (s.qHead q) then t else stop
  | none => stop

/-- Cancel up to count stop (R253). A split job whose part 0 has been popped is not cancelled, and no entry after its last part is popped before
it has settled (R231): the cancellation waits for that. -/
def State.cancelUpTo (s : State) (q stop : Nat) (force : Bool) : State :=
  let e := s.cancelStop q stop
  if (s.q q).job.isSome then s.setQ q { (s.q q) with cancelTo := some e }
  else match s.objOfQueue q with
    | some o => s.cancelRun o q e force (s.qDepth q + 1)
    | none => s

/-- The count of the next TASK or TASK_END entry, or TAIL (R253). -/
def State.taskEnd (s : State) (q : Nat) : Nat :=
  let h := s.qHead q
  let n := s.qDepth q
  match (List.range n).find? (fun i => let c := leAt (s.entry q ((h + i) % 2 ^ 32)) 0 1; c == 0xE0 || c == 0xE6) with
  | some i => (h + i) % 2 ^ 32
  | none => s.qTail q

/-- The rest of the current task cancelled: CANCEL_TASK, ON_CANCEL, ON_TIMEOUT, or the loss of its cluster. -/
def State.cancelTask (s : State) (q : Nat) : State :=
  let s1 := s.cancelUpTo q (s.taskEnd q) false
  (s1.dropKept q).releaseAfterCancel q

/-- A pending cancellation goes on as far as completion slots allow (R222); that of an unload needs none (R208). -/
def State.resumeCancel (s : State) (q : Nat) : State :=
  match (s.q q).cancelTo with
  | some stop =>
    let t := s.cancelUpTo q stop (match s.objOfQueue q with | some o => o.unloading | none => false)
    if (t.q q).cancelTo.isNone then t.releaseAfterCancel q else t
  | none => s

/-- A task's saved state, and a save or restore in progress, discarded (R254). -/
def State.dropSaved (s : State) (q : Nat) : State :=
  match (s.q q).save with
  | .none => s
  | _ => s.setQ q { (s.q q) with save := .none }

/-- The current task ends (R229, R230): cluster given up, saved state discarded, and the key of what follows. -/
def State.endTask (s : State) (q : Nat) (k : Option TaskKey) (tag : Nat) : State :=
  let s1 := (((s.dropSaved q).unbind q).dropKept q).nextTask q
  s1.setQ q { (s1.q q) with key := k, resTag := tag, mark := none }

/-- A doorbell that brings entries up to tail count v: a default task that it is the first to give an entry has the band's key of this moment
(R229, R242). -/
def State.noteBell (s : State) (q v : Nat) : State :=
  match s.objOfQueue q with
  | some o =>
    let k := s.bandKey o.part (s.fld (DCK_QUEUE_CFG.DEF_BAND q))
    let st := s.q q
    s.setQ q { st with key := some (st.key.getD k), bells := st.bells.filter (fun b => decide (0 < wrapSub b.1 (s.qHead q) ∧ wrapSub b.1 (s.qHead q) ≤ 65536)) ++ [(v, k)] }
  | none => s

/-- The key of the default task that begins at HEAD: that of the doorbell that brought its first entry, none before there is one (R229). -/
def State.defaultKey (s : State) (q : Nat) : Option TaskKey :=
  ((s.q q).bells.find? (fun b => decide (0 < wrapSub b.1 (s.qHead q) ∧ wrapSub b.1 (s.qHead q) ≤ 65536))).map (·.2)

/-! ## Jobs (R185, R186, R193, R194) -/

/-- FLAGS of an operation's record (R193), PREEMPTED and SPLIT left to the caller. -/
def Op.flags (o : Op) (provOut : Bool) : Nat :=
  b2n o.invalid + 2 * b2n o.provIn + 4 * b2n provOut + 8 * b2n o.overdue + 32 * b2n o.emptyRed + 64 * b2n o.skip

/-- PROV_OUT (R193): a block the operation wrote is left PROVISIONAL. -/
def State.provLeft (s : State) (wrote : List Nat) : Bool := wrote.any (fun b => (s.tag b).prov)

/-- The status of a job from its parts in part order: OK when every part is OK or EMPTY and one is OK, EMPTY when every part is
EMPTY, else that of the lowest-index failed part (R194). -/
def partsSorted (l : List PartDone) (n : Nat) : List PartDone := (List.range n).filterMap (fun i => l.find? (fun p => p.part == i))
def partFailed (p : PartDone) : Bool := decide (1 < p.status)

/-- PROVISIONAL cleared over the footprints of a job's parts, but on no block of a part that consumed a provisional input (R186). -/
def State.clearParts (s : State) (ps : List PartDone) : State :=
  let kept := ((ps.filter (·.provUsed)).map (·.foot)).flatten
  s.clearProv (((ps.map (·.foot)).flatten).filter (fun b => !kept.contains b))

/-- The broke record that a job's poison goes back to: that of its lowest-index failed part that has one (R409). -/
def partsBlame (ps : List PartDone) : Nat := ((ps.map (fun p => if partFailed p then p.blame else 0)).find? (· != 0)).getD 0

/-- The outcome of a split job once its last part is done (R186); a cancellation that waited for it goes on. -/
def State.settleJob (s : State) (q part task : Nat) (j : Job) : State :=
  let ps := partsSorted j.done j.count
  let d := OpDesc.ofBytes j.bytes
  let bad := ps.find? partFailed
  let lead := bad.getD (getAt ⟨0, 0xFF, 0, 0, 0, false, [], [], 0⟩ ps 0)
  let s1 := if bad.isSome then s.poisonWith (partsBlame ps) ((ps.map (·.foot)).flatten) else s.clearParts ps
  let status := match bad with | some p => p.status | none => if ps.all (fun p => p.status == stEmpty) then stEmpty else stOk
  let any := fun (b : Nat) => ps.any (fun p => bitN p.flags b)
  let flags := b2n (any 0) + 2 * b2n (any 1) + 4 * b2n (s1.provLeft ((ps.map (·.wrote)).flatten)) + 8 * b2n (any 3) + 32 * b2n (any 5) + 64 * b2n (any 6) + 128
  let failed := sumN (ps.map (fun p => if partFailed p then 2 ^ p.part else 0))
  let s2 := s1.jobDone q j.slot part task d status flags lead.clu (if bad.isSome then lead.detail else 0) failed
  (s2.setQ q { (s2.q q) with job := none }).resumeCancel q

/-- One operation less in flight, its energy charged to its task (R193, R247). -/
def State.uncount (s : State) (o : Op) : State :=
  let s1 := s.setQ o.queue { (s.q o.queue) with inflight := (s.q o.queue).inflight - 1 }
  let a := s1.acct o.queue o.task
  s1.setAcct o.queue o.task { a with energy := a.energy + o.energy, left := a.left - 1 }

/-- A part of a split job is done: its outcome joins the job, which settles with its last part. -/
def State.partDone (s : State) (o : Op) (j : Job) : State :=
  let p : PartDone := ⟨o.desc.partIndex, o.clu, o.status, o.detail, o.flags false, o.provIn, s.outBlocks o, o.wrote, o.blame⟩
  let j' := { j with done := j.done ++ [p] }
  let t := s.setQ o.queue { (s.q o.queue) with job := some j' }
  if j'.done.length = j'.count then t.settleJob o.queue o.part o.task j' else t

/-- An operation retires (R193, R247): a part of a split job adds its outcome to the job; any other operation is a job of its own. -/
def State.retire (s : State) (o : Op) : State :=
  let s1 := s.uncount o
  let s2 := if o.split then
      (match (s1.q o.queue).job with
        | some j => (if 1 < o.status then s1.ownSheets o else s1).partDone o j
        | none => s1)
    else s1.jobDone o.queue o.slot o.part o.task o.desc o.status (o.flags (s1.provLeft o.wrote)) o.clu o.detail 0
  s2.closeAcct o.queue o.task

end Sys2Proof.Machine
end

