-- ==== Sys2Proof/Machine/DeckleCmds.lean ====
section
/-! DEFINITION. The Deckle's commands and events (chapter 07): doorbells, configuration, control entries, cells, deadlines,
dispatch, pre-emption and cancellation. -/
namespace Sys2Proof.Machine

/-! ## Queue registers -/

/-- The push of a doorbell (R218, R223): ignored while disabled, nothing to a queue being unloaded (R208), and refused FULL. -/
def State.ringBell (s : State) (q v : Nat) : State :=
  if !s.qOn q then s.setF (DCK_QUEUE_STATUS.DB_IGNORED q) 1
  else if (match s.objOfQueue q with | some o => o.unloading | none => false) then s
  else
    let n := wrapSub v (s.qTail q)
    if n = 0 then s
    else if s.qDepth q + n ≤ s.ringSize q then (s.setF (DCK_QUEUE_TAIL.COUNT q) v).noteBell q v
    else s.setF (DCK_QUEUE_STATUS.FULL_REJ q) 1

/-- QUEUE_DOORBELL (R218): master m writes v to DCK_QUEUE_DB_q. -/
def execQueueDoorbell (m q v : Nat) (s : State) : Host.Outcome State Fault Refusal :=
  s.write m (DCK_QUEUE_DB.addr q) (s.start.ringBell q v)

/-- The first condition of R223 that fails for enabling with a CFG word, 0 when all hold. Software that reads only version 0 shares no version with
the device, which writes version 1 alone (R30, R193, R224: DEDUCED, log 81). -/
def State.cfgErr (s : State) (q : Nat) (w : Word) : Nat :=
  match s.objOfQueue q with
  | none => 1
  | some o =>
    let lr := s.fld (DCK_QUEUE_RING_LO.LOG2_SIZE q)
    let lc := s.fld (DCK_QUEUE_CPL_LO.LOG2_SIZE q)
    if !o.holds (s.ringBase q) (64 * s.ringSize q) 0 then 2
    else if !o.holds (s.cplBase q) (32 * s.cplSize q) 1 then 3
    else if lr < 4 ∨ 16 < lr ∨ lc < 4 ∨ 16 < lc ∨ 5 < bits w 30 28 then 4
    else if Nat.min (bits w 25 22) 1 < bits w 21 18 ∨ bits w 25 22 = 0 then 5
    else 0

/-- The queue may be disabled (R223). -/
def State.cfgIdle (s : State) (q : Nat) : Bool :=
  let st := s.q q
  decide (s.qDepth q = 0) && st.bound.isNone && (match st.save with | .none => true | _ => false) && st.inflight == 0 && st.job.isNone

/-- A write of DCK_QUEUE_CFG_q: an ENGINE of 6 or 7 is rejected (R259); EN changes only under R223, and the other RW fields take the value written
whatever EN is (R259). -/
def State.writeCfg (s : State) (q : Nat) (w : Word) : State :=
  let was := s.qOn q
  let now := bits w 31 31 == 1
  let fields := fun (t : State) => (((t.setF (DCK_QUEUE_CFG.ENGINE q) (bits w 30 28)).setF (DCK_QUEUE_CFG.DEF_BAND q) (bits w 27 26)).setF
    (DCK_QUEUE_CFG.VER_MAX q) (bits w 25 22)).setF (DCK_QUEUE_CFG.VER_MIN q) (bits w 21 18)
  if 5 < bits w 30 28 then s.setF (DCK_QUEUE_STATUS.CFG_ERR q) 4
  else if was = false ∧ now = true then
    let e := s.cfgErr q w
    if e = 0 then
      let t := (((fields s).setF (DCK_QUEUE_CFG.EN q) 1).setF (DCK_QUEUE_CFG.VER_USED q) (Nat.min (bits w 25 22) 1)).setF (DCK_QUEUE_STATUS.CFG_ERR q) 0
      let t := ((((t.setF (DCK_QUEUE_HEAD.COUNT q) 0).setF (DCK_QUEUE_TAIL.COUNT q) 0).setF (DCK_QUEUE_CPL_HEAD.NEW_COUNT q) 0).setF
        (DCK_QUEUE_CPL_TAIL.COUNT q) 0)
      t.setQ q QState.init
    else (fields s).setF (DCK_QUEUE_STATUS.CFG_ERR q) e
  else if was = true ∧ now = false then
    if s.cfgIdle q then
      (((fields s).setF (DCK_QUEUE_CFG.EN q) 0).setF (DCK_QUEUE_CFG.VER_USED q) 0).setF (DCK_QUEUE_STATUS.CFG_ERR q) 0
    else (fields s).setF (DCK_QUEUE_STATUS.CFG_ERR q) 6
  else (fields s).setF (DCK_QUEUE_STATUS.CFG_ERR q) 0

/-- QUEUE_CFG_WRITE (R223, R259). -/
def execQueueCfgWrite (m q v : Nat) (s : State) : Host.Outcome State Fault Refusal :=
  s.write m (DCK_QUEUE_CFG.addr q) (s.start.writeCfg q (BitVec.ofNat 32 v))

/-- CPL_HEAD_WRITE (R221): refused whole when it pops more than was written. -/
def State.writeCplHead (s : State) (q v : Nat) : State :=
  if s.cplWritten q < wrapSub v (s.fld (DCK_QUEUE_CPL_HEAD.NEW_COUNT q)) then s.setF (DCK_QUEUE_STATUS.CPL_REJ q) 1
  else (s.setF (DCK_QUEUE_CPL_HEAD.NEW_COUNT q) v).resumeCancel q

/-- CPL_HEAD_WRITE (R221, R263). -/
def execCplHeadWrite (m q v : Nat) (s : State) : Host.Outcome State Fault Refusal :=
  s.write m (DCK_QUEUE_CPL_HEAD.addr q) (s.start.writeCplHead q v)

/-- HALT cleared (R228). -/
def State.unhalt (s : State) (q : Nat) : State := (s.setF (DCK_QUEUE_STATUS.HALT q) 0).setF (DCK_QUEUE_STATUS.HALT_CODE q) 0

/-- CANCEL_TASK (R253): master m writes CTRL with CANCEL_TASK, and RESUME too when res. -/
def execCancelTask (m q : Nat) (res : Bool) (s : State) : Host.Outcome State Fault Refusal :=
  s.write m (DCK_QUEUE_CTRL.addr q) (let t := s.start.cancelTask q; if res then t.unhalt q else t)

/-- Everything up to TAIL cancelled, a held wait and the saved task with it (R253). -/
def State.cancelAll (s : State) (q : Nat) : State :=
  let s1 := s.setQ q { (s.q q) with wait := match (s.q q).wait with
    | some (.cell _ _ _) => none
    | some (.timed _ _ _ _ _ _) => none
    | w => w }
  let s2 := (s1.dropSaved q).dropKept q
  (s2.cancelUpTo q (s2.qTail q) false).releaseAfterCancel q

/-- CANCEL_ALL (R253). -/
def execCancelAll (m q : Nat) (res : Bool) (s : State) : Host.Outcome State Fault Refusal :=
  s.write m (DCK_QUEUE_CTRL.addr q) (let t := s.start.cancelAll q; if res then t.unhalt q else t)

/-- RESUME (R228). -/
def execResumeQueue (m q : Nat) (s : State) : Host.Outcome State Fault Refusal :=
  s.write m (DCK_QUEUE_CTRL.addr q) (s.start.unhalt q)

/-! ## Control entries (R226–R229) -/

/-- Bytes of an entry that must be 0: every byte not listed for its code (R227). -/
def entryZero (b : List Byte) (used : List Nat) : Bool := (List.range 64).all (fun i => used.contains i || leAt b i 1 == 0)

/-- The halt code an entry draws, 0 when it is well formed (R228): 1 reserved code, 2 reserved bit, byte or DL_MODE 3, 3 a cell
outside the run. An entry with both of the last two draws 2, and TO_CELL of a TIMED_WAIT is held to the run only with TO_SIGNAL = 1 (DESIGN CHOICE,
log 90). -/
def controlError (o : Obj) (b : List Byte) : Nat :=
  let c := leAt b 0 1
  let fl := leAt b 2 2
  let cell := leAt b 4 2
  let mine := fun (n : Nat) => decide (o.cBase ≤ n ∧ n < o.cBase + o.cCount)
  if c = 0xE0 then (if entryZero b [0, 2, 4, 5, 6, 7, 8, 9, 10, 11] && decide (fl < 16 ∧ fl % 4 ≠ 3) then 0 else 2)
  else if c = 0xE1 then
    if !(entryZero b [0, 2, 4, 5, 8, 9, 10, 11] && decide (fl < 2)) then 2 else if !mine cell then 3 else 0
  else if c = 0xE2 then
    if !(entryZero b [0, 2, 4, 5, 6, 7, 8, 9, 10, 11, 12, 13, 14, 15] && decide (fl < 16)) then 2
    else if !mine cell || (bitN fl 2 && !mine (leAt b 6 2)) then 3 else 0
  else if c = 0xE3 then
    if !(entryZero b [0, 2, 4, 5, 8, 9, 10, 11] && decide (fl < 2)) then 2 else if !mine cell then 3 else 0
  else if c = 0xE4 then
    if !(entryZero b [0, 2, 4, 5, 8, 9, 10, 11] && decide (fl < 4)) then 2 else if !mine cell then 3 else 0
  else if c = 0xE5 ∨ c = 0xE6 then (if entryZero b [0] then 0 else 2)
  else 1

/-- The head of queue q is a well-formed control entry with code c. -/
def State.headControl (s : State) (q c : Nat) : Option (Obj × List Byte) :=
  match s.headEntry q, s.objOfQueue q with
  | some b, some o => if leAt b 0 1 = c ∧ controlError o b = 0 then some (o, b) else none
  | _, _ => none

/-- A control entry executes: popped, then its action. -/
def State.control (s : State) (q c : Nat) (act : State → Obj → List Byte → State) : Host.Outcome State Fault Refusal :=
  match s.headControl q c with
  | some (o, b) => .next (act (s.start.pop q) o b)
  | none => answer false s s

/-- The key a TASK entry sets (R240, R242). -/
def State.taskKey (s : State) (o : Obj) (b : List Byte) : TaskKey :=
  let fl := leAt b 2 2
  if fl % 4 = 1 then s.dlKey (leAt b 4 4)
  else if fl % 4 = 2 then s.dlKey ((s.dlNow + clampRel (leAt b 4 4)) % 2 ^ 32)
  else s.bandKey o.part (fl / 4 % 4)

/-- TASK (R227, R229). -/
def execTaskEntry (q : Nat) (s : State) : Host.Outcome State Fault Refusal :=
  s.control q 0xE0 (fun t o b => t.endTask q (some (t.taskKey o b)) (leAt b 8 4))

/-- TASK_END (R229): what follows belongs to the default task, whose key the doorbell that first gave it an entry has set. -/
def execTaskEndEntry (q : Nat) (s : State) : Host.Outcome State Fault Refusal :=
  s.control q 0xE6 (fun t _ _ => t.endTask q (t.defaultKey q) 0)

/-- The wait of a queue is over: it follows ON_CANCEL where its cell has CANCEL (R237). -/
def State.released (s : State) (q cell : Nat) (cancelRest : Bool) : State :=
  let t := s.setQ q { (s.q q) with wait := none }
  if cancelRest && t.flag (DCK_CELL_FLAGS.CANCEL cell) then t.cancelTask q else t

/-- WAIT (R227, R235): passes at once when the cell has reached TARGET. -/
def execWaitEntry (q : Nat) (s : State) : Host.Outcome State Fault Refusal :=
  s.control q 0xE1 (fun t _ b =>
    let cell := leAt b 4 2
    let rest := bitN (leAt b 2 2) 0
    if t.cellReached cell (leAt b 8 4) then t.released q cell rest
    else t.setQ q { (t.q q) with wait := some (.cell cell (leAt b 8 4) rest) })

/-- TIMED_WAIT (R227, R244). -/
def execTimedWaitEntry (q : Nat) (s : State) : Host.Outcome State Fault Refusal :=
  s.control q 0xE2 (fun t _ b =>
    let cell := leAt b 4 2
    let fl := leAt b 2 2
    let tEnd := if bitN fl 3 then leAt b 12 4 else (t.dlNow + clampRel (leAt b 12 4)) % 2 ^ 32
    if t.cellReached cell (leAt b 8 4) then t.released q cell (bitN fl 0)
    else t.setQ q { (t.q q) with wait := some (.timed cell (leAt b 8 4) tEnd (bitN fl 0) (bitN fl 1)
      (if bitN fl 2 then some (leAt b 6 2) else none)) })

/-- SIGNAL (R227, R234): at once, or after every earlier operation of the queue has retired. -/
def execSignalEntry (q : Nat) (s : State) : Host.Outcome State Fault Refusal :=
  s.control q 0xE3 (fun t _ b =>
    if bitN (leAt b 2 2) 0 ∧ (t.q q).inflight ≠ 0 then
      t.setQ q { (t.q q) with wait := some (.signalAfter (leAt b 4 2) (leAt b 8 4)) }
    else t.cellAdd (leAt b 4 2) (leAt b 8 4))

/-- SET (R227, R234). -/
def execSetEntry (q : Nat) (s : State) : Host.Outcome State Fault Refusal :=
  s.control q 0xE4 (fun t _ b =>
    if bitN (leAt b 2 2) 0 ∧ (t.q q).inflight ≠ 0 then
      t.setQ q { (t.q q) with wait := some (.setAfter (leAt b 4 2) (leAt b 8 4) (bitN (leAt b 2 2) 1)) }
    else t.cellSet (leAt b 4 2) (leAt b 8 4) (bitN (leAt b 2 2) 1))

/-- FENCE (R226). -/
def execFenceEntry (q : Nat) (s : State) : Host.Outcome State Fault Refusal :=
  s.control q 0xE5 (fun t _ _ => if (t.q q).inflight = 0 then t else t.setQ q { (t.q q) with wait := some .fence })

/-- A queue halts with a code (R228): its interrupt is raised with ERR_ONLY semantics. -/
def State.halt (s : State) (q code : Nat) : State :=
  ((s.setF (DCK_QUEUE_STATUS.HALT q) 1).setF (DCK_QUEUE_STATUS.HALT_CODE q) code).irqMsg (DCK_QUEUE_IRQ.EN q)
    (DCK_QUEUE_IRQ.ERR_ONLY q) (DCK_QUEUE_IRQ.HART q) (DCK_QUEUE_IRQ.EIID q) true

/-- The halt code the head of queue q draws, if it is a bad control entry. -/
def State.headBad (s : State) (q : Nat) : Option Nat :=
  match s.headEntry q, s.objOfQueue q with
  | some b, some o => if isControl b ∧ controlError o b ≠ 0 then some (controlError o b) else none
  | _, _ => none

/-- RESERVED_CONTROL_ENTRY (R228): popped, and the queue halts. -/
def execReservedControlEntry (q : Nat) (s : State) : Host.Outcome State Fault Refusal :=
  match s.headBad q with
  | some c => .next ((s.start.pop q).halt q c)
  | none => answer false s s

/-- WAIT_RELEASE (R236, R237): the cell a queue waits on has reached its target. -/
def execWaitRelease (q : Nat) (s : State) : Host.Outcome State Fault Refusal :=
  match (s.q q).wait with
  | some (.cell cell target rest) => answer (s.cellReached cell target) s (s.start.released q cell rest)
  | some (.timed cell target _ rest _ _) => answer (s.cellReached cell target) s (s.start.released q cell rest)
  | _ => answer false s s

/-- The timeout of a timed wait (R244). -/
def State.timedOut (s : State) (q : Nat) (proceed : Bool) (toCell : Option Nat) : State :=
  let t := match toCell with | some c => s.cellAdd c 1 | none => s
  let u := t.setQ q { (t.q q) with wait := none }
  if proceed then u else u.cancelTask q

/-- TIMED_WAIT_TIMEOUT (R244): DL_NOW has passed the timeout and the target is not reached. -/
def execTimedWaitTimeout (q : Nat) (s : State) : Host.Outcome State Fault Refusal :=
  match (s.q q).wait with
  | some (.timed cell target tEnd _ proceed toCell) =>
    answer (passed s.dlNow tEnd && !s.cellReached cell target) s (s.start.timedOut q proceed toCell)
  | _ => answer false s s

/-- FENCE_RELEASE (R226): every earlier operation has retired, and the blocked FENCE, SIGNAL or SET acts. -/
def execFenceRelease (q : Nat) (s : State) : Host.Outcome State Fault Refusal :=
  let go := fun (f : State → State) => answer ((s.q q).inflight == 0) s (f (s.start.setQ q { (s.q q) with wait := none }))
  match (s.q q).wait with
  | some .fence => go id
  | some (.signalAfter c v) => go (fun t => t.cellAdd c v)
  | some (.setAfter c v clr) => go (fun t => t.cellSet c v clr)
  | _ => answer false s s

/-! ## Cells and the deadline clock -/

/-- CELL_WRITE (R268): a set by software, checked against no grant (R238). -/
def execCellWrite (m n v : Nat) (s : State) : Host.Outcome State Fault Refusal :=
  s.write m (DCK_CELL.addr n) (s.start.cellSet n v false)

/-- CELL_ADD_WRITE (R268): a signal by software. -/
def execCellAddWrite (m n v : Nat) (s : State) : Host.Outcome State Fault Refusal :=
  s.write m (DCK_CELL_ADD.addr n) (s.start.cellAdd n v)

/-- Every key evaluated at a tick (R241), those of default tasks still to come with them (R229). -/
def State.ageAll (s : State) : State :=
  { s with queues := s.queues.map (fun e => (e.1, { e.2 with key := e.2.key.map s.aged, bells := e.2.bells.map (fun b => (b.1, s.aged b.2)) })) }

/-- DEADLINE_TICK (R239, R241): the time base has passed the next microsecond. -/
def execDeadlineTick (s : State) : Host.Outcome State Fault Refusal :=
  answer (s.dlNow != s.now / 1000 % 2 ^ 32) s
    ({ s.start with dlNow := (s.dlNow + 1) % 2 ^ 32, overdueCtr := s.overdueCtr + 1 }.ageAll)

/-! ## Dispatch (R230–R232, R243–R248) -/

/-- Unit of an engine an opcode needs: true the load unit (Dune OCC_LOAD, R431). -/
def needsLoad (engine op : Nat) : Bool := (engine == 1 || engine == 2) && op == 0x42

/-- What the Deckle would do with a cluster or engine: dispatch the head operation of a queue, dispatch the next part of its split job, or
restore its saved task. -/
inductive DispatchKind where
  | op
  | part
  | restore
deriving DecidableEq, Repr

/-- A dispatch or restore the Deckle could make now: queue, rank, and the cluster for ENGINE 0. -/
structure Dispatch where
  q : Nat
  rank : List Nat
  clu : Nat
  kind : DispatchKind
deriving DecidableEq, Repr

/-- The domain of engine e is on (R232, R50). -/
def State.engUp (s : State) (e : Nat) : Bool :=
  if e = 5 then s.pdOn pdLom else if e ≤ 2 then s.pdOn (pdDun (e - 1)) else s.pdOn (pdSlv (e - 3))

/-- A cluster holds fewer than 16 operations it has not completed (R230). -/
def State.cluRoom (s : State) (c : Nat) : Bool := decide ((s.cl c).ops.length < 16)

/-- Where the next part of queue q's split job goes (R231): an unbound eligible cluster with room. -/
def State.partPlace (s : State) (o : Obj) (q : Nat) (j : Job) : Option Nat :=
  if j.count ≤ j.next ∨ !s.placeFree o.part ∨ s.qDepth q = 0 then none
  else (s.place o.mask (((s.q q).resTag + j.next) % 2 ^ 32) q).filter s.cluRoom

/-- Bytes and record of a task's live ranges at a mark: (start, length) pairs; none for LIVE_REC 0xFFFF (R183, R184). -/
def State.liveRanges (s : State) (o : Obj) (rec : Nat) : List Range :=
  if rec = 0xFFFF then []
  else
    let a := o.liveBase + s.seenNat (o.liveBase + 4 * rec) 4
    (List.range (s.seenNat (a + 2) 2)).map (fun r => (bitsN (s.seenNat (a + 8 + 8 * r) 4) 21 0, s.seenNat (a + 12 + 8 * r) 4))

/-- Bytes a save moves after its header. -/
def liveBytes (rs : List Range) : Nat := sumN (rs.map (·.2))

/-- Slot k of a partition's save area (R250). -/
def State.saveAddr (s : State) (p k : Nat) : Nat :=
  s.fld (DCK_SAVE_LO.BASE p) * 0x10000 + s.fld (DCK_SAVE_HI.BASE p) * 2 ^ 32 + k * s.fld (DCK_SAVE_SLOT.SLOT_SHEETS p) * 0x10000

/-- The record that would be saved at the mark behind the last operation of queue q's bound task: one of the object's table (a mark of an operation
refused for its LIVE_REC names none: DESIGN CHOICE, log 81) that fits a save slot, with a slot free (R184, R249). -/
def State.pointRec (s : State) (q : Nat) : Option Nat :=
  match s.objOfQueue q, (s.q q).mark with
  | some o, some rec =>
    let fits := decide (512 + liveBytes (s.liveRanges o rec) ≤ s.fld (DCK_SAVE_SLOT.SLOT_SHEETS o.part) * 0x10000)
    if (s.q q).job.isNone ∧ (s.q q).bound.isSome ∧ (rec = 0xFFFF ∨ rec < o.liveCount) ∧ fits
        ∧ (s.saveSlot o.part).isSome ∧ (s.q q).save = .none then some rec else none
  | _, _ => none

/-- The task of queue q stands at a usable pre-emption point (R184, R249): the record it saves. Every operation of the task is complete. -/
def State.atPoint (s : State) (q : Nat) : Option Nat := if (s.acct q (s.q q).task).left = 0 then s.pointRec q else none

/-- The background task of queue q has reached the point at which the drain of its cluster pre-empts it: nothing is dispatched past it (R257). -/
def State.drainHolds (s : State) (q c : Nat) : Bool :=
  s.fld (ITG_CLU.SVC c) == 1 && (match (s.q q).key with | some k => !k.isDl | none => false) && (s.pointRec q).isSome

/-- Where the task at the head of queue q goes: its own cluster, or the one R246 gives an unbound task. The one R246 gives is waited for while
it still holds 16 operations of an earlier task (R230: DESIGN CHOICE, log 81). -/
def State.headPlace (s : State) (o : Obj) (q : Nat) : Option Nat :=
  match (s.q q).bound with
  | some c => if s.cluRoom c ∧ s.fld (ITG_CLU.SVC c) ≤ 1 ∧ !s.drainHolds q c then some c else none
  | none => (s.place o.mask (s.q q).resTag q).filter s.cluRoom

/-- The unit of engine e that opcode op needs is free, and the engine is up. -/
def State.engFree (s : State) (e op : Nat) : Bool := s.engUp e && (if needsLoad e op then (s.eng e).load.isNone else (s.eng e).main.isNone)

/-- The candidate queue q offers to receiver e (0 clusters, 1–5 engines), if its task is ready and can go somewhere: a part of its job, a saved
task (R252), or the operation at its head. -/
def State.candidate (s : State) (e q : Nat) : Option Dispatch :=
  match s.objOfQueue q, (s.q q).key with
  | some o, some k =>
    let r := s.rank k q
    if s.dispatchStopped then none
    else match (s.q q).job with
      | some j => if e = 0 then (s.partPlace o q j).map (fun c => ⟨q, r, c, .part⟩) else none
      | none =>
        if s.fld (DCK_QUEUE_CFG.ENGINE q) ≠ e ∨ !s.ready q then none
        else match (s.q q).save with
          | .none =>
            if e ≠ 0 then (if s.engFree e (leAt (s.entry q (s.qHead q)) 0 1) then some ⟨q, r, 0xFF, .op⟩ else none)
            else (s.headPlace o q).map (fun c => ⟨q, r, c, .op⟩)
          | .saved _ _ => if e = 0 then (s.place o.mask (s.q q).resTag q).map (fun c => ⟨q, r, c, .restore⟩) else none
          | _ => none
  | _, _ => none

/-- The head of queue q is an operation that waits for a free completion slot (R222). -/
def State.awaitsSlot (s : State) (q : Nat) : Bool :=
  match s.headEntry q with
  | some b => !isControl b && (OpDesc.ofBytes b).record && !s.cplFree q && (s.q q).job.isNone
  | none => false

/-- Queues of loaded objects. -/
def State.objQueues (s : State) : List Nat := (s.objs.map (fun o => (List.range o.qCount).map (fun i => o.qBase + i))).flatten

/-- The dispatch or restore the Deckle makes for receiver e: the first-ranked ready task that can go somewhere (R243, R252). -/
def State.choose (s : State) (e : Nat) : Option Dispatch := leastBy (fun (c : Dispatch) => c.rank) (s.objQueues.filterMap (s.candidate e))

/-- A key is overdue and has a deadline of its own: OVERDUE in records (R241, R242). -/
def keyOverdue (k : Option TaskKey) : Bool := match k with | some k => k.isDl && k.overdue.isSome | none => false

/-- A task bound to a cluster: the binding, and the residency tag (R230, R245). -/
def State.bindTask (s : State) (q clu tag : Nat) (part : Bool) : State :=
  let t := s.setCl clu { (s.cl clu) with bound := some q, partTask := part }
  (if part then t else (t.setQ q { (t.q q) with bound := some clu }).dropKept q).enterTag clu tag

/-- An operation sent to a cluster's issue stage. -/
def State.sendCluster (s : State) (o : Op) : State := (s.setCl o.clu { (s.cl o.clu) with inbox := (s.cl o.clu).inbox ++ [o] }).tookId

/-- An operation sent to an engine's unit. -/
def State.sendEngine (s : State) (e : Nat) (o : Op) : State :=
  let u := s.eng e
  (if needsLoad e (leAt o.bytes 0 1) then s.setEng e { u with load := some o } else s.setEng e { u with main := some o }).tookId

/-- One more operation of a queue's current task in flight; its record's slot reserved (R222, R247). -/
def State.countOp (s : State) (q : Nat) (record : Bool) : State :=
  let t := s.setQ q { (s.q q) with inflight := (s.q q).inflight + 1, reserved := (s.q q).reserved + b2n record }
  t.setAcct q (t.q q).task { (t.acct q (t.q q).task) with left := (t.acct q (t.q q).task).left + 1 }

/-- The next part of a split job is popped and goes to its cluster as a task of its own (R219, R231). -/
def State.sendPart (s : State) (o : Obj) (c : Dispatch) (j : Job) : State :=
  let b := s.entry c.q (s.qHead c.q)
  let t := ((s.pop c.q).bindTask c.q c.clu (((s.q c.q).resTag + j.next) % 2 ^ 32) true).countOp c.q false
  let t := t.setQ c.q { (t.q c.q) with job := some { j with next := j.next + 1 } }
  t.sendCluster (t.makeOp o c.q j.slot c.clu b (s.readTds o b) (keyOverdue (s.q c.q).key) true)

/-- A split job whose parts depart from R185: all its entries are popped and it completes whole with BAD_PARAM, no part run and FAILED_PARTS 0
(the spec gives no bitmap for it: DESIGN CHOICE, log 81). -/
def State.refuseJob (s : State) (o : Obj) (q n h : Nat) (bs : List (List Byte)) : State :=
  let d := OpDesc.ofBytes (getAt [] bs 0)
  let s1 := (List.range n).foldl (fun t _ => t.pop q) s
  let t := s1.setQ q { (s1.q q) with reserved := (s1.q q).reserved + b2n d.record }
  t.jobDone q h o.part (t.q q).task d stBadParam (128 + 8 * b2n (keyOverdue (s.q q).key)) 0xFF (splitBadByte bs) 0

/-- The head operation of a queue goes to its cluster (R230). A mark names the record of the operation that made it, of part 0 for a split job, though
its parts may differ in LIVE_REC (R184, R185: DESIGN CHOICE, log 81). -/
def State.sendHead (s : State) (o : Obj) (c : Dispatch) (n h : Nat) (b : List Byte) : State :=
  let d := OpDesc.ofBytes b
  let s1 := s.pop c.q
  let s2 := if (s.q c.q).bound.isSome then s1 else s1.bindTask c.q c.clu (s.q c.q).resTag false
  let s3 := s2.countOp c.q d.record
  let s4 := s3.setQ c.q { (s3.q c.q) with mark := if d.pmark then some d.liveRec else none, job := if 1 < n then some ⟨h, b, n, 1, []⟩ else none }
  s4.sendCluster (s4.makeOp o c.q h c.clu b (s.readTds o b) (keyOverdue (s.q c.q).key) (decide (1 < n)))

/-- OPERATION_DISPATCH's effect for a chosen candidate. -/
def State.dispatch (s : State) (e : Nat) (o : Obj) (c : Dispatch) : State :=
  match (s.q c.q).job with
  | some j => s.sendPart o c j
  | none =>
    let h := s.qHead c.q
    let b := s.entry c.q h
    let n := splitCount e b
    let bs := (List.range n).map (fun i => s.entry c.q ((h + i) % 2 ^ 32))
    if 1 < n ∧ !splitOk bs then s.refuseJob o c.q n h bs
    else if e ≠ 0 then
      let t := (s.pop c.q).countOp c.q (OpDesc.ofBytes b).record
      t.sendEngine e (t.makeOp o c.q h 0xFF b [] (keyOverdue (s.q c.q).key) false)
    else s.sendHead o c n h b

/-- OPERATION_DISPATCH (R248) for receiver e: 0 the clusters, 1–5 the engines of R232. Where a saved task ranks first, RESTORE comes first. -/
def execOperationDispatch (e : Nat) (s : State) : Host.Outcome State Fault Refusal :=
  match s.choose e with
  | none => answer false s s
  | some c => match c.kind, s.objOfQueue c.q with
    | .restore, _ => answer false s s
    | _, none => answer false s s
    | _, some o => .next (s.start.dispatch e o c)

/-! ## Pre-emption (R249–R252) and draining (R257) -/

/-- The rank of a bound task for pre-emption: below every ready task, and equal among themselves, when its head waits or its queue is empty
(R249). -/
def State.boundRank (s : State) (q : Nat) : List Nat :=
  match (s.q q).key with
  | some k => if s.ready q then s.rank k q else [3]
  | none => [3]

/-- Queue q holds a ready cluster task that no cluster is bound to and none moves from or to; a saved task counts (R249, R252). -/
def State.seeks (s : State) (q : Nat) : Bool :=
  s.ready q && (s.q q).bound.isNone && s.fld (DCK_QUEUE_CFG.ENGINE q) == 0 && (match (s.q q).save with | .none => true | .saved _ _ => true | _ => false)

/-- A task is being saved in favour of queue q's (R251). -/
def State.awaited (s : State) (q : Nat) : Bool := s.queues.any (fun e => match e.2.save with | .saving _ _ _ (some h) => h == q | _ => false)

/-- The task that ranks first among those that seek a cluster and may run on cluster c, where no eligible cluster takes it and no save is made
for it already (R243, R246, R249). -/
def State.starved (s : State) (c : Nat) : Option Nat :=
  let l := s.objQueues.filter (fun q => s.seeks q && (match s.objOfQueue q with | some o => bitN o.mask c | none => false))
  (leastBy (fun q => match (s.q q).key with | some k => s.rank k q | none => []) l).filter (fun q =>
    !s.awaited q && (match s.objOfQueue q with | some o => (s.place o.mask (s.q q).resTag q).isNone | none => false))

/-- The task that the task of queue q, at a point on its cluster, may be pre-empted for: of its partition, and ranked above it (R249). -/
def State.taker (s : State) (q : Nat) : Option Nat :=
  match s.objOfQueue q, (s.q q).bound, s.atPoint q with
  | some o, some c, some _ =>
    (s.starved c).filter (fun h => match s.objOfQueue h, (s.q h).key with
      | some oh, some k => oh.part == o.part && lexLt (s.rank k h) (s.boundRank q)
      | _, _ => false)
  | _, _, _ => none

/-- Tasks at a point that may be displaced for the starved task h. -/
def State.victims (s : State) (h : Nat) : List Nat := s.objQueues.filter (fun q => s.taker q == some h)

/-- The lowest-ranked of a list of queues, the highest cluster among equals (R249). -/
def State.lowest (s : State) (l : List Nat) : Option Nat :=
  l.foldl (fun best q => match best with
    | none => some q
    | some b =>
      if lexLt (s.boundRank b) (s.boundRank q) then some q
      else if s.boundRank b = s.boundRank q ∧ (s.q b).bound.getD 0 < (s.q q).bound.getD 0 then some q else some b) none

/-- The task of queue q begins to be saved (R251), for the task of queue h or for a drain. -/
def State.startSave (s : State) (q : Nat) (h : Option Nat) : State :=
  match s.objOfQueue q, s.atPoint q, (s.q q).bound with
  | some o, some rec, some c =>
    match s.saveSlot o.part with
    | some k => s.setQ q { (s.q q) with save := .saving c k rec h }
    | none => s
  | _, _, _ => s

/-- The background task that a drain displaces (R257): bound to a draining cluster, no deadline, at a point. -/
def State.drainVictim (s : State) : Option Nat :=
  s.objQueues.find? (fun q => (s.atPoint q).isSome && (match (s.q q).key with | some k => !k.isDl | none => false)
    && (match (s.q q).bound with | some c => s.fld (ITG_CLU.SVC c) == 1 | none => false))

/-- The first-ranked task for which another may be displaced now. -/
def State.firstTaker (s : State) : Option Nat :=
  leastBy (fun h => match (s.q h).key with | some k => s.rank k h | none => []) (s.objQueues.filterMap s.taker)

/-- What PREEMPT displaces, and for whom: the lowest-ranked task for the first-ranked starved one (R249), else one for a drain (R257). -/
def State.preemptVictim (s : State) : Option (Nat × Option Nat) :=
  match s.firstTaker.bind (fun h => (s.lowest (s.victims h)).map (fun q => (q, some h))) with
  | some r => some r
  | none => s.drainVictim.map (fun q => (q, none))

/-- PREEMPT (R249). -/
def execPreemptTask (s : State) : Host.Outcome State Fault Refusal :=
  match s.preemptVictim with
  | some r => .next (s.start.startSave r.1 r.2)
  | none => answer false s s

/-- The bytes of a save slot (R250): a header whose first 64 bytes are internal to the Deckle, the Vat block tags, the ranges. -/
def State.saveBytes (s : State) (c : Nat) (rs : List Range) : List Byte :=
  let tagBits := fun (i : Nat) => let t := s.tag (vatBase c / 4096 + i); b2n t.poison + 2 * b2n t.prov
  let tags := (List.range 256).map (fun k =>
    BitVec.ofNat 8 (tagBits (4 * k) + 4 * tagBits (4 * k + 1) + 16 * tagBits (4 * k + 2) + 64 * tagBits (4 * k + 3)))
  (List.range 64).map (fun i => Config.freeValue 8 (s.freeCtr + i)) ++ tags ++ leBytes 192 0
    ++ (rs.map (fun r => s.bytesAt (vatBase c + r.1) r.2)).flatten

/-- SAVE_COMPLETE (R251): the slot is written, the task unbound, PREEMPTED owed to its next record, and the cluster kept for the task it was
saved for. It waits while a block of the slot is being filled (R334). -/
def execSaveComplete (q : Nat) (s : State) : Host.Outcome State Fault Refusal :=
  match (s.q q).save, s.objOfQueue q with
  | .saving c k rec h, some o =>
    let t := s.start
    let bs := t.saveBytes c (t.liveRanges o rec)
    let t1 := (t.store ⟨deckleMaster, 0, false, false, .silent⟩ (placed (t.saveAddr o.part k) bs) 0 0).1.tookFree 64
    let t2 := t1.unbind q
    let t3 := t2.setCl c { (t2.cl c) with keptFor := h }
    let t4 := t3.setQ q { (t3.q q) with save := .saved k rec }
    answer (!s.filling (s.saveAddr o.part k) bs.length) s (t4.setAcct q (t4.q q).task { (t4.acct q (t4.q q).task) with preempted := true })
  | _, _ => answer false s s

/-- RESTORE (R252): the saved task that ranks first among all ready tasks goes to its eligible cluster. -/
def State.restorable (s : State) : Option Dispatch := (s.choose 0).filter (fun c => c.kind == .restore)

/-- RESTORE (R252). -/
def execRestoreTask (s : State) : Host.Outcome State Fault Refusal :=
  match s.restorable with
  | some c => match (s.q c.q).save with
    | .saved k rec => .next (s.start.setQ c.q { (s.q c.q) with save := .restoring c.clu k rec })
    | _ => answer false s s
  | none => answer false s s

/-- The saved ranges and their block tags back in a cluster's Vat (R184, R250). -/
def State.unsave (s : State) (o : Obj) (c k rec : Nat) : State :=
  let a := s.saveAddr o.part k
  let rs := s.liveRanges o rec
  let put := rs.foldl (fun (acc : State × Nat) r =>
    (acc.1.putAll (placed (vatBase c + r.1) (s.bytesAt acc.2 r.2)), acc.2 + r.2)) (s, a + 512)
  (blocksOf (rs.map (fun r => (vatBase c + r.1, r.2)))).foldl (fun t b =>
    let i := b - vatBase c / 4096
    let two := bitsN (s.nat (a + 64 + i / 4) 1) (2 * (i % 4) + 1) (2 * (i % 4))
    t.setTag b { t.tag b with poison := bitN two 0, prov := bitN two 1, writer := c }) put.1

/-- RESTORE_COMPLETE (R252): bound and resumed, its slot free. On a cluster that has begun to drain meanwhile nothing is bound (R257): the task
stays saved. It waits while a block of the slot is being filled (R334). -/
def execRestoreComplete (q : Nat) (s : State) : Host.Outcome State Fault Refusal :=
  match (s.q q).save, s.objOfQueue q with
  | .restoring c k rec, some o =>
    if s.fld (ITG_CLU.SVC c) ≠ 0 then .next (s.start.setQ q { (s.q q) with save := .saved k rec })
    else
      let t := s.start.unsave o c k rec
      let t1 := t.setQ q { (t.q q) with save := .none, mark := none }
      answer (!s.filling (s.saveAddr o.part k) (512 + liveBytes (s.liveRanges o rec))) s (t1.bindTask q c (t1.q q).resTag false)
  | _, _ => answer false s s

/-- No task is restored to cluster n or saved from it now. -/
def State.noRestore (s : State) (n : Nat) : Bool :=
  !s.queues.any (fun e => match e.2.save with | .restoring c _ _ => c == n | .saving c _ _ _ => c == n | _ => false)

/-- CLUSTER_DRAINED (R257): a draining cluster has lost its last bound task, and none is on its way to it or from it. -/
def execClusterDrained (n : Nat) (s : State) : Host.Outcome State Fault Refusal :=
  answer (s.fld (ITG_CLU.SVC n) == 1 && (s.cl n).bound.isNone && s.noRestore n && (s.cl n).ops.isEmpty && !(s.cl n).drained) s
    (s.start.setCl n { (s.cl n) with drained := true })

end Sys2Proof.Machine
end

