-- ==== Sys2Proof/Machine/Clusters.lean ====
section
/-! DEFINITION. The shared operations of a tensor cluster (chapters 03–05): accepting an operation, Vat ordering, the tests of
input tags and watermarks, ending an operation, curve slots, chains and drains. -/
namespace Sys2Proof.Machine

/-! ## Accepting and ending -/

/-- A cluster works: its domain is on and it is not out of service for a quarantine or a test (R395, R414). -/
def State.cluUp (s : State) (n : Nat) : Bool := s.pdOn (pdClu n) && decide (s.fld (ITG_CLU.SVC n) ≤ 1)

/-- The operation a cluster accepts next, if it has this opcode. -/
def State.inboxOp (s : State) (n op : Nat) : Option Op :=
  match (s.cl n).inbox with
  | o :: _ => if s.cluUp n ∧ o.desc.opcode = op then some o else none
  | [] => none

/-- The cluster accepts the front operation: its phase is reported when it differs from the last (R182), and a cancelled task's
binding may go (R254). -/
def State.accept (s : State) (n : Nat) (o : Op) : State :=
  let c := s.cl n
  let new := c.lastPhase != some o.desc.phase
  let s1 := s.setCl n { c with inbox := c.inbox.drop 1, lastPhase := some o.desc.phase }
  let s2 := if new then { s1 with phaseReports := s1.phaseReports ++ [(n, o.desc.phase)] } else s1
  if (s2.q o.queue).releasing ∧ !s2.unaccepted o.queue then s2.unbind o.queue else s2

/-- The operation as accepted now. -/
def Op.acceptedAt (o : Op) (t : Nat) : Op := { o with phase := .accepted, acceptTime := t }

/-- A list of operations with one replaced, or removed, by identity. -/
def opReplace (l : List Op) (o : Op) : List Op := l.map (fun x => if x.id = o.id then o else x)
def opRemove (l : List Op) (id : Nat) : List Op := l.filter (fun x => x.id != id)

/-- A cluster without one operation, its chains gone with it (R755). -/
def Cluster.without (c : Cluster) (id : Nat) : Cluster :=
  let keep := fun (ch : Option Chain) => ch.filter (fun x => x.op != id)
  { c with inbox := opRemove c.inbox id, cal := opRemove c.cal id, btr := opRemove c.btr id, ls := opRemove c.ls id,
           acc := keep c.acc, held := c.held.filter (fun x => x.op != id), drain := keep c.drain }

/-- An operation of a cluster updated in place. -/
def State.putOp (s : State) (n : Nat) (o : Op) : State :=
  let c := s.cl n
  s.setCl n { c with cal := opReplace c.cal o, btr := opReplace c.btr o, ls := opReplace c.ls o }

/-- An operation that has come to consume provisional input (R190): every block it has written carries PROVISIONAL too. -/
def State.markWrote (s : State) (o : Op) : State := o.wrote.foldl (fun t b => t.setTag b { t.tag b with prov := true }) s

/-- The operation o goes on with provisional input or without; where it has just met its first PROVISIONAL block, what it wrote earlier is marked. -/
def State.meetProv (s : State) (o : Op) (prov : Bool) : State := if prov && !o.provIn then s.markWrote o else s

/-- An operation leaves its cluster and retires; a part of a split job gives up its cluster (R231). -/
def State.finish (s : State) (o : Op) : State :=
  let c := (s.cl o.clu).without o.id
  let c := { c with lastDone := s.cyc, wdog := 0 }
  let c := if o.split ∧ c.bound = some o.queue ∧ c.partTask then { c with bound := none, partTask := false } else c
  (s.setCl o.clu c).retire o

/-- An operation ends with a status that leaves its outputs untouched (R171, R188). -/
def State.endUntouched (s : State) (o : Op) (st det : Nat) : State := s.finish { o with status := st, detail := det }

/-- What an operation stops on was poisoned on account of that record. -/
def Op.blamed (o : Op) (k : Nat) : Op := { o with blame := k }

/-- An operation stops on an input or page it may not use: its OUT footprint is poisoned and it completes (R189–R191, R755). -/
def State.endPoisoned (s : State) (o : Op) (st det : Nat) : State :=
  let o' := { o with status := st, detail := det }
  (s.poisonOut o').finish o'

/-- A Beater operation with its outcome decided: it completes at once if it is the oldest, else in its turn (R128). -/
def State.btrEnd (s : State) (n : Nat) (o : Op) (st det : Nat) (poisoned : Bool) : State :=
  let o' := { o with status := st, detail := det, phase := .ended }
  let s1 := if poisoned then s.poisonOut o' else s
  match (s1.cl n).btr with
  | f :: _ => if f.id = o.id then s1.finish o' else s1.putOp n o'
  | [] => s1.finish o'

/-- Checks 1 to 6 of R171 on an operation at its cluster. -/
def State.decode (s : State) (o : Op) : Option (Nat × Nat) :=
  let d := o.desc
  let x := s.opCtx o
  match s.obj o.handle with
  | some b => decodeCheck d x b.liveCount b.cBase b.cCount (s.opKvSlots x d)
  | none => decodeCheck d x 0 0 0 (s.opKvSlots x d)

/-! ## Vat ordering (R129, R169) -/

/-- Bytes of row r of a tensor at positions [k0, k1): codes, scales, sub-scales, metadata. -/
def rowSpan (f : Fmt) (t : TDesc) (clu : Nat) (sparse : Bool) (r k0 k1 : Nat) : List Range :=
  if k1 ≤ k0 then []
  else
    let nb := rowBlocks t.d0
    let h := fun (k : Nat) => if sparse then k / 2 else k
    let b0 := k0 / 32
    let bn := (k1 - 1) / 32 - b0 + 1
    let e0 := f.elem * h k0 / 8
    let e1 := ceilDiv (f.elem * h k1) 8
    let y := t.rowIdx r
    (t.rowAddr clu y.1 y.2.1 y.2.2 + e0, e1 - e0) ::
      ((if f.isBlock then [(t.phys clu + t.scaleOff + r * nb + b0, bn)] else [])
        ++ (if f.sub = 1 then [(t.phys clu + t.subOff + 2 * (r * nb + b0), 2 * bn)] else [])
        ++ (if sparse then [(t.phys clu + t.metaOff + 4 * (r * nb + b0), 4 * bn)] else []))

/-- The codebook of a table-coded tensor. -/
def codebookRange (f : Fmt) (t : TDesc) (clu : Nat) : List Range := if f.kind = 5 then [(t.phys clu + t.cbOff, 32)] else []

/-- Bytes of rows r0 … r0+cnt−1 of an operand matrix at k positions [k0, k1), with the codebook. -/
def sliceRanges (f : Fmt) (t : TDesc) (clu : Nat) (sparse : Bool) (r0 cnt k0 k1 : Nat) : List Range :=
  if k1 ≤ k0 then []
  else (List.range cnt).flatMap (fun i => rowSpan f t clu sparse (r0 + i) k0 k1) ++ codebookRange f t clu

/-- Bytes of a CONV's input that the output pixels of chain c use at k positions [k0, k1) (R146): for each position and output row the input
pixels inside the tensor, or with replicated edges the edge pixels that stand for those outside. -/
def convRanges (d : OpDesc) (x : OpCtx) (c k0 k1 : Nat) : List Range :=
  let f := x.fmt slotA
  let a := x.t slotA
  let g := d.geo
  let wo := (x.t slotOut).d1
  let i0 := tileRow0 d c
  let i1 := i0 + tileRows d c
  let hold := fun (n : Nat) (i : Int) => (clampI 0 (if g.repl then (n : Int) - 1 else (n : Int)) i).toNat
  if k1 ≤ k0 ∨ wo = 0 ∨ i1 ≤ i0 then []
  else (List.range (k1 - k0)).flatMap (fun j =>
      let ch := (k0 + j) % a.d2
      let kx := (k0 + j) / a.d2 % g.kw
      let ky := (k0 + j) / a.d2 / g.kw
      (List.range ((i1 - 1) / wo - i0 / wo + 1)).flatMap (fun r =>
        let oy := i0 / wo + r
        let o0 := Nat.max i0 (oy * wo) - oy * wo
        let o1 := Nat.min i1 ((oy + 1) * wo) - oy * wo
        let off : Int := ((kx * g.dx : Nat) : Int) - (g.left : Int)
        let iy : Int := ((oy + ky * g.dy : Nat) : Int) - (g.top : Int)
        let x0 := hold a.d0 ((o0 : Int) + off)
        let x1 := if g.repl then hold a.d0 ((o1 : Int) - 1 + off) + 1 else hold a.d0 ((o1 : Int) + off)
        if !g.repl && !decide (0 ≤ iy ∧ iy < (a.d1 : Int)) then [] else rowSpan f a x.clu false (ch * a.d1 + hold a.d1 iy) x0 x1))
    ++ codebookRange f a x.clu

/-- Bytes of slot A, and of slot B, that chain c uses at k positions [k0, k1). -/
def chainA (d : OpDesc) (x : OpCtx) (c k0 k1 : Nat) : List Range :=
  if d.opcode = 2 then convRanges d x c k0 k1
  else sliceRanges (x.fmt slotA) (x.t slotA) x.clu d.sparseA (tileRow0 d c) (tileRows d c) k0 k1
def chainB (d : OpDesc) (x : OpCtx) (c k0 k1 : Nat) : List Range :=
  sliceRanges (x.fmt slotB) (x.t slotB) x.clu false (tileCol0 d c) (tileCols d c) k0 k1

/-- Work cycles of one pass (R169), and the passes of a chain. -/
def passCycles (d : OpDesc) (x : OpCtx) : Nat :=
  if d.kchunk = 0 then calT d x
  else d.kchunk / kPerStep (x.fmt slotA) (x.fmt slotB) d.sparseA * cyclesPerStep (x.fmt slotA) (x.fmt slotB)
def passCount (d : OpDesc) (x : OpCtx) : Nat := if d.kchunk = 0 then 1 else ceilDiv (calKeff d x) d.kchunk

/-- K positions of pass p. -/
def passK (d : OpDesc) (x : OpCtx) (p : Nat) : Nat × Nat :=
  if d.kchunk = 0 then (0, d.k) else (Nat.min (p * d.kchunk) d.k, Nat.min (Nat.min ((p + 1) * d.kchunk) (calKeff d x)) d.k)

/-- A and B bytes of pass p of chain c. -/
def passRanges (d : OpDesc) (x : OpCtx) (c p : Nat) : List Range :=
  let k := passK d x p
  chainA d x c k.1 k.2 ++ chainB d x c k.1 k.2

/-- Vat bytes of a list of ranges. -/
def vatOnly (l : List Range) : List Range := l.filter (fun r => isVat r.1)

/-- Slots an operation reads, and writes. ATTN_MERGE with FIRST ignores c and what O held (R152). -/
def readSlots (d : OpDesc) : List Nat :=
  (usedSlots d).filter (fun i => slotRead d.opcode i && !(d.opcode == 0x19 && d.variant % 2 == 1 && i != slotA))
def writeSlots (d : OpDesc) : List Nat := (usedSlots d).filter (slotWritten d.opcode)

/-- Vat bytes an operation writes, and those it reads: with KCHUNK, A and B are left to its passes. -/
def opWrites (d : OpDesc) (x : OpCtx) : List Range := vatOnly ((writeSlots d).flatMap (slotRanges d x))
def opReads (d : OpDesc) (x : OpCtx) : List Range :=
  vatOnly (((readSlots d).filter (fun i => !(d.kchunk != 0 && (i == slotA || i == slotB)))).flatMap (slotRanges d x))

/-- A and B bytes a KCHUNK operation has still to read: its passes not completed, given the chain accumulating; the last pass, which may be
shorter, ends with the chain's last work cycle. -/
def openPasses (d : OpDesc) (x : OpCtx) (o : Op) (acc : Option Chain) : List Range :=
  if d.kchunk = 0 then []
  else
    let np := passCount d x
    (List.range (calChains d)).flatMap (fun c =>
      let doneP := match acc with
        | some ch => if ch.op = o.id ∧ ch.idx = c then (if calT d x ≤ ch.cycles then np else ch.cycles / passCycles d x) else if c < o.begun then np else 0
        | none => if c < o.begun then np else 0
      ((List.range np).drop doneP).flatMap (passRanges d x c))

/-- Operations of a cluster accepted before o and not completed. -/
def State.earlier (s : State) (o : Op) : List Op :=
  let c := s.cl o.clu
  (c.cal ++ c.btr ++ c.ls).filter (fun e => decide (e.id < o.id))

/-- Reads rs and writes ws of operation o conflict with an earlier operation (R129). -/
def State.conflicts (s : State) (o : Op) (rs ws : List Range) : Bool :=
  let acc := (s.cl o.clu).acc
  (s.earlier o).any (fun e =>
    let d := e.desc
    let x := s.opCtx e
    let ew := opWrites d x
    let er := opReads d x ++ vatOnly (openPasses d x e acc)
    rangesMeet (vatOnly rs) ew || rangesMeet (vatOnly ws) ew || rangesMeet (vatOnly ws) er)

/-- The whole operation conflicts with an earlier one. -/
def State.blocked (s : State) (o : Op) : Bool :=
  let d := o.desc
  let x := s.opCtx o
  s.conflicts o (opReads d x) (opWrites d x)

/-! ## Input tests (R189–R192, R325, R334) -/

/-- What the test of an operation's input blocks finds: usable, with a provisional block among them or not; a block a page mover
fills; or the status and block on which it stops. -/
inductive Scan where
  | ok (prov : Bool)
  | wait (b : Nat)
  | stop (status b : Nat)
deriving DecidableEq, Repr

/-- A read of the block fails its watermark; raw: by a reader that meets the check only after an uncorrectable link error (R325, R328, R389). -/
def State.badBlock (s : State) (raw : Bool) (b : Nat) : Bool :=
  s.isData (b * 4096) && !(raw && s.chanOf b != 2) && !s.isChecked b && !s.blockOk b

/-- Blocks tested in order: FILL_PEND, POISON, PROVISIONAL, and for DRAM blocks the watermark. -/
def State.scanWith (s : State) (raw accept : Bool) : Bool → List Nat → Scan
  | prov, [] => .ok prov
  | prov, b :: bs =>
    let t := s.tag b
    if t.fill then .wait b
    else if t.poison then .stop stPoisoned b
    else if t.prov && !accept then .stop stProvInput b
    else if s.badBlock raw b then .stop stWatermark b
    else s.scanWith raw accept (prov || t.prov) bs

/-- The test as clusters, page movers and egress ports make it, and as the engines do, which check no watermark (R325, R389). -/
def State.scanBlocks (s : State) (accept prov : Bool) (bs : List Nat) : Scan := s.scanWith false accept prov bs
def State.scanRaw (s : State) (accept prov : Bool) (bs : List Nat) : Scan := s.scanWith true accept prov bs

/-- The test over slots in order; the slot it stops on goes to DETAIL. -/
def State.scanSlots (s : State) (accept : Bool) : Bool → List (Nat × List Nat) → Scan × Nat
  | prov, [] => (.ok prov, 0)
  | prov, (i, bs) :: l =>
    match s.scanBlocks accept prov bs with
    | .ok p => s.scanSlots accept p l
    | r => (r, i)

/-- DRAM blocks of a list read and checked: they enter their controllers' lists (R325). -/
def State.noteReads (s : State) (bs : List Nat) (op move : Nat) : State :=
  bs.foldl (fun t b => if t.isData (b * 4096) then (t.checkRead b op move).1 else t) s

/-- DRAM blocks read by a unit that checks no watermark. -/
def State.noteRaw (s : State) (bs : List Nat) (op : Nat) : State :=
  bs.foldl (fun t b => if t.isData (b * 4096) then (t.rawCheck b op 0).1 else t) s

/-- The tags an operation's writes carry (R186, R187, R190). -/
def State.opTag (s : State) (o : Op) : WTag := ⟨o.clu, s.epoch o.clu, o.split || o.provIn, false, .unit⟩

/-! ## Curve slots (R141) -/

/-- The curve record an operation names, by physical address. -/
def curveAddr (d : OpDesc) (x : OpCtx) : Option Nat :=
  if d.curveEn && d.fromRecord then some ((x.t slotAux).phys x.clu) else none

/-- The record in a slot. -/
def Cluster.curve (c : Cluster) (a : Nat) : Option CurveSlot := c.slots.find? (fun e => e.addr == a)

/-- A slot used: it becomes the most recent. -/
def Cluster.touch (c : Cluster) (a : Nat) : Cluster :=
  match c.curve a with
  | some e => { c with slots := e :: c.slots.filter (fun x => x.addr != a) }
  | none => c

/-- A loaded record kept: in a free slot, else in place of the least recently used slot no incomplete operation references. -/
def keepSlot (refs : List Nat) (e : CurveSlot) (l : List CurveSlot) : List CurveSlot :=
  if l.length < 16 then e :: l
  else match l.reverse.find? (fun x => !refs.contains x.addr) with
    | some v => e :: l.filter (fun x => x.addr != v.addr)
    | none => e :: l.take 15

/-- Curve addresses of a cluster's incomplete Beater operations. -/
def State.curveRefs (s : State) (n : Nat) : List Nat := (s.cl n).btr.filterMap (fun o => curveAddr o.desc (s.opCtx o))

/-- A Beater operation waits for its curve record. -/
def State.needsCurve (s : State) (n : Nat) (o : Op) : Bool :=
  match curveAddr o.desc (s.opCtx o) with
  | some a => ((s.cl n).curve a).isNone && (match o.phase with | .accepted => true | _ => false)
  | none => false

end Sys2Proof.Machine
end

