-- ==== Sys2Proof/Machine/PowerOps.lean ====
section
/-! DEFINITION. Issue rates in force (R42, R104, R678, R680) and requests to switch power domains on (R51, R52, R687–R689). -/
namespace Sys2Proof.Machine

/-! ## Issue rate -/

/-- The PMU's throttle wire (R678). -/
def State.pmuQ (s : State) (n : Nat) : Nat := Nat.min (s.fld (PMU_CLU.QCAP n)) (Nat.min (s.fld (PMU_CLU.QTH n)) (s.fld (PMU_CLU.QRAIL n)))

/-- The droop clamp (R680). -/
def State.droopRate (s : State) (n : Nat) : Nat := if (s.pmuClu n).droop.isSome then s.thermal.droopQ else 64

/-- The issue rate in force on a cluster: 0 while quarantined, else the least of the PMU wire, the Headbox wires and the droop clamp. -/
def State.issueQ (s : State) (n : Nat) : Nat :=
  if 2 ≤ s.fld (ITG_CLU.SVC n) then 0 else Nat.min 64 (Nat.min (s.pmuQ n) (Nat.min (s.hbxRate n) (s.droopRate n)))

/-- A cluster is bound, under test or in some object's grant (R689). -/
def State.cluBusy (s : State) (n : Nat) : Bool :=
  let v := s.fld (ITG_CLU.SVC n)
  (s.cl n).bound.isSome || v == 1 || v == 3 || v == 4 || s.objs.any (fun o => bitN o.mask n)

/-- n nanoseconds at the present rates: each powered cluster's mean and lowest rate of the period follow (R676), and the moment it was last in use. -/
def State.rateTick (s : State) (n : Nat) : State :=
  ((List.range 64).filter (fun k => s.pdOn (pdClu k))).foldl (fun (t : State) k =>
    let q := s.issueQ k
    let x := t.pmuClu k
    t.setPmuClu k { x with qInt := x.qInt + q * n, qLow := Nat.min x.qLow q, busyAt := if s.cluBusy k then s.cyc + n else x.busyAt }) s

/-! ## Switching on (R688) -/

/-- The CORE domain a domain depends on (R52); itself for one that depends on none. -/
def pdCoreOf (d : Nat) : Nat := if d < 40 then 36 else if d < 80 then 76 else if d < 90 then 83 else 90

/-- The logic rail of a domain (R51, R672); 16 for the always-on ones. -/
def pdRail (d : Nat) : Nat :=
  if d < 32 then 0 else if d < 36 then 3 else if d < 40 then 0 else if d < 72 then 1 else if d < 76 then 3 else if d < 80 then 1
  else if d < 82 then 16 else if d < 90 then 4 else 5

/-- Two domains share a rail: their logic rail, or the array rail VDD_SRAM, which feeds every domain of dies A and B (R51). -/
def pdShares (d x : Nat) : Bool := pdRail d == pdRail x || (decide (d < 80) && decide (x < 80))

/-- A domain joins those that wait to be switched on. -/
def State.pdQueue (s : State) (d : Nat) : State :=
  if s.pdState d ≠ 0 ∨ s.pmu.pdWait.contains d then s
  else { s with pmu := { s.pmu with pdWait := s.pmu.pdWait.takeWhile (fun x => decide (x < d)) ++ d :: s.pmu.pdWait.dropWhile (fun x => decide (x < d)) } }

/-- Waiting domains whose CORE domain is on and on whose rails no other's switch is closing begin, in ascending index, as soon after the moment lo as
the 2 µs of the one before allow. -/
def State.pdKickFrom (s : State) (lo : Nat) : State :=
  s.pmu.pdWait.foldl (fun (t : State) d =>
    if t.pdOn (pdCoreOf d) ∨ pdCoreOf d = d then
      let at_ := maxN (lo :: ((List.range 96).filter (fun x => t.pdState x == 1 && pdShares x d)).map (fun x =>
        Sparse.get (fun _ => 0) t.pmu.pdSince x + 2000))
      if t.cyc < at_ then t
      else
        let u := t.setPd d 1
        { u with pmu := { u.pmu with pdWait := u.pmu.pdWait.filter (· != d), pdSince := Sparse.set (fun _ => 0) u.pmu.pdSince d at_ } }
    else t) s
def State.pdKick (s : State) : State := s.pdKickFrom s.cyc

/-- A request to switch a domain on, its CORE domain first. -/
def State.pdAsk (s : State) (d : Nat) : State :=
  if !s.pdPresent d then s else ((s.pdQueue (pdCoreOf d)).pdQueue d).pdKick

end Sys2Proof.Machine
end

