-- ==== Sys2Proof/Machine/Quire.lean ====
section
/-! DEFINITION. The Quire's shared operations (chapter 08): slots and their pages, batches and steps, state records, and the
command engine of a partition. -/
namespace Sys2Proof.Machine

/-! ## Results (R304) -/

/-- What a command does: its code, its two results, and the state it leaves. -/
structure QuiRes where
  code : Nat
  r0 : Nat
  r1 : Nat
  st : State

/-- A command refused: a code, and nothing changed. -/
def QuiRes.refuse (s : State) (c : Nat) : QuiRes := ⟨c, 0, 0, s⟩

def qDone : Nat := 0x00
def qSeqFull : Nat := 0x01
def qBadSlot : Nat := 0x02
def qBadHandle : Nat := 0x03
def qBadArg : Nat := 0x04
def qBadState : Nat := 0x05
def qPoolEmpty : Nat := 0x06
def qBatchFull : Nat := 0x07
def qRowsFull : Nat := 0x08
def qStepOpen : Nat := 0x09
def qNoStep : Nat := 0x0A
def qVersion : Nat := 0x0B
def qRecord : Nat := 0x0C
def qNotHeld : Nat := 0x0D
def qPinned : Nat := 0x0E
def qCluster : Nat := 0x0F
def qStateLost : Nat := 0x10

/-- The Quire's master ID (R365). -/
def quireMaster : Nat := 0x50

/-! ## Arguments (R302, R303) -/

/-- Argument j of partition p's next command, or of one that has still to act: a write of an argument changes nothing for it. -/
def State.arg (s : State) (p j : Nat) : Nat :=
  match (s.quiCmd p).bind (·.held) with
  | some l => getAt 0 l j
  | none => s.fld (QUI_ARG.VALUE p j)

/-- A 48-bit address from two arguments. -/
def State.argAddr (s : State) (p lo hi : Nat) : Nat := s.arg p lo + s.arg p hi * 2 ^ 32

/-- Argument bits a command does not list are 0: one mask per argument. -/
def State.argsClean (s : State) (p : Nat) (masks : List Nat) : Bool :=
  (List.range 6).all (fun j => Nat.land (s.arg p j) (0xFFFFFFFF - getAt 0 masks j) == 0)

/-- The object a handle names, loaded in partition p. -/
def State.quiObj (s : State) (p h : Nat) : Option Obj := (s.obj h).filter (fun o => o.part == p)

/-- A slot in use that belongs to partition p. -/
def State.quiSlot (s : State) (p n : Nat) : Option Slot :=
  let e := s.slot n
  if e.state ≠ 0 ∧ e.part = p then some e else none

/-- A batch in use that belongs to partition p. -/
def State.quiBatch (s : State) (p b : Nat) : Option Batch :=
  let x := s.batch b
  if x.isOpen ∧ x.part = p then some x else none

/-! ## Slots -/

/-- Slots of an object, and the slot a HOME argument takes (R278). -/
def State.slotsOf (s : State) (h : Nat) : List Nat := (List.range 1024).filter (fun n => (s.slot n).state != 0 && (s.slot n).handle == h)
def State.freeSlot (s : State) (home : Nat) : Option Nat :=
  let dieA := List.range 512
  let dieB := (List.range 512).map (· + 512)
  ((if home = 2 then dieB ++ dieA else dieA ++ dieB)).find? (fun n => (s.slot n).state == 0)

/-- The slot an admission of an object takes, none when it is SEQ_FULL. -/
def State.admitSlot (s : State) (o : Obj) (home : Nat) : Option Nat :=
  if o.seqSlots ≤ (s.slotsOf o.handle).length then none else s.freeSlot home

/-- Tokens per sheet, pages that cover n tokens, and the (layer, plane) pairs of a KV slot. -/
def Slot.tps (e : Slot) : Nat := 2 ^ e.log2Tps
def Slot.pagesFor (e : Slot) (n : Nat) : Nat := ceilDiv n e.tps
def Slot.planes (e : Slot) : List (Nat × Nat) := (List.range (e.layers * 2)).map (fun i => (i / 2, i % 2))

/-- The entries of a KV slot for pages [a, b): addresses in order of layer, plane, page. -/
def Slot.entries (e : Slot) (a b : Nat) : List Nat :=
  e.planes.flatMap (fun x => (List.range (b - a)).map (fun i => e.entryAddr x.1 x.2 (a + i)))

/-- The sheet an entry maps. -/
def State.mapped (s : State) (a : Nat) : Option Nat := let w := s.seenNat a 4; if bitN w 31 then some (bitsN w 21 0) else none

/-- Entries among a list that map a sheet are cleared, and the sheets' counts go down; how many (R287, R288). -/
def State.unmapAll (s : State) (p : Nat) (as : List Nat) : State × Nat :=
  as.foldl (fun acc a => match acc.1.mapped a with
    | some sh => ((acc.1.writeEntry a none).decRef p sh, acc.2 + 1)
    | none => acc) (s, 0)

/-- A slot released (R291, R306): the sheets it maps are given back, and the entry is free. -/
def State.releaseSlot (s : State) (n : Nat) : State :=
  let e := s.slot n
  let t := if e.stream then s
    else (e.entries 0 e.maxPages).foldl (fun u a => match u.mapped a with | some sh => u.decRef e.part sh | none => u) s
  t.setSlot n Slot.free

/-- A member or pending slot leaves its batch; a stream slot gives up its row (R291). -/
def State.leaveBatch (s : State) (n : Nat) : State :=
  s.setSlot n { (s.slot n) with state := 1, joinPend := false, leavePend := false, batch := 0xFF, row := 0xFFFF }

/-! ## Streams (R296–R301) -/

/-- Element bytes of a state format. -/
def stateEb (f : Nat) : Nat := if f = 0 then 4 else 2

/-- Bytes of a stream's state. -/
def Slot.stateBytes (e : Slot) : Nat := e.layers * e.log2Tps * stateEb e.fmt

/-- The address of state row r of a batch: the Vat of the object's one cluster. -/
def State.rowAddr (s : State) (b r : Nat) : Nat :=
  let x := s.batch b
  let clu := match s.obj x.handle with | some o => (lowestBit 64 o.mask).getD 0 | none => 0
  vatBase clu + x.stateBase + r * x.rowStride

/-- Rows held in a batch, and the lowest free one. -/
def State.heldRows (s : State) (b : Nat) : List Nat :=
  s.slots.filterMap (fun e => if e.2.state = 2 ∧ e.2.batch = b ∧ e.2.row ≠ 0xFFFF then some e.2.row else none)
def State.freeRow (s : State) (b : Nat) : Nat := ((List.range 256).find? (fun r => !(s.heldRows b).contains r)).getD 255

/-- Bytes written by the Quire. -/
def State.quiPut (s : State) (a : Nat) (bs : List Byte) : State := s.put quireMaster a bs

/-- A slot becomes a member: a stream slot takes the lowest free row, written with zeros (R291, R292). -/
def State.becomeMember (s : State) (n : Nat) : State :=
  let e := s.slot n
  if e.stream then
    let r := s.freeRow e.batch
    (s.quiPut (s.rowAddr e.batch r) (leBytes (s.batch e.batch).rowStride 0)).setSlot n { e with state := 2, joinPend := false, row := r }
  else s.setSlot n { e with state := 2, joinPend := false }

/-- STATE_LOST on every stream slot of the batches that live on a cluster (R299). -/
def State.loseStreams (s : State) (clu : Nat) : State :=
  s.slots.foldl (fun t e =>
    if e.2.stream && e.2.state == 2 && (match s.obj e.2.handle with | some o => lowestBit 64 o.mask == some clu | none => false) then
      t.setSlot e.1 { (t.slot e.1) with stateLost := true } else t) s

/-! ## Steps (R292–R295) -/

/-- Members of a batch, in ascending slot order. -/
def State.members (s : State) (b : Nat) : List Nat := (s.slots.filter (fun e => e.2.state == 2 && e.2.batch == b)).map (·.1)
def State.joining (s : State) (b : Nat) : List Nat := (s.slots.filter (fun e => e.2.joinPend && e.2.batch == b)).map (·.1)

/-- Unmapped entries a KV member's next tokens need. -/
def State.needs (s : State) (e : Slot) : List Nat :=
  (e.entries (e.length / e.tps) (e.pagesFor (e.length + e.stepTokens))).filter (fun a => (s.mapped a).isNone)

/-- Fresh sheets mapped into a list of entries, as far as the pool goes. -/
def State.mapFresh (s : State) (p : Nat) (as : List Nat) : State :=
  as.foldl (fun t a => match t.popSheet p with | some (u, sh) => u.writeEntry a (some sh) | none => t) s

/-- One member at STEP_BEGIN: in the step (true) or excluded. -/
def State.enterStep (s : State) (p n : Nat) : State × Bool :=
  let e := s.slot n
  if e.stream then (s, true)
  else if e.maxPages * e.tps < e.length + e.stepTokens then (s.setSlot n { e with atLimit := true }, false)
  else
    let need := s.needs e
    if s.poolFree p < need.length then ((s.setSlot n { e with growFail := true }).bump (QUI_POOL_EMPTY.COUNT p) 1, false)
    else ((s.mapFresh p need).setSlot n { e with atLimit := false, growFail := false }, true)

/-- Members taken in order: rows in, and how many were excluded. -/
def State.enterAll (s : State) (p : Nat) : List Nat → State × List Nat × Nat
  | [] => (s, [], 0)
  | n :: l =>
    let r := s.enterStep p n
    let q := r.1.enterAll p l
    if r.2 then (q.1, n :: q.2.1, q.2.2) else (q.1, q.2.1, q.2.2 + 1)

/-- LEN of a row (R293). -/
def Slot.len (e : Slot) : Nat := (e.length + e.stepTokens) % 2 ^ 32

/-- Rows of each bucket, then the fall-back rows (R294). -/
def State.groups (s : State) (x : Batch) (rows : List Nat) : List (List Nat) :=
  let bk := fun (n : Nat) => if x.mode = 0 && !x.stream then
      ((List.range 16).find? (fun b => decide ((s.slot n).len ≤ getAt 0 x.bounds b))).getD 16 else 16
  (List.range 17).map (fun b => rows.filter (fun n => bk n == b))

/-- The step record (R293). -/
def State.stepRecord (s : State) (x : Batch) (rows : List Nat) (excluded span : Nat) : List Byte :=
  let gs := s.groups x rows
  let order := gs.flatten
  let bucketed := x.mode = 0 && !x.stream
  let before := fun (b : Nat) => sumN ((gs.take b).map List.length)
  let ovf := if x.stream then 0 else (getAt [] gs 16).length
  let buckets := (List.range 16).flatMap (fun b =>
    leBytes 2 (if bucketed then before b else 0) ++ leBytes 2 (getAt [] gs b).length ++ leBytes 4 (if bucketed then getAt 0 x.bounds b else 0))
  let list := order.flatMap (fun n => leBytes 2 n)
  leBytes 2 1 ++ leBytes 2 order.length ++ leBytes 4 x.steps ++ leBytes 2 excluded ++ leBytes 2 (if x.stream then 0 else before 16)
    ++ leBytes 2 ovf ++ leBytes 2 span ++ leBytes 4 s.time ++ leBytes 44 0 ++ buckets
    ++ list ++ leBytes (alignUp list.length 64 - list.length) 0
    ++ order.flatMap (fun n => leBytes 4 (s.slot n).len ++ leBytes 4 (s.slot n).length)

/-- The rows of a stream batch come in ascending state row (R294). -/
def State.byRow (s : State) (rows : List Nat) : List Nat := (List.range 256).flatMap (fun r => rows.filter (fun n => (s.slot n).row == r))

/-- STEP_BEGIN's four steps (R292). -/
def State.stepBegin (s : State) (p b : Nat) (ready armed : Option (Nat × Nat)) : State × Nat × Nat :=
  let t := (s.joining b).foldl (fun u n => u.becomeMember n) s
  let r := t.enterAll p (t.members b)
  let x := { (s.batch b) with stepOpen := true, steps := ((s.batch b).steps + 1) % 2 ^ 32, armed := armed,
                              rows := r.2.1.map (fun n => (n, (r.1.slot n).stepTokens)) }
  let order := if x.stream then r.1.byRow r.2.1 else r.2.1
  let span := if x.stream then maxN ((r.1.heldRows b).map (· + 1)) else 0
  let u := (r.1.quiPut x.area (r.1.stepRecord x order r.2.2 span)).setBatch b x
  let v := r.2.1.foldl (fun w n => w.setSlot n { (w.slot n) with inStep := true }) u
  let w := match ready with | some (c, k) => v.cellAdd c k | none => v
  (w, r.2.1.length, r.2.2)

/-- One row as a step closes: its tokens on a commit, then what was put off (R295). -/
def State.closeRow (s : State) (commit : Bool) (n tok : Nat) : State :=
  let e := s.slot n
  let e1 := if commit then { e with length := (e.length + tok) % 2 ^ 32, lastCommit := s.time } else e
  let t := s.setSlot n { e1 with inStep := false }
  let t := if e.leavePend then t.leaveBatch n else t
  if e.releasePend then t.releaseSlot n else t

/-- A step closes (R295). -/
def State.closeStep (s : State) (b : Nat) (commit : Bool) : State :=
  let x := s.batch b
  let t := x.rows.foldl (fun u r => u.closeRow commit r.1 r.2) s
  t.setBatch b { x with stepOpen := false, armed := none, rows := [] }

/-- Service state of a cluster (R426). -/
def State.svc (s : State) (n : Nat) : Nat := s.fld (ITG_CLU.SVC n)
def State.setSvc (s : State) (n v : Nat) : State := s.setF (ITG_CLU.SVC n) v

/-- The Vat of a cluster holds a stream batch's state rows (R296). -/
def State.holdsStream (s : State) (n : Nat) : Bool :=
  s.batches.any (fun e => e.2.isOpen && e.2.stream && (match s.obj e.2.handle with | some o => lowestBit 64 o.mask == some n | none => false))

/-- The Deckle is asked to drain every cluster whose field test is requested and may be made (R413). -/
def State.startDrains (s : State) : State :=
  s.ftQueue.foldl (fun (t : State) r =>
    if t.svc r.clu = 0 ∧ (r.force ∨ !t.holdsStream r.clu) then
      let u := t.setSvc r.clu 1
      u.setCl r.clu { (u.cl r.clu) with drained := false }
    else t) s

/-- A batch closed: every member is admitted again, a pending join withdrawn (R291); a field test that its state rows held back may go on
(R413). -/
def State.closeBatch (s : State) (b : Nat) : State :=
  (((s.members b ++ s.joining b).foldl (fun t n => t.leaveBatch n) s).setBatch b Batch.free).startDrains

/-- The sequences of an unloaded object released (R306). -/
def State.releaseObject (s : State) (h : Nat) : State :=
  let bs := (List.range 32).filter (fun b => (s.batch b).isOpen && (s.batch b).handle == h)
  let t := match s.obj h with | some o => s.finishCows o.part | none => s
  let t := bs.foldl (fun u b => (if (u.batch b).stepOpen then u.closeStep b false else u).closeBatch b) t
  (t.slotsOf h).foldl (fun u n => u.releaseSlot n) t

/-! ## What a command reads and writes in memory (R334) -/

/-- A slot's page table, and a partition's counts and free stack. -/
def State.slotTable (s : State) (n : Nat) : Range := let e := s.slot n; (e.ptBase, if e.stream then 0 else e.layers * 2 * e.maxPages * 4)
def State.metaRange (s : State) (p : Nat) : Range := (s.metaArea p, 6 * s.poolSheets p)

/-- Slots of a batch whose release waits for the end of its step. -/
def State.stepReleases (s : State) (b : Nat) : List Nat := ((s.batch b).rows.map (·.1)).filter (fun n => (s.slot n).releasePend)

/-- The memory the command op of partition p may read or write. -/
def State.quiTouches (s : State) (p op : Nat) : List Range :=
  let n := bitsN (s.arg p 0) 9 0
  let b := bitsN (s.arg p 0) 4 0
  let rec_ := s.argAddr p 3 4
  match op with
  | 0x01 => [(rec_, bitsN (s.arg p 1) 10 0 * 2 * s.arg p 2 * 4)]
  | 0x03 => [s.metaRange p, s.slotTable n]
  | 0x04 => [s.metaRange p, s.slotTable n, (rec_, (s.slotTable n).2)]
  | 0x05 => [s.metaRange p, s.slotTable n]
  | 0x06 => [s.metaRange p, s.slotTable n]
  | 0x07 => [s.metaRange p]
  | 0x08 => [s.metaRange p]
  | 0x10 => if bitN (s.arg p 0) 16 || bitsN (s.arg p 0) 17 17 == 1 then [] else [(rec_, 64)]
  | 0x14 => s.metaRange p :: ((s.batch b).area, 10432) :: (s.members b ++ s.joining b).map s.slotTable
  | 0x15 => if (s.stepReleases b).isEmpty then [] else s.metaRange p :: (s.stepReleases b).map s.slotTable
  | 0x16 => if (s.stepReleases b).isEmpty then [] else s.metaRange p :: (s.stepReleases b).map s.slotTable
  | 0x20 => [(rec_, 64 + (s.slot n).stateBytes)]
  | 0x21 => [(rec_, 64 + (s.slot n).stateBytes)]
  | _ => []

/-- The command op of partition p waits on a block being filled. -/
def State.quiWaits (s : State) (p op : Nat) : Bool := (s.quiTouches p op).any (fun r => s.filling r.1 r.2)

/-! ## The command engine (R302, R305) -/

/-- A command acts: its results are held until DONE. -/
def State.quiAct (t : State) (p op : Nat) (f : State → QuiRes) : State :=
  let r := f (t.finishCows p)
  (r.st.setQuiCmd p (some ⟨op, r.code, r.r0, r.r1, false, none⟩)).setF (QUI_CMD_STATUS.BUSY p) 1

/-- A command written to QUI_p_CMD: refused while one runs; held while memory it may read or write is being filled (R334), with its
arguments; else it acts. -/
def State.quiSend (t : State) (p op : Nat) (f : State → QuiRes) : State :=
  if (t.quiCmd p).isSome then t.setF (QUI_CMD_STATUS.CMD_REJECT p) 1
  else if t.quiWaits p op then (t.setQuiCmd p (some ⟨op, 0, 0, 0, false, some ((List.range 6).map (t.arg p))⟩)).setF (QUI_CMD_STATUS.BUSY p) 1
  else t.quiAct p op f

end Sys2Proof.Machine
end

