-- ==== Sys2Proof/Machine/QuireCmds.lean ====
section
/-! DEFINITION. The Quire's commands (R302–R305): one meaning per command, armed commits, and the end of a command. -/
namespace Sys2Proof.Machine

/-- The page table a command names: 4 KiB aligned, inside one grant with write access (R281, R303). -/
def tableOk (o : Obj) (a layers maxPages : Nat) : Bool := a % 4096 == 0 && o.holds a (layers * 2 * maxPages * 4) 1

/-- Zeros over a page table (R281). -/
def State.zeroTable (s : State) (a layers maxPages : Nat) : State := s.quiPut a (leBytes (layers * 2 * maxPages * 4) 0)

/-- A KV slot as admitted (R279, R303). -/
def kvSlotEntry (o : Obj) (layers log2Tps maxPages pt length : Nat) : Slot :=
  { Slot.free with state := 1, handle := o.handle, part := o.part, layers := layers, log2Tps := log2Tps, maxPages := maxPages,
                   ptBase := pt, length := length }

/-- ADMIT (R278, R281). -/
def State.quiAdmit (s : State) (p : Nat) : QuiRes :=
  let a0 := s.arg p 0
  let layers := bitsN (s.arg p 1) 10 0
  let lt := bitsN (s.arg p 1) 19 16
  let mp := s.arg p 2
  let pt := s.argAddr p 3 4
  match s.quiObj p (bitsN a0 15 0) with
  | none => .refuse s qBadHandle
  | some o =>
    if bitsN a0 17 16 = 3 ∨ layers = 0 ∨ 1024 < layers ∨ 12 < lt ∨ mp = 0 ∨ 65536 < mp ∨ !tableOk o pt layers mp then .refuse s qBadArg
    else match s.admitSlot o (bitsN a0 17 16) with
      | none => .refuse s qSeqFull
      | some n => ⟨qDone, n, 0, (s.zeroTable pt layers mp).setSlot n (kvSlotEntry o layers lt mp pt 0)⟩

/-- ADMIT_STREAM (R303). -/
def State.quiAdmitStream (s : State) (p : Nat) : QuiRes :=
  let a0 := s.arg p 0
  let d := bitsN (s.arg p 1) 13 0
  let sn := bitsN (s.arg p 1) 22 16
  let f := bitsN (s.arg p 1) 25 24
  match s.quiObj p (bitsN a0 15 0) with
  | none => .refuse s qBadHandle
  | some o =>
    if bitsN a0 17 16 = 3 ∨ d = 0 ∨ 8192 < d ∨ sn = 0 ∨ 64 < sn ∨ f = 3 then .refuse s qBadArg
    else match s.admitSlot o (bitsN a0 17 16) with
      | none => .refuse s qSeqFull
      | some n =>
        let e := { Slot.free with state := 1, stream := true, handle := o.handle, part := p, layers := d, log2Tps := sn, fmt := f,
                                  maxPages := s.arg p 2 }
        ⟨qDone, n, 0, s.setSlot n e⟩

/-- RELEASE (R291). -/
def State.quiRelease (s : State) (p : Nat) : QuiRes :=
  let n := bitsN (s.arg p 0) 9 0
  match s.quiSlot p n with
  | none => .refuse s qBadSlot
  | some e => if e.inStep then ⟨qDone, 0, 1, s.setSlot n { e with releasePend := true }⟩ else ⟨qDone, 0, 0, s.releaseSlot n⟩

/-- Pages of a source mapped into a fork's table, their counts up; how many sheets (R287). -/
def State.sharePages (s : State) (p : Nat) (src dst : Slot) (pages : Nat) : State × Nat :=
  ((src.entries 0 pages).zip (dst.entries 0 pages)).foldl (fun acc x => match acc.1.mapped x.1 with
    | some sh => ((acc.1.writeEntry x.2 (some sh)).incRef p sh, acc.2 + 1)
    | none => acc) (s, 0)

/-- FORK (R287). -/
def State.quiFork (s : State) (p : Nat) : QuiRes :=
  let a0 := s.arg p 0
  let tok := s.arg p 1
  let pt := s.argAddr p 3 4
  match s.quiSlot p (bitsN a0 9 0) with
  | none => .refuse s qBadSlot
  | some e => match s.obj e.handle with
    | none => .refuse s qBadHandle
    | some o =>
      if bitsN a0 17 16 = 3 then .refuse s qBadArg
      else if e.stream then .refuse s qBadState
      else if e.length < tok ∨ !tableOk o pt e.layers e.maxPages then .refuse s qBadArg
      else match s.admitSlot o (bitsN a0 17 16) with
        | none => .refuse s qSeqFull
        | some n =>
          let new := kvSlotEntry o e.layers e.log2Tps e.maxPages pt tok
          let r := ((s.zeroTable pt e.layers e.maxPages).setSlot n new).sharePages p e new (Nat.min e.maxPages (e.pagesFor tok))
          ⟨qDone, n, r.2, r.1⟩

/-- MAP (R289). -/
def State.quiMap (s : State) (p : Nat) : QuiRes :=
  let n := bitsN (s.arg p 0) 9 0
  let layer := bitsN (s.arg p 1) 9 0
  let plane := bitsN (s.arg p 1) 16 16
  let page := s.arg p 2
  let sh := bitsN (s.arg p 3) 21 0
  match s.quiSlot p n with
  | none => .refuse s qBadSlot
  | some e =>
    if e.stream then .refuse s qBadState
    else if e.layers ≤ layer ∨ e.maxPages ≤ page then .refuse s qBadArg
    else
      let a := e.entryAddr layer plane page
      if (s.mapped a).isSome then .refuse s qBadState
      else if bitN (s.arg p 3) 31 then
        match s.popSheet p with
        | some (t, new) => ⟨qDone, new, 0, t.writeEntry a (some new)⟩
        | none => .refuse (s.bump (QUI_POOL_EMPTY.COUNT p) 1) qPoolEmpty
      else if !s.inPool p sh || s.refs p sh == 0 then .refuse s qNotHeld
      else ⟨qDone, sh, 0, (s.writeEntry a (some sh)).incRef p sh⟩

/-- One page that a truncation cuts: zeros over the blocks wholly beyond, in a copy that a page mover is asked for where the sheet is shared, the
copies already asked for not counted (R285, R288, R336); none where the pool is empty. -/
def State.cutPage (s : State) (p n a cut : Nat) : Option State :=
  match s.mapped a with
  | none => some s
  | some sh =>
    if s.inPool p sh && decide (1 + (s.cows.filter (fun c => c.old == sh)).length < s.refs p sh) then (s.startCow p n a sh cut).map (·.1)
    else some (s.zeroFrom sh cut)

/-- TRUNCATE (R288): it is done once the copies it asks for are. -/
def State.quiTruncate (s : State) (p : Nat) : QuiRes :=
  let n := bitsN (s.arg p 0) 9 0
  let new := s.arg p 1
  match s.quiSlot p n with
  | none => .refuse s qBadSlot
  | some e =>
    if e.stream ∨ e.inStep then .refuse s qBadState
    else if e.length < new then .refuse s qBadArg
    else
      let r := s.unmapAll p (e.entries (e.pagesFor new) e.maxPages)
      let cut := new % e.tps * 65536 / e.tps
      let part := if new % e.tps = 0 then [] else e.entries (new / e.tps) (new / e.tps + 1)
      match part.foldl (fun acc a => acc.bind (fun t => t.cutPage p n a cut)) (some r.1) with
      | some t => ⟨qDone, 0, r.2, t.startCows.setSlot n { (t.slot n) with length := new }⟩
      | none => .refuse (s.bump (QUI_POOL_EMPTY.COUNT p) 1) qPoolEmpty

/-- RETAIN (R289); a sheet that is not the partition's gives BAD_ARG (R302). -/
def State.quiRetain (s : State) (p : Nat) : QuiRes :=
  let sh := bitsN (s.arg p 3) 21 0
  if s.inPool p sh = false then .refuse s qBadArg
  else if s.refs p sh = 0 then .refuse s qNotHeld
  else ⟨qDone, (s.incRef p sh).refs p sh, 0, s.incRef p sh⟩

/-- DROP (R289); a sheet that is not the partition's gives BAD_ARG (R302). -/
def State.quiDrop (s : State) (p : Nat) : QuiRes :=
  let sh := bitsN (s.arg p 3) 21 0
  if s.inPool p sh = false then .refuse s qBadArg
  else if s.refs p sh = 0 then .refuse s qNotHeld
  else if s.refs p sh = 0xFFFF then ⟨qPinned, 0xFFFF, 0, s⟩
  else ⟨qDone, (s.decRef p sh).refs p sh, 0, s.decRef p sh⟩

/-- A bounds record is strictly ascending, each bound from 1 to 2^28 (R294). -/
def boundsOk (l : List Nat) : Bool :=
  l.all (fun b => decide (1 ≤ b ∧ b ≤ 2 ^ 28)) && (List.range 15).all (fun i => decide (getAt 0 l i < getAt 0 l (i + 1)))

/-- BATCH_OPEN (R290, R293, R294, R296). -/
def State.quiBatchOpen (s : State) (p : Nat) : QuiRes :=
  let a0 := s.arg p 0
  let stream := bitN a0 16
  let mode := bitsN a0 17 17
  let area := s.argAddr p 1 2
  let bAddr := s.argAddr p 3 4
  match s.quiObj p (bitsN a0 15 0) with
  | none => .refuse s qBadHandle
  | some o =>
    let bounds := if !stream && mode == 0 then (List.range 16).map (fun i => s.seenNat (bAddr + 4 * i) 4) else []
    let sb := s.arg p 3
    let stride := s.arg p 4
    let bad := decide (65535 < s.arg p 2) || area % 64 != 0 || !o.holds area 10432 1
      || (!stream && mode == 0 && (decide (65535 < s.arg p 4) || !o.holds bAddr 64 0 || !boundsOk bounds))
    let badStream := stream && (sb % 4096 != 0 || stride % 4096 != 0 || decide (sb < o.vatBase ∨ o.vatBase + o.vatBytes < sb + 256 * stride))
    if bad then .refuse s qBadArg
    else if stream && popcount 64 o.mask != 1 then .refuse s qCluster
    else if badStream then .refuse s qBadArg
    else match (List.range 32).find? (fun b => !(s.batch b).isOpen) with
      | none => .refuse s qBatchFull
      | some b =>
        let x := { Batch.free with isOpen := true, stream := stream, mode := mode, part := p, handle := o.handle, area := area,
                                   bounds := bounds, stateBase := if stream then sb else 0, rowStride := if stream then stride else 0 }
        ⟨qDone, b, 0, s.setBatch b x⟩

/-- BATCH_CLOSE (R291). -/
def State.quiBatchClose (s : State) (p : Nat) : QuiRes :=
  let b := bitsN (s.arg p 0) 4 0
  match s.quiBatch p b with
  | none => .refuse s qBadArg
  | some x => if x.stepOpen then .refuse s qStepOpen else ⟨qDone, 0, 0, s.closeBatch b⟩

/-- JOIN (R290, R291, R296). -/
def State.quiJoin (s : State) (p : Nat) : QuiRes :=
  let n := bitsN (s.arg p 0) 9 0
  let b := bitsN (s.arg p 0) 20 16
  let tok := s.arg p 1
  match s.quiSlot p n, s.quiBatch p b with
  | none, _ => .refuse s qBadSlot
  | _, none => .refuse s qBadArg
  | some e, some x =>
    if e.handle ≠ x.handle ∨ e.stream ≠ x.stream ∨ tok = 0 ∨ (if e.stream then 4096 else 8192) < tok then .refuse s qBadArg
    else if e.batch = b then ⟨qDone, e.row, b2n e.joinPend, s.setSlot n { e with stepTokens := tok }⟩
    else if e.batch ≠ 0xFF then .refuse s qBadState
    else if e.stream ∧ x.rowStride < e.stateBytes then .refuse s qBadArg
    else if e.stream ∧ 256 ≤ (s.members b ++ s.joining b).length then .refuse s qRowsFull
    else
      let e' := { e with stepTokens := tok, batch := b }
      if x.stepOpen then ⟨qDone, 0xFFFF, 1, s.setSlot n { e' with joinPend := true }⟩
      else let t := (s.setSlot n e').becomeMember n; ⟨qDone, (t.slot n).row, 0, t⟩

/-- LEAVE (R291). -/
def State.quiLeave (s : State) (p : Nat) : QuiRes :=
  let n := bitsN (s.arg p 0) 9 0
  match s.quiSlot p n with
  | none => .refuse s qBadSlot
  | some e =>
    if e.batch = 0xFF then .refuse s qBadState
    else if e.inStep then ⟨qDone, 0, 1, s.setSlot n { e with leavePend := true }⟩
    else ⟨qDone, 0, 0, s.leaveBatch n⟩

/-- STEP_BEGIN (R292). -/
def State.quiStepBegin (s : State) (p : Nat) : QuiRes :=
  let b := bitsN (s.arg p 0) 4 0
  let rc := bitsN (s.arg p 1) 15 0
  let cc := bitsN (s.arg p 2) 15 0
  let rEn := bitN (s.arg p 1) 16
  let arm := bitN (s.arg p 2) 16
  match s.quiBatch p b with
  | none => .refuse s qBadArg
  | some x =>
    let mine := fun (c : Nat) => match s.obj x.handle with | some o => decide (o.cBase ≤ c ∧ c < o.cBase + o.cCount) | none => false
    if (rEn && !mine rc) || (arm && !mine cc) then .refuse s qBadArg
    else if x.stepOpen then .refuse s qStepOpen
    else
      let r := s.stepBegin p b (if rEn then some (rc, 1) else none) (if arm then some (cc, s.arg p 3) else none)
      ⟨qDone, r.2.1, r.2.2, r.1⟩

/-- STEP_COMMIT and STEP_ABORT (R295). -/
def State.quiClose (s : State) (p : Nat) (commit : Bool) : QuiRes :=
  let b := bitsN (s.arg p 0) 4 0
  match s.quiBatch p b with
  | none => .refuse s qBadArg
  | some x => if x.stepOpen then ⟨qDone, x.rows.length, 0, s.closeStep b commit⟩ else .refuse s qNoStep

/-- The state record of a slot, its CRC filled in (R300). -/
def State.stateRecord (s : State) (e : Slot) : List Byte :=
  let a := s.rowAddr e.batch e.row
  let n := e.stateBytes
  let bs := rangeBlocks a (Nat.max n (s.batch e.batch).rowStride)
  let flags := b2n (bs.any (fun b => (s.tag b).prov)) + 2 * b2n (bs.any (fun b => (s.tag b).poison))
  let head := leBytes 4 0x52545351 ++ leBytes 1 1 ++ leBytes 1 1 ++ leBytes 1 e.fmt ++ leBytes 1 flags ++ leBytes 2 e.layers
    ++ leBytes 1 e.log2Tps ++ leBytes 1 0 ++ leBytes 4 e.maxPages ++ leBytes 4 e.length ++ leBytes 4 n
  let tail := leBytes 4 s.time ++ leBytes 32 0 ++ s.bytesAt a n
  head ++ leBytes 4 (crc32c (head ++ leBytes 4 0 ++ tail)) ++ tail

/-- The stream slot of an EXPORT or IMPORT, with its object and the record's address; a refusal where it may not be used. -/
def State.streamArgs (s : State) (p : Nat) (bit : Nat) : Option (Nat × Slot × Nat) × Nat :=
  let n := bitsN (s.arg p 0) 9 0
  let a := s.argAddr p 3 4
  match s.quiSlot p n with
  | none => (none, qBadSlot)
  | some e =>
    if !e.stream || e.row == 0xFFFF || e.inStep then (none, qBadState)
    else match s.obj e.handle with
      | some o => if a % 64 = 0 ∧ o.holds a (64 + e.stateBytes) bit then (some (n, e, a), 0) else (none, qBadArg)
      | none => (none, qBadHandle)

/-- EXPORT (R300, R301). -/
def State.quiExport (s : State) (p : Nat) : QuiRes :=
  match s.streamArgs p 1 with
  | (some (_, e, a), _) =>
    if e.stateLost then .refuse s qStateLost
    else let r := s.stateRecord e; ⟨qDone, r.length, 0, s.quiPut a r⟩
  | (none, c) => .refuse s c

/-- The code a record draws from the checks of R301, DONE when it may be copied. -/
def recordCode (e : Slot) (r : List Byte) : Nat :=
  if leAt r 0 4 ≠ 0x52545351 then qRecord
  else if Nat.min (leAt r 5 1) 1 < leAt r 4 1 then qVersion
  else if leAt r 24 4 ≠ crc32c (r.take 24 ++ leBytes 4 0 ++ r.drop 28) then qRecord
  else if leAt r 6 1 ≠ e.fmt ∨ leAt r 8 2 ≠ e.layers ∨ leAt r 10 1 ≠ e.log2Tps ∨ leAt r 12 4 ≠ e.maxPages then qRecord
  else if leAt r 7 1 ≠ 0 then qRecord
  else qDone

/-- IMPORT (R301): the row is written in whole blocks; what stands beyond the record's data in the last one is open. -/
def State.quiImport (s : State) (p : Nat) : QuiRes :=
  match s.streamArgs p 0 with
  | (some (n, e, a), _) =>
    let r := s.seenBytes a (64 + e.stateBytes)
    let c := recordCode e r
    if c ≠ qDone then .refuse s c
    else
      let pad := alignUp e.stateBytes 4096 - e.stateBytes
      let fill := (List.range pad).map (fun i => Config.freeValue 8 (s.freeCtr + i))
      let t := (s.quiPut (s.rowAddr e.batch e.row) (r.drop 64 ++ fill)).tookFree pad
      ⟨qDone, r.length, 0, t.setSlot n { (t.slot n) with length := leAt r 16 4, stateLost := false }⟩
  | (none, c) => .refuse s c

/-- The memory that the end of batch b's step may write is being filled (R334). -/
def State.stepWaits (s : State) (b : Nat) : Bool :=
  let l := s.stepReleases b
  !l.isEmpty && (s.metaRange (s.batch b).part :: l.map s.slotTable).any (fun r => s.filling r.1 r.2)

/-- ARMED_COMMIT (R295): batch b's cell has reached its target and the partition's engine is idle; copies in progress end first (R285). -/
def execArmedCommit (b : Nat) (s : State) : Host.Outcome State Fault Refusal :=
  let x := s.batch b
  match x.armed with
  | none => answer false s s
  | some (c, t) =>
    let commit := !s.flag (DCK_CELL_FLAGS.CANCEL c)
    let u := (s.start.finishCows x.part).closeStep b commit
    answer (x.stepOpen && (s.quiCmd x.part).isNone && s.cellReached c t && !s.stepWaits b) s
      ((u.setQuiCmd x.part (some ⟨if commit then 0x15 else 0x16, qDone, x.rows.length, 0, true, none⟩)).setF (QUI_CMD_STATUS.BUSY x.part) 1)

/-- The command of partition p has acted, and no copy it asked for is in progress. -/
def State.quiActed (s : State) (p : Nat) : Bool :=
  ((s.quiCmd p).bind (·.held)).isNone && !s.cows.any (fun c => c.part == p && decide (c.cut < 65536))

/-- QUIRE_COMMAND_DONE (R304, R305, R311): results published and DONE set; an armed commit sets none. -/
def execQuireCommandDone (p : Nat) (s : State) : Host.Outcome State Fault Refusal :=
  match s.quiCmd p with
  | none => answer false s s
  | some c =>
    let t := (s.start.setQuiCmd p none).setF (QUI_CMD_STATUS.BUSY p) 0
    if !s.quiActed p then answer false s s
    else if c.armed then .next t
    else
      let u := ((((t.setF (QUI_CMD_STATUS.LAST_OP p) c.op).setF (QUI_CMD_STATUS.CODE p) c.code).setF (QUI_RESULT.VALUE p 0) c.r0).setF
        (QUI_RESULT.VALUE p 1) c.r1).setF (QUI_CMD_STATUS.DONE p) 1
      .next (u.irqMsg (QUI_IRQ.EN p) (QUI_IRQ.ERR_ONLY p) (QUI_IRQ.HART p) (QUI_IRQ.EIID p) (c.code != qDone && c.code != qPinned))

/-! ## Commands -/

/-- The command with code op, once its arguments use only the bits R303 lists: what it does (R302, R303). A reserved OP fails with BAD_ARG. -/
def State.quiEffect (s : State) (p op : Nat) : QuiRes :=
  let clean := fun (masks : List Nat) (r : QuiRes) => if s.argsClean p masks then r else QuiRes.refuse s qBadArg
  match op with
  | 0x01 => clean [0x3FFFF, 0xF07FF, 0xFFFFFFFF, 0xFFFFFFFF, 0xFFFF, 0] (s.quiAdmit p)
  | 0x02 => clean [0x3FFFF, 0x37F3FFF, 0xFFFFFFFF, 0, 0, 0] (s.quiAdmitStream p)
  | 0x03 => clean [0x3FF, 0, 0, 0, 0, 0] (s.quiRelease p)
  | 0x04 => clean [0x303FF, 0xFFFFFFFF, 0, 0xFFFFFFFF, 0xFFFF, 0] (s.quiFork p)
  | 0x05 => clean [0x3FF, 0x103FF, 0xFFFFFFFF, 0x803FFFFF, 0, 0] (s.quiMap p)
  | 0x06 => clean [0x3FF, 0xFFFFFFFF, 0, 0, 0, 0] (s.quiTruncate p)
  | 0x07 => clean [0, 0, 0, 0x3FFFFF, 0, 0] (s.quiRetain p)
  | 0x08 => clean [0, 0, 0, 0x3FFFFF, 0, 0] (s.quiDrop p)
  | 0x10 => clean [0x3FFFF, 0xFFFFFFFF, 0xFFFF, 0xFFFFFFFF, 0xFFFFFFFF, 0] (s.quiBatchOpen p)
  | 0x11 => clean [0x1F, 0, 0, 0, 0, 0] (s.quiBatchClose p)
  | 0x12 => clean [0x1F03FF, 0xFFFFFFFF, 0, 0, 0, 0] (s.quiJoin p)
  | 0x13 => clean [0x3FF, 0, 0, 0, 0, 0] (s.quiLeave p)
  | 0x14 => clean [0x1F, 0x1FFFF, 0x1FFFF, 0xFFFFFFFF, 0, 0] (s.quiStepBegin p)
  | 0x15 => clean [0x1F, 0, 0, 0, 0, 0] (s.quiClose p true)
  | 0x16 => clean [0x1F, 0, 0, 0, 0, 0] (s.quiClose p false)
  | 0x20 => clean [0x3FF, 0, 0, 0xFFFFFFFF, 0xFFFF, 0] (s.quiExport p)
  | 0x21 => clean [0x3FF, 0, 0, 0xFFFFFFFF, 0xFFFF, 0] (s.quiImport p)
  | _ => .refuse s qBadArg

/-- The command a write of OP to QUI_p_CMD starts. -/
def State.quiGo (s : State) (p op : Nat) : State := s.quiSend p op (fun t => t.quiEffect p op)

/-- A command that has waited for memory being filled acts, once it waits no more (R334). -/
def State.quiWake (s : State) (p : Nat) : State :=
  match s.quiCmd p with
  | some c => if c.held.isSome && !s.quiWaits p c.op then s.quiAct p c.op (fun t => t.quiEffect p c.op) else s
  | none => s
def State.quiWakes (s : State) : State := (List.range 8).foldl (fun (t : State) p => t.quiWake p) s

/-- ADMIT (R278) by master m in partition p. -/
def execQuiAdmit (m p : Nat) (s : State) : Host.Outcome State Fault Refusal := s.write m (QUI_CMD.addr p) (s.start.quiGo p 0x01)

/-- ADMIT_STREAM (R303). -/
def execAdmitStream (m p : Nat) (s : State) : Host.Outcome State Fault Refusal := s.write m (QUI_CMD.addr p) (s.start.quiGo p 0x02)

/-- RELEASE (R291). -/
def execQuiRelease (m p : Nat) (s : State) : Host.Outcome State Fault Refusal := s.write m (QUI_CMD.addr p) (s.start.quiGo p 0x03)

/-- FORK (R287). -/
def execQuiFork (m p : Nat) (s : State) : Host.Outcome State Fault Refusal := s.write m (QUI_CMD.addr p) (s.start.quiGo p 0x04)

/-- MAP (R289). -/
def execQuiMap (m p : Nat) (s : State) : Host.Outcome State Fault Refusal := s.write m (QUI_CMD.addr p) (s.start.quiGo p 0x05)

/-- TRUNCATE (R288). -/
def execQuiTruncate (m p : Nat) (s : State) : Host.Outcome State Fault Refusal := s.write m (QUI_CMD.addr p) (s.start.quiGo p 0x06)

/-- RETAIN (R289). -/
def execQuiRetain (m p : Nat) (s : State) : Host.Outcome State Fault Refusal := s.write m (QUI_CMD.addr p) (s.start.quiGo p 0x07)

/-- DROP (R289). -/
def execQuiDrop (m p : Nat) (s : State) : Host.Outcome State Fault Refusal := s.write m (QUI_CMD.addr p) (s.start.quiGo p 0x08)

/-- BATCH_OPEN (R290). -/
def execBatchOpen (m p : Nat) (s : State) : Host.Outcome State Fault Refusal := s.write m (QUI_CMD.addr p) (s.start.quiGo p 0x10)

/-- BATCH_CLOSE (R291). -/
def execBatchClose (m p : Nat) (s : State) : Host.Outcome State Fault Refusal := s.write m (QUI_CMD.addr p) (s.start.quiGo p 0x11)

/-- JOIN (R291). -/
def execQuiJoin (m p : Nat) (s : State) : Host.Outcome State Fault Refusal := s.write m (QUI_CMD.addr p) (s.start.quiGo p 0x12)

/-- LEAVE (R291). -/
def execQuiLeave (m p : Nat) (s : State) : Host.Outcome State Fault Refusal := s.write m (QUI_CMD.addr p) (s.start.quiGo p 0x13)

/-- STEP_BEGIN (R292). -/
def execStepBegin (m p : Nat) (s : State) : Host.Outcome State Fault Refusal := s.write m (QUI_CMD.addr p) (s.start.quiGo p 0x14)

/-- STEP_COMMIT (R295). -/
def execStepCommit (m p : Nat) (s : State) : Host.Outcome State Fault Refusal := s.write m (QUI_CMD.addr p) (s.start.quiGo p 0x15)

/-- STEP_ABORT (R295). -/
def execStepAbort (m p : Nat) (s : State) : Host.Outcome State Fault Refusal := s.write m (QUI_CMD.addr p) (s.start.quiGo p 0x16)

/-- EXPORT (R301). -/
def execQuiExport (m p : Nat) (s : State) : Host.Outcome State Fault Refusal := s.write m (QUI_CMD.addr p) (s.start.quiGo p 0x20)

/-- IMPORT (R301). -/
def execQuiImport (m p : Nat) (s : State) : Host.Outcome State Fault Refusal := s.write m (QUI_CMD.addr p) (s.start.quiGo p 0x21)

end Sys2Proof.Machine
end

