-- ==== Sys2Proof/Machine/Admission.lean ====
section
/-! DEFINITION. Admission and unloading of program objects (chapter 06): the checks of R205 in order, the grants of R206, and the
steps of R208. -/
namespace Sys2Proof.Machine

/-! ## Section table (check 3) -/

/-- A section of an image: type, flags, offset, size, and the place of its table entry. -/
structure Section where
  ty : Nat
  off : Nat
  size : Nat
  entry : Nat

/-- The sections of an image of n table entries, from its bytes (R196). -/
def sections (rd : Nat → Nat → Nat) (n : Nat) : List Section :=
  (List.range n).map (fun i => let e := 64 + 24 * i; ⟨rd e 2, rd (e + 8) 8, rd (e + 16) 8, e⟩)

def findSection (l : List Section) (t : Nat) : Option Section := l.find? (fun x => x.ty == t)

/-- Alignment of a section type: R198 states none for DRAM_GRANTS. -/
def sectionAlign (t : Nat) : Nat := if t = 2 then 64 else if t = 4 then 1 else 8

/-- Two byte ranges meet. -/
def spansMeet (a n b m : Nat) : Bool := decide (0 < n ∧ 0 < m ∧ a < b + m ∧ b < a + n)

/-- Offending bytes of table entry i (R196, R198). Of two sections that overlap or share a type the later entry offends,
and of one that ends past OBJECT_SIZE the SIZE field (DESIGN CHOICE, log 82). -/
def entryOffence (rd : Nat → Nat → Nat) (size n : Nat) (l : List Section) (i : Nat) : List Nat :=
  let x := getAt ⟨0, 0, 0, 0⟩ l i
  let e := x.entry
  let fl := rd (e + 2) 2
  let before := l.take i
  (if x.ty < 0x0100 ∧ (x.ty < 1 ∨ 4 < x.ty ∨ before.any (fun y => y.ty == x.ty)) then [e] else [])
    ++ (if 2 ≤ fl then [if fl % 256 / 2 ≠ 0 then e + 2 else e + 3] else [])
    ++ (if 0x0100 ≤ x.ty ∧ fl % 2 = 1 then [e + 2] else [])
    ++ (((List.range 4).map (· + (e + 4))).filter (fun k => rd k 1 != 0)).take 1
    ++ (if x.ty < 0x0100 ∧ x.off % sectionAlign x.ty ≠ 0 then [e + 8] else [])
    ++ (if size < x.off + x.size then [e + 16]
        else if spansMeet 0 (64 + 24 * n) x.off x.size || before.any (fun y => spansMeet y.off y.size x.off x.size) then [e + 8] else [])
    ++ (if x.ty = 1 ∧ x.size ≠ 64 then [e + 16] else [])
    ++ (if x.ty = 4 ∧ (x.size % 16 ≠ 0 ∨ 1024 * 16 < x.size) then [e + 16] else [])

/-- Offending bytes of RESOURCE_DECL at offset d (R199). -/
def declOffence (rd : Nat → Nat → Nat) (d : Nat) : List Nat :=
  (([1, 30, 31] ++ (List.range 24).map (· + 40)).filter (fun k => rd (d + k) 1 != 0)).map (d + ·)
    ++ (if rd (d + 2) 2 < 1 ∨ 64 < rd (d + 2) 2 then [d + 2] else [])
    ++ (if rd (d + 4) 4 % 4096 ≠ 0 then [d + 4] else [])
    ++ (if rd (d + 8) 4 % 4096 ≠ 0 ∨ 4194304 < rd (d + 4) 4 + rd (d + 8) 4 then [d + 8] else [])
    ++ (if 32768 < rd (d + 12) 2 then [d + 12] else [])
    ++ (if 1024 < rd (d + 14) 2 then [d + 14] else [])
    ++ (if 65536 < rd (d + 16) 4 then [d + 16] else [])
    ++ (if 1024 < rd (d + 20) 2 then [d + 20] else [])

/-- Offending bytes of the DRAM grants (R198). -/
def grantOffence (rd : Nat → Nat → Nat) (x : Section) : List Nat :=
  (List.range (x.size / 16)).flatMap (fun k =>
    let o := x.off + 16 * k
    (if rd o 6 % 4096 ≠ 0 then [o] else []) ++ (if 4 ≤ rd (o + 6) 1 then [o + 6] else [])
      ++ (if rd (o + 7) 1 ≠ 0 then [o + 7] else []) ++ (if rd (o + 8) 8 = 0 ∨ rd (o + 8) 8 % 4096 ≠ 0 then [o + 8] else []))

/-- The least of a list of numbers. -/
def leastN : List Nat → Option Nat
  | [] => none
  | x :: l => match leastN l with | some y => some (Nat.min x y) | none => some x

/-- Byte offset of the first offending byte of check 3, if there is one. Header bytes 28–31, which R196 gives as 0, belong to it (DESIGN CHOICE, log
82). -/
def sectionError (rd : Nat → Nat → Nat) (size : Nat) : Option Nat :=
  let n := rd 6 2
  if n < 1 ∨ 64 < n ∨ size < 64 + 24 * n then some 6
  else
    let l := sections rd n
    let rsv := (((List.range 4).map (· + 28)).filter (fun k => rd k 1 != 0)).take 1
    let e1 := rsv ++ (List.range n).flatMap (entryOffence rd size n l) ++ (if (findSection l 1).isNone then [6] else [])
    match leastN e1 with
    | some b => some b
    | none => leastN ((match findSection l 1 with | some x => declOffence rd x.off | none => [])
        ++ (match findSection l 4 with | some x => grantOffence rd x | none => []))

/-! ## Runs and records -/

/-- The free runs of [base, base+count) given the used ones, in order: (start, length). -/
def freeRuns (base count : Nat) (used : List (Nat × Nat)) : List (Nat × Nat) :=
  let starts := base :: (used.filter (fun u => decide (0 < u.2 ∧ base ≤ u.1 + u.2 ∧ u.1 + u.2 ≤ base + count))).map (fun u => u.1 + u.2)
  let runOf := fun (a : Nat) =>
    if used.any (fun u => decide (u.1 ≤ a ∧ a < u.1 + u.2)) then (a, 0)
    else (a, ((used.filter (fun u => decide (0 < u.2 ∧ a < u.1))).foldl (fun e u => Nat.min e u.1) (base + count)) - a)
  starts.map runOf

/-- The lowest free run of n, or the longest free run there is. A run of 0 begins at the range's base: R206 names no first index for it (DESIGN
CHOICE, log 82). -/
def takeRun (base count : Nat) (used : List (Nat × Nat)) (n : Nat) : Option Nat × Nat :=
  let rs := freeRuns base count used
  if n = 0 then (some base, 0)
  else (leastN ((rs.filter (fun r => decide (n ≤ r.2))).map (·.1)), maxN (rs.map (·.2)))

/-- A live-range record of a section of size bytes at offset a of it is valid inside [v0, v1) (R183). -/
def liveRecordOk (rd : Nat → Nat → Nat) (size a v0 v1 : Nat) : Bool :=
  let n := rd (a + 2) 2
  let st := fun (r : Nat) => rd (a + 8 + 8 * r) 4
  let ln := fun (r : Nat) => rd (a + 12 + 8 * r) 4
  decide (a % 8 = 0 ∧ a + 8 ≤ size) && rd a 2 == 1 && decide (n ≤ 255 ∧ a + 8 + 8 * n ≤ size)
    && rd (a + 4) 4 == sumN ((List.range n).map ln)
    && (List.range n).all (fun r => st r % 64 == 0 && decide (st r < 2 ^ 22) && ln r % 64 == 0 && decide (64 ≤ ln r ∧ ln r ≤ 4194304)
      && decide (v0 ≤ st r ∧ st r + ln r ≤ v1) && (r == 0 || decide (st (r - 1) + ln (r - 1) ≤ st r)))

/-! ## Admission (R205, R206) -/

/-- How an admission ends: its reason, VER_USED and DETAIL, and the object when it is admitted. -/
structure AdmitRes where
  reason : Nat
  ver : Nat
  detail : Nat
  obj : Option Obj

/-- Reads of an image at an address. -/
def State.imageRd (s : State) (a : Nat) : Nat → Nat → Nat := fun off n => s.seenNat (a + off) n

/-- Checks 1 to 5: a refusal, or none. An OBJECT_SIZE too small for the header is refused with HEADER (DESIGN CHOICE, log 82). -/
def State.admitEarly (s : State) (a : Nat) : Option AdmitRes :=
  let rd := s.imageRd a
  let size := rd 8 8
  let no := fun (r v d : Nat) => some (⟨r, v, d, none⟩ : AdmitRes)
  if !s.dramRange a 64 || rd 0 4 != 0x54534647 || decide (size < 64 ∨ 16777216 < size) || !s.dramRange a size then no 0x01 0 0
  else
    let bs := s.seenBytes a size
    let body := bs.take 24 ++ leBytes 4 0 ++ (bs.drop 28).take 4 ++ leBytes 32 0 ++ bs.drop 64
    if crc32c body ≠ rd 24 4 then no 0x01 0 0
    else if Nat.min (rd 5 1) 1 < Nat.max (rd 4 1) 1 then no 0x02 0 (rd 4 1 * 256 + rd 5 1)
    else match sectionError rd size with
      | some b => no 0x03 1 b
      | none => match findSection (sections rd (rd 6 2)) 1 with
        | none => no 0x03 1 6
        | some d =>
          let p := rd d.off 1
          if 8 ≤ p ∨ !s.partOn p ∨ !s.inPart p a size then no 0x04 1 p
          else if 256 ≤ s.objs.length then no 0x05 1 256
          else none

/-- The lowest handle no loaded object has. -/
def State.freeHandle (s : State) : Nat := ((List.range 256).find? (fun h => (s.obj h).isNone)).getD 255

/-- Clusters an object may be granted: of the partition and its mask, in service (R205, R399); and those of them whose Vat range is
free. -/
def State.admitClusters (s : State) (p mask : Nat) : List Nat :=
  (List.range 64).filter (fun n => bitN (s.partMask p) n && (mask == 0 || bitN mask n) && decide (s.fld (ITG_CLU.SVC n) ≤ 1))
def State.vatFree (s : State) (n v0 len : Nat) : Bool :=
  !(s.objs.any (fun o => bitN o.mask n && spansMeet o.vatBase o.vatBytes v0 len))

/-- Checks 7 to 15 of an image whose formats are there: a refusal, or the object admitted (R205). -/
def State.admitLate (s : State) (a : Nat) (l : List Section) (d : Section) : AdmitRes :=
  let rd := s.imageRd a
  let no := fun (r v : Nat) => (⟨r, 1, v, none⟩ : AdmitRes)
  let f := fun (k n : Nat) => rd (d.off + k) n
  let p := f 0 1
  let v0 := f 4 4
  let vn := f 8 4
  let mine := s.objs.filter (fun o => o.part == p)
  let live := (findSection l 3).getD ⟨3, 0, 0, 0⟩
  let tt := (findSection l 2).getD ⟨2, 0, 0, 0⟩
  let gs := (findSection l 4).getD ⟨4, 0, 0, 0⟩
  let liveRd := fun (o n : Nat) => rd (live.off + o) n
  let badLive := (List.range (f 28 2)).find? (fun i =>
    !(decide (4 * i + 4 ≤ live.size) && liveRecordOk liveRd live.size (liveRd (4 * i) 4) v0 (v0 + vn)))
  let grants := (List.range (gs.size / 16)).map (fun k => (rd (gs.off + 16 * k) 6, rd (gs.off + 16 * k + 8) 8, rd (gs.off + 16 * k + 6) 1))
  let badGrant := (List.range grants.length).find? (fun k =>
    let g := getAt (0, 0, 0) grants k
    !(s.inPart p g.1 g.2.1 && s.dramRange g.1 g.2.1))
  let can := s.admitClusters p (f 32 8)
  let free := can.filter (fun n => s.vatFree n v0 vn)
  let qr := takeRun (s.partQBase p) (s.partQCount p) (mine.map (fun o => (o.qBase, o.qCount))) (f 12 2)
  let cr := takeRun (s.partCBase p) (s.partCCount p) (mine.map (fun o => (o.cBase, o.cCount))) (f 16 4)
  let seqLeft := s.partSeq p - sumN (mine.map (·.seqSlots))
  let bwLeft := 1024 - sumN (mine.map (·.bw))
  match badLive with
  | some i => no 0x07 i
  | none =>
    if tt.size < 64 * f 22 2 then no 0x08 (tt.size / 64)
    else match badGrant with
      | some k => no 0x09 k
      | none =>
        if can.length < f 2 2 then no 0x10 can.length
        else if free.length < f 2 2 then no 0x11 free.length
        else match qr.1, cr.1 with
          | none, _ => no 0x12 qr.2
          | _, none => no 0x13 cr.2
          | some qb, some cb =>
            if seqLeft < f 14 2 then no 0x14 seqLeft
            else if bwLeft < f 20 2 then no 0x15 bwLeft
            else
              let mask := sumN ((free.take (f 2 2)).map (fun n => 2 ^ n))
              ⟨0, 1, 0, some ⟨s.freeHandle, p, a, rd 8 8, mask, v0, vn, qb, f 12 2, cb, f 16 4, f 14 2, f 20 2, f 24 4, a + tt.off, f 22 2,
                a + live.off, f 28 2, grants, false⟩⟩

/-- Checks 6 to 15 (R205). -/
def State.admitChecks (s : State) (a : Nat) : AdmitRes :=
  let rd := s.imageRd a
  let l := sections rd (rd 6 2)
  let d := (findSection l 1).getD ⟨1, 0, 0, 0⟩
  match (List.range 32).find? (fun n => bitN (rd (d.off + 24) 4) n && (s.fmt n).kind == 0) with
  | some n => ⟨0x06, 1, n, none⟩
  | none => s.admitLate a l d

/-- Cells of a run back at 0 with their flags, queues of a run empty (R206, R217, R233). -/
def State.clearCells (s : State) (b n : Nat) : State := (List.range n).foldl (fun t i => t.cellSet (b + i) 0 true) s
def State.clearQueues (s : State) (b n : Nat) : State :=
  (List.range n).foldl (fun t i =>
    let q := b + i
    (((t.setF (DCK_QUEUE_HEAD.COUNT q) 0).setF (DCK_QUEUE_TAIL.COUNT q) 0 |>.setF (DCK_QUEUE_CPL_HEAD.NEW_COUNT q) 0).setF
      (DCK_QUEUE_CPL_TAIL.COUNT q) 0 |>.resetRegs (fun a => a == DCK_QUEUE_JOBS.addr q || a == DCK_QUEUE_CANCELS.addr q)).setQ q QState.init) s

/-- The decision of an admission: the object's resources are held from here, GRANT and DONE follow (R206). Granted clusters that the PMU
had switched off are switched on again (R689). -/
def State.settleAdmission (s : State) (a : Nat) (r : AdmitRes) : State :=
  match r.obj with
  | none => { s with adm := .finishing a r.reason r.ver 0xFFFF r.detail 0 0 0 }
  | some o =>
    let t := (s.clearCells o.cBase o.cCount).clearQueues o.qBase o.qCount
    let t := { t with objs := t.objs ++ [o], adm := .finishing a 0 1 o.handle 0 o.mask o.qBase o.cBase }
    if s.flag PMU_PD_CTRL.AUTO_GATE then (maskClusters o.mask).foldl (fun (u : State) n => u.pdAsk (pdClu n)) t else t

/-- Checks 6 on, once the format table is not being copied (R206). -/
def State.admitGo (s : State) (a : Nat) : State :=
  if s.flag MGT_FMT_CTRL.BUSY then { s with adm := .waitFmt a } else s.settleAdmission a (s.admitChecks a)

/-- An admission that waited for the format table goes on (R206). -/
def State.resumeAdmission (s : State) : State :=
  match s.adm with
  | .waitFmt a => s.admitGo a
  | _ => s

/-- The image address of DCK_LOAD_OBJ. -/
def State.loadAddr (s : State) : Nat := s.fld DCK_LOAD_OBJ_LO.ADDR_LO * 64 + s.fld DCK_LOAD_OBJ_HI.ADDR_HI * 2 ^ 32

/-- The load-object command (R205, R213): refused while another runs. -/
def State.admitCmd (s : State) : State :=
  if s.flag DCK_LOAD_STATUS.BUSY then s.setF DCK_LOAD_STATUS.CMD_REJECT 1
  else
    let t := s.setF DCK_LOAD_STATUS.BUSY 1
    match t.admitEarly t.loadAddr with
    | some r => t.settleAdmission t.loadAddr r
    | none => t.admitGo t.loadAddr

/-- ADMIT_OBJECT (R205): master m writes DCK_LOAD_CMD with OP = 0b01. -/
def execAdmitObject (m : Nat) (s : State) : Host.Outcome State Fault Refusal :=
  s.write m DCK_LOAD_CMD.addr s.start.admitCmd

/-- A command of the admission unit completes (R213, R624). HANDLE is 0xFF after a refused admission, which has no handle, and the handle named
after an unload that found none (DESIGN CHOICE, log 82). -/
def State.loadDone (s : State) (reason handle : Nat) : State :=
  (({ s with adm := .idle }.setF DCK_LOAD_STATUS.BUSY 0 |>.setF DCK_LOAD_STATUS.REASON reason).setF DCK_LOAD_STATUS.HANDLE (handle % 256)
    |>.setF DCK_LOAD_STATUS.DONE 1).pulse 1

/-- The Vat range of an object zeroed on a cluster, its block tags cleared, the cluster's residency tags gone (R206, R245). -/
def State.zeroVat (s : State) (n v0 len : Nat) : State :=
  let t := s.putAll (placed (vatBase n + v0) (leBytes len 0))
  let t := (rangeBlocks (vatBase n + v0) len).foldl (fun u b => u.setTag b { u.tag b with prov := false, poison := false }) t
  t.clearTags n

/-- Every granted cluster is on, where the PMU gates them (R689). -/
def State.grantUp (s : State) (mask : Nat) : Bool :=
  !s.flag PMU_PD_CTRL.AUTO_GATE || (maskClusters mask).all (fun n => s.pdOn (pdClu n) || s.flag (PMU_PD.PG_FAIL (pdClu n)))

/-- ADMISSION_COMPLETE (R206): the Vat zeroed, GRANT written into the header, then DONE. Where the header itself does not lie in installed DRAM there
is no place for GRANT and none is written (DESIGN CHOICE, log 82). The write waits while its block is being filled (R334). -/
def execAdmissionComplete (s : State) : Host.Outcome State Fault Refusal :=
  match s.adm with
  | .finishing a reason ver handle detail mask qb cb =>
    let t := s.start
    let t1 := match s.obj handle with
      | some o => (maskClusters mask).foldl (fun (u : State) n => u.zeroVat n o.vatBase o.vatBytes) t
      | none => t
    let grant := leBytes 1 reason ++ leBytes 1 ver ++ leBytes 2 handle ++ leBytes 4 detail ++ leBytes 8 mask ++ leBytes 2 qb ++ leBytes 2 cb
      ++ leBytes 12 0
    let t2 := if t1.dramRange a 64 then
        (t1.store ⟨deckleMaster, 0, false, false, .silent⟩ (placed (a + 32) grant) 0 0).1 else t1
    answer (s.grantUp mask && !s.filling (a + 32) 32) s (t2.loadDone reason handle)
  | _ => answer false s s

/-! ## Unloading (R208, R209) -/

/-- The queues of an object. -/
def Obj.queues (o : Obj) : List Nat := (List.range o.qCount).map (fun i => o.qBase + i)

/-- Every undispatched operation of an object's queue cancelled, its saved task with it (R208). -/
def State.unloadQueue (s : State) (q : Nat) : State :=
  let s1 := s.setQ q { (s.q q) with wait := match (s.q q).wait with
    | some (.cell _ _ _) => none
    | some (.timed _ _ _ _ _ _) => none
    | w => w }
  let s2 := (s1.dropSaved q).dropKept q
  (s2.cancelUpTo q (s2.qTail q) true).releaseAfterCancel q

/-- The unload command (R208, R209, R215). One that names no loaded handle is accepted too and zeroes DCK_LOAD_LOST as R215 says of every accepted
unload, though R209 has it change nothing (DESIGN CHOICE, log 82). -/
def State.unload (s : State) (h : Nat) : State :=
  if s.flag DCK_LOAD_STATUS.BUSY then s.setF DCK_LOAD_STATUS.CMD_REJECT 1
  else
    let t := s.setF DCK_LOAD_LOST.COUNT 0
    match t.obj h with
    | none => t.loadDone 0x21 h
    | some o =>
      let t := { t with objs := t.objs.map (fun (x : Obj) => if x.handle = h then { x with unloading := true } else x), adm := .unloading h }
      (o.queues.foldl (fun (u : State) q => u.unloadQueue q) t).setF DCK_LOAD_STATUS.BUSY 1

/-- UNLOAD_OBJECT (R208): master m writes DCK_LOAD_CMD with OP = 0b10 and a handle. -/
def execUnloadObject (m h : Nat) (s : State) : Host.Outcome State Fault Refusal :=
  s.write m DCK_LOAD_CMD.addr (s.start.unload h)

/-- Every operation of an object has completed (step 3). -/
def State.quiet (s : State) (o : Obj) : Bool :=
  o.queues.all (fun q => (s.q q).inflight == 0 && (s.q q).job.isNone && (s.q q).save == .none)

/-- Steps 4 to 6 of R208: sequences, curve slots, queues, and the object's place in the table. -/
def State.releaseAll (s : State) (o : Obj) : State :=
  let t := s.releaseObject o.handle
  let t := (maskClusters o.mask).foldl (fun u n => (u.setCl n { (u.cl n) with slots := [] }).clearTags n) t
  let t := o.queues.foldl (fun u q =>
    ((u.unbind q).setQ q QState.init).setF (DCK_QUEUE_CFG.EN q) 0 |>.setF (DCK_QUEUE_CFG.VER_USED q) 0) t
  let t := { t with objs := t.objs.filter (fun x => x.handle != o.handle) }
  if t.objs.any (fun x => x.part == o.part) then t else t.initPool o.part

end Sys2Proof.Machine
end

