-- ==== Sys2Proof/Machine/Log.lean ====
section
/-! DEFINITION. The calendar clock's date arithmetic (R663–R665) and the queue of event log entries (R661, R662). -/
namespace Sys2Proof.Machine

/-! ## The calendar (R663) -/

/-- Years counted from 2000: the Gregorian rule. -/
def leapYear (off : Nat) : Bool := let y := 2000 + off; y % 4 == 0 && (y % 100 != 0 || y % 400 == 0)

/-- Length of month m (1–12) of a year. -/
def monthDays (off m : Nat) : Nat :=
  if m = 2 then (if leapYear off then 29 else 28) else if m = 4 ∨ m = 6 ∨ m = 9 ∨ m = 11 then 30 else 31

/-- Days before year off, from 2000-01-01. -/
def daysBeforeYear (off : Nat) : Nat := sumN ((List.range off).map (fun y => if leapYear y then 366 else 365))

/-- Days before day d of month m of year off. -/
def dayNumber (off m d : Nat) : Nat := daysBeforeYear off + sumN ((List.range (m - 1)).map (fun i => monthDays off (i + 1))) + (d - 1)

/-- Seconds since 2000-01-01 00:00:00 on the calendar clock, as a log entry carries them. -/
def State.rtcSeconds (s : State) : Nat :=
  (dayNumber (s.fld MGT_RTC_DATE.YEAR_OFF) (s.fld MGT_RTC_DATE.MONTH) (s.fld MGT_RTC_DATE.DAY) * 86400
    + s.fld MGT_RTC_TIME.HOUR * 3600 + s.fld MGT_RTC_TIME.MIN * 60 + s.fld MGT_RTC_TIME.SEC) % 2 ^ 32

/-! ## The queue of entries (R662) -/

/-- Sources (R661). -/
def logBoot : Nat := 1
def logBroke : Nat := 2
def logPower : Nat := 3
def logThermal : Nat := 4
def logUpdate : Nat := 5
def logMgt : Nat := 6
def logRtc : Nat := 7
def logReset : Nat := 8

/-- The wrap count of the time base. -/
def State.wraps (s : State) : Nat := s.now / 2 ^ 32 % 2 ^ 32

/-- An event to be logged: queued, or dropped and counted when 256 wait. -/
def State.logEvent (s : State) (source code uncopied : Nat) (data : List Byte) : State :=
  if s.log.queue.length < 256 then
    { s with log := { s.log with queue := s.log.queue ++ [⟨s.rtcSeconds, s.time, s.wraps, source, code, uncopied, data⟩] } }
  else { s with log := { s.log with dropped := satAdd 65535 s.log.dropped 1 } }

end Sys2Proof.Machine
end

