-- ==== Sys2Proof/Machine/Memory.lean ====
section
/-! DEFINITION. Accesses to memory by masters (chapters 01, 09 and 19): address classes, DRAM and Vat windows, the metadata region,
the management region, the windows of the PCIe and Zetha ports, the patrol, and MEM_SPLIT. -/
namespace Sys2Proof.Machine

/-! ## Address classes (R47, R48, R619) -/

/-- Where an access of n bytes at a lands. -/
inductive Region where
  | data
  | meta_
  | vat (n : Nat)
  | pcie (p : Nat)
  | zetha
  | rom
  | sram
  | mailbox
  | none
deriving DecidableEq, Repr

/-- [a, a+n) lies in [lo, lo+len). -/
def inside (a n lo len : Nat) : Bool := decide (lo ≤ a ∧ a + n ≤ lo + len)

/-- The class of a byte range: DRAM with the metadata part told apart, and the other ranges of R47 and R48. A range that leaves its
class is in none. -/
def State.region (s : State) (a n : Nat) : Region :=
  if s.dramRange a n then (if a + n ≤ s.metaBase then .data else .meta_)
  else if isVat a && isVat (a + n - 1) && vatCluster a == vatCluster (a + n - 1) then .vat (vatCluster a)
  else if isPWin a && isPWin (a + n - 1) && (pWin a).1 == (pWin (a + n - 1)).1 then .pcie (pWin a).1
  else if isZWin a && isZWin (a + n - 1) && (zWin a).1 == (zWin (a + n - 1)).1 then .zetha
  else if inside a n 0 0x40000 then .rom
  else if inside a n 0x1000000 0x200000 || inside a n 0x2000000 0x40000 then .sram
  else if inside a n 0x8000000 0x10000 then .mailbox
  else .none

/-- Uncached accesses of a hart: 1 to 8 bytes, aligned (R619). -/
def hartAligned (a n : Nat) : Bool := (n == 1 || n == 2 || n == 4 || n == 8) && a % n == 0

/-- A hart may not make this access at all (R619). -/
def State.hartBarred (s : State) (m a n : Nat) : Bool :=
  m == 0x60 && (match s.region a n with
    | .data => false
    | .meta_ => false
    | .rom => true
    | .sram => true
    | .none => true
    | _ => !hartAligned a n)

/-- The domain of the memory that holds a DRAM address is on (R50, R323). -/
def State.memOn (s : State) (a : Nat) : Bool := s.pdOn (pdMem (s.siteOf a / 4))

/-! ## The metadata region (R322, R323, R327) -/

/-- The entry of site-local block j of a site, as its 64 bits. -/
def State.metaEntry (s : State) (site j : Nat) : Nat :=
  if s.siteBytes / 512 * 511 / 4096 ≤ j then 0
  else
    let b := s.blockAddr site j / 4096
    let t := s.tag b
    s.watermark b + 2 ^ 32 * (b2n t.poison + 2 * b2n t.prov + 4 * b2n t.fill) + 2 ^ 36 * (t.epoch % 16) + 2 ^ 40 * (t.writer % 256)

/-- A byte of the metadata region. -/
def State.metaByte (s : State) (a : Nat) : Byte :=
  let o := a - s.metaBase
  let c := s.siteBytes / 512
  BitVec.ofNat 8 (s.metaEntry (getAt 0 s.allSites (o / c)) (o % c / 8) / 2 ^ (8 * (o % 8)))

/-! ## The mailbox window (R653) -/

/-- Offsets that read 0 and ignore writes, and the two pages only the management cores write. -/
def mbxHole (a : Nat) : Bool := decide (0x08008000 ≤ a ∧ a < 0x0800E000)
def mbxFixed (a : Nat) : Bool := decide (0x0800E000 ≤ a)

/-- Bytes of the window. -/
def State.mbxBytes (s : State) (a n : Nat) : List Byte := (List.range n).map (fun i => if mbxHole (a + i) then 0 else s.byte (a + i))

/-- A write of the window by master m. -/
def State.mbxWrite (s : State) (m a : Nat) (bs : List Byte) : State :=
  let ws := placed a bs
  if m != 0x61 && ws.any (fun w => mbxFixed w.1) then s.busError else s.putAll (ws.filter (fun w => !mbxHole w.1))

/-! ## Reads -/

/-- Masters whose reads are checked against the watermark: clusters, page movers and the Quire copies they make, the Zetha ports and the Ethernet
MACs (R325, R389, R407). -/
def checksReads (m : Nat) : Bool := decide (m ≤ 0x50) || decide (0x70 ≤ m ∧ m ≤ 0x72) || m == 0x79

/-- Blocks read in turn, checked or not. False: some block failed. -/
def State.readBlocks (s : State) (raw : Bool) : List Nat → State × Bool
  | [] => (s, true)
  | b :: bs =>
    let r := if raw then s.rawCheck b 0 0 else s.checkRead b 0 0
    let q := r.1.readBlocks raw bs
    (q.1, r.2 && q.2)

/-- A read of DRAM data by master m (R325, R334, R620). -/
def State.dramRead (s : State) (m a n : Nat) : State :=
  let bs := rangeBlocks a n
  let raw := !checksReads m
  let r := s.readBlocks raw bs
  if (s.pendingBlock bs).isSome then s.say .waits
  else if m == 0x60 && bs.any (fun b => (r.1.tag b).poison) then r.1.say .accessFault
  else if r.2 then r.1.say (.bytes (if raw then r.1.seenBytes a n else r.1.bytesAt a n))
  else r.1.say (.failed stWatermark)

/-- A read that reaches the metadata region: for the cores each byte from its own region, else a bus error (R327). Memory whose domain is off
answers with a bus error too (R50). -/
def State.metaRead (s : State) (m a n : Nat) : State :=
  if !isCore m || !(rangeBlocks a n).all (fun b => s.memOn (b * 4096)) then s.busError
  else
    let low := s.metaBase - a
    if 0 < low then
      let t := s.dramRead m a low
      match t.resp with
      | .bytes l => t.say (.bytes (l ++ (List.range (n - low)).map (fun i => t.metaByte (t.metaBase + i))))
      | _ => t
    else s.say (.bytes ((List.range n).map (fun i => s.metaByte (a + i))))

/-- A core's read of a Zetha window (R569, R571): an error response, a READ_REQ under way, or a request that waits for a tag. -/
def State.zCoreRead (s : State) (m a n : Nat) : State :=
  if !isCore m || !hartAligned a n || !s.zUp (zWin a).1 then s.busError
  else
    let r := s.zResolve a
    match r.2 with
    | none => r.1.say .busError
    | some (e, q) => (if (r.1.zport q).freeTag.isNone then r.1.zWaits e q (zWin a).2 false m n [] else (s.zRead a n 0xFF m 0 0).1).say .waits

/-- A core's write of a Zetha window. -/
def State.zCoreWrite (s : State) (m a : Nat) (bs : List Byte) : State :=
  if !isCore m || !hartAligned a bs.length || !s.zUp (zWin a).1 then s.busError
  else
    let r := s.zResolve a
    match r.2 with
    | none => r.1.say .busError
    | some (e, q) => (if (r.1.zport q).freeTag.isNone then r.1.zWaits e q (zWin a).2 true m bs.length bs else (s.zWrite a bs [] 0xFF m 0).1).say .waits

/-- A PCIe port that carries outbound requests: present, on, in the root-port role, link up (R47, R590). -/
def State.pOut (s : State) (p : Nat) : Bool := s.pUp p && s.pMode p == 1 && s.flag (PCI_CFG.LINK_UP p)

/-- A read of n bytes at a by master m (R47, R48, R325, R327, R619). -/
def State.readAt (s : State) (m a n : Nat) : State :=
  if s.hartBarred m a n then s.say .accessFault
  else match s.region a n with
    | .data => if (rangeBlocks a n).all (fun b => s.memOn (b * 4096)) then s.dramRead m a n else s.busError
    | .meta_ => s.metaRead m a n
    | .vat c => if s.pdOn (pdClu c) then s.say (.bytes (s.bytesAt a n)) else s.busError
    | .pcie p => if s.pOut p then (s.pRead a n 0xFF m 0 0).say .waits else s.busError
    | .zetha => s.zCoreRead m a n
    | .rom => if m == 0x61 then s.say (.bytes ((List.range n).map (fun i => Config.bootRom (a + i)))) else s.busError
    | .sram => if m == 0x61 then s.say (.bytes (s.bytesAt a n)) else s.busError
    | .mailbox => s.say (.bytes (s.mbxBytes a n))
    | .none => s.busError

/-! ## Writes -/

/-- Parity of a write's payload fails (R390): not stored, its blocks poisoned, the sender reported with the operation op or the move mv it wrote
for (0: none). -/
def State.parityFail (s : State) (m a n op mv : Nat) : State :=
  ((s.poison (rangeBlocks a n)).report ⟨0x05, m, if m < 64 then m else 64, op, mv, a, 0, 0, 0, n⟩).say (.failed stParity)

/-- A write of bytes to DRAM data or a Vat window by master m, for the operation op or the move mv (0: none), which a failed check of R324
fails. -/
def State.blockWrite (s : State) (m ep a : Nat) (bs : List Byte) (prov pois par : Bool) (op mv : Nat) : State :=
  if par then s.parityFail m a bs.length op mv
  else
    let r := s.store ⟨m, ep, prov, pois, writerKind m⟩ (placed a bs) op mv
    if r.2.isEmpty then r.1 else r.1.say (.failed stWatermark)

/-- A write of bytes at a by master m (R47, R48, R324, R327, R619). A write of the boot ROM by the management cores is a bus error
(DESIGN CHOICE, log 77: R48 gives it no effect). -/
def State.writeAt (s : State) (m ep a : Nat) (bs : List Byte) (prov pois par : Bool) (op mv : Nat) : State :=
  let n := bs.length
  if s.hartBarred m a n then s.say .accessFault
  else match s.region a n with
    | .data =>
      if !(rangeBlocks a n).all (fun b => s.memOn (b * 4096)) then s.busError
      else if (s.pendingBlock (rangeBlocks a n)).isSome then s.say .waits
      else s.blockWrite m ep a bs prov pois par op mv
    | .meta_ => s.busError
    | .vat c => if s.pdOn (pdClu c) then s.blockWrite m ep a bs prov pois par op mv else s.busError
    | .pcie p => if s.pOut p then s.pWrite a bs [] else s.busError
    | .zetha => s.zCoreWrite m a bs
    | .rom => s.busError
    | .sram => if m == 0x61 then s.putAll (placed a bs) else s.busError
    | .mailbox => s.mbxWrite m a bs
    | .none => s.busError

/-- A message of cluster n under an epoch that is not its present one is dropped and counted (R397). -/
def State.staleDrop (s : State) (n : Nat) : State := s.bump (ITG_STALE_DROP.COUNT n) 1

/-- A message of master m under epoch ep: dropped when it is stale, else t (R397). -/
def State.staleOr (s : State) (m ep : Nat) (t : State) : State := if m < 64 ∧ ep ≠ s.epoch m then s.staleDrop m else t

/-- What the channel will do to the next access of the block at an address (R328). -/
def State.arm (s : State) (a c : Nat) : State := if s.isData a ∧ 1 ≤ c ∧ c ≤ 3 then s.setChan (a / 4096) c else s

/-- An access fault of hart h (24: none is named) of the application cores: its trap value register takes the faulting address (R620). -/
def State.trapAt (s : State) (m h : Nat) (k : HartAccess) (a : Nat) : State :=
  if m = 0x60 ∧ h < 24 then s.setHart h { s.hart h with trap := some (k, a) } else s

/-- The address that faults in a range: its first byte in a poisoned block, else its first. -/
def State.faultAddr (s : State) (a n : Nat) : Nat :=
  match (if s.region a n = .data then (rangeBlocks a n).find? (fun b => (s.tag b).poison) else none) with
  | some b => Nat.max a (b * 4096)
  | none => a

/-- A hart's access of n bytes at a that ended in an access fault leaves it in the hart. -/
def State.trapped (s : State) (m h : Nat) (k : HartAccess) (a n : Nat) : State :=
  if s.resp = .accessFault then s.trapAt m h k (s.faultAddr a n) else s

/-- Only main memory takes an AMO, LR or SC (R619). -/
def State.atomicBarred (s : State) (m : Nat) (k : HartAccess) (a n : Nat) : Bool :=
  m == 0x60 && k == .atomic && s.region a n != .data && s.region a n != .meta_

/-- DRAM_WRITE (R324, R326, R328, R334, R362, R390, R397): master m, with epoch ep when it is a cluster, else from die ep, writes bytes at a; prov and pois are the
tags of the operation op, move mv (0: none) or message; par: the payload parity fails; link: what the channel does to the access of the first block;
h, k: of an application core's access the hart (24: none named) and its kind. -/
def execDramWrite (m ep a : Nat) (bs : List Byte) (prov pois par : Bool) (link op mv h : Nat) (k : HartAccess) (s : State) : Host.Outcome State Fault Refusal :=
  let t := s.start.arm a link
  answer (!bs.isEmpty) s (t.staleOr m ep ((t.gated m (srcDie m ep) a bs.length false mv
    (if t.atomicBarred m k a bs.length then t.say .accessFault else t.writeAt m ep a bs prov pois par op mv)).trapped m h k a bs.length))

/-- Faults that have hit a site: a mask below 256 turns over bits of the stored byte; 256 + c is condition c of the channel, met by the next
access of the block. -/
def State.flipAll (s : State) (fs : List (Nat × Nat)) : State :=
  fs.foldl (fun t f => if !t.isData f.1 then t else if f.2 < 256 then t.flip f.1 (BitVec.ofNat 8 f.2) else t.arm f.1 (f.2 - 256)) s

/-- DRAM_READ (R325, R328, R334, R362, R397, R620): master m, with its epoch or its die as in DRAM_WRITE, reads n bytes at a; flips are the storage faults that have hit since the last
read (address and mask), link what the channel does to the read of its first block; h, k: of an application core's access the hart and its kind. -/
def execDramRead (m ep a n link : Nat) (flips : List (Nat × Nat)) (h : Nat) (k : HartAccess) (s : State) : Host.Outcome State Fault Refusal :=
  let t := (s.start.flipAll flips).arm a link
  answer (n != 0) s (t.staleOr m ep ((t.gated m (srcDie m ep) a n true 0
    (if t.atomicBarred m k a n then t.say .accessFault else t.readAt m a n)).trapped m h k a n))

/-- METADATA_REGION_ACCESS (R327): a range that reaches the metadata region is read by the cores, and nothing else. -/
def execMetadataRegionAccess (m a n : Nat) (wr : Bool) (s : State) : Host.Outcome State Fault Refusal :=
  let t := s.start
  answer (n != 0 && s.dramRange a n && decide (s.metaBase < a + n)) s (if wr then t.busError else t.metaRead m a n)

/-! ## The patrol (R329) -/

def State.patrol (s : State) (i : Nat) : Patrol := Sparse.get (fun _ => ⟨false, none, []⟩) s.patrols i
def State.setPatrol (s : State) (i : Nat) (x : Patrol) : State := { s with patrols := Sparse.set (fun _ => ⟨false, none, []⟩) s.patrols i x }

/-- Data blocks of a site. -/
def State.siteBlocks (s : State) : Nat := s.siteBytes / 512 * 511 / 4096

/-- A controller runs. -/
def State.ctlUp (s : State) (i : Nat) : Bool := s.sitePresent i && s.pdOn (pdMem (i / 4))

/-- A sweep may start: the patrol is on, the last one has completed and its time has passed. -/
def State.sweepDue (s : State) (i : Nat) : Bool :=
  let x := s.patrol i
  let p := s.fld (MEM_CTL_PATROL.SWEEP_S i)
  s.ctlUp i && p != 0 && !x.running && (match x.began with | none => true | some t => decide (t + p * 1000000000 ≤ s.cyc))

/-- PATROL_SWEEP_START (R329). -/
def execPatrolSweepStart (i : Nat) (s : State) : Host.Outcome State Fault Refusal :=
  answer (s.sweepDue i) s (s.start.setPatrol i ⟨true, some s.cyc, []⟩)

/-- A patrol read that mismatches twice: POISON on the block, WM_FAIL, and a report of kind PATROL. -/
def State.patrolFail (s : State) (i b : Nat) : State :=
  ((s.bump (MEM_CTL_WM_FAIL.COUNT i) 1).poison [b]).report ⟨0x02, (s.tag b).writer, 64, 0, 0, b * 4096, s.watermark b, s.found b, 0, 0⟩

/-- The check of one block by the patrol (R325, R328, R329): a block being filled is skipped; a block whose checked copy is held is not read
from DRAM; a block that passes is among the last 64 checked. -/
def State.patrolCheck (s : State) (i b : Nat) : State :=
  if (s.tag b).fill || s.isChecked b then s
  else
    let r := s.channel b
    if r.1.blockOk b then ((r.1.settle b).noteChecked b).retried b r.2 else r.1.patrolFail i b

/-- A block of the sweep done; the last one ends it. -/
def State.patrolDone (s : State) (i j : Nat) : State :=
  let x := s.patrol i
  let seen := j :: x.seen
  if seen.length = s.siteBlocks then
    (s.setPatrol i { x with running := false, seen := [] }).setF (MEM_CTL_PATROL.SWEEPS i) ((s.fld (MEM_CTL_PATROL.SWEEPS i) + 1) % 65536)
  else s.setPatrol i { x with seen := seen }

/-- PATROL_READ (R329): the sweep of controller i reads its site-local block j; SWEEP_S = 0 turns a sweep off where it stands. -/
def execPatrolRead (i j link : Nat) (flips : List (Nat × Nat)) (s : State) : Host.Outcome State Fault Refusal :=
  let x := s.patrol i
  let t := (s.start.flipAll flips).arm (s.blockAddr i j) link
  answer (s.ctlUp i && x.running && s.fld (MEM_CTL_PATROL.SWEEP_S i) != 0 && decide (j < s.siteBlocks) && !x.seen.contains j) s
    ((t.patrolCheck i (t.blockAddr i j / 4096)).patrolDone i j)

/-! ## MEM_SPLIT (R318, R352) -/

/-- Bytes, upsets, tags and checked copies stay on their sites: what an address names moves with the decode. -/
def State.remap (s t : State) : State :=
  let moved := fun (a : Nat) => if s.isData a then let d := s.decodeDram a; t.blockAddr d.1 d.2 + a % 4096 else a
  { t with
    mem := s.mem.foldl (fun m e => Sparse.set (fun _ => 0) m (moved e.1) e.2) [],
    upsets := s.upsets.foldl (fun m e => Sparse.set (fun _ => 0) m (moved e.1) e.2) [],
    tags := s.tags.foldl (fun m e => Sparse.set (fun _ => BlockTag.init) m (moved (e.1 * 4096) / 4096) e.2) [],
    chan := s.chan.foldl (fun m e => Sparse.set (fun _ => 0) m (moved (e.1 * 4096) / 4096) e.2) [],
    checked := s.checked.map (fun e => (e.1, e.2.map (fun b => moved (b * 4096) / 4096))) }

/-- A write of MEM_SPLIT: BOTH_32M while LOCK is 0 and the value is in range; LOCK sets and stays, with a value beyond the range too (DEDUCED,
log 87: what R352 ignores is the value). -/
def State.writeSplit (s : State) (w : Word) : State :=
  let v := bits w 11 0
  let t := if s.flag MEM_SPLIT.LOCK || decide (s.dieData / 0x2000000 < v) then s else s.remap (s.setF MEM_SPLIT.BOTH_32M v)
  if bits w 31 31 = 1 then t.setF MEM_SPLIT.LOCK 1 else t

/-- MEM_SPLIT_WRITE (R352). -/
def execMemSplitWrite (m v : Nat) (s : State) : Host.Outcome State Fault Refusal :=
  s.write m MEM_SPLIT.addr (s.start.writeSplit (BitVec.ofNat 32 v))

end Sys2Proof.Machine
end

