-- ==== Sys2Proof/Machine/Movers.lean ====
section
/-! DEFINITION. The shared operations of the page movers (chapter 09): the release of filled blocks, the pieces of a move that cross
a port, and how a move starts, lands and ends. -/
namespace Sys2Proof.Machine

/-! ## Waits on blocks whose fill is abandoned (R334, R349, R350) -/

/-- The slot of an operation that a block belongs to (DETAIL of R193). -/
def State.slotOfBlock (s : State) (o : Op) (b : Nat) : Nat :=
  let d := o.desc
  let x := s.opCtx o
  ((usedSlots d).find? (fun i => (blocksOf (slotRanges d x i)).contains b)).getD (((usedSlots d).find? (fun i => (x.t i).mode == 2)).getD 0)

/-- A cluster operation's wait ends as the fill is abandoned: it fails with TIER_FAIL. -/
def State.failWait (s : State) (n cause : Nat) (o : Op) (b : Nat) : State :=
  let t := s.bump (MEM_STALL.COUNT o.part cause) 1
  if (t.cl n).btr.any (fun x => x.id == o.id) then t.btrEnd n o stTierFail (t.slotOfBlock o b) true
  else t.endPoisoned o stTierFail (t.slotOfBlock o b)

/-- Cluster operations that wait on blocks whose fill is abandoned fail. -/
def State.failWaits (s : State) (bs : List Nat) (cause : Nat) : State :=
  s.clusters.foldl (fun t e =>
    (e.2.cal ++ e.2.btr ++ e.2.ls).foldl (fun (u : State) o => match o.waitBlock with
      | some b => if bs.contains b then u.failWait e.1 cause o b else u
      | none => u) t) s

/-- Blocks are filled, or their fill is abandoned: FILL_PEND clears and every wait on them ends, counted under one cause. -/
def State.release (s : State) (bs : List Nat) (cause : Nat) (abandoned : Bool) : State :=
  if bs.isEmpty then s
  else if abandoned then (s.fillEnd bs cause true).failWaits bs cause
  else s.wake bs cause

/-- The counter a fill's waits end under (R350). -/
def State.stallCause (s : State) (v : Move) : Nat :=
  let d := MoveDesc.ofBytes v.bytes
  if v.abandoned then 5
  else if v.retried then 4
  else if d.fetch && d.hasDue && passed s.dlNow d.due then (if d.op = 6 then 1 else match s.moveClass d.src d.len with
    | some k => if k < 4 then 2 else 3
    | none => 3)
  else if d.fetch then 0
  else if d.op = 4 then 7
  else 6

/-! ## Moves in progress -/

/-- A move by identity, and replaced. -/
def State.move (s : State) (m id : Nat) : Option Move := (s.mover m).moves.find? (fun v => v.id == id)
def State.putMove (s : State) (m : Nat) (v : Move) : State :=
  let x := s.mover m
  s.setMover m { x with moves := x.moves.map (fun y => if y.id = v.id then v else y) }

/-- Read requests for pieces of a move that ports still hold, forgotten. -/
def State.forgetReqs (s : State) (m id : Nat) (p : Nat → Bool) : State :=
  let t := (List.range 3).foldl (fun (u : State) i =>
    u.setZport i { (u.zport i) with reqs := (u.zport i).reqs.filter (fun r => !(r.mover == m && r.move == id && !r.isWrite && p r.piece)) }) s
  (List.range 2).foldl (fun (u : State) i =>
    u.setPport i { (u.pport i) with reqs := (u.pport i).reqs.filter (fun r => !(r.mover == m && r.move == id && p r.piece)) }) t

/-- Pieces of [a, a+n): cut at the 64 KiB boundaries of the window and, for a fetch, of the move (R335, R572). -/
def cut (fetch : Bool) : Nat → Nat → Nat → Nat → List (Nat × Nat)
  | 0, _, _, _ => []
  | f + 1, a, off, left =>
    if left = 0 then []
    else
      let w := 65536 - a % 65536
      let w := if fetch then Nat.min w (65536 - off % 65536) else w
      let k := Nat.min left w
      (off, k) :: cut fetch f (a + k) (off + k) (left - k)

def sheetsOf (l : List (Nat × Nat)) : List Sheet := l.map (fun e => ⟨0, 0, false, false, e.1, e.2, 0⟩)

/-- The pieces a move starts with. -/
def State.firstPieces (s : State) (d : MoveDesc) : List Sheet :=
  if d.op = 6 then sheetsOf ((List.range (d.len / 65536)).map (fun i => (i * 65536, 65536)))
  else if d.op = 5 ∨ (d.op = 1 ∧ isPort (s.moveClass d.src d.len)) then sheetsOf (cut d.fetch (d.len / 32768 + 2) d.src 0 d.len)
  else if d.op == 1 && (match s.moveClass d.dst d.len with | some k => decide (4 ≤ k) | none => false) then
    sheetsOf (cut false (d.len / 32768 + 2) d.dst 0 d.len)
  else []

/-- A piece of a move fails (R348, R572): a fetch reads the sheet again while retries are left, else the move is abandoned; a copy
fails. pois: the other side answered POISON. -/
def State.pieceFailed (s : State) (m id k : Nat) (pois : Bool) : State :=
  match s.move m id with
  | none => s
  | some v =>
    let d := MoveDesc.ofBytes v.bytes
    let x := getAt ⟨0, 0, false, false, 0, 0, 0⟩ v.sheets k
    if d.fetch then
      let same := fun (y : Sheet) => y.off / 65536 == x.off / 65536
      if x.tries ≤ d.retry then
        (s.forgetReqs m id (fun j => same (getAt x v.sheets j))).putMove m { v with retried := true, sheets := v.sheets.map (fun y => if same y then { y with out := false, got := false, tries := x.tries } else y) }
      else
        (s.forgetReqs m id (fun _ => true)).putMove m { v with code := 6, abandoned := true, sheets := v.sheets.map (fun y => { y with out := false }) }
    else s.putMove m { v with code := if v.code ≠ 0 then v.code else if pois then 4 else 7, sheets := setAt v.sheets k { x with out := false } }

/-- A piece of a move, or of a fetch its sheet, cannot be written as a block it covers in part fails its check: the move fails with WATERMARK
(R324, R337). -/
def State.pieceDenied (s : State) (m id k : Nat) : State :=
  match s.move m id with
  | none => s
  | some v =>
    let x := getAt ⟨0, 0, false, false, 0, 0, 0⟩ v.sheets k
    s.putMove m { v with code := if v.code ≠ 0 then v.code else 3, sheets := setAt v.sheets k { x with out := false } }

/-- A piece is issued: tries, moment, command identifier. -/
def State.pieceOut (s : State) (m id k cid : Nat) : State :=
  match s.move m id with
  | none => s
  | some v =>
    let x := getAt ⟨0, 0, false, false, 0, 0, 0⟩ v.sheets k
    s.putMove m { v with sheets := setAt v.sheets k { x with out := true, tries := x.tries + 1, issued := s.cyc, cid := cid } }

/-! ## NVMe queues (R347, R361; entries as the NVM Express specifications lay them out) -/

/-- Base addresses: 0 submission queue, 1 completion queue, 2 submission doorbell, 3 completion doorbell. -/
def State.nvmeAddr (s : State) (m k : Nat) : Nat := s.fld (MEM_PMV_NVME_LO.ADDR m k) * 4 + s.fld (MEM_PMV_NVME_HI.ADDR m k) * 2 ^ 32
def State.nvmeSize (s : State) (m : Nat) : Nat := 2 ^ Nat.max 4 (Nat.min 12 (s.fld (MEM_PMV_NVME_CFG.LOG2_QSIZE m)))

/-- Command identifiers outstanding on mover m. -/
def State.nvmeCids (s : State) (m : Nat) : List Nat :=
  (s.mover m).moves.flatMap (fun v => if leAt v.bytes 0 1 = 6 then (v.sheets.filter (·.out)).map (·.cid) else [])

/-- A Read command: opcode 2, SGL data block of 65,536 bytes at the sheet's destination. -/
def nvmeRead (cid nsid dst lba nlb : Nat) : List Byte :=
  leBytes 4 (2 + 0x4000 + cid * 65536) ++ leBytes 4 nsid ++ leBytes 16 0 ++ leBytes 8 dst ++ leBytes 4 65536 ++ leBytes 4 0 ++ leBytes 8 lba
    ++ leBytes 4 nlb ++ leBytes 12 0

/-- The tags a fetch replaces as it writes a sheet anew (R326): NVMe data arrive in pieces of any size, so its blocks lose them as the sheet is
read (DESIGN CHOICE, log 83). -/
def State.sheetFresh (s : State) (a : Nat) : State :=
  (rangeBlocks a 65536).foldl (fun (t : State) b => (t.setTag b { t.tag b with prov := false, poison := false }).spoil b true) s

/-- The command of a sheet written to the submission queue and its doorbell rung; unchanged while the queue is full or its entry lies in a block
being filled (R334). An entry whose block fails its check fails the move (R324). -/
def State.nvmeIssue (s : State) (m id k : Nat) (d : MoveDesc) (x : Sheet) : State :=
  let n := s.nvmeSize m
  let used := s.nvmeCids m
  let at_ := s.nvmeAddr m 0 + 64 * (s.mover m).sqTail
  if n ≤ used.length + 1 ∨ s.filling at_ 64 then s
  else
    let cid := ((List.range n).find? (fun c => !used.contains c)).getD 0
    let lba := if s.flag (MEM_PMV_NVME_CFG.LBA_4K m) then 4096 else 512
    let y := s.mover m
    let r := s.store ⟨0x40 + m, 0, false, false, .unit⟩ (placed at_
      (nvmeRead cid (s.fld (MEM_PMV_NVME_NSID.NSID m)) (d.dst + x.off) (d.src + x.off / 65536 * (65536 / lba)) (65536 / lba - 1))) 0 id
    if !r.2.isEmpty then r.1.pieceDenied m id k
    else
    let t := r.1.sheetFresh (d.dst + x.off)
    let tail := (y.sqTail + 1) % n
    ((t.setMover m { (t.mover m) with sqTail := tail }).pWrite (s.nvmeAddr m 2) (leBytes 4 tail) []).pieceOut m id k cid

/-! ## Issuing pieces -/

/-- A move's own sources and entries tested: what it fills itself does not hold it up (R334). -/
def State.moveScan (s : State) (v : Move) (bs : List Nat) : Scan := (s.setFill v.blocks false).scanBlocks true false bs

/-- A piece whose source is read here and which leaves by a Zetha port (R568, R572). -/
def State.issueWrite (s : State) (m id k : Nat) (v : Move) (d : MoveDesc) (x : Sheet) : State :=
  if (s.zResolve (d.dst + x.off)).2.isNone then ((s.zResolve (d.dst + x.off)).1.pieceOut m id k 0).pieceFailed m id k false
  else if v.second then
    let bytes := (List.range x.len).map (fun i => Sparse.get (fun _ => 0) v.data (x.off + i))
    let r := s.zWrite (d.dst + x.off) bytes [] m id k
    if r.2 then r.1.pieceOut m id k 0 else s
  else match s.moveScan v (rangeBlocks (d.src + x.off) x.len) with
    | .wait _ => s
    | .stop st b =>
      if st = stWatermark then (s.checkRead b 0 id).1.putMove m { v with code := 3 } else s.putMove m { v with code := 4, blame := s.blameOf b }
    | .ok _ =>
      let bs := rangeBlocks (d.src + x.off) x.len
      let t := s.noteReads bs 0 id
      let r := t.zWrite (d.dst + x.off) (t.bytesAt (d.src + x.off) x.len) bs m id k
      if r.2 then r.1.pieceOut m id k 0 else s

/-- A piece read from a port: its bytes go to the destination where that is here, else to the move. -/
def State.issueRead (s : State) (m id k : Nat) (d : MoveDesc) (x : Sheet) : State :=
  let a := d.src + x.off
  let dst := if isLocal (s.moveClass d.dst d.len) then d.dst + x.off else 0
  match s.moveClass d.src d.len with
  | some c =>
    if c < 4 then (if s.pOut (c - 2) then (s.pRead a x.len m id k dst).pieceOut m id k 0 else (s.pieceOut m id k 0).pieceFailed m id k false)
    else if (s.zResolve a).2.isNone then ((s.zResolve a).1.pieceOut m id k 0).pieceFailed m id k false
    else
      let r := s.zRead a x.len m id k dst
      if r.2 then r.1.pieceOut m id k 0 else s
  | none => (s.pieceOut m id k 0).pieceFailed m id k false

/-- The requests of a piece are held for the class of its ring (R371). -/
def State.pieceHeld (s : State) (m : Nat) (v : Move) (d : MoveDesc) (x : Sheet) : Bool :=
  s.hbxBars (0x40 + m) v.ring (m / 8) (if d.op = 6 then [] else (if v.second then [] else [(d.src + x.off, x.len)]) ++ [(d.dst + x.off, x.len)])

/-- One attempt to issue piece k of a move: at most 64 of a move are outstanding (R572). -/
def State.issueTry (s : State) (m id k : Nat) : State :=
  match s.move m id with
  | none => s
  | some v =>
    let d := MoveDesc.ofBytes v.bytes
    let x := getAt ⟨0, 0, false, true, 0, 0, 0⟩ v.sheets k
    if v.code ≠ 0 ∨ x.out ∨ x.got ∨ (d.op ≠ 6 ∧ 64 ≤ (v.sheets.filter (·.out)).length) ∨ s.pieceHeld m v d x then s
    else if d.op = 6 then s.nvmeIssue m id k d x
    else if !v.second && isPort (s.moveClass d.src d.len) then s.issueRead m id k d x
    else s.issueWrite m id k v d x

/-- Piece k of a move is issued if it can be; a sheet that fails at its issue is read again at once, while retries are left (R348). -/
def State.issuePiece (s : State) (m id k : Nat) : State := (List.range 8).foldl (fun t _ => t.issueTry m id k) s

/-! ## Fetched sheets (R348) -/

/-- The EXPECT watermarks of a sheet agree with what has landed. -/
def State.expectOk (s : State) (d : MoveDesc) (sh : Nat) : Bool :=
  !d.check || (List.range 16).all (fun i => s.watermark (d.dst / 4096 + 16 * sh + i) == s.nat (d.expect + 64 * sh + 4 * i) 4)

/-- A sheet whose pieces have all landed and whose blocks are still held: once its EXPECT entries can be read it is compared with them, then
released or read again; entries that cannot be used fail the move. -/
def State.sheetTry (s : State) (m id sh : Nat) : State :=
  match s.move m id with
  | none => s
  | some v =>
    let d := MoveDesc.ofBytes v.bytes
    if v.code ≠ 0 || !d.fetch || !v.sheetWhole d.dst sh then s
    else match s.moveScan v (d.expectBlocks sh) with
      | .wait _ => s
      | .stop st b =>
        if st = stWatermark then (s.checkRead b 0 id).1.putMove m { v with code := 3 } else s.putMove m { v with code := 4, blame := s.blameOf b }
      | .ok _ =>
        let t := s.noteReads (d.expectBlocks sh) 0 id
        if t.expectOk d sh then
          let bs := (List.range 16).map (fun i => d.dst / 4096 + 16 * sh + i)
          (t.putMove m { v with blocks := v.blocks.filter (fun b => !bs.contains b) }).release bs (t.stallCause v) false
        else
          t.pieceFailed m id (((List.range v.sheets.length).find? (fun k => (getAt ⟨0, 0, false, false, 0, 0, 0⟩ v.sheets k).off / 65536 == sh)).getD 0) false

/-- Pieces k of a move are issued in ascending order, up to the first that cannot leave (R572). -/
def State.issueFrom (s : State) (m id : Nat) : List Nat → State
  | [] => s
  | k :: ks =>
    let t := s.issuePiece m id k
    let stuck : Bool := match t.move m id with
      | some v => v.code == 0 && !(getAt ⟨0, 0, false, true, 0, 0, 0⟩ v.sheets k).out && !(getAt ⟨0, 0, false, true, 0, 0, 0⟩ v.sheets k).got
      | none => false
    if stuck then t else t.issueFrom m id ks

/-- Sheets that have landed are tried once for every move in progress. -/
def State.trySheets (s : State) : State :=
  s.movers.foldl (fun t e => e.2.moves.foldl (fun (u : State) v =>
    (List.range (v.sheets.length)).foldl (fun (w : State) k => w.sheetTry e.1 v.id k) u) t) s

/-- Everything that can go on goes on: Quire commands that waited for memory being filled, Quire copies that wait for a mover, sheets that wait for their EXPECT entries, and pieces, in
ascending order within their move. -/
def State.pump (s : State) : State :=
  let t := s.quiWakes.startCows
  let t := (t.movers.flatMap (·.2.moves)).foldl (fun (u : State) _ => u.trySheets) t
  t.movers.foldl (fun t e => e.2.moves.foldl (fun (u : State) v => u.issueFrom e.1 v.id (List.range v.sheets.length)) t) t

/-! ## A piece arrives -/

/-- A piece charged to its ring's class, where it is read and where it is written (R363, R364); an NVMe controller's own writes bring its data. -/
def State.chargePiece (s : State) (m : Nat) (v : Move) (d : MoveDesc) (x : Sheet) : State :=
  let through := isPort (s.moveClass d.src d.len) && isPort (s.moveClass d.dst d.len)
  if d.op = 6 then s
  else s.regulateAll (0x40 + m) v.ring (m / 8)
    ((if v.second then [] else [(d.src + x.off, x.len)]) ++ (if through && !v.second then [] else [(d.dst + x.off, x.len)]))

/-- Piece k has arrived whole; with its last piece a fetched sheet is tried. When a copy from port to port has all its bytes, its pieces
towards the destination take their place. -/
def State.pieceGot (s : State) (m id k : Nat) : State :=
  match s.move m id with
  | none => s
  | some v =>
    let d := MoveDesc.ofBytes v.bytes
    let x := getAt ⟨0, 0, false, false, 0, 0, 0⟩ v.sheets k
    let v1 := { v with sheets := setAt v.sheets k { x with out := false, got := true } }
    let t := (s.putMove m v1).chargePiece m v d x
    if d.fetch then t.sheetTry m id (x.off / 65536)
    else if !v1.second && isPort (s.moveClass d.src d.len) && v1.sheets.all (·.got)
        && (match s.moveClass d.dst d.len with | some c => decide (4 ≤ c) | none => false) then
      t.putMove m { v1 with second := true, sheets := sheetsOf (cut false (d.len / 32768 + 2) d.dst 0 d.len) }
    else t

/-- The blocks that pieces of a move share: the first piece to land in a block which the move writes whole takes its tags away, as the move
replaces them (R187, R326). -/
def State.sharedFresh (s : State) (v : Move) (d : MoveDesc) (x : Sheet) : State :=
  let edge := fun (b : Nat) =>
    decide (d.dst ≤ b * 4096 ∧ b * 4096 + 4096 ≤ d.dst + d.len) && !decide (d.dst + x.off ≤ b * 4096 ∧ b * 4096 + 4096 ≤ d.dst + x.off + x.len)
      && !v.sheets.any (fun y => y.got && (rangeBlocks (d.dst + y.off) y.len).contains b)
  ((rangeBlocks (d.dst + x.off) x.len).filter edge).foldl (fun (t : State) b =>
    (t.setTag b { t.tag b with prov := false, poison := false }).spoil b true) s

/-- Bytes a port delivers for piece k of a move: written at the destination with the tags of the message, or kept with the move. -/
def State.deliver (s : State) (w : WTag) (m id k : Nat) (bytes : List Byte) : State × Bool :=
  match s.move m id with
  | none => (s, true)
  | some v =>
    let d := MoveDesc.ofBytes v.bytes
    let x := getAt ⟨0, 0, false, false, 0, 0, 0⟩ v.sheets k
    if isLocal (s.moveClass d.dst d.len) then
      let r := (s.sharedFresh v d x).store w (placed (d.dst + x.off) bytes) 0 id
      (r.1, r.2.isEmpty)
    else
      (s.putMove m { v with prov := v.prov || w.prov,
                            data := (placed x.off bytes).foldl (fun l e => Sparse.set (fun _ => 0) l e.1 e.2) v.data }, true)

/-! ## A move starts (R331, R334, R336) -/

/-- Ring r of mover m may start its head now; a Quire copy that waits for a mover of its die goes first (R336). -/
def State.ringReady (s : State) (m r : Nat) : Bool :=
  match s.ringHead m r with
  | none => false
  | some b =>
    let d := MoveDesc.ofBytes b
    s.pdOn (pdMem (m / 8)) && decide (s.moverLoad m < 16) && (!d.ordered || !(s.mover m).moves.any (fun v => v.ring == r))
      && (s.headWaits m r b).isEmpty

/-- The ring whose head starts next: the one that started a move least recently. -/
def State.nextRing (s : State) (m : Nat) : Option Nat := (s.mover m).order.find? (s.ringReady m)

/-- Blocks checked in turn, up to the first that fails (R325). False: one failed. -/
def State.checkAll (s : State) (op move : Nat) : List Nat → State × Bool
  | [] => (s, true)
  | b :: bs =>
    let r := if s.isData (b * 4096) then s.checkRead b op move else (s, true)
    if r.2 then r.1.checkAll op move bs else r

/-- One check after another that passed: the state, whether the first passed, and whether both did. -/
def bothChecks (c : State × Bool) (f : State → State × Bool) : State × Bool × Bool :=
  if c.2 then ((f c.1).1, true, (f c.1).2) else (c.1, false, false)

/-- The reads with which the head b of ring r starts: its entry, and the headers a DECOMP that passes its descriptor's checks announces its frames
with, checked (R325). Whether the entry passed, and whether all did. -/
def State.startReads (s : State) (m r : Nat) (b : List Byte) (decomp : Bool) : State × Bool × Bool :=
  let d := MoveDesc.ofBytes b
  bothChecks (s.checkAll 0 s.newId [s.headAddr m r / 4096])
    (fun t => if decomp then t.checkAll 0 s.newId (s.headerBlocks d.len d.src) else (t, true))

/-- The head of ring r starts: where its entry fails its check nothing is known of the destination (DESIGN CHOICE, log 83). -/
def State.startMove (s : State) (m r : Nat) : State :=
  match s.ringHead m r with
  | none => s
  | some b =>
    let d := MoveDesc.ofBytes b
    let h := s.fld (MEM_PMV_RING_HEAD.COUNT m r)
    let p := s.movePlan m r b
    let g := (s.regulate (0x40 + m) r (m / 8) (s.headAddr m r) 64).startReads m r b (p.1 == 0 && d.op == 4)
    let code := if g.2.2 then p.1 else 3
    let bs := if code = 0 then s.dramBlocks p.2.2 else []
    let ps := if code = 0 then s.firstPieces d else []
    let s := g.1
    let x := s.mover m
    let v : Move := ⟨s.newId, r, h, b, bs, ps, false, code, false, [], false, false, p.2.1, if g.2.1 then p.2.2 else [], 0⟩
    let t := s.tookId.setMover m { x with moves := x.moves ++ [v], order := x.order.filter (fun y => y != r) ++ [r] }
    let t := (t.setF (MEM_PMV_RING_HEAD.COUNT m r) ((h + 1) % 2 ^ 32)).setF (MEM_PMV_RING_STATUS.IN_PROGRESS m r)
      (s.fld (MEM_PMV_RING_STATUS.IN_PROGRESS m r) + 1)
    (t.setFill bs true).pump

/-! ## A move ends (R337) -/

/-- The move leaves its mover. -/
def State.dropMove (s : State) (m : Nat) (v : Move) : State :=
  let x := s.mover m
  (s.setMover m { x with moves := x.moves.filter (fun y => y.id != v.id) }).setF (MEM_PMV_RING_STATUS.IN_PROGRESS m v.ring)
    (s.fld (MEM_PMV_RING_STATUS.IN_PROGRESS m v.ring) - 1)

/-- A move succeeds: its blocks are released and its cell signalled. -/
def State.moveDone (s : State) (m : Nat) (v : Move) : State :=
  let d := MoveDesc.ofBytes v.bytes
  let t := (s.release v.blocks (s.stallCause v) false).dropMove m v
  (if d.signal then t.cellAdd d.cell 1 else t).pump

/-- A move fails: its footprint is poisoned, its blocks released, its cell cancelled, the failure recorded. -/
def State.moveFail (s : State) (m : Nat) (v : Move) : State :=
  let d := MoveDesc.ofBytes v.bytes
  let code := if v.code = 7 then s.free 4 else v.code
  let s1 := if v.code = 7 then s.tookFree 1 else s
  let s2 := s1.poisonWith v.blame (s1.localBlocks v.writes)
  let s3 := (s2.release v.blocks (s2.stallCause v) v.abandoned).dropMove m v
  let s4 := ((s3.setF (MEM_PMV_RING_STATUS.FAILED m v.ring) 1).setF (MEM_PMV_RING_STATUS.LAST_CODE m v.ring) code).setF
    (MEM_PMV_RING_STATUS.LAST_SLOT m v.ring) (v.slot % 65536)
  (if d.signal && s4.moveCellOk v.ring d then s4.cellCancel d.cell 1 else s4).pump

end Sys2Proof.Machine
end

