-- ==== Sys2Proof/Machine/Integrity.lean ====
section
/-! DEFINITION. The integrity controller's shared operations (chapter 11): broke records, strikes, quarantine, field-test requests and
results, and the notices of provisional results. -/
namespace Sys2Proof.Machine

/-! ## Broke records (R404–R406) -/

/-- The fields of a broke record that its cause decides. -/
structure Broke where
  kind : Nat
  action : Nat
  unit : Nat
  epochs : Nat
  queue : Nat
  slot : Nat
  part : Nat
  status : Nat
  detail : Nat
  addr : Nat
  blocks : Nat
  expected : Nat
  found : Nat
deriving DecidableEq, Repr

/-- A record about no operation and no unit. -/
def Broke.plain (kind : Nat) : Broke := ⟨kind, 0, 0xFF, 0, 0xFFFF, 0, 0, 0, 0, 0, 0, 0, 0⟩

/-- The 64 bytes of a record. -/
def Broke.bytes (b : Broke) (seq time wraps : Nat) : List Byte :=
  leBytes 4 seq ++ leBytes 1 b.kind ++ leBytes 1 b.action ++ leBytes 1 b.unit ++ leBytes 1 b.epochs ++ leBytes 4 time ++ leBytes 4 wraps
    ++ leBytes 2 b.queue ++ leBytes 2 b.slot ++ leBytes 1 b.part ++ leBytes 1 b.status ++ leBytes 2 b.detail ++ leBytes 6 b.addr ++ leBytes 2 0
    ++ leBytes 4 b.blocks ++ leBytes 4 b.expected ++ leBytes 4 b.found ++ leBytes 20 0

/-- Base, size and fill of the broke ring. -/
def State.brokeBase (s : State) : Nat := s.fld ITG_BROKE_LO.BASE_LO * 0x1000 + s.fld ITG_BROKE_HI.BASE_HI * 2 ^ 32
def State.brokeSize (s : State) : Nat := 2 ^ s.fld ITG_BROKE_LO.LOG2_SIZE
def State.brokeFill (s : State) : Nat := wrapSub (s.fld ITG_BROKE_TAIL.COUNT) (s.fld ITG_BROKE_HEAD.COUNT)

/-- The copy of a record in the event log: at most one per kind per second; the others are counted (R404). -/
def State.copyBroke (s : State) (kind : Nat) (bs : List Byte) : State :=
  let c := Sparse.get (fun _ => (none, 0)) s.brokeCopied kind
  let set := fun (t : State) (v : Option Nat × Nat) => { t with brokeCopied := Sparse.set (fun _ => (none, 0)) t.brokeCopied kind v }
  if (match c.1 with | some t => decide (s.cyc < t + 1000000000) | none => false) then set s (c.1, satAdd 65535 c.2 1)
  else set (s.logEvent logBroke kind c.2 (bs.take 36)) (some s.cyc, 0)

/-- A broke record written to the ring, or counted lost; its number is used either way. -/
def State.writeBroke (s : State) (b : Broke) : State :=
  let bs := b.bytes s.brokeSeq s.time s.wraps
  let t := { s with brokeSeq := (s.brokeSeq + 1) % 2 ^ 32 }
  let t := if t.flag ITG_BROKE_STATUS.EN && decide (t.brokeFill + t.lateOf .broke < t.brokeSize) then
      t.putThen ⟨0x61, .core, 2, t.brokeBase + 64 * ((t.fld ITG_BROKE_TAIL.COUNT + t.lateOf .broke) % t.brokeSize), bs, .broke⟩
    else t.bump ITG_BROKE_LOST.COUNT 1
  let t := if b.unit < 64 then t.setF (ITG_CLU.LAST_KIND b.unit) b.kind else t
  t.copyBroke b.kind bs

/-- Blocks poisoned on account of the record about to be written: the notices of R409 name it. -/
def State.poisonFor (s : State) (bs : List Nat) : State := s.poisonWith (s.brokeSeq + 1) bs

/-- Some open tracker entry covers one of the blocks: their poison breaks it, and its notice follows (R405, R409). -/
def State.breaks (s : State) (bs : List Nat) : Bool :=
  s.trackers.any (fun e => e.2.any (fun t => t.done.isNone && bs.any (fun b => decide (t.lo ≤ b ∧ b ≤ t.hi))))

/-! ## Field-test requests (R412, R413) -/

/-- Requests of classes 3 and 4 that wait, and clusters under test. -/
def State.ftPending (s : State) : Nat := (s.ftQueue.filter (fun r => decide (3 ≤ r.cls))).length
def State.ftActive (s : State) : Nat := ((List.range 64).filter (fun n => s.svc n == 3)).length

/-- A test request: merged with one already pending, or queued in its class; false: no place (classes 3 and 4). -/
def State.ftRequest (s : State) (n cls : Nat) (force : Bool) : State × Bool :=
  if s.svc n = 3 ∨ s.svc n = 4 then (s, true)
  else if s.ftQueue.any (fun r => r.clu == n) then
    ({ s with ftQueue := s.ftQueue.map (fun r => if r.clu = n then { r with cls := Nat.min r.cls cls, force := r.force || force } else r) }, true)
  else if 3 ≤ cls ∧ 64 ≤ s.ftPending then (s, false)
  else ({ s with ftQueue := s.ftQueue ++ [⟨n, cls, force⟩] }, true)

/-- A class of request that is never refused (R412). -/
def State.ftMust (s : State) (n cls : Nat) : State := (s.ftRequest n cls false).1.startDrains

/-! ## Strikes (R394) -/

/-- One strike; the test it asks for when the limit is reached. The result tells whether a test was asked for. -/
def State.strike (s : State) (n : Nat) : State × Bool :=
  let k := satAdd 15 (s.fld (ITG_CLU.STRIKES n)) 1
  let t := s.setF (ITG_CLU.STRIKES n) k
  let l := s.fld ITG_POLICY.STRIKE_LIMIT
  if l ≠ 0 ∧ l ≤ k ∧ s.svc n ≤ 1 then (t.ftMust n 2, true) else (t, false)

/-! ## Quarantine (R395, R396, R256) -/

/-- A cluster's registers of page 1 and 2 back to what its fuses and hardware give: the skip entries and repair records stay (R115). -/
def keptInFuses (n a : Nat) : Bool :=
  let o := a - (0x30000000 + n * 0x100000)
  o == 0x10020 || decide (0x10040 ≤ o ∧ o < 0x10080)
def State.cluRegsReset (s : State) (n : Nat) : State :=
  s.resetRegs (fun a => decide (0x30000000 + n * 0x100000 ≤ a ∧ a < 0x30000000 + (n + 1) * 0x100000) && !keptInFuses n a)

/-- CLU_CAL_REPAIR at the next power-up (R116, R123): a record cut off while it was programmed is ignored and counts against the budget; the bits
no fuse holds are 0. -/
def State.repairUp (s : State) (n : Nat) : State :=
  if s.flag (CLU_CAL_REPAIR.PENDING n) || s.flag (CLU_CAL_REPAIR.REPAIR_FAIL n) then
    ((s.setF (CLU_CAL_REPAIR.RECORDS_LEFT n) (s.fld (CLU_CAL_REPAIR.RECORDS_LEFT n) - s.fld (CLU_CAL_REPAIR.PENDING n))).setF
      (CLU_CAL_REPAIR.PENDING n) 0).setF (CLU_CAL_REPAIR.REPAIR_FAIL n) 0
  else s

/-- A cluster's Vat has lost its contents. -/
def State.loseVat (s : State) (n : Nat) : State :=
  let own := fun (a : Nat) => decide (vatBase n ≤ a ∧ a < vatBase (n + 1))
  { s with mem := Sparse.drop own s.mem, upsets := Sparse.drop own s.upsets, tags := Sparse.drop (fun b => own (b * 4096)) s.tags }

/-- The domain of a cluster has been switched off and on (R414). -/
def State.powerCycle (s : State) (n : Nat) : State := (((s.setCl n Cluster.init).cluRegsReset n).repairUp n).loseVat n

/-- The status an operation in flight on a quarantined cluster ends with (R396). -/
def endStatus (o : Op) (failing st det : Nat) : Nat × Nat :=
  if o.id = failing then (st, det) else if o.reported then (o.status, o.detail) else (stQuarantined, 0)

/-- Every operation of a cluster ends: OUT outside the own Vat poisoned on account of the broke record cause, record written. -/
def State.endAllOps (s : State) (n failing st det cause : Nat) : State :=
  (s.cl n).ops.foldl (fun (t : State) o =>
    let e := endStatus o failing st det
    let o' := { o with status := e.1, detail := e.2, blame := cause }
    let t := t.ownSheets o'
    let t1 := t.poisonWith cause ((t.outBlocks o').filter (fun b => !(isVat (b * 4096) && vatCluster (b * 4096) == n)))
    (t1.setCl n ((t1.cl n).without o.id)).retire o') s

/-- Tasks bound to a cluster, or moving to or from it, lose their Vat state: the rest of each is cancelled (R256). -/
def State.loseTasks (s : State) (n : Nat) : State :=
  s.queues.foldl (fun (t : State) e =>
    let st := t.q e.1
    if st.bound = some n then
      let u := t.setQ e.1 { st with save := match st.save with | .saving _ _ _ _ => .none | x => x, mark := none }
      (u.cancelTask e.1).unbind e.1
    else match st.save with
      | .restoring c k r => if c = n then t.setQ e.1 { st with save := .saved k r } else t
      | _ => t) s

/-- A cluster is quarantined (R395, R396, R398): new epoch, no service, everything on it ended. False: it was out of service already
and nothing changes. -/
def State.quarantine (s : State) (n failing st det cause : Nat) : State × Bool :=
  if 2 ≤ s.svc n then (s, false)
  else
    let t := (s.setF (ITG_CLU.EPOCH n) ((s.fld (ITG_CLU.EPOCH n) + 1) % 16)).setSvc n 2
    let t := ((t.endAllOps n failing st det cause).loseTasks n).clearTags n
    let t := (t.setCl n { (t.cl n) with bound := none, partTask := false, keptFor := none, drained := false, acc := none, held := [], drain := none, wdog := 0 }).loseStreams n
    ((t.ftRequest n 1 false).1, true)

/-! ## Reports (R389, R392, R393) -/

/-- The operation a report concerns, on a cluster or an engine. -/
def State.reportOp (s : State) (id : Nat) : Option Op :=
  if id = 0 then none
  else match (s.clusters.flatMap (fun e => e.2.ops)).find? (fun o => o.id == id) with
    | some o => some o
    | none => (s.engines.flatMap (fun e => (e.2.main.toList ++ e.2.load.toList))).find? (fun o => o.id == id)

/-- The move a report concerns: its mover, ring and ring count. -/
def State.reportMove (s : State) (id : Nat) : Option (Nat × Move) :=
  if id = 0 then none else s.movers.findSome? (fun e => (e.2.moves.find? (fun v => v.id == id)).map (fun v => (e.1, v)))

/-- The status a check fails an operation with (R389). -/
def reportStatus (r : Report) : Nat :=
  if r.kind = 4 then stCheckFail
  else if 5 ≤ r.kind ∧ r.kind ≤ 8 then stParity
  else if r.kind = 0x0B then stQuarantined
  else if r.kind = 0x0D then r.detail
  else stWatermark

/-- Checks that quarantine a cluster (R395). -/
def quarantines (k : Nat) : Bool := k == 4 || k == 7 || k == 8 || k == 0x0B

/-- A watermark, patrol or link failure strikes the block's writer when its epoch is the present one; parity strikes the sender. -/
def State.reportStrike (s : State) (r : Report) (tagEpoch : Nat) : State × Bool × Bool :=
  if (r.kind = 1 ∨ r.kind = 2 ∨ r.kind = 3) ∧ r.unit < 64 then
    (if tagEpoch = s.epoch r.unit then let k := s.strike r.unit; (k.1, true, k.2) else (s, false, false))
  else if (r.kind = 5 ∨ r.kind = 6) ∧ r.unit < 64 then (let k := s.strike r.unit; (k.1, true, k.2))
  else if 64 ≤ r.unit ∧ r.unit < 128 then (s.bump (ITG_UNIT_FAIL.COUNT r.unit) 1, false, false)
  else (s, false, false)

/-- An engine's operation ends with a failed check: its status waits for its completion. -/
def EngUnit.failOp (e : EngUnit) (id st cause : Nat) : EngUnit :=
  let f := fun (x : Option Op) => x.map (fun o => if o.id = id then { o with status := st, phase := .ended, reported := true, blame := cause } else o)
  { e with main := f e.main, load := f e.load }

/-- The failed operation ends: on a cluster at once or in the Beater's turn, on an engine with its completion. -/
def State.failOp (s : State) (o : Op) (st det : Nat) : State :=
  if (s.cl o.clu).ops.any (fun x => x.id == o.id) then
    if (s.cl o.clu).btr.any (fun x => x.id == o.id) then s.btrEnd o.clu { o with reported := false } st det true else s.endPoisoned o st det
  else { s with engines := s.engines.map (fun e => (e.1, e.2.failOp o.id st o.blame)) }

/-- A move whose payload or header failed parity: the spec states no LAST_CODE for it. -/
def State.failMoveOf (s : State) (r : Report) (cause : Nat) : State :=
  match s.reportMove r.move with
  | some (m, v) => if v.code = 0 then s.putMove m { v with code := if r.kind = 0x11 then 5 else if r.kind ≤ 3 then 3 else 7, blame := cause } else s
  | none => s

/-- The operations whose output fails with an operation: itself, or every part of its split job that is dispatched and not done (R186, R392). -/
def State.failOps (s : State) (o : Op) : List Op :=
  if o.split then (s.clusters.flatMap (fun e => e.2.ops)).filter (fun x => x.split && x.queue == o.queue) else [o]

/-- The footprint that fails with an operation: its own, with that of every part of its job dispatched so far (R186, R392). -/
def State.failFoot (s : State) (o : Op) : List Nat :=
  let done := if o.split then (match (s.q o.queue).job with | some j => (j.done.map (·.foot)).flatten | none => []) else []
  (done ++ (s.failOps o).flatMap s.outBlocks).eraseDups

/-- The operation and the move of a report fail, those that a quarantine has not ended already (R389, R392). -/
def State.failReader (s : State) (r : Report) (st det cause : Nat) : State :=
  let t := match s.reportOp r.op with | some o => s.failOp (o.blamed cause) st det | none => s
  t.failMoveOf r cause

/-- A report is acted on (R392–R396): poison, record, failure of the job, and the unit. The record's BLOCKS and its poison name the failing job or
move; what else a quarantine poisons goes back to the same record (R396; log 85). -/
def State.onReport (s : State) (r : Report) : State :=
  let op := s.reportOp r.op
  let mv := s.reportMove r.move
  let s := match op with | some o => (s.failOps o).foldl State.ownSheets s | none => s
  let block := if r.addr = 0 then [] else if r.kind ≤ 3 then [r.addr / 4096] else if r.kind = 5 then rangeBlocks r.addr (Nat.max 1 r.chain) else []
  let tagEpoch := (s.tag (r.addr / 4096)).epoch
  let foot := match op with | some o => s.failFoot o | none => []
  let mfoot := match mv with | some (_, v) => s.localBlocks v.writes | none => []
  let act := if quarantines r.kind ∧ r.clu < 64 then s.svc r.clu < 2 else false
  let st := reportStatus r
  let det := match op with | some o => if o.reported then o.detail else if r.kind = 4 then r.detail else 0 | none => match mv with | some (_, v) => v.slot % 65536 | none => 0
  let all := (block ++ foot ++ mfoot).eraseDups
  let cause := s.brokeSeq + 1
  let s1 := s.poisonFor all
  let k := s1.reportStrike r tagEpoch
  let unit := if quarantines r.kind then r.clu else r.unit
  let e0 := if unit < 64 then s.epoch unit else 0
  let e1 := if unit < 64 ∧ act then (e0 + 1) % 16 else e0
  let rec_ : Broke :=
    { kind := r.kind,
      action := b2n (!all.isEmpty) + 2 * b2n (op.isSome || mv.isSome) + 4 * b2n act + 8 * b2n k.2.1 + 16 * b2n (act || k.2.2) + 32 * b2n (s.breaks all),
      unit := unit, epochs := e1 * 16 + e0,
      queue := match op with | some o => o.queue | none => 0xFFFF,
      slot := match op with | some o => o.slot % s.ringSize o.queue | none => match mv with | some (m, v) => v.slot % 2 ^ s.fld (MEM_PMV_RING_LO.LOG2_SIZE m v.ring) | none => 0,
      part := match op with | some o => o.part | none => match mv with | some (_, v) => v.ring | none => 0,
      status := if op.isSome then st else 0, detail := det, addr := if r.addr ≠ 0 then r.addr / 4096 * 4096 else (all.head?.getD 0) * 4096,
      blocks := all.length, expected := r.expected, found := r.found }
  let s2 := k.1.writeBroke rec_
  let s3 := if quarantines r.kind then (s2.quarantine r.clu r.op st det cause).1.startDrains else s2
  s3.failReader r st det cause

/-! ## Field tests (R410–R415) -/

/-- A stress row holds the junction temperature. -/
def State.stressRow (s : State) (tj : Int) (r : Nat) : Bool :=
  s.flag (ITG_STRESS.VALID r) && decide (signed 8 (s.fld (ITG_STRESS.TJ_LO r)) ≤ tj ∧ tj ≤ signed 8 (s.fld (ITG_STRESS.TJ_HI r)))

/-- The point a row makes: the row, the supply step in mV, and the frequency of CLK_x_CLU_n in units of 10 kHz (R410, R423). -/
def State.stressPoint (s : State) (r : Nat) : Nat × Nat × Nat :=
  (r, 5 * Nat.min 20 (s.fld (ITG_STRESS.V_DROP_5MV r)), getAt 0 s.running.mhz 0 * (100 + Nat.min 20 (s.fld (ITG_STRESS.F_UP_PCT r))))

/-- The stress points of a test at junction temperature tj, in the order they run. -/
def State.stressPoints (s : State) (tj : Int) : List (Nat × Nat × Nat) := ((List.range 8).filter (s.stressRow tj)).map s.stressPoint
def State.pointsOf (s : State) (n : Nat) : List (Nat × Nat × Nat) := Sparse.get (fun _ => []) s.ftPoints n

/-- The request may start its test now. -/
def State.ftReady (s : State) (r : FtReq) : Bool :=
  if r.cls = 1 then s.svc r.clu == 2
  else (s.svc r.clu == 1 && (s.cl r.clu).drained && s.budgeted.contains r.clu && (r.force || !s.holdsStream r.clu)) || s.svc r.clu == 2

/-- The request that starts next: lowest class, then arrival, at most four tests at once. -/
def State.ftNext (s : State) : Option FtReq :=
  if 4 ≤ s.ftActive then none
  else ([1, 2, 3, 4].flatMap (fun c => s.ftQueue.filter (fun r => r.cls == c))).find? s.ftReady

/-- A test starts on cluster n at junction temperature tj; the points it runs after the nominal one are told. -/
def State.startTest (s : State) (n : Nat) (tj : Int) : State :=
  let t := { s with ftQueue := s.ftQueue.filter (fun r => r.clu != n), budgeted := s.budgeted.filter (· != n) }
  let t := (((t.powerCycle n).setSvc n 3).clearTags n).loseStreams n
  let ps := s.stressPoints tj
  let t := { t with ftPoints := Sparse.set (fun _ => []) t.ftPoints n ps }
  let t := ps.foldl (fun (u : State) p => u.emit (.note "FIELD_TEST_POINT" [n, p.1, p.2.1, p.2.2])) t
  (t.wr (ITG_FT_RESULT.addr n) (BitVec.ofNat 32 (s.fld (ITG_FT_RESULT.PASSES n)))).setF (ITG_FT_RESULT.NO_STRESS n) (b2n ps.isEmpty)

/-- The cluster is retired, with a record (R415). -/
def State.retireCluster (s : State) (n kind outcome : Nat) : State :=
  let t := (s.setSvc n 5).setF (ITG_FT_RESULT.OUTCOME n) outcome
  t.writeBroke { Broke.plain kind with unit := n, epochs := t.epoch n * 17 }

/-- A passed test (R399, R414): back in service, with the granted Vat ranges zeroed. -/
def State.passTest (s : State) (n : Nat) : State :=
  let t := ((s.setSvc n 0).setF (ITG_CLU.STRIKES n) 0).setF (ITG_FT_RESULT.PASSES n) ((s.fld (ITG_FT_RESULT.PASSES n) + 1) % 256)
  let t := { t with lastPass := Sparse.set (fun _ => 0) t.lastPass n t.cyc }
  t.objs.foldl (fun (u : State) o => if bitN o.mask n then u.zeroVat n o.vatBase o.vatBytes else u) t

/-- A located fault (R115, R116, R415): repaired where a spare of its kind and a record remain, else the cluster is retired. -/
def State.locateFault (s : State) (n : Nat) (row col : Option Nat) : State :=
  let t := (s.setF (ITG_FT_RESULT.FAULT_ROW_VALID n) (b2n row.isSome)).setF (ITG_FT_RESULT.FAULT_ROW n) (row.getD 0)
  let t := (t.setF (ITG_FT_RESULT.FAULT_COL_VALID n) (b2n col.isSome)).setF (ITG_FT_RESULT.FAULT_COL n) (col.getD 0)
  let rowFree := (List.range 8).any (fun j => !s.flag (CLU_ROW_SKIP.VALID n j))
  let colFree := (List.range 2).any (fun j => !s.flag (CLU_COL_SKIP.VALID n j))
  let spare := (row.isSome && rowFree) || (col.isSome && colFree)
  if spare && s.fld (CLU_CAL_REPAIR.RECORDS_LEFT n) != 0 then
    ((t.setSvc n 4).setF (ITG_FT_RESULT.OUTCOME n) 1).setF (CLU_CAL_REPAIR.PENDING n) 1
  else (t.setF (CLU_CAL_REPAIR.REPAIR_FAIL n) 1).retireCluster n 0x0F 3

/-! ## Notices (R407–R409, R547, R548, R573) -/

/-- The notice of egress port p leaves: a NOTICE message on VC 0 of a Zetha port, or a frame queued in a MAC. -/
def State.sendNotice (s : State) (p outcome first last seq : Nat) : State :=
  if 8 ≤ p then s.zQueue (p - 8) 0 (zHeader 4 0 (s.fld (ZTH_STATUS.PEER_NODE (p - 8))) s.nodeId 0 0 0 0 0 ++ noticeBodyLe p outcome first last seq)
  else
    let da := beBytes 2 (s.fld (ETH_NOTICE_DA_HI.DA p)) ++ beBytes 4 (s.fld (ETH_NOTICE_DA_LO.DA p))
    let sa := beBytes 2 (s.fld (ETH_MAC_ADDR_HI.ADDR p)) ++ beBytes 4 (s.fld (ETH_MAC_ADDR_LO.ADDR p))
    let tag := if s.flag (ETH_NOTICE_DA_HI.TAG_EN p) then
        beBytes 2 0x8100 ++ beBytes 2 (s.fld (ETH_NOTICE_DA_HI.PCP p) * 0x2000 + s.fld (ETH_NOTICE_DA_HI.VID p)) else []
    let f := da ++ sa ++ tag ++ beBytes 2 0x88B5 ++ noticeBody p outcome first last seq
    let x := s.mac p
    s.setMac p { x with notices := x.notices ++ [f] }

/-- The port of a tracker can send: its notices wait while its link is down. -/
def State.noticeUp (s : State) (p : Nat) : Bool := if 8 ≤ p then s.zActive (p - 8) else s.flag (ETH_CFG.LINK p)

/-- Blocks of an entry. -/
def Tracker.blocks (t : Tracker) : List Nat := (List.range (t.hi - t.lo + 1)).map (fun i => t.lo + i)

/-- The record that broke an entry: that of its first poisoned block where one wrote it, an open value where the poison came from no
record, or a new PROV_BROKE record for an overwrite or a timeout. -/
def State.brokeOf (s : State) (t : Tracker) : State × Nat :=
  match t.blocks.find? (fun b => (s.tag b).poison) with
  | some b =>
    let k := s.blameOf b
    if k = 0 then (s.tookFree 1, s.free 32) else (s, k - 1)
  | none => (s.writeBroke { Broke.plain 0x10 with addr := t.lo * 4096, action := 32 }, s.brokeSeq)

/-- An entry leaves the tracker with its notice: outcome 1 CONFIRM, 2 BROKE. -/
def State.leaveTracker (s : State) (p i : Nat) (t : Tracker) (outcome seq : Nat) : State :=
  (s.setTrackers p ((s.trackersOf p).eraseIdx i)).sendNotice p outcome t.first t.last seq

/-- An entry resolves: its notice goes, or waits with the entry for the link (R409). -/
def State.resolve (s : State) (p i : Nat) (t : Tracker) (broke : Bool) : State :=
  let r := if broke then s.brokeOf t else (s, 0)
  let out := if broke then 2 else 1
  if s.noticeUp p then r.1.leaveTracker p i t out r.2
  else r.1.setTrackers p (setAt (r.1.trackersOf p) i { t with done := some (out, r.2) })

end Sys2Proof.Machine
end

