-- ==== Sys2Proof/Machine/Apc.lean ====
section
/-! DEFINITION. The application cores as the rest of the device sees them (chapter 19): start and stop of harts, their timers, interrupt files
and cache errors, and the registers of the APLIC (R622, R624). -/
namespace Sys2Proof.Machine

/-! ## Start and stop (R629, R630) -/

/-- A hart runs. -/
def State.hartRuns (s : State) (h : Nat) : Bool := s.fld (APC_HART_STATUS.STATE h) == 1

/-- Where a started hart begins. -/
def State.hartEntry (s : State) (h : Nat) : Nat := s.fld2 (APC_HART_START_LO.ADDR_LO h) (APC_HART_START_HI.ADDR_HI h) 2

/-- A hart as a start leaves it. -/
def startedHart (h entry : Nat) : Hart := ⟨entry, h, 0x0800F000, true, false, 0, 0, 0, none, none⟩

/-- A hart starts. -/
def State.hartRun (s : State) (h : Nat) : State := (s.setHart h (startedHart h (s.hartEntry h))).setF (APC_HART_STATUS.STATE h) 1

/-- A start or stop is refused: REJECT, source 55. -/
def State.hartReject (s : State) (h : Nat) : State := (s.setF (APC_HART_STATUS.REJECT h) 1).pulse 55

/-- START of hart h: at once, or once its group has come on. -/
def State.hartStart (s : State) (h : Nat) : State :=
  if s.hartRuns h then s.hartReject h
  else if s.pdOn (pdApc (h / 4)) then s.hartRun h
  else
    let t := s.pdAsk (pdApc (h / 4))
    if t.pmu.hartWait.contains h then t else { t with pmu := { t.pmu with hartWait := t.pmu.hartWait ++ [h] } }

/-- STOP of hart h by master m, where the writing hart, if it is one, is self. -/
def State.hartStop (s : State) (m self h : Nat) : State :=
  if m = 0x60 ∧ self = h ∧ s.hartRuns h = true then (s.setHart h Hart.init).setF (APC_HART_STATUS.STATE h) 0 else s.hartReject h

/-- A write of the hart's control register in this cycle loses to one from a lower master ID that this cycle has already accepted (R630). -/
def State.hartLoses (s : State) (m h : Nat) : Bool := match (s.hart h).ctl with | some (t, k) => t == s.cyc && decide (k < m) | none => false

/-- A write of APC_HART_CTRL_h. -/
def State.hartCtrl (s : State) (m self h : Nat) (w : Word) : State :=
  if bits w 31 30 = 0 then s
  else if s.hartLoses m h then s.hartReject h
  else
    let t := if bits w 31 31 = 1 then s.hartStart h else s
    let t := if bits w 30 30 = 1 then t.hartStop m self h else t
    t.setHart h { t.hart h with ctl := some (s.cyc, m) }

/-- HART_START (R628, R630): master m, for its hart self, writes START to APC_HART_CTRL_h. -/
def execHartStart (m self h : Nat) (s : State) : Host.Outcome State Fault Refusal :=
  s.write m (APC_HART_CTRL.addr h) (if lowBarred self (APC_HART_CTRL.addr h) then s.busError else s.start.hartCtrl m self h (BitVec.ofNat 32 (2 ^ 31)))

/-- HART_STOP (R628, R630): master m, for its hart self, writes STOP to APC_HART_CTRL_h. -/
def execHartStop (m self h : Nat) (s : State) : Host.Outcome State Fault Refusal :=
  s.write m (APC_HART_CTRL.addr h) (if lowBarred self (APC_HART_CTRL.addr h) then s.busError else s.start.hartCtrl m self h (BitVec.ofNat 32 (2 ^ 30)))

/-- A group's domain has come on: its harts are stopped, and those that wait start. -/
def State.groupOn (s : State) (g : Nat) : State :=
  let waiting := s.pmu.hartWait.filter (fun h => h / 4 == g)
  let t := [4 * g, 4 * g + 1, 4 * g + 2, 4 * g + 3].foldl (fun (u : State) h => u.setF (APC_HART_STATUS.STATE h) 0) s
  let t := { t with pmu := { t.pmu with hartWait := t.pmu.hartWait.filter (fun h => h / 4 != g) } }
  waiting.foldl State.hartRun t

/-! ## Timer (R617) -/

/-- The supervisor timer interrupt of a hart is pending: time, as extended, has reached stimecmp. -/
def State.timerPending (s : State) (h : Nat) : Bool := decide ((s.hart h).stimecmp ≤ s.now)

/-- STIMECMP_MATCH (R617): hart h sets stimecmp to t; the interrupt is pending from now where time has reached it, and else from when it does
(State.timerPending). -/
def execStimecmpMatch (h t : Nat) (s : State) : Host.Outcome State Fault Refusal :=
  let u := s.start.setHart h { s.hart h with stimecmp := t }
  answer (s.hartRuns h && decide (t < 2 ^ 64)) s (if u.timerPending h then u.emit (.note "stip" [h]) else u)

/-! ## Interrupt files (R622, R623) -/

/-- The pending identities of an interrupt file. -/
def State.pendingIds (s : State) (hart file : Nat) : List Nat := Sparse.get (fun _ => []) s.eip (hart * 7 + file)

/-- An identity pending. -/
def State.setPending (s : State) (hart file e : Nat) : State :=
  let l := s.pendingIds hart file
  if e = 0 ∨ 2048 ≤ e ∨ l.contains e then s else { s with eip := Sparse.set (fun _ => []) s.eip (hart * 7 + file) (l ++ [e]) }

/-- A list without its first entry equal to x. -/
def eraseOne {α : Type} [DecidableEq α] (x : α) : List α → List α
  | [] => []
  | y :: l => if x = y then l else y :: eraseOne x l

/-- Identities that a hart has claimed from a file of its are pending no more (R623). -/
def State.claim (s : State) (hart file : Nat) (l : List Nat) : State :=
  { s with eip := Sparse.set (fun _ => []) s.eip (hart * 7 + file) ((s.pendingIds hart file).filter (fun e => !l.contains e)) }

/-- MSI_MESSAGE (R623): a message under way reaches a file of a hart, which has claimed the identities claimed since the last one, and sets its
pending bit. -/
def execMsiMessage (h file e : Nat) (claimed : List Nat) (s : State) : Host.Outcome State Fault Refusal :=
  answer (s.msis.contains (h, file, e)) s ((({ s.start with msis := eraseOne (h, file, e) s.msis } : State).claim h file claimed).setPending h file e)

/-- A write of an IMSIC page by a core: a message to that file. -/
def State.imsicWrite (s : State) (hart file : Nat) (w : Word) : State := s.sendMsi hart file w.toNat

/-! ## The APLIC's registers (R622, log 40) -/

/-- Source n is active in domain d: not inactive, and not the other domain's. -/
def State.aplicHas (s : State) (d n : Nat) : Bool :=
  decide (1 ≤ n ∧ n < 64) && (let m := s.aplicMode n; m.1 == d && m.2 != 0)

/-- The rectified input of source n in domain d. -/
def State.aplicIn (s : State) (d n : Nat) : Bool := s.aplicHas d n && rectified (s.aplicMode n).2 (s.wireAt n)

/-- Source n of domain d loses its bits and its target. -/
def State.aplicClear (s : State) (d n : Nat) : State := ((s.setF (aplicIp d n) 0).setF (aplicIe d n) 0).wr (APLIC_TARGET.addr d (n - 1)) 0

/-- SOURCECFG: only the machine domain delegates, the supervisor domain sees only what is delegated, a reserved mode changes nothing. A source that is
left inactive or given away loses its bits; one whose rectified input rises with its new mode becomes pending. -/
def State.aplicSource (s : State) (d n : Nat) (w : Word) : State :=
  let mode := bits w 2 0
  if d = 1 ∧ (s.aplicMode n).1 = 0 then s
  else if bits w 10 10 = 1 then
    if d = 0 then (if (s.aplicMode n).1 = 1 then s else (s.wr (APLIC_SOURCECFG.addr 0 (n - 1)) 0x400).aplicClear 0 n)
    else (s.wr (APLIC_SOURCECFG.addr 1 (n - 1)) 0).aplicClear 1 n
  else if mode = 2 ∨ mode = 3 then s
  else
    let was := s.aplicIn d n
    let t := if d = 0 ∧ (s.aplicMode n).1 = 1 then (s.wr (APLIC_SOURCECFG.addr 1 (n - 1)) 0).aplicClear 1 n else s
    let t := t.wr (APLIC_SOURCECFG.addr d (n - 1)) (BitVec.ofNat 32 mode)
    if mode = 0 then t.aplicClear d n
    else if !was && t.aplicIn d n then t.aplicInput d n mode true else t

/-- One source's pending or enable bit set or cleared by software; a level's pending bit sets only while its input is high. -/
def State.aplicSetIp (s : State) (d n : Nat) : State :=
  if s.aplicHas d n && (decide ((s.aplicMode n).2 < 6) || s.aplicIn d n) then (s.setF (aplicIp d n) 1).aplicForward d n else s
def State.aplicClrIp (s : State) (d n : Nat) : State := if s.aplicHas d n then s.setF (aplicIp d n) 0 else s
def State.aplicSetIe (s : State) (d n : Nat) : State := if s.aplicHas d n then (s.setF (aplicIe d n) 1).aplicForward d n else s
def State.aplicClrIe (s : State) (d n : Nat) : State := if s.aplicHas d n then s.setF (aplicIe d n) 0 else s

/-- The sources that word k of a bit array names. -/
def aplicNamed (k : Nat) (w : Word) : List Nat := ((List.range 32).filter (fun i => bits w i i == 1)).map (fun i => 32 * k + i)

/-- DOMAINCFG: a write that selects direct mode is ignored as a whole (R622). -/
def State.aplicDomain (s : State) (d : Nat) (w : Word) : State :=
  if bits w 2 2 = 0 then s
  else ((List.range 64).filter (fun n => 1 ≤ n)).foldl (fun (t : State) n => t.aplicForward d n) (s.setF (APLIC_DOMAINCFG.IE d) (bits w 8 8))

/-- TARGET: the machine domain has no guest index. -/
def State.aplicTarget (s : State) (d n : Nat) (w : Word) : State :=
  if s.aplicHas d n then s.wr (APLIC_TARGET.addr d (n - 1)) (w &&& (if d = 0 then 0xFFFC07FF else 0xFFFFF7FF)) else s

/-- Writes of the APLIC's registers: b the register, d the domain, k the further index. -/
def State.ownAplic (s : State) (b d k : Nat) (w : Word) : Option State :=
  let each := fun (f : State → Nat → State) => some ((aplicNamed k w).foldl f s)
  if b = APLIC_DOMAINCFG.addr 0 then some (s.aplicDomain d w)
  else if b = APLIC_SOURCECFG.addr 0 0 then some (s.aplicSource d (k + 1) w)
  else if b = APLIC_SETIP.addr 0 0 then each (fun t n => t.aplicSetIp d n)
  else if b = APLIC_CLRIP.addr 0 0 then each (fun t n => t.aplicClrIp d n)
  else if b = APLIC_SETIE.addr 0 0 then each (fun t n => t.aplicSetIe d n)
  else if b = APLIC_CLRIE.addr 0 0 then each (fun t n => t.aplicClrIe d n)
  else if b = APLIC_SETIPNUM.addr 0 ∨ b = APLIC_SETIPNUM_LE.addr 0 then some (s.aplicSetIp d w.toNat)
  else if b = APLIC_CLRIPNUM.addr 0 then some (s.aplicClrIp d w.toNat)
  else if b = APLIC_SETIENUM.addr 0 then some (s.aplicSetIe d w.toNat)
  else if b = APLIC_CLRIENUM.addr 0 then some (s.aplicClrIe d w.toNat)
  else if b = APLIC_GENMSI.addr 0 then some (s.aplicMsi d (bits w 31 18) 0 (bits w 10 0))
  else if b = APLIC_TARGET.addr 0 0 then some (s.aplicTarget d (k + 1) w)
  else none

/-- What the APLIC's registers show: CLRIP the rectified inputs, the others what they hold. -/
def State.liveAplic (s : State) (b d k a : Nat) : Word :=
  if b = APLIC_CLRIP.addr 0 0 then
    (List.range 32).foldl (fun (w : Word) i => ins w i i (b2n (s.aplicIn d (32 * k + i)))) 0
  else s.rd a

/-! ## Cache errors (R621) -/

/-- A dirty line lost: what DRAM holds under it, of which the latest value is gone, is open; the block is poisoned. -/
def State.lineLost (s : State) (a : Nat) : State :=
  let base := a / 64 * 64
  let t := (s.tookFree 64).putAll (placed base ((List.range 64).map (fun i => Config.freeValue 8 (s.freeCtr + i))))
  t.poison [a / 4096]

/-- CACHE_ERROR (R621). kind: 0 correctable, 1 L1 instruction parity, 2 uncorrectable in a clean line or a tag error on one,
3 uncorrectable in a dirty line; a: an address of the line. -/
def execCacheError (kind a : Nat) (s : State) : Host.Outcome State Fault Refusal :=
  answer (decide (kind ≤ 3) && s.isData a) s
    (if kind = 3 then ((s.start.lineLost a).bump APC_CACHE_UNCORR.COUNT 1).pulse 56 else s.start.bump APC_CACHE_CORR.COUNT 1)

end Sys2Proof.Machine
end

