-- ==== Sys2Proof/Machine/Ecdsa.lean ====
section
/-! DEFINITION. ECDSA verification over P-384 with SHA-384, as FIPS 186-5 and SP 800-186 give it (R643). PRESUMED: the curve's constants
are those of the standards the rule names. -/
namespace Sys2Proof.Machine

/-- The field prime, the order of the group, the coefficient b and the base point of P-384. -/
def p384 : Nat := 2 ^ 384 - 2 ^ 128 - 2 ^ 96 + 2 ^ 32 - 1
def n384 : Nat := 0xFFFFFFFFFFFFFFFFFFFFFFFFFFFFFFFFFFFFFFFFFFFFFFFFC7634D81F4372DDF581A0DB248B0A77AECEC196ACCC52973
def b384 : Nat := 0xB3312FA7E23EE7E4988E056BE3F82D19181D9C6EFE8141120314088F5013875AC656398D8A2ED19D2A85C8EDD3EC2AEF
def g384 : Nat × Nat :=
  (0xAA87CA22BE8B05378EB1C71EF320AD746E1D3B628BA79B9859F741E082542A385502F25DBF55296C3A545E3872760AB7,
   0x3617DE4A96262C6F5D9E98BF9292DC29F8F41DBD289A147CE9DA3113B5F0B8C00A60B1CE1D7E819D7A431D7C90EA0E5F)

/-- b^e modulo m, over the low w bits of e. -/
def powMod (m b e : Nat) : Nat → Nat
  | 0 => 1 % m
  | w + 1 =>
    let r := powMod m (b * b % m) (e / 2) w
    if e % 2 = 1 then r * b % m else r

/-- The inverse modulo a prime m. -/
def invMod (m a : Nat) : Nat := powMod m (a % m) (m - 2) 384

/-- a − b modulo m. -/
def subMod (m a b : Nat) : Nat := (a % m + m - b % m) % m

/-- The sum of two points of the curve; none is the point at infinity. -/
def ecAdd (x y : Option (Nat × Nat)) : Option (Nat × Nat) :=
  match x, y with
  | none, q => q
  | q, none => q
  | some a, some b =>
    if a.1 = b.1 ∧ (a.2 + b.2) % p384 = 0 then none
    else
      let l := if a.1 = b.1 then subMod p384 (3 * a.1 * a.1) 3 * invMod p384 (2 * a.2) % p384
        else subMod p384 b.2 a.2 * invMod p384 (subMod p384 b.1 a.1) % p384
      let r := subMod p384 (l * l) (a.1 + b.1)
      some (r, subMod p384 (l * subMod p384 a.1 r) a.2)

/-- k times a point, over the low w bits of k. -/
def ecMul (k : Nat) (x : Option (Nat × Nat)) : Nat → Option (Nat × Nat)
  | 0 => none
  | w + 1 =>
    let r := ecMul (k / 2) (ecAdd x x) w
    if k % 2 = 1 then ecAdd r x else r

/-- A public key: coordinates in the field, on the curve. -/
def ecKeyOk (q : Nat × Nat) : Bool :=
  decide (q.1 < p384 ∧ q.2 < p384) && q.2 * q.2 % p384 == subMod p384 (q.1 * q.1 * q.1 + b384) (3 * q.1)

/-- The signature (r, s) of a digest verifies under key q. -/
def ecdsaOk (q : Nat × Nat) (digest r s : Nat) : Bool :=
  let w := invMod n384 s
  ecKeyOk q && decide (1 ≤ r ∧ r < n384 ∧ 1 ≤ s ∧ s < n384)
    && (match ecAdd (ecMul (digest * w % n384) (some g384) 384) (ecMul (r * w % n384) (some q) 384) with
      | some x => x.1 % n384 == r
      | none => false)

end Sys2Proof.Machine
end

