-- ==== Sys2Proof/Machine/Can.lean ====
section
/-! DEFINITION. The CAN FD controllers (R602–R609): transmit buffers and arbitration, acceptance filters, receive rings, error states. Error
counting follows ISO 11898-1 (PRESUMED). -/
namespace Sys2Proof.Machine

/-- A controller is powered and enabled. -/
def State.canUp (s : State) (n : Nat) : Bool := s.pdOn 83 && s.flag (CAN_CFG.EN n)
def State.canOn (s : State) (n : Nat) : Bool := s.canUp n && s.fld (CAN_STATUS.STATE n) != 2

/-- Its APLIC source is raised while the condition of R604 holds. -/
def State.canIrq (s : State) (n : Nat) : State := s.sense (8 + n)

/-! ## Transmission (R603) -/

/-- The rank of a frame's identifier in arbitration, from word 0 of its buffer: the bits as the bus carries them, the lowest wins; of an 11-bit identifier
and a 29-bit one that begins with it, the first. -/
def canRank (w : Nat) : Nat :=
  let base := bitsN w 28 18
  if bitN w 29 then base * 2 ^ 19 + 2 ^ 18 + bitsN w 17 0 else base * 2 ^ 19

/-- Buffer b is pending, was requested by time t, and may be sent: an FD frame only with FD_EN. -/
def State.canPending (s : State) (n t b : Nat) : Bool :=
  bitN (s.fld (CAN_TX_REQ.REQ n)) b && decide (Sparse.get (fun _ => 0) (s.can n).reqAt b ≤ t) && (s.can n).failed != some b
    && (!bitN (s.fld (CAN_TXB.WORD n b 0)) 31 || s.flag (CAN_CFG.FD_EN n))

/-- The buffer whose frame is offered at a start-of-frame bit at extended time t: the lowest rank, then the lowest buffer. -/
def State.canOffer (s : State) (n t : Nat) : Option Nat :=
  (((List.range 32).filter (s.canPending n t)).foldl (fun (best : Option Nat) b => match best with
    | none => some b
    | some c => if canRank (s.fld (CAN_TXB.WORD n b 0)) < canRank (s.fld (CAN_TXB.WORD n c 0)) then some b else some c) none)

/-- ONE_SHOT of a buffer. -/
def State.canOneShot (s : State) (n b : Nat) : Bool := bitN (s.fld (CAN_TXB.WORD n b 1)) 10

/-- A write of TX_REQ: buffers named become pending. -/
def State.canReq (s : State) (n v : Nat) : State :=
  let fresh := (List.range 32).filter (fun b => bitN v b && !bitN (s.fld (CAN_TX_REQ.REQ n)) b)
  let x := s.can n
  (s.setF (CAN_TX_REQ.REQ n) (s.fld (CAN_TX_REQ.REQ n) ||| v % 2 ^ 32)).setCan n
    { x with reqAt := fresh.foldl (fun l b => Sparse.set (fun _ => 0) l b s.now) x.reqAt }

/-- CAN_TX_REQ (R603, R609). -/
def execCanTxReq (m n v : Nat) (s : State) : Host.Outcome State Fault Refusal :=
  s.write m (CAN_TX_REQ.addr n) (s.start.canReq n v)

/-- A buffer is no longer pending; its DONE or FAIL bit sets. -/
def State.canEnd (s : State) (n b : Nat) (done : Bool) : State :=
  let t := s.setF (CAN_TX_REQ.REQ n) (insN (s.fld (CAN_TX_REQ.REQ n)) b b 0)
  let t := if done then t.setF (CAN_TX_DONE.DONE n) (insN (t.fld (CAN_TX_DONE.DONE n)) b b 1) else t.setF (CAN_TX_FAIL.FAIL n) (insN (t.fld (CAN_TX_FAIL.FAIL n)) b b 1)
  (t.setCan n { t.can n with reqAt := Sparse.set (fun _ => 0) (t.can n).reqAt b 0, failed := if (t.can n).failed = some b then none else (t.can n).failed }).canIrq n

/-- The bytes of a frame a buffer holds, as they go on the bus. -/
def State.canFrame (s : State) (n b : Nat) : List Byte := ((List.range 20).map (fun w => leBytes 4 (s.fld (CAN_TXB.WORD n b w)))).flatten

/-- CAN_TX_COMPLETE (R603): the frame offered at its start-of-frame bit at extended time sof has been sent; or a one-shot frame has failed. -/
def execCanTxComplete (n : Nat) (sent : Bool) (sof : Nat) (s : State) : Host.Outcome State Fault Refusal :=
  if !s.canOn n || decide (s.now < sof) then answer false s s
  else if sent then match s.canOffer n sof with
    | some b =>
      let t := s.start.setF (CAN_TXB.WORD n b 2) (sof % 2 ^ 32)
      let t := t.setF (CAN_STATUS.TEC n) (t.fld (CAN_STATUS.TEC n) - 1)
      let t := if t.fld (CAN_STATUS.TEC n) < 128 ∧ t.fld (CAN_STATUS.REC n) < 128 then t.setF (CAN_STATUS.STATE n) 0 else t
      .next ((t.canEnd n b true).emit (.frame "CAN" n (s.canFrame n b)))
    | none => answer false s s
  else match (s.can n).failed with
    | some b => .next (s.start.canEnd n b false)
    | none => answer false s s

/-- The offered frame will not be tried again when it is one-shot. -/
def State.canRetry (s : State) (n b : Nat) : State := if s.canOneShot n b then s.setCan n { s.can n with failed := some b } else s

/-- CAN_ARBITRATION_LOST (R603): by the frame offered at sof. -/
def execCanArbitrationLost (n sof : Nat) (s : State) : Host.Outcome State Fault Refusal :=
  match s.canOffer n sof with
  | some b => answer (s.canOn n && (s.can n).failed.isNone && decide (sof ≤ s.now)) s ((s.start.bump (CAN_CNT.COUNT n 1) 1).canRetry n b)
  | none => answer false s s

/-! ## Errors (R607) -/

/-- The error state the counters give. -/
def canStateOf (tec rec_ : Nat) : Nat := if 256 ≤ tec then 2 else if 128 ≤ tec ∨ 128 ≤ rec_ then 1 else 0

/-- CAN_BUS_ERROR (R603, R607): an error while sending the frame offered at sof, or while receiving; the counter grows by inc (1 or 8). -/
def execCanBusError (n : Nat) (tx : Bool) (inc sof : Nat) (s : State) : Host.Outcome State Fault Refusal :=
  let tec := Nat.min 511 (s.fld (CAN_STATUS.TEC n) + if tx then inc else 0)
  let rec_ := Nat.min 255 (s.fld (CAN_STATUS.REC n) + if tx then 0 else inc)
  let st := canStateOf tec rec_
  let t := (((s.start.bump (CAN_CNT.COUNT n (if tx then 2 else 3)) 1).setF (CAN_STATUS.TEC n) tec).setF (CAN_STATUS.REC n) rec_).setF (CAN_STATUS.STATE n) st
  let t := t.canIrq n
  if tx then match s.canOffer n sof with
    | some b => answer (s.canOn n && (s.can n).failed.isNone && (inc == 1 || inc == 8) && decide (sof ≤ s.now)) s (t.canRetry n b)
    | none => answer false s s
  else answer (s.canOn n && (inc == 1 || inc == 8)) s t

/-- A write of CTRL.RECOVER while bus-off. -/
def State.canRecover (s : State) (n : Nat) : State :=
  if s.fld (CAN_STATUS.STATE n) = 2 then s.setCan n { s.can n with recovering := true } else s

/-- RECOVER (R604, R607). -/
def execCanRecover (m n : Nat) (s : State) : Host.Outcome State Fault Refusal :=
  s.write m (CAN_CTRL.addr n) (s.start.canRecover n)

/-- CAN_RECOVERY_COMPLETE (R604). -/
def execCanRecoveryComplete (n : Nat) (s : State) : Host.Outcome State Fault Refusal :=
  answer (s.canUp n && s.fld (CAN_STATUS.STATE n) == 2 && (s.can n).recovering) s
    (((((s.start.setF (CAN_STATUS.STATE n) 0).setF (CAN_STATUS.TEC n) 0).setF (CAN_STATUS.REC n) 0).setCan n { s.can n with recovering := false }).canIrq n)

/-- ABORT_ALL: every pending buffer but the one in transmission is withdrawn. -/
def State.canAbort (s : State) (n : Nat) (busy : Option Nat) : State :=
  ((List.range 32).filter (fun b => bitN (s.fld (CAN_TX_REQ.REQ n)) b && busy != some b)).foldl (fun (t : State) b => t.canEnd n b false) s

/-- ABORT_ALL (R607): busy: the frame offered at that start-of-frame bit is in transmission. -/
def execCanAbortAll (m n : Nat) (busy : Option Nat) (s : State) : Host.Outcome State Fault Refusal :=
  s.write m (CAN_CTRL.addr n) (s.start.canAbort n (busy.bind (fun sof => s.canOffer n sof)))

/-- A write of CTRL: RECOVER and ABORT_ALL; a plain register write finds no frame in transmission. -/
def State.canCtrl (s : State) (n : Nat) (w : Word) : State :=
  let t := if bits w 31 31 = 1 then s.canRecover n else s
  if bits w 30 30 = 1 then t.canAbort n none else t

/-! ## Reception (R604, R609) -/

/-- Data bytes of a DLC: classical frames at most 8, remote frames none. -/
def canLen (w dlc : Nat) : Nat :=
  if bitN w 31 then getAt 0 [0, 1, 2, 3, 4, 5, 6, 7, 8, 12, 16, 20, 24, 32, 48, 64] dlc else if bitN w 30 then 0 else Nat.min 8 dlc

/-- The lowest filter that matches word 0 of a frame. -/
def State.canFilter (s : State) (n w : Nat) : Option Nat :=
  (List.range 64).find? (fun f => s.flag (CAN_FLT_ID.VALID n f) && (b2n (bitN w 29) == s.fld (CAN_FLT_ID.IDE n f))
    && decide ((w % 2 ^ 29 ^^^ s.fld (CAN_FLT_ID.ID n f)) &&& s.fld (CAN_FLT_MASK.MASK n f) = 0))

def State.canDepth (s : State) (n r : Nat) : Nat := (s.fld (CAN_RXR_TAIL.COUNT n r) + 2 ^ 32 - s.fld (CAN_RXR_HEAD.COUNT n r)) % 2 ^ 32

/-- Where the next entry of ring r goes. -/
def State.canEntry (s : State) (n r : Nat) : Nat :=
  s.fld (CAN_RXR_LO.BASE_LO n r) * 0x1000 + s.fld (CAN_RXR_HI.BASE_HI n r) * 2 ^ 32 + 80 * (s.fld (CAN_RXR_TAIL.COUNT n r) % 2 ^ s.fld (CAN_RXR_LO.LOG2_SIZE n r))

/-- An entry is pushed on ring r, or lost. The writer the blocks then name is open: R365 gives CAN no master ID; R326 does not name CAN, so it changes
no tags. -/
def State.canPush (s : State) (n r : Nat) (entry : List Byte) : State :=
  let size := 2 ^ s.fld (CAN_RXR_LO.LOG2_SIZE n r)
  let tail := s.fld (CAN_RXR_TAIL.COUNT n r)
  let a := s.canEntry n r
  if size ≤ s.canDepth n r ∨ !s.dataRange a 80 then s.bump (CAN_CNT.COUNT n 0) 1
  else (((s.tookFree 1).putThen ⟨s.openMaster, .silent, 2, a, entry, .nothing⟩).setF (CAN_RXR_TAIL.COUNT n r) ((tail + 1) % 2 ^ 32)).canIrq n

/-- CAN_FRAME_RECEIVE (R604): a frame with word 0 w, DLC, flags BRS and ESI, and data, whose start-of-frame bit was sampled at time base
sof. While the entry's block is being filled, it waits (R334). -/
def execCanFrameReceive (n w dlc flags : Nat) (data : List Byte) (sof : Nat) (s : State) : Host.Outcome State Fault Refusal :=
  let len := canLen w (dlc % 16)
  let f := s.canFilter n w
  let ring : Option Nat := match f with
    | some k => some (s.fld (CAN_FLT_ID.RING n k))
    | none => match s.fld (CAN_CFG.UNMATCHED n) with | 1 => some 0 | 2 => some 1 | _ => none
  let d := data.take len
  let entry := leBytes 4 w ++ leBytes 1 (dlc % 16) ++ leBytes 1 (flags % 4) ++ leBytes 1 (f.getD 0xFF) ++ leBytes 1 0 ++ leBytes 4 sof ++ leBytes 4 0
    ++ d ++ leBytes (64 - d.length) 0
  let r := s.fld (CAN_STATUS.REC n)
  let t := if r < 128 then s.start.setF (CAN_STATUS.REC n) (r - 1) else (s.start.tookFree 1).setF (CAN_STATUS.REC n) (119 + s.free 8 % 9)
  let t := if t.fld (CAN_STATUS.TEC n) < 128 then t.setF (CAN_STATUS.STATE n) 0 else t
  let ok := s.canOn n && (!bitN w 31 || s.flag (CAN_CFG.FD_EN n)) && data.length == len
  if ok && ring.any (fun k => s.filling (s.canEntry n k) 80) then .next (s.start.say .waits)
  else answer ok s (match ring with
    | some k => t.canPush n k entry
    | none => t)

/-- A new head of a receive ring: refused when it frees more entries than are written (R221). -/
def State.canBell (s : State) (n r v : Nat) : State :=
  if (v + 2 ^ 32 - s.fld (CAN_RXR_HEAD.COUNT n r)) % 2 ^ 32 ≤ s.canDepth n r then (s.setF (CAN_RXR_HEAD.COUNT n r) v).canIrq n else s

/-- CAN_RX_DOORBELL (R609). -/
def execCanRxDoorbell (m n r v : Nat) (s : State) : Host.Outcome State Fault Refusal :=
  s.write m (CAN_RXR_DB.addr n r) (s.start.canBell n r v)

/-! ## Configuration (R605, R606) -/

/-- Quanta of a bit time, and cycles of CLK_IO0_CAN in it. -/
def State.canNominal (s : State) (n : Nat) : Nat :=
  (s.fld (CAN_NBT.PRESC_M1 n) + 1) * (s.fld (CAN_NBT.TSEG1_M1 n) + s.fld (CAN_NBT.TSEG2_M1 n) + 3)
def State.canData (s : State) (n : Nat) : Nat :=
  (s.fld (CAN_DBT.PRESC_M1 n) + 1) * (s.fld (CAN_DBT.TSEG1_M1 n) + s.fld (CAN_DBT.TSEG2_M1 n) + 3)

/-- The bit timings lie within the ranges of R606 and the rates of R602. -/
def State.canTimingOk (s : State) (n : Nat) (fd : Bool) : Bool :=
  decide (1 ≤ s.fld (CAN_NBT.TSEG1_M1 n) ∧ s.fld (CAN_NBT.TSEG2_M1 n) ≤ 127 ∧ s.fld (CAN_NBT.SJW_M1 n) ≤ s.fld (CAN_NBT.TSEG2_M1 n)
      ∧ 80 ≤ s.canNominal n ∧ s.canNominal n ≤ 640)
    && (!fd || decide (1 ≤ s.fld (CAN_DBT.TSEG1_M1 n) ∧ s.fld (CAN_DBT.TSEG1_M1 n) ≤ 31 ∧ s.fld (CAN_DBT.TSEG2_M1 n) ≤ 15
      ∧ s.fld (CAN_DBT.SJW_M1 n) ≤ s.fld (CAN_DBT.TSEG2_M1 n) ∧ 10 ≤ s.canData n))

/-- Both receive rings empty (R217). -/
def State.canRings (s : State) (n : Nat) : State :=
  ([0, 1].foldl (fun (t : State) r => (t.setF (CAN_RXR_HEAD.COUNT n r) 0).setF (CAN_RXR_TAIL.COUNT n r) 0) s).canIrq n

/-- A write of CFG; enabling the controller sets the counts of its rings to 0. -/
def State.canCfg (s : State) (n : Nat) (w : Word) : State :=
  if s.flag (CAN_CFG.EN n) then (if bits w 31 31 = 0 then s.setF (CAN_CFG.EN n) 0 else s)
  else
    let on := if s.canTimingOk n (bits w 30 30 == 1) then bits w 31 31 else 0
    let t := s.wr (CAN_CFG.addr n) (ins (ins w 19 0 0) 31 31 on)
    if on = 1 then t.canRings n else t

end Sys2Proof.Machine
end

