-- ==== Sys2Proof/Machine/Csi.lean ====
section
/-! DEFINITION. The camera ports (R580–R589): packet headers, frames, their lines in memory, and the frame rings. -/
namespace Sys2Proof.Machine

/-- Master ID of the camera ports (R365), and key of a context's record. -/
def csiMaster : Nat := 0x78
def csiKey (p v : Nat) : Nat := p * 4 + v

/-- A port is present, powered and enabled. -/
def State.csiUp (s : State) (p : Nat) : Bool := decide (p < 16) && (decide (p < 8) || s.iod1) && s.pdOn (pdCsi p) && s.flag (CSI_CFG.EN p)

/-- Counters (R589). -/
def State.csiCount (s : State) (p k : Nat) : State := s.bump (CSI_CNT.COUNT p k) 1

/-- Contexts that match a virtual channel, and for a long packet a data type (R582). -/
def State.csiMatch (s : State) (p vc : Nat) (dt : Option Nat) : List Nat :=
  (List.range 4).filter (fun v => s.flag (CSI_CTX_CFG.EN p v) && s.fld (CSI_CTX_CFG.VC p v) == vc && dt.all (fun d => s.fld (CSI_CTX_CFG.DT p v) == d))

/-- What a packet header's ECC says (R581): 0 good, 1 one bit corrected, else discarded. The state, and whether the packet goes on. -/
def State.csiHeader (s : State) (p vc ecc : Nat) : State × Bool :=
  if ecc = 0 then (s, true)
  else if ecc = 1 then (s.csiCount p 0, true)
  else ((s.csiMatch p vc none).foldl (fun (t : State) v =>
      match (t.csi (csiKey p v)).frame with
      | some f => t.setCsi (csiKey p v) { (t.csi (csiKey p v)) with frame := some { f with status := f.status ||| 8 } }
      | none => t) (s.csiCount p 1), false)

/-! ## Rings (R583) -/

def State.csiSize (s : State) (p v : Nat) : Nat := 2 ^ s.fld (CSI_CTX_LO.LOG2_SIZE p v)
def State.csiDepth (s : State) (p v : Nat) : Nat := (s.fld (CSI_CTX_TAIL.COUNT p v) + 2 ^ 32 - s.fld (CSI_CTX_HEAD.COUNT p v)) % 2 ^ 32
def State.csiDescAddr (s : State) (p v : Nat) : Nat :=
  s.fld (CSI_CTX_LO.BASE_LO p v) * 0x1000 + s.fld (CSI_CTX_HI.BASE_HI p v) * 2 ^ 32 + 32 * (s.fld (CSI_CTX_HEAD.COUNT p v) % s.csiSize p v)

/-- A doorbell of a context's ring. -/
def State.csiBell (s : State) (p v n : Nat) : State :=
  s.ringPush (s.flag (CSI_CTX_CFG.EN p v)) (s.csiSize p v) (CSI_CTX_HEAD.COUNT p v) (CSI_CTX_TAIL.COUNT p v) none n

/-- CSI_DOORBELL (R583). -/
def execCsiDoorbell (m p v n : Nat) (s : State) : Host.Outcome State Fault Refusal :=
  s.write m (CSI_CTX_DB.addr p v) (s.start.csiBell p v n)

/-! ## Frames (R584, R585) -/

/-- The die of a port. -/
def csiDie (p : Nat) : Nat := if p < 8 then 2 else 3

/-- Bytes of a frame written in memory: every block they touch counts as written whole, so its tags are replaced (R326, R585). -/
def State.csiPut (s : State) (p a : Nat) (bs : List Byte) : State :=
  if s.dataRange a bs.length then s.putThen ⟨csiMaster, .camera, csiDie p, a, bs, .nothing⟩ else s

/-- A descriptor cannot be read or written back yet: its block is being filled, or a frame's bytes still wait for one that is (R334, R585). -/
def State.csiWaits (s : State) (p : Nat) : Bool :=
  s.late.any (fun x => x.writer == csiMaster && x.die == csiDie p) || (List.range 4).any (fun v => s.filling (s.csiDescAddr p v) 32)

/-- The open frame of a context is closed: the last block padded, the descriptor written back and popped, the cell signalled. -/
def State.csiClose (s : State) (p v : Nat) (f : Frame) : State :=
  let pad := alignUp f.bytes 4096 - f.bytes
  let s1 := if f.lines = 0 then s else s.csiPut p (f.buf + f.bytes) (leBytes pad 0)
  let a := s.csiDescAddr p v
  let rec_ := leBytes 4 f.bytes ++ leBytes 2 f.lines ++ leBytes 2 f.num ++ leBytes 4 f.ts ++ leBytes 4 f.wraps ++ leBytes 1 f.status
    ++ leBytes 1 (s.fld (CSI_CTX_CFG.VC p v)) ++ leBytes 1 (s.fld (CSI_CTX_CFG.DT p v))
  let s2 := if s1.dataRange a 32 then s1.putThen ⟨csiMaster, .unit, csiDie p, a + 8, rec_, .nothing⟩ else s1
  let s3 := (s2.setF (CSI_CTX_HEAD.COUNT p v) ((s.fld (CSI_CTX_HEAD.COUNT p v) + 1) % 2 ^ 32)).setCsi (csiKey p v) ⟨none, false⟩
  if s.flag (CSI_CTX_CFG.SIGNAL_EN p v) then s3.cellAdd (s.fld (CSI_CTX_CELL.CELL p v)) 1 else s3

/-- A frame starts in a context. -/
def State.csiOpen (s : State) (p v num : Nat) : State :=
  let x := s.csi (csiKey p v)
  let t := match x.frame with
    | some f => s.csiClose p v { f with status := f.status ||| 4 }
    | none => s
  if t.csiDepth p v = 0 then (t.csiCount p 3).setCsi (csiKey p v) ⟨none, true⟩
  else
    let a := t.csiDescAddr p v
    let d := if t.dataRange a 32 then t.seenBytes a 32 else leBytes 32 0
    let u := if t.dataRange a 32 then t.regulateRange csiMaster 8 (csiDie p) (a, 32) else t
    let ts := (t.now + 2 ^ 32 - t.fld (CSI_LAT.LAT_NS p)) % 2 ^ 32
    u.setCsi (csiKey p v) ⟨some ⟨leAt d 0 6, leAt d 6 2, 64 * Nat.max 1 (t.fld (CSI_CTX_CFG.LINE_PITCH_64 p v)), 0, 0, 0, 0, num, ts,
      t.now / 2 ^ 32 % 2 ^ 32⟩, false⟩

/-- CSI_FRAME_START (R584): Frame Start with frame number num on virtual channel vc. -/
def execCsiFrameStart (p ecc vc num : Nat) (s : State) : Host.Outcome State Fault Refusal :=
  let h := s.start.csiHeader p vc ecc
  if s.csiUp p && s.csiWaits p then .next (s.start.say .waits)
  else answer (s.csiUp p) s (if h.2 then match s.csiMatch p vc none with
    | v :: _ => h.1.csiOpen p v num
    | [] => h.1 else h.1)

/-- A long packet is line k of the open frame; bytes past the pitch, and a line past the buffer, are dropped with TRUNC. What lies between the
end of a line and the start of the next is written too, with open values. -/
def Frame.line (s : State) (f : Frame) (p : Nat) (bs : List Byte) (crcBad : Bool) : State × Frame :=
  let k := f.packets
  let st := f.status ||| b2n crcBad ||| (if f.pitch < bs.length then 2 else 0)
  let kept := bs.take f.pitch
  if f.cap * 65536 < k * f.pitch + kept.length then (s, { f with packets := k + 1, status := st ||| 2 })
  else
    let gap := if f.lines = 0 then 0 else k * f.pitch - f.bytes
    let fill := (List.range gap).map (fun i => Config.freeValue 8 (s.freeCtr + i))
    ((s.tookFree gap).csiPut p (f.buf + (k * f.pitch - gap)) (fill ++ kept),
      { f with packets := k + 1, lines := f.lines + 1, bytes := k * f.pitch + kept.length, status := st })

/-- CSI_LONG_PACKET (R581, R582, R584): payload bs of data type dt on virtual channel vc. -/
def execCsiLongPacket (p ecc vc dt : Nat) (bs : List Byte) (crcBad : Bool) (s : State) : Host.Outcome State Fault Refusal :=
  let h := s.start.csiHeader p vc ecc
  answer (s.csiUp p) s (if h.2 then match s.csiMatch p vc (some dt) with
    | [] => h.1.csiCount p 2
    | v :: _ => match (h.1.csi (csiKey p v)).frame with
      | some f => let r := f.line h.1 p bs crcBad
                  r.1.setCsi (csiKey p v) ⟨some r.2, false⟩
      | none => h.1 else h.1)

/-- CSI_FRAME_END (R585): with no frame open, be its context dropping a frame or not enabled, it is counted in STRAY_FE. -/
def execCsiFrameEnd (p ecc vc : Nat) (s : State) : Host.Outcome State Fault Refusal :=
  let h := s.start.csiHeader p vc ecc
  if s.csiUp p && s.csiWaits p then .next (s.start.say .waits)
  else answer (s.csiUp p) s (if h.2 then match s.csiMatch p vc none with
    | [] => h.1.csiCount p 4
    | v :: _ => match (h.1.csi (csiKey p v)).frame with
      | some f => h.1.csiClose p v f
      | none => (h.1.setCsi (csiKey p v) ⟨none, false⟩).csiCount p 4 else h.1)

/-! ## Register writes (R586, R587) -/

/-- A write of a port's CFG: one with LANES or LANE_MAP out of order is ignored whole, whatever EN is. -/
def State.csiCfg (s : State) (p : Nat) (w : Word) : State :=
  let a := CSI_CFG.addr p
  let lanes := (List.range 4).map (fun l => bits w (22 + 2 * l) (21 + 2 * l))
  let ok := decide (8 ≤ bits w 15 6 ∧ bits w 15 6 ≤ 450)
  if bits w 30 29 = 3 ∨ !lanes.Nodup then s
  else if s.flag (CSI_CFG.EN p) then (if bits w 31 31 = 0 then s.setF (CSI_CFG.EN p) 0 else s)
  else s.wr a (ins (ins w 5 0 0) 31 31 (if ok then bits w 31 31 else 0))

/-- A write of a context's CFG: enabling it sets the counts of its ring to 0 (R217), disabling it drops its open frame. -/
def State.csiCtxCfg (s : State) (p v : Nat) (w : Word) : State :=
  if s.flag (CSI_CTX_CFG.EN p v) then
    (if bits w 31 31 = 0 then (s.setF (CSI_CTX_CFG.EN p v) 0).setCsi (csiKey p v) ⟨none, false⟩ else s)
  else
    let t := s.wr (CSI_CTX_CFG.addr p v) (ins w 19 12 0)
    if bits w 31 31 = 1 then (t.setF (CSI_CTX_HEAD.COUNT p v) 0).setF (CSI_CTX_TAIL.COUNT p v) 0 else t

end Sys2Proof.Machine
end

