-- ==== Sys2Proof/Machine/Engines.lean ====
section
/-! DEFINITION. What the robotics engines share (chapters 12, 13 and 15): taking an operation from its unit, testing its inputs, the
landing of its outcome, and a parity failure. -/
namespace Sys2Proof.Machine

/-- Engines by number (R232): 1 and 2 Dune, 3 and 4 Marl, 5 Loam; their master IDs (R365). -/
def engMaster (e : Nat) : Nat := if e = 5 then 0x5D else 0x57 + e

/-- ACCEPT_PROV of a descriptor's FLAGS, and the FLAGS bits every engine operation may set (R435, R464, R513). -/
def engAccept (b : List Byte) : Bool := bitN (leAt b 2 2) 10
def engFlags : Nat := 0x700

/-- Every byte a descriptor does not use is 0: the common bytes are 0–3, 52–53 and 60–63. -/
def engBytesOk (b : List Byte) (flags lo hi : Nat) : Bool :=
  (leAt b 2 2).land (65535 - flags) == 0
    && (List.range 64).all (fun k => decide (k < 4 ∨ (lo ≤ k ∧ k < hi) ∨ k = 52 ∨ k = 53 ∨ 60 ≤ k) || leAt b k 1 == 0)

/-- SIGNAL_CELL lies in the object's cell run when SIGNAL is set (R200). -/
def engCellOk (b : List Byte) (x : Obj) : Bool := !bitN (leAt b 2 2) 8 || decide (x.cBase ≤ leAt b 52 2 ∧ leAt b 52 2 < x.cBase + x.cCount)

/-- A 48-bit address field, aligned. -/
def engAddr (a al : Nat) : Bool := decide (a < 2 ^ 48) && a % al == 0

/-- How a step of an operation goes on: it waits for a block being filled, or it has an outcome. -/
inductive EngRes where
  | wait (b : Nat)
  | done (t : State) (out : EngOut)

/-- What a run has come to, if it does not wait. -/
def EngRes.out : EngRes → Option EngOut
  | .done _ out => some out
  | .wait _ => none

/-- An operation that has read provisional input says so, however it ends (R190). -/
def EngRes.saw (r : EngRes) (prov : Bool) : EngRes := match r with
  | .wait b => .wait b
  | .done t out => .done t { out with provIn := out.provIn || prov }

/-- Input blocks tested (R189, R190, R325): the next part with whether one is provisional, or the outcome bad gives for a status. -/
def State.engIn (s : State) (o : Op) (bs : List Nat) (bad : Nat → EngOut) (k : State → Bool → EngRes) : EngRes :=
  match s.scanRaw (engAccept o.bytes) false bs with
  | .ok prov => (k (s.noteRaw bs o.id) prov).saw prov
  | .wait b => .wait b
  | .stop st b => .done (if st = stWatermark then (s.rawCheck b o.id 0).1 else s) { bad st with
      blame := s.blameOf b, provIn := engAccept o.bytes && (bs.takeWhile (· != b)).any (fun k => (s.tag k).prov) }

/-- FP32 values read from memory. -/
def State.vec (s : State) (a n : Nat) : List Num := (List.range n).map (fun i => f32 (s.seenNat (a + 4 * i) 4))

/-- Blocks of a byte range, and of several. -/
def blocksAt (a n : Nat) : List Nat := blocksOf [(a, n)]

/-- A parity failure in an engine (R455, R481, R527): the operation is reported and ends with the engine's status. -/
def State.engFault (s : State) (e : Nat) (o : Op) (st : Nat) (counter : Fld) : State :=
  (s.bump counter 1).report ⟨0x0D, engMaster e, 64, o.id, 0, 0, 0, 0, st, 0⟩

/-- The operation a unit holds and has not worked on, with its object. -/
def State.engHead (s : State) (e : Nat) (load : Bool) (p : Nat → Bool) : Option (Op × Obj) :=
  let u := s.eng e
  match (if load then u.load else u.main), (if load then u.loadOut else u.mainOut) with
  | some o, none =>
    if s.engUp e && p (leAt o.bytes 0 1) && o.waitBlock.isNone && o.status == 0 then (s.obj o.handle).map (fun x => (o, x)) else none
  | _, _ => none

/-- The bank that the operation of Dune e's main unit uses, with OCC_GEN: those current when it started, or now (R445). -/
def State.duneBank (s : State) (e : Nat) : Option Nat × Nat :=
  let d := s.dune e
  (s.eng (e + 1)).hold.getD (if d.valid then some d.cur else none, d.gen)

/-- The bank a VALIDATE or SEARCH of unit e holds from its start to its completion (R445). -/
def State.bankHeld (s : State) (e : Nat) (o : Option Op) : Option (Option Nat × Nat) :=
  o.bind (fun x => if (e == 1 || e == 2) && (leAt x.bytes 0 1 == 0x43 || leAt x.bytes 0 1 == 0x44) then some (s.duneBank (e - 1)) else none)

/-- A unit with its operation, or its outcome, replaced. -/
def State.setUnit (s : State) (e : Nat) (load : Bool) (o : Option Op) (out : Option EngOut) : State :=
  let u := s.eng e
  if load then s.setEng e { u with load := o, loadOut := out } else s.setEng e { u with main := o, mainOut := out, hold := s.bankHeld e o }

/-- An operation of an engine runs: it waits for a block, or comes to an outcome that lands with its completion. -/
def State.engRun (s : State) (e : Nat) (load : Bool) (p : Nat → Bool) (f : State → Op → Obj → EngRes) : Host.Outcome State Fault Refusal :=
  match s.engHead e load p with
  | none => answer false s s
  | some (o, x) =>
    match f s.start o x with
    | .wait b => .next ((s.start.setUnit e load (some { o with waitBlock := some b }) none).say .waits)
    | .done t out => .next (t.setUnit e load (some { o with acceptTime := s.cyc, provIn := out.provIn }) (some out))

/-- Reads whose object's grants do not hold them, or writes (R436, R465, R514). -/
def Obj.grantsAll (x : Obj) (reads writes : List (Nat × Nat)) : Bool :=
  reads.all (fun r => r.2 == 0 || x.holds r.1 r.2 0) && writes.all (fun r => r.2 == 0 || x.holds r.1 r.2 1)

/-- An operation of another queue of the object that names slot k of engine e, with one of the opcodes ops, is posted and not complete (R442, R463):
one that is still in its ring counts (DEDUCED, log 86). -/
def State.slotNamed (s : State) (e q k : Nat) (x : Obj) (ops : List Nat) : Bool :=
  ((List.range x.qCount).map (x.qBase + ·)).any (fun r =>
    r != q && s.qOn r && s.fld (DCK_QUEUE_CFG.ENGINE r) == e
      && (List.range (wrapSub (s.qTail r) (s.qHead r))).any (fun i =>
        let b := s.entry r (s.qHead r + i)
        ops.contains (leAt b 0 1) && leAt b 1 1 == k))

/-- An operation that ends on a parity failure in its engine r (R455, R481, R527): reported, with the outcome out. -/
def State.engBroken (s : State) (e : Nat) (o : Op) (st : Nat) (counter : Fld) (out : EngOut) : EngRes := .done (s.engFault e o st counter) out

/-! ## Completion -/

/-- Tables an outcome changes. -/
def State.engTables (s : State) (e : Nat) (out : EngOut) : State :=
  let s1 := match out.duneSlots with
    | some l => s.setDune (e - 1) { (s.dune (e - 1)) with slots := l }
    | none => s
  let s2 := match out.occ, out.bank with
    | some k, some b =>
      let d := s1.dune (e - 1)
      s1.setDune (e - 1) { d with banks := setAt d.banks b (some k), cur := b, valid := true, gen := (d.gen + 1) % 2 ^ 32 }
    | _, _ => s1
  let s3 := match out.slvSlots with
    | some l => s2.setSlv (e - 3) l
    | none => s2
  match out.loam with
  | some l => { s3 with loam := l }
  | none => s3

/-- Counters an outcome advances. -/
def State.engCounts (s : State) (out : EngOut) : State :=
  out.counts.foldl (fun (t : State) c => t.bump ⟨c.1, 31, 0⟩ c.2) s

/-- The bytes of a write with the time stamps that fall into it. -/
def State.stampWrite (s : State) (out : EngOut) (w : Nat × List Byte) : List Byte :=
  out.stamps.foldl (fun bs st =>
    if w.1 ≤ st.1 ∧ st.1 + st.2 ≤ w.1 + w.2.length then
      bs.take (st.1 - w.1) ++ (leBytes 4 s.time ++ leBytes 4 s.wraps).take st.2 ++ bs.drop (st.1 - w.1 + st.2)
    else bs) w.2

/-- The writes of an outcome in order; the blocks that failed their check. -/
def State.engWrites (s : State) (e : Nat) (o : Op) (out : EngOut) : State × List Nat :=
  out.writes.foldl (fun (acc : State × List Nat) w =>
    let r := acc.1.store ⟨engMaster e, 0, out.prov, false, .unit⟩ (placed w.1 (s.stampWrite out w)) o.id 0
    (r.1, acc.2 ++ r.2)) (s, [])

/-- The operation leaves its unit and retires. -/
def State.engLeave (s : State) (e : Nat) (load : Bool) (o : Op) : State := (s.setUnit e load none none).retire o

/-- The counter of pivots regularised goes on whatever becomes of the operation that regularised them (R484). -/
def EngOut.pivots (out : EngOut) : List (Nat × Nat) := out.counts.filter (fun c => c.1 == SLV_PIVOT_REG.addr 0 || c.1 == SLV_PIVOT_REG.addr 1)

/-- The factor a solver slot has after an operation whose write failed its check: the factorisation was done before it, and stands (R469); the slot's
vectors, last solution and counts stay as they were (DEDUCED, log 86). -/
def SlvSlot.refactored (old new : SlvSlot) : SlvSlot := { old with factor := new.factor, gen := new.gen, reg := new.reg }

/-- A failed check of a write of the outcome: the operation ends with its report. was: the solver slots before it. The pivots it regularised stay counted
(R484). -/
def EngOut.failed (out : EngOut) (was : List (Option SlvSlot)) : EngOut :=
  { EngOut.of stWatermark 0 (out.foot ++ out.writes.map (fun w => (w.1, w.2.length))) with
    bank := out.bank, counts := out.pivots,
    slvSlots := out.slvSlots.map (fun l => (was.zip l).map (fun p => match p.1, p.2 with
      | some a, some b => some (a.refactored b)
      | a, _ => a)) }

/-- A report about an operation still waits for the integrity controller. -/
def State.opHasReport (s : State) (id : Nat) : Bool := s.reports.any (fun r => r.op == id)

/-- Blocks an outcome writes. -/
def EngOut.blocks (out : EngOut) : List Nat := blocksOf (out.writes.map (fun w => (w.1, w.2.length)))

/-- An outcome lands as its operation completes: writes, then poison, tables and counters, unless a write fails its check. -/
def State.engLand (s : State) (e : Nat) (load : Bool) (o : Op) (out : EngOut) : State :=
  let r := s.engWrites e o out
  if r.2.isEmpty then
    (((r.1.poisonWith (if o.blame = 0 then out.blame else o.blame) (blocksOf out.foot)).engTables e out).engCounts out).engLeave e load { o with status := out.status, detail := out.detail, wrote := out.blocks }
  else r.1.setUnit e load (some o) (some (out.failed (s.slv (e - 3))))

/-! ## Unloading (R208 step 6) -/

/-- The engines forget an object: roadmap slots, problem slots, tracks, and in what an operation in progress will leave (R208, R434). -/
def State.engForget (s : State) (h : Nat) : State :=
  let s1 := (List.range 2).foldl (fun (t : State) e =>
    let d := t.dune e
    t.setDune e { d with slots := d.slots.map (fun x => x.filter (fun y => y.handle != h)) }) s
  let s2 := (List.range 2).foldl (fun (t : State) e => t.setSlv e ((t.slv e).map (fun x => x.filter (fun y => y.handle != h)))) s1
  let s2 := { s2 with engines := s2.engines.map (fun (e : Nat × EngUnit) => (e.1, e.2.forget h)) }
  { s2 with loam := { s2.loam with tracks := s2.loam.tracks.filter (fun e => match e.2 with | some t => t.handle != h | none => false) } }

/-- UNLOAD_COMPLETE (R208): no operation of the object is in flight: its sequences, curve slots, engine slots and tracks, queues and
resources are released, and the command completes. -/
def execUnloadComplete (s : State) : Host.Outcome State Fault Refusal :=
  match s.adm with
  | .unloading h => match s.obj h with
    | some o => answer (s.quiet o) s (((s.start.releaseAll o).engForget h).loadDone 0x20 h)
    | none => answer false s s
  | _ => answer false s s

end Sys2Proof.Machine
end

