-- ==== Sys2Proof/Machine/Dune.lean ====
section
/-! DEFINITION. The planning engines (chapter 12): roadmaps, occupancy images, edge validation and search, and the commands of the main and
load units. -/
namespace Sys2Proof.Machine

def dunGrant : Nat := 0x80
def dunFull : Nat := 0x81
def dunNoRoadmap : Nat := 0x82
def dunBadTable : Nat := 0x83
def dunBadOcc : Nat := 0x84
def dunOverflow : Nat := 0x85
def dunNoOcc : Nat := 0x86
def dunStale : Nat := 0x87
def dunNoPath : Nat := 0x88
def dunBudget : Nat := 0x89
def dunPathLong : Nat := 0x8A
def dunEngine : Nat := 0x8B
def dunSlotBusy : Nat := 0x8C

/-- FLAGS bits of R435. -/
def dunFlags : Nat := engFlags + 2

/-- A descriptor keeps R435: reserved bits 0, fields in range, the cell the object's own (R200). -/
def duneParamOk (b : List Byte) (x : Obj) : Bool :=
  let op := leAt b 0 1
  engCellOk b x
    && (if op = 0 then engBytesOk b dunFlags 0 0 && leAt b 1 1 == 0
      else if op = 0x40 then engBytesOk b dunFlags 8 16 && leAt b 1 1 == 0 && engAddr (leAt b 8 8) 64
      else if op = 0x41 then engBytesOk b dunFlags 0 0
      else if op = 0x42 then engBytesOk b dunFlags 8 16 && leAt b 1 1 == 0 && engAddr (leAt b 8 8) 64
      else if op = 0x43 then engBytesOk b dunFlags 4 24 && leAt b 12 4 == 0 && engAddr (leAt b 16 8) 32
      else engBytesOk b dunFlags 4 38 && decide (1 ≤ leAt b 12 2 ∧ leAt b 12 2 ≤ 256) && decide (1 ≤ leAt b 14 2)
        && engAddr (leAt b 16 8) 4 && engAddr (leAt b 24 8) 64 && decide (1 ≤ leAt b 36 2 ∧ leAt b 36 2 ≤ 4096))

/-! ## Roadmaps (R437–R441) -/

/-- Fields of a roadmap header. -/
def rmNodes (h : List Byte) : Nat := leAt h 4 4
def rmEdges (h : List Byte) : Nat := leAt h 8 4
def rmVox (h : List Byte) : Nat := leAt h 12 4
def rmNodeBase (h : List Byte) : Nat := leAt h 16 6
def rmEdgeBase (h : List Byte) : Nat := leAt h 24 6
def rmVoxBase (h : List Byte) : Nat := leAt h 32 6
def rmStateBase (h : List Byte) : Nat := leAt h 40 6

/-- The header keeps R437. -/
def rmHeaderOk (h : List Byte) : Bool :=
  leAt h 0 2 == 1 && leAt h 2 2 == 0 && decide (1 ≤ rmNodes h ∧ rmNodes h ≤ 131072 ∧ 1 ≤ rmEdges h ∧ rmEdges h ≤ 1048576)
    && decide (1 ≤ rmVox h ∧ rmVox h ≤ 268435456) && rmNodeBase h % 8 == 0 && rmEdgeBase h % 16 == 0 && rmVoxBase h % 4 == 0
    && rmStateBase h % 64 == 0 && leAt h 22 2 == 0 && leAt h 30 2 == 0 && leAt h 38 2 == 0 && leAt h 46 18 == 0

/-- Node n: first edge and number of outgoing edges. -/
def State.rmNode (s : State) (h : List Byte) (n : Nat) : Nat × Nat :=
  let a := rmNodeBase h + 8 * n
  (s.seenNat a 4, s.seenNat (a + 4) 2)

/-- Node n keeps R438. -/
def State.rmNodeOk (s : State) (h : List Byte) (n : Nat) : Bool :=
  let e := s.rmNode h n
  decide (e.1 + e.2 ≤ rmEdges h) && s.seenNat (rmNodeBase h + 8 * n + 6) 2 == 0

/-- An edge record (R439). -/
structure RmEdge where
  dst : Nat
  voxOff : Nat
  voxCount : Nat
  duration : Nat
  cost : Nat
  flags : Nat
deriving DecidableEq, Repr

def State.rmEdge (s : State) (h : List Byte) (e : Nat) : RmEdge :=
  let a := rmEdgeBase h + 16 * e
  ⟨s.seenNat a 4, s.seenNat (a + 4) 4, s.seenNat (a + 8) 2, s.seenNat (a + 10) 2, s.seenNat (a + 12) 2, s.seenNat (a + 14) 2⟩

/-- An edge keeps R439. -/
def RmEdge.ok (e : RmEdge) (h : List Byte) : Bool :=
  decide (e.dst < rmNodes h ∧ 1 ≤ e.voxCount ∧ e.voxCount ≤ 4096 ∧ e.voxOff + e.voxCount ≤ rmVox h ∧ 1 ≤ e.duration ∧ e.flags < 4)

/-- LIMIT_OK, and an edge that is never usable. -/
def RmEdge.limitOk (e : RmEdge) : Bool := bitN e.flags 0
def RmEdge.shut (e : RmEdge) : Bool := !e.limitOk || bitN e.flags 1

/-- BIND (R441). -/
def State.duneBind (s : State) (e : Nat) (o : Op) (x : Obj) : EngRes :=
  let a := leAt o.bytes 8 8
  let no := fun (st : Nat) => EngOut.of st 0 []
  if !x.holds a 64 0 then .done s (no dunGrant)
  else s.engIn o (blocksAt a 64) no (fun t _ =>
    let h := t.seenBytes a 64
    if !rmHeaderOk h then .done t (no dunBadTable)
    else if !x.holds (rmNodeBase h) (8 * rmNodes h) 0 then .done t (no dunGrant)
    else t.engIn o (blocksAt (rmNodeBase h) (8 * rmNodes h)) no (fun u _ =>
      if !(List.range (rmNodes h)).all (u.rmNodeOk h) then .done u (no dunBadTable)
      else
        let d := u.dune e
        match (List.range 4).find? (fun i => (getAt none d.slots i).isNone) with
        | none => .done u (no dunFull)
        | some i => .done u { EngOut.of 0 i [] with duneSlots := some (setAt d.slots i (some ⟨x.handle, h, false, 0, none⟩)) }))

/-- The slot an operation names, bound by the calling object (R442). -/
def State.duneSlot (s : State) (e : Nat) (o : Op) (x : Obj) : Option DuneSlot :=
  ((getAt none (s.dune e).slots (leAt o.bytes 1 1)).filter (fun y => y.handle == x.handle))

/-- UNBIND (R442, R454). -/
def State.duneUnbind (s : State) (e : Nat) (o : Op) (x : Obj) : EngRes :=
  match s.duneSlot e o x with
  | none => .done s (EngOut.of dunNoRoadmap 0 [])
  | some _ =>
    if s.slotNamed (e + 1) o.queue (leAt o.bytes 1 1) x [0x41, 0x43, 0x44] then .done s (EngOut.of dunSlotBusy 0 [])
    else .done s { EngOut.of 0 0 [] with duneSlots := some (setAt (s.dune e).slots (leAt o.bytes 1 1) none) }

/-! ## Occupancy (R443–R446) -/

/-- The header keeps R443. -/
def occHeaderOk (h : List Byte) : Bool :=
  let dim := fun (k m : Nat) => let d := leAt h k 2; d % 8 == 0 && decide (8 ≤ d ∧ d ≤ m)
  leAt h 0 2 == 1 && dim 2 512 && dim 4 512 && dim 6 128 && decide (1 ≤ leAt h 8 1 ∧ leAt h 8 1 ≤ 32) && leAt h 9 1 == 0
    && decide (10 ≤ leAt h 10 2 ∧ leAt h 10 2 ≤ 500) && leAt h 16 48 == 0

/-- Bricks of an image, and bytes of its directory. -/
def occBricks (h : List Byte) : Nat := leAt h 2 2 / 8 * (leAt h 4 2 / 8) * (leAt h 6 2 / 8)
def occDir (h : List Byte) : Nat := alignUp (ceilDiv (occBricks h) 8) 64

/-- A bank that OCC_LOAD may fill: not current, and not used by the operation in the main unit (R445). -/
def State.duneFree (s : State) (e : Nat) : Option Nat :=
  let d := s.dune e
  let used := (s.eng (e + 1)).hold.bind (·.1)
  (List.range 2).find? (fun b => !(d.valid && d.cur == b) && used != some b)

/-- OCC_LOAD (R444) into bank b; fault: a parity failure leaves it empty (R455). -/
def State.duneLoad (s : State) (b : Nat) (o : Op) (x : Obj) : EngRes :=
  let a := leAt o.bytes 8 8
  let no := fun (st : Nat) => { EngOut.of st 0 [] with bank := some b }
  if !x.holds a 64 0 then .done s (no dunGrant)
  else s.engIn o (blocksAt a 64) no (fun t p0 =>
    let h := t.seenBytes a 64
    let sl := leAt h 8 1
    let base := a + 64 + occDir h
    if !occHeaderOk h then .done t (no dunBadOcc)
    else if !x.holds (a + 64) (occDir h) 0 then .done t (no dunGrant)
    else t.engIn o (blocksAt (a + 64) (occDir h)) no (fun u p1 =>
      let marked := (List.range (occBricks h)).filter (fun i => bitN (u.seenByte (a + 64 + i / 8)).toNat (i % 8))
      if 131072 < marked.length * sl then .done u (no dunOverflow)
      else if !marked.all (fun i => x.holds (base + i * sl * 64) (sl * 64) 0) then .done u (no dunGrant)
      else u.engIn o (blocksOf (marked.map (fun i => (base + i * sl * 64, sl * 64)))) no (fun v p2 =>
        let prov := p0 || p1 || p2
        .done v { no 0 with
          prov := prov,
          occ := some ⟨leAt h 2 2, leAt h 4 2, leAt h 6 2, sl, leAt h 10 2, leAt h 12 4, prov,
            marked.map (fun i => (i, v.seenBytes (base + i * sl * 64) (sl * 64)))⟩ })))

/-- Voxel (x, y, z) of a bank is occupied in slice i; outside the volume it is, in every slice (R447). -/
def OccBank.outside (k : OccBank) (x y z : Nat) : Bool := decide (k.dx ≤ x ∨ k.dy ≤ y ∨ k.dz ≤ z)
def OccBank.bit (k : OccBank) (x y z i : Nat) : Bool :=
  let b := x / 8 + k.dx / 8 * (y / 8 + k.dy / 8 * (z / 8))
  let v := x % 8 + 8 * (y % 8) + 64 * (z % 8)
  match k.bricks.find? (fun e => e.1 == b) with
  | some e => bitN (leAt e.2 (64 * i + v / 8) 1) (v % 8)
  | none => false

/-- The slice of a time, and whether it lies past the last (R446). -/
def sliceOf (t t0 per sl : Nat) : Nat × Bool :=
  let d := wrapSub t t0
  if 2 ^ 31 ≤ d then (0, false) else
    let i := d / (per * 1000)
    if sl ≤ i then (sl - 1, true) else (i, false)

/-! ## Validation (R447–R450) -/

/-- Voxels of a voxel-pool entry (R440). -/
def voxRun (w : Nat) : List (Nat × Nat × Nat) :=
  (List.range (bitsN w 6 0 + 1)).map (fun i => (bitsN w 31 23 + i, bitsN w 22 14, bitsN w 13 7))

/-- The entries of an edge's list. -/
def State.rmList (s : State) (h : List Byte) (e : RmEdge) : List Nat :=
  (List.range e.voxCount).map (fun i => s.seenNat (rmVoxBase h + 4 * (e.voxOff + i)) 4)

/-- The state word of an edge, and its entries that hold a voxel outside the volume. -/
def State.edgeState (s : State) (h : List Byte) (k : OccBank) (e : RmEdge) : Nat × Nat :=
  if e.shut then (0xFFFFFFFF, 0)
  else
    let l := (s.rmList h e).map voxRun
    let out := fun (v : Nat × Nat × Nat) => k.outside v.1 v.2.1 v.2.2
    (sumN ((List.range k.slices).map (fun i =>
        if l.any (fun r => r.any (fun v => out v || k.bit v.1 v.2.1 v.2.2 i)) then 2 ^ i else 0)),
      (l.filter (fun r => r.any out)).length)

/-- The summary's 32 bytes. -/
def summaryBytes (checked blocked limit oob gen bad : Nat) : List Byte :=
  leBytes 4 checked ++ leBytes 4 blocked ++ leBytes 4 limit ++ leBytes 4 oob ++ leBytes 4 gen ++ leBytes 4 bad ++ leBytes 8 0

/-- The summary a validation writes, if it has one (R450). -/
def summaryOf (o : Op) (b : List Byte) : List (Nat × List Byte) := if leAt o.bytes 16 8 = 0 then [] else [(leAt o.bytes 16 8, b)]

/-- A validation of n edges from first that does not succeed: its state words are poisoned; of its summary the four counts are open (log 27). -/
def State.duneFail (s : State) (e : Nat) (o : Op) (sl : DuneSlot) (first n st bad : Nat) : State × EngOut :=
  let k := s.duneBank e
  (s.tookFree 4, { EngOut.of st 0 [(rmStateBase sl.header + 4 * first, 4 * n)] with
    bank := k.1,
    writes := summaryOf o (summaryBytes (s.free 32) ((s.tookFree 1).free 32) ((s.tookFree 2).free 32) ((s.tookFree 3).free 32) k.2 bad) })

/-- The range of edges a VALIDATE names (R447). -/
def edgeRange (o : Op) (sl : DuneSlot) : Nat × Nat :=
  let first := leAt o.bytes 4 4
  (first, if leAt o.bytes 8 4 = 0 then rmEdges sl.header - first else leAt o.bytes 8 4)

/-- VALIDATE once its range and bank are known. The grants of the voxel lists are tested once the edges that name them have been read (R436). -/
def State.duneCheck (s : State) (e : Nat) (o : Op) (x : Obj) (sl : DuneSlot) (k : OccBank) (first n : Nat) : EngRes :=
  let d := s.dune e
  let held := s.duneBank e
  let h := sl.header
  let sum := leAt o.bytes 16 8
  let es := (List.range n).map (fun i => (first + i, s.rmEdge h (first + i)))
  let words := (rmStateBase h + 4 * first, 4 * n)
  let lists := fun (l : List (Nat × RmEdge)) => (l.filter (fun q => !q.2.shut)).map (fun q => (rmVoxBase h + 4 * q.2.voxOff, 4 * q.2.voxCount))
  let fail := fun (t : State) (st bad blame : Nat) =>
    let r := t.duneFail e o sl first n st bad
    EngRes.done r.1 { r.2 with blame := blame }
  let good := es.filter (fun q => q.2.ok h)
  if !x.grantsAll [(rmEdgeBase h + 16 * first, 16 * n)] (words :: (if sum = 0 then [] else [(sum, 32)])) then .done s (EngOut.of dunGrant 0 [])
  else match s.scanRaw (engAccept o.bytes) false (blocksAt (rmEdgeBase h + 16 * first) (16 * n)) with
    | .wait b => .wait b
    | .stop st b => fail (if st = stWatermark then (s.rawCheck b o.id 0).1 else s) st 0xFFFFFFFF (s.blameOf b)
    | .ok p0 =>
      if !x.grantsAll (lists good) [] then .done (s.noteRaw (blocksAt (rmEdgeBase h + 16 * first) (16 * n)) o.id) (EngOut.of dunGrant 0 []) else
      match es.find? (fun q => !q.2.ok h) with
      | some q => fail s dunBadTable q.1 0
      | none =>
        match s.scanRaw (engAccept o.bytes) false (blocksOf (lists es)) with
        | .wait b => .wait b
        | .stop st b => fail (if st = stWatermark then (s.rawCheck b o.id 0).1 else s) st 0xFFFFFFFF (s.blameOf b)
        | .ok p1 =>
          let t := s.noteRaw (blocksAt (rmEdgeBase h + 16 * first) (16 * n) ++ blocksOf (lists es)) o.id
          let ws := es.map (fun q => t.edgeState h k q.2)
          let limit := (es.filter (fun q => !q.2.limitOk)).length
          let oob := sumN (ws.map (·.2))
          let all := first == 0 && n == rmEdges h
          let sl' := { sl with load := some (held.2, k.t0, k.period, k.slices), full := sl.full || all, valGen := if all then held.2 else sl.valGen }
          .done t { EngOut.of 0 0 [] with
            writes := (words.1, (ws.map (fun w => leBytes 4 w.1)).flatten)
              :: summaryOf o (summaryBytes n ((ws.filter (fun w => w.1 != 0)).length) limit oob held.2 0xFFFFFFFF),
            prov := k.prov || p0 || p1, bank := held.1,
            counts := [(DUN_LIMIT_FLAGGED.addr e, limit), (DUN_OOB_RUNS.addr e, oob)],
            duneSlots := some (setAt d.slots (leAt o.bytes 1 1) (some sl')) }

/-- VALIDATE (R447). -/
def State.duneValidate (s : State) (e : Nat) (o : Op) (x : Obj) : EngRes :=
  let no := fun (st : Nat) => EngRes.done s (EngOut.of st 0 [])
  match s.duneSlot e o x with
  | none => no dunNoRoadmap
  | some sl =>
    let r := edgeRange o sl
    if rmEdges sl.header ≤ r.1 ∨ rmEdges sl.header < r.1 + r.2 then no stBadParam
    else match (s.duneBank e).1.bind (getAt none (s.dune e).banks) with
      | none => no dunNoOcc
      | some k => s.duneCheck e o x sl k r.1 r.2

/-! ## Search (R451, R452) -/

/-- A node's label: cost, elapsed time, and the edge and node it was reached by. -/
structure Label where
  cost : Nat
  elapsed : Nat
  pred : Option (Nat × Nat)
deriving DecidableEq, Repr

/-- The search: queue entries as (bucket, order, node), how many were pushed, labels, settled nodes, the current bucket, result flags,
and how it stopped: a status with its block, or a block that is being filled. -/
structure Search where
  queue : List (Nat × Nat × Nat)
  pushed : Nat
  labels : List (Nat × Option Label)
  settled : List Nat
  cur : Nat
  goal : Option Nat
  horizon : Bool
  clamped : Bool
  prov : Bool
  taint : Bool
  status : Nat
  stop : Option (Nat × Nat)
  wait : Option Nat
  reads : List Nat
deriving DecidableEq, Repr

/-- The parameters of a search. -/
structure SearchIn where
  header : List Byte
  start : Nat
  time : Nat
  width : Nat
  goals : List Nat
  limit : Nat
  t0 : Nat
  period : Nat
  slices : Nat
  accept : Bool
  obj : Obj
deriving DecidableEq, Repr

def Search.label (q : Search) (n : Nat) : Option Label := Sparse.get (fun _ => none) q.labels n

/-- A node pushed with a cost; a bucket 1,024 or more ahead is clamped (R451). -/
def Search.push (q : Search) (i : SearchIn) (n c : Nat) : Search :=
  let b := c / i.width
  let far := decide (q.cur + 1024 ≤ b)
  { q with queue := q.queue ++ [(if far then q.cur + 1023 else b, q.pushed, n)], pushed := q.pushed + 1, clamped := q.clamped || far }

/-- n bytes at a read by the search: it stops on the first block that may not be used, and with DUN_GRANT at an address outside the object's grants, to
which a table changed after BIND can lead it (R436). -/
def State.searchRead (s : State) (i : SearchIn) (word : Bool) (q : Search) (a n : Nat) : Search :=
  let bs := blocksAt a n
  let new := bs.filter (fun b => !q.reads.contains b)
  if !i.obj.holds a n 0 then { q with stop := some (dunGrant, a / 4096) }
  else match s.scanRaw i.accept false new with
  | .wait b => { q with wait := some b }
  | .stop st b => { q with stop := some (st, b) }
  | .ok p => { q with prov := q.prov || (word && bs.any (fun b => (s.tag b).prov)), taint := q.taint || p, reads := q.reads ++ new }

/-- The search goes no further. -/
def Search.halted (q : Search) : Bool := q.wait.isSome || q.stop.isSome

/-- One outgoing edge of a settled node. -/
def State.searchEdge (s : State) (i : SearchIn) (n : Nat) (l : Label) (q : Search) (e : Nat) : Search :=
  if q.halted then q
  else
    let q1 := s.searchRead i true q (rmStateBase i.header + 4 * e) 4
    let sl := sliceOf ((i.time + 100 * l.elapsed) % 2 ^ 32) i.t0 i.period i.slices
    let q2 := { q1 with horizon := q1.horizon || sl.2 }
    if q2.halted then q2
    else if bitN (s.seenNat (rmStateBase i.header + 4 * e) 4) sl.1 then q2
    else
      let q3 := s.searchRead i false q2 (rmEdgeBase i.header + 16 * e) 16
      if q3.halted then q3
      else
        let r := s.rmEdge i.header e
        let dst := r.dst % 131072
        let c := l.cost + r.duration + r.cost
        if q3.settled.contains dst then q3
        else if 0xFFFFFFFF < c then { q3 with clamped := true }
        else if (match q3.label dst with | some y => decide (y.cost ≤ c) | none => false) then q3
        else
          ({ q3 with labels := Sparse.set (fun _ => none) q3.labels dst (some ⟨c, l.elapsed + r.duration, some (e, n)⟩) }).push i dst c

/-- The next entry of the queue: lowest bucket, first in it. -/
def Search.pop (q : Search) : Option ((Nat × Nat × Nat) × Search) :=
  match leastBy (fun (x : Nat × Nat × Nat) => [x.1, x.2.1]) q.queue with
  | none => none
  | some x => some (x, { q with queue := q.queue.filter (fun y => y.2.1 != x.2.1), cur := x.1 })

/-- The loop of R451. -/
def State.searchLoop (s : State) (i : SearchIn) : Nat → Search → Search
  | 0, q => q
  | f + 1, q =>
    match q.pop with
    | none => { q with status := dunNoPath }
    | some (x, q1) =>
      let n := x.2.2
      if q1.settled.contains n then s.searchLoop i f q1
      else
        let q2 := { q1 with settled := n :: q1.settled }
        if i.goals.contains n then { q2 with goal := some n, status := 0 }
        else if i.limit ≠ 0 ∧ q2.settled.length = i.limit then { q2 with status := dunBudget }
        else
          let q3 := s.searchRead i false q2 (rmNodeBase i.header + 8 * n) 8
          if q3.halted then q3
          else
            let e := s.rmNode i.header n
            let l := (q3.label n).getD ⟨0, 0, none⟩
            let q4 := (List.range e.2).foldl (fun q k => s.searchEdge i n l q (e.1 + k)) q3
            if q4.halted then q4 else s.searchLoop i f q4

/-- The path to a node: its edges with their start offsets in microseconds. -/
def Search.path (q : Search) : Nat → Nat → List (Nat × Nat)
  | 0, _ => []
  | f + 1, n => match q.label n with
    | some l => match l.pred with
      | some (e, m) => q.path f m ++ [(e, 100 * ((q.label m).getD ⟨0, 0, none⟩).elapsed % 2 ^ 32)]
      | none => []
    | none => []

/-- The result record (R452): the header, and the entries of a path that fits. -/
def searchResult (i : SearchIn) (q : Search) (gen : Nat) (stale : Bool) (max : Nat) : Nat × List Byte :=
  let l := q.goal.bind q.label
  let path := match q.goal with | some g => q.path (q.settled.length + 1) g | none => []
  let fl := b2n q.horizon + 2 * b2n stale + 4 * b2n q.clamped + 8 * b2n q.prov
  let head := leBytes 4 path.length ++ leBytes 4 (q.goal.getD 0xFFFFFFFF) ++ leBytes 4 (match l with | some y => y.cost | none => 0)
    ++ leBytes 4 (match l with | some y => (i.time + 100 * y.elapsed) % 2 ^ 32 | none => 0) ++ leBytes 4 q.settled.length ++ leBytes 4 gen
    ++ leBytes 1 fl ++ leBytes 7 0
  if q.goal.isNone then (q.status, head)
  else if max < path.length then (dunPathLong, head)
  else (0, head ++ (path.map (fun p => leBytes 4 p.1 ++ leBytes 4 p.2)).flatten)

/-- SEARCH past its first checks. -/
def State.duneSeek (s : State) (e : Nat) (o : Op) (x : Obj) (sl : DuneSlot) (ld : Nat × Nat × Nat × Nat) (goals : List Nat) (p0 : Bool) : EngRes :=
  let b := o.bytes
  let res := leAt b 24 8
  let max := leAt b 36 2
  let foot := [(res, 32 + 8 * max)]
  let k := s.duneBank e
  let stale := sl.valGen != ld.1 || sl.valGen != k.2
  let i : SearchIn := ⟨sl.header, leAt b 4 4, leAt b 8 4, leAt b 14 2, goals, leAt b 32 4, ld.2.1, ld.2.2.1, ld.2.2.2, engAccept b, x⟩
  let q0 : Search := ⟨[], 0, [], [], 0, none, false, false, false, p0, dunNoPath, none, none, []⟩
  let q1 := { q0 with labels := Sparse.set (fun _ => none) [] i.start (some ⟨0, 0, none⟩) }
  let q := s.searchLoop i (rmNodes sl.header * 65535 + 2) (q1.push i i.start 0)
  match q.wait, q.stop with
  | some w, _ => .wait w
  | none, some (st, w) =>
    if st = dunGrant then .done s { EngOut.of dunGrant 0 [] with bank := k.1 }
    else .done (if st = stWatermark then (s.rawCheck w o.id 0).1 else s) { EngOut.of st 0 foot with bank := k.1, blame := s.blameOf w, provIn := q.taint }
  | none, none =>
    let r := searchResult i q ld.1 stale max
    .done (s.noteRaw q.reads o.id) { EngOut.of r.1 0 [] with writes := [(res, r.2)], prov := q.taint, provIn := q.taint, bank := k.1 }

/-- SEARCH (R451, R452): the checks that read nothing come before the grants (R436, R451). -/
def State.duneSearch (s : State) (e : Nat) (o : Op) (x : Obj) : EngRes :=
  let b := o.bytes
  let no := fun (st : Nat) => EngOut.of st 0 []
  match s.duneSlot e o x with
  | none => .done s (no dunNoRoadmap)
  | some sl =>
    let h := sl.header
    let gl := (leAt b 16 8, 4 * leAt b 12 2)
    if rmNodes h ≤ leAt b 4 4 then .done s (no stBadParam)
    else match sl.load with
      | none => .done s (no dunStale)
      | some ld =>
        if !sl.full || (bitN (leAt b 2 2) 1 && (sl.valGen != ld.1 || sl.valGen != (s.duneBank e).2)) then .done s (no dunStale)
        else if !x.grantsAll [gl, (rmNodeBase h, 8 * rmNodes h), (rmEdgeBase h, 16 * rmEdges h), (rmStateBase h, 4 * rmEdges h)]
            [(leAt b 24 8, 32 + 8 * leAt b 36 2)] then .done s (no dunGrant)
        else s.engIn o (blocksAt gl.1 gl.2) (fun st => EngOut.of st 0 [(leAt b 24 8, 32 + 8 * leAt b 36 2)]) (fun t p =>
          let goals := (List.range (leAt b 12 2)).map (fun k => t.seenNat (gl.1 + 4 * k) 4)
          if goals.any (fun g => decide (rmNodes h ≤ g)) then .done t (no dunBadTable)
          else t.duneSeek e o x sl ld goals p)

/-! ## Commands -/

/-- An operation whose descriptor keeps R435 does its work; else BAD_PARAM. -/
def State.duneOp (s : State) (o : Op) (x : Obj) (f : State → EngRes) : EngRes :=
  if duneParamOk o.bytes x then f s else .done s (EngOut.of stBadParam 0 [])

/-- What a VALIDATE or SEARCH comes to where no failure strikes it. -/
def State.duneWould (s : State) (e : Nat) (o : Op) (x : Obj) : Option EngOut :=
  if leAt o.bytes 0 1 = 0x43 then (s.duneOp o x (fun u => u.duneValidate e o x)).out
  else if leAt o.bytes 0 1 = 0x44 then (s.duneOp o x (fun u => u.duneSearch e o x)).out
  else none

/-- What a VALIDATE or SEARCH that fails with a status leaves (R449, R450, R452). -/
def State.duneHurt (s : State) (e : Nat) (o : Op) (x : Obj) (st : Nat) : State × EngOut :=
  if leAt o.bytes 0 1 = 0x43 then
    match s.duneSlot e o x with
    | some sl => s.duneFail e o sl (edgeRange o sl).1 (edgeRange o sl).2 st 0xFFFFFFFF
    | none => (s, EngOut.of st 0 [])
  else if leAt o.bytes 0 1 = 0x44 then
    (s, { EngOut.of st 0 [(leAt o.bytes 24 8, 32 + 8 * leAt o.bytes 36 2)] with bank := (s.duneBank e).1 })
  else (s, EngOut.of st 0 [])

/-- An outcome of an operation that is refused, and writes nothing (R454). -/
def duneUntouched (r : EngOut) : Bool :=
  [stBadParam, stBadOpcode, dunGrant, dunNoRoadmap, dunNoOcc, dunStale].contains r.status || (r.status == dunBadTable && r.foot.isEmpty)

/-- An operation meets a parity failure, in the engine or (fault 2) in the bank it uses: it is reported and completes DUN_ENGINE; what it would have
written is poisoned, and a bank that is current is current no longer, held by the operation until it completes (R455). out: its outcome without the failure; one that is refused writes nothing. -/
def State.duneBroken (s : State) (e fault : Nat) (o : Op) (x : Obj) (out : Option EngOut) : EngRes :=
  let t := s.engFault (e + 1) o dunEngine (DUN_PARITY.COUNT e)
  if (out.map duneUntouched).getD false then .done t (EngOut.of dunEngine 0 [])
  else
    let k := t.duneBank e
    let d := t.dune e
    let v := t.setEng (e + 1) { (t.eng (e + 1)) with hold := some k }
    let u := if fault = 2 ∧ d.valid ∧ k = (some d.cur, d.gen) then v.setDune e { d with valid := false } else v
    let r := u.duneHurt e o x dunEngine
    .done r.1 r.2

/-- DUN_NOP (R435, R455): NOP completes OK; an opcode R435 does not list completes BAD_OPCODE (R454). -/
def execDunNop (e fault : Nat) (s : State) : Host.Outcome State Fault Refusal :=
  s.engRun (e + 1) false (fun op => op == 0 || !(decide (0x40 ≤ op ∧ op ≤ 0x44))) (fun t o x =>
    if fault ≠ 0 then t.engBroken (e + 1) o dunEngine (DUN_PARITY.COUNT e) (EngOut.of dunEngine 0 [])
    else if leAt o.bytes 0 1 ≠ 0 then .done t (EngOut.of stBadOpcode 0 []) else t.duneOp o x (fun u => .done u (EngOut.of 0 0 [])))

/-- BIND (R441). fault: 0 none, else a parity failure (R455). -/
def execDunBind (e fault : Nat) (s : State) : Host.Outcome State Fault Refusal :=
  s.engRun (e + 1) false (fun op => op == 0x40) (fun t o x =>
    if fault ≠ 0 then t.engBroken (e + 1) o dunEngine (DUN_PARITY.COUNT e) (EngOut.of dunEngine 0 [])
    else t.duneOp o x (fun u => u.duneBind e o x))

/-- UNBIND (R442, R455). -/
def execDunUnbind (e fault : Nat) (s : State) : Host.Outcome State Fault Refusal :=
  s.engRun (e + 1) false (fun op => op == 0x41) (fun t o x =>
    if fault ≠ 0 then t.engBroken (e + 1) o dunEngine (DUN_PARITY.COUNT e) (EngOut.of dunEngine 0 [])
    else t.duneOp o x (fun u => u.duneUnbind e o x))

/-- OCC_LOAD (R444, R445, R455): it waits, holding the load unit, until a bank is free. -/
def execOccLoad (e fault : Nat) (s : State) : Host.Outcome State Fault Refusal :=
  match s.duneFree e with
  | none => answer (s.engHead (e + 1) true (fun op => op == 0x42)).isSome s (s.start.say .waits)
  | some b =>
    s.engRun (e + 1) true (fun op => op == 0x42) (fun t o x =>
      if fault ≠ 0 then
        let u := t.engFault (e + 1) o dunEngine (DUN_PARITY.COUNT e)
        .done (u.setDune e { (u.dune e) with banks := setAt (u.dune e).banks b none }) (EngOut.of dunEngine 0 [])
      else t.duneOp o x (fun u => u.duneLoad b o x))

/-- VALIDATE (R447, R455). fault: 0 none, 1 a parity failure in the engine, 2 in the bank it uses. -/
def execDunValidate (e fault : Nat) (s : State) : Host.Outcome State Fault Refusal :=
  s.engRun (e + 1) false (fun op => op == 0x43) (fun t o x =>
    let r := t.duneOp o x (fun u => u.duneValidate e o x)
    if fault = 0 then r
    else t.duneBroken e fault o x r.out)

/-- SEARCH (R451, R455). fault as in VALIDATE. -/
def execDunSearch (e fault : Nat) (s : State) : Host.Outcome State Fault Refusal :=
  s.engRun (e + 1) false (fun op => op == 0x44) (fun t o x =>
    let r := t.duneOp o x (fun u => u.duneSearch e o x)
    if fault = 0 then r
    else t.duneBroken e fault o x r.out)

end Sys2Proof.Machine
end

