-- ==== Sys2Proof/Machine/ClusterCmds.lean ====
section
/-! DEFINITION. The commands and events of a tensor cluster (chapters 03–05): one meaning per operation, the Calender's work cycles,
chains and drains, the Beater's lane phases, curve slots, LOAD and STORE, and the in-field repair record. -/
namespace Sys2Proof.Machine

/-! ## Operations reach their engines -/

/-- A Calender operation accepted (R171, R106): checked, then queued for its chains. -/
def State.acceptCal (s : State) (n : Nat) (o : Op) : State :=
  let s1 := s.accept n o
  let o' := o.acceptedAt s.cyc
  match s1.decode o' with
  | some (st, det) => s1.endUntouched o' st det
  | none => s1.setCl n { (s1.cl n) with cal := (s1.cl n).cal ++ [o'] }

/-- The status a Beater operation has once accepted: a check of R171 that fails, EMPTY, or a reserved ROM curve. -/
def State.btrDecode (s : State) (o : Op) : Option (Nat × Nat) :=
  match s.decode o with
  | some r => some r
  | none => if o.desc.curveEn ∧ !o.desc.fromRecord ∧ 8 < o.desc.romId then some (stBadCurve, 0) else none

/-- A Beater operation accepted (R128). -/
def State.acceptBtr (s : State) (n : Nat) (o : Op) : State :=
  let s1 := s.accept n o
  let o' := o.acceptedAt s.cyc
  let s2 := s1.setCl n { (s1.cl n) with btr := (s1.cl n).btr ++ [o'] }
  match s2.btrDecode o' with
  | some (st, det) => s2.btrEnd n o' st det false
  | none => s2

/-- A Beater operation with opcode op is next and the Beater can take it. -/
def State.btrNext (s : State) (n op : Nat) : Option Op := if (s.cl n).btr.length < 8 then s.inboxOp n op else none

/-- A Beater operation of one opcode reaches its issue stage. -/
def beaterRow (op n : Nat) (s : State) : Host.Outcome State Fault Refusal :=
  match s.btrNext n op with
  | some o => .next (s.start.acceptBtr n o)
  | none => answer false s s

/-- The operation a cluster accepts next, if it is a NOP or its opcode names nothing (R166, check 1 of R171). -/
def State.inboxNop (s : State) (n : Nat) : Option Op :=
  match (s.cl n).inbox with
  | o :: _ => if s.cluUp n ∧ (o.desc.opcode = 0 ∨ engineOf o.desc.opcode = none) then some o else none
  | [] => none

/-- NOP (R166): reads and writes nothing and completes OK; an operation whose opcode is reserved completes BAD_OPCODE here. -/
def execQorazNop (n : Nat) (s : State) : Host.Outcome State Fault Refusal :=
  match s.inboxNop n with
  | some o => .next (s.start.acceptCal n o)
  | none => answer false s s
/-- GEMM (R166): decoded and checked, then run as the chains of R752. -/
def execGemm (n : Nat) (s : State) : Host.Outcome State Fault Refusal :=
  match s.inboxOp n 1 with
  | some o => .next (s.start.acceptCal n o)
  | none => answer false s s
/-- CONV (R145): decoded and checked, then run as an implicit GEMM. -/
def execConv (n : Nat) (s : State) : Host.Outcome State Fault Refusal :=
  match s.inboxOp n 2 with
  | some o => .next (s.start.acceptCal n o)
  | none => answer false s s
/-- EW (R132). -/
def execEw (n : Nat) (s : State) : Host.Outcome State Fault Refusal := beaterRow 0x10 n s
/-- CONVERT (R132). -/
def execConvertOp (n : Nat) (s : State) : Host.Outcome State Fault Refusal := beaterRow 0x11 n s
/-- CURVE (R139). -/
def execCurveOp (n : Nat) (s : State) : Host.Outcome State Fault Refusal := beaterRow 0x12 n s
/-- REDUCE (R133). -/
def execReduceOp (n : Nat) (s : State) : Host.Outcome State Fault Refusal := beaterRow 0x13 n s
/-- NORM (R132). -/
def execNormOp (n : Nat) (s : State) : Host.Outcome State Fault Refusal := beaterRow 0x14 n s
/-- SPLITK_SUM (R72). -/
def execSplitkSum (n : Nat) (s : State) : Host.Outcome State Fault Refusal := beaterRow 0x15 n s
/-- DOT (R134). -/
def execDotOp (n : Nat) (s : State) : Host.Outcome State Fault Refusal := beaterRow 0x16 n s
/-- WINDOW (R143). -/
def execWindowOp (n : Nat) (s : State) : Host.Outcome State Fault Refusal := beaterRow 0x17 n s
/-- ATTN_EXP (R150). -/
def execAttnExp (n : Nat) (s : State) : Host.Outcome State Fault Refusal := beaterRow 0x18 n s
/-- ATTN_MERGE (R152). -/
def execAttnMerge (n : Nat) (s : State) : Host.Outcome State Fault Refusal := beaterRow 0x19 n s
/-- ATTN_NORM (R152). -/
def execAttnNorm (n : Nat) (s : State) : Host.Outcome State Fault Refusal := beaterRow 0x1A n s
/-- BOX_DECODE (R153). -/
def execBoxDecode (n : Nat) (s : State) : Host.Outcome State Fault Refusal := beaterRow 0x1B n s
/-- NMS (R157). -/
def execNms (n : Nat) (s : State) : Host.Outcome State Fault Refusal := beaterRow 0x1C n s
/-- STATE_STEP (R298). -/
def execStateStep (n : Nat) (s : State) : Host.Outcome State Fault Refusal := beaterRow 0x1D n s

/-! ## LOAD and STORE (R147, R178, R187) -/

/-- A block an operation waits for is noted on it (R334, R350). -/
def State.opWaits (s : State) (n : Nat) (o : Op) (b : Nat) : State := s.putOp n { o with waitBlock := some b }

/-- An operation's check failed and was reported: it ends with the report (R192, R392). -/
def State.opReported (s : State) (n : Nat) (o : Op) (st det : Nat) : State :=
  s.putOp n { o with status := st, detail := det, phase := .ended, reported := true }

/-- Byte pairs (destination, source) of a copy of n bytes. -/
def copyPairs (dst src n : Nat) : List (Addr × Nat) := (List.range n).map (fun i => (dst + i, src + i))

/-- Where each byte of a copy-mode PHYS or VAT to PHYS or VAT transfer goes: every plane and the codebook (R178). -/
def planePairs (f : Fmt) (src dst : TDesc) (clu : Nat) : List (Addr × Nat) :=
  let nb := rowBlocks src.d0
  (List.range src.rows).flatMap (fun r =>
    let i := src.rowIdx r
    copyPairs (dst.rowAddr clu i.1 i.2.1 i.2.2) (src.rowAddr clu i.1 i.2.1 i.2.2) (ceilDiv (codeBits f false src.d0) 8))
    ++ (if f.isBlock then copyPairs (dst.phys clu + dst.scaleOff) (src.phys clu + src.scaleOff) (src.rows * nb) else [])
    ++ (if f.sub = 1 then copyPairs (dst.phys clu + dst.subOff) (src.phys clu + src.subOff) (2 * src.rows * nb) else [])
    ++ (if f.kind = 5 then copyPairs (dst.phys clu + dst.cbOff) (src.phys clu + src.cbOff) 32 else [])

/-- The code at element i0 of pixel (x, y, i3), 0 beyond the tensor (R147). -/
def codeAt (rd : Rd) (f : Fmt) (t : TDesc) (clu x y i3 i0 : Nat) : Nat :=
  if x < t.d1 ∧ y < t.d2 then rdBits rd (t.rowAddr clu x y i3) (f.elem * i0) f.elem else 0

/-- Space-to-depth, or its inverse, into the destination's rows (R147). -/
def depthWrites (rd : Rd) (f : Fmt) (src dst : TDesc) (clu v : Nat) : List (Addr × Byte) :=
  let b := s2dFactor v
  (List.range dst.rows).flatMap (fun r =>
    let i := dst.rowIdx r
    let codes := (List.range dst.d0).map (fun c =>
      if v ≤ 2 then
        let k := c / src.d0
        codeAt rd f src clu (b * i.1 + k % b) (b * i.2.1 + k / b) i.2.2 (c % src.d0)
      else codeAt rd f src clu (i.1 / b) (i.2.1 / b) i.2.2 ((i.2.1 % b * b + i.1 % b) * dst.d0 + c))
    atAddr (dst.rowAddr clu i.1 i.2.1 i.2.2) (leBytes (ceilDiv (f.elem * dst.d0) 8) (packCodes f.elem codes)))

/-- A KV tensor's rows with what the walker finds for each (R179, R180). -/
def State.kvHits (s : State) (o : Op) (t : TDesc) (f : Fmt) (write : Bool) : List (Nat × KvHit) :=
  let sl := s.kvSlots t o.clu
  let rows := kvRows t
  (List.range rows.length).map (fun r =>
    let i := getAt (0, 0, 0) rows r
    (r, if write then s.kvWrite o t f (getAt 0 sl i.1) i.2.2 i.2.1 else s.kvRead o t f (getAt 0 sl i.1) i.2.2 i.2.1))

/-- Bytes a LOAD or STORE reads, in order; none where a KV lookup faults. -/
def State.moveSource (s : State) (o : Op) (x : OpCtx) : Option (List Range) :=
  let d := o.desc
  let a := x.t slotA
  let f := x.fmt slotA
  if a.mode = 2 then
    let hits := s.kvHits o a f false
    if hits.any (fun h => h.2 == .fault) then none
    else some (hits.filterMap (fun h => match h.2 with | .at p => some (p, a.d0 * elemBytes f) | _ => none))
  else some (slotRanges d x slotA)

/-- The byte writes of a LOAD or STORE; none where a KV store faults. -/
def State.moveWrites (s : State) (o : Op) (x : OpCtx) : Option (List (Addr × Byte)) :=
  let d := o.desc
  let a := x.t slotA
  let out := x.t slotOut
  let f := x.fmt slotA
  let eb := a.d0 * elemBytes f
  let rowBytes := fun (t : TDesc) (r : Nat) => let i := t.rowIdx r; t.rowAddr x.clu i.1 i.2.1 i.2.2
  if a.mode = 2 then
    some ((s.kvHits o a f false).flatMap (fun h => placed (rowBytes out h.1) (match h.2 with
      | .at p => s.bytesAt p eb
      | _ => leBytes eb 0)))
  else if out.mode = 2 then
    let hits := s.kvHits o out f true
    if hits.any (fun h => h.2 == .fault) then none
    else some (hits.flatMap (fun h => match h.2 with
      | .at p => placed p (s.bytesAt (rowBytes a h.1) eb)
      | _ => []))
  else if d.variant = 0 then some ((planePairs f a out x.clu).map (fun p => (p.1, s.byte p.2)))
  else some (depthWrites s.byte f a out x.clu d.variant)

/-- The shared sheet a KV-mode write of an operation would reach first, in ascending slot order: slot, page-table entry and sheet (R284, R285). -/
def State.cowNeed (s : State) (o : Op) (t : TDesc) (f : Fmt) : Option (Nat × Nat × Nat) :=
  let sl := s.kvSlots t o.clu
  leastBy (fun (x : Nat × Nat × Nat) => [x.1]) ((kvRows t).filterMap (fun i =>
    let q := getAt 0 sl i.1
    let e := (s.slot q).entryAddr t.layer t.plane (o.kvPos t q i.2.2 / kvTps t f)
    let w := s.nat e 4
    let sh := bitsN w 21 0
    if bitN w 31 && s.shared o.part sh then some (q, e, sh) else none))

/-- The copy-on-write before an operation's KV-mode write (R284): started where a sheet is shared, and waited for; a copy of the same sheet
already in progress is waited for first, then the count is tested again (R285); an empty pool ends the operation with KV_FAULT, DETAIL 4. -/
def State.cowStart (s : State) (o : Op) (need : Nat × Nat × Nat) : State :=
  match s.cows.find? (fun c => c.old == need.2.2) with
  | some c => s.opWaits o.clu o (sheetBase c.new / 4096)
  | none => match s.startCow o.part need.1 need.2.1 need.2.2 65536 with
  | some (t, c) => (t.startCows).opWaits o.clu o (sheetBase c.new / 4096)
  | none => (s.bump (QUI_POOL_EMPTY.COUNT o.part) 1).endPoisoned o stKvFault slotOut

/-- The transfer of a LOAD or STORE that nothing blocks: inputs tested, bytes and tags moved, the operation left to complete. A LOAD that meets an
unmapped page and a tagged source block ends with KV_FAULT (R180, R189 give no order: DESIGN CHOICE, log 80). -/
def State.transfer (s : State) (n : Nat) (o : Op) : State :=
  let d := o.desc
  let x := s.opCtx o
  let out := x.t slotOut
  let f := x.fmt slotA
  match s.pendingBlock (s.walkBlocks o) with
  | some b => s.opWaits n o b
  | none =>
  match s.moveSource o x with
  | none => s.endPoisoned o stKvFault slotA
  | some rs =>
    let bs := blocksOf rs
    match s.scanBlocks d.acceptProv false bs with
    | .wait b => s.opWaits n o b
    | .stop st b =>
      if st = stWatermark then (s.checkRead b o.id 0).1.opReported n o st slotA else s.endPoisoned (o.blamed (s.blameOf b)) st slotA
    | .ok prov =>
      let o1 := { o with provIn := prov, waitBlock := none }
      let s1 := (s.noteReads bs o.id 0).putOp n o1
      if out.mode = 2 ∧ (s1.kvHits o1 out f true).any (fun h => h.2 == .fault) then s1.endPoisoned o1 stKvFault slotOut
      else match (if out.mode = 2 then s1.cowNeed o1 out f else none) with
        | some need => s1.cowStart o1 need
        | none =>
          match s1.moveWrites o1 x with
          | none => s1.endPoisoned o1 stKvFault slotOut
          | some ws =>
            match s1.pendingBlock (writeBlocks ws) with
            | some b => s1.opWaits n o1 b
            | none =>
              if s1.hbxBars n 8 (n / 32) rs || s1.hbxBarsWrites n 8 (n / 32) ws then s1
              else
              let r := ((s1.regulateAll n 8 (n / 32) rs).regulateWrites n 8 (n / 32) ws).store (s1.opTag o1) ws o1.id 0
              if r.2.isEmpty then r.1.putOp n { o1 with phase := .lanes, wrote := writeBlocks ws } else r.1.opReported n o1 stWatermark slotOut

/-- A LOAD or STORE accepted; it transfers at once unless Vat ordering or a block holds it (R129, R171). -/
def State.acceptMove (s : State) (n : Nat) (o : Op) : State :=
  let s1 := s.accept n o
  let o' := o.acceptedAt s.cyc
  match s1.decode o' with
  | some (st, det) => s1.endUntouched o' st det
  | none =>
    let s2 := s1.setCl n { (s1.cl n) with ls := (s1.cl n).ls ++ [o'] }
    if s2.blocked o' then s2 else s2.transfer n o'

/-- LOAD (R178). -/
def execQorazLoad (n : Nat) (s : State) : Host.Outcome State Fault Refusal :=
  match s.inboxOp n 8 with
  | some o => .next (s.start.acceptMove n o)
  | none => answer false s s
/-- STORE (R178). -/
def execQorazStore (n : Nat) (s : State) : Host.Outcome State Fault Refusal :=
  match s.inboxOp n 9 with
  | some o => .next (s.start.acceptMove n o)
  | none => answer false s s

/-- The phase of an operation, as a test. -/
def Op.isAccepted (o : Op) : Bool := match o.phase with | .accepted => true | _ => false
def Op.isLanes (o : Op) : Bool := match o.phase with | .lanes => true | _ => false
def Op.isEnded (o : Op) : Bool := match o.phase with | .ended => true | _ => false

/-- LOAD_STORE_COMPLETE (R184, R397): the i-th incomplete LOAD or STORE of a cluster finishes its transfer and completes, the message under epoch
ep. -/
def execLoadStoreComplete (n i ep : Nat) (s : State) : Host.Outcome State Fault Refusal :=
  if ep ≠ s.epoch n then answer (decide (n < 64)) s (s.start.staleDrop n)
  else match (s.cl n).ls[i]? with
  | none => answer false s s
  | some o =>
    if o.isLanes then .next (s.start.finish { o with status := stOk })
    else if o.isAccepted && o.waitBlock.isNone && !s.blocked o then
      let t := s.start.transfer n o
      match (t.cl n).ls.find? (fun e => e.id == o.id) with
      | some o' => .next (if o'.isLanes then t.finish { o' with status := stOk } else t)
      | none => .next t
    else answer false s s

/-! ## Curve slots and lane phases -/

/-- The first Beater operation whose curve record is still to load and that waits for no earlier operation (R129). -/
def State.curveLoad (s : State) (n : Nat) : Option (Op × Nat) :=
  ((s.cl n).btr.find? (fun o => s.needsCurve n o && !s.blocked o)).bind (fun o => (curveAddr o.desc (s.opCtx o)).map (fun a => (o, a)))

/-- CURVE_SLOT_LOAD_DONE's effect (R141): the DIM0 bytes of the record tested and loaded into a slot; a record that fails R138 completes the
operation with BAD_CURVE and leaves its slot invalid; one whose own length is not DIM0 (R173) with BAD_TENSOR (DEDUCED, log 80). -/
def State.loadCurve (s : State) (n : Nat) (o : Op) (a : Nat) : State :=
  let size := ((s.opCtx o).t slotAux).d0
  let s1 := s.bump (CLU_BTR_CURVE_MISS.COUNT n) 1
  match s1.scanBlocks o.desc.acceptProv false (rangeBlocks a size) with
  | .wait b => s.opWaits n o b
  | .stop st b =>
    if st = stWatermark then (s1.checkRead b o.id 0).1.opReported n o st slotAux else s1.btrEnd n (o.blamed (s1.blameOf b)) st slotAux true
  | .ok prov =>
    let s2 := s1.noteReads (rangeBlocks a size) o.id 0
    let bs := s2.bytesAt a size
    let s3 := s2.putOp n { o with provIn := o.provIn || prov, waitBlock := none }
    let s4 := s3.setCl n { (s3.cl n) with slots := keepSlot (s3.curveRefs n) ⟨a, bs⟩ (s3.cl n).slots }
    if curveOk bs && curveBytes (leAt bs 2 1) == size then s4
    else (s4.setCl n { (s4.cl n) with slots := (s4.cl n).slots.filter (fun e => e.addr != a) }).btrEnd n o
      (if curveOk bs then stBadTensor else stBadCurve) (if curveOk bs then slotAux else 0) false

/-- CURVE_SLOT_LOAD_DONE (R141). -/
def execCurveSlotLoadDone (n : Nat) (s : State) : Host.Outcome State Fault Refusal :=
  match s.curveLoad n with
  | some (o, a) => answer (o.waitBlock.isNone && s.cluUp n) s (s.start.loadCurve n o a)
  | none => answer false s s

/-- What a Beater operation computes from memory (chapter 04). -/
def beaterResult (rd : Rd) (pad : Nat → Nat) (curve prm : List Byte) (d : OpDesc) (x : OpCtx) : BRes :=
  match d.opcode with
  | 0x10 => ewResult rd pad curve d x
  | 0x11 => convertResult rd pad curve d x
  | 0x12 => curveResult rd pad curve d x
  | 0x13 => reduceResult rd pad d x
  | 0x14 => normResult rd pad d x
  | 0x15 => splitkResult rd pad d x
  | 0x16 => dotResult rd pad curve d x
  | 0x17 => windowResult rd pad curve d x
  | 0x18 => attnExpResult rd pad d x
  | 0x19 => attnMergeResult rd d x
  | 0x1A => attnNormResult rd pad d x
  | 0x1B => boxDecodeResult rd pad prm d x
  | 0x1C => nmsResult rd d x
  | 0x1D => stateStepResult rd pad d x
  | _ => ⟨[], false, 0⟩

/-- Input slots of a Beater operation with their blocks, the curve record's apart (it is read when its slot is loaded). -/
def State.btrInputs (s : State) (o : Op) : List (Nat × List Nat) :=
  let d := o.desc
  let x := s.opCtx o
  ((readSlots d).filter (fun i => !(i == slotAux && d.curveEn))).map (fun i => (i, blocksOf (slotRanges d x i)))

/-- The Beater operation whose lane phase comes next: every older one is past its accepting phase. -/
def State.laneNext (s : State) (n : Nat) : Option Op :=
  match (s.cl n).btr.find? Op.isAccepted with
  | some o => if s.needsCurve n o || o.waitBlock.isSome || s.blocked o || !s.cluUp n then none else some o
  | none => none

/-- The curve record an operation uses is cached with another length than its descriptor names (R173). -/
def State.curveLength (s : State) (n : Nat) (o : Op) : Bool :=
  match (curveAddr o.desc (s.opCtx o)).bind (s.cl n).curve with | some e => e.bytes.length != ((s.opCtx o).t slotAux).d0 | none => false

/-- LANE_PHASE_START's effect: inputs tested (R189, R190), the result computed and written with the operation's tags. -/
def State.runLanes (s : State) (n : Nat) (o : Op) : State :=
  let d := o.desc
  let x := s.opCtx o
  let ins := s.btrInputs o
  if s.curveLength n o then s.btrEnd n o stBadTensor slotAux false
  else match s.scanSlots d.acceptProv o.provIn ins with
  | (.wait b, _) => s.opWaits n o b
  | (.stop st b, i) =>
    if st = stWatermark then (s.checkRead b o.id 0).1.opReported n o st i else s.btrEnd n (o.blamed (s.blameOf b)) st i true
  | (.ok prov, _) =>
    let s1 := s.noteReads ((ins.map (·.2)).flatten) o.id 0
    let curve := match (curveAddr d x).bind (s1.cl n).curve with | some e => e.bytes | none => []
    let prm := if d.opcode = 0x1B then s1.bytesAt ((x.t slotAux).phys x.clu) 32 else []
    let base := s1.freeCtr
    let res := beaterResult s1.byte (fun i => (Config.freeValue 32 (base + i)).toNat) curve prm d x
    let o1 := { o with phase := .lanes, provIn := prov, invalid := res.invalid, emptyRed := d.opcode == 0x16 && d.k == 0,
                       wrote := writeBlocks res.writes }
    if s.hbxBarsWrites n 8 (n / 32) res.writes then s
    else
    let s2 := ((s1.regulateWrites n 8 (n / 32) res.writes).store (s1.opTag o1) res.writes o1.id 0).1.tookFree ((x.t slotOut).rows * 32 + 64)
    let s3 := match curveAddr d x with | some a => s2.setCl n ((s2.cl n).touch a) | none => s2
    (s3.bump (CLU_BTR_SMX_EMPTY.COUNT n) res.zeroRows).putOp n o1

/-- LANE_PHASE_START (R753); stall: cycles its accesses waited for banks the Calender had taken (R130). -/
def execLanePhaseStart (n stall : Nat) (s : State) : Host.Outcome State Fault Refusal :=
  match s.laneNext n with
  | some o => .next ((s.start.bump (CLU_BTR_VAT_STALL.STALL_CYCLES n) stall).runLanes n o)
  | none => answer false s s

/-- BEATER_OP_COMPLETE (R397, R753): the oldest Beater operation completes, the message under epoch ep. -/
def execBeaterOpComplete (n ep : Nat) (s : State) : Host.Outcome State Fault Refusal :=
  if ep ≠ s.epoch n then answer (decide (n < 64)) s (s.start.staleDrop n)
  else match (s.cl n).btr with
  | o :: _ =>
    if o.isLanes then
      let t := if o.emptyRed then s.start.bump (CLU_CAL_EMPTY_RED.COUNT n) 1 else s.start
      .next (t.finish { o with status := stOk })
    else answer (o.isEnded && !o.reported) s (s.start.finish o)
  | [] => answer false s s

/-! ## The Calender (R98–R108) -/

/-- Banks taken by chains holding or draining. -/
def Cluster.bankBusy (c : Cluster) (b : Nat) : Bool := c.held.any (fun h => h.bank == b) || (match c.drain with | some h => h.bank == b | none => false)

/-- The Calender operation whose next chain comes next: the oldest with chains not begun. -/
def State.calNext (s : State) (n : Nat) : Option Op :=
  (s.cl n).cal.find? (fun o => decide (o.begun < calChains o.desc) && !o.reported)

/-- A chain may begin (R99): none accumulates, its bank is free, and no earlier operation conflicts. -/
def State.mayBegin (s : State) (n : Nat) (o : Op) : Bool :=
  (s.cl n).acc.isNone && !(s.cl n).bankBusy (s.cl n).nextBank && !s.blocked o

/-- The next chain begins: its bank cleared (R98), the credit at 0 for an operation's first chain (R104). -/
def State.beginChain (s : State) (n : Nat) (o : Op) : State :=
  let c := s.cl n
  let ch : Chain := ⟨o.id, o.begun, c.nextBank, 0, clearRows o.desc o.begun, false⟩
  (s.setCl n { c with acc := some ch, lastBank := c.nextBank, nextBank := 1 - c.nextBank,
                      credit := if o.begun = 0 then 0 else c.credit }).putOp n { o with begun := o.begun + 1 }

/-- The operation and the chain that accumulate (R99, R118): the chain begun, else the one that begins as soon as it is asked for its first work
cycle, whether or not that cycle's operands or credit are there. -/
def State.accumulating (s : State) (n : Nat) : Option (Op × Chain) :=
  match (s.cl n).acc with
  | some ch => ((s.cl n).cal.find? (fun o => o.id == ch.op)).map (fun o => (o, ch))
  | none => (s.calNext n).bind (fun o =>
      if s.mayBegin n o then some (o, ⟨o.id, o.begun, (s.cl n).nextBank, 0, clearRows o.desc o.begun, false⟩) else none)

/-- The state in which a work cycle may occur: the chain accumulating, begun now if need be. -/
def State.readyChain (s : State) (n : Nat) : Option (State × Op × Chain) :=
  let found := fun (t : State) (ch : Chain) => ((t.cl n).cal.find? (fun o => o.id == ch.op)).map (fun o => (t, o, ch))
  match (s.cl n).acc with
  | some ch => found s ch
  | none =>
    match s.calNext n with
    | some o => if s.mayBegin n o then
        let t := s.beginChain n o
        match (t.cl n).acc with | some ch => found t ch | none => none
      else none
    | none => none

/-- The operands of the next work cycle are present: no earlier operation conflicts with the pass's bytes (R169). -/
def State.operandsPresent (s : State) (o : Op) (ch : Chain) : Bool :=
  let d := o.desc
  let x := s.opCtx o
  d.kchunk == 0 || !s.conflicts o (passRanges d x ch.idx (ch.cycles / passCycles d x)) []

/-- Blocks of A and of B that the next work cycle of a chain reads (R95). -/
def cycleBlocks (d : OpDesc) (x : OpCtx) (ch : Chain) : List (Nat × List Nat) :=
  let w := ch.cycles / cyclesPerStep (x.fmt slotA) (x.fmt slotB)
  let kps := kPerStep (x.fmt slotA) (x.fmt slotB) d.sparseA
  let k0 := Nat.min (w * kps) d.k
  let k1 := Nat.min ((w + 1) * kps) d.k
  [(slotA, blocksOf (chainA d x ch.idx k0 k1)), (slotB, blocksOf (chainB d x ch.idx k0 k1))]

/-- The chain accumulating on a cluster waits for the operands of its next work cycle, and not for its issue rate (R119). -/
def State.stalls (s : State) (n : Nat) : Bool :=
  match s.accumulating n with
  | some (o, ch) =>
    let x := s.opCtx o
    decide (0 < s.issueQ n) && decide (ch.cycles < calT o.desc x)
      && (!s.operandsPresent o ch || (s.pendingBlock ((cycleBlocks o.desc x ch).flatMap (·.2))).isSome)
  | none => false

/-- The cycles of the k nanoseconds to come count as stalls on every cluster that waits for operands (R119): CLK_x_CLU runs at OP_MHZ (R691). -/
def State.stallTick (s : State) (k : Nat) : State :=
  (s.clusters.filter (fun e => s.stalls e.1)).foldl (fun (t : State) e =>
    t.bump (CLU_CAL_STALL.STALL_CYCLES e.1) (s.cyclesIn 0 1300 s.cyc (s.cyc + k))) s

/-- The oldest operation a cluster has accepted and not completed (R400). -/
def State.oldestOp (s : State) (n : Nat) : Option Op :=
  let c := s.cl n
  leastBy (fun (o : Op) => [o.acceptTime, o.id]) (c.cal ++ c.btr ++ c.ls)

/-- The watchdogs count the k nanoseconds to come, each on the oldest operation of its cluster, but not at issue rate 0 nor while it waits on a block
being filled (R400). -/
def State.wdogTick (s : State) (k : Nat) : State :=
  { s with clusters := s.clusters.map (fun e =>
      match s.oldestOp e.1 with
      | some o => if 0 < s.issueQ e.1 ∧ o.waitBlock.isNone then (e.1, { e.2 with wdog := e.2.wdog + k }) else e
      | none => e) }

/-- The credit of R104 after a work cycle: it reaches 64 in the fewest cycles that add q, and 64 is subtracted. -/
def State.spendCredit (s : State) (n : Nat) : State :=
  let q := s.issueQ n
  let c := s.cl n
  s.setCl n { c with credit := c.credit + Nat.max 1 (ceilDiv (64 - c.credit) q) * q - 64 }

/-- One work cycle of a chain (R71, R94, R95): inputs tested, and on the last cycle of a step the accumulation. A block being filled holds it
back without a credit. -/
def State.workCycle (s : State) (n : Nat) (o : Op) (ch : Chain) : State :=
  let d := o.desc
  let x := s.opCtx o
  let cps := cyclesPerStep (x.fmt slotA) (x.fmt slotB)
  match s.scanSlots d.acceptProv o.provIn (cycleBlocks d x ch) with
  | (.stop st b, i) => s.endPoisoned (o.blamed (s.blameOf b)) st i
  | (.wait b, _) => s.opWaits n o b
  | (.ok prov, _) =>
    let s := s.spendCredit n
    let rows := if (ch.cycles + 1) % cps = 0 then tileStep s.byte d x ch.idx (ch.cycles / cps) ch.rows else ch.rows
    let s1 := if prov then (s.meetProv o prov).putOp n { o with provIn := true } else s
    s1.setCl n { (s1.cl n) with acc := some { ch with cycles := ch.cycles + 1, rows := rows } }

/-- WORK_CYCLE (R104): the credit reaches 64 after the fewest possible cycles, and a work cycle occurs. -/
def execWorkCycle (n : Nat) (s : State) : Host.Outcome State Fault Refusal :=
  match s.start.readyChain n with
  | none => answer false s s
  | some (t, o, ch) =>
    answer (t.cluUp n && decide (0 < t.issueQ n) && decide (ch.cycles < calT o.desc (t.opCtx o)) && t.operandsPresent o ch) s (t.workCycle n o ch)

/-- The chain that ends its accumulation now: all work cycles done; a chain of K = 0 ends as it begins (R107). -/
def State.endingChain (s : State) (n : Nat) : Option (State × Chain) :=
  match s.readyChain n with
  | some (t, o, ch) => if ch.cycles = calT o.desc (t.opCtx o) then some (t, ch) else none
  | none => none

/-- CHAIN_ACCUMULATION_END (R99): the bank freezes and holds until the drain path is free. -/
def execChainAccumulationEnd (n : Nat) (s : State) : Host.Outcome State Fault Refusal :=
  match s.start.endingChain n with
  | some (t, ch) => answer (t.cluUp n) s (t.setCl n { (t.cl n) with acc := none, held := (t.cl n).held ++ [ch] })
  | none => answer false s s

/-- A drained row's comparison, its counters and its report (R84, R113, R122). -/
def State.checkRow (s : State) (n : Nat) (o : Op) (d : OpDesc) (x : OpCtx) (c r : Nat) (row : RowAcc) : State :=
  match rowCheck (x.fmt slotB).checkC (calSteps d x) row with
  | .pass => s
  | .skip =>
    let t := s.bump (CLU_CAL_SKIP_CHECK.COUNT n) 1
    match (t.cl n).cal.find? (fun e => e.id == o.id) with | some e => t.putOp n { e with skip := true } | none => t
  | .fail =>
    let t := (((s.bump (CLU_CAL_CHECK_LOG.FAIL_COUNT n) 1).setF (CLU_CAL_CHECK_LOG.VALID n) 1).setF (CLU_CAL_CHECK_LOG.LAST_ROW n) r).report
      ⟨0x04, n, n, o.id, 0, 0, 0, 0, r, c⟩
    match (t.cl n).cal.find? (fun e => e.id == o.id) with
    | some e => if e.reported then t else t.putOp n { e with reported := true, status := stCheckFail, detail := r }
    | none => t

/-- The byte writes of a drain, INVALID, and whether a KV page is missing (R101, R108, R181). -/
def State.drainWrites (s : State) (o : Op) (x : OpCtx) (ch : Chain) : List (Addr × Byte) × Bool × Bool :=
  let d := o.desc
  let out := x.t slotOut
  let f := x.fmt slotOut
  if out.mode = 2 then
    let sl := s.kvSlots out x.clu
    let eb := elemBytes f
    let cells := (List.range ch.rows.length).flatMap (fun r =>
      let i := tileRow0 d ch.idx + r
      let cs := drainCodes s.byte d x ch.idx r (getAt ⟨[], .zero, .zero⟩ ch.rows r)
      (List.range cs.1.length).map (fun j =>
        let hit := s.kvWrite o out f (getAt 0 sl (tileCol0 d ch.idx + j)) 0 (i / out.d0)
        (hit, i % out.d0, getAt 0 cs.1 j, cs.2)))
    (cells.flatMap (fun c => match c.1 with | .at a => placed (a + c.2.1 * eb) (leBytes eb c.2.2.1) | _ => []),
      cells.any (fun c => c.2.2.2), cells.any (fun c => c.1 == .fault))
  else
    let base := s.freeCtr
    let res := BRes.join ((List.range ch.rows.length).map (fun r =>
      drainRow s.byte (fun i => (Config.freeValue 32 (base + i)).toNat) d x ch.idx r (getAt ⟨[], .zero, .zero⟩ ch.rows r)))
    (res.writes, res.invalid, false)

/-- The draining chain's rows written: C and bias tested, pages found, shared sheets copied first (R113, R181, R284). -/
def State.writeDrain (s : State) (n : Nat) (o : Op) (ch : Chain) : State :=
  let d := o.desc
  let x := s.opCtx o
  let out := x.t slotOut
  let ins := ([slotC, slotBias].filter (fun i => getAt false d.used i)).map (fun i => (i, blocksOf (slotRanges d x i)))
  match s.scanSlots d.acceptProv o.provIn ins with
  | (.stop st b, i) => s.endPoisoned (o.blamed (s.blameOf b)) st i
  | (.wait b, _) => s.opWaits n o b
  | (.ok prov, _) =>
    match s.pendingBlock (s.walkBlocks o) with
    | some b => s.opWaits n o b
    | none =>
    let w := s.drainWrites o x ch
    if w.2.2 then s.endPoisoned o stKvFault slotOut
    else match (if out.mode = 2 then s.cowNeed o out (x.fmt slotOut) else none) with
      | some need => s.cowStart o need
      | none => match s.pendingBlock (writeBlocks w.1) with
        | some b => s.opWaits n o b
        | none =>
          if s.hbxBarsWrites n 8 (n / 32) w.1 then s
          else
          let o1 := { o with provIn := o.provIn || prov, invalid := o.invalid || w.2.1, waitBlock := none, wrote := o.wrote ++ writeBlocks w.1 }
          let r := (((s.meetProv o o1.provIn).putOp n o1).regulateWrites n 8 (n / 32) w.1).store (s.opTag o1) w.1 o1.id 0
          let t := r.1.tookFree (256 * 32 + 32)
          let t := t.setCl n { (t.cl n) with drain := some { ch with written := true } }
          if r.2.isEmpty || o1.reported then t else t.opReported n o1 stWatermark slotOut

/-- The physical rows that stand for logical rows 0–255, and the physical columns that stand for logical columns 0–31 and the check column, in
order (R114): the lowest that no skip entry names. -/
def State.physRows (s : State) (n : Nat) : List Nat :=
  ((List.range 264).filter (fun r => !(List.range 8).any (fun j => s.flag (CLU_ROW_SKIP.VALID n j) && s.fld (CLU_ROW_SKIP.PHYS_ROW n j) == r))).take 256
def State.physCols (s : State) (n : Nat) : List Nat :=
  ((List.range 35).filter (fun c => !(List.range 2).any (fun j => s.flag (CLU_COL_SKIP.VALID n j) && s.fld (CLU_COL_SKIP.PHYS_COL n j) == c))).take 33

/-- Faults of physical cells, as the logical cells they strike: lines beyond the mapped ones are clock-gated and take no part (R114). -/
def State.logicalUps (s : State) (n : Nat) (ups : List (Nat × Nat × Nat)) : List (Nat × Nat × Nat) :=
  ups.filterMap (fun u => ((s.physRows n).idxOf? u.1).bind (fun r => ((s.physCols n).idxOf? u.2.1).map (fun c => (r, c, u.2.2))))

/-- DRAIN_START (R101, R102): the oldest finished bank drains; ups: accumulator bits turned over by a fault, as (physical row, physical column,
mask), those of the padded columns among them, which the row sum takes in (R82). Of an edge tile the rows 0 to m − 1 are compared; R108 gives the others no accumulator contents, and whether their zeros times a NaN or an
infinity of B are compared or counted the spec does not say: the model does neither (DESIGN CHOICE, log 78). -/
def execDrainStart (n : Nat) (ups : List (Nat × Nat × Nat)) (s : State) : Host.Outcome State Fault Refusal :=
  match (s.cl n).drain, (s.cl n).held with
  | none, ch :: rest =>
    match (s.cl n).cal.find? (fun o => o.id == ch.op) with
    | none => answer false s s
    | some o =>
      let x := s.opCtx o
      let rows := (List.range ch.rows.length).map (fun r => upsetRow r (s.logicalUps n ups) (getAt ⟨[], .zero, .zero⟩ ch.rows r).padded)
      let ch1 := { ch with rows := rows.map (fun w => { w with accs := w.accs.take (tileCols o.desc ch.idx) }) }
      let t := s.start.setCl n { (s.cl n) with drain := some ch1, held := rest }
      let t := (List.range rows.length).foldl (fun u r => u.checkRow n o o.desc x ch.idx r (getAt ⟨[], .zero, .zero⟩ rows r)) t
      match (t.cl n).cal.find? (fun e => e.id == o.id) with
      | some o1 => answer (s.pdOn (pdClu n)) s (t.writeDrain n o1 ch1)
      | none => .next t
  | _, _ => answer false s s

/-- The drain path frees (R99): the bank is free and the operation has one chain more behind it. -/
def State.drained (s : State) (n : Nat) (ch : Chain) : State :=
  let c := s.cl n
  let t := s.setCl n { c with drain := none }
  match c.cal.find? (fun o => o.id == ch.op) with
  | some o => t.putOp n { o with drained := o.drained + 1 }
  | none => t

/-- DRAIN_COMPLETE (R101): the last row is written; a drain that waited for a page or block writes its rows first. -/
def execDrainComplete (n : Nat) (s : State) : Host.Outcome State Fault Refusal :=
  match (s.cl n).drain with
  | none => answer false s s
  | some ch =>
    if ch.written then .next (s.start.drained n ch)
    else match (s.cl n).cal.find? (fun o => o.id == ch.op) with
      | none => answer false s s
      | some o =>
        if o.waitBlock.isSome then answer false s s
        else
          let t := s.start.writeDrain n o ch
          .next (match (t.cl n).drain with | some c => if c.written then t.drained n c else t | none => t)

/-- The Calender operation all of whose chains have drained. -/
def State.calDone (s : State) (n : Nat) : Option Op :=
  (s.cl n).cal.find? (fun o => decide (o.drained = calChains o.desc) && !o.reported)

/-- CALENDER_OP_COMPLETE (R102, R397): it completes OK, the message under epoch ep; with K = 0 EMPTY_RED counts (R107). -/
def execCalenderOpComplete (n ep : Nat) (s : State) : Host.Outcome State Fault Refusal :=
  if ep ≠ s.epoch n then answer (decide (n < 64)) s (s.start.staleDrop n)
  else match s.calDone n with
  | some o =>
    let er := decide (o.desc.k = 0)
    let t := if er then s.start.bump (CLU_CAL_EMPTY_RED.COUNT n) 1 else s.start
    .next (t.finish { o with status := stOk, emptyRed := er })
  | none => answer false s s

/-- COW_COPY_COMPLETE (R284): copy i is complete; what waited on it counts T1_COPY (R350). -/
def execCowCopyComplete (i : Nat) (s : State) : Host.Outcome State Fault Refusal :=
  match s.cows[i]? with
  | some c =>
    answer (c.mover.isSome && (s.pendingBlock (sheetBlocks c.old)).isNone && !s.cowHeld c) s (s.start.finishCow c).pump
  | none => answer false s s

/-! ## In-field repair (R114–R117) -/

/-- The first skip entry of a kind not in force. -/
def State.freeRowSkip (s : State) (n : Nat) : Option Nat := (List.range 8).find? (fun j => !s.flag (CLU_ROW_SKIP.VALID n j))
def State.freeColSkip (s : State) (n : Nat) : Option Nat := (List.range 2).find? (fun j => !s.flag (CLU_COL_SKIP.VALID n j))

/-- The spare a pending repair uses (R115): a row entry for a fault of a row or a cell while one is free, else a column entry for a fault of a
column or a cell; none: no spare of the needed kind remains. -/
def State.repairSpare (s : State) (n : Nat) : Option (Bool × Nat) :=
  match (if s.flag (ITG_FT_RESULT.FAULT_ROW_VALID n) then s.freeRowSkip n else none) with
  | some j => some (true, j)
  | none => ((if s.flag (ITG_FT_RESULT.FAULT_COL_VALID n) then s.freeColSkip n else none)).map (fun j => (false, j))

/-- The record committed: one record less, PENDING clear, and where its commit bit verifies the entry in force (R116). -/
def State.commitRepair (s : State) (n : Nat) (ok : Bool) : State :=
  let t := (s.setF (CLU_CAL_REPAIR.PENDING n) 0).setF (CLU_CAL_REPAIR.RECORDS_LEFT n) (s.fld (CLU_CAL_REPAIR.RECORDS_LEFT n) - 1)
  match (if ok then s.repairSpare n else none) with
  | some (true, j) =>
    (((t.setF (CLU_ROW_SKIP.VALID n j) 1).setF (CLU_ROW_SKIP.FIELD n j) 1).setF (CLU_ROW_SKIP.PHYS_ROW n j)
      (s.fld (ITG_FT_RESULT.FAULT_ROW n))).setF (CLU_CAL_REPAIR.ROWS_USED n) (s.fld (CLU_CAL_REPAIR.ROWS_USED n) + 1)
  | some (false, j) =>
    (((t.setF (CLU_COL_SKIP.VALID n j) 1).setF (CLU_COL_SKIP.FIELD n j) 1).setF (CLU_COL_SKIP.PHYS_COL n j)
      (s.fld (ITG_FT_RESULT.FAULT_COL n))).setF (CLU_CAL_REPAIR.COLS_USED n) (s.fld (CLU_CAL_REPAIR.COLS_USED n) + 1)
  | none => t.setF (CLU_CAL_REPAIR.REPAIR_FAIL n) 1

end Sys2Proof.Machine
end

