-- ==== Sys2Proof/Machine/IntegrityCmds.lean ====
section
/-! DEFINITION. The commands and events of the integrity controller (chapter 11). -/
namespace Sys2Proof.Machine

/-! ## Reports -/

/-- A report from a checker outside this model's own (R389) is possible: a kind of R406, a cluster or unit that exists, and for a
cluster check a cluster in service or draining, quarantined, under test or retired alike (R398). -/
def reportOk (r : Report) : Bool :=
  (decide (1 ≤ r.kind ∧ r.kind ≤ 8) || r.kind == 0x0D || r.kind == 0x11) && (!quarantines r.kind || decide (r.clu < 64)) && decide (r.unit < 256)
    && (r.kind != 0x0D || decide (0x80 ≤ r.detail ∧ r.detail ≤ 0xFF))

/-- The engine (1–5) that has taken the operation with an identity, and the code with which an engine reports its own faults (R455, R481, R525). -/
def State.engineOf (s : State) (id : Nat) : Option Nat :=
  if id = 0 then none else (s.engines.find? (fun e => (e.2.main.toList ++ e.2.load.toList).any (fun o => o.id == id))).map (·.1)
def engineCode (e : Nat) : Nat := if e ≤ 2 then 0x8B else if e ≤ 4 then 0x9D else 0xA4

/-- A report from outside fits the operation it names: an engine fault carries the code of the engine that runs it, and of the other checks
outside the memory only parity can fail an engine's operation, since no other status is ever written for one (R194, R454, R480, R526). -/
def State.reportFits (s : State) (r : Report) : Bool :=
  match s.engineOf r.op with
  | some e => decide (5 ≤ r.kind ∧ r.kind ≤ 7) || (r.kind == 0x0D && r.detail == engineCode e)
  | none => r.kind != 0x0D || r.op == 0

/-- CHECK_FAILURE_REPORT (R392): the oldest report of this model's own checks, or one from a checker outside. -/
def execCheckFailureReport (ext : Option Report) (s : State) : Host.Outcome State Fault Refusal :=
  match ext, s.reports with
  | some r, _ => answer (reportOk r && s.reportFits r) s (s.start.onReport r)
  | none, r :: rest => .next ({ s.start with reports := rest }.onReport r)
  | none, [] => answer false s s

/-- The operation on which the watchdog of a cluster has run out. -/
def State.watchdogOut (s : State) (n : Nat) : Option Op :=
  let w := s.fld ITG_POLICY.WDOG
  if w ≠ 0 ∧ s.svc n ≤ 1 ∧ w * 100000 ≤ (s.cl n).wdog then s.oldestOp n else none

/-- WATCHDOG_EXPIRY (R400): quarantine with broke kind HANG. -/
def execWatchdogExpiry (n : Nat) (s : State) : Host.Outcome State Fault Refusal :=
  match s.watchdogOut n with
  | some o => .next (s.start.onReport ⟨0x0B, n, n, o.id, 0, 0, 0, 0, 0, 0⟩)
  | none => answer false s s

/-- The control plane stops (R391): both slices stop dispatch, a record, the fatal-error interrupts. -/
def State.meshFatal (s : State) : State :=
  (({ s with dispatchStopped := true }.writeBroke (Broke.plain 0x0C)).pulse 2).emit (.mgtIrq 2)

/-- MESH_PARITY_ERROR (R391): a control-mesh message has failed parity tries times on one hop; before the fourth it is sent again. -/
def execMeshParityError (tries : Nat) (s : State) : Host.Outcome State Fault Refusal :=
  answer (tries != 0) s (if tries < 4 then s.start else s.start.meshFatal)

/-- HEADER_PARITY_ERROR (R391): a port found bad header parity in a message of unit u for an operation or a move: error response, and
a report. -/
def execHeaderParityError (u op move : Nat) (s : State) : Host.Outcome State Fault Refusal :=
  .next ((s.start.report ⟨0x06, u, if u < 64 then u else 64, op, move, 0, 0, 0, 0, 0⟩).say .parity)

/-! ## Provisional results -/

/-- Entry i of port p that has resolved or now resolves, and whether BROKE (true) or CONFIRMED (R409). -/
def State.resolvable (s : State) (p i : Nat) : Option (Tracker × Bool) :=
  match (s.trackersOf p)[i]? with
  | none => none
  | some t =>
    if t.done.isSome then some (t, false)
    else if t.spoiled || t.blocks.any (fun b => (s.tag b).poison) then some (t, true)
    else if !t.blocks.any (fun b => (s.tag b).prov) then some (t, false)
    else none

/-- TRACKER_RESOLVE (R409): entry i of port p resolves, or the notice of one that has resolved goes when the link is up. -/
def execTrackerResolve (p i : Nat) (s : State) : Host.Outcome State Fault Refusal :=
  match s.resolvable p i with
  | some (t, broke) =>
    (match t.done with
      | some (out, seq) => answer (s.noticeUp p) s (s.start.leaveTracker p i t out seq)
      | none => .next (s.start.resolve p i t broke))
  | none => answer false s s

/-- PROV_TIMEOUT (R409): an entry has been open for PROV_TIMEOUT. -/
def execProvTimeout (p i : Nat) (s : State) : Host.Outcome State Fault Refusal :=
  match (s.trackersOf p)[i]? with
  | some t => answer (t.done.isNone && decide (t.since + s.fld ITG_POLICY.PROV_TIMEOUT_MS * 1000000 ≤ s.cyc)) s (s.start.resolve p i t true)
  | none => answer false s s

/-! ## Field tests -/

/-- The in-service cluster whose last passed test is oldest, lowest index on equality (R424). -/
def State.oldestTest (s : State) : Option Nat :=
  leastBy (fun n => [Sparse.get (fun _ => 0) s.lastPass n, n]) ((List.range 64).filter (fun n => s.svc n == 0))

/-- The request a write of ITG_FT_REQ makes (R412, R424). -/
def State.ftWrite (s : State) (w : Word) : State :=
  let n := if bits w 31 31 = 1 then s.oldestTest else some (bits w 5 0)
  match n with
  | none => s.setF ITG_FT_STATUS.REJECT 1
  | some n =>
    if s.svc n = 5 then s.setF ITG_FT_STATUS.REJECT 1
    else
      let r := s.ftRequest n 3 (bits w 30 30 == 1)
      if r.2 then r.1.startDrains else s.setF ITG_FT_STATUS.REJECT 1

/-- FT_REQUEST (R412, R424). -/
def execFtRequest (m v : Nat) (s : State) : Host.Outcome State Fault Refusal :=
  s.write m ITG_FT_REQ.addr (s.start.ftWrite (BitVec.ofNat 32 v))

/-- SWEEP_TEST_DUE (R412): SWEEP_H hours have passed since the last passed test of an in-service cluster. -/
def execSweepTestDue (n : Nat) (s : State) : Host.Outcome State Fault Refusal :=
  let h := s.fld ITG_SWEEP.SWEEP_H
  answer (h != 0 && s.svc n == 0 && decide (Sparse.get (fun _ => 0) s.lastPass n + h * 3600000000000 ≤ s.cyc)
    && !s.ftQueue.any (fun r => r.clu == n) && decide (s.ftPending < 64)) s (s.start.ftRequest n 4 false).1.startDrains

/-- FIELD_TEST_START (R413, R414): the next request's cluster, at junction temperature tj in degrees. -/
def execFieldTestStart (tj : Int) (s : State) : Host.Outcome State Fault Refusal :=
  match s.ftNext with
  | some r => .next (s.start.startTest r.clu tj)
  | none => answer false s s

/-- The result of a test's first failure, for ITG_FT_RESULT. -/
def State.ftFail (s : State) (n srow : Nat) (nom : Bool) : State :=
  (s.setF (ITG_FT_RESULT.FAIL_AT_NOM n) (b2n nom)).setF (ITG_FT_RESULT.STRESS_ROW n) (if nom then 7 else srow)

/-- A located fault names a line in service or an unused spare (R411). -/
def State.faultPlace (s : State) (n : Nat) (row col : Option Nat) : Bool :=
  (row.isSome || col.isSome) && (match row with | some r => decide (r < 264) && !(List.range 8).any (fun j => s.flag (CLU_ROW_SKIP.VALID n j) && s.fld (CLU_ROW_SKIP.PHYS_ROW n j) == r) | none => true)
    && (match col with | some c => decide (c < 35) && !(List.range 2).any (fun j => s.flag (CLU_COL_SKIP.VALID n j) && s.fld (CLU_COL_SKIP.PHYS_COL n j) == c) | none => true)

/-- FIELD_TEST_END (R410, R415) of cluster n: out 0 pass, 1 located at a row, a column or a cell, 2 not located; nom, or else srow, says at which of
its points it failed first. -/
def execFieldTestEnd (n out : Nat) (row col : Option Nat) (srow : Nat) (nom : Bool) (s : State) : Host.Outcome State Fault Refusal :=
  let t := s.start
  let t := { t with ftPoints := Sparse.set (fun _ => []) t.ftPoints n [] }
  if s.svc n ≠ 3 ∨ (out ≠ 0 ∧ !nom ∧ !(s.pointsOf n).any (fun p => p.1 == srow)) then answer false s s
  else if out = 0 then .next (t.passTest n).startDrains
  else if out = 1 then answer (s.faultPlace n row col) s ((t.ftFail n srow nom).locateFault n row col)
  else .next ((t.ftFail n srow nom).retireCluster n 0x0E 2)

/-- REPAIR_RECORD_COMMIT (R115–R117, R415): the fuse record a located fault asked for is programmed; ok: its commit bit verifies. A
full test follows at class 1; a repair that fails retires the cluster. -/
def execRepairRecordCommit (n : Nat) (ok : Bool) (s : State) : Host.Outcome State Fault Refusal :=
  let t := s.start.commitRepair n ok
  answer (s.flag (CLU_CAL_REPAIR.PENDING n)) s
    (if ok && (s.repairSpare n).isSome then ((t.setSvc n 2).ftRequest n 1 false).1 else t.retireCluster n 0x0F 3)

/-! ## The broke ring -/

/-- A write of ITG_BROKE_HEAD pops records; refused whole when it pops more than there are (R221, R417). -/
def State.brokePop (s : State) (v : Nat) : State :=
  if s.brokeFill < wrapSub v (s.fld ITG_BROKE_HEAD.COUNT) then s else s.setF ITG_BROKE_HEAD.COUNT v

/-- A write of ITG_BROKE_STATUS: HEAD and TAIL are 0 when the ring is enabled (R217, R404, R418). -/
def State.brokeEnable (s : State) (w : Word) : State :=
  let t := s.setF ITG_BROKE_STATUS.EN (bits w 31 31)
  if bits w 31 31 = 1 ∧ !s.flag ITG_BROKE_STATUS.EN then (t.setF ITG_BROKE_HEAD.COUNT 0).setF ITG_BROKE_TAIL.COUNT 0 else t

/-- BROKE_HEAD_WRITE (R417). -/
def execBrokeHeadWrite (m v : Nat) (s : State) : Host.Outcome State Fault Refusal :=
  s.write m ITG_BROKE_HEAD.addr (s.start.brokePop v)

end Sys2Proof.Machine
end

