-- ==== Sys2Proof/Machine/MarlMath.lean ====
section
/-! DEFINITION. Marl's arithmetic (R461, R467–R471, R478, R479): sparse patterns, the LDLᵀ factor, one iteration and its check, and the dense
factors and solves. Every chain of multiply-adds runs in increasing index order. -/
namespace Sys2Proof.Machine

/-- An entry of a vector. -/
def vAt (l : List Num) (i : Nat) : Num := getAt .zero l i

/-- acc + Σ aᵢ·bᵢ, and acc − Σ aᵢ·bᵢ, one rounding a step. -/
def chainAdd (acc : Num) (l : List (Num × Num)) : Num := l.foldl (fun a p => fma32 p.1 p.2 a) acc
def chainSub (acc : Num) (l : List (Num × Num)) : Num := l.foldl (fun a p => fma32 p.1.neg p.2 a) acc

/-! ## Compressed sparse columns (R467) -/

/-- Entries of column c as (row, place). -/
def Csc.col (m : Csc) (c : Nat) : List (Nat × Nat) :=
  let b := getAt 0 m.ptr c
  (List.range (getAt 0 m.ptr (c + 1) - b)).map (fun i => (getAt 0 m.rows (b + i), b + i))

/-- Pointers from 0 to nnz, never falling; in each column rows strictly rising and good. -/
def Csc.ok (m : Csc) (c nnz : Nat) (good : Nat → Nat → Bool) : Bool :=
  getAt 1 m.ptr 0 == 0 && getAt (nnz + 1) m.ptr c == nnz
    && (List.range c).all (fun j =>
      let l := m.col j
      decide (getAt 0 m.ptr j ≤ getAt 0 m.ptr (j + 1) ∧ getAt 0 m.ptr (j + 1) ≤ nnz) && l.all (fun e => good j e.1)
        && (List.range (l.length - 1)).all (fun i => decide ((getAt (0, 0) l i).1 < (getAt (0, 0) l (i + 1)).1)))

/-- The place of entry (r, c), if the pattern has it. -/
def Csc.find (m : Csc) (r c : Nat) : Option Nat := ((m.col c).find? (fun e => e.1 == r)).map (·.2)

/-- A problem in numbers: sizes, patterns with values, permutation, σ, and the rows' −1/ρ. -/
structure Kkt where
  n : Nat
  m : Nat
  p : Csc
  pv : List Num
  a : Csc
  av : List Num
  perm : List Nat
  sigma : Num
  inv : List Num

/-- An entry of K, by original indices; none where it has no structural entry (R468). -/
def Kkt.entry (k : Kkt) (i j : Nat) : Option Num :=
  let lo := Nat.min i j
  let hi := Nat.max i j
  if hi < k.n then
    match k.p.find lo hi with
    | some e => some (if lo = hi then add32 (vAt k.pv e) k.sigma else vAt k.pv e)
    | none => if lo = hi then some (add32 .zero k.sigma) else none
  else if lo < k.n then (k.a.find (hi - k.n) lo).map (vAt k.av)
  else if lo = hi then some (vAt k.inv (lo - k.n)).neg
  else none

/-- The rows below j of column j of the permuted structure. -/
def Kkt.colBelow (k : Kkt) (j : Nat) : List Nat :=
  (List.range (k.n + k.m)).filter (fun i => decide (j < i) && (k.entry (getAt 0 k.perm i) (getAt 0 k.perm j)).isSome)

/-- The structure of L, column by column, with its fill-in. -/
def Kkt.structure (k : Kkt) : List (List Nat) :=
  (List.range (k.n + k.m)).foldl (fun cols j =>
    let fill := (List.range j).flatMap (fun c => if (getAt [] cols c).contains j then (getAt [] cols c).filter (fun i => decide (j < i)) else [])
    cols ++ [(List.range (k.n + k.m)).filter (fun i => (k.colBelow j ++ fill).contains i)]) []

/-- Every structural entry of L is in the pattern. -/
def Kkt.fits (k : Kkt) (l : Csc) : Bool :=
  (List.range (k.n + k.m)).all (fun j => (getAt [] k.structure j).all (fun i => (l.find i j).isSome))

/-! ## The factor (R469) -/

/-- A pivot fails its test: not of its expected sign, or smaller than PIVOT_MIN. -/
def pivotBad (pos : Bool) (min d : Num) : Bool :=
  (if pos then !(Num.zero.lt d) else !(d.lt Num.zero)) || d.abs.lt min

/-- A pivot after regularisation, none if it fails still or is a NaN, and whether DELTA was added. A NaN has no wrong sign and gets no DELTA. -/
def pivot (pos : Bool) (min delta d : Num) : Option Num × Bool :=
  if d.isNan then (none, false)
  else if !pivotBad pos min d then (some d, false)
  else
    let d' := add32 d (if pos then delta else delta.neg)
    (if d'.isNan || pivotBad pos min d' then none else some d', true)

/-- A factor in the making: columns of L as (row, value), D, pivots regularised. -/
structure Ldl where
  cols : List (List (Nat × Num))
  d : List Num
  reg : Nat

def colVal (c : List (Nat × Num)) (i : Nat) : Option Num := (c.find? (fun e => e.1 == i)).map (·.2)

/-- Column j, left-looking: entry (i, j) less Σₖ L[i,k]·(L[j,k]·D[k]), k rising, then divided by the pivot; else the pivots regularised, one
that fails among them. -/
def ldlColumn (rows : List Nat) (entry : Nat → Num) (pos : Bool) (min delta : Num) (j : Nat) (f : Ldl) : Except Nat Ldl :=
  let ks := (List.range f.cols.length).filterMap (fun k => (colVal (getAt [] f.cols k) j).map (fun v => (k, mul32 v (vAt f.d k))))
  let acc := fun (i : Nat) => ks.foldl (fun a kw => match colVal (getAt [] f.cols kw.1) i with
    | some v => fma32 kw.2.neg v a
    | none => a) (entry i)
  let p := pivot pos min delta (acc j)
  match p.1 with
  | none => .error (f.reg + b2n p.2)
  | some d => .ok ⟨f.cols ++ [rows.map (fun i => (i, div32 (acc i) d))], f.d ++ [d], f.reg + b2n p.2⟩

/-- Columns j on; the number of the pivot that fails, with the pivots regularised so far. -/
def ldlFrom (rows : Nat → List Nat) (entry : Nat → Nat → Num) (pos : Nat → Bool) (min delta : Num) : List Nat → Ldl → Except (Nat × Nat) Ldl
  | [], f => .ok f
  | j :: js, f => match ldlColumn (rows j) (fun i => entry i j) (pos j) min delta j f with
    | .error regs => .error (j, regs)
    | .ok g => ldlFrom rows entry pos min delta js g

/-- The factor of a problem over its pattern; cut: only its first columns. -/
def Kkt.factor (k : Kkt) (l : Csc) (min delta : Num) (cut : Option Nat) : Except (Nat × Nat) Ldl :=
  ldlFrom (fun j => (l.col j).map (·.1)) (fun i j => (k.entry (getAt 0 k.perm i) (getAt 0 k.perm j)).getD .zero)
    (fun j => decide (getAt 0 k.perm j < k.n)) min delta ((List.range (k.n + k.m)).take (cut.getD (k.n + k.m))) ⟨[], [], 0⟩

/-- L·D·Lᵀ x = b. -/
def ldlSolve (cols : List (List (Nat × Num))) (d b : List Num) : List Num :=
  let n := d.length
  let y := (List.range n).foldl (fun (y : List Num) i =>
    y ++ [chainSub (vAt b i) ((List.range i).filterMap (fun k => (colVal (getAt [] cols k) i).map (fun v => (v, vAt y k))))]) []
  let w := (List.range n).map (fun i => div32 (vAt y i) (vAt d i))
  (List.range n).reverse.foldl (fun (x : List Num) i =>
    setAt x i (chainSub (vAt w i) ((getAt [] cols i).map (fun e => (e.2, vAt x e.1))))) w

/-! ## The iteration (R470, R471) -/

/-- Vectors of a solve. -/
structure Iterate where
  x : List Num
  z : List Num
  y : List Num

/-- What a solve works with: sizes, permutation, factor, σ, α, per-row ρ and 1/ρ, q, l, u. -/
structure SolveIn where
  k : Kkt
  cols : List (List (Nat × Num))
  d : List Num
  alpha : Num
  rho : List Num
  q : List Num
  lo : List Num
  hi : List Num

/-- Place i of a permuted vector's original. -/
def unperm (perm : List Nat) (v : List Num) (i : Nat) : Num := vAt v ((perm.takeWhile (fun e => e != i)).length)

/-- a·u + b·v: the first product rounded, the second fused. -/
def blend (a u b v : Num) : Num := fma32 b v (mul32 a u)

/-- One iteration. -/
def SolveIn.next (p : SolveIn) (it : Iterate) : Iterate :=
  let n := p.k.n
  let m := p.k.m
  let inv := p.k.inv
  let rx := (List.range n).map (fun i => fma32 p.k.sigma (vAt it.x i) (vAt p.q i).neg)
  let rz := (List.range m).map (fun i => fma32 (vAt it.y i).neg (vAt inv i) (vAt it.z i))
  let rhs := rx ++ rz
  let sol := ldlSolve p.cols p.d (p.k.perm.map (vAt rhs))
  let xt := (List.range n).map (unperm p.k.perm sol)
  let nu := (List.range m).map (fun i => unperm p.k.perm sol (n + i))
  let zt := (List.range m).map (fun i => fma32 (sub32 (vAt nu i) (vAt it.y i)) (vAt inv i) (vAt it.z i))
  let one := sub32 (.ofNat 1) p.alpha
  let x := (List.range n).map (fun i => blend p.alpha (vAt xt i) one (vAt it.x i))
  let zr := (List.range m).map (fun i => blend p.alpha (vAt zt i) one (vAt it.z i))
  let z := (List.range m).map (fun i => ((fma32 (vAt it.y i) (vAt inv i) (vAt zr i)).max (vAt p.lo i)).min (vAt p.hi i))
  let y := (List.range m).map (fun i => fma32 (vAt p.rho i) (sub32 (vAt zr i) (vAt z i)) (vAt it.y i))
  ⟨x, z, y⟩

/-- The largest magnitude of a vector, NaN when it holds one. -/
def normInf (l : List Num) : Num := l.foldl (fun a v => a.max v.abs) .zero

/-- A·x, P·x with both halves of P, and Aᵀ·y. -/
def Kkt.mulA (k : Kkt) (x : List Num) : List Num :=
  (List.range k.m).map (fun i => chainAdd .zero ((List.range k.n).filterMap (fun j => (k.a.find i j).map (fun e => (vAt k.av e, vAt x j)))))
def Kkt.mulAt (k : Kkt) (y : List Num) : List Num :=
  (List.range k.n).map (fun j => chainAdd .zero ((k.a.col j).map (fun e => (vAt k.av e.2, vAt y e.1))))
def Kkt.mulP (k : Kkt) (x : List Num) : List Num :=
  (List.range k.n).map (fun i => chainAdd .zero ((List.range k.n).filterMap (fun j =>
    (k.p.find (Nat.min i j) (Nat.max i j)).map (fun e => (vAt k.pv e, vAt x j)))))

/-- Residuals of an iterate, and whether it is converged (R471). -/
def SolveIn.check (p : SolveIn) (epsAbs epsRel : Num) (it : Iterate) : Num × Num × Bool :=
  let ax := p.k.mulA it.x
  let px := p.k.mulP it.x
  let aty := p.k.mulAt it.y
  let rp := normInf ((List.range p.k.m).map (fun i => sub32 (vAt ax i) (vAt it.z i)))
  let rd := normInf ((List.range p.k.n).map (fun i => add32 (add32 (vAt px i) (vAt p.q i)) (vAt aty i)))
  (rp, rd, rp.le (fma32 epsRel ((normInf ax).max (normInf it.z)) epsAbs)
    && rd.le (fma32 epsRel (((normInf px).max (normInf aty)).max (normInf p.q)) epsAbs))

/-- How a solve's iterations end: converged, a NaN in a residual, MAX_ITER, or stopped at a boundary by its deadline. -/
inductive SolveEnd where
  | converged
  | nan
  | maxIter
  | deadline
deriving DecidableEq, Repr

/-- A solve's outcome: how it ended, iterations run, the residuals of the last check if there was one, the iterate. -/
structure SolveRes where
  how : SolveEnd
  iters : Nat
  res : Option (Num × Num)
  it : Iterate

/-- Iterations k+1 on; cut: the boundary at which the deadline is missed. -/
def SolveIn.run (p : SolveIn) (epsAbs epsRel : Num) (maxIter every : Nat) (cut : Option Nat) : Nat → Nat → Option (Num × Num) → Iterate → SolveRes
  | 0, k, r, it => ⟨.maxIter, k, r, it⟩
  | f + 1, k, r, it =>
    let it' := p.next it
    let k' := k + 1
    let chk := k' % every == 0 || k' == maxIter
    let c := if chk then some (p.check epsAbs epsRel it') else none
    let r' := match c with | some v => some (v.1, v.2.1) | none => r
    let stop := cut == some k'
    match c with
    | some v =>
      if v.1.isNan || v.2.1.isNan then ⟨.nan, k', r', it'⟩
      else if v.2.2 then ⟨.converged, k', r', it'⟩
      else if stop then ⟨.deadline, k', r', it'⟩
      else if k' == maxIter then ⟨.maxIter, k', r', it'⟩
      else p.run epsAbs epsRel maxIter every cut f k' r' it'
    | none => if stop then ⟨.deadline, k', r', it'⟩ else p.run epsAbs epsRel maxIter every cut f k' r' it'

/-! ## Dense matrices (R478, R479): rows of values -/

def mAt (a : List (List Num)) (i j : Nat) : Num := vAt (getAt [] a i) j
def mSet (a : List (List Num)) (i j : Nat) (v : Num) : List (List Num) := setAt a i (setAt (getAt [] a i) j v)

/-- A NaN in a matrix. -/
def mNan (a : List (List Num)) : Bool := a.any (fun r => r.any Num.isNan)

/-- Cholesky, column by column. -/
def cholesky (n : Nat) (a : List (List Num)) : Option (List (List Num)) :=
  let zero := List.replicate n (List.replicate n Num.zero)
  (List.range n).foldl (fun (acc : Option (List (List Num))) j => acc.bind (fun l =>
    let d := chainSub (mAt a j j) ((List.range j).map (fun k => (mAt l j k, mAt l j k)))
    if d.isNan || !(Num.zero.lt d) then none
    else
      let r := sqrt32 d
      some (((List.range n).filter (fun i => decide (j < i))).foldl (fun (m : List (List Num)) i =>
        mSet m i j (div32 (chainSub (mAt a i j) ((List.range j).map (fun k => (mAt m i k, mAt m j k)))) r)) (mSet l j j r)))) (some zero)

/-- LU with partial pivoting: the factor and the swaps. -/
def luFactor (n : Nat) (a : List (List Num)) : Option (List (List Num) × List Nat) :=
  let r := (List.range n).foldl (fun (acc : Option (List (List Num) × List Nat)) k => acc.bind (fun s =>
    let m := s.1
    let rows := (List.range n).filter (fun i => decide (k ≤ i))
    if rows.any (fun i => (mAt m i k).isNan) || rows.all (fun i => (mAt m i k).isZero) then none
    else
      let p := rows.foldl (fun b i => if (mAt m b k).abs.lt (mAt m i k).abs then i else b) k
      let m := setAt (setAt m k (getAt [] m p)) p (getAt [] m k)
      let m := (rows.drop 1).foldl (fun (m : List (List Num)) i =>
        let l := div32 (mAt m i k) (mAt m k k)
        setAt m i ((List.range n).map (fun j => if j < k then mAt m i j else if j = k then l else fma32 l.neg (mAt m k j) (mAt m i j)))) m
      some (m, s.2 ++ [p]))) (some (a, []))
  r.filter (fun s => !mNan s.1)

/-- LDLᵀ of a dense matrix over its lower triangle. -/
def denseLdl (n : Nat) (a : List (List Num)) (min delta : Num) : Except (Nat × Nat) Ldl :=
  ldlFrom (fun j => (List.range n).filter (fun i => decide (j < i))) (fun i j => mAt a i j) (fun _ => true) min delta (List.range n) ⟨[], [], 0⟩

/-- A factor L, D as a matrix: unit L below, D on the diagonal, +0 above. -/
def Ldl.dense (f : Ldl) (n : Nat) : List (List Num) :=
  (List.range n).map (fun i => (List.range n).map (fun j =>
    if i = j then vAt f.d i else if j < i then (colVal (getAt [] f.cols j) i).getD .zero else .zero))

/-- Substitutions with a triangle given by its entries: forward, and backward; unit: no division. -/
def forwardSub (n : Nat) (e : Nat → Nat → Num) (unit : Bool) (b : List Num) : List Num :=
  (List.range n).foldl (fun (x : List Num) i =>
    let v := chainSub (vAt b i) ((List.range i).map (fun k => (e i k, vAt x k)))
    x ++ [if unit then v else div32 v (e i i)]) []
def backwardSub (n : Nat) (e : Nat → Nat → Num) (unit : Bool) (b : List Num) : List Num :=
  (List.range n).reverse.foldl (fun (x : List Num) i =>
    let v := chainSub (vAt b i) (((List.range n).filter (fun k => decide (i < k))).map (fun k => (e i k, vAt x k)))
    setAt x i (if unit then v else div32 v (e i i))) (List.replicate n .zero)

/-- Rows of a vector swapped as a pivot list says. -/
def applySwaps (piv : List Nat) (b : List Num) : List Num :=
  (List.range piv.length).foldl (fun (v : List Num) k => let p := getAt k piv k; setAt (setAt v k (vAt v p)) p (vAt v k)) b

/-- One right-hand side under a mode of R479. -/
def denseSolve (mode n : Nat) (f : List (List Num)) (piv : List Nat) (b : List Num) : List Num :=
  let e := mAt f
  let et := fun (i j : Nat) => mAt f j i
  if mode = 0 then forwardSub n e false b
  else if mode = 1 then backwardSub n e false b
  else if mode = 2 then forwardSub n e true b
  else if mode = 3 then backwardSub n e true b
  else if mode = 4 then backwardSub n et false (forwardSub n e false b)
  else if mode = 5 then backwardSub n e false (forwardSub n e true (applySwaps piv b))
  else
    let y := forwardSub n e true b
    backwardSub n et true ((List.range n).map (fun i => div32 (vAt y i) (e i i)))

end Sys2Proof.Machine
end

