-- ==== Sys2Proof/Machine/Loam.lean ====
section
/-! DEFINITION. The sensor fusion unit (chapter 15): frame transforms, the auction, the track table, and its commands. -/
namespace Sys2Proof.Machine

def lomGrant : Nat := 0xA0
def lomBadInput : Nat := 0xA1
def lomNoFrame : Nat := 0xA2
def lomBudget : Nat := 0xA3
def lomEngine : Nat := 0xA4

/-- An FP32 word is finite. -/
def finiteAt (b : List Byte) (o : Nat) : Bool := (f32 (leAt b o 4)).isFin

/-- Check 2 of R514 over R513, and the cell (R200). -/
def lomParamOk (b : List Byte) (x : Obj) : Bool :=
  let op := leAt b 0 1
  let k := leAt b 1 1
  engCellOk b x
    && (if op = 0 then engBytesOk b engFlags 0 0 && k == 0
      else if op = 0x60 then engBytesOk b engFlags 4 16 && k == 0 && leAt b 6 2 == 0 && decide (1 ≤ leAt b 4 2 ∧ leAt b 4 2 ≤ 256)
        && engAddr (leAt b 8 8) 64
      else if op = 0x61 then engBytesOk b engFlags 4 24 && k == 0 && decide (1 ≤ leAt b 4 4 ∧ leAt b 4 4 ≤ 65536)
        && engAddr (leAt b 8 8) 32 && engAddr (leAt b 16 8) 32
      else if op = 0x62 then engBytesOk b engFlags 4 40 && k == 0 && decide (1 ≤ leAt b 4 2 ∧ leAt b 4 2 ≤ 512 ∧ 1 ≤ leAt b 6 2 ∧ leAt b 6 2 ≤ 512)
        && engAddr (leAt b 8 8) 64 && leAt b 16 4 % 4 == 0 && decide (4 * leAt b 6 2 ≤ leAt b 16 4) && finiteAt b 20
        && Num.zero.lt (f32 (leAt b 20 4)) && finiteAt b 24 && decide (1 ≤ leAt b 28 4 ∧ leAt b 28 4 ≤ 16777215) && engAddr (leAt b 32 8) 32
      else if op = 0x63 then engBytesOk b engFlags 8 50 && decide (k < 16) && engAddr (leAt b 8 8) 1 && engAddr (leAt b 16 8) 4
        && engAddr (leAt b 24 8) 32 && [32, 36, 40, 44].all (finiteAt b) && decide (1 ≤ leAt b 48 1 ∧ 1 ≤ leAt b 49 1)
      else engBytesOk b engFlags 4 16 && leAt b 6 2 == 0 && (decide (k < 16) || k == 0xFF) && decide (1 ≤ leAt b 4 2 ∧ leAt b 4 2 ≤ 2048)
        && engAddr (leAt b 8 8) 64)

def Loam.frame (l : Loam) (i : Nat) : Option (List Nat) := Sparse.get (fun _ => none) l.frames i
def Loam.setFrame (l : Loam) (i : Nat) (v : Option (List Nat)) : Loam := { l with frames := Sparse.set (fun _ => none) l.frames i v }
def Loam.track (l : Loam) (i : Nat) : Option Track := Sparse.get (fun _ => none) l.tracks i
def Loam.setTrack (l : Loam) (i : Nat) (v : Option Track) : Loam := { l with tracks := Sparse.set (fun _ => none) l.tracks i v }

/-! ## Frames (R515–R517) -/

/-- A frame record breaks R516. -/
def frameBad (r : List Byte) : Bool :=
  (bitN (leAt r 49 1) 0 && (List.range 12).any (fun i => !finiteAt r (4 * i))) || decide (2 ≤ leAt r 49 1) || leAt r 50 14 != 0

/-- FRAME_LOAD (R516). -/
def State.frameLoad (s : State) (o : Op) (x : Obj) : EngRes :=
  let n := leAt o.bytes 4 2
  let a := leAt o.bytes 8 8
  if !x.holds a (64 * n) 0 then .done s (EngOut.of lomGrant 0 [])
  else s.engIn o (blocksAt a (64 * n)) (fun st => EngOut.of st 0 []) (fun t p =>
    let recs := (List.range n).map (fun i => t.seenBytes (a + 64 * i) 64)
    match (List.range n).find? (fun i => frameBad (getAt [] recs i)) with
    | some i => .done t (EngOut.of lomBadInput i [])
    | none =>
      let l := recs.foldl (fun (l : Loam) r =>
        l.setFrame (leAt r 48 1) (if bitN (leAt r 49 1) 0 then some ((List.range 12).map (fun i => leAt r (4 * i) 4)) else none)) t.loam
      .done t { EngOut.of 0 0 [] with loam := some { l with gen := (l.gen + 1) % 2 ^ 32 }, prov := p })

/-- A detection in the body frame. -/
def toBody (f : List Nat) (d : List Byte) : List Byte :=
  let r := fun (i j : Nat) => f32 (getAt 0 f (3 * i + j))
  let c := fun (j : Nat) => f32 (leAt d (4 * j) 4)
  let out := fun (i : Nat) => fma32 (r i 2) (c 2) (fma32 (r i 1) (c 1) (fma32 (r i 0) (c 0) (f32 (getAt 0 f (9 + i)))))
  leBytes 4 (f32w (out 0)) ++ leBytes 4 (f32w (out 1)) ++ leBytes 4 (f32w (out 2)) ++ (d.drop 12).take 7 ++ leBytes 1 1 ++ leBytes 12 0

/-- Why TRANSFORM refuses a detection: its frame is not valid, or it is transformed already or not finite. -/
def detectionBad (l : Loam) (d : List Byte) : Option Nat :=
  if (l.frame (leAt d 18 1)).isNone then some lomNoFrame
  else if bitN (leAt d 19 1) 0 || !(finiteAt d 0 && finiteAt d 4 && finiteAt d 8) then some lomBadInput
  else none

/-- TRANSFORM (R517). -/
def State.lomTransform (s : State) (o : Op) (x : Obj) : EngRes :=
  let n := leAt o.bytes 4 4
  let a := leAt o.bytes 8 8
  let dst := (leAt o.bytes 16 8, 32 * n)
  if !x.grantsAll [(a, 32 * n)] [dst] then .done s (EngOut.of lomGrant 0 [])
  else s.engIn o (blocksAt a (32 * n)) (fun st => EngOut.of st 0 [dst]) (fun t p =>
    let ds := (List.range n).map (fun i => t.seenBytes (a + 32 * i) 32)
    match (List.range n).find? (fun i => (detectionBad t.loam (getAt [] ds i)).isSome) with
    | some i =>
      let st := (detectionBad t.loam (getAt [] ds i)).getD 0
      .done t (EngOut.of st (if st = lomNoFrame then i % 65536 else 0) [dst])
    | none =>
      let out := (ds.map (fun d => toBody ((t.loam.frame (leAt d 18 1)).getD []) d)).flatten
      .done t { EngOut.of 0 0 [] with writes := [(dst.1, out)], prov := p })

/-! ## Association (R518–R520) -/

/-- The auction: prices, owners, assignment (none: not decided), bids, and the queue of rows. -/
structure Auction where
  price : List Num
  owner : List (Option Nat)
  assign : List (Option Nat)
  bids : Nat
  queue : List Nat
  spent : Bool

/-- The best of a row's values, the lowest column on equal values; none: the private column (R519). -/
def bestOf (v : List (Nat × Num)) (vd : Num) : Option Nat × Num :=
  let b := v.foldl (fun (acc : Option (Nat × Num)) e => match acc with
    | some a => if a.2.lt e.2 then some e else some a
    | none => some e) none
  match b with
  | some e => if e.2.lt vd then (none, vd) else (some e.1, e.2)
  | none => (none, vd)

/-- Pops until the queue is empty or MAX_BIDS is met. -/
def auction (cost : List (List Num)) (eps un : Num) (maxBids : Nat) : Nat → Auction → Auction
  | 0, q => q
  | f + 1, q =>
    match q.queue with
    | [] => q
    | r :: rest =>
      let row := getAt [] cost r
      let v := (List.range row.length).filterMap (fun c => let k := vAt row c; if k.isFin then some (c, sub32 k.neg (vAt q.price c)) else none)
      let vd := un.neg
      match bestOf v vd with
      | (none, _) => auction cost eps un maxBids f { q with queue := rest }
      | (some c, best) =>
        let second := (bestOf (v.filter (fun e => e.1 != c)) vd).2
        let p := add32 (vAt q.price c) (add32 (sub32 best second) eps)
        let old := getAt none q.owner c
        let queue := rest ++ old.toList
        let q' : Auction :=
          { price := setAt q.price c p, owner := setAt q.owner c (some r),
            assign := setAt (match old with | some w => setAt q.assign w none | none => q.assign) r (some c), bids := q.bids + 1, queue := queue,
            spent := q.bids + 1 == maxBids && !queue.isEmpty }
        if q'.spent then q' else auction cost eps un maxBids f q'

/-- The result record of an auction (R520). -/
def auctionRecord (cost : List (List Num)) (un : Num) (rows cols : Nat) (q : Auction) : List Byte :=
  let total := (List.range rows).foldl (fun (a : Num) r => add32 a (match getAt none q.assign r with
    | some c => vAt (getAt [] cost r) c
    | none => un)) .zero
  let num := fun (v : Option Nat) => leBytes 2 (v.getD 0xFFFF)
  leBytes 2 rows ++ leBytes 2 cols ++ leBytes 4 q.bids ++ leBytes 2 ((q.assign.filter Option.isSome).length) ++ leBytes 2 0
    ++ leBytes 4 (f32w total) ++ leBytes 16 0 ++ (q.assign.map num).flatten ++ leBytes (alignUp (2 * rows) 4 - 2 * rows) 0
    ++ (q.owner.map num).flatten

/-- ASSOCIATE (R519). -/
def State.lomAssociate (s : State) (o : Op) (x : Obj) : EngRes :=
  let b := o.bytes
  let rows := leAt b 4 2
  let cols := leAt b 6 2
  let ins := (List.range rows).map (fun r => (leAt b 8 8 + r * leAt b 16 4, 4 * cols))
  let out := (leAt b 32 8, 32 + alignUp (2 * rows) 4 + 2 * cols)
  if !x.grantsAll ins [out] then .done s (EngOut.of lomGrant 0 [])
  else s.engIn o (blocksOf ins) (fun st => EngOut.of st 0 [out]) (fun t p =>
    let cost := ins.map (fun r => t.vec r.1 cols)
    match (List.range rows).find? (fun r => (getAt [] cost r).any (fun v => v.isNan || (!v.isFin && v.signBit))) with
    | some r => .done t (EngOut.of lomBadInput r [])
    | none =>
      let un := f32 (leAt b 24 4)
      let q := auction cost (f32 (leAt b 20 4)) un (leAt b 28 4) (rows + leAt b 28 4 + 1)
        ⟨List.replicate cols .zero, List.replicate cols none, List.replicate rows none, 0, List.range rows, false⟩
      if q.spent then .done t { EngOut.of lomBudget 0 [out] with counts := [(LOM_BUDGET_HIT.addr, 1)] }
      else .done t { EngOut.of 0 0 [] with writes := [(out.1, auctionRecord cost un rows cols q)], prov := p })

/-! ## Tracks (R521–R524) -/

/-- Three components, each from its place. -/
def vec3 (f : Nat → Num) : List Nat := (List.range 3).map (fun i => f32w (f i))
def comp (l : List Nat) (i : Nat) : Num := f32 (getAt 0 l i)

/-- A track after a coast of DT, and after an update by a detection. -/
def Track.moved (t : Track) (dt : Num) (i : Nat) : Num := fma32 (comp t.v i) dt (comp t.p i)
def Track.coast (t : Track) (dt : Num) (confirm : Nat) : Track :=
  { t with p := vec3 (t.moved dt), misses := t.misses + 1, confirm := confirm }
def Track.update (t : Track) (d : List Byte) (alpha bdt dt : Num) (prov : Bool) (confirm : Nat) : Track :=
  let r := fun (i : Nat) => sub32 (f32 (leAt d (4 * i) 4)) (t.moved dt i)
  { t with p := vec3 (fun i => fma32 alpha (r i) (t.moved dt i)), v := vec3 (fun i => fma32 bdt (r i) (comp t.v i)),
           hits := satAdd 65535 t.hits 1, misses := 0, prov := prov, confirm := confirm }

/-- TRACK_APPLY's inputs refuse it (R522): a listed track that is not the object's own of the group, or twice; a detection not transformed,
or with a NaN score; a column past the detections. -/
def State.applyBad (s : State) (handle group : Nat) (ids : List Nat) (toCol : List Nat) (ds : List (List Byte)) : Bool :=
  ids.any (fun i => match s.loam.track i with | some t => t.handle != handle || t.group != group | none => true) || hasDup ids
    || ds.any (fun d => !bitN (leAt d 19 1) 0 || (f32 (leAt d 12 4)).isNan)
    || toCol.any (fun c => c != 0xFFFF && decide (ds.length ≤ c))

/-- The table while TRACK_APPLY acts: coasted, deleted, born, refused. -/
structure ApplyRun where
  l : Loam
  coasted : Nat
  deleted : Nat
  born : Nat
  refused : Nat

/-- A track coasts, and is freed when its misses exceed MAX_MISS. -/
def ApplyRun.coast (a : ApplyRun) (dt : Num) (maxMiss confirm i : Nat) : ApplyRun :=
  match a.l.track i with
  | none => a
  | some t =>
    let u := t.coast dt confirm
    if maxMiss < u.misses then { a with l := a.l.setTrack i none, coasted := a.coasted + 1, deleted := a.deleted + 1 }
    else { a with l := a.l.setTrack i (some u), coasted := a.coasted + 1 }

/-- A birth takes the lowest free number, or is refused. -/
def ApplyRun.birth (a : ApplyRun) (t : Track) : ApplyRun :=
  match (List.range 2048).find? (fun i => (a.l.track i).isNone) with
  | some i => { a with l := a.l.setTrack i (some t), born := a.born + 1 }
  | none => { a with refused := a.refused + 1 }

/-- TRACK_APPLY past its grants and input blocks. -/
def State.applyTracks (s : State) (o : Op) (x : Obj) (rows cols : Nat) (prov : Bool) : EngRes :=
  let b := o.bytes
  let res := leAt b 8 8
  let g := leAt b 1 1
  let ids := (List.range rows).map (fun r => s.seenNat (leAt b 16 8 + 2 * r) 2)
  let toCol := (List.range rows).map (fun r => s.seenNat (res + 32 + 2 * r) 2)
  let toRow := (List.range cols).map (fun c => s.seenNat (res + 32 + alignUp (2 * rows) 4 + 2 * c) 2)
  let ds := (List.range cols).map (fun c => s.seenBytes (leAt b 24 8 + 32 * c) 32)
  let dprov := fun (c : Nat) => (blocksAt (leAt b 24 8 + 32 * c) 32).any (fun k => (s.tag k).prov)
  let dt := f32 (leAt b 40 4)
  let cf := leAt b 49 1
  if s.applyBad x.handle g ids toCol ds then .done s (EngOut.of lomBadInput 0 [])
  else
    let pairs := ids.zip toCol
    let l1 := (pairs.filter (fun p => p.2 != 0xFFFF)).foldl (fun (l : Loam) p => match l.track p.1 with
      | some t => l.setTrack p.1 (some (t.update (getAt [] ds p.2) (f32 (leAt b 32 4)) (f32 (leAt b 36 4)) dt (dprov p.2) cf))
      | none => l) s.loam
    let others := (s.loam.tracks.filter (fun e => match e.2 with
      | some t => t.handle == x.handle && t.group == g && !ids.contains e.1
      | none => false)).map (·.1)
    let free := (pairs.filter (fun p => p.2 == 0xFFFF)).map (·.1)
    let a1 := (free ++ others).foldl (fun (a : ApplyRun) i => a.coast dt (leAt b 48 1) cf i) ⟨l1, 0, 0, 0, 0⟩
    let births := (List.range cols).filter (fun c => getAt 0 toRow c == 0xFFFF && (f32 (leAt b 44 4)).le (f32 (leAt (getAt [] ds c) 12 4)))
    let a2 := births.foldl (fun (a : ApplyRun) c =>
      let d := getAt [] ds c
      a.birth ⟨x.handle, g, leAt d 16 2, (List.range 3).map (fun i => leAt d (4 * i) 4), [0, 0, 0], 1, 0, dprov c, cf⟩) a1
    let sum := leBytes 2 ((pairs.filter (fun p => p.2 != 0xFFFF)).length) ++ leBytes 2 a2.coasted ++ leBytes 2 a2.deleted
      ++ leBytes 2 a2.born ++ leBytes 2 a2.refused
    .done s { EngOut.of 0 0 [] with
      writes := [(res + 16, sum)], prov := prov, counts := [(LOM_BIRTH_REFUSED.addr, a2.refused)], loam := some a2.l }

/-- TRACK_APPLY (R522, R523). -/
def State.trackApply (s : State) (o : Op) (x : Obj) : EngRes :=
  let b := o.bytes
  let res := leAt b 8 8
  if !x.grantsAll [(res, 32)] [(res + 16, 10)] then .done s (EngOut.of lomGrant 0 [])
  else s.engIn o (blocksAt res 32) (fun st => EngOut.of st 0 [(res + 16, 10)]) (fun t p0 =>
    let rows := t.seenNat res 2
    let cols := t.seenNat (res + 2) 2
    let ins := [(res + 32, alignUp (2 * rows) 4 + 2 * cols), (leAt b 16 8, 2 * rows), (leAt b 24 8, 32 * cols)]
    if !x.grantsAll ins [] then .done t (EngOut.of lomGrant 0 [])
    else t.engIn o (blocksOf ins) (fun st => EngOut.of st 0 [(res + 16, 10)]) (fun u p1 => u.applyTracks o x rows cols (p0 || p1)))

/-- A track's record in TRACK_READ's list (R524). -/
def trackRecord (i : Nat) (t : Track) : List Byte :=
  leBytes 2 i ++ leBytes 2 t.cls ++ leBytes 1 t.group ++ leBytes 1 (b2n (decide (t.confirm ≤ t.hits))) ++ leBytes 2 0
    ++ (t.p.map (leBytes 4)).flatten ++ (t.v.map (leBytes 4)).flatten

/-- The tracks of a group, or of every group, in ascending order of their numbers; those that TRACK_READ lists (R524). -/
def Loam.ofGroup (l : Loam) (g : Nat) : List (Nat × Track) :=
  l.tracks.filterMap (fun e => match e.2 with | some t => if g = 0xFF ∨ t.group = g then some (e.1, t) else none | none => none)
def Loam.listed (l : Loam) (b : List Byte) : List (Nat × Track) := (l.ofGroup (leAt b 1 1)).take (leAt b 4 2)

/-- TRACK_READ (R524): records, then the header with its time. The grants are those of the addresses it writes (R514). -/
def State.trackRead (s : State) (o : Op) (x : Obj) : EngRes :=
  let b := o.bytes
  let dst := leAt b 8 8
  let l := s.loam.listed b
  if !x.grantsAll [] [(dst, 32 + 32 * l.length)] then .done s (EngOut.of lomGrant 0 [])
  else
    let head := leBytes 2 l.length ++ leBytes 1 (b2n (decide (leAt b 4 2 < (s.loam.ofGroup (leAt b 1 1)).length))) ++ leBytes 29 0
    .done s { EngOut.of 0 0 [] with
      writes := [(dst + 32, (l.map (fun e => trackRecord e.1 e.2)).flatten), (dst, head)], stamps := [(dst + 4, 8)],
      prov := l.any (fun e => e.2.prov) }

/-! ## Commands -/

/-- What an operation writes at most, poisoned by a parity failure (R527). -/
def State.lomFoot (s : State) (b : List Byte) : List (Nat × Nat) :=
  let op := leAt b 0 1
  if op = 0x61 then [(leAt b 16 8, 32 * leAt b 4 4)]
  else if op = 0x62 then [(leAt b 32 8, 32 + alignUp (2 * leAt b 4 2) 4 + 2 * leAt b 6 2)]
  else if op = 0x63 then [(leAt b 8 8 + 16, 10)]
  else if op = 0x64 then [(leAt b 8 8, 32 + 32 * (s.loam.listed b).length)]
  else []

/-- An outcome of an operation that is refused, and writes nothing (R526). -/
def lomUntouched (r : EngOut) : Bool := [stBadParam, stBadOpcode, lomGrant].contains r.status || (r.status == lomBadInput && r.foot.isEmpty)

/-- A parity failure of an operation (R527): reported; it ends LOM_ENGINE, and what it would have written is poisoned, unless it is refused; one in
the table storage also clears both tables. out: its outcome without the failure. -/
def State.lomBroken (s : State) (fault : Nat) (o : Op) (out : Option EngOut) : EngRes :=
  let t := if fault = 2 then { s with loam := { s.loam with frames := [], tracks := [] } } else s
  t.engBroken 5 o lomEngine LOM_PARITY.COUNT (EngOut.of lomEngine 0 (if (out.map lomUntouched).getD false then [] else s.lomFoot o.bytes))

/-- What an operation whose opcode Loam has comes to once its parameters have been tested. -/
def State.lomWork (s : State) (o : Op) (x : Obj) : EngRes :=
  let op := leAt o.bytes 0 1
  if !lomParamOk o.bytes x then .done s (EngOut.of stBadParam 0 [])
  else if op = 0x60 then s.frameLoad o x
  else if op = 0x61 then s.lomTransform o x
  else if op = 0x62 then s.lomAssociate o x
  else if op = 0x63 then s.trackApply o x
  else s.trackRead o x

/-- A Loam operation: parameters, then its work; fault: 0 none, 1 a parity failure, 2 one in the tables (R527). -/
def lomRow (fault : Nat) (p : Nat → Bool) (f : State → Op → Obj → EngRes) (s : State) : Host.Outcome State Fault Refusal :=
  s.engRun 5 false p (fun t o x =>
    let r := if lomParamOk o.bytes x then f t o x else .done t (EngOut.of stBadParam 0 [])
    if fault = 0 then r else t.lomBroken fault o r.out)

/-- LOM_NOP (R513); an opcode R513 does not list completes BAD_OPCODE. -/
def execLomNop (fault : Nat) (s : State) : Host.Outcome State Fault Refusal :=
  s.engRun 5 false (fun op => !decide (0x60 ≤ op ∧ op ≤ 0x64)) (fun t o x =>
    let st := if leAt o.bytes 0 1 ≠ 0 then stBadOpcode else if lomParamOk o.bytes x then 0 else stBadParam
    if fault = 0 then .done t (EngOut.of st 0 []) else t.lomBroken fault o (some (EngOut.of st 0 [])))

/-- FRAME_LOAD (R516). fault: 0 none, 1 a parity failure, 2 one in the tables (R527). -/
def execFrameLoad (fault : Nat) (s : State) : Host.Outcome State Fault Refusal :=
  lomRow fault (fun op => op == 0x60) (fun t o x => t.frameLoad o x) s
/-- TRANSFORM (R517). -/
def execLomTransform (fault : Nat) (s : State) : Host.Outcome State Fault Refusal :=
  lomRow fault (fun op => op == 0x61) (fun t o x => t.lomTransform o x) s
/-- ASSOCIATE (R519). -/
def execLomAssociate (fault : Nat) (s : State) : Host.Outcome State Fault Refusal :=
  lomRow fault (fun op => op == 0x62) (fun t o x => t.lomAssociate o x) s
/-- TRACK_APPLY (R522). -/
def execTrackApply (fault : Nat) (s : State) : Host.Outcome State Fault Refusal :=
  lomRow fault (fun op => op == 0x63) (fun t o x => t.trackApply o x) s
/-- TRACK_READ (R524). -/
def execTrackRead (fault : Nat) (s : State) : Host.Outcome State Fault Refusal :=
  lomRow fault (fun op => op == 0x64) (fun t o x => t.trackRead o x) s

end Sys2Proof.Machine
end

