-- ==== Sys2Proof/Machine/Marl.lean ====
section
/-! DEFINITION. The solver engines (chapter 13): descriptors, problem slots, factorisation, solves, the MPC sequencer, batches, deadlines,
and the commands of the main unit. -/
namespace Sys2Proof.Machine

def slvGrant : Nat := 0x90
def slvFull : Nat := 0x91
def slvNoSlot : Nat := 0x92
def slvBadTable : Nat := 0x93
def slvFactorFull : Nat := 0x94
def slvBadPattern : Nat := 0x95
def slvSingular : Nat := 0x96
def slvNoFactor : Nat := 0x97
def slvDeadline : Nat := 0x98
def slvMaxIter : Nat := 0x99
def slvSubstituted : Nat := 0x9A
def slvNoFallback : Nat := 0x9B
def slvPartial : Nat := 0x9C
def slvEngine : Nat := 0x9D
def slvSlotBusy : Nat := 0x9E

/-! ## Descriptors (R464, R465) -/

/-- FLAGS bits of R464: COLD, DL_EN, REFACTOR, ACCEPT_MAXITER. -/
def slvFlags : Nat := engFlags + 0x1E
def slvCold (b : List Byte) : Bool := bitN (leAt b 2 2) 1
def slvDlEn (b : List Byte) : Bool := bitN (leAt b 2 2) 2
def slvRefactor (b : List Byte) : Bool := bitN (leAt b 2 2) 3
def slvAcceptMax (b : List Byte) : Bool := bitN (leAt b 2 2) 4

/-- An address field at an offset: its alignment, and bytes 6 and 7, which are 0. -/
def addrTests (b : List Byte) (off al : Nat) : List (Nat × Bool) := (off, leAt b off 8 % al == 0) :: bytesClear (off + 6) 2 (leAt b (off + 6) 2) 0xFFFF

/-- The bytes from lo to hi are 0. -/
def zeroTests (b : List Byte) (lo hi : Nat) : List (Nat × Bool) := bytesClear lo (hi - lo) (leAt b lo (hi - lo)) (256 ^ (hi - lo) - 1)

/-- COUNT and SIZE of a batch. -/
def batchTests (b : List Byte) : List (Nat × Bool) :=
  [(4, decide (1 ≤ leAt b 4 2 ∧ leAt b 4 2 ≤ 64)), (6, decide (1 ≤ leAt b 6 2 ∧ leAt b 6 2 ≤ 64))]

/-- The parameters of an opcode, with the offset of the byte that offends. -/
def slvTests (b : List Byte) : List (Nat × Bool) :=
  let op := leAt b 0 1
  let k := leAt b 1 1
  if op = 0 then (1, k == 0) :: zeroTests b 4 52 ++ zeroTests b 54 60
  else if op = 0x50 then (1, k == 0) :: zeroTests b 4 8 ++ addrTests b 8 64 ++ zeroTests b 16 52 ++ zeroTests b 54 60
  else if op = 0x51 then (1, decide (k < 4)) :: zeroTests b 4 52 ++ zeroTests b 54 60
  else if op = 0x52 then (1, decide (k < 4)) :: zeroTests b 8 52 ++ zeroTests b 54 60
  else if op = 0x53 then (1, decide (k < 4)) :: zeroTests b 8 16 ++ addrTests b 16 64 ++ zeroTests b 24 52 ++ zeroTests b 54 60
  else if op = 0x54 then
    (1, decide (k < 4)) :: zeroTests b 8 16 ++ addrTests b 16 64 ++ addrTests b 24 32 ++ addrTests b 32 32 ++ zeroTests b 40 52 ++ zeroTests b 54 60
  else if op = 0x58 then
    (1, decide (k ≤ 2)) :: batchTests b ++ addrTests b 8 64 ++ addrTests b 16 64 ++ (if k = 1 then addrTests b 24 2 else zeroTests b 24 32)
      ++ addrTests b 32 1 ++ [(40, decide (4 * (leAt b 6 2 * leAt b 6 2) ≤ leAt b 40 4) && leAt b 40 4 % 64 == 0)] ++ zeroTests b 54 60
  else
    (1, decide (k ≤ 6)) :: batchTests b ++ addrTests b 8 1 ++ addrTests b 16 1 ++ addrTests b 24 1 ++ addrTests b 32 (if k = 5 then 2 else 1)
      ++ (48, decide (1 ≤ leAt b 48 2 ∧ leAt b 48 2 ≤ 64)) :: zeroTests b 50 52 ++ zeroTests b 54 60

/-- Check 2 of R465 and the cell (R200): the offset of the first offending descriptor byte, which DETAIL holds (R193, R480; log 71). -/
def slvParamBad (b : List Byte) (x : Obj) : Option Nat :=
  leastBy (fun k => [k]) (((bytesClear 2 2 (leAt b 2 2) (65535 - slvFlags) ++ (52, engCellOk b x) :: slvTests b).filter (fun t => !t.2)).map (·.1))

/-- The descriptor keeps check 2. -/
def slvParamOk (b : List Byte) (x : Obj) : Bool := (slvParamBad b x).isNone

/-- How an operation whose descriptor breaks check 2 ends. -/
def slvRefused (b : List Byte) (x : Obj) : EngOut := EngOut.of stBadParam ((slvParamBad b x).getD 0) []

/-! ## Problem records (R466–R468) -/

def prN (r : List Byte) : Nat := leAt r 2 2
def prM (r : List Byte) : Nat := leAt r 4 2
def prNnzP (r : List Byte) : Nat := leAt r 8 4
def prNnzA (r : List Byte) : Nat := leAt r 12 4
def prLnz (r : List Byte) : Nat := leAt r 16 4
def prP (r : List Byte) : Nat := leAt r 24 6
def prA (r : List Byte) : Nat := leAt r 32 6
def prL (r : List Byte) : Nat := leAt r 40 6
def prPerm (r : List Byte) : Nat := leAt r 48 6
def prQ (r : List Byte) : Nat := leAt r 56 6
def prLo (r : List Byte) : Nat := leAt r 64 6
def prHi (r : List Byte) : Nat := leAt r 72 6

/-- An FP32 value held at an offset of a record. -/
def fAt (r : List Byte) (o : Nat) : Num := f32 (leAt r o 4)

/-- The record keeps R466. -/
def problemOk (r : List Byte) : Bool :=
  let pos := fun (o : Nat) => Num.zero.lt (fAt r o)
  let nonneg := fun (o : Nat) => Num.zero.le (fAt r o)
  leAt r 0 2 == 1 && decide (1 ≤ prN r ∧ prN r ≤ 512 ∧ prM r ≤ 1024) && leAt r 6 2 == 0
    && decide (1 ≤ prNnzP r ∧ prNnzP r ≤ 131328 ∧ prNnzA r ≤ 524288 ∧ prLnz r ≤ 1048576) && leAt r 20 4 == 0
    && [30, 38, 46, 54, 62, 70, 78].all (fun o => leAt r o 2 == 0) && leAt r 118 10 == 0
    && pos 80 && pos 84 && pos 88 && pos 92 && (fAt r 92).lt (.ofNat 2) && [96, 100, 104, 108].all nonneg
    && decide (1 ≤ leAt r 112 4 ∧ leAt r 112 4 ≤ 1000000 ∧ 1 ≤ leAt r 116 2 ∧ leAt r 116 2 ≤ 256)

/-- Bytes of the pointers and row indices of an array of c columns, and where its values start (R467). -/
def cscHead (c nnz : Nat) : Nat := 4 * (c + 1) + 2 * nnz
def cscVals (a c nnz : Nat) : Nat := a + 4 * (c + 1) + alignUp (2 * nnz) 4

/-- A pattern read from memory. -/
def State.csc (s : State) (a c nnz : Nat) : Csc :=
  ⟨(List.range (c + 1)).map (fun i => s.seenNat (a + 4 * i) 4), (List.range nnz).map (fun i => s.seenNat (a + 4 * (c + 1) + 2 * i) 2)⟩

/-- Ranges QP_BIND reads beyond the record: three patterns and the permutation. -/
def bindReads (r : List Byte) : List (Nat × Nat) :=
  [(prP r, cscHead (prN r) (prNnzP r)), (prA r, cscHead (prN r) (prNnzA r)), (prL r, cscHead (prN r + prM r) (prLnz r)),
    (prPerm r, 2 * (prN r + prM r))]

/-- Factor-store entries in use (R463). -/
def storeUsed (l : List (Option SlvSlot)) : Nat := sumN (l.map (fun x => match x with | some y => prLnz y.record | none => 0))

/-- A list holds each of 0 … n−1 once. -/
def isPerm (n : Nat) (l : List Nat) : Bool := l.length == n && (List.range n).all (fun i => l.contains i)

/-- QP_BIND (R468). -/
def State.qpBind (s : State) (e : Nat) (o : Op) (x : Obj) : EngRes :=
  let a := leAt o.bytes 8 8
  let no := fun (st : Nat) => EngOut.of st 0 []
  if !x.holds a 128 0 then .done s (no slvGrant)
  else s.engIn o (blocksAt a 128) no (fun t p0 =>
    let r := t.seenBytes a 128
    if !problemOk r then .done t (no slvBadTable)
    else if !x.grantsAll (bindReads r) [] then .done t (no slvGrant)
    else t.engIn o (blocksOf (bindReads r)) no (fun u p1 =>
      let n := prN r
      let m := prM r
      let p := u.csc (prP r) n (prNnzP r)
      let am := u.csc (prA r) n (prNnzA r)
      let l := u.csc (prL r) (n + m) (prLnz r)
      let perm := (List.range (n + m)).map (fun i => u.seenNat (prPerm r + 2 * i) 2)
      let slots := u.slv e
      if !(p.ok n (prNnzP r) (fun c i => decide (i ≤ c)) && am.ok n (prNnzA r) (fun _ i => decide (i < m))
          && l.ok (n + m) (prLnz r) (fun c i => decide (c < i ∧ i < n + m)) && isPerm (n + m) perm) then .done u (no slvBadTable)
      else if !(Kkt.fits ⟨n, m, p, [], am, [], perm, .zero, []⟩ l) then .done u (no slvBadPattern)
      else if 1048576 < storeUsed slots + prLnz r then .done u (no slvFactorFull)
      else match (List.range 4).find? (fun i => (getAt none slots i).isNone) with
        | none => .done u (no slvFull)
        | some i =>
          let slot : SlvSlot :=
            ⟨x.handle, a, r, p, am, l, perm, none, 0, 0, List.replicate n 0, List.replicate m 0, List.replicate m 0, none, 0, 0, p0 || p1⟩
          .done u { EngOut.of 0 i [] with slvSlots := some (setAt slots i (some slot)), prov := p0 || p1 }))

/-- The slot an operation names, bound by the calling object. -/
def State.slvSlot (s : State) (e : Nat) (o : Op) (x : Obj) : Option SlvSlot :=
  ((getAt none (s.slv e) (leAt o.bytes 1 1)).filter (fun y => y.handle == x.handle))

/-- The slots with the named one replaced. -/
def State.slvWith (s : State) (e : Nat) (o : Op) (y : Option SlvSlot) : List (Option SlvSlot) := setAt (s.slv e) (leAt o.bytes 1 1) y

/-- Ranges an operation on a slot reads and writes whatever the slot holds: checked before the slot is (R465). -/
def slvPlain (b : List Byte) : List (Nat × Nat) × List (Nat × Nat) :=
  if leAt b 0 1 = 0x53 then ([], [(leAt b 16 8, 64)])
  else if leAt b 0 1 = 0x54 then ([(leAt b 24 8, 32)], [(leAt b 16 8, 64), (leAt b 32 8, 32)])
  else ([], [])

/-- An operation on its slot; without one of its object's, SLV_GRANT or SLV_NO_SLOT, in this order (R465). -/
def State.onSlot (s : State) (e : Nat) (o : Op) (x : Obj) (f : SlvSlot → EngRes) : EngRes :=
  match s.slvSlot e o x with
  | none => .done s (EngOut.of (if x.grantsAll (slvPlain o.bytes).1 (slvPlain o.bytes).2 then slvNoSlot else slvGrant) 0 [])
  | some y => f y

/-- QP_UNBIND (R469). -/
def State.qpUnbind (s : State) (e : Nat) (o : Op) (x : Obj) : EngRes :=
  s.onSlot e o x (fun _ =>
    if s.slotNamed (e + 3) o.queue (leAt o.bytes 1 1) x [0x51, 0x52, 0x53, 0x54] then .done s (EngOut.of slvSlotBusy 0 [])
    else .done s { EngOut.of 0 0 [] with slvSlots := some (s.slvWith e o none) })

/-! ## Factorisation (R469) -/

/-- The deadline of an operation with DL_EN is missed now (R474). -/
def State.slvLate (s : State) (b : List Byte) : Bool := slvDlEn b && passed s.dlNow (leAt b 4 4)

/-- Ranges a factorisation reads: the values of P and A, L, U, RHO and RHO_EQ. -/
def factorReads (y : SlvSlot) : List (Nat × Nat) :=
  let r := y.record
  [(cscVals (prP r) (prN r) (prNnzP r), 4 * prNnzP r), (cscVals (prA r) (prN r) (prNnzA r), 4 * prNnzA r),
    (prLo r, 4 * prM r), (prHi r, 4 * prM r), (y.addr + 84, 8)]

/-- Values as FP32 words. -/
def wordsOf (l : List Num) : List Nat := l.map f32w
def numsOf (l : List Nat) : List Num := l.map f32

/-- The matrix K of a slot over values of P and A. -/
def SlvSlot.kkt (y : SlvSlot) (pv av inv : List Num) : Kkt :=
  ⟨prN y.record, prM y.record, y.p, pv, y.a, av, y.perm, fAt y.record 80, inv⟩

/-- How the solver core ends: a status with its DETAIL, the slot as it is then, pivots regularised in it, iterations, the residuals of
the last check, whether an input was provisional. -/
structure Core where
  status : Nat
  detail : Nat
  slot : SlvSlot
  regs : Nat
  iters : Nat
  res : Option (Num × Num)
  prov : Bool

/-- The factorisation of a slot from memory; cut: the number of pivots it has formed when its deadline is missed and it is abandoned, which have been
counted (R474, R484). -/
def State.factorCore (s : State) (y : SlvSlot) (cut : Option Nat) (prov : Bool) : Core :=
  let r := y.record
  let prov := prov || y.prov
  let m := prM r
  let lo := s.vec (prLo r) m
  let hi := s.vec (prHi r) m
  let rho := (List.range m).map (fun i => if (vAt lo i).eqv (vAt hi i) then f32 (s.seenNat (y.addr + 88) 4) else f32 (s.seenNat (y.addr + 84) 4))
  let inv := rho.map (fun v => div32 (.ofNat 1) v)
  let k := y.kkt (s.vec (cscVals (prP r) (prN r) (prNnzP r)) (prNnzP r)) (s.vec (cscVals (prA r) (prN r) (prNnzA r)) (prNnzA r)) inv
  let off := { y with factor := none }
  let no := fun (st det regs : Nat) => (⟨st, det, off, regs, 0, none, prov⟩ : Core)
  if !(k.pv.all Num.isFin && k.av.all Num.isFin) || (List.range m).any (fun i => (vAt hi i).lt (vAt lo i)) then no slvBadTable 0 0
  else match k.factor y.l (fAt r 104) (fAt r 108) cut with
    | .error (j, regs) => no slvSingular j regs
    | .ok f =>
      if cut.isSome then no slvDeadline 0 f.reg
      else
        let v : Factor := ⟨f.cols.map (fun c => c.map (fun v => f32w v.2)), wordsOf f.d, wordsOf rho, wordsOf inv, prov, wordsOf k.pv, wordsOf k.av⟩
        ⟨0, 0, { y with factor := some v, gen := (y.gen + 1) % 2 ^ 32, reg := f.reg }, f.reg, 0, none, prov⟩

/-- Counters of a core's end. -/
def coreCounts (e : Nat) (c : Core) (late : Bool) : List (Nat × Nat) :=
  [(SLV_PIVOT_REG.addr e, c.regs)] ++ (if late then [(SLV_DEADLINE.addr e, 1)] else [])

/-- QP_FACTOR (R469, R474); cut: the pivots formed when its deadline is missed. -/
def State.qpFactor (s : State) (e : Nat) (o : Op) (x : Obj) (cut : Option Nat) : EngRes :=
  s.onSlot e o x (fun y =>
    let off := some (s.slvWith e o (some { y with factor := none }))
    if !x.grantsAll (factorReads y) [] then .done s (EngOut.of slvGrant 0 [])
    else if s.slvLate o.bytes && cut.isNone then
      .done s { EngOut.of slvDeadline 0 [] with slvSlots := off, counts := [(SLV_DEADLINE.addr e, 1)] }
    else s.engIn o (blocksOf (factorReads y)) (fun st => { EngOut.of st 0 [] with slvSlots := off }) (fun t p =>
      let c := t.factorCore y cut p
      .done t { EngOut.of c.status c.detail [] with
        slvSlots := some (t.slvWith e o (some c.slot)), counts := coreCounts e c (c.status == slvDeadline), prov := c.prov, provIn := c.prov }))

/-! ## Solves (R470–R472) -/

/-- Ranges a solve reads. -/
def solveReads (y : SlvSlot) : List (Nat × Nat) :=
  [(prQ y.record, 4 * prN y.record), (prLo y.record, 4 * prM y.record), (prHi y.record, 4 * prM y.record)]

/-- Bytes of a result record. -/
def resultLen (y : SlvSlot) : Nat := 64 + 4 * (prN y.record + 2 * prM y.record)

/-- The solve of a slot: its start, and its end with warm-start vectors kept where R472 says; cut: a boundary at which the deadline is
missed. A check multiplies by the values of P and A that were factorised (log 31). -/
def State.solveCore (s : State) (y : SlvSlot) (cold prov : Bool) (cut : Option Nat) (regs : Nat) : Core :=
  let r := y.record
  let m := prM r
  let q := s.vec (prQ r) (prN r)
  let lo := s.vec (prLo r) m
  let hi := s.vec (prHi r) m
  let no := fun (st det : Nat) => (⟨st, det, y, regs, 0, none, prov⟩ : Core)
  if q.any Num.isNan || lo.any Num.isNan || hi.any Num.isNan || (List.range m).any (fun i => (vAt hi i).lt (vAt lo i)) then no slvBadTable 0
  else match y.factor with
    | none => no slvNoFactor 0
    | some f =>
      let k := y.kkt (numsOf f.pv) (numsOf f.av) (numsOf f.inv)
      let cols := (List.range (prN r + m)).map (fun j => ((y.l.col j).map (·.1)).zip (numsOf (getAt [] f.l j)))
      let p : SolveIn := ⟨k, cols, numsOf f.d, fAt r 92, numsOf f.rho, q, lo, hi⟩
      let z := fun (n : Nat) => List.replicate n Num.zero
      let it0 : Iterate := if cold then ⟨z (prN r), z m, z m⟩ else ⟨numsOf y.x, numsOf y.z, numsOf y.y⟩
      let mi := leAt r 112 4
      let v := p.run (fAt r 96) (fAt r 100) mi (leAt r 116 2) cut mi 0 none it0
      let keep := { y with x := wordsOf v.it.x, z := wordsOf v.it.z, y := wordsOf v.it.y }
      let tp := prov || f.prov || y.prov
      match v.how with
      | .converged => ⟨0, 0, keep, regs, v.iters, v.res, tp⟩
      | .maxIter => ⟨slvMaxIter, 0, keep, regs, v.iters, v.res, tp⟩
      | .nan => ⟨slvSingular, 0xFFFF, y, regs, v.iters, v.res, tp⟩
      | .deadline => ⟨slvDeadline, 0, y, regs, v.iters, v.res, tp⟩

/-- A result record (R472); the time is stamped when it lands. -/
def resultRecord (y : SlvSlot) (c : Core) (res : Nat × Nat) (seq flags cause run : Nat) (x : List Nat) : List Byte :=
  leBytes 4 c.iters ++ leBytes 4 res.1 ++ leBytes 4 res.2 ++ leBytes 4 y.gen ++ leBytes 4 seq ++ leBytes 1 flags ++ leBytes 1 cause
    ++ leBytes 2 (Nat.min y.reg 65535) ++ leBytes 4 0 ++ leBytes 2 run ++ leBytes 34 0 ++ ((x ++ y.z ++ y.y).map (leBytes 4)).flatten

/-- Residuals as words: open ones when no check ran. -/
def State.residuals (s : State) (c : Core) : State × (Nat × Nat) :=
  match c.res with
  | some (a, b) => (s, (f32w a, f32w b))
  | none => (s.tookFree 2, (s.free 32, (s.tookFree 1).free 32))

/-- QP_SOLVE (R470–R472, R474); cut: the iteration boundary at which its deadline is missed. -/
def State.qpSolve (s : State) (e : Nat) (o : Op) (x : Obj) (cut : Option Nat) : EngRes :=
  s.onSlot e o x (fun y =>
    let b := o.bytes
    let rec_ := leAt b 16 8
    let foot := [(rec_, resultLen y)]
    if !x.grantsAll (solveReads y) foot then .done s (EngOut.of slvGrant 0 [])
    else if s.slvLate b && cut.isNone then .done s { EngOut.of slvDeadline 0 foot with counts := [(SLV_DEADLINE.addr e, 1)] }
    else s.engIn o (blocksOf (solveReads y)) (fun st => EngOut.of st 0 foot) (fun t p =>
      let c := t.solveCore y (slvCold b) p cut 0
      let r := t.residuals c
      let wrote := c.status == 0 || c.status == slvMaxIter
      let fl := b2n (c.status == 0) + 2 * b2n c.prov + 8 * b2n (slvCold b)
      .done (if wrote then r.1 else t) { EngOut.of c.status c.detail (if c.status = slvSingular ∨ c.status = slvDeadline then foot else []) with
        writes := if wrote then [(rec_, resultRecord c.slot c r.2 0 fl 0 0 c.slot.x)] else [],
        stamps := [(rec_ + 24, 4)], prov := c.prov, provIn := c.prov, iters := c.iters, conv := c.status == 0,
        slvSlots := some (t.slvWith e o (some c.slot)), counts := coreCounts e c (c.status == slvDeadline) }))

/-! ## The MPC sequencer (R475–R477) -/

/-- The MPC record keeps R475. -/
def mpcOk (r : List Byte) (n : Nat) : Bool :=
  let h := leAt r 2 2
  let w := leAt r 4 2
  leAt r 0 2 == 1 && decide (1 ≤ h ∧ h ≤ 512 ∧ 1 ≤ w ∧ w ≤ 512 ∧ leAt r 6 2 + h * w ≤ n)
    && decide (1 ≤ leAt r 10 2 ∧ leAt r 10 2 ≤ 256 ∧ leAt r 8 2 + leAt r 10 2 ≤ n) && decide (1 ≤ leAt r 12 1) && leAt r 13 19 == 0

/-- The last solution shifted by one stage (R476). -/
def shiftPlan (r : List Byte) (x : List Nat) : List Nat :=
  let h := leAt r 2 2
  let w := leAt r 4 2
  let o := leAt r 6 2
  (List.range x.length).map (fun i => if o ≤ i ∧ i < o + (h - 1) * w then getAt 0 x (i + w) else getAt 0 x i)

/-- The setpoint block: header, and SP_COUNT values from byte 32 (R477); the header is written last. -/
def setpointWrites (sp : Nat) (r : List Byte) (seq dl : Nat) (subst : Bool) (cause : Nat) (x : List Nat) : List (Nat × List Byte) :=
  [(sp + 32, (((x.drop (leAt r 8 2)).take (leAt r 10 2)).map (leBytes 4)).flatten),
    (sp, leBytes 4 seq ++ leBytes 4 0 ++ leBytes 4 dl ++ leBytes 1 (b2n subst) ++ leBytes 1 cause ++ leBytes 2 (leAt r 10 2) ++ leBytes 16 0)]

/-- What MPC_STEP writes at most: the result record and the setpoint block of a record r. -/
def stepFoot (b : List Byte) (y : SlvSlot) (r : List Byte) : List (Nat × Nat) := [(leAt b 16 8, resultLen y), (leAt b 32 8, 32 + 4 * leAt r 10 2)]

/-- The end of a step whose core has ended: it writes the solution, substitutes the last one, or writes nothing (R476, R477). -/
def State.stepEnd (s : State) (e : Nat) (o : Op) (r : List Byte) (c : Core) : EngRes :=
  let b := o.bytes
  let rec_ := leAt b 16 8
  let sp := leAt b 32 8
  let seq := (c.slot.seq + 1) % 2 ^ 32
  let good := c.status == 0 || (c.status == slvMaxIter && slvAcceptMax b)
  let sub := c.status == slvDeadline || c.status == slvMaxIter || c.status == slvSingular || c.status == slvNoFactor
  let cnt := coreCounts e c (c.status == slvDeadline)
  let fl := 2 * b2n c.prov + 8 * b2n (slvCold b)
  let v := s.residuals c
  let base := { EngOut.of c.status c.detail [] with
    prov := c.prov, provIn := c.prov, iters := c.iters, conv := c.status == 0, counts := cnt,
    slvSlots := some (s.slvWith e o (some c.slot)), stamps := [(rec_ + 24, 4), (sp + 4, 4)] }
  if good then
    .done v.1 { base with
      writes := (rec_, resultRecord c.slot c v.2 seq (b2n (c.status == 0) + fl) 0 0 c.slot.x)
        :: setpointWrites sp r seq (leAt b 4 4) false 0 c.slot.x,
      slvSlots := some (s.slvWith e o (some { c.slot with last := some c.slot.x, run := 0, seq := seq })) }
  else if !sub then .done s base
  else match c.slot.last with
    | none => .done s { base with status := slvNoFallback, detail := 0 }
    | some last =>
      if leAt r 12 1 < c.slot.run + 1 then .done s { base with status := slvNoFallback, detail := 0 }
      else
        let x' := shiftPlan r last
        .done v.1 { base with
          status := slvSubstituted, detail := 0,
          writes := (rec_, resultRecord c.slot c v.2 seq (4 + fl) c.status (c.slot.run + 1) x')
            :: setpointWrites sp r seq (leAt b 4 4) true c.status x',
          counts := cnt ++ [(SLV_SUBST.addr e, 1)],
          slvSlots := some (s.slvWith e o (some { c.slot with x := x', last := some x', run := c.slot.run + 1, seq := seq })) }

/-- A step's solve, over the core f of its factorisation; cut: the boundary at which the deadline is missed. -/
def State.stepSolve (s : State) (e : Nat) (o : Op) (r : List Byte) (f : Core) (cut : Option Nat) : EngRes :=
  s.engIn o (blocksOf (solveReads f.slot))
    (fun st => { EngOut.of st 0 (stepFoot o.bytes f.slot r) with slvSlots := some (s.slvWith e o (some f.slot)), counts := coreCounts e f false })
    (fun t p => t.stepEnd e o r (t.solveCore f.slot (slvCold o.bytes) (f.prov || p) cut f.regs))

/-- A step's work on its checked record r: the factorisation when REFACTOR asks for it, then the solve, under one deadline; cut: (in the
factorisation, pivot or boundary) where it is missed. A deadline missed at the start reads nothing more (R474, R476). -/
def State.stepWork (s : State) (e : Nat) (o : Op) (y : SlvSlot) (r : List Byte) (prov : Bool) (cut : Option (Bool × Nat)) : EngRes :=
  let b := o.bytes
  let off := { y with factor := none }
  let plain : Core := ⟨0, 0, y, 0, 0, none, prov || y.prov⟩
  let at_ := match cut with | some (false, k) => some k | _ => none
  if s.slvLate b && cut.isNone then s.stepEnd e o r { plain with status := slvDeadline, slot := if slvRefactor b then off else y }
  else if slvRefactor b then
    s.engIn o (blocksOf (factorReads y)) (fun st => { EngOut.of st 0 (stepFoot b y r) with slvSlots := some (s.slvWith e o (some off)) }) (fun t p =>
      let f := t.factorCore y (match cut with | some (true, k) => some k | _ => none) (prov || p)
      if f.status = 0 then t.stepSolve e o r f at_ else t.stepEnd e o r f)
  else s.stepSolve e o r plain at_

/-- MPC_STEP (R475–R477): the grants and the slot, the MPC record, the setpoint block it asks for, then the work. -/
def State.mpcStep (s : State) (e : Nat) (o : Op) (x : Obj) (cut : Option (Bool × Nat)) : EngRes :=
  s.onSlot e o x (fun y =>
    let b := o.bytes
    let ma := leAt b 24 8
    let min := [(leAt b 16 8, resultLen y), (leAt b 32 8, 32)]
    if !x.grantsAll ((ma, 32) :: solveReads y ++ (if slvRefactor b then factorReads y else [])) min then .done s (EngOut.of slvGrant 0 [])
    else s.engIn o (blocksAt ma 32) (fun st => EngOut.of st 0 min) (fun t p =>
      let r := t.seenBytes ma 32
      if !mpcOk r (prN y.record) then .done t (EngOut.of slvBadTable 0 [])
      else if !x.grantsAll [] (stepFoot b y r) then .done t (EngOut.of slvGrant 0 [])
      else t.stepWork e o y r p cut))

/-! ## Batches (R478, R479) -/

/-- A dense matrix read from memory, row-major, and its bytes. -/
def State.dense (s : State) (a rows cols : Nat) : List (List Num) := (List.range rows).map (fun i => s.vec (a + 4 * cols * i) cols)
def denseBytes (m : List (List Num)) : List Byte := (m.map (fun r => (r.map (fun v => leBytes 4 (f32w v))).flatten)).flatten

/-- The bytes of a failed matrix. -/
def nanMatrix (n : Nat) : List Byte := (List.replicate (n * n) (leBytes 4 0x7FC00000)).flatten

/-- One matrix of BATCH_FACTOR: its status byte, pivots regularised, bytes, swaps. -/
def factorOne (kind n : Nat) (a : List (List Num)) (min delta : Num) : Nat × Nat × List Byte × List Nat :=
  if kind = 0 then match cholesky n a with
    | some l => (0, 0, denseBytes l, [])
    | none => (1, 0, nanMatrix n, [])
  else if kind = 1 then match luFactor n a with
    | some (l, p) => (0, 0, denseBytes l, p)
    | none => (2, 0, nanMatrix n, List.replicate n 0xFFFF)
  else match denseLdl n a min delta with
    | .ok f => (if f.reg = 0 then 0 else 3, f.reg, denseBytes (f.dense n), [])
    | .error (_, r) => (4, r, nanMatrix n, [])

/-- A batch under way: memory with the matrices written so far, the writes, statuses, pivots regularised, whether the spec leaves a
value open, and open values used. -/
structure BatchRun where
  t : State
  writes : List (Nat × List Byte)
  stats : List Nat
  regs : Nat

/-- BATCH_FACTOR (R478). -/
def State.batchFactor (s : State) (e : Nat) (o : Op) (x : Obj) : EngRes :=
  let b := o.bytes
  let cnt := leAt b 4 2
  let n := leAt b 6 2
  let st := leAt b 40 4
  let at_ := fun (base i : Nat) => (base + i * st, 4 * n * n)
  let reads := (List.range cnt).map (at_ (leAt b 8 8))
  let outs := (List.range cnt).map (at_ (leAt b 16 8)) ++ [(leAt b 32 8, cnt)] ++ (if leAt b 1 1 = 1 then [(leAt b 24 8, 2 * cnt * n)] else [])
  if !x.grantsAll reads outs then .done s (EngOut.of slvGrant 0 [])
  else s.engIn o (blocksOf reads) (fun st => EngOut.of st 0 outs) (fun t p =>
    let r := (List.range cnt).foldl (fun (acc : BatchRun) i =>
      let f := factorOne (leAt b 1 1) n (acc.t.dense (leAt b 8 8 + i * st) n n) (fAt b 44) (fAt b 48)
      let w := [(leAt b 16 8 + i * st, f.2.2.1)]
        ++ (if leAt b 1 1 = 1 then [(leAt b 24 8 + 2 * i * n, (f.2.2.2.map (leBytes 2)).flatten)] else []) ++ [(leAt b 32 8 + i, leBytes 1 f.1)]
      ⟨w.foldl (fun u q => u.putAll (placed q.1 q.2)) acc.t, acc.writes ++ w, acc.stats ++ [f.1], acc.regs + f.2.1⟩) ⟨t, [], [], 0⟩
    .done t { EngOut.of (if r.stats.all (fun v => v == 0 || v == 3) then 0 else slvPartial) 0 [] with
      writes := r.writes, prov := p, counts := [(SLV_PIVOT_REG.addr e, r.regs)] })

/-- One right-hand side block of BATCH_SOLVE: a pivot that names no row leaves the results open. -/
def State.solveOne (s : State) (mode n nrhs : Nat) (f : List (List Num)) (piv : List Nat) (b : List (List Num)) : State × List (List Num) :=
  if mode = 5 ∧ piv.any (fun p => decide (n ≤ p)) then
    (s.tookFree (n * nrhs), (List.range n).map (fun i => (List.range nrhs).map (fun j => f32 ((s.tookFree (i * nrhs + j)).free 32))))
  else
    let cols := (List.range nrhs).map (fun j => denseSolve mode n f piv ((List.range n).map (fun i => mAt b i j)))
    (s, (List.range n).map (fun i => (List.range nrhs).map (fun j => vAt (getAt [] cols j) i)))

/-- BATCH_SOLVE (R479). -/
def State.batchSolve (s : State) (o : Op) (x : Obj) : EngRes :=
  let b := o.bytes
  let cnt := leAt b 4 2
  let n := leAt b 6 2
  let k := leAt b 48 2
  let mode := leAt b 1 1
  let fs := leAt b 40 4
  let bs := leAt b 44 4
  let span := fun (base st len : Nat) => (List.range cnt).map (fun i => (base + i * st, len))
  let reads := span (leAt b 8 8) fs (4 * n * n) ++ span (leAt b 16 8) bs (4 * n * k) ++ (if mode = 5 then [(leAt b 32 8, 2 * cnt * n)] else [])
  let outs := span (leAt b 24 8) bs (4 * n * k)
  if !x.grantsAll reads outs then .done s (EngOut.of slvGrant 0 [])
  else s.engIn o (blocksOf reads) (fun st => EngOut.of st 0 outs) (fun t p =>
    let r := (List.range cnt).foldl (fun (acc : BatchRun) i =>
      let piv := (List.range n).map (fun j => acc.t.seenNat (leAt b 32 8 + 2 * (i * n + j)) 2)
      let v := acc.t.solveOne mode n k (acc.t.dense (leAt b 8 8 + i * fs) n n) piv (acc.t.dense (leAt b 16 8 + i * bs) n k)
      let w := (leAt b 24 8 + i * bs, denseBytes v.2)
      ⟨v.1.putAll (placed w.1 w.2), acc.writes ++ [w], [], 0⟩) ⟨t, [], [], 0⟩
    .done { t with freeCtr := r.t.freeCtr } { EngOut.of 0 0 [] with writes := r.writes, prov := p })

/-! ## Commands -/

/-- What an operation writes at most, and the slots it leaves, when it fails: a factorisation leaves FACTOR_VALID = 0, and so does one whose factor is
hurt (R469, R481). hurt: the slots whose part of the factor store failed. -/
def State.slvHurt (s : State) (e : Nat) (o : Op) (x : Obj) (st : Nat) (hurt : Nat → Bool) : EngOut :=
  let b := o.bytes
  let op := leAt b 0 1
  let n := leAt b 6 2
  let y := s.slvSlot e o x
  let foot := match y with
    | some q => if op = 0x53 then [(leAt b 16 8, resultLen q)] else if op = 0x54 then stepFoot b q (s.seenBytes (leAt b 24 8) 32) else []
    | none => []
  let bat := if op = 0x58 then
      (List.range (leAt b 4 2)).map (fun i => (leAt b 16 8 + i * leAt b 40 4, 4 * n * n)) ++ [(leAt b 32 8, leAt b 4 2)]
        ++ (if leAt b 1 1 = 1 then [(leAt b 24 8, 2 * leAt b 4 2 * n)] else [])
    else if op = 0x59 then (List.range (leAt b 4 2)).map (fun i => (leAt b 24 8 + i * leAt b 44 4, 4 * n * leAt b 48 2)) else []
  let lost := fun (k : Nat) => hurt k || (y.isSome && k == leAt b 1 1 && (op == 0x52 || (op == 0x54 && slvRefactor b)))
  { EngOut.of st 0 (foot ++ bat) with
    slvSlots := if (List.range 4).any lost then
        some ((List.range 4).map (fun k => (getAt none (s.slv e) k).map (fun q => if lost k then { q with factor := none } else q)))
      else none }

/-- An outcome of an operation that is refused or writes nothing (R480). -/
def slvUntouched (r : EngOut) : Bool :=
  [stBadParam, stBadOpcode, slvGrant, slvFull, slvNoSlot, slvBadTable, slvFactorFull, slvBadPattern, slvNoFactor, slvNoFallback, slvSlotBusy].contains r.status

/-- A parity failure of an operation (R481): reported; it ends SLV_ENGINE, and what it would have written is poisoned. fault 1: in another SRAM or data
path; fault 1 + m: in the factor store, bit k of m set where it strikes the factor of slot k. out: its outcome without the failure. -/
def State.slvBroken (s : State) (e fault : Nat) (o : Op) (x : Obj) (out : Option EngOut) : EngRes :=
  let h := { s.slvHurt e o x slvEngine (bitN (fault - 1)) with counts := (out.map EngOut.pivots).getD [] }
  s.engBroken (e + 3) o slvEngine (SLV_PARITY.COUNT e)
    (if (out.map slvUntouched).getD false then { h with foot := [] } else h)

/-- What an operation of engine e, whose opcode Marl has, comes to once its parameters have been tested. -/
def State.slvWork (s : State) (e : Nat) (o : Op) (x : Obj) : EngRes :=
  let op := leAt o.bytes 0 1
  if !slvParamOk o.bytes x then .done s (slvRefused o.bytes x)
  else if op = 0x50 then s.qpBind e o x
  else if op = 0x51 then s.qpUnbind e o x
  else if op = 0x52 then s.qpFactor e o x none
  else if op = 0x53 then s.qpSolve e o x none
  else if op = 0x54 then s.mpcStep e o x none
  else if op = 0x58 then s.batchFactor e o x
  else s.batchSolve o x

/-- A Marl operation: parameters, then its work; fault: 0 none, else a parity failure (slvBroken). -/
def slvRow (e fault : Nat) (p : Nat → Bool) (f : State → Op → Obj → EngRes) (s : State) : Host.Outcome State Fault Refusal :=
  s.engRun (e + 3) false p (fun t o x =>
    let r := if slvParamOk o.bytes x then f t o x else .done t (slvRefused o.bytes x)
    if fault = 0 then r else t.slvBroken e fault o x r.out)

/-- SLV_NOP (R464); an opcode R464 does not list completes BAD_OPCODE (R465). -/
def execSlvNop (e fault : Nat) (s : State) : Host.Outcome State Fault Refusal :=
  s.engRun (e + 3) false (fun op => !(decide (0x50 ≤ op ∧ op ≤ 0x54) || op == 0x58 || op == 0x59)) (fun t o x =>
    let r := if leAt o.bytes 0 1 ≠ 0 then EngOut.of stBadOpcode 0 [] else if slvParamOk o.bytes x then EngOut.of 0 0 [] else slvRefused o.bytes x
    if fault = 0 then .done t r else t.slvBroken e fault o x (some r))

/-- QP_BIND (R468). fault: 0 none, else a parity failure (R481, slvBroken). -/
def execQpBind (e fault : Nat) (s : State) : Host.Outcome State Fault Refusal :=
  slvRow e fault (fun op => op == 0x50) (fun t o x => t.qpBind e o x) s
/-- QP_UNBIND (R469). -/
def execQpUnbind (e fault : Nat) (s : State) : Host.Outcome State Fault Refusal :=
  slvRow e fault (fun op => op == 0x51) (fun t o x => t.qpUnbind e o x) s
/-- QP_FACTOR (R469). -/
def execQpFactor (e fault : Nat) (s : State) : Host.Outcome State Fault Refusal :=
  slvRow e fault (fun op => op == 0x52) (fun t o x => t.qpFactor e o x none) s
/-- QP_SOLVE (R470). -/
def execQpSolve (e fault : Nat) (s : State) : Host.Outcome State Fault Refusal :=
  slvRow e fault (fun op => op == 0x53) (fun t o x => t.qpSolve e o x none) s
/-- MPC_STEP (R476). -/
def execMpcStep (e fault : Nat) (s : State) : Host.Outcome State Fault Refusal :=
  slvRow e fault (fun op => op == 0x54) (fun t o x => t.mpcStep e o x none) s
/-- BATCH_FACTOR (R478). -/
def execBatchFactor (e fault : Nat) (s : State) : Host.Outcome State Fault Refusal :=
  slvRow e fault (fun op => op == 0x58) (fun t o x => t.batchFactor e o x) s
/-- BATCH_SOLVE (R479). -/
def execBatchSolve (e fault : Nat) (s : State) : Host.Outcome State Fault Refusal :=
  slvRow e fault (fun op => op == 0x59) (fun t o x => t.batchSolve o x) s

/-- The operation of engine e cut short: in its factorisation when k pivots are formed, or at iteration boundary k. -/
def State.slvCut (s : State) (e : Nat) (o : Op) (x : Obj) (fac : Bool) (k : Nat) : EngRes :=
  let op := leAt o.bytes 0 1
  if op = 0x52 then s.qpFactor e o x (some k)
  else if op = 0x53 then s.qpSolve e o x (some k)
  else s.mpcStep e o x (some (fac, k))

/-- A running operation that a deadline can still reach: QP_FACTOR, a step in its factorisation, or an iteration up to boundary k. -/
def slvCuttable (b : List Byte) (out : EngOut) (fac : Bool) (k : Nat) : Bool :=
  let op := leAt b 0 1
  (op == 0x52 && fac && (out.status == 0 || out.status == slvSingular)) || (op == 0x54 && fac && slvRefactor b && out.status != slvNoSlot)
    || ((op == 0x53 || op == 0x54) && !fac && decide (1 ≤ k ∧ k ≤ out.iters))

/-- SOLVER_DEADLINE_MISSED (R474): the deadline of the running operation of engine e passes in its factorisation (fac) once k pivots are formed, or at
iteration boundary k; a factorisation whose failing pivot comes first still ends with it, and an iteration that converges at that boundary still completes. -/
def execSolverDeadlineMissed (e : Nat) (fac : Bool) (k : Nat) (s : State) : Host.Outcome State Fault Refusal :=
  match (s.eng (e + 3)).main, (s.eng (e + 3)).mainOut with
  | some o, some out => match s.obj o.handle with
    | some x =>
      if s.slvLate o.bytes && slvCuttable o.bytes out fac k && !s.opHasReport o.id && o.status == 0 then
        match s.start.slvCut e o x fac k with
        | .wait _ => answer false s s
        | .done t r => .next (t.setUnit (e + 3) false (some { o with provIn := r.provIn }) (some r))
      else answer false s s
    | none => answer false s s
  | _, _ => answer false s s

end Sys2Proof.Machine
end

