-- ==== Sys2Proof/Machine/Flash.lean ====
section
/-! DEFINITION. The boot flash and its port (R597–R601). The flash holds bytes; an erased byte reads 0xFF; programming clears bits. -/
namespace Sys2Proof.Machine

/-- A byte of the flash, and bytes of it. -/
def State.flashByte (s : State) (a : Nat) : Byte := Sparse.get (fun _ => 0xFF) s.flash a
def State.flashAt (s : State) (a n : Nat) : List Byte := (List.range n).map (fun i => s.flashByte (a + i))

/-- Bytes put where they stand. -/
def State.flashSet (s : State) (a : Nat) (bs : List Byte) : State :=
  { s with flash := (placed a bs).foldl (fun l e => Sparse.set (fun _ => 0xFF) l e.1 e.2) s.flash }

/-- A program command: bits can only be cleared. -/
def State.flashProgram (s : State) (a : Nat) (bs : List Byte) : State :=
  s.flashSet a ((List.range bs.length).zip bs |>.map (fun e => s.flashByte (a + e.1) &&& e.2))

/-- Every byte of [a, a+n) erased. -/
def State.flashErase (s : State) (a n : Nat) : State := { s with flash := Sparse.drop (fun k => decide (a ≤ k ∧ k < a + n)) s.flash }

/-- The first byte of management SRAM (R48). -/
def sramBase : Nat := 0x1000000

/-- A flash device register. -/
def State.flashReg (s : State) (a : Nat) : Nat := Sparse.get (fun k => (Config.flashReg k).toNat) s.flashRegs a

/-- The command's length is one its kind allows (R600). -/
def FlashCmd.ok (c : FlashCmd) : Bool :=
  if c.kind = 1 then decide (1 ≤ c.len ∧ c.len ≤ 256 ∧ c.addr % 256 + c.len ≤ 256)
  else c.kind == 2 || (decide (c.kind ≤ 5) && decide (1 ≤ c.len ∧ c.len ≤ 4096))

/-- A command starts: its code goes out, one byte of it in 1S-1S-1S, both in 8D-8D-8D (R600). -/
def State.flashBegin (s : State) (c : FlashCmd) : State :=
  let t := s.emit (.note "XSP_CODE" (if s.flag XSP_CFG.OCTAL then [c.opcode / 256 % 256, c.opcode % 256] else [c.opcode % 256]))
  { t.setF XSP_STATUS.BUSY 1 with flashCmd := some c }

/-- A write of XSP_CMD: with GO, the command starts, is held one deep, or is rejected (R600). -/
def State.xspGo (s : State) (w : Word) : State :=
  let c : FlashCmd := ⟨bits w 30 28, bits w 15 0, s.fld XSP_ADDR.ADDR, s.fld XSP_LEN.BYTES, s.fld XSP_BUF.OFFSET / 4 * 4⟩
  if bits w 31 31 = 0 then s
  else if !c.ok then s.setF XSP_STATUS.REJECT 1
  else if !s.flag XSP_STATUS.BUSY then s.flashBegin c
  else if s.flashHeld.isNone then { s with flashHeld := some c }
  else s.setF XSP_STATUS.REJECT 1

/-- The word master m writes to XSP_CMD for a kind and an opcode. -/
def xspWord (kind opcode : Nat) : Word := BitVec.ofNat 32 (2 ^ 31 + kind * 2 ^ 28 + opcode % 2 ^ 16)

/-- FLASH_READ (R600). -/
def execFlashRead (m opcode : Nat) (s : State) : Host.Outcome State Fault Refusal := s.write m XSP_CMD.addr (s.start.xspGo (xspWord 0 opcode))
/-- FLASH_PROGRAM (R600). -/
def execFlashProgram (m opcode : Nat) (s : State) : Host.Outcome State Fault Refusal := s.write m XSP_CMD.addr (s.start.xspGo (xspWord 1 opcode))
/-- FLASH_ERASE (R600). -/
def execFlashErase (m opcode : Nat) (s : State) : Host.Outcome State Fault Refusal := s.write m XSP_CMD.addr (s.start.xspGo (xspWord 2 opcode))
/-- FLASH_READ_SFDP (R600). -/
def execFlashReadSfdp (m opcode : Nat) (s : State) : Host.Outcome State Fault Refusal := s.write m XSP_CMD.addr (s.start.xspGo (xspWord 3 opcode))
/-- FLASH_REG_READ (R600). -/
def execFlashRegRead (m opcode : Nat) (s : State) : Host.Outcome State Fault Refusal := s.write m XSP_CMD.addr (s.start.xspGo (xspWord 4 opcode))
/-- FLASH_REG_WRITE (R600). -/
def execFlashRegWrite (m opcode : Nat) (s : State) : Host.Outcome State Fault Refusal := s.write m XSP_CMD.addr (s.start.xspGo (xspWord 5 opcode))

/-- What a command has done when it completes without error. -/
def State.flashDo (s : State) (c : FlashCmd) : State :=
  let buf := sramBase + c.buf
  match c.kind with
  | 0 => s.putAll (placed buf (s.flashAt c.addr c.len))
  | 1 => s.flashProgram c.addr (s.bytesAt buf c.len)
  | 2 => s.flashErase (c.addr / 65536 * 65536) 65536
  | 3 => s.putAll (placed buf ((List.range c.len).map (fun i => Config.flashSfdp (c.addr + i))))
  | 4 => s.putAll (placed buf ((List.range c.len).map (fun i => BitVec.ofNat 8 (s.flashReg (c.addr + i)))))
  | _ =>
    let l := (placed c.addr (s.bytesAt buf c.len)).foldl (fun (l : List (Nat × Nat)) e =>
      Sparse.set (fun k => (Config.flashReg k).toNat) l e.1 e.2.toNat) s.flashRegs
    { s with flashRegs := l }

/-- What a failed program or erase leaves in its range is open. -/
def State.flashSpoil (s : State) (c : FlashCmd) : State :=
  let r : Nat × Nat := if c.kind = 1 then (c.addr, c.len) else (c.addr / 65536 * 65536, 65536)
  if c.kind = 1 ∨ c.kind = 2 then
    (s.tookFree r.2).flashSet r.1 ((List.range r.2).map (fun i => Config.freeValue 8 (s.freeCtr + i)))
  else s

/-- XSP_CMD_DONE (R601): the command completes, or fails; a held command starts. -/
def execXspCmdDone (err : Bool) (s : State) : Host.Outcome State Fault Refusal :=
  match s.flashCmd with
  | none => answer false s s
  | some c =>
    let t := if err then (s.start.flashSpoil c).setF XSP_STATUS.ERROR 1 else (s.start.flashDo c).setF XSP_STATUS.DONE 1
    let t := { t.setF XSP_STATUS.BUSY 0 with flashCmd := none }
    answer (s.pdOn 83) s (match s.flashHeld with
      | some h => ({ t with flashHeld := none } : State).flashBegin h
      | none => t)

end Sys2Proof.Machine
end

