-- ==== Sys2Proof/Machine/Tilth.lean ====
section
/-! DEFINITION. The control loop engine (chapter 14): contexts, inputs, setpoints, laws, samples, test signals, capture, and the lock-stepped
pair. -/
namespace Sys2Proof.Machine

def State.ctx (s : State) (c : Nat) : TltCtx := Sparse.get (fun _ => TltCtx.init) s.tilth.ctxs c
def State.setCtx (s : State) (c : Nat) (x : TltCtx) : State :=
  { s with tilth := { s.tilth with ctxs := Sparse.set (fun _ => TltCtx.init) s.tilth.ctxs c x } }

/-- The master ID of Tilth's requests (R365). -/
def tltMaster : Nat := 0x5C

/-! ## Events -/

/-- An EVENT bit sets, and the message of TLT_IRQ: FAULT_STOP and MISS pass ERR_ONLY (R504). -/
def State.tltEvent (s : State) (hi : Nat) (err : Bool) : State :=
  (s.setF ⟨TLT_EVENT.addr, hi, hi⟩ 1).irqMsg TLT_IRQ.EN TLT_IRQ.ERR_ONLY TLT_IRQ.HART TLT_IRQ.EIID err

/-! ## Instants (R486, R534) -/

/-- START, PERIOD_NS and LAUNCH_NS of a context. -/
def State.tltStart (s : State) (c : Nat) : Nat := s.fld2 (TLT_START_LO.START c) (TLT_START_HI.START c) 0
def State.tltPeriod (s : State) (c : Nat) : Nat := s.fld (TLT_CFG.PERIOD_NS c)
def State.tltLaunch (s : State) (c : Nat) : Nat := s.fld (TLT_LAUNCH.LAUNCH_NS c)

/-- The first instant at or after START, or after time t when that is later. -/
def firstInstant (start period t : Nat) : Nat := if t ≤ start then start else start + ((t - start) / period + 1) * period

/-- The first instant after time t (R500, R534). -/
def instantAfter (start period t : Nat) : Nat := if t < start then start else start + ((t - start) / period + 1) * period

/-! ## Inputs (R488, R489) -/

/-- Inputs of a group. -/
def State.groupInputs (s : State) (c g : Nat) : List Nat :=
  let f := s.fld (TLT_GROUP.FIRST c g)
  ((List.range (s.fld (TLT_GROUP.COUNT_M1 c g) + 1)).map (f + ·)).filter (fun i => decide (i < 256))
def State.inGroup (s : State) (c i : Nat) : Bool := (List.range 16).any (fun g => s.flag (TLT_GROUP.VALID c g) && (s.groupInputs c g).contains i)

/-- One group committed: staged values become live, and the group takes the time. -/
def State.commitGroup (s : State) (c g : Nat) : State :=
  if s.flag (TLT_GROUP.VALID c g) then
    let x := s.ctx c
    let live := (s.groupInputs c g).foldl (fun l i => Sparse.set (fun _ => 0) l i (Sparse.get (fun _ => 0) x.staged i)) x.live
    s.setCtx c { x with live := live, commits := Sparse.set (fun _ => none) x.commits g (some s.now) }
  else s

/-- A group is stale at an instant. -/
def State.stale (s : State) (c g t : Nat) : Bool :=
  let age := s.fld (TLT_GROUP.MAX_AGE_10US c g)
  s.flag (TLT_GROUP.VALID c g) && age != 0 && (match Sparse.get (fun _ => none) (s.ctx c).commits g with
    | some k => decide (k + age * 10000 < t)
    | none => true)

/-! ## Laws (R493, R494) -/

/-- Fields of a law table read through rd. -/
def lawNx (rd : Nat → Nat → Nat) : Nat := rd 2 2
def lawNu (rd : Nat → Nat → Nat) : Nat := rd 4 1
def lawNbp (rd : Nat → Nat → Nat) (v : Nat) : Nat := rd (64 + 72 * v + 2) 1
def lawGrid (rd : Nat → Nat → Nat) : Nat := (List.range (rd 5 1)).foldl (fun a v => a * lawNbp rd v) 1
def lawEb (rd : Nat → Nat → Nat) : Nat := if rd 6 1 = 0 then 4 else 2
def lawBytes (rd : Nat → Nat → Nat) : Nat := 1664 + lawGrid rd * lawNu rd * lawNx rd * lawEb rd

/-- Code 1. -/
def lawHeadBad (rd : Nat → Nat → Nat) : Bool :=
  rd 0 2 != 1 || decide (lawNx rd < 1 ∨ 256 < lawNx rd ∨ lawNu rd < 1 ∨ 96 < lawNu rd ∨ 4 < rd 5 1 ∨ 1 < rd 6 1 ∨ 256 < rd 8 2)
    || rd 7 1 != 0 || rd 10 2 != 0 || rd 20 44 != 0 || rd 1632 32 != 0 || (List.range 4).any (fun v => rd (64 + 72 * v + 3) 5 != 0)

/-- Code 3. -/
def lawSchedBad (rd : Nat → Nat → Nat) : Bool :=
  (List.range 4).any (fun v =>
    let o := 64 + 72 * v
    let n := lawNbp rd v
    let bp := fun (k : Nat) => f32 (rd (o + 8 + 4 * k) 4)
    if v < rd 5 1 then
      decide (lawNx rd ≤ rd o 2 ∨ n < 2 ∨ 16 < n) || (List.range n).any (fun k => !(bp k).isFin)
        || (List.range (n - 1)).any (fun k => !((bp k).lt (bp (k + 1)))) || rd (o + 8 + 4 * n) (4 * (16 - n)) != 0
    else rd o 72 != 0)

/-- Code 4. -/
def lawMapBad (rd : Nat → Nat → Nat) : Bool :=
  let n := rd 8 2
  let code := fun (v : Nat) => rd (352 + 2 * v) 2
  let used := ((List.range n).map code)
  used.any (fun k => !decide (k < 0x100 ∨ (0x100 ≤ k ∧ k < 0x160) ∨ k = 0xFFFF)) || hasDup (used.filter (fun k => k != 0xFFFF))
    || (List.range 256).any (fun v => decide (n ≤ v) && code v != 0xFFFF)

/-- Code 5. -/
def lawLimitsBad (rd : Nat → Nat → Nat) : Bool :=
  let lo := fun (j : Nat) => f32 (rd (864 + 4 * j) 4)
  let hi := fun (j : Nat) => f32 (rd (1248 + 4 * j) 4)
  (List.range (lawNu rd)).any (fun j => !(lo j).isFin || !(hi j).isFin || (hi j).lt (lo j))
    || (List.range 96).any (fun j => decide (lawNu rd ≤ j) && (rd (864 + 4 * j) 4 != 0 || rd (1248 + 4 * j) 4 != 0))

/-- Gains as FP32 words; BF16 widens exactly. -/
def lawGains (rd : Nat → Nat → Nat) : List Nat :=
  (List.range (lawGrid rd * lawNu rd * lawNx rd)).map (fun k =>
    if rd 6 1 = 0 then rd (1664 + 4 * k) 4 else rd (1664 + 2 * k) 2 * 65536)

/-- The first failure of R494, 0 for none; bad: a block of the table may not be used. -/
def lawError (rd : Nat → Nat → Nat) (bytes : Nat → List Byte) (bad : Nat → Bool) : Nat :=
  if lawHeadBad rd then 1
  else if rd 12 4 ≠ lawBytes rd ∨ 1048576 < rd 12 4 then 2
  else if lawSchedBad rd then 3
  else if lawMapBad rd then 4
  else if lawLimitsBad rd then 5
  else if (lawGains rd).any (fun w => !(f32 w).isFin) then 6
  else
    let bs := bytes (rd 12 4)
    if crc32c (bs.take 16 ++ leBytes 4 0 ++ bs.drop 20) ≠ rd 16 4 then 7
    else if bad (rd 12 4) then 8
    else 0

/-- The law of a good table. -/
def lawOf (rd : Nat → Nat → Nat) : Law :=
  { nx := lawNx rd, nu := lawNu rd, spCount := rd 8 2,
    sched := (List.range (rd 5 1)).map (fun v => (rd (64 + 72 * v) 2, (List.range (lawNbp rd v)).map (fun k => rd (72 + 72 * v + 4 * k) 4))),
    spMap := (List.range (rd 8 2)).map (fun v => rd (352 + 2 * v) 2),
    uMin := (List.range (lawNu rd)).map (fun j => rd (864 + 4 * j) 4), uMax := (List.range (lawNu rd)).map (fun j => rd (1248 + 4 * j) 4),
    gains := lawGains rd }

/-- A law becomes active: a block of another SP_COUNT goes out of use (R491). -/
def TltCtx.switch (x : TltCtx) (l : Law) : TltCtx :=
  let other := match x.law with | some k => k.spCount != l.spCount | none => true
  { x with law := some l, pend := none, sp := if other then none else x.sp, shadow := if other then none else x.shadow }

/-- LAW_LOAD_DONE's answer into the context: LAW_ERR, PENDING, EVENT.LAW_DONE. A context that is not enabled takes its law at once. -/
def State.lawDone (s : State) (c : Nat) (err : Nat) (l : Law) : State :=
  let x := { s.ctx c with loading := none }
  let x := if err ≠ 0 then x else if x.on then { x with pend := some (l, s.now) } else x.switch l
  ((s.setCtx c x).setF (TLT_LAW_CMD.LAW_ERR c) err).tltEvent (19 + c) false

/-- The address of a context's law table. -/
def State.lawAddr (s : State) (c : Nat) : Nat := s.fld (TLT_LAW_LO.ADDR_LO c) * 64 + s.fld (TLT_LAW_HI.ADDR_HI c) * 2 ^ 32

/-- A write of LAW_CMD: LOAD starts a load unless one runs (R494). -/
def State.lawCmd (s : State) (c : Nat) (w : Word) : State :=
  let x := s.ctx c
  if bits w 31 31 = 1 ∧ x.loading.isNone then s.setCtx c { x with loading := some (s.lawAddr c) } else s

/-- LAW_LOAD (R494, R506): master m sets LOAD in TLT_c_LAW_CMD. -/
def execLawLoad (m c : Nat) (s : State) : Host.Outcome State Fault Refusal :=
  s.write m (TLT_LAW_CMD.addr c) (s.start.lawCmd c 0x80000000)

/-- A block of [a, a+n) may not be used: not DRAM, POISON or PROVISIONAL (R490, R494). -/
def State.tltUnusable (s : State) (a n : Nat) : Bool :=
  !s.dataRange a n || (rangeBlocks a n).any (fun b => (s.tag b).poison || (s.tag b).prov)

/-- Bytes Tilth reads; it checks no watermark (R325, R389). -/
def State.tltNote (s : State) (a n : Nat) : State :=
  if s.dataRange a n then (rangeBlocks a n).foldl (fun t b => (t.rawCheck b 0 0).1) (s.unitRead tltMaster a n) else s

/-! ## Setpoints (R490–R492) -/

/-- The address of a context's setpoint block. -/
def State.spAddr (s : State) (c : Nat) : Nat := s.fld (TLT_SP_LO.ADDR c) * 32 + s.fld (TLT_SP_HI.ADDR_HI c) * 2 ^ 32

/-- The value of the cell a context follows. -/
def State.spCell (s : State) (c : Nat) : Nat := s.cell (s.fld (TLT_SP_CTL.SP_CELL c))

/-- SETPOINT_CELL_CHANGE (R490): the cell of context c has changed: a read starts, or is repeated when the one under way ends. -/
def execSetpointCellChange (c : Nat) (s : State) : Host.Outcome State Fault Refusal :=
  let x := s.ctx c
  answer (s.flag (TLT_SP_CTL.SP_EN c) && s.pdOn pdTlt && x.cell != s.spCell c) s
    (s.start.setCtx c { x with cell := s.spCell c, again := x.reading, reading := true })

/-- The block in memory, if it is acceptable to the active law. -/
def State.spBlock (s : State) (c : Nat) : Option SpBlock :=
  let a := s.spAddr c
  match (s.ctx c).law with
  | none => none
  | some l =>
    let n := 32 + 4 * l.spCount
    if s.tltUnusable a n || s.seenNat (a + 14) 2 != l.spCount then none
    else
      let vals := (List.range l.spCount).map (fun i => s.seenNat (a + 32 + 4 * i) 4)
      if vals.all (fun v => (f32 v).isFin) then some ⟨s.seenNat a 4, bitN (s.seenNat (a + 12) 1) 0, vals, s.now⟩ else none

/-- A block rejected. -/
def State.spReject (s : State) (c : Nat) : State := (s.bump (TLT_SP_REJECT.COUNT c) 1).setF (TLT_FLAGS.SP_REJECT c) 1

/-- A setpoint of a law by target: x_ref[i] for code i, u_ref[j] for code 0x100 + j; +0 where no code names it. -/
def Law.ref (l : Law) (vals : List Nat) (code : Nat) : Num :=
  match (List.range l.spMap.length).find? (fun v => getAt 0xFFFF l.spMap v == code) with
  | some v => f32 (getAt 0 vals v)
  | none => .zero

/-! ## Test signals (R501) -/

/-- Outputs of a context's active law. -/
def TltCtx.nu (x : TltCtx) : Nat := match x.law with | some l => l.nu | none => 0

/-- The injection is over, and EVENT.TEST_DONE sets; when it ends, RUN clears. -/
def State.testOver (s : State) (c : Nat) : State := (s.setCtx c { (s.ctx c) with test := none }).tltEvent (27 + c) false
def State.testEnd (s : State) (c : Nat) : State := (s.testOver c).setF (TLT_TEST_CFG.RUN c) 0

/-- An injection starts: a table is read. -/
def State.testStart (s : State) (c : Nat) : State :=
  let x := s.ctx c
  let run := s.flag (TLT_TEST_CFG.RUN c)
  let out := s.fld (TLT_TEST_CFG.OUT c)
  if run && decide (x.nu ≤ out) then s.testEnd c
  else if run then
    let seed := s.fld (TLT_TEST_SEED.SEED c) % 2 ^ 31
    let a := s.fld (TLT_TEST_TAB_LO.ADDR_LO c) * 64 + s.fld (TLT_TEST_TAB_HI.ADDR_HI c) * 2 ^ 32
    let n := s.fld (TLT_TEST_CFG.TABLE_LEN_M1 c) + 1
    let tab := (List.range n).map (fun i => if s.dataRange a (4 * n) then s.seenNat (a + 4 * i) 4 else (s.tookFree i).free 32)
    let t := if s.fld (TLT_TEST_CFG.WAVE c) ≠ 2 then s else if s.dataRange a (4 * n) then s.tltNote a (4 * n) else s.tookFree n
    t.setCtx c { x with test := some ⟨0, 0, if seed = 0 then 1 else seed, if s.fld (TLT_TEST_CFG.WAVE c) = 2 then tab else [], false⟩ }
  else s

/-- The injection at an instant: started, ended, or going on. -/
def State.testStep (s : State) (c : Nat) : State :=
  match (s.ctx c).test with
  | none => s.testStart c
  | some r =>
    if !s.flag (TLT_TEST_CFG.RUN c) || decide ((s.ctx c).nu ≤ s.fld (TLT_TEST_CFG.OUT c)) then s.testEnd c
    else if r.stop then (s.testOver c).testStart c
    else s

/-- The value injected now. -/
def State.testValue (s : State) (c : Nat) (r : TestRun) : Num :=
  let amp := f32 (s.fld (TLT_TEST_AMP.AMP c))
  let wave := s.fld (TLT_TEST_CFG.WAVE c)
  if wave = 0 then mul32 amp (romEval 7 false (f32 r.phi))
  else if wave = 1 then (if bitN r.lfsr 30 then amp else amp.neg)
  else mul32 amp (f32 (getAt 0 r.table (r.n % (s.fld (TLT_TEST_CFG.TABLE_LEN_M1 c) + 1))))

/-- The waveform one sample on. -/
def State.testNext (s : State) (c : Nat) (r : TestRun) : TestRun :=
  let f0 := f32 (s.fld (TLT_TEST_F0.F0 c))
  let f1 := f32 (s.fld (TLT_TEST_F1.F1 c))
  let ratio := div32 (.ofNat r.n) (.ofNat (s.fld (TLT_TEST_N.N c)))
  let per := div32 (.ofNat (s.tltPeriod c)) (.ofNat 1000000000)
  let delta := mul32 (add32 f0 (rne32 ((f1.sub f0).mul ratio))) per
  let p := add32 (f32 r.phi) delta
  let phi := if p.isFin then rne32 (p.sub (.ofInt p.floor)) else .nan
  let hold := Nat.max 1 (s.fld (TLT_TEST_CFG.PRBS_HOLD c))
  let lfsr := if (r.n + 1) % hold = 0 then r.lfsr * 2 % 2 ^ 31 + (if bitN r.lfsr 30 != bitN r.lfsr 27 then 1 else 0) else r.lfsr
  { r with n := r.n + 1, phi := f32w phi, lfsr := lfsr }

/-- The waveform advances; after TEST_N samples the injection ends. -/
def State.testAdvance (s : State) (c : Nat) : State :=
  match (s.ctx c).test with
  | none => s
  | some r =>
    let q := s.testNext c r
    let n := s.fld (TLT_TEST_N.N c)
    if n ≠ 0 ∧ n ≤ q.n then s.testEnd c else s.setCtx c { (s.ctx c) with test := some q }

/-! ## The law (R495) -/

/-- Segment and weight of a scheduling variable at s. -/
def schedWeight (bp : List Nat) (s : Num) : Nat × Num :=
  let b := fun (k : Nat) => f32 (getAt 0 bp k)
  let n := bp.length
  if s.le (b 0) then (0, .zero)
  else if (b (n - 1)).le s then (n - 2, .ofNat 1)
  else
    let m := ((List.range (n - 1)).find? (fun k => (b k).le s && s.lt (b (k + 1)))).getD 0
    (m, mul32 (sub32 s (b m)) (div32 (.ofNat 1) (sub32 (b (m + 1)) (b m))))

/-- The output of a law at inputs x: none where a NaN is met (cause NAN). inj: an output and the value injected there. -/
def Law.output (l : Law) (x : Nat → Num) (vals : List Nat) (inj : Option (Nat × Num)) : Option (List Num) :=
  let used := (List.range l.nx).map x
  if used.any Num.isNan then none
  else
    let ws := l.sched.map (fun v => schedWeight v.2 (x v.1))
    let e := (List.range l.nx).map (fun i => sub32 (l.ref vals i) (vAt used i))
    let strides := (List.range ws.length).map (fun v => (l.sched.take v).foldl (fun a q => a * q.2.length) 1)
    let corner := fun (acc : List Num) (c : Nat) =>
      let w := (List.range ws.length).foldl (fun (a : Num) v =>
        let f := (getAt (0, .zero) ws v).2
        mul32 a (if bitN c v then f else (Num.ofNat 1).sub f)) (.ofNat 1)
      let g := sumN ((List.range ws.length).map (fun v => ((getAt (0, Num.zero) ws v).1 + b2n (bitN c v)) * getAt 0 strides v))
      (List.range l.nu).map (fun j =>
        let row := ((l.gains.drop (g * l.nu * l.nx + j * l.nx)).take l.nx).map f32
        fma32 w (chainAdd .zero (row.zip e)) (vAt acc j))
    let acc := (List.range (2 ^ ws.length)).foldl corner (List.replicate l.nu Num.zero)
    let u := (List.range l.nu).map (fun j =>
      let v := add32 (l.ref vals (0x100 + j)) (vAt acc j)
      match inj with
      | some (k, d) => if k = j then add32 v d else v
      | none => v)
    if u.any Num.isNan then none else some u

/-- Values within the law's limits. -/
def Law.clamp (l : Law) (u : List Num) : List Nat :=
  (List.range l.nu).map (fun j => f32w (((vAt u j).max (f32 (getAt 0 l.uMin j))).min (f32 (getAt 0 l.uMax j))))

/-- What a missed sample launches (R497). -/
def TltCtx.heldOut (x : TltCtx) : List Nat :=
  match x.prev, x.law with
  | some u, _ => u
  | none, some l => l.clamp (List.replicate l.nu Num.zero)
  | none, none => []

/-! ## Samples (R489, R495–R498) -/

/-- A missed sample: it carries INPUT_STALE, SP_STALE and SP_SUBST as any other (R489, R492). -/
def Sample.miss (p : Sample) (x : TltCtx) (cause : Nat) : Sample := { p with u := x.heldOut, flags := 1 + 2 * (p.flags / 2 % 8), cause := cause, inj := 0 }

/-- Law and setpoints in force from an instant on. -/
def TltCtx.atInstant (x : TltCtx) (inst : Nat) : TltCtx :=
  let x := match x.pend with
    | some (l, t) => if t < inst then x.switch l else x
    | none => x
  match x.shadow with
  | some b => if b.at_ < inst then { x with sp := some b, shadow := none } else x
  | none => x

/-- The sample of context c at its instant, with its law in force and its injection decided. -/
def State.takeSample (s : State) (c inst : Nat) : Sample :=
  let x := s.ctx c
  let old := (List.range 16).any (fun g => s.stale c g inst)
  let spMax := s.fld (TLT_SP_CTL.SP_MAX_AGE_100US c)
  let spOld := match x.sp with | some b => spMax != 0 && decide (b.at_ + spMax * 100000 < inst) | none => false
  let spSub := match x.sp with | some b => b.subst | none => false
  let age := 2 * b2n (old && !s.flag (TLT_CFG.STALE_HOLD c)) + 4 * b2n spOld + 8 * b2n spSub
  let p : Sample := ⟨c, s.fld (TLT_SAMPLES.COUNT c), inst, inst + s.tltLaunch c, [], age, 0, (match x.sp with | some b => b.seq | none => 0), 0,
    (List.range 256).map (fun i => Sparse.get (fun _ => 0) x.live i)⟩
  match x.law with
  | none => p.miss x 4
  | some l =>
    if old ∧ s.flag (TLT_CFG.STALE_HOLD c) then p.miss x 3
    else if l.spCount ≠ 0 ∧ x.sp.isNone then p.miss x 4
    else
      let inj := x.test.map (fun r => (s.fld (TLT_TEST_CFG.OUT c), s.testValue c r))
      match l.output (fun i => f32 (getAt 0 p.x i)) (match x.sp with | some b => b.vals | none => []) inj with
      | none => p.miss x 2
      | some u =>
        let w := l.clamp u
        { p with u := w, flags := age + 16 * b2n inj.isSome + 32 * b2n (w != u.map f32w), inj := (match inj with | some i => f32w i.2 | none => 0) }

/-- Sticky flags of a sample, its miss counted and signalled. -/
def State.sampleFlags (s : State) (p : Sample) : State :=
  let set := fun (t : State) (b : Nat) (f : Fld) => if bitN p.flags b then t.setF f 1 else t
  let t := set (set (set (set (set s 0 (TLT_FLAGS.MISSED p.ctx)) 1 (TLT_FLAGS.INPUT_STALE p.ctx)) 2 (TLT_FLAGS.SP_STALE p.ctx)) 3
    (TLT_FLAGS.SP_SUBST p.ctx)) 5 (TLT_FLAGS.CLAMPED p.ctx)
  if p.cause = 0 then t
  else
    let t := (t.bump (TLT_MISSED.COUNT p.ctx) 1).setF (TLT_FLAGS.LAST_CAUSE p.ctx) p.cause
    if t.flag (TLT_CFG.MISS_IRQ p.ctx) then t.tltEvent (15 + p.ctx) true else t

/-- A capture record (R502). An output past N_U holds an open value. -/
def State.captureBytes (s : State) (p : Sample) : List Byte :=
  let sel := fun (k : Nat) => s.fld (TLT_CAP_SEL.SEL p.ctx (k / 4)) / 2 ^ (8 * (k % 4)) % 256
  let ins_ := ((List.range 6).map (fun k => leBytes 4 (getAt 0 p.x (sel k)))).flatten
  let outs := ((List.range 6).map (fun k =>
    let j := sel (6 + k)
    leBytes 4 (if j < p.u.length then getAt 0 p.u j else (s.tookFree k).free 32))).flatten
  leBytes 4 p.seq ++ leBytes 4 (p.inst % 2 ^ 32) ++ leBytes 4 p.inj ++ leBytes 1 p.flags ++ leBytes 1 p.cause ++ leBytes 2 0 ++ ins_ ++ outs

/-- Capture ends: CAP_EN clears, EVENT.CAP_FULL sets. -/
def State.captureEnd (s : State) (c : Nat) : State := (s.setF (TLT_TEST_CFG.CAP_EN c) 0).tltEvent (23 + c) false

/-- A sample's capture record. -/
def State.capture (s : State) (p : Sample) : State :=
  let c := p.ctx
  let n := s.fld (TLT_CAP_COUNT.COUNT c)
  let max := s.fld (TLT_CAP_RECORDS.RECORDS c)
  let a := s.fld (TLT_TEST_CAP_LO.ADDR_LO c) * 64 + s.fld (TLT_TEST_CAP_HI.ADDR_HI c) * 2 ^ 32 + 64 * n
  if !s.flag (TLT_TEST_CFG.CAP_EN c) then s
  else if max ≤ n then s.captureEnd c
  else
    let t := if s.dataRange a 64 then (s.put tltMaster a (s.captureBytes p)).tookFree 6 else s
    let t := t.setF (TLT_CAP_COUNT.COUNT c) (n + 1)
    if n + 1 = max then t.captureEnd c else t

/-- The payload of an output (R498). -/
def Sample.payload (p : Sample) : List Byte :=
  leBytes 4 p.seq ++ leBytes 4 (p.inst % 2 ^ 32) ++ leBytes 4 p.spSeq ++ leBytes 1 p.ctx ++ leBytes 1 p.flags ++ leBytes 1 p.cause
    ++ leBytes 1 p.u.length ++ (p.u.map (leBytes 4)).flatten

/-- An output handed to its MAC; an output of the context that still waits there is dropped, as is one for a queue that is not Tilth's, or
for a MAC whose link is down (R498, R546); a MAC that has no power counts nothing (R557). -/
def State.handOver (s : State) (p : Sample) : State :=
  let n := s.fld (TLT_CFG.OUT_MAC p.ctx)
  let q := s.fld (TLT_CFG.OUT_QUEUE p.ctx)
  let x := s.mac n
  let old := (x.tilth.filter (fun f => f.ctx == p.ctx)).length
  let up := s.pdOn (pdEth n) && s.flag (ETH_CFG.EN n) && s.flag (ETH_CFG.LINK n) && s.flag (ETH_Q_CFG.TILTH n q)
  let keep := x.tilth.filter (fun f => f.ctx != p.ctx)
  (s.setMac n { x with tilth := if up then keep ++ [⟨p.ctx, q, p.launch, p.payload⟩] else keep }).bump (ETH_CNT.COUNT n 5) (if s.pdOn (pdEth n) then old + b2n (!up) else 0)

/-- The engine takes up the next waiting sample. -/
def Tilth.nextUp (t : Tilth) : Tilth :=
  match t.run, t.wait with
  | none, p :: l => { t with run := some p, wait := l }
  | _, _ => t

/-- A sample's end: flags, capture, hand-over unless Tilth is stopped (R500), the values launched, the context's stop (R487). -/
def State.endSample (s : State) (p : Sample) : State :=
  let t := (s.sampleFlags p).capture p
  let t := if s.flag TLT_STATUS.STOPPED then t else t.handOver p
  let x := t.ctx p.ctx
  let t := t.setCtx p.ctx { x with prev := some p.u, on := x.on && t.flag (TLT_CFG.EN p.ctx) }
  { t with tilth := t.tilth.nextUp }

/-- A sample leaves the engine's hands. -/
def State.dropSample (s : State) (c : Nat) : State :=
  { s with tilth := { s.tilth with run := s.tilth.run.filter (fun p => p.ctx != c), wait := s.tilth.wait.filter (fun p => p.ctx != c) } }

/-- The sample of a context that runs or waits. -/
def State.outstanding (s : State) (c : Nat) : Option Sample := (s.tilth.run.toList ++ s.tilth.wait).find? (fun p => p.ctx == c)

/-- Tilth runs: on and not stopped. -/
def State.tltUp (s : State) : Bool := s.pdOn pdTlt && !s.flag TLT_STATUS.STOPPED

/-- Context c stands at its instant: enabled, its time reached, its last sample done, no context with an earlier instant before it. -/
def State.instantDue (s : State) (c : Nat) : Bool :=
  let due := fun (k : Nat) => (s.ctx k).on && s.flag (TLT_CFG.EN k) && decide ((s.ctx k).next ≤ s.now)
  s.tltUp && due c && (s.outstanding c).isNone
    && (List.range 4).all (fun k => k == c || !due k || decide ((s.ctx c).next < (s.ctx k).next ∨ ((s.ctx c).next = (s.ctx k).next ∧ c < k)))

/-- The sample counted and the next instant set. -/
def State.countSample (s : State) (c : Nat) : State :=
  let x := s.ctx c
  (s.setCtx c { x with next := x.next + s.tltPeriod c }).setF (TLT_SAMPLES.COUNT c) ((s.fld (TLT_SAMPLES.COUNT c) + 1) % 2 ^ 32)

/-- A sample at its instant: law switch, setpoints, test signal, snapshot and computation. -/
def State.tltSnapshot (s : State) (c : Nat) : State × Sample :=
  let inst := (s.ctx c).next
  let t := ((s.setCtx c ((s.ctx c).atInstant inst)).testStep c).countSample c
  (t.testAdvance c, t.takeSample c inst)

/-- An instant: its sample goes to the engine, unless it is missed at once (STALE, NO_SP). -/
def State.instant (s : State) (c : Nat) : State :=
  let t := (s.tltSnapshot c).1
  let p := (s.tltSnapshot c).2
  if p.cause = 3 ∨ p.cause = 4 then t.endSample p
  else { t with tilth := { t.tilth with wait := t.tilth.wait ++ [p] }.nextUp }

/-- SAMPLE_INSTANT (R486, R489–R495). -/
def execSampleInstant (c : Nat) (s : State) : Host.Outcome State Fault Refusal :=
  answer (s.instantDue c && !s.tilth.inReset) s (s.start.instant c)

/-! ## Writes of the contexts' registers: an instant that has come is taken first, with what stood before (R488) -/

/-- The instants that have come, taken in their order, one a context. -/
def State.tltSettle (s : State) : State :=
  (List.range 4).foldl (fun (t : State) _ => match (List.range 4).find? (fun c => t.instantDue c && !t.tilth.inReset) with
    | some c => t.instant c
    | none => t) s

/-- LAW_LOAD_DONE (R494): the load of context c completes. -/
def execLawLoadDone (c : Nat) (s : State) : Host.Outcome State Fault Refusal :=
  let a := (s.ctx c).loading.getD 0
  let rd := s.imageRd a
  let len := if s.dataRange a 1664 then Nat.max 1664 (Nat.min (rd 12 4) 1048576) else 1664
  let ok := (s.ctx c).loading.isSome && s.pdOn pdTlt && !s.tilth.inReset
  if ok && s.dataRange a len && (s.pendingBlock (rangeBlocks a len)).isSome then .next (s.start.say .waits)
  else
    let err := if s.dataRange a 1664 then lawError rd (s.seenBytes a) (s.tltUnusable a) else 8
    answer ok s ((s.start.tltSettle.tltNote a len).lawDone c err (lawOf rd))

/-- SETPOINT_READ_DONE (R490): the read of context c's block completes; an instant that has come is taken before. -/
def execSetpointReadDone (c : Nat) (s : State) : Host.Outcome State Fault Refusal :=
  let u := s.start.tltSettle
  let x := u.ctx c
  let a := s.spAddr c
  let n := 32 + 4 * (match x.law with | some l => l.spCount | none => 0)
  let ok := x.reading && s.pdOn pdTlt && !s.tilth.inReset
  if ok && s.dataRange a n && (s.pendingBlock (rangeBlocks a n)).isSome then .next (s.start.say .waits)
  else
    let y := { x with reading := x.again, again := false }
    let t := u.tltNote a n
    answer ok s (match u.spBlock c with
      | some b => t.setCtx c { y with shadow := some b }
      | none => (t.setCtx c y).spReject c)

/-- A write of an input: staged, or live when it lies in no valid group. -/
def State.tltInput (s : State) (c i v : Nat) : State :=
  let s := s.tltSettle
  let x := s.ctx c
  if s.inGroup c i then s.setCtx c { x with staged := Sparse.set (fun _ => 0) x.staged i v }
  else s.setCtx c { x with staged := Sparse.set (fun _ => 0) x.staged i v, live := Sparse.set (fun _ => 0) x.live i v }

/-- The groups of a mask. -/
def State.tltCommit (s : State) (c mask : Nat) : State :=
  ((List.range 16).filter (fun g => bitN mask g)).foldl (fun (t : State) g => t.commitGroup c g) s.tltSettle

/-- TLT_INPUT_WRITE (R488): any master. -/
def execTltInputWrite (m c i v : Nat) (s : State) : Host.Outcome State Fault Refusal :=
  s.write m (TLT_IN.addr c i) (s.start.tltInput c i v)

/-- GROUP_COMMIT (R488): any master. -/
def execGroupCommit (m c v : Nat) (s : State) : Host.Outcome State Fault Refusal :=
  s.write m (TLT_COMMIT.addr c) (s.start.tltCommit c v)

/-- A write of TLT_c_CFG. While EN is 1 only EN counts, and clearing it lets the sample in progress launch; setting it succeeds under R485. -/
def State.tltCfg (s : State) (c : Nat) (w : Word) : State :=
  let s := s.tltSettle
  let x := s.ctx c
  let en := bits w 31 31 == 1
  if s.flag (TLT_CFG.EN c) then
    if en then s
    else
      let t := s.setF (TLT_CFG.EN c) 0
      let busy := (s.tilth.run.toList ++ s.tilth.wait).any (fun p => p.ctx == c)
      if busy then t else t.setCtx c { x with on := false }
  else
    let t := s.wr (TLT_CFG.addr c) (w &&& 0x7F1FFFFF)
    if !en then t
    else
      let p := t.tltPeriod c
      let l := t.tltLaunch c
      if x.law.isSome && decide (50000 ≤ p ∧ p ≤ 2000000 ∧ 2000 ≤ l ∧ l ≤ p) then
        let t1 := ((((t.setF (TLT_CFG.EN c) 1).setF (TLT_SAMPLES.COUNT c) 0).setF (TLT_MISSED.COUNT c) 0).setF (TLT_SP_REJECT.COUNT c) 0)
        t1.setCtx c { x with commits := [], sp := none, shadow := none, prev := none, on := true, next := firstInstant (s.tltStart c) p s.now }
      else t.setF (TLT_FLAGS.CFG_REJECT c) 1

/-- CONTEXT_ENABLE (R485): master m writes v, with EN set, to TLT_c_CFG. -/
def execContextEnable (m c v : Nat) (s : State) : Host.Outcome State Fault Refusal :=
  s.write m (TLT_CFG.addr c) (s.start.tltCfg c (ins (BitVec.ofNat 32 v) 31 31 1))

/-- CONTEXT_DISABLE (R487): master m writes v, with EN clear, to TLT_c_CFG. -/
def execContextDisable (m c v : Nat) (s : State) : Host.Outcome State Fault Refusal :=
  s.write m (TLT_CFG.addr c) (s.start.tltCfg c (ins (BitVec.ofNat 32 v) 31 31 0))

/-- A write of TEST_CFG: a RUN that R501 refuses changes nothing else, and one that is cleared ends the injection at
the next instant, even if it is set again before; setting CAP_EN starts a capture from record 0 (R502). -/
def State.testCfg (s : State) (c : Nat) (w : Word) : State :=
  let s := s.tltSettle
  if bits w 31 31 == 1 && (bits w 30 29 == 3 || decide ((s.ctx c).nu ≤ bits w 28 22)) then s.setF (TLT_FLAGS.TEST_REJECT c) 1
  else
    let t := if bits w 13 13 = 1 ∧ !s.flag (TLT_TEST_CFG.CAP_EN c) then s.setF (TLT_CAP_COUNT.COUNT c) 0 else s
    let t := if bits w 31 31 = 0 then t.setCtx c { (t.ctx c) with test := (t.ctx c).test.map (fun r => { r with stop := true }) } else t
    t.wr (TLT_TEST_CFG.addr c) (w &&& 0xFFFFEFFF)

/-- TEST_RUN (R501): master m writes v, with RUN set, to TLT_c_TEST_CFG. -/
def execTestRun (m c v : Nat) (s : State) : Host.Outcome State Fault Refusal :=
  s.write m (TLT_TEST_CFG.addr c) (s.start.testCfg c (ins (BitVec.ofNat 32 v) 31 31 1))

/-! ## Completion and deadline (R496, R497) -/

/-- The deadline of a sample (R486). -/
def Sample.deadline (p : Sample) : Nat := p.launch - 1000

/-- SAMPLE_COMPLETE (R496): the output of the running sample reaches the launch buffer, at its deadline at the latest. -/
def execSampleComplete (s : State) : Host.Outcome State Fault Refusal :=
  match s.tilth.run with
  | some p => answer (s.tltUp && !s.tilth.inReset && decide (s.now ≤ p.deadline)) s ((s.start.dropSample p.ctx).endSample p)
  | none => answer false s s

/-- A sample missed after its instant. -/
def State.missSample (s : State) (p : Sample) (cause : Nat) : State :=
  (s.dropSample p.ctx).endSample (p.miss (s.ctx p.ctx) cause)

/-- SAMPLE_DEADLINE (R497): the deadline of context c's sample has come and its output is not in the buffer, so the sample is abandoned; during a reset of the pair
its instant may not have been taken either. -/
def execSampleDeadline (c : Nat) (s : State) : Host.Outcome State Fault Refusal :=
  match s.outstanding c with
  | some p => answer (s.tltUp && decide (p.deadline ≤ s.now)) s
      (s.start.missSample p (if s.tilth.inReset then 5 else 1))
  | none =>
    let inst := (s.ctx c).next
    answer (s.instantDue c && s.tilth.inReset && decide (inst + s.tltLaunch c - 1000 ≤ s.now)) s
      (let r := s.start.tltSnapshot c
       r.1.endSample (r.2.miss (r.1.ctx c) 5))

/-! ## The pair (R402, R500) -/

/-- Mismatches within the last second of moment t. -/
def Tilth.recent (x : Tilth) (t : Nat) : List Nat := x.faults.filter (fun f => decide (t < f + 1000000000))

/-- A mismatch: counted and recorded; the samples in progress are missed and the pair is reset; the third in a second stops Tilth and raises the
Tilth fault interrupt (R402, R624). -/
def State.tltMismatch (s : State) : State :=
  let l := s.tilth.recent s.cyc ++ [s.cyc]
  let t := (s.bump ITG_LOCKSTEP.TLT 1).writeBroke { Broke.plain 0x09 with unit := tltMaster }
  let ps := t.tilth.run.toList ++ t.tilth.wait
  let third := decide (3 ≤ l.length)
  let t := { t with tilth := { t.tilth with run := none, wait := [], faults := l, inReset := true } }
  let t := if third then t.setF TLT_STATUS.STOPPED 1 else t
  let t := ps.foldl (fun (u : State) p => u.endSample (p.miss (u.ctx p.ctx) 5)) t
  if third then
    let t := { t with tilth := { t.tilth with ctxs := t.tilth.ctxs.map (fun (e : Nat × TltCtx) => (e.1, { e.2 with on := t.flag (TLT_CFG.EN e.1) })) } }
    (t.tltEvent 31 true).pulse 3
  else t

/-- LOCKSTEP_TLT_MISMATCH (R402). -/
def execLockstepTltMismatch (s : State) : Host.Outcome State Fault Refusal :=
  answer (s.pdOn pdTlt && !s.tilth.inReset) s s.start.tltMismatch

/-- TILTH_PAIR_RESET_DONE (R402, R500). -/
def execTilthPairResetDone (s : State) : Host.Outcome State Fault Refusal :=
  answer (s.pdOn pdTlt && s.tilth.inReset) s { s.start with tilth := { s.tilth with inReset := false } }

/-- Every enabled context goes on at its first instant after now, its held values anew. -/
def State.tltResume (s : State) (fresh : Bool) : State :=
  (List.range 4).foldl (fun (t : State) c =>
    let x := t.ctx c
    if x.on ∧ t.tltPeriod c ≠ 0 then
      t.setCtx c { x with next := instantAfter (t.tltStart c) (t.tltPeriod c) t.now, prev := if fresh then none else x.prev }
    else t) s

/-- A write of TLT_CTRL: RESTART while stopped (R500). -/
def State.tltCtrl (s : State) (w : Word) : State :=
  if bits w 31 31 = 1 ∧ s.flag TLT_STATUS.STOPPED then
    ({ s with tilth := { s.tilth with faults := [] } }.setF TLT_STATUS.STOPPED 0).tltResume true
  else s

/-- RESTART (R500): master m sets RESTART in TLT_CTRL. -/
def execTltRestart (m : Nat) (s : State) : Host.Outcome State Fault Refusal :=
  s.write m TLT_CTRL.addr (s.start.tltCtrl 0x80000000)

end Sys2Proof.Machine
end

