-- ==== Sys2Proof/Machine/Time.lean ====
section
/-! DEFINITION. The device time base (R531–R534, R549–R552): its rate, its advance and its wrap, the epoch, and the gate lists' place in time. The extended time is State.now; the
moment since module reset, which no step moves, is State.cyc. -/
namespace Sys2Proof.Machine

/-- An EVENT bit of TIM sets and its message is sent (R552). -/
def State.timEvent (s : State) (f : Fld) : State :=
  (s.setF f 1).irqMsg TIM_IRQ.EN TIM_IRQ.ERR_ONLY TIM_IRQ.HART TIM_IRQ.EIID true

/-- ρ as TIM_RATE holds it (R532). -/
def State.timRate (s : State) : Int := signed 32 (s.fld TIM_RATE.RHO)

/-- The accumulator after n cycles, not reduced: the first cycle adds the ρ in force when it began, the others TIM_RATE (R532). -/
def State.timSum (s : State) (n : Nat) : Int := (s.timAcc : Int) + s.timRho + ((n : Int) - 1) * s.timRate

/-- Nanoseconds by which n cycles advance the time base (R532). -/
def State.timAdvance (s : State) (n : Nat) : Nat := ((n : Int) + s.timSum n / (2 ^ 32 : Nat)).toNat

/-- The next n cycles carry the time base past 0xFFFF_FFFF. -/
def State.timWraps (s : State) (n : Nat) : Bool := decide (2 ^ 32 ≤ s.now % 2 ^ 32 + s.timAdvance n)

/-- A write of TIM_RATE, clamped (R532). -/
def State.timRateSet (s : State) (w : Word) : State :=
  s.wr TIM_RATE.addr (BitVec.ofInt 32 (clampI (-4294967) 4294967 (signed 32 w.toNat)))

/-- TIM_RATE_WRITE (R532). -/
def execTimRateWrite (m v : Nat) (s : State) : Host.Outcome State Fault Refusal :=
  s.write m TIM_RATE.addr (s.start.timRateSet (BitVec.ofNat 32 v))

/-- The offset of a step, as an unsigned 64-bit pattern (R533). -/
def State.stepOffset (s : State) : Nat := s.fld TIM_STEP_LO.VALUE + s.fld TIM_STEP_HI.VALUE * 2 ^ 32

/-- The gate list of a MAC after a step: the entry the new time falls in is looked up afresh (R534, R544). -/
def gatePos (gates : List (Nat × Nat)) (cycle base now : Nat) : Nat × Nat :=
  let pos := (((now : Int) - (base : Int)) % (cycle : Int)).toNat
  let n := gates.length
  (List.range n).foldl (fun (acc : Nat × Nat) i =>
    if acc.1 = i ∧ i + 1 < n ∧ acc.2 + (getAt (0, 0) gates i).2 ≤ pos then (i + 1, acc.2 + (getAt (0, 0) gates i).2) else acc) (0, 0)

/-- The entry of a MAC's operational list that an extended time falls in (R544). -/
def Mac.entryAt (x : Mac) (now : Nat) : Nat := if x.gates.isEmpty ∨ x.cycle = 0 then 0 else (gatePos x.gates x.cycle x.base now).1

/-- A write of TIM_EPOCH_HI: both words take effect (R550). -/
def State.epochHi (s : State) (w : Word) : State :=
  { s.wr TIM_EPOCH_HI.addr w with timEpoch := s.fld TIM_EPOCH_LO.VALUE + w.toNat * 2 ^ 32 }

/-- EPOCH_HI_WRITE (R550). -/
def execEpochHiWrite (m v : Nat) (s : State) : Host.Outcome State Fault Refusal :=
  s.write m TIM_EPOCH_HI.addr (s.start.epochHi (BitVec.ofNat 32 v))

end Sys2Proof.Machine
end

