-- ==== Sys2Proof/Machine/Ethernet.lean ====
section
/-! DEFINITION. The shared operations of the Ethernet MACs (R536–R548): rings, frames, one-step insertion, provisional tags, gates,
transmission selection, classification. -/
namespace Sys2Proof.Machine

/-- Master ID of the MACs (R365). -/
def ethMaster : Nat := 0x79

/-- A MAC is present, powered, enabled, with its link up. -/
def State.ethUp (s : State) (n : Nat) : Bool :=
  decide (n < 8) && (decide (n < 4) || s.iod1) && s.pdOn (pdEth n) && s.flag (ETH_CFG.EN n)
def State.ethLink (s : State) (n : Nat) : Bool := s.ethUp n && s.flag (ETH_CFG.LINK n)

/-- Tenths of a nanosecond a byte takes on the line (R539). -/
def State.ethByte (s : State) (n : Nat) : Nat := getAt 8 [80, 32, 16] (s.fld (ETH_CFG.SPEED n))

/-- Tenths of a nanosecond a frame of len bytes takes, with check sequence, preamble and gap (worked example of R546). -/
def State.ethTenths (s : State) (n len : Nat) : Nat := (Nat.max len 60 + 24) * s.ethByte n

/-! ## Rings (R540) -/

def State.txHead (s : State) (n q : Nat) : Nat := s.fld (ETH_TXQ_HEAD.COUNT n q)
def State.txDepth (s : State) (n q : Nat) : Nat := (s.fld (ETH_TXQ_TAIL.COUNT n q) + 2 ^ 32 - s.txHead n q) % 2 ^ 32
def State.rxDepth (s : State) (n q : Nat) : Nat :=
  (s.fld (ETH_RXQ_TAIL.COUNT n q) + 2 ^ 32 - s.fld (ETH_RXQ_HEAD.COUNT n q)) % 2 ^ 32

/-- Addresses of the head descriptors. -/
def State.txDescAddr (s : State) (n q : Nat) : Nat :=
  s.fld (ETH_TXQ_LO.BASE_LO n q) * 0x1000 + s.fld (ETH_TXQ_HI.BASE_HI n q) * 2 ^ 32
    + 32 * (s.txHead n q % 2 ^ s.fld (ETH_TXQ_LO.LOG2_SIZE n q))
def State.rxDescAddr (s : State) (n q : Nat) : Nat :=
  s.fld (ETH_RXQ_LO.BASE_LO n q) * 0x1000 + s.fld (ETH_RXQ_HI.BASE_HI n q) * 2 ^ 32
    + 32 * (s.fld (ETH_RXQ_HEAD.COUNT n q) % 2 ^ s.fld (ETH_RXQ_LO.LOG2_SIZE n q))

/-- A descriptor's bytes: zeros where the ring does not lie in DRAM data. -/
def State.ethDesc (s : State) (a : Nat) : List Byte := if s.dataRange a 32 then s.bytesAt a 32 else leBytes 32 0

/-- The die of a MAC. -/
def ethDie (n : Nat) : Nat := if n < 4 then 2 else 3

/-- A read of MAC n, charged to its class. -/
def State.ethRead (s : State) (n a len : Nat) : State := if s.dataRange a len then s.regulateRange ethMaster 8 (ethDie n) (a, len) else s

/-- A write of MAC n: bytes that do not lie in DRAM data are not written. -/
def State.ethPut (s : State) (n a : Nat) (bs : List Byte) : State :=
  if s.dataRange a bs.length then s.putThen ⟨ethMaster, .unit, ethDie n, a, bs, .nothing⟩ else s

/-- A queue that takes descriptors has one posted (R540, R546). -/
def State.txPosted (s : State) (n q : Nat) : Bool :=
  s.flag (ETH_Q_CFG.TX_EN n q) && !s.flag (ETH_Q_CFG.TILTH n q) && s.txDepth n q != 0

/-! ## Gates (R544) -/

/-- The gates in force: all open while the lists are not, or no list has taken effect. -/
def State.gatesNow (s : State) (n : Nat) : Nat :=
  let x := s.mac n
  if !s.flag (ETH_GATE_CTRL.GATE_EN n) || x.gates.isEmpty || x.cycle == 0 then 0xFF else (getAt (0xFF, 0) x.gates x.entry).1

/-- The entry in force is the one the extended time falls in, and no change is due. -/
def State.gatesFresh (s : State) (n : Nat) : Bool :=
  let x := s.mac n
  x.entry == x.entryAt s.now && (match x.change with | some c => decide (s.now < c.1) | none => true)

/-- The segments of one cycle: gates and length; the list is cut at the cycle's end, and the last entry holds until it. -/
def gateSegs (cycle : Nat) : Nat → List (Nat × Nat) → List (Nat × Nat)
  | _, [] => []
  | start, [e] => [(e.1, cycle - start)]
  | start, e :: l => if start + e.2 < cycle then (e.1, e.2) :: gateSegs cycle (start + e.2) l else [(e.1, cycle - start)]

/-- Nanoseconds for which gate q stays open through a list of segments, and whether it closes at their end. -/
def openFor (q : Nat) : List (Nat × Nat) → Nat × Bool
  | [] => (0, false)
  | e :: l => if bitN e.1 q then let r := openFor q l; (e.2 + r.1, r.2) else (0, true)

/-- Nanoseconds from now until gate q next closes under the operational list, none when it never does (R543). -/
def State.gateClose (s : State) (n q : Nat) : Option Nat :=
  let x := s.mac n
  if !s.flag (ETH_GATE_CTRL.GATE_EN n) || x.gates.isEmpty || x.cycle == 0 then none
  else
    let segs := gateSegs x.cycle 0 x.gates
    let pos := (((s.now : Int) - (x.base : Int)) % (x.cycle : Int)).toNat
    let i := (gatePos x.gates x.cycle x.base s.now)
    let here := getAt (0xFF, 0) segs i.1
    let rest := (here.1, i.2 + here.2 - pos) :: (segs.drop (i.1 + 1) ++ segs)
    let r := openFor q rest
    if r.2 then some r.1 else none

/-- A frame of len bytes started now would finish before its gate next closes (R543, R545). -/
def State.gateFits (s : State) (n q len : Nat) : Bool :=
  match s.gateClose n q with
  | some t => decide (s.ethTenths n len < t * 10)
  | none => true

/-- The administrative list of a change with LIST_LEN len cannot take effect (R544; a LIST_LEN past the list, log 37). -/
def State.gateBad (s : State) (n len : Nat) : Bool :=
  len == 0 || decide (256 < len) || s.fld (ETH_GATE_CYCLE.CYCLE_NS n) == 0 || (List.range len).any (fun e => s.fld (ETH_GCL.INTERVAL n e) == 0)

/-- A write of GATE_CTRL (R544, R556): a change that is rejected sets REJECT, and nothing changes. -/
def State.gateCtrl (s : State) (n : Nat) (w : Word) : State :=
  let a := ETH_GATE_CTRL.addr n
  let len := bits w 8 0
  let t := ((s.setF (ETH_GATE_CTRL.GATE_EN n) (bits w 31 31)).setF (ETH_GATE_CTRL.LIST_LEN n) len).setF (ETH_GATE_CTRL.REJECT n)
    (if bits w 29 29 = 1 then 0 else s.fld (ETH_GATE_CTRL.REJECT n))
  if bits w 30 30 = 0 then t
  else if s.gateBad n len then s.setF (ETH_GATE_CTRL.REJECT n) 1
  else
    let cyc := s.fld (ETH_GATE_CYCLE.CYCLE_NS n)
    let base := s.fld (ETH_GATE_BASE_LO.BASE n) + s.fld (ETH_GATE_BASE_HI.BASE n) * 2 ^ 32
    let lo := s.now + 1000
    let at_ := if lo ≤ base then base else base + ceilDiv (lo - base) cyc * cyc
    (t.wr a (ins (t.rd a) 30 30 1)).setMac n { t.mac n with change := some (at_, cyc) }

/-- The administrative list becomes operational. -/
def State.gateChange (s : State) (n : Nat) (c : Nat × Nat) : State :=
  let l := (List.range (Nat.min 256 (s.fld (ETH_GATE_CTRL.LIST_LEN n)))).map (fun e => (s.fld (ETH_GCL.GATES n e), s.fld (ETH_GCL.INTERVAL n e)))
  let x := { s.mac n with gates := l, cycle := c.2, base := c.1, change := none }
  (s.setMac n { x with entry := x.entryAt s.now }).setF (ETH_GATE_CTRL.CHANGE n) 0

/-! ## Frames (R538, R546, R547) -/

/-- Where the EtherType after any VLAN tags stands. -/
def etypeAt (f : List Byte) : Nat :=
  let tag := fun (o : Nat) => let t := beNat ((f.drop o).take 2); t == 0x8100 || t == 0x88A8
  if tag 12 then (if tag 16 then 20 else 16) else 12

/-- Bytes of a frame replaced from an offset on; what would lie past its end is dropped. -/
def patch (f : List Byte) (off : Nat) (bs : List Byte) : List Byte :=
  (f.take off ++ bs ++ f.drop (off + bs.length)).take f.length

/-- The one's-complement sum of the big-endian 16-bit words of a list of bytes. -/
def onesSum : List Byte → Nat
  | [] => 0
  | [a] => a.toNat * 256
  | a :: b :: l => let x := a.toNat * 256 + b.toNat + onesSum l; x % 65536 + x / 65536

/-- Where the UDP header of an IPv6 packet stands, past its extension headers: hop-by-hop, routing, destination, mobility, host identity, shim, and an
authentication header; none behind a fragment header of a fragment, or where another protocol follows (the header numbers are the family's, log 38). -/
def udp6 (f : List Byte) : Nat → Nat → Nat → Option Nat
  | 0, _, _ => none
  | k + 1, next, o =>
    if next = 17 then some o
    else if [0, 43, 60, 135, 139, 140].contains next then udp6 f k (leAt f o 1) (o + 8 + 8 * leAt f (o + 1) 1)
    else if next = 51 then udp6 f k (leAt f o 1) (o + 8 + 4 * leAt f (o + 1) 1)
    else if next = 44 then (if (beNat ((f.drop (o + 2)).take 2)).land 0xFFF9 = 0 then udp6 f k (leAt f o 1) (o + 8) else none)
    else none

/-- Where a UDP header stands in a frame, with the bytes of its addresses; none when it carries no UDP datagram or a fragment. -/
def udpAt (f : List Byte) : Option (Nat × List Byte) :=
  let o := etypeAt f
  let et := beNat ((f.drop o).take 2)
  let ip := o + 2
  if et = 0x0800 ∧ leAt f (ip + 9) 1 = 17 ∧ beNat ((f.drop (ip + 6)).take 2) % 0x4000 = 0 then
    some (ip + 4 * (leAt f ip 1 % 16), (f.drop (ip + 12)).take 8)
  else if et = 0x86DD then (udp6 f f.length (leAt f (ip + 6) 1) (ip + 40)).map (fun o => (o, (f.drop (ip + 8)).take 32))
  else none

/-- The UDP checksum recomputed over the message (R538). -/
def udpFix (f : List Byte) : List Byte :=
  match udpAt f with
  | none => f
  | some (o, addrs) =>
    let len := beNat ((f.drop (o + 4)).take 2)
    let g := patch f (o + 6) [0, 0]
    let c := 65535 - onesSum (addrs ++ beBytes 4 17 ++ beBytes 4 len ++ (g.drop o).take len)
    patch f (o + 6) (beBytes 2 (if c = 0 then 65535 else c))

/-- A frame with its one-step modification, at transmit time stamp ts in extended time (R536, R538). -/
def State.oneStep (s : State) (d f : List Byte) (ts : Nat) : List Byte :=
  let off := leAt d 13 1
  if leAt d 14 1 = 0 then
    let t := ts + s.timEpoch
    udpFix (patch f (off + 34) (beBytes 6 (t / 1000000000) ++ beBytes 4 (t % 1000000000)))
  else
    let turn := (ts % 2 ^ 32 + 2 ^ 32 - leAt d 16 4) % 2 ^ 32
    udpFix (patch f (off + 8) (beBytes 8 (beNat ((f.drop (off + 8)).take 8) + turn * 65536)))

/-- The provisional tag of R547 after SA and VLAN tags. -/
def provTag (f : List Byte) (seq : Nat) : List Byte :=
  f.take (etypeAt f) ++ beBytes 2 0x88B5 ++ [1, 0] ++ beBytes 4 seq ++ f.drop (etypeAt f)

/-- A frame on the wire: padded to 60 bytes with open values, its check sequence last (R539). -/
def State.wire (s : State) (n : Nat) (f : List Byte) : State :=
  let pad := 60 - f.length
  let g := f ++ (List.range pad).map (fun i => Config.freeValue 8 (s.freeCtr + i))
  (s.tookFree pad).emit (.frame "ETH" n (g ++ leBytes 4 (crc32Eth g)))

/-- The frame of a Tilth output (R546). -/
def State.tltFrame (s : State) (n : Nat) (t : TltFrame) : List Byte :=
  let w := fun (k : Nat) => s.fld (ETH_TPL.WORD n t.ctx k)
  beBytes 2 (w 1 % 65536) ++ beBytes 4 (w 0) ++ beBytes 4 (w 2) ++ beBytes 2 (w 1 / 65536)
    ++ (if bitN (w 3) 31 then beBytes 2 0x8100 ++ beBytes 2 (bitsN (w 3) 30 28 * 0x2000 + bitsN (w 3) 27 16) else [])
    ++ beBytes 2 (w 3 % 65536) ++ t.bytes

/-! ## Transmit descriptors (R538, R540, R543) -/

/-- Source blocks of a descriptor's frame. -/
def ethBlocks (d : List Byte) : List Nat := rangeBlocks (leAt d 0 6) (leAt d 6 2)

/-- A frame's source lies in DRAM data or in the Vat of a cluster that is on (R407). -/
def State.ethSource (s : State) (a len : Nat) : Bool :=
  s.dataRange a len || (match s.region a len with | .vat c => s.pdOn (pdClu c) | _ => false)

/-- A descriptor that cannot be sent: reserved bits, length, source, or a one-step field (R538, R540). -/
def State.badDesc (s : State) (d : List Byte) : Bool :=
  let len := leAt d 6 2
  let fl := leAt d 12 1
  decide (8 ≤ fl) || leAt d 15 1 != 0 || leAt d 21 3 != 0 || len == 0 || decide (9208 < len) || !s.ethSource (leAt d 0 6) len
    || (bitN fl 2 && (decide (1 < leAt d 14 1) || decide (len < leAt d 13 1 + 34)))

/-- LT has been reached; and is more than LATE_NS ago (R543). -/
def State.ltReached (s : State) (d : List Byte) : Bool :=
  !bitN (leAt d 12 1) 0 || decide ((s.time + 2 ^ 32 - leAt d 8 4) % 2 ^ 32 < 2 ^ 31)
def State.ltLate (s : State) (n : Nat) (d : List Byte) : Bool :=
  let late := (s.time + 2 ^ 32 - leAt d 8 4) % 2 ^ 32
  bitN (leAt d 12 1) 0 && decide (s.fld (ETH_CFG.LATE_NS n) < late ∧ late < 2 ^ 31)

/-- What the MAC has read of a head frame is kept with it. -/
def State.keepHead (s : State) (n q : Nat) (h : EthFetch) : State := s.setMac n ((s.mac n).setHead q (some h))

/-- The source of a head frame whose descriptor is good and has been read in t: refused as poisoned or as failing its check, else numbered. -/
def State.fetchSource (s t : State) (n q : Nat) (d : List Byte) : State :=
  match s.scanBlocks true false (ethBlocks d) with
  | .wait _ => s
  | .stop st b => (if st = stWatermark then (t.checkRead b 0 0).1 else t).keepHead n q ⟨d, [], 3, none⟩
  | .ok _ => match (t.noteReads (ethBlocks d) 0 0).provUnit n (ethBlocks d) with
    | none => s
    | some r => r.1.keepHead n q ⟨d, r.1.bytesAt (leAt d 0 6) (leAt d 6 2), 0, r.2⟩

/-- A frame that has reached the head of its queue is read with its descriptor: refused, or its source checked and numbered (R407, R540). One whose
blocks are being filled, or whose provisional number must wait, is read later. -/
def State.fetchHead (s : State) (n q : Nat) : State :=
  let a := s.txDescAddr n q
  let d := s.ethDesc a
  if !(s.ethLink n && s.txPosted n q && ((s.mac n).head q).isNone) || s.filling a 32 then s
  else if s.badDesc d then (s.ethRead n a 32).keepHead n q ⟨d, [], 2, none⟩
  else s.fetchSource ((s.ethRead n a 32).ethRead n (leAt d 0 6) (leAt d 6 2)) n q d

/-- Every head frame of a MAC that can be read is. -/
def State.ethFetch (s : State) (n : Nat) : State := (List.range 8).foldl (fun (t : State) q => t.fetchHead n q) s

/-- The status with which the head of a queue is refused whatever its gate and its launch time: LINK_DOWN, or what its reading gave (BAD_DESC, POISONED,
also for a source that fails its check); 0 when it may be sent or is not read yet. The frame on the line is no head to refuse. -/
def State.refusal (s : State) (n q : Nat) : Nat :=
  if !s.flag (ETH_CFG.LINK n) then 4 else match (s.mac n).head q with | some h => h.status | none => 0

/-- The descriptor at the head is written back and popped (R537, R540, R547), and the next one is at the head. -/
def State.writeBack (s : State) (n q status : Nat) (ts prov : Option Nat) : State :=
  let a := s.txDescAddr n q
  let s1 := s.ethPut n (a + 20) (leBytes 1 status)
  let s2 := match ts with | some t => s1.ethPut n (a + 24) (leBytes 4 t) | none => s1
  let s3 := match prov with | some p => s2.ethPut n (a + 28) (leBytes 4 p) | none => s2
  let s4 := s3.setF (ETH_TXQ_HEAD.COUNT n q) ((s.txHead n q + 1) % 2 ^ 32)
  (s4.setMac n ((s4.mac n).setHead q none)).fetchHead n q

/-! ## Transmission selection (R543) -/

/-- What stands at the head of a queue. -/
inductive EthHead where
  | notice (f : List Byte)
  | tilth (t : TltFrame)
  | ring (h : EthFetch)
deriving DecidableEq, Repr

/-- The head of a queue: a notice first (R545), a Tilth output unless Tilth is stopped (R500), or a frame that has been read. -/
def State.ethHead (s : State) (n q : Nat) : Option EthHead :=
  let x := s.mac n
  if !s.flag (ETH_Q_CFG.TX_EN n q) then none
  else match if s.fld (ETH_CFG.NOTICE_Q n) = q then x.notices.head? else none with
  | some f => some (.notice f)
  | none =>
    if s.flag (ETH_Q_CFG.TILTH n q) then (if s.flag TLT_STATUS.STOPPED then none else (x.tilth.find? (fun t => t.queue == q)).map .tilth)
    else if s.txPosted n q then (x.head q).map .ring
    else none

/-- The head is ready, and the length of its frame: a ring frame that is not refused, its launch time reached and not too late. -/
def State.headReady (s : State) (n q : Nat) (h : EthHead) : Option Nat :=
  match h with
  | .notice f => some f.length
  | .tilth t => if t.launch ≤ s.now ∧ s.now ≤ t.launch + s.fld (ETH_CFG.LATE_NS n) then some (s.tltFrame n t).length else none
  | .ring h =>
    if h.status = 0 ∧ s.ltReached h.desc ∧ !(s.flag (ETH_Q_CFG.LATE_POLICY n q) && s.ltLate n h.desc) then
      some (h.bytes.length + if h.prov.isSome then 8 else 0)
    else none

/-- A queue is eligible. -/
def State.eligible (s : State) (n q : Nat) : Bool :=
  match s.ethHead n q with
  | none => false
  | some h => match s.headReady n q h with
    | some len => bitN (s.gatesNow n) q && s.gateFits n q len
    | none => false

/-- The line is idle: no frame on it, no PAUSE in force, the gates' entry up to date. -/
def State.lineIdle (s : State) (n : Nat) : Bool :=
  s.ethLink n && (s.mac n).tx.isNone && decide ((s.mac n).pausedTo ≤ s.cyc) && s.gatesFresh n

/-- The highest-numbered eligible queue. -/
def State.chosen (s : State) (n : Nat) : Option Nat := [7, 6, 5, 4, 3, 2, 1, 0].find? (fun q => s.eligible n q)

/-- The transmit time stamp in extended time (R536). -/
def State.txStamp (s : State) (n : Nat) : Nat := s.now + s.fld (ETH_LAT.TX_NS n)

/-- A ring frame goes on the line, modified and tagged (R538, R547). -/
def State.sendRing (s : State) (n q : Nat) (h : EthFetch) : State :=
  let ts := s.txStamp n
  let f1 := if bitN (leAt h.desc 12 1) 2 then s.oneStep h.desc h.bytes ts else h.bytes
  let f2 := match h.prov with | some k => provTag f1 k | none => f1
  (s.wire n f2).setMac n { s.mac n with tx := some ⟨q, true, bitN (leAt h.desc 12 1) 1, ts, h.prov⟩ }

/-- A Tilth output goes on the line. -/
def State.sendTilth (s : State) (n q : Nat) (t : TltFrame) : State :=
  let x := s.mac n
  (s.wire n (s.tltFrame n t)).setMac n { x with tx := some ⟨q, false, false, s.txStamp n, none⟩, tilth := x.tilth.filter (· != t) }

/-- A Tilth output is dropped (R546). -/
def State.dropTilth (s : State) (n : Nat) (t : TltFrame) : State :=
  let x := s.mac n
  (s.setMac n { x with tilth := x.tilth.filter (· != t) }).bump (ETH_CNT.COUNT n 5) 1

/-! ## Reception (R541, R542) -/

/-- The fields of a frame that an entry may match: DA, EtherType, VID and PCP of the outermost tag, UDP destination port. -/
structure EthKey where
  da : Nat
  etype : Nat
  tci : Option Nat
  udp : Option Nat
deriving DecidableEq, Repr

def ethKey (f : List Byte) : EthKey :=
  let o := etypeAt f
  { da := beNat (f.take 6), etype := beNat ((f.drop o).take 2),
    tci := if 12 < o then some (beNat ((f.drop 14).take 2)) else none,
    udp := (udpAt f).map (fun u => beNat ((f.drop (u.1 + 2)).take 2)) }

/-- Entry e matches (R541). -/
def State.clsMatch (s : State) (n e : Nat) (k : EthKey) : Bool :=
  let m := s.fld (ETH_CLS.MATCH n e)
  s.flag (ETH_CLS.VALID n e)
    && (!bitN m 4 || k.da == s.fld (ETH_CLS_W1.DA n e) + s.fld (ETH_CLS_W2.DA n e) * 2 ^ 32)
    && (!bitN m 3 || k.etype == s.fld (ETH_CLS_W2.ETYPE n e))
    && (!bitN m 2 || k.tci.any (fun t => t % 4096 == s.fld (ETH_CLS_W3.VID n e)))
    && (!bitN m 1 || k.tci.any (fun t => t / 8192 == s.fld (ETH_CLS_W3.PCP n e)))
    && (!bitN m 0 || k.udp == some (s.fld (ETH_CLS_W3.UDP n e)))

/-- Entries that match, in ascending order. -/
def State.clsHits (s : State) (n : Nat) (f : List Byte) : List Nat := (List.range 32).filter (fun e => s.clsMatch n e (ethKey f))

/-- A write of word 0 of an entry: the held words 1–3 take effect with it (R541). -/
def State.clsCommit (s : State) (n e : Nat) (w : Word) : State :=
  [ETH_CLS_W1.addr n e, ETH_CLS_W2.addr n e, ETH_CLS_W3.addr n e].foldl (fun (t : State) a => (t.wr a (s.heldOr a)).unhold a)
    (s.wr (ETH_CLS.addr n e) (ins w 14 14 0))

/-- A frame goes to a receive queue (R540); at_: the time base at its message time stamp point (R536). -/
def State.rxTo (s : State) (n q at_ : Nat) (entry : Option Nat) (f : List Byte) : State :=
  if !s.flag (ETH_Q_CFG.RX_EN n q) || s.rxDepth n q == 0 then s.bump (ETH_CNT.COUNT n 1) 1
  else
    let a := s.rxDescAddr n q
    let d := s.ethDesc a
    let cap := leAt d 6 2
    let kept := f.take cap
    let ts := (at_ + 2 ^ 32 - s.fld (ETH_LAT.RX_NS n)) % 2 ^ 32
    let s1 := (s.ethRead n a 32).ethPut n (leAt d 0 6) kept
    let s2 := s1.ethPut n (a + 8) (leBytes 2 kept.length)
    let s3 := s2.ethPut n (a + 12) (leBytes 4 ts ++ leBytes 1 (b2n (decide (cap < f.length))) ++ leBytes 1 (entry.getD 0xFF))
    s3.setF (ETH_RXQ_HEAD.COUNT n q) ((s.fld (ETH_RXQ_HEAD.COUNT n q) + 1) % 2 ^ 32)

/-- A frame goes to a Tilth input group, or is dropped (R542). -/
def State.rxTilth (s : State) (n e : Nat) (f : List Byte) : State :=
  let c := s.fld (ETH_CLS.TLT_CTX n e)
  let g := s.fld (ETH_CLS.TLT_GROUP n e)
  let off := s.fld (ETH_CLS.PAYLOAD_OFF n e)
  let is := s.groupInputs c g
  let k := is.length
  if !s.pdOn pdTlt || !s.flag (TLT_GROUP.VALID c g) || decide (f.length < off + 4 * k) then s.bump (ETH_CNT.COUNT n 4) 1
  else
    let t := (List.range k).foldl (fun (u : State) i => u.tltInput c (getAt 0 is i) (leAt f (off + 4 * i) 4)) s
    t.tltCommit c (2 ^ g)

/-- The receive queue a good frame goes to, if it goes to one. -/
def State.rxQueue (s : State) (n : Nat) (f : List Byte) : Option Nat :=
  match s.clsHits n f with
  | [] => some (s.fld (ETH_CFG.DEF_QUEUE n))
  | e :: _ => if s.fld (ETH_CLS.ACTION n e) = 0 then some (s.fld (ETH_CLS.QUEUE n e)) else none

/-- The descriptor or the buffer that a frame goes to is being filled (R334). -/
def State.rxWaits (s : State) (n : Nat) (f : List Byte) : Bool :=
  (s.rxQueue n f).any (fun q => s.flag (ETH_Q_CFG.RX_EN n q) && s.rxDepth n q != 0
    && (s.filling (s.rxDescAddr n q) 32 || s.filling (leAt (s.ethDesc (s.rxDescAddr n q)) 0 6) (Nat.min f.length (leAt (s.ethDesc (s.rxDescAddr n q)) 6 2))))

/-- A received frame of 60 to 9,216 bytes (R540–R542). -/
def State.rxFrame (s : State) (n at_ : Nat) (fcsOk : Bool) (f : List Byte) : State :=
  let hits := s.clsHits n f
  if !fcsOk then
    let t := s.bump (ETH_CNT.COUNT n 0) 1
    if hits.head?.any (fun e => s.fld (ETH_CLS.ACTION n e) == 2) then t.bump (ETH_CNT.COUNT n 4) 1 else t
  else match hits with
    | [] => (s.bump (ETH_CNT.COUNT n 3) 1).rxTo n (s.fld (ETH_CFG.DEF_QUEUE n)) at_ none f
    | e :: l =>
      let t := if l.isEmpty then s else s.bump (ETH_CNT.COUNT n 2) 1
      match s.fld (ETH_CLS.ACTION n e) with
      | 0 => t.rxTo n (s.fld (ETH_CLS.QUEUE n e)) at_ (some e) f
      | 2 => t.rxTilth n e f
      | _ => t

/-- A PAUSE frame: MAC control, opcode 1. -/
def isPause (f : List Byte) : Bool := beNat ((f.drop 12).take 4) == 0x88080001

end Sys2Proof.Machine
end

