-- ==== Sys2Proof/Machine/Domains.lean ====
section
/-! DEFINITION. What switching a power domain off resets (R51, R52, R688) and the module reset (R633). -/
namespace Sys2Proof.Machine

/-- Registers that PD_IO0_AON and PD_IO0_MTI, and fuses, keep through a module reset: identity and variant, the calendar clock, the shutdown cause, the
island's page, and what a cluster's repair fuses hold. -/
def keptRegister (a : Nat) : Bool :=
  a == MGT_DEVICE_ID.addr || a == MGT_VARIANT.addr || regDomain a == 80 || regDomain a == 81
    || (decide (0x30000000 ≤ a ∧ a < 0x34000000) && keptInFuses ((a - 0x30000000) / 0x100000) a)

/-- Registers that outlast their domain but no module reset: the start-up results of the memory controllers (chapter 09), and the port
configurations once they are locked (R593), whose link is down all the same (State.linksOff). -/
def State.keptByDomain (s : State) (a : Nat) : Bool :=
  keptRegister a || (decide (0x23000000 ≤ a ∧ a < 0x23800000) && decide (a % 0x100000 < 8))
    || (a == PCI_CFG.addr 0 && s.flag (PCI_CFG.LOCK 0)) || (a == PCI_CFG.addr 1 && s.flag (PCI_CFG.LOCK 1))

/-- The domain whose unit holds a register: that of its page, but for the pin registers of I/O die 1, whose peripherals lie in PD_IO1_CORE while
their page is on I/O die 0 (R49, R51). -/
def regHome (a : Nat) : Nat := if 0x66000100 ≤ a ∧ a < 0x66000180 then 90 else regDomain a

/-- The links of the PCIe ports of a domain are down: LINK_UP, WIDTH and RATE read 0, whether LOCK keeps the rest of PCI_CFG or not (R593). -/
def State.linksOff (s : State) (d : Nat) : State :=
  [0, 1].foldl (fun (t : State) p => if regHome (PCI_CFG.addr p) = d then t.wr (PCI_CFG.addr p) (pciLinkOff (t.rd (PCI_CFG.addr p))) else t) s

/-- The registers of a domain go to their reset values; those whose reset value the image gives take that (R644, R651). -/
def State.domainRegs (s : State) (d : Nat) : State :=
  let t := s.resetRegs (fun a => regHome a == d && !s.keptByDomain a)
  let t := { t with held := Sparse.drop (fun a => regHome a == d) t.held }
  let t := t.linksOff d
  (t.imageRegs.filter (fun e => regHome e.1 == d && !s.keptByDomain e.1)).foldl (fun (u : State) e => match e.2 with | some w => u.wr e.1 w | none => u) t

/-- Harts of a group stop; their architectural state is lost, their timer compare with it (R630). -/
def State.groupOff (s : State) (g : Nat) : State :=
  [4 * g, 4 * g + 1, 4 * g + 2, 4 * g + 3].foldl (fun (t : State) h => (t.setHart h Hart.init).setF (APC_HART_STATUS.STATE h) 2) s

/-- The memory of a die loses its contents. -/
def State.memLost (s : State) (die : Nat) : State :=
  let mine := fun (a : Nat) => s.isDram a && decide ((s.decodeDram a).1 / 4 = die)
  { s with mem := Sparse.drop mine s.mem, upsets := Sparse.drop mine s.upsets, tags := Sparse.drop (fun b => mine (b * 4096)) s.tags,
           chan := Sparse.drop (fun b => mine (b * 4096)) s.chan,
           checked := Sparse.drop (fun i => decide (i / 4 = die)) s.checked, patrols := Sparse.drop (fun i => decide (i / 4 = die)) s.patrols,
           movers := Sparse.drop (fun m => decide (m / 8 = die)) s.movers }

/-- Egress ports lose their open provisional entries with their numbers. -/
def State.egressLost (s : State) (p : Nat → Bool) : State :=
  { s with trackers := Sparse.drop p s.trackers, provNext := Sparse.drop p s.provNext }

/-- The units of a CORE domain of a compute die: its Headbox instance, its halves of the Deckle's queues and of the Quire's slots (R32), the
interrupt files of its harts (R622); the IOMMU is on die A. The admission unit, the batches and the Quire's command engines are on die A (DESIGN CHOICE, log 77). -/
def State.coreLost (s : State) (die : Nat) : State :=
  let t := { s with hbxs := Sparse.drop (fun k => decide (k / 32 = die)) s.hbxs, hbxq := Sparse.drop (fun k => decide (k < hopPorts ∧ hopInst k = die)) s.hbxq,
                    late := s.late.filter (fun x => x.die != die), hbxCopy := if die = 0 then none else s.hbxCopy, queues := Sparse.drop (fun q => decide (q / 16384 = die)) s.queues }
  let u := { t with slots := Sparse.drop (fun n => decide (n / 512 = die)) t.slots, eip := Sparse.drop (fun k => decide (k / 84 = die)) t.eip }
  if die = 0 then { u with objs := [], adm := .idle, batches := [], quiCmds := [], cows := [], iotlb := [] } else u

/-- The units of a domain lose their state. -/
def State.domainUnits (s : State) (d : Nat) : State :=
  if d < 32 ∨ (40 ≤ d ∧ d < 72) then
    let n := if d < 32 then d else d - 8
    let t := (s.powerCycle n).loseStreams n
    { t with phaseReports := s.phaseReports.filter (fun e => e.1 != n),
                          pmu := { s.pmu with clus := Sparse.set (fun _ => PmuClu.init) s.pmu.clus n { s.pmuClu n with droop := none } } }
  else if d < 35 then s.groupOff (d - 32)
  else if 72 ≤ d ∧ d < 75 then s.groupOff (d - 69)
  else if d = 36 then s.coreLost 0
  else if d = 76 then s.coreLost 1
  else if d = 37 then s.memLost 0
  else if d = 77 then s.memLost 1
  else if d = 38 then (s.setEng 1 EngUnit.init).setDune 0 { Dune.init with gen := (s.dune 0).gen }
  else if d = 78 then (s.setEng 2 EngUnit.init).setDune 1 { Dune.init with gen := (s.dune 1).gen }
  else if d = 39 then (s.setEng 3 EngUnit.init).setSlv 0 noSlots
  else if d = 79 then (s.setEng 4 EngUnit.init).setSlv 1 noSlots
  else if d = 84 then { s with tilth := Tilth.init }
  else if d = 85 then { s.setEng 5 EngUnit.init with loam := { s.loam with tracks := [] } }
  else if d = 86 then { s with macs := Sparse.drop (fun n => decide (n < 4)) s.macs }.egressLost (fun p => decide (p < 4))
  else if d = 91 then { s with macs := Sparse.drop (fun n => decide (4 ≤ n)) s.macs }.egressLost (fun p => decide (4 ≤ p ∧ p < 8))
  else if d = 87 then { s with csis := Sparse.drop (fun k => decide (k / 4 < 8)) s.csis, late := s.late.filter (fun x => !(x.kind == .camera && x.die == 2)) }
  else if d = 92 then { s with csis := Sparse.drop (fun k => decide (8 ≤ k / 4)) s.csis, late := s.late.filter (fun x => !(x.kind == .camera && x.die == 3)) }
  else if d = 88 then s.setPport 0 PPort.init
  else if d = 93 then s.setPport 1 PPort.init
  else if d = 89 then (s.setZport 0 ZPort.init).egressLost (fun p => p == 8)
  else if d = 94 then ((s.setZport 1 ZPort.init).setZport 2 ZPort.init).egressLost (fun p => p == 9 || p == 10)
  else if d = 90 then { s with pins := Sparse.drop (fun n => decide (64 ≤ n)) s.pins }
  else s

/-- The level of PCI_p_PERST_N of a domain's ports after its reset: a root port whose mode stands, or is applied again, drives it low; any other
ball is high impedance (R730). -/
def State.perstBalls (s : State) (d : Nat) : State :=
  [0, 1].foldl (fun (t : State) p => if regHome (PCI_CFG.addr p) = d then t.perstBall p else t) s

/-- A domain goes off: clocks stop, reset, isolation, the switch opens (R688). -/
def State.domainOff (s : State) (d : Nat) : State :=
  ([50, 51, 52, 53].foldl State.sense (((s.setPd d 0).domainUnits d).domainRegs d)).perstBalls d

/-- What the CMOS outputs of R730 take at a module reset (R737): 0 low, 1 high, 2 high impedance; per CAN controller and per PCIe port its own.
The GPIO balls have theirs in pins (R613), and the island's are not affected. JTAG_TDO goes on where the test access port, which the reset leaves
alone, shifts. -/
def resetBalls (shifting : Bool) : List Out :=
  [.note "BOOT_FAULT_N" [2], .note "PMB" [2], .note "AVS_CLK" [0], .note "AVS_MDATA" [0], .note "XSP_CS_N" [1], .note "XSP_SCLK, XSP_IO, XSP_DQS" [2],
   .note "XSP_RESET_N" [0]] ++ (List.range 4).map (fun n => .note "CAN_TX" [n, 1]) ++ (if shifting then [] else [.note "JTAG_TDO" [2]])
    ++ (List.range 2).map (fun p => .note "PCI_PERST_N" [p, 2])

/-- Every domain but PD_IO0_AON and PD_IO0_MTI returns to its hardware reset (R633): what stays is the calendar clock, the island, fuses, the flash,
the test access port, what the rail monitors show, and the queue of commands. A program or erase of the flash that it cuts short leaves its range open. cause: what the log
will record. The outputs take their levels of R730. While the shutdown hold is armed, PD_IO0_MGT and PD_IO0_CORE stay in reset (R686). -/
def State.moduleReset (s : State) (cause : Nat) : State :=
  let s := match s.flashCmd with | some c => s.flashSpoil c | none => s
  let t := (List.range 64).foldl State.repairUp s
  let r : State := { State.reset with
    pending := s.pending, resp := s.resp, out := s.out ++ resetBalls s.tap.shifting, freeCtr := s.freeCtr, idCtr := s.idCtr,
    regs := Sparse.drop (fun a => !keptRegister a) t.regs, latches := Sparse.drop (fun k => !(regDomain (k % 2 ^ 48) == 80)) s.latches,
    held := Sparse.drop (fun a => !(regDomain a == 80)) s.held,
    flash := s.flash, flashRegs := s.flashRegs, mti := s.mti, mtiStore := s.mtiStore, rtcNext := s.rtcNext, lostToLog := s.lostToLog, fuses := s.fuses,
    pd := Sparse.drop (fun d => !(d == 80 || d == 81)) s.pd,
    mgt := { Mgt.init with cause := cause, hold := s.mgt.hold }, tap := s.tap, supply := { s.supply with heldTo := 0 } }
  if s.mgt.hold then (r.setPd 82 0).setPd 83 0 else r

/-- The module reset of an external cause that has ended: the device stays in it for 1 ms more (R735). -/
def State.externalReset (s : State) : State :=
  let t := s.moduleReset 1
  { t with supply := { t.supply with heldTo := t.cyc + 1000000 } }

end Sys2Proof.Machine
end

