-- ==== Sys2Proof/Machine/Power.lean ====
section
/-! DEFINITION. Power capping, energy, droop and rail failures (R672–R683, R703). Powers are in µW, a rail's current in units of 10 mA, energies in
units of 100 pJ. -/
namespace Sys2Proof.Machine

/-! ## Events and log entries -/

/-- A bit of PMU_EVENT [31:27] sets: source 4 is raised (R695). -/
def State.powerEvent (s : State) (f : Fld) : State := (s.setF f 1).sense 4

/-- Power of a rail in µW. -/
def Rail.power (x : Rail) : Nat := x.mv * x.i * 10

/-- DATA of a POWER entry about a rail (R683). -/
def State.railData (s : State) (r mask : Nat) : List Byte := leBytes 1 r ++ [0] ++ leBytes 2 mask ++ leBytes 4 (s.rail r).i

/-- PMU_STATUS.OVER_CAP follows the conditions of R677 and R682. -/
def State.overCap (s : State) : Bool := s.pmu.capOver || s.pmu.rails.any (fun e => e.2.unmet)

/-- OVER_CAP after the conditions changed: its first setting in a second is logged and raises the event. The entry of a cap that no rail
breaks names no rail, so its DATA is open. -/
def State.overUpdate (s : State) (rail : Option Nat) : State :=
  let now := s.overCap
  let was := s.flag PMU_STATUS.OVER_CAP
  let t := s.setF PMU_STATUS.OVER_CAP (b2n now)
  if now && !was && (match t.pmu.overAt with | none => true | some m => decide (m + 1000000000 ≤ t.cyc)) then
    let data := match rail with
      | some r => t.railData r 0
      | none => (List.range 8).map (fun i => Config.freeValue 8 (t.freeCtr + i))
    let u := ({ t.tookFree (if rail.isNone then 8 else 0) with pmu := { t.pmu with overAt := some t.cyc } } : State)
    (u.logEvent logPower 3 0 data).powerEvent PMU_EVENT.OVER_CAP
  else t

/-! ## The cap (R675) -/

/-- A write of PMU_CAP. -/
def State.capWrite (s : State) (w : Word) : State :=
  let c := bits w 8 0
  if c < 40 ∨ 300 < c ∨ (120 < c ∧ s.thermal.coldPlate = false) then s.powerEvent PMU_EVENT.CAP_REJECT else s.setF PMU_CAP.CAP_W c

/-- CAP_WRITE (R675): master m writes v to PMU_CAP. -/
def execCapWrite (m v : Nat) (s : State) : Host.Outcome State Fault Refusal :=
  s.write m PMU_CAP.addr (s.start.capWrite (BitVec.ofNat 32 v))

/-! ## Sharing (R677) -/

/-- A cluster with a demand: number, IDLE in µW, D in mW. -/
structure Demand where
  clu : Nat
  idle : Nat
  d : Nat
deriving DecidableEq, Repr

/-- q_n at level L (mW). -/
def Demand.q (x : Demand) (l : Nat) : Nat := if x.d = 0 then 64 else Nat.min 64 (64 * l / x.d)

/-- 64 times the power of the clusters at level L, in µW. -/
def levelCost (cs : List Demand) (l : Nat) : Nat := sumN (cs.map (fun x => 64 * x.idle + 1000 * x.q l * x.d))

/-- The greatest k at most k0 + 2^n − 1 for which a budget of b µW holds level 10 k, where level 10 k0 fits: the cost never falls as the
level rises, so the steps of R677 need not be walked one by one. -/
def levelSearch (cs : List Demand) (b : Int) : Nat → Nat → Nat
  | 0, k => k
  | n + 1, k =>
    let k' := k + 2 ^ n
    if k' ≤ 6553 ∧ (levelCost cs (10 * k') : Int) ≤ 64 * b then levelSearch cs b n k' else levelSearch cs b n k

/-- The share-out of R677: the rate of each cluster, and whether even level 0 does not fit. -/
def shareOut (qFloor : Nat) (cs : List Demand) (b : Int) : List (Nat × Nat) × Bool :=
  if (levelCost cs 0 : Int) ≤ 64 * b then
    let l := 10 * levelSearch cs b 13 0
    (cs.map (fun x => (x.clu, Nat.max qFloor (x.q l))), false)
  else (cs.map (fun x => (x.clu, qFloor)), true)

/-- Clusters in service with their domain on, with their demands. -/
def State.demands (s : State) : List Demand :=
  ((List.range 64).filter (fun n => s.pdOn (pdClu n) && s.svc n == 0)).map
    (fun n => ⟨n, (s.pmuClu n).idle, s.fld (PMU_PHASE_D.D_MW (s.fld (PMU_CLU.PHASE n)))⟩)

/-- Power of the clusters of a list over the last period. -/
def State.cluPower (s : State) (l : List Nat) : Nat := sumN (l.map (fun n => (s.pmuClu n).power))

/-- Clusters under test, and those granted the budget for one (R677, R679). -/
def State.testing (s : State) : List Nat := (List.range 64).filter (fun n => s.svc n == 3 || s.budgeted.contains n)

/-- B, the budget for clusters. -/
def State.budget (s : State) : Int :=
  (s.pmu.cap : Int) * 1000000 - (s.thermal.guard : Int) * 1000000 - ((s.pmu.pmod : Int) * 10 - (s.cluPower (List.range 64) : Int))
    - (s.testing.length : Int) * (s.thermal.testMw : Int) * 1000

/-- The rates computed: QCAP and OVER_CAP. -/
def State.share (s : State) : State :=
  let r := shareOut s.thermal.qFloor s.demands s.budget
  let t := r.1.foldl (fun (t : State) e => t.setF (PMU_CLU.QCAP e.1) e.2) s
  { t with pmu := { t.pmu with capOver := r.2 } }.overUpdate none

/-! ## The period (R673, R676) -/

/-- Rails of the variant: rail 5 is absent on X1. -/
def State.railPresent (s : State) (r : Nat) : Bool := decide (r < 11) && (r != 5 || s.iod1)

/-- Module power from the latest samples, with the STALE bits (R673). -/
def State.formPower (s : State) : State :=
  let rails := (List.range 11).filter s.railPresent
  let p := sumN (rails.map (fun r => (s.rail r).mv * (s.rail r).i))
  let t := rails.foldl (fun (t : State) r =>
    t.setF (PMU_RAIL.STALE r) (b2n (decide ((t.rail r).at_.getD 0 + 2000000 < t.cyc)))) s
  ({ t with pmu := { t.pmu with pmod := p } } : State).setF PMU_STATUS.MODULE_W10 (p / 1000 % 2 ^ 20)

/-- A cluster had no operation accepted at any time in the period that began at b. -/
def State.idleSince (s : State) (n b : Nat) : Bool :=
  let c := s.cl n
  c.cal.isEmpty && c.btr.isEmpty && c.ls.isEmpty && decide (c.lastDone < b ∨ c.lastDone = 0)

/-- D after an update with the demand d = num / den in µW, clamped to 65,535 mW (R676). -/
def demandStep (old num den : Nat) : Nat :=
  let top := 65535 * 1000 * den
  let n := if top < num then top else num
  (7 * old * 1000 * den + n) / (8 * 1000 * den)

/-- A cluster's part of a period of dt nanoseconds that began at b: P_n, IDLE_n, and its phase's D when it qualifies. -/
def State.cluPeriod (s : State) (b dt n : Nat) : State :=
  let x := s.pmuClu n
  let p := x.energy
  let idle := if s.idleSince n b then p else x.idle
  let phase := s.fld (PMU_CLU.PHASE n)
  let t := if s.pdOn (pdClu n) && !x.moved && decide (8 ≤ x.qLow) && decide (0 < x.qInt) then
      (s.setF (PMU_PHASE_D.D_MW phase) (demandStep (s.fld (PMU_PHASE_D.D_MW phase)) ((p - idle) * 64 * dt) x.qInt)).bump (PMU_PHASE_D.SAMPLES phase) 1
    else s
  t.setPmuClu n { x with power := p, idle := idle, energy := 0, moved := false, qLow := 64, qInt := 0 }

/-- PMU_PERIOD (R673, R675–R677): 100 µs have passed since the last period. -/
def execPmuPeriod (s : State) : Host.Outcome State Fault Refusal :=
  let b := s.pmu.period
  let t := s.start.formPower
  let t := (List.range 64).foldl (fun (t : State) n => t.cluPeriod b (s.cyc - b) n) t
  let t := { t with pmu := { t.pmu with cap := t.fld PMU_CAP.CAP_W, period := t.cyc } }
  answer (s.pdOn 82 && decide (b + 100000 ≤ s.cyc)) s t.share

/-- PHASE_REPORT (R182, R677): the oldest report of cluster n arrives. -/
def execPhaseReport (n : Nat) (s : State) : Host.Outcome State Fault Refusal :=
  match s.phaseReports.find? (fun e => e.1 == n) with
  | none => answer false s s
  | some e =>
    let t := { s.start with phaseReports := eraseOne e s.phaseReports }
    let t := (t.setPmuClu n { t.pmuClu n with moved := true }).setF (PMU_CLU.PHASE n) e.2
    answer (s.pdOn 82) s t.share

/-- The test budget fits with every other cluster at Q_FLOOR (R679). -/
def State.testFits (s : State) (n : Nat) : Bool :=
  let rest := s.demands.filter (fun x => x.clu != n)
  decide ((sumN (rest.map (fun x => 64 * x.idle + 1000 * s.thermal.qFloor * x.d)) : Int) ≤ 64 * (s.budget - (s.thermal.testMw : Int) * 1000))

/-- TEST_BUDGET_GRANT (R413, R679): a waiting test of class 2, 3 or 4 on cluster n is granted its budget. -/
def execTestBudgetGrant (n : Nat) (s : State) : Host.Outcome State Fault Refusal :=
  answer (s.pdOn 82 && s.ftQueue.any (fun r => r.clu == n && decide (2 ≤ r.cls)) && !s.budgeted.contains n && s.testFits n) s
    { s.start with budgeted := s.budgeted ++ [n] }

/-! ## Energy (R674, R703) -/

/-- Present domains on a rail: its logic or array rail (R51); the memory rails feed the two memory domains. -/
def State.railDomains (s : State) (r : Nat) : List Nat :=
  ((List.range 96).filter s.pdPresent).filter (fun d =>
    if r = 2 then decide (d < 80) else if 6 ≤ r ∧ r ≤ 9 then d == 37 || d == 77 else pdRail d == r)

/-- An amount divided in proportion to weights, exactly: what the rounding down leaves goes to one member, which is open. -/
def divide (e free : Nat) (ws : List (Nat × Nat)) : List (Nat × Nat) :=
  let total := sumN (ws.map (fun w => w.2))
  let parts := ws.map (fun w => (w.1, if total = 0 then 0 else e * w.2 / total))
  let rest := e - sumN (parts.map (fun p => p.2))
  let k := if ws.isEmpty then 0 else free % ws.length
  (List.range parts.length).zip parts |>.map (fun p => if p.1 = k then (p.2.1, p.2.2 + rest) else p.2)

/-- Energy credited to a domain: its counter, and a cluster's period. -/
def State.credit (s : State) (d e : Nat) : State :=
  let t := { s with pmu := { s.pmu with energy := Sparse.set (fun _ => 0) s.pmu.energy d (Sparse.get (fun _ => 0) s.pmu.energy d + e) } }
  if d < 32 then t.setPmuClu d { t.pmuClu d with energy := (t.pmuClu d).energy + e }
  else if 40 ≤ d ∧ d < 72 then t.setPmuClu (d - 8) { t.pmuClu (d - 8) with energy := (t.pmuClu (d - 8)).energy + e }
  else t

/-- What other domains than clusters' drew, in µW, of energies divided over 10 µs. -/
def otherDraw (ps : List (Nat × Nat)) : Nat := 10 * sumN ((ps.filter (fun p => !decide (p.1 < 32 ∨ (40 ≤ p.1 ∧ p.1 < 72)))).map (fun p => p.2))

/-- Energy for an operation in flight, wherever it is. -/
def Op.earn (o : Op) (id e : Nat) : Op := if o.id = id then { o with energy := o.energy + e } else o
def State.opEarns (s : State) (id e : Nat) : State :=
  if e = 0 then s
  else { s with
    clusters := s.clusters.map (fun (c : Nat × Cluster) =>
      (c.1, { c.2 with cal := c.2.cal.map (fun o => o.earn id e), btr := c.2.btr.map (fun o => o.earn id e), ls := c.2.ls.map (fun o => o.earn id e) })),
    engines := s.engines.map (fun (x : Nat × EngUnit) =>
      (x.1, { x.2 with main := x.2.main.map (fun o => o.earn id e), load := x.2.load.map (fun o => o.earn id e) })) }

/-- The energy of a cluster (0–63) or of an engine k (64 + k) goes to the operations that occupied it in the interval, in proportion to their
cycles; occ lists unit, operation and cycles, operation 0 standing for cycles with none. The share of one that has completed meanwhile stands in
its record already (State.openEnergy). -/
def State.unitEarns (s : State) (u e : Nat) (occ : List (Nat × Nat × Nat)) : State :=
  let mine := occ.filter (fun x => x.1 == u)
  let total := sumN (mine.map (fun x => x.2.2))
  if total = 0 then s else mine.foldl (fun (t : State) x => t.opEarns x.2.1 (e * x.2.2 / total)) s

/-- A requesting master's energy in a CORE or MEM domain: a cluster's goes as its own does, an engine's to its operation. -/
def State.masterEarns (s : State) (m e : Nat) (occ : List (Nat × Nat × Nat)) : State :=
  if m < 64 then s.unitEarns m e occ
  else if 0x58 ≤ m ∧ m ≤ 0x5B then s.unitEarns (64 + m - 0x57) e occ
  else if m = 0x5D then s.unitEarns 69 e occ
  else s

/-- A domain's energy goes to operations (R703). charged: domain, master and bytes charged to it. -/
def State.domainEarns (s : State) (occ charged : List (Nat × Nat × Nat)) (d e : Nat) : State :=
  if d < 32 then s.unitEarns d e occ
  else if 40 ≤ d ∧ d < 72 then s.unitEarns (d - 8) e occ
  else if d = 36 ∨ d = 37 ∨ d = 76 ∨ d = 77 then
    let mine := charged.filter (fun x => x.1 == d)
    let total := sumN (mine.map (fun x => x.2.2))
    if total = 0 then s else mine.foldl (fun (t : State) x => t.masterEarns x.2.1 (e * x.2.2 / total) occ) s
  else if d = 38 then s.unitEarns 65 e occ
  else if d = 78 then s.unitEarns 66 e occ
  else if d = 39 then s.unitEarns 67 e occ
  else if d = 79 then s.unitEarns 68 e occ
  else if d = 85 then s.unitEarns 69 e occ
  else s

/-- ENERGY_APPORTION (R674, R703): 10 µs of each rail's energy divided. act: activity counts of the domains; moved: bytes moved by the
controllers of dies A and B; occ: units, operations and their occupancy cycles, each cycle divided among those it holds; charged: domain, master
and bytes charged (R363). -/
def execEnergyApportion (act moved : List Nat) (occ charged : List (Nat × Nat × Nat)) (s : State) :
    Host.Outcome State Fault Refusal :=
  let t := ((List.range 10).filter s.railPresent).foldl (fun (t : State) r =>
    let ws := (t.railDomains r).map (fun d =>
      (d, if 6 ≤ r then getAt 0 moved (if d = 37 then 0 else 1) else getAt 0 act d * Config.energyWeight d))
    let e := (t.rail r).mv * (t.rail r).i
    let ps := divide e (t.free 8) ws
    ps.foldl (fun (u : State) p => (u.credit p.1 p.2).domainEarns occ charged p.1 p.2) ((t.tookFree 1).setRail r { t.rail r with other := otherDraw ps })) s.start
  answer (s.pdOn 82) s t

/-- A domain's counter in µJ, modulo 2^64. -/
def State.energyUj (s : State) (d : Nat) : Nat := Sparse.get (fun _ => 0) s.pmu.energy d / 10000 % 2 ^ 64

/-! ## Droop (R680) -/

/-- DROOP_FIRING (R680): the detector of cluster n fires; the rate clamps, and the hold is counted from this firing. -/
def execDroopFiring (n : Nat) (s : State) : Host.Outcome State Fault Refusal :=
  answer (decide (n < 64) && s.pdOn (pdClu n)) s
    ((s.start.setPmuClu n { s.pmuClu n with droop := some s.cyc }).bump (PMU_CLU_DROOPS.COUNT n) 1)

/-- The cycles of the hold have passed since a moment, at the clusters' operating frequency. -/
def State.droopDone (s : State) (at_ : Nat) : Bool := decide (s.thermal.droopHold * 1000 ≤ (s.cyc - at_) * getAt 0 s.running.mhz 0)

/-- DROOP_RELEASE (R680): DROOP_HOLD cycles have passed since the latest firing. -/
def execDroopRelease (n : Nat) (s : State) : Host.Outcome State Fault Refusal :=
  answer (match (s.pmuClu n).droop with | none => false | some m => s.droopDone m) s
    (s.start.setPmuClu n { s.pmuClu n with droop := none })

/-! ## Rails (R681, R682) -/

/-- Phases fitted on a rail, its I_PHASE_MAX in units of 10 mA. -/
def State.railFitted (s : State) (r : Nat) : Nat := getAt 0 s.thermal.phases r
def State.railMax (s : State) (r : Nat) : Nat := getAt 0 s.thermal.iMax r * 100

/-- Working phases. -/
def State.railWorking (s : State) (r : Nat) : Nat :=
  s.railFitted r - popcount 16 (s.fld (PMU_RAIL_FAULT.FAILED r)) - s.fld (PMU_RAIL_FAULT.UNNAMED r)

/-- The rail's limit in µW. -/
def State.railLimit (s : State) (r : Nat) : Nat :=
  s.railWorking r * getAt 0 s.thermal.iMax r * (100 - s.thermal.margin) * (s.rail r).mv * 10

/-- A failure is declared on the rail. -/
def State.railClamped (s : State) (r : Nat) : Bool := decide (s.fld (PMU_RAIL_FAULT.FAILED r) ≠ 0) || s.flag (PMU_RAIL_FAULT.UNNAMED r)

/-- Clusters on rail 0 or 1, or all. -/
def railClusters (r : Nat) : List Nat := (List.range 64).filter (fun n => r == 2 || n / 32 == r)

/-- qrail_n under the clamps in force: the share-out of its own logic rail, 64 without one, scaled by those of rail 2. -/
def State.qrail (s : State) (n : Nat) : Nat :=
  (s.rail 2).scale.foldl (fun (q : Nat) e => Nat.min 64 (q * e.1 / e.2)) ((((s.rail (n / 32)).share.find? (fun e => e.1 == n)).map (·.2)).getD 64)

/-- Every cluster's QRAIL follows the clamps. -/
def State.qrails (s : State) : State := (List.range 64).foldl (fun (t : State) n => t.setF (PMU_CLU.QRAIL n) (s.qrail n)) s

/-- The clamp of a rail applied to the clusters' QRAIL, and whether its other load alone breaks the limit (R682). -/
def State.railClamp (s : State) (r : Nat) : State :=
  let x := s.rail r
  let limit := s.railLimit r
  if r < 2 then
    let q := shareOut s.thermal.qFloor (s.demands.filter (fun d => d.clu / 32 == r)) ((limit : Int) - (x.other : Int))
    (s.setRail r (if s.railWorking r = 0 then { x with share := (railClusters r).map (fun n => (n, 0)), unmet := decide (limit < x.other) }
      else { x with share := q.1, unmet := q.2 || decide (limit < x.other) })).qrails
  else if r = 2 then
    (s.setRail 2 { x with scale := if x.power = 0 then x.scale else x.scale ++ [(limit, x.power)], unmet := decide (limit < x.other) }).qrails
  else s.setRail r { x with unmet := decide (limit < x.power) }

/-- A failure declared: clamp, log, event (R682). code 1 PHASE_FAIL, 2 SENSE_FAIL; mask: the phases it names. -/
def State.railFail (s : State) (r code mask : Nat) : State :=
  let t := (s.setF (PMU_RAIL.CLAMPED r) 1).railClamp r
  let t := (t.logEvent logPower code 0 (t.railData r mask)).overUpdate (some r)
  t.powerEvent (if code = 1 then PMU_EVENT.PHASE_FAIL else PMU_EVENT.SENSE_FAIL)

/-- The rail's clamp after a restoration: lifted from its clusters, or computed anew; the clamps of other rails stay as they are. -/
def State.railRelease (s : State) (r : Nat) : State :=
  let t := (s.setRail r { s.rail r with unmet := false, share := [], scale := [] }).setF (PMU_RAIL.CLAMPED r) (b2n (s.railClamped r))
  (if s.railClamped r then t.railClamp r else t.qrails).overUpdate (some r)

/-- Phases whose restoration is asked, whose readings are good and whose input is high come back (R682). -/
def State.railRestore (s : State) (r : Nat) : State :=
  let x := s.rail r
  let failed := s.fld (PMU_RAIL_FAULT.FAILED r)
  let back := (List.range 16).filter (fun k => bitN failed k && bitN x.restore k && decide (10 ≤ getAt 0 x.good k) && !x.low)
  if back.isEmpty then s
  else
    let mask := sumN (back.map (fun k => 2 ^ k))
    let t := (s.setF (PMU_RAIL_FAULT.FAILED r) (failed - mask)).setRail r { x with restore := x.restore - mask }
    (t.logEvent logPower 4 0 (t.railData r mask)).railRelease r

/-- PHASE_FAULT_INPUT (R681): the phase-fault input of controlled rail r goes low, or high again. -/
def execPhaseFaultInput (r : Nat) (low : Bool) (s : State) : Host.Outcome State Fault Refusal :=
  let x := s.rail r
  let t := s.start.setRail r { x with low := low, naming := if low && x.naming.isNone then some 0 else x.naming }
  answer (s.pdOn 82 && decide (r < 6) && s.railPresent r && decide (0 < s.railFitted r) && x.low != low) s
    (if !low then t.railRestore r
     else if x.naming.isSome then t
     else (t.setF (PMU_RAIL_FAULT.UNNAMED r) 1).railFail r 1 0)

/-- The rail's other phases: how many, and the sum of their currents. -/
def others (l : List Nat) (k : Nat) : Nat × Nat := (l.length - 1, sumN l - getAt 0 l k)

/-- A phase's current fails the second case of R681. -/
def phaseBad (l : List Nat) (imax k : Nat) : Bool :=
  let i := getAt 0 l k
  let o := others l k
  decide (o.1 ≠ 0 ∧ o.1 * imax ≤ 10 * o.2) && (decide (i = 0) || decide (100 * i * o.1 < 5 * o.2) || decide (3 * imax < 2 * i))

/-- A phase reads within 20% of the mean of the others. -/
def phaseGood (l : List Nat) (k : Nat) : Bool :=
  let o := others l k
  let d : Int := ((getAt (0 : Nat) l k * o.1 : Nat) : Int) - (o.2 : Int)
  decide (5 * d.natAbs ≤ o.2)

/-- The phase with the lowest current among those not failed; the lowest numbered of equals. -/
def lowestPhase (l : List Nat) (failed : Nat) : Option Nat :=
  ((List.range l.length).filter (fun k => !bitN failed k)).foldl (fun (acc : Option Nat) k =>
    match acc with
    | none => some k
    | some j => if getAt 0 l k < getAt 0 l j then some k else some j) none

/-- The phases a sample finds failed, each declared in turn. An unnamed failure is named after two samples; the first phase takes its place. -/
def State.railJudge (s : State) (r : Nat) : State :=
  let x := s.rail r
  let failed := s.fld (PMU_RAIL_FAULT.FAILED r)
  let found := (List.range x.phases.length).filter (fun k => !bitN failed k && decide (2 ≤ getAt 0 x.bad k))
  let naming := x.naming.map (· + 1)
  if naming = some 2 then
    let named := match found with | [] => (lowestPhase x.phases failed).toList | l => l
    let t := (s.setRail r { x with naming := none }).setF (PMU_RAIL_FAULT.UNNAMED r) 0
    match named with
    | [] => t
    | k :: more =>
      let t := t.setF (PMU_RAIL_FAULT.FAILED r) (failed + 2 ^ k)
      more.foldl (fun (u : State) j => (u.setF (PMU_RAIL_FAULT.FAILED r) (u.fld (PMU_RAIL_FAULT.FAILED r) + 2 ^ j)).railFail r 2 (2 ^ j)) t
  else
    found.foldl (fun (u : State) j => (u.setF (PMU_RAIL_FAULT.FAILED r) (u.fld (PMU_RAIL_FAULT.FAILED r) + 2 ^ j)).railFail r 2 (2 ^ j))
      (s.setRail r { x with naming := naming })

/-- TELEMETRY_SAMPLE (R672, R681, R682): a sample of rail r: voltage in mV, currents in units of 10 mA, one for each phase fitted, or one
for a rail read whole. -/
def execTelemetrySample (r mv : Nat) (is : List Nat) (s : State) : Host.Outcome State Fault Refusal :=
  let x := s.rail r
  let n := is.length
  let bad := (List.range n).map (fun k => if phaseBad is (s.railMax r) k then getAt 0 x.bad k + 1 else 0)
  let good := (List.range n).map (fun k => if phaseGood is k then getAt 0 x.good k + 1 else 0)
  let sum := sumN is
  let t := s.start.setRail r { x with mv := mv, i := sum, at_ := some s.cyc, phases := is, bad := bad, good := good }
  let t := ((t.setF (PMU_RAIL.MV r) mv).setF (PMU_RAIL.I_100MA r) (Nat.min 65535 (sum / 10))).setF (PMU_RAIL.STALE r) 0
  answer (s.pdOn 82 && s.railPresent r && decide (mv < 16384) && (if r < 6 then n == s.railFitted r else n == 1)) s
    (if r < 6 then (t.railJudge r).railRestore r else t)

/-- A write of PMU_RAIL_r_FAULT: restoration asked of failed phases (R682). -/
def State.restoreAsk (s : State) (r : Nat) (w : Word) : State :=
  let x := s.rail r
  (s.setRail r { x with restore := Nat.lor x.restore (Nat.land (bits w 15 0) (s.fld (PMU_RAIL_FAULT.FAILED r))) }).railRestore r

/-- PHASE_RESTORE_REQUEST (R682): master m writes v to PMU_RAIL_r_FAULT. -/
def execPhaseRestoreRequest (m r v : Nat) (s : State) : Host.Outcome State Fault Refusal :=
  s.write m (PMU_RAIL_FAULT.addr r) (s.start.restoreAsk r (BitVec.ofNat 32 v))

end Sys2Proof.Machine
end

