-- ==== Sys2Proof/Machine/Switching.lean ====
section
/-! DEFINITION. Switching power domains (R687–R690), thermal throttling and thermal shutdown (R684–R686). -/
namespace Sys2Proof.Machine

/-! ## Requests (R688, R689) -/

/-- REFUSED of a domain. -/
def State.pdRefuse (s : State) (d : Nat) : State := s.setF (PMU_PD.REFUSED d) 1

/-- Another domain that is on, or coming on, depends on CORE domain d. -/
def State.pdDependents (s : State) (d : Nat) : Bool :=
  pdCoreOf d == d && (List.range 96).any (fun x => x != d && pdCoreOf x == d && !decide (80 ≤ x ∧ x < 84) && s.pdState x != 0)

/-- A domain goes off on request, its place among the waiting with it. -/
def State.pdOffAsk (s : State) (d : Nat) : State :=
  let t := { s with pmu := { s.pmu with pdWait := s.pmu.pdWait.filter (· != d) } }
  if s.pdDependents d then s.pdRefuse d else if t.pdState d = 0 then t else (t.domainOff d).pdKick

/-- A write of PMU_PD_d: ON or OFF; the four domains no command switches, and both at once, are refused (R52, R699). -/
def State.pdWrite (s : State) (d : Nat) (w : Word) : State :=
  let on := bits w 1 1
  let off := bits w 0 0
  if !s.pdPresent d ∨ (on = 0 ∧ off = 0) then s
  else if (80 ≤ d ∧ d < 84) ∨ (on = 1 ∧ off = 1) then s.pdRefuse d
  else if on = 1 then s.pdAsk d
  else s.pdOffAsk d

/-- DOMAIN_ON_REQUEST (R688): master m writes ON to PMU_PD_d. -/
def execDomainOnRequest (m d : Nat) (s : State) : Host.Outcome State Fault Refusal :=
  s.write m (PMU_PD.addr d) (s.start.pdWrite d 2)

/-- DOMAIN_OFF_REQUEST (R688): master m writes OFF to PMU_PD_d. -/
def execDomainOffRequest (m d : Nat) (s : State) : Host.Outcome State Fault Refusal :=
  s.write m (PMU_PD.addr d) (s.start.pdWrite d 1)

/-- The group of an application-core domain, if it is one. -/
def groupOf (d : Nat) : Option Nat := if 32 ≤ d ∧ d < 35 then some (d - 32) else if 72 ≤ d ∧ d < 75 then some (d - 69) else none

/-- The cluster of a cluster domain, if it is one. -/
def clusterOf (d : Nat) : Option Nat := if d < 32 then some d else if 40 ≤ d ∧ d < 72 then some (d - 8) else none

/-- A domain has come on: a cluster's residency tags are clear (R245). -/
def State.domainUp (s : State) (d : Nat) : State :=
  let t := (s.setPd d 2).setF (PMU_PD.PG_FAIL d) 0
  let t := match clusterOf d with | some n => t.clearTags n | none => t
  match groupOf d with | some g => t.groupOn g | none => t

/-- POWER_GOOD (R688): power-good of a domain that is switching on arrives. -/
def execPowerGood (d : Nat) (s : State) : Host.Outcome State Fault Refusal :=
  answer (s.pdOn 82 && s.pdState d == 1) s (s.start.domainUp d).pdKick

/-- A domain failed power-good: it stays off, and the failure is logged (R690). -/
def State.pgFail (s : State) (d : Nat) : State :=
  let t := (s.setPd d 0).setF (PMU_PD.PG_FAIL d) 1
  let t := { t with pmu := { t.pmu with hartWait := t.pmu.hartWait.filter (fun h => pdApc (h / 4) != d) } }
  (t.logEvent logPower 5 0 (t.railData (pdRail d) 0)).powerEvent PMU_EVENT.DOMAIN_FAIL

/-- POWER_GOOD_TIMEOUT (R688, R690): 2 µs of switch steps and 50 µs of waiting have passed. -/
def execPowerGoodTimeout (d : Nat) (s : State) : Host.Outcome State Fault Refusal :=
  answer (s.pdOn 82 && s.pdState d == 1 && decide (Sparse.get (fun _ => 0) s.pmu.pdSince d + 52000 ≤ s.cyc)) s (s.start.pgFail d).pdKick

/-- A domain AUTO_GATE switches off: a cluster unbound, not under test and in no grant for 1 ms, or a group whose harts are stopped (R689). -/
def State.gateIdle (s : State) (d : Nat) : Bool :=
  s.pdOn d && (match clusterOf d, groupOf d with
    | some n, _ =>
      !s.cluBusy n
        && decide ((s.pmuClu n).busyAt + 1000000 ≤ s.cyc)
    | none, some g => [4 * g, 4 * g + 1, 4 * g + 2, 4 * g + 3].all (fun h => !s.hartRuns h && !s.pmu.hartWait.contains h)
    | none, none => false)

/-- AUTO_GATE_IDLE (R689). -/
def execAutoGateIdle (d : Nat) (s : State) : Host.Outcome State Fault Refusal :=
  answer (s.pdOn 82 && s.flag PMU_PD_CTRL.AUTO_GATE && s.gateIdle d) s (s.start.domainOff d).pdKick

/-! ## Sensors (R684) -/

/-- A sensor of the module: those of I/O die 1 exist on X2 only. -/
def State.sensorPresent (s : State) (i : Nat) : Bool := decide (i < 120) || (decide (i < 128) && s.iod1)

/-- The THERMAL section is in force. -/
def Thermal.loaded (x : Thermal) : Bool := decide (x.tThr < x.tLim)

/-- A bit of PMU_EVENT [26:25] sets; source 5 is raised (R695). -/
def State.thermalEvent (s : State) (f : Fld) : State := (s.setF f 1).sense 5

/-- Sensor s and reading, as a THERMAL entry's DATA (R683). -/
def thermalData (i : Nat) (t : Nat) : List Byte := leBytes 1 i ++ leBytes 1 t

/-- A reading in the registers: T_C, MAX_C. -/
def State.sensorShow (s : State) (i : Nat) (t : Int) : State :=
  let w := unsigned 8 t
  (s.setF (THM_SENSOR.T_C i) w).setF (THM_SENSOR.MAX_C i)
    (if signed 8 (s.fld (THM_SENSOR.MAX_C i)) < t then w else s.fld (THM_SENSOR.MAX_C i))

/-- A reading counts towards shutdown, or ends the count. -/
def State.sensorCount (s : State) (i : Nat) (t : Int) : State :=
  let n := if s.thermal.tShut ≤ t then Sparse.get (fun _ => 0) s.pmu.hot i + 1 else 0
  { s with pmu := { s.pmu with hot := Sparse.set (fun _ => 0) s.pmu.hot i n } }

/-- The PMU holds a sensor's latest reading, which may be above what T_C shows (R684, R685). -/
def State.sensorHold (s : State) (i : Nat) (t : Int) : State := { s with pmu := { s.pmu with temps := Sparse.set (fun _ => -128) s.pmu.temps i t } }

/-- A reading that 8 bits do not hold, or none: what the register shows is open. -/
def State.sensorOpen (s : State) (i : Nat) : State :=
  let u := (s.setF (THM_SENSOR.T_C i) (s.free 8)).tookFree 1
  (u.setF (THM_SENSOR.MAX_C i) (u.free 8)).tookFree 1

/-- A sensor becomes faulty: at its first fault SENSOR_FAULT, a log entry and source 5. -/
def State.sensorFault (s : State) (i : Nat) : State :=
  let t := { s with pmu := { s.pmu with hot := Sparse.set (fun _ => 0) s.pmu.hot i 0 } }
  if t.flag (THM_SENSOR.FAULT i) then t
  else
    let u := t.setF (THM_SENSOR.FAULT i) 1
    (u.logEvent logThermal 2 0 (thermalData i (u.fld (THM_SENSOR.T_C i)))).thermalEvent PMU_EVENT.SENSOR_FAULT

/-- One sensor's reading: none when its built-in check fails. A faulty sensor stays so. -/
def State.sensorTake (s : State) (i : Nat) (r : Option Int) : State :=
  if !s.sensorPresent i then s
  else match r with
    | none => (s.sensorOpen i).sensorFault i
    | some t =>
      let u := ((if -128 ≤ t ∧ t ≤ 127 then s.sensorShow i t else s.sensorOpen i).sensorHold i t).sensorCount i t
      if t < -60 ∨ 160 < t ∨ s.flag (THM_SENSOR.FAULT i) then u.sensorFault i else u

/-! ## Throttling (R685) -/

/-- What a sensor counts as for throttling. -/
def State.sensorT (s : State) (i : Nat) : Int := if s.flag (THM_SENSOR.FAULT i) then s.thermal.tLim else Sparse.get (fun _ => -128) s.pmu.temps i

/-- The sensor that decides for cluster n: its own, or the hottest of its die's 16 others. -/
def State.hottest (s : State) (n : Nat) : Nat :=
  let own := if n < 32 then n else n + 16
  ((List.range 16).map (fun i => (if n < 32 then 32 else 80) + i)).foldl (fun a i => if s.sensorT a < s.sensorT i then i else a) own

/-- qth at a temperature. -/
def Thermal.ceiling (x : Thermal) (t : Int) : Nat :=
  if t ≤ x.tThr then 64
  else if x.tLim ≤ t then x.qMin
  else 64 - (((64 - x.qMin : Nat) : Int) * (t - x.tThr) / (x.tLim - x.tThr)).toNat

/-- Cluster n's ceiling follows: down at once, up by one step in a millisecond; first below 64, THROTTLE. -/
def State.throttle (s : State) (n : Nat) : State :=
  let i := s.hottest n
  let q := s.thermal.ceiling (s.sensorT i)
  let old := s.fld (PMU_CLU.QTH n)
  let new := if q < old then q else if old < q ∧ (s.pmuClu n).qthAt + 1000000 ≤ s.cyc then old + 1 else old
  if new = old then s
  else
    let t := (s.setF (PMU_CLU.QTH n) new).setPmuClu n { s.pmuClu n with qthAt := s.cyc }
    if old = 64 then
      let u := t.thermalEvent PMU_EVENT.THROTTLE
      if (match u.pmu.throttleAt with | none => true | some m => decide (m + 1000000000 ≤ u.cyc)) then
        let v := { u with pmu := { u.pmu with throttleAt := some u.cyc } }
        v.logEvent logThermal 1 0 (thermalData i (v.fld (THM_SENSOR.T_C i)))
      else u
    else t

/-- Every ceiling, and whether any is below 64. -/
def State.throttleAll (s : State) : State :=
  let t := (List.range 64).foldl State.throttle s
  t.setF PMU_STATUS.THROTTLE (b2n ((List.range 64).any (fun n => decide (t.fld (PMU_CLU.QTH n) < 64))))

/-! ## Shutdown (R686) -/

/-- A regulator switched over PMBus, and its voltage set over AVSBus (R672, R691). -/
def State.railSwitch (s : State) (r : Nat) (on : Bool) : State :=
  let t := if on && decide (r < 6) then s.emit (.note "AVS_VOUT" [r, getAt 0 s.running.mv r]) else s
  let t := t.emit (.note "PMBUS_OPERATION" [0x40 + r, b2n on])
  { t with running := { t.running with rails := if on then t.running.rails ++ [r] else t.running.rails } }

/-- The cause recorded, the hold armed, every domain and rail off and the module in reset, PD_IO0_MGT and PD_IO0_CORE with it. -/
def State.shutdown (s : State) (i : Nat) : State :=
  let t := s.wr PMU_SHUTDOWN_CAUSE.addr (BitVec.ofNat 32 (2 ^ 31 + i % 256 * 256 + s.fld (THM_SENSOR.T_C i)))
  let t := (t.running.rails.reverse.filter (· != 4)).foldl (fun (u : State) r => u.railSwitch r false) t
  (({ t with mgt := { t.mgt with hold := true } } : State).moduleReset 0).emit (.note "thermal shutdown" [i])

/-- THERMAL_SAMPLE (R684–R686): every sensor is read; none: its built-in check failed. -/
def execThermalSample (rs : List (Option Int)) (s : State) : Host.Outcome State Fault Refusal :=
  let t := (List.range 128).foldl (fun (t : State) i => t.sensorTake i (getAt none rs i)) s.start
  let t := if t.thermal.loaded then t.throttleAll else t
  answer (s.pdOn 82 && rs.length == 128) s
    (match (List.range 128).find? (fun i => t.thermal.loaded && decide (3 ≤ Sparse.get (fun _ => 0) t.pmu.hot i)) with
      | some i => t.shutdown i
      | none => t)

/-! ## The always-on domain (R52, R663, R686) -/

/-- What PD_IO0_AON holds is lost: the calendar clock, the shutdown cause and the hold. -/
def State.aonLost (s : State) : State :=
  { s.resetRegs (fun a => regDomain a == 80) with mgt := { s.mgt with hold := false }, rtcNext := none, held := Sparse.drop (fun a => regDomain a == 80) s.held }

/-- VAON_POWER_LOSS (R52): VAON is removed. -/
def execVaonPowerLoss (s : State) : Host.Outcome State Fault Refusal :=
  answer (s.pdOn 80) s (s.start.aonLost.setPd 80 0)

/-- The firmware runs: start-up has ended and the pair is not restarting. -/
def State.mgtRuns (s : State) : Bool := s.fld MGT_BOOT_STATUS.STAGE == 6 && !s.mgt.down

/-- The loss of the calendar is logged (R665), at once or at the next start-up. -/
def State.logLost (s : State) : State :=
  if s.mgtRuns then ({ s with lostToLog := false } : State).logEvent logRtc 4 0 [] else { s with lostToLog := true }

/-- VAON is up: where the shutdown hold had the management and core domains off, its cycle ends the hold, and they come out of reset (R686). -/
def State.aonBack (s : State) : State :=
  let t := (s.aonLost.setPd 80 2)
  ((if t.pdOn 82 then t else t.setPd 82 2).setPd 83 2).logLost

/-- VAON_POWER_UP (R663, R686): VAON comes up; the calendar starts at 2000-01-01 00:00:00 with LOST set. -/
def execVaonPowerUp (s : State) : Host.Outcome State Fault Refusal :=
  answer (!s.pdOn 80) s s.start.aonBack

/-- SHUTDOWN_HOLD_RELEASE (R686): the hold ends because the external reset is asserted, or because VAON is cycled, which loses what VAON
keeps; the reset input is ignored while a rail is out of range (R734). -/
def execShutdownHoldRelease (vaon : Bool) (s : State) : Host.Outcome State Fault Refusal :=
  let t := s.start
  answer (s.mgt.hold && (vaon || s.supply.up)) s
    (if vaon then t.aonBack else ({ t with mgt := { t.mgt with hold := false } } : State).externalReset)

end Sys2Proof.Machine
end

