-- ==== Sys2Proof/Machine/Mgt.lean ====
section
/-! DEFINITION. The management complex outside its mailbox: format entries (R86–R91), the calendar clock (R663–R665), doorbells (R654), restarts of the
core pair (R403, R660), the writer of the event log (R661, R662), and what resets the module (R633, R735, R737). -/
namespace Sys2Proof.Machine

/-! ## Format entries (R86–R91) -/

/-- A write of MGT_FMT_DESC_LO_n: held until the HI word (R90); an entry that cannot be loaded ignores it. -/
def State.fmtLo (s : State) (n : Nat) (w : Word) : State :=
  if n < 20 then s
  else if s.flag MGT_FMT_CTRL.BUSY then s.setF MGT_FMT_CTRL.REJECT 1
  else s.hold (MGT_FMT_DESC_LO.addr n) w

/-- Some loaded object references the entry (R91). -/
def State.fmtLocked (s : State) (n : Nat) : Bool := s.objs.any (fun o => bitN o.fmtMask n)

/-- A write of MGT_FMT_DESC_HI_n: both checks, each with its bit; an entry that passes is in the table and on its way to every unit (R90).
A write refused because of BUSY leaves LAST_INDEX and the held LO word as they are (DESIGN CHOICE, log 51). -/
def State.fmtHi (s : State) (n : Nat) (w : Word) : State :=
  if n < 20 then s
  else if s.flag MGT_FMT_CTRL.BUSY then s.setF MGT_FMT_CTRL.REJECT 1
  else
    let lo := s.heldOr (MGT_FMT_DESC_LO.addr n)
    let f := Fmt.ofWords lo.toNat w.toNat
    let t := (s.unhold (MGT_FMT_DESC_LO.addr n)).setF MGT_FMT_CTRL.LAST_INDEX n
    let t := if f.valid then t else t.setF MGT_FMT_CTRL.REJECT 1
    let t := if s.fmtLocked n then t.setF MGT_FMT_CTRL.LOCKED 1 else t
    if f.valid ∧ s.fmtLocked n = false then
      ((t.wr (MGT_FMT_DESC_LO.addr n) (BitVec.ofNat 32 f.lo)).wr (MGT_FMT_DESC_HI.addr n) (BitVec.ofNat 32 f.hi)).setF MGT_FMT_CTRL.BUSY 1
    else t

/-- FMT_DESC_LO_WRITE (R90): master m writes v to MGT_FMT_DESC_LO_n. -/
def execFmtDescLoWrite (m n v : Nat) (s : State) : Host.Outcome State Fault Refusal :=
  s.write m (MGT_FMT_DESC_LO.addr n) (s.start.fmtLo n (BitVec.ofNat 32 v))

/-- FMT_DESC_HI_WRITE (R90): master m writes v to MGT_FMT_DESC_HI_n. -/
def execFmtDescHiWrite (m n v : Nat) (s : State) : Host.Outcome State Fault Refusal :=
  s.write m (MGT_FMT_DESC_HI.addr n) (s.start.fmtHi n (BitVec.ofNat 32 v))

/-- The copy of an entry ends; an admission that waited for it goes on (R90, R91). -/
def State.fmtCopied (s : State) : State := (s.setF MGT_FMT_CTRL.BUSY 0).resumeAdmission

/-- FMT_ENTRY_COPY_DONE (R90). -/
def execFmtEntryCopyDone (s : State) : Host.Outcome State Fault Refusal :=
  answer (s.flag MGT_FMT_CTRL.BUSY) s s.start.fmtCopied

/-! ## The calendar clock (R663–R665) -/

/-- A date and time as registers hold them. -/
def dateWord (y m d : Nat) : Word := BitVec.ofNat 32 (y * 2 ^ 16 + m * 2 ^ 8 + d)
def timeWord (h m sec sub : Nat) : Word := BitVec.ofNat 32 (h * 2 ^ 27 + m * 2 ^ 21 + sec * 2 ^ 15 + sub)

/-- The day after, and whether the range ended (R663, R665). -/
def nextDay (y m d : Nat) : (Nat × Nat × Nat) × Bool :=
  if d < monthDays y m then ((y, m, d + 1), false)
  else if m < 12 then ((y, m + 1, 1), false)
  else if y < 399 then ((y + 1, 1, 1), false)
  else ((0, 1, 1), true)

/-- A second passes. -/
def State.rtcSecond (s : State) : State :=
  let h := s.fld MGT_RTC_TIME.HOUR
  let m := s.fld MGT_RTC_TIME.MIN
  let c := s.fld MGT_RTC_TIME.SEC
  if c < 59 then s.wr MGT_RTC_TIME.addr (timeWord h m (c + 1) 0)
  else if m < 59 then s.wr MGT_RTC_TIME.addr (timeWord h (m + 1) 0 0)
  else if h < 23 then s.wr MGT_RTC_TIME.addr (timeWord (h + 1) 0 0 0)
  else
    let r := nextDay (s.fld MGT_RTC_DATE.YEAR_OFF) (s.fld MGT_RTC_DATE.MONTH) (s.fld MGT_RTC_DATE.DAY)
    let t := (s.wr MGT_RTC_TIME.addr (timeWord 0 0 0 0)).wr MGT_RTC_DATE.addr (dateWord r.1.1 r.1.2.1 r.1.2.2)
    if r.2 then (t.setF MGT_RTC_CTRL.CENTURY_WRAP 1).logEvent logRtc 3 0 [] else t

/-- RTC_TICK (R663–R665): a tick of the crystal; a pending set acts in place of the count. -/
def execRtcTick (s : State) : Host.Outcome State Fault Refusal :=
  let t := s.start
  let sub := s.fld MGT_RTC_TIME.SUBSEC
  answer (s.pdOn 80) s
    (match s.rtcNext with
      | some x => ((({ t with rtcNext := none } : State).wr MGT_RTC_DATE.addr x.1).wr MGT_RTC_TIME.addr x.2 |>.setF MGT_RTC_CTRL.SET_PENDING 0).logEvent
          logRtc 1 0 []
      | none => if sub < 32767 then t.setF MGT_RTC_TIME.SUBSEC (sub + 1) else t.rtcSecond)

/-- A write of MGT_RTC_SET_DATE or MGT_RTC_SET_TIME: the word as written is what SET checks, reserved bits with it. -/
def State.rtcSetWord (s : State) (date : Bool) (w : Word) : State :=
  if date then (s.hold MGT_RTC_SET_DATE.addr w).wr MGT_RTC_SET_DATE.addr (w &&& 0x01FF0F1F)
  else (s.hold MGT_RTC_SET_TIME.addr w).wr MGT_RTC_SET_TIME.addr w

/-- A set that passes R664. -/
def setOk (d t : Word) : Bool :=
  let y := bits d 24 16
  let m := bits d 11 8
  let day := bits d 4 0
  decide (y ≤ 399 ∧ 1 ≤ m ∧ m ≤ 12 ∧ 1 ≤ day ∧ day ≤ monthDays y m)
    && decide (bits t 31 27 ≤ 23 ∧ bits t 26 21 ≤ 59 ∧ bits t 20 15 ≤ 59 ∧ bits t 14 0 = 0)
    && bits d 31 25 == 0 && bits d 15 12 == 0 && bits d 7 5 == 0

/-- SET: accepted for the next tick, or rejected whole (R664, R665). -/
def State.rtcSet (s : State) : State :=
  let d := s.heldOr MGT_RTC_SET_DATE.addr
  let t := s.heldOr MGT_RTC_SET_TIME.addr
  if setOk d t then { s.setF MGT_RTC_CTRL.SET_PENDING 1 with rtcNext := some (d, t) }
  else (s.setF MGT_RTC_CTRL.DATE_REJECT 1).logEvent logRtc 2 0 []

/-- A write of MGT_RTC_CTRL: the W1C bits, then SET; a bit set in the same cycle ends at 1 (R17). -/
def State.rtcCtrl (s : State) (w : Word) : State :=
  let clear := fun (t : State) (f : Fld) => if bits w f.hi f.lo = 1 then t.setF f 0 else t
  let t := clear (clear (clear s MGT_RTC_CTRL.DATE_REJECT) MGT_RTC_CTRL.CENTURY_WRAP) MGT_RTC_CTRL.LOST
  if bits w 31 31 = 1 then t.rtcSet else t

/-- RTC_SET (R664): master m writes MGT_RTC_CTRL with SET. -/
def execRtcSet (m : Nat) (s : State) : Host.Outcome State Fault Refusal :=
  s.write m MGT_RTC_CTRL.addr (s.start.rtcCtrl (BitVec.ofNat 32 (2 ^ 31)))

/-! ## Doorbells and restarts (R654, R660) -/

/-- A doorbell of channel c: BUSY and in the queue, or DB_REJECT. -/
def State.mbxBell (s : State) (c : Nat) : State :=
  let busy := s.fld MGT_MBX_STATUS.BUSY
  if bitN busy c then s.setF MGT_MBX_STATUS.DB_REJECT 1
  else ({ s with mgt := { s.mgt with queue := s.mgt.queue ++ [c] } } : State).setF MGT_MBX_STATUS.BUSY (busy + 2 ^ c)

/-- A write of MGT_MBX_DB: its doorbells in ascending channel order. -/
def State.mbxDb (s : State) (w : Word) : State :=
  ((List.range 8).filter (fun c => bitN w.toNat c)).foldl State.mbxBell s

/-- MAILBOX_DOORBELL (R654): master m writes v to MGT_MBX_DB. -/
def execMailboxDoorbell (m v : Nat) (s : State) : Host.Outcome State Fault Refusal :=
  s.write m MGT_MBX_DB.addr (s.start.mbxDb (BitVec.ofNat 32 v))

/-- First byte of a channel's window, and of the hand-off record (R653). -/
def mbxBase (c : Nat) : Nat := 0x08000000 + 0x1000 * c
def handoffBase : Nat := 0x0800F000

/-- BOOT_STATUS as it reads: OPEN and ROLLBACK_F come from the fuses (R643, R666). -/
def State.bootStatus (s : State) : Word :=
  ins (ins (s.rd MGT_BOOT_STATUS.addr) 26 26 (b2n (decide (s.fuses.keyHash = 0)))) 15 8 s.fuses.rollback

/-- A response written whole: header at 0x800, payload at 0x820; then BUSY clears, DONE sets, source 6 (R653, R654). -/
def State.respond (s : State) (c op status tag : Nat) (payload : List Byte) : State :=
  let head := leBytes 2 op ++ leBytes 1 status ++ leBytes 1 0 ++ leBytes 4 tag ++ leBytes 4 payload.length
  let t := (s.putAll (placed (mbxBase c + 0x800) head)).putAll (placed (mbxBase c + 0x820) payload)
  let busy := t.fld MGT_MBX_STATUS.BUSY
  let done := t.fld MGT_MBX_STATUS.DONE
  ((({ t with mgt := { t.mgt with queue := eraseOne c t.mgt.queue } } : State).setF MGT_MBX_STATUS.BUSY (busy - (if bitN busy c then 2 ^ c else 0))).setF
    MGT_MBX_STATUS.DONE (Nat.lor done (2 ^ c))).pulse 6

/-- LOCKSTEP_MGT_MISMATCH (R403): the pair is held; serving: a request was being served. -/
def execLockstepMgtMismatch (serving : Bool) (s : State) : Host.Outcome State Fault Refusal :=
  let t := (s.start.bump ITG_LOCKSTEP.MGT 1).writeBroke { Broke.plain 0x0A with unit := 0x61 }
  answer (s.pdOn 82 && !s.mgt.down) s
    { t with mgt := { t.mgt with down := true, serving := if serving then t.mgt.queue.head? else none } }

/-- The pair runs again: channels closed, session ended, the request it was serving answered RESTARTED, its queue of log entries lost, the restart
the next entry (R660). -/
def State.mgtRestart (s : State) : State :=
  let t := { s with mgt := { s.mgt with down := false, serving := none, session := none }, log := { s.log with queue := [], dropped := 0 } }
  let t := (t.setF MGT_MBX_STATUS.OPEN 0).setF MGT_MBX_STATUS.RESTARTED 1
  let t := t.logEvent logMgt 1 0 []
  match s.mgt.serving with
  | some c => t.respond c (t.nat (mbxBase c) 2) 7 (t.nat (mbxBase c + 4) 4) []
  | none => t

/-- MGT_PAIR_RESTART (R403, R660). -/
def execMgtPairRestart (s : State) : Host.Outcome State Fault Refusal := answer s.mgt.down s s.start.mgtRestart

/-! ## The event log in flash (R661, R662) -/

/-- Sector and slot of the log, and the 64 bytes there. -/
def logAddr (sector slot : Nat) : Nat := 0x04000000 + sector * 65536 + slot * 64
def State.logBytes (s : State) (sector slot : Nat) : List Byte := s.flashAt (logAddr sector slot) 64

/-- A committed header or entry. -/
def logCommitted (b : List Byte) : Bool := leAt b 63 1 == 0 && leAt b 59 4 == crc32c (b.take 59)
def headerOk (b : List Byte) : Bool := b.take 4 == [0x45, 0x4C, 0x4F, 0x47] && logCommitted b

/-- SECTOR_SEQ of a sector with a committed header. -/
def State.sectorSeq (s : State) (k : Nat) : Option Nat :=
  let b := s.logBytes k 0
  if headerOk b then some (leAt b 4 4) else none

/-- 59 bytes with their check value and the COMMIT byte, and both program commands. -/
def logSealed (b : List Byte) : List Byte := b ++ leBytes 4 (crc32c b)
def State.logProgram (s : State) (sector slot : Nat) (b : List Byte) : State :=
  (s.flashProgram (logAddr sector slot) (logSealed b)).flashProgram (logAddr sector slot + 63) [0]

/-- The sector taken when one is full: the one with the lowest committed SECTOR_SEQ, sector 0 where none has one (DESIGN CHOICE, log 92); and the
number it takes. -/
def State.logNext (s : State) : Nat × Nat :=
  let seqs := (List.range 128).map (fun k => (k, s.sectorSeq k))
  ((seqs.foldl (fun (a : Nat × Nat) e => match e.2 with | some q => if q < a.2 then (e.1, q) else a | none => a) (0, 2 ^ 32)).1,
   maxN (seqs.filterMap (fun e => e.2.map (· + 1))))

/-- A new sector: erased, its header written. -/
def State.logRotate (s : State) : State :=
  let k := s.logNext
  let t := s.flashErase (logAddr k.1 0) 65536
  let head := [0x45, 0x4C, 0x4F, 0x47] ++ leBytes 4 k.2 ++ leBytes 4 s.log.seq ++ leBytes 47 0
  let t := t.logProgram k.1 0 head
  { t with log := { t.log with sector := k.1, slot := 1, sectorSeq := k.2 % 2 ^ 32 } }

/-- The bytes 0–58 of an entry (R661). -/
def logEntry (x : LogItem) (seq dropped : Nat) : List Byte :=
  leBytes 4 seq ++ leBytes 4 x.rtc ++ leBytes 4 x.time ++ leBytes 4 x.wraps ++ leBytes 1 x.source ++ leBytes 1 x.code ++ leBytes 2 dropped
    ++ (x.data ++ List.replicate 36 0).take 36 ++ leBytes 3 0

/-- The oldest queued entry written; ok: the write was not interrupted. An interrupted slot is skipped, its bytes open. -/
def State.logWrite (s : State) (x : LogItem) (rest : List LogItem) (ok : Bool) : State :=
  let t := if s.log.slot = 0 ∨ 1024 ≤ s.log.slot then s.logRotate else s
  let broke := x.source == logBroke
  if ok then
    let u := t.logProgram t.log.sector t.log.slot (logEntry x t.log.seq (if broke then x.uncopied else t.log.dropped))
    { u with log := { u.log with queue := rest, dropped := if broke then u.log.dropped else 0, slot := u.log.slot + 1, seq := (u.log.seq + 1) % 2 ^ 32 } }
  else
    let u := (t.tookFree 63).flashProgram (logAddr t.log.sector t.log.slot) ((List.range 63).map (fun i => Config.freeValue 8 (t.freeCtr + i)))
    { u with log := { u.log with slot := u.log.slot + 1 } }

/-- LOG_ENTRY_WRITE (R662): once the scan of step 2 has found where the log goes on. -/
def execLogEntryWrite (ok : Bool) (s : State) : Host.Outcome State Fault Refusal :=
  match s.log.queue with
  | [] => answer false s s
  | x :: rest => answer (s.pdOn 82 && !s.mgt.down && decide (2 ≤ s.fld MGT_BOOT_STATUS.STAGE)) s (s.start.logWrite x rest ok)

/-- The scan of start-up: the sector with the highest committed SECTOR_SEQ, the slot after its last one not erased, and the number after its last
committed entry (R662). -/
def State.logScan (s : State) : State :=
  let best := (List.range 128).foldl (fun (a : Option (Nat × Nat)) k =>
    match s.sectorSeq k, a with
    | some q, some b => if b.2 < q then some (k, q) else a
    | some q, none => some (k, q)
    | none, _ => a) none
  match best with
  | none => { s with log := { s.log with sector := 0, slot := 0, seq := 0, sectorSeq := 0 } }
  | some (k, q) =>
    let used := (List.range 1023).filter (fun i => (s.logBytes k (i + 1)).any (fun b => b != 0xFF))
    let done := used.filter (fun i => logCommitted (s.logBytes k (i + 1)))
    let seq := match done.getLast? with
      | some i => (leAt (s.logBytes k (i + 1)) 0 4 + 1) % 2 ^ 32
      | none => leAt (s.logBytes k 0) 8 4
    { s with log := { s.log with sector := k, slot := (match used.getLast? with | some i => i + 2 | none => 1), seq := seq, sectorSeq := q } }

/-! ## Module reset (R633, R735, R737) -/

/-- RESET_N_ASSERT (R735, R737): a low pulse of ns nanoseconds. Below 1 µs it is rejected, from 10 µs on it resets, between it may do either; the
reset lasts 1 ms past it. While a rail is out of range the ball is ignored (R734). -/
def execResetNAssert (ns : Nat) (s : State) : Host.Outcome State Fault Refusal :=
  let t := s.start
  let go := decide (10000 ≤ ns) || (decide (1000 ≤ ns) && t.free 1 == 1)
  let t := if 1000 ≤ ns ∧ ns < 10000 then t.tookFree 1 else t
  .next (if !s.supply.up then s.start else if go then ({ t with mgt := { t.mgt with hold := false } } : State).externalReset else t)

/-- A rail monitor's threshold in mV: VDD_IO_0, VIO_18. -/
def railTrip (rail : Nat) : Nat := if rail = 0 then 680 else 1600

/-- A rail found low: every ball of I/O die 0 is high impedance but the island's and the calendar crystal's (R734), and the module is in reset. -/
def State.railLow (s : State) (rail : Nat) : State :=
  let t := if s.supply.up then (s.moduleReset 1).emit (.note "IO0_BALLS" [2]) else s
  { t with supply := if rail = 0 then { t.supply with lowIo := true } else { t.supply with lowVio := true } }

/-- A rail found in range again: with both in range the balls take their levels of R730, and the reset lasts 1 ms more. -/
def State.railBack (s : State) (rail : Nat) : State :=
  let x := if rail = 0 then { s.supply with lowIo := false } else { s.supply with lowVio := false }
  let t : State := { s with supply := x }
  if x.up && !s.supply.up then { t with out := t.out ++ resetBalls t.tap.shifting, supply := { x with heldTo := t.cyc + 1000000 } } else t

/-- RAIL_MONITOR_TRIP (R734, R735): the monitor of VDD_IO_0 (0) or VIO_18 (1) sees mv millivolts. Below its threshold the module is in reset, an
external cause for the log; from 20 mV above it on the rail is back; between, nothing changes. That the command also brings the level back is a
DESIGN CHOICE (log 95). -/
def execRailMonitorTrip (rail mv : Nat) (s : State) : Host.Outcome State Fault Refusal :=
  answer (decide (rail < 2)) s
    (if mv < railTrip rail then s.start.railLow rail else if railTrip rail + 20 ≤ mv then s.start.railBack rail else s.start)

/-- MODULE_RESET_DELAY_EXPIRY (R633, R656): 1 ms after the mailbox operation. -/
def execModuleResetDelayExpiry (s : State) : Host.Outcome State Fault Refusal :=
  answer (match s.mgt.resetAt with | some t => decide (t ≤ s.cyc) | none => false) s (s.start.moduleReset 2)

end Sys2Proof.Machine
end

