-- ==== Sys2Proof/Machine/MoverCmds.lean ====
section
/-! DEFINITION. The commands and events of the page movers (chapter 09): doorbells and ring configuration, the start of each kind of
move, NVMe completions, sheet timeouts, and the completion of a move. -/
namespace Sys2Proof.Machine

/-! ## Rings (R217–R220, R332) -/

/-- A doorbell of ring r of mover m. -/
def State.pmvBell (s : State) (m r v : Nat) : State :=
  s.ringPush (s.flag (MEM_PMV_RING_CFG.EN m r)) (2 ^ s.fld (MEM_PMV_RING_LO.LOG2_SIZE m r)) (MEM_PMV_RING_HEAD.COUNT m r)
    (MEM_PMV_RING_TAIL.COUNT m r) (some (MEM_PMV_RING_STATUS.FULL_REJ m r)) v

/-- PMV_DOORBELL (R332): master m writes v to the doorbell of ring r of mover i. -/
def execPmvDoorbell (m i r v : Nat) (s : State) : Host.Outcome State Fault Refusal :=
  s.write m (MEM_PMV_RING_DB.addr i r) (s.start.pmvBell i r v)

/-- The condition of R332 that fails for enabling ring r, 0 for none. -/
def State.pmvCfgErr (s : State) (m r : Nat) : Nat :=
  let l := s.fld (MEM_PMV_RING_LO.LOG2_SIZE m r)
  let base := s.fld (MEM_PMV_RING_LO.BASE_LO m r) * 0x1000 + s.fld (MEM_PMV_RING_HI.BASE_HI m r) * 2 ^ 32
  if !s.partOn r then 1
  else if !(s.inPart r base (64 * 2 ^ l) && s.dataRange base (64 * 2 ^ l)) then 2
  else if l < 4 ∨ 12 < l then 3
  else 0

/-- A write of RING_CFG: EN changes only under R332. -/
def State.pmvCfg (s : State) (m r : Nat) (w : Word) : State :=
  let was := s.flag (MEM_PMV_RING_CFG.EN m r)
  let now := bits w 31 31 == 1
  let err := fun (t : State) (e : Nat) => t.setF (MEM_PMV_RING_CFG.CFG_ERR m r) e
  if !was && now then
    let e := s.pmvCfgErr m r
    if e = 0 then
      err (((s.setF (MEM_PMV_RING_CFG.EN m r) 1).setF (MEM_PMV_RING_HEAD.COUNT m r) 0).setF (MEM_PMV_RING_TAIL.COUNT m r) 0) 0
    else err s e
  else if was && !now then
    if s.fld (MEM_PMV_RING_HEAD.COUNT m r) = s.fld (MEM_PMV_RING_TAIL.COUNT m r) ∧ !(s.mover m).moves.any (fun v => v.ring == r) then
      err (s.setF (MEM_PMV_RING_CFG.EN m r) 0) 0
    else err s 4
  else err s 0

/-- PMV_RING_CFG_WRITE (R332, R358). -/
def execPmvRingCfgWrite (m i r v : Nat) (s : State) : Host.Outcome State Fault Refusal :=
  s.write m (MEM_PMV_RING_CFG.addr i r) (s.start.pmvCfg i r (BitVec.ofNat 32 v))

/-! ## Starting moves (R335, R336) -/

/-- The next head of mover m, if its OP satisfies p. -/
def State.nextMove (s : State) (m : Nat) (p : Nat → Bool) : Option Nat :=
  match s.nextRing m with
  | none => none
  | some r => match s.ringHead m r with
    | some b => if p (leAt b 0 1) then some r else none
    | none => none

/-- A move of one OP starts. -/
def moveRow (m : Nat) (p : Nat → Bool) (s : State) : Host.Outcome State Fault Refusal :=
  let t := s.startCows
  match t.nextMove m p with
  | some r => .next (t.start.startMove m r)
  | none => answer false s s

/-- COPY (R335); a head with a reserved OP starts here too, and fails with BAD_DESC. -/
def execPmvCopy (m : Nat) (s : State) : Host.Outcome State Fault Refusal := moveRow m (fun op => !decide (2 ≤ op ∧ op ≤ 6)) s
/-- FILL (R335). -/
def execPmvFill (m : Nat) (s : State) : Host.Outcome State Fault Refusal := moveRow m (fun op => op == 2) s
/-- TRANSPOSE (R338). -/
def execPmvTranspose (m : Nat) (s : State) : Host.Outcome State Fault Refusal := moveRow m (fun op => op == 3) s
/-- DECOMP (R346). -/
def execPmvDecomp (m : Nat) (s : State) : Host.Outcome State Fault Refusal := moveRow m (fun op => op == 4) s
/-- FETCH (R347). -/
def execPmvFetch (m : Nat) (s : State) : Host.Outcome State Fault Refusal := moveRow m (fun op => op == 5) s
/-- FETCH_NVME (R347). -/
def execPmvFetchNvme (m : Nat) (s : State) : Host.Outcome State Fault Refusal := moveRow m (fun op => op == 6) s

/-! ## NVMe completions and timeouts (R347–R349) -/

/-- The move and piece of mover m that an outstanding command identifier belongs to. -/
def State.cidPiece (s : State) (m cid : Nat) : Option (Nat × Nat) :=
  (s.mover m).moves.findSome? (fun v =>
    if leAt v.bytes 0 1 = 6 then
      ((List.range v.sheets.length).find? (fun k => let x := getAt ⟨0, 0, false, false, 0, 0, 0⟩ v.sheets k; x.out && x.cid == cid)).map (fun k => (v.id, k))
    else none)

/-- The completion entry at the head of mover m's completion queue, and whether it is new: the port has reported it written, no block of it is being
filled, and its phase tag is the expected one (R334, R347, R592). -/
def State.cqe (s : State) (m : Nat) : List Byte := s.bytesAt (s.nvmeAddr m 1 + 16 * (s.mover m).cqHead) 16
def State.cqeNew (s : State) (m : Nat) : Bool :=
  s.flag (MEM_PMV_NVME_CFG.EN m) && s.pdOn (pdMem (m / 8)) && (s.mover m).reported.contains (s.mover m).cqHead
    && !s.filling (s.nvmeAddr m 1 + 16 * (s.mover m).cqHead) 16 && (leAt (s.cqe m) 14 2 % 2 == b2n (s.mover m).cqPhase)

/-- The entry taken: head and phase advance, the completion doorbell is rung. -/
def State.cqePop (s : State) (m : Nat) : State :=
  let x := s.mover m
  let h := (x.cqHead + 1) % s.nvmeSize m
  (s.setMover m { x with cqHead := h, cqPhase := if h = 0 then !x.cqPhase else x.cqPhase, reported := x.reported.filter (fun k => k != x.cqHead) }).pWrite (s.nvmeAddr m 3) (leBytes 4 h) []

/-- A move has failed with a code, unless it had before. -/
def State.failMove (s : State) (m id c : Nat) : State :=
  match s.move m id with
  | some v => if v.code = 0 then s.putMove m { v with code := c } else s
  | none => s

/-- A queue entry's status taken for the piece whose command it names; ok: the entry's own block passed its check (R325). -/
def State.cqeTaken (s : State) (m status : Nat) (ok : Bool) : Option (Nat × Nat) → State
  | some p =>
    (if !ok then s.failMove m p.1 3 else if status = 0 then s.pieceGot m p.1 p.2 else s.pieceFailed m p.1 p.2 false).pump
  | none => s

/-- NVME_COMPLETION (R347, R348): the sheet of the command has arrived, or its read failed. -/
def execNvmeCompletion (m : Nat) (s : State) : Host.Outcome State Fault Refusal :=
  let e := s.cqe m
  let t := s.start.cqePop m
  let own := s.cidPiece m (leAt e 12 2)
  let r := t.checkAll 0 (match own with | some p => p.1 | none => 0) (rangeBlocks (s.nvmeAddr m 1 + 16 * (s.mover m).cqHead) 16)
  answer (s.cqeNew m) s (r.1.cqeTaken m (leAt e 14 2 / 2) r.2 own)

/-- Piece k of move i of mover m has waited T2_TIMEOUT (R348). -/
def State.sheetLate (s : State) (m i k : Nat) : Option Move :=
  match (s.mover m).moves[i]? with
  | none => none
  | some v =>
    let x := getAt ⟨0, 0, false, true, 0, 0, 0⟩ v.sheets k
    if (MoveDesc.ofBytes v.bytes).fetch && x.out && decide (x.issued + s.fld (MEM_PMV_T2_TIMEOUT.US m) * 1000 ≤ s.cyc) then some v else none

/-- SHEET_READ_TIMEOUT (R348, R349): read again, or the move is abandoned. -/
def execSheetReadTimeout (m i k : Nat) (s : State) : Host.Outcome State Fault Refusal :=
  match s.sheetLate m i k with
  | some v => .next ((s.start.pieceFailed m v.id k false).pump)
  | none => answer false s s

/-! ## Completion (R337) -/

/-- The bytes a local move writes, from its sources; none: a frame failed (R344). -/
def State.moveBytes (s : State) (v : Move) (d : MoveDesc) : Option (List (Addr × Byte)) :=
  if d.op = 2 then some (placed d.dst (List.replicate d.len (BitVec.ofNat 8 d.fill)))
  else if d.op = 3 then
    some ((List.range d.batch).flatMap (fun i => (List.range d.cols).flatMap (fun c => (List.range d.rows).flatMap (fun r =>
      placed (d.dst + i * d.ds + c * d.dp + r * d.elem) (s.bytesAt (d.src + i * d.ss + r * d.sp + c * d.elem) d.elem)))))
  else if d.op = 4 then (framesPlain s.bytesAt d.len d.src).map (placed d.dst)
  else if v.data.isEmpty && !isPort (s.moveClass d.src d.len) then some (placed d.dst (s.bytesAt d.src d.len))
  else some (placed d.dst ((List.range d.len).map (fun i => Sparse.get (fun _ => 0) v.data i)))

/-- What a local move copies from where: ranges of its destination, and the source range each comes from (R335, R338, R346). -/
def State.moveParts (s : State) (v : Move) (d : MoveDesc) : List (Range × Range) :=
  if d.op = 1 then (rangeBlocks d.dst d.len).map (fun b =>
    let lo := Nat.max d.dst (b * 4096)
    let n := Nat.min (d.dst + d.len) (b * 4096 + 4096) - lo
    ((lo, n), (d.src + (lo - d.dst), n)))
  else if d.op = 3 then (List.range d.batch).flatMap (fun i => (List.range d.cols).flatMap (fun c => (List.range d.rows).map (fun r =>
    ((d.dst + i * d.ds + c * d.dp + r * d.elem, d.elem), (d.src + i * d.ss + r * d.sp + c * d.elem, d.elem)))))
  else if d.op = 4 then
    (v.reads.foldl (fun (acc : List (Range × Range) × Nat) f =>
      let n := Nat.min (s.nat (f.1 + 4) 4) 65536
      (acc.1 ++ [((acc.2, n), f)], acc.2 + n)) ([], d.dst)).1
  else []

/-- The destination blocks that take PROVISIONAL from the blocks they are copied from, as LOAD's do (R187, R337). -/
def State.moveProv (s : State) (v : Move) (d : MoveDesc) : List Nat :=
  ((s.moveParts v d).filter (fun x => (rangeBlocks x.2.1 x.2.2).any (fun b => (s.tag b).prov))).flatMap (fun x => rangeBlocks x.1.1 x.1.2)

/-- PROVISIONAL set on blocks. -/
def State.setProvs (s : State) (bs : List Nat) : State := bs.foldl (fun (t : State) b => t.setTag b { t.tag b with prov := true }) s

/-- The writes of a move land, or leave by a PCIe window. -/
def State.moveStore (s : State) (m : Nat) (v : Move) (d : MoveDesc) (ws : List (Addr × Byte)) : State × Bool :=
  if isPort (s.moveClass d.dst d.len) then
    (s.pWrite d.dst (ws.map (·.2)) (if isPort (s.moveClass d.src d.len) then [] else rangeBlocks d.src d.len), true)
  else
    let r := s.store ⟨0x40 + m, 0, false, false, .unit⟩ ws 0 v.id
    (r.1.setProvs (s.moveProv v d), r.2.isEmpty)

/-- A local move runs: source blocks tested, bytes written. A failure that is reported leaves the move with its code until the
report has been processed (R392). It waits while its ring's class is held where it reads or writes (R371). A DECOMP whose frames no longer announce what its start found fails as a bad frame does (DESIGN CHOICE,
log 83). -/
def State.moveRun (s : State) (m : Nat) (v : Move) (d : MoveDesc) (reads : List Nat) : State :=
  match s.moveScan v reads with
  | .wait _ => s
  | .stop st b =>
    if st = stWatermark then (s.checkRead b 0 v.id).1.putMove m { v with code := 3 } else s.moveFail m { v with code := 4, blame := s.blameOf b }
  | .ok _ =>
    if s.hbxBars (0x40 + m) v.ring (m / 8) ((if v.sheets.isEmpty then v.reads else []) ++ v.writes) then s
    else
    let t := s.noteReads reads 0 v.id
    let t := t.regulateAll (0x40 + m) v.ring (m / 8) (if v.sheets.isEmpty then v.reads else [])
    match (t.moveBytes v d).filter (fun ws => d.op != 4 || (t.mvReads d == v.reads && v.writes == [(d.dst, ws.length)])) with
    | none => (t.putMove m { v with code := 5 }).report ⟨0x11, 0x40 + m, 64, 0, v.id, d.dst, 0, 0, 0, 0⟩
    | some ws =>
      let t := t.regulateAll (0x40 + m) v.ring (m / 8) v.writes
      let r := t.moveStore m v d ws
      if r.2 then r.1.moveDone m v else r.1.putMove m { v with code := 3 }

/-- A report about a move still waits for the integrity controller. -/
def State.moveReported (s : State) (id : Nat) : Bool := s.reports.any (fun r => r.move == id)

/-- A piece of the move is outstanding, or still to be issued or read. -/
def Move.busy (v : Move) : Bool := v.sheets.any (·.out)
def Move.whole (v : Move) : Bool := v.sheets.all (·.got)

/-- The blocks a move reads here at its completion. -/
def Move.sources (v : Move) : List Nat :=
  if v.sheets.isEmpty then blocksOf v.reads else []

/-- MOVE_COMPLETE (R337): move i of mover m. -/
def execMoveComplete (m i : Nat) (s : State) : Host.Outcome State Fault Refusal :=
  match (s.mover m).moves[i]? with
  | none => answer false s s
  | some v =>
    let d := MoveDesc.ofBytes v.bytes
    let t := s.start
    if v.busy || s.moveReported v.id then answer false s s
    else if v.code ≠ 0 then .next (t.moveFail m v)
    else if !v.whole || !(s.moveWaits v).isEmpty then answer false s s
    else if v.sheets.isEmpty then .next (t.moveRun m v d v.sources)
    else if isPort (s.moveClass d.dst d.len) && !v.second && isPort (s.moveClass d.src d.len) then .next (t.moveRun m v d [])
    else .next (t.moveDone m v)

end Sys2Proof.Machine
end

