-- ==== Sys2Proof/Machine/Mti.lean ====
section
/-! DEFINITION. The sealed metrology island (chapter 22). -/
namespace Sys2Proof.Machine

/-! ## Numbers -/

/-- n / d rounded to the nearest integer, ties to even; 0 for d = 0. -/
def rneDiv (n : Int) (d : Nat) : Int :=
  if d = 0 then 0
  else
    let q := n / (d : Int)
    let r := (n % (d : Int)).toNat
    if 2 * r < d ∨ (2 * r = d ∧ q % 2 = 0) then q else q + 1

/-- A finite value rounded to the nearest integer, ties to even. -/
def rneInt : Num → Int
  | .fin s m e => let v : Int := (quantise .rne m e 0 : Int); if s then -v else v
  | _ => 0

/-! ## The parameter table (R707) -/

def State.mtiParam (s : State) (off n : Nat) : Nat := leAt s.mtiStore.params off n
def State.mtiOcv (s : State) : List (Nat × Nat) := (List.range 32).map (fun k => (s.mtiParam (32 + 4 * k) 2, s.mtiParam (34 + 4 * k) 2))

/-- A list whose entries strictly ascend in both numbers. -/
def ascending : List (Nat × Nat) → Bool
  | a :: b :: l => decide (a.1 < b.1 ∧ a.2 < b.2) && ascending (b :: l)
  | _ => true

/-- A table keeps the ranges of R707. -/
def paramOk (bs : List Byte) : Bool :=
  let f := fun (off n : Nat) => leAt bs off n
  let ig := f32 (f 0 4)
  let vg := f32 (f 8 4)
  bs.length == 256 && ig.isFin && !ig.isZero && vg.isFin && !vg.isZero && !vg.signBit
    && decide (1 ≤ f 16 4 ∧ f 16 4 ≤ 4000000 ∧ f 20 1 ≤ 32 ∧ 1 ≤ f 21 1 ∧ f 21 1 ≤ 12 ∧ 50 ≤ f 22 2 ∧ f 22 2 ≤ 1000)
    && decide (1 ≤ f 24 2 ∧ 60 ≤ f 26 2 ∧ f 26 2 ≤ 7200 ∧ f 28 2 ≤ 10000)
    && ascending ((List.range 32).map (fun k => (f (32 + 4 * k) 2, f (34 + 4 * k) 2)))
    && (bs.drop 160).all (fun b => b == 0)

/-- PARAM_CRC. -/
def State.paramCrc (s : State) : Nat := crc32c s.mtiStore.params

/-! ## Legal registers and events (R711, R713, R714) -/

def State.setMti (s : State) (x : Mti) : State := { s with mti := x }

/-- A legal register: 0 E_OUT, 1 E_IN, 2 Q_OUT, 3 Q_IN, 4 OP_TIME_S, 5 LEGAL_EVENTS. -/
def Mti.reg (x : Mti) (k : Nat) : Nat := getAt 0 x.regs k

/-- An audit entry (R714). -/
def Mti.auditEntry (x : Mti) (seq code detail : Nat) : List Byte :=
  let head := leBytes 4 seq ++ leBytes 1 code ++ leBytes 1 detail ++ [0]
  let tail := leBytes 4 (x.reg 4) ++ leBytes 4 (x.reg 0) ++ leBytes 4 (x.reg 1) ++ leBytes 4 (x.reg 2) ++ leBytes 4 (x.reg 3)
  head ++ [0] ++ tail ++ leBytes 4 (crc32c (head ++ tail))

/-- The next audit slot exists, and its write fails verification. -/
def MtiStore.fails (st : MtiStore) : Bool := decide (st.next < 1024) && st.worn.contains st.next

/-- An audit entry written where a slot remains; a slot whose write fails verification holds no entry and is passed over (DESIGN CHOICE, log 94). -/
def State.audit (s : State) (code detail : Nat) : State :=
  let st := s.mtiStore
  if 1024 ≤ st.next then s
  else if st.fails then { s with mtiStore := { st with next := st.next + 1 } }
  else { s with mtiStore := { st with audit := st.audit ++ [(st.next, s.mti.auditEntry (s.mti.reg 5) code detail)], next := st.next + 1 } }

/-- A legal event: counted and recorded, and a STORE_FAULT after it where the write of its entry fails; or, on a saturated count, left uncounted,
the first of these recording also the saturation, the later ones nothing. Every failed write spends a slot, so that n events end the chain. -/
def State.legalIn : Nat → Nat → Nat → State → State
  | 0, _, _, s => s
  | n + 1, code, detail, s =>
    let t := s.setMti { s.mti with due := true }
    if t.mti.reg 5 < sat32 then
      let u := (t.setMti { t.mti with regs := setAt t.mti.regs 5 (t.mti.reg 5 + 1) }).audit code detail
      if t.mtiStore.fails then u.legalIn n 6 0 else u
    else if bitN t.mtiStore.saturated 5 then t
    else (({ t with mtiStore := { t.mtiStore with saturated := t.mtiStore.saturated + 32 } } : State).audit code detail).audit 7 5

/-- A legal event: of the 1,024 slots each can fail once, and the last event finds none. -/
def State.legalEvent (s : State) (code detail : Nat) : State := State.legalIn 1025 code detail s

/-- A legal register advanced by n increments: saturating, the first increment that finds it saturated an event. -/
def State.legalAdd (s : State) (k n : Nat) : State :=
  let r := s.mti.reg k
  let t := s.setMti { s.mti with regs := setAt s.mti.regs k (Nat.min sat32 (r + n)) }
  if sat32 < r + n ∧ bitN t.mtiStore.saturated k = false then
    ({ t with mtiStore := { t.mtiStore with saturated := t.mtiStore.saturated + 2 ^ k } } : State).legalEvent 7 k
  else t

/-! ## The mailbox (R720, R721) -/

def Mti.any (x : Mti) (p : Nat → Bool) : Bool := x.monitors.any (fun m => p m.state)

/-- FLAGS of a snapshot; valid: the island measures. -/
def State.snapFlags (s : State) (valid : Bool) : Nat :=
  let x := s.mti
  b2n valid + 2 * b2n s.mtiStore.fuse + 4 * b2n x.disagree + 8 * b2n (decide (1024 ≤ s.mtiStore.next)) + 16 * b2n x.atRest
    + 32 * b2n (x.any (fun k => k == 1 || k == 2)) + 64 * b2n (x.any (fun k => k == 3)) + 128 * b2n (!valid)
    + 256 * b2n (x.faultI || x.faultV) + 512 * b2n x.clockBad

/-- The snapshot published now. -/
def State.snapshot (s : State) (valid : Bool) : List Byte :=
  let x := s.mti
  [1, 1] ++ leBytes 2 (s.snapFlags valid) ++ leBytes 4 x.snapSeq ++ leBytes 4 s.time ++ leBytes 4 s.wraps
    ++ leBytes 4 (x.reg 0) ++ leBytes 4 (x.reg 1) ++ leBytes 4 (x.reg 2) ++ leBytes 4 (x.reg 3) ++ leBytes 4 (x.reg 4) ++ leBytes 4 (x.reg 5)
    ++ leBytes 4 (unsigned 32 (rneDiv x.meanI 1000)) ++ leBytes 4 (unsigned 32 (rneDiv x.meanV 1000))
    ++ leBytes 2 (unsigned 16 x.socCC) ++ leBytes 2 x.socV ++ leBytes 2 s.mtiStore.audit.length ++ leBytes 10 0

/-- A refresh: the snapshot, one further in its sequence, stamped, and source 7. -/
def State.refresh (s : State) (valid : Bool) : State :=
  let t := s.setMti { s.mti with snapSeq := (s.mti.snapSeq + 1) % 2 ^ 32, due := false }
  (t.setMti { t.mti with snap := t.snapshot valid }).pulse 7

/-- The controller is at work: it measures, or its ROM check has failed and its snapshots say so (R706). -/
def State.mtiAwake (s : State) : Bool := s.mti.on || s.flag MTI_STATUS.ROM_FAIL

/-- A refresh after a legal event. -/
def State.settleMti (s : State) : State := if s.mti.due ∧ s.mtiAwake = true then s.refresh s.mti.on else s

/-- The snapshot as the page shows it: before the first refresh, its versions and VALID = 0. -/
def State.snapNow (s : State) : List Byte := if s.mti.snap.isEmpty then [1, 1] ++ leBytes 62 0 else s.mti.snap
/-- The sweep record as the page shows it: zeros before the first sweep. -/
def State.sweepNow (s : State) : List Byte := if s.mti.sweepRec.isEmpty then leBytes 1056 0 else s.mti.sweepRec

/-- SNAPSHOT_REFRESH (R720): 100 ms have passed since the last refresh. -/
def execSnapshotRefresh (s : State) : Host.Outcome State Fault Refusal :=
  answer (s.pdOn 81 && s.mtiAwake) s (s.start.refresh s.mti.on)

/-- Master m reads offset 0x0100 or 0x1000: the whole snapshot, or sweep record, is latched for it. -/
def State.latchMti (s : State) (m : Nat) (sweep : Bool) : State :=
  if sweep then s.setMti { s.mti with sweepLatch := Sparse.set (fun _ => []) s.mti.sweepLatch m s.sweepNow }
  else s.setMti { s.mti with snapLatch := Sparse.set (fun _ => []) s.mti.snapLatch m s.snapNow }

/-- SNAPSHOT_LATCH_READ (R720): master m reads the first word of the snapshot or of the sweep record. -/
def execSnapshotLatchRead (m : Nat) (sweep : Bool) (s : State) : Host.Outcome State Fault Refusal :=
  let a := if sweep then MTI_SWEEP.addr 0 else MTI_SNAP.addr 0
  .next (if s.mayRead m a then
    (s.start.latchMti m sweep).say (.word (BitVec.ofNat 32 (leAt (if sweep then s.sweepNow else s.snapNow) 0 4)))
  else s.busError)

/-! ## Samples (R709, R710) -/

def chargeUnit : Nat := 14400000000
def energyUnit : Nat := 14400000000000000

/-- i in µA and v in µV of a pair of codes. -/
def State.sampleI (s : State) (c : Int) : Int := rneInt ((Num.ofInt (c - signed 32 (s.mtiParam 4 4))).mul (f32 (s.mtiParam 0 4)))
def State.sampleV (s : State) (c : Int) : Int := rneInt ((Num.ofInt (c - signed 32 (s.mtiParam 12 4))).mul (f32 (s.mtiParam 8 4)))

/-- An amount added to residue k: whole units of it pass to legal register r. A sum below 0 or past the residue's 64 bits leaves an open residue. -/
def State.residueAdd (s : State) (k r unit : Nat) (n : Int) : State :=
  let sum : Int := getAt 0 s.mti.residues k + n
  let outside := sum < 0 ∨ 2 ^ 64 ≤ sum
  let v := if outside then s.free 64 else sum.toNat
  let t := if outside then s.tookFree 1 else s
  (t.setMti { t.mti with residues := setAt t.mti.residues k (v % unit) }).legalAdd r (v / unit)

/-- Charge and energy of a sample. -/
def State.accumulate (s : State) (i v : Int) : State :=
  if 0 < i then (s.residueAdd 0 2 chargeUnit i).residueAdd 1 0 energyUnit (i * v)
  else if i < 0 then (s.residueAdd 2 3 chargeUnit (-i)).residueAdd 3 1 energyUnit (-i * v)
  else s

/-- A fault episode of a channel: code 3 or 4 at its start. -/
def State.adcFault (s : State) (volt bad : Bool) : State :=
  let was := if volt then s.mti.faultV else s.mti.faultI
  let t := s.setMti (if volt then { s.mti with faultV := bad } else { s.mti with faultI := bad })
  if bad && !was then t.legalEvent (if volt then 4 else 3) 0 else t

/-- ADC_SAMPLE (R709, R710): codes of the two channels, and whether each fails its self-check. -/
def execAdcSample (cI cV : Int) (badI badV : Bool) (s : State) : Host.Outcome State Fault Refusal :=
  let x := s.mti
  let i := s.sampleI cI
  let v := s.sampleV cV
  let clipI := if cI = -8388608 ∨ cI = 8388607 then x.clipI + 1 else 0
  let clipV := if cV = 0 ∨ cV = 16777215 then x.clipV + 1 else 0
  let t := s.start.setMti { x with
    codeI := cI, codeV := cV, clipI := clipI, clipV := clipV, sumI := x.sumI + i, sumAbs := x.sumAbs + i.natAbs,
    sumV := x.sumV + v, samples := x.samples + 1, qnet := x.qnet + i, sinceSweep := x.sinceSweep + 1 }
  let t := ((t.accumulate i v).adcFault false (badI || decide (4 ≤ clipI))).adcFault true (badV || decide (4 ≤ clipV))
  answer (s.pdOn 81 && x.on && decide (x.samples < 4000) && decide (-8388608 ≤ cI ∧ cI ≤ 8388607 ∧ 0 ≤ cV ∧ cV ≤ 16777215)) s t.settleMti

/-! ## The second (R718, R719) -/

/-- Linear interpolation in the OCV table at num / den mV, rounded down, clamped to its ends. -/
def interpolate : List (Nat × Nat) → Int → Nat → Nat
  | [], _, _ => 0
  | [a], _, _ => a.2
  | a :: b :: l, num, den =>
    if num ≤ (a.1 * den : Nat) then a.2
    else if num < (b.1 * den : Nat) then a.2 + ((num - (a.1 * den : Nat)).toNat * (b.2 - a.2)) / ((b.1 - a.1) * den)
    else interpolate (b :: l) num den

/-- The mean cell voltage in mV as a fraction: of the cells read in the newest sweep, else the pack voltage over the cells of the table. -/
def State.meanCell (s : State) : Int × Nat :=
  let cells := (s.mti.monitors.filter (fun m => decide (m.state ≤ 2))).flatMap (fun m => m.cells)
  if !cells.isEmpty then ((sumN cells : Int), cells.length)
  else (s.mti.sumV, 4000 * 1000 * Nat.max 1 (s.mtiParam 20 1) * s.mtiParam 21 1)

/-- SOC_V of this second; open where the table gives no divisor. -/
def State.socVNow (s : State) : State × Nat :=
  let m := s.meanCell
  if m.2 = 0 then (s.tookFree 1, s.free 16) else (s, interpolate s.mtiOcv m.1 m.2)

/-- SOC_CC from the anchor and the net charge; open for a capacity of 0. -/
def State.socCCNow (s : State) : State × Int :=
  let cap := s.mtiParam 16 4
  if cap = 0 then (s.tookFree 1, signed 16 (s.free 16))
  else (s, clampI (-32768) 32767 (s.mti.anchor - rneDiv (s.mti.qnet * 10000) (chargeUnit * cap)))

/-- SOC_EVALUATION (R711, R718, R719): a second of 4,000 samples has passed. -/
def execSocEvaluation (s : State) : Host.Outcome State Fault Refusal :=
  let x := s.mti
  let quiet := decide (x.sumAbs < 4000 * 1000 * s.mtiParam 24 2)
  let rest := if quiet then x.rest + 1 else 0
  let atRest := quiet && decide (s.mtiParam 26 2 ≤ rest)
  let v := s.start.socVNow
  let t := v.1.setMti { v.1.mti with
    meanI := rneDiv x.sumI 4000, meanV := rneDiv x.sumV 4000, rest := rest, atRest := atRest, socV := v.2,
    anchor := if atRest then (v.2 : Int) else x.anchor, qnet := if atRest then 0 else x.qnet }
  let c := t.socCCNow
  let u := c.1.setMti { c.1.mti with
    socCC := c.2, disagree := decide (c.2 ≤ 0) && decide (s.mtiParam 28 2 < v.2), sumI := 0, sumAbs := 0, sumV := 0,
    samples := 0, sinceCkpt := x.sinceCkpt + 1 }
  answer (s.pdOn 81 && x.on && x.samples == 4000) s (u.legalAdd 4 1).settleMti

/-! ## Store, start and loss (R704, R706, R712) -/

/-- The checkpoint of the island as it stands. -/
def Mti.ckpt (x : Mti) (clean : Bool) : Ckpt :=
  ⟨x.regs, x.residues, x.anchor, x.qnet, x.rest, x.atRest, x.socCC, x.socV, x.disagree, clean⟩

/-- The island as a checkpoint gives it back. -/
def Ckpt.resumed (c : Ckpt) : Mti :=
  { Mti.init with on := true, regs := c.regs, residues := c.residues, anchor := c.anchor, qnet := c.qnet, rest := c.rest, atRest := c.atRest,
                  socCC := c.socCC, socV := c.socV, disagree := c.disagree }

/-- A checkpoint written; bad: it fails verification, and the one before it stays the newest (R713). -/
def State.checkpoint (s : State) (clean bad : Bool) : State :=
  if bad then s.legalEvent 6 0 else { s with mtiStore := { s.mtiStore with ckpt := some (s.mti.ckpt clean) } }

/-- CHECKPOINT (R712): 10 s since the last. -/
def execMtiCheckpoint (bad : Bool) (s : State) : Host.Outcome State Fault Refusal :=
  let t := s.start.setMti { s.mti with sinceCkpt := 0 }
  answer (s.pdOn 81 && s.mti.on && decide (10 ≤ s.mti.sinceCkpt)) s (t.checkpoint false bad).settleMti

/-- POWER_FAIL_SIGNAL (R712): MTI_PF_N goes low. -/
def execPowerFailSignal (bad : Bool) (s : State) : Host.Outcome State Fault Refusal :=
  answer (s.pdOn 81 && s.mti.on) s (s.start.checkpoint true bad).settleMti

/-- VMET_POWER_LOSS (R704): VMET leaves its range. cut: an audit entry was being written: its slot is spent, and the restart raises POWER_UNCLEAN
(R714, R722). -/
def execVmetPowerLoss (cut : Bool) (s : State) : Host.Outcome State Fault Refusal :=
  let t := (s.start.resetRegs (fun a => regDomain a == 81)).setPd 81 0
  let torn := cut && decide (t.mtiStore.next < 1024)
  answer (s.pdOn 81) s
    { t.setMti Mti.init with mtiStore := { t.mtiStore with next := t.mtiStore.next + b2n torn, torn := torn } }

/-- The checksum of the island's ROM as published (R706). -/
def mtiRomCrc : Nat := 0x5A1C7E39

/-- The island resumes from the newest committed checkpoint, where there is one; POWER_UNCLEAN where that is not clean, or an audit entry was
cut off (R722). -/
def State.resumeMti (s : State) : State :=
  let t := (s.setMti { Mti.init with on := true }).setF MTI_STATUS.RUNNING 1
  let u := match t.mtiStore.ckpt with
    | none => t
    | some c => t.setMti c.resumed
  let clean := match t.mtiStore.ckpt with
    | none => true
    | some c => c.clean
  let v : State := { u with mtiStore := { u.mtiStore with torn := false } }
  if clean && !u.mtiStore.torn then v else v.legalEvent 2 0

/-- MTI_START (R706, R712): VMET is present and the controller starts; crc: the checksum it computes of its ROM; worn: the audit slots whose write
fails verification while it runs (R713). -/
def execMtiStart (crc : Nat) (worn : List Nat) (s : State) : Host.Outcome State Fault Refusal :=
  let t := ({ s.start with mtiStore := { s.mtiStore with worn := worn } } : State).setPd 81 2 |>.setF MTI_FW_CRC.CRC crc
  answer (!s.mti.on && !s.flag MTI_STATUS.ROM_FAIL) s
    (if crc = mtiRomCrc then t.resumeMti.settleMti else (t.setF MTI_STATUS.ROM_FAIL 1).refresh false)

/-- CLOCK_CHECK (R705): the clocks differ by more than 2%, or do not; the event is raised when a difference begins. -/
def execClockCheck (bad : Bool) (s : State) : Host.Outcome State Fault Refusal :=
  let t := s.start.setMti { s.mti with clockBad := bad }
  answer (s.pdOn 81 && s.mti.on) s ((if bad && !s.mti.clockBad then t.legalEvent 5 0 else t).settleMti)

/-! ## The battery-monitor ring (R715–R717) -/

/-- CRC-8 of polynomial 0x07 from 0x00, most significant bit first. -/
def crc8 (bs : List Byte) : Byte :=
  bs.foldl (fun (c : Byte) b => (List.range 8).foldl (fun (x : Byte) _ => if x.msb then (x <<< 1) ^^^ 0x07#8 else x <<< 1) (c ^^^ b)) 0

/-- A frame's header: POSITION, REG, LEN. A request is its header and the CRC-8 of it; a response has the data between them, and its CRC-8 covers
both (DESIGN CHOICE, log 94). -/
def ringHead (k reg len : Nat) : List Byte := leBytes 1 k ++ leBytes 1 reg ++ leBytes 1 len
def ringRequest (k reg len : Nat) : List Byte := ringHead k reg len ++ [crc8 (ringHead k reg len)]

/-- The data of a valid response to a request, 100 µs having brought the bytes f. -/
def ringData (k reg len : Nat) (f : List Byte) : Option (List Byte) :=
  let body := f.take (3 + len)
  if f.length = 4 + len ∧ f.take 3 = ringHead k reg len ∧ f.drop (3 + len) = [crc8 body] then some (body.drop 3) else none

/-- A transaction: of what each try brings, the first valid response among three. -/
def ringGet (k reg len : Nat) (tries : List (List Byte)) : Option (List Byte) := (tries.take 3).findSome? (ringData k reg len)

/-- Tries made: up to the first valid response, 3 without one. -/
def ringTries (k reg len : Nat) (tries : List (List Byte)) : Nat :=
  match (tries.take 3).findIdx? (fun f => (ringData k reg len f).isSome) with
  | some i => i + 1
  | none => 3

/-- A response's values of 16 bits, least significant byte first (DESIGN CHOICE, log 94). -/
def halves (bs : List Byte) : List Nat := (List.range (bs.length / 2)).map (fun i => leAt bs (2 * i) 2)

/-- Position k read through what its tries bring, the cells' and the temperatures': temperatures and cell voltages, or none when a transaction fails. -/
def State.ringRead (s : State) (k : Nat) (x : List (List Byte) × List (List Byte)) : Option (List Nat × List Nat) :=
  match ringGet k (s.mtiParam 30 1) (2 * s.mtiParam 21 1) x.1, ringGet k (s.mtiParam 31 1) 4 x.2 with
  | some c, some t => some (halves t, halves c)
  | _, _ => none

/-- The requests of position k at an end: cells, then temperatures where the cells have been read. -/
def State.ringAsk (s : State) (port k : Nat) (x : List (List Byte) × List (List Byte)) : List Out :=
  let send := fun (reg len : Nat) (tries : List (List Byte)) => List.replicate (ringTries k reg len tries) (Out.frame "RING" port (ringRequest k reg len))
  send (s.mtiParam 30 1) (2 * s.mtiParam 21 1) x.1
    ++ (if (ringGet k (s.mtiParam 30 1) (2 * s.mtiParam 21 1) x.1).isSome then send (s.mtiParam 31 1) 4 x.2 else [])

/-- Positions [0, n) answered in ascending order: those before the first failure. -/
def answered (rs : List (Option (List Nat × List Nat))) (n : Nat) : Nat :=
  ((List.range n).takeWhile (fun k => (getAt none rs k).isSome)).length

/-- A monitor as read: two temperatures, and the cells the table gives. -/
def monitorRead (state cells : Nat) (r : Option (List Nat × List Nat)) : Monitor :=
  match r with
  | some x => ⟨state, [getAt 0 x.1 0, getAt 0 x.1 1], (List.range cells).map (fun i => getAt 0 x.2 i % 65536)⟩
  | none => ⟨3, [0, 0], []⟩

/-- A position's entry of the sweep record. -/
def Monitor.entry (m : Monitor) : List Byte :=
  leBytes 1 m.state ++ leBytes 1 m.cells.length ++ leBytes 2 (getAt 0 m.temps 0) ++ leBytes 2 (getAt 0 m.temps 1) ++ leBytes 2 0
    ++ (List.range 12).flatMap (fun i => leBytes 2 (getAt 0 m.cells i))

/-- RING_SWEEP (R715–R717, R720), SWEEP_MS after the last: by position, what the tries of its two transactions bring in the pass from end A and in
the pass from end B. -/
def execRingSweep (ra rb : List (List (List Byte) × List (List Byte))) (s : State) : Host.Outcome State Fault Refusal :=
  let n := s.mtiParam 20 1
  let cells := s.mtiParam 21 1
  let a := (List.range n).map (fun k => s.ringRead k (getAt ([], []) ra k))
  let b := (List.range n).map (fun k => s.ringRead k (getAt ([], []) rb k))
  let p := answered a n
  let r := answered ((List.range (n - p)).map (fun i => getAt none b (n - 1 - i))) (n - p)
  let whole := decide (p = n)
  let mons := (List.range n).map (fun k =>
    if k < p then monitorRead (if whole then 0 else 1) cells (getAt none a k)
    else if n - r ≤ k then monitorRead 2 cells (getAt none b k)
    else monitorRead 3 cells none)
  let breakA := if whole then 0xFF else p
  let breakB := if whole ∨ r = n - p then 0xFF else n - 1 - r
  let x := s.mti
  let seq := (x.sweepSeq + 1) % 2 ^ 32
  let missing := (mons.filter (fun m => m.state == 3)).length
  let fitted := mons ++ List.replicate (32 - n) ⟨4, [0, 0], []⟩
  let rec_ := leBytes 4 seq ++ leBytes 4 (x.reg 4) ++ leBytes 1 breakA ++ leBytes 1 breakB ++ leBytes 1 missing ++ leBytes 21 0
    ++ fitted.flatMap Monitor.entry
  let askA := (List.range (Nat.min n (p + 1))).flatMap (fun k => s.ringAsk 0 k (getAt ([], []) ra k))
  let askB := (List.range (Nat.min (n - p) (r + 1))).flatMap (fun i => s.ringAsk 1 (n - 1 - i) (getAt ([], []) rb (n - 1 - i)))
  let t := { s.start with out := askA ++ askB }.setMti { x with
    sweepSeq := seq, breakA := breakA, breakB := breakB, sweepTime := x.reg 4, monitors := mons, sweepRec := rec_, sinceSweep := 0 }
  let t := if whole then t else t.setF MTI_STATUS.CHAIN_BREAKS ((t.fld MTI_STATUS.CHAIN_BREAKS + 1) % 65536)
  answer (s.pdOn 81 && x.on && decide (n ≤ 32 ∧ cells ≤ 12 ∧ 4 * s.mtiParam 22 2 ≤ x.sinceSweep)) s (t.refresh true)

/-! ## The service port (R708) -/

/-- The port is served: the seal fuse is unprogrammed, the controller runs and MTI_SVC_EN is high. -/
def State.svcPort (s : State) (en : Bool) : Bool :=
  en && s.pdOn 81 && !s.mtiStore.fuse && s.mtiAwake

/-- A response: status, payload, and their check value. -/
def svcReply (status : Nat) (payload : List Byte) : Resp :=
  let b := leBytes 1 status ++ payload
  .bytes (b ++ leBytes 4 (crc32c b))

/-- A request whose check value is wrong is answered BAD_CRC. -/
def State.svc2 (s : State) (op crc : Nat) (payload : List Byte) (t : State) : State :=
  if crc = crc32c (leBytes 1 op ++ payload) then t else s.say (svcReply 1 [])

/-- PARAM_WRITE (R708): a table of 256 bytes and the check value of the request; bad: the store write fails verification (R713). -/
def execParamWrite (en : Bool) (table : List Byte) (crc : Nat) (bad : Bool) (s : State) : Host.Outcome State Fault Refusal :=
  let t := s.start
  let ok := { t with mtiStore := { t.mtiStore with params := table } }
  answer (s.svcPort en && table.length == 256) s
    (t.svc2 1 crc table
      (if !paramOk table then t.say (svcReply 2 [])
       else if bad then (t.legalEvent 6 0).settleMti
       else ok.say (svcReply 0 (leBytes 4 (crc32c table)))))

/-- PARAM_READ (R708). -/
def execParamRead (en : Bool) (crc : Nat) (s : State) : Host.Outcome State Fault Refusal :=
  let t := s.start
  answer (s.svcPort en) s (t.svc2 2 crc [] (t.say (svcReply 0 t.mtiStore.params)))

/-- RAW_READ (R708): the latest codes, each as a 32-bit two's complement number. -/
def execRawRead (en : Bool) (crc : Nat) (s : State) : Host.Outcome State Fault Refusal :=
  let t := s.start
  answer (s.svcPort en) s
    (t.svc2 3 crc [] (t.say (svcReply 0 (leBytes 4 (unsigned 32 t.mti.codeI) ++ leBytes 4 (unsigned 32 t.mti.codeV)))))

/-- The seal: the fuse, legal registers and residues at 0, audit entry 0. -/
def State.sealMti (s : State) : State :=
  let t := { s with mtiStore := { s.mtiStore with fuse := true, audit := [], next := 0, saturated := 0 } }
  (t.setMti { t.mti with regs := [0, 0, 0, 0, 0, 0], residues := [0, 0, 0, 0] }).legalEvent 1 0

/-- SEAL (R708): the PARAM_CRC given, and the check value of the request. -/
def execMtiSeal (en : Bool) (pcrc crc : Nat) (s : State) : Host.Outcome State Fault Refusal :=
  let t := s.start
  answer (s.svcPort en) s
    (t.svc2 4 crc (leBytes 4 pcrc)
      (if pcrc % 2 ^ 32 = t.paramCrc then (t.sealMti.settleMti).say (svcReply 0 []) else t.say (svcReply 2 [])))

end Sys2Proof.Machine
end

