-- ==== Sys2Proof/Machine/Iommu.lean ====
section
/-! DEFINITION. The IOMMU of the PCIe root ports (R625, R626): device contexts, two-stage translation, the interrupt pages, the fault and command queues,
the IOTLB. Layouts and checks are those of the RISC-V IOMMU Architecture Specification 1.0 and of the privileged architecture (PRESUMED,
log 40), which chapter 19 names and does not print. -/
namespace Sys2Proof.Machine

/-! ## Steps of a translation -/

/-- Why a translation ends: it waits for a block being filled, or it faults with a cause and a second value. -/
inductive IoStop where
  | waits
  | fault (cause iotval2 : Nat)
deriving DecidableEq, Repr

/-- n bytes at a as the IOMMU loads them: a range outside powered DRAM data gives the cause denied, a poisoned block the cause corrupt. -/
def State.ioLoad (s : State) (denied corrupt a n : Nat) : Except IoStop Nat :=
  let bs := rangeBlocks a n
  if !(s.dataRange a n && bs.all (fun b => s.memOn (b * 4096))) then .error (.fault denied 0)
  else if (s.pendingBlock bs).isSome then .error .waits
  else if bs.any (fun b => (s.tag b).poison) then .error (.fault corrupt 0)
  else .ok (s.seenNat a n)

/-- Bits hi to lo of a 64-bit word. -/
def ioBits (w hi lo : Nat) : Nat := bitsN w hi lo

/-! ## Page tables -/

/-- The entry found: its page number, where it stands (0: 4 KiB pages), global, and the accesses it allows. -/
structure IoLeaf where
  ppn : Nat
  level : Nat
  napot : Bool
  glob : Bool
  rd : Bool
  wr : Bool

/-- An entry with V clear, W without R, or a reserved bit set. -/
def pteBad (e : Nat) : Bool := ioBits e 0 0 == 0 || (ioBits e 1 1 == 0 && ioBits e 2 2 == 1) || ioBits e 62 54 != 0

/-- A leaf that may be used by a user access to write or read: U and A set, its page aligned, a contiguous range only of 64 KiB. -/
def leafOk (e i : Nat) : Bool :=
  ioBits e 4 4 == 1 && ioBits e 6 6 == 1 && (if ioBits e 63 63 == 1 then i == 0 && ioBits e 13 10 == 8 else ioBits e 53 10 % 2 ^ (9 * i) == 0)

/-- A walk from level n - 1 down: rd loads the entry at an address, top is the number of entries of the root (0: 512), pf the fault. -/
def ptWalk (rd : Nat → Except IoStop Nat) (pf : IoStop) (va : Nat) : Nat → Nat → Nat → Bool → Except IoStop IoLeaf
  | 0, _, _, _ => .error pf
  | i + 1, top, base, g =>
    match rd (base + va / 2 ^ (12 + 9 * i) % (if top = 0 then 512 else top) * 8) with
    | .error x => .error x
    | .ok e =>
      let g := g || ioBits e 5 5 == 1
      if pteBad e then .error pf
      else if ioBits e 1 1 = 1 ∨ ioBits e 3 3 = 1 then
        (if leafOk e i then .ok ⟨ioBits e 53 10, i, ioBits e 63 63 == 1, g, ioBits e 1 1 == 1, ioBits e 2 2 == 1 && ioBits e 7 7 == 1⟩ else .error pf)
      else if ioBits e 63 63 = 1 ∨ ioBits e 7 7 = 1 ∨ ioBits e 6 6 = 1 ∨ ioBits e 4 4 = 1 then .error pf
      else ptWalk rd pf va i 0 (ioBits e 53 10 * 4096) g

/-- The 4 KiB pages a leaf covers. -/
def IoLeaf.pages (x : IoLeaf) : Nat := if x.napot then 16 else 2 ^ (9 * x.level)

/-- The address a leaf gives: what its page does not fix comes from va. -/
def IoLeaf.at (x : IoLeaf) (va : Nat) : Nat :=
  let k := x.pages
  (x.ppn / k * k + va / 4096 % k) * 4096 + va % 4096

/-! ## Device contexts -/

/-- A device context in the extended format: its eight words. -/
structure IoCtx where
  tc : Nat
  gatp : Nat
  ta : Nat
  satp : Nat
  msiptp : Nat
  mask : Nat
  pattern : Nat
  last : Nat

def IoCtx.of (n : Nat) : IoCtx :=
  let w := fun k => n / 2 ^ (64 * k) % 2 ^ 64
  ⟨w 0, w 1, w 2, w 3, w 4, w 5, w 6, w 7⟩

/-- A mode of a stage: none, or the number of levels of Sv39 and Sv48. -/
def ioLevels (w : Nat) : Nat := if ioBits w 63 60 = 8 then 3 else if ioBits w 63 60 = 9 then 4 else 0
def ioModeOk (w : Nat) : Bool := ioBits w 63 60 == 0 || ioLevels w != 0

/-- A context that asks for nothing R625 leaves out and sets no reserved bit. -/
def IoCtx.ok (x : IoCtx) : Bool :=
  ioBits x.tc 63 32 == 0 && ioBits x.tc 23 5 == 0 && ioBits x.tc 3 1 == 0
    && ioModeOk x.gatp && (ioLevels x.gatp == 0 || ioBits x.gatp 1 0 == 0)
    && ioBits x.ta 63 32 == 0 && ioBits x.ta 11 0 == 0
    && ioModeOk x.satp && ioBits x.satp 59 44 == 0
    && decide (ioBits x.msiptp 63 60 ≤ 1) && ioBits x.msiptp 59 44 == 0
    && ioBits x.mask 63 52 == 0 && ioBits x.pattern 63 52 == 0 && x.last == 0

/-- The device directory: levels entries of 9 bits above the 6 bits of the last. -/
def State.ddtWalk (s : State) (did : Nat) : Nat → Nat → Except IoStop IoCtx
  | 0, base =>
    match s.ioLoad 257 268 (base + did % 64 * 64) 64 with
    | .error x => .error x
    | .ok n =>
      let x := IoCtx.of n
      if ioBits x.tc 0 0 = 0 then .error (.fault 258 0) else if x.ok then .ok x else .error (.fault 259 0)
  | i + 1, base =>
    match s.ioLoad 257 268 (base + did / 2 ^ (6 + 9 * i) % 512 * 8) 8 with
    | .error x => .error x
    | .ok e =>
      if ioBits e 0 0 = 0 then .error (.fault 258 0)
      else if ioBits e 9 1 ≠ 0 ∨ ioBits e 63 54 ≠ 0 then .error (.fault 259 0)
      else s.ddtWalk did i (ioBits e 53 10 * 4096)

/-- The device context of a device: modes 2 to 4 have 1 to 3 levels; a wider device ID is not allowed in. -/
def State.ioContext (s : State) (did : Nat) : Except IoStop IoCtx :=
  let mode := s.fld IOM_DDTP_LO.MODE
  if 2 ^ (6 + 9 * (mode - 2)) ≤ did then .error (.fault 260 0)
  else s.ddtWalk did (mode - 2) ((s.fld IOM_DDTP_LO.PPN_LO + s.fld IOM_DDTP_HI.PPN_HI * 2 ^ 22) * 4096)

/-! ## The two stages -/

/-- The second stage: gpa to a physical address, with the accesses allowed and the pages of its leaf. wr: the access that is made; imp: it is the first stage's
own. -/
def State.ioStage2 (s : State) (x : IoCtx) (wr imp : Bool) (gpa : Nat) : Except IoStop (Nat × Bool × Bool × Nat) :=
  let n := ioLevels x.gatp
  if n = 0 then .ok (gpa, true, true, 1)
  else
    let pf := IoStop.fault (if wr then 23 else 21) (gpa / 4 * 4 + b2n imp)
    if 2 ^ (14 + 9 * n) ≤ gpa then .error pf
    else match ptWalk (fun a => s.ioLoad (if wr then 7 else 5) 274 a 8) pf gpa n 2048 (ioBits x.gatp 43 0 * 4096) false with
      | .error y => .error y
      | .ok l => if !imp && !(if wr then l.wr else l.rd) then .error pf
        else if imp && !l.rd then .error pf else .ok (l.at gpa, l.rd, l.wr, l.pages)

/-- The first stage: an I/O virtual address to a guest's physical address, with the accesses allowed, the global mark and the pages of its
leaf. -/
def State.ioStage1 (s : State) (x : IoCtx) (wr : Bool) (iova : Nat) : Except IoStop (Nat × Bool × Bool × Bool × Nat) :=
  let n := ioLevels x.satp
  if n = 0 then .ok (iova, true, true, false, 1)
  else
    let pf := IoStop.fault (if wr then 15 else 13) 0
    let half := 2 ^ (11 + 9 * n)
    if half ≤ iova ∧ iova < 2 ^ 64 - half then .error pf
    else
      let load := fun a => match s.ioStage2 x wr true a with
        | .error y => Except.error y
        | .ok r => s.ioLoad (if wr then 7 else 5) 274 r.1 8
      match ptWalk load pf iova n 0 (ioBits x.satp 43 0 * 4096) false with
      | .error y => .error y
      | .ok l => if (if wr then l.wr else l.rd) then .ok (l.at iova, l.rd, l.wr, l.glob, l.pages) else .error pf

/-- A page of a guest's that stands for interrupt files (flat mode): the page matches the pattern outside the mask. -/
def IoCtx.isMsi (x : IoCtx) (gpa : Nat) : Bool :=
  ioBits x.msiptp 63 60 == 1 && (gpa / 4096 ||| x.mask) == (x.pattern ||| x.mask)

/-- The bits of a number that a mask selects, packed. -/
def packBits (v mask : Nat) : Nat := (List.range 52).foldr (fun i acc => if bitN mask i then acc * 2 + b2n (bitN v i) else acc) 0

/-- Its entry of the table: only the basic mode is supported. -/
def State.ioMsi (s : State) (x : IoCtx) (gpa : Nat) : Except IoStop Nat :=
  match s.ioLoad 261 270 (ioBits x.msiptp 43 0 * 4096 + packBits (gpa / 4096) x.mask * 16) 16 with
  | .error y => .error y
  | .ok e =>
    if bitN e 0 = false then .error (.fault 262 0)
    else if bitsN e 2 1 ≠ 3 ∨ bitsN e 9 3 ≠ 0 ∨ e / 2 ^ 54 ≠ 0 then .error (.fault 263 0)
    else .ok (bitsN e 53 10 * 4096 + gpa % 4096)

/-! ## The IOTLB -/

/-- A kept translation serves a context's access at a page. -/
def IoEntry.serves (y : IoEntry) (x : IoCtx) (vpn : Nat) : Bool :=
  y.gv == (ioLevels x.gatp != 0) && (!y.gv || y.gscid == ioBits x.gatp 59 44) && y.fv == (ioLevels x.satp != 0)
    && (!y.fv || y.glob || y.pscid == ioBits x.ta 31 12) && y.vpn == vpn

/-- A translation kept in front; the least recently used of 2,048 makes room (DESIGN CHOICE, log 40). -/
def State.ioKeep (s : State) (y : IoEntry) : State := { s with iotlb := (y :: s.iotlb.filter (· != y)).take 2048 }

/-- A translation under a context: kept, or walked and kept. -/
def State.ioWalk (s : State) (x : IoCtx) (wr : Bool) (iova : Nat) : State × Except IoStop Nat :=
  match s.iotlb.find? (fun y => y.serves x (iova / 4096) && (if wr then y.wr else y.rd)) with
  | some y => (s.ioKeep y, .ok (y.ppn * 4096 + iova % 4096))
  | none =>
    match s.ioStage1 x wr iova with
    | .error y => (s, .error y)
    | .ok (gpa, r1, w1, g, k1) =>
      if x.isMsi gpa then (s, s.ioMsi x gpa)
      else match s.ioStage2 x wr false gpa with
        | .error y => (s, .error y)
        | .ok (pa, r2, w2, k2) =>
          let t := { s with iotlb := s.iotlb.filter (fun y => !y.serves x (iova / 4096)) }
          (if ioLevels x.gatp = 0 ∧ ioLevels x.satp = 0 then s
            else t.ioKeep ⟨ioLevels x.gatp != 0, if ioLevels x.gatp = 0 then 0 else ioBits x.gatp 59 44, ioLevels x.satp != 0,
              if ioLevels x.satp = 0 then 0 else ioBits x.ta 31 12, g, iova / 4096, gpa / 4096, pa / 4096, r1 && r2, w1 && w2, k1, k2⟩,
           .ok pa)

/-! ## Queues and interrupts -/

/-- The queues' interrupt bits: CIP while a condition of the command queue holds that CIE lets through, FIP for an overflow or a memory fault; both
drive wires (R624). -/
def State.ioPend (s : State) : State :=
  let c := s.flag IOM_CQCSR.CIE && (s.flag IOM_CQCSR.CQMF || s.flag IOM_CQCSR.CMD_TO || s.flag IOM_CQCSR.CMD_ILL || s.flag IOM_CQCSR.FENCE_W_IP)
  let f := s.flag IOM_FQCSR.FIE && (s.flag IOM_FQCSR.FQMF || s.flag IOM_FQCSR.FQOF)
  let t := if c then s.setF IOM_IPSR.CIP 1 else s
  let t := if f then t.setF IOM_IPSR.FIP 1 else t
  (t.sense 52).sense 53

/-- Entries of a queue, and the address of one. -/
def State.ioSize (s : State) (f : Fld) : Nat := 2 ^ (s.fld f + 1)
def State.cqAt (s : State) (k : Nat) : Nat := (s.fld IOM_CQB_LO.PPN_LO + s.fld IOM_CQB_HI.PPN_HI * 2 ^ 22) * 4096 + 16 * k
def State.fqAt (s : State) (k : Nat) : Nat := (s.fld IOM_FQB_LO.PPN_LO + s.fld IOM_FQB_HI.PPN_HI * 2 ^ 22) * 4096 + 32 * k

/-- Bytes the IOMMU itself writes; false where no memory takes them. R365 gives it no master ID: the writer the block names is open. -/
def State.ioStore (s : State) (a : Nat) (bs : List Byte) : State × Bool :=
  if s.dataRange a bs.length && (rangeBlocks a bs.length).all (fun b => s.memOn (b * 4096)) then
    if s.filling a bs.length then ((s.tookFree 1).putThen ⟨s.openMaster, .unit, 0, a, bs, .nothing⟩, true)
    else
    let r := (s.tookFree 1).store ⟨s.openMaster, 0, false, false, .unit⟩ (placed a bs) 0 0
    (r.1, r.2.isEmpty)
  else (s, false)

/-- A fault is recorded (R626): not while the queue is off or has overflowed or failed; one that finds it full sets the overflow flag. -/
def State.ioRecord (s : State) (wr : Bool) (did iova cause v2 : Nat) : State :=
  let k := s.fld IOM_FQT.INDEX
  let next := (k + 1) % s.ioSize IOM_FQB_LO.LOG2SZ_M1
  if !s.flag IOM_FQCSR.FQON || s.flag IOM_FQCSR.FQOF || s.flag IOM_FQCSR.FQMF then s
  else if next = s.fld IOM_FQH.INDEX then (s.setF IOM_FQCSR.FQOF 1).ioPend
  else
    let r := s.ioStore (s.fqAt k) (leBytes 8 (cause + (if wr then 3 else 2) * 2 ^ 34 + did * 2 ^ 40) ++ leBytes 8 0 ++ leBytes 8 iova ++ leBytes 8 v2)
    if r.2 then
      let t := r.1.setF IOM_FQT.INDEX next
      (if t.flag IOM_FQCSR.FIE then t.setF IOM_IPSR.FIP 1 else t).ioPend
    else (r.1.setF IOM_FQCSR.FQMF 1).ioPend

/-- Faults a context that sets DTF still reports: those of the directory and of the IOMMU itself. -/
def dtfReports (cause : Nat) : Bool := [256, 257, 258, 259, 268, 272, 273].contains cause

/-- Where an inbound request goes. -/
inductive IoEnd where
  | to (a : Nat)
  | refused
  | waits
deriving DecidableEq, Repr

/-- A stop of a translation, recorded unless the context keeps it quiet. -/
def State.ioStopped (s : State) (wr quiet : Bool) (did iova : Nat) : IoStop → State × IoEnd
  | .waits => (s, .waits)
  | .fault c v => (if quiet && !dtfReports c then s else s.ioRecord wr did iova c v, .refused)

/-- The IOMMU's answer to a request of device did at iova (R625, R626): Off refuses it, Bare passes it, else its context translates it. -/
def State.ioTranslate (s : State) (did iova : Nat) (wr : Bool) : State × IoEnd :=
  let mode := s.fld IOM_DDTP_LO.MODE
  if mode = 0 then s.ioStopped wr false did iova (.fault 256 0)
  else if mode = 1 then (s, .to iova)
  else match s.ioContext did with
    | .error x => s.ioStopped wr false did iova x
    | .ok x =>
      let r := s.ioWalk x wr iova
      match r.2 with
      | .ok pa => (r.1, .to pa)
      | .error y => r.1.ioStopped wr (ioBits x.tc 4 4 == 1) did iova y

/-! ## Commands -/

/-- IOTINVAL.VMA: of the address spaces named, the first-stage translations that ADDR and PSCID name, every page of the leaf that holds ADDR among them;
global ones stay when a PSCID is named. -/
def vmaGone (w0 addr : Nat) (y : IoEntry) : Bool :=
  y.fv && y.gv == bitN w0 33 && (!y.gv || y.gscid == ioBits w0 59 44) && (!bitN w0 10 || y.vpn / y.span == addr / y.span)
    && (!bitN w0 32 || (!y.glob && y.pscid == ioBits w0 31 12))

/-- IOTINVAL.GVMA: of the guests named, the translations of the second-stage leaf that holds ADDR. -/
def gvmaGone (w0 addr : Nat) (y : IoEntry) : Bool :=
  y.gv && (!bitN w0 33 || (y.gscid == ioBits w0 59 44 && (!bitN w0 10 || y.gpn / y.gspan == addr / y.gspan)))

/-- What a command comes to: done, illegal, or a write that memory does not take. -/
inductive IoCmd where
  | done (s : State)
  | illegal
  | failed (s : State)

/-- One command. Only what R625 supports is legal. -/
def State.ioCommand (s : State) (w0 w1 : Nat) : IoCmd :=
  let f := ioBits w0 9 7
  let op := ioBits w0 6 0
  let page := ioBits w1 61 10
  if op = 1 ∧ f ≤ 1 then
    if bitN w0 11 ∨ ioBits w0 43 34 ≠ 0 ∨ ioBits w0 63 60 ≠ 0 ∨ ioBits w1 9 0 ≠ 0 ∨ ioBits w1 63 62 ≠ 0 ∨ (f = 1 ∧ bitN w0 32 = true) then .illegal
    else .done { s with iotlb := s.iotlb.filter (fun y => if f = 0 then !vmaGone w0 page y else !gvmaGone w0 page y) }
  else if op = 2 ∧ f = 0 then
    if ioBits w0 31 14 ≠ 0 ∨ ioBits w1 63 62 ≠ 0 then .illegal
    else
      let r := if bitN w0 10 then s.ioStore (ioBits w1 61 0 * 4) (leBytes 4 (ioBits w0 63 32)) else (s, true)
      if r.2 then .done (if bitN w0 11 then r.1.setF IOM_CQCSR.FENCE_W_IP 1 else r.1) else .failed r.1
  else if op = 3 ∧ f = 0 then
    if ioBits w0 32 10 ≠ 0 ∨ ioBits w0 39 34 ≠ 0 ∨ w1 ≠ 0 then .illegal else .done s
  else .illegal

/-- The command at the queue's head runs, unless the queue is empty, off or stopped; whether the next one may follow. -/
def State.ioStep (s : State) : State × Bool :=
  let k := s.fld IOM_CQH.INDEX
  if !s.flag IOM_CQCSR.CQON || s.flag IOM_CQCSR.CQMF || s.flag IOM_CQCSR.CMD_TO || s.flag IOM_CQCSR.CMD_ILL || k == s.fld IOM_CQT.INDEX then (s, false)
  else match s.ioLoad 0 0 (s.cqAt k) 16 with
    | .error .waits => (s, false)
    | .error (.fault _ _) => (s.setF IOM_CQCSR.CQMF 1, false)
    | .ok w => match s.ioCommand (w % 2 ^ 64) (w / 2 ^ 64) with
      | .illegal => (s.setF IOM_CQCSR.CMD_ILL 1, false)
      | .failed t => (t.setF IOM_CQCSR.CQMF 1, false)
      | .done t => (t.setF IOM_CQH.INDEX ((k + 1) % s.ioSize IOM_CQB_LO.LOG2SZ_M1), true)

/-- The command queue runs until it is empty or a command stops it; n bounds the commands that wait. -/
def State.ioRun (n : Nat) (s : State) : State :=
  ((List.range n).foldl (fun (a : State × Bool) _ => if a.2 then a.1.ioStep else a) (s, true)).1

/-- The waiting commands run, and their interrupts follow. -/
def State.ioGo (s : State) : State :=
  let z := s.ioSize IOM_CQB_LO.LOG2SZ_M1
  (State.ioRun ((s.fld IOM_CQT.INDEX + z - s.fld IOM_CQH.INDEX) % z) s).ioPend

/-! ## Registers -/

/-- CQCSR: switching the queue on starts it empty at its head and clears its flags; flags clear where 1 is written. -/
def State.ioCqcsr (s : State) (w : Word) : State :=
  let on := bits w 0 0
  let clear := fun (t : State) (l : List Fld) => l.foldl (fun (u : State) f => u.setF f 0) t
  let t := if on = 1 ∧ s.flag IOM_CQCSR.CQEN = false then
      clear (s.setF IOM_CQH.INDEX 0) [IOM_CQCSR.CQMF, IOM_CQCSR.CMD_TO, IOM_CQCSR.CMD_ILL, IOM_CQCSR.FENCE_W_IP]
    else clear s ([IOM_CQCSR.CQMF, IOM_CQCSR.CMD_TO, IOM_CQCSR.CMD_ILL, IOM_CQCSR.FENCE_W_IP].filter (fun f => bits w f.hi f.lo == 1))
  (((t.setF IOM_CQCSR.CIE (bits w 1 1)).setF IOM_CQCSR.CQEN on).setF IOM_CQCSR.CQON on).ioGo

/-- FQCSR: likewise; the queue starts empty at its tail. -/
def State.ioFqcsr (s : State) (w : Word) : State :=
  let on := bits w 0 0
  let clear := fun (t : State) (l : List Fld) => l.foldl (fun (u : State) f => u.setF f 0) t
  let t := if on = 1 ∧ s.flag IOM_FQCSR.FQEN = false then clear (s.setF IOM_FQT.INDEX 0) [IOM_FQCSR.FQMF, IOM_FQCSR.FQOF]
    else clear s ([IOM_FQCSR.FQMF, IOM_FQCSR.FQOF].filter (fun f => bits w f.hi f.lo == 1))
  (((t.setF IOM_FQCSR.FIE (bits w 1 1)).setF IOM_FQCSR.FQEN on).setF IOM_FQCSR.FQON on).ioPend

/-- Writes of the IOMMU's registers. A reserved directory mode leaves the mode as it is; a queue's base stays while the queue is on. -/
def State.ownIommu (s : State) (b : Nat) (w : Word) : Option State :=
  let plain := fun (m : Word) => some (s.wr b (w &&& m))
  if b = IOM_DDTP_LO.addr then
    let t := s.setF IOM_DDTP_LO.PPN_LO (bits w 31 10)
    some (if bits w 3 0 ≤ 4 then t.setF IOM_DDTP_LO.MODE (bits w 3 0) else t)
  else if b = IOM_CQB_LO.addr then (if s.flag IOM_CQCSR.CQON then some s else plain 0xFFFFFC1F)
  else if b = IOM_CQB_HI.addr then (if s.flag IOM_CQCSR.CQON then some s else plain 0x3FFFFF)
  else if b = IOM_FQB_LO.addr then (if s.flag IOM_FQCSR.FQON then some s else plain 0xFFFFFC1F)
  else if b = IOM_FQB_HI.addr then (if s.flag IOM_FQCSR.FQON then some s else plain 0x3FFFFF)
  else if b = IOM_CQT.addr then some ((s.setF IOM_CQT.INDEX (w.toNat % s.ioSize IOM_CQB_LO.LOG2SZ_M1)).ioGo)
  else if b = IOM_FQH.addr then some (s.setF IOM_FQH.INDEX (w.toNat % s.ioSize IOM_FQB_LO.LOG2SZ_M1))
  else if b = IOM_CQCSR.addr then some (s.ioCqcsr w)
  else if b = IOM_FQCSR.addr then some (s.ioFqcsr w)
  else if b = IOM_IPSR.addr then
    let t := if bits w 0 0 = 1 then s.setF IOM_IPSR.CIP 0 else s
    some ((if bits w 1 1 = 1 then t.setF IOM_IPSR.FIP 0 else t).ioPend)
  else none

end Sys2Proof.Machine
end

