-- ==== Sys2Proof/Machine/PcieCmds.lean ====
section
/-! DEFINITION. The commands and events of the PCIe ports (R590–R596, R626, R730): inbound requests, completions, timeouts, MSI-X, link and
fundamental reset. -/
namespace Sys2Proof.Machine

/-! ## Inbound requests (R590, R591, R626, R627) -/

/-- Where a request of n bytes at bus address a goes: in the root-port role where the IOMMU sends it, as an endpoint through BAR0 onto
installed DRAM. The device ID is the requester ID under the port's number as segment (R625). A request that leaves its 4 KiB page, which PCIe
does not allow, is refused (log 40). -/
def State.pInMap (s : State) (p rid a n : Nat) (wr : Bool) : State × IoEnd :=
  if s.pMode p = 1 then (if 4096 < a % 4096 + n then (s, .refused) else s.ioTranslate (p * 65536 + rid) a wr)
  else
    let size := match s.pHeader p with | some h => h.bar0 | none => 0
    let d := s.fld (PCI_IN_BASE_LO.ADDR p) * 0x100000 + s.fld (PCI_IN_BASE_HI.ADDR p) * 2 ^ 32 + a
    (s, if a + n ≤ size ∧ s.dramRange d n then .to d else .refused)

/-- The IMSIC file an address belongs to, as (hart, file), at its message register (R622). -/
def imsicFile (a : Nat) : Option (Nat × Nat) :=
  if 0x50100000 ≤ a ∧ a < 0x50118000 ∧ a % 0x1000 = 0 then some ((a - 0x50100000) / 0x1000, 6)
  else if 0x50200000 ≤ a ∧ a < 0x502C0000 ∧ a % 0x1000 = 0 ∧ (a - 0x50200000) % 0x8000 / 0x1000 < 6 then
    some ((a - 0x50200000) / 0x8000, (a - 0x50200000) % 0x8000 / 0x1000)
  else none

/-- The place a request goes to, if any. -/
def IoEnd.place : IoEnd → Option Nat
  | .to a => some a
  | _ => none

/-- An inbound read is answered Unsupported Request (R594, R596, R626). -/
def State.pUr (s : State) (p : Nat) : State := (s.emit (.note "PCIE_CPL_UR" [p])).pEvent p (PCI_EVENT.UR_SENT p)

/-- An inbound read of n bytes: data, marked poisoned when a source block carries POISON; provisional blocks are counted (R591). -/
def State.pInRead (s : State) (p n : Nat) (at_ : Option Nat) : State :=
  match at_ with
  | none => s.pUr p
  | some a =>
    if s.region a n != .data then s.pUr p
    else
      let t := s.gated (pMaster p) (2 + p) a n true 0 (s.readAt (pMaster p) a n)
      let bs := rangeBlocks a n
      match t.resp with
      | .bytes l =>
        let u := ({ t with resp := .done }).bump (PCI_PROV_READ.COUNT p) ((bs.filter (fun b => (t.tag b).prov)).length)
        u.emit (.frame (if bs.any (fun b => (t.tag b).poison) then "PCIE_CPL_POISONED" else "PCIE_CPL") p l)
      | .waits => t
      | .failed _ => ({ t with resp := .done }).emit (.note "PCIE_CPL_ERROR" [p])
      | _ => ({ t with resp := .done }).pUr p

/-- Blocks a FETCH_NVME of a page mover on this port fills, in sheets whose reads are outstanding: the device's data is the fill itself, and
does not wait for it (R334, R347). -/
def State.nvmeFill (s : State) (p : Nat) (bs : List Nat) : Bool :=
  bs.all (fun b => s.movers.any (fun e => s.fld (MEM_PMV_NVME_CFG.PORT e.1) == p && e.2.moves.any (fun v =>
    let d := MoveDesc.ofBytes v.bytes
    d.op == 6 && v.code == 0 && v.sheets.any (fun x => x.out && decide (d.dst + x.off ≤ b * 4096 ∧ b * 4096 < d.dst + x.off + x.len)))))

/-- The port reports to each page mover that owns a completion queue on it the entries an inbound write of [a, a+n) falls in (R347, R592). -/
def State.cqReport (s : State) (p a n : Nat) : State :=
  s.movers.foldl (fun (t : State) e =>
    let m := e.1
    let base := t.nvmeAddr m 1
    let hit := (List.range (t.nvmeSize m)).filter (fun k => decide (a < base + 16 * k + 16 ∧ base + 16 * k < a + n))
    if t.flag (MEM_PMV_NVME_CFG.EN m) && t.fld (MEM_PMV_NVME_CFG.PORT m) == p && !hit.isEmpty then
      t.setMover m { (t.mover m) with reported := ((t.mover m).reported.filter (fun k => !hit.contains k)) ++ hit }
    else t) s

/-- An inbound write: to DRAM, to an IMSIC file, or discarded (R591, R626–R628). -/
def State.pInWrite (s : State) (p : Nat) (bs : List Byte) (pois : Bool) (at_ : Option Nat) : State :=
  match at_ with
  | none => s
  | some a =>
    match imsicFile a with
    | some f =>
      let e := leNat bs
      if bs.length = 4 ∧ !pois ∧ 1 ≤ e ∧ e ≤ 2047 then s.sendMsi f.1 f.2 e else s
    | none =>
      if s.region a bs.length != .data then s
      else
        let t := s.gated (pMaster p) (2 + p) a bs.length false 0 (if s.nvmeFill p (rangeBlocks a bs.length) then s.blockWrite (pMaster p) 0 a bs false pois false 0 0
          else s.writeAt (pMaster p) 0 a bs false pois false 0 0)
        match t.resp with
        | .waits => t
        | _ => ({ t with resp := .done }).cqReport p a bs.length

/-- A port takes requests: up, in a role, its link up. -/
def State.pLink (s : State) (p : Nat) : Bool := s.pUp p && s.pMode p != 0 && s.flag (PCI_CFG.LINK_UP p)

/-- An inbound write of requester rid: translated, then stored or discarded; it waits where its translation does. -/
def State.pInStore (s : State) (p rid a : Nat) (bs : List Byte) (pois : Bool) : State :=
  let r := s.pInMap p rid a bs.length true
  if r.2 = .waits then r.1.say .waits else r.1.pInWrite p bs pois r.2.place

/-- An inbound read of requester rid. -/
def State.pInLoad (s : State) (p rid a n : Nat) : State :=
  let r := s.pInMap p rid a n false
  if r.2 = .waits then r.1.say .waits else r.1.pInRead p n r.2.place

/-- PCIE_INBOUND_REQUEST (R590, R591, R625, R626): a write of bs, or a read of n bytes, by requester rid at bus address a. -/
def execPcieInboundRequest (p : Nat) (wr : Bool) (rid a n : Nat) (bs : List Byte) (s : State) : Host.Outcome State Fault Refusal :=
  answer (s.pLink p) s (if wr then s.start.pInStore p rid a bs false else s.start.pInLoad p rid a n)

/-! ## Completions of outbound requests (R591, R592) -/

/-- The request with a tag, and the port without it. -/
def State.pTake (s : State) (p tag : Nat) : Option (PReq × State) :=
  let x := s.pport p
  (x.reqs.find? (fun r => r.tag == tag)).map (fun r => (r, s.setPport p { x with reqs := x.reqs.filter (fun y => y != r) }))

/-- A request completes with an error. -/
def State.pFail (s : State) (r : PReq) : State :=
  if r.mover = 0xFF then s.emit (.note "ACCESS_ERROR" [r.move]) else (s.pieceFailed r.mover r.move r.piece false).pump

/-- PCIE_COMPLETION (R592): data, or an error status, for request tag. -/
def execPcieCompletion (p tag : Nat) (err : Bool) (bs : List Byte) (s : State) : Host.Outcome State Fault Refusal :=
  if !s.pLink p then answer false s s
  else match s.start.pTake p tag with
    | none => answer false s s
    | some (r, t) =>
      if err ∨ bs.length ≠ r.len then .next (if r.mover = 0xFF then t.say .busError else t.pFail r)
      else if r.mover = 0xFF then .next (t.say (.bytes bs))
      else
        let g := t.deliver ⟨0x40 + r.mover, 0, false, false, .unit⟩ r.mover r.move r.piece bs
        .next (if g.2 then g.1.pieceGot r.mover r.move r.piece else g.1.pieceDenied r.mover r.move r.piece).pump

/-- POISONED_TLP_RECEIVE (R591): a poisoned completion for request tag, or a poisoned write of bs by requester rid at bus
address a. -/
def execPoisonedTlpReceive (p : Nat) (cpl : Bool) (tag rid a : Nat) (bs : List Byte) (s : State) : Host.Outcome State Fault Refusal :=
  if !s.pLink p then answer false s s
  else
    let t := s.start.pEvent p (PCI_EVENT.POISON_RX p)
    if cpl then match t.pTake p tag with
      | some (r, u) => .next (if r.mover = 0xFF then u.say .busError else u.pFail r)
      | none => .next t
    else .next (t.pInStore p rid a bs true)

/-- PCIE_CPL_TIMEOUT (R592, R595). -/
def execPcieCplTimeout (p tag : Nat) (s : State) : Host.Outcome State Fault Refusal :=
  match s.start.pTake p tag with
  | some (r, t) => answer (s.pUp p && decide (r.sent + s.pTimeout p ≤ s.cyc)) s ((t.pEvent p (PCI_EVENT.CPL_TIMEOUT p)).pFail r)
  | none => answer false s s

/-! ## MSI-X (R595) -/

/-- A write of MSIX_TRIG; in the root-port role it is ignored. -/
def State.pMsix (s : State) (p v : Nat) : State :=
  match s.pHeader p with
  | some h => if h.type = 0 then s.emit (.note "PCIE_MSIX" [p, v % h.msix]) else s
  | none => s

/-- MSIX_TRIG (R595). -/
def execMsixTrig (m p v : Nat) (s : State) : Host.Outcome State Fault Refusal :=
  s.write m (PCI_MSIX_TRIG.addr p) (s.start.pMsix p v)

/-! ## Link and reset (R593, R596, R730) -/

/-- The highest rate the port may negotiate (R593). -/
def State.pMaxRate (s : State) (p : Nat) : Nat := let r := s.fld (PCI_CFG.MAX_RATE p); if r = 0 ∨ 5 < r then 5 else r

/-- PCI_p_PERST_N is low (R730): a root port drives it low from the moment its mode is applied until it releases it; an endpoint reads it. -/
def State.pPerst (s : State) (p : Nat) : Bool := if s.pMode p = 1 then !(s.pport p).released else (s.pport p).perst

/-- PCIE_LINK_UP (R593): the data link layer is active at a width (0 x1 … 3 x8) and rate (1–5). -/
def execPcieLinkUp (p width rate : Nat) (s : State) : Host.Outcome State Fault Refusal :=
  answer (s.pUp p && s.pMode p != 0 && !s.flag (PCI_CFG.LINK_UP p) && !s.pPerst p && decide (width ≤ s.fld (PCI_CFG.MAX_WIDTH p))
      && decide (1 ≤ rate ∧ rate ≤ s.pMaxRate p)) s
    (((s.start.setF (PCI_CFG.LINK_UP p) 1).setF (PCI_CFG.WIDTH p) width).setF (PCI_CFG.RATE p) rate)

/-- The link leaves the active state: every request outstanding completes with an error. -/
def State.pDrop (s : State) (p : Nat) : State :=
  let t := ((s.setF (PCI_CFG.LINK_UP p) 0).setF (PCI_CFG.RATE p) 0).pEvent p (PCI_EVENT.LINK_DOWN p)
  let x := t.pport p
  x.reqs.foldl (fun (u : State) r => u.pFail r) (t.setPport p { x with reqs := [] })

/-- PCIE_LINK_DOWN (R596). -/
def execPcieLinkDown (p : Nat) (s : State) : Host.Outcome State Fault Refusal :=
  answer (s.pUp p && s.flag (PCI_CFG.LINK_UP p)) s (s.start.pDrop p)

/-- PERST_ASSERT (R730): PCI_p_PERST_N of an endpoint goes low; the port alone is reset: its requests, its link and its registers but the
locked configuration of R593. -/
def execPerstAssert (p : Nat) (s : State) : Host.Outcome State Fault Refusal :=
  let t := if s.flag (PCI_CFG.LINK_UP p) then s.start.pDrop p else s.start
  let keep := t.rd (PCI_CFG.addr p)
  let t := (t.resetRegs (fun a => decide (PCI_CFG.addr p ≤ a ∧ a < PCI_CFG.addr p + 0x800000))).wr (PCI_CFG.addr p) (pciLinkOff keep)
  answer (s.pUp p && s.pMode p == 2 && !(s.pport p).perst) s ((t.setPport p { PPort.init with perst := true }).sense (50 + p))

/-- PERST_RELEASE (R730): a root port releases the ball 100 ms after its reference clock is stable; the ball of an endpoint goes high. -/
def execPerstRelease (p : Nat) (s : State) : Host.Outcome State Fault Refusal :=
  let t := s.start.setPport p { s.pport p with perst := false, released := true }
  answer (s.pUp p && s.pMode p != 0 && s.pPerst p) s (if s.pMode p = 1 then t.emit (.note "PCI_PERST_N" [p, 1]) else t)

end Sys2Proof.Machine
end

