-- ==== Sys2Proof/Machine/Pins.lean ====
section
/-! DEFINITION. The multiplexed pins (R610–R614): the pin registers, the park interval, PWM and capture channels. -/
namespace Sys2Proof.Machine

/-- The instruction of the test access port in force: IDCODE after reset, else what the register's contents select; a code that selects nothing is
BYPASS (R738). -/
def Tap.instruction (x : Tap) : Nat := match x.ir with | none => 3 | some i => if Config.tapInstruction i ≤ 6 then Config.tapInstruction i else 0

/-- EXTEST is in force: the balls take the boundary register's levels. -/
def Tap.extest (x : Tap) : Bool := x.instruction == 2

/-- A pin of the module: pins 64–95 exist on X2 only (R610). -/
def State.pinUp (s : State) (n : Nat) : Bool := decide (n < 64) || (decide (n < 96) && s.iod1)

/-- FUNC as the pin takes it: 6 and 7 act as 0. -/
def funcOf (v : Nat) : Nat := if 6 ≤ v then 0 else v

/-- What a pin carries (R610): the GPIO of its number, line k of the UART, SPI or I3C controller of its group, a PWM or a capture channel. The lines
of a UART are TXD, RXD, RTS_N, CTS_N; of an SPI controller SCLK, MOSI, MISO, CS_0_N to CS_3_N; of an I3C controller SCL, SDA. -/
inductive PinSignal where
  | gpio (n : Nat)
  | uart (g k : Nat)
  | spi (g k : Nat)
  | i3c (g k : Nat)
  | pwm (n : Nat)
  | capture (n : Nat)
deriving DecidableEq, Repr

/-- The function table (R610); none where the function does not use the pin. -/
def pinSignal (n f : Nat) : Option PinSignal :=
  let g := n / 8
  let o := n % 8
  match funcOf f with
  | 1 => if o < 4 then some (.uart g o) else none
  | 2 => if o < 7 then some (.spi g o) else none
  | 3 => if o < 2 then some (.i3c g o) else none
  | 4 => some (.pwm n)
  | 5 => some (.capture n)
  | _ => some (.gpio n)

/-- The park level of a pin's inputs (R613): 0 or 1 as it is driven, 1 or 0 under high impedance. -/
def State.parkLevel (s : State) (n : Nat) : Nat := let k := s.fld (GPIO_PIN.PARK n); if k < 2 then k else 3 - k

/-- Function f's input from pin n sees the pad: the pin has that function, which uses it, and no park interval runs; else it sees the park level
(R610, R614). -/
def State.seesPad (s : State) (n f : Nat) : Bool :=
  s.pinUp n && (s.pin n).func == funcOf f && !s.flag (GPIO_PIN.PARKING n) && (pinSignal n f).isSome

/-- A write of GPIO_PIN_n by master m (R613, R614): other masters than the management cores change OE and OUT only; a change of FUNC begins
or restarts the park interval. -/
def State.pinSet (s : State) (m n : Nat) (w : Word) : State :=
  if !s.pinUp n then s
  else
    let a := GPIO_PIN.addr n
    let old := s.rd a
    let oe := ins old 2 1 (bits w 2 1)
    if m ≠ 0x61 then s.wr a oe
    else
      let new := ins oe 31 23 (bits w 31 23)
      s.wr a (if bits w 31 29 = bits old 31 29 then new else ins new 22 22 1)

/-- PIN_FUNC_WRITE (R614): master m writes v to GPIO_PIN_n. -/
def execPinFuncWrite (m n v : Nat) (s : State) : Host.Outcome State Fault Refusal :=
  s.write m (GPIO_PIN.addr n) (s.start.pinSet m n (BitVec.ofNat 32 v))

/-- PARK_INTERVAL_END (R614): four I/O cycles after the last change, the new function takes the pin. -/
def execParkIntervalEnd (n : Nat) (s : State) : Host.Outcome State Fault Refusal :=
  answer (s.pinUp n && s.flag (GPIO_PIN.PARKING n)) s
    ((s.start.setF (GPIO_PIN.PARKING n) 0).setPin n { s.pin n with func := funcOf (s.fld (GPIO_PIN.FUNC n)) })

/-- PWM_START (R612): the channel of pin n, set to START, period and high time in cycles of 5 ns, starts its first period. -/
def execPwmStart (n start period high : Nat) (s : State) : Host.Outcome State Fault Refusal :=
  answer (s.pinUp n && (s.pin n).pwm.isNone && decide ((s.time + 2 ^ 32 - start % 2 ^ 32) % 2 ^ 32 < 2 ^ 31) && decide (1 ≤ period ∧ 1 ≤ high)) s
    (s.start.setPin n { s.pin n with pwm := some (s.cyc, period, high) })

/-- An edge is one of those a capture channel is set to (R611): rising (0), falling (1) or both (2). -/
def edgeSelected (sel : Nat) (rising : Bool) : Bool := sel == 2 || (sel == 0) == rising

/-- CAPTURE_EDGE (R611, R612): an edge on pin n is sampled in this cycle by a channel set to sel; its time is recorded, or lost when the buffer is
full. Only a pin in function 5 outside a park interval sees its pad. -/
def execCaptureEdge (n sel : Nat) (rising : Bool) (s : State) : Host.Outcome State Fault Refusal :=
  let x := s.pin n
  let t := s.start.setPin n (if 16 ≤ x.caps.length then { x with capLost := satAdd sat32 x.capLost 1 }
    else { x with caps := x.caps ++ [(s.time + 2 ^ 32 - 10) % 2 ^ 32] })
  answer (s.seesPad n 5 && edgeSelected sel rising) s (t.pulse (if n < 64 then 48 else 49))

/-- The level of a PWM channel that runs: periods follow one another from its start, each high for its high time first (R612, log 89). -/
def State.pwmLevel (s : State) (r : Nat × Nat × Nat) : Nat := b2n (decide ((s.cyc - r.1) / 5 % r.2.1 < r.2.2))

/-- The level a pin's IN bit reads (R613, R614): the level of a GPIO output, of a PWM channel that runs or of a parked pin, else what the outside
drives, which is open, as it is under EXTEST and, on I/O die 0, while a rail is out of range (R734, R738). A high-impedance park shows a GPIO
input its park level. -/
def State.pinLevel (s : State) (n : Nat) : State × Nat :=
  let x := s.pin n
  let park := s.fld (GPIO_PIN.PARK n)
  if s.tap.extest || (decide (n < 64) && !s.supply.up) then (s.tookFree 1, s.free 1)
  else if s.flag (GPIO_PIN.PARKING n) then
    if park < 2 ∨ x.func = 0 ∨ funcOf (s.fld (GPIO_PIN.FUNC n)) = 0 then (s, s.parkLevel n)
    else (s.tookFree 1, s.free 1)
  else match pinSignal n x.func, x.pwm with
    | some (.gpio _), _ => if s.flag (GPIO_PIN.OE n) then (s, s.fld (GPIO_PIN.OUT n)) else (s.tookFree 1, s.free 1)
    | some (.pwm _), some r => (s, s.pwmLevel r)
    | _, _ => (s.tookFree 1, s.free 1)

end Sys2Proof.Machine
end

