-- ==== Sys2Proof/Machine/EthernetCmds.lean ====
section
/-! DEFINITION. The commands of the Ethernet MACs (R539–R548, R553–R557). -/
namespace Sys2Proof.Machine

/-! ## Register writes -/

/-- A doorbell of transmit (rx = 0) or receive ring q of MAC n (R218, R540); a Tilth queue's ring takes no descriptors (R546). -/
def State.ethBell (s : State) (n q rx v : Nat) : State :=
  if rx = 0 then
    (s.ringPush (s.flag (ETH_Q_CFG.TX_EN n q) && !s.flag (ETH_Q_CFG.TILTH n q)) (2 ^ s.fld (ETH_TXQ_LO.LOG2_SIZE n q)) (ETH_TXQ_HEAD.COUNT n q)
      (ETH_TXQ_TAIL.COUNT n q) none v).fetchHead n q
  else
    s.ringPush (s.flag (ETH_Q_CFG.RX_EN n q)) (2 ^ s.fld (ETH_RXQ_LO.LOG2_SIZE n q)) (ETH_RXQ_HEAD.COUNT n q) (ETH_RXQ_TAIL.COUNT n q) none v

/-- ETH_DOORBELL (R540). -/
def execEthDoorbell (m n q rx v : Nat) (s : State) : Host.Outcome State Fault Refusal :=
  s.write m (if rx = 0 then ETH_TXQ_DB.addr n q else ETH_RXQ_DB.addr n q) (s.start.ethBell n q rx v)

/-- GATE_CHANGE_REQUEST (R544): master m writes v, with CHANGE set, to GATE_CTRL. -/
def execGateChangeRequest (m n v : Nat) (s : State) : Host.Outcome State Fault Refusal :=
  s.write m (ETH_GATE_CTRL.addr n) (s.start.gateCtrl n (ins (BitVec.ofNat 32 v) 30 30 1))

/-- ETH_CLS_WORD0_WRITE (R541). -/
def execEthClsWord0Write (m n e v : Nat) (s : State) : Host.Outcome State Fault Refusal :=
  s.write m (ETH_CLS.addr n e) (s.start.clsCommit n e (BitVec.ofNat 32 v))

/-- A ring's LOG2_SIZE lies in 4 to 12 (R540). -/
def ethSizeOk (k : Nat) : Bool := decide (4 ≤ k ∧ k ≤ 12)

/-- Enabling a queue sets the counts of its ring to 0 (R217, R540); a ring of a size that R540 does not give is not enabled (DESIGN CHOICE, log 38). -/
def State.ethQcfg (s : State) (n q : Nat) (w : Word) : State :=
  let w := if ethSizeOk (s.fld (ETH_TXQ_LO.LOG2_SIZE n q)) then w else ins w 31 31 0
  let w := if ethSizeOk (s.fld (ETH_RXQ_LO.LOG2_SIZE n q)) then w else ins w 30 30 0
  let on := fun (i : Nat) (f : Fld) => bits w i i == 1 && !s.flag f
  let t := s.wr (ETH_Q_CFG.addr n q) (ins w 27 0 0)
  let t := if bits w 31 31 = 1 ∧ s.flag (ETH_Q_CFG.TX_EN n q) then t else t.setMac n ((t.mac n).setHead q none)
  let t := if on 31 (ETH_Q_CFG.TX_EN n q) then (t.setF (ETH_TXQ_HEAD.COUNT n q) 0).setF (ETH_TXQ_TAIL.COUNT n q) 0 else t
  if on 30 (ETH_Q_CFG.RX_EN n q) then (t.setF (ETH_RXQ_HEAD.COUNT n q) 0).setF (ETH_RXQ_TAIL.COUNT n q) 0 else t

/-! ## Gate events (R544, R545) -/

/-- GATE_LIST_CHANGE (R544). -/
def execGateListChange (n : Nat) (s : State) : Host.Outcome State Fault Refusal :=
  match (s.mac n).change with
  | some c => answer (s.ethUp n && decide (c.1 ≤ s.now)) s (s.start.gateChange n c)
  | none => answer false s s

/-- GATE_ENTRY_ADVANCE (R544): the entry the extended time falls in takes effect. -/
def execGateEntryAdvance (n : Nat) (s : State) : Host.Outcome State Fault Refusal :=
  let x := s.mac n
  answer (s.ethUp n && x.entry != x.entryAt s.now && (match x.change with | some c => decide (s.now < c.1) | none => true)) s
    (s.start.setMac n { x with entry := x.entryAt s.now })

/-! ## Transmission -/

/-- ETH_FRAME_TRANSMIT (R543): MAC n starts the frame of the highest-numbered eligible queue, a ring frame or a notice. -/
def execEthFrameTransmit (n : Nat) (s : State) : Host.Outcome State Fault Refusal :=
  let t := s.start.ethFetch n
  if !t.lineIdle n then answer false s s
  else match t.chosen n with
    | none => answer false s s
    | some q => match t.ethHead n q with
      | some (.ring h) => .next (t.sendRing n q h)
      | some (.notice f) =>
        let x := t.mac n
        .next ((t.wire n f).setMac n { x with notices := x.notices.tail, tx := some ⟨q, false, false, t.txStamp n, none⟩ })
      | _ => answer false s s

/-- TILTH_FRAME_LAUNCH (R546): the waiting output of context c in MAC n is sent when its queue is chosen, or dropped when its link is down or it
is too late. -/
def execTilthFrameLaunch (n c : Nat) (s : State) : Host.Outcome State Fault Refusal :=
  match (s.mac n).tilth.find? (fun t => t.ctx == c) with
  | none => answer false s s
  | some f =>
    if !s.ethLink n || decide (f.launch + s.fld (ETH_CFG.LATE_NS n) < s.now) then .next (s.start.dropTilth n f)
    else answer (s.lineIdle n && s.chosen n == some f.queue && s.ethHead n f.queue == some (.tilth f)) s (s.start.sendTilth n f.queue f)

/-- The frame of queue q of MAC n on the line. -/
def Mac.onLine (x : Mac) (q : Nat) : Option TxFrame := x.tx.filter (fun f => f.queue == q)

/-- ETH_TX_COMPLETE (R540): the frame of queue q on the line has been sent, or the queue's head is refused; it is written back and popped, once its
descriptor is not being filled (R334). -/
def execEthTxComplete (n q : Nat) (s : State) : Host.Outcome State Fault Refusal :=
  let t := s.start.ethFetch n
  let x := t.mac n
  let refused := t.ethUp n && t.txPosted n q && t.refusal n q != 0
  match x.onLine q with
  | some f =>
    if f.ring && t.filling (t.txDescAddr n q) 32 then .next (s.start.say .waits)
    else
      let u := t.setMac n { x with tx := none }
      .next (if f.ring then u.writeBack n q 0 (if f.tsReq then some (f.stamp % 2 ^ 32) else none) f.prov else u)
  | none =>
    if refused && t.filling (t.txDescAddr n q) 32 then .next (s.start.say .waits)
    else answer refused s (t.writeBack n q (t.refusal n q) none none)

/-- LATE_DROP (R543): the head frame of queue q could not start by LT + LATE_NS, and its queue refuses such frames. -/
def execLateDrop (n q : Nat) (s : State) : Host.Outcome State Fault Refusal :=
  let t := s.start.ethFetch n
  let late := ((t.mac n).head q).any (fun h => h.status == 0 && t.ltLate n h.desc)
  let ok := t.ethLink n && t.txPosted n q && ((t.mac n).onLine q).isNone && t.flag (ETH_Q_CFG.LATE_POLICY n q) && late
  if ok && t.filling (t.txDescAddr n q) 32 then .next (s.start.say .waits)
  else answer ok s ((t.bump (ETH_CNT.COUNT n 6) 1).writeBack n q 1 none none)

/-! ## Reception -/

/-- ETH_FRAME_RECEIVE (R540): MAC n has received a frame, without its check sequence; fcsOk: the check sequence was good; at_: the time base at the first
symbol after its start frame delimiter (R536). A frame shorter than 60 bytes or longer than 9,216 is discarded; one whose buffer is being filled
waits. -/
def execEthFrameReceive (n at_ : Nat) (fcsOk : Bool) (f : List Byte) (s : State) : Host.Outcome State Fault Refusal :=
  let ok := s.ethLink n && !(fcsOk && isPause f)
  if ok && fcsOk && decide (60 ≤ f.length ∧ f.length ≤ 9216) && s.rxWaits n f then .next (s.start.say .waits)
  else answer ok s (if f.length < 60 ∨ 9216 < f.length then s.start else s.start.rxFrame n at_ fcsOk f)

/-- PAUSE_FRAME_RECEIVE (R539): no frame starts for quanta of 512 bit times. -/
def execPauseFrameReceive (n quanta : Nat) (s : State) : Host.Outcome State Fault Refusal :=
  answer (s.ethLink n) s (s.start.setMac n { s.mac n with pausedTo := s.cyc + ceilDiv (quanta % 65536 * 64 * s.ethByte n) 10 })

/-! ## Link (R553) -/

/-- ETH_LINK_UP. -/
def execEthLinkUp (n : Nat) (s : State) : Host.Outcome State Fault Refusal :=
  answer (s.ethUp n && !s.flag (ETH_CFG.LINK n)) s ((s.start.setF (ETH_CFG.LINK n) 1).ethFetch n)

/-- Every posted descriptor of a queue is written back LINK_DOWN. -/
def State.linkDownQueue (s : State) (n q : Nat) : State :=
  if s.txPosted n q then (List.range (s.txDepth n q)).foldl (fun (t : State) _ => t.writeBack n q 4 none none) s else s

/-- ETH_LINK_DOWN: the frame on the line and every posted frame are written back LINK_DOWN, Tilth outputs are dropped; notices wait. -/
def execEthLinkDown (n : Nat) (s : State) : Host.Outcome State Fault Refusal :=
  let x := s.mac n
  let t := (s.start.setF (ETH_CFG.LINK n) 0).setMac n { x with tx := none, tilth := [], heads := [] }
  let t := t.bump (ETH_CNT.COUNT n 5) x.tilth.length
  answer (s.ethUp n && s.flag (ETH_CFG.LINK n)) s ((List.range 8).foldl (fun (u : State) q => u.linkDownQueue n q) t)

end Sys2Proof.Machine
end

