-- ==== Sys2Proof/Machine/ZethaCmds.lean ====
section
/-! DEFINITION. The commands and events of the Zetha ports (chapter 17): training, flits, messages, and the route table. -/
namespace Sys2Proof.Machine

/-! ## Training (R560, R561) -/

/-- The master ID under which a port writes. -/
def zMaster (p : Nat) : Nat := 0x70 + p

/-- The response of a request has arrived whole (R574). -/
def ZPort.answered (x : ZPort) (r : ZReq) : Bool :=
  x.arrived.any (fun e => leAt e.2 0 1 == (if r.isWrite then 5 else 3) && leAt e.2 14 2 % 1024 == r.tag)

/-- The link layer as it stands when CAP flits are first exchanged: numbers, buffers and credits from the start; inbound entries,
arrived messages with the requests they answer, the next tag and the notices not yet sent stay. -/
def ZPort.relink (x : ZPort) : ZPort :=
  let note := fun (f : ZFlit) => f.vc == 0 && f.som && f.eom && leAt f.pay 0 1 == 4
  { ZPort.init with inb := x.inb, reqs := x.reqs.filter x.answered, arrived := x.arrived, nextTag := x.nextTag,
                    vcq := [(getAt [] x.vcq 0).filter note, [], [], []], since := x.since, resumeAt := x.resumeAt, fresh := x.fresh }

/-- The header of a message on its way in. -/
def msgType (m : List Byte) : Nat := leAt m 0 1
def msgProv (m : List Byte) : Bool := bitN (leAt m 1 1) 1
def msgWm (m : List Byte) : Bool := bitN (leAt m 1 1) 0

/-- A partly received WRITE: what had arrived stays written, its blocks are poisoned and no longer pending (R564). -/
def State.dropPartial (s : State) (p : Nat) (m : List Byte) : State :=
  if m.length < 32 ∨ msgType m ≠ 1 ∨ leAt m 2 1 ≠ s.nodeId ∨ !s.zInRange p (leAt m 8 6) (leAt m 4 4) then s
  else
    let data := (m.drop 32).take (leAt m 4 4)
    let t := (s.store ⟨zMaster p, 0, bitN (leAt m 1 1) 1, false, .unit⟩ (placed (leAt m 8 6) data) 0 0).1
    (t.poison (partBlocks m)).release (messageBlocks m) 6 true

/-- A request that awaited its response completes with an error (R564). -/
def State.failReq (s : State) (r : ZReq) : State :=
  if r.mover = 0xFF then s.emit (.note "ACCESS_ERROR" [r.move]) else s.pieceFailed r.mover r.move r.piece false

/-- The link layer is flushed (R564); a core's request that waited for a tag completes with an error too (DESIGN CHOICE, log 91). -/
def State.zFlush (s : State) (p : Nat) : State :=
  let x := s.zport p
  let t := s.setZport p x.relink
  let t := x.rxBuf.foldl (fun (u : State) m => u.dropPartial p m) t
  let t := x.waiting.foldl (fun (u : State) w => u.emit (.note "ACCESS_ERROR" [w.master])) t
  ((x.reqs.filter (fun r => !x.answered r)).foldl (fun (u : State) r => u.failReq r) t).pump

/-- CFG.EN of a port. -/
def State.zEn (s : State) (p : Nat) : Bool := s.flag (ZTH_CFG.EN p)

/-- EN set: training starts from DETECT. EN cleared: DOWN from any state, and the link layer flushed. -/
def State.zEnable (s : State) (p : Nat) : State :=
  if s.zEn p then s
  else (s.setF (ZTH_CFG.EN p) 1).zEnter p 1
def State.zDisable (s : State) (p : Nat) : State :=
  if !s.zEn p then s
  else
    let was := s.zState p
    let t := (((s.setF (ZTH_CFG.EN p) 0).setF (ZTH_STATUS.LANE_LOCK p) 0).zEnter p 0).zFlush p
    if was = 5 then t.zEvent p (ZTH_EVENT.DOWN p) else t

/-- ZTH_PORT_ENABLE (R560): master m writes CFG with EN = 1. -/
def execZthPortEnable (m p : Nat) (s : State) : Host.Outcome State Fault Refusal :=
  s.write m (ZTH_CFG.addr p) (s.start.zEnable p)

/-- ZTH_PORT_DISABLE (R560): master m writes CFG with EN = 0. -/
def execZthPortDisable (m p : Nat) (s : State) : Host.Outcome State Fault Refusal :=
  s.write m (ZTH_CFG.addr p) (s.start.zDisable p)

/-- ZTH_ENERGY_DETECT (R560). -/
def execZthEnergyDetect (p : Nat) (s : State) : Host.Outcome State Fault Refusal :=
  answer (s.zUp p && s.zState p == 1) s (s.start.zEnter p 2)

/-- A port trains: its state has not outlasted its limit. -/
def State.zTrains (s : State) (p : Nat) : Bool := s.zUp p && (s.zport p).resumeAt == 0

/-- ZTH_BLOCK_LOCK (R560, R576): the lanes of a mask come into block lock; with all eight in lock LOCK gives way to ALIGN, and during a retrain the
state stays. -/
def execZthBlockLock (p lanes : Nat) (s : State) : Host.Outcome State Fault Refusal :=
  let lock := (s.fld (ZTH_STATUS.LANE_LOCK p)) ||| lanes
  let t := s.start.setF (ZTH_STATUS.LANE_LOCK p) lock
  answer (s.zTrains p && (s.zState p == 2 || s.zState p == 3 || s.zState p == 6)) s (if s.zState p = 2 ∧ lock = 0xFF then t.zEnter p 3 else t)

/-- ACTIVE entered. -/
def State.zActivate (s : State) (p : Nat) : State := (s.zEnter p 5).zEvent p (ZTH_EVENT.UP p)

/-- ZTH_ALIGN_DONE (R560): with every lane in block lock, lane reversal and polarity are found, and the scramblers of both directions start from
their seeds; NEGOTIATE, or ACTIVE again after a retrain. -/
def execZthAlignDone (p : Nat) (rev : Bool) (pol : Nat) (s : State) : Host.Outcome State Fault Refusal :=
  let t := (s.start.setF (ZTH_STATUS.REVERSED p) (b2n rev)).setF (ZTH_STATUS.POLARITY p) pol
  if !s.zTrains p || s.fld (ZTH_STATUS.LANE_LOCK p) != 0xFF then answer false s s
  else if s.zState p = 3 then .next ((t.setZport p (t.zport p).relink).zEnter p 4)
  else if s.zState p = 6 then .next ((t.setZport p { (t.zport p) with lfsr := zSeeds, blocks := 0, rxLfsr := zSeeds }).zActivate p)
  else answer false s s

/-- The limit of a training state, in ns. -/
def trainLimit (st : Nat) : Option Nat := if st = 2 ∨ st = 3 then some 2000000 else if st = 4 then some 1000000 else none

/-- A state that exceeded its limit: TRAIN_FAIL counts, and the port is in DETECT 1 ms from now (R560). -/
def State.zFails (s : State) (p : Nat) : State :=
  let t := s.zCount p zTrainFail
  t.setZport p { (t.zport p) with resumeAt := s.cyc + 1000000 }

/-- TRAIN_STATE_TIMEOUT (R560). -/
def execTrainStateTimeout (p : Nat) (s : State) : Host.Outcome State Fault Refusal :=
  answer (s.zTrains p && (match trainLimit (s.zState p) with | some l => decide ((s.zport p).since + l < s.cyc) | none => false)) s
    (s.start.zFails p)

/-- Ports whose failed state is 1 ms past enter DETECT (R560). -/
def State.zBack (s : State) : State :=
  (List.range 3).foldl (fun (t : State) p =>
    if (t.zport p).resumeAt ≠ 0 ∧ (t.zport p).resumeAt ≤ t.cyc ∧ t.zUp p then t.zEnter p 1 else t) s

/-- The CAP payload (R561). -/
def State.capPayload (s : State) (x : ZPort) : List Byte :=
  leBytes 1 1 ++ leBytes 1 1 ++ leBytes 1 1 ++ leBytes 1 s.nodeId ++ leBytes 1 128 ++ leBytes 1 128 ++ leBytes 1 128 ++ leBytes 1 128
    ++ leBytes 1 (b2n x.fresh + 2 * b2n x.seen) ++ leBytes 231 0

/-- ACTIVE once a CAP with SEEN has gone each way. -/
def State.zMaybeActive (s : State) (p : Nat) : State :=
  if (s.zport p).sentSeen && (s.zport p).gotSeen then s.zActivate p else s

/-- CAP_SEND (R561): every microsecond in NEGOTIATE. -/
def execCapSend (p : Nat) (s : State) : Host.Outcome State Fault Refusal :=
  let x := s.zport p
  let t := s.start.setZport p { x with capAt := some s.cyc, fresh := false, sentSeen := x.sentSeen || x.seen }
  answer (s.zTrains p && s.zState p == 4 && (match x.capAt with | none => true | some c => decide (c + 1000 ≤ s.cyc))) s
    ((t.zSend p (x.flitBytes 2 0 none (s.capPayload x))).zMaybeActive p)

/-- No lane brought a block error, and the flit's check value holds. -/
def flitOk (bs : List Byte) (bad : Bool) : Bool := !bad && bs.length == 256 && crc32c (bs.take 252) == leAt bs 252 4

/-- A flit is discarded (R563). -/
def State.badFlit (s : State) (p : Nat) : State :=
  let t := s.zCount p zCrcErr
  t.setZport p { (t.zport p) with nak := true }

/-- Every open inbound entry resolves BROKE (R573). -/
def State.inboundBroke (s : State) (p : Nat) (es : List InbEntry) : State :=
  es.foldl (fun (t : State) e =>
    t.poison (((List.range (e.hi - e.lo + 1)).map (fun i => e.lo + i)).filter (fun b => (s.tag b).writer == zMaster p))) s

/-- The peer's CAP (R561, R573). -/
def State.onCap (s : State) (p : Nat) (bs : List Byte) : State :=
  let c := fun (i : Nat) => leAt bs (12 + i) 1
  let credits := [c 4, c 5, c 6, c 7]
  if Nat.min (c 2) 1 < Nat.max (c 1) 1 ∨ credits.any (fun v => decide (v < 8)) then
    ((s.setF (ZTH_STATUS.PEER_NODE p) (c 3)).zEnter p 7).zEvent p (ZTH_EVENT.MISMATCH p)
  else
    let x := s.zport p
    let reset := bitN (c 8) 0 && !x.inb.isEmpty
    let s1 := if reset then (s.inboundBroke p x.inb).zEvent p (ZTH_EVENT.PEER_RESET p) else s
    let x1 := { x with seen := true, gotSeen := x.gotSeen || bitN (c 8) 1, cred := credits, lastCredit := [0, 0, 0, 0],
                       inb := if reset then [] else x.inb }
    ((s1.setF (ZTH_STATUS.PEER_NODE p) (c 3)).setZport p x1).zMaybeActive p

/-- CAP_FLIT_RECEIVE (R559, R561): the flit as its lanes bring it. -/
def execCapFlitReceive (p : Nat) (ls : List (List (Nat × List Byte))) (s : State) : Host.Outcome State Fault Refusal :=
  let r := s.start.zRecv p ls
  let ok := flitOk r.2.1 r.2.2
  answer (s.zTrains p && s.zState p == 4 && (!ok || (leAt r.2.1 0 2 / 4096 == 2 && leAt r.2.1 12 1 == 1))) s
    (if ok then r.1.onCap p r.2.1 else r.1.badFlit p)

/-! ## Flits (R562–R566) -/

/-- FLIT_SLOT (R566). -/
def execFlitSlot (p : Nat) (s : State) : Host.Outcome State Fault Refusal := answer (s.zActive p) s (s.start.zSlot p)

/-- The acknowledgement and the credits a good flit of cycle now carries. -/
def ZPort.header (x : ZPort) (now : Nat) (bs : List Byte) : ZPort :=
  let a := leAt bs 2 2
  let y := if bitN a 12 then x.acked (a % 4096) else x
  let y := if y.replay.length < x.replay.length then { y with stuck := (0, 0) } else y
  y.credited now [leAt bs 4 1, leAt bs 5 1, leAt bs 6 1, leAt bs 7 1]

/-- A retrain starts (R564): link-layer state kept. -/
def State.zRetrainNow (s : State) (p : Nat) : State := (s.zCount p zRetrain).zEnter p 6

/-- A provisional message finds room in the inbound table: it joins the newest entry or opens one (R408, R573). -/
def ZPort.inboundRoom (x : ZPort) (seq lo hi : Nat) : Bool :=
  decide (x.inb.length < 256) || (match x.inb.getLast? with
    | some e => (⟨e.first, e.last, e.lo, e.hi, 0, false, none⟩ : Tracker).joins seq lo hi
    | none => true)

/-- The bytes a whole message has (R567). -/
def msgLength (m : List Byte) : Nat :=
  let n := leAt m 4 4
  if msgType m = 4 then 48 else if msgType m = 2 then 32 else 32 + n + (if msgWm m then n / 4096 * 8 else 0)

/-- A message for another node goes on under the first forward entry for it, else it is dropped (R570). -/
def State.zForward (s : State) (p : Nat) (vc : Nat) (m : List Byte) : State :=
  match (List.range 32).find? (fun e => s.flag (ZTH_ROUTE.VALID e) && s.flag (ZTH_ROUTE.KIND e) && s.fld (ZTH_ROUTE.DST_NODE e) == leAt m 2 1
      && decide (s.fld (ZTH_ROUTE.PORT e) < 3)) with
  | some e =>
    let q := s.fld (ZTH_ROUTE.PORT e)
    if s.zLinked q then s.zQueue q (if msgType m = 1 then s.fld (ZTH_ROUTE.VC e) else vc) m else s.zCount p zMsgDrop
  | none => s.zCount p zMsgDrop

/-- A WRITE for this node that sets FILL_PEND on its destination. -/
def State.zPends (s : State) (p : Nat) (m : List Byte) : Bool :=
  decide (32 ≤ m.length) && msgType m == 1 && leAt m 2 1 == s.nodeId && s.zInRange p (leAt m 8 6) (leAt m 4 4)

/-- A message, or its part received so far, is discarded unwritten: what waits for its end goes on. -/
def State.zDiscard (s : State) (p : Nat) (m : List Byte) : State := if s.zPends p m then s.release (messageBlocks m) 6 false else s

/-- A message has arrived whole: forwarded, dropped, or kept for its own rule. -/
def State.zMessage (s : State) (p vc : Nat) (m : List Byte) : State :=
  if m.length < 32 ∨ msgType m < 1 ∨ 5 < msgType m ∨ m.length ≠ msgLength m then (s.zCount p zMsgDrop).zDiscard p m
  else if leAt m 2 1 ≠ s.nodeId then s.zForward p vc m
  else s.setZport p { (s.zport p) with arrived := (s.zport p).arrived ++ [(vc, m)] }

/-- The destination blocks of a WRITE for this node are pending from its header on (R568). -/
def State.zPend (s : State) (p : Nat) (before m : List Byte) : State :=
  if before.length < 32 ∧ s.zPends p m then
    s.setFill (messageBlocks m) true
  else s

/-- A provisional message, of which m has come, finds no room in the inbound table: a WRITE's blocks, or those of the request a READ_RESP answers
(R573). -/
def State.zNoRoom (s : State) (p : Nat) (m : List Byte) : Bool :=
  let x := s.zport p
  let bs := if msgType m = 1 then messageBlocks m else if msgType m = 3 then
      match x.reqs.find? (fun r => r.tag == leAt m 14 2 % 1024 && !r.isWrite) with
      | some r => if r.dst = 0 then [] else rangeBlocks r.dst r.len
      | none => []
    else []
  decide (32 ≤ m.length) && msgProv m && leAt m 2 1 == s.nodeId && !bs.isEmpty && !x.inboundRoom (leAt m 16 4) (bs.head?.getD 0) (maxN bs)

/-- A DATA flit in order: its part of the message, its credit, and the message if it ends. While a channel carries a message that finds no room,
every flit of the channel keeps its credit back, until an entry resolves (R573). -/
def State.zData (s : State) (p : Nat) (bs : List Byte) : State :=
  let x := s.zport p
  let v := leAt bs 8 1 % 4
  let som := bitN (leAt bs 8 1) 2
  let eom := bitN (leAt bs 8 1) 3
  let pay := (bs.drop 12).take (Nat.min 240 (leAt bs 9 1))
  let before := if som then [] else getAt [] x.rxBuf v
  let m := before ++ pay
  let hold := getAt 0 x.owed v ≠ 0 ∨ s.zNoRoom p m
  let x1 := { x with rxSeq := (x.rxSeq + 1) % 4096, gotAny := true, nak := false, rxBuf := set4 x.rxBuf v (if eom then [] else m),
                     freed := if hold then x.freed else set4 x.freed v ((getAt 0 x.freed v + 1) % 256),
                     owed := if hold then set4 x.owed v (getAt 0 x.owed v + 1) else x.owed }
  let t := ((if som then s.zDiscard p (getAt [] x.rxBuf v) else s).setZport p x1).zPend p before m
  if eom then t.zMessage p v m else t

/-- A flit whose check value holds is discarded all the same: an unknown type, an unexpected number, a payload length out of range (R562, R563). -/
def ZPort.discards (x : ZPort) (bs : List Byte) : Bool :=
  let ty := leAt bs 0 2 / 4096
  decide (2 < ty ∨ (ty = 1 ∧ (leAt bs 0 2 % 4096 ≠ x.rxSeq ∨ leAt bs 9 1 < 1 ∨ 240 < leAt bs 9 1)))

/-- A good flit in ACTIVE: acknowledgement and credits, then its data, unless it is discarded. -/
def State.onFlit (s : State) (p : Nat) (bs : List Byte) : State :=
  let ty := leAt bs 0 2 / 4096
  if (s.zport p).discards bs then s.badFlit p
  else
    let t := s.setZport p ((s.zport p).header s.cyc bs)
    if ty = 1 then t.zData p bs else t

/-- FLIT_RECEIVE (R559, R563): a flit as its lanes bring it, without NAK, or a bad one. -/
def execFlitReceive (p : Nat) (ls : List (List (Nat × List Byte))) (s : State) : Host.Outcome State Fault Refusal :=
  let r := s.start.zRecv p ls
  let ok := flitOk r.2.1 r.2.2
  answer (s.zActive p && !(ok && bitN (leAt r.2.1 2 2) 13)) s (if ok then r.1.onFlit p r.2.1 else r.1.badFlit p)

/-- The replay a NAK asks for: at most once in 2 µs for one number; the eighth without progress retrains (R563). -/
def State.onNak (s : State) (p a : Nat) : State :=
  let x := s.zport p
  if (match x.nakActed with | some (b, t) => b == a && decide (s.cyc < t + 2000) | none => false) then s
  else
    let first := match x.replay.head? with | some e => e.1 | none => x.txSeq
    let k := if x.stuck.2 ≠ 0 ∧ x.stuck.1 = first then x.stuck.2 + 1 else 1
    let t := (s.setZport p { x with resend := x.replay.map (·.1), nakActed := some (a, s.cyc), stuck := (first, k) }).zCount p zReplay
    if 8 ≤ k then (t.setZport p { (t.zport p) with stuck := (0, 0) }).zRetrainNow p else t

/-- NAK_RECEIVE (R563): a good flit with NAK set; one that is discarded asks for nothing. -/
def execNakReceive (p : Nat) (ls : List (List (Nat × List Byte))) (s : State) : Host.Outcome State Fault Refusal :=
  let r := s.start.zRecv p ls
  let t := r.1.onFlit p r.2.1
  answer (s.zActive p && flitOk r.2.1 r.2.2 && bitN (leAt r.2.1 2 2) 13) s
    (if (s.zport p).discards r.2.1 then t else t.onNak p (leAt r.2.1 2 2 % 4096))

/-- RETRAIN (R564, R576): block lock lost on a lane, which while ACTIVE starts a retrain, or a write of CFG.RETRAIN by master m. -/
def execZthRetrain (m p : Nat) (lost : Option Nat) (s : State) : Host.Outcome State Fault Refusal :=
  match lost with
  | some l =>
    let t := s.start.setF (ZTH_STATUS.LANE_LOCK p) (s.fld (ZTH_STATUS.LANE_LOCK p) &&& (0xFF - 2 ^ l))
    answer (s.zUp p && decide (2 ≤ s.zState p ∧ s.zState p ≤ 6)) s (if s.zActive p then t.zRetrainNow p else t)
  | none => s.write m (ZTH_CFG.addr p) (if s.zActive p then s.start.zRetrainNow p else s.start)

/-- LINK_DROP (R564): a retrain has failed; the link layer is flushed, and the port enters DETECT after 1 ms (R560). -/
def execLinkDrop (p : Nat) (s : State) : Host.Outcome State Fault Refusal :=
  answer (s.zTrains p && s.zState p == 6 && decide ((s.zport p).since + 1000000 < s.cyc)) s ((s.start.zFails p).zFlush p)

/-! ## Accesses and messages (R567–R573) -/

/-- ZTH_WINDOW_ACCESS (R569, R572): a core's access of 1 to 8 bytes; a page mover's pieces are issued by its own commands. -/
def execZthWindowAccess (m a n : Nat) (bs : List Byte) (wr : Bool) (s : State) : Host.Outcome State Fault Refusal :=
  answer (isZWin a) s (if wr then s.start.zCoreWrite m a bs else s.start.zCoreRead m a n)

/-- The first arrived message of a type that no earlier message on its channel precedes, and the port without it. -/
def State.zTake (s : State) (p ty : Nat) : Option (List Byte × State) :=
  let l := (s.zport p).arrived
  match (List.range l.length).find? (fun i => let e := getAt (0, []) l i; msgType e.2 == ty && !((l.take i).any (fun d => d.1 == e.1))) with
  | some i => some ((getAt (0, []) l i).2, s.setZport p { (s.zport p) with arrived := l.eraseIdx i })
  | none => none

/-- A response on the port its request arrived on; a retrain keeps it (R564), a dropped link has completed its request (R571). -/
def State.zRespond (s : State) (p : Nat) (msg : List Byte) : State := if s.zLinked p then s.zQueue p 1 msg else s
def State.zAck (s : State) (p : Nat) (m : List Byte) (status : Nat) : State :=
  s.zRespond p (zHeader 5 0 (leAt m 3 1) s.nodeId 0 0 (leAt m 14 2 % 1024) 0 status)

/-- A provisional message joins or opens an inbound entry (R573). -/
def ZPort.addInbound (x : ZPort) (seq lo hi : Nat) : ZPort :=
  match x.inb.getLast? with
  | some e =>
    if (⟨e.first, e.last, e.lo, e.hi, 0, false, none⟩ : Tracker).joins seq lo hi then
      { x with inb := x.inb.dropLast ++ [⟨e.first, seq, Nat.min e.lo lo, Nat.max e.hi hi⟩] }
    else { x with inb := x.inb ++ [⟨seq, seq, lo, hi⟩] }
  | none => { x with inb := [⟨seq, seq, lo, hi⟩] }

/-- The blocks of an arriving message land with their trailers (R568): (state, good). -/
def State.landBlocks (s : State) (p a : Nat) (data trailers : List Byte) : State × Bool :=
  (List.range (data.length / 4096)).foldl (fun (acc : State × Bool) i =>
    let b := a / 4096 + i
    let bytes := (data.drop (4096 * i)).take 4096
    let want := leAt trailers (8 * i) 4
    let tags := leAt trailers (8 * i + 4) 1
    let t := (acc.1.store ⟨zMaster p, 0, bitN tags 1, bitN tags 0, .unit⟩ (placed (b * 4096) bytes) 0 0).1
    if crc32c bytes = want then (t, acc.2)
    else ((((t.poison [b]).zCount p zWmFail).report ⟨0x01, zMaster p, 64, 0, 0, b * 4096, want, crc32c bytes, 0, 0⟩), false)) (s, true)

/-- The data of an arriving message land: by blocks when it carries watermarks, else under its PROV flag. -/
def State.land (s : State) (p a : Nat) (m : List Byte) : State × Bool :=
  let n := leAt m 4 4
  let data := (m.drop 32).take n
  if msgWm m && a % 4096 == 0 && n % 4096 == 0 then s.landBlocks p a data (m.drop (32 + n))
  else
    let r := s.store ⟨zMaster p, 0, msgProv m, false, .unit⟩ (placed a data) 0 0
    (r.1, r.2.isEmpty)

/-- A block of the range is pending on account of a move, not of this message. -/
def State.moveHolds (s : State) (bs : List Nat) : Bool := s.movers.any (fun e => e.2.moves.any (fun v => v.blocks.any (fun b => bs.contains b)))

/-- The inbound entry a message makes, if it is provisional. -/
def State.inbound (s : State) (p : Nat) (m : List Byte) (bs : List Nat) : State :=
  if msgProv m then s.setZport p ((s.zport p).addInbound (leAt m 16 4) (bs.head?.getD 0) (maxN bs)) else s
def State.inboundOk (s : State) (p : Nat) (m : List Byte) (bs : List Nat) : Bool :=
  !msgProv m || (s.zport p).inboundRoom (leAt m 16 4) (bs.head?.getD 0) (maxN bs)

/-- WRITE (R568, R570, R571): it waits while a move fills its blocks, or while its entry finds no room. -/
def State.zWriteWaits (s : State) (p : Nat) (m : List Byte) : Bool :=
  s.zInRange p (leAt m 8 6) (leAt m 4 4) && (s.moveHolds (messageBlocks m) || !s.inboundOk p m (messageBlocks m))
def execZthWriteMsg (p : Nat) (s : State) : Host.Outcome State Fault Refusal :=
  match s.start.zTake p 1 with
  | none => answer false s s
  | some (m, t) =>
    let a := leAt m 8 6
    let bs := messageBlocks m
    if !t.zInRange p a (leAt m 4 4) then .next ((t.zCount p zInbReject).zAck p m 1)
    else if t.zWriteWaits p m then answer false s s
    else
      let r := (t.regulateRange (zMaster p) 8 (srcDie (zMaster p) 2) (a, leAt m 4 4)).land p a m
      .next (((r.1.inbound p m bs).release bs 6 false).zAck p m (if r.2 then 0 else 1))

/-- READ_REQ (R568, R571). -/
def execZthReadReq (p : Nat) (s : State) : Host.Outcome State Fault Refusal :=
  match s.start.zTake p 2 with
  | none => answer false s s
  | some (m, t) =>
    let a := leAt m 8 6
    let n := leAt m 4 4
    let hdr := fun (flags len seq st : Nat) => zHeader 3 flags (leAt m 3 1) t.nodeId len 0 (leAt m 14 2 % 1024) seq st
    if !t.zInRange p a n then .next ((t.zCount p zInbReject).zRespond p (hdr 0 0 0 1))
    else
      let bs := rangeBlocks a n
      match t.scanBlocks true false bs with
      | .wait _ => answer false s s
      | .stop st b => .next ((if st = stWatermark then (t.checkRead b 0 0).1 else t).zRespond p (hdr 0 0 0 (if st = stWatermark then 1 else 2)))
      | .ok _ =>
        let u := (t.regulateRange (zMaster p) 8 (srcDie (zMaster p) 2) (a, n)).noteReads bs 0 0
        match u.provUnit (8 + p) bs with
        | none => answer false s s
        | some (v, num) =>
          let wm := wholeBlocks a n
          .next (v.zRespond p (hdr (b2n wm + 2 * b2n num.isSome) n (num.getD 0) 0 ++ v.bytesAt a n ++ (if wm then v.zTrailers (v.bytesAt a n) bs else [])))

/-- The request a response answers, and the port without it: its tag goes to a request that waits for one. -/
def State.zAnswered (s : State) (p : Nat) (m : List Byte) (wr : Bool) : Option (ZReq × State) :=
  match (s.zport p).reqs.find? (fun r => r.tag == leAt m 14 2 % 1024 && r.isWrite == wr) with
  | some r => some (r, (s.setZport p { (s.zport p) with reqs := (s.zport p).reqs.filter (fun y => y != r) }).zWake p)
  | none => none

/-- A read's data for a move: landed, or kept with the move; a bad one fails the piece (R568, R572). -/
def State.readLands (s : State) (p : Nat) (r : ZReq) (m : List Byte) : State :=
  let n := leAt m 4 4
  let bs := if r.dst = 0 then [] else rangeBlocks r.dst n
  if leAt m 20 1 ≠ 0 ∨ n ≠ r.len then s.pieceFailed r.mover r.move r.piece (leAt m 20 1 == 2)
  else
    let g := if r.dst ≠ 0 then (s.land p r.dst m) else s.deliver ⟨zMaster p, 0, msgProv m, false, .unit⟩ r.mover r.move r.piece ((m.drop 32).take n)
    let t := if r.dst ≠ 0 then g.1.inbound p m bs else g.1
    if g.2 then t.pieceGot r.mover r.move r.piece else t.pieceFailed r.mover r.move r.piece false

/-- READ_RESP (R568, R571, R572); a response that answers no request is dropped. -/
def execZthReadResp (p : Nat) (s : State) : Host.Outcome State Fault Refusal :=
  match s.start.zTake p 3 with
  | none => answer false s s
  | some (m, t) =>
    match t.zAnswered p m false with
    | none => .next t
    | some (r, u) =>
      if r.mover = 0xFF then
        .next (if leAt m 20 1 = 0 ∧ leAt m 4 4 = r.len then u.say (.bytes ((m.drop 32).take r.len)) else u.say .busError)
      else if r.dst ≠ 0 && !u.inboundOk p m (rangeBlocks r.dst r.len) then answer false s s
      else .next (u.readLands p r m).pump

/-- WRITE_ACK (R571, R572). -/
def execZthWriteAck (p : Nat) (s : State) : Host.Outcome State Fault Refusal :=
  match s.start.zTake p 5 with
  | none => answer false s s
  | some (m, t) =>
    let st := leAt m 20 1
    match t.zAnswered p m true with
    | none => .next t
    | some (r, u) =>
      if r.mover = 0xFF then .next (if st = 0 then u else u.say .busError)
      else .next (if st = 0 then u.pieceGot r.mover r.move r.piece else u.pieceFailed r.mover r.move r.piece (st == 2)).pump

/-- An entry whose numbers all lie in a notice's range. -/
def InbEntry.covered (e : InbEntry) (first last : Nat) : Bool :=
  decide (wrapSub e.first first ≤ wrapSub last first ∧ wrapSub e.last first ≤ wrapSub last first)

/-- A NOTICE on one entry (R573). -/
def State.noticeEntry (s : State) (p : Nat) (broke : Bool) (e : InbEntry) : State :=
  let bs := ((List.range (e.hi - e.lo + 1)).map (fun i => e.lo + i)).filter (fun b => (s.tag b).writer == zMaster p)
  if broke then s.poison bs else s.clearProv bs

/-- An arrived WRITE that could be taken now touches a block of the entries hit, or bears a number of the notice: its tags apply first (R574). -/
def State.writeFirst (s : State) (p first last : Nat) (hit : List InbEntry) : Bool :=
  let l := (s.zport p).arrived
  (List.range l.length).any (fun i =>
    let e := getAt (0, []) l i
    msgType e.2 == 1 && !((l.take i).any (fun d => d.1 == e.1)) && !s.zWriteWaits p e.2 && s.zInRange p (leAt e.2 8 6) (leAt e.2 4 4)
      && (hit.any (fun h => (messageBlocks e.2).any (fun b => decide (h.lo ≤ b ∧ b ≤ h.hi)))
        || (msgProv e.2 && decide (wrapSub (leAt e.2 16 4) first ≤ wrapSub last first))))

/-- NOTICE (R573): covered entries resolve, and credits held back for want of an entry are returned. -/
def execZthNotice (p : Nat) (s : State) : Host.Outcome State Fault Refusal :=
  match s.start.zTake p 4 with
  | none => answer false s s
  | some (m, t) =>
    let first := leAt m 36 4
    let last := leAt m 40 4
    let x := t.zport p
    let hit := x.inb.filter (fun e => e.covered first last)
    let u := hit.foldl (fun (v : State) e => v.noticeEntry p (leAt m 33 1 == 2) e) t
    if t.writeFirst p first last hit then answer false s s
    else .next (u.setZport p { x with inb := x.inb.filter (fun e => !e.covered first last),
                                      freed := if hit.isEmpty then x.freed else (List.range 4).map (fun v => (getAt 0 x.freed v + getAt 0 x.owed v) % 256),
                                      owed := if hit.isEmpty then x.owed else [0, 0, 0, 0] })

/-- Word 0 of a route entry written: words 1 and 2 held for it take effect with it (R569). -/
def State.routeWrite (s : State) (e : Nat) (w : Word) : State :=
  let w1 := s.heldOr (ZTH_ROUTE_W1.addr e)
  let w2 := s.heldOr (ZTH_ROUTE_W2.addr e)
  ((((s.wr (ZTH_ROUTE.addr e) (w &&& 0xFFFF0000)).wr (ZTH_ROUTE_W1.addr e) w1).wr (ZTH_ROUTE_W2.addr e) w2).unhold (ZTH_ROUTE_W1.addr e)).unhold
    (ZTH_ROUTE_W2.addr e)

/-- ZTH_ROUTE_WRITE (R569, R579). -/
def execZthRouteWrite (m e v : Nat) (s : State) : Host.Outcome State Fault Refusal :=
  s.write m (ZTH_ROUTE.addr e) (s.start.routeWrite e (BitVec.ofNat 32 v))

end Sys2Proof.Machine
end

