-- ==== Sys2Proof/Machine/Tick.lean ====
section
/-! DEFINITION. Time passes (R532–R534): what the units count while it does, the tick, the wrap and the step of the time base. What a counter counts over
n nanoseconds is decided by the state at their start (log 85). -/
namespace Sys2Proof.Machine

/-! ## Waits for a provisional number (R408, R428) -/

/-- Every entry of a port's tracker is taken. -/
def State.trackerFull (s : State) (p : Nat) : Bool := decide (256 ≤ (s.trackersOf p).length)

/-- A queue of MAC n whose head is a provisional frame that must wait for its number. -/
def State.ethStalled (s : State) (n : Nat) : Bool :=
  s.ethLink n && (List.range 8).any (fun q =>
    let d := s.ethDesc (s.txDescAddr n q)
    s.txPosted n q && ((s.mac n).head q).isNone && !s.filling (s.txDescAddr n q) 32 && !s.badDesc d
      && (match s.scanBlocks true false (ethBlocks d) with | .ok _ => (s.provUnit n (ethBlocks d)).isNone | _ => false))

/-- A piece of a move that must wait at Zetha port p. -/
def State.pieceStalled (s : State) (p : Nat) (v : Move) (x : Sheet) : Bool :=
  let d := MoveDesc.ofBytes v.bytes
  v.code == 0 && !x.out && !x.got && !v.second && isZWin (d.dst + x.off) && !isPort (s.moveClass d.src d.len)
    && (match (s.zResolve (d.dst + x.off)).2 with | some (_, q) => q == p | none => false)
    && (s.provUnit (8 + p) (rangeBlocks (d.src + x.off) x.len)).isNone

/-- A read request whose provisional response must wait at Zetha port p, or a piece of a move. -/
def State.zStalled (s : State) (p : Nat) : Bool :=
  (match s.zTake p 2 with | some (m, _) => (s.provUnit (8 + p) (messageBlocks m)).isNone | none => false)
    || s.movers.any (fun e => e.2.moves.any (fun v => v.sheets.any (s.pieceStalled p v)))

/-- n nanoseconds in which a full tracker holds up a unit count for its port, in cycles of the integrity controller (R408, R428). -/
def State.provTick (s : State) (n : Nat) : State :=
  ((List.range 11).filter (fun p => s.trackerFull p && (if p < 8 then s.ethStalled p else s.zStalled (p - 8)))).foldl
    (fun (t : State) p => t.bump (ITG_PROV_STALL.COUNT p) n) s

/-! ## Frames held by the gate-closing rule (R543) -/

/-- MAC n holds a ready head frame whose gate is open, for it would not finish before the gate closes, whatever another queue sends. -/
def State.gateHolds (s : State) (n : Nat) : Bool :=
  s.ethLink n && (List.range 8).any (fun q => match (s.ethHead n q).bind (s.headReady n q), s.gateClose n q with
    | some len, some t => t != 0 && !s.gateFits n q len
    | _, _ => false)

/-- Nanoseconds until the head of queue q may next become held or cease to be: its launch time comes, too little of its gate's time is left, the gate
closes, or, closed, its entry ends. -/
def State.holdNext (s : State) (n q : Nat) : Nat :=
  let x := s.mac n
  let launch := match s.ethHead n q with
    | some (.tilth t) => [t.launch - s.now, t.launch + s.fld (ETH_CFG.LATE_NS n) + 1 - s.now]
    | some (.ring h) => if bitN (leAt h.desc 12 1) 0 then
        let d := (leAt h.desc 8 4 + 2 ^ 32 - s.time) % 2 ^ 32
        [d, (d + s.fld (ETH_CFG.LATE_NS n) + 1) % 2 ^ 32]
      else []
    | _ => []
  let pos := (((s.now : Int) - (x.base : Int)) % (x.cycle : Int)).toNat
  let i := gatePos x.gates x.cycle x.base s.now
  let left := (i.2 + (getAt (0xFF, 0) (gateSegs x.cycle 0 x.gates) i.1).2) - pos
  let gate := match (s.ethHead n q).bind (s.headReady n q), s.gateClose n q with
    | some len, some t => [t - s.ethTenths n len / 10, t]
    | _, _ => []
  ((left :: gate ++ launch).filter (fun k => k != 0)).foldl Nat.min (2 ^ 32)

/-- Cycles of CLK_IO_ETH at 312.5 MHz in the next n nanoseconds in which MAC k holds a frame, whatever queues hold one in a cycle. -/
def State.heldCycles (s : State) (k : Nat) : Nat → Nat → Nat
  | 0, _ => 0
  | f + 1, n =>
    if n = 0 then 0
    else
      let d := (List.range 8).foldl (fun m q => Nat.min m (s.holdNext k q)) n
      let d := Nat.max 1 d
      (if s.gateHolds k then (s.cyc + d) * 5 / 16 - s.cyc * 5 / 16 else 0)
        + State.heldCycles { s with now := s.now + d, cyc := s.cyc + d } k f (n - d)

/-- n nanoseconds of held frames; a MAC without gates in force, or without a head frame, holds none. -/
def State.holdTick (s : State) (n : Nat) : State :=
  ((List.range 8).filter (fun k => s.ethLink k && s.flag (ETH_GATE_CTRL.GATE_EN k) && !(s.mac k).gates.isEmpty
      && (List.range 8).any (fun q => (s.ethHead k q).isSome))).foldl
    (fun (t : State) k => t.bump (ETH_CNT.COUNT k 7) (s.heldCycles k n n)) s

/-! ## The tick (R532) -/

/-- What the units count while n nanoseconds pass. -/
def State.ticked (s : State) (n : Nat) : State := ((((s.rateTick n).stallTick n).wdogTick n).provTick n).holdTick n

/-- n cycles pass; ports of Zetha fall back to DETECT in them (R560), and domains that wait for a rail's switch to close begin (R688). -/
def State.timGo (s : State) (n : Nat) : State :=
  ({ s.ticked n with now := (s.now + s.timAdvance n) % 2 ^ 64, cyc := s.cyc + n, timAcc := unsigned 32 (s.timSum n), timRho := s.timRate } : State).zBack.pdKickFrom s.cyc

/-- TIME_BASE_TICK (R532): n cycles of CLK_IO0_TIM in which the time base does not wrap. -/
def execTimeBaseTick (n : Nat) (s : State) : Host.Outcome State Fault Refusal :=
  answer (decide (1 ≤ n) && !s.timWraps n) s (s.start.timGo n)

/-- TIME_BASE_WRAP (R531): the cycle in which the time base wraps. -/
def execTimeBaseWrap (s : State) : Host.Outcome State Fault Refusal :=
  answer (s.timWraps 1) s ((s.start.timGo 1).timEvent TIM_EVENT.WRAP)

/-! ## The step (R533) -/

/-- A step: the ordinary advance of the cycle, then the offset; accumulator, DL_NOW, windows, instants and gate lists follow (R533, R534). -/
def State.timStep (s : State) : State :=
  let s := s.tltSettle
  let t := (s.timGo 1).hbxSettle
  let now := (t.now + s.stepOffset) % 2 ^ 64
  let wrap := s.timWraps 1 && decide (now / 2 ^ 32 = t.now / 2 ^ 32)
  let u := { t with now := now, timAcc := 0, dlNow := now / 1000 % 2 ^ 32, overdueCtr := t.overdueCtr + 1 }
  let u := { u with macs := u.macs.map (fun (e : Nat × Mac) => (e.1, { e.2 with entry := e.2.entryAt now })) }
  let u := ((u.ageAll.hbxStepped).tltResume false).timEvent TIM_EVENT.STEPPED
  if wrap then u.timEvent TIM_EVENT.WRAP else u

/-- A write of TIM_CTRL (R552). -/
def State.timCtrl (s : State) (w : Word) : State := if bits w 31 31 = 1 then s.timStep else s

/-- STEP (R533): master m writes TIM_CTRL with STEP set. -/
def execTimStep (m : Nat) (s : State) : Host.Outcome State Fault Refusal :=
  s.write m TIM_CTRL.addr (s.start.timCtrl (BitVec.ofNat 32 (2 ^ 31)))

end Sys2Proof.Machine
end

