-- ==== Sys2Proof/Machine/Registers.lean ====
section
/-! DEFINITION. Accesses to registers (R14–R21): what a read of each register shows, what a read does, and what a write does. A register whose write is
a command of its own goes to the operation of that command. -/
namespace Sys2Proof.Machine

/-! ## Which register an address is -/

/-- Indices of a register from the strides of its map entry, outermost first. -/
def dimsIdx : List (Nat × Nat) → Nat → List Nat
  | [], _ => []
  | (st, _) :: ds, off => off / st :: dimsIdx ds (off % st)

/-- The first address of the register an address belongs to, and its indices; queues, cells and sequence slots of the second die count on
from the first die's. -/
def regIdx (d : RegDesc) (a : Nat) : Nat × List Nat :=
  let l := dimsIdx d.dims (a - d.base)
  let up := fun (n : Nat) => match l with | i :: r => (i + n) :: r | [] => []
  if 0x20900000 ≤ d.base ∧ d.base < 0x20A00000 then (d.base - 0x800000, up 32768)
  else if 0x20A00000 ≤ d.base ∧ d.base < 0x20B00000 then (d.base - 0x800000, up 16384)
  else if 0x21900000 ≤ d.base ∧ d.base < 0x21A00000 then (d.base - 0x800000, up 512)
  else (d.base, l)

/-! ## What a read shows -/

/-- The word of a list of fields and values over a stored word. -/
def fields (w : Word) (l : List (Fld × Nat)) : Word := l.foldl (fun x e => ins x e.1.hi e.1.lo e.2) w

/-- QUEUE_STATUS (R264). -/
def State.queueStatus (s : State) (q : Nat) : Word :=
  let x := s.q q
  fields (s.rd (DCK_QUEUE_STATUS.addr q)) [(DCK_QUEUE_STATUS.BOUND q, b2n x.bound.isSome), (DCK_QUEUE_STATUS.CPL_STALL q, b2n (x.stalled || s.awaitsSlot q)),
    (DCK_QUEUE_STATUS.WAITING q, b2n x.wait.isSome), (DCK_QUEUE_STATUS.PREEMPTED q, b2n (match x.save with | .saved _ _ => true | _ => false)),
    (DCK_QUEUE_STATUS.OVERDUE q, b2n (match x.key with | some k => k.overdue.isSome | none => false)),
    (DCK_QUEUE_STATUS.CLUSTER q, x.bound.getD 0xFF)]

/-- CLU_STATE (R275). -/
def State.cluStateWord (s : State) (n : Nat) : Word :=
  let svc := s.svc n
  let saving := s.queues.any (fun e => match e.2.save with | .saving c _ _ _ => c == n | _ => false)
  let bound := (s.cl n).bound
  let st := if svc = 3 then 7 else if 2 ≤ svc then 6 else if svc = 1 then (if (s.cl n).drained then 5 else 4) else if saving then 2
    else if !s.noRestore n then 3 else if bound.isSome then 1 else 0
  let dl := match bound with | some q => (match (s.q q).key with | some k => k.isDl | none => false) | none => false
  fields 0 [(DCK_CLU_STATE.STATE n, st), (DCK_CLU_STATE.DEADLINE n, b2n dl), (DCK_CLU_STATE.QUEUE n, if st = 1 then bound.getD 0x7FFF else 0x7FFF)]

/-- The entry of a sequence slot (R279). -/
def Slot.bytes (x : Slot) : List Byte :=
  let b0 := x.state + 4 * b2n x.stream + 8 * b2n x.inStep + 16 * b2n x.joinPend + 32 * b2n x.leavePend + 64 * b2n x.releasePend
  let b1 := b2n x.atLimit + 2 * b2n x.growFail + 4 * b2n x.stateLost
  let row := if x.stream then leBytes 2 x.row ++ leBytes 4 0 else leBytes 6 x.ptBase
  if x.state = 0 then leBytes 10 0 ++ [0xFF] ++ leBytes 21 0
  else leBytes 1 b0 ++ leBytes 1 b1 ++ leBytes 2 x.handle ++ leBytes 4 x.length ++ leBytes 2 x.stepTokens ++ leBytes 1 x.batch ++ leBytes 1 x.part
    ++ leBytes 2 x.layers ++ leBytes 1 x.log2Tps ++ leBytes 1 (if x.stream then x.fmt else 0) ++ leBytes 4 x.maxPages ++ row ++ leBytes 2 0
    ++ leBytes 4 x.lastCommit

/-- BATCH (R316). -/
def State.batchWord (s : State) (b : Nat) : Word :=
  let x := s.batch b
  if !x.isOpen then 0
  else fields 0 [(QUI_BATCH.OPEN b, 1), (QUI_BATCH.STEP_OPEN b, b2n x.stepOpen), (QUI_BATCH.KIND b, b2n x.stream), (QUI_BATCH.ARMED b, b2n x.armed.isSome),
    (QUI_BATCH.PARTITION b, x.part), (QUI_BATCH.MEMBERS b, (s.members b).length)]

/-- CAL_STATUS (R118) and BTR_STATUS (R159). A finished bank drains as soon as the drain path is free (R99): the oldest of held then drains already. -/
def State.calStatus (s : State) (n : Nat) : Word :=
  let c := s.cl n
  let acc := s.accumulating n
  let bank := match acc with | some x => x.2.bank | none => c.lastBank
  let drains := c.drain.isSome || !c.held.isEmpty
  let waits := decide ((if c.drain.isSome then 0 else 1) < c.held.length)
  fields 0 [(CLU_CAL_STATUS.STATE n, b2n acc.isSome + 2 * b2n drains), (CLU_CAL_STATUS.BANK n, bank), (CLU_CAL_STATUS.HOLD n, b2n waits),
    (CLU_CAL_STATUS.THROTTLED n, b2n (decide (s.issueQ n < 64))), (CLU_CAL_STATUS.ISSUE_Q n, s.issueQ n)]
def State.btrStatus (s : State) (n : Nat) : Word :=
  let c := s.cl n
  let st := match c.btr with
    | [] => 0
    | o :: _ => if s.blocked o then 2 else if s.needsCurve n o then 3 else 1
  fields 0 [(CLU_BTR_STATUS.STATE n, st), (CLU_BTR_STATUS.INFLIGHT n, c.btr.length), (CLU_BTR_STATUS.SLOTS_VALID n, c.slots.length)]

/-- Robotics engines (R456–R458, R482, R483, R528). -/
def State.dunStatus (s : State) (e : Nat) : Word :=
  let x := s.dune e
  let u := s.eng (1 + e)
  let bank := if x.valid then getAt none x.banks x.cur else none
  let of := fun (f : OccBank → Nat) => match bank with | some b => f b | none => 0
  fields 0 [(DUN_STATUS.MAIN_BUSY e, b2n u.main.isSome), (DUN_STATUS.LOAD_BUSY e, b2n u.load.isSome), (DUN_STATUS.OCC_VALID e, b2n x.valid),
    (DUN_STATUS.CUR_BANK e, x.cur), (DUN_STATUS.OCC_PROV e, of (fun b => b2n b.prov)), (DUN_STATUS.SLOTS_BOUND e, (x.slots.filter Option.isSome).length),
    (DUN_STATUS.SLICES e, of (fun b => b.slices)), (DUN_STATUS.UNITS_USED e, of (fun b => b.bricks.length * b.slices))]
def State.dunSlot (s : State) (e k : Nat) (gen : Bool) : Word :=
  match getAt none (s.dune e).slots k with
  | none => 0
  | some x => if gen then BitVec.ofNat 32 x.valGen
    else fields 0 [(DUN_SLOT.BOUND e k, 1), (DUN_SLOT.FULL_VALID e k, b2n x.full), (DUN_SLOT.HANDLE e k, x.handle)]
def State.slvStatus (s : State) (e : Nat) : Word :=
  fields 0 [(SLV_STATUS.BUSY e, b2n (s.eng (3 + e)).main.isSome), (SLV_STATUS.SLOTS_BOUND e, ((s.slv e).filter Option.isSome).length),
    (SLV_STATUS.STORE_USED e, storeUsed (s.slv e))]
def State.slvSlotWord (s : State) (e k : Nat) (gen : Bool) : Word :=
  match getAt none (s.slv e) k with
  | none => 0
  | some x => if gen then BitVec.ofNat 32 x.gen
    else fields 0 [(SLV_SLOT.BOUND e k, 1), (SLV_SLOT.FACTOR_VALID e k, b2n x.factor.isSome), (SLV_SLOT.HAS_LAST e k, b2n x.last.isSome),
      (SLV_SLOT.SUBST_RUN e k, x.run), (SLV_SLOT.HANDLE e k, x.handle)]
def State.lomStatus (s : State) : Word :=
  fields 0 [(LOM_STATUS.BUSY, b2n (s.eng 5).main.isSome), (LOM_STATUS.FRAMES_VALID, (s.loam.frames.filter (fun e => e.2.isSome)).length),
    (LOM_STATUS.TRACKS, (s.loam.tracks.filter (fun e => e.2.isSome)).length)]

/-- Tilth (R488, R503, R506). -/
def State.tltStatus (s : State) : Word :=
  fields (s.rd TLT_STATUS.addr) [(TLT_STATUS.MISMATCHES, Nat.min 3 (s.tilth.recent s.cyc).length),
    (TLT_STATUS.CTX_EN, sumN ((List.range 4).map (fun c => s.fld (TLT_CFG.EN c) * 2 ^ c)))]
def State.lawWord (s : State) (c : Nat) : Word :=
  let x := s.ctx c
  fields (s.rd (TLT_LAW_CMD.addr c)) [(TLT_LAW_CMD.BUSY c, b2n x.loading.isSome), (TLT_LAW_CMD.PENDING c, b2n x.pend.isSome), (TLT_LAW_CMD.ACTIVE c, b2n x.law.isSome)]

/-- A power domain (R699, R700). -/
def State.pdWord (s : State) (d : Nat) : Word := fields (s.rd (PMU_PD.addr d)) [(PMU_PD.STATE d, s.pdState d)]

/-- Offset o of the island's page for master m (R720, R723–R725): what a first word has latched, else the live copy. -/
def State.mtiWord (s : State) (m o : Nat) : Word :=
  let latched := fun (l : List (Nat × List Byte)) (now : List Byte) => let x := Sparse.get (fun _ => []) l m; if x.isEmpty then now else x
  let word := fun (l : List Byte) (k : Nat) => BitVec.ofNat 32 (leAt l k 4)
  if o = 0 then fields (s.rd MTI_STATUS.addr) [(MTI_STATUS.SEALED, b2n s.mtiStore.fuse)]
  else if o = 12 then BitVec.ofNat 32 s.paramCrc
  else if o = 0x100 then word s.snapNow 0
  else if o = 0x1000 then word s.sweepNow 0
  else if 0x100 < o ∧ o < 0x140 then word (latched s.mti.snapLatch s.snapNow) (o - 0x100)
  else if 0x1000 < o ∧ o < 0x1420 then word (latched s.mti.sweepLatch s.sweepNow) (o - 0x1000)
  else if 0x8000 ≤ o then match s.mtiStore.audit.find? (fun e => e.1 == (o - 0x8000) / 32) with
    | some e => word e.2 (o % 32)
    | none => 0
  else s.rd (0x15000000 + o)

/-- Registers of the Deckle and the Quire that show something live. -/
def State.liveDck (s : State) (b : Nat) (i : Nat → Nat) (a : Nat) : Word :=
  if b = DCK_DL_NOW.addr then BitVec.ofNat 32 s.dlNow
  else if b = DCK_INFLIGHT.addr then BitVec.ofNat 32 (sumN (s.queues.map (fun e => e.2.inflight)))
  else if b = DCK_SAVE_SLOT.addr 0 then
    fields (s.rd a) [(DCK_SAVE_SLOT.SLOTS_FREE (i 0), s.fld (DCK_SAVE_SLOT.SLOTS (i 0)) - (s.slotsUsed (i 0)).length)]
  else if b = DCK_CLU_STATE.addr 0 then s.cluStateWord (i 0)
  else if b = DCK_QUEUE_STATUS.addr 0 then s.queueStatus (i 0)
  else if b = QUI_BATCH.addr 0 then s.batchWord (i 0)
  else if b = QUI_SLOT.addr 0 0 then BitVec.ofNat 32 (leAt (s.slot (i 0)).bytes (4 * i 1) 4)
  else s.rd a

/-- Registers of the robotics engines and Tilth. -/
def State.liveEngines (s : State) (b : Nat) (i : Nat → Nat) (a : Nat) : Word :=
  if b = DUN_STATUS.addr 0 then s.dunStatus (i 0)
  else if b = DUN_OCC_GEN.addr 0 then BitVec.ofNat 32 (s.dune (i 0)).gen
  else if b = DUN_SLOT.addr 0 0 then s.dunSlot (i 0) (i 1) false
  else if b = DUN_SLOT_GEN.addr 0 0 then s.dunSlot (i 0) (i 1) true
  else if b = SLV_STATUS.addr 0 then s.slvStatus (i 0)
  else if b = SLV_SLOT.addr 0 0 then s.slvSlotWord (i 0) (i 1) false
  else if b = SLV_SLOT_GEN.addr 0 0 then s.slvSlotWord (i 0) (i 1) true
  else if b = LOM_STATUS.addr then s.lomStatus
  else if b = LOM_FRAME_GEN.addr then BitVec.ofNat 32 s.loam.gen
  else if b = TLT_STATUS.addr then s.tltStatus
  else if b = TLT_LAW_CMD.addr 0 then s.lawWord (i 0)
  else if b = TLT_IN.addr 0 0 then BitVec.ofNat 32 (Sparse.get (fun _ => 0) (s.ctx (i 0)).live (i 1))
  else s.rd a

/-- The live word of the register at a, as master m reads it. -/
def State.live (s : State) (m a : Nat) : Word :=
  match regAt a with
  | none => 0
  | some d =>
    let x := regIdx d a
    let b := x.1
    let i := getAt (0 : Nat) x.2
    let r := a / 0x1000000
    if r = 0x20 ∨ r = 0x21 then s.liveDck b i a
    else if 0x40 ≤ r ∧ r ≤ 0x43 then s.liveEngines b i a
    else if 0x30 ≤ r ∧ r < 0x34 then
      (if b = CLU_CAL_STATUS.addr 0 then s.calStatus (i 0) else if b = CLU_BTR_STATUS.addr 0 then s.btrStatus (i 0) else s.rd a)
    else if r = 0x15 then s.mtiWord m (a % 0x1000000)
    else if 0x50400000 ≤ a ∧ a < 0x50420000 then s.liveAplic b (i 0) (i 1) a
    else if b = MGT_BOOT_STATUS.addr then s.bootStatus
    else if b = ITG_BROKE_STATUS.addr then fields (s.rd a) [(ITG_BROKE_STATUS.FULL, b2n (decide (s.brokeSize ≤ s.brokeFill)))]
    else if b = ITG_FT_STATUS.addr then fields (s.rd a) [(ITG_FT_STATUS.ACTIVE, s.ftActive), (ITG_FT_STATUS.PENDING, s.ftPending)]
    else if b = ITG_PROV.addr 0 then fields 0 [(ITG_PROV.OPEN (i 0), (s.trackersOf (i 0)).length), (ITG_PROV.NEXT_SEQ (i 0), s.provSeq (i 0))]
    else if b = TIM_NOW_LO.addr then BitVec.ofNat 32 s.now
    else if b = TIM_NOW_HI.addr then BitVec.ofNat 32 (s.now / 2 ^ 32)
    else if b = PMU_PD.addr 0 then s.pdWord (i 0)
    else if b = PMU_PD_ENERGY_LO.addr 0 then BitVec.ofNat 32 (s.energyUj (i 0))
    else if b = PMU_PD_ENERGY_HI.addr 0 then BitVec.ofNat 32 (s.energyUj (i 0) / 2 ^ 32)
    else s.rd a

/-! ## What a read does (R14, R18–R20) -/

/-- Low words of 64-bit quantities, and of the two that latch as one: a date latches its time (R669). -/
def lowBases : List Nat :=
  [MGT_FMT_DESC_LO.addr 0, DCK_LOAD_OBJ_LO.addr, DCK_SAVE_LO.addr 0, DCK_QUEUE_RING_LO.addr 0, DCK_QUEUE_CPL_LO.addr 0, QUI_POOL_LO.addr 0, QUI_META_LO.addr 0,
   MEM_PMV_RING_LO.addr 0 0, MEM_PMV_NVME_LO.addr 0 0, ITG_BROKE_LO.addr, HBX_BYTES_LO.addr 0 0, TIM_NOW_LO.addr, TIM_STEP_LO.addr, TIM_EPOCH_LO.addr,
   ETH_MAC_ADDR_LO.addr 0, ETH_NOTICE_DA_LO.addr 0, ETH_GATE_BASE_LO.addr 0, ETH_TXQ_LO.addr 0 0, ETH_RXQ_LO.addr 0 0, CSI_CTX_LO.addr 0 0,
   PCI_OB_BASE_LO.addr 0, PCI_IN_BASE_LO.addr 0, CAN_RXR_LO.addr 0 0, APC_HART_START_LO.addr 0, MGT_RTC_DATE.addr, TLT_START_LO.addr 0,
   IOM_CAP_LO.addr, IOM_DDTP_LO.addr, IOM_CQB_LO.addr, IOM_FQB_LO.addr, IOM_ICVEC_LO.addr,
   TLT_LAW_LO.addr 0, TLT_SP_LO.addr 0, TLT_TEST_TAB_LO.addr 0, TLT_TEST_CAP_LO.addr 0, PMU_PD_ENERGY_LO.addr 0]

/-- The register at a is the low word of a 64-bit quantity: the high word stands 4 bytes on. -/
def isLow (a : Nat) : Bool := match regAt a with | some d => lowBases.contains (regIdx d a).1 | none => false

/-- What a high word reads for a master: latched by its last read of the low word, if there was one (R20). -/
def latchKey (m a : Nat) : Nat := m * 2 ^ 48 + a
def State.latched (s : State) (m a : Nat) : Option Word := Sparse.get (fun _ => none) s.latches (latchKey m a)

/-- The value master m reads at a, and the state with what an input pin shows. -/
def State.shown (s : State) (m a : Nat) : State × Word :=
  match s.latched m a with
  | some w => (s, w)
  | none =>
    if 0x66000000 ≤ a ∧ a < 0x66000180 ∧ s.pinUp ((a - 0x66000000) / 4) = false then (s, 0)
    else if 0x66000000 ≤ a ∧ a < 0x66000180 then
      let r := if s.pinUp ((a - 0x66000000) / 4) then s.pinLevel ((a - 0x66000000) / 4) else (s, 0)
      (r.1, ins (s.rd a) 0 0 r.2)
    else (s, s.live m a)

/-- Bits a read clears: the RC fields go to 0, a sensor's maximum to its reset value (R14, R702). -/
def State.readClears (s : State) (a : Nat) : State :=
  match regAt a with
  | none => s
  | some d =>
    if d.rc = 0 then s
    else
      let rc := BitVec.ofNat 32 d.rc
      s.wr a ((s.rd a &&& ~~~rc) ||| (BitVec.ofNat 32 d.reset &&& rc))

/-- Master m reads the register at a: RC fields clear, a low word latches its high word, the first word of a snapshot latches the whole (R720). -/
def State.readReg (s : State) (m a : Nat) : State :=
  let s := if hbxClassReg a then s.hbxShow ((a - 0x22000000) / 0x800000) ((a % 0x800000 - 0x10000) / 64) else s
  let r := s.shown m a
  let t := r.1.readClears a
  let t := if isLow a then { t with latches := Sparse.set (fun _ => none) t.latches (latchKey m (a + 4)) (some (s.live m (a + 4))) } else t
  let t := if a = MTI_SNAP.addr 0 then t.latchMti m false else if a = MTI_SWEEP.addr 0 then t.latchMti m true else t
  t.say (.word r.2)

/-- The hart behind an access, 24 where none is named. -/
def selfHart (self : Nat) : Nat := if self ≤ 24 then self else self - 25

/-- An access that is no aligned word: a hart takes an access fault (R619), any other master a bus error (R15). -/
def State.narrow (s : State) (m self : Nat) (k : HartAccess) (a : Nat) : State :=
  if m = 0x60 then (s.start.say .accessFault).trapAt m (selfHart self) k a else s.busError

/-- A hart's access to an address in none of the ranges of R619 that harts may reach. -/
def State.nowhere (s : State) (m a : Nat) : Bool := !decide (0x10000000 ≤ a ∧ a < 0x80000000) && s.hartBarred m a 4

/-- A read of n bytes at a by master m, for its hart self; an access that R21, R628 or the registers' own section refuses is a bus error. -/
def State.busRead (s : State) (m self a n : Nat) : State :=
  if n ≠ 4 ∨ a % 4 ≠ 0 ∨ s.nowhere m a then s.narrow m self .load a else if s.mayRead m a && !lowBarred self a then s.readReg m a else s.busError

/-- RC_READ (R14, R18): a read of a register. -/
def execRcRead (m self a n : Nat) (s : State) : Host.Outcome State Fault Refusal := .next (s.start.busRead m self a n)

/-- LOW_WORD_READ (R19, R20): a read of the low word of a 64-bit quantity. -/
def execLowWordRead (m self a : Nat) (s : State) : Host.Outcome State Fault Refusal := answer (isLow a) s (s.start.busRead m self a 4)

/-! ## What a write does -/

/-- A write by access codes (R14): RW takes the bit, W1C clears and W1S sets where 1 is written; every other bit stays. -/
def codeWrite (d : RegDesc) (old w : Word) : Word :=
  let rw := BitVec.ofNat 32 d.rw
  let k := (old &&& ~~~rw) ||| (w &&& rw)
  (k &&& ~~~(w &&& BitVec.ofNat 32 d.w1c)) ||| (w &&& BitVec.ofNat 32 d.w1s)

/-- Some loaded object belongs to partition p: the registers of its scheduling and its pool stay. -/
def State.partBusy (s : State) (p : Nat) : Bool := s.objs.any (fun o => o.part == p)

/-- Registers of a Tilth context that take no write while it is enabled (R485). -/
def tltFixed (b : Nat) : Bool :=
  b == TLT_LAUNCH.addr 0 || b == TLT_START_LO.addr 0 || b == TLT_START_HI.addr 0 || b == TLT_LAW_LO.addr 0 || b == TLT_LAW_HI.addr 0 || b == TLT_GROUP.addr 0 0
    || b == TLT_FLAGS.addr 0

/-- A write to the register b with indices i is taken (the conditions the Registers sections set). -/
def State.writable (s : State) (b : Nat) (i : Nat → Nat) (w : Word) : Bool :=
  let is := fun (l : List Nat) => l.contains b
  let r := b / 0x1000000
  if r = 0x20 then
    if is [DCK_QUEUE_RING_LO.addr 0, DCK_QUEUE_RING_HI.addr 0, DCK_QUEUE_CPL_LO.addr 0, DCK_QUEUE_CPL_HI.addr 0] then !s.qOn (i 0)
    else if is [DCK_INFLIGHT_RESERVE.addr 0, DCK_PART_AGE.addr 0 0, DCK_SAVE_LO.addr 0, DCK_SAVE_HI.addr 0, DCK_SAVE_SLOT.addr 0] then !s.partBusy (i 0)
    else true
  else if r = 0x21 then
    if is [QUI_POOL_LO.addr 0, QUI_POOL_HI.addr 0, QUI_META_LO.addr 0, QUI_META_HI.addr 0, QUI_POOL_SHEETS.addr 0] then !s.partBusy (i 0) else true
  else if r = 0x23 then
    if is [MEM_PMV_RING_LO.addr 0 0, MEM_PMV_RING_HI.addr 0 0] then !s.flag (MEM_PMV_RING_CFG.EN (i 0) (i 1))
    else if is [MEM_PMV_NVME_NSID.addr 0, MEM_PMV_NVME_LO.addr 0 0, MEM_PMV_NVME_HI.addr 0 0] then !s.flag (MEM_PMV_NVME_CFG.EN (i 0))
    else if is [MEM_PMV_T2_TIMEOUT.addr 0] then bits w 15 0 != 0
    else true
  else if is [ITG_BROKE_LO.addr, ITG_BROKE_HI.addr] then !s.flag ITG_BROKE_STATUS.EN
  else if r = 0x60 then
    if is [ETH_TXQ_LO.addr 0 0, ETH_TXQ_HI.addr 0 0] then !s.flag (ETH_Q_CFG.TX_EN (i 0) (i 1))
    else if is [ETH_RXQ_LO.addr 0 0, ETH_RXQ_HI.addr 0 0] then !s.flag (ETH_Q_CFG.RX_EN (i 0) (i 1))
    else true
  else if is [CSI_CTX_LO.addr 0 0, CSI_CTX_HI.addr 0 0, CSI_CTX_CELL.addr 0 0] then !s.flag (CSI_CTX_CFG.EN (i 0) (i 1))
  else if is [CAN_NBT.addr 0, CAN_DBT.addr 0] then !s.flag (CAN_CFG.EN (i 0))
  else if is [CAN_RXR_LO.addr 0 0, CAN_RXR_HI.addr 0 0] then !s.flag (CAN_CFG.EN (i 0))
  else if is [CAN_TXB.addr 0 0 0] then !bitN (s.fld (CAN_TX_REQ.REQ (i 0))) (i 1)
  else if is [ZTH_NODE.addr] then (List.range 3).all (fun p => !s.zEn p)
  else if tltFixed b then !s.flag (TLT_CFG.EN (i 0))
  else true

/-- NVME_CFG (R361): while EN is 1 only clearing it counts; setting it starts both queues empty. -/
def State.nvmeCfg (s : State) (m : Nat) (w : Word) : State :=
  if s.flag (MEM_PMV_NVME_CFG.EN m) then (if bits w 31 31 = 0 then s.setF (MEM_PMV_NVME_CFG.EN m) 0 else s)
  else
    let t := s.wr (MEM_PMV_NVME_CFG.addr m) (w &&& 0xFF00FFFF)
    if bits w 31 31 = 1 then t.setMover m { t.mover m with sqTail := 0, cqHead := 0, cqPhase := true, reported := [] } else t

/-- HBX_i_CFG (R370, R381): a lower mark may find a class over its budget at once. -/
def State.hbxCfg (s : State) (i : Nat) (w : Word) : State := (s.wr (HBX_CFG.addr i) (w &&& 0xFFFF8FFF)).hbxHolds

/-- HBX_TBL_CTRL (R367, R377): refused while the table is copied. -/
def State.hbxCtrl (s : State) (w : Word) : State :=
  if s.flag HBX_TBL_CTRL.BUSY then s.setF HBX_TBL_CTRL.REJECT 1
  else match regAt HBX_TBL_CTRL.addr with
    | some d => s.wr HBX_TBL_CTRL.addr (codeWrite d (s.rd HBX_TBL_CTRL.addr) w)
    | none => s

/-- PCI_p_CFG (R593): MODE, MAX_WIDTH, MAX_RATE and BAR0_LOG2 stay once LOCK is set. A port whose mode changes drives PCI_p_PERST_N anew from
that moment where it is a root port (R730). -/
def State.pciCfg (s : State) (p : Nat) (d : RegDesc) (w : Word) : State :=
  let old := s.rd (PCI_CFG.addr p)
  if s.flag (PCI_CFG.LOCK p) then s else
    let t := s.wr (PCI_CFG.addr p) (codeWrite d old w)
    if t.fld (PCI_CFG.MODE p) = s.fld (PCI_CFG.MODE p) then t else (t.setPport p { t.pport p with released := false }).perstBall p

/-- DCK_LOAD_CMD (R212): OP 1 admits, 2 unloads, the others do nothing. -/
def State.loadCommand (s : State) (w : Word) : State :=
  let op := bits w 31 30
  if op = 1 then s.admitCmd else if op = 2 then s.unload (bits w 7 0) else s

/-- DCK_QUEUE_CTRL (R265). -/
def State.queueCtrl (s : State) (q : Nat) (w : Word) : State :=
  let t := if bits w 31 31 = 1 then s.cancelTask q else s
  let t := if bits w 30 30 = 1 then t.cancelAll q else t
  if bits w 29 29 = 1 then t.unhalt q else t

/-- ZTH_p_CFG (R575): EN, then RETRAIN. -/
def State.zthCfg (s : State) (p : Nat) (d : RegDesc) (w : Word) : State :=
  let t := (if bits w 31 31 = 1 then s.zEnable p else s.zDisable p)
  let t := t.wr (ZTH_CFG.addr p) (ins (codeWrite d (t.rd (ZTH_CFG.addr p)) w) 31 31 (b2n (t.zEn p)))
  if bits w 30 30 = 1 ∧ t.zActive p = true then t.zRetrainNow p else t

/-- TLT_c_SP_CTL (R491, R507): the cell's value when it is written is the one a change is seen against. -/
def State.spCtl (s : State) (c : Nat) (d : RegDesc) (w : Word) : State :=
  let t := s.wr (TLT_SP_CTL.addr c) (codeWrite d (s.rd (TLT_SP_CTL.addr c)) w)
  t.setCtx c { t.ctx c with cell := t.cell (t.fld (TLT_SP_CTL.SP_CELL c)) }

/-- ITG_POLICY (R421): a PROV_TIMEOUT of 0 stays as it was. -/
def State.policy (s : State) (w : Word) : State :=
  s.wr ITG_POLICY.addr (if bits w 27 12 = 0 then ins w 27 12 (s.fld ITG_POLICY.PROV_TIMEOUT_MS) else w)

/-- PMU_PD_d (R699): REFUSED clears where 1 is written, then the request. -/
def State.pdRegister (s : State) (d : Nat) (w : Word) : State := (if bits w 29 29 = 1 then s.setF (PMU_PD.REFUSED d) 0 else s).pdWrite d w

/-- Writes to the Deckle's and the Quire's registers that are commands. -/
def State.ownDck (s : State) (b : Nat) (i : Nat → Nat) (w : Word) : Option State :=
  let q := i 0
  if b = DCK_LOAD_CMD.addr then some (s.loadCommand w)
  else if b = DCK_CELL.addr 0 then some (s.cellSet q w.toNat false)
  else if b = DCK_CELL_ADD.addr 0 then some (s.cellAdd q w.toNat)
  else if b = DCK_QUEUE_CFG.addr 0 then some (s.writeCfg q w)
  else if b = DCK_QUEUE_DB.addr 0 then some (s.ringBell q w.toNat)
  else if b = DCK_QUEUE_CPL_HEAD.addr 0 then some (s.writeCplHead q w.toNat)
  else if b = DCK_QUEUE_CTRL.addr 0 then some (s.queueCtrl q w)
  else if b = QUI_CMD.addr 0 then some (s.quiGo q (bits w 31 24))
  else none

/-- Of memory, the Headbox, the integrity controller and the time base. -/
def State.ownMid (s : State) (b : Nat) (i : Nat → Nat) (w : Word) : Option State :=
  if b = MEM_SPLIT.addr then some (s.writeSplit w)
  else if b = MEM_PMV_RING_CFG.addr 0 0 then some (s.pmvCfg (i 0) (i 1) w)
  else if b = MEM_PMV_RING_DB.addr 0 0 then some (s.pmvBell (i 0) (i 1) w.toNat)
  else if b = MEM_PMV_NVME_CFG.addr 0 then some (s.nvmeCfg (i 0) w)
  else if b = HBX_MATCH_CTRL.addr 0 then some (s.hbxMatchWrite (i 0) w)
  else if b = HBX_TBL_CTRL.addr then some (s.hbxCtrl w)
  else if (b = HBX_MULTI_MATCH.addr ∨ b = HBX_NO_MATCH.addr) ∧ s.flag HBX_TBL_CTRL.BUSY then some (s.setF HBX_TBL_CTRL.REJECT 1)
  else if b = HBX_CFG.addr 0 then some (s.hbxCfg (i 0) w)
  else if b = HBX_MATCH_BASE.addr 0 then some (s.hbxHeldWrite (HBX_MATCH_BASE.addr (i 0)) w)
  else if b = HBX_MATCH_LIMIT.addr 0 then some (s.hbxHeldWrite (HBX_MATCH_LIMIT.addr (i 0)) w)
  else if b = HBX_CLASS.addr 0 0 then some (s.hbxClassWrite (i 0) (i 1) 0 w)
  else if b = HBX_BUDGET.addr 0 0 then some (s.hbxClassWrite (i 0) (i 1) 1 w)
  else if b = HBX_LINK_BUDGET.addr 0 0 0 then some (s.hbxClassWrite (i 0) (i 1) (2 + i 2) w)
  else if b = ITG_BROKE_STATUS.addr then some (s.brokeEnable w)
  else if b = ITG_BROKE_HEAD.addr then some (s.brokePop w.toNat)
  else if b = ITG_FT_REQ.addr then some (s.ftWrite w)
  else if b = ITG_POLICY.addr then some (s.policy w)
  else if b = TIM_RATE.addr then some (s.timRateSet w)
  else if b = TIM_CTRL.addr then some (s.timCtrl w)
  else if b = TIM_EPOCH_HI.addr then some (s.epochHi w)
  else none

/-- Of the ports and pins. -/
def State.ownPorts (s : State) (m b : Nat) (i : Nat → Nat) (d : RegDesc) (a : Nat) (w : Word) : Option State :=
  if b = ETH_Q_CFG.addr 0 0 then some (s.ethQcfg (i 0) (i 1) w)
  else if b = ETH_CLS.addr 0 0 then some (s.clsCommit (i 0) (i 1) w)
  else if [ETH_CLS_W1.addr 0 0, ETH_CLS_W2.addr 0 0, ETH_CLS_W3.addr 0 0, ZTH_ROUTE_W1.addr 0, ZTH_ROUTE_W2.addr 0].contains b then
    some (s.hold a (w &&& BitVec.ofNat 32 d.rw))
  else if b = ETH_GATE_CTRL.addr 0 then some (s.gateCtrl (i 0) w)
  else if b = ETH_TXQ_DB.addr 0 0 then some (s.ethBell (i 0) (i 1) 0 w.toNat)
  else if b = ETH_RXQ_DB.addr 0 0 then some (s.ethBell (i 0) (i 1) 1 w.toNat)
  else if b = ZTH_CFG.addr 0 then some (s.zthCfg (i 0) d w)
  else if b = ZTH_ROUTE.addr 0 then some (s.routeWrite (i 0) w)
  else if b = CSI_CFG.addr 0 then some (s.csiCfg (i 0) w)
  else if b = CSI_CTX_CFG.addr 0 0 then some (s.csiCtxCfg (i 0) (i 1) w)
  else if b = CSI_CTX_DB.addr 0 0 then some (s.csiBell (i 0) (i 1) w.toNat)
  else if b = PCI_CFG.addr 0 then some (s.pciCfg (i 0) d w)
  else if b = PCI_MSIX_TRIG.addr 0 then some (s.pMsix (i 0) w.toNat)
  else if b = XSP_CMD.addr then some (s.xspGo w)
  else if b = CAN_CFG.addr 0 then some (s.canCfg (i 0) w)
  else if b = CAN_CTRL.addr 0 then some (s.canCtrl (i 0) w)
  else if b = CAN_TX_REQ.addr 0 then some (s.canReq (i 0) w.toNat)
  else if b = CAN_RXR_DB.addr 0 0 then some (s.canBell (i 0) (i 1) w.toNat)
  else if b = GPIO_PIN.addr 0 then some (s.pinSet m (i 0) w)
  else none

/-- Of the application cores, management, power and Tilth; self: the hart that writes. -/
def State.ownSys (s : State) (m self b : Nat) (i : Nat → Nat) (d : RegDesc) (w : Word) : Option State :=
  if 0x50400000 ≤ b ∧ b < 0x50420000 then s.ownAplic b (i 0) (i 1) w
  else if 0x50500000 ≤ b ∧ b < 0x50501000 then s.ownIommu b w
  else if b = APC_HART_CTRL.addr 0 then some (s.hartCtrl m self (i 0) w)
  else if b = APC_IMSIC_M.addr 0 then some (s.imsicWrite (i 0) 6 w)
  else if b = APC_IMSIC_S.addr 0 0 then some (s.imsicWrite (i 0) (i 1) w)
  else if b = MGT_FMT_DESC_LO.addr 0 then some (s.fmtLo (i 0) w)
  else if b = MGT_FMT_DESC_HI.addr 0 then some (s.fmtHi (i 0) w)
  else if b = MGT_MBX_DB.addr then some (s.mbxDb w)
  else if b = MGT_RTC_SET_DATE.addr then some (s.rtcSetWord true w)
  else if b = MGT_RTC_SET_TIME.addr then some (s.rtcSetWord false w)
  else if b = MGT_RTC_CTRL.addr then some (s.rtcCtrl w)
  else if b = PMU_CAP.addr then some (s.capWrite w)
  else if b = PMU_RAIL_FAULT.addr 0 then some (s.restoreAsk (i 0) w)
  else if b = PMU_PD.addr 0 then some (s.pdRegister (i 0) w)
  else if b = TLT_CTRL.addr then some (s.tltCtrl w)
  else if b = TLT_CFG.addr 0 then some (s.tltCfg (i 0) w)
  else if b = TLT_LAW_CMD.addr 0 then some (s.lawCmd (i 0) w)
  else if b = TLT_SP_CTL.addr 0 then some (s.spCtl (i 0) d w)
  else if b = TLT_TEST_CFG.addr 0 then some (s.testCfg (i 0) w)
  else if b = TLT_IN.addr 0 0 then some (s.tltInput (i 0) (i 1) w.toNat)
  else if b = TLT_COMMIT.addr 0 then some (s.tltCommit (i 0) (bits w 15 0))
  else none

/-- A word written to the register at a by master m, once the access is allowed. An offset that holds no register ignores it (R21). -/
def State.writeReg (s : State) (m self a : Nat) (w : Word) : State :=
  match regAt a with
  | none => s
  | some d =>
    let x := regIdx d a
    let b := x.1
    let i := getAt (0 : Nat) x.2
    let own := match s.ownDck b i w with
      | some t => some t
      | none => match s.ownMid b i w with
        | some t => some t
        | none => match s.ownPorts m b i d a w with
          | some t => some t
          | none => s.ownSys m self b i d w
    match own with
    | some t => t
    | none => if s.writable b i w then (s.wr a (codeWrite d (s.rd a) w)).senseAt a else s

/-- A write of n bytes at a; one that is refused changes nothing. -/
def State.busWrite (s : State) (m self a n : Nat) (w : Word) : State :=
  if n ≠ 4 ∨ a % 4 ≠ 0 ∨ s.nowhere m a then s.narrow m self .store a else if s.mayWrite m a && !lowBarred self a then s.writeReg m self a w else s.busError

/-- REGISTER_WRITE (R14–R17): master m, for its hart self (24 where none is named), writes w, n bytes wide, at a. -/
def execRegisterWrite (m self a n w : Nat) (s : State) : Host.Outcome State Fault Refusal :=
  .next (s.start.busWrite m self a n (BitVec.ofNat 32 w))

end Sys2Proof.Machine
end

