-- ==== Sys2Proof/Machine/Image.lean ====
section
/-! DEFINITION. The configuration image in the boot flash (R636–R652, R691–R693): slots and their checks, the section table, and for every section
what makes it invalid and what it loads. -/
namespace Sys2Proof.Machine

/-! ## Reasons and codes (R638, R640) -/

def rsnNoCommit : Nat := 1
def rsnHeader : Nat := 2
def rsnVersion : Nat := 3
def rsnKey : Nat := 4
def rsnSignature : Nat := 5
def rsnRollback : Nat := 6
def rsnVariant : Nat := 7
def rsnHash : Nat := 8
def rsnTable : Nat := 9
def rsnRead : Nat := 0x0A
def rsnNotTried : Nat := 0x0B

/-! ## Slots (R636, R637, R641, R644) -/

/-- First byte of a slot, and of its commit sector. -/
def slotBase (k : Nat) : Nat := k * 0x2000000
def commitBase (k : Nat) : Nat := slotBase k + 0x1FF0000

/-- n bytes at an offset of slot k as a little-endian number. -/
def State.img (s : State) (k off n : Nat) : Nat := leNat (s.flashAt (slotBase k + off) n)

def State.imgCount (s : State) (k : Nat) : Nat := s.img k 6 2
def State.imgLen (s : State) (k : Nat) : Nat := s.img k 8 4
def State.imgIsn (s : State) (k : Nat) : Nat := s.img k 12 4
def State.imgRollback (s : State) (k : Nat) : Nat := s.img k 16 4

/-- A section-table entry: its index, TYPE, OFFSET, SIZE, and whether its reserved bytes are 0. -/
structure ImgSection where
  idx : Nat
  typ : Nat
  off : Nat
  size : Nat
  clean : Bool
deriving DecidableEq, Repr

/-- Entry i of slot k's table. -/
def State.imgSection (s : State) (k i : Nat) : ImgSection :=
  let a := 256 + 64 * i
  ⟨i, s.img k a 2, s.img k (a + 4) 4, s.img k (a + 8) 4, s.img k (a + 2) 2 == 0 && s.img k (a + 12) 4 == 0⟩
def State.imgSections (s : State) (k : Nat) : List ImgSection := (List.range (Nat.min 32 (s.imgCount k))).map (s.imgSection k)

/-- A commit record is present (R637). -/
def State.committed (s : State) (k : Nat) : Bool :=
  let b := s.flashAt (commitBase k) 32
  b.take 4 == [0x43, 0x4F, 0x4D, 0x54] && leAt b 28 4 == crc32c (b.take 28) && leAt b 4 4 == s.imgLen k && leAt b 8 4 == s.imgIsn k

/-- Types the table may hold, and those it must. -/
def typeKnown (t : Nat) : Bool := decide (1 ≤ t ∧ t ≤ 0x0B) || decide (0x0100 ≤ t ∧ t ≤ 0xFFFF)
def typesNeeded : List Nat := [1, 2, 4, 7, 0x0B]

/-- Two neighbours of the table: types and offsets ascend, sections do not meet. -/
def sectionsAscend : List ImgSection → Bool
  | a :: b :: l => decide (a.typ < b.typ ∧ a.off < b.off ∧ a.off + a.size ≤ b.off) && sectionsAscend (b :: l)
  | _ => true

/-- The header and section table follow R641 and R644. -/
def State.headerRight (s : State) (k : Nat) : Bool :=
  let n := s.imgCount k
  let ss := s.imgSections k
  s.flashAt (slotBase k) 4 == [0x53, 0x52, 0x50, 0x4E] && decide (1 ≤ n ∧ n ≤ 32 ∧ 256 + 64 * n ≤ s.imgLen k ∧ s.imgLen k ≤ 33488896)
    && decide (s.imgRollback k ≤ 64 ∧ s.img k 24 1 < 2 ∧ s.img k 25 1 ≤ 23) && s.img k 26 6 == 0 && s.img k 224 32 == 0
    && ss.all (fun e => e.clean && typeKnown e.typ && e.off % 64 == 0 && decide (256 + 64 * n ≤ e.off ∧ e.off + e.size ≤ s.imgLen k))
    && sectionsAscend ss && typesNeeded.all (fun t => ss.any (fun e => e.typ == t))

/-- The version negotiates at 1 (R642). -/
def State.versionRight (s : State) (k : Nat) : Bool := decide (s.img k 4 1 ≤ 1 ∧ 1 ≤ s.img k 5 1)

/-- The hash of the image's public key, and the key it matches (R643). -/
def State.imgKeyHash (s : State) (k : Nat) : Nat := beNat (sha384 (s.flashAt (slotBase k + 32) 96))
def State.keyRight (s : State) (k : Nat) : Bool := s.fuses.keyHash == 0 || s.imgKeyHash k == s.fuses.keyHash

/-- The signature verifies (R643). -/
def State.sigRight (s : State) (k : Nat) : Bool :=
  let be := fun (off : Nat) => beNat (s.flashAt (slotBase k + off) 48)
  let msg := s.flashAt (slotBase k) 128 ++ s.flashAt (slotBase k + 224) (32 + 64 * s.imgCount k)
  ecdsaOk (be 32, be 80) (beNat (sha384 msg)) (be 128) (be 176)

/-- VARIANT agrees with MGT_VARIANT (R13, R641). -/
def State.variantRight (s : State) (k : Nat) : Bool :=
  let mask := if s.img k 24 1 % 2 = 1 then 0xFFFFFEFF else 0xFFFFFFFF
  Nat.land (s.img k 20 4) mask == Nat.land (s.rd MGT_VARIANT.addr).toNat mask

/-- Checks 3–8 of R638: the first failure's REASON, 0 for none. -/
def State.slotContent (s : State) (k : Nat) : Nat :=
  if !s.headerRight k then rsnHeader
  else if !s.versionRight k then rsnVersion
  else if !s.keyRight k then rsnKey
  else if !s.sigRight k then rsnSignature
  else if s.imgRollback k < s.fuses.rollback then rsnRollback
  else if !s.variantRight k then rsnVariant
  else 0

/-- All checks of R638; unread: the header or section table cannot be read. -/
def State.slotCheck (s : State) (k : Nat) (unread : Bool) : Nat :=
  if unread then rsnRead else if !s.committed k then rsnNoCommit else s.slotContent k

/-! ## Sections -/

/-- A section's bytes, as a number at an offset of it. -/
def State.sec (s : State) (k : Nat) (e : ImgSection) (off n : Nat) : Nat := s.img k (e.off + off) n
def State.secBytes (s : State) (k : Nat) (e : ImgSection) (off n : Nat) : List Byte := s.flashAt (slotBase k + e.off + off) n

/-- The section's hash holds (R640). -/
def State.hashRight (s : State) (k : Nat) (e : ImgSection) : Bool :=
  sha384 (s.secBytes k e 0 e.size) == s.flashAt (slotBase k + 256 + 64 * e.idx + 16) 48

/-- A register takes a word of the image, which is also what a reset of its domain gives it (R644). -/
def State.imgSet (s : State) (a : Nat) (w : Word) : State :=
  { s.wr a w with imageRegs := Sparse.set (fun _ => none) s.imageRegs a (some w) }

/-! ### VF_CURVES (R691) -/

/-- Highest OP_MHZ of a curve (R53), 0 where the spec gives none. -/
def curveMax (c : Nat) : Nat := getAt 0 [1300, 1600, 1200, 1000, 2600, 1000, 0, 0] c
/-- The range of the voltages of a curve: of every rail it feeds (R672). -/
def curveRange (c : Nat) : Nat × Nat := getAt (0, 0) [(550, 900), (600, 900), (550, 900), (550, 900), (600, 1000), (750, 750), (700, 950), (0, 0)] c

/-- The points of curve c. -/
def curvePoints (rd : Nat → Nat → Nat) (c : Nat) : List (Nat × Nat) :=
  (List.range (rd (72 * c) 1)).map (fun i => (rd (72 * c + 8 + 4 * i) 2, rd (72 * c + 10 + 4 * i) 2))

/-- Numbers that strictly ascend. -/
def strictUp : List Nat → Bool
  | a :: b :: l => decide (a < b) && strictUp (b :: l)
  | _ => true

def vfCurveOk (rd : Nat → Nat → Nat) (c : Nat) : Bool :=
  let n := rd (72 * c) 1
  let op := rd (72 * c + 4) 2
  let ps := curvePoints rd c
  let r := curveRange c
  if c = 7 then rd (72 * c) 72 == 0
  else decide (1 ≤ n ∧ n ≤ 16) && rd (72 * c + 1) 3 == 0 && rd (72 * c + 6) 2 == 0 && strictUp (ps.map (·.1))
    && (List.range 16).all (fun i => decide (i < n) || rd (72 * c + 8 + 4 * i) 4 == 0)
    && decide ((ps.head?.map (·.1)).getD 0 ≤ op ∧ op ≤ (ps.getLast?.map (·.1)).getD 0) && (curveMax c == 0 || decide (op ≤ curveMax c))
    && ps.all (fun p => decide (r.1 ≤ p.2 ∧ p.2 ≤ r.2)) && (c != 6 || n == 1)

def vfOk (rd : Nat → Nat → Nat) (size : Nat) : Bool := size == 576 && (List.range 8).all (vfCurveOk rd)

/-- The voltage at f on a curve, rounded up to 5 mV. -/
def curveVolt (f : Nat) : List (Nat × Nat) → Nat
  | p :: q :: l =>
    if f ≤ q.1 then
      let den := q.1 - p.1
      (p.2 * (q.1 - f) + q.2 * (f - p.1) + 5 * den - 1) / (5 * den) * 5
    else curveVolt f (q :: l)
  | [p] => (p.2 + 4) / 5 * 5
  | [] => 0

/-- Operating frequencies by curve, and voltages of rails 0–5. -/
def vfMhz (rd : Nat → Nat → Nat) : List Nat := (List.range 8).map (fun c => rd (72 * c + 4) 2)
def vfRails (rd : Nat → Nat → Nat) : List Nat :=
  let v := fun (c : Nat) => curveVolt (rd (72 * c + 4) 2) (curvePoints rd c)
  let cmp := maxN [v 0, v 1, v 2, v 3]
  let apc := maxN [v 4, v 1]
  [cmp, cmp, maxN [v 6, cmp + 50, apc - 50], apc, v 5, v 5]

def State.vfLoad (s : State) (rd : Nat → Nat → Nat) : State := { s with running := { s.running with mhz := vfMhz rd, mv := vfRails rd } }

/-! ### POWER_SEQ (R692) -/

/-- The entries as kind and index. -/
def seqEntries (rd : Nat → Nat → Nat) : List (Nat × Nat) := (List.range (rd 0 2)).map (fun i => (rd (4 + 4 * i) 1, rd (5 + 4 * i) 1))

/-- Rails that feed a domain of the sequence and that the sequence must bring up; VDD_IO_0 is up before it starts, yet comes first where it is
listed (State.seqOk). -/
def seqRails (d : Nat) : List Nat := if d = 36 then [0, 2] else if d = 76 then [1, 2] else if 90 ≤ d then [5] else []
/-- The CORE domain of an I/O domain's die. -/
def seqCore (d : Nat) : Nat := if 90 ≤ d then 90 else if 80 ≤ d then 83 else d

/-- The place of an entry in the sequence. -/
def seqPos (l : List (Nat × Nat)) (e : Nat × Nat) : Nat := (l.takeWhile (fun x => x != e)).length

/-- Domains on at the end of step 4.2. -/
def State.seqDomains (s : State) : List Nat := ([36, 76] ++ (List.range 16).map (fun i => 80 + i)).filter s.pdPresent

def State.seqOk (s : State) (rd : Nat → Nat → Nat) (size : Nat) : Bool :=
  let n := rd 0 2
  let l := seqEntries rd
  let early := fun (a b : Nat × Nat) => decide (seqPos l a < seqPos l b)
  decide (1 ≤ n ∧ n ≤ 64) && size == 4 + 4 * n && rd 2 2 == 0 && l.Nodup
    && l.all (fun e => if e.1 = 0 then decide (e.2 < 10) && (e.2 != 5 || s.iod1) else e.1 == 1 && s.seqDomains.contains e.2)
    && s.seqDomains.all (fun d => decide (80 ≤ d ∧ d < 84) || l.contains (1, d))
    && l.all (fun e => e.1 == 0 || (seqRails e.2).all (fun r => early (0, r) e)
        && (!(l.contains (0, 4) && decide (82 ≤ e.2 ∧ e.2 < 90)) || early (0, 4) e)
        && (seqCore e.2 == e.2 || !l.contains (1, seqCore e.2) || early (1, seqCore e.2) e))

/-- Rails and domains of a list on, up to the entry that fails, if one does. -/
def State.seqRun (s : State) (l : List (Nat × Nat)) (fail : Option (Nat × Nat)) : State :=
  (l.takeWhile (fun e => some e != fail)).foldl (fun (t : State) e => if e.1 = 1 then t.setPd e.2 2 else t.railSwitch e.2 true) s

/-! ### PIN_MUX (R645) -/

/-- The size, and the low bits of every word that is not ignored (words 64 to 95 are on X1). -/
def State.pinMuxOk (s : State) (rd : Nat → Nat → Nat) (size : Nat) : Bool :=
  size == 384 && (List.range 96).all (fun n => !s.pinUp n || rd (4 * n) 4 % 0x800000 == 0)

/-- A pin's word, and the park interval passed. -/
def State.pinLoad (s : State) (n : Nat) (w : Word) : State :=
  if !s.pinUp n then s
  else (s.imgSet (GPIO_PIN.addr n) w).setPin n { s.pin n with func := bits w 31 29 }
def State.pinMuxLoad (s : State) (rd : Nat → Nat → Nat) : State :=
  (List.range 96).foldl (fun (t : State) n => t.pinLoad n (BitVec.ofNat 32 (rd (4 * n) 4))) s

/-! ### PARTITIONS (R201, R202, R646) -/

/-- A partition record of 128 bytes, read by offset. -/
def prOn (r : Nat → Nat → Nat) : Bool := r 0 1 == 1
def prAreas (r : Nat → Nat → Nat) : List (Nat × Nat) :=
  [(r 84 6, r 90 1 * r 91 1 * 65536), (r 92 6, r 104 4 * 65536), (r 98 6, 6 * r 104 4)]

/-- Areas that are not empty lie in the window and apart. -/
def areasOk (lo hi : Nat) : List (Nat × Nat) → Bool
  | [] => true
  | a :: l => (a.2 == 0 || (decide (lo ≤ a.1 ∧ a.1 + a.2 ≤ hi + 1) && l.all (fun b => b.2 == 0 || decide (a.1 + a.2 ≤ b.1 ∨ b.1 + b.2 ≤ a.1))))
    && areasOk lo hi l

/-- One record by itself (R646). -/
def State.partRecordOk (s : State) (r : Nat → Nat → Nat) : Bool :=
  if r 0 1 = 0 then r 1 127 == 0
  else r 0 1 == 1 && r 1 7 == 0 && r 22 2 == 0 && r 31 1 == 0 && r 38 2 == 0 && r 46 18 == 0 && r 108 20 == 0
    && decide (r 28 2 ≤ 1024 ∧ r 30 1 < 32 ∧ dramBase ≤ r 32 6 ∧ r 32 6 ≤ r 40 6 ∧ r 40 6 < s.metaBase)
    && decide (r 16 2 + r 18 2 ≤ 32768 ∧ r 20 2 + r 24 4 ≤ 65536)
    && (List.range 4).all (fun b => decide (r (68 + 4 * b) 4 < 2 ^ 31))
    && r 84 6 % 65536 == 0 && r 92 6 % 65536 == 0 && r 98 6 % 65536 == 0 && decide (r 104 4 ≤ 4194304)
    && (if r 90 1 = 0 then r 91 1 == 0 else decide (1 ≤ r 91 1 ∧ r 91 1 ≤ 65))
    && areasOk (r 32 6) (r 40 6) (prAreas r)

/-- Two enabled records own nothing in common (R202). -/
def runsApart (a n b m : Nat) : Bool := n == 0 || m == 0 || decide (a + n ≤ b ∨ b + m ≤ a)
def recordsApart (x y : Nat → Nat → Nat) : Bool :=
  !(prOn x && prOn y) || (Nat.land (x 8 8) (y 8 8) == 0 && runsApart (x 16 2) (x 18 2) (y 16 2) (y 18 2) && runsApart (x 20 2) (x 24 4) (y 20 2) (y 24 4))

/-- A whole table of records. -/
def State.partTableOk (s : State) (rs : List (Nat → Nat → Nat)) : Bool :=
  let on := rs.filter prOn
  rs.all s.partRecordOk && decide (sumN (on.map (fun r => r 28 2)) ≤ 1024 ∧ sumN (on.map (fun r => r 64 4)) ≤ 6144)
    && (List.range rs.length).all (fun i => (List.range i).all (fun j =>
      recordsApart (getAt (fun _ _ => 0) rs i) (getAt (fun _ _ => 0) rs j)))

/-- Registers a record loads for partition p, as address and word. -/
def partWords (p : Nat) (r : Nat → Nat → Nat) : List (Nat × Nat) :=
  (List.range 16).map (fun w => (DCK_PART_REC.addr p w, r (4 * w) 4))
    ++ [(DCK_INFLIGHT_RESERVE.addr p, r 64 4 % 8192)]
    ++ (List.range 4).map (fun b => (DCK_PART_AGE.addr p b, r (68 + 4 * b) 4))
    ++ [(DCK_SAVE_LO.addr p, r 84 4), (DCK_SAVE_HI.addr p, r 88 2 * 65536), (DCK_SAVE_SLOT.addr p, r 90 1 * 2 ^ 24 + r 91 1 * 2 ^ 16),
        (QUI_POOL_LO.addr p, r 92 4), (QUI_POOL_HI.addr p, r 96 2 * 65536), (QUI_META_LO.addr p, r 98 4), (QUI_META_HI.addr p, r 102 2 * 65536),
        (QUI_POOL_SHEETS.addr p, r 104 4)]
def State.partLoad (s : State) (p : Nat) (r : Nat → Nat → Nat) : State :=
  (partWords p r).foldl (fun (t : State) e => t.imgSet e.1 (BitVec.ofNat 32 e.2)) s

/-- Record p of the section. -/
def partOf (rd : Nat → Nat → Nat) (p : Nat) : Nat → Nat → Nat := fun off n => rd (128 * p + off) n
def State.partsOk (s : State) (rd : Nat → Nat → Nat) (size : Nat) : Bool := size == 1024 && s.partTableOk ((List.range 8).map (partOf rd))
def State.partsLoad (s : State) (rd : Nat → Nat → Nat) : State := (List.range 8).foldl (fun (t : State) p => t.partLoad p (partOf rd p)) s

/-! ### HEADBOX (R647) -/

/-- Registers of the section, as address, offset and the bits that may be set. -/
def hbxWords : List (Nat × Nat × Nat) :=
  (List.range 64).flatMap (fun e => [(HBX_MATCH_CTRL.addr e, 4 + 12 * e, 0xF01FFFFF), (HBX_MATCH_BASE.addr e, 8 + 12 * e, 0xFFFFFFFF),
    (HBX_MATCH_LIMIT.addr e, 12 + 12 * e, 0xFFFFFFFF)])
  ++ [0, 1].flatMap (fun i => (HBX_CFG.addr i, 772 + 644 * i, 0xFFFF8FFF) :: (List.range 32).flatMap (fun c =>
    let o := 776 + 644 * i + 20 * c
    [(HBX_CLASS.addr i c, o, 0xFFFCFFFF), (HBX_BUDGET.addr i c, o + 4, 0xFFFFFFFF), (HBX_LINK_BUDGET.addr i c 0, o + 8, 0xFFFFFFFF),
     (HBX_LINK_BUDGET.addr i c 1, o + 12, 0xFFFFFFFF), (HBX_LINK_BUDGET.addr i c 2, o + 16, 0xFFFFFFFF)]))

def hbxOk (rd : Nat → Nat → Nat) (size : Nat) : Bool :=
  size == 2060 && Nat.land (rd 0 4) 0xFFE0FFFF == 0 && hbxWords.all (fun e => Nat.land (rd e.2.1 4) e.2.2 == rd e.2.1 4)
    && (List.range 64).all (fun e => !bitN (rd (4 + 12 * e) 4) 30 || decide (rd (8 + 12 * e) 4 ≤ rd (12 + 12 * e) 4))
    && [0, 1].all (fun i => (List.range 32).all (fun c => decide (rd (776 + 644 * i + 20 * c) 4 / 2 ^ 28 ≤ 12)))

/-- Budgets of the link that X1 does not have are left alone. -/
def link2 (a : Nat) : Bool := (List.range 2).any (fun i => (List.range 32).any (fun c => a == HBX_LINK_BUDGET.addr i c 2))
def State.hbxLoad (s : State) (rd : Nat → Nat → Nat) : State :=
  hbxWords.foldl (fun (t : State) e => if !s.iod1 && link2 e.1 then t else t.imgSet e.1 (BitVec.ofNat 32 (rd e.2.1 4)))
    (s.imgSet HBX_TBL_CTRL.addr (BitVec.ofNat 32 (rd 0 4)))

/-! ### FORMATS (R648) -/

def formatsOk (rd : Nat → Nat → Nat) (size : Nat) : Bool :=
  size == 96 && (List.range 12).all (fun i => rd (8 * i) 8 == 0 || (Fmt.ofWords (rd (8 * i) 4) (rd (8 * i + 4) 4)).valid)
def State.formatsLoad (s : State) (rd : Nat → Nat → Nat) : State :=
  (List.range 12).foldl (fun (t : State) i =>
    let f := Fmt.ofWords (rd (8 * i) 4) (rd (8 * i + 4) 4)
    (t.imgSet (MGT_FMT_DESC_LO.addr (20 + i)) (BitVec.ofNat 32 f.lo)).imgSet (MGT_FMT_DESC_HI.addr (20 + i)) (BitVec.ofNat 32 f.hi)) s

/-! ### THERMAL (R693) -/

/-- Highest junction temperature of the grade (R8). -/
def State.gradeMax (s : State) : Int := if s.flag MGT_VARIANT.TEMP_GRADE then 105 else 95
/-- Most phases a rail may have, 0 for a rail the variant lacks (R672). -/
def State.phaseMax (s : State) (r : Nat) : Nat := if r = 5 ∧ s.iod1 = false then 0 else getAt 0 [16, 16, 8, 8, 4, 4] r

def State.thermalOk (s : State) (rd : Nat → Nat → Nat) (size : Nat) : Bool :=
  let t := fun (o : Nat) => signed 8 (rd o 1)
  size == 128 && decide (40 ≤ rd 0 2 ∧ rd 0 2 ≤ 300 ∧ rd 2 1 ≤ 1) && (rd 2 1 == 1 || decide (rd 0 2 ≤ 120))
    && decide (rd 3 1 ≤ 64 ∧ rd 4 1 ≤ 20 ∧ rd 5 1 ≤ 20 ∧ 1 ≤ rd 6 2 ∧ 1 ≤ rd 8 2) && rd 16 5 == 0
    && (List.range 6).all (fun r => if s.phaseMax r = 0 then rd (21 + r) 1 == 0
      else decide (1 ≤ rd (10 + r) 1 ∧ 1 ≤ rd (21 + r) 1 ∧ rd (21 + r) 1 ≤ s.phaseMax r))
    && decide (5 ≤ rd 27 1 ∧ rd 27 1 ≤ 100 ∧ rd 28 1 ≤ 63 ∧ 16 ≤ rd 29 2 ∧ rd 31 1 ≤ 63 ∧ rd 35 1 ≤ 1)
    && decide (t 32 < t 33 ∧ t 33 ≤ s.gradeMax ∧ s.gradeMax < t 34 ∧ t 34 ≤ s.gradeMax + 5) && rd 36 92 == 0

def State.thermalLoad (s : State) (rd : Nat → Nat → Nat) : State :=
  let x : Thermal :=
    { coldPlate := rd 2 1 == 1, qFloor := rd 3 1, guard := rd 4 1, margin := rd 5 1, dInit := rd 6 2, testMw := rd 8 2,
      iMax := (List.range 6).map (fun r => rd (10 + r) 1), phases := (List.range 6).map (fun r => rd (21 + r) 1), droopMv := rd 27 1, droopQ := rd 28 1,
      droopHold := rd 29 2, qMin := rd 31 1, tThr := signed 8 (rd 32 1), tLim := signed 8 (rd 33 1), tShut := signed 8 (rd 34 1) }
  let t := { s with thermal := x, pmu := { s.pmu with cap := rd 0 2 } }
  let t := (t.imgSet PMU_CAP.addr (BitVec.ofNat 32 (rd 0 2))).imgSet PMU_PD_CTRL.addr (BitVec.ofNat 32 (rd 35 1 * 2 ^ 31))
  (List.range 64).foldl (fun (u : State) p => u.imgSet (PMU_PHASE_D.addr p) (BitVec.ofNat 32 x.dInit)) t

/-! ### TILTH (R649) -/

/-- Offsets of the four context records: each begins where the law before it, padded to 64 bytes, ends. -/
def tiltOffsets (rd : Nat → Nat → Nat) : Nat → Nat → List Nat
  | 0, o => [o]
  | n + 1, o => o :: tiltOffsets rd n (o + 128 + alignUp (rd (o + 84) 4) 64)

/-- Record c of the section. -/
def tiltRec (rd : Nat → Nat → Nat) (c : Nat) : Nat := getAt 0 (tiltOffsets rd 4 0) c

/-- One context record: its law holds under codes 1–7 of R494, EN holds under R485. -/
def State.tiltRecOk (_s : State) (rd : Nat → Nat → Nat) (by' : Nat → Nat → List Byte) (c : Nat) : Bool :=
  let o := tiltRec rd c
  let lb := rd (o + 84) 4
  let law := fun (off n : Nat) => rd (o + 128 + off) n
  let period := rd o 4 % 2 ^ 21
  let launch := rd (o + 4) 4
  rd (o + 88) 40 == 0 && (by' (o + 128 + lb) (alignUp lb 64 - lb)).all (fun b => b == 0)
    && (lb == 0 || (lawError law (fun n => by' (o + 128) n) (fun _ => false) == 0 && lawBytes law == lb))
    && (!bitN (rd o 4) 31 || (lb != 0 && decide (50000 ≤ period ∧ period ≤ 2000000 ∧ 2000 ≤ launch ∧ launch ≤ period)))
def State.tiltOk (s : State) (rd : Nat → Nat → Nat) (by' : Nat → Nat → List Byte) (size : Nat) : Bool :=
  size == tiltRec rd 4 && (List.range 4).all (s.tiltRecOk rd by')

/-- A context's registers and law; EN as if 0. -/
def State.tiltLoadOne (s : State) (rd : Nat → Nat → Nat) (c : Nat) : State :=
  let o := tiltRec rd c
  let w := fun (off mask : Nat) => BitVec.ofNat 32 (Nat.land (rd (o + off) 4) mask)
  let t := ((((s.imgSet (TLT_CFG.addr c) (w 0 0x7F1FFFFF)).imgSet (TLT_LAUNCH.addr c) (w 4 0x1FFFFF)).imgSet (TLT_START_LO.addr c) (w 8 0xFFFFFFFF)).imgSet
    (TLT_START_HI.addr c) (w 12 0xFFFFFFFF)).imgSet (TLT_SP_CTL.addr c) (w 16 0xFFFFFFFF)
  let t := (List.range 16).foldl (fun (u : State) g => u.imgSet (TLT_GROUP.addr c g) (w (20 + 4 * g) 0xFFFFFFFF)) t
  if rd (o + 84) 4 = 0 then t else t.setCtx c ((t.ctx c).switch (lawOf (fun off n => rd (o + 128 + off) n)))
def State.tiltLoad (s : State) (rd : Nat → Nat → Nat) : State :=
  let t := (List.range 4).foldl (fun (u : State) c => u.tiltLoadOne rd c) s
  { t with running := { t.running with tilth := (List.range 4).filter (fun c => bitN (rd (tiltRec rd c) 4) 31) } }

/-! ### LOAM (R650) -/

def loamRecords (rd : Nat → Nat → Nat) (by' : Nat → Nat → List Byte) : List (List Byte) := (List.range (rd 0 2)).map (fun i => by' (64 + 64 * i) 64)
def loamOk (rd : Nat → Nat → Nat) (by' : Nat → Nat → List Byte) (size : Nat) : Bool :=
  decide (1 ≤ rd 0 2 ∧ rd 0 2 ≤ 256) && size == 64 + 64 * rd 0 2 && rd 2 62 == 0 && (loamRecords rd by').all (fun r => !frameBad r)
def State.loamLoad (s : State) (rd : Nat → Nat → Nat) (by' : Nat → Nat → List Byte) : State :=
  { s with loam := (loamRecords rd by').foldl (fun (l : Loam) r =>
      l.setFrame (leAt r 48 1) (if bitN (leAt r 49 1) 0 then some ((List.range 12).map (fun i => leAt r (4 * i) 4)) else none)) s.loam }

/-! ### SETTINGS (R651) -/

def settingsOf (rd : Nat → Nat → Nat) (size : Nat) : List (Nat × Nat) := (List.range (size / 8)).map (fun i => (rd (8 * i) 4, rd (8 * i + 4) 4))

/-- Blocks MEM, ITG, TIM, ETH, CSI, PCI, ZTH and CAN. -/
def settingBlock (a : Nat) : Bool := [0x23, 0x13, 0x14, 0x60, 0x61, 0x62, 0x63, 0x65].contains (a / 0x1000000)
/-- Ring counts: RW registers that count (R221, R417). -/
def settingCounter (a : Nat) : Bool := a == ITG_BROKE_HEAD.addr
/-- The unit of a register is on this variant. -/
def State.unitHere (s : State) (a : Nat) : Bool :=
  s.pdPresent (regDomain a) && (!decide (0x23000000 ≤ a ∧ a < 0x23800000) || s.sitePresent (a % 0x1000000 / 0x100000))
def State.settingOk (s : State) (a : Nat) : Bool :=
  settingBlock a && !settingCounter a && s.unitHere a && (match regAt a with
    | some d => decide (d.rw ≠ 0 ∨ d.w1s ≠ 0) && d.who.allow 0x61 && d.who != .nobody
    | none => false)
def State.settingsOk (s : State) (rd : Nat → Nat → Nat) (size : Nat) : Bool :=
  size % 8 == 0 && decide (8 ≤ size ∧ size ≤ 32768) && (settingsOf rd size).all (fun e => s.settingOk e.1)

/-- Registers whose reset value the section gives; of a PCIe port's configuration, MODE only. -/
def settingReset (a : Nat) : Option Nat :=
  if a = MEM_SPLIT.addr ∨ a = ITG_POLICY.addr ∨ a = ITG_SWEEP.addr ∨ a = ZTH_NODE.addr then some 0xFFFFFFFF
  else if 0x13000040 ≤ a ∧ a < 0x13000060 then some 0xFFFFFFFF
  else if 0x23000000 ≤ a ∧ a < 0x23800000 ∧ a % 0x100000 = 0x20 then some 0xFFFFFFFF
  else if 0x63008000 ≤ a ∧ a < 0x63008200 then some 0xFFFFFFFF
  else if a = PCI_CFG.addr 0 ∨ a = PCI_CFG.addr 1 then some 0xC0000000
  else none

/-- One entry written by the management cores. -/
def State.settingLoad (s : State) (a v : Nat) : State :=
  let t := s.writeReg 0x61 24 a (BitVec.ofNat 32 v)
  match settingReset a with
  | some m =>
    let keep := (regReset a &&& ~~~(BitVec.ofNat 32 m)) ||| (t.rd a &&& BitVec.ofNat 32 m)
    { t with imageRegs := Sparse.set (fun _ => none) t.imageRegs a (some keep) }
  | none => t

/-- A register that waits for a MEM domain. -/
def settingHeld (a : Nat) : Bool := a / 0x1000000 == 0x23
def State.settingsLoad (s : State) (rd : Nat → Nat → Nat) (size : Nat) (mem : Bool) : State :=
  ((settingsOf rd size).filter (fun e => settingHeld e.1 == mem)).foldl (fun (t : State) e => t.settingLoad e.1 e.2) s

/-! ### BOOT_LOADER (R652) -/

def State.loaderOk (s : State) (rd : Nat → Nat → Nat) (size : Nat) : Bool :=
  let a := rd 0 8
  let e := rd 8 8
  decide (68 ≤ size) && a % 4096 == 0 && e % 4 == 0 && rd 16 48 == 0 && s.dataRange a (size - 64) && decide (a ≤ e ∧ e < a + (size - 64))

/-! ## A section as a whole -/

/-- The checks of a section by its TYPE; a section the device does not know is never read. -/
def State.sectionOk (s : State) (k : Nat) (e : ImgSection) : Bool :=
  let rd := s.sec k e
  let by' := s.secBytes k e
  match e.typ with
  | 1 => vfOk rd e.size
  | 2 => s.seqOk rd e.size
  | 3 => s.pinMuxOk rd e.size
  | 4 => s.partsOk rd e.size
  | 5 => hbxOk rd e.size
  | 6 => formatsOk rd e.size
  | 7 => s.thermalOk rd e.size
  | 8 => s.tiltOk rd by' e.size
  | 9 => loamOk rd by' e.size
  | 10 => s.settingsOk rd e.size
  | 11 => s.loaderOk rd e.size
  | _ => true

/-- What a section loads in step 4. -/
def State.sectionLoad (s : State) (k : Nat) (e : ImgSection) : State :=
  let rd := s.sec k e
  match e.typ with
  | 1 => s.vfLoad rd
  | 3 => s.pinMuxLoad rd
  | 4 => s.partsLoad rd
  | 5 => s.hbxLoad rd
  | 6 => s.formatsLoad rd
  | 7 => s.thermalLoad rd
  | 8 => s.tiltLoad rd
  | 9 => s.loamLoad rd (s.secBytes k e)
  | 10 => s.settingsLoad rd e.size false
  | _ => s

end Sys2Proof.Machine
end

