-- ==== Sys2Proof/Machine/Boot.lean ====
section
/-! DEFINITION. Start-up (R632–R635, R639, R640, R351, R629): the six steps, the stop of each, the fall back to the other slot, the hand-off. -/
namespace Sys2Proof.Machine

/-! ## Stops (R634) -/

/-- An entry of source BOOT: the status, both slots' reasons, the ISN in force (R661). -/
def State.bootLog (s : State) (code : Nat) : State :=
  s.logEvent logBoot code 0 (leBytes 4 s.bootStatus.toNat ++ leBytes 4 (s.rd (MGT_BOOT_SLOT.addr 0)).toNat
    ++ leBytes 4 (s.rd (MGT_BOOT_SLOT.addr 1)).toNat ++ leBytes 4 s.running.isn)

/-- Start-up stops: the status, BOOT_FAULT_N low, an entry where the flash is usable. -/
def State.bootStop (s : State) (code : Nat) (flashOk : Bool) : State :=
  let t := ((s.setF MGT_BOOT_STATUS.STOPPED 1).setF MGT_BOOT_STATUS.STAGE 15).setF MGT_BOOT_STATUS.STOP_CODE code
  let t := t.emit (.note "BOOT_FAULT_N" [0])
  if flashOk then t.bootLog code else t

/-- A slot's REASON and failing section. -/
def State.slotReason (s : State) (k reason sect : Nat) : State :=
  (s.setF (MGT_BOOT_SLOT.REASON k) reason).setF (MGT_BOOT_SLOT.SECTION k) sect

/-! ## Step 2 (R632, R662, R686) -/

/-- The log scanned; entries for what led here: a thermal shutdown, a reset, a calendar that restarted. -/
def State.bootStep2 (s : State) : State :=
  let t := (s.setF MGT_BOOT_STATUS.STAGE 2).logScan
  let t := if t.flag PMU_SHUTDOWN_CAUSE.VALID then
      (t.logEvent logThermal 3 0 (thermalData (t.fld PMU_SHUTDOWN_CAUSE.INDEX) (t.fld PMU_SHUTDOWN_CAUSE.VALUE))).wr PMU_SHUTDOWN_CAUSE.addr 0 else t
  let t := if t.mgt.cause = 0 then t else t.logEvent logReset t.mgt.cause 0 []
  let t := if t.lostToLog then ({ t with lostToLog := false } : State).logEvent logRtc 4 0 [] else t
  let page := [0x4D, 0x42, 0x4F, 0x58, 1, 1, 0, 0] ++ leBytes 4 Config.mgtFirmware.toNat
  { t.putAll (placed 0x0800E000 page) with mgt := { t.mgt with cause := 0 } }

/-! ## Step 3 (R638, R639) -/

/-- Both slots checked: their reasons and ISN. -/
def State.bootStep3 (s : State) (env : BootEnv) : State :=
  let t := s.setF MGT_BOOT_STATUS.STAGE 3
  [0, 1].foldl (fun (u : State) k =>
    let bad := env.badHeader.contains k
    (u.slotReason k (s.slotCheck k bad) 0).setF (MGT_BOOT_ISN.ISN k) (if bad then 0 else s.imgIsn k)) t

/-- The slot chosen, and whether the other is valid too. -/
def State.bootChoice (s : State) : Option (Nat × Bool) :=
  let ok := fun (k : Nat) => s.fld (MGT_BOOT_SLOT.REASON k) == 0
  if ok 0 && ok 1 then some (if s.fld (MGT_BOOT_ISN.ISN 0) < s.fld (MGT_BOOT_ISN.ISN 1) then 1 else 0, true)
  else if ok 0 then some (0, false)
  else if ok 1 then some (1, false)
  else none

/-! ## Step 4 -/

/-- How far start-up of a slot has come: on, a section of it failed (REASON and index), or start-up stopped. -/
inductive BootEnd where
  | on
  | failed (reason sect : Nat)
  | stopped (code : Nat)
deriving DecidableEq, Repr

/-- What is wrong with a section, 0 for nothing: it cannot be read, its hash differs, its table fails (R640). -/
def State.sectionReason (s : State) (k : Nat) (e : ImgSection) (env : BootEnv) : Nat :=
  if env.badSection.contains (k, e.idx) then rsnRead
  else if !s.hashRight k e then rsnHash
  else if !s.sectionOk k e then rsnTable
  else 0

/-- A rail or domain failed to come up (R634, R701). -/
def State.powerStop (s : State) (e : Nat × Nat) : State := s.wr PMU_STOP_DETAIL.addr (BitVec.ofNat 32 (2 ^ 31 + e.1 % 2 * 2 ^ 30 + e.2 % 256 * 256))

/-- The power sequence of step 4.2. -/
def State.bootPower (s : State) (k : Nat) (e : ImgSection) (env : BootEnv) : State × BootEnd :=
  let l := seqEntries (s.sec k e)
  match env.powerFail with
  | some f => if l.contains f then ((s.seqRun l (some f)).powerStop f, .stopped 3) else (s.seqRun l none, .on)
  | none => (s.seqRun l none, .on)

/-- One section of step 4. -/
def State.bootSection (k : Nat) (env : BootEnv) (acc : State × BootEnd) (e : ImgSection) : State × BootEnd :=
  match acc.2 with
  | .on =>
    let r := acc.1.sectionReason k e env
    if r ≠ 0 then (acc.1, .failed r e.idx)
    else if e.typ = 2 then acc.1.bootPower k e env
    else (acc.1.sectionLoad k e, .on)
  | _ => acc

/-- Step 4: every table section in the order of its TYPE. -/
def State.bootStep4 (s : State) (k : Nat) (env : BootEnv) : State × BootEnd :=
  ((s.imgSections k).filter (fun e => decide (e.typ ≤ 10))).foldl (State.bootSection k env) (s.setF MGT_BOOT_STATUS.STAGE 4, .on)

/-! ## Step 5 (R351, R635, R646, R692) -/

/-- Domains step 5 switches on after the MEM domains, in order. -/
def step5Domains : List Nat :=
  [38, 78, 39, 79, 35, 75, 32, 33, 34, 72, 73, 74] ++ List.range 32 ++ (List.range 32).map (· + 40)

/-- Domains on in order, up to the one that fails. -/
def State.bootDomains (s : State) (l : List Nat) (env : BootEnv) : State × BootEnd :=
  let good := l.takeWhile (fun d => env.powerFail != some (1, d))
  let t := good.foldl (fun (u : State) d => u.domainUp d) s
  if good.length = l.length then (t, .on) else (t.powerStop (1, getAt 0 l good.length), .stopped 3)

/-- A memory site's training and self-test: status, the failing channels, the address of the first error. -/
def State.siteResult (s : State) (env : BootEnv) (trained : Bool) (n : Nat) : State :=
  match env.memFail.find? (fun e => e.1 == n) with
  | some (_, ch, bist) =>
    if !trained then (s.setF (MEM_CTL_STATUS.CH_FAIL n) ch).setF (MEM_CTL_STATUS.TRAINED n) (b2n (decide (ch % 65536 = 0)))
    else match bist with
      | some a => ((s.setF (MEM_CTL_STATUS.BIST_DONE n) 1).setF (MEM_CTL_STATUS.BIST_FAIL n) 1).wr (MEM_CTL_BIST_ADDR.addr n) (BitVec.ofNat 32 a &&& 0xF07FFFFF)
      | none => s.setF (MEM_CTL_STATUS.BIST_DONE n) 1
  | none => if trained then s.setF (MEM_CTL_STATUS.BIST_DONE n) 1 else s.setF (MEM_CTL_STATUS.TRAINED n) 1

/-- Memory trained, tested and zeroed, and the pools of enabled partitions initialised. -/
def State.bootMemory (s : State) (env : BootEnv) : State × BootEnd :=
  let here := env.memFail.filter (fun e => s.sitePresent e.1)
  let t := s.allSites.foldl (fun (u : State) n => u.siteResult env false n) s
  if here.any (fun e => e.2.1 % 65536 != 0) then (t, .stopped 4)
  else
    let t := s.allSites.foldl (fun (u : State) n => u.siteResult env true n) t
    if here.any (fun e => e.2.2.isSome) then (t, .stopped 4)
    else
      let t := (t.memLost 0).memLost 1
      let t := s.allSites.foldl (fun (u : State) n => u.setF (MEM_CTL_STATUS.INIT_DONE n) 1) t
      (((List.range 8).filter t.partOn).foldl State.initPool t, .on)

/-- The tests of a cluster in turn, after a start at temperature tj: a pass ends them, a located fault is repaired and the cluster tested
again, anything else retires it (R415, R635). -/
def State.bootTests (n : Nat) (tj : Int) : List BootTest → State → State
  | [], s => (s.startTest n tj).passTest n
  | x :: l, s =>
    let t := s.startTest n tj
    if x.out = 0 then t.passTest n
    else if x.out = 1 ∧ t.faultPlace n x.row x.col = true then
      let u := (t.ftFail n x.srow x.nom).locateFault n x.row x.col
      if u.flag (CLU_CAL_REPAIR.PENDING n) then
        let v := u.commitRepair n x.ok
        if x.ok && (u.repairSpare n).isSome then State.bootTests n tj l v else v.retireCluster n 0x0F 3
      else u
    else (t.ftFail n x.srow x.nom).retireCluster n 0x0E 2

/-- Every cluster tested, in ascending index. -/
def State.bootClusters (s : State) (env : BootEnv) : State :=
  (List.range 64).foldl (fun (t : State) n => State.bootTests n env.tj (env.tests.filter (fun x => x.clu == n)) t) s

/-- Settings held for the memory pages of slot k. -/
def State.bootHeld (s : State) (k : Nat) : State :=
  match (s.imgSections k).find? (fun e => e.typ == 10) with
  | some e => s.settingsLoad (s.sec k e) e.size true
  | none => s

/-- Step 5. -/
def State.bootStep5 (s : State) (k : Nat) (env : BootEnv) : State × BootEnd :=
  let r := (s.setF MGT_BOOT_STATUS.STAGE 5).bootDomains [37, 77] env
  match r.2 with
  | .on =>
    let m := (r.1.bootHeld k).bootMemory env
    (match m.2 with
    | .on =>
      let d := m.1.bootDomains step5Domains env
      (match d.2 with | .on => (d.1.bootClusters env, .on) | _ => d)
    | _ => m)
  | _ => r

/-! ## Step 6 (R629, R632, R652) -/

/-- Clusters out of service. -/
def State.retiredMask (s : State) : Nat := sumN (((List.range 64).filter (fun n => s.svc n == 5)).map (fun n => 2 ^ n))

/-- The hand-off record of slot k. -/
def State.handoff (s : State) (k : Nat) : List Byte :=
  [0x48, 0x4F, 0x46, 0x46, 1] ++ leBytes 1 k ++ leBytes 2 0 ++ leBytes 4 (s.rd MGT_VARIANT.addr).toNat ++ leBytes 4 (s.rd MGT_DEVICE_ID.addr).toNat
    ++ leBytes 8 (dramBase + s.rawBytes - 1) ++ leBytes 8 s.retiredMask ++ leBytes 4 s.time ++ leBytes 28 0

/-- The locks of MEM_SPLIT and of the PCIe ports. -/
def State.bootLocks (s : State) : State :=
  let t := (s.setF MEM_SPLIT.LOCK 1).setF (PCI_CFG.LOCK 0) 1
  if s.iod1 then t.setF (PCI_CFG.LOCK 1) 1 else t

/-- The loader copied, the record written, the hart started, the contexts enabled. -/
def State.bootHandoff (s : State) (k : Nat) (e : ImgSection) : State :=
  let h := s.img k 25 1
  let t := s.bootLocks.put 0x61 (s.sec k e 0 8) (s.secBytes k e 64 (e.size - 64))
  let t := { t with running := { t.running with slot := k, isn := s.imgIsn k, rollback := s.imgRollback k, retired := t.retiredMask } }
  let t := (t.putAll (placed handoffBase (t.handoff k))).setHart h (startedHart h (s.sec k e 8 8))
  let t := t.setF (APC_HART_STATUS.STATE h) 1
  let t := t.running.tilth.foldl (fun (u : State) c => u.tltCfg c (ins (u.rd (TLT_CFG.addr c)) 31 31 1)) t
  t.bootLog 0

/-- Step 6. -/
def State.bootStep6 (s : State) (k : Nat) (env : BootEnv) : State × BootEnd :=
  let t := s.setF MGT_BOOT_STATUS.STAGE 6
  match (s.imgSections k).find? (fun e => e.typ == 11) with
  | none => (t, .failed rsnHeader 0)
  | some e =>
    let r := t.sectionReason k e env
    if r ≠ 0 then (t, .failed r e.idx) else (t.bootHandoff k e, .on)

/-! ## Both slots (R640) -/

/-- Steps 4 to 6 on slot k. -/
def State.bootSlot (s : State) (k : Nat) (env : BootEnv) : State × BootEnd :=
  let a := ((s.setF MGT_BOOT_STATUS.SLOT k).setF MGT_BOOT_STATUS.VER_USED 1).bootStep4 k env
  match a.2 with
  | .on =>
    let b := a.1.bootStep5 k env
    (match b.2 with | .on => b.1.bootStep6 k env | _ => b)
  | _ => a

/-- Registers the settings of slot k name. -/
def State.settingsNamed (s : State) (k : Nat) : List Nat :=
  match (s.imgSections k).find? (fun e => e.typ == 10) with
  | some e => (settingsOf (s.sec k e) e.size).map (·.1)
  | none => []

/-- What a failed slot loaded is undone: domains back to their reset, with the words held in them, every register loaded from the image too. -/
def State.undoSlot (s : State) (k : Nat) : State :=
  let loaded := s.imageRegs.map (·.1) ++ s.settingsNamed k
  let t := { s with imageRegs := [] }
  let t := ((List.range 96).filter (fun d => s.pdPresent d && !decide (80 ≤ d ∧ d < 84))).foldl (fun (u : State) d => u.domainOff d) t
  let t := t.resetRegs loaded.contains
  { t with thermal := Thermal.init, running := Running.init, loam := { t.loam with frames := [] }, pins := [], cans := [], timEpoch := 0,
           pmu := { t.pmu with cap := 0 } }

/-- The slot chosen, then the other where it is valid too. -/
def State.bootSlots (s : State) (k : Nat) (both : Bool) (env : BootEnv) : State :=
  let other := 1 - k
  let r := (if both then s.slotReason other rsnNotTried 0 else s).bootSlot k env
  match r.2 with
  | .on => r.1
  | .stopped c => r.1.bootStop c true
  | .failed reason sect =>
    let t := r.1.slotReason k reason sect
    if !both then t.bootStop 1 true
    else
      let u := ((t.undoSlot k).slotReason other 0 0).setF MGT_BOOT_STATUS.FELL_BACK 1
      let q := u.bootSlot other env
      (match q.2 with
      | .on => q.1
      | .stopped c => q.1.bootStop c true
      | .failed reason' sect' => (q.1.slotReason other reason' sect').bootStop 1 true)

/-- Start-up as a whole. -/
def State.bootAll (s : State) (env : BootEnv) : State :=
  let t := s.bootStep2
  if !env.flashOk || (env.badHeader.contains 0 && env.badHeader.contains 1) then
    (if env.flashOk then [0, 1].foldl (fun (u : State) k => u.slotReason k rsnRead 0) t else t).bootStop 2 false
  else
    let u := t.bootStep3 env
    match u.bootChoice with
    | none => u.bootStop 1 true
    | some (k, both) => u.bootSlots k both env

/-- Step 1: a flash that answers has its parameter table read, and goes to 8D-8D-8D where that table allows it (R597, R599). -/
def State.bootStep1 (s : State) (env : BootEnv) : State := if env.flashOk && env.octal then s.setF XSP_CFG.OCTAL 1 else s

/-- START_UP (R632): the six steps, once after each module reset, not while the shutdown hold is armed (R686)
nor while an external cause holds the module in reset (R735). -/
def execStartUp (env : BootEnv) (s : State) : Host.Outcome State Fault Refusal :=
  answer (s.pdOn 80 && s.pdOn 81 && s.pdOn 82 && !s.mgt.hold && s.supply.up && decide (s.supply.heldTo ≤ s.cyc)
    && s.fld MGT_BOOT_STATUS.STAGE == 0) s ((s.start.bootStep1 env).bootAll env)

end Sys2Proof.Machine
end

