-- ==== Sys2Proof/Machine/EngineCmds.lean ====
section
/-! DEFINITION. The end of an engine's operation (R431, R445, R460, R512): its outcome lands, or what a failure from outside the engine leaves. -/
namespace Sys2Proof.Machine

/-- Engine e refused the operation, and it writes nothing. -/
def engUntouched (e : Nat) (r : EngOut) : Bool := if e ≤ 2 then duneUntouched r else if e ≤ 4 then slvUntouched r else lomUntouched r

/-- What the operation of engine e comes to where no failure strikes it, in a unit that has not worked on it. -/
def State.engWould (s : State) (e : Nat) (o : Op) (x : Obj) : Option EngOut :=
  let op := leAt o.bytes 0 1
  if e ≤ 2 then s.duneWould (e - 1) o x
  else if e ≤ 4 then (if decide (0x50 ≤ op ∧ op ≤ 0x54) || op == 0x58 || op == 0x59 then (s.slvWork (e - 3) o x).out else none)
  else if 0x60 ≤ op ∧ op ≤ 0x64 then (s.lomWork o x).out
  else none

/-- What the operation of engine e leaves when a report, an abandoned fill or a lost tier gives it its status (R191, R392): the outcome of an
operation that fails there. One that its checks refuse, whether or not it has been worked on, has no output to poison (R436, R465, R514); a solver slot
whose factorisation was refused keeps no factor (R469), and the pivots regularised stay counted (R484). out: what it had come to. -/
def State.engFailed (s : State) (e : Nat) (load : Bool) (o : Op) (out : Option EngOut) : State × EngOut :=
  match s.obj o.handle with
  | none => (s, EngOut.of o.status 0 [])
  | some x =>
    let would := match out with
      | some r => some r
      | none => if load then none else s.engWould e o x
    let r := if load || (would.map (engUntouched e)).getD false then (s, { EngOut.of o.status 0 [] with slvSlots := would.bind (·.slvSlots) })
      else if e ≤ 2 then s.duneHurt (e - 1) o x o.status
      else if e ≤ 4 then (s, s.slvHurt (e - 3) o x o.status (fun _ => false))
      else (s, EngOut.of o.status 0 (s.lomFoot o.bytes))
    (r.1, { r.2 with counts := (out.map EngOut.pivots).getD [] })

/-- The operation of a unit ends: a status given to it from outside the engine comes first, unless its outcome has that status already; else its
outcome lands. -/
def State.engEnd (s : State) (e : Nat) (load : Bool) (o : Op) (out : Option EngOut) : State :=
  match out with
  | some r => if o.status = 0 ∨ o.status = r.status then s.engLand e load o r else (s.engFailed e load o out).1.engLand e load o (s.engFailed e load o out).2
  | none => (s.engFailed e load o none).1.engLand e load o (s.engFailed e load o none).2

/-- ENGINE_OP_COMPLETE (R431, R445, R460, R512): the operation in the main unit, or in Dune's load unit, of engine e finishes. -/
def execEngineOpComplete (e : Nat) (load : Bool) (s : State) : Host.Outcome State Fault Refusal :=
  let u := s.eng e
  match (if load then u.load else u.main) with
  | none => answer false s s
  | some o =>
    let out := (if load then u.loadOut else u.mainOut)
    if s.opHasReport o.id || (out.isNone && o.status == 0) || !s.engUp e then answer false s s
    else if o.status == 0 && (s.pendingBlock (out.getD (EngOut.of 0 0 [])).blocks).isSome then .next (s.start.say .waits)
    else .next (s.start.engEnd e load o out)

end Sys2Proof.Machine
end

