-- ==== Sys2Proof/Machine/Jtag.lean ====
section
/-! DEFINITION. The test access port (R738): the controller, its instructions and the debug reads of R634. PRESUMED: the sixteen states and their
transitions are those of IEEE 1149.1, which the rule names. -/
namespace Sys2Proof.Machine

/-- States: 0 Test-Logic-Reset, 1 Run-Test/Idle, 2–8 the DR column (Select, Capture, Shift, Exit1, Pause, Exit2, Update), 9–15 the IR column. -/
def tapNext (st : Nat) (tms : Bool) : Nat :=
  let two := fun (a b : Nat) => if tms then b else a
  match st with
  | 0 => two 1 0
  | 1 => two 1 2
  | 2 => two 3 9
  | 3 => two 4 5
  | 4 => two 4 5
  | 5 => two 6 8
  | 6 => two 6 7
  | 7 => two 4 8
  | 8 => two 1 2
  | 9 => two 10 0
  | 10 => two 11 12
  | 11 => two 11 12
  | 12 => two 13 15
  | 13 => two 13 14
  | 14 => two 11 15
  | _ => two 1 2

/-- The low n bits of a number. -/
def bitList (n v : Nat) : List Bool := (List.range n).map (fun i => bitN v i)

/-- What Capture-DR loads; the levels the boundary register sees are open. -/
def State.captureDr (s : State) : State × List Bool :=
  match s.tap.instruction with
  | 1 => (s.tookFree 1, bitList Config.tapBoundary (Config.freeValue Config.tapBoundary s.freeCtr).toNat)
  | 2 => (s.tookFree 1, bitList Config.tapBoundary (Config.freeValue Config.tapBoundary s.freeCtr).toNat)
  | 3 => (s, bitList 32 Config.tapIdcode.toNat)
  | 4 => (s, bitList 32 s.bootStatus.toNat)
  | 5 => (s, bitList 32 (s.rd (MGT_BOOT_SLOT.addr 0)).toNat)
  | 6 => (s, bitList 32 (s.rd (MGT_BOOT_SLOT.addr 1)).toNat)
  | _ => (s, [false])

/-- What Capture-IR loads: the two lowest bits 01, the others open. -/
def State.captureIr (s : State) : State × List Bool :=
  (s.tookFree 1, [true, false] ++ (bitList Config.tapIrLength (Config.freeValue Config.tapIrLength s.freeCtr).toNat).drop 2)

/-- The rising edge in a state: capture or shift. -/
def State.tapEdge (s : State) (tdi : Bool) : State :=
  let load := fun (r : State × List Bool) => ({ r.1 with tap := { r.1.tap with shift := r.2 } } : State)
  match s.tap.state with
  | 3 => load s.captureDr
  | 10 => load s.captureIr
  | 4 => { s with tap := { s.tap with shift := s.tap.shift.drop 1 ++ [tdi] } }
  | 11 => { s with tap := { s.tap with shift := s.tap.shift.drop 1 ++ [tdi] } }
  | _ => s

/-- What entering a state does: reset, Update-DR, Update-IR. -/
def Tap.enter (x : Tap) : Tap :=
  match x.state with
  | 0 => { x with ir := none }
  | 8 => if x.instruction = 1 ∨ x.instruction = 2 then { x with boundary := x.shift } else x
  | 15 => { x with ir := some (bitsToNat x.shift) }
  | _ => x

/-- The balls after the controller has gone from old to what it is now: from EXTEST's start, and at each update in it, they take the boundary
register's update stage; as it ends, what the device drives. Which cell drives which ball the spec does not say. -/
def State.boundaryOut (s : State) (old : Tap) : State :=
  if s.tap.extest then (if old.extest && old.boundary == s.tap.boundary then s else s.emit (.note "BOUNDARY" (s.tap.boundary.map b2n)))
  else if old.extest then s.emit (.note "BOUNDARY" []) else s

/-- A cycle of TCK, TRST_N high. -/
def State.tapCycle (s : State) (tms tdi : Bool) : State :=
  let u := s.tapEdge tdi
  let v := { u with tap := ({ u.tap with state := tapNext s.tap.state tms } : Tap).enter }
  if s.tap.shifting then v.say (.word (BitVec.ofNat 32 (b2n (s.tap.shift.headD false)))) else v

/-- JTAG_TAP_CYCLE (R734, R738): a cycle of TCK with TMS and TDI; trst: TRST_N is low. TDO shows the bit shifted out. While VIO_18 or VDD_IO_0 is
out of range the balls are ignored. -/
def execJtagTapCycle (tms tdi trst : Bool) (s : State) : Host.Outcome State Fault Refusal :=
  let t := s.start
  .next (if !s.supply.up then t
    else (if trst then { t with tap := { t.tap with state := 0, ir := none } } else t.tapCycle tms tdi).boundaryOut s.tap)

end Sys2Proof.Machine
end

