-- ==== Sys2Proof/Machine/Mailbox.lean ====
section
/-! DEFINITION. The operations of the management mailbox (R653–R659). The firmware serves the request of the channel at the front of its queue; each
row below is one operation of R656. -/
namespace Sys2Proof.Machine

/-! ## Requests and statuses (R653, R657) -/

def mbxOk : Nat := 0
def mbxBadOp : Nat := 1
def mbxBadArg : Nat := 2
def mbxNotOpen : Nat := 3
def mbxVersion : Nat := 4
def mbxInUse : Nat := 5
def mbxRefused : Nat := 6
def mbxFlash : Nat := 8
def mbxDenied : Nat := 9

/-- OP, TAG and LEN of a channel's request, and n payload bytes at an offset. -/
def State.reqOp (s : State) (c : Nat) : Nat := s.nat (mbxBase c) 2
def State.reqTag (s : State) (c : Nat) : Nat := s.nat (mbxBase c + 4) 4
def State.reqLen (s : State) (c : Nat) : Nat := s.nat (mbxBase c + 8) 4
def State.reqArg (s : State) (c off n : Nat) : Nat := s.nat (mbxBase c + 0x20 + off) n
def State.reqBytes (s : State) (c off n : Nat) : List Byte := s.bytesAt (mbxBase c + 0x20 + off) n

/-- A channel is open. -/
def State.chanOpen (s : State) (c : Nat) : Bool := bitN (s.fld MGT_MBX_STATUS.OPEN) c

/-- The operations of R656. -/
def mbxOps : List Nat := [1, 2, 3, 0x10, 0x11, 0x12, 0x13, 0x20, 0x30, 0x31, 0x32, 0x33, 0x34, 0x35, 0x40]

/-- What an operation comes to: status, response payload, and the state with its effect. -/
structure MbxRes where
  status : Nat
  payload : List Byte
  st : State

/-- A refusal: nothing changes but the response (R656). -/
def State.refuse (s : State) (status : Nat) : MbxRes := ⟨status, [], s⟩
/-- Success with a payload. -/
def State.mbxDone (s : State) (payload : List Byte) : MbxRes := ⟨mbxOk, payload, s⟩

/-- The request at the front, when the firmware runs and its OP is one of p. -/
def State.mbxHead (s : State) (p : Nat → Bool) : Option Nat :=
  match s.mgt.queue with
  | c :: _ => if s.mgtRuns && p (s.reqOp c) then some c else none
  | [] => none

/-- A request served: the channel open, LEN as the operation's payload, then f (R655, R657). -/
def mbxServe (op : Nat) (len : Nat → Bool) (f : State → Nat → MbxRes) (s : State) : Host.Outcome State Fault Refusal :=
  match s.mbxHead (fun o => o == op) with
  | none => answer false s s
  | some c =>
    let t := s.start
    let r := if !t.chanOpen c then t.refuse mbxNotOpen else if !len (t.reqLen c) then t.refuse mbxBadArg else f t c
    .next (r.st.respond c op r.status (t.reqTag c) r.payload)

/-! ## Channels (R655, R656) -/

/-- OPEN's negotiation. -/
def State.mbxOpen (s : State) (c : Nat) : MbxRes :=
  let lo := s.reqArg c 0 1
  let v := Nat.min (s.reqArg c 1 1) 1
  if s.reqLen c ≠ 2 then s.refuse mbxBadArg
  else if v < lo ∨ v = 0 then s.refuse mbxVersion
  else (s.setF MGT_MBX_STATUS.OPEN (Nat.lor (s.fld MGT_MBX_STATUS.OPEN) (2 ^ c))).mbxDone (leBytes 1 v)

/-- OPEN (R655); a request with an unlisted OP is answered here too, with BAD_OP (R657). -/
def execMbxOpen (s : State) : Host.Outcome State Fault Refusal :=
  match s.mbxHead (fun o => o == 1 || !mbxOps.contains o) with
  | none => answer false s s
  | some c =>
    let t := s.start
    let r := if t.reqOp c = 1 then t.mbxOpen c else t.refuse mbxBadOp
    .next (r.st.respond c (t.reqOp c) r.status (t.reqTag c) r.payload)

/-- CLOSE (R656). -/
def execMbxClose (s : State) : Host.Outcome State Fault Refusal :=
  mbxServe 2 (· == 0) (fun t c => (t.setF MGT_MBX_STATUS.OPEN (t.fld MGT_MBX_STATUS.OPEN - 2 ^ c)).mbxDone []) s

/-- INFO (R656): BOOT_STATUS, both BOOT_SLOT words, the running ISN, F, RETIRED. -/
def execMbxInfo (s : State) : Host.Outcome State Fault Refusal :=
  mbxServe 3 (· == 0) (fun t _ => t.mbxDone (leBytes 4 t.bootStatus.toNat ++ leBytes 4 (t.rd (MGT_BOOT_SLOT.addr 0)).toNat
    ++ leBytes 4 (t.rd (MGT_BOOT_SLOT.addr 1)).toNat ++ leBytes 4 t.running.isn ++ leBytes 4 t.fuses.rollback ++ leBytes 8 t.running.retired)) s

/-! ## Configuration (R656) -/

/-- FMT_WRITE's effect. -/
def State.mbxFmt (s : State) (c : Nat) : MbxRes :=
  let n := s.reqArg c 0 4
  let lo := s.reqArg c 4 4
  let hi := s.reqArg c 8 4
  if n < 20 ∨ 31 < n then s.refuse mbxBadArg
  else if s.fmtLocked n then s.refuse mbxInUse
  else if s.flag MGT_FMT_CTRL.BUSY || !(Fmt.ofWords lo hi).valid then s.refuse mbxBadArg
  else ((s.fmtLo n (BitVec.ofNat 32 lo)).fmtHi n (BitVec.ofNat 32 hi)).mbxDone []

/-- FMT_WRITE (R90, R656). -/
def execFmtWrite (s : State) : Host.Outcome State Fault Refusal := mbxServe 0x10 (· == 12) (fun t c => t.mbxFmt c) s

/-- The record in force of partition p, as far as others are checked against it. -/
def State.partNow (s : State) (p off n : Nat) : Nat := if off = 64 then s.fld (DCK_INFLIGHT_RESERVE.COUNT p) else s.partField p off n

/-- A new record for p holds by itself and beside the other enabled partitions (R646). -/
def State.partChangeOk (s : State) (p : Nat) (r : Nat → Nat → Nat) : Bool :=
  let others := ((List.range 8).filter (fun q => q != p && s.partOn q)).map s.partNow
  let on := others ++ (if prOn r then [r] else [])
  s.partRecordOk r && others.all (fun o => recordsApart o r)
    && decide (sumN (on.map (fun x => x 28 2)) ≤ 1024 ∧ sumN (on.map (fun x => x 64 4)) ≤ 6144)

/-- PART_WRITE's effect. -/
def State.mbxPart (s : State) (c : Nat) : MbxRes :=
  let p := s.reqArg c 0 4
  let r := fun (off n : Nat) => s.reqArg c (4 + off) n
  if 8 ≤ p then s.refuse mbxBadArg
  else if s.partBusy p then s.refuse mbxInUse
  else if !s.partChangeOk p r then s.refuse mbxBadArg
  else (((partWords p r).foldl (fun (t : State) e => t.wr e.1 (BitVec.ofNat 32 e.2)) s).initPool p).mbxDone []

/-- PART_WRITE (R204, R646, R656). -/
def execPartWrite (s : State) : Host.Outcome State Fault Refusal := mbxServe 0x11 (· == 132) (fun t c => t.mbxPart c) s

/-- An HBX register the management cores may write. -/
def hbxWritable (a : Nat) : Bool :=
  a / 0x1000000 == 0x22 && (match regAt a with | some d => d.who.allow 0x61 && decide (d.rw ≠ 0 ∨ d.w1c ≠ 0 ∨ d.w1s ≠ 0 ∨ d.wo ≠ 0) | none => false)

/-- HBX_WRITE's effect: each pair in turn, once the table's copy has ended. -/
def State.mbxHbx (s : State) (c : Nat) : MbxRes :=
  let l := (List.range (s.reqLen c / 8)).map (fun i => (s.reqArg c (8 * i) 4, s.reqArg c (8 * i + 4) 4))
  if !l.all (fun e => hbxWritable e.1) then s.refuse mbxBadArg
  else (l.foldl (fun (t : State) e => t.hbxCopied.writeReg 0x61 24 e.1 (BitVec.ofNat 32 e.2)) s).mbxDone []

/-- HBX_WRITE (R656). -/
def execHbxWrite (s : State) : Host.Outcome State Fault Refusal :=
  mbxServe 0x12 (fun n => n % 8 == 0 && decide (8 ≤ n ∧ n ≤ 2016)) (fun t c => t.mbxHbx c) s

/-- PIN_WRITE's effect. -/
def State.mbxPin (s : State) (c : Nat) : MbxRes :=
  let n := s.reqArg c 0 4
  let w := s.reqArg c 4 4
  if !s.pinUp n || w % 0x800000 != 0 then s.refuse mbxBadArg else (s.pinSet 0x61 n (BitVec.ofNat 32 w)).mbxDone []

/-- PIN_WRITE (R645, R656). -/
def execPinWrite (s : State) : Host.Outcome State Fault Refusal := mbxServe 0x13 (· == 8) (fun t c => t.mbxPin c) s

/-! ## The log (R656, R662) -/

/-- Committed entries of the flash. -/
def State.logEntries (s : State) : List (List Byte) :=
  ((List.range 128).filter (fun k => (s.sectorSeq k).isSome)).flatMap (fun k =>
    ((List.range 1023).map (fun i => s.logBytes k (i + 1))).filter logCommitted)

/-- The n entries with the lowest numbers from first on. -/
def logFrom (first : Nat) : Nat → List (List Byte) → List (List Byte)
  | 0, _ => []
  | n + 1, l => match leastBy (fun e => [(leAt e 0 4 + 2 ^ 32 - first) % 2 ^ 32]) l with
    | none => []
    | some e => e :: logFrom first n (l.filter (fun x => leAt x 0 4 != leAt e 0 4))

/-- LOG_READ's effect. -/
def State.mbxLog (s : State) (c : Nat) : MbxRes :=
  let first := s.reqArg c 0 4
  let n := s.reqArg c 4 4
  if n < 1 ∨ 31 < n then s.refuse mbxBadArg
  else s.mbxDone (logFrom first n (s.logEntries.filter (fun e => decide ((leAt e 0 4 + 2 ^ 32 - first) % 2 ^ 32 < 2 ^ 31)))).flatten

/-- LOG_READ (R656, R662). -/
def execLogRead (s : State) : Host.Outcome State Fault Refusal := mbxServe 0x20 (· == 8) (fun t c => t.mbxLog c) s

/-! ## Updates (R658, R659) -/

/-- The slot an update writes. -/
def State.updateSlot (s : State) : Nat := 1 - s.running.slot

/-- The session opened, closed. -/
def State.setSession (s : State) (x : Option Session) : State := { s with mgt := { s.mgt with session := x } }

/-- An UPDATE entry. -/
def State.updateLog (s : State) (code : Nat) : State := s.logEvent logUpdate code 0 []

/-- Erases of a slot in order: its commit sector, then its other 511; err: the place of the one that fails, whose sector is left open but holds no
commit record. -/
def State.slotErase (s : State) (k : Nat) (err : Option Nat) : State :=
  let sect := fun (i : Nat) => if i = 0 then commitBase k else slotBase k + (i - 1) * 65536
  match err with
  | none => s.flashErase (slotBase k) 0x2000000
  | some j =>
    let t := (List.range (Nat.min j 512)).foldl (fun (u : State) i => u.flashErase (sect i) 65536) s
    let t := if j < 512 then t.flashSpoil ⟨2, 0, sect j, 0, 0⟩ else t
    if t.committed k then t.flashErase (commitBase k) 65536 else t

/-- UPDATE_BEGIN (R658); err: the erase that ends in a flash error. -/
def execUpdateBegin (err : Option Nat) (s : State) : Host.Outcome State Fault Refusal :=
  mbxServe 0x30 (· == 0) (fun t c =>
    if t.mgt.session.isSome then t.refuse mbxInUse
    else
      let u := t.slotErase t.updateSlot err
      if err.isSome then u.refuse mbxFlash else ((u.setSession (some ⟨c, 0⟩)).updateLog 1).mbxDone []) s

/-- An operation of an open session: from another channel IN_USE, without a session REFUSED. -/
def State.inSession (s : State) (c : Nat) (f : Session → MbxRes) : MbxRes :=
  match s.mgt.session with
  | none => s.refuse mbxRefused
  | some x => if x.chan ≠ c then s.refuse mbxInUse else f x

/-- A byte as a management core reads it. -/
def State.coreByte (s : State) (a : Nat) : Byte := if s.isMeta a then s.metaByte a else s.stored a

/-- UPDATE_WRITE's effect; err: the program ends in a flash error, its range left open. -/
def State.updateWrite (s : State) (c : Nat) (err : Bool) (x : Session) : MbxRes :=
  let src := s.reqArg c 0 8
  let off := s.reqArg c 8 4
  let n := s.reqArg c 12 4
  let a := slotBase s.updateSlot + off
  if off % 256 ≠ 0 ∨ n % 256 ≠ 0 ∨ n < 256 ∨ 1048576 < n ∨ 0x1FF0000 < off + n ∨ off < x.upTo ∨ s.dramRange src n = false then s.refuse mbxBadArg
  else if err then ((s.flashSpoil ⟨1, 0, a, n, 0⟩).setSession none).refuse mbxFlash
  else ((s.flashProgram a ((List.range n).map (fun i => s.coreByte (src + i)))).setSession (some { x with upTo := off + n })).mbxDone []

/-- UPDATE_WRITE (R658): not while a block it reads is being filled (R334). -/
def execUpdateWrite (err : Bool) (s : State) : Host.Outcome State Fault Refusal :=
  let waits := match s.mbxHead (fun o => o == 0x31) with
    | some c => (s.pendingBlock (rangeBlocks (s.reqArg c 0 8) (Nat.min 1048576 (s.reqArg c 12 4)))).isSome
    | none => false
  if waits then answer false s s else mbxServe 0x31 (· == 16) (fun t c => t.inSession c (t.updateWrite c err)) s

/-- What keeps an image from being committed: REASON and section; none in either place where the spec names none. -/
def State.commitFault (s : State) (k : Nat) : Option (Option Nat × Option Nat) :=
  let r := s.slotContent k
  let ss := s.imgSections k
  if r ≠ 0 then some (some r, none)
  else if s.imgIsn k ≤ s.running.isn then some (none, none)
  else match ss.find? (fun e => !s.hashRight k e) with
    | some e => some (some rsnHash, some e.idx)
    | none => (ss.find? (fun e => !decide (e.typ ≤ 2 ∨ e.typ = 7) && !s.sectionOk k e)).map (fun e => (some rsnTable, some e.idx))

/-- The commit record of an image (R637). -/
def State.commitRecord (s : State) (k : Nat) : List Byte :=
  let b := [0x43, 0x4F, 0x4D, 0x54] ++ leBytes 4 (s.imgLen k) ++ leBytes 4 (s.imgIsn k) ++ leBytes 16 0
  b ++ leBytes 4 (crc32c b)

/-- UPDATE_COMMIT's effect; err: reading back (1) or programming the record (2) ends in a flash error; only a record that is programmed can leave
the commit sector open. -/
def State.updateCommit (s : State) (err : Nat) : MbxRes :=
  let k := s.updateSlot
  if err = 1 then (s.setSession none).refuse mbxFlash
  else match s.commitFault k with
    | some f => ⟨mbxRefused, leBytes 1 (f.1.getD (s.free 8)) ++ leBytes 1 (f.2.getD (Config.freeValue 8 (s.freeCtr + 1)).toNat), (s.tookFree 2).updateLog 3⟩
    | none => if err = 2 then ((s.flashSpoil ⟨1, 0, commitBase k, 32, 0⟩).setSession none).refuse mbxFlash
      else (((s.flashProgram (commitBase k) (s.commitRecord k)).setSession none).updateLog 2).mbxDone []

/-- UPDATE_COMMIT (R659). -/
def execUpdateCommit (err : Nat) (s : State) : Host.Outcome State Fault Refusal :=
  mbxServe 0x32 (· == 0) (fun t c => t.inSession c (fun _ => t.updateCommit err)) s

/-- UPDATE_ABORT (R658); err: the erase ends in a flash error. -/
def execUpdateAbort (err : Bool) (s : State) : Host.Outcome State Fault Refusal :=
  mbxServe 0x33 (· == 0) (fun t c => t.inSession c (fun _ =>
    if err then ((t.slotErase t.updateSlot (some 0)).setSession none).refuse mbxFlash
    else (((t.flashErase (commitBase t.updateSlot) 65536).setSession none).updateLog 4).mbxDone [])) s

/-! ## Fuses and reset (R643, R656) -/

/-- ROLLBACK_ADVANCE (R643, R656). -/
def execRollbackAdvance (s : State) : Host.Outcome State Fault Refusal :=
  mbxServe 0x34 (· == 0) (fun t _ =>
    if t.running.rollback ≤ t.fuses.rollback then t.mbxDone []
    else (({ t with fuses := { t.fuses with rollback := t.running.rollback } } : State).updateLog 5).mbxDone []) s

/-- FUSE_KEY (R643): the hash is programmed once. -/
def execFuseKey (s : State) : Host.Outcome State Fault Refusal :=
  mbxServe 0x35 (· == 48) (fun t c =>
    if t.fuses.keyHash ≠ 0 then t.refuse mbxDenied
    else (({ t with fuses := { t.fuses with keyHash := beNat (t.reqBytes c 0 48) } } : State).updateLog 6).mbxDone []) s

/-- MODULE_RESET (R633, R656): the module reset follows 1 ms later. -/
def execModuleReset (s : State) : Host.Outcome State Fault Refusal :=
  mbxServe 0x40 (· == 0) (fun t _ => ({ t with mgt := { t.mgt with resetAt := some (t.cyc + 1000000) } } : State).mbxDone []) s

end Sys2Proof.Machine
end

