-- ==== Sys2Proof/Machine/Dispatch.lean ====
section
/-! DEFINITION. exec: each command to its meaning, one arm per constructor. -/
namespace Sys2Proof.Machine

/-- The effect of a command on everything but the queue of waiting commands. -/
def exec (i : Instr) (s : State) : Host.Outcome State Fault Refusal :=
  match i with
  | .registerWrite m self a bytes w => Sys2Proof.Machine.execRegisterWrite m self a bytes w s
  | .rcRead m self a bytes => Sys2Proof.Machine.execRcRead m self a bytes s
  | .lowWordRead m self a => Sys2Proof.Machine.execLowWordRead m self a s
  | .fmtDescLoWrite m n v => Sys2Proof.Machine.execFmtDescLoWrite m n v s
  | .fmtDescHiWrite m n v => Sys2Proof.Machine.execFmtDescHiWrite m n v s
  | .fmtEntryCopyDone => Sys2Proof.Machine.execFmtEntryCopyDone s
  | .operationDispatch e => Sys2Proof.Machine.execOperationDispatch e s
  | .qorazNop n => Sys2Proof.Machine.execQorazNop n s
  | .gemm n => Sys2Proof.Machine.execGemm n s
  | .conv n => Sys2Proof.Machine.execConv n s
  | .qorazLoad n => Sys2Proof.Machine.execQorazLoad n s
  | .qorazStore n => Sys2Proof.Machine.execQorazStore n s
  | .ew n => Sys2Proof.Machine.execEw n s
  | .convertOp n => Sys2Proof.Machine.execConvertOp n s
  | .curveOp n => Sys2Proof.Machine.execCurveOp n s
  | .reduceOp n => Sys2Proof.Machine.execReduceOp n s
  | .normOp n => Sys2Proof.Machine.execNormOp n s
  | .splitkSum n => Sys2Proof.Machine.execSplitkSum n s
  | .dotOp n => Sys2Proof.Machine.execDotOp n s
  | .windowOp n => Sys2Proof.Machine.execWindowOp n s
  | .attnExp n => Sys2Proof.Machine.execAttnExp n s
  | .attnMerge n => Sys2Proof.Machine.execAttnMerge n s
  | .attnNorm n => Sys2Proof.Machine.execAttnNorm n s
  | .boxDecode n => Sys2Proof.Machine.execBoxDecode n s
  | .nms n => Sys2Proof.Machine.execNms n s
  | .stateStep n => Sys2Proof.Machine.execStateStep n s
  | .workCycle n => Sys2Proof.Machine.execWorkCycle n s
  | .chainAccumulationEnd n => Sys2Proof.Machine.execChainAccumulationEnd n s
  | .drainStart n ups => Sys2Proof.Machine.execDrainStart n ups s
  | .cowCopyComplete idx => Sys2Proof.Machine.execCowCopyComplete idx s
  | .drainComplete n => Sys2Proof.Machine.execDrainComplete n s
  | .calenderOpComplete n ep => Sys2Proof.Machine.execCalenderOpComplete n ep s
  | .lanePhaseStart n stall => Sys2Proof.Machine.execLanePhaseStart n stall s
  | .curveSlotLoadDone n => Sys2Proof.Machine.execCurveSlotLoadDone n s
  | .beaterOpComplete n ep => Sys2Proof.Machine.execBeaterOpComplete n ep s
  | .repairRecordCommit n ok => Sys2Proof.Machine.execRepairRecordCommit n ok s
  | .admitObject m => Sys2Proof.Machine.execAdmitObject m s
  | .admissionComplete => Sys2Proof.Machine.execAdmissionComplete s
  | .unloadObject m h => Sys2Proof.Machine.execUnloadObject m h s
  | .unloadComplete => Sys2Proof.Machine.execUnloadComplete s
  | .queueDoorbell m q v => Sys2Proof.Machine.execQueueDoorbell m q v s
  | .queueCfgWrite m q v => Sys2Proof.Machine.execQueueCfgWrite m q v s
  | .cplHeadWrite m q v => Sys2Proof.Machine.execCplHeadWrite m q v s
  | .cancelTask m q res => Sys2Proof.Machine.execCancelTask m q res s
  | .cancelAll m q res => Sys2Proof.Machine.execCancelAll m q res s
  | .resumeQueue m q => Sys2Proof.Machine.execResumeQueue m q s
  | .taskEntry q => Sys2Proof.Machine.execTaskEntry q s
  | .waitEntry q => Sys2Proof.Machine.execWaitEntry q s
  | .timedWaitEntry q => Sys2Proof.Machine.execTimedWaitEntry q s
  | .signalEntry q => Sys2Proof.Machine.execSignalEntry q s
  | .setEntry q => Sys2Proof.Machine.execSetEntry q s
  | .fenceEntry q => Sys2Proof.Machine.execFenceEntry q s
  | .taskEndEntry q => Sys2Proof.Machine.execTaskEndEntry q s
  | .reservedControlEntry q => Sys2Proof.Machine.execReservedControlEntry q s
  | .waitRelease q => Sys2Proof.Machine.execWaitRelease q s
  | .timedWaitTimeout q => Sys2Proof.Machine.execTimedWaitTimeout q s
  | .fenceRelease q => Sys2Proof.Machine.execFenceRelease q s
  | .cellWrite m n v => Sys2Proof.Machine.execCellWrite m n v s
  | .cellAddWrite m n v => Sys2Proof.Machine.execCellAddWrite m n v s
  | .deadlineTick => Sys2Proof.Machine.execDeadlineTick s
  | .preemptTask => Sys2Proof.Machine.execPreemptTask s
  | .saveComplete q => Sys2Proof.Machine.execSaveComplete q s
  | .restoreTask => Sys2Proof.Machine.execRestoreTask s
  | .restoreComplete q => Sys2Proof.Machine.execRestoreComplete q s
  | .clusterDrained n => Sys2Proof.Machine.execClusterDrained n s
  | .quiAdmit m p => Sys2Proof.Machine.execQuiAdmit m p s
  | .admitStream m p => Sys2Proof.Machine.execAdmitStream m p s
  | .quiRelease m p => Sys2Proof.Machine.execQuiRelease m p s
  | .quiFork m p => Sys2Proof.Machine.execQuiFork m p s
  | .quiMap m p => Sys2Proof.Machine.execQuiMap m p s
  | .quiTruncate m p => Sys2Proof.Machine.execQuiTruncate m p s
  | .quiRetain m p => Sys2Proof.Machine.execQuiRetain m p s
  | .quiDrop m p => Sys2Proof.Machine.execQuiDrop m p s
  | .batchOpen m p => Sys2Proof.Machine.execBatchOpen m p s
  | .batchClose m p => Sys2Proof.Machine.execBatchClose m p s
  | .quiJoin m p => Sys2Proof.Machine.execQuiJoin m p s
  | .quiLeave m p => Sys2Proof.Machine.execQuiLeave m p s
  | .stepBegin m p => Sys2Proof.Machine.execStepBegin m p s
  | .stepCommit m p => Sys2Proof.Machine.execStepCommit m p s
  | .stepAbort m p => Sys2Proof.Machine.execStepAbort m p s
  | .quiExport m p => Sys2Proof.Machine.execQuiExport m p s
  | .quiImport m p => Sys2Proof.Machine.execQuiImport m p s
  | .armedCommit b => Sys2Proof.Machine.execArmedCommit b s
  | .quireCommandDone p => Sys2Proof.Machine.execQuireCommandDone p s
  | .dramWrite m ep a bs prov pois par link op mv h k => Sys2Proof.Machine.execDramWrite m ep a bs prov pois par link op mv h k s
  | .dramRead m ep a n link flips h k => Sys2Proof.Machine.execDramRead m ep a n link flips h k s
  | .metadataRegionAccess m a n wr => Sys2Proof.Machine.execMetadataRegionAccess m a n wr s
  | .patrolSweepStart idx => Sys2Proof.Machine.execPatrolSweepStart idx s
  | .patrolRead idx j link flips => Sys2Proof.Machine.execPatrolRead idx j link flips s
  | .memSplitWrite m v => Sys2Proof.Machine.execMemSplitWrite m v s
  | .pmvDoorbell m idx r v => Sys2Proof.Machine.execPmvDoorbell m idx r v s
  | .pmvRingCfgWrite m idx r v => Sys2Proof.Machine.execPmvRingCfgWrite m idx r v s
  | .pmvCopy m => Sys2Proof.Machine.execPmvCopy m s
  | .pmvFill m => Sys2Proof.Machine.execPmvFill m s
  | .pmvTranspose m => Sys2Proof.Machine.execPmvTranspose m s
  | .pmvDecomp m => Sys2Proof.Machine.execPmvDecomp m s
  | .pmvFetch m => Sys2Proof.Machine.execPmvFetch m s
  | .pmvFetchNvme m => Sys2Proof.Machine.execPmvFetchNvme m s
  | .nvmeCompletion m => Sys2Proof.Machine.execNvmeCompletion m s
  | .sheetReadTimeout m idx k => Sys2Proof.Machine.execSheetReadTimeout m idx k s
  | .moveComplete m idx => Sys2Proof.Machine.execMoveComplete m idx s
  | .hbxRequestForward new m part src a n rd k j => Sys2Proof.Machine.execHbxRequestForward new m part src a n rd k j s
  | .hbxWindowBoundary idx c => Sys2Proof.Machine.execHbxWindowBoundary idx c s
  | .hbxReadComplete k j => Sys2Proof.Machine.execHbxReadComplete k j s
  | .hbxAgeRaise k j => Sys2Proof.Machine.execHbxAgeRaise k j s
  | .hbxMatchCtrlWrite m e v => Sys2Proof.Machine.execHbxMatchCtrlWrite m e v s
  | .hbxTableCopyDone => Sys2Proof.Machine.execHbxTableCopyDone s
  | .hbxClassWrite m idx c k v => Sys2Proof.Machine.execHbxClassWrite m idx c k v s
  | .checkFailureReport ext => Sys2Proof.Machine.execCheckFailureReport ext s
  | .watchdogExpiry n => Sys2Proof.Machine.execWatchdogExpiry n s
  | .meshParityError tries => Sys2Proof.Machine.execMeshParityError tries s
  | .headerParityError u op move => Sys2Proof.Machine.execHeaderParityError u op move s
  | .lockstepTltMismatch => Sys2Proof.Machine.execLockstepTltMismatch s
  | .tilthPairResetDone => Sys2Proof.Machine.execTilthPairResetDone s
  | .lockstepMgtMismatch serving => Sys2Proof.Machine.execLockstepMgtMismatch serving s
  | .mgtPairRestart => Sys2Proof.Machine.execMgtPairRestart s
  | .trackerResolve p idx => Sys2Proof.Machine.execTrackerResolve p idx s
  | .provTimeout p idx => Sys2Proof.Machine.execProvTimeout p idx s
  | .ftRequest m v => Sys2Proof.Machine.execFtRequest m v s
  | .sweepTestDue n => Sys2Proof.Machine.execSweepTestDue n s
  | .fieldTestStart tj => Sys2Proof.Machine.execFieldTestStart tj s
  | .fieldTestEnd n out row col srow nom => Sys2Proof.Machine.execFieldTestEnd n out row col srow nom s
  | .brokeHeadWrite m v => Sys2Proof.Machine.execBrokeHeadWrite m v s
  | .dunNop e fault => Sys2Proof.Machine.execDunNop e fault s
  | .dunBind e fault => Sys2Proof.Machine.execDunBind e fault s
  | .dunUnbind e fault => Sys2Proof.Machine.execDunUnbind e fault s
  | .occLoad e fault => Sys2Proof.Machine.execOccLoad e fault s
  | .dunValidate e fault => Sys2Proof.Machine.execDunValidate e fault s
  | .dunSearch e fault => Sys2Proof.Machine.execDunSearch e fault s
  | .slvNop e fault => Sys2Proof.Machine.execSlvNop e fault s
  | .qpBind e fault => Sys2Proof.Machine.execQpBind e fault s
  | .qpUnbind e fault => Sys2Proof.Machine.execQpUnbind e fault s
  | .qpFactor e fault => Sys2Proof.Machine.execQpFactor e fault s
  | .qpSolve e fault => Sys2Proof.Machine.execQpSolve e fault s
  | .mpcStep e fault => Sys2Proof.Machine.execMpcStep e fault s
  | .batchFactor e fault => Sys2Proof.Machine.execBatchFactor e fault s
  | .batchSolve e fault => Sys2Proof.Machine.execBatchSolve e fault s
  | .solverDeadlineMissed e fac k => Sys2Proof.Machine.execSolverDeadlineMissed e fac k s
  | .lomNop fault => Sys2Proof.Machine.execLomNop fault s
  | .frameLoad fault => Sys2Proof.Machine.execFrameLoad fault s
  | .lomTransform fault => Sys2Proof.Machine.execLomTransform fault s
  | .lomAssociate fault => Sys2Proof.Machine.execLomAssociate fault s
  | .trackApply fault => Sys2Proof.Machine.execTrackApply fault s
  | .trackRead fault => Sys2Proof.Machine.execTrackRead fault s
  | .contextEnable m c v => Sys2Proof.Machine.execContextEnable m c v s
  | .contextDisable m c v => Sys2Proof.Machine.execContextDisable m c v s
  | .tltInputWrite m c idx v => Sys2Proof.Machine.execTltInputWrite m c idx v s
  | .groupCommit m c v => Sys2Proof.Machine.execGroupCommit m c v s
  | .sampleInstant c => Sys2Proof.Machine.execSampleInstant c s
  | .sampleDeadline c => Sys2Proof.Machine.execSampleDeadline c s
  | .lawLoad m c => Sys2Proof.Machine.execLawLoad m c s
  | .lawLoadDone c => Sys2Proof.Machine.execLawLoadDone c s
  | .setpointCellChange c => Sys2Proof.Machine.execSetpointCellChange c s
  | .setpointReadDone c => Sys2Proof.Machine.execSetpointReadDone c s
  | .tltRestart m => Sys2Proof.Machine.execTltRestart m s
  | .testRun m c v => Sys2Proof.Machine.execTestRun m c v s
  | .tilthFrameLaunch n c => Sys2Proof.Machine.execTilthFrameLaunch n c s
  | .timeBaseTick n => Sys2Proof.Machine.execTimeBaseTick n s
  | .timeBaseWrap => Sys2Proof.Machine.execTimeBaseWrap s
  | .timRateWrite m v => Sys2Proof.Machine.execTimRateWrite m v s
  | .timStep m => Sys2Proof.Machine.execTimStep m s
  | .epochHiWrite m v => Sys2Proof.Machine.execEpochHiWrite m v s
  | .ethFrameReceive n ts fcsOk f => Sys2Proof.Machine.execEthFrameReceive n ts fcsOk f s
  | .pauseFrameReceive n quanta => Sys2Proof.Machine.execPauseFrameReceive n quanta s
  | .ethDoorbell m n q rx v => Sys2Proof.Machine.execEthDoorbell m n q rx v s
  | .ethFrameTransmit n => Sys2Proof.Machine.execEthFrameTransmit n s
  | .ethTxComplete n q => Sys2Proof.Machine.execEthTxComplete n q s
  | .lateDrop n q => Sys2Proof.Machine.execLateDrop n q s
  | .gateChangeRequest m n v => Sys2Proof.Machine.execGateChangeRequest m n v s
  | .gateListChange n => Sys2Proof.Machine.execGateListChange n s
  | .gateEntryAdvance n => Sys2Proof.Machine.execGateEntryAdvance n s
  | .ethClsWord0Write m n e v => Sys2Proof.Machine.execEthClsWord0Write m n e v s
  | .zthPortEnable m p => Sys2Proof.Machine.execZthPortEnable m p s
  | .zthPortDisable m p => Sys2Proof.Machine.execZthPortDisable m p s
  | .trainStateTimeout p => Sys2Proof.Machine.execTrainStateTimeout p s
  | .capFlitReceive p ls => Sys2Proof.Machine.execCapFlitReceive p ls s
  | .flitReceive p ls => Sys2Proof.Machine.execFlitReceive p ls s
  | .nakReceive p ls => Sys2Proof.Machine.execNakReceive p ls s
  | .zthRetrain m p lost => Sys2Proof.Machine.execZthRetrain m p lost s
  | .linkDrop p => Sys2Proof.Machine.execLinkDrop p s
  | .zthWindowAccess m a n bs wr => Sys2Proof.Machine.execZthWindowAccess m a n bs wr s
  | .zthWriteMsg p => Sys2Proof.Machine.execZthWriteMsg p s
  | .zthReadReq p => Sys2Proof.Machine.execZthReadReq p s
  | .zthReadResp p => Sys2Proof.Machine.execZthReadResp p s
  | .zthWriteAck p => Sys2Proof.Machine.execZthWriteAck p s
  | .zthNotice p => Sys2Proof.Machine.execZthNotice p s
  | .zthRouteWrite m e v => Sys2Proof.Machine.execZthRouteWrite m e v s
  | .csiLongPacket p ecc vc dt bs crcBad => Sys2Proof.Machine.execCsiLongPacket p ecc vc dt bs crcBad s
  | .csiFrameStart p ecc vc num => Sys2Proof.Machine.execCsiFrameStart p ecc vc num s
  | .csiFrameEnd p ecc vc => Sys2Proof.Machine.execCsiFrameEnd p ecc vc s
  | .csiDoorbell m p v n => Sys2Proof.Machine.execCsiDoorbell m p v n s
  | .pcieInboundRequest p wr rid a n bs => Sys2Proof.Machine.execPcieInboundRequest p wr rid a n bs s
  | .poisonedTlpReceive p cpl tag rid a bs => Sys2Proof.Machine.execPoisonedTlpReceive p cpl tag rid a bs s
  | .pcieCplTimeout p tag => Sys2Proof.Machine.execPcieCplTimeout p tag s
  | .msixTrig m p v => Sys2Proof.Machine.execMsixTrig m p v s
  | .perstAssert p => Sys2Proof.Machine.execPerstAssert p s
  | .flashRead m opcode => Sys2Proof.Machine.execFlashRead m opcode s
  | .flashProgram m opcode => Sys2Proof.Machine.execFlashProgram m opcode s
  | .flashErase m opcode => Sys2Proof.Machine.execFlashErase m opcode s
  | .flashReadSfdp m opcode => Sys2Proof.Machine.execFlashReadSfdp m opcode s
  | .flashRegRead m opcode => Sys2Proof.Machine.execFlashRegRead m opcode s
  | .flashRegWrite m opcode => Sys2Proof.Machine.execFlashRegWrite m opcode s
  | .xspCmdDone err => Sys2Proof.Machine.execXspCmdDone err s
  | .canTxReq m n v => Sys2Proof.Machine.execCanTxReq m n v s
  | .canTxComplete n sent sof => Sys2Proof.Machine.execCanTxComplete n sent sof s
  | .canFrameReceive n w dlc flags data sof => Sys2Proof.Machine.execCanFrameReceive n w dlc flags data sof s
  | .canRecover m n => Sys2Proof.Machine.execCanRecover m n s
  | .canAbortAll m n busy => Sys2Proof.Machine.execCanAbortAll m n busy s
  | .canRxDoorbell m n r v => Sys2Proof.Machine.execCanRxDoorbell m n r v s
  | .pinFuncWrite m n v => Sys2Proof.Machine.execPinFuncWrite m n v s
  | .parkIntervalEnd n => Sys2Proof.Machine.execParkIntervalEnd n s
  | .pwmStart n start period high => Sys2Proof.Machine.execPwmStart n start period high s
  | .captureEdge n sel rising => Sys2Proof.Machine.execCaptureEdge n sel rising s
  | .hartStart m self h => Sys2Proof.Machine.execHartStart m self h s
  | .hartStop m self h => Sys2Proof.Machine.execHartStop m self h s
  | .cacheError kind a => Sys2Proof.Machine.execCacheError kind a s
  | .msiMessage h file e claimed => Sys2Proof.Machine.execMsiMessage h file e claimed s
  | .stimecmpMatch h t => Sys2Proof.Machine.execStimecmpMatch h t s
  | .startUp env => Sys2Proof.Machine.execStartUp env s
  | .resetNAssert ns => Sys2Proof.Machine.execResetNAssert ns s
  | .railMonitorTrip rail mv => Sys2Proof.Machine.execRailMonitorTrip rail mv s
  | .mailboxDoorbell m v => Sys2Proof.Machine.execMailboxDoorbell m v s
  | .mbxOpen => Sys2Proof.Machine.execMbxOpen s
  | .mbxClose => Sys2Proof.Machine.execMbxClose s
  | .mbxInfo => Sys2Proof.Machine.execMbxInfo s
  | .fmtWrite => Sys2Proof.Machine.execFmtWrite s
  | .partWrite => Sys2Proof.Machine.execPartWrite s
  | .hbxWrite => Sys2Proof.Machine.execHbxWrite s
  | .pinWrite => Sys2Proof.Machine.execPinWrite s
  | .logRead => Sys2Proof.Machine.execLogRead s
  | .updateBegin err => Sys2Proof.Machine.execUpdateBegin err s
  | .updateWrite err => Sys2Proof.Machine.execUpdateWrite err s
  | .updateCommit err => Sys2Proof.Machine.execUpdateCommit err s
  | .updateAbort err => Sys2Proof.Machine.execUpdateAbort err s
  | .rollbackAdvance => Sys2Proof.Machine.execRollbackAdvance s
  | .fuseKey => Sys2Proof.Machine.execFuseKey s
  | .moduleReset => Sys2Proof.Machine.execModuleReset s
  | .moduleResetDelayExpiry => Sys2Proof.Machine.execModuleResetDelayExpiry s
  | .logEntryWrite ok => Sys2Proof.Machine.execLogEntryWrite ok s
  | .rtcTick => Sys2Proof.Machine.execRtcTick s
  | .rtcSet m => Sys2Proof.Machine.execRtcSet m s
  | .vaonPowerUp => Sys2Proof.Machine.execVaonPowerUp s
  | .pmuPeriod => Sys2Proof.Machine.execPmuPeriod s
  | .phaseReport n => Sys2Proof.Machine.execPhaseReport n s
  | .capWrite m v => Sys2Proof.Machine.execCapWrite m v s
  | .energyApportion act moved occ charged => Sys2Proof.Machine.execEnergyApportion act moved occ charged s
  | .droopFiring n => Sys2Proof.Machine.execDroopFiring n s
  | .droopRelease n => Sys2Proof.Machine.execDroopRelease n s
  | .phaseFaultInput r low => Sys2Proof.Machine.execPhaseFaultInput r low s
  | .telemetrySample r mv is => Sys2Proof.Machine.execTelemetrySample r mv is s
  | .phaseRestoreRequest m r v => Sys2Proof.Machine.execPhaseRestoreRequest m r v s
  | .thermalSample rs => Sys2Proof.Machine.execThermalSample rs s
  | .shutdownHoldRelease vaon => Sys2Proof.Machine.execShutdownHoldRelease vaon s
  | .domainOnRequest m d => Sys2Proof.Machine.execDomainOnRequest m d s
  | .domainOffRequest m d => Sys2Proof.Machine.execDomainOffRequest m d s
  | .powerGood d => Sys2Proof.Machine.execPowerGood d s
  | .powerGoodTimeout d => Sys2Proof.Machine.execPowerGoodTimeout d s
  | .autoGateIdle d => Sys2Proof.Machine.execAutoGateIdle d s
  | .testBudgetGrant n => Sys2Proof.Machine.execTestBudgetGrant n s
  | .adcSample cI cV badI badV => Sys2Proof.Machine.execAdcSample cI cV badI badV s
  | .mtiCheckpoint bad => Sys2Proof.Machine.execMtiCheckpoint bad s
  | .powerFailSignal bad => Sys2Proof.Machine.execPowerFailSignal bad s
  | .mtiStart crc worn => Sys2Proof.Machine.execMtiStart crc worn s
  | .clockCheck bad => Sys2Proof.Machine.execClockCheck bad s
  | .ringSweep a b => Sys2Proof.Machine.execRingSweep a b s
  | .socEvaluation => Sys2Proof.Machine.execSocEvaluation s
  | .snapshotRefresh => Sys2Proof.Machine.execSnapshotRefresh s
  | .snapshotLatchRead m sweep => Sys2Proof.Machine.execSnapshotLatchRead m sweep s
  | .paramWrite en table crc bad => Sys2Proof.Machine.execParamWrite en table crc bad s
  | .paramRead en crc => Sys2Proof.Machine.execParamRead en crc s
  | .rawRead en crc => Sys2Proof.Machine.execRawRead en crc s
  | .mtiSeal en pcrc crc => Sys2Proof.Machine.execMtiSeal en pcrc crc s
  | .zthEnergyDetect p => Sys2Proof.Machine.execZthEnergyDetect p s
  | .zthBlockLock p lanes => Sys2Proof.Machine.execZthBlockLock p lanes s
  | .zthAlignDone p rev pol => Sys2Proof.Machine.execZthAlignDone p rev pol s
  | .capSend p => Sys2Proof.Machine.execCapSend p s
  | .flitSlot p => Sys2Proof.Machine.execFlitSlot p s
  | .ethLinkUp n => Sys2Proof.Machine.execEthLinkUp n s
  | .ethLinkDown n => Sys2Proof.Machine.execEthLinkDown n s
  | .pcieLinkUp p width rate => Sys2Proof.Machine.execPcieLinkUp p width rate s
  | .pcieLinkDown p => Sys2Proof.Machine.execPcieLinkDown p s
  | .pcieCompletion p tag err bs => Sys2Proof.Machine.execPcieCompletion p tag err bs s
  | .perstRelease p => Sys2Proof.Machine.execPerstRelease p s
  | .canArbitrationLost n sof => Sys2Proof.Machine.execCanArbitrationLost n sof s
  | .canBusError n tx inc sof => Sys2Proof.Machine.execCanBusError n tx inc sof s
  | .canRecoveryComplete n => Sys2Proof.Machine.execCanRecoveryComplete n s
  | .sampleComplete => Sys2Proof.Machine.execSampleComplete s
  | .engineOpComplete e load => Sys2Proof.Machine.execEngineOpComplete e load s
  | .loadStoreComplete n idx ep => Sys2Proof.Machine.execLoadStoreComplete n idx ep s
  | .vmetPowerLoss cut => Sys2Proof.Machine.execVmetPowerLoss cut s
  | .vaonPowerLoss => Sys2Proof.Machine.execVaonPowerLoss s
  | .jtagTapCycle tms tdi trst => Sys2Proof.Machine.execJtagTapCycle tms tdi trst s

end Sys2Proof.Machine
end

