-- ==== Sys2Proof/Machine/Step.lean ====
section
/-! DEFINITION. One step: the command at the front of the queue runs; on an empty queue the block idles. -/
namespace Sys2Proof.Machine

/-- The state after its first command is taken from the queue. -/
def State.dequeue (s : State) (rest : List Instr) : State := { s with pending := rest }

/-- One step. DESIGN CHOICE: with nothing waiting, nothing happens; time and every unit's own events are commands of their own rows. -/
def step (s : State) : Host.Outcome State Fault Refusal :=
  match s.pending with
  | [] => .next s
  | c :: rest => exec c (s.dequeue rest)

/-- s with the command a word spells put at the front of its queue; s where it spells none. -/
def State.withFetchWord (s : State) (nbits w : Nat) : State :=
  match Sys2Proof.decodeTableWord nbits w with
  | some c => { s with pending := c :: s.pending }
  | none => s

end Sys2Proof.Machine
end

