-- ==== Sys2Proof/Safety.lean ====
section
/-! DEFINITION. What a sound state of the model is, in the terms the statements use: every table that holds memory or registers in its
canonical form, so that equal contents are equal data. -/
namespace Sys2Proof.Machine

/-- Memory, as written and as upset, is in its canonical form: addresses strictly rising, no entry that reads as an unlisted one. -/
def Memory.wf (s : State) : Bool := Sparse.wf (fun _ => (0 : Byte)) s.mem && Sparse.wf (fun _ => (0 : Byte)) s.upsets

/-- The register file is in its canonical form. -/
def Registers.wf (s : State) : Bool := Sparse.wf regReset s.regs

/-- The power states of the domains are in their canonical form. -/
def Power.wf (s : State) : Bool := Sparse.wf pdReset s.pd

/-- A sound state. -/
def State.Sound (s : State) : Prop := Memory.wf s = true ∧ Registers.wf s = true ∧ Power.wf s = true

end Sys2Proof.Machine
end

