-- ==== Sys2Proof/Certificates/Slice0/Obligations.lean ====
section
/-! DEFINITION. The statements for the provers, by family: what each command does where it runs, what it leaves alone, and what every step keeps. -/
open Sys2Proof Sys2Proof.Machine

/-- For every command c, state s and queue rest, a step of s with c at the front of its queue is exec of c on s with the queue's rest; with an empty queue a step changes nothing (the model's choice, log entry 2). -/
def Obligations.StepRunsFront : Prop :=
  (∀ (c : Instr) (s : State) (rest : List Instr), step { s with pending := c :: rest } = exec c { s with pending := rest })
    ∧ ∀ s : State, step { s with pending := [] } = .next { s with pending := [] }

/-- Whatever the command and the state, a next state that exec answers has the same queue of waiting commands: only a step takes from it. This holds of start-up and of every reset of the module too (the queue is the model's own, log entries 2 and 3). -/
def Obligations.ExecKeepsQueue : Prop :=
  ∀ (c : Instr) (s t : State), exec c s = .next t → t.pending = s.pending

/-- For every command and state, exec answers a next state. A bus error, an access fault or an event that cannot happen is an answer of that next state (log entries 1 and 10). -/
def Obligations.ExecAnswersNext : Prop :=
  ∀ (c : Instr) (s : State), ∃ t, exec c s = .next t

/-- If memory (as written and as upset), the register file and the table of power states are in their canonical form (keys strictly rising, no entry equal to what an unlisted key reads as) and a step answers a next state, they are in that form there too. So equal contents are equal data in every state that a run reaches. -/
def Obligations.StepKeepsSound : Prop :=
  ∀ (s t : State), s.Sound → step s = .next t → t.Sound

/-- State.reset is sound; its queue is empty and its memory lists nothing; of the power domains exactly 80 to 83 (the always-on and metrology domains and the management and core domains of I/O die 0, R52) are on; the time base is 0 (R531). Which commands wait and what memory reads before start-up are the model's choices (log entries 2, 7 and 8). -/
def Obligations.ResetState : Prop :=
  State.reset.Sound ∧ State.reset.pending = [] ∧ State.reset.mem = [] ∧ (∀ d, State.reset.pdOn d = true ↔ 80 ≤ d ∧ d ≤ 83)
    ∧ State.reset.now = 0 ∧ ∀ a, State.reset.rd a = regReset a

/-- A write or a read of a register that is not 4 bytes wide, not aligned to 4 bytes, or by an application core outside the ranges R619 gives its harts, answers a bus error to the requester, or an access fault where the requester is an application core (R619), whose hart, where one is named, then holds the kind and the address of the access (R620); every register, byte of memory and other unit stays as it was (only the answer and the outputs of the last command are replaced). -/
def Obligations.NarrowAccess : Prop :=
  ∀ (s : State) (m self a n w : Nat), n ≠ 4 ∨ a % 4 ≠ 0 ∨ s.nowhere m a = true →
    (m ≠ 0x60 → exec (.registerWrite m self a n w) s = .next { s with resp := .busError, out := [] }
      ∧ exec (.rcRead m self a n) s = .next { s with resp := .busError, out := [] })
    ∧ (m = 0x60 → ∀ h t, h = (if self ≤ 24 then self else self - 25) → t = ({ s with resp := .accessFault, out := [] } : State) →
      (24 ≤ h → exec (.registerWrite m self a n w) s = .next t ∧ exec (.rcRead m self a n) s = .next t)
      ∧ (h < 24 → exec (.registerWrite m self a n w) s = .next (t.setHart h { s.hart h with trap := some (.store, a) })
        ∧ exec (.rcRead m self a n) s = .next (t.setHart h { s.hart h with trap := some (.load, a) })))

/-- Where master m may write the register at a (and neither R619 nor R628 bars its hart), the register's write is no command of its own and its conditions hold, REGISTER_WRITE of w leaves the register's RW bits as in w, its W1C bits cleared where w has 1, its W1S bits set where w has 1 and its other bits as they were; every other register, all of memory and every unit stays as it was, but for the interrupt line that follows the register (State.senseAt). A write to an address that holds no register changes nothing. -/
def Obligations.RegisterWriteCompletes : Prop :=
  ∀ (s : State) (m self a w : Nat), s.mayWrite m a = true → lowBarred self a = false → s.nowhere m a = false →
    (∀ d, regAt a = some d → let i := getAt (0 : Nat) (regIdx d a).2; let b := (regIdx d a).1; let x := BitVec.ofNat 32 w
      s.start.ownDck b i x = none → s.start.ownMid b i x = none → s.start.ownPorts m b i d a x = none → s.start.ownSys m self b i d x = none →
      s.start.writable b i x = true →
      exec (.registerWrite m self a 4 w) s = .next ((s.start.wr a
        (((s.rd a &&& ~~~(BitVec.ofNat 32 d.rw)) ||| (x &&& BitVec.ofNat 32 d.rw)) &&& ~~~(x &&& BitVec.ofNat 32 d.w1c) ||| (x &&& BitVec.ofNat 32 d.w1s))).senseAt a))
    ∧ (regAt a = none → exec (.registerWrite m self a 4 w) s = .next s.start)

/-- Where master m may read the register at a (and neither R619 nor R628 bars its hart): RC_READ answers the word the register shows m, a class register of the Headbox once that class is brought up to date (R385 to R388). A register that has no RC field, is no low word and is neither an input pin's nor the first word of a snapshot is left as it was, with everything else; a register with RC fields has them at their reset values afterwards and its other bits as they were; the read of a low word at a, by RC_READ or LOW_WORD_READ, latches for m the word the high register then showed, and a later read of the high register by m shows that word. -/
def Obligations.ReadCompletes : Prop :=
  ∀ (s : State) (m self a : Nat), s.mayRead m a = true → lowBarred self a = false → s.nowhere m a = false → ¬ (0x66000000 ≤ a ∧ a < 0x66000180) → a ≠ MTI_SNAP.addr 0 → a ≠ MTI_SWEEP.addr 0 →
    let u := if hbxClassReg a then s.start.hbxShow ((a - 0x22000000) / 0x800000) ((a % 0x800000 - 0x10000) / 64) else s.start
    let w := (u.latched m a).getD (u.live m a)
    (isLow a = false → (∀ d, regAt a = some d → d.rc = 0) → exec (.rcRead m self a 4) s = .next (u.say (.word w)))
    ∧ (isLow a = false → ∀ d, regAt a = some d → d.rc ≠ 0 → exec (.rcRead m self a 4) s = .next ((u.wr a
        ((u.rd a &&& ~~~(BitVec.ofNat 32 d.rc)) ||| (BitVec.ofNat 32 d.reset &&& BitVec.ofNat 32 d.rc))).say (.word w)))
    ∧ (isLow a = true → (∀ d, regAt a = some d → d.rc = 0) →
        exec (.lowWordRead m self a) s = .next ({ u with
          latches := Sparse.set (fun _ => none) u.latches (latchKey m (a + 4)) (some (u.live m (a + 4))), resp := .word w })
        ∧ exec (.rcRead m self a 4) s = exec (.lowWordRead m self a) s)

/-- For a loadable entry (20 to 31) with no copy under way and a master that may write it: a LO write only holds the word (every register as it was). A HI write with an entry the table of R90 accepts and no object locks puts LO and HI into the table, sets BUSY and LAST_INDEX; one that fails sets REJECT, LOCKED or both and LAST_INDEX and leaves the entry as it was. The end of the copy clears BUSY and lets a waiting admission go on. -/
def Obligations.FormatEntryWrites : Prop :=
  ∀ (s : State) (m n v : Nat), 20 ≤ n → n < 32 → s.mayWrite m (MGT_FMT_DESC_LO.addr n) = true → s.mayWrite m (MGT_FMT_DESC_HI.addr n) = true →
    (s.flag MGT_FMT_CTRL.BUSY = false →
      exec (.fmtDescLoWrite m n v) s = .next (s.start.hold (MGT_FMT_DESC_LO.addr n) (BitVec.ofNat 32 v))
      ∧ (let f := Fmt.ofWords (s.heldOr (MGT_FMT_DESC_LO.addr n)).toNat (BitVec.ofNat 32 v).toNat
         let t := (s.start.unhold (MGT_FMT_DESC_LO.addr n)).setF MGT_FMT_CTRL.LAST_INDEX n
         (f.valid = true → s.fmtLocked n = false → exec (.fmtDescHiWrite m n v) s = .next (((t.wr (MGT_FMT_DESC_LO.addr n) (BitVec.ofNat 32 f.lo)).wr
            (MGT_FMT_DESC_HI.addr n) (BitVec.ofNat 32 f.hi)).setF MGT_FMT_CTRL.BUSY 1))
         ∧ (f.valid = false → s.fmtLocked n = false → exec (.fmtDescHiWrite m n v) s = .next (t.setF MGT_FMT_CTRL.REJECT 1))
         ∧ (f.valid = true → s.fmtLocked n = true → exec (.fmtDescHiWrite m n v) s = .next (t.setF MGT_FMT_CTRL.LOCKED 1))
         ∧ (f.valid = false → s.fmtLocked n = true →
            exec (.fmtDescHiWrite m n v) s = .next ((t.setF MGT_FMT_CTRL.REJECT 1).setF MGT_FMT_CTRL.LOCKED 1))))
    ∧ (s.flag MGT_FMT_CTRL.BUSY = true → exec .fmtEntryCopyDone s = .next (s.start.setF MGT_FMT_CTRL.BUSY 0).resumeAdmission
        ∧ (s.adm = .idle → exec .fmtEntryCopyDone s = .next (s.start.setF MGT_FMT_CTRL.BUSY 0)))

/-- For a master that may ring the queue, with n the new tail less TAIL modulo 2^32: on a disabled queue DB_IGNORED sets; a queue whose object is being unloaded takes nothing (R208); with n = 0 nothing happens; when depth plus n is at most SIZE, TAIL becomes the new tail (and a default task that had no key gets the band's key of this moment, R229); otherwise FULL_REJ sets and TAIL stays. Nothing else changes. -/
def Obligations.QueueDoorbells : Prop :=
  ∀ (s : State) (m q v : Nat), s.mayWrite m (DCK_QUEUE_DB.addr q) = true →
    let n := (v + 2 ^ 32 - s.qTail q % 2 ^ 32) % 2 ^ 32
    (s.qOn q = false → exec (.queueDoorbell m q v) s = .next (s.start.setF (DCK_QUEUE_STATUS.DB_IGNORED q) 1))
    ∧ (s.qOn q = true → n = 0 ∨ (∃ o, s.objOfQueue q = some o ∧ o.unloading = true) → exec (.queueDoorbell m q v) s = .next s.start)
    ∧ ((s.objOfQueue q).all (fun o => !o.unloading) = true → s.qOn q = true → n ≠ 0 →
      (s.qDepth q + n ≤ s.ringSize q →
        let u := s.start.setF (DCK_QUEUE_TAIL.COUNT q) v
        let t := u.noteBell q v
        exec (.queueDoorbell m q v) s = .next t
        ∧ (∀ k, (s.q q).key = some k → (t.q q).key = (s.objOfQueue q).elim (s.q q).key (fun _ => some k))
        ∧ ((s.q q).key = none → ∀ o, s.objOfQueue q = some o → (t.q q).key = some (u.bandKey o.part (u.fld (DCK_QUEUE_CFG.DEF_BAND q)))))
      ∧ (s.ringSize q < s.qDepth q + n → exec (.queueDoorbell m q v) s = .next (s.start.setF (DCK_QUEUE_STATUS.FULL_REJ q) 1)))

/-- QUEUE_CFG_WRITE by a master that may write it: an ENGINE of 6 or 7 changes CFG_ERR to 4 and nothing else (the whole write refused is the model's reading, log entry 73). With ENGINE at most 5 the other RW fields are taken, and: with EN from 0 to 1 and a failing condition (its number in R223's order) CFG_ERR holds the number; with EN from 1 to 0 while the queue is not idle CFG_ERR becomes 6; with EN kept as it was CFG_ERR clears. When every condition holds the queue is enabled with its four counts at 0, its version the lesser of VER_MAX and 1, and nothing of an earlier use left. CPL_HEAD_WRITE: a count that pops more records than were written sets CPL_REJ alone; any other becomes the head count, and a cancellation that waited for slots goes on from there: it cancels entries up to where it stood, and where it waits no more the queue's cluster is given up. -/
def Obligations.QueueConfiguration : Prop :=
  ∀ (s : State) (m q v : Nat), s.mayWrite m (DCK_QUEUE_CFG.addr q) = true → s.mayWrite m (DCK_QUEUE_CPL_HEAD.addr q) = true →
    let w := BitVec.ofNat 32 v
    let f := (((s.start.setF (DCK_QUEUE_CFG.ENGINE q) (bits w 30 28)).setF (DCK_QUEUE_CFG.DEF_BAND q) (bits w 27 26)).setF
      (DCK_QUEUE_CFG.VER_MAX q) (bits w 25 22)).setF (DCK_QUEUE_CFG.VER_MIN q) (bits w 21 18)
    (5 < bits w 30 28 → exec (.queueCfgWrite m q v) s = .next (s.start.setF (DCK_QUEUE_STATUS.CFG_ERR q) 4))
    ∧ (s.qOn q = false → bits w 31 31 = 1 → s.cfgErr q w ≠ 0 → bits w 30 28 ≤ 5 → exec (.queueCfgWrite m q v) s = .next (f.setF (DCK_QUEUE_STATUS.CFG_ERR q) (s.cfgErr q w)))
    ∧ (s.qOn q = false → bits w 31 31 = 1 → s.cfgErr q w = 0 → bits w 30 28 ≤ 5 → exec (.queueCfgWrite m q v) s = .next
        ((((((((f.setF (DCK_QUEUE_CFG.EN q) 1).setF (DCK_QUEUE_CFG.VER_USED q) (Nat.min (bits w 25 22) 1)).setF (DCK_QUEUE_STATUS.CFG_ERR q) 0).setF (DCK_QUEUE_HEAD.COUNT q) 0).setF
          (DCK_QUEUE_TAIL.COUNT q) 0).setF (DCK_QUEUE_CPL_HEAD.NEW_COUNT q) 0).setF (DCK_QUEUE_CPL_TAIL.COUNT q) 0).setQ q QState.init))
    ∧ (s.qOn q = true → bits w 31 31 = 0 → s.cfgIdle q = true → bits w 30 28 ≤ 5 → exec (.queueCfgWrite m q v) s = .next
        (((f.setF (DCK_QUEUE_CFG.EN q) 0).setF (DCK_QUEUE_CFG.VER_USED q) 0).setF (DCK_QUEUE_STATUS.CFG_ERR q) 0))
    ∧ (s.qOn q = true → bits w 31 31 = 0 → s.cfgIdle q = false → bits w 30 28 ≤ 5 → exec (.queueCfgWrite m q v) s = .next (f.setF (DCK_QUEUE_STATUS.CFG_ERR q) 6))
    ∧ (s.qOn q = (bits w 31 31 == 1) → bits w 30 28 ≤ 5 → exec (.queueCfgWrite m q v) s = .next (f.setF (DCK_QUEUE_STATUS.CFG_ERR q) 0))
    ∧ (s.cplWritten q < wrapSub v (s.fld (DCK_QUEUE_CPL_HEAD.NEW_COUNT q)) →
        exec (.cplHeadWrite m q v) s = .next (s.start.setF (DCK_QUEUE_STATUS.CPL_REJ q) 1))
    ∧ (wrapSub v (s.fld (DCK_QUEUE_CPL_HEAD.NEW_COUNT q)) ≤ s.cplWritten q → (s.q q).cancelTo = none →
        exec (.cplHeadWrite m q v) s = .next (s.start.setF (DCK_QUEUE_CPL_HEAD.NEW_COUNT q) v))
    ∧ (wrapSub v (s.fld (DCK_QUEUE_CPL_HEAD.NEW_COUNT q)) ≤ s.cplWritten q → ∀ stop, (s.q q).cancelTo = some stop →
        let t := (s.start.setF (DCK_QUEUE_CPL_HEAD.NEW_COUNT q) v).cancelUpTo q stop (match s.objOfQueue q with | some o => o.unloading | none => false)
        exec (.cplHeadWrite m q v) s = .next (if (t.q q).cancelTo.isNone then t.releaseAfterCancel q else t))

/-- By a master that may write DCK_QUEUE_CTRL_q: RESUME clears HALT and its code and nothing else. CANCEL_TASK cancels entries up to the next task boundary and CANCEL_ALL up to TAIL (a held wait and the saved task first), each then giving up the queue's cluster and the one kept for its task; on a queue of no object, with nothing bound and no split job under way, CANCEL_TASK leaves all registers and memory as they were. -/
def Obligations.QueueControl : Prop :=
  ∀ (s : State) (m q : Nat) (res : Bool), s.mayWrite m (DCK_QUEUE_CTRL.addr q) = true →
    exec (.resumeQueue m q) s = .next ((s.start.setF (DCK_QUEUE_STATUS.HALT q) 0).setF (DCK_QUEUE_STATUS.HALT_CODE q) 0)
    ∧ (let t := ((s.start.cancelUpTo q (s.start.taskEnd q) false).dropKept q).releaseAfterCancel q
       exec (.cancelTask m q res) s = .next (if res then (t.setF (DCK_QUEUE_STATUS.HALT q) 0).setF (DCK_QUEUE_STATUS.HALT_CODE q) 0 else t))
    ∧ (let u := ((s.start.setQ q { s.q q with wait := match (s.q q).wait with
          | some (.cell _ _ _) => none | some (.timed _ _ _ _ _ _) => none | w => w }).dropSaved q).dropKept q
       let t := (u.cancelUpTo q (u.qTail q) false).releaseAfterCancel q
       exec (.cancelAll m q res) s = .next (if res then (t.setF (DCK_QUEUE_STATUS.HALT q) 0).setF (DCK_QUEUE_STATUS.HALT_CODE q) 0 else t))
    ∧ (s.objOfQueue q = none → (s.q q).bound = none → (s.q q).job = none →
      exec (.cancelTask m q false) s = .next ((s.start.dropKept q).setQ q { s.q q with releasing := false }))

/-- Where the head of queue q is a well-formed control entry b of object o with the code named, the entry is popped and then: TASK ends the current task and starts one with the key its DL_MODE gives and its residency tag; TASK_END ends it, the key of what follows being the one its first doorbell gave; WAIT and TIMED_WAIT block the queue when the cell is short of TARGET and pass when it has reached it, following ON_CANCEL where the cell has CANCEL; SIGNAL adds VALUE to the cell and SET sets it, at once or, with AFTER and operations in flight, once they have retired, the queue blocked until then (WaitsEnd); FENCE blocks while operations are in flight. A bad control entry is popped and halts the queue with the code it draws. -/
def Obligations.ControlEntries : Prop :=
  ∀ (s : State) (q : Nat) (o : Obj) (b : List Byte),
    let t := s.start.pop q
    (s.headControl q 0xE0 = some (o, b) → exec (.taskEntry q) s = .next (t.endTask q (some (t.taskKey o b)) (leAt b 8 4)))
    ∧ (s.headControl q 0xE6 = some (o, b) → exec (.taskEndEntry q) s = .next (t.endTask q (t.defaultKey q) 0))
    ∧ (s.headControl q 0xE1 = some (o, b) → t.cellReached (leAt b 4 2) (leAt b 8 4) = false →
        exec (.waitEntry q) s = .next (t.setQ q { t.q q with wait := some (.cell (leAt b 4 2) (leAt b 8 4) (bitN (leAt b 2 2) 0)) }))
    ∧ (∀ u, t.cellReached (leAt b 4 2) (leAt b 8 4) = true → u = t.setQ q { t.q q with wait := none } →
        (s.headControl q 0xE1 = some (o, b) →
          exec (.waitEntry q) s = .next (if bitN (leAt b 2 2) 0 && s.flag (DCK_CELL_FLAGS.CANCEL (leAt b 4 2)) then u.cancelTask q else u))
        ∧ (s.headControl q 0xE2 = some (o, b) →
          exec (.timedWaitEntry q) s = .next (if bitN (leAt b 2 2) 0 && s.flag (DCK_CELL_FLAGS.CANCEL (leAt b 4 2)) then u.cancelTask q else u)))
    ∧ (s.headControl q 0xE2 = some (o, b) → t.cellReached (leAt b 4 2) (leAt b 8 4) = false →
        exec (.timedWaitEntry q) s = .next (t.setQ q { t.q q with wait := some (.timed (leAt b 4 2) (leAt b 8 4)
          (if bitN (leAt b 2 2) 3 then leAt b 12 4 else (s.dlNow + clampRel (leAt b 12 4)) % 2 ^ 32) (bitN (leAt b 2 2) 0) (bitN (leAt b 2 2) 1)
          (if bitN (leAt b 2 2) 2 then some (leAt b 6 2) else none)) }))
    ∧ (s.headControl q 0xE3 = some (o, b) → (bitN (leAt b 2 2) 0 = false ∨ (s.q q).inflight = 0) →
        exec (.signalEntry q) s = .next (t.cellAdd (leAt b 4 2) (leAt b 8 4)))
    ∧ (s.headControl q 0xE4 = some (o, b) → (bitN (leAt b 2 2) 0 = false ∨ (s.q q).inflight = 0) →
        exec (.setEntry q) s = .next (t.cellSet (leAt b 4 2) (leAt b 8 4) (bitN (leAt b 2 2) 1)))
    ∧ (bitN (leAt b 2 2) 0 = true → (s.q q).inflight ≠ 0 →
        (s.headControl q 0xE3 = some (o, b) →
          exec (.signalEntry q) s = .next (t.setQ q { t.q q with wait := some (.signalAfter (leAt b 4 2) (leAt b 8 4)) }))
        ∧ (s.headControl q 0xE4 = some (o, b) →
          exec (.setEntry q) s = .next (t.setQ q { t.q q with wait := some (.setAfter (leAt b 4 2) (leAt b 8 4) (bitN (leAt b 2 2) 1)) })))
    ∧ (s.headControl q 0xE5 = some (o, b) → (s.q q).inflight = 0 → exec (.fenceEntry q) s = .next t)
    ∧ (s.headControl q 0xE5 = some (o, b) → (s.q q).inflight ≠ 0 → exec (.fenceEntry q) s = .next (t.setQ q { t.q q with wait := some .fence }))
    ∧ (∀ c, s.headBad q = some c → exec (.reservedControlEntry q) s = .next (t.halt q c))

/-- WAIT_RELEASE: a queue that waits on a cell that has reached its target waits no more, and follows ON_CANCEL where it asks for it and the cell has CANCEL. TIMED_WAIT_TIMEOUT: when DL_NOW has passed the timeout with the target not reached, TO_CELL (if any) is signalled and the queue proceeds, or cancels the rest of its task. FENCE_RELEASE: with no operation in flight a fence ends, and a SIGNAL or SET that waited acts. -/
def Obligations.WaitsEnd : Prop :=
  ∀ (s : State) (q cell target : Nat),
    (∀ rest, (s.q q).wait = some (.cell cell target rest) → s.cellReached cell target = true →
      let t := s.start.setQ q { s.q q with wait := none }
      exec (.waitRelease q) s = .next (if rest && s.flag (DCK_CELL_FLAGS.CANCEL cell) then t.cancelTask q else t))
    ∧ (∀ tEnd rest proceed to_, (s.q q).wait = some (.timed cell target tEnd rest proceed to_) →
      (s.cellReached cell target = true →
        let t := s.start.setQ q { s.q q with wait := none }
        exec (.waitRelease q) s = .next (if rest && s.flag (DCK_CELL_FLAGS.CANCEL cell) then t.cancelTask q else t))
      ∧ (passed s.dlNow tEnd = true → s.cellReached cell target = false →
        let t := match to_ with | some c => s.start.cellAdd c 1 | none => s.start
        let u := t.setQ q { t.q q with wait := none }
        exec (.timedWaitTimeout q) s = .next (if proceed then u else u.cancelTask q)))
    ∧ ((s.q q).inflight = 0 → let t := s.start.setQ q { s.q q with wait := none }
      ((s.q q).wait = some .fence → exec (.fenceRelease q) s = .next t)
      ∧ (∀ c v, (s.q q).wait = some (.signalAfter c v) → exec (.fenceRelease q) s = .next (t.cellAdd c v))
      ∧ (∀ c v clr, (s.q q).wait = some (.setAfter c v clr) → exec (.fenceRelease q) s = .next (t.cellSet c v clr)))

/-- By a master that may write them, in a state whose register file is canonical (which every step keeps, StepKeepsSound): a write of DCK_CELL_n makes the cell's VALUE the word written; a write of DCK_CELL_ADD_n adds it modulo 2^32, WRAP setting when the sum reaches 2^32 and staying as it was otherwise. CANCEL, every other cell, every other register, memory and all units are as before. Cells are 65,536. -/
def Obligations.CellSignalsCarry : Prop :=
  ∀ (s : State) (m n v : Nat), s.Sound → n < 65536 → v < 2 ^ 32 →
    (s.mayWrite m (DCK_CELL.addr n) = true → ∃ t, exec (.cellWrite m n v) s = .next t ∧ t.cell n = v ∧ (∀ k, k < 65536 → k ≠ n → t.cell k = s.cell k)
      ∧ (∀ a, a ≠ DCK_CELL.addr n → t.rd a = s.rd a) ∧ (∃ r, t = { s.start with regs := r }))
    ∧ (s.mayWrite m (DCK_CELL_ADD.addr n) = true → ∃ t, exec (.cellAddWrite m n v) s = .next t ∧ t.cell n = (s.cell n + v) % 2 ^ 32
      ∧ t.fld (DCK_CELL_FLAGS.WRAP n) = (if 2 ^ 32 ≤ s.cell n + v then 1 else s.fld (DCK_CELL_FLAGS.WRAP n))
      ∧ t.fld (DCK_CELL_FLAGS.CANCEL n) = s.fld (DCK_CELL_FLAGS.CANCEL n) ∧ (∀ k, k < 65536 → k ≠ n → t.cell k = s.cell k)
      ∧ (∀ a, a ≠ DCK_CELL.addr n → a ≠ DCK_CELL_FLAGS.addr n → t.rd a = s.rd a) ∧ (∃ r, t = { s.start with regs := r }))

/-- When the time base has passed DL_NOW's microsecond, DEADLINE_TICK makes DL_NOW one more modulo 2^32; every queue that holds a task key keeps its deadline and band, an overdue key stays overdue as it was, and a key with a deadline whose remaining time is now 2^31 or more becomes overdue; so are the keys its doorbells gave to tasks still to come, and nothing else of a queue changes. No register, no byte of memory and no other unit changes. -/
def Obligations.DeadlineTick : Prop :=
  ∀ (s : State), s.dlNow ≠ s.now / 1000 % 2 ^ 32 →
    ∃ t, exec .deadlineTick s = .next t ∧ t.dlNow = (s.dlNow + 1) % 2 ^ 32
      ∧ t = { s with resp := .done, out := [], dlNow := t.dlNow, overdueCtr := s.overdueCtr + 1, queues := t.queues }
      ∧ ∀ q, (∀ k, (s.q q).key = some k → ∃ k', (t.q q).key = some k' ∧ k'.deadline = k.deadline ∧ k'.band = k.band ∧ k'.isDl = k.isDl
            ∧ (k.overdue.isSome = true → k' = k)
            ∧ (k.overdue = none → ∀ d, k.deadline = some d → (k'.overdue.isSome = true ↔ 2 ^ 31 ≤ (d + 2 ^ 32 - t.dlNow % 2 ^ 32) % 2 ^ 32)))
          ∧ ((s.q q).key = none → (t.q q).key = none) ∧ (t.q q).bells.map (·.1) = (s.q q).bells.map (·.1)
          ∧ t.q q = { s.q q with key := (t.q q).key, bells := (t.q q).bells }

/-- Where c is the first-ranked candidate of receiver e, no restore, and o the object of its queue: if a split job is under way its next part is popped and goes to the candidate's cluster; if the queue is an engine's, the head entry is popped, counted in flight and sent to the engine's unit; if it is a cluster's and the head is a single operation or part 0 of a split job that R185 allows, the head is popped, the task bound to the cluster where it was not, the operation counted in flight and put in that cluster's issue stage with its tensor descriptors as they stand; a split job whose parts depart from R185 completes whole. -/
def Obligations.DispatchSends : Prop :=
  ∀ (s : State) (e : Nat) (c : Dispatch) (o : Obj), s.choose e = some c → c.kind ≠ .restore → s.objOfQueue c.q = some o →
    let b := s.start.entry c.q (s.start.qHead c.q)
    (∀ j, (s.q c.q).job = some j → exec (.operationDispatch e) s = .next (s.start.sendPart o c j))
    ∧ ((s.q c.q).job = none → e ≠ 0 → let t := (s.start.pop c.q).countOp c.q (OpDesc.ofBytes b).record
        exec (.operationDispatch e) s = .next (t.sendEngine e (t.makeOp o c.q (s.start.qHead c.q) 0xFF b [] (keyOverdue (s.q c.q).key) false)))
    ∧ ((s.q c.q).job = none → e = 0 →
        let n := splitCount 0 b
        let bs := (List.range n).map (fun i => s.start.entry c.q ((s.start.qHead c.q + i) % 2 ^ 32))
        (1 < n → splitOk bs = false → exec (.operationDispatch e) s = .next (s.start.refuseJob o c.q n (s.start.qHead c.q) bs))
        ∧ (n ≤ 1 ∨ splitOk bs = true →
        let u := s.start.pop c.q
        let v := (if (s.q c.q).bound.isSome then u else u.bindTask c.q c.clu (s.q c.q).resTag false).countOp c.q (OpDesc.ofBytes b).record
        let t := v.setQ c.q { v.q c.q with mark := if (OpDesc.ofBytes b).pmark then some (OpDesc.ofBytes b).liveRec else none, job := if 1 < n then some ⟨s.start.qHead c.q, b, n, 1, []⟩ else none }
        exec (.operationDispatch e) s = .next (t.sendCluster (t.makeOp o c.q (s.start.qHead c.q) c.clu b (s.start.readTds o b) (keyOverdue (s.q c.q).key) (decide (1 < n))))))

/-- PREEMPT starts the save of its victim into the partition's lowest free slot. SAVE_COMPLETE, with no block of the slot being filled, writes the slot (a header whose first 64 bytes are internal and left open, the Vat's block tags, the live ranges), unbinds the task, keeps its cluster for the task it gave way to, and owes PREEMPTED to its next record. RESTORE starts the restore of a saved task that ranks first, on an eligible cluster, and RESTORE_COMPLETE, with no block of the slot being filled, puts the ranges and tags back, frees the slot and binds the task, or leaves it saved where the cluster has begun to drain. CLUSTER_DRAINED marks a draining cluster that has no bound task, no operation and no save or restore under way. -/
def Obligations.PreemptionAndDrain : Prop :=
  ∀ (s : State),
    (∀ q h o rec c k, s.preemptVictim = some (q, h) → s.start.objOfQueue q = some o → s.start.atPoint q = some rec → (s.q q).bound = some c → s.start.saveSlot o.part = some k →
      exec .preemptTask s = .next (s.start.setQ q { s.q q with save := .saving c k rec h }))
    ∧ (∀ q o c k rec h, (s.q q).save = .saving c k rec h → s.objOfQueue q = some o →
      s.filling (s.saveAddr o.part k) (s.start.saveBytes c (s.start.liveRanges o rec)).length = false →
      let t := ((s.start.store ⟨deckleMaster, 0, false, false, .silent⟩ (placed (s.start.saveAddr o.part k) (s.start.saveBytes c (s.start.liveRanges o rec))) 0 0).1.tookFree
        64).unbind q
      let u := t.setCl c { t.cl c with keptFor := h }
      let v := u.setQ q { u.q q with save := .saved k rec }
      exec (.saveComplete q) s = .next (v.setAcct q (v.q q).task { v.acct q (v.q q).task with preempted := true }))
    ∧ (∀ d k rec, s.restorable = some d → (s.q d.q).save = .saved k rec →
      exec .restoreTask s = .next (s.start.setQ d.q { s.q d.q with save := .restoring d.clu k rec }))
    ∧ (∀ q o c k rec, (s.q q).save = .restoring c k rec → s.objOfQueue q = some o →
      let u := s.start.unsave o c k rec
      let t := u.setQ q { u.q q with save := .none, mark := none }
      (s.fld (ITG_CLU.SVC c) = 0 → s.filling (s.saveAddr o.part k) (512 + liveBytes (s.liveRanges o rec)) = false → exec (.restoreComplete q) s = .next (t.bindTask q c (t.q q).resTag false))
      ∧ (s.fld (ITG_CLU.SVC c) ≠ 0 → exec (.restoreComplete q) s = .next (s.start.setQ q { s.q q with save := .saved k rec })))
    ∧ (∀ n, s.fld (ITG_CLU.SVC n) = 1 → (s.cl n).bound = none → s.noRestore n = true → (s.cl n).ops = [] → (s.cl n).drained = false →
      exec (.clusterDrained n) s = .next (s.start.setCl n { s.cl n with drained := true }))

/-- For a working cluster whose issue stage holds o in front: NOP (and an operation whose opcode names nothing, with NOP), GEMM and CONV go to the Calender, the fourteen Beater operations to the Beater where it holds fewer than eight, LOAD and STORE to the address generator, each noted as accepted now and with its phase reported when it differs from the last. One that a decode check fails (or that is EMPTY) ends with that status and its outputs untouched; a LOAD or STORE that Vat ordering does not hold begins its transfer at once. -/
def Obligations.ClustersAccept : Prop :=
  ∀ (s : State) (n : Nat) (o : Op) (rest : List Op), (s.cl n).inbox = o :: rest → s.cluUp n = true →
    let u := s.start.accept n o
    let o' := o.acceptedAt s.cyc
    let cal := match u.decode o' with
      | some (st, det) => u.endUntouched o' st det
      | none => u.setCl n { u.cl n with cal := (u.cl n).cal ++ [o'] }
    let v := u.setCl n { u.cl n with btr := (u.cl n).btr ++ [o'] }
    let btr := match v.btrDecode o' with
      | some (st, det) => v.btrEnd n o' st det false
      | none => v
    let w := u.setCl n { u.cl n with ls := (u.cl n).ls ++ [o'] }
    let mv := match u.decode o' with
      | some (st, det) => u.endUntouched o' st det
      | none => if w.blocked o' then w else w.transfer n o'
    (o.desc.opcode = 0 ∨ engineOf o.desc.opcode = none → exec (.qorazNop n) s = .next cal)
    ∧ (o.desc.opcode = 1 → exec (.gemm n) s = .next cal)
    ∧ (o.desc.opcode = 2 → exec (.conv n) s = .next cal)
    ∧ (o.desc.opcode = 8 → exec (.qorazLoad n) s = .next mv)
    ∧ (o.desc.opcode = 9 → exec (.qorazStore n) s = .next mv)
    ∧ ((s.cl n).btr.length < 8 →
      (o.desc.opcode = 0x10 → exec (.ew n) s = .next btr) ∧ (o.desc.opcode = 0x11 → exec (.convertOp n) s = .next btr)
      ∧ (o.desc.opcode = 0x12 → exec (.curveOp n) s = .next btr) ∧ (o.desc.opcode = 0x13 → exec (.reduceOp n) s = .next btr)
      ∧ (o.desc.opcode = 0x14 → exec (.normOp n) s = .next btr) ∧ (o.desc.opcode = 0x15 → exec (.splitkSum n) s = .next btr)
      ∧ (o.desc.opcode = 0x16 → exec (.dotOp n) s = .next btr) ∧ (o.desc.opcode = 0x17 → exec (.windowOp n) s = .next btr)
      ∧ (o.desc.opcode = 0x18 → exec (.attnExp n) s = .next btr) ∧ (o.desc.opcode = 0x19 → exec (.attnMerge n) s = .next btr)
      ∧ (o.desc.opcode = 0x1A → exec (.attnNorm n) s = .next btr) ∧ (o.desc.opcode = 0x1B → exec (.boxDecode n) s = .next btr)
      ∧ (o.desc.opcode = 0x1C → exec (.nms n) s = .next btr) ∧ (o.desc.opcode = 0x1D → exec (.stateStep n) s = .next btr))

/-- For a working cluster: a work cycle of the chain that accumulates (or begins) takes the credit the issue rate needs and 64 off it, and adds one cycle to the chain, its rows advanced on the last cycle of a K step; the nanoseconds it waits for operands count as stalled cycles of its cluster's clock. A chain with all its work cycles done freezes and waits for the drain path. A free drain path takes the oldest finished chain, checks its rows over all 32 columns and writes those of the tile; a drain whose rows are written frees the path and counts for its operation; an operation with every chain drained completes OK under its cluster's present epoch, EMPTY_RED counting when K is 0, and its completion under another epoch is dropped and counted. -/
def Obligations.CalenderRuns : Prop :=
  ∀ (s : State) (n : Nat),
    (∀ t o ch prov i, s.start.readyChain n = some (t, o, ch) → t.cluUp n = true → 0 < t.issueQ n → ch.cycles < calT o.desc (t.opCtx o) → t.operandsPresent o ch = true →
      let c := t.cl n
      let m := Nat.max 1 (ceilDiv (64 - c.credit) (t.issueQ n))
      let u := t.setCl n { c with credit := c.credit + m * t.issueQ n - 64 }
      let x := t.opCtx o
      let cps := cyclesPerStep (x.fmt slotA) (x.fmt slotB)
      let kps := kPerStep (x.fmt slotA) (x.fmt slotB) o.desc.sparseA
      let k0 := Nat.min (ch.cycles / cps * kps) o.desc.k
      let k1 := Nat.min ((ch.cycles / cps + 1) * kps) o.desc.k
      t.scanSlots o.desc.acceptProv o.provIn [(slotA, blocksOf (chainA o.desc x ch.idx k0 k1)), (slotB, blocksOf (chainB o.desc x ch.idx k0 k1))] = (.ok prov, i) →
      let rows := if (ch.cycles + 1) % cps = 0 then tileStep u.byte o.desc x ch.idx (ch.cycles / cps) ch.rows else ch.rows
      let v := if prov then (u.meetProv o prov).putOp n { o with provIn := true } else u
      exec (.workCycle n) s = .next (v.setCl n { v.cl n with acc := some { ch with cycles := ch.cycles + 1, rows := rows } }))
    ∧ (∀ k, s.stallTick k = (s.clusters.filter (fun e => s.stalls e.1)).foldl (fun (t : State) e =>
        t.bump (CLU_CAL_STALL.STALL_CYCLES e.1) (s.cyclesIn 0 1300 s.cyc (s.cyc + k))) s)
    ∧ (∀ t ch, s.start.endingChain n = some (t, ch) → t.cluUp n = true →
      exec (.chainAccumulationEnd n) s = .next (t.setCl n { t.cl n with acc := none, held := (t.cl n).held ++ [ch] }))
    ∧ (∀ ch rest o o1 ups, (s.cl n).drain = none → (s.cl n).held = ch :: rest → (s.cl n).cal.find? (fun o => o.id == ch.op) = some o → s.pdOn (pdClu n) = true →
      let rows := (List.range ch.rows.length).map (fun r => upsetRow r (s.logicalUps n ups) (getAt ⟨[], .zero, .zero⟩ ch.rows r).padded)
      let ch1 := { ch with rows := rows.map (fun w => { w with accs := w.accs.take (tileCols o.desc ch.idx) }) }
      let t := (List.range rows.length).foldl (fun (u : State) r => u.checkRow n o o.desc (s.start.opCtx o) ch.idx r (getAt ⟨[], .zero, .zero⟩ rows r))
        (s.start.setCl n { s.cl n with drain := some ch1, held := rest })
      (t.cl n).cal.find? (fun e => e.id == o.id) = some o1 →
      exec (.drainStart n ups) s = .next (t.writeDrain n o1 ch1))
    ∧ (∀ ch, (s.cl n).drain = some ch → ch.written = true →
      let t := s.start.setCl n { s.cl n with drain := none }
      exec (.drainComplete n) s = .next (match (s.cl n).cal.find? (fun o => o.id == ch.op) with
        | some o => t.putOp n { o with drained := o.drained + 1 }
        | none => t))
    ∧ (∀ ep, n < 64 → ep ≠ s.epoch n → exec (.calenderOpComplete n ep) s = .next (s.start.bump (ITG_STALE_DROP.COUNT n) 1))
    ∧ (∀ o, s.calDone n = some o → exec (.calenderOpComplete n (s.epoch n)) s = .next
        ((if decide (o.desc.k = 0) then s.start.bump (CLU_CAL_EMPTY_RED.COUNT n) 1 else s.start).finish { o with status := stOk, emptyRed := decide (o.desc.k = 0) }))

/-- The next lane phase counts its stalls, tests its inputs and, where they pass, writes the operation's result with its tags; the record of the first operation that needs a curve is read, checked and kept in a slot, or ends it; the oldest Beater operation completes OK after its lane phase, or with the status it ended with; the i-th incomplete LOAD or STORE whose transfer is done completes OK. A completion under an epoch that is not its cluster's present one is dropped and counted. -/
def Obligations.BeaterRuns : Prop :=
  ∀ (s : State) (n : Nat),
    (∀ o stall, s.laneNext n = some o → exec (.lanePhaseStart n stall) s = .next ((s.start.bump (CLU_BTR_VAT_STALL.STALL_CYCLES n) stall).runLanes n o))
    ∧ (∀ o a, s.curveLoad n = some (o, a) → o.waitBlock = none → s.cluUp n = true → exec (.curveSlotLoadDone n) s = .next (s.start.loadCurve n o a))
    ∧ (∀ o rest, (s.cl n).btr = o :: rest → o.isLanes = true → exec (.beaterOpComplete n (s.epoch n)) s = .next
        ((if o.emptyRed then s.start.bump (CLU_CAL_EMPTY_RED.COUNT n) 1 else s.start).finish { o with status := stOk }))
    ∧ (∀ o rest, (s.cl n).btr = o :: rest → o.isLanes = false → o.isEnded = true → o.reported = false → exec (.beaterOpComplete n (s.epoch n)) s = .next (s.start.finish o))
    ∧ (∀ i o, (s.cl n).ls[i]? = some o → o.isLanes = true → exec (.loadStoreComplete n i (s.epoch n)) s = .next (s.start.finish { o with status := stOk }))
    ∧ (∀ i ep, n < 64 → ep ≠ s.epoch n → exec (.beaterOpComplete n ep) s = .next (s.start.bump (ITG_STALE_DROP.COUNT n) 1)
      ∧ exec (.loadStoreComplete n i ep) s = .next (s.start.bump (ITG_STALE_DROP.COUNT n) 1))

/-- When a page mover runs copy i, no block of the old sheet is being filled and the Headbox holds none of its requests, the copy's completion copies the sheet's bytes and tags, rewrites the page-table entry, lowers the old sheet's count and counts COW; every wait on a block of the new sheet ends and counts its stall once nothing holds it, and the movers go on. With a repair pending, REPAIR_RECORD_COMMIT clears PENDING and takes one record: one that fails its commit bit, or finds no free entry, sets REPAIR_FAIL and retires the cluster; one that verifies puts a row or column skip entry in force and asks for a test of the cluster. -/
def Obligations.CopiesAndRepairs : Prop :=
  ∀ (s : State),
    (∀ i c, s.cows[i]? = some c → c.mover.isSome = true → s.pendingBlock (rangeBlocks (sheetBase c.old) 0x10000) = none → s.cowHeld c = false →
      exec (.cowCopyComplete i) s = .next ((((s.start.endCow c).wake (rangeBlocks (sheetBase c.new) 0x10000) 6).startCows).pump))
    ∧ (∀ n ok, s.flag (CLU_CAL_REPAIR.PENDING n) = true →
      let t := (s.start.setF (CLU_CAL_REPAIR.PENDING n) 0).setF (CLU_CAL_REPAIR.RECORDS_LEFT n) (s.fld (CLU_CAL_REPAIR.RECORDS_LEFT n) - 1)
      (ok = false ∨ s.repairSpare n = none → exec (.repairRecordCommit n ok) s = .next ((t.setF (CLU_CAL_REPAIR.REPAIR_FAIL n) 1).retireCluster n 0x0F 3))
      ∧ (∀ j, s.repairSpare n = some (true, j) →
        let u := (((t.setF (CLU_ROW_SKIP.VALID n j) 1).setF (CLU_ROW_SKIP.FIELD n j) 1).setF (CLU_ROW_SKIP.PHYS_ROW n j) (s.fld (ITG_FT_RESULT.FAULT_ROW n))).setF
          (CLU_CAL_REPAIR.ROWS_USED n) (s.fld (CLU_CAL_REPAIR.ROWS_USED n) + 1)
        exec (.repairRecordCommit n true) s = .next ((u.setSvc n 2).ftRequest n 1 false).1)
      ∧ (∀ j, s.repairSpare n = some (false, j) →
        let u := (((t.setF (CLU_COL_SKIP.VALID n j) 1).setF (CLU_COL_SKIP.FIELD n j) 1).setF (CLU_COL_SKIP.PHYS_COL n j) (s.fld (ITG_FT_RESULT.FAULT_COL n))).setF
          (CLU_CAL_REPAIR.COLS_USED n) (s.fld (CLU_CAL_REPAIR.COLS_USED n) + 1)
        exec (.repairRecordCommit n true) s = .next ((u.setSvc n 2).ftRequest n 1 false).1))

/-- While a command runs, an admit or unload command only sets CMD_REJECT. An admit command sets BUSY and: an image that fails checks 1 to 5 is refused with that reason, nothing granted; while the format table is copied it waits; otherwise it is checked on and either refused or granted (its cells and queues cleared, the object in the table, its gated clusters asked for). Its completion, once the granted clusters are on, zeroes the granted Vat ranges, writes GRANT where the header lies in DRAM (none of it being filled), clears BUSY, sets DONE with REASON and HANDLE and raises source 1. An unload command of a handle nobody has completes with reason 0x21; of a loaded object it marks it, cancels its queues and sets BUSY. When no operation of the object is in flight, UNLOAD_COMPLETE releases everything and completes with reason 0x20. -/
def Obligations.ObjectsLoadAndUnload : Prop :=
  ∀ (s : State) (m : Nat),
    let done := fun (u : State) (reason handle : Nat) =>
      ((((({ u with adm := .idle } : State).setF DCK_LOAD_STATUS.BUSY 0).setF DCK_LOAD_STATUS.REASON reason).setF DCK_LOAD_STATUS.HANDLE (handle % 256)).setF
        DCK_LOAD_STATUS.DONE 1).pulse 1
    (s.mayWrite m DCK_LOAD_CMD.addr = true →
      (s.flag DCK_LOAD_STATUS.BUSY = true → exec (.admitObject m) s = .next (s.start.setF DCK_LOAD_STATUS.CMD_REJECT 1)
        ∧ ∀ h, exec (.unloadObject m h) s = .next (s.start.setF DCK_LOAD_STATUS.CMD_REJECT 1))
      ∧ (s.flag DCK_LOAD_STATUS.BUSY = false →
        let t := s.start.setF DCK_LOAD_STATUS.BUSY 1
        (∀ r, t.admitEarly t.loadAddr = some r →
          exec (.admitObject m) s = .next { t with adm := .finishing t.loadAddr r.reason r.ver 0xFFFF r.detail 0 0 0 })
        ∧ (t.admitEarly t.loadAddr = none → t.flag MGT_FMT_CTRL.BUSY = true → exec (.admitObject m) s = .next { t with adm := .waitFmt t.loadAddr })
        ∧ (t.admitEarly t.loadAddr = none → t.flag MGT_FMT_CTRL.BUSY = false →
          ((t.admitChecks t.loadAddr).obj = none → exec (.admitObject m) s = .next { t with
            adm := .finishing t.loadAddr (t.admitChecks t.loadAddr).reason (t.admitChecks t.loadAddr).ver 0xFFFF (t.admitChecks t.loadAddr).detail 0 0 0 })
          ∧ (∀ o, (t.admitChecks t.loadAddr).obj = some o →
            let u := (t.clearCells o.cBase o.cCount).clearQueues o.qBase o.qCount
            let v : State := { u with objs := u.objs ++ [o], adm := .finishing t.loadAddr 0 1 o.handle 0 o.mask o.qBase o.cBase }
            exec (.admitObject m) s = .next (if t.flag PMU_PD_CTRL.AUTO_GATE then (maskClusters o.mask).foldl (fun (w : State) n => w.pdAsk (pdClu n)) v else v)))
        ∧ (∀ h, s.obj h = none → exec (.unloadObject m h) s = .next (done (s.start.setF DCK_LOAD_LOST.COUNT 0) 0x21 h))
        ∧ (∀ h o, s.obj h = some o → exec (.unloadObject m h) s = .next
          ((o.queues.foldl (fun (u : State) q => u.unloadQueue q)
            { s.start.setF DCK_LOAD_LOST.COUNT 0 with objs := s.objs.map (fun (x : Obj) => if x.handle = h then { x with unloading := true } else x), adm := .unloading h }).setF
            DCK_LOAD_STATUS.BUSY 1))))
    ∧ (∀ a reason ver handle detail mask qb cb, s.adm = .finishing a reason ver handle detail mask qb cb →
      ((∀ n ∈ maskClusters mask, s.flag PMU_PD_CTRL.AUTO_GATE = true → s.pdOn (pdClu n) = true ∨ s.flag (PMU_PD.PG_FAIL (pdClu n)) = true) → s.filling (a + 32) 32 = false →
        let t := match s.obj handle with
          | some o => (maskClusters mask).foldl (fun (u : State) n => u.zeroVat n o.vatBase o.vatBytes) s.start
          | none => s.start
        let grant := leBytes 1 reason ++ leBytes 1 ver ++ leBytes 2 handle ++ leBytes 4 detail ++ leBytes 8 mask ++ leBytes 2 qb ++ leBytes 2 cb ++ leBytes 12 0
        (t.dramRange a 64 = true → exec .admissionComplete s = .next
          (done (t.store ⟨deckleMaster, 0, false, false, .silent⟩ (placed (a + 32) grant) 0 0).1 reason handle))
        ∧ (t.dramRange a 64 = false → exec .admissionComplete s = .next (done t reason handle))))
    ∧ (∀ h o, s.adm = .unloading h → s.obj h = some o → (∀ q ∈ o.queues, (s.q q).inflight = 0 ∧ (s.q q).job = none ∧ (s.q q).save = .none) →
      exec .unloadComplete s = .next (done ((s.start.releaseAll o).engForget h) 0x20 h))

/-- With partition p's engine idle, none of the memory the command may reach being filled and no argument bit set that the command does not use, once the copies of the partition that are in progress have ended (log entry 83): ADMIT of a loaded object with well-formed arguments takes the slot found and writes a table of zeros and a KV entry of length 0; ADMIT_STREAM takes a stream slot; RELEASE of a slot outside a step gives its sheets back at once; FORK shares the mapped pages of the tokens kept into a new slot; MAP maps a sheet of the pool that is held, with one more reference; TRUNCATE unmaps the pages beyond the length it sets, and cuts the page that keeps a part, of each layer, by a copy where it is shared, answering POOL_EMPTY where a copy finds no sheet; RETAIN adds a reference, DROP takes one away, except that a pinned sheet answers PINNED. Each keeps its code and results in the engine, with BUSY set, and changes nothing else. -/
def Obligations.QuireSlotCommands : Prop :=
  ∀ (s : State) (m p : Nat), s.mayWrite m (QUI_CMD.addr p) = true → s.quiCmd p = none →
    let may := fun (op : Nat) => s.start.quiWaits p op = false
    let t := s.start.finishCows p
    let a0 := t.arg p 0
    let a1 := t.arg p 1
    let fin := fun (op : Nat) (r : QuiRes) =>
      (Host.Outcome.next ((r.st.setQuiCmd p (some ⟨op, r.code, r.r0, r.r1, false, none⟩)).setF (QUI_CMD_STATUS.BUSY p) 1) : Host.Outcome State Fault Refusal)
    (∀ o n, t.argsClean p [0x3FFFF, 0xF07FF, 0xFFFFFFFF, 0xFFFFFFFF, 0xFFFF, 0] = true → t.quiObj p (bitsN a0 15 0) = some o →
      ¬ (bitsN a0 17 16 = 3 ∨ bitsN a1 10 0 = 0 ∨ 1024 < bitsN a1 10 0 ∨ 12 < bitsN a1 19 16 ∨ t.arg p 2 = 0 ∨ 65536 < t.arg p 2
        ∨ !tableOk o (t.argAddr p 3 4) (bitsN a1 10 0) (t.arg p 2)) → t.admitSlot o (bitsN a0 17 16) = some n →
      may 0x01 → exec (.quiAdmit m p) s = fin 0x01 ⟨qDone, n, 0, (t.zeroTable (t.argAddr p 3 4) (bitsN a1 10 0) (t.arg p 2)).setSlot n
        (kvSlotEntry o (bitsN a1 10 0) (bitsN a1 19 16) (t.arg p 2) (t.argAddr p 3 4) 0)⟩)
    ∧ (∀ o n, t.argsClean p [0x3FFFF, 0x37F3FFF, 0xFFFFFFFF, 0, 0, 0] = true → t.quiObj p (bitsN a0 15 0) = some o →
      ¬ (bitsN a0 17 16 = 3 ∨ bitsN a1 13 0 = 0 ∨ 8192 < bitsN a1 13 0 ∨ bitsN a1 22 16 = 0 ∨ 64 < bitsN a1 22 16 ∨ bitsN a1 25 24 = 3) →
      t.admitSlot o (bitsN a0 17 16) = some n →
      may 0x02 → exec (.admitStream m p) s = fin 0x02 ⟨qDone, n, 0, t.setSlot n { Slot.free with
        state := 1, stream := true, handle := o.handle, part := p, layers := bitsN a1 13 0, log2Tps := bitsN a1 22 16, fmt := bitsN a1 25 24,
        maxPages := t.arg p 2 }⟩)
    ∧ (∀ e, t.argsClean p [0x3FF, 0, 0, 0, 0, 0] = true → t.quiSlot p (bitsN a0 9 0) = some e → e.inStep = false →
      may 0x03 → exec (.quiRelease m p) s = fin 0x03 ⟨qDone, 0, 0, t.releaseSlot (bitsN a0 9 0)⟩)
    ∧ (∀ e o n, t.argsClean p [0x303FF, 0xFFFFFFFF, 0, 0xFFFFFFFF, 0xFFFF, 0] = true → t.quiSlot p (bitsN a0 9 0) = some e → t.obj e.handle = some o →
      bitsN a0 17 16 ≠ 3 → e.stream = false → ¬ (e.length < a1 ∨ !tableOk o (t.argAddr p 3 4) e.layers e.maxPages) →
      t.admitSlot o (bitsN a0 17 16) = some n →
      let new := kvSlotEntry o e.layers e.log2Tps e.maxPages (t.argAddr p 3 4) a1
      let r := ((t.zeroTable (t.argAddr p 3 4) e.layers e.maxPages).setSlot n new).sharePages p e new (Nat.min e.maxPages (e.pagesFor a1))
      may 0x04 → exec (.quiFork m p) s = fin 0x04 ⟨qDone, n, r.2, r.1⟩)
    ∧ (∀ e, t.argsClean p [0x3FF, 0x103FF, 0xFFFFFFFF, 0x803FFFFF, 0, 0] = true → t.quiSlot p (bitsN a0 9 0) = some e → e.stream = false →
      ¬ (e.layers ≤ bitsN a1 9 0 ∨ e.maxPages ≤ t.arg p 2) → t.mapped (e.entryAddr (bitsN a1 9 0) (bitsN a1 16 16) (t.arg p 2)) = none →
      bitN (t.arg p 3) 31 = false → t.inPool p (bitsN (t.arg p 3) 21 0) = true → t.refs p (bitsN (t.arg p 3) 21 0) ≠ 0 →
      may 0x05 → exec (.quiMap m p) s = fin 0x05 ⟨qDone, bitsN (t.arg p 3) 21 0, 0,
        (t.writeEntry (e.entryAddr (bitsN a1 9 0) (bitsN a1 16 16) (t.arg p 2)) (some (bitsN (t.arg p 3) 21 0))).incRef p (bitsN (t.arg p 3) 21 0)⟩)
    ∧ (∀ e, t.argsClean p [0x3FF, 0xFFFFFFFF, 0, 0, 0, 0] = true → t.quiSlot p (bitsN a0 9 0) = some e → e.stream = false → e.inStep = false →
      a1 ≤ e.length →
      let r := t.unmapAll p (e.entries (e.pagesFor a1) e.maxPages)
      let cut := (if a1 % e.tps = 0 then [] else e.entries (a1 / e.tps) (a1 / e.tps + 1)).foldl
        (fun acc a => acc.bind (fun u => u.cutPage p (bitsN a0 9 0) a (a1 % e.tps * 65536 / e.tps))) (some r.1)
      (∀ u, cut = some u → may 0x06 → exec (.quiTruncate m p) s = fin 0x06
          ⟨qDone, 0, r.2, u.startCows.setSlot (bitsN a0 9 0) { (u.slot (bitsN a0 9 0)) with length := a1 }⟩)
        ∧ (cut = none → may 0x06 → exec (.quiTruncate m p) s = fin 0x06 ⟨qPoolEmpty, 0, 0, t.bump (QUI_POOL_EMPTY.COUNT p) 1⟩))
    ∧ (t.argsClean p [0, 0, 0, 0x3FFFFF, 0, 0] = true → t.inPool p (bitsN (t.arg p 3) 21 0) = true → t.refs p (bitsN (t.arg p 3) 21 0) ≠ 0 →
      (let u := t.incRef p (bitsN (t.arg p 3) 21 0)
       may 0x07 → exec (.quiRetain m p) s = fin 0x07 ⟨qDone, u.refs p (bitsN (t.arg p 3) 21 0), 0, u⟩)
      ∧ (t.refs p (bitsN (t.arg p 3) 21 0) ≠ 0xFFFF →
        let u := t.decRef p (bitsN (t.arg p 3) 21 0)
        may 0x08 → exec (.quiDrop m p) s = fin 0x08 ⟨qDone, u.refs p (bitsN (t.arg p 3) 21 0), 0, u⟩)
      ∧ (t.refs p (bitsN (t.arg p 3) 21 0) = 0xFFFF → may 0x08 → exec (.quiDrop m p) s = fin 0x08 ⟨qPinned, 0xFFFF, 0, t⟩))

/-- With partition p's engine idle, none of the memory the command may reach being filled and no argument bit set that the command does not use, once the copies of the partition that are in progress have ended (log entry 83): BATCH_OPEN of a stream batch takes the lowest free batch; BATCH_CLOSE of a batch with no open step readmits its members; JOIN makes a free slot a member of a batch with no open step, or leaves it pending; LEAVE takes it out at once outside a step; STEP_BEGIN with neither cell opens a step and writes its record; STEP_COMMIT and STEP_ABORT close it; EXPORT writes the slot's record; IMPORT of a record that passes its checks writes the row (the rest of its last block open), the length and clears STATE_LOST. Each keeps its code and results in the engine, with BUSY set, and changes nothing else. -/
def Obligations.QuireBatchCommands : Prop :=
  ∀ (s : State) (m p : Nat), s.mayWrite m (QUI_CMD.addr p) = true → s.quiCmd p = none →
    let may := fun (op : Nat) => s.start.quiWaits p op = false
    let t := s.start.finishCows p
    let a0 := t.arg p 0
    let fin := fun (op : Nat) (r : QuiRes) =>
      (Host.Outcome.next ((r.st.setQuiCmd p (some ⟨op, r.code, r.r0, r.r1, false, none⟩)).setF (QUI_CMD_STATUS.BUSY p) 1) : Host.Outcome State Fault Refusal)
    (∀ o b, t.argsClean p [0x3FFFF, 0xFFFFFFFF, 0xFFFF, 0xFFFFFFFF, 0xFFFFFFFF, 0] = true → t.quiObj p (bitsN a0 15 0) = some o → bitN a0 16 = true →
      t.arg p 2 ≤ 65535 → t.argAddr p 1 2 % 64 = 0 → o.holds (t.argAddr p 1 2) 10432 1 = true → popcount 64 o.mask = 1 → t.arg p 3 % 4096 = 0 →
      t.arg p 4 % 4096 = 0 → o.vatBase ≤ t.arg p 3 → t.arg p 3 + 256 * t.arg p 4 ≤ o.vatBase + o.vatBytes →
      (List.range 32).find? (fun b => !(t.batch b).isOpen) = some b →
      may 0x10 → exec (.batchOpen m p) s = fin 0x10 ⟨qDone, b, 0, t.setBatch b { Batch.free with
        isOpen := true, stream := true, mode := bitsN a0 17 17, part := p, handle := o.handle, area := t.argAddr p 1 2, bounds := [],
        stateBase := t.arg p 3, rowStride := t.arg p 4 }⟩)
    ∧ (t.argsClean p [0x1F, 0, 0, 0, 0, 0] = true → ∀ x, t.quiBatch p (bitsN a0 4 0) = some x →
      (x.stepOpen = false → may 0x11 → exec (.batchClose m p) s = fin 0x11 ⟨qDone, 0, 0, t.closeBatch (bitsN a0 4 0)⟩)
      ∧ (x.stepOpen = true → (may 0x15 → exec (.stepCommit m p) s = fin 0x15 ⟨qDone, x.rows.length, 0, t.closeStep (bitsN a0 4 0) true⟩)
        ∧ (may 0x16 → exec (.stepAbort m p) s = fin 0x16 ⟨qDone, x.rows.length, 0, t.closeStep (bitsN a0 4 0) false⟩)))
    ∧ (∀ e x, t.argsClean p [0x1F03FF, 0xFFFFFFFF, 0, 0, 0, 0] = true → t.quiSlot p (bitsN a0 9 0) = some e → t.quiBatch p (bitsN a0 20 16) = some x →
      e.handle = x.handle → e.stream = false → x.stream = false → t.arg p 1 ≠ 0 → t.arg p 1 ≤ 8192 → e.batch = 0xFF → bitsN a0 20 16 ≠ e.batch →
      let e1 := { e with stepTokens := t.arg p 1, batch := bitsN a0 20 16 }
      (x.stepOpen = false → may 0x12 → exec (.quiJoin m p) s =
        (let u := (t.setSlot (bitsN a0 9 0) e1).becomeMember (bitsN a0 9 0); fin 0x12 ⟨qDone, (u.slot (bitsN a0 9 0)).row, 0, u⟩))
      ∧ (x.stepOpen = true → may 0x12 → exec (.quiJoin m p) s = fin 0x12 ⟨qDone, 0xFFFF, 1, t.setSlot (bitsN a0 9 0) { e1 with joinPend := true }⟩))
    ∧ (∀ e, t.argsClean p [0x3FF, 0, 0, 0, 0, 0] = true → t.quiSlot p (bitsN a0 9 0) = some e → e.batch ≠ 0xFF → e.inStep = false →
      may 0x13 → exec (.quiLeave m p) s = fin 0x13 ⟨qDone, 0, 0, t.leaveBatch (bitsN a0 9 0)⟩)
    ∧ (∀ x, t.argsClean p [0x1F, 0x1FFFF, 0x1FFFF, 0xFFFFFFFF, 0, 0] = true → t.quiBatch p (bitsN a0 4 0) = some x → bitN (t.arg p 1) 16 = false →
      bitN (t.arg p 2) 16 = false → x.stepOpen = false →
      let r := t.stepBegin p (bitsN a0 4 0) none none
      may 0x14 → exec (.stepBegin m p) s = fin 0x14 ⟨qDone, r.2.1, r.2.2, r.1⟩)
    ∧ (∀ n e a, t.argsClean p [0x3FF, 0, 0, 0xFFFFFFFF, 0xFFFF, 0] = true → t.streamArgs p 1 = (some (n, e, a), 0) → e.stateLost = false →
      may 0x20 → exec (.quiExport m p) s = fin 0x20 ⟨qDone, (t.stateRecord e).length, 0, t.quiPut a (t.stateRecord e)⟩)
    ∧ (∀ n e a, t.argsClean p [0x3FF, 0, 0, 0xFFFFFFFF, 0xFFFF, 0] = true → t.streamArgs p 0 = (some (n, e, a), 0) →
      recordCode e (t.seenBytes a (64 + e.stateBytes)) = qDone →
      let r := t.seenBytes a (64 + e.stateBytes)
      let pad := alignUp e.stateBytes 4096 - e.stateBytes
      let u := (t.quiPut (t.rowAddr e.batch e.row) (r.drop 64 ++ (List.range pad).map (fun i => Config.freeValue 8 (t.freeCtr + i)))).tookFree pad
      may 0x21 → exec (.quiImport m p) s = fin 0x21 ⟨qDone, r.length, 0, u.setSlot n { (u.slot n) with length := leAt r 16 4, stateLost := false }⟩)

/-- A write of QUI_CMD while the partition's engine runs a command only sets CMD_REJECT; one whose memory is being filled is held with its arguments, BUSY set. The end of a command that has acted and waits for no copy frees the engine, clears BUSY, and (unless it was an armed commit) publishes LAST_OP, CODE and the two results, sets DONE, and interrupts as QUI_IRQ says. An armed commit whose cell has reached its target closes the step when the engine is idle and no memory it may write is being filled, after the partition's copies in progress, committing unless the cell is cancelled, and takes the engine. -/
def Obligations.QuireEngine : Prop :=
  ∀ (s : State) (m p : Nat),
    (s.mayWrite m (QUI_CMD.addr p) = true → (s.quiCmd p).isSome = true →
      ∀ c, c = Instr.quiAdmit m p ∨ c = .admitStream m p ∨ c = .quiRelease m p ∨ c = .quiFork m p ∨ c = .quiMap m p ∨ c = .quiTruncate m p ∨ c = .quiRetain m p
        ∨ c = .quiDrop m p ∨ c = .batchOpen m p ∨ c = .batchClose m p ∨ c = .quiJoin m p ∨ c = .quiLeave m p ∨ c = .stepBegin m p ∨ c = .stepCommit m p
        ∨ c = .stepAbort m p ∨ c = .quiExport m p ∨ c = .quiImport m p →
      exec c s = .next (s.start.setF (QUI_CMD_STATUS.CMD_REJECT p) 1))
    ∧ (s.mayWrite m (QUI_CMD.addr p) = true → s.quiCmd p = none →
      ∀ c op, (c, op) ∈ [(Instr.quiAdmit m p, 0x01), (.admitStream m p, 0x02), (.quiRelease m p, 0x03), (.quiFork m p, 0x04), (.quiMap m p, 0x05),
        (.quiTruncate m p, 0x06), (.quiRetain m p, 0x07), (.quiDrop m p, 0x08), (.batchOpen m p, 0x10), (.batchClose m p, 0x11), (.quiJoin m p, 0x12),
        (.quiLeave m p, 0x13), (.stepBegin m p, 0x14), (.stepCommit m p, 0x15), (.stepAbort m p, 0x16), (.quiExport m p, 0x20), (.quiImport m p, 0x21)] →
      s.start.quiWaits p op = true →
      exec c s = .next ((s.start.setQuiCmd p (some ⟨op, 0, 0, 0, false, some ((List.range 6).map (s.start.arg p))⟩)).setF (QUI_CMD_STATUS.BUSY p) 1))
    ∧ (∀ c, s.quiCmd p = some c → c.held = none → (∀ x ∈ s.cows, x.part = p → 65536 ≤ x.cut) →
      let t := (s.start.setQuiCmd p none).setF (QUI_CMD_STATUS.BUSY p) 0
      let u := ((((t.setF (QUI_CMD_STATUS.LAST_OP p) c.op).setF (QUI_CMD_STATUS.CODE p) c.code).setF (QUI_RESULT.VALUE p 0) c.r0).setF
        (QUI_RESULT.VALUE p 1) c.r1).setF (QUI_CMD_STATUS.DONE p) 1
      (c.armed = true → exec (.quireCommandDone p) s = .next t)
      ∧ (c.armed = false → exec (.quireCommandDone p) s =
        .next (u.irqMsg (QUI_IRQ.EN p) (QUI_IRQ.ERR_ONLY p) (QUI_IRQ.HART p) (QUI_IRQ.EIID p) (c.code != qDone && c.code != qPinned))))
    ∧ (∀ b c k, (s.batch b).armed = some (c, k) → (s.batch b).stepOpen = true → s.quiCmd (s.batch b).part = none → s.cellReached c k = true →
      s.stepWaits b = false →
      exec (.armedCommit b) s = .next ((((s.start.finishCows (s.batch b).part).closeStep b (!s.flag (DCK_CELL_FLAGS.CANCEL c))).setQuiCmd (s.batch b).part
        (some ⟨if s.flag (DCK_CELL_FLAGS.CANCEL c) then 0x16 else 0x15, qDone, (s.batch b).rows.length, 0, true, none⟩)).setF (QUI_CMD_STATUS.BUSY (s.batch b).part) 1))

/-- (State.stored is what a location reads as.) For a write inside one block of DRAM data that is on, not barred, not being filled, that the Headbox lets its port issue or that came through its queues, met by nothing on its channel, and whose stored watermark holds (by a cluster: under its present epoch), with good parity: DRAM_WRITE completes, the bytes written read back, every other byte of memory reads as before, the registers are unchanged but for what the Headbox counts (nothing where the request came through its queues), the block's tags become those R326 gives (the writer with its epoch; for a write of the whole block its two tags, else those or-ed; a core's write leaves the tags), and the memory keeps its canonical form. -/
def Obligations.DramWriteLands : Prop :=
  ∀ (s : State) (m ep a op mv h : Nat) (k : HartAccess) (bs : List Byte) (prov pois : Bool), Memory.wf s = true → bs ≠ [] → (a + bs.length - 1) / 4096 = a / 4096 →
    s.region a bs.length = .data → s.hartBarred m a bs.length = false → s.memOn (a / 4096 * 4096) = true → (s.tag (a / 4096)).fill = false →
    (m < 64 → ep = s.epoch m) → s.blockOk (a / 4096) = true → s.chanOf (a / 4096) = 0 →
    let src := srcDie m ep
    let part := s.moverPart m mv a
    (s.hbxQueued m src a bs.length false = true ∨ s.hbxOnWay m src a bs.length false = false
      ∧ s.hbxMayIssue ⟨m, src, s.hbxClass m part a, a, bs.length, false, s.hbxRoute src a, 0, s.cyc, false⟩ (s.hbxQueue hopPorts) = true) →
    ∃ u t, exec (.dramWrite m ep a bs prov pois false 0 op mv h k) s = .next t
      ∧ t = (if s.hbxQueued m src a bs.length false then u else u.regulate m part src a bs.length) ∧ u.regs = s.regs
      ∧ (∀ i b, bs[i]? = some b → t.stored (a + i) = b)
      ∧ (∀ c, c < a ∨ a + bs.length ≤ c → t.stored c = s.stored c)
      ∧ t.tags = (s.setTag (a / 4096) ((s.tag (a / 4096)).after ⟨m, ep, prov, pois, writerKind m⟩ (bs.length == 4096))).tags
      ∧ t.resp = .done ∧ Memory.wf t = true

/-- A cluster's write under an epoch that is not its present one is dropped and only counted. A request still on its way through the Headbox waits, and one that its port may not issue now (its class held at a target of its route, or an earlier request to the same target before it) is kept at the port and waits; one that did not come through the queues is charged. A write to DRAM data whose payload parity fails is not stored: its blocks are poisoned and it is reported, with the operation or move it wrote for. A write that reaches the metadata region, and a read of it by a master that is no core, is a bus error; a core reads it where its memory is on. A core's read of DRAM data, with nothing wrong on the channel, returns what is stored (or the controller's checked copy) unchecked; an application core's read of a poisoned block is an access fault, whose kind and address its hart takes; a read by a master that checks returns the bytes when all its blocks pass, and fails with WATERMARK else. -/
def Obligations.MemoryAccesses : Prop :=
  ∀ (s : State) (m ep a h : Nat) (k : HartAccess),
    let src := srcDie m ep
    let issues := fun (n : Nat) (rd : Bool) (mv : Nat) =>
      s.hbxMayIssue ⟨m, src, s.hbxClass m (s.moverPart m mv a) a, a, n, rd, s.hbxRoute src a, 0, s.cyc, false⟩ (s.hbxQueue hopPorts)
    let may := fun (n : Nat) (rd : Bool) (mv : Nat) => s.hbxQueued m src a n rd = true ∨ s.hbxOnWay m src a n rd = false ∧ issues n rd mv = true
    let pass := fun (n : Nat) (rd : Bool) (mv : Nat) (u : State) => if s.hbxQueued m src a n rd then u else u.regulate m (s.moverPart m mv a) src a n
    let ready := fun (n : Nat) => s.hartBarred m a n = false ∧ s.region a n = .data ∧ (rangeBlocks a n).all (fun b => s.memOn (b * 4096)) = true
      ∧ s.pendingBlock (rangeBlocks a n) = none
    (∀ bs prov pois par op mv, bs ≠ [] → m < 64 → ep ≠ s.epoch m →
      exec (.dramWrite m ep a bs prov pois par 0 op mv h k) s = .next (s.start.bump (ITG_STALE_DROP.COUNT m) 1))
    ∧ (∀ bs prov pois par op mv, bs ≠ [] → ¬ (m < 64 ∧ ep ≠ s.epoch m) → s.hbxQueued m src a bs.length false = false →
      (s.hbxOnWay m src a bs.length false = true → exec (.dramWrite m ep a bs prov pois par 0 op mv h k) s = .next (s.start.say .waits))
      ∧ (s.hbxOnWay m src a bs.length false = false → issues bs.length false mv = false → ready bs.length →
        exec (.dramWrite m ep a bs prov pois par 0 op mv h k) s = .next ((s.start.hbxNew m (s.moverPart m mv a) src a bs.length false).say .waits)))
    ∧ (∀ bs prov pois op mv, bs ≠ [] → ¬ (m < 64 ∧ ep ≠ s.epoch m) → may bs.length false mv → ready bs.length →
      exec (.dramWrite m ep a bs prov pois true 0 op mv h k) s = .next (pass bs.length false mv (((s.start.poison (rangeBlocks a bs.length)).report
        ⟨0x05, m, if m < 64 then m else 64, op, mv, a, 0, 0, 0, bs.length⟩).say (.failed stParity))))
    ∧ (∀ bs prov pois par op mv, bs ≠ [] → ¬ (m < 64 ∧ ep ≠ s.epoch m) → may bs.length false mv → s.hartBarred m a bs.length = false → s.region a bs.length = .meta_ →
      exec (.dramWrite m ep a bs prov pois par 0 op mv h k) s = .next s.start.busError)
    ∧ (∀ n wr, n ≠ 0 → s.dramRange a n = true → s.metaBase < a + n → (wr = true ∨ isCore m = false) → exec (.metadataRegionAccess m a n wr) s = .next s.start.busError)
    ∧ (∀ n, n ≠ 0 → s.dramRange a n = true → s.metaBase < a + n → s.metaBase ≤ a → isCore m = true → (rangeBlocks a n).all (fun b => s.memOn (b * 4096)) = true →
      exec (.metadataRegionAccess m a n false) s = .next (s.start.say (.bytes ((List.range n).map (fun i => s.start.metaByte (a + i))))))
    ∧ (∀ n, n ≠ 0 → ¬ (m < 64 ∧ ep ≠ s.epoch m) → may n true 0 → ready n →
      (isCore m = true → (m = 0x60 → ∀ b ∈ rangeBlocks a n, (s.tag b).poison = false) → (∀ b ∈ rangeBlocks a n, s.chanOf b = 0) →
        exec (.dramRead m ep a n 0 [] h k) s = .next (pass n true 0 (s.start.say (.bytes (s.seenBytes a n)))))
      ∧ (m = 0x60 → h < 24 → (∀ b ∈ rangeBlocks a n, s.chanOf b = 0) → ∀ b, (rangeBlocks a n).find? (fun b => (s.tag b).poison) = some b →
        exec (.dramRead m ep a n 0 [] h k) s = .next ((s.start.say .accessFault).setHart h { s.hart h with trap := some (k, Nat.max a (b * 4096)) }))
      ∧ (checksReads m = true → let r := s.start.readBlocks false (rangeBlocks a n)
        exec (.dramRead m ep a n 0 [] h k) s = .next (pass n true 0 (if r.2 then r.1.say (.bytes (r.1.bytesAt a n)) else r.1.say (.failed stWatermark)))))

/-- A due sweep starts with no block seen. With SWEEP_S not 0, a patrol read of a block being filled, or whose checked copy is held, only marks it seen; of another block, met by nothing on its channel, whose check passes it settles it and holds its checked copy; of one that fails twice it counts WM_FAIL, poisons and reports with kind PATROL; with SWEEP_S 0 it does nothing; and SWEEPS counts (modulo 65536) when the last block is seen. A write of MEM_SPLIT with LOCK at 0 and a value in range sets BOTH_32M and moves what each address names; a value beyond the range is ignored; with LOCK set nothing changes. LOCK, written 1 with any of these, is set (with a value beyond the range too: the model's reading, log entry 87). -/
def Obligations.PatrolAndSplit : Prop :=
  ∀ (s : State) (i j m v : Nat),
    (s.sweepDue i = true → exec (.patrolSweepStart i) s = .next (s.start.setPatrol i ⟨true, some s.cyc, []⟩))
    ∧ (s.fld (MEM_CTL_PATROL.SWEEP_S i) = 0 → exec (.patrolRead i j 0 []) s = .next { s.start with resp := .inapplicable })
    ∧ (s.ctlUp i = true → (s.patrol i).running = true → s.fld (MEM_CTL_PATROL.SWEEP_S i) ≠ 0 → j < s.siteBlocks → j ∉ (s.patrol i).seen →
      let b := s.blockAddr i j / 4096
      ((s.tag b).fill = true ∨ s.isChecked b = true → exec (.patrolRead i j 0 []) s = .next (s.start.patrolDone i j))
      ∧ ((s.tag b).fill = false → s.isChecked b = false → s.chanOf b = 0 → s.blockOk b = true →
        exec (.patrolRead i j 0 []) s = .next (((s.start.settle b).noteChecked b).patrolDone i j))
      ∧ ((s.tag b).fill = false → s.isChecked b = false → s.chanOf b = 0 → s.blockOk b = false →
        exec (.patrolRead i j 0 []) s = .next ((((s.start.bump (MEM_CTL_WM_FAIL.COUNT i) 1).poison [b]).report
          ⟨0x02, (s.tag b).writer, 64, 0, 0, b * 4096, s.start.watermark b, s.start.found b, 0, 0⟩).patrolDone i j)))
    ∧ (s.mayWrite m MEM_SPLIT.addr = true →
      let w := BitVec.ofNat 32 v
      (s.flag MEM_SPLIT.LOCK = true → bits w 31 31 = 0 → exec (.memSplitWrite m v) s = .next s.start)
      ∧ (s.flag MEM_SPLIT.LOCK = false → bits w 11 0 ≤ s.dieData / 0x2000000 → ∀ t, t = s.start.remap (s.start.setF MEM_SPLIT.BOTH_32M (bits w 11 0)) →
        (bits w 31 31 = 0 → exec (.memSplitWrite m v) s = .next t)
        ∧ (bits w 31 31 = 1 → exec (.memSplitWrite m v) s = .next (t.setF MEM_SPLIT.LOCK 1)))
      ∧ (s.flag MEM_SPLIT.LOCK = false → s.dieData / 0x2000000 < bits w 11 0 →
        (bits w 31 31 = 0 → exec (.memSplitWrite m v) s = .next s.start)
        ∧ (bits w 31 31 = 1 → exec (.memSplitWrite m v) s = .next (s.start.setF MEM_SPLIT.LOCK 1)))
      ∧ (s.flag MEM_SPLIT.LOCK = true → bits w 31 31 = 1 → exec (.memSplitWrite m v) s = .next (s.start.setF MEM_SPLIT.LOCK 1)))

/-- A doorbell of a ring that is on moves TAIL when the entries fit, sets FULL_REJ and nothing else when they do not, and does nothing when it adds none or the ring is off. Writing EN from 0 to 1 puts the ring on with both counts 0 when no condition of R332 fails, else records the condition; from 1 to 0 it goes off when it is empty with no move, else CFG_ERR is 4. -/
def Obligations.MoverRings : Prop :=
  ∀ (s : State) (m i r v : Nat),
    (s.mayWrite m (MEM_PMV_RING_DB.addr i r) = true →
      let n := (v + 2 ^ 32 - s.fld (MEM_PMV_RING_TAIL.COUNT i r)) % 2 ^ 32
      let fill := (s.fld (MEM_PMV_RING_TAIL.COUNT i r) + 2 ^ 32 - s.fld (MEM_PMV_RING_HEAD.COUNT i r)) % 2 ^ 32
      (s.flag (MEM_PMV_RING_CFG.EN i r) = true → n ≠ 0 → fill + n ≤ 2 ^ s.fld (MEM_PMV_RING_LO.LOG2_SIZE i r) →
        exec (.pmvDoorbell m i r v) s = .next (s.start.setF (MEM_PMV_RING_TAIL.COUNT i r) v))
      ∧ (s.flag (MEM_PMV_RING_CFG.EN i r) = true → n ≠ 0 → 2 ^ s.fld (MEM_PMV_RING_LO.LOG2_SIZE i r) < fill + n →
        exec (.pmvDoorbell m i r v) s = .next (s.start.setF (MEM_PMV_RING_STATUS.FULL_REJ i r) 1))
      ∧ (s.flag (MEM_PMV_RING_CFG.EN i r) = false ∨ n = 0 → exec (.pmvDoorbell m i r v) s = .next s.start))
    ∧ (s.mayWrite m (MEM_PMV_RING_CFG.addr i r) = true →
      let now := bits (BitVec.ofNat 32 v) 31 31
      (s.flag (MEM_PMV_RING_CFG.EN i r) = false → now = 1 →
        (s.pmvCfgErr i r = 0 → exec (.pmvRingCfgWrite m i r v) s = .next ((((s.start.setF (MEM_PMV_RING_CFG.EN i r) 1).setF (MEM_PMV_RING_HEAD.COUNT i r) 0).setF
          (MEM_PMV_RING_TAIL.COUNT i r) 0).setF (MEM_PMV_RING_CFG.CFG_ERR i r) 0))
        ∧ (s.pmvCfgErr i r ≠ 0 → exec (.pmvRingCfgWrite m i r v) s = .next (s.start.setF (MEM_PMV_RING_CFG.CFG_ERR i r) (s.pmvCfgErr i r))))
      ∧ (s.flag (MEM_PMV_RING_CFG.EN i r) = true → now = 0 →
        (s.fld (MEM_PMV_RING_HEAD.COUNT i r) = s.fld (MEM_PMV_RING_TAIL.COUNT i r) ∧ (s.mover i).moves.any (fun x => x.ring == r) = false →
          exec (.pmvRingCfgWrite m i r v) s = .next ((s.start.setF (MEM_PMV_RING_CFG.EN i r) 0).setF (MEM_PMV_RING_CFG.CFG_ERR i r) 0))
        ∧ (s.fld (MEM_PMV_RING_HEAD.COUNT i r) ≠ s.fld (MEM_PMV_RING_TAIL.COUNT i r) ∨ (s.mover i).moves.any (fun x => x.ring == r) = true →
          exec (.pmvRingCfgWrite m i r v) s = .next (s.start.setF (MEM_PMV_RING_CFG.CFG_ERR i r) 4))))

/-- When, with every Quire copy that can start on its way, a mover's next ring to start has an entry of OP COPY, FILL, TRANSPOSE, DECOMP, FETCH or FETCH_NVME in front, that command starts it: it takes an identity, leaves the ring, counts as in progress, and its destination blocks are being filled. A new completion entry advances the completion queue and is checked as it is read; where the entry passes it hands over or fails the sheet of its command, where it does not that move fails, and where it names no outstanding command nothing else happens. A sheet out for T2_TIMEOUT or longer has failed its read. A move with nothing outstanding that failed ends with its code; a FILL of good standing whose ring's class is not held is charged for its bytes, writes them, and ends in success when they are stored. -/
def Obligations.MovesRun : Prop :=
  ∀ (s : State) (m : Nat),
    (∀ r b, s.startCows.nextRing m = some r → s.startCows.ringHead m r = some b →
      let t := s.startCows.start.startMove m r
      (leAt b 0 1 = 1 → exec (.pmvCopy m) s = .next t) ∧ (leAt b 0 1 = 2 → exec (.pmvFill m) s = .next t)
      ∧ (leAt b 0 1 = 3 → exec (.pmvTranspose m) s = .next t) ∧ (leAt b 0 1 = 4 → exec (.pmvDecomp m) s = .next t)
      ∧ (leAt b 0 1 = 5 → exec (.pmvFetch m) s = .next t) ∧ (leAt b 0 1 = 6 → exec (.pmvFetchNvme m) s = .next t))
    ∧ (s.cqeNew m = true →
      let t := s.start.cqePop m
      let bs := rangeBlocks (s.nvmeAddr m 1 + 16 * (s.mover m).cqHead) 16
      (s.cidPiece m (leAt (s.cqe m) 12 2) = none → exec (.nvmeCompletion m) s = .next (t.checkAll 0 0 bs).1)
      ∧ (∀ id k, s.cidPiece m (leAt (s.cqe m) 12 2) = some (id, k) →
        let r := t.checkAll 0 id bs
        (r.2 = false → exec (.nvmeCompletion m) s = .next ((r.1.failMove m id 3).pump))
        ∧ (r.2 = true → leAt (s.cqe m) 14 2 / 2 = 0 → exec (.nvmeCompletion m) s = .next ((r.1.pieceGot m id k).pump))
        ∧ (r.2 = true → leAt (s.cqe m) 14 2 / 2 ≠ 0 → exec (.nvmeCompletion m) s = .next ((r.1.pieceFailed m id k false).pump))))
    ∧ (∀ i k v, (s.mover m).moves[i]? = some v → (MoveDesc.ofBytes v.bytes).fetch = true → (getAt ⟨0, 0, false, true, 0, 0, 0⟩ v.sheets k).out = true →
      (getAt ⟨0, 0, false, true, 0, 0, 0⟩ v.sheets k).issued + s.fld (MEM_PMV_T2_TIMEOUT.US m) * 1000 ≤ s.cyc →
      exec (.sheetReadTimeout m i k) s = .next ((s.start.pieceFailed m v.id k false).pump))
    ∧ (∀ i v, (s.mover m).moves[i]? = some v → v.busy = false → s.moveReported v.id = false →
      (v.code ≠ 0 → exec (.moveComplete m i) s = .next (s.start.moveFail m v))
      ∧ (v.code = 0 → v.sheets = [] → v.reads = [] → (MoveDesc.ofBytes v.bytes).op = 2 → s.hbxBars (0x40 + m) v.ring (m / 8) v.writes = false →
        let d := MoveDesc.ofBytes v.bytes
        let r := (s.start.regulateAll (0x40 + m) v.ring (m / 8) v.writes).moveStore m v d (placed d.dst (List.replicate d.len (BitVec.ofNat 8 d.fill)))
        exec (.moveComplete m i) s = .next (if r.2 then r.1.moveDone m v else r.1.putMove m { v with code := 3 })))

/-- A new request of a die that is there, with its instances on, is counted where the table classifies it, and, when its route has a queue, either goes to the first queue of its route, charged there where an instance regulates it, or waits at its master port; one that waits there leaves when it may, and one next in a link's queue, or a write next in a controller's, goes on where there is room. A boundary of a class's window that has come ends the window. A read next in a controller's queue that completes leaves it and enters the latest sixteen latencies, LAT_AVG and LEVEL following. A request older than AGE in a queue of an instance is raised to level 7, once, and counted. Writing CTRL of a table entry is refused with REJECT while the table is copied or when a window limit lies below its base, else it takes CTRL, BASE and LIMIT together, the ports keep the old entry, and BUSY is set until the copy has ended. The class and budget registers take what is written, a window length code above 12 being refused; until the first boundary of the new length what governs now goes on. -/
def Obligations.HeadboxRegulates : Prop :=
  ∀ (s : State) (m i c : Nat),
    (∀ part src a n rd k j, (masterDies m).contains src = true → (src = 3 → s.iod1 = true) → n ≠ 0 → s.hbxDark (s.hbxRoute src a) = false →
      let r : HbxReq := ⟨m, src, s.hbxClass m part a, a, n, rd, s.hbxRoute src a, 0, s.cyc, false⟩
      let t := s.start.hbxCount m part a
      (s.hbxRoute src a = [] → exec (.hbxRequestForward true m part src a n rd k j) s = .next s.start)
      ∧ (s.hbxRoute src a ≠ [] → t.hbxMayIssue r (t.hbxQueue hopPorts) = true → exec (.hbxRequestForward true m part src a n rd k j) s = .next (t.hbxPass r))
      ∧ (s.hbxRoute src a ≠ [] → t.hbxMayIssue r (t.hbxQueue hopPorts) = false →
        exec (.hbxRequestForward true m part src a n rd k j) s = .next (t.setHbxQueue hopPorts (t.hbxQueue hopPorts ++ [r]))))
    ∧ (∀ part src a n rd k j r, (s.hbxQueue k)[j]? = some r →
      let t := (s.start.setHbxQueue k ((s.hbxQueue k).eraseIdx j)).hbxPass r
      (k = hopPorts → s.hbxMayIssue r ((s.hbxQueue k).take j) = true → s.hbxDark r.route = false → exec (.hbxRequestForward false m part src a n rd k j) s = .next t)
      ∧ (k ≠ hopPorts → (8 ≤ k ∨ r.rd = false) → hbxNext k (s.hbxQueue k) j = true → s.hbxRoom r = true → s.hbxDark (r.route ++ [k]) = false →
        exec (.hbxRequestForward false m part src a n rd k j) s = .next t))
    ∧ (∀ renew, s.pdOn (pdCore i) = true → s.hbxDue i c = some renew → exec (.hbxWindowBoundary i c) s = .next (s.start.hbxBoundary i c renew))
    ∧ (∀ k j r, k < 8 → (s.hbxQueue k)[j]? = some r → r.rd = true → hbxNext k (s.hbxQueue k) j = true → s.pdOn (pdCore (k / 4)) = true →
      let t := (s.start.setHbxQueue k ((s.hbxQueue k).eraseIdx j)).hbxSync (k / 4) r.cls
      let l := ((s.cyc - r.since) :: (t.hbx (k / 4) r.cls).lats).take 16
      let avg := Nat.min 65535 (sumN l / 16)
      exec (.hbxReadComplete k j) s = .next (((t.setHbx (k / 4) r.cls { t.hbx (k / 4) r.cls with lats := l }).setF (HBX_STATUS.LAT_AVG (k / 4) r.cls) avg).setF
        (HBX_STATUS.LEVEL (k / 4) r.cls) (hbxLevel (t.hbxForce (k / 4) r.cls).1 avg)))
    ∧ (∀ k j r, hopOwn k = true → (s.hbxQueue k)[j]? = some r → r.aged = false → s.pdOn (pdCore (hopInst k)) = true → s.fld (HBX_CFG.AGE_64NS (hopInst k)) ≠ 0 →
      s.fld (HBX_CFG.AGE_64NS (hopInst k)) * 64 ≤ s.cyc - r.since →
      exec (.hbxAgeRaise k j) s = .next ((s.start.setHbxQueue k (setAt (s.hbxQueue k) j { r with level := 7, aged := true })).bump (HBX_AGED.COUNT (hopInst k)) 1))
    ∧ (∀ e v, s.mayWrite m (HBX_MATCH_CTRL.addr e) = true →
      let w := BitVec.ofNat 32 v
      let base := s.start.heldOr (HBX_MATCH_BASE.addr e)
      let limit := s.start.heldOr (HBX_MATCH_LIMIT.addr e)
      let t := s.start.setF HBX_TBL_CTRL.LAST_ENTRY e
      (s.flag HBX_TBL_CTRL.BUSY = true → exec (.hbxMatchCtrlWrite m e v) s = .next (s.start.setF HBX_TBL_CTRL.REJECT 1))
      ∧ (s.flag HBX_TBL_CTRL.BUSY = false → bits w 30 30 = 1 → limit.toNat < base.toNat → exec (.hbxMatchCtrlWrite m e v) s = .next (t.setF HBX_TBL_CTRL.REJECT 1))
      ∧ (s.flag HBX_TBL_CTRL.BUSY = false → (bits w 30 30 = 1 → base.toNat ≤ limit.toNat) →
        exec (.hbxMatchCtrlWrite m e v) s = .next (((((({ t with hbxCopy := some (e, s.start.hbxEntry e) }.wr (HBX_MATCH_CTRL.addr e) (w &&& 0xF01FFFFF)).wr
          (HBX_MATCH_BASE.addr e) base).wr (HBX_MATCH_LIMIT.addr e) limit).unhold (HBX_MATCH_BASE.addr e)).unhold (HBX_MATCH_LIMIT.addr e)).setF HBX_TBL_CTRL.BUSY 1)))
    ∧ (s.flag HBX_TBL_CTRL.BUSY = true → exec .hbxTableCopyDone s = .next ({ s.start with hbxCopy := none }.setF HBX_TBL_CTRL.BUSY 0))
    ∧ (∀ v, let w := BitVec.ofNat 32 v
      let t := s.start.hbxSync i c
      let u := t.setHbx i c { t.hbx i c with old := some (t.hbxForce i c, t.now) }
      (s.mayWrite m (HBX_CLASS.addr i c) = true → bits w 31 28 ≤ 12 → exec (.hbxClassWrite m i c 0 v) s = .next (u.wr (HBX_CLASS.addr i c) (w &&& 0xFFFCFFFF)))
      ∧ (s.mayWrite m (HBX_CLASS.addr i c) = true → 13 ≤ bits w 31 28 → exec (.hbxClassWrite m i c 0 v) s = .next s.start)
      ∧ (s.mayWrite m (HBX_BUDGET.addr i c) = true → exec (.hbxClassWrite m i c 1 v) s = .next (u.wr (HBX_BUDGET.addr i c) w))
      ∧ (∀ l, l < 3 → s.mayWrite m (HBX_LINK_BUDGET.addr i c l) = true → exec (.hbxClassWrite m i c (l + 2) v) s = .next (u.wr (HBX_LINK_BUDGET.addr i c l) w)))

/-- CHECK_FAILURE_REPORT takes the oldest waiting report off the list and acts on it, or acts on a possible one from a checker outside that fits the operation it names. A cluster in service or draining that has spent the watchdog time on its oldest accepted operation is reported with kind HANG. A control-mesh message is sent again on the first three failures of its parity and stops the control plane on the fourth: dispatch stops, a record of kind 0x0C is written, the fatal-error interrupts rise. Bad header parity is reported and answered with an error. -/
def Obligations.IntegrityReports : Prop :=
  ∀ (s : State),
    (∀ r rest, s.reports = r :: rest → exec (.checkFailureReport none) s = .next ({ s.start with reports := rest }.onReport r))
    ∧ (∀ r, reportOk r = true → s.reportFits r = true → exec (.checkFailureReport (some r)) s = .next (s.start.onReport r))
    ∧ (∀ n o, s.oldestOp n = some o → s.fld ITG_POLICY.WDOG ≠ 0 → s.svc n ≤ 1 → s.fld ITG_POLICY.WDOG * 100000 ≤ (s.cl n).wdog →
      exec (.watchdogExpiry n) s = .next (s.start.onReport ⟨0x0B, n, n, o.id, 0, 0, 0, 0, 0, 0⟩))
    ∧ (∀ k, k = 1 ∨ k = 2 ∨ k = 3 → exec (.meshParityError k) s = .next s.start)
    ∧ exec (.meshParityError 4) s = .next ((({ s.start with dispatchStopped := true }.writeBroke (Broke.plain 0x0C)).pulse 2).emit (.mgtIrq 2))
    ∧ (∀ u op move, exec (.headerParityError u op move) s =
      .next ((s.start.report ⟨0x06, u, if u < 64 then u else 64, op, move, 0, 0, 0, 0, 0⟩).say .parity))

/-- An open entry whose blocks are spoilt or poisoned resolves BROKE, with a record; one none of whose blocks is provisional resolves CONFIRMED; one open for PROV_TIMEOUT resolves BROKE. Where the port can send, exactly that entry leaves the port's list and a notice carries the outcome and the entry's two sequence numbers; where it cannot, the entry stays with its outcome, and the notice goes once the port can. A write of ITG_BROKE_HEAD takes effect when it pops no more records than there are, and does nothing otherwise. -/
def Obligations.ProvisionalResults : Prop :=
  ∀ (s : State) (m p i v : Nat),
    (∀ t, (s.trackersOf p)[i]? = some t →
      let left := fun (u : State) (out seq : Nat) => (u.setTrackers p ((u.trackersOf p).eraseIdx i)).sendNotice p out t.first t.last seq
      let kept := fun (u : State) (out seq : Nat) => u.setTrackers p (setAt (u.trackersOf p) i { t with done := some (out, seq) })
      let b := s.start.brokeOf t
      (t.done = none → (t.spoiled = true ∨ (∃ b ∈ t.blocks, (s.tag b).poison = true)) →
        exec (.trackerResolve p i) s = .next (if s.noticeUp p then left b.1 2 b.2 else kept b.1 2 b.2))
      ∧ (t.done = none → t.spoiled = false → (∀ b ∈ t.blocks, (s.tag b).poison = false ∧ (s.tag b).prov = false) →
        exec (.trackerResolve p i) s = .next (if s.noticeUp p then left s.start 1 0 else kept s.start 1 0))
      ∧ (t.done = none → t.since + s.fld ITG_POLICY.PROV_TIMEOUT_MS * 1000000 ≤ s.cyc →
        exec (.provTimeout p i) s = .next (if s.noticeUp p then left b.1 2 b.2 else kept b.1 2 b.2))
      ∧ (∀ out seq, t.done = some (out, seq) → s.noticeUp p = true → exec (.trackerResolve p i) s = .next (left s.start out seq)))
    ∧ (s.mayWrite m ITG_BROKE_HEAD.addr = true →
      (wrapSub v (s.fld ITG_BROKE_HEAD.COUNT) ≤ s.brokeFill → exec (.brokeHeadWrite m v) s = .next (s.start.setF ITG_BROKE_HEAD.COUNT v))
      ∧ (s.brokeFill < wrapSub v (s.fld ITG_BROKE_HEAD.COUNT) → exec (.brokeHeadWrite m v) s = .next s.start))

/-- A request of a cluster that is not retired, by index or (ANY) of the in-service cluster whose last pass is oldest, is queued at class 3 with its FORCE bit, and drains begin; a retired cluster, and ANY with none in service, set REJECT; so does a request that finds no place. A sweep's due test is queued at class 4. The next ready request's test starts. A test of a cluster in test that passes puts it back in service with its strikes cleared and its granted Vat ranges zeroed; a fault located at the nominal point or at one of the test's stress points is kept for repair; one not located retires the cluster with outcome 2. -/
def Obligations.FieldTests : Prop :=
  ∀ (s : State) (m v n : Nat),
    (s.mayWrite m ITG_FT_REQ.addr = true →
      let w := BitVec.ofNat 32 v
      (∀ k, (if bits w 31 31 = 1 then s.oldestTest else some (bits w 5 0)) = some k → s.svc k ≠ 5 →
        let r := s.start.ftRequest k 3 (bits w 30 30 == 1)
        exec (.ftRequest m v) s = .next (if r.2 then r.1.startDrains else s.start.setF ITG_FT_STATUS.REJECT 1))
      ∧ (bits w 31 31 = 1 → s.oldestTest = none → exec (.ftRequest m v) s = .next (s.start.setF ITG_FT_STATUS.REJECT 1))
      ∧ (bits w 31 31 = 0 → s.svc (bits w 5 0) = 5 → exec (.ftRequest m v) s = .next (s.start.setF ITG_FT_STATUS.REJECT 1)))
    ∧ (s.fld ITG_SWEEP.SWEEP_H ≠ 0 → s.svc n = 0 → Sparse.get (fun _ => 0) s.lastPass n + s.fld ITG_SWEEP.SWEEP_H * 3600000000000 ≤ s.cyc →
      (s.ftQueue.any (fun r => r.clu == n)) = false → s.ftPending < 64 → exec (.sweepTestDue n) s = .next ((s.start.ftRequest n 4 false).1.startDrains))
    ∧ (∀ r tj, s.ftNext = some r → exec (.fieldTestStart tj) s = .next (s.start.startTest r.clu tj))
    ∧ (∀ row col srow nom, s.svc n = 3 →
      let t := { s.start with ftPoints := Sparse.set (fun _ => []) s.ftPoints n [] }
      let f := (t.setF (ITG_FT_RESULT.FAIL_AT_NOM n) (b2n nom)).setF (ITG_FT_RESULT.STRESS_ROW n) (if nom then 7 else srow)
      let at_ := nom = true ∨ (s.pointsOf n).any (fun p => p.1 == srow) = true
      exec (.fieldTestEnd n 0 row col srow nom) s = .next ((t.passTest n).startDrains)
      ∧ (at_ → s.faultPlace n row col = true → exec (.fieldTestEnd n 1 row col srow nom) s = .next (f.locateFault n row col))
      ∧ (at_ → exec (.fieldTestEnd n 2 row col srow nom) s = .next (f.retireCluster n 0x0E 2)))

/-- For an operation that waits at the front of the unit its opcode uses, with its object loaded: one that breaks R435 comes to BAD_PARAM; NOP comes to OK, an unlisted opcode to BAD_OPCODE; UNBIND of an empty slot to NO_ROADMAP, of one that another queue's posted operation names to SLOT_BUSY, of another to OK with the slot emptied; BIND, VALIDATE, SEARCH, and OCC_LOAD into a free bank, come to what their rules give; all kept in the unit until the operation completes. An operation with a parity failure comes to ENGINE, counted and reported, and the bank of a load becomes empty; what a VALIDATE or SEARCH so broken leaves is what R455 gives. -/
def Obligations.DuneOperations : Prop :=
  ∀ (s : State) (e : Nat) (o : Op) (x : Obj),
    let hd := fun (load : Bool) (p : Nat → Bool) => s.engHead (e + 1) load p = some (o, x)
    let land := fun (load : Bool) (u : State) (out : EngOut) =>
      (Host.Outcome.next (u.setUnit (e + 1) load (some { o with acceptTime := s.cyc, provIn := out.provIn }) (some out)) : Host.Outcome State Fault Refusal)
    let t := s.start
    let broken := t.engFault (e + 1) o dunEngine (DUN_PARITY.COUNT e)
    (hd false (fun op => op == 0 || !(decide (0x40 ≤ op ∧ op ≤ 0x44))) →
      (leAt o.bytes 0 1 ≠ 0 → exec (.dunNop e 0) s = land false t (EngOut.of stBadOpcode 0 []))
      ∧ (leAt o.bytes 0 1 = 0 → exec (.dunNop e 0) s = land false t (EngOut.of (if duneParamOk o.bytes x then 0 else stBadParam) 0 []))
      ∧ exec (.dunNop e 1) s = land false broken (EngOut.of dunEngine 0 []))
    ∧ (hd false (fun op => op == 0x40) →
      (duneParamOk o.bytes x = true → ∀ u out, t.duneBind e o x = .done u out → exec (.dunBind e 0) s = land false u out)
      ∧ exec (.dunBind e 1) s = land false broken (EngOut.of dunEngine 0 []))
    ∧ (hd false (fun op => op == 0x41) →
      (duneParamOk o.bytes x = true →
        (t.duneSlot e o x = none → exec (.dunUnbind e 0) s = land false t (EngOut.of dunNoRoadmap 0 []))
        ∧ (∀ y, t.duneSlot e o x = some y → let named := t.slotNamed (e + 1) o.queue (leAt o.bytes 1 1) x [0x41, 0x43, 0x44]
          (named = true → exec (.dunUnbind e 0) s = land false t (EngOut.of dunSlotBusy 0 []))
          ∧ (named = false →
            exec (.dunUnbind e 0) s = land false t { EngOut.of 0 0 [] with duneSlots := some (setAt (t.dune e).slots (leAt o.bytes 1 1) none) })))
      ∧ exec (.dunUnbind e 1) s = land false broken (EngOut.of dunEngine 0 []))
    ∧ (∀ b, s.duneFree e = some b → hd true (fun op => op == 0x42) →
      (duneParamOk o.bytes x = true → ∀ u out, t.duneLoad b o x = .done u out → exec (.occLoad e 0) s = land true u out)
      ∧ exec (.occLoad e 1) s =
        land true (broken.setDune e { (broken.dune e) with banks := setAt (broken.dune e).banks b none }) (EngOut.of dunEngine 0 []))
    ∧ (duneParamOk o.bytes x = true → ∀ u out,
      (hd false (fun op => op == 0x43) → t.duneValidate e o x = .done u out → exec (.dunValidate e 0) s = land false u out)
      ∧ (hd false (fun op => op == 0x44) → t.duneSearch e o x = .done u out → exec (.dunSearch e 0) s = land false u out)
      ∧ (∀ fault v r, fault ≠ 0 → t.duneBroken e fault o x (some out) = .done v r →
        (hd false (fun op => op == 0x43) → t.duneValidate e o x = .done u out → exec (.dunValidate e fault) s = land false v r)
        ∧ (hd false (fun op => op == 0x44) → t.duneSearch e o x = .done u out → exec (.dunSearch e fault) s = land false v r)))
    ∧ (duneParamOk o.bytes x = false →
      (hd false (fun op => op == 0x43) → exec (.dunValidate e 0) s = land false t (EngOut.of stBadParam 0 []))
      ∧ (hd false (fun op => op == 0x44) → exec (.dunSearch e 0) s = land false t (EngOut.of stBadParam 0 [])))

/-- For an operation that waits at the front of a Marl engine, with its object loaded: an unlisted opcode comes to BAD_OPCODE, NOP to OK, one that breaks R464 to BAD_PARAM with the offset of its first offending byte; QP_BIND, QP_UNBIND, QP_FACTOR, QP_SOLVE, MPC_STEP, BATCH_FACTOR and BATCH_SOLVE come to what their rules give, kept in the unit until the operation completes; one with a parity failure comes to what R481 gives. A running operation whose deadline has passed and which can still be cut short at that point comes to the outcome it has there. -/
def Obligations.MarlOperations : Prop :=
  ∀ (s : State) (e : Nat) (o : Op) (x : Obj),
    let hd := fun (op : Nat) => s.engHead (e + 3) false (fun k => k == op) = some (o, x)
    let land := fun (u : State) (out : EngOut) =>
      (Host.Outcome.next (u.setUnit (e + 3) false (some { o with acceptTime := s.cyc, provIn := out.provIn }) (some out)) : Host.Outcome State Fault Refusal)
    let t := s.start
    (s.engHead (e + 3) false (fun op => !(decide (0x50 ≤ op ∧ op ≤ 0x54) || op == 0x58 || op == 0x59)) = some (o, x) →
      (leAt o.bytes 0 1 ≠ 0 → exec (.slvNop e 0) s = land t (EngOut.of stBadOpcode 0 []))
      ∧ (leAt o.bytes 0 1 = 0 → exec (.slvNop e 0) s = land t (if slvParamOk o.bytes x then EngOut.of 0 0 [] else slvRefused o.bytes x)))
    ∧ (slvParamOk o.bytes x = true → ∀ u out,
      (hd 0x50 → t.qpBind e o x = .done u out → exec (.qpBind e 0) s = land u out)
      ∧ (hd 0x51 → t.qpUnbind e o x = .done u out → exec (.qpUnbind e 0) s = land u out)
      ∧ (hd 0x52 → t.qpFactor e o x none = .done u out → exec (.qpFactor e 0) s = land u out)
      ∧ (hd 0x53 → t.qpSolve e o x none = .done u out → exec (.qpSolve e 0) s = land u out)
      ∧ (hd 0x54 → t.mpcStep e o x none = .done u out → exec (.mpcStep e 0) s = land u out)
      ∧ (hd 0x58 → t.batchFactor e o x = .done u out → exec (.batchFactor e 0) s = land u out)
      ∧ (hd 0x59 → t.batchSolve o x = .done u out → exec (.batchSolve e 0) s = land u out)
      ∧ (∀ fault v r, fault ≠ 0 → t.slvBroken e fault o x (some out) = .done v r →
        (hd 0x53 → t.qpSolve e o x none = .done u out → exec (.qpSolve e fault) s = land v r)
        ∧ (hd 0x54 → t.mpcStep e o x none = .done u out → exec (.mpcStep e fault) s = land v r)))
    ∧ (slvParamOk o.bytes x = false → hd 0x50 → exec (.qpBind e 0) s = land t (slvRefused o.bytes x))
    ∧ (∀ out fac k u r, (s.eng (e + 3)).main = some o → (s.eng (e + 3)).mainOut = some out → s.obj o.handle = some x → s.slvLate o.bytes = true →
      slvCuttable o.bytes out fac k = true → s.opHasReport o.id = false → o.status = 0 → t.slvCut e o x fac k = .done u r →
      exec (.solverDeadlineMissed e fac k) s = .next (u.setUnit (e + 3) false (some { o with provIn := r.provIn }) (some r)))

/-- For an operation that waits at the front of Loam, with its object loaded: an unlisted opcode comes to BAD_OPCODE, NOP to OK, one that breaks R513 to BAD_PARAM; FRAME_LOAD, TRANSFORM, ASSOCIATE, TRACK_APPLY and TRACK_READ come to what their rules give; one with a parity failure comes to what R527 gives. The operation of any engine's unit, with an outcome, no report of it waiting and no block it writes being filled, completes: its writes land, its footprint is poisoned, its tables and counters change, and it retires with its status. -/
def Obligations.LoamOperations : Prop :=
  ∀ (s : State) (o : Op) (x : Obj),
    let hd := fun (op : Nat) => s.engHead 5 false (fun k => k == op) = some (o, x)
    let land := fun (u : State) (out : EngOut) =>
      (Host.Outcome.next (u.setUnit 5 false (some { o with acceptTime := s.cyc, provIn := out.provIn }) (some out)) : Host.Outcome State Fault Refusal)
    let t := s.start
    (s.engHead 5 false (fun op => !decide (0x60 ≤ op ∧ op ≤ 0x64)) = some (o, x) →
      (leAt o.bytes 0 1 ≠ 0 → exec (.lomNop 0) s = land t (EngOut.of stBadOpcode 0 []))
      ∧ (leAt o.bytes 0 1 = 0 → exec (.lomNop 0) s = land t (EngOut.of (if lomParamOk o.bytes x then 0 else stBadParam) 0 [])))
    ∧ (lomParamOk o.bytes x = true → ∀ u out,
      (hd 0x60 → t.frameLoad o x = .done u out → exec (.frameLoad 0) s = land u out)
      ∧ (hd 0x61 → t.lomTransform o x = .done u out → exec (.lomTransform 0) s = land u out)
      ∧ (hd 0x62 → t.lomAssociate o x = .done u out → exec (.lomAssociate 0) s = land u out)
      ∧ (hd 0x63 → t.trackApply o x = .done u out → exec (.trackApply 0) s = land u out)
      ∧ (hd 0x64 → t.trackRead o x = .done u out → exec (.trackRead 0) s = land u out)
      ∧ (∀ fault v r, fault ≠ 0 → t.lomBroken fault o (some out) = .done v r →
        hd 0x62 → t.lomAssociate o x = .done u out → exec (.lomAssociate fault) s = land v r))
    ∧ (lomParamOk o.bytes x = false → hd 0x60 → exec (.frameLoad 0) s = land t (EngOut.of stBadParam 0 []))
    ∧ (∀ e load out, (if load then (s.eng e).load else (s.eng e).main) = some o → (if load then (s.eng e).loadOut else (s.eng e).mainOut) = some out →
      s.opHasReport o.id = false → s.engUp e = true → o.status = 0 → s.pendingBlock out.blocks = none → (t.engWrites e o out).2 = [] →
      exec (.engineOpComplete e load) s = .next ((((((t.engWrites e o out).1.poisonWith (if o.blame = 0 then out.blame else o.blame) (blocksOf out.foot)).engTables e out).engCounts
        out).engLeave e load { o with status := out.status, detail := out.detail, wrote := out.blocks })))

/-- Every write of a context, and the end of a read of a table or setpoint block, takes first the instants that have come. A write of an input in a valid group is staged; in none it is staged and live. A commit takes its groups in turn. LOAD starts a load of the table at LAW_LO and LAW_HI unless one runs; its end, the table not being filled, records the code and EVENT.LAW_DONE, and a good law becomes active at once in a context that is off, pending in one that runs. A changed setpoint cell starts a read, its end takes an acceptable block into the shadow and counts and flags a rejected one. Setting EN with an active law, PERIOD_NS 50,000 to 2,000,000 and LAUNCH_NS 2,000 to PERIOD_NS enables the context with its counters at 0 and its first instant set; failing any of them EN stays 0 and CFG_REJECT sets; while EN is 1 the write does nothing. Clearing EN stops the context at once when no sample of it is in progress, else once that has launched. -/
def Obligations.TilthContexts : Prop :=
  ∀ (s : State) (m c i v : Nat),
    let r := s.start.tltSettle
    (s.mayWrite m (TLT_IN.addr c i) = true →
      let x := { r.ctx c with staged := Sparse.set (fun _ => 0) (r.ctx c).staged i v }
      (r.inGroup c i = true → exec (.tltInputWrite m c i v) s = .next (r.setCtx c x))
      ∧ (r.inGroup c i = false → exec (.tltInputWrite m c i v) s = .next (r.setCtx c { x with live := Sparse.set (fun _ => 0) (r.ctx c).live i v })))
    ∧ (s.mayWrite m (TLT_COMMIT.addr c) = true → ∀ g, g < 16 → exec (.groupCommit m c (2 ^ g)) s = .next (r.commitGroup c g))
    ∧ (s.mayWrite m (TLT_LAW_CMD.addr c) = true →
      ((s.ctx c).loading = none → exec (.lawLoad m c) s = .next (s.start.setCtx c { s.ctx c with loading := some (s.lawAddr c) }))
      ∧ ((s.ctx c).loading ≠ none → exec (.lawLoad m c) s = .next s.start))
    ∧ (∀ a, (s.ctx c).loading = some a → s.pdOn pdTlt = true → s.tilth.inReset = false →
      (s.dataRange a 1664 = false →
        exec (.lawLoadDone c) s = .next ((((r.setCtx c { r.ctx c with loading := none }).setF (TLT_LAW_CMD.LAW_ERR c) 8).tltEvent (19 + c) false)))
      ∧ (s.dataRange a 1664 = true →
        let rd := s.imageRd a
        let len := Nat.max 1664 (Nat.min (rd 12 4) 1048576)
        let err := lawError rd (s.seenBytes a) (s.tltUnusable a)
        let t := r.tltNote a len
        let x := { t.ctx c with loading := none }
        let y := if err ≠ 0 then x else if x.on then { x with pend := some (lawOf rd, t.now) } else x.switch (lawOf rd)
        (s.dataRange a len = true → s.pendingBlock (rangeBlocks a len) = none) →
        exec (.lawLoadDone c) s = .next (((t.setCtx c y).setF (TLT_LAW_CMD.LAW_ERR c) err).tltEvent (19 + c) false)))
    ∧ (s.flag (TLT_SP_CTL.SP_EN c) = true → s.pdOn pdTlt = true → (s.ctx c).cell ≠ s.spCell c →
      exec (.setpointCellChange c) s = .next (s.start.setCtx c { s.ctx c with cell := s.spCell c, again := (s.ctx c).reading, reading := true }))
    ∧ ((r.ctx c).reading = true → s.pdOn pdTlt = true → s.tilth.inReset = false →
      let n := 32 + 4 * (match (r.ctx c).law with | some l => l.spCount | none => 0)
      (s.dataRange (s.spAddr c) n = true → s.pendingBlock (rangeBlocks (s.spAddr c) n) = none) →
      let t := r.tltNote (s.spAddr c) n
      let y := { r.ctx c with reading := (r.ctx c).again, again := false }
      (∀ b, r.spBlock c = some b → exec (.setpointReadDone c) s = .next (t.setCtx c { y with shadow := some b }))
      ∧ (r.spBlock c = none → exec (.setpointReadDone c) s = .next (((t.setCtx c y).bump (TLT_SP_REJECT.COUNT c) 1).setF (TLT_FLAGS.SP_REJECT c) 1)))
    ∧ (s.mayWrite m (TLT_CFG.addr c) = true →
      let w := ins (BitVec.ofNat 32 v) 31 31 1
      let t := r.wr (TLT_CFG.addr c) (w &&& 0x7F1FFFFF)
      let fits := 50000 ≤ t.tltPeriod c ∧ t.tltPeriod c ≤ 2000000 ∧ 2000 ≤ t.tltLaunch c ∧ t.tltLaunch c ≤ t.tltPeriod c
      (r.flag (TLT_CFG.EN c) = true → exec (.contextEnable m c v) s = .next r)
      ∧ (r.flag (TLT_CFG.EN c) = false → (r.ctx c).law ≠ none → fits →
        exec (.contextEnable m c v) s = .next (((((t.setF (TLT_CFG.EN c) 1).setF (TLT_SAMPLES.COUNT c) 0).setF (TLT_MISSED.COUNT c) 0).setF (TLT_SP_REJECT.COUNT c) 0).setCtx c
          { r.ctx c with commits := [], sp := none, shadow := none, prev := none, on := true, next := firstInstant (r.tltStart c) (t.tltPeriod c) r.now }))
      ∧ (r.flag (TLT_CFG.EN c) = false → ((r.ctx c).law = none ∨ ¬ fits) →
        exec (.contextEnable m c v) s = .next (t.setF (TLT_FLAGS.CFG_REJECT c) 1))
      ∧ (r.flag (TLT_CFG.EN c) = true → (r.tilth.run.toList ++ r.tilth.wait).any (fun p => p.ctx == c) = false →
        exec (.contextDisable m c v) s = .next ((r.setF (TLT_CFG.EN c) 0).setCtx c { r.ctx c with on := false }))
      ∧ (r.flag (TLT_CFG.EN c) = true → (r.tilth.run.toList ++ r.tilth.wait).any (fun p => p.ctx == c) = true →
        exec (.contextDisable m c v) s = .next (r.setF (TLT_CFG.EN c) 0)))

/-- A context at its instant takes its sample. The running sample's output, in time, ends it; a sample whose deadline has passed is missed with cause DEADLINE, during a reset of the pair with cause LOCKSTEP. A write of TEST_CFG takes first the instants that have come; with RUN it is refused with TEST_REJECT for wave 3 or an output the law does not have, whether or not an injection runs; else it takes the register. A mismatch of the pair acts as R402 says, and the end of the reset lets it go on. RESTART while stopped clears STOPPED, opens a new window of mismatches and lets every enabled context go on; while not stopped it does nothing. A Tilth output is sent when its queue is chosen, and dropped when its link is down or it is too late. -/
def Obligations.TilthSamples : Prop :=
  ∀ (s : State) (m c v n : Nat),
    (s.instantDue c = true → s.tilth.inReset = false → exec (.sampleInstant c) s = .next (s.start.instant c))
    ∧ (∀ p, s.tilth.run = some p → s.tltUp = true → s.tilth.inReset = false → s.now ≤ p.deadline → exec .sampleComplete s = .next ((s.start.dropSample p.ctx).endSample p))
    ∧ (∀ p, s.outstanding c = some p → s.tltUp = true →
      (s.tilth.inReset = false → p.deadline ≤ s.now → exec (.sampleDeadline c) s = .next ((s.start.dropSample p.ctx).endSample (p.miss (s.start.ctx p.ctx) 1)))
      ∧ (s.tilth.inReset = true → p.deadline ≤ s.now → exec (.sampleDeadline c) s = .next ((s.start.dropSample p.ctx).endSample (p.miss (s.start.ctx p.ctx) 5))))
    ∧ (s.mayWrite m (TLT_TEST_CFG.addr c) = true →
      let w := ins (BitVec.ofNat 32 v) 31 31 1
      let r := s.start.tltSettle
      ((bits w 30 29 = 3 ∨ (r.ctx c).nu ≤ bits w 28 22) → exec (.testRun m c v) s = .next (r.setF (TLT_FLAGS.TEST_REJECT c) 1))
      ∧ (bits w 30 29 ≠ 3 → bits w 28 22 < (r.ctx c).nu → bits w 13 13 = 0 → exec (.testRun m c v) s = .next (r.wr (TLT_TEST_CFG.addr c) (w &&& 0xFFFFEFFF))))
    ∧ (s.pdOn pdTlt = true → (s.tilth.inReset = false → exec .lockstepTltMismatch s = .next s.start.tltMismatch)
      ∧ (s.tilth.inReset = true → exec .tilthPairResetDone s = .next { s.start with tilth := { s.tilth with inReset := false } }))
    ∧ (s.mayWrite m TLT_CTRL.addr = true →
      (s.flag TLT_STATUS.STOPPED = true → exec (.tltRestart m) s = .next (({ s.start with tilth := { s.tilth with faults := [] } }.setF TLT_STATUS.STOPPED 0).tltResume true))
      ∧ (s.flag TLT_STATUS.STOPPED = false → exec (.tltRestart m) s = .next s.start))
    ∧ (∀ f, (s.mac n).tilth.find? (fun t => t.ctx == c) = some f →
      (s.ethLink n = false ∨ f.launch + s.fld (ETH_CFG.LATE_NS n) < s.now → exec (.tilthFrameLaunch n c) s = .next (s.start.dropTilth n f))
      ∧ (s.ethLink n = true → s.now ≤ f.launch + s.fld (ETH_CFG.LATE_NS n) → s.lineIdle n = true → s.chosen n = some f.queue → s.ethHead n f.queue = some (.tilth f) →
        exec (.tilthFrameLaunch n c) s = .next (s.start.sendTilth n f.queue f)))

/-- Cycles that do not wrap the time base pass together. With the accumulator below 2^32 and the adjustment in force within its limits, one cycle advances the extended time by 2 when the addition of the adjustment carries out, by 0 when it borrows, and by 1 otherwise; the accumulator takes the sum modulo 2^32, the adjustment of the next cycle is the one TIM_RATE holds, and one nanosecond of the moment since reset passes, while the units count what they count in it, Zetha ports whose training failed go back to DETECT, and power domains that wait for a rail begin. No byte of memory, queue or command waiting changes. The cycle that wraps it does the same and then sets EVENT.WRAP with its interrupt. -/
def Obligations.TimeBaseAdvances : Prop :=
  ∀ (s : State), (∀ n, 1 ≤ n → s.timWraps n = false → exec (.timeBaseTick n) s = .next (s.start.timGo n)) ∧
    (s.timAcc < 2 ^ 32 → -4294967 ≤ s.timRho → s.timRho ≤ 4294967 → s.now < 2 ^ 64 - 2 →
    let sum := (s.timAcc : Int) + s.timRho
    let adv := if 2 ^ 32 ≤ sum then 2 else if sum < 0 then 0 else 1
    let ok := fun (t : State) => t = ({ s.start.ticked 1 with now := s.now + adv, cyc := s.cyc + 1, timAcc := (sum % 2 ^ 32).toNat, timRho := s.timRate } : State).zBack.pdKickFrom s.cyc
      ∧ t.now = s.now + adv ∧ t.cyc = s.cyc + 1 ∧ (t.timAcc : Int) = sum % 2 ^ 32 ∧ t.timRho = s.timRate
      ∧ t.mem = s.mem ∧ t.pending = s.pending ∧ t.queues = s.queues ∧ t.dlNow = s.dlNow
    (s.now % 2 ^ 32 + adv < 2 ^ 32 → ∃ t, exec (.timeBaseTick 1) s = .next t ∧ ok t)
    ∧ (2 ^ 32 ≤ s.now % 2 ^ 32 + adv → ∃ t, ok t ∧ exec .timeBaseWrap s = .next ((t.setF TIM_EVENT.WRAP 1).irqMsg TIM_IRQ.EN TIM_IRQ.ERR_ONLY TIM_IRQ.HART TIM_IRQ.EIID true)))

/-- A write of TIM_RATE holds the value clamped to plus or minus 4,294,967. STEP takes the instants that have come, makes the ordinary advance of its cycle, lets Headbox boundaries that have come act, adds the offset modulo 2^64, clears the accumulator, sets DL_NOW and the gate entries by the new time, ends every Headbox window, lets every Tilth context go on at its next instant, and sets EVENT.STEPPED, and EVENT.WRAP when the advance alone wrapped the time base and the offset left WRAPS at the value it gave. A write of TIM_EPOCH_HI makes both words the epoch in force. -/
def Obligations.TimeRateAndStep : Prop :=
  ∀ (s : State) (m v : Nat),
    (s.mayWrite m TIM_RATE.addr = true →
      exec (.timRateWrite m v) s = .next (s.start.wr TIM_RATE.addr (BitVec.ofInt 32 (clampI (-4294967) 4294967 (signed 32 (BitVec.ofNat 32 v).toNat)))))
    ∧ (s.mayWrite m TIM_CTRL.addr = true →
      let r := s.start.tltSettle
      let t := (r.timGo 1).hbxSettle
      let now := (t.now + r.stepOffset) % 2 ^ 64
      let u : State := { t with now := now, timAcc := 0, dlNow := now / 1000 % 2 ^ 32, overdueCtr := t.overdueCtr + 1,
                                macs := t.macs.map (fun (e : Nat × Mac) => (e.1, { e.2 with entry := e.2.entryAt now })) }
      let x := ((u.ageAll.hbxStepped).tltResume false).timEvent TIM_EVENT.STEPPED
      (r.timWraps 1 = true → now / 2 ^ 32 = t.now / 2 ^ 32 → exec (.timStep m) s = .next (x.timEvent TIM_EVENT.WRAP))
      ∧ (r.timWraps 1 = false ∨ now / 2 ^ 32 ≠ t.now / 2 ^ 32 → exec (.timStep m) s = .next x))
    ∧ (s.mayWrite m TIM_EPOCH_HI.addr = true → exec (.epochHiWrite m v) s = .next
      { s.start.wr TIM_EPOCH_HI.addr (BitVec.ofNat 32 v) with timEpoch := s.fld TIM_EPOCH_LO.VALUE + (BitVec.ofNat 32 v).toNat * 2 ^ 32 })

/-- A doorbell moves the ring's TAIL when it adds entries that fit and the ring takes them, and does nothing otherwise; a frame that so comes to the head of a transmit ring is read. A change request with an empty, too long, cycleless or zero-interval list sets REJECT, and nothing else changes; a good one waits for the first start of a cycle at least 1,000 ns from now. At its time the list changes; an entry takes effect when the time falls in it. Frames at the heads of their queues having been read, an idle line starts the head of the queue chosen, a ring frame or a notice. The frame on the line of queue q ends, written back with its time stamp and number when it is a ring frame; a refused head is written back with its status. A late head of a queue that refuses late frames is counted and written back with status 1. A write-back waits while its descriptor is being filled. -/
def Obligations.EthernetTransmits : Prop :=
  ∀ (s : State) (m n q v : Nat),
    (s.mayWrite m (ETH_TXQ_DB.addr n q) = true →
      let on := s.flag (ETH_Q_CFG.TX_EN n q) = true ∧ s.flag (ETH_Q_CFG.TILTH n q) = false
      let add := (v + 2 ^ 32 - s.fld (ETH_TXQ_TAIL.COUNT n q)) % 2 ^ 32
      let fits := (s.fld (ETH_TXQ_TAIL.COUNT n q) + 2 ^ 32 - s.fld (ETH_TXQ_HEAD.COUNT n q)) % 2 ^ 32 + add ≤ 2 ^ s.fld (ETH_TXQ_LO.LOG2_SIZE n q)
      (on → add ≠ 0 → fits → exec (.ethDoorbell m n q 0 v) s = .next ((s.start.setF (ETH_TXQ_TAIL.COUNT n q) v).fetchHead n q))
      ∧ (¬ on ∨ add = 0 ∨ ¬ fits → exec (.ethDoorbell m n q 0 v) s = .next (s.start.fetchHead n q)))
    ∧ (s.mayWrite m (ETH_RXQ_DB.addr n q) = true →
      let on := s.flag (ETH_Q_CFG.RX_EN n q) = true
      let add := (v + 2 ^ 32 - s.fld (ETH_RXQ_TAIL.COUNT n q)) % 2 ^ 32
      let fits := (s.fld (ETH_RXQ_TAIL.COUNT n q) + 2 ^ 32 - s.fld (ETH_RXQ_HEAD.COUNT n q)) % 2 ^ 32 + add ≤ 2 ^ s.fld (ETH_RXQ_LO.LOG2_SIZE n q)
      (on → add ≠ 0 → fits → exec (.ethDoorbell m n q 1 v) s = .next (s.start.setF (ETH_RXQ_TAIL.COUNT n q) v))
      ∧ (¬ on ∨ add = 0 ∨ ¬ fits → exec (.ethDoorbell m n q 1 v) s = .next s.start))
    ∧ (s.mayWrite m (ETH_GATE_CTRL.addr n) = true →
      let w := ins (BitVec.ofNat 32 v) 30 30 1
      let len := bits w 8 0
      let cyc := s.fld (ETH_GATE_CYCLE.CYCLE_NS n)
      let base := s.fld (ETH_GATE_BASE_LO.BASE n) + s.fld (ETH_GATE_BASE_HI.BASE n) * 2 ^ 32
      let bad := len = 0 ∨ 256 < len ∨ cyc = 0 ∨ (List.range len).any (fun e => s.fld (ETH_GCL.INTERVAL n e) == 0) = true
      let t := ((s.start.setF (ETH_GATE_CTRL.GATE_EN n) (bits w 31 31)).setF (ETH_GATE_CTRL.LIST_LEN n) len).setF (ETH_GATE_CTRL.REJECT n)
        (if bits w 29 29 = 1 then 0 else s.fld (ETH_GATE_CTRL.REJECT n))
      let at_ := if s.now + 1000 ≤ base then base else base + ceilDiv (s.now + 1000 - base) cyc * cyc
      (bad → exec (.gateChangeRequest m n v) s = .next (s.start.setF (ETH_GATE_CTRL.REJECT n) 1))
      ∧ (¬ bad → exec (.gateChangeRequest m n v) s =
        .next ((t.wr (ETH_GATE_CTRL.addr n) (ins (t.rd (ETH_GATE_CTRL.addr n)) 30 30 1)).setMac n { t.mac n with change := some (at_, cyc) })))
    ∧ (∀ c, (s.mac n).change = some c → s.ethUp n = true → c.1 ≤ s.now → exec (.gateListChange n) s = .next (s.start.gateChange n c))
    ∧ (s.ethUp n = true → (s.mac n).entry ≠ (s.mac n).entryAt s.now → (∀ c, (s.mac n).change = some c → s.now < c.1) →
      exec (.gateEntryAdvance n) s = .next (s.start.setMac n { s.mac n with entry := (s.mac n).entryAt s.now }))
    ∧ (let t := s.start.ethFetch n
      (∀ k, t.lineIdle n = true → t.chosen n = some k →
        (∀ h, t.ethHead n k = some (.ring h) → exec (.ethFrameTransmit n) s = .next (t.sendRing n k h))
        ∧ (∀ f, t.ethHead n k = some (.notice f) → exec (.ethFrameTransmit n) s =
          .next ((t.wire n f).setMac n { t.mac n with notices := (t.mac n).notices.tail, tx := some ⟨k, false, false, t.txStamp n, none⟩ })))
      ∧ (∀ f, (t.mac n).tx = some f → f.queue = q →
        let u := t.setMac n { t.mac n with tx := none }
        (f.ring = false → exec (.ethTxComplete n q) s = .next u)
        ∧ (f.ring = true → t.filling (t.txDescAddr n q) 32 = false →
          exec (.ethTxComplete n q) s = .next (u.writeBack n q 0 (if f.tsReq then some (f.stamp % 2 ^ 32) else none) f.prov))
        ∧ (f.ring = true → t.filling (t.txDescAddr n q) 32 = true → exec (.ethTxComplete n q) s = .next (s.start.say .waits)))
      ∧ ((∀ f, (t.mac n).tx = some f → f.queue ≠ q) → t.ethUp n = true → t.txPosted n q = true → t.refusal n q ≠ 0 →
        (t.filling (t.txDescAddr n q) 32 = false → exec (.ethTxComplete n q) s = .next (t.writeBack n q (t.refusal n q) none none))
        ∧ (t.filling (t.txDescAddr n q) 32 = true → exec (.ethTxComplete n q) s = .next (s.start.say .waits)))
      ∧ (∀ h, (t.mac n).head q = some h → h.status = 0 → t.ltLate n h.desc = true → t.ethLink n = true → t.txPosted n q = true →
        (∀ f, (t.mac n).tx = some f → f.queue ≠ q) → t.flag (ETH_Q_CFG.LATE_POLICY n q) = true →
        (t.filling (t.txDescAddr n q) 32 = false → exec (.lateDrop n q) s = .next ((t.bump (ETH_CNT.COUNT n 6) 1).writeBack n q 1 none none))
        ∧ (t.filling (t.txDescAddr n q) 32 = true → exec (.lateDrop n q) s = .next (s.start.say .waits))))

/-- On a link that is up: a frame of 60 to 9,216 bytes that is no good PAUSE frame is received as its classification says, once nothing it goes to is being filled; a shorter or longer one is discarded; a PAUSE frame holds transmission for its quanta. Writing word 0 of a classifier entry makes all four words the entry. The link comes up, and posted frames are read, and goes down: going down, Tilth outputs are dropped and counted and every posted frame is written back LINK_DOWN. -/
def Obligations.EthernetReceives : Prop :=
  ∀ (s : State) (m n e v : Nat),
    (s.ethLink n = true → ∀ at_ ok f, (ok && isPause f) = false →
      (60 ≤ f.length → f.length ≤ 9216 → (ok = true → s.rxWaits n f = false) → exec (.ethFrameReceive n at_ ok f) s = .next (s.start.rxFrame n at_ ok f))
      ∧ (60 ≤ f.length → f.length ≤ 9216 → ok = true → s.rxWaits n f = true → exec (.ethFrameReceive n at_ ok f) s = .next (s.start.say .waits))
      ∧ (f.length < 60 ∨ 9216 < f.length → exec (.ethFrameReceive n at_ ok f) s = .next s.start))
    ∧ (s.ethLink n = true → ∀ q, exec (.pauseFrameReceive n q) s =
      .next (s.start.setMac n { s.mac n with pausedTo := s.cyc + ceilDiv (q % 65536 * 64 * s.ethByte n) 10 }))
    ∧ (s.mayWrite m (ETH_CLS.addr n e) = true → exec (.ethClsWord0Write m n e v) s = .next
      ([ETH_CLS_W1.addr n e, ETH_CLS_W2.addr n e, ETH_CLS_W3.addr n e].foldl (fun (t : State) a => (t.wr a (s.start.heldOr a)).unhold a)
        (s.start.wr (ETH_CLS.addr n e) (ins (BitVec.ofNat 32 v) 14 14 0))))
    ∧ (s.ethUp n = true → s.flag (ETH_CFG.LINK n) = false → exec (.ethLinkUp n) s = .next ((s.start.setF (ETH_CFG.LINK n) 1).ethFetch n))
    ∧ (s.ethUp n = true → s.flag (ETH_CFG.LINK n) = true → exec (.ethLinkDown n) s = .next ((List.range 8).foldl (fun (u : State) q => u.linkDownQueue n q)
      (((s.start.setF (ETH_CFG.LINK n) 0).setMac n { s.mac n with tx := none, tilth := [], heads := [] }).bump (ETH_CNT.COUNT n 5) (s.mac n).tilth.length)))

/-- Setting EN takes a port that was off to DETECT, at once; clearing it goes DOWN and flushes the link layer, with EVENT.DOWN when it was ACTIVE. Energy takes DETECT to LOCK; lanes come into block lock, and with all of them in lock LOCK gives way to ALIGN (a retrain keeps its state); alignment with every lane in lock takes ALIGN to NEGOTIATE with a fresh link layer, and a retrained port to ACTIVE with its scramblers at their seeds. A state that outlasts its limit counts TRAIN_FAIL, and the port is due in DETECT a millisecond later. In NEGOTIATE a CAP flit leaves every microsecond; the peer's good CAP flit, as the lanes bring it, is taken, a bad flit counts CRC_ERR and asks for a NAK. Word 0 of a route entry takes the words held for it along. -/
def Obligations.ZethaTrains : Prop :=
  ∀ (s : State) (m p e v : Nat),
    (s.mayWrite m (ZTH_CFG.addr p) = true →
      (s.zEn p = false → exec (.zthPortEnable m p) s = .next ((s.start.setF (ZTH_CFG.EN p) 1).zEnter p 1))
      ∧ (s.zEn p = true → exec (.zthPortEnable m p) s = .next s.start)
      ∧ (s.zEn p = true → exec (.zthPortDisable m p) s = .next
        (let t := (((s.start.setF (ZTH_CFG.EN p) 0).setF (ZTH_STATUS.LANE_LOCK p) 0).zEnter p 0).zFlush p
         if s.zState p = 5 then t.zEvent p (ZTH_EVENT.DOWN p) else t))
      ∧ (s.zEn p = false → exec (.zthPortDisable m p) s = .next s.start))
    ∧ (s.zUp p = true → s.zState p = 1 → exec (.zthEnergyDetect p) s = .next (s.start.zEnter p 2))
    ∧ (s.zTrains p = true →
      (∀ lanes, s.zState p = 2 ∨ s.zState p = 3 ∨ s.zState p = 6 →
        let lock := s.fld (ZTH_STATUS.LANE_LOCK p) ||| lanes
        let t := s.start.setF (ZTH_STATUS.LANE_LOCK p) lock
        (s.zState p = 2 → lock = 0xFF → exec (.zthBlockLock p lanes) s = .next (t.zEnter p 3))
        ∧ (s.zState p ≠ 2 ∨ lock ≠ 0xFF → exec (.zthBlockLock p lanes) s = .next t))
      ∧ (∀ rev pol, s.fld (ZTH_STATUS.LANE_LOCK p) = 0xFF → let t := (s.start.setF (ZTH_STATUS.REVERSED p) (b2n rev)).setF (ZTH_STATUS.POLARITY p) pol
        (s.zState p = 3 → exec (.zthAlignDone p rev pol) s = .next ((t.setZport p (t.zport p).relink).zEnter p 4))
        ∧ (s.zState p = 6 → exec (.zthAlignDone p rev pol) s =
          .next (((t.setZport p { (t.zport p) with lfsr := zSeeds, blocks := 0, rxLfsr := zSeeds }).zEnter p 5).zEvent p (ZTH_EVENT.UP p))))
      ∧ (∀ l, trainLimit (s.zState p) = some l → (s.zport p).since + l < s.cyc → exec (.trainStateTimeout p) s = .next
        (let t := s.start.zCount p zTrainFail; t.setZport p { (t.zport p) with resumeAt := s.cyc + 1000000 }))
      ∧ (s.zState p = 4 → ((s.zport p).capAt = none ∨ ∃ c, (s.zport p).capAt = some c ∧ c + 1000 ≤ s.cyc) →
        exec (.capSend p) s = .next (((s.start.setZport p { s.zport p with capAt := some s.cyc, fresh := false, sentSeen := (s.zport p).sentSeen || (s.zport p).seen }).zSend p
          ((s.zport p).flitBytes 2 0 none (s.start.capPayload (s.zport p)))).zMaybeActive p))
      ∧ (s.zState p = 4 → ∀ ls t bs bad, s.start.zRecv p ls = (t, bs, bad) →
        (flitOk bs bad = true → leAt bs 0 2 / 4096 = 2 → leAt bs 12 1 = 1 → exec (.capFlitReceive p ls) s = .next (t.onCap p bs))
        ∧ (flitOk bs bad = false → exec (.capFlitReceive p ls) s = .next (t.badFlit p))))
    ∧ (s.mayWrite m (ZTH_ROUTE.addr e) = true → exec (.zthRouteWrite m e v) s = .next (s.start.routeWrite e (BitVec.ofNat 32 v)))

/-- With the state u, the bytes bs and the block error bad that the lanes bring: in ACTIVE, a slot sends what R566 picks; a good flit without NAK is taken, a bad one counts CRC_ERR and asks for a NAK, so that nothing of it is taken; a good flit with NAK is taken and then replays from the buffer as R563 allows, one of a wrong type, number or length being discarded as a bad one is; block lock lost on a lane clears that lane's bit of LANE_LOCK and, like RETRAIN written, starts a retrain. In another training state the loss clears the bit alone, and a write of RETRAIN does nothing. A retrain that outlasts a millisecond counts TRAIN_FAIL, flushes the link layer, and is due in DETECT a millisecond later. -/
def Obligations.ZethaFlits : Prop :=
  ∀ (s : State) (m p : Nat) (ls : List (List (Nat × List Byte))) (u : State) (bs : List Byte) (bad : Bool), s.start.zRecv p ls = (u, bs, bad) →
    let lost := fun (l : Nat) => s.start.setF (ZTH_STATUS.LANE_LOCK p) (s.fld (ZTH_STATUS.LANE_LOCK p) &&& (0xFF - 2 ^ l))
    (s.zActive p = true →
      exec (.flitSlot p) s = .next (s.start.zSlot p)
      ∧ (flitOk bs bad = true → bitN (leAt bs 2 2) 13 = false → exec (.flitReceive p ls) s = .next (u.onFlit p bs))
      ∧ (flitOk bs bad = false → exec (.flitReceive p ls) s = .next ((u.zCount p zCrcErr).setZport p { (u.zCount p zCrcErr).zport p with nak := true }))
      ∧ (flitOk bs bad = true → bitN (leAt bs 2 2) 13 = true →
        ((s.zport p).discards bs = false → exec (.nakReceive p ls) s = .next ((u.onFlit p bs).onNak p (leAt bs 2 2 % 4096)))
        ∧ ((s.zport p).discards bs = true →
          exec (.nakReceive p ls) s = .next ((u.zCount p zCrcErr).setZport p { (u.zCount p zCrcErr).zport p with nak := true })))
      ∧ (∀ l, exec (.zthRetrain m p (some l)) s = .next (((lost l).zCount p zRetrain).zEnter p 6))
      ∧ (s.mayWrite m (ZTH_CFG.addr p) = true → exec (.zthRetrain m p none) s = .next ((s.start.zCount p zRetrain).zEnter p 6)))
    ∧ (∀ l, s.zActive p = false → s.zUp p = true → 2 ≤ s.zState p → s.zState p ≤ 6 → exec (.zthRetrain m p (some l)) s = .next (lost l))
    ∧ (s.zActive p = false → s.mayWrite m (ZTH_CFG.addr p) = true → exec (.zthRetrain m p none) s = .next s.start)
    ∧ (s.zTrains p = true → s.zState p = 6 → (s.zport p).since + 1000000 < s.cyc → exec (.linkDrop p) s = .next
      ((let t := s.start.zCount p zTrainFail; t.setZport p { (t.zport p) with resumeAt := s.cyc + 1000000 }).zFlush p))

/-- A core's access of a Zetha window of a port that is up becomes a request of the port its route names, or is kept until a tag is free; without a route it is an error, as is another master's access. A message that stands first on its channel is taken: a WRITE outside the inbound range counts INB_REJECT and is answered with status 1; inside it, when no move holds its blocks and its provisional entry finds room, its data land, its blocks are released, and it is answered; else it waits. A READ_REQ outside the range, or of 0 or more than 65,536 bytes, is answered with status 1; inside it, with usable blocks and a provisional number where one is needed, its data are sent back; an unusable block is answered with status 1 or 2. A response or acknowledgement that answers no request is dropped; one that answers a core's request gives the core its data or an error; one for a move's piece completes or fails the piece. A NOTICE, once no arrived WRITE that it concerns can be taken, resolves the inbound entries it covers and gives back the credits held for want of one. -/
def Obligations.ZethaMessages : Prop :=
  ∀ (s : State) (m p a n : Nat) (bs : List Byte),
    let idle : Host.Outcome State Fault Refusal := .next { s.start with resp := .inapplicable }
    (isZWin a = true →
      (∀ wr, isCore m = false ∨ hartAligned a (if wr then bs.length else n) = false ∨ s.zUp (zWin a).1 = false → exec (.zthWindowAccess m a n bs wr) s = .next s.start.busError)
      ∧ (∀ wr u, isCore m = true → hartAligned a (if wr then bs.length else n) = true → s.zUp (zWin a).1 = true →
        (s.start.zResolve a = (u, none) → exec (.zthWindowAccess m a n bs wr) s = .next (u.say .busError))
        ∧ (∀ e q, s.start.zResolve a = (u, some (e, q)) →
          ((u.zport q).freeTag = none → exec (.zthWindowAccess m a n bs wr) s = .next ((if wr then u.zWaits e q (zWin a).2 true m bs.length bs
            else u.zWaits e q (zWin a).2 false m n []).say .waits))
          ∧ (∀ t, (u.zport q).freeTag = some t →
            (wr = false → exec (.zthWindowAccess m a n bs wr) s = .next (((u.setZport q
              { u.zport q with nextTag := (t + 1) % 1024, reqs := (u.zport q).reqs ++ [⟨t, false, 0xFF, m, 0, n, 0⟩] }).zQueue q 0
                (zHeader 2 (b2n (wholeBlocks (s.zRemote e (zWin a).2) n)) (s.fld (ZTH_ROUTE.DST_NODE e)) s.nodeId n (s.zRemote e (zWin a).2) t 0 0)).say .waits))
            ∧ (wr = true → ∀ v num, u.provUnit (8 + q) [] = some (v, num) →
              let wm := wholeBlocks (s.zRemote e (zWin a).2) bs.length
              exec (.zthWindowAccess m a n bs wr) s = .next (((v.setZport q
                { u.zport q with nextTag := (t + 1) % 1024, reqs := (u.zport q).reqs ++ [⟨t, true, 0xFF, m, 0, bs.length, 0⟩] }).zQueue q (s.fld (ZTH_ROUTE.VC e))
                  (zHeader 1 (b2n wm + 2 * b2n num.isSome) (s.fld (ZTH_ROUTE.DST_NODE e)) s.nodeId bs.length (s.zRemote e (zWin a).2) t (num.getD 0) 0 ++ bs
                    ++ (if wm then s.start.zTrailers bs [] else []))).say .waits))))))
    ∧ (∀ vc w rest, (s.zport p).arrived = (vc, w) :: rest → s.start.zTake p (leAt w 0 1) = some (w, s.start.setZport p { s.zport p with arrived := rest }))
    ∧ (∀ w t, s.start.zTake p 1 = some (w, t) →
      (t.zInRange p (leAt w 8 6) (leAt w 4 4) = false → exec (.zthWriteMsg p) s = .next ((t.zCount p zInbReject).zAck p w 1))
      ∧ (t.zInRange p (leAt w 8 6) (leAt w 4 4) = true → t.moveHolds (messageBlocks w) = true ∨ t.inboundOk p w (messageBlocks w) = false → exec (.zthWriteMsg p) s = idle)
      ∧ (t.zInRange p (leAt w 8 6) (leAt w 4 4) = true → t.moveHolds (messageBlocks w) = false → t.inboundOk p w (messageBlocks w) = true →
        let r := (t.regulateRange (0x70 + p) 8 (srcDie (0x70 + p) 2) (leAt w 8 6, leAt w 4 4)).land p (leAt w 8 6) w
        exec (.zthWriteMsg p) s = .next (((r.1.inbound p w (messageBlocks w)).release (messageBlocks w) 6 false).zAck p w (if r.2 then 0 else 1))))
    ∧ (∀ w t, s.start.zTake p 2 = some (w, t) →
      let hdr := fun (flags len seq st : Nat) => zHeader 3 flags (leAt w 3 1) t.nodeId len 0 (leAt w 14 2 % 1024) seq st
      (leAt w 4 4 = 0 ∨ 65536 < leAt w 4 4 ∨ t.zInRange p (leAt w 8 6) (leAt w 4 4) = false → exec (.zthReadReq p) s = .next ((t.zCount p zInbReject).zRespond p (hdr 0 0 0 1)))
      ∧ (t.zInRange p (leAt w 8 6) (leAt w 4 4) = true →
        let rb := rangeBlocks (leAt w 8 6) (leAt w 4 4)
        let u := (t.regulateRange (0x70 + p) 8 (srcDie (0x70 + p) 2) (leAt w 8 6, leAt w 4 4)).noteReads rb 0 0
        (∀ b, t.scanBlocks true false rb = .wait b → exec (.zthReadReq p) s = idle)
        ∧ (∀ b, t.scanBlocks true false rb = .stop stWatermark b → exec (.zthReadReq p) s = .next ((t.checkRead b 0 0).1.zRespond p (hdr 0 0 0 1)))
        ∧ (∀ st b, st ≠ stWatermark → t.scanBlocks true false rb = .stop st b → exec (.zthReadReq p) s = .next (t.zRespond p (hdr 0 0 0 2)))
        ∧ (∀ prov, t.scanBlocks true false rb = .ok prov → u.provUnit (8 + p) rb = none → exec (.zthReadReq p) s = idle)
        ∧ (∀ prov i, t.scanBlocks true false rb = .ok prov → u.provUnit (8 + p) rb = some i →
          let wm := wholeBlocks (leAt w 8 6) (leAt w 4 4)
          exec (.zthReadReq p) s = .next (i.1.zRespond p (hdr (b2n wm + 2 * b2n i.2.isSome) (leAt w 4 4) (i.2.getD 0) 0 ++ i.1.bytesAt (leAt w 8 6) (leAt w 4 4)
            ++ (if wm then i.1.zTrailers (i.1.bytesAt (leAt w 8 6) (leAt w 4 4)) rb else []))))))
    ∧ (∀ w t, s.start.zTake p 3 = some (w, t) → (t.zAnswered p w false = none → exec (.zthReadResp p) s = .next t)
      ∧ (∀ r u, t.zAnswered p w false = some (r, u) →
        (r.mover = 0xFF → exec (.zthReadResp p) s = .next (if leAt w 20 1 = 0 ∧ leAt w 4 4 = r.len then u.say (.bytes ((w.drop 32).take r.len)) else u.say .busError))
        ∧ (r.mover ≠ 0xFF → r.dst = 0 ∨ u.inboundOk p w (rangeBlocks r.dst r.len) = true → exec (.zthReadResp p) s = .next (u.readLands p r w).pump)
        ∧ (r.mover ≠ 0xFF → r.dst ≠ 0 → u.inboundOk p w (rangeBlocks r.dst r.len) = false → exec (.zthReadResp p) s = idle)))
    ∧ (∀ w t, s.start.zTake p 5 = some (w, t) → (t.zAnswered p w true = none → exec (.zthWriteAck p) s = .next t)
      ∧ (∀ r u, t.zAnswered p w true = some (r, u) →
        (r.mover = 0xFF → exec (.zthWriteAck p) s = .next (if leAt w 20 1 = 0 then u else u.say .busError))
        ∧ (r.mover ≠ 0xFF → leAt w 20 1 = 0 → exec (.zthWriteAck p) s = .next (u.pieceGot r.mover r.move r.piece).pump)
        ∧ (r.mover ≠ 0xFF → leAt w 20 1 ≠ 0 → exec (.zthWriteAck p) s = .next (u.pieceFailed r.mover r.move r.piece (leAt w 20 1 == 2)).pump)))
    ∧ (∀ w t, s.start.zTake p 4 = some (w, t) →
      let x := t.zport p
      let hit := x.inb.filter (fun e => e.covered (leAt w 36 4) (leAt w 40 4))
      let u := hit.foldl (fun (v : State) e => v.noticeEntry p (leAt w 33 1 == 2) e) t
      let y := { x with inb := x.inb.filter (fun e => !e.covered (leAt w 36 4) (leAt w 40 4)) }
      (t.writeFirst p (leAt w 36 4) (leAt w 40 4) hit = true → exec (.zthNotice p) s = idle)
      ∧ (t.writeFirst p (leAt w 36 4) (leAt w 40 4) hit = false → exec (.zthNotice p) s = .next (u.setZport p (if hit = [] then y
        else { y with freed := (List.range 4).map (fun v => (getAt 0 x.freed v + getAt 0 x.owed v) % 256), owed := [0, 0, 0, 0] }))))

/-- On an enabled port: a header with one bit in error is corrected and counted; one with more errors is discarded, counted and marks open frames of its channel. A good Frame Start goes to the lowest matching context: with no descriptor posted the frame is dropped and counted, else it opens from the descriptor at HEAD, an open frame being closed first with NO_FE. A long packet that matches no context is counted in NO_CTX; one that matches becomes the next line of the open frame. A Frame End closes the open frame; with none open, be its context dropping one or none enabled, it is counted in STRAY_FE. A Frame Start and a Frame End wait while a descriptor they need is being filled. A doorbell that fits moves the tail. -/
def Obligations.CameraFrames : Prop :=
  ∀ (s : State) (m p v n vc dt num : Nat) (bs : List Byte) (bad : Bool),
    (s.csiUp p = true →
      (∀ ecc, s.csiWaits p = true → exec (.csiFrameStart p ecc vc num) s = .next (s.start.say .waits) ∧ exec (.csiFrameEnd p ecc vc) s = .next (s.start.say .waits))
      ∧ (∀ ecc, 2 ≤ ecc → exec (.csiLongPacket p ecc vc dt bs bad) s = .next (s.start.csiHeader p vc ecc).1
        ∧ (s.csiWaits p = false → exec (.csiFrameStart p ecc vc num) s = .next (s.start.csiHeader p vc ecc).1
          ∧ exec (.csiFrameEnd p ecc vc) s = .next (s.start.csiHeader p vc ecc).1))
      ∧ (∀ ecc t, ecc < 2 → t = (if ecc = 0 then s.start else s.start.csiCount p 0) →
        (s.csiMatch p vc (some dt) = [] → exec (.csiLongPacket p ecc vc dt bs bad) s = .next (t.csiCount p 2))
        ∧ (∀ l, s.csiMatch p vc (some dt) = v :: l → (∀ f, (t.csi (csiKey p v)).frame = some f →
            exec (.csiLongPacket p ecc vc dt bs bad) s = .next ((f.line t p bs bad).1.setCsi (csiKey p v) ⟨some (f.line t p bs bad).2, false⟩))
          ∧ ((t.csi (csiKey p v)).frame = none → exec (.csiLongPacket p ecc vc dt bs bad) s = .next t))
        ∧ (s.csiWaits p = false → s.csiMatch p vc none = [] →
          exec (.csiFrameStart p ecc vc num) s = .next t ∧ exec (.csiFrameEnd p ecc vc) s = .next (t.csiCount p 4))
        ∧ (∀ l, s.csiWaits p = false → s.csiMatch p vc none = v :: l →
          exec (.csiFrameStart p ecc vc num) s = .next (t.csiOpen p v num)
          ∧ ((t.csi (csiKey p v)).frame = none →
            (t.csiDepth p v = 0 → exec (.csiFrameStart p ecc vc num) s = .next ((t.csiCount p 3).setCsi (csiKey p v) ⟨none, true⟩))
            ∧ (t.csiDepth p v ≠ 0 → t.dataRange (t.csiDescAddr p v) 32 = true → exec (.csiFrameStart p ecc vc num) s = .next
              (let d := t.seenBytes (t.csiDescAddr p v) 32
               (t.regulateRange csiMaster 8 (csiDie p) (t.csiDescAddr p v, 32)).setCsi (csiKey p v) ⟨some ⟨leAt d 0 6, leAt d 6 2, 64 * Nat.max 1 (t.fld (CSI_CTX_CFG.LINE_PITCH_64 p v)), 0, 0, 0, 0, num,
                 (t.now + 2 ^ 32 - t.fld (CSI_LAT.LAT_NS p)) % 2 ^ 32, t.now / 2 ^ 32 % 2 ^ 32⟩, false⟩)))
          ∧ (∀ f, (t.csi (csiKey p v)).frame = some f → exec (.csiFrameEnd p ecc vc) s = .next (t.csiClose p v f))
          ∧ ((t.csi (csiKey p v)).frame = none → exec (.csiFrameEnd p ecc vc) s = .next ((t.setCsi (csiKey p v) ⟨none, false⟩).csiCount p 4)))))
    ∧ (s.mayWrite m (CSI_CTX_DB.addr p v) = true →
      let k := (n + 2 ^ 32 - s.start.fld (CSI_CTX_TAIL.COUNT p v)) % 2 ^ 32
      (s.start.flag (CSI_CTX_CFG.EN p v) = true → s.start.csiDepth p v + k ≤ s.start.csiSize p v →
        exec (.csiDoorbell m p v n) s = .next (if k = 0 then s.start else s.start.setF (CSI_CTX_TAIL.COUNT p v) n))
      ∧ (s.start.flag (CSI_CTX_CFG.EN p v) = false ∨ s.start.csiSize p v < s.start.csiDepth p v + k → exec (.csiDoorbell m p v n) s = .next s.start))

/-- A management core's write of GPIO_PIN_n that changes FUNC sets PARKING, one that keeps FUNC starts no interval; another master changes OE and OUT only; on X1 the registers of pins 64-95 ignore writes. When the interval ends, the new function takes the pin and PARKING clears, FUNC 6 and 7 acting as 0. A PWM channel starts in its first due cycle. An edge of the kind a capture channel is set to records the time base minus 10 ns; the 17th is discarded and counted. -/
def Obligations.PinFunctions : Prop :=
  ∀ (s : State) (m n v start period high : Nat),
    (s.mayWrite m (GPIO_PIN.addr n) = true →
      (s.start.pinUp n = false → exec (.pinFuncWrite m n v) s = .next s.start)
      ∧ (s.start.pinUp n = true → ∀ old oe, old = s.start.rd (GPIO_PIN.addr n) → oe = ins old 2 1 (bits (BitVec.ofNat 32 v) 2 1) →
        (m ≠ 0x61 → exec (.pinFuncWrite m n v) s = .next (s.start.wr (GPIO_PIN.addr n) oe))
        ∧ (m = 0x61 → bits (BitVec.ofNat 32 v) 31 29 = bits old 31 29 →
          exec (.pinFuncWrite m n v) s = .next (s.start.wr (GPIO_PIN.addr n) (ins oe 31 23 (bits (BitVec.ofNat 32 v) 31 23))))
        ∧ (m = 0x61 → bits (BitVec.ofNat 32 v) 31 29 ≠ bits old 31 29 →
          exec (.pinFuncWrite m n v) s = .next (s.start.wr (GPIO_PIN.addr n) (ins (ins oe 31 23 (bits (BitVec.ofNat 32 v) 31 23)) 22 22 1)))))
    ∧ (s.pinUp n = true →
      (s.flag (GPIO_PIN.PARKING n) = true → exec (.parkIntervalEnd n) s = .next ((s.start.setF (GPIO_PIN.PARKING n) 0).setPin n
        { s.pin n with func := if s.fld (GPIO_PIN.FUNC n) < 6 then s.fld (GPIO_PIN.FUNC n) else 0 }))
      ∧ ((s.pin n).pwm = none → (s.time + 2 ^ 32 - start % 2 ^ 32) % 2 ^ 32 < 2 ^ 31 → 1 ≤ period → 1 ≤ high →
        exec (.pwmStart n start period high) s = .next (s.start.setPin n { s.pin n with pwm := some (s.cyc, period, high) }))
      ∧ (∀ sel rising, (s.pin n).func = 5 → s.flag (GPIO_PIN.PARKING n) = false → (sel = 2 ∨ (sel = 0 ∧ rising = true) ∨ (sel = 1 ∧ rising = false)) →
        ((s.pin n).caps.length < 16 → exec (.captureEdge n sel rising) s = .next
          ((s.start.setPin n { s.pin n with caps := (s.pin n).caps ++ [(s.time + 2 ^ 32 - 10) % 2 ^ 32] }).pulse (if n < 64 then 48 else 49)))
        ∧ (16 ≤ (s.pin n).caps.length → exec (.captureEdge n sel rising) s = .next
          ((s.start.setPin n { s.pin n with capLost := satAdd sat32 (s.pin n).capLost 1 }).pulse (if n < 64 then 48 else 49)))))

/-- On a port whose link is up: an inbound request waits where its translation does. A read that goes nowhere, or not to DRAM, is answered Unsupported Request; one of DRAM that passes the Headbox is answered with its bytes, provisional blocks being counted; an inbound write goes where its translation sends it, and is discarded where that is nowhere. A poisoned write sets POISON_RX and goes on as poisoned. A completion for a request of a core gives it the data; one with an error, of a wrong length or poisoned gives a bus error; one for a piece of a move completes the piece, or fails it, with WATERMARK where its write fails its check. A request older than the time-out in force fails with EVENT.CPL_TIMEOUT. MSIX_TRIG raises a vector of an endpoint, and is ignored in the other roles. The IOMMU refuses every request while it is off, with a fault record; passes it in the bare mode; else sends it where the context of its device translates it, waits where that waits, and refuses it where that faults. -/
def Obligations.PcieTransactions : Prop :=
  ∀ (s : State) (m p rid a n v : Nat) (bs : List Byte),
    (s.pLink p = true →
      (∀ r, r = s.start.pInMap p rid a bs.length true →
        (r.2 = .waits → exec (.pcieInboundRequest p true rid a n bs) s = .next (r.1.say .waits))
        ∧ (r.2 = .refused → exec (.pcieInboundRequest p true rid a n bs) s = .next r.1)
        ∧ (∀ d, r.2 = .to d → exec (.pcieInboundRequest p true rid a n bs) s = .next (r.1.pInWrite p bs false (some d))))
      ∧ (∀ r, r = s.start.pInMap p rid a n false →
        (r.2 = .waits → exec (.pcieInboundRequest p false rid a n bs) s = .next (r.1.say .waits))
        ∧ (r.2 = .refused ∨ (∃ d, r.2 = .to d ∧ r.1.region d n ≠ .data) → exec (.pcieInboundRequest p false rid a n bs) s = .next
          ((r.1.emit (.note "PCIE_CPL_UR" [p])).pEvent p (PCI_EVENT.UR_SENT p)))
        ∧ (∀ d t l, r.2 = .to d → r.1.region d n = .data → t = r.1.gated (pMaster p) (2 + p) d n true 0 (r.1.readAt (pMaster p) d n) → t.resp = .bytes l →
          exec (.pcieInboundRequest p false rid a n bs) s = .next
            ((({ t with resp := .done } : State).bump (PCI_PROV_READ.COUNT p) (((rangeBlocks d n).filter (fun b => (t.tag b).prov)).length)).emit
              (.frame (if (rangeBlocks d n).any (fun b => (t.tag b).poison) then "PCIE_CPL_POISONED" else "PCIE_CPL") p l))))
      ∧ (∀ t, t = s.start.pEvent p (PCI_EVENT.POISON_RX p) →
        (∀ r, r = t.pInMap p rid a bs.length true → ∀ d, r.2 = .to d →
          exec (.poisonedTlpReceive p false v rid a bs) s = .next (r.1.pInWrite p bs true (some d)))
        ∧ (∀ r u, t.pTake p v = some (r, u) → r.mover = 0xFF → exec (.poisonedTlpReceive p true v rid a bs) s = .next (u.say .busError))
        ∧ (∀ r u, t.pTake p v = some (r, u) → r.mover ≠ 0xFF →
          exec (.poisonedTlpReceive p true v rid a bs) s = .next (u.pieceFailed r.mover r.move r.piece false).pump)
        ∧ (t.pTake p v = none → exec (.poisonedTlpReceive p true v rid a bs) s = .next t))
      ∧ (∀ r t, s.start.pTake p v = some (r, t) →
        (r.mover = 0xFF → bs.length = r.len → exec (.pcieCompletion p v false bs) s = .next (t.say (.bytes bs)))
        ∧ (r.mover = 0xFF → exec (.pcieCompletion p v true bs) s = .next (t.say .busError))
        ∧ (r.mover = 0xFF → bs.length ≠ r.len → exec (.pcieCompletion p v false bs) s = .next (t.say .busError))
        ∧ (r.mover ≠ 0xFF → exec (.pcieCompletion p v true bs) s = .next (t.pieceFailed r.mover r.move r.piece false).pump)
        ∧ (r.mover ≠ 0xFF → bs.length = r.len → ∀ u ok, t.deliver ⟨0x40 + r.mover, 0, false, false, .unit⟩ r.mover r.move r.piece bs = (u, ok) →
          exec (.pcieCompletion p v false bs) s = .next (if ok then u.pieceGot r.mover r.move r.piece else u.pieceDenied r.mover r.move r.piece).pump)))
    ∧ (∀ r t, s.pUp p = true → s.start.pTake p v = some (r, t) → r.sent + 1000 * Nat.max 50 (Nat.min 50000 (s.fld (PCI_CPL_TIMEOUT.US p))) ≤ s.cyc →
      exec (.pcieCplTimeout p v) s = .next ((t.pEvent p (PCI_EVENT.CPL_TIMEOUT p)).pFail r))
    ∧ (s.mayWrite m (PCI_MSIX_TRIG.addr p) = true → exec (.msixTrig m p v) s = .next
      (if s.pMode p = 2 then s.start.emit (.note "PCIE_MSIX" [p, v % 64]) else s.start))
    ∧ (∀ did wr, (s.fld IOM_DDTP_LO.MODE = 0 → s.ioTranslate did a wr = (s.ioRecord wr did a 256 0, .refused))
      ∧ (s.fld IOM_DDTP_LO.MODE = 1 → s.ioTranslate did a wr = (s, .to a))
      ∧ (∀ x, 2 ≤ s.fld IOM_DDTP_LO.MODE → s.ioContext did = .ok x →
        (∀ pa, (s.ioWalk x wr a).2 = .ok pa → s.ioTranslate did a wr = ((s.ioWalk x wr a).1, .to pa))
        ∧ ((s.ioWalk x wr a).2 = .error .waits → (s.ioTranslate did a wr).2 = .waits)
        ∧ (∀ c v, (s.ioWalk x wr a).2 = .error (.fault c v) → (s.ioTranslate did a wr).2 = .refused)))

/-- A link comes up at a width and rate within the port's limits: LINK_UP, WIDTH and RATE say so. When it leaves the active state LINK_UP and RATE clear, EVENT.LINK_DOWN is set and every outstanding request fails. PCI_p_PERST_N asserted on an endpoint resets that port alone: every register outside its block keeps its value, MODE, LOCK, the limits and the BAR size stay, and its requests are gone; the link's interrupt follows its registers. A root port's ball, low from the moment its mode is applied until the port releases it, keeps its link down; its release, which drives the ball high, or that of an endpoint's ball, lets the link come up. -/
def Obligations.PcieLink : Prop :=
  ∀ (s : State) (p width rate : Nat), s.pUp p = true →
    (s.pMode p ≠ 0 → s.flag (PCI_CFG.LINK_UP p) = false → s.pPerst p = false → width ≤ s.fld (PCI_CFG.MAX_WIDTH p) → 1 ≤ rate →
      rate ≤ (if s.fld (PCI_CFG.MAX_RATE p) = 0 ∨ 5 < s.fld (PCI_CFG.MAX_RATE p) then 5 else s.fld (PCI_CFG.MAX_RATE p)) →
      exec (.pcieLinkUp p width rate) s = .next (((s.start.setF (PCI_CFG.LINK_UP p) 1).setF (PCI_CFG.WIDTH p) width).setF (PCI_CFG.RATE p) rate))
    ∧ (s.flag (PCI_CFG.LINK_UP p) = true → exec (.pcieLinkDown p) s = .next
      (let t := ((s.start.setF (PCI_CFG.LINK_UP p) 0).setF (PCI_CFG.RATE p) 0).pEvent p (PCI_EVENT.LINK_DOWN p)
       (t.pport p).reqs.foldl (fun (u : State) r => u.pFail r) (t.setPport p { t.pport p with reqs := [] })))
    ∧ (s.pMode p = 2 → (s.pport p).perst = false → s.flag (PCI_CFG.LINK_UP p) = false →
      let t := ((s.start.resetRegs (fun a => decide (PCI_CFG.addr p ≤ a ∧ a < PCI_CFG.addr p + 0x800000))).wr (PCI_CFG.addr p)
        (pciLinkOff (s.rd (PCI_CFG.addr p)))).setPport p { PPort.init with perst := true }
      exec (.perstAssert p) s = .next (t.sense (50 + p))
        ∧ (Registers.wf s = true → (∀ a, a < PCI_CFG.addr p ∨ PCI_CFG.addr p + 0x800000 ≤ a → t.rd a = s.rd a)
          ∧ (∀ a, PCI_CFG.addr p < a → a < PCI_CFG.addr p + 0x800000 → t.rd a = regReset a)
          ∧ t.rd (PCI_CFG.addr p) = ins (s.rd (PCI_CFG.addr p)) 23 18 0))
    ∧ (s.pPerst p = true → let t := s.start.setPport p { s.pport p with perst := false, released := true }
      (s.pMode p = 1 → exec (.perstRelease p) s = .next (t.emit (.note "PCI_PERST_N" [p, 1])))
      ∧ (s.pMode p = 2 → exec (.perstRelease p) s = .next t))

/-- A GO with a length its kind allows starts the command when the port is not busy, its code going out as one byte or, in octal mode, both; is held when it is busy with none held; and sets REJECT else. A read puts flash bytes, a table read the JESD216 bytes, a register read the device's register bytes in management SRAM; a program clears bits of the flash; an erase leaves every byte of its 64 KiB sector 0xFF and every other entry of the flash as it was; a register write stores them. A command that ends sets DONE, or ERROR when it failed, clears BUSY, and starts the one held. -/
def Obligations.BootFlash : Prop :=
  ∀ (s : State) (m op : Nat),
    let code := fun (c : FlashCmd) => Out.note "XSP_CODE" (if s.flag XSP_CFG.OCTAL then [c.opcode / 256 % 256, c.opcode % 256] else [c.opcode % 256])
    (s.mayWrite m XSP_CMD.addr = true → ∀ k c, c = ({ kind := k, opcode := op % 65536, addr := s.start.fld XSP_ADDR.ADDR, len := s.start.fld XSP_LEN.BYTES, buf := s.start.fld XSP_BUF.OFFSET / 4 * 4 } : FlashCmd) →
      let t := if k = 2 ∨ (1 ≤ c.len ∧ c.len ≤ (if k = 1 then 256 else 4096) ∧ (k = 1 → c.addr % 256 + c.len ≤ 256)) then
          (if s.start.flag XSP_STATUS.BUSY = false then { (s.start.emit (code c)).setF XSP_STATUS.BUSY 1 with flashCmd := some c }
           else if s.flashHeld = none then { s.start with flashHeld := some c } else s.start.setF XSP_STATUS.REJECT 1)
        else s.start.setF XSP_STATUS.REJECT 1
      (k = 0 → exec (.flashRead m op) s = .next t) ∧ (k = 1 → exec (.flashProgram m op) s = .next t) ∧ (k = 2 → exec (.flashErase m op) s = .next t)
      ∧ (k = 3 → exec (.flashReadSfdp m op) s = .next t) ∧ (k = 4 → exec (.flashRegRead m op) s = .next t) ∧ (k = 5 → exec (.flashRegWrite m op) s = .next t))
    ∧ (s.pdOn 83 = true → ∀ c, s.flashCmd = some c → ∀ u, (u = (s.start.flashDo c).setF XSP_STATUS.DONE 1 →
        exec (.xspCmdDone false) s = .next (match s.flashHeld with
          | none => { u.setF XSP_STATUS.BUSY 0 with flashCmd := none }
          | some h => { ((({ u.setF XSP_STATUS.BUSY 0 with flashCmd := none, flashHeld := none } : State).emit (code h)).setF XSP_STATUS.BUSY 1) with flashCmd := some h }))
      ∧ (u = (s.start.flashSpoil c).setF XSP_STATUS.ERROR 1 → s.flashHeld = none → exec (.xspCmdDone true) s = .next { u.setF XSP_STATUS.BUSY 0 with flashCmd := none }))
    ∧ (∀ c, (c.kind = 0 → s.flashDo c = s.putAll (placed (0x1000000 + c.buf) (s.flashAt c.addr c.len)))
      ∧ (c.kind = 1 → s.flashDo c = s.flashProgram c.addr (s.bytesAt (0x1000000 + c.buf) c.len))
      ∧ (c.kind = 2 → (∀ a, a / 65536 = c.addr / 65536 → (s.flashDo c).flashByte a = 0xFF) ∧ s.flashDo c = { s with flash := s.flash.filter (fun e => e.1 / 65536 != c.addr / 65536) }))

/-- Writing TX_REQ makes buffers pending. On a controller that is on and not bus-off: a sent frame is the offered one; its buffer gets the time base at its start of frame and its DONE bit; a failed one-shot buffer gets its FAIL bit. Arbitration lost and errors are counted; an error moves the error counters, and with them the error state. A received frame goes to the ring of the lowest filter that matches, else as UNMATCHED says; a full ring discards and counts it; it waits while the ring's entry is being filled. ABORT_ALL withdraws every pending buffer but the one in transmission. RECOVER acts in bus-off only, and its completion clears both counters. A doorbell frees at most the entries written. -/
def Obligations.CanFrames : Prop :=
  ∀ (s : State) (m n v sof : Nat),
    (s.mayWrite m (CAN_TX_REQ.addr n) = true → exec (.canTxReq m n v) s = .next (s.start.canReq n v))
    ∧ (s.canOn n = true → sof ≤ s.now →
      (∀ b, s.canOffer n sof = some b →
        (let t := (s.start.setF (CAN_TXB.WORD n b 2) (sof % 2 ^ 32))
         let t := t.setF (CAN_STATUS.TEC n) (t.fld (CAN_STATUS.TEC n) - 1)
         (128 ≤ t.fld (CAN_STATUS.TEC n) ∨ 128 ≤ t.fld (CAN_STATUS.REC n) →
           exec (.canTxComplete n true sof) s = .next ((t.canEnd n b true).emit (.frame "CAN" n (s.canFrame n b))))
         ∧ (t.fld (CAN_STATUS.TEC n) < 128 → t.fld (CAN_STATUS.REC n) < 128 →
           exec (.canTxComplete n true sof) s = .next (((t.setF (CAN_STATUS.STATE n) 0).canEnd n b true).emit (.frame "CAN" n (s.canFrame n b)))))
        ∧ ((s.can n).failed = none →
          exec (.canArbitrationLost n sof) s = .next ((s.start.bump (CAN_CNT.COUNT n 1) 1).canRetry n b)
          ∧ (∀ inc, (inc = 1 ∨ inc = 8) → s.fld (CAN_STATUS.TEC n) + inc < 256 → exec (.canBusError n true inc sof) s = .next
            (((((((s.start.bump (CAN_CNT.COUNT n 2) 1).setF (CAN_STATUS.TEC n) (s.fld (CAN_STATUS.TEC n) + inc)).setF (CAN_STATUS.REC n) (Nat.min 255 (s.fld (CAN_STATUS.REC n))))
              |>.setF (CAN_STATUS.STATE n) (if 128 ≤ s.fld (CAN_STATUS.TEC n) + inc ∨ 128 ≤ Nat.min 255 (s.fld (CAN_STATUS.REC n)) then 1 else 0))).canIrq n).canRetry n b))))
      ∧ (∀ b, (s.can n).failed = some b → exec (.canTxComplete n false sof) s = .next (s.start.canEnd n b false))
      ∧ (∀ w dlc flags data f, bitN w 31 = false → data.length = canLen w (dlc % 16) → s.canFilter n w = some f →
        s.filling (s.canEntry n (s.fld (CAN_FLT_ID.RING n f))) 80 = true → exec (.canFrameReceive n w dlc flags data sof) s = .next (s.start.say .waits))
      ∧ (∀ w dlc flags data f, bitN w 31 = false → data.length = canLen w (dlc % 16) → s.canFilter n w = some f →
        s.filling (s.canEntry n (s.fld (CAN_FLT_ID.RING n f))) 80 = false → s.fld (CAN_STATUS.REC n) < 128 →
        128 ≤ (s.start.setF (CAN_STATUS.REC n) (s.fld (CAN_STATUS.REC n) - 1)).fld (CAN_STATUS.TEC n) →
        exec (.canFrameReceive n w dlc flags data sof) s = .next ((s.start.setF (CAN_STATUS.REC n) (s.fld (CAN_STATUS.REC n) - 1)).canPush n (s.fld (CAN_FLT_ID.RING n f))
          (leBytes 4 w ++ leBytes 1 (dlc % 16) ++ leBytes 1 (flags % 4) ++ leBytes 1 f ++ leBytes 1 0 ++ leBytes 4 sof ++ leBytes 4 0 ++ data ++ leBytes (64 - data.length) 0)))
      ∧ (∀ w dlc flags data, bitN w 31 = false → data.length = canLen w (dlc % 16) → s.canFilter n w = none → s.fld (CAN_CFG.UNMATCHED n) = 0 → s.fld (CAN_STATUS.REC n) < 128 →
        (s.start.setF (CAN_STATUS.REC n) (s.fld (CAN_STATUS.REC n) - 1)).fld (CAN_STATUS.TEC n) < 128 →
        exec (.canFrameReceive n w dlc flags data sof) s = .next ((s.start.setF (CAN_STATUS.REC n) (s.fld (CAN_STATUS.REC n) - 1)).setF (CAN_STATUS.STATE n) 0)))
    ∧ (s.mayWrite m (CAN_CTRL.addr n) = true →
      (s.start.fld (CAN_STATUS.STATE n) = 2 → exec (.canRecover m n) s = .next (s.start.setCan n { s.can n with recovering := true }))
      ∧ (s.start.fld (CAN_STATUS.STATE n) ≠ 2 → exec (.canRecover m n) s = .next s.start)
      ∧ exec (.canAbortAll m n none) s = .next (((List.range 32).filter (fun b => bitN (s.start.fld (CAN_TX_REQ.REQ n)) b)).foldl (fun (t : State) b => t.canEnd n b false) s.start))
    ∧ (s.canUp n = true → s.fld (CAN_STATUS.STATE n) = 2 → (s.can n).recovering = true → exec (.canRecoveryComplete n) s = .next
      (((((s.start.setF (CAN_STATUS.STATE n) 0).setF (CAN_STATUS.TEC n) 0).setF (CAN_STATUS.REC n) 0).setCan n { s.can n with recovering := false }).canIrq n))
    ∧ (∀ r, s.mayWrite m (CAN_RXR_DB.addr n r) = true → ∀ k, k = (v + 2 ^ 32 - s.start.fld (CAN_RXR_HEAD.COUNT n r)) % 2 ^ 32 →
      (k ≤ s.start.canDepth n r → exec (.canRxDoorbell m n r v) s = .next ((s.start.setF (CAN_RXR_HEAD.COUNT n r) v).canIrq n))
      ∧ (s.start.canDepth n r < k → exec (.canRxDoorbell m n r v) s = .next s.start))

/-- START on a stopped hart whose group is on starts it in machine mode at its start address with a0 its number and a1 the hand-off record; on a running hart it sets REJECT and raises source 55; where its group is off it waits while the group is asked for. STOP is accepted from the hart itself while it runs, else rejected. Either is rejected where a lower master ID has written the same hart's register in the same cycle, whose time and writer are kept. A hart's stimecmp is set; its timer is pending where time has reached it. A message under way to a file, whose hart has claimed some identities, sets its identity pending once. A cache error is counted as correctable, or, in a dirty line, poisons the block, is counted as uncorrectable and raises source 56. -/
def Obligations.ApcHarts : Prop :=
  ∀ (s : State) (m self h : Nat),
    let refused := (s.start.setF (APC_HART_STATUS.REJECT h) 1).pulse 55
    let kept := fun (t : State) => t.setHart h { t.hart h with ctl := some (s.cyc, m) }
    (s.mayWrite m (APC_HART_CTRL.addr h) = true → lowBarred self (APC_HART_CTRL.addr h) = true → exec (.hartStart m self h) s = .next s.busError ∧ exec (.hartStop m self h) s = .next s.busError)
    ∧ (s.mayWrite m (APC_HART_CTRL.addr h) = true → lowBarred self (APC_HART_CTRL.addr h) = false → (∃ k, (s.hart h).ctl = some (s.cyc, k) ∧ k < m) →
      exec (.hartStart m self h) s = .next refused ∧ exec (.hartStop m self h) s = .next refused)
    ∧ (s.mayWrite m (APC_HART_CTRL.addr h) = true → lowBarred self (APC_HART_CTRL.addr h) = false → (∀ k, (s.hart h).ctl = some (s.cyc, k) → m ≤ k) →
      (s.start.hartRuns h = true → exec (.hartStart m self h) s = .next (kept refused))
      ∧ (s.start.hartRuns h = false → s.start.pdOn (pdApc (h / 4)) = true → exec (.hartStart m self h) s = .next (kept
        ((s.start.setHart h ⟨s.start.fld2 (APC_HART_START_LO.ADDR_LO h) (APC_HART_START_HI.ADDR_HI h) 2, h, 0x0800F000, true, false, 0, 0, 0, none, none⟩).setF
          (APC_HART_STATUS.STATE h) 1)))
      ∧ (s.start.hartRuns h = false → s.start.pdOn (pdApc (h / 4)) = false → ∃ t, exec (.hartStart m self h) s = .next t ∧ h ∈ t.pmu.hartWait ∧
        t.regs = (s.start.pdAsk (pdApc (h / 4))).regs ∧ t.pd = (s.start.pdAsk (pdApc (h / 4))).pd)
      ∧ (m = 0x60 → self = h → s.start.hartRuns h = true → exec (.hartStop m self h) s =
        .next (kept ((s.start.setHart h Hart.init).setF (APC_HART_STATUS.STATE h) 0)))
      ∧ (m ≠ 0x60 ∨ self ≠ h ∨ s.start.hartRuns h = false → exec (.hartStop m self h) s = .next (kept refused)))
    ∧ (∀ t, s.hartRuns h = true → t < 2 ^ 64 →
      let u := s.start.setHart h { s.hart h with stimecmp := t }
      (u.timerPending h = true → exec (.stimecmpMatch h t) s = .next (u.emit (.note "stip" [h])))
      ∧ (u.timerPending h = false → exec (.stimecmpMatch h t) s = .next u))
    ∧ (∀ file e claimed, s.msis.contains (h, file, e) = true → 1 ≤ e → e < 2048 →
      let u : State := { s.start with msis := eraseOne (h, file, e) s.msis,
                                      eip := Sparse.set (fun _ => []) s.eip (h * 7 + file) ((s.pendingIds h file).filter (fun x => !claimed.contains x)) }
      ((u.pendingIds h file).contains e = true → exec (.msiMessage h file e claimed) s = .next u)
      ∧ ((u.pendingIds h file).contains e = false → exec (.msiMessage h file e claimed) s =
        .next { u with eip := Sparse.set (fun _ => []) u.eip (h * 7 + file) (u.pendingIds h file ++ [e]) }))
    ∧ (∀ a, s.isData a = true → (∀ kind, kind ≤ 2 → exec (.cacheError kind a) s = .next (s.start.bump APC_CACHE_CORR.COUNT 1))
      ∧ exec (.cacheError 3 a) s = .next (((s.start.lineLost a).bump APC_CACHE_UNCORR.COUNT 1).pulse 56))

/-- Start-up runs once after a module reset that nothing holds any more, in octal mode where the flash allows it: with an unusable flash, or no header that can be read, it stops with code FLASH and no log entry; with no valid slot it stops with code NO_IMAGE; else it runs the chosen slot. A RESET_N pulse of 10 us or longer resets, and the reset lasts 1 ms more; one below 1 us, or while a rail is out of range, does nothing. A rail found below its threshold resets and leaves the balls of I/O die 0 at high impedance; 20 mV above it the rail is back, and with both back the balls take their levels and the reset lasts 1 ms more (that the monitor's command also brings a level back is the model's choice, log entry 95). 1 ms after the mailbox operation the module resets. A mismatch of the management pair counts, writes a broke record and holds the pair; its restart closes every channel. VAON's loss and return reset its registers. -/
def Obligations.StartUpAndReset : Prop :=
  ∀ (s : State) (env : BootEnv) (ns rail mv : Nat) (sv : Bool),
    (s.pdOn 80 = true → s.pdOn 81 = true → s.pdOn 82 = true → s.mgt.hold = false → s.supply.up = true → s.supply.heldTo ≤ s.cyc → s.fld MGT_BOOT_STATUS.STAGE = 0 →
      let u := (if env.octal then s.start.setF XSP_CFG.OCTAL 1 else s.start).bootStep2
      (env.flashOk = false → exec (.startUp env) s = .next (s.start.bootStep2.bootStop 2 false))
      ∧ (env.flashOk = true → (env.badHeader.contains 0 && env.badHeader.contains 1) = true →
        exec (.startUp env) s = .next (((u.slotReason 0 rsnRead 0).slotReason 1 rsnRead 0).bootStop 2 false))
      ∧ (env.flashOk = true → (env.badHeader.contains 0 && env.badHeader.contains 1) = false →
        exec (.startUp env) s = .next (let t := u.bootStep3 env
          match t.bootChoice with
          | none => t.bootStop 1 true
          | some (k, both) => t.bootSlots k both env)))
    ∧ (s.supply.up = true → 10000 ≤ ns → exec (.resetNAssert ns) s = .next
      (let t := ({ s.start with mgt := { s.mgt with hold := false } } : State).moduleReset 1; { t with supply := { t.supply with heldTo := t.cyc + 1000000 } }))
    ∧ (ns < 1000 ∨ s.supply.up = false → exec (.resetNAssert ns) s = .next s.start)
    ∧ (rail < 2 → let trip := if rail = 0 then 680 else 1600
      let low := fun (x : Supply) (b : Bool) => if rail = 0 then { x with lowIo := b } else { x with lowVio := b }
      let x := low s.supply false
      (mv < trip → s.supply.up = true → exec (.railMonitorTrip rail mv) s = .next
        (let t := (s.start.moduleReset 1).emit (.note "IO0_BALLS" [2]); { t with supply := low t.supply true }))
      ∧ (mv < trip → s.supply.up = false → exec (.railMonitorTrip rail mv) s = .next { s.start with supply := low s.supply true })
      ∧ (trip ≤ mv → mv < trip + 20 → exec (.railMonitorTrip rail mv) s = .next s.start)
      ∧ (trip + 20 ≤ mv → x.up = true → s.supply.up = false → exec (.railMonitorTrip rail mv) s =
        .next { s.start with out := s.start.out ++ resetBalls s.tap.shifting, supply := { x with heldTo := s.cyc + 1000000 } })
      ∧ (trip + 20 ≤ mv → x.up = false ∨ s.supply.up = true → exec (.railMonitorTrip rail mv) s = .next { s.start with supply := x }))
    ∧ (∀ t, s.mgt.resetAt = some t → t ≤ s.cyc → exec .moduleResetDelayExpiry s = .next (s.start.moduleReset 2))
    ∧ (s.pdOn 82 = true → s.mgt.down = false → exec (.lockstepMgtMismatch sv) s = .next
      (let t := (s.start.bump ITG_LOCKSTEP.MGT 1).writeBroke { Broke.plain 0x0A with unit := 0x61 }
       { t with mgt := { t.mgt with down := true, serving := if sv then t.mgt.queue.head? else none } }))
    ∧ (s.mgt.down = true → s.mgt.serving = none → ∃ t, exec .mgtPairRestart s = .next t ∧ t.mgt = { s.mgt with down := false, serving := none, session := none }
      ∧ t.regs = ((s.start.setF MGT_MBX_STATUS.OPEN 0).setF MGT_MBX_STATUS.RESTARTED 1).regs ∧ t.log.queue.length = 1)
    ∧ (s.pdOn 80 = true → exec .vaonPowerLoss s = .next (s.start.aonLost.setPd 80 0))
    ∧ (s.pdOn 80 = false → exec .vaonPowerUp s = .next
      (let t := s.start.aonLost.setPd 80 2; ((if t.pdOn 82 then t else t.setPd 82 2).setPd 83 2).logLost))

/-- A tick advances SUBSEC; the last one of a second advances the calendar, and after 2399-12-31 23:59:59 it is 2000-01-01 with CENTURY_WRAP; a pending set acts in place of the count. SET is accepted for the next tick when R664 allows it, else DATE_REJECT sets and is logged. The oldest queued log entry is programmed with its check value and commit byte in the next slot, and numbers go on. A doorbell joins the queue and sets BUSY, or DB_REJECT when the channel is busy. TRST_N low resets the test access port; a cycle moves its state, in Capture-DR with IDCODE loads the identification, and in a shift state shows the first bit and takes TDI. While a rail of its balls is out of range it does nothing. From EXTEST's start, and at each update in it, the balls take the boundary register's levels. -/
def Obligations.ClockLogAndTap : Prop :=
  ∀ (s : State) (m c : Nat) (tms tdi : Bool),
    (s.pdOn 80 = true →
      (∀ x, s.rtcNext = some x → exec .rtcTick s = .next
        ((((({ s.start with rtcNext := none } : State).wr MGT_RTC_DATE.addr x.1).wr MGT_RTC_TIME.addr x.2).setF MGT_RTC_CTRL.SET_PENDING 0).logEvent 7 1 0 []))
      ∧ (s.rtcNext = none → s.fld MGT_RTC_TIME.SUBSEC < 32767 → exec .rtcTick s = .next (s.start.setF MGT_RTC_TIME.SUBSEC (s.fld MGT_RTC_TIME.SUBSEC + 1)))
      ∧ (s.rtcNext = none → 32767 ≤ s.fld MGT_RTC_TIME.SUBSEC → s.fld MGT_RTC_TIME.SEC < 59 →
        exec .rtcTick s = .next (s.start.wr MGT_RTC_TIME.addr (timeWord (s.fld MGT_RTC_TIME.HOUR) (s.fld MGT_RTC_TIME.MIN) (s.fld MGT_RTC_TIME.SEC + 1) 0)))
      ∧ (s.rtcNext = none → 32767 ≤ s.fld MGT_RTC_TIME.SUBSEC → s.rd MGT_RTC_DATE.addr = dateWord 399 12 31 → s.fld MGT_RTC_TIME.SEC = 59 → s.fld MGT_RTC_TIME.MIN = 59 →
        s.fld MGT_RTC_TIME.HOUR = 23 → exec .rtcTick s = .next
          ((((s.start.wr MGT_RTC_TIME.addr (timeWord 0 0 0 0)).wr MGT_RTC_DATE.addr (dateWord 0 1 1)).setF MGT_RTC_CTRL.CENTURY_WRAP 1).logEvent 7 3 0 [])))
    ∧ (s.mayWrite m MGT_RTC_CTRL.addr = true →
      (setOk (s.start.heldOr MGT_RTC_SET_DATE.addr) (s.start.heldOr MGT_RTC_SET_TIME.addr) = true → exec (.rtcSet m) s = .next
        { s.start.setF MGT_RTC_CTRL.SET_PENDING 1 with rtcNext := some (s.start.heldOr MGT_RTC_SET_DATE.addr, s.start.heldOr MGT_RTC_SET_TIME.addr) })
      ∧ (setOk (s.start.heldOr MGT_RTC_SET_DATE.addr) (s.start.heldOr MGT_RTC_SET_TIME.addr) = false →
        exec (.rtcSet m) s = .next ((s.start.setF MGT_RTC_CTRL.DATE_REJECT 1).logEvent 7 2 0 [])))
    ∧ (∀ x rest, s.log.queue = x :: rest → x.source ≠ 2 → s.pdOn 82 = true → s.mgt.down = false → 2 ≤ s.fld MGT_BOOT_STATUS.STAGE → 1 ≤ s.log.slot → s.log.slot < 1024 →
      ∀ b, b = leBytes 4 s.log.seq ++ leBytes 4 x.rtc ++ leBytes 4 x.time ++ leBytes 4 x.wraps ++ leBytes 1 x.source ++ leBytes 1 x.code ++ leBytes 2 s.log.dropped
          ++ (x.data ++ List.replicate 36 0).take 36 ++ leBytes 3 0 →
      exec (.logEntryWrite true) s = .next (let u := (s.start.flashProgram (logAddr s.log.sector s.log.slot) (b ++ leBytes 4 (crc32c b))).flashProgram (logAddr s.log.sector s.log.slot + 63) [0]
        { u with log := { u.log with queue := rest, dropped := 0, slot := s.log.slot + 1, seq := (s.log.seq + 1) % 2 ^ 32 } }))
    ∧ (s.mayWrite m MGT_MBX_DB.addr = true → c < 8 →
      (bitN (s.start.fld MGT_MBX_STATUS.BUSY) c = false → exec (.mailboxDoorbell m (2 ^ c)) s = .next
        (({ s.start with mgt := { s.mgt with queue := s.mgt.queue ++ [c] } } : State).setF MGT_MBX_STATUS.BUSY (s.start.fld MGT_MBX_STATUS.BUSY + 2 ^ c)))
      ∧ (bitN (s.start.fld MGT_MBX_STATUS.BUSY) c = true → exec (.mailboxDoorbell m (2 ^ c)) s = .next (s.start.setF MGT_MBX_STATUS.DB_REJECT 1)))
    ∧ (s.supply.up = false → ∀ trst, exec (.jtagTapCycle tms tdi trst) s = .next s.start)
    ∧ (s.supply.up = true → let go := fun (t : State) => (Host.Outcome.next (t.boundaryOut s.tap) : Host.Outcome State Fault Refusal)
      exec (.jtagTapCycle tms tdi true) s = go { s.start with tap := { s.tap with state := 0, ir := none } }
      ∧ (s.tap.state = 3 → s.tap.instruction = 3 → exec (.jtagTapCycle tms tdi false) s = go
        { s.start with tap := { s.tap with state := tapNext 3 tms, shift := bitList 32 Config.tapIdcode.toNat } })
      ∧ (s.tap.state = 4 ∨ s.tap.state = 11 → exec (.jtagTapCycle tms tdi false) s = go
        { s.start with tap := ({ s.tap with state := tapNext s.tap.state tms, shift := s.tap.shift.drop 1 ++ [tdi] } : Tap).enter,
                       resp := .word (BitVec.ofNat 32 (b2n (s.tap.shift.headD false))) })
      ∧ (s.tap.state = 0 ∨ s.tap.state = 1 ∨ s.tap.state = 2 ∨ 5 ≤ s.tap.state ∧ s.tap.state ≤ 9 ∨ 12 ≤ s.tap.state → exec (.jtagTapCycle tms tdi false) s = go
        { s.start with tap := ({ s.tap with state := tapNext s.tap.state tms } : Tap).enter })
      ∧ (∀ x y : Tap, (x.extest = true → y.extest = false ∨ y.boundary ≠ x.boundary → ({ s with tap := x } : State).boundaryOut y =
          ({ s with tap := x } : State).emit (.note "BOUNDARY" (x.boundary.map b2n)))
        ∧ (x.extest = false → y.extest = false → ({ s with tap := x } : State).boundaryOut y = { s with tap := x })))

/-- The request at the front of the queue is served: an unlisted OP returns BAD_OP; on a channel that is not open every operation but OPEN returns NOT_OPEN and has no other effect; a LEN outside the operation's payload returns BAD_ARG. On an open channel each operation has the effect of R656 and its response: CLOSE, INFO, the four writes with their refusals (IN_USE for a locked format or a partition that holds an object, BAD_ARG else), LOG_READ, the update session with IN_USE, REFUSED and BAD_ARG, ROLLBACK_ADVANCE, FUSE_KEY once (then DENIED), and MODULE_RESET a millisecond later. -/
def Obligations.MailboxOperations : Prop :=
  ∀ (s : State) (c k : Nat) (err : Bool) (eo : Option Nat),
    let t := s.start
    let rsp := fun (op : Nat) (r : MbxRes) => r.st.respond c op r.status (t.reqTag c) r.payload
    let sv := fun (op len : Nat) (i : Instr) (f : MbxRes) => s.mbxHead (fun o => o == op) = some c →
      (t.chanOpen c = false → exec i s = .next (rsp op (t.refuse 3)))
      ∧ (t.chanOpen c = true → t.reqLen c ≠ len → exec i s = .next (rsp op (t.refuse 2)))
      ∧ (t.chanOpen c = true → t.reqLen c = len → exec i s = .next (rsp op f))
    (s.mbxHead (fun o => o == 1 || !mbxOps.contains o) = some c →
      (t.reqOp c ≠ 1 → exec .mbxOpen s = .next (rsp (t.reqOp c) (t.refuse 1)))
      ∧ (t.reqOp c = 1 → t.reqLen c ≠ 2 → exec .mbxOpen s = .next (rsp 1 (t.refuse 2)))
      ∧ (t.reqOp c = 1 → t.reqLen c = 2 → (1 < t.reqArg c 0 1 ∨ t.reqArg c 1 1 = 0) → exec .mbxOpen s = .next (rsp 1 (t.refuse 4)))
      ∧ (t.reqOp c = 1 → t.reqLen c = 2 → t.reqArg c 0 1 ≤ 1 → 1 ≤ t.reqArg c 1 1 → exec .mbxOpen s = .next
        (rsp 1 ((t.setF MGT_MBX_STATUS.OPEN (Nat.lor (t.fld MGT_MBX_STATUS.OPEN) (2 ^ c))).mbxDone [1]))))
    ∧ sv 2 0 .mbxClose ((t.setF MGT_MBX_STATUS.OPEN (t.fld MGT_MBX_STATUS.OPEN - 2 ^ c)).mbxDone [])
    ∧ sv 3 0 .mbxInfo (t.mbxDone (leBytes 4 t.bootStatus.toNat ++ leBytes 4 (t.rd (MGT_BOOT_SLOT.addr 0)).toNat
        ++ leBytes 4 (t.rd (MGT_BOOT_SLOT.addr 1)).toNat ++ leBytes 4 t.running.isn ++ leBytes 4 t.fuses.rollback ++ leBytes 8 t.running.retired))
    ∧ sv 0x10 12 .fmtWrite (let n := t.reqArg c 0 4
        if n < 20 ∨ 31 < n then t.refuse 2 else if t.fmtLocked n then t.refuse 5
        else if t.flag MGT_FMT_CTRL.BUSY || !(Fmt.ofWords (t.reqArg c 4 4) (t.reqArg c 8 4)).valid then t.refuse 2
        else ((t.fmtLo n (BitVec.ofNat 32 (t.reqArg c 4 4))).fmtHi n (BitVec.ofNat 32 (t.reqArg c 8 4))).mbxDone [])
    ∧ sv 0x11 132 .partWrite (let p := t.reqArg c 0 4
        let r := fun (off n : Nat) => t.reqArg c (4 + off) n
        if 8 ≤ p then t.refuse 2 else if t.partBusy p then t.refuse 5 else if !t.partChangeOk p r then t.refuse 2
        else (((partWords p r).foldl (fun (u : State) e => u.wr e.1 (BitVec.ofNat 32 e.2)) t).initPool p).mbxDone [])
    ∧ (s.mbxHead (fun o => o == 0x12) = some c → t.chanOpen c = true →
      (t.reqLen c % 8 ≠ 0 ∨ t.reqLen c < 8 ∨ 2016 < t.reqLen c → exec .hbxWrite s = .next (rsp 0x12 (t.refuse 2)))
      ∧ (t.reqLen c % 8 = 0 → 8 ≤ t.reqLen c → t.reqLen c ≤ 2016 →
        let l := (List.range (t.reqLen c / 8)).map (fun i => (t.reqArg c (8 * i) 4, t.reqArg c (8 * i + 4) 4))
        exec .hbxWrite s = .next (rsp 0x12 (if !l.all (fun e => hbxWritable e.1) then t.refuse 2
          else (l.foldl (fun (u : State) e => u.hbxCopied.writeReg 0x61 24 e.1 (BitVec.ofNat 32 e.2)) t).mbxDone []))))
    ∧ sv 0x13 8 .pinWrite (let w := t.reqArg c 4 4
        if !t.pinUp (t.reqArg c 0 4) || w % 0x800000 != 0 then t.refuse 2 else (t.pinSet 0x61 (t.reqArg c 0 4) (BitVec.ofNat 32 w)).mbxDone [])
    ∧ sv 0x20 8 .logRead (if t.reqArg c 4 4 < 1 ∨ 31 < t.reqArg c 4 4 then t.refuse 2
        else t.mbxDone (logFrom (t.reqArg c 0 4) (t.reqArg c 4 4) (t.logEntries.filter (fun e => decide ((leAt e 0 4 + 2 ^ 32 - t.reqArg c 0 4) % 2 ^ 32 < 2 ^ 31)))).flatten)
    ∧ sv 0x30 0 (.updateBegin eo) (if t.mgt.session.isSome then t.refuse 5
        else if eo.isSome then (t.slotErase t.updateSlot eo).refuse 8 else (((t.slotErase t.updateSlot eo).setSession (some ⟨c, 0⟩)).updateLog 1).mbxDone [])
    ∧ ((s.pendingBlock (rangeBlocks (s.reqArg c 0 8) (Nat.min 1048576 (s.reqArg c 12 4)))) = none →
      sv 0x31 16 (.updateWrite err) (match t.mgt.session with | none => t.refuse 6 | some x => (if x.chan ≠ c then t.refuse 5 else t.updateWrite c err x)))
    ∧ sv 0x32 0 (.updateCommit k) (if t.mgt.session = none then t.refuse 6 else if t.mgt.session.map (·.chan) ≠ some c then t.refuse 5 else t.updateCommit k)
    ∧ sv 0x33 0 (.updateAbort false) (if t.mgt.session = none then t.refuse 6 else if t.mgt.session.map (·.chan) ≠ some c then t.refuse 5 else (((t.flashErase (commitBase t.updateSlot) 65536).setSession none).updateLog 4).mbxDone [])
    ∧ sv 0x34 0 .rollbackAdvance (if t.running.rollback ≤ t.fuses.rollback then t.mbxDone []
        else (({ t with fuses := { t.fuses with rollback := t.running.rollback } } : State).updateLog 5).mbxDone [])
    ∧ sv 0x35 48 .fuseKey (if t.fuses.keyHash ≠ 0 then t.refuse 9
        else (({ t with fuses := { t.fuses with keyHash := beNat (t.reqBytes c 0 48) } } : State).updateLog 6).mbxDone [])
    ∧ sv 0x40 0 .moduleReset (({ t with mgt := { t.mgt with resetAt := some (t.cyc + 1000000) } } : State).mbxDone [])

/-- A cap R675 allows is set, else CAP_REJECT. The share-out of a budget gives each cluster max(Q_FLOOR, q at L) for the greatest level L, a multiple of 10 mW up to 65,530, that fits; where level 0 does not fit each gets Q_FLOOR and OVER_CAP's condition holds. A period and a phase report share out anew. The parts of a rail's energy add up to it. A droop firing clamps and counts, until its hold has passed. A phase-fault input that goes low declares an unnamed failure, a telemetry sample is taken and judged, a restoration is asked; a waiting field test is granted its budget. -/
def Obligations.PowerSharing : Prop :=
  ∀ (s : State) (m v n r mv : Nat) (is act moved : List Nat) (occ ch : List (Nat × Nat × Nat)),
    (s.mayWrite m PMU_CAP.addr = true → v < 2 ^ 32 → ∀ c, c = bits (BitVec.ofNat 32 v) 8 0 →
      (40 ≤ c → c ≤ 300 → (c ≤ 120 ∨ s.thermal.coldPlate = true) → exec (.capWrite m v) s = .next (s.start.setF PMU_CAP.CAP_W c))
      ∧ (c < 40 ∨ 300 < c ∨ 120 < c ∧ s.thermal.coldPlate = false → exec (.capWrite m v) s = .next ((s.start.setF PMU_EVENT.CAP_REJECT 1).sense 4)))
    ∧ (∀ (qf : Nat) (cs : List Demand) (b : Int),
      (64 * b < (levelCost cs 0 : Int) → shareOut qf cs b = (cs.map (fun x => (x.clu, qf)), true))
      ∧ ((levelCost cs 0 : Int) ≤ 64 * b → ∃ k ≤ 6553, (levelCost cs (10 * k) : Int) ≤ 64 * b ∧ (∀ j ≤ 6553, (levelCost cs (10 * j) : Int) ≤ 64 * b → j ≤ k)
        ∧ shareOut qf cs b = (cs.map (fun x => (x.clu, Nat.max qf (if x.d = 0 then 64 else Nat.min 64 (64 * (10 * k) / x.d)))), false)))
    ∧ (s.pdOn 82 = true →
      (s.pmu.period + 100000 ≤ s.cyc → exec .pmuPeriod s = .next
        (let t := (List.range 64).foldl (fun (t : State) k => t.cluPeriod s.pmu.period (s.cyc - s.pmu.period) k) s.start.formPower
         ({ t with pmu := { t.pmu with cap := t.fld PMU_CAP.CAP_W, period := t.cyc } } : State).share))
      ∧ (∀ e, s.phaseReports.find? (fun e => e.1 == n) = some e → exec (.phaseReport n) s = .next
        (let t : State := { s.start with phaseReports := eraseOne e s.phaseReports }
         ((t.setPmuClu n { t.pmuClu n with moved := true }).setF (PMU_CLU.PHASE n) e.2).share))
      ∧ (exec (.energyApportion act moved occ ch) s = .next (((List.range 10).filter s.railPresent).foldl (fun (t : State) k =>
        let ws := (t.railDomains k).map (fun d => (d, if 6 ≤ k then getAt 0 moved (if d = 37 then 0 else 1) else getAt 0 act d * Config.energyWeight d))
        let ps := divide ((t.rail k).mv * (t.rail k).i) (t.free 8) ws
        ps.foldl (fun (u : State) p => (u.credit p.1 p.2).domainEarns occ ch p.1 p.2) ((t.tookFree 1).setRail k { t.rail k with other := otherDraw ps })) s.start))
      ∧ (r < 6 → s.railPresent r = true → 0 < s.railFitted r →
        ((s.rail r).low = false → (s.rail r).naming = none → exec (.phaseFaultInput r true) s = .next
          (((s.start.setRail r { s.rail r with low := true, naming := some 0 }).setF (PMU_RAIL_FAULT.UNNAMED r) 1).railFail r 1 0))
        ∧ ((s.rail r).low = true → exec (.phaseFaultInput r false) s = .next ((s.start.setRail r { s.rail r with low := false, naming := (s.rail r).naming }).railRestore r)))
      ∧ (∀ u t : State, s.railPresent r = true → mv < 16384 →
        u = s.start.setRail r { s.rail r with mv := mv, i := sumN is, at_ := some s.cyc, phases := is, bad := (List.range is.length).map (fun k => if phaseBad is (s.railMax r) k then getAt 0 (s.rail r).bad k + 1 else 0), good := (List.range is.length).map (fun k => if phaseGood is k then getAt 0 (s.rail r).good k + 1 else 0) } →
        t = ((u.setF (PMU_RAIL.MV r) mv).setF (PMU_RAIL.I_100MA r) (Nat.min 65535 (sumN is / 10))).setF (PMU_RAIL.STALE r) 0 →
        (6 ≤ r → is.length = 1 → exec (.telemetrySample r mv is) s = .next t)
        ∧ (r < 6 → is.length = s.railFitted r → exec (.telemetrySample r mv is) s = .next ((t.railJudge r).railRestore r)))
      ∧ (s.ftQueue.any (fun x => x.clu == n && decide (2 ≤ x.cls)) = true → s.budgeted.contains n = false → s.testFits n = true →
        exec (.testBudgetGrant n) s = .next { s.start with budgeted := s.budgeted ++ [n] }))
    ∧ (∀ (e f : Nat) (ws : List (Nat × Nat)), ws ≠ [] → sumN ((divide e f ws).map (fun p => p.2)) = e)
    ∧ (n < 64 → s.pdOn (pdClu n) = true → exec (.droopFiring n) s = .next
      ((s.start.setPmuClu n { s.pmuClu n with droop := some s.cyc }).bump (PMU_CLU_DROOPS.COUNT n) 1))
    ∧ (∀ k, (s.pmuClu n).droop = some k → s.thermal.droopHold * 1000 ≤ (s.cyc - k) * getAt 0 s.running.mhz 0 →
      exec (.droopRelease n) s = .next (s.start.setPmuClu n { s.pmuClu n with droop := none }))
    ∧ (s.mayWrite m (PMU_RAIL_FAULT.addr r) = true → exec (.phaseRestoreRequest m r v) s = .next
      ((s.start.setRail r { s.rail r with restore := Nat.lor (s.rail r).restore (Nat.land (bits (BitVec.ofNat 32 v) 15 0) (s.fld (PMU_RAIL_FAULT.FAILED r))) }).railRestore r))

/-- A request to switch a domain on or off is refused for the four domains no command switches, ignored for an absent one; OFF is refused while another domain that is on depends on it. Power-good brings a domain on; a domain without it after 52 us stays off with PG_FAIL. An idle domain is switched off by AUTO_GATE. The registers of a domain that goes off, but those it keeps and those whose value the image gives, read their reset values. A thermal sample takes every sensor and, with a THERMAL section in force, moves every ceiling and, at a sensor too hot for three samples, shuts down; the ceiling is 64 up to T_THR and Q_MIN from T_LIM on. The hold ends by the external reset, with the rails in range, or by VAON. -/
def Obligations.DomainsAndThermal : Prop :=
  ∀ (s : State) (m d : Nat) (rs : List (Option Int)),
    (s.mayWrite m (PMU_PD.addr d) = true →
      (s.start.pdPresent d = false → exec (.domainOnRequest m d) s = .next s.start ∧ exec (.domainOffRequest m d) s = .next s.start)
      ∧ (s.start.pdPresent d = true → 80 ≤ d → d < 84 → exec (.domainOnRequest m d) s = .next (s.start.setF (PMU_PD.REFUSED d) 1)
        ∧ exec (.domainOffRequest m d) s = .next (s.start.setF (PMU_PD.REFUSED d) 1))
      ∧ (s.start.pdPresent d = true → d < 80 ∨ 84 ≤ d → exec (.domainOnRequest m d) s = .next (((s.start.pdQueue (pdCoreOf d)).pdQueue d).pdKick)
        ∧ ∀ t, t = ({ s.start with pmu := { s.pmu with pdWait := s.pmu.pdWait.filter (· != d) } } : State) →
          (s.start.pdDependents d = true → exec (.domainOffRequest m d) s = .next (s.start.setF (PMU_PD.REFUSED d) 1))
          ∧ (s.start.pdDependents d = false → t.pdState d = 0 → exec (.domainOffRequest m d) s = .next t)
          ∧ (s.start.pdDependents d = false → t.pdState d ≠ 0 → exec (.domainOffRequest m d) s = .next (t.domainOff d).pdKick)))
    ∧ (s.pdOn 82 = true →
      (s.pdState d = 1 → exec (.powerGood d) s = .next (s.start.domainUp d).pdKick
        ∧ (Sparse.get (fun _ => 0) s.pmu.pdSince d + 52000 ≤ s.cyc → exec (.powerGoodTimeout d) s = .next (s.start.pgFail d).pdKick))
      ∧ (s.flag PMU_PD_CTRL.AUTO_GATE = true → s.gateIdle d = true → exec (.autoGateIdle d) s = .next (s.start.domainOff d).pdKick)
      ∧ (rs.length = 128 → ∀ t u, t = (List.range 128).foldl (fun (t : State) i => t.sensorTake i (getAt none rs i)) s.start → u = (if t.thermal.loaded then t.throttleAll else t) →
        (u.thermal.loaded = false → exec (.thermalSample rs) s = .next u)
        ∧ (u.thermal.loaded = true → (∀ i < 128, Sparse.get (fun _ => 0) u.pmu.hot i < 3) → exec (.thermalSample rs) s = .next u)
        ∧ (u.thermal.loaded = true → ∀ i < 128, 3 ≤ Sparse.get (fun _ => 0) u.pmu.hot i → (∀ j < i, Sparse.get (fun _ => 0) u.pmu.hot j < 3) →
          exec (.thermalSample rs) s = .next (u.shutdown i))))
    ∧ (∀ a, Registers.wf s = true → regHome a = d → s.keptByDomain a = false → (∀ e ∈ s.imageRegs, e.1 ≠ a) → (s.domainRegs d).rd a = regReset a)
    ∧ (∀ (x : Thermal) (t : Int), (t ≤ x.tThr → x.ceiling t = 64) ∧ (x.tThr < t → x.tLim ≤ t → x.ceiling t = x.qMin))
    ∧ (s.mgt.hold = true → exec (.shutdownHoldRelease true) s = .next (let t := s.start.aonLost.setPd 80 2; ((if t.pdOn 82 then t else t.setPd 82 2).setPd 83 2).logLost)
      ∧ (s.supply.up = true → exec (.shutdownHoldRelease false) s = .next
        (let t := ({ s.start with mgt := { s.mgt with hold := false } } : State).moduleReset 1; { t with supply := { t.supply with heldTo := t.cyc + 1000000 } })))

/-- A sample forms i and v from the codes, accumulates them and raises a channel's fault once an episode. A second of 4,000 samples evaluates both estimates and rest. A checkpoint stores registers, residues and SOC state, clean at MTI_PF_N, or is a STORE_FAULT. A sweep, SWEEP_MS after the last, reads a position by valid responses and tags positions OK when the forward pass completes; else PARTIAL before BREAK_A, REVERSE from the other end, MISSING between. Reading the first word latches the snapshot or sweep record. A start with a wrong ROM checksum measures nothing, and its snapshots say so. The service port refuses a wrong check value or table, stores or returns the table and codes, and seals. VMET's loss keeps the store alone. -/
def Obligations.MetrologyIsland : Prop :=
  ∀ (s : State) (cI cV : Int) (badI badV bad en sweep cut : Bool) (m crc pcrc : Nat) (table : List Byte) (worn : List Nat)
    (ra rb : List (List (List Byte) × List (List Byte))),
    (s.pdOn 81 = true → s.mti.on = true →
      (s.mti.samples < 4000 → -8388608 ≤ cI → cI ≤ 8388607 → 0 ≤ cV → cV ≤ 16777215 → ∀ i v kI kV, i = s.sampleI cI → v = s.sampleV cV →
        kI = (if cI = -8388608 ∨ cI = 8388607 then s.mti.clipI + 1 else 0) → kV = (if cV = 0 ∨ cV = 16777215 then s.mti.clipV + 1 else 0) →
        ∀ t, t = s.start.setMti { s.mti with codeI := cI, codeV := cV, clipI := kI, clipV := kV, sumI := s.mti.sumI + i, sumAbs := s.mti.sumAbs + i.natAbs, sumV := s.mti.sumV + v, samples := s.mti.samples + 1, qnet := s.mti.qnet + i, sinceSweep := s.mti.sinceSweep + 1 } →
        (i = 0 → exec (.adcSample cI cV badI badV) s = .next ((t.adcFault false (badI || decide (4 ≤ kI))).adcFault true (badV || decide (4 ≤ kV))).settleMti)
        ∧ (0 < i → exec (.adcSample cI cV badI badV) s = .next ((((t.residueAdd 0 2 14400000000 i).residueAdd 1 0 14400000000000000 (i * v)).adcFault false
          (badI || decide (4 ≤ kI))).adcFault true (badV || decide (4 ≤ kV))).settleMti)
        ∧ (i < 0 → exec (.adcSample cI cV badI badV) s = .next ((((t.residueAdd 2 3 14400000000 (-i)).residueAdd 3 1 14400000000000000 (-i * v)).adcFault false
          (badI || decide (4 ≤ kI))).adcFault true (badV || decide (4 ≤ kV))).settleMti))
      ∧ (10 ≤ s.mti.sinceCkpt → exec (.mtiCheckpoint false) s = .next ({ s.start.setMti { s.mti with sinceCkpt := 0 } with
            mtiStore := { s.mtiStore with ckpt := some (s.mti.ckpt false) } } : State).settleMti
        ∧ exec (.mtiCheckpoint true) s = .next ((s.start.setMti { s.mti with sinceCkpt := 0 }).legalEvent 6 0).settleMti)
      ∧ (exec (.powerFailSignal false) s = .next ({ s.start with
            mtiStore := { s.mtiStore with ckpt := some (s.mti.ckpt true) } } : State).settleMti)
      ∧ (exec (.powerFailSignal true) s = .next (s.start.legalEvent 6 0).settleMti)
      ∧ (s.mti.clockBad = false → exec (.clockCheck true) s = .next ((s.start.setMti { s.mti with clockBad := true }).legalEvent 5 0).settleMti)
      ∧ (exec (.clockCheck false) s = .next (s.start.setMti { s.mti with clockBad := false }).settleMti)
      ∧ (s.mti.samples = 4000 → ∃ t, exec .socEvaluation s = .next t ∧ t.mti.samples = 0 ∧ t.mti.socV = s.start.socVNow.2
        ∧ t.mti.atRest = (decide (s.mti.sumAbs < 4000 * 1000 * s.mtiParam 24 2) && decide (s.mtiParam 26 2 ≤ s.mti.rest + 1))
        ∧ (t.mti.atRest = true → t.mti.anchor = s.start.socVNow.2 ∧ t.mti.qnet = 0) ∧ (t.mti.atRest = false → t.mti.anchor = s.mti.anchor ∧ t.mti.qnet = s.mti.qnet)
        ∧ t.mti.disagree = (decide (t.mti.socCC ≤ 0) && decide (s.mtiParam 28 2 < t.mti.socV)))
      ∧ (s.mtiParam 20 1 ≤ 32 → s.mtiParam 21 1 ≤ 12 → 4 * s.mtiParam 22 2 ≤ s.mti.sinceSweep →
        ∀ fa fb : Nat → Option (List Nat × List Nat), (∀ k, fa k = s.ringRead k (getAt ([], []) ra k)) → (∀ k, fb k = s.ringRead k (getAt ([], []) rb k)) →
        ∃ t, exec (.ringSweep ra rb) s = .next t ∧ t.mti.sinceSweep = 0 ∧ t.mti.monitors.length = s.mtiParam 20 1
        ∧ ((∀ k < s.mtiParam 20 1, (fa k).isSome = true) → t.mti.breakA = 0xFF ∧ t.mti.breakB = 0xFF ∧ ∀ x ∈ t.mti.monitors, x.state = 0)
        ∧ (∀ k < s.mtiParam 20 1, fa k = none → (∀ j < k, (fa j).isSome = true) → t.mti.breakA = k
          ∧ (∀ j < k, ∀ x, t.mti.monitors[j]? = some x → x.state = 1)
          ∧ (∀ j, k ≤ j → ∀ x, t.mti.monitors[j]? = some x → x.state = if (∀ i < s.mtiParam 20 1, j ≤ i → (fb i).isSome = true) then 2 else 3)))
      ∧ (exec .snapshotRefresh s = .next (s.start.refresh true)))
    ∧ (s.pdOn 81 = true → s.mti.on = false → s.flag MTI_STATUS.ROM_FAIL = true → exec .snapshotRefresh s = .next (s.start.refresh false))
    ∧ (s.mayRead m (if sweep then MTI_SWEEP.addr 0 else MTI_SNAP.addr 0) = true → exec (.snapshotLatchRead m sweep) s = .next
      ((s.start.latchMti m sweep).say (.word (BitVec.ofNat 32 (leAt (if sweep then s.sweepNow else s.snapNow) 0 4)))))
    ∧ (s.mti.on = false → s.flag MTI_STATUS.ROM_FAIL = false → ∀ t, t = (({ s.start with mtiStore := { s.mtiStore with worn := worn } } : State).setPd 81 2).setF MTI_FW_CRC.CRC crc →
      (crc ≠ 0x5A1C7E39 → exec (.mtiStart crc worn) s = .next ((t.setF MTI_STATUS.ROM_FAIL 1).refresh false))
      ∧ (crc = 0x5A1C7E39 → ∀ u : State, u = { (t.setMti { Mti.init with on := true }).setF MTI_STATUS.RUNNING 1 with mtiStore := { s.mtiStore with worn := worn, torn := false } } →
        (s.mtiStore.ckpt = none → exec (.mtiStart crc worn) s = .next (if s.mtiStore.torn then u.legalEvent 2 0 else u).settleMti)
        ∧ (∀ c v, s.mtiStore.ckpt = some c → v = u.setMti c.resumed →
          exec (.mtiStart crc worn) s = .next (if c.clean && !s.mtiStore.torn then v else v.legalEvent 2 0).settleMti)))
    ∧ (s.svcPort en = true →
      (table.length = 256 →
        (crc ≠ crc32c (leBytes 1 1 ++ table) → exec (.paramWrite en table crc bad) s = .next (s.start.say (svcReply 1 [])))
        ∧ (crc = crc32c (leBytes 1 1 ++ table) → paramOk table = false → exec (.paramWrite en table crc bad) s = .next (s.start.say (svcReply 2 [])))
        ∧ (crc = crc32c (leBytes 1 1 ++ table) → paramOk table = true → exec (.paramWrite en table crc false) s = .next
          (({ s.start with mtiStore := { s.mtiStore with params := table } } : State).say (svcReply 0 (leBytes 4 (crc32c table))))))
      ∧ (crc = crc32c (leBytes 1 2) → exec (.paramRead en crc) s = .next (s.start.say (svcReply 0 s.mtiStore.params)))
      ∧ (crc = crc32c (leBytes 1 3) → exec (.rawRead en crc) s = .next (s.start.say (svcReply 0 (leBytes 4 (unsigned 32 s.mti.codeI) ++ leBytes 4 (unsigned 32 s.mti.codeV)))))
      ∧ (crc = crc32c (leBytes 1 4 ++ leBytes 4 pcrc) →
        (pcrc % 2 ^ 32 ≠ s.paramCrc → exec (.mtiSeal en pcrc crc) s = .next (s.start.say (svcReply 2 [])))
        ∧ (pcrc % 2 ^ 32 = s.paramCrc → exec (.mtiSeal en pcrc crc) s = .next
          (((({ s.start with mtiStore := { s.mtiStore with fuse := true, audit := [], next := 0, saturated := 0 } } : State).setMti
            { s.mti with regs := [0, 0, 0, 0, 0, 0], residues := [0, 0, 0, 0] }).legalEvent 1 0).settleMti.say (svcReply 0 [])))))
    ∧ (s.pdOn 81 = true → ∃ t, exec (.vmetPowerLoss cut) s = .next t ∧ t.mti = Mti.init ∧ t.mtiStore.params = s.mtiStore.params ∧ t.mtiStore.ckpt = s.mtiStore.ckpt
      ∧ t.mtiStore.fuse = s.mtiStore.fuse ∧ t.mtiStore.audit = s.mtiStore.audit ∧ t.mtiStore.torn = (cut && decide (s.mtiStore.next < 1024))
      ∧ t.mtiStore.next = (if cut && decide (s.mtiStore.next < 1024) then s.mtiStore.next + 1 else s.mtiStore.next))
end

