-- ==== Sys2Proof/Laws/Crc.lean ====
section
/-! SUPPORT. The laws of CRC-32C: it stays in 32 bits, and bytes that differ in the last one have two check values. -/
namespace Sys2Proof.Machine
open Sys2Proof

/-- A bit of the CRC stays in 32 bits. -/
theorem crcBit_lt {x : Nat} (h : x < 2 ^ 32) : crcBit 0x82F63B78 x < 2 ^ 32 := by
  unfold crcBit; split
  · exact Nat.xor_lt_two_pow (by omega) (by omega)
  · omega

/-- An exclusive or is undone. -/
theorem xor_cancel {a b p : Nat} (h : a ^^^ p = b ^^^ p) : a = b := by
  have := congrArg (· ^^^ p) h
  simpa [Nat.xor_assoc, Nat.xor_self] using this

/-- A bit of the CRC loses nothing. -/
theorem crcBit_inj {x y : Nat} (hx : x < 2 ^ 32) (hy : y < 2 ^ 32) (h : crcBit 0x82F63B78 x = crcBit 0x82F63B78 y) : x = y := by
  have top : ∀ {a : Nat}, a < 2 ^ 31 → (Nat.xor a 0x82F63B78).testBit 31 = true := by
    intro a ha
    have : (a ^^^ 0x82F63B78).testBit 31 = true := by rw [Nat.testBit_xor, Nat.testBit_lt_two_pow ha]; decide
    exact this
  unfold crcBit at h
  split at h <;> split at h
  · have : x / 2 = y / 2 := by
      have h' : x / 2 ^^^ 0x82F63B78 = y / 2 ^^^ 0x82F63B78 := h
      exact xor_cancel h'
    omega
  · have := top (show x / 2 < 2 ^ 31 by omega)
    rw [h, Nat.testBit_lt_two_pow (show y / 2 < 2 ^ 31 by omega)] at this; cases this
  · have := top (show y / 2 < 2 ^ 31 by omega)
    rw [← h, Nat.testBit_lt_two_pow (show x / 2 < 2 ^ 31 by omega)] at this; cases this
  · omega

theorem crcBits_inj (l : List Nat) : ∀ {x y : Nat}, x < 2 ^ 32 → y < 2 ^ 32 →
    l.foldl (fun a _ => crcBit 0x82F63B78 a) x = l.foldl (fun a _ => crcBit 0x82F63B78 a) y → x = y := by
  induction l with
  | nil => intro x y _ _ h; exact h
  | cons a l ih => intro x y hx hy h; exact crcBit_inj hx hy (ih (crcBit_lt hx) (crcBit_lt hy) h)

theorem crcBytes_lt (l : List Byte) : ∀ {c : Nat}, c < 2 ^ 32 → l.foldl (crcByte 0x82F63B78) c < 2 ^ 32 := by
  induction l with
  | nil => intro c h; exact h
  | cons b l ih =>
    intro c h
    refine ih ?_
    have : ∀ (l : List Nat) {x : Nat}, x < 2 ^ 32 → l.foldl (fun a _ => crcBit 0x82F63B78 a) x < 2 ^ 32 := by
      intro l; induction l with
      | nil => intro x h; exact h
      | cons a l ih => intro x h; exact ih (crcBit_lt h)
    exact this _ (Nat.xor_lt_two_pow h (by have := b.isLt; omega))

/-- Bytes that differ in the last one have two check values. -/
theorem crc32c_last (l : List Byte) (x y : Byte) (h : crc32c (l ++ [x]) = crc32c (l ++ [y])) : x = y := by
  have hl := crcBytes_lt l (show 0xFFFFFFFF < 2 ^ 32 by decide)
  unfold crc32c at h
  rw [List.foldl_append, List.foldl_append] at h
  generalize l.foldl (crcByte 0x82F63B78) 0xFFFFFFFF = c at h hl
  have h1 : crcByte 0x82F63B78 c x = crcByte 0x82F63B78 c y := by
    have h' : crcByte 0x82F63B78 c x ^^^ 0xFFFFFFFF = crcByte 0x82F63B78 c y ^^^ 0xFFFFFFFF := h
    exact xor_cancel h'
  have b : ∀ z : Byte, Nat.xor c z.toNat < 2 ^ 32 := fun z => Nat.xor_lt_two_pow hl (by have := z.isLt; omega)
  have h2 : c ^^^ x.toNat = c ^^^ y.toNat := crcBits_inj _ (b x) (b y) h1
  rw [Nat.xor_comm c, Nat.xor_comm c] at h2; exact BitVec.eq_of_toNat_eq (xor_cancel h2)

end Sys2Proof.Machine
end

