-- ==== Sys2Proof/Laws/Sparse.lean ====
section
/-! SUPPORT. The laws of sparse tables: what a read after a write gives, and that a write and a drop keep the canonical form. -/
namespace Sys2Proof.Machine
variable {β : Type}

theorem Sparse.wfFrom_mono [DecidableEq β] {d : Nat → β} {lo lo' : Nat} {l : List (Nat × β)} (h : lo' ≤ lo)
    (w : Sparse.wfFrom d lo l = true) : Sparse.wfFrom d lo' l = true := by
  cases l with
  | nil => rfl
  | cons p l =>
    simp only [Sparse.wfFrom, Bool.and_eq_true, decide_eq_true_eq] at w ⊢
    exact ⟨⟨le_trans h w.1.1, w.1.2⟩, w.2⟩

theorem Sparse.get_below [DecidableEq β] {d : Nat → β} {lo k : Nat} {l : List (Nat × β)} (w : Sparse.wfFrom d lo l = true)
    (h : k < lo) : Sparse.get d l k = d k := by
  cases l with
  | nil => rfl
  | cons p l =>
    simp only [Sparse.wfFrom, Bool.and_eq_true, decide_eq_true_eq] at w
    have : k < p.1 := lt_of_lt_of_le h w.1.1
    simp [Sparse.get, this, Nat.ne_of_lt this]

theorem Sparse.wfFrom_cons [DecidableEq β] {d : Nat → β} {lo k : Nat} {v : β} {l : List (Nat × β)} (h : lo ≤ k)
    (w : Sparse.wfFrom d (k + 1) l = true) : Sparse.wfFrom d lo (Sparse.cons d k v l) = true := by
  unfold Sparse.cons
  split
  · exact Sparse.wfFrom_mono (by omega) w
  · simp_all [Sparse.wfFrom]

theorem Sparse.wfFrom_set [DecidableEq β] {d : Nat → β} {k : Nat} {v : β} : ∀ {l : List (Nat × β)} {lo : Nat}, lo ≤ k →
    Sparse.wfFrom d lo l = true → Sparse.wfFrom d lo (Sparse.set d l k v) = true
  | [], _, h, _ => Sparse.wfFrom_cons h rfl
  | (k', v') :: l, lo, h, w => by
    have w' := w
    simp only [Sparse.wfFrom, Bool.and_eq_true, decide_eq_true_eq] at w'
    unfold Sparse.set
    split
    · exact Sparse.wfFrom_cons h (by simp_all [Sparse.wfFrom])
    · split
      · subst_vars; exact Sparse.wfFrom_cons h w'.2
      · simp only [Sparse.wfFrom, Bool.and_eq_true, decide_eq_true_eq]
        exact ⟨w'.1, Sparse.wfFrom_set (by omega) w'.2⟩

/-- A write keeps the canonical form. -/
theorem Sparse.wf_set [DecidableEq β] {d : Nat → β} {l : List (Nat × β)} {k : Nat} {v : β} (w : Sparse.wf d l = true) :
    Sparse.wf d (Sparse.set d l k v) = true := Sparse.wfFrom_set (Nat.zero_le k) w

theorem Sparse.wfFrom_drop [DecidableEq β] {d : Nat → β} {p : Nat → Bool} : ∀ {l : List (Nat × β)} {lo : Nat},
    Sparse.wfFrom d lo l = true → Sparse.wfFrom d lo (Sparse.drop p l) = true
  | [], _, _ => rfl
  | (k, v) :: l, lo, w => by
    simp only [Sparse.wfFrom, Bool.and_eq_true, decide_eq_true_eq] at w
    unfold Sparse.drop
    split
    · exact Sparse.wfFrom_mono (by omega) (Sparse.wfFrom_drop w.2)
    · simp only [Sparse.wfFrom, Bool.and_eq_true, decide_eq_true_eq]
      exact ⟨w.1, Sparse.wfFrom_drop w.2⟩

/-- Dropping entries keeps the canonical form. -/
theorem Sparse.wf_drop [DecidableEq β] {d : Nat → β} {l : List (Nat × β)} {p : Nat → Bool} (w : Sparse.wf d l = true) :
    Sparse.wf d (Sparse.drop p l) = true := Sparse.wfFrom_drop w

theorem Sparse.get_cons_same [DecidableEq β] {d : Nat → β} {k : Nat} {v : β} {l : List (Nat × β)}
    (w : Sparse.wfFrom d (k + 1) l = true) : Sparse.get d (Sparse.cons d k v l) k = v := by
  unfold Sparse.cons
  split
  · rename_i h; rw [Sparse.get_below w (Nat.lt_succ_self k), h]
  · simp [Sparse.get]

theorem Sparse.get_cons_other [DecidableEq β] {d : Nat → β} {k j : Nat} {v : β} {l : List (Nat × β)}
    (w : Sparse.wfFrom d (k + 1) l = true) (h : j ≠ k) : Sparse.get d (Sparse.cons d k v l) j = Sparse.get d l j := by
  unfold Sparse.cons
  split
  · rfl
  · simp only [Sparse.get, h, if_false]
    split
    · exact (Sparse.get_below w (by omega)).symm
    · rfl

/-- What was written is read. -/
theorem Sparse.getFrom_set_same [DecidableEq β] {d : Nat → β} {k : Nat} {v : β} : ∀ {l : List (Nat × β)} {lo : Nat},
    Sparse.wfFrom d lo l = true → Sparse.get d (Sparse.set d l k v) k = v
  | [], _, _ => Sparse.get_cons_same (l := []) rfl
  | (k', v') :: l, lo, w => by
    have w' := w
    simp only [Sparse.wfFrom, Bool.and_eq_true, decide_eq_true_eq] at w'
    unfold Sparse.set
    split
    · exact Sparse.get_cons_same (by simp_all [Sparse.wfFrom])
    · split
      · subst_vars; exact Sparse.get_cons_same w'.2
      · have : ¬ k < k' := by assumption
        have : k ≠ k' := by assumption
        simp only [Sparse.get, *, if_false]
        exact Sparse.getFrom_set_same w'.2

/-- A write leaves every other key alone. -/
theorem Sparse.getFrom_set_other [DecidableEq β] {d : Nat → β} {k j : Nat} {v : β} (h : j ≠ k) : ∀ {l : List (Nat × β)} {lo : Nat},
    Sparse.wfFrom d lo l = true → Sparse.get d (Sparse.set d l k v) j = Sparse.get d l j
  | [], _, _ => Sparse.get_cons_other (l := []) rfl h
  | (k', v') :: l, lo, w => by
    have w' := w
    simp only [Sparse.wfFrom, Bool.and_eq_true, decide_eq_true_eq] at w'
    unfold Sparse.set
    split
    · exact Sparse.get_cons_other (by simp_all [Sparse.wfFrom]) h
    · split
      · subst_vars
        rw [Sparse.get_cons_other w'.2 h]
        simp only [Sparse.get, h, if_false]
        split
        · exact Sparse.get_below w'.2 (by omega)
        · rfl
      · simp only [Sparse.get]
        split
        · rfl
        · split
          · rfl
          · exact Sparse.getFrom_set_other h w'.2

theorem Sparse.get_set_same [DecidableEq β] {d : Nat → β} {l : List (Nat × β)} {k : Nat} {v : β} (w : Sparse.wf d l = true) :
    Sparse.get d (Sparse.set d l k v) k = v := Sparse.getFrom_set_same w

theorem Sparse.get_set_other [DecidableEq β] {d : Nat → β} {l : List (Nat × β)} {k j : Nat} {v : β} (w : Sparse.wf d l = true) (h : j ≠ k) :
    Sparse.get d (Sparse.set d l k v) j = Sparse.get d l j := Sparse.getFrom_set_other h w

/-- What a table reads after entries are dropped. -/
theorem Sparse.get_drop [DecidableEq β] {d : Nat → β} {p : Nat → Bool} {k : Nat} : ∀ {l : List (Nat × β)} {lo : Nat},
    Sparse.wfFrom d lo l = true → Sparse.get d (Sparse.drop p l) k = if p k = true then d k else Sparse.get d l k
  | [], _, _ => by simp [Sparse.drop, Sparse.get]
  | (k', v) :: l, lo, w => by
    simp only [Sparse.wfFrom, Bool.and_eq_true, decide_eq_true_eq] at w
    have ih := Sparse.get_drop (p := p) (k := k) w.2
    have hb : k < k' → Sparse.get d l k = d k := fun h => Sparse.get_below w.2 (by omega)
    unfold Sparse.drop
    by_cases hp : p k' = true
    · rw [if_pos hp, ih]
      by_cases h1 : k = k'
      · subst h1; simp [hp]
      · by_cases h2 : k < k'
        · simp [Sparse.get, h1, h2, hb h2]
        · simp [Sparse.get, h1, h2]
    · rw [if_neg hp]
      by_cases h1 : k = k'
      · subst h1; simp [Sparse.get, hp]
      · by_cases h2 : k < k'
        · simp [Sparse.get, h1, h2]
        · simp only [Sparse.get, h1, h2, if_false, ih]

end Sys2Proof.Machine
end

