-- ==== Sys2Proof/Laws/State.lean ====
section
/-! SUPPORT. What every update of the state does to every field: one lemma for each, so that no proof unfolds a record update. -/
namespace Sys2Proof.Machine

section startLaws
variable (s : State)
@[simp] theorem State.start_pending : (s.start).pending = s.pending := rfl
@[simp] theorem State.start_resp : (s.start).resp = .done := rfl
@[simp] theorem State.start_out : (s.start).out = [] := rfl
@[simp] theorem State.start_freeCtr : (s.start).freeCtr = s.freeCtr := rfl
@[simp] theorem State.start_idCtr : (s.start).idCtr = s.idCtr := rfl
@[simp] theorem State.start_now : (s.start).now = s.now := rfl
@[simp] theorem State.start_cyc : (s.start).cyc = s.cyc := rfl
@[simp] theorem State.start_dlNow : (s.start).dlNow = s.dlNow := rfl
@[simp] theorem State.start_regs : (s.start).regs = s.regs := rfl
@[simp] theorem State.start_imageRegs : (s.start).imageRegs = s.imageRegs := rfl
@[simp] theorem State.start_latches : (s.start).latches = s.latches := rfl
@[simp] theorem State.start_held : (s.start).held = s.held := rfl
@[simp] theorem State.start_pd : (s.start).pd = s.pd := rfl
@[simp] theorem State.start_mem : (s.start).mem = s.mem := rfl
@[simp] theorem State.start_upsets : (s.start).upsets = s.upsets := rfl
@[simp] theorem State.start_chan : (s.start).chan = s.chan := rfl
@[simp] theorem State.start_late : (s.start).late = s.late := rfl
@[simp] theorem State.start_tags : (s.start).tags = s.tags := rfl
@[simp] theorem State.start_checked : (s.start).checked = s.checked := rfl
@[simp] theorem State.start_clusters : (s.start).clusters = s.clusters := rfl
@[simp] theorem State.start_engines : (s.start).engines = s.engines := rfl
@[simp] theorem State.start_dunes : (s.start).dunes = s.dunes := rfl
@[simp] theorem State.start_slvs : (s.start).slvs = s.slvs := rfl
@[simp] theorem State.start_loam : (s.start).loam = s.loam := rfl
@[simp] theorem State.start_tilth : (s.start).tilth = s.tilth := rfl
@[simp] theorem State.start_phaseReports : (s.start).phaseReports = s.phaseReports := rfl
@[simp] theorem State.start_queues : (s.start).queues = s.queues := rfl
@[simp] theorem State.start_objs : (s.start).objs = s.objs := rfl
@[simp] theorem State.start_adm : (s.start).adm = s.adm := rfl
@[simp] theorem State.start_overdueCtr : (s.start).overdueCtr = s.overdueCtr := rfl
@[simp] theorem State.start_dispatchStopped : (s.start).dispatchStopped = s.dispatchStopped := rfl
@[simp] theorem State.start_slots : (s.start).slots = s.slots := rfl
@[simp] theorem State.start_batches : (s.start).batches = s.batches := rfl
@[simp] theorem State.start_quiCmds : (s.start).quiCmds = s.quiCmds := rfl
@[simp] theorem State.start_cows : (s.start).cows = s.cows := rfl
@[simp] theorem State.start_movers : (s.start).movers = s.movers := rfl
@[simp] theorem State.start_reports : (s.start).reports = s.reports := rfl
@[simp] theorem State.start_brokeSeq : (s.start).brokeSeq = s.brokeSeq := rfl
@[simp] theorem State.start_ftQueue : (s.start).ftQueue = s.ftQueue := rfl
@[simp] theorem State.start_lastPass : (s.start).lastPass = s.lastPass := rfl
@[simp] theorem State.start_trackers : (s.start).trackers = s.trackers := rfl
@[simp] theorem State.start_provNext : (s.start).provNext = s.provNext := rfl
@[simp] theorem State.start_brokeCopied : (s.start).brokeCopied = s.brokeCopied := rfl
@[simp] theorem State.start_poisonBy : (s.start).poisonBy = s.poisonBy := rfl
@[simp] theorem State.start_budgeted : (s.start).budgeted = s.budgeted := rfl
@[simp] theorem State.start_ftPoints : (s.start).ftPoints = s.ftPoints := rfl
@[simp] theorem State.start_macs : (s.start).macs = s.macs := rfl
@[simp] theorem State.start_log : (s.start).log = s.log := rfl
@[simp] theorem State.start_timAcc : (s.start).timAcc = s.timAcc := rfl
@[simp] theorem State.start_timRho : (s.start).timRho = s.timRho := rfl
@[simp] theorem State.start_timEpoch : (s.start).timEpoch = s.timEpoch := rfl
@[simp] theorem State.start_hbxs : (s.start).hbxs = s.hbxs := rfl
@[simp] theorem State.start_hbxq : (s.start).hbxq = s.hbxq := rfl
@[simp] theorem State.start_hbxCopy : (s.start).hbxCopy = s.hbxCopy := rfl
@[simp] theorem State.start_patrols : (s.start).patrols = s.patrols := rfl
@[simp] theorem State.start_zports : (s.start).zports = s.zports := rfl
@[simp] theorem State.start_pports : (s.start).pports = s.pports := rfl
@[simp] theorem State.start_csis : (s.start).csis = s.csis := rfl
@[simp] theorem State.start_flashCmd : (s.start).flashCmd = s.flashCmd := rfl
@[simp] theorem State.start_flashHeld : (s.start).flashHeld = s.flashHeld := rfl
@[simp] theorem State.start_flash : (s.start).flash = s.flash := rfl
@[simp] theorem State.start_flashRegs : (s.start).flashRegs = s.flashRegs := rfl
@[simp] theorem State.start_cans : (s.start).cans = s.cans := rfl
@[simp] theorem State.start_pins : (s.start).pins = s.pins := rfl
@[simp] theorem State.start_msis : (s.start).msis = s.msis := rfl
@[simp] theorem State.start_eip : (s.start).eip = s.eip := rfl
@[simp] theorem State.start_harts : (s.start).harts = s.harts := rfl
@[simp] theorem State.start_wires : (s.start).wires = s.wires := rfl
@[simp] theorem State.start_iotlb : (s.start).iotlb = s.iotlb := rfl
@[simp] theorem State.start_pmu : (s.start).pmu = s.pmu := rfl
@[simp] theorem State.start_thermal : (s.start).thermal = s.thermal := rfl
@[simp] theorem State.start_mti : (s.start).mti = s.mti := rfl
@[simp] theorem State.start_mtiStore : (s.start).mtiStore = s.mtiStore := rfl
@[simp] theorem State.start_rtcNext : (s.start).rtcNext = s.rtcNext := rfl
@[simp] theorem State.start_lostToLog : (s.start).lostToLog = s.lostToLog := rfl
@[simp] theorem State.start_fuses : (s.start).fuses = s.fuses := rfl
@[simp] theorem State.start_running : (s.start).running = s.running := rfl
@[simp] theorem State.start_mgt : (s.start).mgt = s.mgt := rfl
@[simp] theorem State.start_tap : (s.start).tap = s.tap := rfl
@[simp] theorem State.start_supply : (s.start).supply = s.supply := rfl
end startLaws

section sayLaws
variable (s : State) (r : Resp)
@[simp] theorem State.say_pending : (s.say r).pending = s.pending := rfl
@[simp] theorem State.say_resp : (s.say r).resp = r := rfl
@[simp] theorem State.say_out : (s.say r).out = s.out := rfl
@[simp] theorem State.say_freeCtr : (s.say r).freeCtr = s.freeCtr := rfl
@[simp] theorem State.say_idCtr : (s.say r).idCtr = s.idCtr := rfl
@[simp] theorem State.say_now : (s.say r).now = s.now := rfl
@[simp] theorem State.say_cyc : (s.say r).cyc = s.cyc := rfl
@[simp] theorem State.say_dlNow : (s.say r).dlNow = s.dlNow := rfl
@[simp] theorem State.say_regs : (s.say r).regs = s.regs := rfl
@[simp] theorem State.say_imageRegs : (s.say r).imageRegs = s.imageRegs := rfl
@[simp] theorem State.say_latches : (s.say r).latches = s.latches := rfl
@[simp] theorem State.say_held : (s.say r).held = s.held := rfl
@[simp] theorem State.say_pd : (s.say r).pd = s.pd := rfl
@[simp] theorem State.say_mem : (s.say r).mem = s.mem := rfl
@[simp] theorem State.say_upsets : (s.say r).upsets = s.upsets := rfl
@[simp] theorem State.say_chan : (s.say r).chan = s.chan := rfl
@[simp] theorem State.say_late : (s.say r).late = s.late := rfl
@[simp] theorem State.say_tags : (s.say r).tags = s.tags := rfl
@[simp] theorem State.say_checked : (s.say r).checked = s.checked := rfl
@[simp] theorem State.say_clusters : (s.say r).clusters = s.clusters := rfl
@[simp] theorem State.say_engines : (s.say r).engines = s.engines := rfl
@[simp] theorem State.say_dunes : (s.say r).dunes = s.dunes := rfl
@[simp] theorem State.say_slvs : (s.say r).slvs = s.slvs := rfl
@[simp] theorem State.say_loam : (s.say r).loam = s.loam := rfl
@[simp] theorem State.say_tilth : (s.say r).tilth = s.tilth := rfl
@[simp] theorem State.say_phaseReports : (s.say r).phaseReports = s.phaseReports := rfl
@[simp] theorem State.say_queues : (s.say r).queues = s.queues := rfl
@[simp] theorem State.say_objs : (s.say r).objs = s.objs := rfl
@[simp] theorem State.say_adm : (s.say r).adm = s.adm := rfl
@[simp] theorem State.say_overdueCtr : (s.say r).overdueCtr = s.overdueCtr := rfl
@[simp] theorem State.say_dispatchStopped : (s.say r).dispatchStopped = s.dispatchStopped := rfl
@[simp] theorem State.say_slots : (s.say r).slots = s.slots := rfl
@[simp] theorem State.say_batches : (s.say r).batches = s.batches := rfl
@[simp] theorem State.say_quiCmds : (s.say r).quiCmds = s.quiCmds := rfl
@[simp] theorem State.say_cows : (s.say r).cows = s.cows := rfl
@[simp] theorem State.say_movers : (s.say r).movers = s.movers := rfl
@[simp] theorem State.say_reports : (s.say r).reports = s.reports := rfl
@[simp] theorem State.say_brokeSeq : (s.say r).brokeSeq = s.brokeSeq := rfl
@[simp] theorem State.say_ftQueue : (s.say r).ftQueue = s.ftQueue := rfl
@[simp] theorem State.say_lastPass : (s.say r).lastPass = s.lastPass := rfl
@[simp] theorem State.say_trackers : (s.say r).trackers = s.trackers := rfl
@[simp] theorem State.say_provNext : (s.say r).provNext = s.provNext := rfl
@[simp] theorem State.say_brokeCopied : (s.say r).brokeCopied = s.brokeCopied := rfl
@[simp] theorem State.say_poisonBy : (s.say r).poisonBy = s.poisonBy := rfl
@[simp] theorem State.say_budgeted : (s.say r).budgeted = s.budgeted := rfl
@[simp] theorem State.say_ftPoints : (s.say r).ftPoints = s.ftPoints := rfl
@[simp] theorem State.say_macs : (s.say r).macs = s.macs := rfl
@[simp] theorem State.say_log : (s.say r).log = s.log := rfl
@[simp] theorem State.say_timAcc : (s.say r).timAcc = s.timAcc := rfl
@[simp] theorem State.say_timRho : (s.say r).timRho = s.timRho := rfl
@[simp] theorem State.say_timEpoch : (s.say r).timEpoch = s.timEpoch := rfl
@[simp] theorem State.say_hbxs : (s.say r).hbxs = s.hbxs := rfl
@[simp] theorem State.say_hbxq : (s.say r).hbxq = s.hbxq := rfl
@[simp] theorem State.say_hbxCopy : (s.say r).hbxCopy = s.hbxCopy := rfl
@[simp] theorem State.say_patrols : (s.say r).patrols = s.patrols := rfl
@[simp] theorem State.say_zports : (s.say r).zports = s.zports := rfl
@[simp] theorem State.say_pports : (s.say r).pports = s.pports := rfl
@[simp] theorem State.say_csis : (s.say r).csis = s.csis := rfl
@[simp] theorem State.say_flashCmd : (s.say r).flashCmd = s.flashCmd := rfl
@[simp] theorem State.say_flashHeld : (s.say r).flashHeld = s.flashHeld := rfl
@[simp] theorem State.say_flash : (s.say r).flash = s.flash := rfl
@[simp] theorem State.say_flashRegs : (s.say r).flashRegs = s.flashRegs := rfl
@[simp] theorem State.say_cans : (s.say r).cans = s.cans := rfl
@[simp] theorem State.say_pins : (s.say r).pins = s.pins := rfl
@[simp] theorem State.say_msis : (s.say r).msis = s.msis := rfl
@[simp] theorem State.say_eip : (s.say r).eip = s.eip := rfl
@[simp] theorem State.say_harts : (s.say r).harts = s.harts := rfl
@[simp] theorem State.say_wires : (s.say r).wires = s.wires := rfl
@[simp] theorem State.say_iotlb : (s.say r).iotlb = s.iotlb := rfl
@[simp] theorem State.say_pmu : (s.say r).pmu = s.pmu := rfl
@[simp] theorem State.say_thermal : (s.say r).thermal = s.thermal := rfl
@[simp] theorem State.say_mti : (s.say r).mti = s.mti := rfl
@[simp] theorem State.say_mtiStore : (s.say r).mtiStore = s.mtiStore := rfl
@[simp] theorem State.say_rtcNext : (s.say r).rtcNext = s.rtcNext := rfl
@[simp] theorem State.say_lostToLog : (s.say r).lostToLog = s.lostToLog := rfl
@[simp] theorem State.say_fuses : (s.say r).fuses = s.fuses := rfl
@[simp] theorem State.say_running : (s.say r).running = s.running := rfl
@[simp] theorem State.say_mgt : (s.say r).mgt = s.mgt := rfl
@[simp] theorem State.say_tap : (s.say r).tap = s.tap := rfl
@[simp] theorem State.say_supply : (s.say r).supply = s.supply := rfl
end sayLaws

section busErrorLaws
variable (s : State)
@[simp] theorem State.busError_pending : (s.busError).pending = s.pending := rfl
@[simp] theorem State.busError_resp : (s.busError).resp = .busError := rfl
@[simp] theorem State.busError_out : (s.busError).out = [] := rfl
@[simp] theorem State.busError_freeCtr : (s.busError).freeCtr = s.freeCtr := rfl
@[simp] theorem State.busError_idCtr : (s.busError).idCtr = s.idCtr := rfl
@[simp] theorem State.busError_now : (s.busError).now = s.now := rfl
@[simp] theorem State.busError_cyc : (s.busError).cyc = s.cyc := rfl
@[simp] theorem State.busError_dlNow : (s.busError).dlNow = s.dlNow := rfl
@[simp] theorem State.busError_regs : (s.busError).regs = s.regs := rfl
@[simp] theorem State.busError_imageRegs : (s.busError).imageRegs = s.imageRegs := rfl
@[simp] theorem State.busError_latches : (s.busError).latches = s.latches := rfl
@[simp] theorem State.busError_held : (s.busError).held = s.held := rfl
@[simp] theorem State.busError_pd : (s.busError).pd = s.pd := rfl
@[simp] theorem State.busError_mem : (s.busError).mem = s.mem := rfl
@[simp] theorem State.busError_upsets : (s.busError).upsets = s.upsets := rfl
@[simp] theorem State.busError_chan : (s.busError).chan = s.chan := rfl
@[simp] theorem State.busError_late : (s.busError).late = s.late := rfl
@[simp] theorem State.busError_tags : (s.busError).tags = s.tags := rfl
@[simp] theorem State.busError_checked : (s.busError).checked = s.checked := rfl
@[simp] theorem State.busError_clusters : (s.busError).clusters = s.clusters := rfl
@[simp] theorem State.busError_engines : (s.busError).engines = s.engines := rfl
@[simp] theorem State.busError_dunes : (s.busError).dunes = s.dunes := rfl
@[simp] theorem State.busError_slvs : (s.busError).slvs = s.slvs := rfl
@[simp] theorem State.busError_loam : (s.busError).loam = s.loam := rfl
@[simp] theorem State.busError_tilth : (s.busError).tilth = s.tilth := rfl
@[simp] theorem State.busError_phaseReports : (s.busError).phaseReports = s.phaseReports := rfl
@[simp] theorem State.busError_queues : (s.busError).queues = s.queues := rfl
@[simp] theorem State.busError_objs : (s.busError).objs = s.objs := rfl
@[simp] theorem State.busError_adm : (s.busError).adm = s.adm := rfl
@[simp] theorem State.busError_overdueCtr : (s.busError).overdueCtr = s.overdueCtr := rfl
@[simp] theorem State.busError_dispatchStopped : (s.busError).dispatchStopped = s.dispatchStopped := rfl
@[simp] theorem State.busError_slots : (s.busError).slots = s.slots := rfl
@[simp] theorem State.busError_batches : (s.busError).batches = s.batches := rfl
@[simp] theorem State.busError_quiCmds : (s.busError).quiCmds = s.quiCmds := rfl
@[simp] theorem State.busError_cows : (s.busError).cows = s.cows := rfl
@[simp] theorem State.busError_movers : (s.busError).movers = s.movers := rfl
@[simp] theorem State.busError_reports : (s.busError).reports = s.reports := rfl
@[simp] theorem State.busError_brokeSeq : (s.busError).brokeSeq = s.brokeSeq := rfl
@[simp] theorem State.busError_ftQueue : (s.busError).ftQueue = s.ftQueue := rfl
@[simp] theorem State.busError_lastPass : (s.busError).lastPass = s.lastPass := rfl
@[simp] theorem State.busError_trackers : (s.busError).trackers = s.trackers := rfl
@[simp] theorem State.busError_provNext : (s.busError).provNext = s.provNext := rfl
@[simp] theorem State.busError_brokeCopied : (s.busError).brokeCopied = s.brokeCopied := rfl
@[simp] theorem State.busError_poisonBy : (s.busError).poisonBy = s.poisonBy := rfl
@[simp] theorem State.busError_budgeted : (s.busError).budgeted = s.budgeted := rfl
@[simp] theorem State.busError_ftPoints : (s.busError).ftPoints = s.ftPoints := rfl
@[simp] theorem State.busError_macs : (s.busError).macs = s.macs := rfl
@[simp] theorem State.busError_log : (s.busError).log = s.log := rfl
@[simp] theorem State.busError_timAcc : (s.busError).timAcc = s.timAcc := rfl
@[simp] theorem State.busError_timRho : (s.busError).timRho = s.timRho := rfl
@[simp] theorem State.busError_timEpoch : (s.busError).timEpoch = s.timEpoch := rfl
@[simp] theorem State.busError_hbxs : (s.busError).hbxs = s.hbxs := rfl
@[simp] theorem State.busError_hbxq : (s.busError).hbxq = s.hbxq := rfl
@[simp] theorem State.busError_hbxCopy : (s.busError).hbxCopy = s.hbxCopy := rfl
@[simp] theorem State.busError_patrols : (s.busError).patrols = s.patrols := rfl
@[simp] theorem State.busError_zports : (s.busError).zports = s.zports := rfl
@[simp] theorem State.busError_pports : (s.busError).pports = s.pports := rfl
@[simp] theorem State.busError_csis : (s.busError).csis = s.csis := rfl
@[simp] theorem State.busError_flashCmd : (s.busError).flashCmd = s.flashCmd := rfl
@[simp] theorem State.busError_flashHeld : (s.busError).flashHeld = s.flashHeld := rfl
@[simp] theorem State.busError_flash : (s.busError).flash = s.flash := rfl
@[simp] theorem State.busError_flashRegs : (s.busError).flashRegs = s.flashRegs := rfl
@[simp] theorem State.busError_cans : (s.busError).cans = s.cans := rfl
@[simp] theorem State.busError_pins : (s.busError).pins = s.pins := rfl
@[simp] theorem State.busError_msis : (s.busError).msis = s.msis := rfl
@[simp] theorem State.busError_eip : (s.busError).eip = s.eip := rfl
@[simp] theorem State.busError_harts : (s.busError).harts = s.harts := rfl
@[simp] theorem State.busError_wires : (s.busError).wires = s.wires := rfl
@[simp] theorem State.busError_iotlb : (s.busError).iotlb = s.iotlb := rfl
@[simp] theorem State.busError_pmu : (s.busError).pmu = s.pmu := rfl
@[simp] theorem State.busError_thermal : (s.busError).thermal = s.thermal := rfl
@[simp] theorem State.busError_mti : (s.busError).mti = s.mti := rfl
@[simp] theorem State.busError_mtiStore : (s.busError).mtiStore = s.mtiStore := rfl
@[simp] theorem State.busError_rtcNext : (s.busError).rtcNext = s.rtcNext := rfl
@[simp] theorem State.busError_lostToLog : (s.busError).lostToLog = s.lostToLog := rfl
@[simp] theorem State.busError_fuses : (s.busError).fuses = s.fuses := rfl
@[simp] theorem State.busError_running : (s.busError).running = s.running := rfl
@[simp] theorem State.busError_mgt : (s.busError).mgt = s.mgt := rfl
@[simp] theorem State.busError_tap : (s.busError).tap = s.tap := rfl
@[simp] theorem State.busError_supply : (s.busError).supply = s.supply := rfl
end busErrorLaws

section emitLaws
variable (s : State) (o : Out)
@[simp] theorem State.emit_pending : (s.emit o).pending = s.pending := rfl
@[simp] theorem State.emit_resp : (s.emit o).resp = s.resp := rfl
@[simp] theorem State.emit_out : (s.emit o).out = s.out ++ [o] := rfl
@[simp] theorem State.emit_freeCtr : (s.emit o).freeCtr = s.freeCtr := rfl
@[simp] theorem State.emit_idCtr : (s.emit o).idCtr = s.idCtr := rfl
@[simp] theorem State.emit_now : (s.emit o).now = s.now := rfl
@[simp] theorem State.emit_cyc : (s.emit o).cyc = s.cyc := rfl
@[simp] theorem State.emit_dlNow : (s.emit o).dlNow = s.dlNow := rfl
@[simp] theorem State.emit_regs : (s.emit o).regs = s.regs := rfl
@[simp] theorem State.emit_imageRegs : (s.emit o).imageRegs = s.imageRegs := rfl
@[simp] theorem State.emit_latches : (s.emit o).latches = s.latches := rfl
@[simp] theorem State.emit_held : (s.emit o).held = s.held := rfl
@[simp] theorem State.emit_pd : (s.emit o).pd = s.pd := rfl
@[simp] theorem State.emit_mem : (s.emit o).mem = s.mem := rfl
@[simp] theorem State.emit_upsets : (s.emit o).upsets = s.upsets := rfl
@[simp] theorem State.emit_chan : (s.emit o).chan = s.chan := rfl
@[simp] theorem State.emit_late : (s.emit o).late = s.late := rfl
@[simp] theorem State.emit_tags : (s.emit o).tags = s.tags := rfl
@[simp] theorem State.emit_checked : (s.emit o).checked = s.checked := rfl
@[simp] theorem State.emit_clusters : (s.emit o).clusters = s.clusters := rfl
@[simp] theorem State.emit_engines : (s.emit o).engines = s.engines := rfl
@[simp] theorem State.emit_dunes : (s.emit o).dunes = s.dunes := rfl
@[simp] theorem State.emit_slvs : (s.emit o).slvs = s.slvs := rfl
@[simp] theorem State.emit_loam : (s.emit o).loam = s.loam := rfl
@[simp] theorem State.emit_tilth : (s.emit o).tilth = s.tilth := rfl
@[simp] theorem State.emit_phaseReports : (s.emit o).phaseReports = s.phaseReports := rfl
@[simp] theorem State.emit_queues : (s.emit o).queues = s.queues := rfl
@[simp] theorem State.emit_objs : (s.emit o).objs = s.objs := rfl
@[simp] theorem State.emit_adm : (s.emit o).adm = s.adm := rfl
@[simp] theorem State.emit_overdueCtr : (s.emit o).overdueCtr = s.overdueCtr := rfl
@[simp] theorem State.emit_dispatchStopped : (s.emit o).dispatchStopped = s.dispatchStopped := rfl
@[simp] theorem State.emit_slots : (s.emit o).slots = s.slots := rfl
@[simp] theorem State.emit_batches : (s.emit o).batches = s.batches := rfl
@[simp] theorem State.emit_quiCmds : (s.emit o).quiCmds = s.quiCmds := rfl
@[simp] theorem State.emit_cows : (s.emit o).cows = s.cows := rfl
@[simp] theorem State.emit_movers : (s.emit o).movers = s.movers := rfl
@[simp] theorem State.emit_reports : (s.emit o).reports = s.reports := rfl
@[simp] theorem State.emit_brokeSeq : (s.emit o).brokeSeq = s.brokeSeq := rfl
@[simp] theorem State.emit_ftQueue : (s.emit o).ftQueue = s.ftQueue := rfl
@[simp] theorem State.emit_lastPass : (s.emit o).lastPass = s.lastPass := rfl
@[simp] theorem State.emit_trackers : (s.emit o).trackers = s.trackers := rfl
@[simp] theorem State.emit_provNext : (s.emit o).provNext = s.provNext := rfl
@[simp] theorem State.emit_brokeCopied : (s.emit o).brokeCopied = s.brokeCopied := rfl
@[simp] theorem State.emit_poisonBy : (s.emit o).poisonBy = s.poisonBy := rfl
@[simp] theorem State.emit_budgeted : (s.emit o).budgeted = s.budgeted := rfl
@[simp] theorem State.emit_ftPoints : (s.emit o).ftPoints = s.ftPoints := rfl
@[simp] theorem State.emit_macs : (s.emit o).macs = s.macs := rfl
@[simp] theorem State.emit_log : (s.emit o).log = s.log := rfl
@[simp] theorem State.emit_timAcc : (s.emit o).timAcc = s.timAcc := rfl
@[simp] theorem State.emit_timRho : (s.emit o).timRho = s.timRho := rfl
@[simp] theorem State.emit_timEpoch : (s.emit o).timEpoch = s.timEpoch := rfl
@[simp] theorem State.emit_hbxs : (s.emit o).hbxs = s.hbxs := rfl
@[simp] theorem State.emit_hbxq : (s.emit o).hbxq = s.hbxq := rfl
@[simp] theorem State.emit_hbxCopy : (s.emit o).hbxCopy = s.hbxCopy := rfl
@[simp] theorem State.emit_patrols : (s.emit o).patrols = s.patrols := rfl
@[simp] theorem State.emit_zports : (s.emit o).zports = s.zports := rfl
@[simp] theorem State.emit_pports : (s.emit o).pports = s.pports := rfl
@[simp] theorem State.emit_csis : (s.emit o).csis = s.csis := rfl
@[simp] theorem State.emit_flashCmd : (s.emit o).flashCmd = s.flashCmd := rfl
@[simp] theorem State.emit_flashHeld : (s.emit o).flashHeld = s.flashHeld := rfl
@[simp] theorem State.emit_flash : (s.emit o).flash = s.flash := rfl
@[simp] theorem State.emit_flashRegs : (s.emit o).flashRegs = s.flashRegs := rfl
@[simp] theorem State.emit_cans : (s.emit o).cans = s.cans := rfl
@[simp] theorem State.emit_pins : (s.emit o).pins = s.pins := rfl
@[simp] theorem State.emit_msis : (s.emit o).msis = s.msis := rfl
@[simp] theorem State.emit_eip : (s.emit o).eip = s.eip := rfl
@[simp] theorem State.emit_harts : (s.emit o).harts = s.harts := rfl
@[simp] theorem State.emit_wires : (s.emit o).wires = s.wires := rfl
@[simp] theorem State.emit_iotlb : (s.emit o).iotlb = s.iotlb := rfl
@[simp] theorem State.emit_pmu : (s.emit o).pmu = s.pmu := rfl
@[simp] theorem State.emit_thermal : (s.emit o).thermal = s.thermal := rfl
@[simp] theorem State.emit_mti : (s.emit o).mti = s.mti := rfl
@[simp] theorem State.emit_mtiStore : (s.emit o).mtiStore = s.mtiStore := rfl
@[simp] theorem State.emit_rtcNext : (s.emit o).rtcNext = s.rtcNext := rfl
@[simp] theorem State.emit_lostToLog : (s.emit o).lostToLog = s.lostToLog := rfl
@[simp] theorem State.emit_fuses : (s.emit o).fuses = s.fuses := rfl
@[simp] theorem State.emit_running : (s.emit o).running = s.running := rfl
@[simp] theorem State.emit_mgt : (s.emit o).mgt = s.mgt := rfl
@[simp] theorem State.emit_tap : (s.emit o).tap = s.tap := rfl
@[simp] theorem State.emit_supply : (s.emit o).supply = s.supply := rfl
end emitLaws

section tookIdLaws
variable (s : State)
@[simp] theorem State.tookId_pending : (s.tookId).pending = s.pending := rfl
@[simp] theorem State.tookId_resp : (s.tookId).resp = s.resp := rfl
@[simp] theorem State.tookId_out : (s.tookId).out = s.out := rfl
@[simp] theorem State.tookId_freeCtr : (s.tookId).freeCtr = s.freeCtr := rfl
@[simp] theorem State.tookId_idCtr : (s.tookId).idCtr = s.idCtr + 1 := rfl
@[simp] theorem State.tookId_now : (s.tookId).now = s.now := rfl
@[simp] theorem State.tookId_cyc : (s.tookId).cyc = s.cyc := rfl
@[simp] theorem State.tookId_dlNow : (s.tookId).dlNow = s.dlNow := rfl
@[simp] theorem State.tookId_regs : (s.tookId).regs = s.regs := rfl
@[simp] theorem State.tookId_imageRegs : (s.tookId).imageRegs = s.imageRegs := rfl
@[simp] theorem State.tookId_latches : (s.tookId).latches = s.latches := rfl
@[simp] theorem State.tookId_held : (s.tookId).held = s.held := rfl
@[simp] theorem State.tookId_pd : (s.tookId).pd = s.pd := rfl
@[simp] theorem State.tookId_mem : (s.tookId).mem = s.mem := rfl
@[simp] theorem State.tookId_upsets : (s.tookId).upsets = s.upsets := rfl
@[simp] theorem State.tookId_chan : (s.tookId).chan = s.chan := rfl
@[simp] theorem State.tookId_late : (s.tookId).late = s.late := rfl
@[simp] theorem State.tookId_tags : (s.tookId).tags = s.tags := rfl
@[simp] theorem State.tookId_checked : (s.tookId).checked = s.checked := rfl
@[simp] theorem State.tookId_clusters : (s.tookId).clusters = s.clusters := rfl
@[simp] theorem State.tookId_engines : (s.tookId).engines = s.engines := rfl
@[simp] theorem State.tookId_dunes : (s.tookId).dunes = s.dunes := rfl
@[simp] theorem State.tookId_slvs : (s.tookId).slvs = s.slvs := rfl
@[simp] theorem State.tookId_loam : (s.tookId).loam = s.loam := rfl
@[simp] theorem State.tookId_tilth : (s.tookId).tilth = s.tilth := rfl
@[simp] theorem State.tookId_phaseReports : (s.tookId).phaseReports = s.phaseReports := rfl
@[simp] theorem State.tookId_queues : (s.tookId).queues = s.queues := rfl
@[simp] theorem State.tookId_objs : (s.tookId).objs = s.objs := rfl
@[simp] theorem State.tookId_adm : (s.tookId).adm = s.adm := rfl
@[simp] theorem State.tookId_overdueCtr : (s.tookId).overdueCtr = s.overdueCtr := rfl
@[simp] theorem State.tookId_dispatchStopped : (s.tookId).dispatchStopped = s.dispatchStopped := rfl
@[simp] theorem State.tookId_slots : (s.tookId).slots = s.slots := rfl
@[simp] theorem State.tookId_batches : (s.tookId).batches = s.batches := rfl
@[simp] theorem State.tookId_quiCmds : (s.tookId).quiCmds = s.quiCmds := rfl
@[simp] theorem State.tookId_cows : (s.tookId).cows = s.cows := rfl
@[simp] theorem State.tookId_movers : (s.tookId).movers = s.movers := rfl
@[simp] theorem State.tookId_reports : (s.tookId).reports = s.reports := rfl
@[simp] theorem State.tookId_brokeSeq : (s.tookId).brokeSeq = s.brokeSeq := rfl
@[simp] theorem State.tookId_ftQueue : (s.tookId).ftQueue = s.ftQueue := rfl
@[simp] theorem State.tookId_lastPass : (s.tookId).lastPass = s.lastPass := rfl
@[simp] theorem State.tookId_trackers : (s.tookId).trackers = s.trackers := rfl
@[simp] theorem State.tookId_provNext : (s.tookId).provNext = s.provNext := rfl
@[simp] theorem State.tookId_brokeCopied : (s.tookId).brokeCopied = s.brokeCopied := rfl
@[simp] theorem State.tookId_poisonBy : (s.tookId).poisonBy = s.poisonBy := rfl
@[simp] theorem State.tookId_budgeted : (s.tookId).budgeted = s.budgeted := rfl
@[simp] theorem State.tookId_ftPoints : (s.tookId).ftPoints = s.ftPoints := rfl
@[simp] theorem State.tookId_macs : (s.tookId).macs = s.macs := rfl
@[simp] theorem State.tookId_log : (s.tookId).log = s.log := rfl
@[simp] theorem State.tookId_timAcc : (s.tookId).timAcc = s.timAcc := rfl
@[simp] theorem State.tookId_timRho : (s.tookId).timRho = s.timRho := rfl
@[simp] theorem State.tookId_timEpoch : (s.tookId).timEpoch = s.timEpoch := rfl
@[simp] theorem State.tookId_hbxs : (s.tookId).hbxs = s.hbxs := rfl
@[simp] theorem State.tookId_hbxq : (s.tookId).hbxq = s.hbxq := rfl
@[simp] theorem State.tookId_hbxCopy : (s.tookId).hbxCopy = s.hbxCopy := rfl
@[simp] theorem State.tookId_patrols : (s.tookId).patrols = s.patrols := rfl
@[simp] theorem State.tookId_zports : (s.tookId).zports = s.zports := rfl
@[simp] theorem State.tookId_pports : (s.tookId).pports = s.pports := rfl
@[simp] theorem State.tookId_csis : (s.tookId).csis = s.csis := rfl
@[simp] theorem State.tookId_flashCmd : (s.tookId).flashCmd = s.flashCmd := rfl
@[simp] theorem State.tookId_flashHeld : (s.tookId).flashHeld = s.flashHeld := rfl
@[simp] theorem State.tookId_flash : (s.tookId).flash = s.flash := rfl
@[simp] theorem State.tookId_flashRegs : (s.tookId).flashRegs = s.flashRegs := rfl
@[simp] theorem State.tookId_cans : (s.tookId).cans = s.cans := rfl
@[simp] theorem State.tookId_pins : (s.tookId).pins = s.pins := rfl
@[simp] theorem State.tookId_msis : (s.tookId).msis = s.msis := rfl
@[simp] theorem State.tookId_eip : (s.tookId).eip = s.eip := rfl
@[simp] theorem State.tookId_harts : (s.tookId).harts = s.harts := rfl
@[simp] theorem State.tookId_wires : (s.tookId).wires = s.wires := rfl
@[simp] theorem State.tookId_iotlb : (s.tookId).iotlb = s.iotlb := rfl
@[simp] theorem State.tookId_pmu : (s.tookId).pmu = s.pmu := rfl
@[simp] theorem State.tookId_thermal : (s.tookId).thermal = s.thermal := rfl
@[simp] theorem State.tookId_mti : (s.tookId).mti = s.mti := rfl
@[simp] theorem State.tookId_mtiStore : (s.tookId).mtiStore = s.mtiStore := rfl
@[simp] theorem State.tookId_rtcNext : (s.tookId).rtcNext = s.rtcNext := rfl
@[simp] theorem State.tookId_lostToLog : (s.tookId).lostToLog = s.lostToLog := rfl
@[simp] theorem State.tookId_fuses : (s.tookId).fuses = s.fuses := rfl
@[simp] theorem State.tookId_running : (s.tookId).running = s.running := rfl
@[simp] theorem State.tookId_mgt : (s.tookId).mgt = s.mgt := rfl
@[simp] theorem State.tookId_tap : (s.tookId).tap = s.tap := rfl
@[simp] theorem State.tookId_supply : (s.tookId).supply = s.supply := rfl
end tookIdLaws

section tookFreeLaws
variable (s : State) (n : Nat)
@[simp] theorem State.tookFree_pending : (s.tookFree n).pending = s.pending := rfl
@[simp] theorem State.tookFree_resp : (s.tookFree n).resp = s.resp := rfl
@[simp] theorem State.tookFree_out : (s.tookFree n).out = s.out := rfl
@[simp] theorem State.tookFree_freeCtr : (s.tookFree n).freeCtr = s.freeCtr + n := rfl
@[simp] theorem State.tookFree_idCtr : (s.tookFree n).idCtr = s.idCtr := rfl
@[simp] theorem State.tookFree_now : (s.tookFree n).now = s.now := rfl
@[simp] theorem State.tookFree_cyc : (s.tookFree n).cyc = s.cyc := rfl
@[simp] theorem State.tookFree_dlNow : (s.tookFree n).dlNow = s.dlNow := rfl
@[simp] theorem State.tookFree_regs : (s.tookFree n).regs = s.regs := rfl
@[simp] theorem State.tookFree_imageRegs : (s.tookFree n).imageRegs = s.imageRegs := rfl
@[simp] theorem State.tookFree_latches : (s.tookFree n).latches = s.latches := rfl
@[simp] theorem State.tookFree_held : (s.tookFree n).held = s.held := rfl
@[simp] theorem State.tookFree_pd : (s.tookFree n).pd = s.pd := rfl
@[simp] theorem State.tookFree_mem : (s.tookFree n).mem = s.mem := rfl
@[simp] theorem State.tookFree_upsets : (s.tookFree n).upsets = s.upsets := rfl
@[simp] theorem State.tookFree_chan : (s.tookFree n).chan = s.chan := rfl
@[simp] theorem State.tookFree_late : (s.tookFree n).late = s.late := rfl
@[simp] theorem State.tookFree_tags : (s.tookFree n).tags = s.tags := rfl
@[simp] theorem State.tookFree_checked : (s.tookFree n).checked = s.checked := rfl
@[simp] theorem State.tookFree_clusters : (s.tookFree n).clusters = s.clusters := rfl
@[simp] theorem State.tookFree_engines : (s.tookFree n).engines = s.engines := rfl
@[simp] theorem State.tookFree_dunes : (s.tookFree n).dunes = s.dunes := rfl
@[simp] theorem State.tookFree_slvs : (s.tookFree n).slvs = s.slvs := rfl
@[simp] theorem State.tookFree_loam : (s.tookFree n).loam = s.loam := rfl
@[simp] theorem State.tookFree_tilth : (s.tookFree n).tilth = s.tilth := rfl
@[simp] theorem State.tookFree_phaseReports : (s.tookFree n).phaseReports = s.phaseReports := rfl
@[simp] theorem State.tookFree_queues : (s.tookFree n).queues = s.queues := rfl
@[simp] theorem State.tookFree_objs : (s.tookFree n).objs = s.objs := rfl
@[simp] theorem State.tookFree_adm : (s.tookFree n).adm = s.adm := rfl
@[simp] theorem State.tookFree_overdueCtr : (s.tookFree n).overdueCtr = s.overdueCtr := rfl
@[simp] theorem State.tookFree_dispatchStopped : (s.tookFree n).dispatchStopped = s.dispatchStopped := rfl
@[simp] theorem State.tookFree_slots : (s.tookFree n).slots = s.slots := rfl
@[simp] theorem State.tookFree_batches : (s.tookFree n).batches = s.batches := rfl
@[simp] theorem State.tookFree_quiCmds : (s.tookFree n).quiCmds = s.quiCmds := rfl
@[simp] theorem State.tookFree_cows : (s.tookFree n).cows = s.cows := rfl
@[simp] theorem State.tookFree_movers : (s.tookFree n).movers = s.movers := rfl
@[simp] theorem State.tookFree_reports : (s.tookFree n).reports = s.reports := rfl
@[simp] theorem State.tookFree_brokeSeq : (s.tookFree n).brokeSeq = s.brokeSeq := rfl
@[simp] theorem State.tookFree_ftQueue : (s.tookFree n).ftQueue = s.ftQueue := rfl
@[simp] theorem State.tookFree_lastPass : (s.tookFree n).lastPass = s.lastPass := rfl
@[simp] theorem State.tookFree_trackers : (s.tookFree n).trackers = s.trackers := rfl
@[simp] theorem State.tookFree_provNext : (s.tookFree n).provNext = s.provNext := rfl
@[simp] theorem State.tookFree_brokeCopied : (s.tookFree n).brokeCopied = s.brokeCopied := rfl
@[simp] theorem State.tookFree_poisonBy : (s.tookFree n).poisonBy = s.poisonBy := rfl
@[simp] theorem State.tookFree_budgeted : (s.tookFree n).budgeted = s.budgeted := rfl
@[simp] theorem State.tookFree_ftPoints : (s.tookFree n).ftPoints = s.ftPoints := rfl
@[simp] theorem State.tookFree_macs : (s.tookFree n).macs = s.macs := rfl
@[simp] theorem State.tookFree_log : (s.tookFree n).log = s.log := rfl
@[simp] theorem State.tookFree_timAcc : (s.tookFree n).timAcc = s.timAcc := rfl
@[simp] theorem State.tookFree_timRho : (s.tookFree n).timRho = s.timRho := rfl
@[simp] theorem State.tookFree_timEpoch : (s.tookFree n).timEpoch = s.timEpoch := rfl
@[simp] theorem State.tookFree_hbxs : (s.tookFree n).hbxs = s.hbxs := rfl
@[simp] theorem State.tookFree_hbxq : (s.tookFree n).hbxq = s.hbxq := rfl
@[simp] theorem State.tookFree_hbxCopy : (s.tookFree n).hbxCopy = s.hbxCopy := rfl
@[simp] theorem State.tookFree_patrols : (s.tookFree n).patrols = s.patrols := rfl
@[simp] theorem State.tookFree_zports : (s.tookFree n).zports = s.zports := rfl
@[simp] theorem State.tookFree_pports : (s.tookFree n).pports = s.pports := rfl
@[simp] theorem State.tookFree_csis : (s.tookFree n).csis = s.csis := rfl
@[simp] theorem State.tookFree_flashCmd : (s.tookFree n).flashCmd = s.flashCmd := rfl
@[simp] theorem State.tookFree_flashHeld : (s.tookFree n).flashHeld = s.flashHeld := rfl
@[simp] theorem State.tookFree_flash : (s.tookFree n).flash = s.flash := rfl
@[simp] theorem State.tookFree_flashRegs : (s.tookFree n).flashRegs = s.flashRegs := rfl
@[simp] theorem State.tookFree_cans : (s.tookFree n).cans = s.cans := rfl
@[simp] theorem State.tookFree_pins : (s.tookFree n).pins = s.pins := rfl
@[simp] theorem State.tookFree_msis : (s.tookFree n).msis = s.msis := rfl
@[simp] theorem State.tookFree_eip : (s.tookFree n).eip = s.eip := rfl
@[simp] theorem State.tookFree_harts : (s.tookFree n).harts = s.harts := rfl
@[simp] theorem State.tookFree_wires : (s.tookFree n).wires = s.wires := rfl
@[simp] theorem State.tookFree_iotlb : (s.tookFree n).iotlb = s.iotlb := rfl
@[simp] theorem State.tookFree_pmu : (s.tookFree n).pmu = s.pmu := rfl
@[simp] theorem State.tookFree_thermal : (s.tookFree n).thermal = s.thermal := rfl
@[simp] theorem State.tookFree_mti : (s.tookFree n).mti = s.mti := rfl
@[simp] theorem State.tookFree_mtiStore : (s.tookFree n).mtiStore = s.mtiStore := rfl
@[simp] theorem State.tookFree_rtcNext : (s.tookFree n).rtcNext = s.rtcNext := rfl
@[simp] theorem State.tookFree_lostToLog : (s.tookFree n).lostToLog = s.lostToLog := rfl
@[simp] theorem State.tookFree_fuses : (s.tookFree n).fuses = s.fuses := rfl
@[simp] theorem State.tookFree_running : (s.tookFree n).running = s.running := rfl
@[simp] theorem State.tookFree_mgt : (s.tookFree n).mgt = s.mgt := rfl
@[simp] theorem State.tookFree_tap : (s.tookFree n).tap = s.tap := rfl
@[simp] theorem State.tookFree_supply : (s.tookFree n).supply = s.supply := rfl
end tookFreeLaws

section wrLaws
variable (s : State) (a : Nat) (w : Word)
@[simp] theorem State.wr_pending : (s.wr a w).pending = s.pending := rfl
@[simp] theorem State.wr_resp : (s.wr a w).resp = s.resp := rfl
@[simp] theorem State.wr_out : (s.wr a w).out = s.out := rfl
@[simp] theorem State.wr_freeCtr : (s.wr a w).freeCtr = s.freeCtr := rfl
@[simp] theorem State.wr_idCtr : (s.wr a w).idCtr = s.idCtr := rfl
@[simp] theorem State.wr_now : (s.wr a w).now = s.now := rfl
@[simp] theorem State.wr_cyc : (s.wr a w).cyc = s.cyc := rfl
@[simp] theorem State.wr_dlNow : (s.wr a w).dlNow = s.dlNow := rfl
@[simp] theorem State.wr_regs : (s.wr a w).regs = Sparse.set regReset s.regs a w := rfl
@[simp] theorem State.wr_imageRegs : (s.wr a w).imageRegs = s.imageRegs := rfl
@[simp] theorem State.wr_latches : (s.wr a w).latches = s.latches := rfl
@[simp] theorem State.wr_held : (s.wr a w).held = s.held := rfl
@[simp] theorem State.wr_pd : (s.wr a w).pd = s.pd := rfl
@[simp] theorem State.wr_mem : (s.wr a w).mem = s.mem := rfl
@[simp] theorem State.wr_upsets : (s.wr a w).upsets = s.upsets := rfl
@[simp] theorem State.wr_chan : (s.wr a w).chan = s.chan := rfl
@[simp] theorem State.wr_late : (s.wr a w).late = s.late := rfl
@[simp] theorem State.wr_tags : (s.wr a w).tags = s.tags := rfl
@[simp] theorem State.wr_checked : (s.wr a w).checked = s.checked := rfl
@[simp] theorem State.wr_clusters : (s.wr a w).clusters = s.clusters := rfl
@[simp] theorem State.wr_engines : (s.wr a w).engines = s.engines := rfl
@[simp] theorem State.wr_dunes : (s.wr a w).dunes = s.dunes := rfl
@[simp] theorem State.wr_slvs : (s.wr a w).slvs = s.slvs := rfl
@[simp] theorem State.wr_loam : (s.wr a w).loam = s.loam := rfl
@[simp] theorem State.wr_tilth : (s.wr a w).tilth = s.tilth := rfl
@[simp] theorem State.wr_phaseReports : (s.wr a w).phaseReports = s.phaseReports := rfl
@[simp] theorem State.wr_queues : (s.wr a w).queues = s.queues := rfl
@[simp] theorem State.wr_objs : (s.wr a w).objs = s.objs := rfl
@[simp] theorem State.wr_adm : (s.wr a w).adm = s.adm := rfl
@[simp] theorem State.wr_overdueCtr : (s.wr a w).overdueCtr = s.overdueCtr := rfl
@[simp] theorem State.wr_dispatchStopped : (s.wr a w).dispatchStopped = s.dispatchStopped := rfl
@[simp] theorem State.wr_slots : (s.wr a w).slots = s.slots := rfl
@[simp] theorem State.wr_batches : (s.wr a w).batches = s.batches := rfl
@[simp] theorem State.wr_quiCmds : (s.wr a w).quiCmds = s.quiCmds := rfl
@[simp] theorem State.wr_cows : (s.wr a w).cows = s.cows := rfl
@[simp] theorem State.wr_movers : (s.wr a w).movers = s.movers := rfl
@[simp] theorem State.wr_reports : (s.wr a w).reports = s.reports := rfl
@[simp] theorem State.wr_brokeSeq : (s.wr a w).brokeSeq = s.brokeSeq := rfl
@[simp] theorem State.wr_ftQueue : (s.wr a w).ftQueue = s.ftQueue := rfl
@[simp] theorem State.wr_lastPass : (s.wr a w).lastPass = s.lastPass := rfl
@[simp] theorem State.wr_trackers : (s.wr a w).trackers = s.trackers := rfl
@[simp] theorem State.wr_provNext : (s.wr a w).provNext = s.provNext := rfl
@[simp] theorem State.wr_brokeCopied : (s.wr a w).brokeCopied = s.brokeCopied := rfl
@[simp] theorem State.wr_poisonBy : (s.wr a w).poisonBy = s.poisonBy := rfl
@[simp] theorem State.wr_budgeted : (s.wr a w).budgeted = s.budgeted := rfl
@[simp] theorem State.wr_ftPoints : (s.wr a w).ftPoints = s.ftPoints := rfl
@[simp] theorem State.wr_macs : (s.wr a w).macs = s.macs := rfl
@[simp] theorem State.wr_log : (s.wr a w).log = s.log := rfl
@[simp] theorem State.wr_timAcc : (s.wr a w).timAcc = s.timAcc := rfl
@[simp] theorem State.wr_timRho : (s.wr a w).timRho = s.timRho := rfl
@[simp] theorem State.wr_timEpoch : (s.wr a w).timEpoch = s.timEpoch := rfl
@[simp] theorem State.wr_hbxs : (s.wr a w).hbxs = s.hbxs := rfl
@[simp] theorem State.wr_hbxq : (s.wr a w).hbxq = s.hbxq := rfl
@[simp] theorem State.wr_hbxCopy : (s.wr a w).hbxCopy = s.hbxCopy := rfl
@[simp] theorem State.wr_patrols : (s.wr a w).patrols = s.patrols := rfl
@[simp] theorem State.wr_zports : (s.wr a w).zports = s.zports := rfl
@[simp] theorem State.wr_pports : (s.wr a w).pports = s.pports := rfl
@[simp] theorem State.wr_csis : (s.wr a w).csis = s.csis := rfl
@[simp] theorem State.wr_flashCmd : (s.wr a w).flashCmd = s.flashCmd := rfl
@[simp] theorem State.wr_flashHeld : (s.wr a w).flashHeld = s.flashHeld := rfl
@[simp] theorem State.wr_flash : (s.wr a w).flash = s.flash := rfl
@[simp] theorem State.wr_flashRegs : (s.wr a w).flashRegs = s.flashRegs := rfl
@[simp] theorem State.wr_cans : (s.wr a w).cans = s.cans := rfl
@[simp] theorem State.wr_pins : (s.wr a w).pins = s.pins := rfl
@[simp] theorem State.wr_msis : (s.wr a w).msis = s.msis := rfl
@[simp] theorem State.wr_eip : (s.wr a w).eip = s.eip := rfl
@[simp] theorem State.wr_harts : (s.wr a w).harts = s.harts := rfl
@[simp] theorem State.wr_wires : (s.wr a w).wires = s.wires := rfl
@[simp] theorem State.wr_iotlb : (s.wr a w).iotlb = s.iotlb := rfl
@[simp] theorem State.wr_pmu : (s.wr a w).pmu = s.pmu := rfl
@[simp] theorem State.wr_thermal : (s.wr a w).thermal = s.thermal := rfl
@[simp] theorem State.wr_mti : (s.wr a w).mti = s.mti := rfl
@[simp] theorem State.wr_mtiStore : (s.wr a w).mtiStore = s.mtiStore := rfl
@[simp] theorem State.wr_rtcNext : (s.wr a w).rtcNext = s.rtcNext := rfl
@[simp] theorem State.wr_lostToLog : (s.wr a w).lostToLog = s.lostToLog := rfl
@[simp] theorem State.wr_fuses : (s.wr a w).fuses = s.fuses := rfl
@[simp] theorem State.wr_running : (s.wr a w).running = s.running := rfl
@[simp] theorem State.wr_mgt : (s.wr a w).mgt = s.mgt := rfl
@[simp] theorem State.wr_tap : (s.wr a w).tap = s.tap := rfl
@[simp] theorem State.wr_supply : (s.wr a w).supply = s.supply := rfl
end wrLaws

section setFLaws
variable (s : State) (f : Fld) (v : Nat)
@[simp] theorem State.setF_pending : (s.setF f v).pending = s.pending := rfl
@[simp] theorem State.setF_resp : (s.setF f v).resp = s.resp := rfl
@[simp] theorem State.setF_out : (s.setF f v).out = s.out := rfl
@[simp] theorem State.setF_freeCtr : (s.setF f v).freeCtr = s.freeCtr := rfl
@[simp] theorem State.setF_idCtr : (s.setF f v).idCtr = s.idCtr := rfl
@[simp] theorem State.setF_now : (s.setF f v).now = s.now := rfl
@[simp] theorem State.setF_cyc : (s.setF f v).cyc = s.cyc := rfl
@[simp] theorem State.setF_dlNow : (s.setF f v).dlNow = s.dlNow := rfl
@[simp] theorem State.setF_regs : (s.setF f v).regs = Sparse.set regReset s.regs f.addr (ins (s.rd f.addr) f.hi f.lo v) := rfl
@[simp] theorem State.setF_imageRegs : (s.setF f v).imageRegs = s.imageRegs := rfl
@[simp] theorem State.setF_latches : (s.setF f v).latches = s.latches := rfl
@[simp] theorem State.setF_held : (s.setF f v).held = s.held := rfl
@[simp] theorem State.setF_pd : (s.setF f v).pd = s.pd := rfl
@[simp] theorem State.setF_mem : (s.setF f v).mem = s.mem := rfl
@[simp] theorem State.setF_upsets : (s.setF f v).upsets = s.upsets := rfl
@[simp] theorem State.setF_chan : (s.setF f v).chan = s.chan := rfl
@[simp] theorem State.setF_late : (s.setF f v).late = s.late := rfl
@[simp] theorem State.setF_tags : (s.setF f v).tags = s.tags := rfl
@[simp] theorem State.setF_checked : (s.setF f v).checked = s.checked := rfl
@[simp] theorem State.setF_clusters : (s.setF f v).clusters = s.clusters := rfl
@[simp] theorem State.setF_engines : (s.setF f v).engines = s.engines := rfl
@[simp] theorem State.setF_dunes : (s.setF f v).dunes = s.dunes := rfl
@[simp] theorem State.setF_slvs : (s.setF f v).slvs = s.slvs := rfl
@[simp] theorem State.setF_loam : (s.setF f v).loam = s.loam := rfl
@[simp] theorem State.setF_tilth : (s.setF f v).tilth = s.tilth := rfl
@[simp] theorem State.setF_phaseReports : (s.setF f v).phaseReports = s.phaseReports := rfl
@[simp] theorem State.setF_queues : (s.setF f v).queues = s.queues := rfl
@[simp] theorem State.setF_objs : (s.setF f v).objs = s.objs := rfl
@[simp] theorem State.setF_adm : (s.setF f v).adm = s.adm := rfl
@[simp] theorem State.setF_overdueCtr : (s.setF f v).overdueCtr = s.overdueCtr := rfl
@[simp] theorem State.setF_dispatchStopped : (s.setF f v).dispatchStopped = s.dispatchStopped := rfl
@[simp] theorem State.setF_slots : (s.setF f v).slots = s.slots := rfl
@[simp] theorem State.setF_batches : (s.setF f v).batches = s.batches := rfl
@[simp] theorem State.setF_quiCmds : (s.setF f v).quiCmds = s.quiCmds := rfl
@[simp] theorem State.setF_cows : (s.setF f v).cows = s.cows := rfl
@[simp] theorem State.setF_movers : (s.setF f v).movers = s.movers := rfl
@[simp] theorem State.setF_reports : (s.setF f v).reports = s.reports := rfl
@[simp] theorem State.setF_brokeSeq : (s.setF f v).brokeSeq = s.brokeSeq := rfl
@[simp] theorem State.setF_ftQueue : (s.setF f v).ftQueue = s.ftQueue := rfl
@[simp] theorem State.setF_lastPass : (s.setF f v).lastPass = s.lastPass := rfl
@[simp] theorem State.setF_trackers : (s.setF f v).trackers = s.trackers := rfl
@[simp] theorem State.setF_provNext : (s.setF f v).provNext = s.provNext := rfl
@[simp] theorem State.setF_brokeCopied : (s.setF f v).brokeCopied = s.brokeCopied := rfl
@[simp] theorem State.setF_poisonBy : (s.setF f v).poisonBy = s.poisonBy := rfl
@[simp] theorem State.setF_budgeted : (s.setF f v).budgeted = s.budgeted := rfl
@[simp] theorem State.setF_ftPoints : (s.setF f v).ftPoints = s.ftPoints := rfl
@[simp] theorem State.setF_macs : (s.setF f v).macs = s.macs := rfl
@[simp] theorem State.setF_log : (s.setF f v).log = s.log := rfl
@[simp] theorem State.setF_timAcc : (s.setF f v).timAcc = s.timAcc := rfl
@[simp] theorem State.setF_timRho : (s.setF f v).timRho = s.timRho := rfl
@[simp] theorem State.setF_timEpoch : (s.setF f v).timEpoch = s.timEpoch := rfl
@[simp] theorem State.setF_hbxs : (s.setF f v).hbxs = s.hbxs := rfl
@[simp] theorem State.setF_hbxq : (s.setF f v).hbxq = s.hbxq := rfl
@[simp] theorem State.setF_hbxCopy : (s.setF f v).hbxCopy = s.hbxCopy := rfl
@[simp] theorem State.setF_patrols : (s.setF f v).patrols = s.patrols := rfl
@[simp] theorem State.setF_zports : (s.setF f v).zports = s.zports := rfl
@[simp] theorem State.setF_pports : (s.setF f v).pports = s.pports := rfl
@[simp] theorem State.setF_csis : (s.setF f v).csis = s.csis := rfl
@[simp] theorem State.setF_flashCmd : (s.setF f v).flashCmd = s.flashCmd := rfl
@[simp] theorem State.setF_flashHeld : (s.setF f v).flashHeld = s.flashHeld := rfl
@[simp] theorem State.setF_flash : (s.setF f v).flash = s.flash := rfl
@[simp] theorem State.setF_flashRegs : (s.setF f v).flashRegs = s.flashRegs := rfl
@[simp] theorem State.setF_cans : (s.setF f v).cans = s.cans := rfl
@[simp] theorem State.setF_pins : (s.setF f v).pins = s.pins := rfl
@[simp] theorem State.setF_msis : (s.setF f v).msis = s.msis := rfl
@[simp] theorem State.setF_eip : (s.setF f v).eip = s.eip := rfl
@[simp] theorem State.setF_harts : (s.setF f v).harts = s.harts := rfl
@[simp] theorem State.setF_wires : (s.setF f v).wires = s.wires := rfl
@[simp] theorem State.setF_iotlb : (s.setF f v).iotlb = s.iotlb := rfl
@[simp] theorem State.setF_pmu : (s.setF f v).pmu = s.pmu := rfl
@[simp] theorem State.setF_thermal : (s.setF f v).thermal = s.thermal := rfl
@[simp] theorem State.setF_mti : (s.setF f v).mti = s.mti := rfl
@[simp] theorem State.setF_mtiStore : (s.setF f v).mtiStore = s.mtiStore := rfl
@[simp] theorem State.setF_rtcNext : (s.setF f v).rtcNext = s.rtcNext := rfl
@[simp] theorem State.setF_lostToLog : (s.setF f v).lostToLog = s.lostToLog := rfl
@[simp] theorem State.setF_fuses : (s.setF f v).fuses = s.fuses := rfl
@[simp] theorem State.setF_running : (s.setF f v).running = s.running := rfl
@[simp] theorem State.setF_mgt : (s.setF f v).mgt = s.mgt := rfl
@[simp] theorem State.setF_tap : (s.setF f v).tap = s.tap := rfl
@[simp] theorem State.setF_supply : (s.setF f v).supply = s.supply := rfl
end setFLaws

section bumpLaws
variable (s : State) (f : Fld) (n : Nat)
@[simp] theorem State.bump_pending : (s.bump f n).pending = s.pending := rfl
@[simp] theorem State.bump_resp : (s.bump f n).resp = s.resp := rfl
@[simp] theorem State.bump_out : (s.bump f n).out = s.out := rfl
@[simp] theorem State.bump_freeCtr : (s.bump f n).freeCtr = s.freeCtr := rfl
@[simp] theorem State.bump_idCtr : (s.bump f n).idCtr = s.idCtr := rfl
@[simp] theorem State.bump_now : (s.bump f n).now = s.now := rfl
@[simp] theorem State.bump_cyc : (s.bump f n).cyc = s.cyc := rfl
@[simp] theorem State.bump_dlNow : (s.bump f n).dlNow = s.dlNow := rfl
@[simp] theorem State.bump_imageRegs : (s.bump f n).imageRegs = s.imageRegs := rfl
@[simp] theorem State.bump_latches : (s.bump f n).latches = s.latches := rfl
@[simp] theorem State.bump_held : (s.bump f n).held = s.held := rfl
@[simp] theorem State.bump_pd : (s.bump f n).pd = s.pd := rfl
@[simp] theorem State.bump_mem : (s.bump f n).mem = s.mem := rfl
@[simp] theorem State.bump_upsets : (s.bump f n).upsets = s.upsets := rfl
@[simp] theorem State.bump_chan : (s.bump f n).chan = s.chan := rfl
@[simp] theorem State.bump_late : (s.bump f n).late = s.late := rfl
@[simp] theorem State.bump_tags : (s.bump f n).tags = s.tags := rfl
@[simp] theorem State.bump_checked : (s.bump f n).checked = s.checked := rfl
@[simp] theorem State.bump_clusters : (s.bump f n).clusters = s.clusters := rfl
@[simp] theorem State.bump_engines : (s.bump f n).engines = s.engines := rfl
@[simp] theorem State.bump_dunes : (s.bump f n).dunes = s.dunes := rfl
@[simp] theorem State.bump_slvs : (s.bump f n).slvs = s.slvs := rfl
@[simp] theorem State.bump_loam : (s.bump f n).loam = s.loam := rfl
@[simp] theorem State.bump_tilth : (s.bump f n).tilth = s.tilth := rfl
@[simp] theorem State.bump_phaseReports : (s.bump f n).phaseReports = s.phaseReports := rfl
@[simp] theorem State.bump_queues : (s.bump f n).queues = s.queues := rfl
@[simp] theorem State.bump_objs : (s.bump f n).objs = s.objs := rfl
@[simp] theorem State.bump_adm : (s.bump f n).adm = s.adm := rfl
@[simp] theorem State.bump_overdueCtr : (s.bump f n).overdueCtr = s.overdueCtr := rfl
@[simp] theorem State.bump_dispatchStopped : (s.bump f n).dispatchStopped = s.dispatchStopped := rfl
@[simp] theorem State.bump_slots : (s.bump f n).slots = s.slots := rfl
@[simp] theorem State.bump_batches : (s.bump f n).batches = s.batches := rfl
@[simp] theorem State.bump_quiCmds : (s.bump f n).quiCmds = s.quiCmds := rfl
@[simp] theorem State.bump_cows : (s.bump f n).cows = s.cows := rfl
@[simp] theorem State.bump_movers : (s.bump f n).movers = s.movers := rfl
@[simp] theorem State.bump_reports : (s.bump f n).reports = s.reports := rfl
@[simp] theorem State.bump_brokeSeq : (s.bump f n).brokeSeq = s.brokeSeq := rfl
@[simp] theorem State.bump_ftQueue : (s.bump f n).ftQueue = s.ftQueue := rfl
@[simp] theorem State.bump_lastPass : (s.bump f n).lastPass = s.lastPass := rfl
@[simp] theorem State.bump_trackers : (s.bump f n).trackers = s.trackers := rfl
@[simp] theorem State.bump_provNext : (s.bump f n).provNext = s.provNext := rfl
@[simp] theorem State.bump_brokeCopied : (s.bump f n).brokeCopied = s.brokeCopied := rfl
@[simp] theorem State.bump_poisonBy : (s.bump f n).poisonBy = s.poisonBy := rfl
@[simp] theorem State.bump_budgeted : (s.bump f n).budgeted = s.budgeted := rfl
@[simp] theorem State.bump_ftPoints : (s.bump f n).ftPoints = s.ftPoints := rfl
@[simp] theorem State.bump_macs : (s.bump f n).macs = s.macs := rfl
@[simp] theorem State.bump_log : (s.bump f n).log = s.log := rfl
@[simp] theorem State.bump_timAcc : (s.bump f n).timAcc = s.timAcc := rfl
@[simp] theorem State.bump_timRho : (s.bump f n).timRho = s.timRho := rfl
@[simp] theorem State.bump_timEpoch : (s.bump f n).timEpoch = s.timEpoch := rfl
@[simp] theorem State.bump_hbxs : (s.bump f n).hbxs = s.hbxs := rfl
@[simp] theorem State.bump_hbxq : (s.bump f n).hbxq = s.hbxq := rfl
@[simp] theorem State.bump_hbxCopy : (s.bump f n).hbxCopy = s.hbxCopy := rfl
@[simp] theorem State.bump_patrols : (s.bump f n).patrols = s.patrols := rfl
@[simp] theorem State.bump_zports : (s.bump f n).zports = s.zports := rfl
@[simp] theorem State.bump_pports : (s.bump f n).pports = s.pports := rfl
@[simp] theorem State.bump_csis : (s.bump f n).csis = s.csis := rfl
@[simp] theorem State.bump_flashCmd : (s.bump f n).flashCmd = s.flashCmd := rfl
@[simp] theorem State.bump_flashHeld : (s.bump f n).flashHeld = s.flashHeld := rfl
@[simp] theorem State.bump_flash : (s.bump f n).flash = s.flash := rfl
@[simp] theorem State.bump_flashRegs : (s.bump f n).flashRegs = s.flashRegs := rfl
@[simp] theorem State.bump_cans : (s.bump f n).cans = s.cans := rfl
@[simp] theorem State.bump_pins : (s.bump f n).pins = s.pins := rfl
@[simp] theorem State.bump_msis : (s.bump f n).msis = s.msis := rfl
@[simp] theorem State.bump_eip : (s.bump f n).eip = s.eip := rfl
@[simp] theorem State.bump_harts : (s.bump f n).harts = s.harts := rfl
@[simp] theorem State.bump_wires : (s.bump f n).wires = s.wires := rfl
@[simp] theorem State.bump_iotlb : (s.bump f n).iotlb = s.iotlb := rfl
@[simp] theorem State.bump_pmu : (s.bump f n).pmu = s.pmu := rfl
@[simp] theorem State.bump_thermal : (s.bump f n).thermal = s.thermal := rfl
@[simp] theorem State.bump_mti : (s.bump f n).mti = s.mti := rfl
@[simp] theorem State.bump_mtiStore : (s.bump f n).mtiStore = s.mtiStore := rfl
@[simp] theorem State.bump_rtcNext : (s.bump f n).rtcNext = s.rtcNext := rfl
@[simp] theorem State.bump_lostToLog : (s.bump f n).lostToLog = s.lostToLog := rfl
@[simp] theorem State.bump_fuses : (s.bump f n).fuses = s.fuses := rfl
@[simp] theorem State.bump_running : (s.bump f n).running = s.running := rfl
@[simp] theorem State.bump_mgt : (s.bump f n).mgt = s.mgt := rfl
@[simp] theorem State.bump_tap : (s.bump f n).tap = s.tap := rfl
@[simp] theorem State.bump_supply : (s.bump f n).supply = s.supply := rfl
end bumpLaws

section resetRegsLaws
variable (s : State) (p : Nat → Bool)
@[simp] theorem State.resetRegs_pending : (s.resetRegs p).pending = s.pending := rfl
@[simp] theorem State.resetRegs_resp : (s.resetRegs p).resp = s.resp := rfl
@[simp] theorem State.resetRegs_out : (s.resetRegs p).out = s.out := rfl
@[simp] theorem State.resetRegs_freeCtr : (s.resetRegs p).freeCtr = s.freeCtr := rfl
@[simp] theorem State.resetRegs_idCtr : (s.resetRegs p).idCtr = s.idCtr := rfl
@[simp] theorem State.resetRegs_now : (s.resetRegs p).now = s.now := rfl
@[simp] theorem State.resetRegs_cyc : (s.resetRegs p).cyc = s.cyc := rfl
@[simp] theorem State.resetRegs_dlNow : (s.resetRegs p).dlNow = s.dlNow := rfl
@[simp] theorem State.resetRegs_regs : (s.resetRegs p).regs = Sparse.drop p s.regs := rfl
@[simp] theorem State.resetRegs_imageRegs : (s.resetRegs p).imageRegs = s.imageRegs := rfl
@[simp] theorem State.resetRegs_latches : (s.resetRegs p).latches = s.latches := rfl
@[simp] theorem State.resetRegs_held : (s.resetRegs p).held = s.held := rfl
@[simp] theorem State.resetRegs_pd : (s.resetRegs p).pd = s.pd := rfl
@[simp] theorem State.resetRegs_mem : (s.resetRegs p).mem = s.mem := rfl
@[simp] theorem State.resetRegs_upsets : (s.resetRegs p).upsets = s.upsets := rfl
@[simp] theorem State.resetRegs_chan : (s.resetRegs p).chan = s.chan := rfl
@[simp] theorem State.resetRegs_late : (s.resetRegs p).late = s.late := rfl
@[simp] theorem State.resetRegs_tags : (s.resetRegs p).tags = s.tags := rfl
@[simp] theorem State.resetRegs_checked : (s.resetRegs p).checked = s.checked := rfl
@[simp] theorem State.resetRegs_clusters : (s.resetRegs p).clusters = s.clusters := rfl
@[simp] theorem State.resetRegs_engines : (s.resetRegs p).engines = s.engines := rfl
@[simp] theorem State.resetRegs_dunes : (s.resetRegs p).dunes = s.dunes := rfl
@[simp] theorem State.resetRegs_slvs : (s.resetRegs p).slvs = s.slvs := rfl
@[simp] theorem State.resetRegs_loam : (s.resetRegs p).loam = s.loam := rfl
@[simp] theorem State.resetRegs_tilth : (s.resetRegs p).tilth = s.tilth := rfl
@[simp] theorem State.resetRegs_phaseReports : (s.resetRegs p).phaseReports = s.phaseReports := rfl
@[simp] theorem State.resetRegs_queues : (s.resetRegs p).queues = s.queues := rfl
@[simp] theorem State.resetRegs_objs : (s.resetRegs p).objs = s.objs := rfl
@[simp] theorem State.resetRegs_adm : (s.resetRegs p).adm = s.adm := rfl
@[simp] theorem State.resetRegs_overdueCtr : (s.resetRegs p).overdueCtr = s.overdueCtr := rfl
@[simp] theorem State.resetRegs_dispatchStopped : (s.resetRegs p).dispatchStopped = s.dispatchStopped := rfl
@[simp] theorem State.resetRegs_slots : (s.resetRegs p).slots = s.slots := rfl
@[simp] theorem State.resetRegs_batches : (s.resetRegs p).batches = s.batches := rfl
@[simp] theorem State.resetRegs_quiCmds : (s.resetRegs p).quiCmds = s.quiCmds := rfl
@[simp] theorem State.resetRegs_cows : (s.resetRegs p).cows = s.cows := rfl
@[simp] theorem State.resetRegs_movers : (s.resetRegs p).movers = s.movers := rfl
@[simp] theorem State.resetRegs_reports : (s.resetRegs p).reports = s.reports := rfl
@[simp] theorem State.resetRegs_brokeSeq : (s.resetRegs p).brokeSeq = s.brokeSeq := rfl
@[simp] theorem State.resetRegs_ftQueue : (s.resetRegs p).ftQueue = s.ftQueue := rfl
@[simp] theorem State.resetRegs_lastPass : (s.resetRegs p).lastPass = s.lastPass := rfl
@[simp] theorem State.resetRegs_trackers : (s.resetRegs p).trackers = s.trackers := rfl
@[simp] theorem State.resetRegs_provNext : (s.resetRegs p).provNext = s.provNext := rfl
@[simp] theorem State.resetRegs_brokeCopied : (s.resetRegs p).brokeCopied = s.brokeCopied := rfl
@[simp] theorem State.resetRegs_poisonBy : (s.resetRegs p).poisonBy = s.poisonBy := rfl
@[simp] theorem State.resetRegs_budgeted : (s.resetRegs p).budgeted = s.budgeted := rfl
@[simp] theorem State.resetRegs_ftPoints : (s.resetRegs p).ftPoints = s.ftPoints := rfl
@[simp] theorem State.resetRegs_macs : (s.resetRegs p).macs = s.macs := rfl
@[simp] theorem State.resetRegs_log : (s.resetRegs p).log = s.log := rfl
@[simp] theorem State.resetRegs_timAcc : (s.resetRegs p).timAcc = s.timAcc := rfl
@[simp] theorem State.resetRegs_timRho : (s.resetRegs p).timRho = s.timRho := rfl
@[simp] theorem State.resetRegs_timEpoch : (s.resetRegs p).timEpoch = s.timEpoch := rfl
@[simp] theorem State.resetRegs_hbxs : (s.resetRegs p).hbxs = s.hbxs := rfl
@[simp] theorem State.resetRegs_hbxq : (s.resetRegs p).hbxq = s.hbxq := rfl
@[simp] theorem State.resetRegs_hbxCopy : (s.resetRegs p).hbxCopy = s.hbxCopy := rfl
@[simp] theorem State.resetRegs_patrols : (s.resetRegs p).patrols = s.patrols := rfl
@[simp] theorem State.resetRegs_zports : (s.resetRegs p).zports = s.zports := rfl
@[simp] theorem State.resetRegs_pports : (s.resetRegs p).pports = s.pports := rfl
@[simp] theorem State.resetRegs_csis : (s.resetRegs p).csis = s.csis := rfl
@[simp] theorem State.resetRegs_flashCmd : (s.resetRegs p).flashCmd = s.flashCmd := rfl
@[simp] theorem State.resetRegs_flashHeld : (s.resetRegs p).flashHeld = s.flashHeld := rfl
@[simp] theorem State.resetRegs_flash : (s.resetRegs p).flash = s.flash := rfl
@[simp] theorem State.resetRegs_flashRegs : (s.resetRegs p).flashRegs = s.flashRegs := rfl
@[simp] theorem State.resetRegs_cans : (s.resetRegs p).cans = s.cans := rfl
@[simp] theorem State.resetRegs_pins : (s.resetRegs p).pins = s.pins := rfl
@[simp] theorem State.resetRegs_msis : (s.resetRegs p).msis = s.msis := rfl
@[simp] theorem State.resetRegs_eip : (s.resetRegs p).eip = s.eip := rfl
@[simp] theorem State.resetRegs_harts : (s.resetRegs p).harts = s.harts := rfl
@[simp] theorem State.resetRegs_wires : (s.resetRegs p).wires = s.wires := rfl
@[simp] theorem State.resetRegs_iotlb : (s.resetRegs p).iotlb = s.iotlb := rfl
@[simp] theorem State.resetRegs_pmu : (s.resetRegs p).pmu = s.pmu := rfl
@[simp] theorem State.resetRegs_thermal : (s.resetRegs p).thermal = s.thermal := rfl
@[simp] theorem State.resetRegs_mti : (s.resetRegs p).mti = s.mti := rfl
@[simp] theorem State.resetRegs_mtiStore : (s.resetRegs p).mtiStore = s.mtiStore := rfl
@[simp] theorem State.resetRegs_rtcNext : (s.resetRegs p).rtcNext = s.rtcNext := rfl
@[simp] theorem State.resetRegs_lostToLog : (s.resetRegs p).lostToLog = s.lostToLog := rfl
@[simp] theorem State.resetRegs_fuses : (s.resetRegs p).fuses = s.fuses := rfl
@[simp] theorem State.resetRegs_running : (s.resetRegs p).running = s.running := rfl
@[simp] theorem State.resetRegs_mgt : (s.resetRegs p).mgt = s.mgt := rfl
@[simp] theorem State.resetRegs_tap : (s.resetRegs p).tap = s.tap := rfl
@[simp] theorem State.resetRegs_supply : (s.resetRegs p).supply = s.supply := rfl
end resetRegsLaws

section holdLaws
variable (s : State) (a : Nat) (w : Word)
@[simp] theorem State.hold_pending : (s.hold a w).pending = s.pending := rfl
@[simp] theorem State.hold_resp : (s.hold a w).resp = s.resp := rfl
@[simp] theorem State.hold_out : (s.hold a w).out = s.out := rfl
@[simp] theorem State.hold_freeCtr : (s.hold a w).freeCtr = s.freeCtr := rfl
@[simp] theorem State.hold_idCtr : (s.hold a w).idCtr = s.idCtr := rfl
@[simp] theorem State.hold_now : (s.hold a w).now = s.now := rfl
@[simp] theorem State.hold_cyc : (s.hold a w).cyc = s.cyc := rfl
@[simp] theorem State.hold_dlNow : (s.hold a w).dlNow = s.dlNow := rfl
@[simp] theorem State.hold_regs : (s.hold a w).regs = s.regs := rfl
@[simp] theorem State.hold_imageRegs : (s.hold a w).imageRegs = s.imageRegs := rfl
@[simp] theorem State.hold_latches : (s.hold a w).latches = s.latches := rfl
@[simp] theorem State.hold_held : (s.hold a w).held = Sparse.set (fun _ => none) s.held a (some w) := rfl
@[simp] theorem State.hold_pd : (s.hold a w).pd = s.pd := rfl
@[simp] theorem State.hold_mem : (s.hold a w).mem = s.mem := rfl
@[simp] theorem State.hold_upsets : (s.hold a w).upsets = s.upsets := rfl
@[simp] theorem State.hold_chan : (s.hold a w).chan = s.chan := rfl
@[simp] theorem State.hold_late : (s.hold a w).late = s.late := rfl
@[simp] theorem State.hold_tags : (s.hold a w).tags = s.tags := rfl
@[simp] theorem State.hold_checked : (s.hold a w).checked = s.checked := rfl
@[simp] theorem State.hold_clusters : (s.hold a w).clusters = s.clusters := rfl
@[simp] theorem State.hold_engines : (s.hold a w).engines = s.engines := rfl
@[simp] theorem State.hold_dunes : (s.hold a w).dunes = s.dunes := rfl
@[simp] theorem State.hold_slvs : (s.hold a w).slvs = s.slvs := rfl
@[simp] theorem State.hold_loam : (s.hold a w).loam = s.loam := rfl
@[simp] theorem State.hold_tilth : (s.hold a w).tilth = s.tilth := rfl
@[simp] theorem State.hold_phaseReports : (s.hold a w).phaseReports = s.phaseReports := rfl
@[simp] theorem State.hold_queues : (s.hold a w).queues = s.queues := rfl
@[simp] theorem State.hold_objs : (s.hold a w).objs = s.objs := rfl
@[simp] theorem State.hold_adm : (s.hold a w).adm = s.adm := rfl
@[simp] theorem State.hold_overdueCtr : (s.hold a w).overdueCtr = s.overdueCtr := rfl
@[simp] theorem State.hold_dispatchStopped : (s.hold a w).dispatchStopped = s.dispatchStopped := rfl
@[simp] theorem State.hold_slots : (s.hold a w).slots = s.slots := rfl
@[simp] theorem State.hold_batches : (s.hold a w).batches = s.batches := rfl
@[simp] theorem State.hold_quiCmds : (s.hold a w).quiCmds = s.quiCmds := rfl
@[simp] theorem State.hold_cows : (s.hold a w).cows = s.cows := rfl
@[simp] theorem State.hold_movers : (s.hold a w).movers = s.movers := rfl
@[simp] theorem State.hold_reports : (s.hold a w).reports = s.reports := rfl
@[simp] theorem State.hold_brokeSeq : (s.hold a w).brokeSeq = s.brokeSeq := rfl
@[simp] theorem State.hold_ftQueue : (s.hold a w).ftQueue = s.ftQueue := rfl
@[simp] theorem State.hold_lastPass : (s.hold a w).lastPass = s.lastPass := rfl
@[simp] theorem State.hold_trackers : (s.hold a w).trackers = s.trackers := rfl
@[simp] theorem State.hold_provNext : (s.hold a w).provNext = s.provNext := rfl
@[simp] theorem State.hold_brokeCopied : (s.hold a w).brokeCopied = s.brokeCopied := rfl
@[simp] theorem State.hold_poisonBy : (s.hold a w).poisonBy = s.poisonBy := rfl
@[simp] theorem State.hold_budgeted : (s.hold a w).budgeted = s.budgeted := rfl
@[simp] theorem State.hold_ftPoints : (s.hold a w).ftPoints = s.ftPoints := rfl
@[simp] theorem State.hold_macs : (s.hold a w).macs = s.macs := rfl
@[simp] theorem State.hold_log : (s.hold a w).log = s.log := rfl
@[simp] theorem State.hold_timAcc : (s.hold a w).timAcc = s.timAcc := rfl
@[simp] theorem State.hold_timRho : (s.hold a w).timRho = s.timRho := rfl
@[simp] theorem State.hold_timEpoch : (s.hold a w).timEpoch = s.timEpoch := rfl
@[simp] theorem State.hold_hbxs : (s.hold a w).hbxs = s.hbxs := rfl
@[simp] theorem State.hold_hbxq : (s.hold a w).hbxq = s.hbxq := rfl
@[simp] theorem State.hold_hbxCopy : (s.hold a w).hbxCopy = s.hbxCopy := rfl
@[simp] theorem State.hold_patrols : (s.hold a w).patrols = s.patrols := rfl
@[simp] theorem State.hold_zports : (s.hold a w).zports = s.zports := rfl
@[simp] theorem State.hold_pports : (s.hold a w).pports = s.pports := rfl
@[simp] theorem State.hold_csis : (s.hold a w).csis = s.csis := rfl
@[simp] theorem State.hold_flashCmd : (s.hold a w).flashCmd = s.flashCmd := rfl
@[simp] theorem State.hold_flashHeld : (s.hold a w).flashHeld = s.flashHeld := rfl
@[simp] theorem State.hold_flash : (s.hold a w).flash = s.flash := rfl
@[simp] theorem State.hold_flashRegs : (s.hold a w).flashRegs = s.flashRegs := rfl
@[simp] theorem State.hold_cans : (s.hold a w).cans = s.cans := rfl
@[simp] theorem State.hold_pins : (s.hold a w).pins = s.pins := rfl
@[simp] theorem State.hold_msis : (s.hold a w).msis = s.msis := rfl
@[simp] theorem State.hold_eip : (s.hold a w).eip = s.eip := rfl
@[simp] theorem State.hold_harts : (s.hold a w).harts = s.harts := rfl
@[simp] theorem State.hold_wires : (s.hold a w).wires = s.wires := rfl
@[simp] theorem State.hold_iotlb : (s.hold a w).iotlb = s.iotlb := rfl
@[simp] theorem State.hold_pmu : (s.hold a w).pmu = s.pmu := rfl
@[simp] theorem State.hold_thermal : (s.hold a w).thermal = s.thermal := rfl
@[simp] theorem State.hold_mti : (s.hold a w).mti = s.mti := rfl
@[simp] theorem State.hold_mtiStore : (s.hold a w).mtiStore = s.mtiStore := rfl
@[simp] theorem State.hold_rtcNext : (s.hold a w).rtcNext = s.rtcNext := rfl
@[simp] theorem State.hold_lostToLog : (s.hold a w).lostToLog = s.lostToLog := rfl
@[simp] theorem State.hold_fuses : (s.hold a w).fuses = s.fuses := rfl
@[simp] theorem State.hold_running : (s.hold a w).running = s.running := rfl
@[simp] theorem State.hold_mgt : (s.hold a w).mgt = s.mgt := rfl
@[simp] theorem State.hold_tap : (s.hold a w).tap = s.tap := rfl
@[simp] theorem State.hold_supply : (s.hold a w).supply = s.supply := rfl
end holdLaws

section unholdLaws
variable (s : State) (a : Nat)
@[simp] theorem State.unhold_pending : (s.unhold a).pending = s.pending := rfl
@[simp] theorem State.unhold_resp : (s.unhold a).resp = s.resp := rfl
@[simp] theorem State.unhold_out : (s.unhold a).out = s.out := rfl
@[simp] theorem State.unhold_freeCtr : (s.unhold a).freeCtr = s.freeCtr := rfl
@[simp] theorem State.unhold_idCtr : (s.unhold a).idCtr = s.idCtr := rfl
@[simp] theorem State.unhold_now : (s.unhold a).now = s.now := rfl
@[simp] theorem State.unhold_cyc : (s.unhold a).cyc = s.cyc := rfl
@[simp] theorem State.unhold_dlNow : (s.unhold a).dlNow = s.dlNow := rfl
@[simp] theorem State.unhold_regs : (s.unhold a).regs = s.regs := rfl
@[simp] theorem State.unhold_imageRegs : (s.unhold a).imageRegs = s.imageRegs := rfl
@[simp] theorem State.unhold_latches : (s.unhold a).latches = s.latches := rfl
@[simp] theorem State.unhold_held : (s.unhold a).held = Sparse.set (fun _ => none) s.held a none := rfl
@[simp] theorem State.unhold_pd : (s.unhold a).pd = s.pd := rfl
@[simp] theorem State.unhold_mem : (s.unhold a).mem = s.mem := rfl
@[simp] theorem State.unhold_upsets : (s.unhold a).upsets = s.upsets := rfl
@[simp] theorem State.unhold_chan : (s.unhold a).chan = s.chan := rfl
@[simp] theorem State.unhold_late : (s.unhold a).late = s.late := rfl
@[simp] theorem State.unhold_tags : (s.unhold a).tags = s.tags := rfl
@[simp] theorem State.unhold_checked : (s.unhold a).checked = s.checked := rfl
@[simp] theorem State.unhold_clusters : (s.unhold a).clusters = s.clusters := rfl
@[simp] theorem State.unhold_engines : (s.unhold a).engines = s.engines := rfl
@[simp] theorem State.unhold_dunes : (s.unhold a).dunes = s.dunes := rfl
@[simp] theorem State.unhold_slvs : (s.unhold a).slvs = s.slvs := rfl
@[simp] theorem State.unhold_loam : (s.unhold a).loam = s.loam := rfl
@[simp] theorem State.unhold_tilth : (s.unhold a).tilth = s.tilth := rfl
@[simp] theorem State.unhold_phaseReports : (s.unhold a).phaseReports = s.phaseReports := rfl
@[simp] theorem State.unhold_queues : (s.unhold a).queues = s.queues := rfl
@[simp] theorem State.unhold_objs : (s.unhold a).objs = s.objs := rfl
@[simp] theorem State.unhold_adm : (s.unhold a).adm = s.adm := rfl
@[simp] theorem State.unhold_overdueCtr : (s.unhold a).overdueCtr = s.overdueCtr := rfl
@[simp] theorem State.unhold_dispatchStopped : (s.unhold a).dispatchStopped = s.dispatchStopped := rfl
@[simp] theorem State.unhold_slots : (s.unhold a).slots = s.slots := rfl
@[simp] theorem State.unhold_batches : (s.unhold a).batches = s.batches := rfl
@[simp] theorem State.unhold_quiCmds : (s.unhold a).quiCmds = s.quiCmds := rfl
@[simp] theorem State.unhold_cows : (s.unhold a).cows = s.cows := rfl
@[simp] theorem State.unhold_movers : (s.unhold a).movers = s.movers := rfl
@[simp] theorem State.unhold_reports : (s.unhold a).reports = s.reports := rfl
@[simp] theorem State.unhold_brokeSeq : (s.unhold a).brokeSeq = s.brokeSeq := rfl
@[simp] theorem State.unhold_ftQueue : (s.unhold a).ftQueue = s.ftQueue := rfl
@[simp] theorem State.unhold_lastPass : (s.unhold a).lastPass = s.lastPass := rfl
@[simp] theorem State.unhold_trackers : (s.unhold a).trackers = s.trackers := rfl
@[simp] theorem State.unhold_provNext : (s.unhold a).provNext = s.provNext := rfl
@[simp] theorem State.unhold_brokeCopied : (s.unhold a).brokeCopied = s.brokeCopied := rfl
@[simp] theorem State.unhold_poisonBy : (s.unhold a).poisonBy = s.poisonBy := rfl
@[simp] theorem State.unhold_budgeted : (s.unhold a).budgeted = s.budgeted := rfl
@[simp] theorem State.unhold_ftPoints : (s.unhold a).ftPoints = s.ftPoints := rfl
@[simp] theorem State.unhold_macs : (s.unhold a).macs = s.macs := rfl
@[simp] theorem State.unhold_log : (s.unhold a).log = s.log := rfl
@[simp] theorem State.unhold_timAcc : (s.unhold a).timAcc = s.timAcc := rfl
@[simp] theorem State.unhold_timRho : (s.unhold a).timRho = s.timRho := rfl
@[simp] theorem State.unhold_timEpoch : (s.unhold a).timEpoch = s.timEpoch := rfl
@[simp] theorem State.unhold_hbxs : (s.unhold a).hbxs = s.hbxs := rfl
@[simp] theorem State.unhold_hbxq : (s.unhold a).hbxq = s.hbxq := rfl
@[simp] theorem State.unhold_hbxCopy : (s.unhold a).hbxCopy = s.hbxCopy := rfl
@[simp] theorem State.unhold_patrols : (s.unhold a).patrols = s.patrols := rfl
@[simp] theorem State.unhold_zports : (s.unhold a).zports = s.zports := rfl
@[simp] theorem State.unhold_pports : (s.unhold a).pports = s.pports := rfl
@[simp] theorem State.unhold_csis : (s.unhold a).csis = s.csis := rfl
@[simp] theorem State.unhold_flashCmd : (s.unhold a).flashCmd = s.flashCmd := rfl
@[simp] theorem State.unhold_flashHeld : (s.unhold a).flashHeld = s.flashHeld := rfl
@[simp] theorem State.unhold_flash : (s.unhold a).flash = s.flash := rfl
@[simp] theorem State.unhold_flashRegs : (s.unhold a).flashRegs = s.flashRegs := rfl
@[simp] theorem State.unhold_cans : (s.unhold a).cans = s.cans := rfl
@[simp] theorem State.unhold_pins : (s.unhold a).pins = s.pins := rfl
@[simp] theorem State.unhold_msis : (s.unhold a).msis = s.msis := rfl
@[simp] theorem State.unhold_eip : (s.unhold a).eip = s.eip := rfl
@[simp] theorem State.unhold_harts : (s.unhold a).harts = s.harts := rfl
@[simp] theorem State.unhold_wires : (s.unhold a).wires = s.wires := rfl
@[simp] theorem State.unhold_iotlb : (s.unhold a).iotlb = s.iotlb := rfl
@[simp] theorem State.unhold_pmu : (s.unhold a).pmu = s.pmu := rfl
@[simp] theorem State.unhold_thermal : (s.unhold a).thermal = s.thermal := rfl
@[simp] theorem State.unhold_mti : (s.unhold a).mti = s.mti := rfl
@[simp] theorem State.unhold_mtiStore : (s.unhold a).mtiStore = s.mtiStore := rfl
@[simp] theorem State.unhold_rtcNext : (s.unhold a).rtcNext = s.rtcNext := rfl
@[simp] theorem State.unhold_lostToLog : (s.unhold a).lostToLog = s.lostToLog := rfl
@[simp] theorem State.unhold_fuses : (s.unhold a).fuses = s.fuses := rfl
@[simp] theorem State.unhold_running : (s.unhold a).running = s.running := rfl
@[simp] theorem State.unhold_mgt : (s.unhold a).mgt = s.mgt := rfl
@[simp] theorem State.unhold_tap : (s.unhold a).tap = s.tap := rfl
@[simp] theorem State.unhold_supply : (s.unhold a).supply = s.supply := rfl
end unholdLaws

section setPdLaws
variable (s : State) (d v : Nat)
@[simp] theorem State.setPd_pending : (s.setPd d v).pending = s.pending := rfl
@[simp] theorem State.setPd_resp : (s.setPd d v).resp = s.resp := rfl
@[simp] theorem State.setPd_out : (s.setPd d v).out = s.out := rfl
@[simp] theorem State.setPd_freeCtr : (s.setPd d v).freeCtr = s.freeCtr := rfl
@[simp] theorem State.setPd_idCtr : (s.setPd d v).idCtr = s.idCtr := rfl
@[simp] theorem State.setPd_now : (s.setPd d v).now = s.now := rfl
@[simp] theorem State.setPd_cyc : (s.setPd d v).cyc = s.cyc := rfl
@[simp] theorem State.setPd_dlNow : (s.setPd d v).dlNow = s.dlNow := rfl
@[simp] theorem State.setPd_regs : (s.setPd d v).regs = s.regs := rfl
@[simp] theorem State.setPd_imageRegs : (s.setPd d v).imageRegs = s.imageRegs := rfl
@[simp] theorem State.setPd_latches : (s.setPd d v).latches = s.latches := rfl
@[simp] theorem State.setPd_held : (s.setPd d v).held = s.held := rfl
@[simp] theorem State.setPd_pd : (s.setPd d v).pd = Sparse.set pdReset s.pd d v := rfl
@[simp] theorem State.setPd_mem : (s.setPd d v).mem = s.mem := rfl
@[simp] theorem State.setPd_upsets : (s.setPd d v).upsets = s.upsets := rfl
@[simp] theorem State.setPd_chan : (s.setPd d v).chan = s.chan := rfl
@[simp] theorem State.setPd_late : (s.setPd d v).late = s.late := rfl
@[simp] theorem State.setPd_tags : (s.setPd d v).tags = s.tags := rfl
@[simp] theorem State.setPd_checked : (s.setPd d v).checked = s.checked := rfl
@[simp] theorem State.setPd_clusters : (s.setPd d v).clusters = s.clusters := rfl
@[simp] theorem State.setPd_engines : (s.setPd d v).engines = s.engines := rfl
@[simp] theorem State.setPd_dunes : (s.setPd d v).dunes = s.dunes := rfl
@[simp] theorem State.setPd_slvs : (s.setPd d v).slvs = s.slvs := rfl
@[simp] theorem State.setPd_loam : (s.setPd d v).loam = s.loam := rfl
@[simp] theorem State.setPd_tilth : (s.setPd d v).tilth = s.tilth := rfl
@[simp] theorem State.setPd_phaseReports : (s.setPd d v).phaseReports = s.phaseReports := rfl
@[simp] theorem State.setPd_queues : (s.setPd d v).queues = s.queues := rfl
@[simp] theorem State.setPd_objs : (s.setPd d v).objs = s.objs := rfl
@[simp] theorem State.setPd_adm : (s.setPd d v).adm = s.adm := rfl
@[simp] theorem State.setPd_overdueCtr : (s.setPd d v).overdueCtr = s.overdueCtr := rfl
@[simp] theorem State.setPd_dispatchStopped : (s.setPd d v).dispatchStopped = s.dispatchStopped := rfl
@[simp] theorem State.setPd_slots : (s.setPd d v).slots = s.slots := rfl
@[simp] theorem State.setPd_batches : (s.setPd d v).batches = s.batches := rfl
@[simp] theorem State.setPd_quiCmds : (s.setPd d v).quiCmds = s.quiCmds := rfl
@[simp] theorem State.setPd_cows : (s.setPd d v).cows = s.cows := rfl
@[simp] theorem State.setPd_movers : (s.setPd d v).movers = s.movers := rfl
@[simp] theorem State.setPd_reports : (s.setPd d v).reports = s.reports := rfl
@[simp] theorem State.setPd_brokeSeq : (s.setPd d v).brokeSeq = s.brokeSeq := rfl
@[simp] theorem State.setPd_ftQueue : (s.setPd d v).ftQueue = s.ftQueue := rfl
@[simp] theorem State.setPd_lastPass : (s.setPd d v).lastPass = s.lastPass := rfl
@[simp] theorem State.setPd_trackers : (s.setPd d v).trackers = s.trackers := rfl
@[simp] theorem State.setPd_provNext : (s.setPd d v).provNext = s.provNext := rfl
@[simp] theorem State.setPd_brokeCopied : (s.setPd d v).brokeCopied = s.brokeCopied := rfl
@[simp] theorem State.setPd_poisonBy : (s.setPd d v).poisonBy = s.poisonBy := rfl
@[simp] theorem State.setPd_budgeted : (s.setPd d v).budgeted = s.budgeted := rfl
@[simp] theorem State.setPd_ftPoints : (s.setPd d v).ftPoints = s.ftPoints := rfl
@[simp] theorem State.setPd_macs : (s.setPd d v).macs = s.macs := rfl
@[simp] theorem State.setPd_log : (s.setPd d v).log = s.log := rfl
@[simp] theorem State.setPd_timAcc : (s.setPd d v).timAcc = s.timAcc := rfl
@[simp] theorem State.setPd_timRho : (s.setPd d v).timRho = s.timRho := rfl
@[simp] theorem State.setPd_timEpoch : (s.setPd d v).timEpoch = s.timEpoch := rfl
@[simp] theorem State.setPd_hbxs : (s.setPd d v).hbxs = s.hbxs := rfl
@[simp] theorem State.setPd_hbxq : (s.setPd d v).hbxq = s.hbxq := rfl
@[simp] theorem State.setPd_hbxCopy : (s.setPd d v).hbxCopy = s.hbxCopy := rfl
@[simp] theorem State.setPd_patrols : (s.setPd d v).patrols = s.patrols := rfl
@[simp] theorem State.setPd_zports : (s.setPd d v).zports = s.zports := rfl
@[simp] theorem State.setPd_pports : (s.setPd d v).pports = s.pports := rfl
@[simp] theorem State.setPd_csis : (s.setPd d v).csis = s.csis := rfl
@[simp] theorem State.setPd_flashCmd : (s.setPd d v).flashCmd = s.flashCmd := rfl
@[simp] theorem State.setPd_flashHeld : (s.setPd d v).flashHeld = s.flashHeld := rfl
@[simp] theorem State.setPd_flash : (s.setPd d v).flash = s.flash := rfl
@[simp] theorem State.setPd_flashRegs : (s.setPd d v).flashRegs = s.flashRegs := rfl
@[simp] theorem State.setPd_cans : (s.setPd d v).cans = s.cans := rfl
@[simp] theorem State.setPd_pins : (s.setPd d v).pins = s.pins := rfl
@[simp] theorem State.setPd_msis : (s.setPd d v).msis = s.msis := rfl
@[simp] theorem State.setPd_eip : (s.setPd d v).eip = s.eip := rfl
@[simp] theorem State.setPd_harts : (s.setPd d v).harts = s.harts := rfl
@[simp] theorem State.setPd_wires : (s.setPd d v).wires = s.wires := rfl
@[simp] theorem State.setPd_iotlb : (s.setPd d v).iotlb = s.iotlb := rfl
@[simp] theorem State.setPd_pmu : (s.setPd d v).pmu = s.pmu := rfl
@[simp] theorem State.setPd_thermal : (s.setPd d v).thermal = s.thermal := rfl
@[simp] theorem State.setPd_mti : (s.setPd d v).mti = s.mti := rfl
@[simp] theorem State.setPd_mtiStore : (s.setPd d v).mtiStore = s.mtiStore := rfl
@[simp] theorem State.setPd_rtcNext : (s.setPd d v).rtcNext = s.rtcNext := rfl
@[simp] theorem State.setPd_lostToLog : (s.setPd d v).lostToLog = s.lostToLog := rfl
@[simp] theorem State.setPd_fuses : (s.setPd d v).fuses = s.fuses := rfl
@[simp] theorem State.setPd_running : (s.setPd d v).running = s.running := rfl
@[simp] theorem State.setPd_mgt : (s.setPd d v).mgt = s.mgt := rfl
@[simp] theorem State.setPd_tap : (s.setPd d v).tap = s.tap := rfl
@[simp] theorem State.setPd_supply : (s.setPd d v).supply = s.supply := rfl
end setPdLaws

section putByteLaws
variable (s : State) (a : Nat) (b : Byte)
@[simp] theorem State.putByte_pending : (s.putByte a b).pending = s.pending := rfl
@[simp] theorem State.putByte_resp : (s.putByte a b).resp = s.resp := rfl
@[simp] theorem State.putByte_out : (s.putByte a b).out = s.out := rfl
@[simp] theorem State.putByte_freeCtr : (s.putByte a b).freeCtr = s.freeCtr := rfl
@[simp] theorem State.putByte_idCtr : (s.putByte a b).idCtr = s.idCtr := rfl
@[simp] theorem State.putByte_now : (s.putByte a b).now = s.now := rfl
@[simp] theorem State.putByte_cyc : (s.putByte a b).cyc = s.cyc := rfl
@[simp] theorem State.putByte_dlNow : (s.putByte a b).dlNow = s.dlNow := rfl
@[simp] theorem State.putByte_regs : (s.putByte a b).regs = s.regs := rfl
@[simp] theorem State.putByte_imageRegs : (s.putByte a b).imageRegs = s.imageRegs := rfl
@[simp] theorem State.putByte_latches : (s.putByte a b).latches = s.latches := rfl
@[simp] theorem State.putByte_held : (s.putByte a b).held = s.held := rfl
@[simp] theorem State.putByte_pd : (s.putByte a b).pd = s.pd := rfl
@[simp] theorem State.putByte_mem : (s.putByte a b).mem = Sparse.set (fun _ => 0) s.mem a b := rfl
@[simp] theorem State.putByte_upsets : (s.putByte a b).upsets = Sparse.set (fun _ => 0) s.upsets a 0 := rfl
@[simp] theorem State.putByte_chan : (s.putByte a b).chan = s.chan := rfl
@[simp] theorem State.putByte_late : (s.putByte a b).late = s.late := rfl
@[simp] theorem State.putByte_tags : (s.putByte a b).tags = s.tags := rfl
@[simp] theorem State.putByte_checked : (s.putByte a b).checked = s.checked := rfl
@[simp] theorem State.putByte_clusters : (s.putByte a b).clusters = s.clusters := rfl
@[simp] theorem State.putByte_engines : (s.putByte a b).engines = s.engines := rfl
@[simp] theorem State.putByte_dunes : (s.putByte a b).dunes = s.dunes := rfl
@[simp] theorem State.putByte_slvs : (s.putByte a b).slvs = s.slvs := rfl
@[simp] theorem State.putByte_loam : (s.putByte a b).loam = s.loam := rfl
@[simp] theorem State.putByte_tilth : (s.putByte a b).tilth = s.tilth := rfl
@[simp] theorem State.putByte_phaseReports : (s.putByte a b).phaseReports = s.phaseReports := rfl
@[simp] theorem State.putByte_queues : (s.putByte a b).queues = s.queues := rfl
@[simp] theorem State.putByte_objs : (s.putByte a b).objs = s.objs := rfl
@[simp] theorem State.putByte_adm : (s.putByte a b).adm = s.adm := rfl
@[simp] theorem State.putByte_overdueCtr : (s.putByte a b).overdueCtr = s.overdueCtr := rfl
@[simp] theorem State.putByte_dispatchStopped : (s.putByte a b).dispatchStopped = s.dispatchStopped := rfl
@[simp] theorem State.putByte_slots : (s.putByte a b).slots = s.slots := rfl
@[simp] theorem State.putByte_batches : (s.putByte a b).batches = s.batches := rfl
@[simp] theorem State.putByte_quiCmds : (s.putByte a b).quiCmds = s.quiCmds := rfl
@[simp] theorem State.putByte_cows : (s.putByte a b).cows = s.cows := rfl
@[simp] theorem State.putByte_movers : (s.putByte a b).movers = s.movers := rfl
@[simp] theorem State.putByte_reports : (s.putByte a b).reports = s.reports := rfl
@[simp] theorem State.putByte_brokeSeq : (s.putByte a b).brokeSeq = s.brokeSeq := rfl
@[simp] theorem State.putByte_ftQueue : (s.putByte a b).ftQueue = s.ftQueue := rfl
@[simp] theorem State.putByte_lastPass : (s.putByte a b).lastPass = s.lastPass := rfl
@[simp] theorem State.putByte_trackers : (s.putByte a b).trackers = s.trackers := rfl
@[simp] theorem State.putByte_provNext : (s.putByte a b).provNext = s.provNext := rfl
@[simp] theorem State.putByte_brokeCopied : (s.putByte a b).brokeCopied = s.brokeCopied := rfl
@[simp] theorem State.putByte_poisonBy : (s.putByte a b).poisonBy = s.poisonBy := rfl
@[simp] theorem State.putByte_budgeted : (s.putByte a b).budgeted = s.budgeted := rfl
@[simp] theorem State.putByte_ftPoints : (s.putByte a b).ftPoints = s.ftPoints := rfl
@[simp] theorem State.putByte_macs : (s.putByte a b).macs = s.macs := rfl
@[simp] theorem State.putByte_log : (s.putByte a b).log = s.log := rfl
@[simp] theorem State.putByte_timAcc : (s.putByte a b).timAcc = s.timAcc := rfl
@[simp] theorem State.putByte_timRho : (s.putByte a b).timRho = s.timRho := rfl
@[simp] theorem State.putByte_timEpoch : (s.putByte a b).timEpoch = s.timEpoch := rfl
@[simp] theorem State.putByte_hbxs : (s.putByte a b).hbxs = s.hbxs := rfl
@[simp] theorem State.putByte_hbxq : (s.putByte a b).hbxq = s.hbxq := rfl
@[simp] theorem State.putByte_hbxCopy : (s.putByte a b).hbxCopy = s.hbxCopy := rfl
@[simp] theorem State.putByte_patrols : (s.putByte a b).patrols = s.patrols := rfl
@[simp] theorem State.putByte_zports : (s.putByte a b).zports = s.zports := rfl
@[simp] theorem State.putByte_pports : (s.putByte a b).pports = s.pports := rfl
@[simp] theorem State.putByte_csis : (s.putByte a b).csis = s.csis := rfl
@[simp] theorem State.putByte_flashCmd : (s.putByte a b).flashCmd = s.flashCmd := rfl
@[simp] theorem State.putByte_flashHeld : (s.putByte a b).flashHeld = s.flashHeld := rfl
@[simp] theorem State.putByte_flash : (s.putByte a b).flash = s.flash := rfl
@[simp] theorem State.putByte_flashRegs : (s.putByte a b).flashRegs = s.flashRegs := rfl
@[simp] theorem State.putByte_cans : (s.putByte a b).cans = s.cans := rfl
@[simp] theorem State.putByte_pins : (s.putByte a b).pins = s.pins := rfl
@[simp] theorem State.putByte_msis : (s.putByte a b).msis = s.msis := rfl
@[simp] theorem State.putByte_eip : (s.putByte a b).eip = s.eip := rfl
@[simp] theorem State.putByte_harts : (s.putByte a b).harts = s.harts := rfl
@[simp] theorem State.putByte_wires : (s.putByte a b).wires = s.wires := rfl
@[simp] theorem State.putByte_iotlb : (s.putByte a b).iotlb = s.iotlb := rfl
@[simp] theorem State.putByte_pmu : (s.putByte a b).pmu = s.pmu := rfl
@[simp] theorem State.putByte_thermal : (s.putByte a b).thermal = s.thermal := rfl
@[simp] theorem State.putByte_mti : (s.putByte a b).mti = s.mti := rfl
@[simp] theorem State.putByte_mtiStore : (s.putByte a b).mtiStore = s.mtiStore := rfl
@[simp] theorem State.putByte_rtcNext : (s.putByte a b).rtcNext = s.rtcNext := rfl
@[simp] theorem State.putByte_lostToLog : (s.putByte a b).lostToLog = s.lostToLog := rfl
@[simp] theorem State.putByte_fuses : (s.putByte a b).fuses = s.fuses := rfl
@[simp] theorem State.putByte_running : (s.putByte a b).running = s.running := rfl
@[simp] theorem State.putByte_mgt : (s.putByte a b).mgt = s.mgt := rfl
@[simp] theorem State.putByte_tap : (s.putByte a b).tap = s.tap := rfl
@[simp] theorem State.putByte_supply : (s.putByte a b).supply = s.supply := rfl
end putByteLaws

section flipLaws
variable (s : State) (a : Nat) (b : Byte)
@[simp] theorem State.flip_pending : (s.flip a b).pending = s.pending := rfl
@[simp] theorem State.flip_resp : (s.flip a b).resp = s.resp := rfl
@[simp] theorem State.flip_out : (s.flip a b).out = s.out := rfl
@[simp] theorem State.flip_freeCtr : (s.flip a b).freeCtr = s.freeCtr := rfl
@[simp] theorem State.flip_idCtr : (s.flip a b).idCtr = s.idCtr := rfl
@[simp] theorem State.flip_now : (s.flip a b).now = s.now := rfl
@[simp] theorem State.flip_cyc : (s.flip a b).cyc = s.cyc := rfl
@[simp] theorem State.flip_dlNow : (s.flip a b).dlNow = s.dlNow := rfl
@[simp] theorem State.flip_regs : (s.flip a b).regs = s.regs := rfl
@[simp] theorem State.flip_imageRegs : (s.flip a b).imageRegs = s.imageRegs := rfl
@[simp] theorem State.flip_latches : (s.flip a b).latches = s.latches := rfl
@[simp] theorem State.flip_held : (s.flip a b).held = s.held := rfl
@[simp] theorem State.flip_pd : (s.flip a b).pd = s.pd := rfl
@[simp] theorem State.flip_mem : (s.flip a b).mem = s.mem := rfl
@[simp] theorem State.flip_chan : (s.flip a b).chan = s.chan := rfl
@[simp] theorem State.flip_late : (s.flip a b).late = s.late := rfl
@[simp] theorem State.flip_tags : (s.flip a b).tags = s.tags := rfl
@[simp] theorem State.flip_checked : (s.flip a b).checked = s.checked := rfl
@[simp] theorem State.flip_clusters : (s.flip a b).clusters = s.clusters := rfl
@[simp] theorem State.flip_engines : (s.flip a b).engines = s.engines := rfl
@[simp] theorem State.flip_dunes : (s.flip a b).dunes = s.dunes := rfl
@[simp] theorem State.flip_slvs : (s.flip a b).slvs = s.slvs := rfl
@[simp] theorem State.flip_loam : (s.flip a b).loam = s.loam := rfl
@[simp] theorem State.flip_tilth : (s.flip a b).tilth = s.tilth := rfl
@[simp] theorem State.flip_phaseReports : (s.flip a b).phaseReports = s.phaseReports := rfl
@[simp] theorem State.flip_queues : (s.flip a b).queues = s.queues := rfl
@[simp] theorem State.flip_objs : (s.flip a b).objs = s.objs := rfl
@[simp] theorem State.flip_adm : (s.flip a b).adm = s.adm := rfl
@[simp] theorem State.flip_overdueCtr : (s.flip a b).overdueCtr = s.overdueCtr := rfl
@[simp] theorem State.flip_dispatchStopped : (s.flip a b).dispatchStopped = s.dispatchStopped := rfl
@[simp] theorem State.flip_slots : (s.flip a b).slots = s.slots := rfl
@[simp] theorem State.flip_batches : (s.flip a b).batches = s.batches := rfl
@[simp] theorem State.flip_quiCmds : (s.flip a b).quiCmds = s.quiCmds := rfl
@[simp] theorem State.flip_cows : (s.flip a b).cows = s.cows := rfl
@[simp] theorem State.flip_movers : (s.flip a b).movers = s.movers := rfl
@[simp] theorem State.flip_reports : (s.flip a b).reports = s.reports := rfl
@[simp] theorem State.flip_brokeSeq : (s.flip a b).brokeSeq = s.brokeSeq := rfl
@[simp] theorem State.flip_ftQueue : (s.flip a b).ftQueue = s.ftQueue := rfl
@[simp] theorem State.flip_lastPass : (s.flip a b).lastPass = s.lastPass := rfl
@[simp] theorem State.flip_trackers : (s.flip a b).trackers = s.trackers := rfl
@[simp] theorem State.flip_provNext : (s.flip a b).provNext = s.provNext := rfl
@[simp] theorem State.flip_brokeCopied : (s.flip a b).brokeCopied = s.brokeCopied := rfl
@[simp] theorem State.flip_poisonBy : (s.flip a b).poisonBy = s.poisonBy := rfl
@[simp] theorem State.flip_budgeted : (s.flip a b).budgeted = s.budgeted := rfl
@[simp] theorem State.flip_ftPoints : (s.flip a b).ftPoints = s.ftPoints := rfl
@[simp] theorem State.flip_macs : (s.flip a b).macs = s.macs := rfl
@[simp] theorem State.flip_log : (s.flip a b).log = s.log := rfl
@[simp] theorem State.flip_timAcc : (s.flip a b).timAcc = s.timAcc := rfl
@[simp] theorem State.flip_timRho : (s.flip a b).timRho = s.timRho := rfl
@[simp] theorem State.flip_timEpoch : (s.flip a b).timEpoch = s.timEpoch := rfl
@[simp] theorem State.flip_hbxs : (s.flip a b).hbxs = s.hbxs := rfl
@[simp] theorem State.flip_hbxq : (s.flip a b).hbxq = s.hbxq := rfl
@[simp] theorem State.flip_hbxCopy : (s.flip a b).hbxCopy = s.hbxCopy := rfl
@[simp] theorem State.flip_patrols : (s.flip a b).patrols = s.patrols := rfl
@[simp] theorem State.flip_zports : (s.flip a b).zports = s.zports := rfl
@[simp] theorem State.flip_pports : (s.flip a b).pports = s.pports := rfl
@[simp] theorem State.flip_csis : (s.flip a b).csis = s.csis := rfl
@[simp] theorem State.flip_flashCmd : (s.flip a b).flashCmd = s.flashCmd := rfl
@[simp] theorem State.flip_flashHeld : (s.flip a b).flashHeld = s.flashHeld := rfl
@[simp] theorem State.flip_flash : (s.flip a b).flash = s.flash := rfl
@[simp] theorem State.flip_flashRegs : (s.flip a b).flashRegs = s.flashRegs := rfl
@[simp] theorem State.flip_cans : (s.flip a b).cans = s.cans := rfl
@[simp] theorem State.flip_pins : (s.flip a b).pins = s.pins := rfl
@[simp] theorem State.flip_msis : (s.flip a b).msis = s.msis := rfl
@[simp] theorem State.flip_eip : (s.flip a b).eip = s.eip := rfl
@[simp] theorem State.flip_harts : (s.flip a b).harts = s.harts := rfl
@[simp] theorem State.flip_wires : (s.flip a b).wires = s.wires := rfl
@[simp] theorem State.flip_iotlb : (s.flip a b).iotlb = s.iotlb := rfl
@[simp] theorem State.flip_pmu : (s.flip a b).pmu = s.pmu := rfl
@[simp] theorem State.flip_thermal : (s.flip a b).thermal = s.thermal := rfl
@[simp] theorem State.flip_mti : (s.flip a b).mti = s.mti := rfl
@[simp] theorem State.flip_mtiStore : (s.flip a b).mtiStore = s.mtiStore := rfl
@[simp] theorem State.flip_rtcNext : (s.flip a b).rtcNext = s.rtcNext := rfl
@[simp] theorem State.flip_lostToLog : (s.flip a b).lostToLog = s.lostToLog := rfl
@[simp] theorem State.flip_fuses : (s.flip a b).fuses = s.fuses := rfl
@[simp] theorem State.flip_running : (s.flip a b).running = s.running := rfl
@[simp] theorem State.flip_mgt : (s.flip a b).mgt = s.mgt := rfl
@[simp] theorem State.flip_tap : (s.flip a b).tap = s.tap := rfl
@[simp] theorem State.flip_supply : (s.flip a b).supply = s.supply := rfl
end flipLaws

section setTagLaws
variable (s : State) (b : Nat) (t : BlockTag)
@[simp] theorem State.setTag_pending : (s.setTag b t).pending = s.pending := rfl
@[simp] theorem State.setTag_resp : (s.setTag b t).resp = s.resp := rfl
@[simp] theorem State.setTag_out : (s.setTag b t).out = s.out := rfl
@[simp] theorem State.setTag_freeCtr : (s.setTag b t).freeCtr = s.freeCtr := rfl
@[simp] theorem State.setTag_idCtr : (s.setTag b t).idCtr = s.idCtr := rfl
@[simp] theorem State.setTag_now : (s.setTag b t).now = s.now := rfl
@[simp] theorem State.setTag_cyc : (s.setTag b t).cyc = s.cyc := rfl
@[simp] theorem State.setTag_dlNow : (s.setTag b t).dlNow = s.dlNow := rfl
@[simp] theorem State.setTag_regs : (s.setTag b t).regs = s.regs := rfl
@[simp] theorem State.setTag_imageRegs : (s.setTag b t).imageRegs = s.imageRegs := rfl
@[simp] theorem State.setTag_latches : (s.setTag b t).latches = s.latches := rfl
@[simp] theorem State.setTag_held : (s.setTag b t).held = s.held := rfl
@[simp] theorem State.setTag_pd : (s.setTag b t).pd = s.pd := rfl
@[simp] theorem State.setTag_mem : (s.setTag b t).mem = s.mem := rfl
@[simp] theorem State.setTag_upsets : (s.setTag b t).upsets = s.upsets := rfl
@[simp] theorem State.setTag_chan : (s.setTag b t).chan = s.chan := rfl
@[simp] theorem State.setTag_late : (s.setTag b t).late = s.late := rfl
@[simp] theorem State.setTag_checked : (s.setTag b t).checked = s.checked := rfl
@[simp] theorem State.setTag_clusters : (s.setTag b t).clusters = s.clusters := rfl
@[simp] theorem State.setTag_engines : (s.setTag b t).engines = s.engines := rfl
@[simp] theorem State.setTag_dunes : (s.setTag b t).dunes = s.dunes := rfl
@[simp] theorem State.setTag_slvs : (s.setTag b t).slvs = s.slvs := rfl
@[simp] theorem State.setTag_loam : (s.setTag b t).loam = s.loam := rfl
@[simp] theorem State.setTag_tilth : (s.setTag b t).tilth = s.tilth := rfl
@[simp] theorem State.setTag_phaseReports : (s.setTag b t).phaseReports = s.phaseReports := rfl
@[simp] theorem State.setTag_queues : (s.setTag b t).queues = s.queues := rfl
@[simp] theorem State.setTag_objs : (s.setTag b t).objs = s.objs := rfl
@[simp] theorem State.setTag_adm : (s.setTag b t).adm = s.adm := rfl
@[simp] theorem State.setTag_overdueCtr : (s.setTag b t).overdueCtr = s.overdueCtr := rfl
@[simp] theorem State.setTag_dispatchStopped : (s.setTag b t).dispatchStopped = s.dispatchStopped := rfl
@[simp] theorem State.setTag_slots : (s.setTag b t).slots = s.slots := rfl
@[simp] theorem State.setTag_batches : (s.setTag b t).batches = s.batches := rfl
@[simp] theorem State.setTag_quiCmds : (s.setTag b t).quiCmds = s.quiCmds := rfl
@[simp] theorem State.setTag_cows : (s.setTag b t).cows = s.cows := rfl
@[simp] theorem State.setTag_movers : (s.setTag b t).movers = s.movers := rfl
@[simp] theorem State.setTag_reports : (s.setTag b t).reports = s.reports := rfl
@[simp] theorem State.setTag_brokeSeq : (s.setTag b t).brokeSeq = s.brokeSeq := rfl
@[simp] theorem State.setTag_ftQueue : (s.setTag b t).ftQueue = s.ftQueue := rfl
@[simp] theorem State.setTag_lastPass : (s.setTag b t).lastPass = s.lastPass := rfl
@[simp] theorem State.setTag_trackers : (s.setTag b t).trackers = s.trackers := rfl
@[simp] theorem State.setTag_provNext : (s.setTag b t).provNext = s.provNext := rfl
@[simp] theorem State.setTag_brokeCopied : (s.setTag b t).brokeCopied = s.brokeCopied := rfl
@[simp] theorem State.setTag_poisonBy : (s.setTag b t).poisonBy = s.poisonBy := rfl
@[simp] theorem State.setTag_budgeted : (s.setTag b t).budgeted = s.budgeted := rfl
@[simp] theorem State.setTag_ftPoints : (s.setTag b t).ftPoints = s.ftPoints := rfl
@[simp] theorem State.setTag_macs : (s.setTag b t).macs = s.macs := rfl
@[simp] theorem State.setTag_log : (s.setTag b t).log = s.log := rfl
@[simp] theorem State.setTag_timAcc : (s.setTag b t).timAcc = s.timAcc := rfl
@[simp] theorem State.setTag_timRho : (s.setTag b t).timRho = s.timRho := rfl
@[simp] theorem State.setTag_timEpoch : (s.setTag b t).timEpoch = s.timEpoch := rfl
@[simp] theorem State.setTag_hbxs : (s.setTag b t).hbxs = s.hbxs := rfl
@[simp] theorem State.setTag_hbxq : (s.setTag b t).hbxq = s.hbxq := rfl
@[simp] theorem State.setTag_hbxCopy : (s.setTag b t).hbxCopy = s.hbxCopy := rfl
@[simp] theorem State.setTag_patrols : (s.setTag b t).patrols = s.patrols := rfl
@[simp] theorem State.setTag_zports : (s.setTag b t).zports = s.zports := rfl
@[simp] theorem State.setTag_pports : (s.setTag b t).pports = s.pports := rfl
@[simp] theorem State.setTag_csis : (s.setTag b t).csis = s.csis := rfl
@[simp] theorem State.setTag_flashCmd : (s.setTag b t).flashCmd = s.flashCmd := rfl
@[simp] theorem State.setTag_flashHeld : (s.setTag b t).flashHeld = s.flashHeld := rfl
@[simp] theorem State.setTag_flash : (s.setTag b t).flash = s.flash := rfl
@[simp] theorem State.setTag_flashRegs : (s.setTag b t).flashRegs = s.flashRegs := rfl
@[simp] theorem State.setTag_cans : (s.setTag b t).cans = s.cans := rfl
@[simp] theorem State.setTag_pins : (s.setTag b t).pins = s.pins := rfl
@[simp] theorem State.setTag_msis : (s.setTag b t).msis = s.msis := rfl
@[simp] theorem State.setTag_eip : (s.setTag b t).eip = s.eip := rfl
@[simp] theorem State.setTag_harts : (s.setTag b t).harts = s.harts := rfl
@[simp] theorem State.setTag_wires : (s.setTag b t).wires = s.wires := rfl
@[simp] theorem State.setTag_iotlb : (s.setTag b t).iotlb = s.iotlb := rfl
@[simp] theorem State.setTag_pmu : (s.setTag b t).pmu = s.pmu := rfl
@[simp] theorem State.setTag_thermal : (s.setTag b t).thermal = s.thermal := rfl
@[simp] theorem State.setTag_mti : (s.setTag b t).mti = s.mti := rfl
@[simp] theorem State.setTag_mtiStore : (s.setTag b t).mtiStore = s.mtiStore := rfl
@[simp] theorem State.setTag_rtcNext : (s.setTag b t).rtcNext = s.rtcNext := rfl
@[simp] theorem State.setTag_lostToLog : (s.setTag b t).lostToLog = s.lostToLog := rfl
@[simp] theorem State.setTag_fuses : (s.setTag b t).fuses = s.fuses := rfl
@[simp] theorem State.setTag_running : (s.setTag b t).running = s.running := rfl
@[simp] theorem State.setTag_mgt : (s.setTag b t).mgt = s.mgt := rfl
@[simp] theorem State.setTag_tap : (s.setTag b t).tap = s.tap := rfl
@[simp] theorem State.setTag_supply : (s.setTag b t).supply = s.supply := rfl
end setTagLaws

section setCheckedLaws
variable (s : State) (n : Nat) (l : List Nat)
@[simp] theorem State.setChecked_pending : (s.setChecked n l).pending = s.pending := rfl
@[simp] theorem State.setChecked_resp : (s.setChecked n l).resp = s.resp := rfl
@[simp] theorem State.setChecked_out : (s.setChecked n l).out = s.out := rfl
@[simp] theorem State.setChecked_freeCtr : (s.setChecked n l).freeCtr = s.freeCtr := rfl
@[simp] theorem State.setChecked_idCtr : (s.setChecked n l).idCtr = s.idCtr := rfl
@[simp] theorem State.setChecked_now : (s.setChecked n l).now = s.now := rfl
@[simp] theorem State.setChecked_cyc : (s.setChecked n l).cyc = s.cyc := rfl
@[simp] theorem State.setChecked_dlNow : (s.setChecked n l).dlNow = s.dlNow := rfl
@[simp] theorem State.setChecked_regs : (s.setChecked n l).regs = s.regs := rfl
@[simp] theorem State.setChecked_imageRegs : (s.setChecked n l).imageRegs = s.imageRegs := rfl
@[simp] theorem State.setChecked_latches : (s.setChecked n l).latches = s.latches := rfl
@[simp] theorem State.setChecked_held : (s.setChecked n l).held = s.held := rfl
@[simp] theorem State.setChecked_pd : (s.setChecked n l).pd = s.pd := rfl
@[simp] theorem State.setChecked_mem : (s.setChecked n l).mem = s.mem := rfl
@[simp] theorem State.setChecked_upsets : (s.setChecked n l).upsets = s.upsets := rfl
@[simp] theorem State.setChecked_chan : (s.setChecked n l).chan = s.chan := rfl
@[simp] theorem State.setChecked_late : (s.setChecked n l).late = s.late := rfl
@[simp] theorem State.setChecked_tags : (s.setChecked n l).tags = s.tags := rfl
@[simp] theorem State.setChecked_clusters : (s.setChecked n l).clusters = s.clusters := rfl
@[simp] theorem State.setChecked_engines : (s.setChecked n l).engines = s.engines := rfl
@[simp] theorem State.setChecked_dunes : (s.setChecked n l).dunes = s.dunes := rfl
@[simp] theorem State.setChecked_slvs : (s.setChecked n l).slvs = s.slvs := rfl
@[simp] theorem State.setChecked_loam : (s.setChecked n l).loam = s.loam := rfl
@[simp] theorem State.setChecked_tilth : (s.setChecked n l).tilth = s.tilth := rfl
@[simp] theorem State.setChecked_phaseReports : (s.setChecked n l).phaseReports = s.phaseReports := rfl
@[simp] theorem State.setChecked_queues : (s.setChecked n l).queues = s.queues := rfl
@[simp] theorem State.setChecked_objs : (s.setChecked n l).objs = s.objs := rfl
@[simp] theorem State.setChecked_adm : (s.setChecked n l).adm = s.adm := rfl
@[simp] theorem State.setChecked_overdueCtr : (s.setChecked n l).overdueCtr = s.overdueCtr := rfl
@[simp] theorem State.setChecked_dispatchStopped : (s.setChecked n l).dispatchStopped = s.dispatchStopped := rfl
@[simp] theorem State.setChecked_slots : (s.setChecked n l).slots = s.slots := rfl
@[simp] theorem State.setChecked_batches : (s.setChecked n l).batches = s.batches := rfl
@[simp] theorem State.setChecked_quiCmds : (s.setChecked n l).quiCmds = s.quiCmds := rfl
@[simp] theorem State.setChecked_cows : (s.setChecked n l).cows = s.cows := rfl
@[simp] theorem State.setChecked_movers : (s.setChecked n l).movers = s.movers := rfl
@[simp] theorem State.setChecked_reports : (s.setChecked n l).reports = s.reports := rfl
@[simp] theorem State.setChecked_brokeSeq : (s.setChecked n l).brokeSeq = s.brokeSeq := rfl
@[simp] theorem State.setChecked_ftQueue : (s.setChecked n l).ftQueue = s.ftQueue := rfl
@[simp] theorem State.setChecked_lastPass : (s.setChecked n l).lastPass = s.lastPass := rfl
@[simp] theorem State.setChecked_trackers : (s.setChecked n l).trackers = s.trackers := rfl
@[simp] theorem State.setChecked_provNext : (s.setChecked n l).provNext = s.provNext := rfl
@[simp] theorem State.setChecked_brokeCopied : (s.setChecked n l).brokeCopied = s.brokeCopied := rfl
@[simp] theorem State.setChecked_poisonBy : (s.setChecked n l).poisonBy = s.poisonBy := rfl
@[simp] theorem State.setChecked_budgeted : (s.setChecked n l).budgeted = s.budgeted := rfl
@[simp] theorem State.setChecked_ftPoints : (s.setChecked n l).ftPoints = s.ftPoints := rfl
@[simp] theorem State.setChecked_macs : (s.setChecked n l).macs = s.macs := rfl
@[simp] theorem State.setChecked_log : (s.setChecked n l).log = s.log := rfl
@[simp] theorem State.setChecked_timAcc : (s.setChecked n l).timAcc = s.timAcc := rfl
@[simp] theorem State.setChecked_timRho : (s.setChecked n l).timRho = s.timRho := rfl
@[simp] theorem State.setChecked_timEpoch : (s.setChecked n l).timEpoch = s.timEpoch := rfl
@[simp] theorem State.setChecked_hbxs : (s.setChecked n l).hbxs = s.hbxs := rfl
@[simp] theorem State.setChecked_hbxq : (s.setChecked n l).hbxq = s.hbxq := rfl
@[simp] theorem State.setChecked_hbxCopy : (s.setChecked n l).hbxCopy = s.hbxCopy := rfl
@[simp] theorem State.setChecked_patrols : (s.setChecked n l).patrols = s.patrols := rfl
@[simp] theorem State.setChecked_zports : (s.setChecked n l).zports = s.zports := rfl
@[simp] theorem State.setChecked_pports : (s.setChecked n l).pports = s.pports := rfl
@[simp] theorem State.setChecked_csis : (s.setChecked n l).csis = s.csis := rfl
@[simp] theorem State.setChecked_flashCmd : (s.setChecked n l).flashCmd = s.flashCmd := rfl
@[simp] theorem State.setChecked_flashHeld : (s.setChecked n l).flashHeld = s.flashHeld := rfl
@[simp] theorem State.setChecked_flash : (s.setChecked n l).flash = s.flash := rfl
@[simp] theorem State.setChecked_flashRegs : (s.setChecked n l).flashRegs = s.flashRegs := rfl
@[simp] theorem State.setChecked_cans : (s.setChecked n l).cans = s.cans := rfl
@[simp] theorem State.setChecked_pins : (s.setChecked n l).pins = s.pins := rfl
@[simp] theorem State.setChecked_msis : (s.setChecked n l).msis = s.msis := rfl
@[simp] theorem State.setChecked_eip : (s.setChecked n l).eip = s.eip := rfl
@[simp] theorem State.setChecked_harts : (s.setChecked n l).harts = s.harts := rfl
@[simp] theorem State.setChecked_wires : (s.setChecked n l).wires = s.wires := rfl
@[simp] theorem State.setChecked_iotlb : (s.setChecked n l).iotlb = s.iotlb := rfl
@[simp] theorem State.setChecked_pmu : (s.setChecked n l).pmu = s.pmu := rfl
@[simp] theorem State.setChecked_thermal : (s.setChecked n l).thermal = s.thermal := rfl
@[simp] theorem State.setChecked_mti : (s.setChecked n l).mti = s.mti := rfl
@[simp] theorem State.setChecked_mtiStore : (s.setChecked n l).mtiStore = s.mtiStore := rfl
@[simp] theorem State.setChecked_rtcNext : (s.setChecked n l).rtcNext = s.rtcNext := rfl
@[simp] theorem State.setChecked_lostToLog : (s.setChecked n l).lostToLog = s.lostToLog := rfl
@[simp] theorem State.setChecked_fuses : (s.setChecked n l).fuses = s.fuses := rfl
@[simp] theorem State.setChecked_running : (s.setChecked n l).running = s.running := rfl
@[simp] theorem State.setChecked_mgt : (s.setChecked n l).mgt = s.mgt := rfl
@[simp] theorem State.setChecked_tap : (s.setChecked n l).tap = s.tap := rfl
@[simp] theorem State.setChecked_supply : (s.setChecked n l).supply = s.supply := rfl
end setCheckedLaws

section reportLaws
variable (s : State) (r : Report)
@[simp] theorem State.report_pending : (s.report r).pending = s.pending := rfl
@[simp] theorem State.report_resp : (s.report r).resp = s.resp := rfl
@[simp] theorem State.report_out : (s.report r).out = s.out := rfl
@[simp] theorem State.report_freeCtr : (s.report r).freeCtr = s.freeCtr := rfl
@[simp] theorem State.report_idCtr : (s.report r).idCtr = s.idCtr := rfl
@[simp] theorem State.report_now : (s.report r).now = s.now := rfl
@[simp] theorem State.report_cyc : (s.report r).cyc = s.cyc := rfl
@[simp] theorem State.report_dlNow : (s.report r).dlNow = s.dlNow := rfl
@[simp] theorem State.report_regs : (s.report r).regs = s.regs := rfl
@[simp] theorem State.report_imageRegs : (s.report r).imageRegs = s.imageRegs := rfl
@[simp] theorem State.report_latches : (s.report r).latches = s.latches := rfl
@[simp] theorem State.report_held : (s.report r).held = s.held := rfl
@[simp] theorem State.report_pd : (s.report r).pd = s.pd := rfl
@[simp] theorem State.report_mem : (s.report r).mem = s.mem := rfl
@[simp] theorem State.report_upsets : (s.report r).upsets = s.upsets := rfl
@[simp] theorem State.report_chan : (s.report r).chan = s.chan := rfl
@[simp] theorem State.report_late : (s.report r).late = s.late := rfl
@[simp] theorem State.report_tags : (s.report r).tags = s.tags := rfl
@[simp] theorem State.report_checked : (s.report r).checked = s.checked := rfl
@[simp] theorem State.report_clusters : (s.report r).clusters = s.clusters := rfl
@[simp] theorem State.report_engines : (s.report r).engines = s.engines := rfl
@[simp] theorem State.report_dunes : (s.report r).dunes = s.dunes := rfl
@[simp] theorem State.report_slvs : (s.report r).slvs = s.slvs := rfl
@[simp] theorem State.report_loam : (s.report r).loam = s.loam := rfl
@[simp] theorem State.report_tilth : (s.report r).tilth = s.tilth := rfl
@[simp] theorem State.report_phaseReports : (s.report r).phaseReports = s.phaseReports := rfl
@[simp] theorem State.report_queues : (s.report r).queues = s.queues := rfl
@[simp] theorem State.report_objs : (s.report r).objs = s.objs := rfl
@[simp] theorem State.report_adm : (s.report r).adm = s.adm := rfl
@[simp] theorem State.report_overdueCtr : (s.report r).overdueCtr = s.overdueCtr := rfl
@[simp] theorem State.report_dispatchStopped : (s.report r).dispatchStopped = s.dispatchStopped := rfl
@[simp] theorem State.report_slots : (s.report r).slots = s.slots := rfl
@[simp] theorem State.report_batches : (s.report r).batches = s.batches := rfl
@[simp] theorem State.report_quiCmds : (s.report r).quiCmds = s.quiCmds := rfl
@[simp] theorem State.report_cows : (s.report r).cows = s.cows := rfl
@[simp] theorem State.report_movers : (s.report r).movers = s.movers := rfl
@[simp] theorem State.report_reports : (s.report r).reports = s.reports ++ [r] := rfl
@[simp] theorem State.report_brokeSeq : (s.report r).brokeSeq = s.brokeSeq := rfl
@[simp] theorem State.report_ftQueue : (s.report r).ftQueue = s.ftQueue := rfl
@[simp] theorem State.report_lastPass : (s.report r).lastPass = s.lastPass := rfl
@[simp] theorem State.report_trackers : (s.report r).trackers = s.trackers := rfl
@[simp] theorem State.report_provNext : (s.report r).provNext = s.provNext := rfl
@[simp] theorem State.report_brokeCopied : (s.report r).brokeCopied = s.brokeCopied := rfl
@[simp] theorem State.report_poisonBy : (s.report r).poisonBy = s.poisonBy := rfl
@[simp] theorem State.report_budgeted : (s.report r).budgeted = s.budgeted := rfl
@[simp] theorem State.report_ftPoints : (s.report r).ftPoints = s.ftPoints := rfl
@[simp] theorem State.report_macs : (s.report r).macs = s.macs := rfl
@[simp] theorem State.report_log : (s.report r).log = s.log := rfl
@[simp] theorem State.report_timAcc : (s.report r).timAcc = s.timAcc := rfl
@[simp] theorem State.report_timRho : (s.report r).timRho = s.timRho := rfl
@[simp] theorem State.report_timEpoch : (s.report r).timEpoch = s.timEpoch := rfl
@[simp] theorem State.report_hbxs : (s.report r).hbxs = s.hbxs := rfl
@[simp] theorem State.report_hbxq : (s.report r).hbxq = s.hbxq := rfl
@[simp] theorem State.report_hbxCopy : (s.report r).hbxCopy = s.hbxCopy := rfl
@[simp] theorem State.report_patrols : (s.report r).patrols = s.patrols := rfl
@[simp] theorem State.report_zports : (s.report r).zports = s.zports := rfl
@[simp] theorem State.report_pports : (s.report r).pports = s.pports := rfl
@[simp] theorem State.report_csis : (s.report r).csis = s.csis := rfl
@[simp] theorem State.report_flashCmd : (s.report r).flashCmd = s.flashCmd := rfl
@[simp] theorem State.report_flashHeld : (s.report r).flashHeld = s.flashHeld := rfl
@[simp] theorem State.report_flash : (s.report r).flash = s.flash := rfl
@[simp] theorem State.report_flashRegs : (s.report r).flashRegs = s.flashRegs := rfl
@[simp] theorem State.report_cans : (s.report r).cans = s.cans := rfl
@[simp] theorem State.report_pins : (s.report r).pins = s.pins := rfl
@[simp] theorem State.report_msis : (s.report r).msis = s.msis := rfl
@[simp] theorem State.report_eip : (s.report r).eip = s.eip := rfl
@[simp] theorem State.report_harts : (s.report r).harts = s.harts := rfl
@[simp] theorem State.report_wires : (s.report r).wires = s.wires := rfl
@[simp] theorem State.report_iotlb : (s.report r).iotlb = s.iotlb := rfl
@[simp] theorem State.report_pmu : (s.report r).pmu = s.pmu := rfl
@[simp] theorem State.report_thermal : (s.report r).thermal = s.thermal := rfl
@[simp] theorem State.report_mti : (s.report r).mti = s.mti := rfl
@[simp] theorem State.report_mtiStore : (s.report r).mtiStore = s.mtiStore := rfl
@[simp] theorem State.report_rtcNext : (s.report r).rtcNext = s.rtcNext := rfl
@[simp] theorem State.report_lostToLog : (s.report r).lostToLog = s.lostToLog := rfl
@[simp] theorem State.report_fuses : (s.report r).fuses = s.fuses := rfl
@[simp] theorem State.report_running : (s.report r).running = s.running := rfl
@[simp] theorem State.report_mgt : (s.report r).mgt = s.mgt := rfl
@[simp] theorem State.report_tap : (s.report r).tap = s.tap := rfl
@[simp] theorem State.report_supply : (s.report r).supply = s.supply := rfl
end reportLaws

section sendMsiLaws
variable (s : State) (h f e : Nat)
@[simp] theorem State.sendMsi_pending : (s.sendMsi h f e).pending = s.pending := rfl
@[simp] theorem State.sendMsi_resp : (s.sendMsi h f e).resp = s.resp := rfl
@[simp] theorem State.sendMsi_out : (s.sendMsi h f e).out = s.out ++ [.msi h f e] := rfl
@[simp] theorem State.sendMsi_freeCtr : (s.sendMsi h f e).freeCtr = s.freeCtr := rfl
@[simp] theorem State.sendMsi_idCtr : (s.sendMsi h f e).idCtr = s.idCtr := rfl
@[simp] theorem State.sendMsi_now : (s.sendMsi h f e).now = s.now := rfl
@[simp] theorem State.sendMsi_cyc : (s.sendMsi h f e).cyc = s.cyc := rfl
@[simp] theorem State.sendMsi_dlNow : (s.sendMsi h f e).dlNow = s.dlNow := rfl
@[simp] theorem State.sendMsi_regs : (s.sendMsi h f e).regs = s.regs := rfl
@[simp] theorem State.sendMsi_imageRegs : (s.sendMsi h f e).imageRegs = s.imageRegs := rfl
@[simp] theorem State.sendMsi_latches : (s.sendMsi h f e).latches = s.latches := rfl
@[simp] theorem State.sendMsi_held : (s.sendMsi h f e).held = s.held := rfl
@[simp] theorem State.sendMsi_pd : (s.sendMsi h f e).pd = s.pd := rfl
@[simp] theorem State.sendMsi_mem : (s.sendMsi h f e).mem = s.mem := rfl
@[simp] theorem State.sendMsi_upsets : (s.sendMsi h f e).upsets = s.upsets := rfl
@[simp] theorem State.sendMsi_chan : (s.sendMsi h f e).chan = s.chan := rfl
@[simp] theorem State.sendMsi_late : (s.sendMsi h f e).late = s.late := rfl
@[simp] theorem State.sendMsi_tags : (s.sendMsi h f e).tags = s.tags := rfl
@[simp] theorem State.sendMsi_checked : (s.sendMsi h f e).checked = s.checked := rfl
@[simp] theorem State.sendMsi_clusters : (s.sendMsi h f e).clusters = s.clusters := rfl
@[simp] theorem State.sendMsi_engines : (s.sendMsi h f e).engines = s.engines := rfl
@[simp] theorem State.sendMsi_dunes : (s.sendMsi h f e).dunes = s.dunes := rfl
@[simp] theorem State.sendMsi_slvs : (s.sendMsi h f e).slvs = s.slvs := rfl
@[simp] theorem State.sendMsi_loam : (s.sendMsi h f e).loam = s.loam := rfl
@[simp] theorem State.sendMsi_tilth : (s.sendMsi h f e).tilth = s.tilth := rfl
@[simp] theorem State.sendMsi_phaseReports : (s.sendMsi h f e).phaseReports = s.phaseReports := rfl
@[simp] theorem State.sendMsi_queues : (s.sendMsi h f e).queues = s.queues := rfl
@[simp] theorem State.sendMsi_objs : (s.sendMsi h f e).objs = s.objs := rfl
@[simp] theorem State.sendMsi_adm : (s.sendMsi h f e).adm = s.adm := rfl
@[simp] theorem State.sendMsi_overdueCtr : (s.sendMsi h f e).overdueCtr = s.overdueCtr := rfl
@[simp] theorem State.sendMsi_dispatchStopped : (s.sendMsi h f e).dispatchStopped = s.dispatchStopped := rfl
@[simp] theorem State.sendMsi_slots : (s.sendMsi h f e).slots = s.slots := rfl
@[simp] theorem State.sendMsi_batches : (s.sendMsi h f e).batches = s.batches := rfl
@[simp] theorem State.sendMsi_quiCmds : (s.sendMsi h f e).quiCmds = s.quiCmds := rfl
@[simp] theorem State.sendMsi_cows : (s.sendMsi h f e).cows = s.cows := rfl
@[simp] theorem State.sendMsi_movers : (s.sendMsi h f e).movers = s.movers := rfl
@[simp] theorem State.sendMsi_reports : (s.sendMsi h f e).reports = s.reports := rfl
@[simp] theorem State.sendMsi_brokeSeq : (s.sendMsi h f e).brokeSeq = s.brokeSeq := rfl
@[simp] theorem State.sendMsi_ftQueue : (s.sendMsi h f e).ftQueue = s.ftQueue := rfl
@[simp] theorem State.sendMsi_lastPass : (s.sendMsi h f e).lastPass = s.lastPass := rfl
@[simp] theorem State.sendMsi_trackers : (s.sendMsi h f e).trackers = s.trackers := rfl
@[simp] theorem State.sendMsi_provNext : (s.sendMsi h f e).provNext = s.provNext := rfl
@[simp] theorem State.sendMsi_brokeCopied : (s.sendMsi h f e).brokeCopied = s.brokeCopied := rfl
@[simp] theorem State.sendMsi_poisonBy : (s.sendMsi h f e).poisonBy = s.poisonBy := rfl
@[simp] theorem State.sendMsi_budgeted : (s.sendMsi h f e).budgeted = s.budgeted := rfl
@[simp] theorem State.sendMsi_ftPoints : (s.sendMsi h f e).ftPoints = s.ftPoints := rfl
@[simp] theorem State.sendMsi_macs : (s.sendMsi h f e).macs = s.macs := rfl
@[simp] theorem State.sendMsi_log : (s.sendMsi h f e).log = s.log := rfl
@[simp] theorem State.sendMsi_timAcc : (s.sendMsi h f e).timAcc = s.timAcc := rfl
@[simp] theorem State.sendMsi_timRho : (s.sendMsi h f e).timRho = s.timRho := rfl
@[simp] theorem State.sendMsi_timEpoch : (s.sendMsi h f e).timEpoch = s.timEpoch := rfl
@[simp] theorem State.sendMsi_hbxs : (s.sendMsi h f e).hbxs = s.hbxs := rfl
@[simp] theorem State.sendMsi_hbxq : (s.sendMsi h f e).hbxq = s.hbxq := rfl
@[simp] theorem State.sendMsi_hbxCopy : (s.sendMsi h f e).hbxCopy = s.hbxCopy := rfl
@[simp] theorem State.sendMsi_patrols : (s.sendMsi h f e).patrols = s.patrols := rfl
@[simp] theorem State.sendMsi_zports : (s.sendMsi h f e).zports = s.zports := rfl
@[simp] theorem State.sendMsi_pports : (s.sendMsi h f e).pports = s.pports := rfl
@[simp] theorem State.sendMsi_csis : (s.sendMsi h f e).csis = s.csis := rfl
@[simp] theorem State.sendMsi_flashCmd : (s.sendMsi h f e).flashCmd = s.flashCmd := rfl
@[simp] theorem State.sendMsi_flashHeld : (s.sendMsi h f e).flashHeld = s.flashHeld := rfl
@[simp] theorem State.sendMsi_flash : (s.sendMsi h f e).flash = s.flash := rfl
@[simp] theorem State.sendMsi_flashRegs : (s.sendMsi h f e).flashRegs = s.flashRegs := rfl
@[simp] theorem State.sendMsi_cans : (s.sendMsi h f e).cans = s.cans := rfl
@[simp] theorem State.sendMsi_pins : (s.sendMsi h f e).pins = s.pins := rfl
@[simp] theorem State.sendMsi_msis : (s.sendMsi h f e).msis = s.msis ++ [(h, f, e)] := rfl
@[simp] theorem State.sendMsi_eip : (s.sendMsi h f e).eip = s.eip := rfl
@[simp] theorem State.sendMsi_harts : (s.sendMsi h f e).harts = s.harts := rfl
@[simp] theorem State.sendMsi_wires : (s.sendMsi h f e).wires = s.wires := rfl
@[simp] theorem State.sendMsi_iotlb : (s.sendMsi h f e).iotlb = s.iotlb := rfl
@[simp] theorem State.sendMsi_pmu : (s.sendMsi h f e).pmu = s.pmu := rfl
@[simp] theorem State.sendMsi_thermal : (s.sendMsi h f e).thermal = s.thermal := rfl
@[simp] theorem State.sendMsi_mti : (s.sendMsi h f e).mti = s.mti := rfl
@[simp] theorem State.sendMsi_mtiStore : (s.sendMsi h f e).mtiStore = s.mtiStore := rfl
@[simp] theorem State.sendMsi_rtcNext : (s.sendMsi h f e).rtcNext = s.rtcNext := rfl
@[simp] theorem State.sendMsi_lostToLog : (s.sendMsi h f e).lostToLog = s.lostToLog := rfl
@[simp] theorem State.sendMsi_fuses : (s.sendMsi h f e).fuses = s.fuses := rfl
@[simp] theorem State.sendMsi_running : (s.sendMsi h f e).running = s.running := rfl
@[simp] theorem State.sendMsi_mgt : (s.sendMsi h f e).mgt = s.mgt := rfl
@[simp] theorem State.sendMsi_tap : (s.sendMsi h f e).tap = s.tap := rfl
@[simp] theorem State.sendMsi_supply : (s.sendMsi h f e).supply = s.supply := rfl
end sendMsiLaws

section dequeueLaws
variable (s : State) (l : List Instr)
@[simp] theorem State.dequeue_pending : (s.dequeue l).pending = l := rfl
@[simp] theorem State.dequeue_resp : (s.dequeue l).resp = s.resp := rfl
@[simp] theorem State.dequeue_out : (s.dequeue l).out = s.out := rfl
@[simp] theorem State.dequeue_freeCtr : (s.dequeue l).freeCtr = s.freeCtr := rfl
@[simp] theorem State.dequeue_idCtr : (s.dequeue l).idCtr = s.idCtr := rfl
@[simp] theorem State.dequeue_now : (s.dequeue l).now = s.now := rfl
@[simp] theorem State.dequeue_cyc : (s.dequeue l).cyc = s.cyc := rfl
@[simp] theorem State.dequeue_dlNow : (s.dequeue l).dlNow = s.dlNow := rfl
@[simp] theorem State.dequeue_regs : (s.dequeue l).regs = s.regs := rfl
@[simp] theorem State.dequeue_imageRegs : (s.dequeue l).imageRegs = s.imageRegs := rfl
@[simp] theorem State.dequeue_latches : (s.dequeue l).latches = s.latches := rfl
@[simp] theorem State.dequeue_held : (s.dequeue l).held = s.held := rfl
@[simp] theorem State.dequeue_pd : (s.dequeue l).pd = s.pd := rfl
@[simp] theorem State.dequeue_mem : (s.dequeue l).mem = s.mem := rfl
@[simp] theorem State.dequeue_upsets : (s.dequeue l).upsets = s.upsets := rfl
@[simp] theorem State.dequeue_chan : (s.dequeue l).chan = s.chan := rfl
@[simp] theorem State.dequeue_late : (s.dequeue l).late = s.late := rfl
@[simp] theorem State.dequeue_tags : (s.dequeue l).tags = s.tags := rfl
@[simp] theorem State.dequeue_checked : (s.dequeue l).checked = s.checked := rfl
@[simp] theorem State.dequeue_clusters : (s.dequeue l).clusters = s.clusters := rfl
@[simp] theorem State.dequeue_engines : (s.dequeue l).engines = s.engines := rfl
@[simp] theorem State.dequeue_dunes : (s.dequeue l).dunes = s.dunes := rfl
@[simp] theorem State.dequeue_slvs : (s.dequeue l).slvs = s.slvs := rfl
@[simp] theorem State.dequeue_loam : (s.dequeue l).loam = s.loam := rfl
@[simp] theorem State.dequeue_tilth : (s.dequeue l).tilth = s.tilth := rfl
@[simp] theorem State.dequeue_phaseReports : (s.dequeue l).phaseReports = s.phaseReports := rfl
@[simp] theorem State.dequeue_queues : (s.dequeue l).queues = s.queues := rfl
@[simp] theorem State.dequeue_objs : (s.dequeue l).objs = s.objs := rfl
@[simp] theorem State.dequeue_adm : (s.dequeue l).adm = s.adm := rfl
@[simp] theorem State.dequeue_overdueCtr : (s.dequeue l).overdueCtr = s.overdueCtr := rfl
@[simp] theorem State.dequeue_dispatchStopped : (s.dequeue l).dispatchStopped = s.dispatchStopped := rfl
@[simp] theorem State.dequeue_slots : (s.dequeue l).slots = s.slots := rfl
@[simp] theorem State.dequeue_batches : (s.dequeue l).batches = s.batches := rfl
@[simp] theorem State.dequeue_quiCmds : (s.dequeue l).quiCmds = s.quiCmds := rfl
@[simp] theorem State.dequeue_cows : (s.dequeue l).cows = s.cows := rfl
@[simp] theorem State.dequeue_movers : (s.dequeue l).movers = s.movers := rfl
@[simp] theorem State.dequeue_reports : (s.dequeue l).reports = s.reports := rfl
@[simp] theorem State.dequeue_brokeSeq : (s.dequeue l).brokeSeq = s.brokeSeq := rfl
@[simp] theorem State.dequeue_ftQueue : (s.dequeue l).ftQueue = s.ftQueue := rfl
@[simp] theorem State.dequeue_lastPass : (s.dequeue l).lastPass = s.lastPass := rfl
@[simp] theorem State.dequeue_trackers : (s.dequeue l).trackers = s.trackers := rfl
@[simp] theorem State.dequeue_provNext : (s.dequeue l).provNext = s.provNext := rfl
@[simp] theorem State.dequeue_brokeCopied : (s.dequeue l).brokeCopied = s.brokeCopied := rfl
@[simp] theorem State.dequeue_poisonBy : (s.dequeue l).poisonBy = s.poisonBy := rfl
@[simp] theorem State.dequeue_budgeted : (s.dequeue l).budgeted = s.budgeted := rfl
@[simp] theorem State.dequeue_ftPoints : (s.dequeue l).ftPoints = s.ftPoints := rfl
@[simp] theorem State.dequeue_macs : (s.dequeue l).macs = s.macs := rfl
@[simp] theorem State.dequeue_log : (s.dequeue l).log = s.log := rfl
@[simp] theorem State.dequeue_timAcc : (s.dequeue l).timAcc = s.timAcc := rfl
@[simp] theorem State.dequeue_timRho : (s.dequeue l).timRho = s.timRho := rfl
@[simp] theorem State.dequeue_timEpoch : (s.dequeue l).timEpoch = s.timEpoch := rfl
@[simp] theorem State.dequeue_hbxs : (s.dequeue l).hbxs = s.hbxs := rfl
@[simp] theorem State.dequeue_hbxq : (s.dequeue l).hbxq = s.hbxq := rfl
@[simp] theorem State.dequeue_hbxCopy : (s.dequeue l).hbxCopy = s.hbxCopy := rfl
@[simp] theorem State.dequeue_patrols : (s.dequeue l).patrols = s.patrols := rfl
@[simp] theorem State.dequeue_zports : (s.dequeue l).zports = s.zports := rfl
@[simp] theorem State.dequeue_pports : (s.dequeue l).pports = s.pports := rfl
@[simp] theorem State.dequeue_csis : (s.dequeue l).csis = s.csis := rfl
@[simp] theorem State.dequeue_flashCmd : (s.dequeue l).flashCmd = s.flashCmd := rfl
@[simp] theorem State.dequeue_flashHeld : (s.dequeue l).flashHeld = s.flashHeld := rfl
@[simp] theorem State.dequeue_flash : (s.dequeue l).flash = s.flash := rfl
@[simp] theorem State.dequeue_flashRegs : (s.dequeue l).flashRegs = s.flashRegs := rfl
@[simp] theorem State.dequeue_cans : (s.dequeue l).cans = s.cans := rfl
@[simp] theorem State.dequeue_pins : (s.dequeue l).pins = s.pins := rfl
@[simp] theorem State.dequeue_msis : (s.dequeue l).msis = s.msis := rfl
@[simp] theorem State.dequeue_eip : (s.dequeue l).eip = s.eip := rfl
@[simp] theorem State.dequeue_harts : (s.dequeue l).harts = s.harts := rfl
@[simp] theorem State.dequeue_wires : (s.dequeue l).wires = s.wires := rfl
@[simp] theorem State.dequeue_iotlb : (s.dequeue l).iotlb = s.iotlb := rfl
@[simp] theorem State.dequeue_pmu : (s.dequeue l).pmu = s.pmu := rfl
@[simp] theorem State.dequeue_thermal : (s.dequeue l).thermal = s.thermal := rfl
@[simp] theorem State.dequeue_mti : (s.dequeue l).mti = s.mti := rfl
@[simp] theorem State.dequeue_mtiStore : (s.dequeue l).mtiStore = s.mtiStore := rfl
@[simp] theorem State.dequeue_rtcNext : (s.dequeue l).rtcNext = s.rtcNext := rfl
@[simp] theorem State.dequeue_lostToLog : (s.dequeue l).lostToLog = s.lostToLog := rfl
@[simp] theorem State.dequeue_fuses : (s.dequeue l).fuses = s.fuses := rfl
@[simp] theorem State.dequeue_running : (s.dequeue l).running = s.running := rfl
@[simp] theorem State.dequeue_mgt : (s.dequeue l).mgt = s.mgt := rfl
@[simp] theorem State.dequeue_tap : (s.dequeue l).tap = s.tap := rfl
@[simp] theorem State.dequeue_supply : (s.dequeue l).supply = s.supply := rfl
end dequeueLaws

section setClLaws
variable (s : State) (n : Nat) (x : Cluster)
@[simp] theorem State.setCl_pending : (s.setCl n x).pending = s.pending := rfl
@[simp] theorem State.setCl_resp : (s.setCl n x).resp = s.resp := rfl
@[simp] theorem State.setCl_out : (s.setCl n x).out = s.out := rfl
@[simp] theorem State.setCl_freeCtr : (s.setCl n x).freeCtr = s.freeCtr := rfl
@[simp] theorem State.setCl_idCtr : (s.setCl n x).idCtr = s.idCtr := rfl
@[simp] theorem State.setCl_now : (s.setCl n x).now = s.now := rfl
@[simp] theorem State.setCl_cyc : (s.setCl n x).cyc = s.cyc := rfl
@[simp] theorem State.setCl_dlNow : (s.setCl n x).dlNow = s.dlNow := rfl
@[simp] theorem State.setCl_regs : (s.setCl n x).regs = s.regs := rfl
@[simp] theorem State.setCl_imageRegs : (s.setCl n x).imageRegs = s.imageRegs := rfl
@[simp] theorem State.setCl_latches : (s.setCl n x).latches = s.latches := rfl
@[simp] theorem State.setCl_held : (s.setCl n x).held = s.held := rfl
@[simp] theorem State.setCl_pd : (s.setCl n x).pd = s.pd := rfl
@[simp] theorem State.setCl_mem : (s.setCl n x).mem = s.mem := rfl
@[simp] theorem State.setCl_upsets : (s.setCl n x).upsets = s.upsets := rfl
@[simp] theorem State.setCl_chan : (s.setCl n x).chan = s.chan := rfl
@[simp] theorem State.setCl_late : (s.setCl n x).late = s.late := rfl
@[simp] theorem State.setCl_tags : (s.setCl n x).tags = s.tags := rfl
@[simp] theorem State.setCl_checked : (s.setCl n x).checked = s.checked := rfl
@[simp] theorem State.setCl_engines : (s.setCl n x).engines = s.engines := rfl
@[simp] theorem State.setCl_dunes : (s.setCl n x).dunes = s.dunes := rfl
@[simp] theorem State.setCl_slvs : (s.setCl n x).slvs = s.slvs := rfl
@[simp] theorem State.setCl_loam : (s.setCl n x).loam = s.loam := rfl
@[simp] theorem State.setCl_tilth : (s.setCl n x).tilth = s.tilth := rfl
@[simp] theorem State.setCl_phaseReports : (s.setCl n x).phaseReports = s.phaseReports := rfl
@[simp] theorem State.setCl_queues : (s.setCl n x).queues = s.queues := rfl
@[simp] theorem State.setCl_objs : (s.setCl n x).objs = s.objs := rfl
@[simp] theorem State.setCl_adm : (s.setCl n x).adm = s.adm := rfl
@[simp] theorem State.setCl_overdueCtr : (s.setCl n x).overdueCtr = s.overdueCtr := rfl
@[simp] theorem State.setCl_dispatchStopped : (s.setCl n x).dispatchStopped = s.dispatchStopped := rfl
@[simp] theorem State.setCl_slots : (s.setCl n x).slots = s.slots := rfl
@[simp] theorem State.setCl_batches : (s.setCl n x).batches = s.batches := rfl
@[simp] theorem State.setCl_quiCmds : (s.setCl n x).quiCmds = s.quiCmds := rfl
@[simp] theorem State.setCl_cows : (s.setCl n x).cows = s.cows := rfl
@[simp] theorem State.setCl_movers : (s.setCl n x).movers = s.movers := rfl
@[simp] theorem State.setCl_reports : (s.setCl n x).reports = s.reports := rfl
@[simp] theorem State.setCl_brokeSeq : (s.setCl n x).brokeSeq = s.brokeSeq := rfl
@[simp] theorem State.setCl_ftQueue : (s.setCl n x).ftQueue = s.ftQueue := rfl
@[simp] theorem State.setCl_lastPass : (s.setCl n x).lastPass = s.lastPass := rfl
@[simp] theorem State.setCl_trackers : (s.setCl n x).trackers = s.trackers := rfl
@[simp] theorem State.setCl_provNext : (s.setCl n x).provNext = s.provNext := rfl
@[simp] theorem State.setCl_brokeCopied : (s.setCl n x).brokeCopied = s.brokeCopied := rfl
@[simp] theorem State.setCl_poisonBy : (s.setCl n x).poisonBy = s.poisonBy := rfl
@[simp] theorem State.setCl_budgeted : (s.setCl n x).budgeted = s.budgeted := rfl
@[simp] theorem State.setCl_ftPoints : (s.setCl n x).ftPoints = s.ftPoints := rfl
@[simp] theorem State.setCl_macs : (s.setCl n x).macs = s.macs := rfl
@[simp] theorem State.setCl_log : (s.setCl n x).log = s.log := rfl
@[simp] theorem State.setCl_timAcc : (s.setCl n x).timAcc = s.timAcc := rfl
@[simp] theorem State.setCl_timRho : (s.setCl n x).timRho = s.timRho := rfl
@[simp] theorem State.setCl_timEpoch : (s.setCl n x).timEpoch = s.timEpoch := rfl
@[simp] theorem State.setCl_hbxs : (s.setCl n x).hbxs = s.hbxs := rfl
@[simp] theorem State.setCl_hbxq : (s.setCl n x).hbxq = s.hbxq := rfl
@[simp] theorem State.setCl_hbxCopy : (s.setCl n x).hbxCopy = s.hbxCopy := rfl
@[simp] theorem State.setCl_patrols : (s.setCl n x).patrols = s.patrols := rfl
@[simp] theorem State.setCl_zports : (s.setCl n x).zports = s.zports := rfl
@[simp] theorem State.setCl_pports : (s.setCl n x).pports = s.pports := rfl
@[simp] theorem State.setCl_csis : (s.setCl n x).csis = s.csis := rfl
@[simp] theorem State.setCl_flashCmd : (s.setCl n x).flashCmd = s.flashCmd := rfl
@[simp] theorem State.setCl_flashHeld : (s.setCl n x).flashHeld = s.flashHeld := rfl
@[simp] theorem State.setCl_flash : (s.setCl n x).flash = s.flash := rfl
@[simp] theorem State.setCl_flashRegs : (s.setCl n x).flashRegs = s.flashRegs := rfl
@[simp] theorem State.setCl_cans : (s.setCl n x).cans = s.cans := rfl
@[simp] theorem State.setCl_pins : (s.setCl n x).pins = s.pins := rfl
@[simp] theorem State.setCl_msis : (s.setCl n x).msis = s.msis := rfl
@[simp] theorem State.setCl_eip : (s.setCl n x).eip = s.eip := rfl
@[simp] theorem State.setCl_harts : (s.setCl n x).harts = s.harts := rfl
@[simp] theorem State.setCl_wires : (s.setCl n x).wires = s.wires := rfl
@[simp] theorem State.setCl_iotlb : (s.setCl n x).iotlb = s.iotlb := rfl
@[simp] theorem State.setCl_pmu : (s.setCl n x).pmu = s.pmu := rfl
@[simp] theorem State.setCl_thermal : (s.setCl n x).thermal = s.thermal := rfl
@[simp] theorem State.setCl_mti : (s.setCl n x).mti = s.mti := rfl
@[simp] theorem State.setCl_mtiStore : (s.setCl n x).mtiStore = s.mtiStore := rfl
@[simp] theorem State.setCl_rtcNext : (s.setCl n x).rtcNext = s.rtcNext := rfl
@[simp] theorem State.setCl_lostToLog : (s.setCl n x).lostToLog = s.lostToLog := rfl
@[simp] theorem State.setCl_fuses : (s.setCl n x).fuses = s.fuses := rfl
@[simp] theorem State.setCl_running : (s.setCl n x).running = s.running := rfl
@[simp] theorem State.setCl_mgt : (s.setCl n x).mgt = s.mgt := rfl
@[simp] theorem State.setCl_tap : (s.setCl n x).tap = s.tap := rfl
@[simp] theorem State.setCl_supply : (s.setCl n x).supply = s.supply := rfl
end setClLaws

section setEngLaws
variable (s : State) (n : Nat) (x : EngUnit)
@[simp] theorem State.setEng_pending : (s.setEng n x).pending = s.pending := rfl
@[simp] theorem State.setEng_resp : (s.setEng n x).resp = s.resp := rfl
@[simp] theorem State.setEng_out : (s.setEng n x).out = s.out := rfl
@[simp] theorem State.setEng_freeCtr : (s.setEng n x).freeCtr = s.freeCtr := rfl
@[simp] theorem State.setEng_idCtr : (s.setEng n x).idCtr = s.idCtr := rfl
@[simp] theorem State.setEng_now : (s.setEng n x).now = s.now := rfl
@[simp] theorem State.setEng_cyc : (s.setEng n x).cyc = s.cyc := rfl
@[simp] theorem State.setEng_dlNow : (s.setEng n x).dlNow = s.dlNow := rfl
@[simp] theorem State.setEng_regs : (s.setEng n x).regs = s.regs := rfl
@[simp] theorem State.setEng_imageRegs : (s.setEng n x).imageRegs = s.imageRegs := rfl
@[simp] theorem State.setEng_latches : (s.setEng n x).latches = s.latches := rfl
@[simp] theorem State.setEng_held : (s.setEng n x).held = s.held := rfl
@[simp] theorem State.setEng_pd : (s.setEng n x).pd = s.pd := rfl
@[simp] theorem State.setEng_mem : (s.setEng n x).mem = s.mem := rfl
@[simp] theorem State.setEng_upsets : (s.setEng n x).upsets = s.upsets := rfl
@[simp] theorem State.setEng_chan : (s.setEng n x).chan = s.chan := rfl
@[simp] theorem State.setEng_late : (s.setEng n x).late = s.late := rfl
@[simp] theorem State.setEng_tags : (s.setEng n x).tags = s.tags := rfl
@[simp] theorem State.setEng_checked : (s.setEng n x).checked = s.checked := rfl
@[simp] theorem State.setEng_clusters : (s.setEng n x).clusters = s.clusters := rfl
@[simp] theorem State.setEng_dunes : (s.setEng n x).dunes = s.dunes := rfl
@[simp] theorem State.setEng_slvs : (s.setEng n x).slvs = s.slvs := rfl
@[simp] theorem State.setEng_loam : (s.setEng n x).loam = s.loam := rfl
@[simp] theorem State.setEng_tilth : (s.setEng n x).tilth = s.tilth := rfl
@[simp] theorem State.setEng_phaseReports : (s.setEng n x).phaseReports = s.phaseReports := rfl
@[simp] theorem State.setEng_queues : (s.setEng n x).queues = s.queues := rfl
@[simp] theorem State.setEng_objs : (s.setEng n x).objs = s.objs := rfl
@[simp] theorem State.setEng_adm : (s.setEng n x).adm = s.adm := rfl
@[simp] theorem State.setEng_overdueCtr : (s.setEng n x).overdueCtr = s.overdueCtr := rfl
@[simp] theorem State.setEng_dispatchStopped : (s.setEng n x).dispatchStopped = s.dispatchStopped := rfl
@[simp] theorem State.setEng_slots : (s.setEng n x).slots = s.slots := rfl
@[simp] theorem State.setEng_batches : (s.setEng n x).batches = s.batches := rfl
@[simp] theorem State.setEng_quiCmds : (s.setEng n x).quiCmds = s.quiCmds := rfl
@[simp] theorem State.setEng_cows : (s.setEng n x).cows = s.cows := rfl
@[simp] theorem State.setEng_movers : (s.setEng n x).movers = s.movers := rfl
@[simp] theorem State.setEng_reports : (s.setEng n x).reports = s.reports := rfl
@[simp] theorem State.setEng_brokeSeq : (s.setEng n x).brokeSeq = s.brokeSeq := rfl
@[simp] theorem State.setEng_ftQueue : (s.setEng n x).ftQueue = s.ftQueue := rfl
@[simp] theorem State.setEng_lastPass : (s.setEng n x).lastPass = s.lastPass := rfl
@[simp] theorem State.setEng_trackers : (s.setEng n x).trackers = s.trackers := rfl
@[simp] theorem State.setEng_provNext : (s.setEng n x).provNext = s.provNext := rfl
@[simp] theorem State.setEng_brokeCopied : (s.setEng n x).brokeCopied = s.brokeCopied := rfl
@[simp] theorem State.setEng_poisonBy : (s.setEng n x).poisonBy = s.poisonBy := rfl
@[simp] theorem State.setEng_budgeted : (s.setEng n x).budgeted = s.budgeted := rfl
@[simp] theorem State.setEng_ftPoints : (s.setEng n x).ftPoints = s.ftPoints := rfl
@[simp] theorem State.setEng_macs : (s.setEng n x).macs = s.macs := rfl
@[simp] theorem State.setEng_log : (s.setEng n x).log = s.log := rfl
@[simp] theorem State.setEng_timAcc : (s.setEng n x).timAcc = s.timAcc := rfl
@[simp] theorem State.setEng_timRho : (s.setEng n x).timRho = s.timRho := rfl
@[simp] theorem State.setEng_timEpoch : (s.setEng n x).timEpoch = s.timEpoch := rfl
@[simp] theorem State.setEng_hbxs : (s.setEng n x).hbxs = s.hbxs := rfl
@[simp] theorem State.setEng_hbxq : (s.setEng n x).hbxq = s.hbxq := rfl
@[simp] theorem State.setEng_hbxCopy : (s.setEng n x).hbxCopy = s.hbxCopy := rfl
@[simp] theorem State.setEng_patrols : (s.setEng n x).patrols = s.patrols := rfl
@[simp] theorem State.setEng_zports : (s.setEng n x).zports = s.zports := rfl
@[simp] theorem State.setEng_pports : (s.setEng n x).pports = s.pports := rfl
@[simp] theorem State.setEng_csis : (s.setEng n x).csis = s.csis := rfl
@[simp] theorem State.setEng_flashCmd : (s.setEng n x).flashCmd = s.flashCmd := rfl
@[simp] theorem State.setEng_flashHeld : (s.setEng n x).flashHeld = s.flashHeld := rfl
@[simp] theorem State.setEng_flash : (s.setEng n x).flash = s.flash := rfl
@[simp] theorem State.setEng_flashRegs : (s.setEng n x).flashRegs = s.flashRegs := rfl
@[simp] theorem State.setEng_cans : (s.setEng n x).cans = s.cans := rfl
@[simp] theorem State.setEng_pins : (s.setEng n x).pins = s.pins := rfl
@[simp] theorem State.setEng_msis : (s.setEng n x).msis = s.msis := rfl
@[simp] theorem State.setEng_eip : (s.setEng n x).eip = s.eip := rfl
@[simp] theorem State.setEng_harts : (s.setEng n x).harts = s.harts := rfl
@[simp] theorem State.setEng_wires : (s.setEng n x).wires = s.wires := rfl
@[simp] theorem State.setEng_iotlb : (s.setEng n x).iotlb = s.iotlb := rfl
@[simp] theorem State.setEng_pmu : (s.setEng n x).pmu = s.pmu := rfl
@[simp] theorem State.setEng_thermal : (s.setEng n x).thermal = s.thermal := rfl
@[simp] theorem State.setEng_mti : (s.setEng n x).mti = s.mti := rfl
@[simp] theorem State.setEng_mtiStore : (s.setEng n x).mtiStore = s.mtiStore := rfl
@[simp] theorem State.setEng_rtcNext : (s.setEng n x).rtcNext = s.rtcNext := rfl
@[simp] theorem State.setEng_lostToLog : (s.setEng n x).lostToLog = s.lostToLog := rfl
@[simp] theorem State.setEng_fuses : (s.setEng n x).fuses = s.fuses := rfl
@[simp] theorem State.setEng_running : (s.setEng n x).running = s.running := rfl
@[simp] theorem State.setEng_mgt : (s.setEng n x).mgt = s.mgt := rfl
@[simp] theorem State.setEng_tap : (s.setEng n x).tap = s.tap := rfl
@[simp] theorem State.setEng_supply : (s.setEng n x).supply = s.supply := rfl
end setEngLaws

section setDuneLaws
variable (s : State) (n : Nat) (x : Dune)
@[simp] theorem State.setDune_pending : (s.setDune n x).pending = s.pending := rfl
@[simp] theorem State.setDune_resp : (s.setDune n x).resp = s.resp := rfl
@[simp] theorem State.setDune_out : (s.setDune n x).out = s.out := rfl
@[simp] theorem State.setDune_freeCtr : (s.setDune n x).freeCtr = s.freeCtr := rfl
@[simp] theorem State.setDune_idCtr : (s.setDune n x).idCtr = s.idCtr := rfl
@[simp] theorem State.setDune_now : (s.setDune n x).now = s.now := rfl
@[simp] theorem State.setDune_cyc : (s.setDune n x).cyc = s.cyc := rfl
@[simp] theorem State.setDune_dlNow : (s.setDune n x).dlNow = s.dlNow := rfl
@[simp] theorem State.setDune_regs : (s.setDune n x).regs = s.regs := rfl
@[simp] theorem State.setDune_imageRegs : (s.setDune n x).imageRegs = s.imageRegs := rfl
@[simp] theorem State.setDune_latches : (s.setDune n x).latches = s.latches := rfl
@[simp] theorem State.setDune_held : (s.setDune n x).held = s.held := rfl
@[simp] theorem State.setDune_pd : (s.setDune n x).pd = s.pd := rfl
@[simp] theorem State.setDune_mem : (s.setDune n x).mem = s.mem := rfl
@[simp] theorem State.setDune_upsets : (s.setDune n x).upsets = s.upsets := rfl
@[simp] theorem State.setDune_chan : (s.setDune n x).chan = s.chan := rfl
@[simp] theorem State.setDune_late : (s.setDune n x).late = s.late := rfl
@[simp] theorem State.setDune_tags : (s.setDune n x).tags = s.tags := rfl
@[simp] theorem State.setDune_checked : (s.setDune n x).checked = s.checked := rfl
@[simp] theorem State.setDune_clusters : (s.setDune n x).clusters = s.clusters := rfl
@[simp] theorem State.setDune_engines : (s.setDune n x).engines = s.engines := rfl
@[simp] theorem State.setDune_slvs : (s.setDune n x).slvs = s.slvs := rfl
@[simp] theorem State.setDune_loam : (s.setDune n x).loam = s.loam := rfl
@[simp] theorem State.setDune_tilth : (s.setDune n x).tilth = s.tilth := rfl
@[simp] theorem State.setDune_phaseReports : (s.setDune n x).phaseReports = s.phaseReports := rfl
@[simp] theorem State.setDune_queues : (s.setDune n x).queues = s.queues := rfl
@[simp] theorem State.setDune_objs : (s.setDune n x).objs = s.objs := rfl
@[simp] theorem State.setDune_adm : (s.setDune n x).adm = s.adm := rfl
@[simp] theorem State.setDune_overdueCtr : (s.setDune n x).overdueCtr = s.overdueCtr := rfl
@[simp] theorem State.setDune_dispatchStopped : (s.setDune n x).dispatchStopped = s.dispatchStopped := rfl
@[simp] theorem State.setDune_slots : (s.setDune n x).slots = s.slots := rfl
@[simp] theorem State.setDune_batches : (s.setDune n x).batches = s.batches := rfl
@[simp] theorem State.setDune_quiCmds : (s.setDune n x).quiCmds = s.quiCmds := rfl
@[simp] theorem State.setDune_cows : (s.setDune n x).cows = s.cows := rfl
@[simp] theorem State.setDune_movers : (s.setDune n x).movers = s.movers := rfl
@[simp] theorem State.setDune_reports : (s.setDune n x).reports = s.reports := rfl
@[simp] theorem State.setDune_brokeSeq : (s.setDune n x).brokeSeq = s.brokeSeq := rfl
@[simp] theorem State.setDune_ftQueue : (s.setDune n x).ftQueue = s.ftQueue := rfl
@[simp] theorem State.setDune_lastPass : (s.setDune n x).lastPass = s.lastPass := rfl
@[simp] theorem State.setDune_trackers : (s.setDune n x).trackers = s.trackers := rfl
@[simp] theorem State.setDune_provNext : (s.setDune n x).provNext = s.provNext := rfl
@[simp] theorem State.setDune_brokeCopied : (s.setDune n x).brokeCopied = s.brokeCopied := rfl
@[simp] theorem State.setDune_poisonBy : (s.setDune n x).poisonBy = s.poisonBy := rfl
@[simp] theorem State.setDune_budgeted : (s.setDune n x).budgeted = s.budgeted := rfl
@[simp] theorem State.setDune_ftPoints : (s.setDune n x).ftPoints = s.ftPoints := rfl
@[simp] theorem State.setDune_macs : (s.setDune n x).macs = s.macs := rfl
@[simp] theorem State.setDune_log : (s.setDune n x).log = s.log := rfl
@[simp] theorem State.setDune_timAcc : (s.setDune n x).timAcc = s.timAcc := rfl
@[simp] theorem State.setDune_timRho : (s.setDune n x).timRho = s.timRho := rfl
@[simp] theorem State.setDune_timEpoch : (s.setDune n x).timEpoch = s.timEpoch := rfl
@[simp] theorem State.setDune_hbxs : (s.setDune n x).hbxs = s.hbxs := rfl
@[simp] theorem State.setDune_hbxq : (s.setDune n x).hbxq = s.hbxq := rfl
@[simp] theorem State.setDune_hbxCopy : (s.setDune n x).hbxCopy = s.hbxCopy := rfl
@[simp] theorem State.setDune_patrols : (s.setDune n x).patrols = s.patrols := rfl
@[simp] theorem State.setDune_zports : (s.setDune n x).zports = s.zports := rfl
@[simp] theorem State.setDune_pports : (s.setDune n x).pports = s.pports := rfl
@[simp] theorem State.setDune_csis : (s.setDune n x).csis = s.csis := rfl
@[simp] theorem State.setDune_flashCmd : (s.setDune n x).flashCmd = s.flashCmd := rfl
@[simp] theorem State.setDune_flashHeld : (s.setDune n x).flashHeld = s.flashHeld := rfl
@[simp] theorem State.setDune_flash : (s.setDune n x).flash = s.flash := rfl
@[simp] theorem State.setDune_flashRegs : (s.setDune n x).flashRegs = s.flashRegs := rfl
@[simp] theorem State.setDune_cans : (s.setDune n x).cans = s.cans := rfl
@[simp] theorem State.setDune_pins : (s.setDune n x).pins = s.pins := rfl
@[simp] theorem State.setDune_msis : (s.setDune n x).msis = s.msis := rfl
@[simp] theorem State.setDune_eip : (s.setDune n x).eip = s.eip := rfl
@[simp] theorem State.setDune_harts : (s.setDune n x).harts = s.harts := rfl
@[simp] theorem State.setDune_wires : (s.setDune n x).wires = s.wires := rfl
@[simp] theorem State.setDune_iotlb : (s.setDune n x).iotlb = s.iotlb := rfl
@[simp] theorem State.setDune_pmu : (s.setDune n x).pmu = s.pmu := rfl
@[simp] theorem State.setDune_thermal : (s.setDune n x).thermal = s.thermal := rfl
@[simp] theorem State.setDune_mti : (s.setDune n x).mti = s.mti := rfl
@[simp] theorem State.setDune_mtiStore : (s.setDune n x).mtiStore = s.mtiStore := rfl
@[simp] theorem State.setDune_rtcNext : (s.setDune n x).rtcNext = s.rtcNext := rfl
@[simp] theorem State.setDune_lostToLog : (s.setDune n x).lostToLog = s.lostToLog := rfl
@[simp] theorem State.setDune_fuses : (s.setDune n x).fuses = s.fuses := rfl
@[simp] theorem State.setDune_running : (s.setDune n x).running = s.running := rfl
@[simp] theorem State.setDune_mgt : (s.setDune n x).mgt = s.mgt := rfl
@[simp] theorem State.setDune_tap : (s.setDune n x).tap = s.tap := rfl
@[simp] theorem State.setDune_supply : (s.setDune n x).supply = s.supply := rfl
end setDuneLaws

section setSlvLaws
variable (s : State) (n : Nat) (x : (List (Option SlvSlot)))
@[simp] theorem State.setSlv_pending : (s.setSlv n x).pending = s.pending := rfl
@[simp] theorem State.setSlv_resp : (s.setSlv n x).resp = s.resp := rfl
@[simp] theorem State.setSlv_out : (s.setSlv n x).out = s.out := rfl
@[simp] theorem State.setSlv_freeCtr : (s.setSlv n x).freeCtr = s.freeCtr := rfl
@[simp] theorem State.setSlv_idCtr : (s.setSlv n x).idCtr = s.idCtr := rfl
@[simp] theorem State.setSlv_now : (s.setSlv n x).now = s.now := rfl
@[simp] theorem State.setSlv_cyc : (s.setSlv n x).cyc = s.cyc := rfl
@[simp] theorem State.setSlv_dlNow : (s.setSlv n x).dlNow = s.dlNow := rfl
@[simp] theorem State.setSlv_regs : (s.setSlv n x).regs = s.regs := rfl
@[simp] theorem State.setSlv_imageRegs : (s.setSlv n x).imageRegs = s.imageRegs := rfl
@[simp] theorem State.setSlv_latches : (s.setSlv n x).latches = s.latches := rfl
@[simp] theorem State.setSlv_held : (s.setSlv n x).held = s.held := rfl
@[simp] theorem State.setSlv_pd : (s.setSlv n x).pd = s.pd := rfl
@[simp] theorem State.setSlv_mem : (s.setSlv n x).mem = s.mem := rfl
@[simp] theorem State.setSlv_upsets : (s.setSlv n x).upsets = s.upsets := rfl
@[simp] theorem State.setSlv_chan : (s.setSlv n x).chan = s.chan := rfl
@[simp] theorem State.setSlv_late : (s.setSlv n x).late = s.late := rfl
@[simp] theorem State.setSlv_tags : (s.setSlv n x).tags = s.tags := rfl
@[simp] theorem State.setSlv_checked : (s.setSlv n x).checked = s.checked := rfl
@[simp] theorem State.setSlv_clusters : (s.setSlv n x).clusters = s.clusters := rfl
@[simp] theorem State.setSlv_engines : (s.setSlv n x).engines = s.engines := rfl
@[simp] theorem State.setSlv_dunes : (s.setSlv n x).dunes = s.dunes := rfl
@[simp] theorem State.setSlv_loam : (s.setSlv n x).loam = s.loam := rfl
@[simp] theorem State.setSlv_tilth : (s.setSlv n x).tilth = s.tilth := rfl
@[simp] theorem State.setSlv_phaseReports : (s.setSlv n x).phaseReports = s.phaseReports := rfl
@[simp] theorem State.setSlv_queues : (s.setSlv n x).queues = s.queues := rfl
@[simp] theorem State.setSlv_objs : (s.setSlv n x).objs = s.objs := rfl
@[simp] theorem State.setSlv_adm : (s.setSlv n x).adm = s.adm := rfl
@[simp] theorem State.setSlv_overdueCtr : (s.setSlv n x).overdueCtr = s.overdueCtr := rfl
@[simp] theorem State.setSlv_dispatchStopped : (s.setSlv n x).dispatchStopped = s.dispatchStopped := rfl
@[simp] theorem State.setSlv_slots : (s.setSlv n x).slots = s.slots := rfl
@[simp] theorem State.setSlv_batches : (s.setSlv n x).batches = s.batches := rfl
@[simp] theorem State.setSlv_quiCmds : (s.setSlv n x).quiCmds = s.quiCmds := rfl
@[simp] theorem State.setSlv_cows : (s.setSlv n x).cows = s.cows := rfl
@[simp] theorem State.setSlv_movers : (s.setSlv n x).movers = s.movers := rfl
@[simp] theorem State.setSlv_reports : (s.setSlv n x).reports = s.reports := rfl
@[simp] theorem State.setSlv_brokeSeq : (s.setSlv n x).brokeSeq = s.brokeSeq := rfl
@[simp] theorem State.setSlv_ftQueue : (s.setSlv n x).ftQueue = s.ftQueue := rfl
@[simp] theorem State.setSlv_lastPass : (s.setSlv n x).lastPass = s.lastPass := rfl
@[simp] theorem State.setSlv_trackers : (s.setSlv n x).trackers = s.trackers := rfl
@[simp] theorem State.setSlv_provNext : (s.setSlv n x).provNext = s.provNext := rfl
@[simp] theorem State.setSlv_brokeCopied : (s.setSlv n x).brokeCopied = s.brokeCopied := rfl
@[simp] theorem State.setSlv_poisonBy : (s.setSlv n x).poisonBy = s.poisonBy := rfl
@[simp] theorem State.setSlv_budgeted : (s.setSlv n x).budgeted = s.budgeted := rfl
@[simp] theorem State.setSlv_ftPoints : (s.setSlv n x).ftPoints = s.ftPoints := rfl
@[simp] theorem State.setSlv_macs : (s.setSlv n x).macs = s.macs := rfl
@[simp] theorem State.setSlv_log : (s.setSlv n x).log = s.log := rfl
@[simp] theorem State.setSlv_timAcc : (s.setSlv n x).timAcc = s.timAcc := rfl
@[simp] theorem State.setSlv_timRho : (s.setSlv n x).timRho = s.timRho := rfl
@[simp] theorem State.setSlv_timEpoch : (s.setSlv n x).timEpoch = s.timEpoch := rfl
@[simp] theorem State.setSlv_hbxs : (s.setSlv n x).hbxs = s.hbxs := rfl
@[simp] theorem State.setSlv_hbxq : (s.setSlv n x).hbxq = s.hbxq := rfl
@[simp] theorem State.setSlv_hbxCopy : (s.setSlv n x).hbxCopy = s.hbxCopy := rfl
@[simp] theorem State.setSlv_patrols : (s.setSlv n x).patrols = s.patrols := rfl
@[simp] theorem State.setSlv_zports : (s.setSlv n x).zports = s.zports := rfl
@[simp] theorem State.setSlv_pports : (s.setSlv n x).pports = s.pports := rfl
@[simp] theorem State.setSlv_csis : (s.setSlv n x).csis = s.csis := rfl
@[simp] theorem State.setSlv_flashCmd : (s.setSlv n x).flashCmd = s.flashCmd := rfl
@[simp] theorem State.setSlv_flashHeld : (s.setSlv n x).flashHeld = s.flashHeld := rfl
@[simp] theorem State.setSlv_flash : (s.setSlv n x).flash = s.flash := rfl
@[simp] theorem State.setSlv_flashRegs : (s.setSlv n x).flashRegs = s.flashRegs := rfl
@[simp] theorem State.setSlv_cans : (s.setSlv n x).cans = s.cans := rfl
@[simp] theorem State.setSlv_pins : (s.setSlv n x).pins = s.pins := rfl
@[simp] theorem State.setSlv_msis : (s.setSlv n x).msis = s.msis := rfl
@[simp] theorem State.setSlv_eip : (s.setSlv n x).eip = s.eip := rfl
@[simp] theorem State.setSlv_harts : (s.setSlv n x).harts = s.harts := rfl
@[simp] theorem State.setSlv_wires : (s.setSlv n x).wires = s.wires := rfl
@[simp] theorem State.setSlv_iotlb : (s.setSlv n x).iotlb = s.iotlb := rfl
@[simp] theorem State.setSlv_pmu : (s.setSlv n x).pmu = s.pmu := rfl
@[simp] theorem State.setSlv_thermal : (s.setSlv n x).thermal = s.thermal := rfl
@[simp] theorem State.setSlv_mti : (s.setSlv n x).mti = s.mti := rfl
@[simp] theorem State.setSlv_mtiStore : (s.setSlv n x).mtiStore = s.mtiStore := rfl
@[simp] theorem State.setSlv_rtcNext : (s.setSlv n x).rtcNext = s.rtcNext := rfl
@[simp] theorem State.setSlv_lostToLog : (s.setSlv n x).lostToLog = s.lostToLog := rfl
@[simp] theorem State.setSlv_fuses : (s.setSlv n x).fuses = s.fuses := rfl
@[simp] theorem State.setSlv_running : (s.setSlv n x).running = s.running := rfl
@[simp] theorem State.setSlv_mgt : (s.setSlv n x).mgt = s.mgt := rfl
@[simp] theorem State.setSlv_tap : (s.setSlv n x).tap = s.tap := rfl
@[simp] theorem State.setSlv_supply : (s.setSlv n x).supply = s.supply := rfl
end setSlvLaws

section setQLaws
variable (s : State) (n : Nat) (x : QState)
@[simp] theorem State.setQ_pending : (s.setQ n x).pending = s.pending := rfl
@[simp] theorem State.setQ_resp : (s.setQ n x).resp = s.resp := rfl
@[simp] theorem State.setQ_out : (s.setQ n x).out = s.out := rfl
@[simp] theorem State.setQ_freeCtr : (s.setQ n x).freeCtr = s.freeCtr := rfl
@[simp] theorem State.setQ_idCtr : (s.setQ n x).idCtr = s.idCtr := rfl
@[simp] theorem State.setQ_now : (s.setQ n x).now = s.now := rfl
@[simp] theorem State.setQ_cyc : (s.setQ n x).cyc = s.cyc := rfl
@[simp] theorem State.setQ_dlNow : (s.setQ n x).dlNow = s.dlNow := rfl
@[simp] theorem State.setQ_regs : (s.setQ n x).regs = s.regs := rfl
@[simp] theorem State.setQ_imageRegs : (s.setQ n x).imageRegs = s.imageRegs := rfl
@[simp] theorem State.setQ_latches : (s.setQ n x).latches = s.latches := rfl
@[simp] theorem State.setQ_held : (s.setQ n x).held = s.held := rfl
@[simp] theorem State.setQ_pd : (s.setQ n x).pd = s.pd := rfl
@[simp] theorem State.setQ_mem : (s.setQ n x).mem = s.mem := rfl
@[simp] theorem State.setQ_upsets : (s.setQ n x).upsets = s.upsets := rfl
@[simp] theorem State.setQ_chan : (s.setQ n x).chan = s.chan := rfl
@[simp] theorem State.setQ_late : (s.setQ n x).late = s.late := rfl
@[simp] theorem State.setQ_tags : (s.setQ n x).tags = s.tags := rfl
@[simp] theorem State.setQ_checked : (s.setQ n x).checked = s.checked := rfl
@[simp] theorem State.setQ_clusters : (s.setQ n x).clusters = s.clusters := rfl
@[simp] theorem State.setQ_engines : (s.setQ n x).engines = s.engines := rfl
@[simp] theorem State.setQ_dunes : (s.setQ n x).dunes = s.dunes := rfl
@[simp] theorem State.setQ_slvs : (s.setQ n x).slvs = s.slvs := rfl
@[simp] theorem State.setQ_loam : (s.setQ n x).loam = s.loam := rfl
@[simp] theorem State.setQ_tilth : (s.setQ n x).tilth = s.tilth := rfl
@[simp] theorem State.setQ_phaseReports : (s.setQ n x).phaseReports = s.phaseReports := rfl
@[simp] theorem State.setQ_objs : (s.setQ n x).objs = s.objs := rfl
@[simp] theorem State.setQ_adm : (s.setQ n x).adm = s.adm := rfl
@[simp] theorem State.setQ_overdueCtr : (s.setQ n x).overdueCtr = s.overdueCtr := rfl
@[simp] theorem State.setQ_dispatchStopped : (s.setQ n x).dispatchStopped = s.dispatchStopped := rfl
@[simp] theorem State.setQ_slots : (s.setQ n x).slots = s.slots := rfl
@[simp] theorem State.setQ_batches : (s.setQ n x).batches = s.batches := rfl
@[simp] theorem State.setQ_quiCmds : (s.setQ n x).quiCmds = s.quiCmds := rfl
@[simp] theorem State.setQ_cows : (s.setQ n x).cows = s.cows := rfl
@[simp] theorem State.setQ_movers : (s.setQ n x).movers = s.movers := rfl
@[simp] theorem State.setQ_reports : (s.setQ n x).reports = s.reports := rfl
@[simp] theorem State.setQ_brokeSeq : (s.setQ n x).brokeSeq = s.brokeSeq := rfl
@[simp] theorem State.setQ_ftQueue : (s.setQ n x).ftQueue = s.ftQueue := rfl
@[simp] theorem State.setQ_lastPass : (s.setQ n x).lastPass = s.lastPass := rfl
@[simp] theorem State.setQ_trackers : (s.setQ n x).trackers = s.trackers := rfl
@[simp] theorem State.setQ_provNext : (s.setQ n x).provNext = s.provNext := rfl
@[simp] theorem State.setQ_brokeCopied : (s.setQ n x).brokeCopied = s.brokeCopied := rfl
@[simp] theorem State.setQ_poisonBy : (s.setQ n x).poisonBy = s.poisonBy := rfl
@[simp] theorem State.setQ_budgeted : (s.setQ n x).budgeted = s.budgeted := rfl
@[simp] theorem State.setQ_ftPoints : (s.setQ n x).ftPoints = s.ftPoints := rfl
@[simp] theorem State.setQ_macs : (s.setQ n x).macs = s.macs := rfl
@[simp] theorem State.setQ_log : (s.setQ n x).log = s.log := rfl
@[simp] theorem State.setQ_timAcc : (s.setQ n x).timAcc = s.timAcc := rfl
@[simp] theorem State.setQ_timRho : (s.setQ n x).timRho = s.timRho := rfl
@[simp] theorem State.setQ_timEpoch : (s.setQ n x).timEpoch = s.timEpoch := rfl
@[simp] theorem State.setQ_hbxs : (s.setQ n x).hbxs = s.hbxs := rfl
@[simp] theorem State.setQ_hbxq : (s.setQ n x).hbxq = s.hbxq := rfl
@[simp] theorem State.setQ_hbxCopy : (s.setQ n x).hbxCopy = s.hbxCopy := rfl
@[simp] theorem State.setQ_patrols : (s.setQ n x).patrols = s.patrols := rfl
@[simp] theorem State.setQ_zports : (s.setQ n x).zports = s.zports := rfl
@[simp] theorem State.setQ_pports : (s.setQ n x).pports = s.pports := rfl
@[simp] theorem State.setQ_csis : (s.setQ n x).csis = s.csis := rfl
@[simp] theorem State.setQ_flashCmd : (s.setQ n x).flashCmd = s.flashCmd := rfl
@[simp] theorem State.setQ_flashHeld : (s.setQ n x).flashHeld = s.flashHeld := rfl
@[simp] theorem State.setQ_flash : (s.setQ n x).flash = s.flash := rfl
@[simp] theorem State.setQ_flashRegs : (s.setQ n x).flashRegs = s.flashRegs := rfl
@[simp] theorem State.setQ_cans : (s.setQ n x).cans = s.cans := rfl
@[simp] theorem State.setQ_pins : (s.setQ n x).pins = s.pins := rfl
@[simp] theorem State.setQ_msis : (s.setQ n x).msis = s.msis := rfl
@[simp] theorem State.setQ_eip : (s.setQ n x).eip = s.eip := rfl
@[simp] theorem State.setQ_harts : (s.setQ n x).harts = s.harts := rfl
@[simp] theorem State.setQ_wires : (s.setQ n x).wires = s.wires := rfl
@[simp] theorem State.setQ_iotlb : (s.setQ n x).iotlb = s.iotlb := rfl
@[simp] theorem State.setQ_pmu : (s.setQ n x).pmu = s.pmu := rfl
@[simp] theorem State.setQ_thermal : (s.setQ n x).thermal = s.thermal := rfl
@[simp] theorem State.setQ_mti : (s.setQ n x).mti = s.mti := rfl
@[simp] theorem State.setQ_mtiStore : (s.setQ n x).mtiStore = s.mtiStore := rfl
@[simp] theorem State.setQ_rtcNext : (s.setQ n x).rtcNext = s.rtcNext := rfl
@[simp] theorem State.setQ_lostToLog : (s.setQ n x).lostToLog = s.lostToLog := rfl
@[simp] theorem State.setQ_fuses : (s.setQ n x).fuses = s.fuses := rfl
@[simp] theorem State.setQ_running : (s.setQ n x).running = s.running := rfl
@[simp] theorem State.setQ_mgt : (s.setQ n x).mgt = s.mgt := rfl
@[simp] theorem State.setQ_tap : (s.setQ n x).tap = s.tap := rfl
@[simp] theorem State.setQ_supply : (s.setQ n x).supply = s.supply := rfl
end setQLaws

section setSlotLaws
variable (s : State) (n : Nat) (x : Slot)
@[simp] theorem State.setSlot_pending : (s.setSlot n x).pending = s.pending := rfl
@[simp] theorem State.setSlot_resp : (s.setSlot n x).resp = s.resp := rfl
@[simp] theorem State.setSlot_out : (s.setSlot n x).out = s.out := rfl
@[simp] theorem State.setSlot_freeCtr : (s.setSlot n x).freeCtr = s.freeCtr := rfl
@[simp] theorem State.setSlot_idCtr : (s.setSlot n x).idCtr = s.idCtr := rfl
@[simp] theorem State.setSlot_now : (s.setSlot n x).now = s.now := rfl
@[simp] theorem State.setSlot_cyc : (s.setSlot n x).cyc = s.cyc := rfl
@[simp] theorem State.setSlot_dlNow : (s.setSlot n x).dlNow = s.dlNow := rfl
@[simp] theorem State.setSlot_regs : (s.setSlot n x).regs = s.regs := rfl
@[simp] theorem State.setSlot_imageRegs : (s.setSlot n x).imageRegs = s.imageRegs := rfl
@[simp] theorem State.setSlot_latches : (s.setSlot n x).latches = s.latches := rfl
@[simp] theorem State.setSlot_held : (s.setSlot n x).held = s.held := rfl
@[simp] theorem State.setSlot_pd : (s.setSlot n x).pd = s.pd := rfl
@[simp] theorem State.setSlot_mem : (s.setSlot n x).mem = s.mem := rfl
@[simp] theorem State.setSlot_upsets : (s.setSlot n x).upsets = s.upsets := rfl
@[simp] theorem State.setSlot_chan : (s.setSlot n x).chan = s.chan := rfl
@[simp] theorem State.setSlot_late : (s.setSlot n x).late = s.late := rfl
@[simp] theorem State.setSlot_tags : (s.setSlot n x).tags = s.tags := rfl
@[simp] theorem State.setSlot_checked : (s.setSlot n x).checked = s.checked := rfl
@[simp] theorem State.setSlot_clusters : (s.setSlot n x).clusters = s.clusters := rfl
@[simp] theorem State.setSlot_engines : (s.setSlot n x).engines = s.engines := rfl
@[simp] theorem State.setSlot_dunes : (s.setSlot n x).dunes = s.dunes := rfl
@[simp] theorem State.setSlot_slvs : (s.setSlot n x).slvs = s.slvs := rfl
@[simp] theorem State.setSlot_loam : (s.setSlot n x).loam = s.loam := rfl
@[simp] theorem State.setSlot_tilth : (s.setSlot n x).tilth = s.tilth := rfl
@[simp] theorem State.setSlot_phaseReports : (s.setSlot n x).phaseReports = s.phaseReports := rfl
@[simp] theorem State.setSlot_queues : (s.setSlot n x).queues = s.queues := rfl
@[simp] theorem State.setSlot_objs : (s.setSlot n x).objs = s.objs := rfl
@[simp] theorem State.setSlot_adm : (s.setSlot n x).adm = s.adm := rfl
@[simp] theorem State.setSlot_overdueCtr : (s.setSlot n x).overdueCtr = s.overdueCtr := rfl
@[simp] theorem State.setSlot_dispatchStopped : (s.setSlot n x).dispatchStopped = s.dispatchStopped := rfl
@[simp] theorem State.setSlot_batches : (s.setSlot n x).batches = s.batches := rfl
@[simp] theorem State.setSlot_quiCmds : (s.setSlot n x).quiCmds = s.quiCmds := rfl
@[simp] theorem State.setSlot_cows : (s.setSlot n x).cows = s.cows := rfl
@[simp] theorem State.setSlot_movers : (s.setSlot n x).movers = s.movers := rfl
@[simp] theorem State.setSlot_reports : (s.setSlot n x).reports = s.reports := rfl
@[simp] theorem State.setSlot_brokeSeq : (s.setSlot n x).brokeSeq = s.brokeSeq := rfl
@[simp] theorem State.setSlot_ftQueue : (s.setSlot n x).ftQueue = s.ftQueue := rfl
@[simp] theorem State.setSlot_lastPass : (s.setSlot n x).lastPass = s.lastPass := rfl
@[simp] theorem State.setSlot_trackers : (s.setSlot n x).trackers = s.trackers := rfl
@[simp] theorem State.setSlot_provNext : (s.setSlot n x).provNext = s.provNext := rfl
@[simp] theorem State.setSlot_brokeCopied : (s.setSlot n x).brokeCopied = s.brokeCopied := rfl
@[simp] theorem State.setSlot_poisonBy : (s.setSlot n x).poisonBy = s.poisonBy := rfl
@[simp] theorem State.setSlot_budgeted : (s.setSlot n x).budgeted = s.budgeted := rfl
@[simp] theorem State.setSlot_ftPoints : (s.setSlot n x).ftPoints = s.ftPoints := rfl
@[simp] theorem State.setSlot_macs : (s.setSlot n x).macs = s.macs := rfl
@[simp] theorem State.setSlot_log : (s.setSlot n x).log = s.log := rfl
@[simp] theorem State.setSlot_timAcc : (s.setSlot n x).timAcc = s.timAcc := rfl
@[simp] theorem State.setSlot_timRho : (s.setSlot n x).timRho = s.timRho := rfl
@[simp] theorem State.setSlot_timEpoch : (s.setSlot n x).timEpoch = s.timEpoch := rfl
@[simp] theorem State.setSlot_hbxs : (s.setSlot n x).hbxs = s.hbxs := rfl
@[simp] theorem State.setSlot_hbxq : (s.setSlot n x).hbxq = s.hbxq := rfl
@[simp] theorem State.setSlot_hbxCopy : (s.setSlot n x).hbxCopy = s.hbxCopy := rfl
@[simp] theorem State.setSlot_patrols : (s.setSlot n x).patrols = s.patrols := rfl
@[simp] theorem State.setSlot_zports : (s.setSlot n x).zports = s.zports := rfl
@[simp] theorem State.setSlot_pports : (s.setSlot n x).pports = s.pports := rfl
@[simp] theorem State.setSlot_csis : (s.setSlot n x).csis = s.csis := rfl
@[simp] theorem State.setSlot_flashCmd : (s.setSlot n x).flashCmd = s.flashCmd := rfl
@[simp] theorem State.setSlot_flashHeld : (s.setSlot n x).flashHeld = s.flashHeld := rfl
@[simp] theorem State.setSlot_flash : (s.setSlot n x).flash = s.flash := rfl
@[simp] theorem State.setSlot_flashRegs : (s.setSlot n x).flashRegs = s.flashRegs := rfl
@[simp] theorem State.setSlot_cans : (s.setSlot n x).cans = s.cans := rfl
@[simp] theorem State.setSlot_pins : (s.setSlot n x).pins = s.pins := rfl
@[simp] theorem State.setSlot_msis : (s.setSlot n x).msis = s.msis := rfl
@[simp] theorem State.setSlot_eip : (s.setSlot n x).eip = s.eip := rfl
@[simp] theorem State.setSlot_harts : (s.setSlot n x).harts = s.harts := rfl
@[simp] theorem State.setSlot_wires : (s.setSlot n x).wires = s.wires := rfl
@[simp] theorem State.setSlot_iotlb : (s.setSlot n x).iotlb = s.iotlb := rfl
@[simp] theorem State.setSlot_pmu : (s.setSlot n x).pmu = s.pmu := rfl
@[simp] theorem State.setSlot_thermal : (s.setSlot n x).thermal = s.thermal := rfl
@[simp] theorem State.setSlot_mti : (s.setSlot n x).mti = s.mti := rfl
@[simp] theorem State.setSlot_mtiStore : (s.setSlot n x).mtiStore = s.mtiStore := rfl
@[simp] theorem State.setSlot_rtcNext : (s.setSlot n x).rtcNext = s.rtcNext := rfl
@[simp] theorem State.setSlot_lostToLog : (s.setSlot n x).lostToLog = s.lostToLog := rfl
@[simp] theorem State.setSlot_fuses : (s.setSlot n x).fuses = s.fuses := rfl
@[simp] theorem State.setSlot_running : (s.setSlot n x).running = s.running := rfl
@[simp] theorem State.setSlot_mgt : (s.setSlot n x).mgt = s.mgt := rfl
@[simp] theorem State.setSlot_tap : (s.setSlot n x).tap = s.tap := rfl
@[simp] theorem State.setSlot_supply : (s.setSlot n x).supply = s.supply := rfl
end setSlotLaws

section setBatchLaws
variable (s : State) (n : Nat) (x : Batch)
@[simp] theorem State.setBatch_pending : (s.setBatch n x).pending = s.pending := rfl
@[simp] theorem State.setBatch_resp : (s.setBatch n x).resp = s.resp := rfl
@[simp] theorem State.setBatch_out : (s.setBatch n x).out = s.out := rfl
@[simp] theorem State.setBatch_freeCtr : (s.setBatch n x).freeCtr = s.freeCtr := rfl
@[simp] theorem State.setBatch_idCtr : (s.setBatch n x).idCtr = s.idCtr := rfl
@[simp] theorem State.setBatch_now : (s.setBatch n x).now = s.now := rfl
@[simp] theorem State.setBatch_cyc : (s.setBatch n x).cyc = s.cyc := rfl
@[simp] theorem State.setBatch_dlNow : (s.setBatch n x).dlNow = s.dlNow := rfl
@[simp] theorem State.setBatch_regs : (s.setBatch n x).regs = s.regs := rfl
@[simp] theorem State.setBatch_imageRegs : (s.setBatch n x).imageRegs = s.imageRegs := rfl
@[simp] theorem State.setBatch_latches : (s.setBatch n x).latches = s.latches := rfl
@[simp] theorem State.setBatch_held : (s.setBatch n x).held = s.held := rfl
@[simp] theorem State.setBatch_pd : (s.setBatch n x).pd = s.pd := rfl
@[simp] theorem State.setBatch_mem : (s.setBatch n x).mem = s.mem := rfl
@[simp] theorem State.setBatch_upsets : (s.setBatch n x).upsets = s.upsets := rfl
@[simp] theorem State.setBatch_chan : (s.setBatch n x).chan = s.chan := rfl
@[simp] theorem State.setBatch_late : (s.setBatch n x).late = s.late := rfl
@[simp] theorem State.setBatch_tags : (s.setBatch n x).tags = s.tags := rfl
@[simp] theorem State.setBatch_checked : (s.setBatch n x).checked = s.checked := rfl
@[simp] theorem State.setBatch_clusters : (s.setBatch n x).clusters = s.clusters := rfl
@[simp] theorem State.setBatch_engines : (s.setBatch n x).engines = s.engines := rfl
@[simp] theorem State.setBatch_dunes : (s.setBatch n x).dunes = s.dunes := rfl
@[simp] theorem State.setBatch_slvs : (s.setBatch n x).slvs = s.slvs := rfl
@[simp] theorem State.setBatch_loam : (s.setBatch n x).loam = s.loam := rfl
@[simp] theorem State.setBatch_tilth : (s.setBatch n x).tilth = s.tilth := rfl
@[simp] theorem State.setBatch_phaseReports : (s.setBatch n x).phaseReports = s.phaseReports := rfl
@[simp] theorem State.setBatch_queues : (s.setBatch n x).queues = s.queues := rfl
@[simp] theorem State.setBatch_objs : (s.setBatch n x).objs = s.objs := rfl
@[simp] theorem State.setBatch_adm : (s.setBatch n x).adm = s.adm := rfl
@[simp] theorem State.setBatch_overdueCtr : (s.setBatch n x).overdueCtr = s.overdueCtr := rfl
@[simp] theorem State.setBatch_dispatchStopped : (s.setBatch n x).dispatchStopped = s.dispatchStopped := rfl
@[simp] theorem State.setBatch_slots : (s.setBatch n x).slots = s.slots := rfl
@[simp] theorem State.setBatch_quiCmds : (s.setBatch n x).quiCmds = s.quiCmds := rfl
@[simp] theorem State.setBatch_cows : (s.setBatch n x).cows = s.cows := rfl
@[simp] theorem State.setBatch_movers : (s.setBatch n x).movers = s.movers := rfl
@[simp] theorem State.setBatch_reports : (s.setBatch n x).reports = s.reports := rfl
@[simp] theorem State.setBatch_brokeSeq : (s.setBatch n x).brokeSeq = s.brokeSeq := rfl
@[simp] theorem State.setBatch_ftQueue : (s.setBatch n x).ftQueue = s.ftQueue := rfl
@[simp] theorem State.setBatch_lastPass : (s.setBatch n x).lastPass = s.lastPass := rfl
@[simp] theorem State.setBatch_trackers : (s.setBatch n x).trackers = s.trackers := rfl
@[simp] theorem State.setBatch_provNext : (s.setBatch n x).provNext = s.provNext := rfl
@[simp] theorem State.setBatch_brokeCopied : (s.setBatch n x).brokeCopied = s.brokeCopied := rfl
@[simp] theorem State.setBatch_poisonBy : (s.setBatch n x).poisonBy = s.poisonBy := rfl
@[simp] theorem State.setBatch_budgeted : (s.setBatch n x).budgeted = s.budgeted := rfl
@[simp] theorem State.setBatch_ftPoints : (s.setBatch n x).ftPoints = s.ftPoints := rfl
@[simp] theorem State.setBatch_macs : (s.setBatch n x).macs = s.macs := rfl
@[simp] theorem State.setBatch_log : (s.setBatch n x).log = s.log := rfl
@[simp] theorem State.setBatch_timAcc : (s.setBatch n x).timAcc = s.timAcc := rfl
@[simp] theorem State.setBatch_timRho : (s.setBatch n x).timRho = s.timRho := rfl
@[simp] theorem State.setBatch_timEpoch : (s.setBatch n x).timEpoch = s.timEpoch := rfl
@[simp] theorem State.setBatch_hbxs : (s.setBatch n x).hbxs = s.hbxs := rfl
@[simp] theorem State.setBatch_hbxq : (s.setBatch n x).hbxq = s.hbxq := rfl
@[simp] theorem State.setBatch_hbxCopy : (s.setBatch n x).hbxCopy = s.hbxCopy := rfl
@[simp] theorem State.setBatch_patrols : (s.setBatch n x).patrols = s.patrols := rfl
@[simp] theorem State.setBatch_zports : (s.setBatch n x).zports = s.zports := rfl
@[simp] theorem State.setBatch_pports : (s.setBatch n x).pports = s.pports := rfl
@[simp] theorem State.setBatch_csis : (s.setBatch n x).csis = s.csis := rfl
@[simp] theorem State.setBatch_flashCmd : (s.setBatch n x).flashCmd = s.flashCmd := rfl
@[simp] theorem State.setBatch_flashHeld : (s.setBatch n x).flashHeld = s.flashHeld := rfl
@[simp] theorem State.setBatch_flash : (s.setBatch n x).flash = s.flash := rfl
@[simp] theorem State.setBatch_flashRegs : (s.setBatch n x).flashRegs = s.flashRegs := rfl
@[simp] theorem State.setBatch_cans : (s.setBatch n x).cans = s.cans := rfl
@[simp] theorem State.setBatch_pins : (s.setBatch n x).pins = s.pins := rfl
@[simp] theorem State.setBatch_msis : (s.setBatch n x).msis = s.msis := rfl
@[simp] theorem State.setBatch_eip : (s.setBatch n x).eip = s.eip := rfl
@[simp] theorem State.setBatch_harts : (s.setBatch n x).harts = s.harts := rfl
@[simp] theorem State.setBatch_wires : (s.setBatch n x).wires = s.wires := rfl
@[simp] theorem State.setBatch_iotlb : (s.setBatch n x).iotlb = s.iotlb := rfl
@[simp] theorem State.setBatch_pmu : (s.setBatch n x).pmu = s.pmu := rfl
@[simp] theorem State.setBatch_thermal : (s.setBatch n x).thermal = s.thermal := rfl
@[simp] theorem State.setBatch_mti : (s.setBatch n x).mti = s.mti := rfl
@[simp] theorem State.setBatch_mtiStore : (s.setBatch n x).mtiStore = s.mtiStore := rfl
@[simp] theorem State.setBatch_rtcNext : (s.setBatch n x).rtcNext = s.rtcNext := rfl
@[simp] theorem State.setBatch_lostToLog : (s.setBatch n x).lostToLog = s.lostToLog := rfl
@[simp] theorem State.setBatch_fuses : (s.setBatch n x).fuses = s.fuses := rfl
@[simp] theorem State.setBatch_running : (s.setBatch n x).running = s.running := rfl
@[simp] theorem State.setBatch_mgt : (s.setBatch n x).mgt = s.mgt := rfl
@[simp] theorem State.setBatch_tap : (s.setBatch n x).tap = s.tap := rfl
@[simp] theorem State.setBatch_supply : (s.setBatch n x).supply = s.supply := rfl
end setBatchLaws

section setQuiCmdLaws
variable (s : State) (n : Nat) (x : (Option QuiCmd))
@[simp] theorem State.setQuiCmd_pending : (s.setQuiCmd n x).pending = s.pending := rfl
@[simp] theorem State.setQuiCmd_resp : (s.setQuiCmd n x).resp = s.resp := rfl
@[simp] theorem State.setQuiCmd_out : (s.setQuiCmd n x).out = s.out := rfl
@[simp] theorem State.setQuiCmd_freeCtr : (s.setQuiCmd n x).freeCtr = s.freeCtr := rfl
@[simp] theorem State.setQuiCmd_idCtr : (s.setQuiCmd n x).idCtr = s.idCtr := rfl
@[simp] theorem State.setQuiCmd_now : (s.setQuiCmd n x).now = s.now := rfl
@[simp] theorem State.setQuiCmd_cyc : (s.setQuiCmd n x).cyc = s.cyc := rfl
@[simp] theorem State.setQuiCmd_dlNow : (s.setQuiCmd n x).dlNow = s.dlNow := rfl
@[simp] theorem State.setQuiCmd_regs : (s.setQuiCmd n x).regs = s.regs := rfl
@[simp] theorem State.setQuiCmd_imageRegs : (s.setQuiCmd n x).imageRegs = s.imageRegs := rfl
@[simp] theorem State.setQuiCmd_latches : (s.setQuiCmd n x).latches = s.latches := rfl
@[simp] theorem State.setQuiCmd_held : (s.setQuiCmd n x).held = s.held := rfl
@[simp] theorem State.setQuiCmd_pd : (s.setQuiCmd n x).pd = s.pd := rfl
@[simp] theorem State.setQuiCmd_mem : (s.setQuiCmd n x).mem = s.mem := rfl
@[simp] theorem State.setQuiCmd_upsets : (s.setQuiCmd n x).upsets = s.upsets := rfl
@[simp] theorem State.setQuiCmd_chan : (s.setQuiCmd n x).chan = s.chan := rfl
@[simp] theorem State.setQuiCmd_late : (s.setQuiCmd n x).late = s.late := rfl
@[simp] theorem State.setQuiCmd_tags : (s.setQuiCmd n x).tags = s.tags := rfl
@[simp] theorem State.setQuiCmd_checked : (s.setQuiCmd n x).checked = s.checked := rfl
@[simp] theorem State.setQuiCmd_clusters : (s.setQuiCmd n x).clusters = s.clusters := rfl
@[simp] theorem State.setQuiCmd_engines : (s.setQuiCmd n x).engines = s.engines := rfl
@[simp] theorem State.setQuiCmd_dunes : (s.setQuiCmd n x).dunes = s.dunes := rfl
@[simp] theorem State.setQuiCmd_slvs : (s.setQuiCmd n x).slvs = s.slvs := rfl
@[simp] theorem State.setQuiCmd_loam : (s.setQuiCmd n x).loam = s.loam := rfl
@[simp] theorem State.setQuiCmd_tilth : (s.setQuiCmd n x).tilth = s.tilth := rfl
@[simp] theorem State.setQuiCmd_phaseReports : (s.setQuiCmd n x).phaseReports = s.phaseReports := rfl
@[simp] theorem State.setQuiCmd_queues : (s.setQuiCmd n x).queues = s.queues := rfl
@[simp] theorem State.setQuiCmd_objs : (s.setQuiCmd n x).objs = s.objs := rfl
@[simp] theorem State.setQuiCmd_adm : (s.setQuiCmd n x).adm = s.adm := rfl
@[simp] theorem State.setQuiCmd_overdueCtr : (s.setQuiCmd n x).overdueCtr = s.overdueCtr := rfl
@[simp] theorem State.setQuiCmd_dispatchStopped : (s.setQuiCmd n x).dispatchStopped = s.dispatchStopped := rfl
@[simp] theorem State.setQuiCmd_slots : (s.setQuiCmd n x).slots = s.slots := rfl
@[simp] theorem State.setQuiCmd_batches : (s.setQuiCmd n x).batches = s.batches := rfl
@[simp] theorem State.setQuiCmd_cows : (s.setQuiCmd n x).cows = s.cows := rfl
@[simp] theorem State.setQuiCmd_movers : (s.setQuiCmd n x).movers = s.movers := rfl
@[simp] theorem State.setQuiCmd_reports : (s.setQuiCmd n x).reports = s.reports := rfl
@[simp] theorem State.setQuiCmd_brokeSeq : (s.setQuiCmd n x).brokeSeq = s.brokeSeq := rfl
@[simp] theorem State.setQuiCmd_ftQueue : (s.setQuiCmd n x).ftQueue = s.ftQueue := rfl
@[simp] theorem State.setQuiCmd_lastPass : (s.setQuiCmd n x).lastPass = s.lastPass := rfl
@[simp] theorem State.setQuiCmd_trackers : (s.setQuiCmd n x).trackers = s.trackers := rfl
@[simp] theorem State.setQuiCmd_provNext : (s.setQuiCmd n x).provNext = s.provNext := rfl
@[simp] theorem State.setQuiCmd_brokeCopied : (s.setQuiCmd n x).brokeCopied = s.brokeCopied := rfl
@[simp] theorem State.setQuiCmd_poisonBy : (s.setQuiCmd n x).poisonBy = s.poisonBy := rfl
@[simp] theorem State.setQuiCmd_budgeted : (s.setQuiCmd n x).budgeted = s.budgeted := rfl
@[simp] theorem State.setQuiCmd_ftPoints : (s.setQuiCmd n x).ftPoints = s.ftPoints := rfl
@[simp] theorem State.setQuiCmd_macs : (s.setQuiCmd n x).macs = s.macs := rfl
@[simp] theorem State.setQuiCmd_log : (s.setQuiCmd n x).log = s.log := rfl
@[simp] theorem State.setQuiCmd_timAcc : (s.setQuiCmd n x).timAcc = s.timAcc := rfl
@[simp] theorem State.setQuiCmd_timRho : (s.setQuiCmd n x).timRho = s.timRho := rfl
@[simp] theorem State.setQuiCmd_timEpoch : (s.setQuiCmd n x).timEpoch = s.timEpoch := rfl
@[simp] theorem State.setQuiCmd_hbxs : (s.setQuiCmd n x).hbxs = s.hbxs := rfl
@[simp] theorem State.setQuiCmd_hbxq : (s.setQuiCmd n x).hbxq = s.hbxq := rfl
@[simp] theorem State.setQuiCmd_hbxCopy : (s.setQuiCmd n x).hbxCopy = s.hbxCopy := rfl
@[simp] theorem State.setQuiCmd_patrols : (s.setQuiCmd n x).patrols = s.patrols := rfl
@[simp] theorem State.setQuiCmd_zports : (s.setQuiCmd n x).zports = s.zports := rfl
@[simp] theorem State.setQuiCmd_pports : (s.setQuiCmd n x).pports = s.pports := rfl
@[simp] theorem State.setQuiCmd_csis : (s.setQuiCmd n x).csis = s.csis := rfl
@[simp] theorem State.setQuiCmd_flashCmd : (s.setQuiCmd n x).flashCmd = s.flashCmd := rfl
@[simp] theorem State.setQuiCmd_flashHeld : (s.setQuiCmd n x).flashHeld = s.flashHeld := rfl
@[simp] theorem State.setQuiCmd_flash : (s.setQuiCmd n x).flash = s.flash := rfl
@[simp] theorem State.setQuiCmd_flashRegs : (s.setQuiCmd n x).flashRegs = s.flashRegs := rfl
@[simp] theorem State.setQuiCmd_cans : (s.setQuiCmd n x).cans = s.cans := rfl
@[simp] theorem State.setQuiCmd_pins : (s.setQuiCmd n x).pins = s.pins := rfl
@[simp] theorem State.setQuiCmd_msis : (s.setQuiCmd n x).msis = s.msis := rfl
@[simp] theorem State.setQuiCmd_eip : (s.setQuiCmd n x).eip = s.eip := rfl
@[simp] theorem State.setQuiCmd_harts : (s.setQuiCmd n x).harts = s.harts := rfl
@[simp] theorem State.setQuiCmd_wires : (s.setQuiCmd n x).wires = s.wires := rfl
@[simp] theorem State.setQuiCmd_iotlb : (s.setQuiCmd n x).iotlb = s.iotlb := rfl
@[simp] theorem State.setQuiCmd_pmu : (s.setQuiCmd n x).pmu = s.pmu := rfl
@[simp] theorem State.setQuiCmd_thermal : (s.setQuiCmd n x).thermal = s.thermal := rfl
@[simp] theorem State.setQuiCmd_mti : (s.setQuiCmd n x).mti = s.mti := rfl
@[simp] theorem State.setQuiCmd_mtiStore : (s.setQuiCmd n x).mtiStore = s.mtiStore := rfl
@[simp] theorem State.setQuiCmd_rtcNext : (s.setQuiCmd n x).rtcNext = s.rtcNext := rfl
@[simp] theorem State.setQuiCmd_lostToLog : (s.setQuiCmd n x).lostToLog = s.lostToLog := rfl
@[simp] theorem State.setQuiCmd_fuses : (s.setQuiCmd n x).fuses = s.fuses := rfl
@[simp] theorem State.setQuiCmd_running : (s.setQuiCmd n x).running = s.running := rfl
@[simp] theorem State.setQuiCmd_mgt : (s.setQuiCmd n x).mgt = s.mgt := rfl
@[simp] theorem State.setQuiCmd_tap : (s.setQuiCmd n x).tap = s.tap := rfl
@[simp] theorem State.setQuiCmd_supply : (s.setQuiCmd n x).supply = s.supply := rfl
end setQuiCmdLaws

section setMoverLaws
variable (s : State) (n : Nat) (x : Mover)
@[simp] theorem State.setMover_pending : (s.setMover n x).pending = s.pending := rfl
@[simp] theorem State.setMover_resp : (s.setMover n x).resp = s.resp := rfl
@[simp] theorem State.setMover_out : (s.setMover n x).out = s.out := rfl
@[simp] theorem State.setMover_freeCtr : (s.setMover n x).freeCtr = s.freeCtr := rfl
@[simp] theorem State.setMover_idCtr : (s.setMover n x).idCtr = s.idCtr := rfl
@[simp] theorem State.setMover_now : (s.setMover n x).now = s.now := rfl
@[simp] theorem State.setMover_cyc : (s.setMover n x).cyc = s.cyc := rfl
@[simp] theorem State.setMover_dlNow : (s.setMover n x).dlNow = s.dlNow := rfl
@[simp] theorem State.setMover_regs : (s.setMover n x).regs = s.regs := rfl
@[simp] theorem State.setMover_imageRegs : (s.setMover n x).imageRegs = s.imageRegs := rfl
@[simp] theorem State.setMover_latches : (s.setMover n x).latches = s.latches := rfl
@[simp] theorem State.setMover_held : (s.setMover n x).held = s.held := rfl
@[simp] theorem State.setMover_pd : (s.setMover n x).pd = s.pd := rfl
@[simp] theorem State.setMover_mem : (s.setMover n x).mem = s.mem := rfl
@[simp] theorem State.setMover_upsets : (s.setMover n x).upsets = s.upsets := rfl
@[simp] theorem State.setMover_chan : (s.setMover n x).chan = s.chan := rfl
@[simp] theorem State.setMover_late : (s.setMover n x).late = s.late := rfl
@[simp] theorem State.setMover_tags : (s.setMover n x).tags = s.tags := rfl
@[simp] theorem State.setMover_checked : (s.setMover n x).checked = s.checked := rfl
@[simp] theorem State.setMover_clusters : (s.setMover n x).clusters = s.clusters := rfl
@[simp] theorem State.setMover_engines : (s.setMover n x).engines = s.engines := rfl
@[simp] theorem State.setMover_dunes : (s.setMover n x).dunes = s.dunes := rfl
@[simp] theorem State.setMover_slvs : (s.setMover n x).slvs = s.slvs := rfl
@[simp] theorem State.setMover_loam : (s.setMover n x).loam = s.loam := rfl
@[simp] theorem State.setMover_tilth : (s.setMover n x).tilth = s.tilth := rfl
@[simp] theorem State.setMover_phaseReports : (s.setMover n x).phaseReports = s.phaseReports := rfl
@[simp] theorem State.setMover_queues : (s.setMover n x).queues = s.queues := rfl
@[simp] theorem State.setMover_objs : (s.setMover n x).objs = s.objs := rfl
@[simp] theorem State.setMover_adm : (s.setMover n x).adm = s.adm := rfl
@[simp] theorem State.setMover_overdueCtr : (s.setMover n x).overdueCtr = s.overdueCtr := rfl
@[simp] theorem State.setMover_dispatchStopped : (s.setMover n x).dispatchStopped = s.dispatchStopped := rfl
@[simp] theorem State.setMover_slots : (s.setMover n x).slots = s.slots := rfl
@[simp] theorem State.setMover_batches : (s.setMover n x).batches = s.batches := rfl
@[simp] theorem State.setMover_quiCmds : (s.setMover n x).quiCmds = s.quiCmds := rfl
@[simp] theorem State.setMover_cows : (s.setMover n x).cows = s.cows := rfl
@[simp] theorem State.setMover_reports : (s.setMover n x).reports = s.reports := rfl
@[simp] theorem State.setMover_brokeSeq : (s.setMover n x).brokeSeq = s.brokeSeq := rfl
@[simp] theorem State.setMover_ftQueue : (s.setMover n x).ftQueue = s.ftQueue := rfl
@[simp] theorem State.setMover_lastPass : (s.setMover n x).lastPass = s.lastPass := rfl
@[simp] theorem State.setMover_trackers : (s.setMover n x).trackers = s.trackers := rfl
@[simp] theorem State.setMover_provNext : (s.setMover n x).provNext = s.provNext := rfl
@[simp] theorem State.setMover_brokeCopied : (s.setMover n x).brokeCopied = s.brokeCopied := rfl
@[simp] theorem State.setMover_poisonBy : (s.setMover n x).poisonBy = s.poisonBy := rfl
@[simp] theorem State.setMover_budgeted : (s.setMover n x).budgeted = s.budgeted := rfl
@[simp] theorem State.setMover_ftPoints : (s.setMover n x).ftPoints = s.ftPoints := rfl
@[simp] theorem State.setMover_macs : (s.setMover n x).macs = s.macs := rfl
@[simp] theorem State.setMover_log : (s.setMover n x).log = s.log := rfl
@[simp] theorem State.setMover_timAcc : (s.setMover n x).timAcc = s.timAcc := rfl
@[simp] theorem State.setMover_timRho : (s.setMover n x).timRho = s.timRho := rfl
@[simp] theorem State.setMover_timEpoch : (s.setMover n x).timEpoch = s.timEpoch := rfl
@[simp] theorem State.setMover_hbxs : (s.setMover n x).hbxs = s.hbxs := rfl
@[simp] theorem State.setMover_hbxq : (s.setMover n x).hbxq = s.hbxq := rfl
@[simp] theorem State.setMover_hbxCopy : (s.setMover n x).hbxCopy = s.hbxCopy := rfl
@[simp] theorem State.setMover_patrols : (s.setMover n x).patrols = s.patrols := rfl
@[simp] theorem State.setMover_zports : (s.setMover n x).zports = s.zports := rfl
@[simp] theorem State.setMover_pports : (s.setMover n x).pports = s.pports := rfl
@[simp] theorem State.setMover_csis : (s.setMover n x).csis = s.csis := rfl
@[simp] theorem State.setMover_flashCmd : (s.setMover n x).flashCmd = s.flashCmd := rfl
@[simp] theorem State.setMover_flashHeld : (s.setMover n x).flashHeld = s.flashHeld := rfl
@[simp] theorem State.setMover_flash : (s.setMover n x).flash = s.flash := rfl
@[simp] theorem State.setMover_flashRegs : (s.setMover n x).flashRegs = s.flashRegs := rfl
@[simp] theorem State.setMover_cans : (s.setMover n x).cans = s.cans := rfl
@[simp] theorem State.setMover_pins : (s.setMover n x).pins = s.pins := rfl
@[simp] theorem State.setMover_msis : (s.setMover n x).msis = s.msis := rfl
@[simp] theorem State.setMover_eip : (s.setMover n x).eip = s.eip := rfl
@[simp] theorem State.setMover_harts : (s.setMover n x).harts = s.harts := rfl
@[simp] theorem State.setMover_wires : (s.setMover n x).wires = s.wires := rfl
@[simp] theorem State.setMover_iotlb : (s.setMover n x).iotlb = s.iotlb := rfl
@[simp] theorem State.setMover_pmu : (s.setMover n x).pmu = s.pmu := rfl
@[simp] theorem State.setMover_thermal : (s.setMover n x).thermal = s.thermal := rfl
@[simp] theorem State.setMover_mti : (s.setMover n x).mti = s.mti := rfl
@[simp] theorem State.setMover_mtiStore : (s.setMover n x).mtiStore = s.mtiStore := rfl
@[simp] theorem State.setMover_rtcNext : (s.setMover n x).rtcNext = s.rtcNext := rfl
@[simp] theorem State.setMover_lostToLog : (s.setMover n x).lostToLog = s.lostToLog := rfl
@[simp] theorem State.setMover_fuses : (s.setMover n x).fuses = s.fuses := rfl
@[simp] theorem State.setMover_running : (s.setMover n x).running = s.running := rfl
@[simp] theorem State.setMover_mgt : (s.setMover n x).mgt = s.mgt := rfl
@[simp] theorem State.setMover_tap : (s.setMover n x).tap = s.tap := rfl
@[simp] theorem State.setMover_supply : (s.setMover n x).supply = s.supply := rfl
end setMoverLaws

section setTrackersLaws
variable (s : State) (n : Nat) (x : (List Tracker))
@[simp] theorem State.setTrackers_pending : (s.setTrackers n x).pending = s.pending := rfl
@[simp] theorem State.setTrackers_resp : (s.setTrackers n x).resp = s.resp := rfl
@[simp] theorem State.setTrackers_out : (s.setTrackers n x).out = s.out := rfl
@[simp] theorem State.setTrackers_freeCtr : (s.setTrackers n x).freeCtr = s.freeCtr := rfl
@[simp] theorem State.setTrackers_idCtr : (s.setTrackers n x).idCtr = s.idCtr := rfl
@[simp] theorem State.setTrackers_now : (s.setTrackers n x).now = s.now := rfl
@[simp] theorem State.setTrackers_cyc : (s.setTrackers n x).cyc = s.cyc := rfl
@[simp] theorem State.setTrackers_dlNow : (s.setTrackers n x).dlNow = s.dlNow := rfl
@[simp] theorem State.setTrackers_regs : (s.setTrackers n x).regs = s.regs := rfl
@[simp] theorem State.setTrackers_imageRegs : (s.setTrackers n x).imageRegs = s.imageRegs := rfl
@[simp] theorem State.setTrackers_latches : (s.setTrackers n x).latches = s.latches := rfl
@[simp] theorem State.setTrackers_held : (s.setTrackers n x).held = s.held := rfl
@[simp] theorem State.setTrackers_pd : (s.setTrackers n x).pd = s.pd := rfl
@[simp] theorem State.setTrackers_mem : (s.setTrackers n x).mem = s.mem := rfl
@[simp] theorem State.setTrackers_upsets : (s.setTrackers n x).upsets = s.upsets := rfl
@[simp] theorem State.setTrackers_chan : (s.setTrackers n x).chan = s.chan := rfl
@[simp] theorem State.setTrackers_late : (s.setTrackers n x).late = s.late := rfl
@[simp] theorem State.setTrackers_tags : (s.setTrackers n x).tags = s.tags := rfl
@[simp] theorem State.setTrackers_checked : (s.setTrackers n x).checked = s.checked := rfl
@[simp] theorem State.setTrackers_clusters : (s.setTrackers n x).clusters = s.clusters := rfl
@[simp] theorem State.setTrackers_engines : (s.setTrackers n x).engines = s.engines := rfl
@[simp] theorem State.setTrackers_dunes : (s.setTrackers n x).dunes = s.dunes := rfl
@[simp] theorem State.setTrackers_slvs : (s.setTrackers n x).slvs = s.slvs := rfl
@[simp] theorem State.setTrackers_loam : (s.setTrackers n x).loam = s.loam := rfl
@[simp] theorem State.setTrackers_tilth : (s.setTrackers n x).tilth = s.tilth := rfl
@[simp] theorem State.setTrackers_phaseReports : (s.setTrackers n x).phaseReports = s.phaseReports := rfl
@[simp] theorem State.setTrackers_queues : (s.setTrackers n x).queues = s.queues := rfl
@[simp] theorem State.setTrackers_objs : (s.setTrackers n x).objs = s.objs := rfl
@[simp] theorem State.setTrackers_adm : (s.setTrackers n x).adm = s.adm := rfl
@[simp] theorem State.setTrackers_overdueCtr : (s.setTrackers n x).overdueCtr = s.overdueCtr := rfl
@[simp] theorem State.setTrackers_dispatchStopped : (s.setTrackers n x).dispatchStopped = s.dispatchStopped := rfl
@[simp] theorem State.setTrackers_slots : (s.setTrackers n x).slots = s.slots := rfl
@[simp] theorem State.setTrackers_batches : (s.setTrackers n x).batches = s.batches := rfl
@[simp] theorem State.setTrackers_quiCmds : (s.setTrackers n x).quiCmds = s.quiCmds := rfl
@[simp] theorem State.setTrackers_cows : (s.setTrackers n x).cows = s.cows := rfl
@[simp] theorem State.setTrackers_movers : (s.setTrackers n x).movers = s.movers := rfl
@[simp] theorem State.setTrackers_reports : (s.setTrackers n x).reports = s.reports := rfl
@[simp] theorem State.setTrackers_brokeSeq : (s.setTrackers n x).brokeSeq = s.brokeSeq := rfl
@[simp] theorem State.setTrackers_ftQueue : (s.setTrackers n x).ftQueue = s.ftQueue := rfl
@[simp] theorem State.setTrackers_lastPass : (s.setTrackers n x).lastPass = s.lastPass := rfl
@[simp] theorem State.setTrackers_provNext : (s.setTrackers n x).provNext = s.provNext := rfl
@[simp] theorem State.setTrackers_brokeCopied : (s.setTrackers n x).brokeCopied = s.brokeCopied := rfl
@[simp] theorem State.setTrackers_poisonBy : (s.setTrackers n x).poisonBy = s.poisonBy := rfl
@[simp] theorem State.setTrackers_budgeted : (s.setTrackers n x).budgeted = s.budgeted := rfl
@[simp] theorem State.setTrackers_ftPoints : (s.setTrackers n x).ftPoints = s.ftPoints := rfl
@[simp] theorem State.setTrackers_macs : (s.setTrackers n x).macs = s.macs := rfl
@[simp] theorem State.setTrackers_log : (s.setTrackers n x).log = s.log := rfl
@[simp] theorem State.setTrackers_timAcc : (s.setTrackers n x).timAcc = s.timAcc := rfl
@[simp] theorem State.setTrackers_timRho : (s.setTrackers n x).timRho = s.timRho := rfl
@[simp] theorem State.setTrackers_timEpoch : (s.setTrackers n x).timEpoch = s.timEpoch := rfl
@[simp] theorem State.setTrackers_hbxs : (s.setTrackers n x).hbxs = s.hbxs := rfl
@[simp] theorem State.setTrackers_hbxq : (s.setTrackers n x).hbxq = s.hbxq := rfl
@[simp] theorem State.setTrackers_hbxCopy : (s.setTrackers n x).hbxCopy = s.hbxCopy := rfl
@[simp] theorem State.setTrackers_patrols : (s.setTrackers n x).patrols = s.patrols := rfl
@[simp] theorem State.setTrackers_zports : (s.setTrackers n x).zports = s.zports := rfl
@[simp] theorem State.setTrackers_pports : (s.setTrackers n x).pports = s.pports := rfl
@[simp] theorem State.setTrackers_csis : (s.setTrackers n x).csis = s.csis := rfl
@[simp] theorem State.setTrackers_flashCmd : (s.setTrackers n x).flashCmd = s.flashCmd := rfl
@[simp] theorem State.setTrackers_flashHeld : (s.setTrackers n x).flashHeld = s.flashHeld := rfl
@[simp] theorem State.setTrackers_flash : (s.setTrackers n x).flash = s.flash := rfl
@[simp] theorem State.setTrackers_flashRegs : (s.setTrackers n x).flashRegs = s.flashRegs := rfl
@[simp] theorem State.setTrackers_cans : (s.setTrackers n x).cans = s.cans := rfl
@[simp] theorem State.setTrackers_pins : (s.setTrackers n x).pins = s.pins := rfl
@[simp] theorem State.setTrackers_msis : (s.setTrackers n x).msis = s.msis := rfl
@[simp] theorem State.setTrackers_eip : (s.setTrackers n x).eip = s.eip := rfl
@[simp] theorem State.setTrackers_harts : (s.setTrackers n x).harts = s.harts := rfl
@[simp] theorem State.setTrackers_wires : (s.setTrackers n x).wires = s.wires := rfl
@[simp] theorem State.setTrackers_iotlb : (s.setTrackers n x).iotlb = s.iotlb := rfl
@[simp] theorem State.setTrackers_pmu : (s.setTrackers n x).pmu = s.pmu := rfl
@[simp] theorem State.setTrackers_thermal : (s.setTrackers n x).thermal = s.thermal := rfl
@[simp] theorem State.setTrackers_mti : (s.setTrackers n x).mti = s.mti := rfl
@[simp] theorem State.setTrackers_mtiStore : (s.setTrackers n x).mtiStore = s.mtiStore := rfl
@[simp] theorem State.setTrackers_rtcNext : (s.setTrackers n x).rtcNext = s.rtcNext := rfl
@[simp] theorem State.setTrackers_lostToLog : (s.setTrackers n x).lostToLog = s.lostToLog := rfl
@[simp] theorem State.setTrackers_fuses : (s.setTrackers n x).fuses = s.fuses := rfl
@[simp] theorem State.setTrackers_running : (s.setTrackers n x).running = s.running := rfl
@[simp] theorem State.setTrackers_mgt : (s.setTrackers n x).mgt = s.mgt := rfl
@[simp] theorem State.setTrackers_tap : (s.setTrackers n x).tap = s.tap := rfl
@[simp] theorem State.setTrackers_supply : (s.setTrackers n x).supply = s.supply := rfl
end setTrackersLaws

section setZportLaws
variable (s : State) (n : Nat) (x : ZPort)
@[simp] theorem State.setZport_pending : (s.setZport n x).pending = s.pending := rfl
@[simp] theorem State.setZport_resp : (s.setZport n x).resp = s.resp := rfl
@[simp] theorem State.setZport_out : (s.setZport n x).out = s.out := rfl
@[simp] theorem State.setZport_freeCtr : (s.setZport n x).freeCtr = s.freeCtr := rfl
@[simp] theorem State.setZport_idCtr : (s.setZport n x).idCtr = s.idCtr := rfl
@[simp] theorem State.setZport_now : (s.setZport n x).now = s.now := rfl
@[simp] theorem State.setZport_cyc : (s.setZport n x).cyc = s.cyc := rfl
@[simp] theorem State.setZport_dlNow : (s.setZport n x).dlNow = s.dlNow := rfl
@[simp] theorem State.setZport_regs : (s.setZport n x).regs = s.regs := rfl
@[simp] theorem State.setZport_imageRegs : (s.setZport n x).imageRegs = s.imageRegs := rfl
@[simp] theorem State.setZport_latches : (s.setZport n x).latches = s.latches := rfl
@[simp] theorem State.setZport_held : (s.setZport n x).held = s.held := rfl
@[simp] theorem State.setZport_pd : (s.setZport n x).pd = s.pd := rfl
@[simp] theorem State.setZport_mem : (s.setZport n x).mem = s.mem := rfl
@[simp] theorem State.setZport_upsets : (s.setZport n x).upsets = s.upsets := rfl
@[simp] theorem State.setZport_chan : (s.setZport n x).chan = s.chan := rfl
@[simp] theorem State.setZport_late : (s.setZport n x).late = s.late := rfl
@[simp] theorem State.setZport_tags : (s.setZport n x).tags = s.tags := rfl
@[simp] theorem State.setZport_checked : (s.setZport n x).checked = s.checked := rfl
@[simp] theorem State.setZport_clusters : (s.setZport n x).clusters = s.clusters := rfl
@[simp] theorem State.setZport_engines : (s.setZport n x).engines = s.engines := rfl
@[simp] theorem State.setZport_dunes : (s.setZport n x).dunes = s.dunes := rfl
@[simp] theorem State.setZport_slvs : (s.setZport n x).slvs = s.slvs := rfl
@[simp] theorem State.setZport_loam : (s.setZport n x).loam = s.loam := rfl
@[simp] theorem State.setZport_tilth : (s.setZport n x).tilth = s.tilth := rfl
@[simp] theorem State.setZport_phaseReports : (s.setZport n x).phaseReports = s.phaseReports := rfl
@[simp] theorem State.setZport_queues : (s.setZport n x).queues = s.queues := rfl
@[simp] theorem State.setZport_objs : (s.setZport n x).objs = s.objs := rfl
@[simp] theorem State.setZport_adm : (s.setZport n x).adm = s.adm := rfl
@[simp] theorem State.setZport_overdueCtr : (s.setZport n x).overdueCtr = s.overdueCtr := rfl
@[simp] theorem State.setZport_dispatchStopped : (s.setZport n x).dispatchStopped = s.dispatchStopped := rfl
@[simp] theorem State.setZport_slots : (s.setZport n x).slots = s.slots := rfl
@[simp] theorem State.setZport_batches : (s.setZport n x).batches = s.batches := rfl
@[simp] theorem State.setZport_quiCmds : (s.setZport n x).quiCmds = s.quiCmds := rfl
@[simp] theorem State.setZport_cows : (s.setZport n x).cows = s.cows := rfl
@[simp] theorem State.setZport_movers : (s.setZport n x).movers = s.movers := rfl
@[simp] theorem State.setZport_reports : (s.setZport n x).reports = s.reports := rfl
@[simp] theorem State.setZport_brokeSeq : (s.setZport n x).brokeSeq = s.brokeSeq := rfl
@[simp] theorem State.setZport_ftQueue : (s.setZport n x).ftQueue = s.ftQueue := rfl
@[simp] theorem State.setZport_lastPass : (s.setZport n x).lastPass = s.lastPass := rfl
@[simp] theorem State.setZport_trackers : (s.setZport n x).trackers = s.trackers := rfl
@[simp] theorem State.setZport_provNext : (s.setZport n x).provNext = s.provNext := rfl
@[simp] theorem State.setZport_brokeCopied : (s.setZport n x).brokeCopied = s.brokeCopied := rfl
@[simp] theorem State.setZport_poisonBy : (s.setZport n x).poisonBy = s.poisonBy := rfl
@[simp] theorem State.setZport_budgeted : (s.setZport n x).budgeted = s.budgeted := rfl
@[simp] theorem State.setZport_ftPoints : (s.setZport n x).ftPoints = s.ftPoints := rfl
@[simp] theorem State.setZport_macs : (s.setZport n x).macs = s.macs := rfl
@[simp] theorem State.setZport_log : (s.setZport n x).log = s.log := rfl
@[simp] theorem State.setZport_timAcc : (s.setZport n x).timAcc = s.timAcc := rfl
@[simp] theorem State.setZport_timRho : (s.setZport n x).timRho = s.timRho := rfl
@[simp] theorem State.setZport_timEpoch : (s.setZport n x).timEpoch = s.timEpoch := rfl
@[simp] theorem State.setZport_hbxs : (s.setZport n x).hbxs = s.hbxs := rfl
@[simp] theorem State.setZport_hbxq : (s.setZport n x).hbxq = s.hbxq := rfl
@[simp] theorem State.setZport_hbxCopy : (s.setZport n x).hbxCopy = s.hbxCopy := rfl
@[simp] theorem State.setZport_patrols : (s.setZport n x).patrols = s.patrols := rfl
@[simp] theorem State.setZport_pports : (s.setZport n x).pports = s.pports := rfl
@[simp] theorem State.setZport_csis : (s.setZport n x).csis = s.csis := rfl
@[simp] theorem State.setZport_flashCmd : (s.setZport n x).flashCmd = s.flashCmd := rfl
@[simp] theorem State.setZport_flashHeld : (s.setZport n x).flashHeld = s.flashHeld := rfl
@[simp] theorem State.setZport_flash : (s.setZport n x).flash = s.flash := rfl
@[simp] theorem State.setZport_flashRegs : (s.setZport n x).flashRegs = s.flashRegs := rfl
@[simp] theorem State.setZport_cans : (s.setZport n x).cans = s.cans := rfl
@[simp] theorem State.setZport_pins : (s.setZport n x).pins = s.pins := rfl
@[simp] theorem State.setZport_msis : (s.setZport n x).msis = s.msis := rfl
@[simp] theorem State.setZport_eip : (s.setZport n x).eip = s.eip := rfl
@[simp] theorem State.setZport_harts : (s.setZport n x).harts = s.harts := rfl
@[simp] theorem State.setZport_wires : (s.setZport n x).wires = s.wires := rfl
@[simp] theorem State.setZport_iotlb : (s.setZport n x).iotlb = s.iotlb := rfl
@[simp] theorem State.setZport_pmu : (s.setZport n x).pmu = s.pmu := rfl
@[simp] theorem State.setZport_thermal : (s.setZport n x).thermal = s.thermal := rfl
@[simp] theorem State.setZport_mti : (s.setZport n x).mti = s.mti := rfl
@[simp] theorem State.setZport_mtiStore : (s.setZport n x).mtiStore = s.mtiStore := rfl
@[simp] theorem State.setZport_rtcNext : (s.setZport n x).rtcNext = s.rtcNext := rfl
@[simp] theorem State.setZport_lostToLog : (s.setZport n x).lostToLog = s.lostToLog := rfl
@[simp] theorem State.setZport_fuses : (s.setZport n x).fuses = s.fuses := rfl
@[simp] theorem State.setZport_running : (s.setZport n x).running = s.running := rfl
@[simp] theorem State.setZport_mgt : (s.setZport n x).mgt = s.mgt := rfl
@[simp] theorem State.setZport_tap : (s.setZport n x).tap = s.tap := rfl
@[simp] theorem State.setZport_supply : (s.setZport n x).supply = s.supply := rfl
end setZportLaws

section setPportLaws
variable (s : State) (n : Nat) (x : PPort)
@[simp] theorem State.setPport_pending : (s.setPport n x).pending = s.pending := rfl
@[simp] theorem State.setPport_resp : (s.setPport n x).resp = s.resp := rfl
@[simp] theorem State.setPport_out : (s.setPport n x).out = s.out := rfl
@[simp] theorem State.setPport_freeCtr : (s.setPport n x).freeCtr = s.freeCtr := rfl
@[simp] theorem State.setPport_idCtr : (s.setPport n x).idCtr = s.idCtr := rfl
@[simp] theorem State.setPport_now : (s.setPport n x).now = s.now := rfl
@[simp] theorem State.setPport_cyc : (s.setPport n x).cyc = s.cyc := rfl
@[simp] theorem State.setPport_dlNow : (s.setPport n x).dlNow = s.dlNow := rfl
@[simp] theorem State.setPport_regs : (s.setPport n x).regs = s.regs := rfl
@[simp] theorem State.setPport_imageRegs : (s.setPport n x).imageRegs = s.imageRegs := rfl
@[simp] theorem State.setPport_latches : (s.setPport n x).latches = s.latches := rfl
@[simp] theorem State.setPport_held : (s.setPport n x).held = s.held := rfl
@[simp] theorem State.setPport_pd : (s.setPport n x).pd = s.pd := rfl
@[simp] theorem State.setPport_mem : (s.setPport n x).mem = s.mem := rfl
@[simp] theorem State.setPport_upsets : (s.setPport n x).upsets = s.upsets := rfl
@[simp] theorem State.setPport_chan : (s.setPport n x).chan = s.chan := rfl
@[simp] theorem State.setPport_late : (s.setPport n x).late = s.late := rfl
@[simp] theorem State.setPport_tags : (s.setPport n x).tags = s.tags := rfl
@[simp] theorem State.setPport_checked : (s.setPport n x).checked = s.checked := rfl
@[simp] theorem State.setPport_clusters : (s.setPport n x).clusters = s.clusters := rfl
@[simp] theorem State.setPport_engines : (s.setPport n x).engines = s.engines := rfl
@[simp] theorem State.setPport_dunes : (s.setPport n x).dunes = s.dunes := rfl
@[simp] theorem State.setPport_slvs : (s.setPport n x).slvs = s.slvs := rfl
@[simp] theorem State.setPport_loam : (s.setPport n x).loam = s.loam := rfl
@[simp] theorem State.setPport_tilth : (s.setPport n x).tilth = s.tilth := rfl
@[simp] theorem State.setPport_phaseReports : (s.setPport n x).phaseReports = s.phaseReports := rfl
@[simp] theorem State.setPport_queues : (s.setPport n x).queues = s.queues := rfl
@[simp] theorem State.setPport_objs : (s.setPport n x).objs = s.objs := rfl
@[simp] theorem State.setPport_adm : (s.setPport n x).adm = s.adm := rfl
@[simp] theorem State.setPport_overdueCtr : (s.setPport n x).overdueCtr = s.overdueCtr := rfl
@[simp] theorem State.setPport_dispatchStopped : (s.setPport n x).dispatchStopped = s.dispatchStopped := rfl
@[simp] theorem State.setPport_slots : (s.setPport n x).slots = s.slots := rfl
@[simp] theorem State.setPport_batches : (s.setPport n x).batches = s.batches := rfl
@[simp] theorem State.setPport_quiCmds : (s.setPport n x).quiCmds = s.quiCmds := rfl
@[simp] theorem State.setPport_cows : (s.setPport n x).cows = s.cows := rfl
@[simp] theorem State.setPport_movers : (s.setPport n x).movers = s.movers := rfl
@[simp] theorem State.setPport_reports : (s.setPport n x).reports = s.reports := rfl
@[simp] theorem State.setPport_brokeSeq : (s.setPport n x).brokeSeq = s.brokeSeq := rfl
@[simp] theorem State.setPport_ftQueue : (s.setPport n x).ftQueue = s.ftQueue := rfl
@[simp] theorem State.setPport_lastPass : (s.setPport n x).lastPass = s.lastPass := rfl
@[simp] theorem State.setPport_trackers : (s.setPport n x).trackers = s.trackers := rfl
@[simp] theorem State.setPport_provNext : (s.setPport n x).provNext = s.provNext := rfl
@[simp] theorem State.setPport_brokeCopied : (s.setPport n x).brokeCopied = s.brokeCopied := rfl
@[simp] theorem State.setPport_poisonBy : (s.setPport n x).poisonBy = s.poisonBy := rfl
@[simp] theorem State.setPport_budgeted : (s.setPport n x).budgeted = s.budgeted := rfl
@[simp] theorem State.setPport_ftPoints : (s.setPport n x).ftPoints = s.ftPoints := rfl
@[simp] theorem State.setPport_macs : (s.setPport n x).macs = s.macs := rfl
@[simp] theorem State.setPport_log : (s.setPport n x).log = s.log := rfl
@[simp] theorem State.setPport_timAcc : (s.setPport n x).timAcc = s.timAcc := rfl
@[simp] theorem State.setPport_timRho : (s.setPport n x).timRho = s.timRho := rfl
@[simp] theorem State.setPport_timEpoch : (s.setPport n x).timEpoch = s.timEpoch := rfl
@[simp] theorem State.setPport_hbxs : (s.setPport n x).hbxs = s.hbxs := rfl
@[simp] theorem State.setPport_hbxq : (s.setPport n x).hbxq = s.hbxq := rfl
@[simp] theorem State.setPport_hbxCopy : (s.setPport n x).hbxCopy = s.hbxCopy := rfl
@[simp] theorem State.setPport_patrols : (s.setPport n x).patrols = s.patrols := rfl
@[simp] theorem State.setPport_zports : (s.setPport n x).zports = s.zports := rfl
@[simp] theorem State.setPport_csis : (s.setPport n x).csis = s.csis := rfl
@[simp] theorem State.setPport_flashCmd : (s.setPport n x).flashCmd = s.flashCmd := rfl
@[simp] theorem State.setPport_flashHeld : (s.setPport n x).flashHeld = s.flashHeld := rfl
@[simp] theorem State.setPport_flash : (s.setPport n x).flash = s.flash := rfl
@[simp] theorem State.setPport_flashRegs : (s.setPport n x).flashRegs = s.flashRegs := rfl
@[simp] theorem State.setPport_cans : (s.setPport n x).cans = s.cans := rfl
@[simp] theorem State.setPport_pins : (s.setPport n x).pins = s.pins := rfl
@[simp] theorem State.setPport_msis : (s.setPport n x).msis = s.msis := rfl
@[simp] theorem State.setPport_eip : (s.setPport n x).eip = s.eip := rfl
@[simp] theorem State.setPport_harts : (s.setPport n x).harts = s.harts := rfl
@[simp] theorem State.setPport_wires : (s.setPport n x).wires = s.wires := rfl
@[simp] theorem State.setPport_iotlb : (s.setPport n x).iotlb = s.iotlb := rfl
@[simp] theorem State.setPport_pmu : (s.setPport n x).pmu = s.pmu := rfl
@[simp] theorem State.setPport_thermal : (s.setPport n x).thermal = s.thermal := rfl
@[simp] theorem State.setPport_mti : (s.setPport n x).mti = s.mti := rfl
@[simp] theorem State.setPport_mtiStore : (s.setPport n x).mtiStore = s.mtiStore := rfl
@[simp] theorem State.setPport_rtcNext : (s.setPport n x).rtcNext = s.rtcNext := rfl
@[simp] theorem State.setPport_lostToLog : (s.setPport n x).lostToLog = s.lostToLog := rfl
@[simp] theorem State.setPport_fuses : (s.setPport n x).fuses = s.fuses := rfl
@[simp] theorem State.setPport_running : (s.setPport n x).running = s.running := rfl
@[simp] theorem State.setPport_mgt : (s.setPport n x).mgt = s.mgt := rfl
@[simp] theorem State.setPport_tap : (s.setPport n x).tap = s.tap := rfl
@[simp] theorem State.setPport_supply : (s.setPport n x).supply = s.supply := rfl
end setPportLaws

section setCsiLaws
variable (s : State) (n : Nat) (x : CsiCtx)
@[simp] theorem State.setCsi_pending : (s.setCsi n x).pending = s.pending := rfl
@[simp] theorem State.setCsi_resp : (s.setCsi n x).resp = s.resp := rfl
@[simp] theorem State.setCsi_out : (s.setCsi n x).out = s.out := rfl
@[simp] theorem State.setCsi_freeCtr : (s.setCsi n x).freeCtr = s.freeCtr := rfl
@[simp] theorem State.setCsi_idCtr : (s.setCsi n x).idCtr = s.idCtr := rfl
@[simp] theorem State.setCsi_now : (s.setCsi n x).now = s.now := rfl
@[simp] theorem State.setCsi_cyc : (s.setCsi n x).cyc = s.cyc := rfl
@[simp] theorem State.setCsi_dlNow : (s.setCsi n x).dlNow = s.dlNow := rfl
@[simp] theorem State.setCsi_regs : (s.setCsi n x).regs = s.regs := rfl
@[simp] theorem State.setCsi_imageRegs : (s.setCsi n x).imageRegs = s.imageRegs := rfl
@[simp] theorem State.setCsi_latches : (s.setCsi n x).latches = s.latches := rfl
@[simp] theorem State.setCsi_held : (s.setCsi n x).held = s.held := rfl
@[simp] theorem State.setCsi_pd : (s.setCsi n x).pd = s.pd := rfl
@[simp] theorem State.setCsi_mem : (s.setCsi n x).mem = s.mem := rfl
@[simp] theorem State.setCsi_upsets : (s.setCsi n x).upsets = s.upsets := rfl
@[simp] theorem State.setCsi_chan : (s.setCsi n x).chan = s.chan := rfl
@[simp] theorem State.setCsi_late : (s.setCsi n x).late = s.late := rfl
@[simp] theorem State.setCsi_tags : (s.setCsi n x).tags = s.tags := rfl
@[simp] theorem State.setCsi_checked : (s.setCsi n x).checked = s.checked := rfl
@[simp] theorem State.setCsi_clusters : (s.setCsi n x).clusters = s.clusters := rfl
@[simp] theorem State.setCsi_engines : (s.setCsi n x).engines = s.engines := rfl
@[simp] theorem State.setCsi_dunes : (s.setCsi n x).dunes = s.dunes := rfl
@[simp] theorem State.setCsi_slvs : (s.setCsi n x).slvs = s.slvs := rfl
@[simp] theorem State.setCsi_loam : (s.setCsi n x).loam = s.loam := rfl
@[simp] theorem State.setCsi_tilth : (s.setCsi n x).tilth = s.tilth := rfl
@[simp] theorem State.setCsi_phaseReports : (s.setCsi n x).phaseReports = s.phaseReports := rfl
@[simp] theorem State.setCsi_queues : (s.setCsi n x).queues = s.queues := rfl
@[simp] theorem State.setCsi_objs : (s.setCsi n x).objs = s.objs := rfl
@[simp] theorem State.setCsi_adm : (s.setCsi n x).adm = s.adm := rfl
@[simp] theorem State.setCsi_overdueCtr : (s.setCsi n x).overdueCtr = s.overdueCtr := rfl
@[simp] theorem State.setCsi_dispatchStopped : (s.setCsi n x).dispatchStopped = s.dispatchStopped := rfl
@[simp] theorem State.setCsi_slots : (s.setCsi n x).slots = s.slots := rfl
@[simp] theorem State.setCsi_batches : (s.setCsi n x).batches = s.batches := rfl
@[simp] theorem State.setCsi_quiCmds : (s.setCsi n x).quiCmds = s.quiCmds := rfl
@[simp] theorem State.setCsi_cows : (s.setCsi n x).cows = s.cows := rfl
@[simp] theorem State.setCsi_movers : (s.setCsi n x).movers = s.movers := rfl
@[simp] theorem State.setCsi_reports : (s.setCsi n x).reports = s.reports := rfl
@[simp] theorem State.setCsi_brokeSeq : (s.setCsi n x).brokeSeq = s.brokeSeq := rfl
@[simp] theorem State.setCsi_ftQueue : (s.setCsi n x).ftQueue = s.ftQueue := rfl
@[simp] theorem State.setCsi_lastPass : (s.setCsi n x).lastPass = s.lastPass := rfl
@[simp] theorem State.setCsi_trackers : (s.setCsi n x).trackers = s.trackers := rfl
@[simp] theorem State.setCsi_provNext : (s.setCsi n x).provNext = s.provNext := rfl
@[simp] theorem State.setCsi_brokeCopied : (s.setCsi n x).brokeCopied = s.brokeCopied := rfl
@[simp] theorem State.setCsi_poisonBy : (s.setCsi n x).poisonBy = s.poisonBy := rfl
@[simp] theorem State.setCsi_budgeted : (s.setCsi n x).budgeted = s.budgeted := rfl
@[simp] theorem State.setCsi_ftPoints : (s.setCsi n x).ftPoints = s.ftPoints := rfl
@[simp] theorem State.setCsi_macs : (s.setCsi n x).macs = s.macs := rfl
@[simp] theorem State.setCsi_log : (s.setCsi n x).log = s.log := rfl
@[simp] theorem State.setCsi_timAcc : (s.setCsi n x).timAcc = s.timAcc := rfl
@[simp] theorem State.setCsi_timRho : (s.setCsi n x).timRho = s.timRho := rfl
@[simp] theorem State.setCsi_timEpoch : (s.setCsi n x).timEpoch = s.timEpoch := rfl
@[simp] theorem State.setCsi_hbxs : (s.setCsi n x).hbxs = s.hbxs := rfl
@[simp] theorem State.setCsi_hbxq : (s.setCsi n x).hbxq = s.hbxq := rfl
@[simp] theorem State.setCsi_hbxCopy : (s.setCsi n x).hbxCopy = s.hbxCopy := rfl
@[simp] theorem State.setCsi_patrols : (s.setCsi n x).patrols = s.patrols := rfl
@[simp] theorem State.setCsi_zports : (s.setCsi n x).zports = s.zports := rfl
@[simp] theorem State.setCsi_pports : (s.setCsi n x).pports = s.pports := rfl
@[simp] theorem State.setCsi_flashCmd : (s.setCsi n x).flashCmd = s.flashCmd := rfl
@[simp] theorem State.setCsi_flashHeld : (s.setCsi n x).flashHeld = s.flashHeld := rfl
@[simp] theorem State.setCsi_flash : (s.setCsi n x).flash = s.flash := rfl
@[simp] theorem State.setCsi_flashRegs : (s.setCsi n x).flashRegs = s.flashRegs := rfl
@[simp] theorem State.setCsi_cans : (s.setCsi n x).cans = s.cans := rfl
@[simp] theorem State.setCsi_pins : (s.setCsi n x).pins = s.pins := rfl
@[simp] theorem State.setCsi_msis : (s.setCsi n x).msis = s.msis := rfl
@[simp] theorem State.setCsi_eip : (s.setCsi n x).eip = s.eip := rfl
@[simp] theorem State.setCsi_harts : (s.setCsi n x).harts = s.harts := rfl
@[simp] theorem State.setCsi_wires : (s.setCsi n x).wires = s.wires := rfl
@[simp] theorem State.setCsi_iotlb : (s.setCsi n x).iotlb = s.iotlb := rfl
@[simp] theorem State.setCsi_pmu : (s.setCsi n x).pmu = s.pmu := rfl
@[simp] theorem State.setCsi_thermal : (s.setCsi n x).thermal = s.thermal := rfl
@[simp] theorem State.setCsi_mti : (s.setCsi n x).mti = s.mti := rfl
@[simp] theorem State.setCsi_mtiStore : (s.setCsi n x).mtiStore = s.mtiStore := rfl
@[simp] theorem State.setCsi_rtcNext : (s.setCsi n x).rtcNext = s.rtcNext := rfl
@[simp] theorem State.setCsi_lostToLog : (s.setCsi n x).lostToLog = s.lostToLog := rfl
@[simp] theorem State.setCsi_fuses : (s.setCsi n x).fuses = s.fuses := rfl
@[simp] theorem State.setCsi_running : (s.setCsi n x).running = s.running := rfl
@[simp] theorem State.setCsi_mgt : (s.setCsi n x).mgt = s.mgt := rfl
@[simp] theorem State.setCsi_tap : (s.setCsi n x).tap = s.tap := rfl
@[simp] theorem State.setCsi_supply : (s.setCsi n x).supply = s.supply := rfl
end setCsiLaws

section setCanLaws
variable (s : State) (n : Nat) (x : CanState)
@[simp] theorem State.setCan_pending : (s.setCan n x).pending = s.pending := rfl
@[simp] theorem State.setCan_resp : (s.setCan n x).resp = s.resp := rfl
@[simp] theorem State.setCan_out : (s.setCan n x).out = s.out := rfl
@[simp] theorem State.setCan_freeCtr : (s.setCan n x).freeCtr = s.freeCtr := rfl
@[simp] theorem State.setCan_idCtr : (s.setCan n x).idCtr = s.idCtr := rfl
@[simp] theorem State.setCan_now : (s.setCan n x).now = s.now := rfl
@[simp] theorem State.setCan_cyc : (s.setCan n x).cyc = s.cyc := rfl
@[simp] theorem State.setCan_dlNow : (s.setCan n x).dlNow = s.dlNow := rfl
@[simp] theorem State.setCan_regs : (s.setCan n x).regs = s.regs := rfl
@[simp] theorem State.setCan_imageRegs : (s.setCan n x).imageRegs = s.imageRegs := rfl
@[simp] theorem State.setCan_latches : (s.setCan n x).latches = s.latches := rfl
@[simp] theorem State.setCan_held : (s.setCan n x).held = s.held := rfl
@[simp] theorem State.setCan_pd : (s.setCan n x).pd = s.pd := rfl
@[simp] theorem State.setCan_mem : (s.setCan n x).mem = s.mem := rfl
@[simp] theorem State.setCan_upsets : (s.setCan n x).upsets = s.upsets := rfl
@[simp] theorem State.setCan_chan : (s.setCan n x).chan = s.chan := rfl
@[simp] theorem State.setCan_late : (s.setCan n x).late = s.late := rfl
@[simp] theorem State.setCan_tags : (s.setCan n x).tags = s.tags := rfl
@[simp] theorem State.setCan_checked : (s.setCan n x).checked = s.checked := rfl
@[simp] theorem State.setCan_clusters : (s.setCan n x).clusters = s.clusters := rfl
@[simp] theorem State.setCan_engines : (s.setCan n x).engines = s.engines := rfl
@[simp] theorem State.setCan_dunes : (s.setCan n x).dunes = s.dunes := rfl
@[simp] theorem State.setCan_slvs : (s.setCan n x).slvs = s.slvs := rfl
@[simp] theorem State.setCan_loam : (s.setCan n x).loam = s.loam := rfl
@[simp] theorem State.setCan_tilth : (s.setCan n x).tilth = s.tilth := rfl
@[simp] theorem State.setCan_phaseReports : (s.setCan n x).phaseReports = s.phaseReports := rfl
@[simp] theorem State.setCan_queues : (s.setCan n x).queues = s.queues := rfl
@[simp] theorem State.setCan_objs : (s.setCan n x).objs = s.objs := rfl
@[simp] theorem State.setCan_adm : (s.setCan n x).adm = s.adm := rfl
@[simp] theorem State.setCan_overdueCtr : (s.setCan n x).overdueCtr = s.overdueCtr := rfl
@[simp] theorem State.setCan_dispatchStopped : (s.setCan n x).dispatchStopped = s.dispatchStopped := rfl
@[simp] theorem State.setCan_slots : (s.setCan n x).slots = s.slots := rfl
@[simp] theorem State.setCan_batches : (s.setCan n x).batches = s.batches := rfl
@[simp] theorem State.setCan_quiCmds : (s.setCan n x).quiCmds = s.quiCmds := rfl
@[simp] theorem State.setCan_cows : (s.setCan n x).cows = s.cows := rfl
@[simp] theorem State.setCan_movers : (s.setCan n x).movers = s.movers := rfl
@[simp] theorem State.setCan_reports : (s.setCan n x).reports = s.reports := rfl
@[simp] theorem State.setCan_brokeSeq : (s.setCan n x).brokeSeq = s.brokeSeq := rfl
@[simp] theorem State.setCan_ftQueue : (s.setCan n x).ftQueue = s.ftQueue := rfl
@[simp] theorem State.setCan_lastPass : (s.setCan n x).lastPass = s.lastPass := rfl
@[simp] theorem State.setCan_trackers : (s.setCan n x).trackers = s.trackers := rfl
@[simp] theorem State.setCan_provNext : (s.setCan n x).provNext = s.provNext := rfl
@[simp] theorem State.setCan_brokeCopied : (s.setCan n x).brokeCopied = s.brokeCopied := rfl
@[simp] theorem State.setCan_poisonBy : (s.setCan n x).poisonBy = s.poisonBy := rfl
@[simp] theorem State.setCan_budgeted : (s.setCan n x).budgeted = s.budgeted := rfl
@[simp] theorem State.setCan_ftPoints : (s.setCan n x).ftPoints = s.ftPoints := rfl
@[simp] theorem State.setCan_macs : (s.setCan n x).macs = s.macs := rfl
@[simp] theorem State.setCan_log : (s.setCan n x).log = s.log := rfl
@[simp] theorem State.setCan_timAcc : (s.setCan n x).timAcc = s.timAcc := rfl
@[simp] theorem State.setCan_timRho : (s.setCan n x).timRho = s.timRho := rfl
@[simp] theorem State.setCan_timEpoch : (s.setCan n x).timEpoch = s.timEpoch := rfl
@[simp] theorem State.setCan_hbxs : (s.setCan n x).hbxs = s.hbxs := rfl
@[simp] theorem State.setCan_hbxq : (s.setCan n x).hbxq = s.hbxq := rfl
@[simp] theorem State.setCan_hbxCopy : (s.setCan n x).hbxCopy = s.hbxCopy := rfl
@[simp] theorem State.setCan_patrols : (s.setCan n x).patrols = s.patrols := rfl
@[simp] theorem State.setCan_zports : (s.setCan n x).zports = s.zports := rfl
@[simp] theorem State.setCan_pports : (s.setCan n x).pports = s.pports := rfl
@[simp] theorem State.setCan_csis : (s.setCan n x).csis = s.csis := rfl
@[simp] theorem State.setCan_flashCmd : (s.setCan n x).flashCmd = s.flashCmd := rfl
@[simp] theorem State.setCan_flashHeld : (s.setCan n x).flashHeld = s.flashHeld := rfl
@[simp] theorem State.setCan_flash : (s.setCan n x).flash = s.flash := rfl
@[simp] theorem State.setCan_flashRegs : (s.setCan n x).flashRegs = s.flashRegs := rfl
@[simp] theorem State.setCan_pins : (s.setCan n x).pins = s.pins := rfl
@[simp] theorem State.setCan_msis : (s.setCan n x).msis = s.msis := rfl
@[simp] theorem State.setCan_eip : (s.setCan n x).eip = s.eip := rfl
@[simp] theorem State.setCan_harts : (s.setCan n x).harts = s.harts := rfl
@[simp] theorem State.setCan_wires : (s.setCan n x).wires = s.wires := rfl
@[simp] theorem State.setCan_iotlb : (s.setCan n x).iotlb = s.iotlb := rfl
@[simp] theorem State.setCan_pmu : (s.setCan n x).pmu = s.pmu := rfl
@[simp] theorem State.setCan_thermal : (s.setCan n x).thermal = s.thermal := rfl
@[simp] theorem State.setCan_mti : (s.setCan n x).mti = s.mti := rfl
@[simp] theorem State.setCan_mtiStore : (s.setCan n x).mtiStore = s.mtiStore := rfl
@[simp] theorem State.setCan_rtcNext : (s.setCan n x).rtcNext = s.rtcNext := rfl
@[simp] theorem State.setCan_lostToLog : (s.setCan n x).lostToLog = s.lostToLog := rfl
@[simp] theorem State.setCan_fuses : (s.setCan n x).fuses = s.fuses := rfl
@[simp] theorem State.setCan_running : (s.setCan n x).running = s.running := rfl
@[simp] theorem State.setCan_mgt : (s.setCan n x).mgt = s.mgt := rfl
@[simp] theorem State.setCan_tap : (s.setCan n x).tap = s.tap := rfl
@[simp] theorem State.setCan_supply : (s.setCan n x).supply = s.supply := rfl
end setCanLaws

section setPinLaws
variable (s : State) (n : Nat) (x : Pin)
@[simp] theorem State.setPin_pending : (s.setPin n x).pending = s.pending := rfl
@[simp] theorem State.setPin_resp : (s.setPin n x).resp = s.resp := rfl
@[simp] theorem State.setPin_out : (s.setPin n x).out = s.out := rfl
@[simp] theorem State.setPin_freeCtr : (s.setPin n x).freeCtr = s.freeCtr := rfl
@[simp] theorem State.setPin_idCtr : (s.setPin n x).idCtr = s.idCtr := rfl
@[simp] theorem State.setPin_now : (s.setPin n x).now = s.now := rfl
@[simp] theorem State.setPin_cyc : (s.setPin n x).cyc = s.cyc := rfl
@[simp] theorem State.setPin_dlNow : (s.setPin n x).dlNow = s.dlNow := rfl
@[simp] theorem State.setPin_regs : (s.setPin n x).regs = s.regs := rfl
@[simp] theorem State.setPin_imageRegs : (s.setPin n x).imageRegs = s.imageRegs := rfl
@[simp] theorem State.setPin_latches : (s.setPin n x).latches = s.latches := rfl
@[simp] theorem State.setPin_held : (s.setPin n x).held = s.held := rfl
@[simp] theorem State.setPin_pd : (s.setPin n x).pd = s.pd := rfl
@[simp] theorem State.setPin_mem : (s.setPin n x).mem = s.mem := rfl
@[simp] theorem State.setPin_upsets : (s.setPin n x).upsets = s.upsets := rfl
@[simp] theorem State.setPin_chan : (s.setPin n x).chan = s.chan := rfl
@[simp] theorem State.setPin_late : (s.setPin n x).late = s.late := rfl
@[simp] theorem State.setPin_tags : (s.setPin n x).tags = s.tags := rfl
@[simp] theorem State.setPin_checked : (s.setPin n x).checked = s.checked := rfl
@[simp] theorem State.setPin_clusters : (s.setPin n x).clusters = s.clusters := rfl
@[simp] theorem State.setPin_engines : (s.setPin n x).engines = s.engines := rfl
@[simp] theorem State.setPin_dunes : (s.setPin n x).dunes = s.dunes := rfl
@[simp] theorem State.setPin_slvs : (s.setPin n x).slvs = s.slvs := rfl
@[simp] theorem State.setPin_loam : (s.setPin n x).loam = s.loam := rfl
@[simp] theorem State.setPin_tilth : (s.setPin n x).tilth = s.tilth := rfl
@[simp] theorem State.setPin_phaseReports : (s.setPin n x).phaseReports = s.phaseReports := rfl
@[simp] theorem State.setPin_queues : (s.setPin n x).queues = s.queues := rfl
@[simp] theorem State.setPin_objs : (s.setPin n x).objs = s.objs := rfl
@[simp] theorem State.setPin_adm : (s.setPin n x).adm = s.adm := rfl
@[simp] theorem State.setPin_overdueCtr : (s.setPin n x).overdueCtr = s.overdueCtr := rfl
@[simp] theorem State.setPin_dispatchStopped : (s.setPin n x).dispatchStopped = s.dispatchStopped := rfl
@[simp] theorem State.setPin_slots : (s.setPin n x).slots = s.slots := rfl
@[simp] theorem State.setPin_batches : (s.setPin n x).batches = s.batches := rfl
@[simp] theorem State.setPin_quiCmds : (s.setPin n x).quiCmds = s.quiCmds := rfl
@[simp] theorem State.setPin_cows : (s.setPin n x).cows = s.cows := rfl
@[simp] theorem State.setPin_movers : (s.setPin n x).movers = s.movers := rfl
@[simp] theorem State.setPin_reports : (s.setPin n x).reports = s.reports := rfl
@[simp] theorem State.setPin_brokeSeq : (s.setPin n x).brokeSeq = s.brokeSeq := rfl
@[simp] theorem State.setPin_ftQueue : (s.setPin n x).ftQueue = s.ftQueue := rfl
@[simp] theorem State.setPin_lastPass : (s.setPin n x).lastPass = s.lastPass := rfl
@[simp] theorem State.setPin_trackers : (s.setPin n x).trackers = s.trackers := rfl
@[simp] theorem State.setPin_provNext : (s.setPin n x).provNext = s.provNext := rfl
@[simp] theorem State.setPin_brokeCopied : (s.setPin n x).brokeCopied = s.brokeCopied := rfl
@[simp] theorem State.setPin_poisonBy : (s.setPin n x).poisonBy = s.poisonBy := rfl
@[simp] theorem State.setPin_budgeted : (s.setPin n x).budgeted = s.budgeted := rfl
@[simp] theorem State.setPin_ftPoints : (s.setPin n x).ftPoints = s.ftPoints := rfl
@[simp] theorem State.setPin_macs : (s.setPin n x).macs = s.macs := rfl
@[simp] theorem State.setPin_log : (s.setPin n x).log = s.log := rfl
@[simp] theorem State.setPin_timAcc : (s.setPin n x).timAcc = s.timAcc := rfl
@[simp] theorem State.setPin_timRho : (s.setPin n x).timRho = s.timRho := rfl
@[simp] theorem State.setPin_timEpoch : (s.setPin n x).timEpoch = s.timEpoch := rfl
@[simp] theorem State.setPin_hbxs : (s.setPin n x).hbxs = s.hbxs := rfl
@[simp] theorem State.setPin_hbxq : (s.setPin n x).hbxq = s.hbxq := rfl
@[simp] theorem State.setPin_hbxCopy : (s.setPin n x).hbxCopy = s.hbxCopy := rfl
@[simp] theorem State.setPin_patrols : (s.setPin n x).patrols = s.patrols := rfl
@[simp] theorem State.setPin_zports : (s.setPin n x).zports = s.zports := rfl
@[simp] theorem State.setPin_pports : (s.setPin n x).pports = s.pports := rfl
@[simp] theorem State.setPin_csis : (s.setPin n x).csis = s.csis := rfl
@[simp] theorem State.setPin_flashCmd : (s.setPin n x).flashCmd = s.flashCmd := rfl
@[simp] theorem State.setPin_flashHeld : (s.setPin n x).flashHeld = s.flashHeld := rfl
@[simp] theorem State.setPin_flash : (s.setPin n x).flash = s.flash := rfl
@[simp] theorem State.setPin_flashRegs : (s.setPin n x).flashRegs = s.flashRegs := rfl
@[simp] theorem State.setPin_cans : (s.setPin n x).cans = s.cans := rfl
@[simp] theorem State.setPin_msis : (s.setPin n x).msis = s.msis := rfl
@[simp] theorem State.setPin_eip : (s.setPin n x).eip = s.eip := rfl
@[simp] theorem State.setPin_harts : (s.setPin n x).harts = s.harts := rfl
@[simp] theorem State.setPin_wires : (s.setPin n x).wires = s.wires := rfl
@[simp] theorem State.setPin_iotlb : (s.setPin n x).iotlb = s.iotlb := rfl
@[simp] theorem State.setPin_pmu : (s.setPin n x).pmu = s.pmu := rfl
@[simp] theorem State.setPin_thermal : (s.setPin n x).thermal = s.thermal := rfl
@[simp] theorem State.setPin_mti : (s.setPin n x).mti = s.mti := rfl
@[simp] theorem State.setPin_mtiStore : (s.setPin n x).mtiStore = s.mtiStore := rfl
@[simp] theorem State.setPin_rtcNext : (s.setPin n x).rtcNext = s.rtcNext := rfl
@[simp] theorem State.setPin_lostToLog : (s.setPin n x).lostToLog = s.lostToLog := rfl
@[simp] theorem State.setPin_fuses : (s.setPin n x).fuses = s.fuses := rfl
@[simp] theorem State.setPin_running : (s.setPin n x).running = s.running := rfl
@[simp] theorem State.setPin_mgt : (s.setPin n x).mgt = s.mgt := rfl
@[simp] theorem State.setPin_tap : (s.setPin n x).tap = s.tap := rfl
@[simp] theorem State.setPin_supply : (s.setPin n x).supply = s.supply := rfl
end setPinLaws

section setHartLaws
variable (s : State) (n : Nat) (x : Hart)
@[simp] theorem State.setHart_pending : (s.setHart n x).pending = s.pending := rfl
@[simp] theorem State.setHart_resp : (s.setHart n x).resp = s.resp := rfl
@[simp] theorem State.setHart_out : (s.setHart n x).out = s.out := rfl
@[simp] theorem State.setHart_freeCtr : (s.setHart n x).freeCtr = s.freeCtr := rfl
@[simp] theorem State.setHart_idCtr : (s.setHart n x).idCtr = s.idCtr := rfl
@[simp] theorem State.setHart_now : (s.setHart n x).now = s.now := rfl
@[simp] theorem State.setHart_cyc : (s.setHart n x).cyc = s.cyc := rfl
@[simp] theorem State.setHart_dlNow : (s.setHart n x).dlNow = s.dlNow := rfl
@[simp] theorem State.setHart_regs : (s.setHart n x).regs = s.regs := rfl
@[simp] theorem State.setHart_imageRegs : (s.setHart n x).imageRegs = s.imageRegs := rfl
@[simp] theorem State.setHart_latches : (s.setHart n x).latches = s.latches := rfl
@[simp] theorem State.setHart_held : (s.setHart n x).held = s.held := rfl
@[simp] theorem State.setHart_pd : (s.setHart n x).pd = s.pd := rfl
@[simp] theorem State.setHart_mem : (s.setHart n x).mem = s.mem := rfl
@[simp] theorem State.setHart_upsets : (s.setHart n x).upsets = s.upsets := rfl
@[simp] theorem State.setHart_chan : (s.setHart n x).chan = s.chan := rfl
@[simp] theorem State.setHart_late : (s.setHart n x).late = s.late := rfl
@[simp] theorem State.setHart_tags : (s.setHart n x).tags = s.tags := rfl
@[simp] theorem State.setHart_checked : (s.setHart n x).checked = s.checked := rfl
@[simp] theorem State.setHart_clusters : (s.setHart n x).clusters = s.clusters := rfl
@[simp] theorem State.setHart_engines : (s.setHart n x).engines = s.engines := rfl
@[simp] theorem State.setHart_dunes : (s.setHart n x).dunes = s.dunes := rfl
@[simp] theorem State.setHart_slvs : (s.setHart n x).slvs = s.slvs := rfl
@[simp] theorem State.setHart_loam : (s.setHart n x).loam = s.loam := rfl
@[simp] theorem State.setHart_tilth : (s.setHart n x).tilth = s.tilth := rfl
@[simp] theorem State.setHart_phaseReports : (s.setHart n x).phaseReports = s.phaseReports := rfl
@[simp] theorem State.setHart_queues : (s.setHart n x).queues = s.queues := rfl
@[simp] theorem State.setHart_objs : (s.setHart n x).objs = s.objs := rfl
@[simp] theorem State.setHart_adm : (s.setHart n x).adm = s.adm := rfl
@[simp] theorem State.setHart_overdueCtr : (s.setHart n x).overdueCtr = s.overdueCtr := rfl
@[simp] theorem State.setHart_dispatchStopped : (s.setHart n x).dispatchStopped = s.dispatchStopped := rfl
@[simp] theorem State.setHart_slots : (s.setHart n x).slots = s.slots := rfl
@[simp] theorem State.setHart_batches : (s.setHart n x).batches = s.batches := rfl
@[simp] theorem State.setHart_quiCmds : (s.setHart n x).quiCmds = s.quiCmds := rfl
@[simp] theorem State.setHart_cows : (s.setHart n x).cows = s.cows := rfl
@[simp] theorem State.setHart_movers : (s.setHart n x).movers = s.movers := rfl
@[simp] theorem State.setHart_reports : (s.setHart n x).reports = s.reports := rfl
@[simp] theorem State.setHart_brokeSeq : (s.setHart n x).brokeSeq = s.brokeSeq := rfl
@[simp] theorem State.setHart_ftQueue : (s.setHart n x).ftQueue = s.ftQueue := rfl
@[simp] theorem State.setHart_lastPass : (s.setHart n x).lastPass = s.lastPass := rfl
@[simp] theorem State.setHart_trackers : (s.setHart n x).trackers = s.trackers := rfl
@[simp] theorem State.setHart_provNext : (s.setHart n x).provNext = s.provNext := rfl
@[simp] theorem State.setHart_brokeCopied : (s.setHart n x).brokeCopied = s.brokeCopied := rfl
@[simp] theorem State.setHart_poisonBy : (s.setHart n x).poisonBy = s.poisonBy := rfl
@[simp] theorem State.setHart_budgeted : (s.setHart n x).budgeted = s.budgeted := rfl
@[simp] theorem State.setHart_ftPoints : (s.setHart n x).ftPoints = s.ftPoints := rfl
@[simp] theorem State.setHart_macs : (s.setHart n x).macs = s.macs := rfl
@[simp] theorem State.setHart_log : (s.setHart n x).log = s.log := rfl
@[simp] theorem State.setHart_timAcc : (s.setHart n x).timAcc = s.timAcc := rfl
@[simp] theorem State.setHart_timRho : (s.setHart n x).timRho = s.timRho := rfl
@[simp] theorem State.setHart_timEpoch : (s.setHart n x).timEpoch = s.timEpoch := rfl
@[simp] theorem State.setHart_hbxs : (s.setHart n x).hbxs = s.hbxs := rfl
@[simp] theorem State.setHart_hbxq : (s.setHart n x).hbxq = s.hbxq := rfl
@[simp] theorem State.setHart_hbxCopy : (s.setHart n x).hbxCopy = s.hbxCopy := rfl
@[simp] theorem State.setHart_patrols : (s.setHart n x).patrols = s.patrols := rfl
@[simp] theorem State.setHart_zports : (s.setHart n x).zports = s.zports := rfl
@[simp] theorem State.setHart_pports : (s.setHart n x).pports = s.pports := rfl
@[simp] theorem State.setHart_csis : (s.setHart n x).csis = s.csis := rfl
@[simp] theorem State.setHart_flashCmd : (s.setHart n x).flashCmd = s.flashCmd := rfl
@[simp] theorem State.setHart_flashHeld : (s.setHart n x).flashHeld = s.flashHeld := rfl
@[simp] theorem State.setHart_flash : (s.setHart n x).flash = s.flash := rfl
@[simp] theorem State.setHart_flashRegs : (s.setHart n x).flashRegs = s.flashRegs := rfl
@[simp] theorem State.setHart_cans : (s.setHart n x).cans = s.cans := rfl
@[simp] theorem State.setHart_pins : (s.setHart n x).pins = s.pins := rfl
@[simp] theorem State.setHart_msis : (s.setHart n x).msis = s.msis := rfl
@[simp] theorem State.setHart_eip : (s.setHart n x).eip = s.eip := rfl
@[simp] theorem State.setHart_wires : (s.setHart n x).wires = s.wires := rfl
@[simp] theorem State.setHart_iotlb : (s.setHart n x).iotlb = s.iotlb := rfl
@[simp] theorem State.setHart_pmu : (s.setHart n x).pmu = s.pmu := rfl
@[simp] theorem State.setHart_thermal : (s.setHart n x).thermal = s.thermal := rfl
@[simp] theorem State.setHart_mti : (s.setHart n x).mti = s.mti := rfl
@[simp] theorem State.setHart_mtiStore : (s.setHart n x).mtiStore = s.mtiStore := rfl
@[simp] theorem State.setHart_rtcNext : (s.setHart n x).rtcNext = s.rtcNext := rfl
@[simp] theorem State.setHart_lostToLog : (s.setHart n x).lostToLog = s.lostToLog := rfl
@[simp] theorem State.setHart_fuses : (s.setHart n x).fuses = s.fuses := rfl
@[simp] theorem State.setHart_running : (s.setHart n x).running = s.running := rfl
@[simp] theorem State.setHart_mgt : (s.setHart n x).mgt = s.mgt := rfl
@[simp] theorem State.setHart_tap : (s.setHart n x).tap = s.tap := rfl
@[simp] theorem State.setHart_supply : (s.setHart n x).supply = s.supply := rfl
end setHartLaws

section setPmuCluLaws
variable (s : State) (n : Nat) (x : PmuClu)
@[simp] theorem State.setPmuClu_pending : (s.setPmuClu n x).pending = s.pending := rfl
@[simp] theorem State.setPmuClu_resp : (s.setPmuClu n x).resp = s.resp := rfl
@[simp] theorem State.setPmuClu_out : (s.setPmuClu n x).out = s.out := rfl
@[simp] theorem State.setPmuClu_freeCtr : (s.setPmuClu n x).freeCtr = s.freeCtr := rfl
@[simp] theorem State.setPmuClu_idCtr : (s.setPmuClu n x).idCtr = s.idCtr := rfl
@[simp] theorem State.setPmuClu_now : (s.setPmuClu n x).now = s.now := rfl
@[simp] theorem State.setPmuClu_cyc : (s.setPmuClu n x).cyc = s.cyc := rfl
@[simp] theorem State.setPmuClu_dlNow : (s.setPmuClu n x).dlNow = s.dlNow := rfl
@[simp] theorem State.setPmuClu_regs : (s.setPmuClu n x).regs = s.regs := rfl
@[simp] theorem State.setPmuClu_imageRegs : (s.setPmuClu n x).imageRegs = s.imageRegs := rfl
@[simp] theorem State.setPmuClu_latches : (s.setPmuClu n x).latches = s.latches := rfl
@[simp] theorem State.setPmuClu_held : (s.setPmuClu n x).held = s.held := rfl
@[simp] theorem State.setPmuClu_pd : (s.setPmuClu n x).pd = s.pd := rfl
@[simp] theorem State.setPmuClu_mem : (s.setPmuClu n x).mem = s.mem := rfl
@[simp] theorem State.setPmuClu_upsets : (s.setPmuClu n x).upsets = s.upsets := rfl
@[simp] theorem State.setPmuClu_chan : (s.setPmuClu n x).chan = s.chan := rfl
@[simp] theorem State.setPmuClu_late : (s.setPmuClu n x).late = s.late := rfl
@[simp] theorem State.setPmuClu_tags : (s.setPmuClu n x).tags = s.tags := rfl
@[simp] theorem State.setPmuClu_checked : (s.setPmuClu n x).checked = s.checked := rfl
@[simp] theorem State.setPmuClu_clusters : (s.setPmuClu n x).clusters = s.clusters := rfl
@[simp] theorem State.setPmuClu_engines : (s.setPmuClu n x).engines = s.engines := rfl
@[simp] theorem State.setPmuClu_dunes : (s.setPmuClu n x).dunes = s.dunes := rfl
@[simp] theorem State.setPmuClu_slvs : (s.setPmuClu n x).slvs = s.slvs := rfl
@[simp] theorem State.setPmuClu_loam : (s.setPmuClu n x).loam = s.loam := rfl
@[simp] theorem State.setPmuClu_tilth : (s.setPmuClu n x).tilth = s.tilth := rfl
@[simp] theorem State.setPmuClu_phaseReports : (s.setPmuClu n x).phaseReports = s.phaseReports := rfl
@[simp] theorem State.setPmuClu_queues : (s.setPmuClu n x).queues = s.queues := rfl
@[simp] theorem State.setPmuClu_objs : (s.setPmuClu n x).objs = s.objs := rfl
@[simp] theorem State.setPmuClu_adm : (s.setPmuClu n x).adm = s.adm := rfl
@[simp] theorem State.setPmuClu_overdueCtr : (s.setPmuClu n x).overdueCtr = s.overdueCtr := rfl
@[simp] theorem State.setPmuClu_dispatchStopped : (s.setPmuClu n x).dispatchStopped = s.dispatchStopped := rfl
@[simp] theorem State.setPmuClu_slots : (s.setPmuClu n x).slots = s.slots := rfl
@[simp] theorem State.setPmuClu_batches : (s.setPmuClu n x).batches = s.batches := rfl
@[simp] theorem State.setPmuClu_quiCmds : (s.setPmuClu n x).quiCmds = s.quiCmds := rfl
@[simp] theorem State.setPmuClu_cows : (s.setPmuClu n x).cows = s.cows := rfl
@[simp] theorem State.setPmuClu_movers : (s.setPmuClu n x).movers = s.movers := rfl
@[simp] theorem State.setPmuClu_reports : (s.setPmuClu n x).reports = s.reports := rfl
@[simp] theorem State.setPmuClu_brokeSeq : (s.setPmuClu n x).brokeSeq = s.brokeSeq := rfl
@[simp] theorem State.setPmuClu_ftQueue : (s.setPmuClu n x).ftQueue = s.ftQueue := rfl
@[simp] theorem State.setPmuClu_lastPass : (s.setPmuClu n x).lastPass = s.lastPass := rfl
@[simp] theorem State.setPmuClu_trackers : (s.setPmuClu n x).trackers = s.trackers := rfl
@[simp] theorem State.setPmuClu_provNext : (s.setPmuClu n x).provNext = s.provNext := rfl
@[simp] theorem State.setPmuClu_brokeCopied : (s.setPmuClu n x).brokeCopied = s.brokeCopied := rfl
@[simp] theorem State.setPmuClu_poisonBy : (s.setPmuClu n x).poisonBy = s.poisonBy := rfl
@[simp] theorem State.setPmuClu_budgeted : (s.setPmuClu n x).budgeted = s.budgeted := rfl
@[simp] theorem State.setPmuClu_ftPoints : (s.setPmuClu n x).ftPoints = s.ftPoints := rfl
@[simp] theorem State.setPmuClu_macs : (s.setPmuClu n x).macs = s.macs := rfl
@[simp] theorem State.setPmuClu_log : (s.setPmuClu n x).log = s.log := rfl
@[simp] theorem State.setPmuClu_timAcc : (s.setPmuClu n x).timAcc = s.timAcc := rfl
@[simp] theorem State.setPmuClu_timRho : (s.setPmuClu n x).timRho = s.timRho := rfl
@[simp] theorem State.setPmuClu_timEpoch : (s.setPmuClu n x).timEpoch = s.timEpoch := rfl
@[simp] theorem State.setPmuClu_hbxs : (s.setPmuClu n x).hbxs = s.hbxs := rfl
@[simp] theorem State.setPmuClu_hbxq : (s.setPmuClu n x).hbxq = s.hbxq := rfl
@[simp] theorem State.setPmuClu_hbxCopy : (s.setPmuClu n x).hbxCopy = s.hbxCopy := rfl
@[simp] theorem State.setPmuClu_patrols : (s.setPmuClu n x).patrols = s.patrols := rfl
@[simp] theorem State.setPmuClu_zports : (s.setPmuClu n x).zports = s.zports := rfl
@[simp] theorem State.setPmuClu_pports : (s.setPmuClu n x).pports = s.pports := rfl
@[simp] theorem State.setPmuClu_csis : (s.setPmuClu n x).csis = s.csis := rfl
@[simp] theorem State.setPmuClu_flashCmd : (s.setPmuClu n x).flashCmd = s.flashCmd := rfl
@[simp] theorem State.setPmuClu_flashHeld : (s.setPmuClu n x).flashHeld = s.flashHeld := rfl
@[simp] theorem State.setPmuClu_flash : (s.setPmuClu n x).flash = s.flash := rfl
@[simp] theorem State.setPmuClu_flashRegs : (s.setPmuClu n x).flashRegs = s.flashRegs := rfl
@[simp] theorem State.setPmuClu_cans : (s.setPmuClu n x).cans = s.cans := rfl
@[simp] theorem State.setPmuClu_pins : (s.setPmuClu n x).pins = s.pins := rfl
@[simp] theorem State.setPmuClu_msis : (s.setPmuClu n x).msis = s.msis := rfl
@[simp] theorem State.setPmuClu_eip : (s.setPmuClu n x).eip = s.eip := rfl
@[simp] theorem State.setPmuClu_harts : (s.setPmuClu n x).harts = s.harts := rfl
@[simp] theorem State.setPmuClu_wires : (s.setPmuClu n x).wires = s.wires := rfl
@[simp] theorem State.setPmuClu_iotlb : (s.setPmuClu n x).iotlb = s.iotlb := rfl
@[simp] theorem State.setPmuClu_thermal : (s.setPmuClu n x).thermal = s.thermal := rfl
@[simp] theorem State.setPmuClu_mti : (s.setPmuClu n x).mti = s.mti := rfl
@[simp] theorem State.setPmuClu_mtiStore : (s.setPmuClu n x).mtiStore = s.mtiStore := rfl
@[simp] theorem State.setPmuClu_rtcNext : (s.setPmuClu n x).rtcNext = s.rtcNext := rfl
@[simp] theorem State.setPmuClu_lostToLog : (s.setPmuClu n x).lostToLog = s.lostToLog := rfl
@[simp] theorem State.setPmuClu_fuses : (s.setPmuClu n x).fuses = s.fuses := rfl
@[simp] theorem State.setPmuClu_running : (s.setPmuClu n x).running = s.running := rfl
@[simp] theorem State.setPmuClu_mgt : (s.setPmuClu n x).mgt = s.mgt := rfl
@[simp] theorem State.setPmuClu_tap : (s.setPmuClu n x).tap = s.tap := rfl
@[simp] theorem State.setPmuClu_supply : (s.setPmuClu n x).supply = s.supply := rfl
end setPmuCluLaws

section setRailLaws
variable (s : State) (n : Nat) (x : Rail)
@[simp] theorem State.setRail_pending : (s.setRail n x).pending = s.pending := rfl
@[simp] theorem State.setRail_resp : (s.setRail n x).resp = s.resp := rfl
@[simp] theorem State.setRail_out : (s.setRail n x).out = s.out := rfl
@[simp] theorem State.setRail_freeCtr : (s.setRail n x).freeCtr = s.freeCtr := rfl
@[simp] theorem State.setRail_idCtr : (s.setRail n x).idCtr = s.idCtr := rfl
@[simp] theorem State.setRail_now : (s.setRail n x).now = s.now := rfl
@[simp] theorem State.setRail_cyc : (s.setRail n x).cyc = s.cyc := rfl
@[simp] theorem State.setRail_dlNow : (s.setRail n x).dlNow = s.dlNow := rfl
@[simp] theorem State.setRail_regs : (s.setRail n x).regs = s.regs := rfl
@[simp] theorem State.setRail_imageRegs : (s.setRail n x).imageRegs = s.imageRegs := rfl
@[simp] theorem State.setRail_latches : (s.setRail n x).latches = s.latches := rfl
@[simp] theorem State.setRail_held : (s.setRail n x).held = s.held := rfl
@[simp] theorem State.setRail_pd : (s.setRail n x).pd = s.pd := rfl
@[simp] theorem State.setRail_mem : (s.setRail n x).mem = s.mem := rfl
@[simp] theorem State.setRail_upsets : (s.setRail n x).upsets = s.upsets := rfl
@[simp] theorem State.setRail_chan : (s.setRail n x).chan = s.chan := rfl
@[simp] theorem State.setRail_late : (s.setRail n x).late = s.late := rfl
@[simp] theorem State.setRail_tags : (s.setRail n x).tags = s.tags := rfl
@[simp] theorem State.setRail_checked : (s.setRail n x).checked = s.checked := rfl
@[simp] theorem State.setRail_clusters : (s.setRail n x).clusters = s.clusters := rfl
@[simp] theorem State.setRail_engines : (s.setRail n x).engines = s.engines := rfl
@[simp] theorem State.setRail_dunes : (s.setRail n x).dunes = s.dunes := rfl
@[simp] theorem State.setRail_slvs : (s.setRail n x).slvs = s.slvs := rfl
@[simp] theorem State.setRail_loam : (s.setRail n x).loam = s.loam := rfl
@[simp] theorem State.setRail_tilth : (s.setRail n x).tilth = s.tilth := rfl
@[simp] theorem State.setRail_phaseReports : (s.setRail n x).phaseReports = s.phaseReports := rfl
@[simp] theorem State.setRail_queues : (s.setRail n x).queues = s.queues := rfl
@[simp] theorem State.setRail_objs : (s.setRail n x).objs = s.objs := rfl
@[simp] theorem State.setRail_adm : (s.setRail n x).adm = s.adm := rfl
@[simp] theorem State.setRail_overdueCtr : (s.setRail n x).overdueCtr = s.overdueCtr := rfl
@[simp] theorem State.setRail_dispatchStopped : (s.setRail n x).dispatchStopped = s.dispatchStopped := rfl
@[simp] theorem State.setRail_slots : (s.setRail n x).slots = s.slots := rfl
@[simp] theorem State.setRail_batches : (s.setRail n x).batches = s.batches := rfl
@[simp] theorem State.setRail_quiCmds : (s.setRail n x).quiCmds = s.quiCmds := rfl
@[simp] theorem State.setRail_cows : (s.setRail n x).cows = s.cows := rfl
@[simp] theorem State.setRail_movers : (s.setRail n x).movers = s.movers := rfl
@[simp] theorem State.setRail_reports : (s.setRail n x).reports = s.reports := rfl
@[simp] theorem State.setRail_brokeSeq : (s.setRail n x).brokeSeq = s.brokeSeq := rfl
@[simp] theorem State.setRail_ftQueue : (s.setRail n x).ftQueue = s.ftQueue := rfl
@[simp] theorem State.setRail_lastPass : (s.setRail n x).lastPass = s.lastPass := rfl
@[simp] theorem State.setRail_trackers : (s.setRail n x).trackers = s.trackers := rfl
@[simp] theorem State.setRail_provNext : (s.setRail n x).provNext = s.provNext := rfl
@[simp] theorem State.setRail_brokeCopied : (s.setRail n x).brokeCopied = s.brokeCopied := rfl
@[simp] theorem State.setRail_poisonBy : (s.setRail n x).poisonBy = s.poisonBy := rfl
@[simp] theorem State.setRail_budgeted : (s.setRail n x).budgeted = s.budgeted := rfl
@[simp] theorem State.setRail_ftPoints : (s.setRail n x).ftPoints = s.ftPoints := rfl
@[simp] theorem State.setRail_macs : (s.setRail n x).macs = s.macs := rfl
@[simp] theorem State.setRail_log : (s.setRail n x).log = s.log := rfl
@[simp] theorem State.setRail_timAcc : (s.setRail n x).timAcc = s.timAcc := rfl
@[simp] theorem State.setRail_timRho : (s.setRail n x).timRho = s.timRho := rfl
@[simp] theorem State.setRail_timEpoch : (s.setRail n x).timEpoch = s.timEpoch := rfl
@[simp] theorem State.setRail_hbxs : (s.setRail n x).hbxs = s.hbxs := rfl
@[simp] theorem State.setRail_hbxq : (s.setRail n x).hbxq = s.hbxq := rfl
@[simp] theorem State.setRail_hbxCopy : (s.setRail n x).hbxCopy = s.hbxCopy := rfl
@[simp] theorem State.setRail_patrols : (s.setRail n x).patrols = s.patrols := rfl
@[simp] theorem State.setRail_zports : (s.setRail n x).zports = s.zports := rfl
@[simp] theorem State.setRail_pports : (s.setRail n x).pports = s.pports := rfl
@[simp] theorem State.setRail_csis : (s.setRail n x).csis = s.csis := rfl
@[simp] theorem State.setRail_flashCmd : (s.setRail n x).flashCmd = s.flashCmd := rfl
@[simp] theorem State.setRail_flashHeld : (s.setRail n x).flashHeld = s.flashHeld := rfl
@[simp] theorem State.setRail_flash : (s.setRail n x).flash = s.flash := rfl
@[simp] theorem State.setRail_flashRegs : (s.setRail n x).flashRegs = s.flashRegs := rfl
@[simp] theorem State.setRail_cans : (s.setRail n x).cans = s.cans := rfl
@[simp] theorem State.setRail_pins : (s.setRail n x).pins = s.pins := rfl
@[simp] theorem State.setRail_msis : (s.setRail n x).msis = s.msis := rfl
@[simp] theorem State.setRail_eip : (s.setRail n x).eip = s.eip := rfl
@[simp] theorem State.setRail_harts : (s.setRail n x).harts = s.harts := rfl
@[simp] theorem State.setRail_wires : (s.setRail n x).wires = s.wires := rfl
@[simp] theorem State.setRail_iotlb : (s.setRail n x).iotlb = s.iotlb := rfl
@[simp] theorem State.setRail_thermal : (s.setRail n x).thermal = s.thermal := rfl
@[simp] theorem State.setRail_mti : (s.setRail n x).mti = s.mti := rfl
@[simp] theorem State.setRail_mtiStore : (s.setRail n x).mtiStore = s.mtiStore := rfl
@[simp] theorem State.setRail_rtcNext : (s.setRail n x).rtcNext = s.rtcNext := rfl
@[simp] theorem State.setRail_lostToLog : (s.setRail n x).lostToLog = s.lostToLog := rfl
@[simp] theorem State.setRail_fuses : (s.setRail n x).fuses = s.fuses := rfl
@[simp] theorem State.setRail_running : (s.setRail n x).running = s.running := rfl
@[simp] theorem State.setRail_mgt : (s.setRail n x).mgt = s.mgt := rfl
@[simp] theorem State.setRail_tap : (s.setRail n x).tap = s.tap := rfl
@[simp] theorem State.setRail_supply : (s.setRail n x).supply = s.supply := rfl
end setRailLaws

section setMacLaws
variable (s : State) (n : Nat) (x : Mac)
@[simp] theorem State.setMac_pending : (s.setMac n x).pending = s.pending := rfl
@[simp] theorem State.setMac_resp : (s.setMac n x).resp = s.resp := rfl
@[simp] theorem State.setMac_out : (s.setMac n x).out = s.out := rfl
@[simp] theorem State.setMac_freeCtr : (s.setMac n x).freeCtr = s.freeCtr := rfl
@[simp] theorem State.setMac_idCtr : (s.setMac n x).idCtr = s.idCtr := rfl
@[simp] theorem State.setMac_now : (s.setMac n x).now = s.now := rfl
@[simp] theorem State.setMac_cyc : (s.setMac n x).cyc = s.cyc := rfl
@[simp] theorem State.setMac_dlNow : (s.setMac n x).dlNow = s.dlNow := rfl
@[simp] theorem State.setMac_regs : (s.setMac n x).regs = s.regs := rfl
@[simp] theorem State.setMac_imageRegs : (s.setMac n x).imageRegs = s.imageRegs := rfl
@[simp] theorem State.setMac_latches : (s.setMac n x).latches = s.latches := rfl
@[simp] theorem State.setMac_held : (s.setMac n x).held = s.held := rfl
@[simp] theorem State.setMac_pd : (s.setMac n x).pd = s.pd := rfl
@[simp] theorem State.setMac_mem : (s.setMac n x).mem = s.mem := rfl
@[simp] theorem State.setMac_upsets : (s.setMac n x).upsets = s.upsets := rfl
@[simp] theorem State.setMac_chan : (s.setMac n x).chan = s.chan := rfl
@[simp] theorem State.setMac_late : (s.setMac n x).late = s.late := rfl
@[simp] theorem State.setMac_tags : (s.setMac n x).tags = s.tags := rfl
@[simp] theorem State.setMac_checked : (s.setMac n x).checked = s.checked := rfl
@[simp] theorem State.setMac_clusters : (s.setMac n x).clusters = s.clusters := rfl
@[simp] theorem State.setMac_engines : (s.setMac n x).engines = s.engines := rfl
@[simp] theorem State.setMac_dunes : (s.setMac n x).dunes = s.dunes := rfl
@[simp] theorem State.setMac_slvs : (s.setMac n x).slvs = s.slvs := rfl
@[simp] theorem State.setMac_loam : (s.setMac n x).loam = s.loam := rfl
@[simp] theorem State.setMac_tilth : (s.setMac n x).tilth = s.tilth := rfl
@[simp] theorem State.setMac_phaseReports : (s.setMac n x).phaseReports = s.phaseReports := rfl
@[simp] theorem State.setMac_queues : (s.setMac n x).queues = s.queues := rfl
@[simp] theorem State.setMac_objs : (s.setMac n x).objs = s.objs := rfl
@[simp] theorem State.setMac_adm : (s.setMac n x).adm = s.adm := rfl
@[simp] theorem State.setMac_overdueCtr : (s.setMac n x).overdueCtr = s.overdueCtr := rfl
@[simp] theorem State.setMac_dispatchStopped : (s.setMac n x).dispatchStopped = s.dispatchStopped := rfl
@[simp] theorem State.setMac_slots : (s.setMac n x).slots = s.slots := rfl
@[simp] theorem State.setMac_batches : (s.setMac n x).batches = s.batches := rfl
@[simp] theorem State.setMac_quiCmds : (s.setMac n x).quiCmds = s.quiCmds := rfl
@[simp] theorem State.setMac_cows : (s.setMac n x).cows = s.cows := rfl
@[simp] theorem State.setMac_movers : (s.setMac n x).movers = s.movers := rfl
@[simp] theorem State.setMac_reports : (s.setMac n x).reports = s.reports := rfl
@[simp] theorem State.setMac_brokeSeq : (s.setMac n x).brokeSeq = s.brokeSeq := rfl
@[simp] theorem State.setMac_ftQueue : (s.setMac n x).ftQueue = s.ftQueue := rfl
@[simp] theorem State.setMac_lastPass : (s.setMac n x).lastPass = s.lastPass := rfl
@[simp] theorem State.setMac_trackers : (s.setMac n x).trackers = s.trackers := rfl
@[simp] theorem State.setMac_provNext : (s.setMac n x).provNext = s.provNext := rfl
@[simp] theorem State.setMac_brokeCopied : (s.setMac n x).brokeCopied = s.brokeCopied := rfl
@[simp] theorem State.setMac_poisonBy : (s.setMac n x).poisonBy = s.poisonBy := rfl
@[simp] theorem State.setMac_budgeted : (s.setMac n x).budgeted = s.budgeted := rfl
@[simp] theorem State.setMac_ftPoints : (s.setMac n x).ftPoints = s.ftPoints := rfl
@[simp] theorem State.setMac_log : (s.setMac n x).log = s.log := rfl
@[simp] theorem State.setMac_timAcc : (s.setMac n x).timAcc = s.timAcc := rfl
@[simp] theorem State.setMac_timRho : (s.setMac n x).timRho = s.timRho := rfl
@[simp] theorem State.setMac_timEpoch : (s.setMac n x).timEpoch = s.timEpoch := rfl
@[simp] theorem State.setMac_hbxs : (s.setMac n x).hbxs = s.hbxs := rfl
@[simp] theorem State.setMac_hbxq : (s.setMac n x).hbxq = s.hbxq := rfl
@[simp] theorem State.setMac_hbxCopy : (s.setMac n x).hbxCopy = s.hbxCopy := rfl
@[simp] theorem State.setMac_patrols : (s.setMac n x).patrols = s.patrols := rfl
@[simp] theorem State.setMac_zports : (s.setMac n x).zports = s.zports := rfl
@[simp] theorem State.setMac_pports : (s.setMac n x).pports = s.pports := rfl
@[simp] theorem State.setMac_csis : (s.setMac n x).csis = s.csis := rfl
@[simp] theorem State.setMac_flashCmd : (s.setMac n x).flashCmd = s.flashCmd := rfl
@[simp] theorem State.setMac_flashHeld : (s.setMac n x).flashHeld = s.flashHeld := rfl
@[simp] theorem State.setMac_flash : (s.setMac n x).flash = s.flash := rfl
@[simp] theorem State.setMac_flashRegs : (s.setMac n x).flashRegs = s.flashRegs := rfl
@[simp] theorem State.setMac_cans : (s.setMac n x).cans = s.cans := rfl
@[simp] theorem State.setMac_pins : (s.setMac n x).pins = s.pins := rfl
@[simp] theorem State.setMac_msis : (s.setMac n x).msis = s.msis := rfl
@[simp] theorem State.setMac_eip : (s.setMac n x).eip = s.eip := rfl
@[simp] theorem State.setMac_harts : (s.setMac n x).harts = s.harts := rfl
@[simp] theorem State.setMac_wires : (s.setMac n x).wires = s.wires := rfl
@[simp] theorem State.setMac_iotlb : (s.setMac n x).iotlb = s.iotlb := rfl
@[simp] theorem State.setMac_pmu : (s.setMac n x).pmu = s.pmu := rfl
@[simp] theorem State.setMac_thermal : (s.setMac n x).thermal = s.thermal := rfl
@[simp] theorem State.setMac_mti : (s.setMac n x).mti = s.mti := rfl
@[simp] theorem State.setMac_mtiStore : (s.setMac n x).mtiStore = s.mtiStore := rfl
@[simp] theorem State.setMac_rtcNext : (s.setMac n x).rtcNext = s.rtcNext := rfl
@[simp] theorem State.setMac_lostToLog : (s.setMac n x).lostToLog = s.lostToLog := rfl
@[simp] theorem State.setMac_fuses : (s.setMac n x).fuses = s.fuses := rfl
@[simp] theorem State.setMac_running : (s.setMac n x).running = s.running := rfl
@[simp] theorem State.setMac_mgt : (s.setMac n x).mgt = s.mgt := rfl
@[simp] theorem State.setMac_tap : (s.setMac n x).tap = s.tap := rfl
@[simp] theorem State.setMac_supply : (s.setMac n x).supply = s.supply := rfl
end setMacLaws

section setChanLaws
variable (s : State) (b c : Nat)
@[simp] theorem State.setChan_pending : (s.setChan b c).pending = s.pending := rfl
@[simp] theorem State.setChan_resp : (s.setChan b c).resp = s.resp := rfl
@[simp] theorem State.setChan_out : (s.setChan b c).out = s.out := rfl
@[simp] theorem State.setChan_freeCtr : (s.setChan b c).freeCtr = s.freeCtr := rfl
@[simp] theorem State.setChan_idCtr : (s.setChan b c).idCtr = s.idCtr := rfl
@[simp] theorem State.setChan_now : (s.setChan b c).now = s.now := rfl
@[simp] theorem State.setChan_cyc : (s.setChan b c).cyc = s.cyc := rfl
@[simp] theorem State.setChan_dlNow : (s.setChan b c).dlNow = s.dlNow := rfl
@[simp] theorem State.setChan_regs : (s.setChan b c).regs = s.regs := rfl
@[simp] theorem State.setChan_imageRegs : (s.setChan b c).imageRegs = s.imageRegs := rfl
@[simp] theorem State.setChan_latches : (s.setChan b c).latches = s.latches := rfl
@[simp] theorem State.setChan_held : (s.setChan b c).held = s.held := rfl
@[simp] theorem State.setChan_pd : (s.setChan b c).pd = s.pd := rfl
@[simp] theorem State.setChan_mem : (s.setChan b c).mem = s.mem := rfl
@[simp] theorem State.setChan_upsets : (s.setChan b c).upsets = s.upsets := rfl
@[simp] theorem State.setChan_late : (s.setChan b c).late = s.late := rfl
@[simp] theorem State.setChan_tags : (s.setChan b c).tags = s.tags := rfl
@[simp] theorem State.setChan_checked : (s.setChan b c).checked = s.checked := rfl
@[simp] theorem State.setChan_clusters : (s.setChan b c).clusters = s.clusters := rfl
@[simp] theorem State.setChan_engines : (s.setChan b c).engines = s.engines := rfl
@[simp] theorem State.setChan_dunes : (s.setChan b c).dunes = s.dunes := rfl
@[simp] theorem State.setChan_slvs : (s.setChan b c).slvs = s.slvs := rfl
@[simp] theorem State.setChan_loam : (s.setChan b c).loam = s.loam := rfl
@[simp] theorem State.setChan_tilth : (s.setChan b c).tilth = s.tilth := rfl
@[simp] theorem State.setChan_phaseReports : (s.setChan b c).phaseReports = s.phaseReports := rfl
@[simp] theorem State.setChan_queues : (s.setChan b c).queues = s.queues := rfl
@[simp] theorem State.setChan_objs : (s.setChan b c).objs = s.objs := rfl
@[simp] theorem State.setChan_adm : (s.setChan b c).adm = s.adm := rfl
@[simp] theorem State.setChan_overdueCtr : (s.setChan b c).overdueCtr = s.overdueCtr := rfl
@[simp] theorem State.setChan_dispatchStopped : (s.setChan b c).dispatchStopped = s.dispatchStopped := rfl
@[simp] theorem State.setChan_slots : (s.setChan b c).slots = s.slots := rfl
@[simp] theorem State.setChan_batches : (s.setChan b c).batches = s.batches := rfl
@[simp] theorem State.setChan_quiCmds : (s.setChan b c).quiCmds = s.quiCmds := rfl
@[simp] theorem State.setChan_cows : (s.setChan b c).cows = s.cows := rfl
@[simp] theorem State.setChan_movers : (s.setChan b c).movers = s.movers := rfl
@[simp] theorem State.setChan_reports : (s.setChan b c).reports = s.reports := rfl
@[simp] theorem State.setChan_brokeSeq : (s.setChan b c).brokeSeq = s.brokeSeq := rfl
@[simp] theorem State.setChan_ftQueue : (s.setChan b c).ftQueue = s.ftQueue := rfl
@[simp] theorem State.setChan_lastPass : (s.setChan b c).lastPass = s.lastPass := rfl
@[simp] theorem State.setChan_trackers : (s.setChan b c).trackers = s.trackers := rfl
@[simp] theorem State.setChan_provNext : (s.setChan b c).provNext = s.provNext := rfl
@[simp] theorem State.setChan_brokeCopied : (s.setChan b c).brokeCopied = s.brokeCopied := rfl
@[simp] theorem State.setChan_poisonBy : (s.setChan b c).poisonBy = s.poisonBy := rfl
@[simp] theorem State.setChan_budgeted : (s.setChan b c).budgeted = s.budgeted := rfl
@[simp] theorem State.setChan_ftPoints : (s.setChan b c).ftPoints = s.ftPoints := rfl
@[simp] theorem State.setChan_macs : (s.setChan b c).macs = s.macs := rfl
@[simp] theorem State.setChan_log : (s.setChan b c).log = s.log := rfl
@[simp] theorem State.setChan_timAcc : (s.setChan b c).timAcc = s.timAcc := rfl
@[simp] theorem State.setChan_timRho : (s.setChan b c).timRho = s.timRho := rfl
@[simp] theorem State.setChan_timEpoch : (s.setChan b c).timEpoch = s.timEpoch := rfl
@[simp] theorem State.setChan_hbxs : (s.setChan b c).hbxs = s.hbxs := rfl
@[simp] theorem State.setChan_hbxq : (s.setChan b c).hbxq = s.hbxq := rfl
@[simp] theorem State.setChan_hbxCopy : (s.setChan b c).hbxCopy = s.hbxCopy := rfl
@[simp] theorem State.setChan_patrols : (s.setChan b c).patrols = s.patrols := rfl
@[simp] theorem State.setChan_zports : (s.setChan b c).zports = s.zports := rfl
@[simp] theorem State.setChan_pports : (s.setChan b c).pports = s.pports := rfl
@[simp] theorem State.setChan_csis : (s.setChan b c).csis = s.csis := rfl
@[simp] theorem State.setChan_flashCmd : (s.setChan b c).flashCmd = s.flashCmd := rfl
@[simp] theorem State.setChan_flashHeld : (s.setChan b c).flashHeld = s.flashHeld := rfl
@[simp] theorem State.setChan_flash : (s.setChan b c).flash = s.flash := rfl
@[simp] theorem State.setChan_flashRegs : (s.setChan b c).flashRegs = s.flashRegs := rfl
@[simp] theorem State.setChan_cans : (s.setChan b c).cans = s.cans := rfl
@[simp] theorem State.setChan_pins : (s.setChan b c).pins = s.pins := rfl
@[simp] theorem State.setChan_msis : (s.setChan b c).msis = s.msis := rfl
@[simp] theorem State.setChan_eip : (s.setChan b c).eip = s.eip := rfl
@[simp] theorem State.setChan_harts : (s.setChan b c).harts = s.harts := rfl
@[simp] theorem State.setChan_wires : (s.setChan b c).wires = s.wires := rfl
@[simp] theorem State.setChan_iotlb : (s.setChan b c).iotlb = s.iotlb := rfl
@[simp] theorem State.setChan_pmu : (s.setChan b c).pmu = s.pmu := rfl
@[simp] theorem State.setChan_thermal : (s.setChan b c).thermal = s.thermal := rfl
@[simp] theorem State.setChan_mti : (s.setChan b c).mti = s.mti := rfl
@[simp] theorem State.setChan_mtiStore : (s.setChan b c).mtiStore = s.mtiStore := rfl
@[simp] theorem State.setChan_rtcNext : (s.setChan b c).rtcNext = s.rtcNext := rfl
@[simp] theorem State.setChan_lostToLog : (s.setChan b c).lostToLog = s.lostToLog := rfl
@[simp] theorem State.setChan_fuses : (s.setChan b c).fuses = s.fuses := rfl
@[simp] theorem State.setChan_running : (s.setChan b c).running = s.running := rfl
@[simp] theorem State.setChan_mgt : (s.setChan b c).mgt = s.mgt := rfl
@[simp] theorem State.setChan_tap : (s.setChan b c).tap = s.tap := rfl
@[simp] theorem State.setChan_supply : (s.setChan b c).supply = s.supply := rfl
end setChanLaws

section setHbxLaws
variable (s : State) (i c : Nat) (x : HbxClass)
@[simp] theorem State.setHbx_pending : (s.setHbx i c x).pending = s.pending := rfl
@[simp] theorem State.setHbx_resp : (s.setHbx i c x).resp = s.resp := rfl
@[simp] theorem State.setHbx_out : (s.setHbx i c x).out = s.out := rfl
@[simp] theorem State.setHbx_freeCtr : (s.setHbx i c x).freeCtr = s.freeCtr := rfl
@[simp] theorem State.setHbx_idCtr : (s.setHbx i c x).idCtr = s.idCtr := rfl
@[simp] theorem State.setHbx_now : (s.setHbx i c x).now = s.now := rfl
@[simp] theorem State.setHbx_cyc : (s.setHbx i c x).cyc = s.cyc := rfl
@[simp] theorem State.setHbx_dlNow : (s.setHbx i c x).dlNow = s.dlNow := rfl
@[simp] theorem State.setHbx_regs : (s.setHbx i c x).regs = s.regs := rfl
@[simp] theorem State.setHbx_imageRegs : (s.setHbx i c x).imageRegs = s.imageRegs := rfl
@[simp] theorem State.setHbx_latches : (s.setHbx i c x).latches = s.latches := rfl
@[simp] theorem State.setHbx_held : (s.setHbx i c x).held = s.held := rfl
@[simp] theorem State.setHbx_pd : (s.setHbx i c x).pd = s.pd := rfl
@[simp] theorem State.setHbx_mem : (s.setHbx i c x).mem = s.mem := rfl
@[simp] theorem State.setHbx_upsets : (s.setHbx i c x).upsets = s.upsets := rfl
@[simp] theorem State.setHbx_chan : (s.setHbx i c x).chan = s.chan := rfl
@[simp] theorem State.setHbx_late : (s.setHbx i c x).late = s.late := rfl
@[simp] theorem State.setHbx_tags : (s.setHbx i c x).tags = s.tags := rfl
@[simp] theorem State.setHbx_checked : (s.setHbx i c x).checked = s.checked := rfl
@[simp] theorem State.setHbx_clusters : (s.setHbx i c x).clusters = s.clusters := rfl
@[simp] theorem State.setHbx_engines : (s.setHbx i c x).engines = s.engines := rfl
@[simp] theorem State.setHbx_dunes : (s.setHbx i c x).dunes = s.dunes := rfl
@[simp] theorem State.setHbx_slvs : (s.setHbx i c x).slvs = s.slvs := rfl
@[simp] theorem State.setHbx_loam : (s.setHbx i c x).loam = s.loam := rfl
@[simp] theorem State.setHbx_tilth : (s.setHbx i c x).tilth = s.tilth := rfl
@[simp] theorem State.setHbx_phaseReports : (s.setHbx i c x).phaseReports = s.phaseReports := rfl
@[simp] theorem State.setHbx_queues : (s.setHbx i c x).queues = s.queues := rfl
@[simp] theorem State.setHbx_objs : (s.setHbx i c x).objs = s.objs := rfl
@[simp] theorem State.setHbx_adm : (s.setHbx i c x).adm = s.adm := rfl
@[simp] theorem State.setHbx_overdueCtr : (s.setHbx i c x).overdueCtr = s.overdueCtr := rfl
@[simp] theorem State.setHbx_dispatchStopped : (s.setHbx i c x).dispatchStopped = s.dispatchStopped := rfl
@[simp] theorem State.setHbx_slots : (s.setHbx i c x).slots = s.slots := rfl
@[simp] theorem State.setHbx_batches : (s.setHbx i c x).batches = s.batches := rfl
@[simp] theorem State.setHbx_quiCmds : (s.setHbx i c x).quiCmds = s.quiCmds := rfl
@[simp] theorem State.setHbx_cows : (s.setHbx i c x).cows = s.cows := rfl
@[simp] theorem State.setHbx_movers : (s.setHbx i c x).movers = s.movers := rfl
@[simp] theorem State.setHbx_reports : (s.setHbx i c x).reports = s.reports := rfl
@[simp] theorem State.setHbx_brokeSeq : (s.setHbx i c x).brokeSeq = s.brokeSeq := rfl
@[simp] theorem State.setHbx_ftQueue : (s.setHbx i c x).ftQueue = s.ftQueue := rfl
@[simp] theorem State.setHbx_lastPass : (s.setHbx i c x).lastPass = s.lastPass := rfl
@[simp] theorem State.setHbx_trackers : (s.setHbx i c x).trackers = s.trackers := rfl
@[simp] theorem State.setHbx_provNext : (s.setHbx i c x).provNext = s.provNext := rfl
@[simp] theorem State.setHbx_brokeCopied : (s.setHbx i c x).brokeCopied = s.brokeCopied := rfl
@[simp] theorem State.setHbx_poisonBy : (s.setHbx i c x).poisonBy = s.poisonBy := rfl
@[simp] theorem State.setHbx_budgeted : (s.setHbx i c x).budgeted = s.budgeted := rfl
@[simp] theorem State.setHbx_ftPoints : (s.setHbx i c x).ftPoints = s.ftPoints := rfl
@[simp] theorem State.setHbx_macs : (s.setHbx i c x).macs = s.macs := rfl
@[simp] theorem State.setHbx_log : (s.setHbx i c x).log = s.log := rfl
@[simp] theorem State.setHbx_timAcc : (s.setHbx i c x).timAcc = s.timAcc := rfl
@[simp] theorem State.setHbx_timRho : (s.setHbx i c x).timRho = s.timRho := rfl
@[simp] theorem State.setHbx_timEpoch : (s.setHbx i c x).timEpoch = s.timEpoch := rfl
@[simp] theorem State.setHbx_hbxq : (s.setHbx i c x).hbxq = s.hbxq := rfl
@[simp] theorem State.setHbx_hbxCopy : (s.setHbx i c x).hbxCopy = s.hbxCopy := rfl
@[simp] theorem State.setHbx_patrols : (s.setHbx i c x).patrols = s.patrols := rfl
@[simp] theorem State.setHbx_zports : (s.setHbx i c x).zports = s.zports := rfl
@[simp] theorem State.setHbx_pports : (s.setHbx i c x).pports = s.pports := rfl
@[simp] theorem State.setHbx_csis : (s.setHbx i c x).csis = s.csis := rfl
@[simp] theorem State.setHbx_flashCmd : (s.setHbx i c x).flashCmd = s.flashCmd := rfl
@[simp] theorem State.setHbx_flashHeld : (s.setHbx i c x).flashHeld = s.flashHeld := rfl
@[simp] theorem State.setHbx_flash : (s.setHbx i c x).flash = s.flash := rfl
@[simp] theorem State.setHbx_flashRegs : (s.setHbx i c x).flashRegs = s.flashRegs := rfl
@[simp] theorem State.setHbx_cans : (s.setHbx i c x).cans = s.cans := rfl
@[simp] theorem State.setHbx_pins : (s.setHbx i c x).pins = s.pins := rfl
@[simp] theorem State.setHbx_msis : (s.setHbx i c x).msis = s.msis := rfl
@[simp] theorem State.setHbx_eip : (s.setHbx i c x).eip = s.eip := rfl
@[simp] theorem State.setHbx_harts : (s.setHbx i c x).harts = s.harts := rfl
@[simp] theorem State.setHbx_wires : (s.setHbx i c x).wires = s.wires := rfl
@[simp] theorem State.setHbx_iotlb : (s.setHbx i c x).iotlb = s.iotlb := rfl
@[simp] theorem State.setHbx_pmu : (s.setHbx i c x).pmu = s.pmu := rfl
@[simp] theorem State.setHbx_thermal : (s.setHbx i c x).thermal = s.thermal := rfl
@[simp] theorem State.setHbx_mti : (s.setHbx i c x).mti = s.mti := rfl
@[simp] theorem State.setHbx_mtiStore : (s.setHbx i c x).mtiStore = s.mtiStore := rfl
@[simp] theorem State.setHbx_rtcNext : (s.setHbx i c x).rtcNext = s.rtcNext := rfl
@[simp] theorem State.setHbx_lostToLog : (s.setHbx i c x).lostToLog = s.lostToLog := rfl
@[simp] theorem State.setHbx_fuses : (s.setHbx i c x).fuses = s.fuses := rfl
@[simp] theorem State.setHbx_running : (s.setHbx i c x).running = s.running := rfl
@[simp] theorem State.setHbx_mgt : (s.setHbx i c x).mgt = s.mgt := rfl
@[simp] theorem State.setHbx_tap : (s.setHbx i c x).tap = s.tap := rfl
@[simp] theorem State.setHbx_supply : (s.setHbx i c x).supply = s.supply := rfl
end setHbxLaws

section setHbxQueueLaws
variable (s : State) (k : Nat) (l : List HbxReq)
@[simp] theorem State.setHbxQueue_pending : (s.setHbxQueue k l).pending = s.pending := rfl
@[simp] theorem State.setHbxQueue_resp : (s.setHbxQueue k l).resp = s.resp := rfl
@[simp] theorem State.setHbxQueue_out : (s.setHbxQueue k l).out = s.out := rfl
@[simp] theorem State.setHbxQueue_freeCtr : (s.setHbxQueue k l).freeCtr = s.freeCtr := rfl
@[simp] theorem State.setHbxQueue_idCtr : (s.setHbxQueue k l).idCtr = s.idCtr := rfl
@[simp] theorem State.setHbxQueue_now : (s.setHbxQueue k l).now = s.now := rfl
@[simp] theorem State.setHbxQueue_cyc : (s.setHbxQueue k l).cyc = s.cyc := rfl
@[simp] theorem State.setHbxQueue_dlNow : (s.setHbxQueue k l).dlNow = s.dlNow := rfl
@[simp] theorem State.setHbxQueue_regs : (s.setHbxQueue k l).regs = s.regs := rfl
@[simp] theorem State.setHbxQueue_imageRegs : (s.setHbxQueue k l).imageRegs = s.imageRegs := rfl
@[simp] theorem State.setHbxQueue_latches : (s.setHbxQueue k l).latches = s.latches := rfl
@[simp] theorem State.setHbxQueue_held : (s.setHbxQueue k l).held = s.held := rfl
@[simp] theorem State.setHbxQueue_pd : (s.setHbxQueue k l).pd = s.pd := rfl
@[simp] theorem State.setHbxQueue_mem : (s.setHbxQueue k l).mem = s.mem := rfl
@[simp] theorem State.setHbxQueue_upsets : (s.setHbxQueue k l).upsets = s.upsets := rfl
@[simp] theorem State.setHbxQueue_chan : (s.setHbxQueue k l).chan = s.chan := rfl
@[simp] theorem State.setHbxQueue_late : (s.setHbxQueue k l).late = s.late := rfl
@[simp] theorem State.setHbxQueue_tags : (s.setHbxQueue k l).tags = s.tags := rfl
@[simp] theorem State.setHbxQueue_checked : (s.setHbxQueue k l).checked = s.checked := rfl
@[simp] theorem State.setHbxQueue_clusters : (s.setHbxQueue k l).clusters = s.clusters := rfl
@[simp] theorem State.setHbxQueue_engines : (s.setHbxQueue k l).engines = s.engines := rfl
@[simp] theorem State.setHbxQueue_dunes : (s.setHbxQueue k l).dunes = s.dunes := rfl
@[simp] theorem State.setHbxQueue_slvs : (s.setHbxQueue k l).slvs = s.slvs := rfl
@[simp] theorem State.setHbxQueue_loam : (s.setHbxQueue k l).loam = s.loam := rfl
@[simp] theorem State.setHbxQueue_tilth : (s.setHbxQueue k l).tilth = s.tilth := rfl
@[simp] theorem State.setHbxQueue_phaseReports : (s.setHbxQueue k l).phaseReports = s.phaseReports := rfl
@[simp] theorem State.setHbxQueue_queues : (s.setHbxQueue k l).queues = s.queues := rfl
@[simp] theorem State.setHbxQueue_objs : (s.setHbxQueue k l).objs = s.objs := rfl
@[simp] theorem State.setHbxQueue_adm : (s.setHbxQueue k l).adm = s.adm := rfl
@[simp] theorem State.setHbxQueue_overdueCtr : (s.setHbxQueue k l).overdueCtr = s.overdueCtr := rfl
@[simp] theorem State.setHbxQueue_dispatchStopped : (s.setHbxQueue k l).dispatchStopped = s.dispatchStopped := rfl
@[simp] theorem State.setHbxQueue_slots : (s.setHbxQueue k l).slots = s.slots := rfl
@[simp] theorem State.setHbxQueue_batches : (s.setHbxQueue k l).batches = s.batches := rfl
@[simp] theorem State.setHbxQueue_quiCmds : (s.setHbxQueue k l).quiCmds = s.quiCmds := rfl
@[simp] theorem State.setHbxQueue_cows : (s.setHbxQueue k l).cows = s.cows := rfl
@[simp] theorem State.setHbxQueue_movers : (s.setHbxQueue k l).movers = s.movers := rfl
@[simp] theorem State.setHbxQueue_reports : (s.setHbxQueue k l).reports = s.reports := rfl
@[simp] theorem State.setHbxQueue_brokeSeq : (s.setHbxQueue k l).brokeSeq = s.brokeSeq := rfl
@[simp] theorem State.setHbxQueue_ftQueue : (s.setHbxQueue k l).ftQueue = s.ftQueue := rfl
@[simp] theorem State.setHbxQueue_lastPass : (s.setHbxQueue k l).lastPass = s.lastPass := rfl
@[simp] theorem State.setHbxQueue_trackers : (s.setHbxQueue k l).trackers = s.trackers := rfl
@[simp] theorem State.setHbxQueue_provNext : (s.setHbxQueue k l).provNext = s.provNext := rfl
@[simp] theorem State.setHbxQueue_brokeCopied : (s.setHbxQueue k l).brokeCopied = s.brokeCopied := rfl
@[simp] theorem State.setHbxQueue_poisonBy : (s.setHbxQueue k l).poisonBy = s.poisonBy := rfl
@[simp] theorem State.setHbxQueue_budgeted : (s.setHbxQueue k l).budgeted = s.budgeted := rfl
@[simp] theorem State.setHbxQueue_ftPoints : (s.setHbxQueue k l).ftPoints = s.ftPoints := rfl
@[simp] theorem State.setHbxQueue_macs : (s.setHbxQueue k l).macs = s.macs := rfl
@[simp] theorem State.setHbxQueue_log : (s.setHbxQueue k l).log = s.log := rfl
@[simp] theorem State.setHbxQueue_timAcc : (s.setHbxQueue k l).timAcc = s.timAcc := rfl
@[simp] theorem State.setHbxQueue_timRho : (s.setHbxQueue k l).timRho = s.timRho := rfl
@[simp] theorem State.setHbxQueue_timEpoch : (s.setHbxQueue k l).timEpoch = s.timEpoch := rfl
@[simp] theorem State.setHbxQueue_hbxs : (s.setHbxQueue k l).hbxs = s.hbxs := rfl
@[simp] theorem State.setHbxQueue_hbxCopy : (s.setHbxQueue k l).hbxCopy = s.hbxCopy := rfl
@[simp] theorem State.setHbxQueue_patrols : (s.setHbxQueue k l).patrols = s.patrols := rfl
@[simp] theorem State.setHbxQueue_zports : (s.setHbxQueue k l).zports = s.zports := rfl
@[simp] theorem State.setHbxQueue_pports : (s.setHbxQueue k l).pports = s.pports := rfl
@[simp] theorem State.setHbxQueue_csis : (s.setHbxQueue k l).csis = s.csis := rfl
@[simp] theorem State.setHbxQueue_flashCmd : (s.setHbxQueue k l).flashCmd = s.flashCmd := rfl
@[simp] theorem State.setHbxQueue_flashHeld : (s.setHbxQueue k l).flashHeld = s.flashHeld := rfl
@[simp] theorem State.setHbxQueue_flash : (s.setHbxQueue k l).flash = s.flash := rfl
@[simp] theorem State.setHbxQueue_flashRegs : (s.setHbxQueue k l).flashRegs = s.flashRegs := rfl
@[simp] theorem State.setHbxQueue_cans : (s.setHbxQueue k l).cans = s.cans := rfl
@[simp] theorem State.setHbxQueue_pins : (s.setHbxQueue k l).pins = s.pins := rfl
@[simp] theorem State.setHbxQueue_msis : (s.setHbxQueue k l).msis = s.msis := rfl
@[simp] theorem State.setHbxQueue_eip : (s.setHbxQueue k l).eip = s.eip := rfl
@[simp] theorem State.setHbxQueue_harts : (s.setHbxQueue k l).harts = s.harts := rfl
@[simp] theorem State.setHbxQueue_wires : (s.setHbxQueue k l).wires = s.wires := rfl
@[simp] theorem State.setHbxQueue_iotlb : (s.setHbxQueue k l).iotlb = s.iotlb := rfl
@[simp] theorem State.setHbxQueue_pmu : (s.setHbxQueue k l).pmu = s.pmu := rfl
@[simp] theorem State.setHbxQueue_thermal : (s.setHbxQueue k l).thermal = s.thermal := rfl
@[simp] theorem State.setHbxQueue_mti : (s.setHbxQueue k l).mti = s.mti := rfl
@[simp] theorem State.setHbxQueue_mtiStore : (s.setHbxQueue k l).mtiStore = s.mtiStore := rfl
@[simp] theorem State.setHbxQueue_rtcNext : (s.setHbxQueue k l).rtcNext = s.rtcNext := rfl
@[simp] theorem State.setHbxQueue_lostToLog : (s.setHbxQueue k l).lostToLog = s.lostToLog := rfl
@[simp] theorem State.setHbxQueue_fuses : (s.setHbxQueue k l).fuses = s.fuses := rfl
@[simp] theorem State.setHbxQueue_running : (s.setHbxQueue k l).running = s.running := rfl
@[simp] theorem State.setHbxQueue_mgt : (s.setHbxQueue k l).mgt = s.mgt := rfl
@[simp] theorem State.setHbxQueue_tap : (s.setHbxQueue k l).tap = s.tap := rfl
@[simp] theorem State.setHbxQueue_supply : (s.setHbxQueue k l).supply = s.supply := rfl
end setHbxQueueLaws

section setMtiLaws
variable (s : State) (x : Mti)
@[simp] theorem State.setMti_pending : (s.setMti x).pending = s.pending := rfl
@[simp] theorem State.setMti_resp : (s.setMti x).resp = s.resp := rfl
@[simp] theorem State.setMti_out : (s.setMti x).out = s.out := rfl
@[simp] theorem State.setMti_freeCtr : (s.setMti x).freeCtr = s.freeCtr := rfl
@[simp] theorem State.setMti_idCtr : (s.setMti x).idCtr = s.idCtr := rfl
@[simp] theorem State.setMti_now : (s.setMti x).now = s.now := rfl
@[simp] theorem State.setMti_cyc : (s.setMti x).cyc = s.cyc := rfl
@[simp] theorem State.setMti_dlNow : (s.setMti x).dlNow = s.dlNow := rfl
@[simp] theorem State.setMti_regs : (s.setMti x).regs = s.regs := rfl
@[simp] theorem State.setMti_imageRegs : (s.setMti x).imageRegs = s.imageRegs := rfl
@[simp] theorem State.setMti_latches : (s.setMti x).latches = s.latches := rfl
@[simp] theorem State.setMti_held : (s.setMti x).held = s.held := rfl
@[simp] theorem State.setMti_pd : (s.setMti x).pd = s.pd := rfl
@[simp] theorem State.setMti_mem : (s.setMti x).mem = s.mem := rfl
@[simp] theorem State.setMti_upsets : (s.setMti x).upsets = s.upsets := rfl
@[simp] theorem State.setMti_chan : (s.setMti x).chan = s.chan := rfl
@[simp] theorem State.setMti_late : (s.setMti x).late = s.late := rfl
@[simp] theorem State.setMti_tags : (s.setMti x).tags = s.tags := rfl
@[simp] theorem State.setMti_checked : (s.setMti x).checked = s.checked := rfl
@[simp] theorem State.setMti_clusters : (s.setMti x).clusters = s.clusters := rfl
@[simp] theorem State.setMti_engines : (s.setMti x).engines = s.engines := rfl
@[simp] theorem State.setMti_dunes : (s.setMti x).dunes = s.dunes := rfl
@[simp] theorem State.setMti_slvs : (s.setMti x).slvs = s.slvs := rfl
@[simp] theorem State.setMti_loam : (s.setMti x).loam = s.loam := rfl
@[simp] theorem State.setMti_tilth : (s.setMti x).tilth = s.tilth := rfl
@[simp] theorem State.setMti_phaseReports : (s.setMti x).phaseReports = s.phaseReports := rfl
@[simp] theorem State.setMti_queues : (s.setMti x).queues = s.queues := rfl
@[simp] theorem State.setMti_objs : (s.setMti x).objs = s.objs := rfl
@[simp] theorem State.setMti_adm : (s.setMti x).adm = s.adm := rfl
@[simp] theorem State.setMti_overdueCtr : (s.setMti x).overdueCtr = s.overdueCtr := rfl
@[simp] theorem State.setMti_dispatchStopped : (s.setMti x).dispatchStopped = s.dispatchStopped := rfl
@[simp] theorem State.setMti_slots : (s.setMti x).slots = s.slots := rfl
@[simp] theorem State.setMti_batches : (s.setMti x).batches = s.batches := rfl
@[simp] theorem State.setMti_quiCmds : (s.setMti x).quiCmds = s.quiCmds := rfl
@[simp] theorem State.setMti_cows : (s.setMti x).cows = s.cows := rfl
@[simp] theorem State.setMti_movers : (s.setMti x).movers = s.movers := rfl
@[simp] theorem State.setMti_reports : (s.setMti x).reports = s.reports := rfl
@[simp] theorem State.setMti_brokeSeq : (s.setMti x).brokeSeq = s.brokeSeq := rfl
@[simp] theorem State.setMti_ftQueue : (s.setMti x).ftQueue = s.ftQueue := rfl
@[simp] theorem State.setMti_lastPass : (s.setMti x).lastPass = s.lastPass := rfl
@[simp] theorem State.setMti_trackers : (s.setMti x).trackers = s.trackers := rfl
@[simp] theorem State.setMti_provNext : (s.setMti x).provNext = s.provNext := rfl
@[simp] theorem State.setMti_brokeCopied : (s.setMti x).brokeCopied = s.brokeCopied := rfl
@[simp] theorem State.setMti_poisonBy : (s.setMti x).poisonBy = s.poisonBy := rfl
@[simp] theorem State.setMti_budgeted : (s.setMti x).budgeted = s.budgeted := rfl
@[simp] theorem State.setMti_ftPoints : (s.setMti x).ftPoints = s.ftPoints := rfl
@[simp] theorem State.setMti_macs : (s.setMti x).macs = s.macs := rfl
@[simp] theorem State.setMti_log : (s.setMti x).log = s.log := rfl
@[simp] theorem State.setMti_timAcc : (s.setMti x).timAcc = s.timAcc := rfl
@[simp] theorem State.setMti_timRho : (s.setMti x).timRho = s.timRho := rfl
@[simp] theorem State.setMti_timEpoch : (s.setMti x).timEpoch = s.timEpoch := rfl
@[simp] theorem State.setMti_hbxs : (s.setMti x).hbxs = s.hbxs := rfl
@[simp] theorem State.setMti_hbxq : (s.setMti x).hbxq = s.hbxq := rfl
@[simp] theorem State.setMti_hbxCopy : (s.setMti x).hbxCopy = s.hbxCopy := rfl
@[simp] theorem State.setMti_patrols : (s.setMti x).patrols = s.patrols := rfl
@[simp] theorem State.setMti_zports : (s.setMti x).zports = s.zports := rfl
@[simp] theorem State.setMti_pports : (s.setMti x).pports = s.pports := rfl
@[simp] theorem State.setMti_csis : (s.setMti x).csis = s.csis := rfl
@[simp] theorem State.setMti_flashCmd : (s.setMti x).flashCmd = s.flashCmd := rfl
@[simp] theorem State.setMti_flashHeld : (s.setMti x).flashHeld = s.flashHeld := rfl
@[simp] theorem State.setMti_flash : (s.setMti x).flash = s.flash := rfl
@[simp] theorem State.setMti_flashRegs : (s.setMti x).flashRegs = s.flashRegs := rfl
@[simp] theorem State.setMti_cans : (s.setMti x).cans = s.cans := rfl
@[simp] theorem State.setMti_pins : (s.setMti x).pins = s.pins := rfl
@[simp] theorem State.setMti_msis : (s.setMti x).msis = s.msis := rfl
@[simp] theorem State.setMti_eip : (s.setMti x).eip = s.eip := rfl
@[simp] theorem State.setMti_harts : (s.setMti x).harts = s.harts := rfl
@[simp] theorem State.setMti_wires : (s.setMti x).wires = s.wires := rfl
@[simp] theorem State.setMti_iotlb : (s.setMti x).iotlb = s.iotlb := rfl
@[simp] theorem State.setMti_pmu : (s.setMti x).pmu = s.pmu := rfl
@[simp] theorem State.setMti_thermal : (s.setMti x).thermal = s.thermal := rfl
@[simp] theorem State.setMti_mti : (s.setMti x).mti = x := rfl
@[simp] theorem State.setMti_mtiStore : (s.setMti x).mtiStore = s.mtiStore := rfl
@[simp] theorem State.setMti_rtcNext : (s.setMti x).rtcNext = s.rtcNext := rfl
@[simp] theorem State.setMti_lostToLog : (s.setMti x).lostToLog = s.lostToLog := rfl
@[simp] theorem State.setMti_fuses : (s.setMti x).fuses = s.fuses := rfl
@[simp] theorem State.setMti_running : (s.setMti x).running = s.running := rfl
@[simp] theorem State.setMti_mgt : (s.setMti x).mgt = s.mgt := rfl
@[simp] theorem State.setMti_tap : (s.setMti x).tap = s.tap := rfl
@[simp] theorem State.setMti_supply : (s.setMti x).supply = s.supply := rfl
end setMtiLaws

section setPatrolLaws
variable (s : State) (i : Nat) (x : Patrol)
@[simp] theorem State.setPatrol_pending : (s.setPatrol i x).pending = s.pending := rfl
@[simp] theorem State.setPatrol_resp : (s.setPatrol i x).resp = s.resp := rfl
@[simp] theorem State.setPatrol_out : (s.setPatrol i x).out = s.out := rfl
@[simp] theorem State.setPatrol_freeCtr : (s.setPatrol i x).freeCtr = s.freeCtr := rfl
@[simp] theorem State.setPatrol_idCtr : (s.setPatrol i x).idCtr = s.idCtr := rfl
@[simp] theorem State.setPatrol_now : (s.setPatrol i x).now = s.now := rfl
@[simp] theorem State.setPatrol_cyc : (s.setPatrol i x).cyc = s.cyc := rfl
@[simp] theorem State.setPatrol_dlNow : (s.setPatrol i x).dlNow = s.dlNow := rfl
@[simp] theorem State.setPatrol_regs : (s.setPatrol i x).regs = s.regs := rfl
@[simp] theorem State.setPatrol_imageRegs : (s.setPatrol i x).imageRegs = s.imageRegs := rfl
@[simp] theorem State.setPatrol_latches : (s.setPatrol i x).latches = s.latches := rfl
@[simp] theorem State.setPatrol_held : (s.setPatrol i x).held = s.held := rfl
@[simp] theorem State.setPatrol_pd : (s.setPatrol i x).pd = s.pd := rfl
@[simp] theorem State.setPatrol_mem : (s.setPatrol i x).mem = s.mem := rfl
@[simp] theorem State.setPatrol_upsets : (s.setPatrol i x).upsets = s.upsets := rfl
@[simp] theorem State.setPatrol_chan : (s.setPatrol i x).chan = s.chan := rfl
@[simp] theorem State.setPatrol_late : (s.setPatrol i x).late = s.late := rfl
@[simp] theorem State.setPatrol_tags : (s.setPatrol i x).tags = s.tags := rfl
@[simp] theorem State.setPatrol_checked : (s.setPatrol i x).checked = s.checked := rfl
@[simp] theorem State.setPatrol_clusters : (s.setPatrol i x).clusters = s.clusters := rfl
@[simp] theorem State.setPatrol_engines : (s.setPatrol i x).engines = s.engines := rfl
@[simp] theorem State.setPatrol_dunes : (s.setPatrol i x).dunes = s.dunes := rfl
@[simp] theorem State.setPatrol_slvs : (s.setPatrol i x).slvs = s.slvs := rfl
@[simp] theorem State.setPatrol_loam : (s.setPatrol i x).loam = s.loam := rfl
@[simp] theorem State.setPatrol_tilth : (s.setPatrol i x).tilth = s.tilth := rfl
@[simp] theorem State.setPatrol_phaseReports : (s.setPatrol i x).phaseReports = s.phaseReports := rfl
@[simp] theorem State.setPatrol_queues : (s.setPatrol i x).queues = s.queues := rfl
@[simp] theorem State.setPatrol_objs : (s.setPatrol i x).objs = s.objs := rfl
@[simp] theorem State.setPatrol_adm : (s.setPatrol i x).adm = s.adm := rfl
@[simp] theorem State.setPatrol_overdueCtr : (s.setPatrol i x).overdueCtr = s.overdueCtr := rfl
@[simp] theorem State.setPatrol_dispatchStopped : (s.setPatrol i x).dispatchStopped = s.dispatchStopped := rfl
@[simp] theorem State.setPatrol_slots : (s.setPatrol i x).slots = s.slots := rfl
@[simp] theorem State.setPatrol_batches : (s.setPatrol i x).batches = s.batches := rfl
@[simp] theorem State.setPatrol_quiCmds : (s.setPatrol i x).quiCmds = s.quiCmds := rfl
@[simp] theorem State.setPatrol_cows : (s.setPatrol i x).cows = s.cows := rfl
@[simp] theorem State.setPatrol_movers : (s.setPatrol i x).movers = s.movers := rfl
@[simp] theorem State.setPatrol_reports : (s.setPatrol i x).reports = s.reports := rfl
@[simp] theorem State.setPatrol_brokeSeq : (s.setPatrol i x).brokeSeq = s.brokeSeq := rfl
@[simp] theorem State.setPatrol_ftQueue : (s.setPatrol i x).ftQueue = s.ftQueue := rfl
@[simp] theorem State.setPatrol_lastPass : (s.setPatrol i x).lastPass = s.lastPass := rfl
@[simp] theorem State.setPatrol_trackers : (s.setPatrol i x).trackers = s.trackers := rfl
@[simp] theorem State.setPatrol_provNext : (s.setPatrol i x).provNext = s.provNext := rfl
@[simp] theorem State.setPatrol_brokeCopied : (s.setPatrol i x).brokeCopied = s.brokeCopied := rfl
@[simp] theorem State.setPatrol_poisonBy : (s.setPatrol i x).poisonBy = s.poisonBy := rfl
@[simp] theorem State.setPatrol_budgeted : (s.setPatrol i x).budgeted = s.budgeted := rfl
@[simp] theorem State.setPatrol_ftPoints : (s.setPatrol i x).ftPoints = s.ftPoints := rfl
@[simp] theorem State.setPatrol_macs : (s.setPatrol i x).macs = s.macs := rfl
@[simp] theorem State.setPatrol_log : (s.setPatrol i x).log = s.log := rfl
@[simp] theorem State.setPatrol_timAcc : (s.setPatrol i x).timAcc = s.timAcc := rfl
@[simp] theorem State.setPatrol_timRho : (s.setPatrol i x).timRho = s.timRho := rfl
@[simp] theorem State.setPatrol_timEpoch : (s.setPatrol i x).timEpoch = s.timEpoch := rfl
@[simp] theorem State.setPatrol_hbxs : (s.setPatrol i x).hbxs = s.hbxs := rfl
@[simp] theorem State.setPatrol_hbxq : (s.setPatrol i x).hbxq = s.hbxq := rfl
@[simp] theorem State.setPatrol_hbxCopy : (s.setPatrol i x).hbxCopy = s.hbxCopy := rfl
@[simp] theorem State.setPatrol_zports : (s.setPatrol i x).zports = s.zports := rfl
@[simp] theorem State.setPatrol_pports : (s.setPatrol i x).pports = s.pports := rfl
@[simp] theorem State.setPatrol_csis : (s.setPatrol i x).csis = s.csis := rfl
@[simp] theorem State.setPatrol_flashCmd : (s.setPatrol i x).flashCmd = s.flashCmd := rfl
@[simp] theorem State.setPatrol_flashHeld : (s.setPatrol i x).flashHeld = s.flashHeld := rfl
@[simp] theorem State.setPatrol_flash : (s.setPatrol i x).flash = s.flash := rfl
@[simp] theorem State.setPatrol_flashRegs : (s.setPatrol i x).flashRegs = s.flashRegs := rfl
@[simp] theorem State.setPatrol_cans : (s.setPatrol i x).cans = s.cans := rfl
@[simp] theorem State.setPatrol_pins : (s.setPatrol i x).pins = s.pins := rfl
@[simp] theorem State.setPatrol_msis : (s.setPatrol i x).msis = s.msis := rfl
@[simp] theorem State.setPatrol_eip : (s.setPatrol i x).eip = s.eip := rfl
@[simp] theorem State.setPatrol_harts : (s.setPatrol i x).harts = s.harts := rfl
@[simp] theorem State.setPatrol_wires : (s.setPatrol i x).wires = s.wires := rfl
@[simp] theorem State.setPatrol_iotlb : (s.setPatrol i x).iotlb = s.iotlb := rfl
@[simp] theorem State.setPatrol_pmu : (s.setPatrol i x).pmu = s.pmu := rfl
@[simp] theorem State.setPatrol_thermal : (s.setPatrol i x).thermal = s.thermal := rfl
@[simp] theorem State.setPatrol_mti : (s.setPatrol i x).mti = s.mti := rfl
@[simp] theorem State.setPatrol_mtiStore : (s.setPatrol i x).mtiStore = s.mtiStore := rfl
@[simp] theorem State.setPatrol_rtcNext : (s.setPatrol i x).rtcNext = s.rtcNext := rfl
@[simp] theorem State.setPatrol_lostToLog : (s.setPatrol i x).lostToLog = s.lostToLog := rfl
@[simp] theorem State.setPatrol_fuses : (s.setPatrol i x).fuses = s.fuses := rfl
@[simp] theorem State.setPatrol_running : (s.setPatrol i x).running = s.running := rfl
@[simp] theorem State.setPatrol_mgt : (s.setPatrol i x).mgt = s.mgt := rfl
@[simp] theorem State.setPatrol_tap : (s.setPatrol i x).tap = s.tap := rfl
@[simp] theorem State.setPatrol_supply : (s.setPatrol i x).supply = s.supply := rfl
end setPatrolLaws

section setCtxLaws
variable (s : State) (c : Nat) (x : TltCtx)
@[simp] theorem State.setCtx_pending : (s.setCtx c x).pending = s.pending := rfl
@[simp] theorem State.setCtx_resp : (s.setCtx c x).resp = s.resp := rfl
@[simp] theorem State.setCtx_out : (s.setCtx c x).out = s.out := rfl
@[simp] theorem State.setCtx_freeCtr : (s.setCtx c x).freeCtr = s.freeCtr := rfl
@[simp] theorem State.setCtx_idCtr : (s.setCtx c x).idCtr = s.idCtr := rfl
@[simp] theorem State.setCtx_now : (s.setCtx c x).now = s.now := rfl
@[simp] theorem State.setCtx_cyc : (s.setCtx c x).cyc = s.cyc := rfl
@[simp] theorem State.setCtx_dlNow : (s.setCtx c x).dlNow = s.dlNow := rfl
@[simp] theorem State.setCtx_regs : (s.setCtx c x).regs = s.regs := rfl
@[simp] theorem State.setCtx_imageRegs : (s.setCtx c x).imageRegs = s.imageRegs := rfl
@[simp] theorem State.setCtx_latches : (s.setCtx c x).latches = s.latches := rfl
@[simp] theorem State.setCtx_held : (s.setCtx c x).held = s.held := rfl
@[simp] theorem State.setCtx_pd : (s.setCtx c x).pd = s.pd := rfl
@[simp] theorem State.setCtx_mem : (s.setCtx c x).mem = s.mem := rfl
@[simp] theorem State.setCtx_upsets : (s.setCtx c x).upsets = s.upsets := rfl
@[simp] theorem State.setCtx_chan : (s.setCtx c x).chan = s.chan := rfl
@[simp] theorem State.setCtx_late : (s.setCtx c x).late = s.late := rfl
@[simp] theorem State.setCtx_tags : (s.setCtx c x).tags = s.tags := rfl
@[simp] theorem State.setCtx_checked : (s.setCtx c x).checked = s.checked := rfl
@[simp] theorem State.setCtx_clusters : (s.setCtx c x).clusters = s.clusters := rfl
@[simp] theorem State.setCtx_engines : (s.setCtx c x).engines = s.engines := rfl
@[simp] theorem State.setCtx_dunes : (s.setCtx c x).dunes = s.dunes := rfl
@[simp] theorem State.setCtx_slvs : (s.setCtx c x).slvs = s.slvs := rfl
@[simp] theorem State.setCtx_loam : (s.setCtx c x).loam = s.loam := rfl
@[simp] theorem State.setCtx_phaseReports : (s.setCtx c x).phaseReports = s.phaseReports := rfl
@[simp] theorem State.setCtx_queues : (s.setCtx c x).queues = s.queues := rfl
@[simp] theorem State.setCtx_objs : (s.setCtx c x).objs = s.objs := rfl
@[simp] theorem State.setCtx_adm : (s.setCtx c x).adm = s.adm := rfl
@[simp] theorem State.setCtx_overdueCtr : (s.setCtx c x).overdueCtr = s.overdueCtr := rfl
@[simp] theorem State.setCtx_dispatchStopped : (s.setCtx c x).dispatchStopped = s.dispatchStopped := rfl
@[simp] theorem State.setCtx_slots : (s.setCtx c x).slots = s.slots := rfl
@[simp] theorem State.setCtx_batches : (s.setCtx c x).batches = s.batches := rfl
@[simp] theorem State.setCtx_quiCmds : (s.setCtx c x).quiCmds = s.quiCmds := rfl
@[simp] theorem State.setCtx_cows : (s.setCtx c x).cows = s.cows := rfl
@[simp] theorem State.setCtx_movers : (s.setCtx c x).movers = s.movers := rfl
@[simp] theorem State.setCtx_reports : (s.setCtx c x).reports = s.reports := rfl
@[simp] theorem State.setCtx_brokeSeq : (s.setCtx c x).brokeSeq = s.brokeSeq := rfl
@[simp] theorem State.setCtx_ftQueue : (s.setCtx c x).ftQueue = s.ftQueue := rfl
@[simp] theorem State.setCtx_lastPass : (s.setCtx c x).lastPass = s.lastPass := rfl
@[simp] theorem State.setCtx_trackers : (s.setCtx c x).trackers = s.trackers := rfl
@[simp] theorem State.setCtx_provNext : (s.setCtx c x).provNext = s.provNext := rfl
@[simp] theorem State.setCtx_brokeCopied : (s.setCtx c x).brokeCopied = s.brokeCopied := rfl
@[simp] theorem State.setCtx_poisonBy : (s.setCtx c x).poisonBy = s.poisonBy := rfl
@[simp] theorem State.setCtx_budgeted : (s.setCtx c x).budgeted = s.budgeted := rfl
@[simp] theorem State.setCtx_ftPoints : (s.setCtx c x).ftPoints = s.ftPoints := rfl
@[simp] theorem State.setCtx_macs : (s.setCtx c x).macs = s.macs := rfl
@[simp] theorem State.setCtx_log : (s.setCtx c x).log = s.log := rfl
@[simp] theorem State.setCtx_timAcc : (s.setCtx c x).timAcc = s.timAcc := rfl
@[simp] theorem State.setCtx_timRho : (s.setCtx c x).timRho = s.timRho := rfl
@[simp] theorem State.setCtx_timEpoch : (s.setCtx c x).timEpoch = s.timEpoch := rfl
@[simp] theorem State.setCtx_hbxs : (s.setCtx c x).hbxs = s.hbxs := rfl
@[simp] theorem State.setCtx_hbxq : (s.setCtx c x).hbxq = s.hbxq := rfl
@[simp] theorem State.setCtx_hbxCopy : (s.setCtx c x).hbxCopy = s.hbxCopy := rfl
@[simp] theorem State.setCtx_patrols : (s.setCtx c x).patrols = s.patrols := rfl
@[simp] theorem State.setCtx_zports : (s.setCtx c x).zports = s.zports := rfl
@[simp] theorem State.setCtx_pports : (s.setCtx c x).pports = s.pports := rfl
@[simp] theorem State.setCtx_csis : (s.setCtx c x).csis = s.csis := rfl
@[simp] theorem State.setCtx_flashCmd : (s.setCtx c x).flashCmd = s.flashCmd := rfl
@[simp] theorem State.setCtx_flashHeld : (s.setCtx c x).flashHeld = s.flashHeld := rfl
@[simp] theorem State.setCtx_flash : (s.setCtx c x).flash = s.flash := rfl
@[simp] theorem State.setCtx_flashRegs : (s.setCtx c x).flashRegs = s.flashRegs := rfl
@[simp] theorem State.setCtx_cans : (s.setCtx c x).cans = s.cans := rfl
@[simp] theorem State.setCtx_pins : (s.setCtx c x).pins = s.pins := rfl
@[simp] theorem State.setCtx_msis : (s.setCtx c x).msis = s.msis := rfl
@[simp] theorem State.setCtx_eip : (s.setCtx c x).eip = s.eip := rfl
@[simp] theorem State.setCtx_harts : (s.setCtx c x).harts = s.harts := rfl
@[simp] theorem State.setCtx_wires : (s.setCtx c x).wires = s.wires := rfl
@[simp] theorem State.setCtx_iotlb : (s.setCtx c x).iotlb = s.iotlb := rfl
@[simp] theorem State.setCtx_pmu : (s.setCtx c x).pmu = s.pmu := rfl
@[simp] theorem State.setCtx_thermal : (s.setCtx c x).thermal = s.thermal := rfl
@[simp] theorem State.setCtx_mti : (s.setCtx c x).mti = s.mti := rfl
@[simp] theorem State.setCtx_mtiStore : (s.setCtx c x).mtiStore = s.mtiStore := rfl
@[simp] theorem State.setCtx_rtcNext : (s.setCtx c x).rtcNext = s.rtcNext := rfl
@[simp] theorem State.setCtx_lostToLog : (s.setCtx c x).lostToLog = s.lostToLog := rfl
@[simp] theorem State.setCtx_fuses : (s.setCtx c x).fuses = s.fuses := rfl
@[simp] theorem State.setCtx_running : (s.setCtx c x).running = s.running := rfl
@[simp] theorem State.setCtx_mgt : (s.setCtx c x).mgt = s.mgt := rfl
@[simp] theorem State.setCtx_tap : (s.setCtx c x).tap = s.tap := rfl
@[simp] theorem State.setCtx_supply : (s.setCtx c x).supply = s.supply := rfl
end setCtxLaws

end Sys2Proof.Machine
end

