-- ==== Sys2Proof/Laws/Registers.lean ====
section
/-! SUPPORT. The laws of registers and their fields: what a read after a write gives, and what a write leaves alone. -/
namespace Sys2Proof.Machine

theorem insN_eq (n hi lo v : Nat) (h : lo ≤ hi) :
    insN n hi lo v = 2 ^ lo * (n / 2 ^ (hi + 1) * 2 ^ (hi + 1 - lo) + v % 2 ^ (hi + 1 - lo)) + n % 2 ^ lo := by
  have e : 2 ^ (hi + 1) = 2 ^ lo * 2 ^ (hi + 1 - lo) := by rw [← pow_add]; congr 1; omega
  unfold insN
  generalize n / 2 ^ (hi + 1) = q
  rw [e]; ring

theorem insN_div_lo (n hi lo v : Nat) (h : lo ≤ hi) :
    insN n hi lo v / 2 ^ lo = n / 2 ^ (hi + 1) * 2 ^ (hi + 1 - lo) + v % 2 ^ (hi + 1 - lo) := by
  rw [insN_eq n hi lo v h, Nat.mul_add_div (Nat.two_pow_pos lo), Nat.div_eq_of_lt (Nat.mod_lt _ (Nat.two_pow_pos lo)), Nat.add_zero]

/-- A field just written reads back. -/
theorem bitsN_insN_same (n hi lo v : Nat) (h : lo ≤ hi) : bitsN (insN n hi lo v) hi lo = v % 2 ^ (hi + 1 - lo) := by
  unfold bitsN
  rw [insN_div_lo n hi lo v h, Nat.add_comm, Nat.add_mul_mod_self_right, Nat.mod_mod]

/-- Bits below a written field are as they were. -/
theorem bitsN_insN_below (n hi lo v hi' lo' : Nat) (h : lo ≤ hi) (h' : lo' ≤ hi') (hb : hi' < lo) :
    bitsN (insN n hi lo v) hi' lo' = bitsN n hi' lo' := by
  have hm : insN n hi lo v % 2 ^ lo = n % 2 ^ lo := by
    rw [insN_eq n hi lo v h, Nat.mul_add_mod, Nat.mod_mod]
  have key : ∀ x : Nat, bitsN x hi' lo' = bitsN (x % 2 ^ lo) hi' lo' := by
    intro x
    unfold bitsN
    have e : (2 : Nat) ^ lo = 2 ^ lo' * 2 ^ (lo - lo') := by rw [← pow_add]; congr 1; omega
    rw [e, Nat.mod_mul_right_div_self, Nat.mod_mod_of_dvd _ (pow_dvd_pow 2 (by omega))]
  rw [key (insN n hi lo v), hm, ← key n]

/-- Bits above a written field are as they were. -/
theorem bitsN_insN_above (n hi lo v hi' lo' : Nat) (h : lo ≤ hi) (hb : hi < lo') :
    bitsN (insN n hi lo v) hi' lo' = bitsN n hi' lo' := by
  have hd : insN n hi lo v / 2 ^ (hi + 1) = n / 2 ^ (hi + 1) := by
    have e : (2 : Nat) ^ (hi + 1) = 2 ^ lo * 2 ^ (hi + 1 - lo) := by rw [← pow_add]; congr 1; omega
    rw [e, ← Nat.div_div_eq_div_mul, insN_div_lo n hi lo v h, ← e, Nat.add_comm, Nat.add_mul_div_right _ _ (Nat.two_pow_pos _),
      Nat.div_eq_of_lt (Nat.mod_lt _ (Nat.two_pow_pos _)), Nat.zero_add]
  have e : (2 : Nat) ^ lo' = 2 ^ (hi + 1) * 2 ^ (lo' - (hi + 1)) := by rw [← pow_add]; congr 1; omega
  unfold bitsN
  rw [e, ← Nat.div_div_eq_div_mul, hd, Nat.div_div_eq_div_mul]

theorem insN_lt (n hi lo v : Nat) (h : lo ≤ hi) (hh : hi < 32) (hn : n < 2 ^ 32) : insN n hi lo v < 2 ^ 32 := by
  have h1 : n / 2 ^ (hi + 1) < 2 ^ (32 - (hi + 1)) := by
    rw [Nat.div_lt_iff_lt_mul (Nat.two_pow_pos _), ← pow_add]
    rwa [show 32 - (hi + 1) + (hi + 1) = 32 by omega]
  have h2 : insN n hi lo v / 2 ^ (hi + 1) = n / 2 ^ (hi + 1) := by
    have := bitsN_insN_above n hi lo v 63 (hi + 1) h (Nat.lt_succ_self hi)
    have e : (2 : Nat) ^ (hi + 1) = 2 ^ lo * 2 ^ (hi + 1 - lo) := by rw [← pow_add]; congr 1; omega
    rw [e, ← Nat.div_div_eq_div_mul, insN_div_lo n hi lo v h, ← e, Nat.add_comm, Nat.add_mul_div_right _ _ (Nat.two_pow_pos _),
      Nat.div_eq_of_lt (Nat.mod_lt _ (Nat.two_pow_pos _)), Nat.zero_add]
  rw [← h2, Nat.div_lt_iff_lt_mul (Nat.two_pow_pos _), ← pow_add, show 32 - (hi + 1) + (hi + 1) = 32 by omega] at h1
  exact h1

theorem ins_toNat (w : Word) (hi lo v : Nat) (h : lo ≤ hi) (hh : hi < 32) : (ins w hi lo v).toNat = insN w.toNat hi lo v := by
  unfold ins
  rw [BitVec.toNat_ofNat, Nat.mod_eq_of_lt (insN_lt _ _ _ _ h hh w.isLt)]

theorem bits_ins_same (w : Word) (hi lo v : Nat) (h : lo ≤ hi) (hh : hi < 32) : bits (ins w hi lo v) hi lo = v % 2 ^ (hi + 1 - lo) := by
  unfold bits; rw [ins_toNat _ _ _ _ h hh]; exact bitsN_insN_same _ _ _ _ h

theorem bits_ins_other (w : Word) (hi lo v hi' lo' : Nat) (h : lo ≤ hi) (hh : hi < 32) (h' : lo' ≤ hi') (hd : hi < lo' ∨ hi' < lo) :
    bits (ins w hi lo v) hi' lo' = bits w hi' lo' := by
  unfold bits; rw [ins_toNat _ _ _ _ h hh]
  rcases hd with hd | hd
  · exact bitsN_insN_above _ _ _ _ _ _ h hd
  · exact bitsN_insN_below _ _ _ _ _ _ h h' hd

variable {s : State}

/-- A register just written reads back. -/
theorem State.rd_wr_same {a : Nat} {w : Word} (h : Registers.wf s = true) : (s.wr a w).rd a = w := Sparse.get_set_same h

/-- A write of one register leaves every other alone. -/
theorem State.rd_wr_other {a b : Nat} {w : Word} (h : Registers.wf s = true) (n : b ≠ a) : (s.wr a w).rd b = s.rd b := Sparse.get_set_other h n

/-- A write of a register keeps the register file's form. -/
theorem Registers.wf_wr {a : Nat} {w : Word} (h : Registers.wf s = true) : Registers.wf (s.wr a w) = true := Sparse.wf_set h
theorem Registers.wf_setF {f : Fld} {v : Nat} (h : Registers.wf s = true) : Registers.wf (s.setF f v) = true := Sparse.wf_set h
theorem Registers.wf_bump {f : Fld} {n : Nat} (h : Registers.wf s = true) : Registers.wf (s.bump f n) = true := Sparse.wf_set h
theorem Registers.wf_resetRegs {p : Nat → Bool} (h : Registers.wf s = true) : Registers.wf (s.resetRegs p) = true := Sparse.wf_drop h

/-- A field just written reads back, cut to its width. -/
theorem State.fld_setF_same {f : Fld} {v : Nat} (w : Registers.wf s = true) (h : f.lo ≤ f.hi) (hh : f.hi < 32) :
    (s.setF f v).fld f = v % 2 ^ (f.hi + 1 - f.lo) := by
  simp only [State.fld, State.setF, State.rd_wr_same w, bits_ins_same _ _ _ _ h hh]

/-- A write of a field leaves the fields of other registers alone. -/
theorem State.fld_setF_reg {f g : Fld} {v : Nat} (w : Registers.wf s = true) (n : g.addr ≠ f.addr) : (s.setF f v).fld g = s.fld g := by
  simp only [State.fld, State.setF, State.rd_wr_other w n]

/-- A write of a field leaves the other bits of its register alone. -/
theorem State.fld_setF_bits {f g : Fld} {v : Nat} (w : Registers.wf s = true) (h : f.lo ≤ f.hi) (hh : f.hi < 32) (h' : g.lo ≤ g.hi)
    (hd : f.hi < g.lo ∨ g.hi < f.lo) : (s.setF f v).fld g = s.fld g := by
  by_cases n : g.addr = f.addr
  · simp only [State.fld, State.setF, n, State.rd_wr_same w, bits_ins_other _ _ _ _ _ _ h hh h' hd]
  · exact State.fld_setF_reg w n

@[simp] theorem State.rd_start (s : State) (a : Nat) : s.start.rd a = s.rd a := rfl
@[simp] theorem State.fld_start (s : State) (f : Fld) : s.start.fld f = s.fld f := rfl
@[simp] theorem State.flag_start (s : State) (f : Fld) : s.start.flag f = s.flag f := rfl
@[simp] theorem State.pdOn_start (s : State) (d : Nat) : s.start.pdOn d = s.pdOn d := rfl
@[simp] theorem State.byte_start (s : State) (a : Nat) : s.start.byte a = s.byte a := rfl

/-- What a register reads after registers are reset. -/
theorem State.rd_resetRegs {p : Nat → Bool} {a : Nat} (h : Registers.wf s = true) :
    (s.resetRegs p).rd a = if p a = true then regReset a else s.rd a := Sparse.get_drop h

end Sys2Proof.Machine
end

