-- ==== Sys2Proof/Laws/Memory.lean ====
section
/-! SUPPORT. The laws of memory: what a read after a write gives, and that every operation over memory keeps its canonical form. -/
namespace Sys2Proof.Machine
variable {s : State}

theorem Memory.wf_iff : Memory.wf s = true ↔ Sparse.wf (fun _ => (0 : Byte)) s.mem = true ∧ Sparse.wf (fun _ => (0 : Byte)) s.upsets = true := by
  simp [Memory.wf]

/-- The form rests on the two tables alone. -/
theorem Memory.wf_congr {t : State} (hm : t.mem = s.mem) (hu : t.upsets = s.upsets) : Memory.wf t = Memory.wf s := by simp [Memory.wf, hm, hu]

theorem Memory.wf_putByte {a : Nat} {b : Byte} (h : Memory.wf s = true) : Memory.wf (s.putByte a b) = true := by
  rw [Memory.wf_iff] at *
  exact ⟨Sparse.wf_set h.1, Sparse.wf_set h.2⟩

theorem Memory.wf_flip {a : Nat} {b : Byte} (h : Memory.wf s = true) : Memory.wf (s.flip a b) = true := by
  rw [Memory.wf_iff] at *
  exact ⟨h.1, Sparse.wf_set h.2⟩

/-- A byte just written reads back. -/
theorem State.byte_putByte_same {a : Nat} {b : Byte} (h : Memory.wf s = true) : (s.putByte a b).byte a = b :=
  Sparse.get_set_same (Memory.wf_iff.1 h).1

/-- A write of one byte leaves every other alone. -/
theorem State.byte_putByte_other {a c : Nat} {b : Byte} (h : Memory.wf s = true) (n : c ≠ a) : (s.putByte a b).byte c = s.byte c :=
  Sparse.get_set_other (Memory.wf_iff.1 h).1 n

/-- A fold of steps that each keep a property keeps it. -/
theorem foldl_keeps {α σ : Type} (P : σ → Prop) {f : σ → α → σ} (hf : ∀ t x, P t → P (f t x)) : ∀ (l : List α) (t : σ), P t → P (l.foldl f t)
  | [], _, h => h
  | _ :: l, _, h => foldl_keeps P hf l _ (hf _ _ h)

theorem Memory.wf_putAll {ws : List (Addr × Byte)} (h : Memory.wf s = true) : Memory.wf (s.putAll ws) = true :=
  foldl_keeps (fun t => Memory.wf t = true) (fun _ _ h => Memory.wf_putByte h) ws s h

/-- Bytes written leave every other byte alone. -/
theorem State.byte_putAll_other {a : Nat} : ∀ {ws : List (Addr × Byte)} {s : State}, Memory.wf s = true → (∀ p ∈ ws, p.1 ≠ a) →
    (s.putAll ws).byte a = s.byte a
  | [], _, _, _ => rfl
  | p :: ws, s, h, n => by
    have := State.byte_putAll_other (s := s.putByte p.1 p.2) (ws := ws) (Memory.wf_putByte h) (fun q hq => n q (List.mem_cons_of_mem _ hq))
    rw [State.byte_putByte_other h (n p List.mem_cons_self).symm] at this
    exact this

theorem Memory.wf_poison {bs : List Nat} (h : Memory.wf s = true) : Memory.wf (s.poison bs) = true := by
  unfold State.poison State.poisonWith
  refine foldl_keeps (fun t => Memory.wf t = true) (fun t x h => ?_) bs s h
  dsimp only
  split <;> exact h

theorem Memory.wf_settle {b : Nat} (h : Memory.wf s = true) : Memory.wf (s.settle b) = true := by
  unfold State.settle
  split
  · refine foldl_keeps (fun t => Memory.wf t = true) (fun t x h => ?_) _ s h
    dsimp only
    split
    · exact h
    · exact Memory.wf_putByte h
  · exact h

theorem Memory.wf_wmFail {b op move : Nat} (h : Memory.wf s = true) : Memory.wf (s.wmFail b op move) = true := h

theorem Memory.wf_forgetChecked {b : Nat} (h : Memory.wf s = true) : Memory.wf (s.forgetChecked b) = true := by
  unfold State.forgetChecked; dsimp only; split <;> exact h

theorem Memory.wf_spoil {b : Nat} {w : Bool} (h : Memory.wf s = true) : Memory.wf (s.spoil b w) = true := by
  unfold State.spoil; split <;> exact h

theorem Memory.wf_ite {c : Prop} [Decidable c] {t u : State} (h : Memory.wf t = true) (k : Memory.wf u = true) : Memory.wf (if c then t else u) = true := by
  split <;> assumption

theorem Memory.wf_channel {b : Nat} (h : Memory.wf s = true) : Memory.wf (s.channel b).1 = true := by
  have h1 : Memory.wf (if s.chanOf b = 0 then s else s.setChan b 0) = true := Memory.wf_ite h h
  exact Memory.wf_ite h1 (Memory.wf_ite h1 h1)

theorem Memory.wf_chanWrite {b : Nat} (h : Memory.wf s = true) : Memory.wf (s.chanWrite b) = true := by
  exact Memory.wf_ite h (Memory.wf_ite (u := s) h h)

theorem Memory.wf_retried {b : Nat} {lost : Bool} (h : Memory.wf s = true) : Memory.wf (s.retried b lost) = true := by
  unfold State.retried; split <;> exact h

theorem Memory.wf_noteChecked {b : Nat} (h : Memory.wf s = true) : Memory.wf (s.noteChecked b) = true := h

theorem Memory.wf_dramCheck {b op move : Nat} (h : Memory.wf s = true) : Memory.wf (s.dramCheck b op move).1 = true := by
  unfold State.dramCheck
  dsimp only
  split
  · exact Memory.wf_retried (Memory.wf_noteChecked (Memory.wf_settle (Memory.wf_channel h)))
  · exact Memory.wf_wmFail (Memory.wf_channel h)

theorem Memory.wf_checkRead {b op move : Nat} (h : Memory.wf s = true) : Memory.wf (s.checkRead b op move).1 = true := by
  unfold State.checkRead
  split
  · exact h
  · exact Memory.wf_dramCheck h

/-- One block's part of a write keeps the form, whether stored or refused. -/
theorem Memory.wf_storeBlock {w : WTag} {b op move : Nat} {ws : List (Addr × Byte)} (h : Memory.wf s = true) :
    Memory.wf (s.storeBlock w b ws op move).1 = true := by
  unfold State.storeBlock
  extract_lets whole read c t s1 s2 s3 u1 u2
  have ht : Memory.wf t = true := by
    show Memory.wf (if read then s.channel b else (if isVat (b * 4096) then s else s.chanWrite b, false)).1 = true
    split
    · exact Memory.wf_channel h
    · exact Memory.wf_ite h (Memory.wf_chanWrite h)
  split
  · have h2 : Memory.wf s2 = true := Memory.wf_putAll (Memory.wf_ite (Memory.wf_retried (Memory.wf_settle ht)) ht)
    exact Memory.wf_spoil (Memory.wf_ite (c := isVat (b * 4096) = true) h2 (Memory.wf_forgetChecked h2))
  · have h2 : Memory.wf u2 = true := Memory.wf_poison (Memory.wf_wmFail ht)
    split
    · exact Memory.wf_forgetChecked (Memory.wf_putAll (Memory.wf_settle h2))
    · exact h2

/-- A write of bytes, block by block, keeps the form. -/
theorem Memory.wf_store {w : WTag} {ws : List (Addr × Byte)} {op move : Nat} (h : Memory.wf s = true) :
    Memory.wf (s.store w ws op move).1 = true :=
  foldl_keeps (fun acc : State × List Nat => Memory.wf acc.1 = true) (fun _ _ h => Memory.wf_storeBlock h) _ (s, []) h

/-- The register file's form under the operations over memory. -/
theorem Registers.wf_congr {t : State} (h : t.regs = s.regs) : Registers.wf t = Registers.wf s := by simp [Registers.wf, h]

end Sys2Proof.Machine
end

