-- ==== Sys2Proof/Laws/Kept.lean ====
section
/-! SUPPORT. What every operation of the model keeps: the queue of waiting commands as it is, and memory, the register file and the power
table in their canonical form. One lemma per operation; the proofs of a larger operation cite those of the smaller ones. -/
namespace Sys2Proof.Machine
open Sys2Proof

/-- From s0 to t the queue is unchanged, and t is sound if s0 is. -/
def Kept (s0 t : State) : Prop := t.pending = s0.pending ∧ (s0.Sound → t.Sound)

/-- The same of an operation that may have no next state, of one that answers a value beside it, of an engine's result and of an outcome. -/
def KeptO (s0 : State) (o : Option State) : Prop := ∀ t, o = some t → Kept s0 t
def KeptO1 {α : Type} (s0 : State) (o : Option (State × α)) : Prop := ∀ p, o = some p → Kept s0 p.1
def KeptO2 {α : Type} (s0 : State) (o : Option (α × State)) : Prop := ∀ p, o = some p → Kept s0 p.2
def KeptE (s0 : State) (o : EngRes) : Prop := ∀ t out, o = .done t out → Kept s0 t
def KeptR (s0 : State) (o : Host.Outcome State Fault Refusal) : Prop := ∀ t, o = .next t → Kept s0 t

variable {s0 s t : State}

theorem Kept.refl (s : State) : Kept s s := ⟨rfl, id⟩
theorem Kept.trans {u : State} (h : Kept s0 t) (k : Kept t u) : Kept s0 u := ⟨k.1.trans h.1, fun w => k.2 (h.2 w)⟩

/-- What is kept rests on five fields. -/
theorem Kept.upd (h : Kept s0 s) (e1 : t.pending = s.pending) (e2 : t.mem = s.mem) (e3 : t.upsets = s.upsets) (e4 : t.regs = s.regs)
    (e5 : t.pd = s.pd) : Kept s0 t :=
  ⟨e1.trans h.1, fun w => by
    obtain ⟨a, b, c⟩ := h.2 w
    simp only [State.Sound, Memory.wf, Registers.wf, Power.wf, e2, e3, e4, e5] at *
    exact ⟨a, b, c⟩⟩

/-- An update of any field but the queue, the two memory tables, the registers and the power table. -/
theorem Kept.mk {x_resp : Resp} {x_out : List Out} {x_freeCtr : Nat} {x_idCtr : Nat} {x_now : Nat} {x_cyc : Nat} {x_dlNow : Nat}
    {x_imageRegs : List (Nat × Option Word)} {x_latches : List (Nat × Option Word)} {x_held : List (Nat × Option Word)} {x_chan :
    List (Nat × Nat)} {x_late : List Late} {x_tags : List (Nat × BlockTag)} {x_checked : List (Nat × List Nat)} {x_clusters : List
    (Nat × Cluster)} {x_engines : List (Nat × EngUnit)} {x_dunes : List (Nat × Dune)} {x_slvs : List (Nat × List (Option
    SlvSlot))} {x_loam : Loam} {x_tilth : Tilth} {x_phaseReports : List (Nat × Nat)} {x_queues : List (Nat × QState)} {x_objs :
    List Obj} {x_adm : Admission} {x_overdueCtr : Nat} {x_dispatchStopped : Bool} {x_slots : List (Nat × Slot)} {x_batches : List
    (Nat × Batch)} {x_quiCmds : List (Nat × Option QuiCmd)} {x_cows : List CowCopy} {x_movers : List (Nat × Mover)} {x_reports :
    List Report} {x_brokeSeq : Nat} {x_ftQueue : List FtReq} {x_lastPass : List (Nat × Nat)} {x_trackers : List (Nat × List
    Tracker)} {x_provNext : List (Nat × Nat)} {x_brokeCopied : List (Nat × (Option Nat × Nat))} {x_poisonBy : List (Nat × Nat)}
    {x_budgeted : List Nat} {x_ftPoints : List (Nat × List (Nat × Nat × Nat))} {x_macs : List (Nat × Mac)} {x_log : LogState}
    {x_timAcc : Nat} {x_timRho : Int} {x_timEpoch : Nat} {x_hbxs : List (Nat × HbxClass)} {x_hbxq : List (Nat × List HbxReq)}
    {x_hbxCopy : Option (Nat × Word × Word × Word)} {x_patrols : List (Nat × Patrol)} {x_zports : List (Nat × ZPort)} {x_pports :
    List (Nat × PPort)} {x_csis : List (Nat × CsiCtx)} {x_flashCmd : Option FlashCmd} {x_flashHeld : Option FlashCmd} {x_flash :
    List Host.Cell} {x_flashRegs : List (Nat × Nat)} {x_cans : List (Nat × CanState)} {x_pins : List (Nat × Pin)} {x_msis : List
    (Nat × Nat × Nat)} {x_eip : List (Nat × List Nat)} {x_harts : List (Nat × Hart)} {x_wires : List (Nat × Bool)} {x_iotlb : List
    IoEntry} {x_pmu : Pmu} {x_thermal : Thermal} {x_mti : Mti} {x_mtiStore : MtiStore} {x_rtcNext : Option (Word × Word)}
    {x_lostToLog : Bool} {x_fuses : Fuses} {x_running : Running} {x_mgt : Mgt} {x_tap : Tap} {x_supply : Supply} (h : Kept s0 s) :
    Kept s0 ⟨s.pending, x_resp, x_out, x_freeCtr, x_idCtr, x_now, x_cyc, x_dlNow, s.regs, x_imageRegs, x_latches, x_held, s.pd,
    s.mem, s.upsets, x_chan, x_late, x_tags, x_checked, x_clusters, x_engines, x_dunes, x_slvs, x_loam, x_tilth, x_phaseReports,
    x_queues, x_objs, x_adm, x_overdueCtr, x_dispatchStopped, x_slots, x_batches, x_quiCmds, x_cows, x_movers, x_reports,
    x_brokeSeq, x_ftQueue, x_lastPass, x_trackers, x_provNext, x_brokeCopied, x_poisonBy, x_budgeted, x_ftPoints, x_macs, x_log,
    x_timAcc, x_timRho, x_timEpoch, x_hbxs, x_hbxq, x_hbxCopy, x_patrols, x_zports, x_pports, x_csis, x_flashCmd, x_flashHeld,
    x_flash, x_flashRegs, x_cans, x_pins, x_msis, x_eip, x_harts, x_wires, x_iotlb, x_pmu, x_thermal, x_mti, x_mtiStore,
    x_rtcNext, x_lostToLog, x_fuses, x_running, x_mgt, x_tap, x_supply⟩ :=
  h.upd rfl rfl rfl rfl rfl

theorem Kept.ite {c : Prop} [Decidable c] {a b : State} (h : Kept s0 a) (k : Kept s0 b) : Kept s0 (if c then a else b) := by
  split <;> assumption
theorem Kept.ite1 {α : Type} {c : Prop} [Decidable c] {a b : State × α} (h : Kept s0 a.1) (k : Kept s0 b.1) : Kept s0 (if c then a else b).1 := by
  split <;> assumption
theorem Kept.fold {α : Type} {f : State → α → State} {l : List α} (hf : ∀ t a, Kept s0 t → Kept s0 (f t a)) (h : Kept s0 s) :
    Kept s0 (l.foldl f s) := foldl_keeps (Kept s0) hf l s h
theorem Kept.fold1 {α β : Type} {f : State × β → α → State × β} {l : List α} {p : State × β} (hf : ∀ t b a, Kept s0 t → Kept s0 (f (t, b) a).1)
    (h : Kept s0 p.1) : Kept s0 (l.foldl f p).1 := foldl_keeps (fun p => Kept s0 p.1) (fun t a h => hf t.1 t.2 a h) l p h
theorem KeptO.none : KeptO s0 none := fun _ h => by cases h
theorem KeptO.some (h : Kept s0 t) : KeptO s0 (some t) := fun _ e => by cases e; exact h
theorem KeptO1.none {α : Type} : KeptO1 (α := α) s0 none := fun _ h => by cases h
theorem KeptO1.some {α : Type} {p : State × α} (h : Kept s0 p.1) : KeptO1 s0 (some p) := fun _ e => by cases e; exact h
theorem KeptO2.none {α : Type} : KeptO2 (α := α) s0 none := fun _ h => by cases h
theorem KeptO2.some {α : Type} {p : α × State} (h : Kept s0 p.2) : KeptO2 s0 (some p) := fun _ e => by cases e; exact h
theorem KeptE.wait {b : Nat} : KeptE s0 (.wait b) := fun _ _ h => by cases h
theorem KeptE.done {o : EngOut} (h : Kept s0 t) : KeptE s0 (.done t o) := fun _ _ e => by cases e; exact h
theorem KeptR.next (h : Kept s0 t) : KeptR s0 (.next t) := fun _ e => by cases e; exact h
theorem KeptR.ite {c : Prop} [Decidable c] {a b : Host.Outcome State Fault Refusal} (h : KeptR s0 a) (k : KeptR s0 b) : KeptR s0 (if c then a else b) := by
  split <;> assumption

theorem KeptO.ite {c : Prop} [Decidable c] {a b : Option State} (h : KeptO s0 a) (k : KeptO s0 b) : KeptO s0 (if c then a else b) := by
  split <;> assumption
theorem KeptO1.ite {α : Type} {c : Prop} [Decidable c] {a b : Option (State × α)} (h : KeptO1 s0 a) (k : KeptO1 s0 b) :
    KeptO1 s0 (if c then a else b) := by
  split <;> assumption
theorem KeptO2.ite {α : Type} {c : Prop} [Decidable c] {a b : Option (α × State)} (h : KeptO2 s0 a) (k : KeptO2 s0 b) :
    KeptO2 s0 (if c then a else b) := by
  split <;> assumption
theorem KeptE.ite {c : Prop} [Decidable c] {a b : EngRes} (h : KeptE s0 a) (k : KeptE s0 b) : KeptE s0 (if c then a else b) := by
  split <;> assumption
theorem KeptO.map {f : State → State} {o : Option State} (hf : ∀ t, Kept s0 t → Kept s0 (f t)) (h : KeptO s0 o) : KeptO s0 (o.map f) := by
  intro t e
  cases o with
  | none => cases e
  | some u => cases e; exact hf u (h u rfl)

theorem KeptO1.map {α : Type} {f : State × α → State} {o : Option (State × α)} (hf : ∀ p, Kept s0 p.1 → Kept s0 (f p)) (h : KeptO1 s0 o) :
    KeptO s0 (o.map f) := by
  intro t e
  cases o with
  | none => cases e
  | some u => cases e; exact hf u (h u rfl)
theorem KeptO1.map1 {α β : Type} {f : State × α → State × β} {o : Option (State × α)} (hf : ∀ p, Kept s0 p.1 → Kept s0 (f p).1)
    (h : KeptO1 s0 o) : KeptO1 s0 (o.map f) := by
  intro t e
  cases o with
  | none => cases e
  | some u => cases e; exact hf u (h u rfl)
theorem KeptO.getD {o : Option State} (h : KeptO s0 o) (k : Kept s0 s) : Kept s0 (o.getD s) := by
  cases o with
  | none => exact k
  | some u => exact h u rfl

theorem State.start_kept (h : Kept s0 s) : Kept s0 s.start := h.upd rfl rfl rfl rfl rfl
theorem State.say_kept {r : Resp} (h : Kept s0 s) : Kept s0 (s.say r) := h.upd rfl rfl rfl rfl rfl
theorem answer_kept {ok : Bool} (h : Kept s0 s) (k : Kept s0 t) : KeptR s0 (answer ok s t) := by
  unfold answer
  split
  · exact .next k
  · exact .next (h.upd rfl rfl rfl rfl rfl)

theorem State.wr_kept {a : Nat} {w : Word} (h : Kept s0 s) : Kept s0 (s.wr a w) :=
  ⟨h.1, fun k => ⟨(h.2 k).1, Sparse.wf_set (h.2 k).2.1, (h.2 k).2.2⟩⟩
theorem State.resetRegs_kept {p : Nat → Bool} (h : Kept s0 s) : Kept s0 (s.resetRegs p) :=
  ⟨h.1, fun k => ⟨(h.2 k).1, Sparse.wf_drop (h.2 k).2.1, (h.2 k).2.2⟩⟩
theorem State.setPd_kept {d v : Nat} (h : Kept s0 s) : Kept s0 (s.setPd d v) :=
  ⟨h.1, fun k => ⟨(h.2 k).1, (h.2 k).2.1, Sparse.wf_set (h.2 k).2.2⟩⟩
theorem State.putByte_kept {a : Addr} {b : Byte} (h : Kept s0 s) : Kept s0 (s.putByte a b) :=
  ⟨h.1, fun k => ⟨Memory.wf_putByte (h.2 k).1, (h.2 k).2⟩⟩
theorem State.flip_kept {a : Addr} {m : Byte} (h : Kept s0 s) : Kept s0 (s.flip a m) :=
  ⟨h.1, fun k => ⟨Memory.wf_flip (h.2 k).1, (h.2 k).2⟩⟩
theorem State.loseVat_kept {n : Nat} (h : Kept s0 s) : Kept s0 (s.loseVat n) :=
  ⟨h.1, fun k => ⟨Memory.wf_iff.2 ⟨Sparse.wf_drop (Memory.wf_iff.1 (h.2 k).1).1, Sparse.wf_drop (Memory.wf_iff.1 (h.2 k).1).2⟩, (h.2 k).2⟩⟩
theorem State.memLost_kept {d : Nat} (h : Kept s0 s) : Kept s0 (s.memLost d) :=
  ⟨h.1, fun k => ⟨Memory.wf_iff.2 ⟨Sparse.wf_drop (Memory.wf_iff.1 (h.2 k).1).1, Sparse.wf_drop (Memory.wf_iff.1 (h.2 k).1).2⟩, (h.2 k).2⟩⟩
theorem State.remap_kept (h : Kept s0 t) : Kept s0 (s.remap t) :=
  ⟨h.1, fun k => ⟨Memory.wf_iff.2 ⟨foldl_keeps (fun m => Sparse.wf (fun _ => (0 : Byte)) m = true) (fun _ _ h => Sparse.wf_set h) s.mem [] rfl,
    foldl_keeps (fun m => Sparse.wf (fun _ => (0 : Byte)) m = true) (fun _ _ h => Sparse.wf_set h) s.upsets [] rfl⟩, (h.2 k).2⟩⟩

end Sys2Proof.Machine
end

