-- ==== Sys2Proof/Laws/KeptUnits.lean ====
section
/-! SUPPORT. What the operations and commands of Machine/Ops, Access, Prov, Kv, Zetha, Pcie, Headbox, Moves, Pool, Quire, QuireCmds, Deckle, DeckleCmds, Clusters, PowerOps, Admission, Memory, Movers keep (Laws/Kept.lean):
one lemma for each definition that answers a state, cited by the lemmas of the definitions that call it. -/
namespace Sys2Proof.Machine
open Sys2Proof
set_option linter.all false
set_option Elab.async false

/-! ## Machine/Ops.lean -/

theorem State.busError_kept {s0 : State} {s : State} (h_s : Kept s0 s) : Kept s0 (State.busError s) := by
  unfold State.busError
  with_reducible repeat' first | assumption | intro _ | apply State.start_kept | dsimp only | split | apply Kept.mk

theorem State.emit_kept {s0 : State} {s : State} {o : Out} (h_s : Kept s0 s) : Kept s0 (State.emit s o) := by
  unfold State.emit
  with_reducible repeat' first | assumption | intro _ | dsimp only | split | apply Kept.mk

theorem State.tookId_kept {s0 : State} {s : State} (h_s : Kept s0 s) : Kept s0 (State.tookId s) := by
  unfold State.tookId
  with_reducible repeat' first | assumption | intro _ | dsimp only | split | apply Kept.mk

theorem State.tookFree_kept {s0 : State} {s : State} {n : Nat} (h_s : Kept s0 s) : Kept s0 (State.tookFree s n) := by
  unfold State.tookFree
  with_reducible repeat' first | assumption | intro _ | dsimp only | split | apply Kept.mk

theorem State.setF_kept {s0 : State} {s : State} {f : Fld} {v : Nat} (h_s : Kept s0 s) : Kept s0 (State.setF s f v) := by
  unfold State.setF
  with_reducible repeat' first | assumption | intro _ | apply State.wr_kept | dsimp only | split

theorem State.bump_kept {s0 : State} {s : State} {f : Fld} {n : Nat} (h_s : Kept s0 s) : Kept s0 (State.bump s f n) := by
  unfold State.bump
  with_reducible repeat' first | assumption | intro _ | apply State.setF_kept | dsimp only | split

theorem State.hold_kept {s0 : State} {s : State} {a : Nat} {w : Sys2Proof.Word} (h_s : Kept s0 s) : Kept s0 (State.hold s a w) := by
  unfold State.hold
  with_reducible repeat' first | assumption | intro _ | dsimp only | split | apply Kept.mk

theorem State.unhold_kept {s0 : State} {s : State} {a : Nat} (h_s : Kept s0 s) : Kept s0 (State.unhold s a) := by
  unfold State.unhold
  with_reducible repeat' first | assumption | intro _ | dsimp only | split | apply Kept.mk

theorem State.sendMsi_kept {s0 : State} {s : State} {hart : Nat} {file : Nat} {eiid : Nat} (h_s : Kept s0 s) : Kept s0 (State.sendMsi s hart file eiid) := by
  unfold State.sendMsi
  with_reducible repeat' first | assumption | intro _ | apply State.emit_kept | dsimp only | split | apply Kept.mk

theorem State.aplicMsi_kept {s0 : State} {s : State} {d : Nat} {hart : Nat} {guest : Nat} {eiid : Nat} (h_s : Kept s0 s) : Kept s0 (State.aplicMsi s d hart guest eiid) := by
  unfold State.aplicMsi
  with_reducible repeat' first | assumption | intro _ | apply State.sendMsi_kept | apply Kept.ite | dsimp only | split

theorem State.aplicForward_kept {s0 : State} {s : State} {d : Nat} {n : Nat} (h_s : Kept s0 s) : Kept s0 (State.aplicForward s d n) := by
  unfold State.aplicForward
  with_reducible repeat' first | assumption | intro _ | apply State.aplicMsi_kept | apply State.setF_kept | apply Kept.ite | dsimp only | split

theorem State.aplicInput_kept {s0 : State} {s : State} {d : Nat} {n : Nat} {mode : Nat} {v : Bool} (h_s : Kept s0 s) : Kept s0 (State.aplicInput s d n mode v) := by
  unfold State.aplicInput
  with_reducible repeat' first | assumption | intro _ | apply State.aplicForward_kept | apply State.setF_kept | apply Kept.ite | dsimp only | split

theorem State.wireTo_kept {s0 : State} {s : State} {n : Nat} {v : Bool} (h_s : Kept s0 s) : Kept s0 (State.wireTo s n v) := by
  unfold State.wireTo
  with_reducible repeat' first | assumption | intro _ | apply State.emit_kept | apply State.aplicInput_kept | apply Kept.ite | dsimp only | split

theorem State.pulse_kept {s0 : State} {s : State} {n : Nat} (h_s : Kept s0 s) : Kept s0 (State.pulse s n) := by
  unfold State.pulse
  with_reducible repeat' first | assumption | intro _ | apply State.wireTo_kept | dsimp only | split

theorem State.sense_kept {s0 : State} {s : State} {n : Nat} (h_s : Kept s0 s) : Kept s0 (State.sense s n) := by
  unfold State.sense
  with_reducible repeat' first | assumption | intro _ | apply State.wireTo_kept | apply Kept.ite | dsimp only | split | apply Kept.mk

theorem State.senseAt_kept {s0 : State} {s : State} {a : Nat} (h_s : Kept s0 s) : Kept s0 (State.senseAt s a) := by
  unfold State.senseAt
  with_reducible repeat' first | assumption | intro _ | apply State.sense_kept | apply Kept.ite | dsimp only | split

theorem State.irqMsg_kept {s0 : State} {s : State} {en : Fld} {errOnly : Fld} {hart : Fld} {eiid : Fld} {err : Bool} (h_s : Kept s0 s) : Kept s0 (State.irqMsg s en errOnly hart eiid err) := by
  unfold State.irqMsg
  with_reducible repeat' first | assumption | intro _ | apply State.sendMsi_kept | apply Kept.ite | dsimp only | split

theorem State.putAll_kept {s0 : State} {s : State} {ws : List (Sys2Proof.Addr × Sys2Proof.Byte)} (h_s : Kept s0 s) : Kept s0 (State.putAll s ws) := by
  unfold State.putAll
  with_reducible repeat' first | assumption | intro _ | apply State.putByte_kept | apply Kept.fold | apply Kept.fold1 | dsimp only | split

theorem State.setTag_kept {s0 : State} {s : State} {b : Nat} {t : BlockTag} (h_s : Kept s0 s) : Kept s0 (State.setTag s b t) := by
  unfold State.setTag
  with_reducible repeat' first | assumption | intro _ | dsimp only | split | apply Kept.mk

theorem State.poisonWith_kept {s0 : State} {s : State} {cause : Nat} {bs : List Nat} (h_s : Kept s0 s) : Kept s0 (State.poisonWith s cause bs) := by
  unfold State.poisonWith
  with_reducible repeat' first | assumption | intro _ | apply State.setTag_kept | apply Kept.ite | apply Kept.fold | apply Kept.fold1 | dsimp only | split | apply Kept.mk

theorem State.poison_kept {s0 : State} {s : State} {bs : List Nat} (h_s : Kept s0 s) : Kept s0 (State.poison s bs) := by
  unfold State.poison
  with_reducible repeat' first | assumption | intro _ | apply State.poisonWith_kept | dsimp only | split

theorem State.settle_kept {s0 : State} {s : State} {b : Nat} (h_s : Kept s0 s) : Kept s0 (State.settle s b) := by
  unfold State.settle
  with_reducible repeat' first | assumption | intro _ | apply State.putByte_kept | apply Kept.ite | apply Kept.fold | apply Kept.fold1 | dsimp only | split

theorem State.setChecked_kept {s0 : State} {s : State} {site : Nat} {l : List Nat} (h_s : Kept s0 s) : Kept s0 (State.setChecked s site l) := by
  unfold State.setChecked
  with_reducible repeat' first | assumption | intro _ | dsimp only | split | apply Kept.mk

theorem State.noteChecked_kept {s0 : State} {s : State} {b : Nat} (h_s : Kept s0 s) : Kept s0 (State.noteChecked s b) := by
  unfold State.noteChecked
  with_reducible repeat' first | assumption | intro _ | apply State.setChecked_kept | dsimp only | split

theorem State.forgetChecked_kept {s0 : State} {s : State} {b : Nat} (h_s : Kept s0 s) : Kept s0 (State.forgetChecked s b) := by
  unfold State.forgetChecked
  with_reducible repeat' first | assumption | intro _ | apply State.setChecked_kept | apply Kept.ite | dsimp only | split

theorem State.report_kept {s0 : State} {s : State} {r : Sys2Proof.Report} (h_s : Kept s0 s) : Kept s0 (State.report s r) := by
  unfold State.report
  with_reducible repeat' first | assumption | intro _ | dsimp only | split | apply Kept.mk

theorem State.setChan_kept {s0 : State} {s : State} {b : Nat} {c : Nat} (h_s : Kept s0 s) : Kept s0 (State.setChan s b c) := by
  unfold State.setChan
  with_reducible repeat' first | assumption | intro _ | dsimp only | split | apply Kept.mk

theorem State.channel_kept {s0 : State} {s : State} {b : Nat} (h_s : Kept s0 s) : Kept s0 (State.channel s b).1 := by
  unfold State.channel
  with_reducible repeat' first | assumption | intro _ | apply State.setChan_kept | apply State.bump_kept | apply Kept.ite1 | apply Kept.ite | dsimp only | split

theorem State.retried_kept {s0 : State} {s : State} {b : Nat} {lost : Bool} (h_s : Kept s0 s) : Kept s0 (State.retried s b lost) := by
  unfold State.retried
  with_reducible repeat' first | assumption | intro _ | apply State.bump_kept | apply Kept.ite | dsimp only | split

theorem State.wmFail_kept {s0 : State} {s : State} {b : Nat} {op : Nat} {move : Nat} (h_s : Kept s0 s) : Kept s0 (State.wmFail s b op move) := by
  unfold State.wmFail
  with_reducible repeat' first | assumption | intro _ | apply State.report_kept | apply State.bump_kept | dsimp only | split

theorem State.dramCheck_kept {s0 : State} {s : State} {b : Nat} {op : Nat} {move : Nat} (h_s : Kept s0 s) : Kept s0 (State.dramCheck s b op move).1 := by
  unfold State.dramCheck
  with_reducible repeat' first | assumption | intro _ | apply State.channel_kept | apply State.retried_kept | apply State.noteChecked_kept | apply State.settle_kept | apply State.wmFail_kept | apply Kept.ite1 | apply Kept.ite | dsimp only | split

theorem State.rawCheck_kept {s0 : State} {s : State} {b : Nat} {op : Nat} {move : Nat} (h_s : Kept s0 s) : Kept s0 (State.rawCheck s b op move).1 := by
  unfold State.rawCheck
  with_reducible repeat' first | assumption | intro _ | apply State.dramCheck_kept | apply State.channel_kept | apply Kept.ite1 | apply Kept.ite | dsimp only | split

theorem State.checkRead_kept {s0 : State} {s : State} {b : Nat} {op : Nat} {move : Nat} (h_s : Kept s0 s) : Kept s0 (State.checkRead s b op move).1 := by
  unfold State.checkRead
  with_reducible repeat' first | assumption | intro _ | apply State.dramCheck_kept | apply Kept.ite1 | apply Kept.ite | dsimp only | split

theorem State.chanWrite_kept {s0 : State} {s : State} {b : Nat} (h_s : Kept s0 s) : Kept s0 (State.chanWrite s b) := by
  unfold State.chanWrite
  with_reducible repeat' first | assumption | intro _ | apply State.bump_kept | apply State.setChan_kept | apply Kept.ite | dsimp only | split

theorem State.spoil_kept {s0 : State} {s : State} {b : Nat} {whole : Bool} (h_s : Kept s0 s) : Kept s0 (State.spoil s b whole) := by
  unfold State.spoil
  with_reducible repeat' first | assumption | intro _ | apply Kept.ite | dsimp only | split | apply Kept.mk

theorem State.storeBlock_kept {s0 : State} {s : State} {w : WTag} {b : Nat} {ws : List (Sys2Proof.Addr × Sys2Proof.Byte)} {op : Nat} {move : Nat} (h_s : Kept s0 s) : Kept s0 (State.storeBlock s w b ws op move).1 := by
  unfold State.storeBlock
  with_reducible repeat' first | assumption | intro _ | apply State.channel_kept | apply State.chanWrite_kept | apply State.retried_kept | apply State.settle_kept | apply State.putAll_kept | apply State.forgetChecked_kept | apply State.spoil_kept | apply State.setTag_kept | apply State.wmFail_kept | apply State.poison_kept | apply Kept.ite1 | apply Kept.ite | dsimp only | split

theorem State.store_kept {s0 : State} {s : State} {w : WTag} {ws : List (Sys2Proof.Addr × Sys2Proof.Byte)} {op : Nat} {move : Nat} (h_s : Kept s0 s) : Kept s0 (State.store s w ws op move).1 := by
  unfold State.store
  with_reducible repeat' first | assumption | intro _ | apply State.storeBlock_kept | apply Kept.ite1 | apply Kept.ite | apply Kept.fold | apply Kept.fold1 | dsimp only | split

theorem State.setCl_kept {s0 : State} {s : State} {n : Nat} {c : Cluster} (h_s : Kept s0 s) : Kept s0 (State.setCl s n c) := by
  unfold State.setCl
  with_reducible repeat' first | assumption | intro _ | dsimp only | split | apply Kept.mk

theorem State.setEng_kept {s0 : State} {s : State} {n : Nat} {x : EngUnit} (h_s : Kept s0 s) : Kept s0 (State.setEng s n x) := by
  unfold State.setEng
  with_reducible repeat' first | assumption | intro _ | dsimp only | split | apply Kept.mk

theorem State.setDune_kept {s0 : State} {s : State} {e : Nat} {x : Dune} (h_s : Kept s0 s) : Kept s0 (State.setDune s e x) := by
  unfold State.setDune
  with_reducible repeat' first | assumption | intro _ | dsimp only | split | apply Kept.mk

theorem State.setSlv_kept {s0 : State} {s : State} {e : Nat} {x : List (Option SlvSlot)} (h_s : Kept s0 s) : Kept s0 (State.setSlv s e x) := by
  unfold State.setSlv
  with_reducible repeat' first | assumption | intro _ | dsimp only | split | apply Kept.mk

theorem State.setQ_kept {s0 : State} {s : State} {n : Nat} {q : QState} (h_s : Kept s0 s) : Kept s0 (State.setQ s n q) := by
  unfold State.setQ
  with_reducible repeat' first | assumption | intro _ | dsimp only | split | apply Kept.mk

theorem State.setSlot_kept {s0 : State} {s : State} {n : Nat} {x : Slot} (h_s : Kept s0 s) : Kept s0 (State.setSlot s n x) := by
  unfold State.setSlot
  with_reducible repeat' first | assumption | intro _ | dsimp only | split | apply Kept.mk

theorem State.setBatch_kept {s0 : State} {s : State} {n : Nat} {x : Batch} (h_s : Kept s0 s) : Kept s0 (State.setBatch s n x) := by
  unfold State.setBatch
  with_reducible repeat' first | assumption | intro _ | dsimp only | split | apply Kept.mk

theorem State.setQuiCmd_kept {s0 : State} {s : State} {p : Nat} {x : Option QuiCmd} (h_s : Kept s0 s) : Kept s0 (State.setQuiCmd s p x) := by
  unfold State.setQuiCmd
  with_reducible repeat' first | assumption | intro _ | dsimp only | split | apply Kept.mk

theorem State.setMover_kept {s0 : State} {s : State} {m : Nat} {x : Mover} (h_s : Kept s0 s) : Kept s0 (State.setMover s m x) := by
  unfold State.setMover
  with_reducible repeat' first | assumption | intro _ | dsimp only | split | apply Kept.mk

theorem State.setTrackers_kept {s0 : State} {s : State} {p : Nat} {x : List Tracker} (h_s : Kept s0 s) : Kept s0 (State.setTrackers s p x) := by
  unfold State.setTrackers
  with_reducible repeat' first | assumption | intro _ | dsimp only | split | apply Kept.mk

theorem State.setZport_kept {s0 : State} {s : State} {p : Nat} {x : ZPort} (h_s : Kept s0 s) : Kept s0 (State.setZport s p x) := by
  unfold State.setZport
  with_reducible repeat' first | assumption | intro _ | dsimp only | split | apply Kept.mk

theorem State.setPport_kept {s0 : State} {s : State} {p : Nat} {x : PPort} (h_s : Kept s0 s) : Kept s0 (State.setPport s p x) := by
  unfold State.setPport
  with_reducible repeat' first | assumption | intro _ | dsimp only | split | apply Kept.mk

theorem State.setCsi_kept {s0 : State} {s : State} {n : Nat} {x : CsiCtx} (h_s : Kept s0 s) : Kept s0 (State.setCsi s n x) := by
  unfold State.setCsi
  with_reducible repeat' first | assumption | intro _ | dsimp only | split | apply Kept.mk

theorem State.setCan_kept {s0 : State} {s : State} {n : Nat} {x : CanState} (h_s : Kept s0 s) : Kept s0 (State.setCan s n x) := by
  unfold State.setCan
  with_reducible repeat' first | assumption | intro _ | dsimp only | split | apply Kept.mk

theorem State.setPin_kept {s0 : State} {s : State} {n : Nat} {x : Pin} (h_s : Kept s0 s) : Kept s0 (State.setPin s n x) := by
  unfold State.setPin
  with_reducible repeat' first | assumption | intro _ | dsimp only | split | apply Kept.mk

theorem State.setHart_kept {s0 : State} {s : State} {h : Nat} {x : Hart} (h_s : Kept s0 s) : Kept s0 (State.setHart s h x) := by
  unfold State.setHart
  with_reducible repeat' first | assumption | intro _ | dsimp only | split | apply Kept.mk

theorem State.setPmuClu_kept {s0 : State} {s : State} {n : Nat} {x : PmuClu} (h_s : Kept s0 s) : Kept s0 (State.setPmuClu s n x) := by
  unfold State.setPmuClu
  with_reducible repeat' first | assumption | intro _ | dsimp only | split | apply Kept.mk

theorem State.setRail_kept {s0 : State} {s : State} {r : Nat} {x : Rail} (h_s : Kept s0 s) : Kept s0 (State.setRail s r x) := by
  unfold State.setRail
  with_reducible repeat' first | assumption | intro _ | dsimp only | split | apply Kept.mk

theorem State.setMac_kept {s0 : State} {s : State} {n : Nat} {x : Mac} (h_s : Kept s0 s) : Kept s0 (State.setMac s n x) := by
  unfold State.setMac
  with_reducible repeat' first | assumption | intro _ | dsimp only | split | apply Kept.mk

theorem State.ringPush_kept {s0 : State} {s : State} {en : Bool} {size : Nat} {head : Fld} {tail : Fld} {full : Option Fld} {v : Nat} (h_s : Kept s0 s) : Kept s0 (State.ringPush s en size head tail full v) := by
  unfold State.ringPush
  with_reducible repeat' first | assumption | intro _ | apply State.setF_kept | apply Kept.ite | dsimp only | split

theorem State.cellSet_kept {s0 : State} {s : State} {n : Nat} {v : Nat} {clear : Bool} (h_s : Kept s0 s) : Kept s0 (State.cellSet s n v clear) := by
  unfold State.cellSet
  with_reducible repeat' first | assumption | intro _ | apply State.setF_kept | apply Kept.ite | dsimp only | split

theorem State.cellAdd_kept {s0 : State} {s : State} {n : Nat} {v : Nat} (h_s : Kept s0 s) : Kept s0 (State.cellAdd s n v) := by
  unfold State.cellAdd
  with_reducible repeat' first | assumption | intro _ | apply State.setF_kept | apply Kept.ite | dsimp only | split

theorem State.cellCancel_kept {s0 : State} {s : State} {n : Nat} {v : Nat} (h_s : Kept s0 s) : Kept s0 (State.cellCancel s n v) := by
  unfold State.cellCancel
  with_reducible repeat' first | assumption | intro _ | apply State.setF_kept | apply State.cellAdd_kept | dsimp only | split

/-! ## Machine/Access.lean -/

theorem State.write_kept {s0 : State} {s : State} {m : Nat} {a : Nat} {t : State} (h_s : Kept s0 s) (h_t : Kept s0 t) : KeptR s0 (State.write s m a t) := by
  unfold State.write
  with_reducible repeat' first | assumption | intro _ | apply State.busError_kept | apply KeptR.next | apply KeptR.ite | apply Kept.ite | dsimp only | split

/-! ## Machine/Prov.lean -/

theorem State.provUnit_kept {s0 : State} {s : State} {p : Nat} {bs : List Nat} (h_s : Kept s0 s) : KeptO1 s0 (State.provUnit s p bs) := by
  unfold State.provUnit
  with_reducible repeat' first | assumption | intro _ | apply State.setTrackers_kept | apply KeptO1.none | apply KeptO1.some | apply KeptO.getD | apply KeptO1.ite | apply Kept.ite | apply Kept.fold | apply Kept.fold1 | dsimp only | split | apply Kept.mk

/-! ## Machine/Kv.lean -/

theorem State.clearProv_kept {s0 : State} {s : State} {bs : List Nat} (h_s : Kept s0 s) : Kept s0 (State.clearProv s bs) := by
  unfold State.clearProv
  with_reducible repeat' first | assumption | intro _ | apply State.setTag_kept | apply Kept.ite | apply Kept.fold | apply Kept.fold1 | dsimp only | split

/-! ## Machine/Zetha.lean -/

theorem State.zEnter_kept {s0 : State} {s : State} {p : Nat} {st : Nat} (h_s : Kept s0 s) : Kept s0 (State.zEnter s p st) := by
  unfold State.zEnter
  with_reducible repeat' first | assumption | intro _ | apply State.setF_kept | apply State.setZport_kept | apply Kept.ite | dsimp only | split

theorem State.zCount_kept {s0 : State} {s : State} {p : Nat} {k : Nat} (h_s : Kept s0 s) : Kept s0 (State.zCount s p k) := by
  unfold State.zCount
  with_reducible repeat' first | assumption | intro _ | apply State.bump_kept | dsimp only | split

theorem State.zEvent_kept {s0 : State} {s : State} {p : Nat} {f : Fld} (h_s : Kept s0 s) : Kept s0 (State.zEvent s p f) := by
  unfold State.zEvent
  with_reducible repeat' first | assumption | intro _ | apply State.irqMsg_kept | apply State.setF_kept | dsimp only | split

theorem State.zQueue_kept {s0 : State} {s : State} {p : Nat} {vc : Nat} {msg : List Sys2Proof.Byte} (h_s : Kept s0 s) : Kept s0 (State.zQueue s p vc msg) := by
  unfold State.zQueue
  with_reducible repeat' first | assumption | intro _ | apply State.setZport_kept | dsimp only | split

theorem State.zResolve_kept {s0 : State} {s : State} {a : Nat} (h_s : Kept s0 s) : Kept s0 (State.zResolve s a).1 := by
  unfold State.zResolve
  with_reducible repeat' first | assumption | intro _ | apply State.bump_kept | apply State.zCount_kept | apply Kept.ite1 | apply Kept.ite | dsimp only | split

theorem State.zWaits_kept {s0 : State} {s : State} {e : Nat} {q : Nat} {o : Nat} {isWrite : Bool} {m : Nat} {n : Nat} {data : List Sys2Proof.Byte} (h_s : Kept s0 s) : Kept s0 (State.zWaits s e q o isWrite m n data) := by
  unfold State.zWaits
  with_reducible repeat' first | assumption | intro _ | apply State.setZport_kept | apply Kept.ite | dsimp only | split

theorem State.zWake_kept {s0 : State} {s : State} {q : Nat} (h_s : Kept s0 s) : Kept s0 (State.zWake s q) := by
  unfold State.zWake
  with_reducible repeat' first | assumption | intro _ | apply State.zQueue_kept | apply State.setZport_kept | apply Kept.ite | apply Kept.fold | apply Kept.fold1 | dsimp only | split

theorem State.zRead_kept {s0 : State} {s : State} {a : Nat} {n : Nat} {mover : Nat} {move : Nat} {piece : Nat} {dst : Nat} (h_s : Kept s0 s) : Kept s0 (State.zRead s a n mover move piece dst).1 := by
  unfold State.zRead
  with_reducible repeat' first | assumption | intro _ | apply State.zResolve_kept | apply State.setZport_kept | apply State.zQueue_kept | dsimp only | split

theorem State.zWrite_kept {s0 : State} {s : State} {a : Nat} {data : List Sys2Proof.Byte} {bs : List Nat} {mover : Nat} {move : Nat} {piece : Nat} (h_s : Kept s0 s) : Kept s0 (State.zWrite s a data bs mover move piece).1 := by
  unfold State.zWrite
  extract_lets r
  have hr : Kept s0 r.1 := State.zResolve_kept h_s
  split
  · exact hr
  · rename_i e q he
    extract_lets x
    split
    · rename_i t u num ht hp
      exact State.zQueue_kept (State.setZport_kept (State.provUnit_kept hr _ hp))
    · exact hr

theorem State.zRecv_kept {s0 : State} {s : State} {p : Nat} {ls : List (List (Nat × List Sys2Proof.Byte))} (h_s : Kept s0 s) : Kept s0 (State.zRecv s p ls).1 := by
  unfold State.zRecv
  with_reducible repeat' first | assumption | intro _ | apply State.setZport_kept | dsimp only | split

theorem State.zSend_kept {s0 : State} {s : State} {p : Nat} {flit : List Sys2Proof.Byte} (h_s : Kept s0 s) : Kept s0 (State.zSend s p flit) := by
  unfold State.zSend
  with_reducible repeat' first | assumption | intro _ | apply State.emit_kept | apply State.setZport_kept | apply Kept.ite | dsimp only | split

theorem State.zSlot_kept {s0 : State} {s : State} {p : Nat} (h_s : Kept s0 s) : Kept s0 (State.zSlot s p) := by
  unfold State.zSlot
  with_reducible repeat' first | assumption | intro _ | apply State.zSend_kept | apply State.setZport_kept | apply Kept.ite | dsimp only | split

theorem State.setFill_kept {s0 : State} {s : State} {bs : List Nat} {v : Bool} (h_s : Kept s0 s) : Kept s0 (State.setFill s bs v) := by
  unfold State.setFill
  with_reducible repeat' first | assumption | intro _ | apply State.setTag_kept | apply Kept.fold | apply Kept.fold1 | dsimp only | split

/-! ## Machine/Pcie.lean -/

theorem State.perstBall_kept {s0 : State} {s : State} {p : Nat} (h_s : Kept s0 s) : Kept s0 (State.perstBall s p) := by
  unfold State.perstBall
  with_reducible repeat' first | assumption | intro _ | apply State.emit_kept | apply Kept.ite | dsimp only | split

theorem State.pEvent_kept {s0 : State} {s : State} {p : Nat} {f : Fld} (h_s : Kept s0 s) : Kept s0 (State.pEvent s p f) := by
  unfold State.pEvent
  with_reducible repeat' first | assumption | intro _ | apply State.sense_kept | apply State.setF_kept | dsimp only | split

theorem State.pRead_kept {s0 : State} {s : State} {a : Nat} {n : Nat} {mover : Nat} {move : Nat} {piece : Nat} {dst : Nat} (h_s : Kept s0 s) : Kept s0 (State.pRead s a n mover move piece dst) := by
  unfold State.pRead
  with_reducible repeat' first | assumption | intro _ | apply State.emit_kept | apply State.setPport_kept | apply Kept.ite | dsimp only | split

theorem State.pWrite_kept {s0 : State} {s : State} {a : Nat} {data : List Sys2Proof.Byte} {bs : List Nat} (h_s : Kept s0 s) : Kept s0 (State.pWrite s a data bs) := by
  unfold State.pWrite
  with_reducible repeat' first | assumption | intro _ | apply State.bump_kept | apply State.emit_kept | apply Kept.ite | dsimp only | split

/-! ## Machine/Headbox.lean -/

theorem State.hbxCount_kept {s0 : State} {s : State} {m : Nat} {part : Nat} {a : Nat} (h_s : Kept s0 s) : Kept s0 (State.hbxCount s m part a) := by
  unfold State.hbxCount
  with_reducible repeat' first | assumption | intro _ | apply State.bump_kept | apply Kept.ite | dsimp only | split

theorem State.setHbx_kept {s0 : State} {s : State} {i : Nat} {c : Nat} {x : HbxClass} (h_s : Kept s0 s) : Kept s0 (State.setHbx s i c x) := by
  unfold State.setHbx
  with_reducible repeat' first | assumption | intro _ | dsimp only | split | apply Kept.mk

theorem State.hbxHeldTo_kept {s0 : State} {s : State} {i : Nat} {c : Nat} {u : Nat} (h_s : Kept s0 s) : Kept s0 (State.hbxHeldTo s i c u) := by
  unfold State.hbxHeldTo
  with_reducible repeat' first | assumption | intro _ | apply State.setHbx_kept | apply State.bump_kept | apply Kept.ite | dsimp only | split

theorem State.hbxBoundary_kept {s0 : State} {s : State} {i : Nat} {c : Nat} {renew : Bool} (h_s : Kept s0 s) : Kept s0 (State.hbxBoundary s i c renew) := by
  unfold State.hbxBoundary
  with_reducible repeat' first | assumption | intro _ | apply State.hbxHeldTo_kept | apply State.setHbx_kept | apply State.setF_kept | apply Kept.ite | dsimp only | split

theorem State.hbxSync_kept {s0 : State} {s : State} {i : Nat} {c : Nat} (h_s : Kept s0 s) : Kept s0 (State.hbxSync s i c) := by
  unfold State.hbxSync
  with_reducible repeat' first | assumption | intro _ | apply State.hbxBoundary_kept | dsimp only | split

theorem execHbxWindowBoundary_kept {s0 : State} {i : Nat} {c : Nat} {s : State} (h_s : Kept s0 s) : KeptR s0 (execHbxWindowBoundary i c s) := by
  unfold execHbxWindowBoundary
  with_reducible repeat' first | assumption | intro _ | apply answer_kept | apply State.hbxSync_kept | apply State.start_kept | apply KeptR.next | dsimp only | split

theorem State.hbxSettle_kept {s0 : State} {s : State} (h_s : Kept s0 s) : Kept s0 (State.hbxSettle s) := by
  unfold State.hbxSettle
  with_reducible repeat' first | assumption | intro _ | apply State.hbxSync_kept | apply Kept.fold | apply Kept.fold1 | dsimp only | split

theorem State.hbxStepOne_kept {s0 : State} {s : State} {i : Nat} {c : Nat} (h_s : Kept s0 s) : Kept s0 (State.hbxStepOne s i c) := by
  unfold State.hbxStepOne
  with_reducible repeat' first | assumption | intro _ | apply State.hbxBoundary_kept | apply State.hbxHeldTo_kept | apply State.setHbx_kept | apply KeptO.map | apply KeptO1.map | apply KeptO1.map1 | dsimp only | split

theorem State.hbxStepped_kept {s0 : State} {s : State} (h_s : Kept s0 s) : Kept s0 (State.hbxStepped s) := by
  unfold State.hbxStepped
  with_reducible repeat' first | assumption | intro _ | apply State.hbxStepOne_kept | apply Kept.fold | apply Kept.fold1 | dsimp only | split

theorem State.setHbxQueue_kept {s0 : State} {s : State} {k : Nat} {l : List HbxReq} (h_s : Kept s0 s) : Kept s0 (State.setHbxQueue s k l) := by
  unfold State.setHbxQueue
  with_reducible repeat' first | assumption | intro _ | dsimp only | split | apply Kept.mk

theorem State.hbxCharge_kept {s0 : State} {s : State} {i : Nat} {c : Nat} {t : Nat} {n : Nat} (h_s : Kept s0 s) : Kept s0 (State.hbxCharge s i c t n) := by
  unfold State.hbxCharge
  with_reducible repeat' first | assumption | intro _ | apply State.hbxSync_kept | apply State.setHbx_kept | apply State.setF_kept | apply State.bump_kept | apply Kept.ite | dsimp only | split

theorem State.hbxHold_kept {s0 : State} {s : State} {i : Nat} {c : Nat} {t : Nat} (h_s : Kept s0 s) : Kept s0 (State.hbxHold s i c t) := by
  unfold State.hbxHold
  with_reducible repeat' first | assumption | intro _ | apply State.hbxSync_kept | apply State.setF_kept | apply State.setHbx_kept | apply Kept.ite | dsimp only | split

theorem State.hbxHolds_kept {s0 : State} {s : State} (h_s : Kept s0 s) : Kept s0 (State.hbxHolds s) := by
  unfold State.hbxHolds
  with_reducible repeat' first | assumption | intro _ | apply State.hbxHold_kept | apply Kept.fold | apply Kept.fold1 | dsimp only | split

theorem State.hbxPass_kept {s0 : State} {s : State} {r : HbxReq} (h_s : Kept s0 s) : Kept s0 (State.hbxPass s r) := by
  unfold State.hbxPass
  with_reducible repeat' first | assumption | intro _ | apply State.hbxHolds_kept | apply State.setHbxQueue_kept | apply State.hbxCharge_kept | apply Kept.ite | dsimp only | split

theorem State.hbxNew_kept {s0 : State} {s : State} {m : Nat} {part : Nat} {src : Nat} {a : Nat} {n : Nat} {rd : Bool} (h_s : Kept s0 s) : Kept s0 (State.hbxNew s m part src a n rd) := by
  unfold State.hbxNew
  with_reducible repeat' first | assumption | intro _ | apply State.hbxCount_kept | apply State.hbxPass_kept | apply State.setHbxQueue_kept | apply Kept.ite | dsimp only | split

theorem State.hbxLeave_kept {s0 : State} {s : State} {k : Nat} {j : Nat} {r : HbxReq} (h_s : Kept s0 s) : Kept s0 (State.hbxLeave s k j r) := by
  unfold State.hbxLeave
  with_reducible repeat' first | assumption | intro _ | apply State.setHbxQueue_kept | apply State.hbxPass_kept | dsimp only | split

theorem execHbxRequestForward_kept {s0 : State} {new : Bool} {m : Nat} {part : Nat} {src : Nat} {a : Nat} {n : Nat} {rd : Bool} {k : Nat} {j : Nat} {s : State} (h_s : Kept s0 s) : KeptR s0 (execHbxRequestForward new m part src a n rd k j s) := by
  unfold execHbxRequestForward
  with_reducible repeat' first | assumption | intro _ | apply answer_kept | apply State.hbxNew_kept | apply State.start_kept | apply State.hbxLeave_kept | apply KeptR.next | apply KeptR.ite | apply Kept.ite | dsimp only | split

theorem State.regulate_kept {s0 : State} {s : State} {m : Nat} {part : Nat} {src : Nat} {a : Nat} {n : Nat} (h_s : Kept s0 s) : Kept s0 (State.regulate s m part src a n) := by
  unfold State.regulate
  with_reducible repeat' first | assumption | intro _ | apply State.hbxHolds_kept | apply State.hbxCharge_kept | apply State.hbxCount_kept | apply Kept.ite | apply Kept.fold | apply Kept.fold1 | dsimp only | split

theorem State.regulateRange_kept {s0 : State} {s : State} {m : Nat} {part : Nat} {src : Nat} {r : Nat × Nat} (h_s : Kept s0 s) : Kept s0 (State.regulateRange s m part src r) := by
  unfold State.regulateRange
  with_reducible repeat' first | assumption | intro _ | apply State.regulate_kept | apply Kept.fold | apply Kept.fold1 | dsimp only | split

theorem State.regulateAll_kept {s0 : State} {s : State} {m : Nat} {part : Nat} {src : Nat} {rs : List (Nat × Nat)} (h_s : Kept s0 s) : Kept s0 (State.regulateAll s m part src rs) := by
  unfold State.regulateAll
  with_reducible repeat' first | assumption | intro _ | apply State.regulateRange_kept | apply Kept.fold | apply Kept.fold1 | dsimp only | split

theorem State.regulateWrites_kept {s0 : State} {s : State} {m : Nat} {part : Nat} {src : Nat} {ws : List (Sys2Proof.Addr × Sys2Proof.Byte)} (h_s : Kept s0 s) : Kept s0 (State.regulateWrites s m part src ws) := by
  unfold State.regulateWrites
  with_reducible repeat' first | assumption | intro _ | apply State.regulate_kept | apply Kept.fold | apply Kept.fold1 | dsimp only | split

theorem State.gated_kept {s0 : State} {s : State} {m : Nat} {src : Nat} {a : Nat} {n : Nat} {rd : Bool} {mv : Nat} {t : State} (h_s : Kept s0 s) (h_t : Kept s0 t) : Kept s0 (State.gated s m src a n rd mv t) := by
  unfold State.gated
  with_reducible repeat' first | assumption | intro _ | apply State.say_kept | apply State.hbxNew_kept | apply State.regulate_kept | apply Kept.ite | dsimp only | split

theorem State.followed_kept {s0 : State} {s : State} {x0 : After} (h_s : Kept s0 s) : Kept s0 (State.followed s x0) := by
  unfold State.followed
  with_reducible repeat' first | assumption | intro _ | apply State.irqMsg_kept | apply State.setF_kept | apply State.cellCancel_kept | apply State.cellAdd_kept | apply Kept.ite | dsimp only | split

theorem State.landOne_kept {s0 : State} {s : State} {x : Late} (h_s : Kept s0 s) : Kept s0 (State.landOne s x) := by
  unfold State.landOne
  with_reducible repeat' first | assumption | intro _ | apply State.followed_kept | apply State.store_kept | apply State.regulateRange_kept | dsimp only | split

theorem State.putThen_kept {s0 : State} {s : State} {x : Late} (h_s : Kept s0 s) : Kept s0 (State.putThen s x) := by
  unfold State.putThen
  with_reducible repeat' first | assumption | intro _ | apply State.landOne_kept | apply Kept.ite | dsimp only | split | apply Kept.mk

theorem State.put_kept {s0 : State} {s : State} {writer : Nat} {a : Nat} {bs : List Sys2Proof.Byte} (h_s : Kept s0 s) : Kept s0 (State.put s writer a bs) := by
  unfold State.put
  with_reducible repeat' first | assumption | intro _ | apply State.putThen_kept | dsimp only | split

theorem State.unitRead_kept {s0 : State} {s : State} {m : Nat} {a : Nat} {n : Nat} (h_s : Kept s0 s) : Kept s0 (State.unitRead s m a n) := by
  unfold State.unitRead
  with_reducible repeat' first | assumption | intro _ | apply State.regulateRange_kept | dsimp only | split

theorem State.landLate_kept {s0 : State} {s : State} (h_s : Kept s0 s) : Kept s0 (State.landLate s) := by
  unfold State.landLate
  with_reducible repeat' first | assumption | intro _ | apply State.putThen_kept | apply Kept.fold | apply Kept.fold1 | dsimp only | split | apply Kept.mk

theorem State.hbxLatency_kept {s0 : State} {s : State} {i : Nat} {c : Nat} {lat : Nat} (h_s : Kept s0 s) : Kept s0 (State.hbxLatency s i c lat) := by
  unfold State.hbxLatency
  with_reducible repeat' first | assumption | intro _ | apply State.setF_kept | apply State.setHbx_kept | dsimp only | split

theorem execHbxReadComplete_kept {s0 : State} {k : Nat} {j : Nat} {s : State} (h_s : Kept s0 s) : KeptR s0 (execHbxReadComplete k j s) := by
  unfold execHbxReadComplete
  with_reducible repeat' first | assumption | intro _ | apply answer_kept | apply State.hbxSync_kept | apply State.setHbxQueue_kept | apply State.start_kept | apply State.hbxLatency_kept | apply KeptR.next | dsimp only | split

theorem execHbxAgeRaise_kept {s0 : State} {k : Nat} {j : Nat} {s : State} (h_s : Kept s0 s) : KeptR s0 (execHbxAgeRaise k j s) := by
  unfold execHbxAgeRaise
  with_reducible repeat' first | assumption | intro _ | apply answer_kept | apply State.bump_kept | apply State.setHbxQueue_kept | apply State.start_kept | apply KeptR.next | dsimp only | split

theorem State.hbxShow_kept {s0 : State} {s : State} {i : Nat} {c : Nat} (h_s : Kept s0 s) : Kept s0 (State.hbxShow s i c) := by
  unfold State.hbxShow
  with_reducible repeat' first | assumption | intro _ | apply State.hbxSync_kept | apply State.hbxHeldTo_kept | apply State.setF_kept | dsimp only | split

theorem State.hbxHeldWrite_kept {s0 : State} {s : State} {a : Nat} {w : Sys2Proof.Word} (h_s : Kept s0 s) : Kept s0 (State.hbxHeldWrite s a w) := by
  unfold State.hbxHeldWrite
  with_reducible repeat' first | assumption | intro _ | apply State.setF_kept | apply State.hold_kept | apply Kept.ite | dsimp only | split

theorem State.hbxMatchWrite_kept {s0 : State} {s : State} {e : Nat} {w : Sys2Proof.Word} (h_s : Kept s0 s) : Kept s0 (State.hbxMatchWrite s e w) := by
  unfold State.hbxMatchWrite
  with_reducible repeat' first | assumption | intro _ | apply State.setF_kept | apply State.wr_kept | apply State.unhold_kept | apply Kept.ite | dsimp only | split | apply Kept.mk

theorem execHbxMatchCtrlWrite_kept {s0 : State} {m : Nat} {e : Nat} {v : Nat} {s : State} (h_s : Kept s0 s) : KeptR s0 (execHbxMatchCtrlWrite m e v s) := by
  unfold execHbxMatchCtrlWrite
  with_reducible repeat' first | assumption | intro _ | apply State.write_kept | apply State.hbxMatchWrite_kept | apply State.start_kept | apply KeptR.next | dsimp only | split

theorem State.hbxCopied_kept {s0 : State} {s : State} (h_s : Kept s0 s) : Kept s0 (State.hbxCopied s) := by
  unfold State.hbxCopied
  with_reducible repeat' first | assumption | intro _ | apply State.setF_kept | dsimp only | split | apply Kept.mk

theorem execHbxTableCopyDone_kept {s0 : State} {s : State} (h_s : Kept s0 s) : KeptR s0 (execHbxTableCopyDone s) := by
  unfold execHbxTableCopyDone
  with_reducible repeat' first | assumption | intro _ | apply answer_kept | apply State.hbxCopied_kept | apply State.start_kept | apply KeptR.next | dsimp only | split

theorem State.hbxKeep_kept {s0 : State} {s : State} {i : Nat} {c : Nat} (h_s : Kept s0 s) : Kept s0 (State.hbxKeep s i c) := by
  unfold State.hbxKeep
  with_reducible repeat' first | assumption | intro _ | apply State.hbxSync_kept | apply State.setHbx_kept | dsimp only | split

theorem State.hbxClassWrite_kept {s0 : State} {s : State} {i : Nat} {c : Nat} {k : Nat} {w : Sys2Proof.Word} (h_s : Kept s0 s) : Kept s0 (State.hbxClassWrite s i c k w) := by
  unfold State.hbxClassWrite
  with_reducible repeat' first | assumption | intro _ | apply State.wr_kept | apply State.hbxKeep_kept | apply Kept.ite | dsimp only | split

theorem execHbxClassWrite_kept {s0 : State} {m : Nat} {i : Nat} {c : Nat} {k : Nat} {v : Nat} {s : State} (h_s : Kept s0 s) : KeptR s0 (execHbxClassWrite m i c k v s) := by
  unfold execHbxClassWrite
  with_reducible repeat' first | assumption | intro _ | apply answer_kept | apply State.write_kept | apply State.hbxClassWrite_kept | apply State.start_kept | apply KeptR.next | apply KeptR.ite | apply Kept.ite | dsimp only | split

/-! ## Machine/Moves.lean -/

theorem State.fillEnd_kept {s0 : State} {s : State} {bs : List Nat} {cause : Nat} {abandoned : Bool} (h_s : Kept s0 s) : Kept s0 (State.fillEnd s bs cause abandoned) := by
  unfold State.fillEnd
  with_reducible repeat' first | assumption | intro _ | apply State.setFill_kept | apply State.landLate_kept | apply State.bump_kept | apply Kept.fold | apply Kept.fold1 | dsimp only | split | apply Kept.mk

theorem State.wakeClusters_kept {s0 : State} {s : State} {bs : List Nat} {cause : Nat} (h_s : Kept s0 s) : Kept s0 (State.wakeClusters s bs cause) := by
  unfold State.wakeClusters
  with_reducible repeat' first | assumption | intro _ | apply State.bump_kept | apply Kept.fold | apply Kept.fold1 | dsimp only | split | apply Kept.mk

theorem State.wake_kept {s0 : State} {s : State} {bs : List Nat} {cause : Nat} (h_s : Kept s0 s) : Kept s0 (State.wake s bs cause) := by
  unfold State.wake
  with_reducible repeat' first | assumption | intro _ | apply State.wakeClusters_kept | apply State.fillEnd_kept | dsimp only | split

/-! ## Machine/Pool.lean -/

theorem State.setRefs_kept {s0 : State} {s : State} {p : Nat} {sh : Nat} {v : Nat} (h_s : Kept s0 s) : Kept s0 (State.setRefs s p sh v) := by
  unfold State.setRefs
  with_reducible repeat' first | assumption | intro _ | apply State.put_kept | dsimp only | split

theorem State.incRef_kept {s0 : State} {s : State} {p : Nat} {sh : Nat} (h_s : Kept s0 s) : Kept s0 (State.incRef s p sh) := by
  unfold State.incRef
  with_reducible repeat' first | assumption | intro _ | apply State.setRefs_kept | apply State.setF_kept | apply Kept.ite | dsimp only | split

theorem State.pushSheet_kept {s0 : State} {s : State} {p : Nat} {sh : Nat} (h_s : Kept s0 s) : Kept s0 (State.pushSheet s p sh) := by
  unfold State.pushSheet
  with_reducible repeat' first | assumption | intro _ | apply State.setF_kept | apply State.put_kept | dsimp only | split

theorem State.decRef_kept {s0 : State} {s : State} {p : Nat} {sh : Nat} (h_s : Kept s0 s) : Kept s0 (State.decRef s p sh) := by
  unfold State.decRef
  with_reducible repeat' first | assumption | intro _ | apply State.setRefs_kept | apply State.pushSheet_kept | apply Kept.ite | dsimp only | split

theorem State.popSheet_kept {s0 : State} {s : State} {p : Nat} (h_s : Kept s0 s) : KeptO1 s0 (State.popSheet s p) := by
  unfold State.popSheet
  with_reducible repeat' first | assumption | intro _ | apply State.setRefs_kept | apply State.setF_kept | apply KeptO1.none | apply KeptO1.some | apply KeptO1.ite | apply Kept.ite | dsimp only | split

theorem State.initPool_kept {s0 : State} {s : State} {p : Nat} (h_s : Kept s0 s) : Kept s0 (State.initPool s p) := by
  unfold State.initPool
  with_reducible repeat' first | assumption | intro _ | apply State.put_kept | apply State.setF_kept | dsimp only | split

theorem State.writeEntry_kept {s0 : State} {s : State} {a : Nat} {sh : Option Nat} (h_s : Kept s0 s) : Kept s0 (State.writeEntry s a sh) := by
  unfold State.writeEntry
  with_reducible repeat' first | assumption | intro _ | apply State.put_kept | dsimp only | split

theorem State.takeCow_kept {s0 : State} {s : State} {c : CowCopy} (h_s : Kept s0 s) : Kept s0 (State.takeCow s c) := by
  unfold State.takeCow
  with_reducible repeat' first | assumption | intro _ | apply State.setFill_kept | apply Kept.ite | dsimp only | split | apply Kept.mk

theorem State.startCows_kept {s0 : State} {s : State} (h_s : Kept s0 s) : Kept s0 (State.startCows s) := by
  unfold State.startCows
  with_reducible repeat' first | assumption | intro _ | apply State.takeCow_kept | apply Kept.fold | apply Kept.fold1 | dsimp only | split

theorem State.startCow_kept {s0 : State} {s : State} {p : Nat} {sl : Nat} {entry : Nat} {old : Nat} {cut : Nat} (h_s : Kept s0 s) : KeptO1 s0 (State.startCow s p sl entry old cut) := by
  unfold State.startCow
  repeat' first | with_reducible assumption | with_reducible intro _ | with_reducible apply State.popSheet_kept | (refine State.popSheet_kept ?_ (_, _) (by with_reducible assumption)) | with_reducible apply KeptO1.none | with_reducible apply KeptO1.some | with_reducible apply KeptO.map | with_reducible apply KeptO1.map | with_reducible apply KeptO1.map1 | dsimp only | split | with_reducible apply Kept.mk

theorem State.copyBlock_kept {s0 : State} {s : State} {m : Nat} {part : Nat} {die : Nat} {b : Nat} {n : Nat} (h_s : Kept s0 s) : Kept s0 (State.copyBlock s m part die b n) := by
  unfold State.copyBlock
  with_reducible repeat' first | assumption | intro _ | apply State.checkRead_kept | apply State.regulate_kept | apply State.putAll_kept | apply State.setTag_kept | apply State.forgetChecked_kept | dsimp only | split

theorem State.zeroFrom_kept {s0 : State} {s : State} {sh : Nat} {cut : Nat} (h_s : Kept s0 s) : Kept s0 (State.zeroFrom s sh cut) := by
  unfold State.zeroFrom
  with_reducible repeat' first | assumption | intro _ | apply State.put_kept | apply Kept.fold | apply Kept.fold1 | dsimp only | split

theorem State.endCow_kept {s0 : State} {s : State} {c : CowCopy} (h_s : Kept s0 s) : Kept s0 (State.endCow s c) := by
  unfold State.endCow
  with_reducible repeat' first | assumption | intro _ | apply State.copyBlock_kept | apply State.bump_kept | apply State.decRef_kept | apply State.writeEntry_kept | apply State.zeroFrom_kept | apply Kept.fold | apply Kept.fold1 | dsimp only | split | apply Kept.mk

theorem State.finishCow_kept {s0 : State} {s : State} {c : CowCopy} (h_s : Kept s0 s) : Kept s0 (State.finishCow s c) := by
  unfold State.finishCow
  with_reducible repeat' first | assumption | intro _ | apply State.startCows_kept | apply State.wake_kept | apply State.endCow_kept | dsimp only | split

theorem State.finishCows_kept {s0 : State} {s : State} {p : Nat} (h_s : Kept s0 s) : Kept s0 (State.finishCows s p) := by
  unfold State.finishCows
  with_reducible repeat' first | assumption | intro _ | apply State.finishCow_kept | apply Kept.fold | apply Kept.fold1 | dsimp only | split

theorem State.copyNow_kept {s0 : State} {s : State} {p : Nat} {sl : Nat} {entry : Nat} {old : Nat} (h_s : Kept s0 s) : KeptO s0 (State.copyNow s p sl entry old) := by
  unfold State.copyNow
  repeat' first | with_reducible assumption | with_reducible intro _ | with_reducible apply State.endCow_kept | with_reducible apply State.startCow_kept | (refine State.startCow_kept ?_ (_, _) (by with_reducible assumption)) | with_reducible apply KeptO.none | with_reducible apply KeptO.some | with_reducible apply KeptO.map | with_reducible apply KeptO1.map | with_reducible apply KeptO1.map1 | dsimp only | split

theorem State.ownSheet_kept {s0 : State} {s : State} {o : Op} {e : Nat × Nat × Nat} (h_s : Kept s0 s) : Kept s0 (State.ownSheet s o e) := by
  unfold State.ownSheet
  repeat' first | with_reducible assumption | with_reducible intro _ | with_reducible apply State.finishCow_kept | with_reducible apply State.copyNow_kept | (refine State.copyNow_kept ?_ _ (by with_reducible assumption)) | with_reducible apply KeptO.getD | with_reducible apply Kept.ite | with_reducible apply Kept.fold | with_reducible apply Kept.fold1 | dsimp only | split

theorem State.ownSheets_kept {s0 : State} {s : State} {o : Op} (h_s : Kept s0 s) : Kept s0 (State.ownSheets s o) := by
  unfold State.ownSheets
  with_reducible repeat' first | assumption | intro _ | apply State.ownSheet_kept | apply Kept.ite | apply Kept.fold | apply Kept.fold1 | dsimp only | split

theorem State.poisonOut_kept {s0 : State} {s : State} {o : Op} (h_s : Kept s0 s) : Kept s0 (State.poisonOut s o) := by
  unfold State.poisonOut
  with_reducible repeat' first | assumption | intro _ | apply State.ownSheets_kept | apply State.poisonWith_kept | dsimp only | split

/-! ## Machine/Quire.lean -/

theorem QuiRes.refuse_kept {s0 : State} {s : State} {c : Nat} (h_s : Kept s0 s) : Kept s0 (QuiRes.refuse s c).st := by
  unfold QuiRes.refuse
  with_reducible repeat' first | assumption | intro _ | dsimp only | split

theorem State.unmapAll_kept {s0 : State} {s : State} {p : Nat} {as : List Nat} (h_s : Kept s0 s) : Kept s0 (State.unmapAll s p as).1 := by
  unfold State.unmapAll
  with_reducible repeat' first | assumption | intro _ | apply State.decRef_kept | apply State.writeEntry_kept | apply Kept.fold | apply Kept.fold1 | dsimp only | split

theorem State.releaseSlot_kept {s0 : State} {s : State} {n : Nat} (h_s : Kept s0 s) : Kept s0 (State.releaseSlot s n) := by
  unfold State.releaseSlot
  with_reducible repeat' first | assumption | intro _ | apply State.decRef_kept | apply State.setSlot_kept | apply Kept.ite | apply Kept.fold | apply Kept.fold1 | dsimp only | split

theorem State.leaveBatch_kept {s0 : State} {s : State} {n : Nat} (h_s : Kept s0 s) : Kept s0 (State.leaveBatch s n) := by
  unfold State.leaveBatch
  with_reducible repeat' first | assumption | intro _ | apply State.setSlot_kept | dsimp only | split

theorem State.quiPut_kept {s0 : State} {s : State} {a : Nat} {bs : List Sys2Proof.Byte} (h_s : Kept s0 s) : Kept s0 (State.quiPut s a bs) := by
  unfold State.quiPut
  with_reducible repeat' first | assumption | intro _ | apply State.put_kept | dsimp only | split

theorem State.becomeMember_kept {s0 : State} {s : State} {n : Nat} (h_s : Kept s0 s) : Kept s0 (State.becomeMember s n) := by
  unfold State.becomeMember
  with_reducible repeat' first | assumption | intro _ | apply State.setSlot_kept | apply State.quiPut_kept | apply Kept.ite | dsimp only | split

theorem State.loseStreams_kept {s0 : State} {s : State} {clu : Nat} (h_s : Kept s0 s) : Kept s0 (State.loseStreams s clu) := by
  unfold State.loseStreams
  with_reducible repeat' first | assumption | intro _ | apply State.setSlot_kept | apply Kept.ite | apply Kept.fold | apply Kept.fold1 | dsimp only | split

theorem State.mapFresh_kept {s0 : State} {s : State} {p : Nat} {as : List Nat} (h_s : Kept s0 s) : Kept s0 (State.mapFresh s p as) := by
  unfold State.mapFresh
  repeat' first | with_reducible assumption | with_reducible intro _ | with_reducible apply State.popSheet_kept | (refine State.popSheet_kept ?_ (_, _) (by with_reducible assumption)) | with_reducible apply State.writeEntry_kept | with_reducible apply Kept.fold | with_reducible apply Kept.fold1 | dsimp only | split

theorem State.enterStep_kept {s0 : State} {s : State} {p : Nat} {n : Nat} (h_s : Kept s0 s) : Kept s0 (State.enterStep s p n).1 := by
  unfold State.enterStep
  with_reducible repeat' first | assumption | intro _ | apply State.setSlot_kept | apply State.bump_kept | apply State.mapFresh_kept | apply Kept.ite1 | apply Kept.ite | dsimp only | split

theorem State.enterAll_kept {s0 : State} {p : Nat} : ∀ {l : List Nat} {s : State}, Kept s0 s → Kept s0 (State.enterAll s p l).1
  | [], _, h => h
  | n :: l, s, h => by
    unfold State.enterAll
    repeat' first | with_reducible assumption | with_reducible apply State.enterAll_kept | with_reducible apply State.enterStep_kept | with_reducible apply Kept.ite1 | dsimp only

theorem State.stepBegin_kept {s0 : State} {s : State} {p : Nat} {b : Nat} {ready : Option (Nat × Nat)} {armed : Option (Nat × Nat)} (h_s : Kept s0 s) : Kept s0 (State.stepBegin s p b ready armed).1 := by
  unfold State.stepBegin
  with_reducible repeat' first | assumption | intro _ | apply State.becomeMember_kept | apply State.enterAll_kept | apply State.setBatch_kept | apply State.quiPut_kept | apply State.setSlot_kept | apply State.cellAdd_kept | apply Kept.ite1 | apply Kept.ite | apply Kept.fold | apply Kept.fold1 | dsimp only | split

theorem State.closeRow_kept {s0 : State} {s : State} {commit : Bool} {n : Nat} {tok : Nat} (h_s : Kept s0 s) : Kept s0 (State.closeRow s commit n tok) := by
  unfold State.closeRow
  with_reducible repeat' first | assumption | intro _ | apply State.setSlot_kept | apply State.leaveBatch_kept | apply State.releaseSlot_kept | apply Kept.ite | dsimp only | split

theorem State.closeStep_kept {s0 : State} {s : State} {b : Nat} {commit : Bool} (h_s : Kept s0 s) : Kept s0 (State.closeStep s b commit) := by
  unfold State.closeStep
  with_reducible repeat' first | assumption | intro _ | apply State.closeRow_kept | apply State.setBatch_kept | apply Kept.fold | apply Kept.fold1 | dsimp only | split

theorem State.setSvc_kept {s0 : State} {s : State} {n : Nat} {v : Nat} (h_s : Kept s0 s) : Kept s0 (State.setSvc s n v) := by
  unfold State.setSvc
  with_reducible repeat' first | assumption | intro _ | apply State.setF_kept | dsimp only | split

theorem State.startDrains_kept {s0 : State} {s : State} (h_s : Kept s0 s) : Kept s0 (State.startDrains s) := by
  unfold State.startDrains
  with_reducible repeat' first | assumption | intro _ | apply State.setSvc_kept | apply State.setCl_kept | apply Kept.ite | apply Kept.fold | apply Kept.fold1 | dsimp only | split

theorem State.closeBatch_kept {s0 : State} {s : State} {b : Nat} (h_s : Kept s0 s) : Kept s0 (State.closeBatch s b) := by
  unfold State.closeBatch
  with_reducible repeat' first | assumption | intro _ | apply State.startDrains_kept | apply State.setBatch_kept | apply State.leaveBatch_kept | apply Kept.fold | apply Kept.fold1 | dsimp only | split

theorem State.releaseObject_kept {s0 : State} {s : State} {h : Nat} (h_s : Kept s0 s) : Kept s0 (State.releaseObject s h) := by
  unfold State.releaseObject
  with_reducible repeat' first | assumption | intro _ | apply State.finishCows_kept | apply State.closeBatch_kept | apply State.closeStep_kept | apply State.releaseSlot_kept | apply Kept.ite | apply Kept.fold | apply Kept.fold1 | dsimp only | split

theorem State.quiAct_kept {s0 : State} {t : State} {p op : Nat} {f : State → QuiRes} (hf : ∀ u, Kept s0 u → Kept s0 (f u).st)
    (h : Kept s0 t) : Kept s0 (State.quiAct t p op f) := by
  unfold State.quiAct
  exact State.setF_kept (State.setQuiCmd_kept (hf _ (State.finishCows_kept h)))

theorem State.quiSend_kept {s0 : State} {t : State} {p op : Nat} {f : State → QuiRes} (hf : ∀ u, Kept s0 u → Kept s0 (f u).st)
    (h : Kept s0 t) : Kept s0 (State.quiSend t p op f) := by
  unfold State.quiSend
  exact .ite (State.setF_kept h) (.ite (State.setF_kept (State.setQuiCmd_kept h)) (State.quiAct_kept hf h))

/-! ## Machine/QuireCmds.lean -/

theorem State.zeroTable_kept {s0 : State} {s : State} {a : Nat} {layers : Nat} {maxPages : Nat} (h_s : Kept s0 s) : Kept s0 (State.zeroTable s a layers maxPages) := by
  unfold State.zeroTable
  with_reducible repeat' first | assumption | intro _ | apply State.quiPut_kept | dsimp only | split

theorem State.quiAdmit_kept {s0 : State} {s : State} {p : Nat} (h_s : Kept s0 s) : Kept s0 (State.quiAdmit s p).st := by
  unfold State.quiAdmit
  with_reducible repeat' first | assumption | intro _ | apply QuiRes.refuse_kept | apply State.setSlot_kept | apply State.zeroTable_kept | apply Kept.ite1 | apply Kept.ite | dsimp only | split

theorem State.quiAdmitStream_kept {s0 : State} {s : State} {p : Nat} (h_s : Kept s0 s) : Kept s0 (State.quiAdmitStream s p).st := by
  unfold State.quiAdmitStream
  with_reducible repeat' first | assumption | intro _ | apply QuiRes.refuse_kept | apply State.setSlot_kept | apply Kept.ite1 | apply Kept.ite | dsimp only | split

theorem State.quiRelease_kept {s0 : State} {s : State} {p : Nat} (h_s : Kept s0 s) : Kept s0 (State.quiRelease s p).st := by
  unfold State.quiRelease
  with_reducible repeat' first | assumption | intro _ | apply QuiRes.refuse_kept | apply State.setSlot_kept | apply State.releaseSlot_kept | apply Kept.ite1 | apply Kept.ite | dsimp only | split

theorem State.sharePages_kept {s0 : State} {s : State} {p : Nat} {src : Slot} {dst : Slot} {pages : Nat} (h_s : Kept s0 s) : Kept s0 (State.sharePages s p src dst pages).1 := by
  unfold State.sharePages
  with_reducible repeat' first | assumption | intro _ | apply State.incRef_kept | apply State.writeEntry_kept | apply Kept.fold | apply Kept.fold1 | dsimp only | split

theorem State.quiFork_kept {s0 : State} {s : State} {p : Nat} (h_s : Kept s0 s) : Kept s0 (State.quiFork s p).st := by
  unfold State.quiFork
  with_reducible repeat' first | assumption | intro _ | apply QuiRes.refuse_kept | apply State.sharePages_kept | apply State.setSlot_kept | apply State.zeroTable_kept | apply Kept.ite1 | apply Kept.ite | dsimp only | split

theorem State.quiMap_kept {s0 : State} {s : State} {p : Nat} (h_s : Kept s0 s) : Kept s0 (State.quiMap s p).st := by
  unfold State.quiMap
  repeat' first | with_reducible assumption | with_reducible intro _ | with_reducible apply QuiRes.refuse_kept | with_reducible apply State.popSheet_kept | (refine State.popSheet_kept ?_ (_, _) (by with_reducible assumption)) | with_reducible apply State.writeEntry_kept | with_reducible apply State.bump_kept | with_reducible apply State.incRef_kept | with_reducible apply Kept.ite1 | with_reducible apply Kept.ite | dsimp only | split

theorem State.cutPage_kept {s0 : State} {s : State} {p : Nat} {n : Nat} {a : Nat} {cut : Nat} (h_s : Kept s0 s) : KeptO s0 (State.cutPage s p n a cut) := by
  unfold State.cutPage
  repeat' first | with_reducible assumption | with_reducible intro _ | with_reducible apply State.startCow_kept | (refine State.startCow_kept ?_ (_, _) (by with_reducible assumption)) | with_reducible apply State.zeroFrom_kept | with_reducible apply KeptO.none | with_reducible apply KeptO.some | with_reducible apply KeptO.map | with_reducible apply KeptO1.map | with_reducible apply KeptO1.map1 | with_reducible apply KeptO.ite | with_reducible apply Kept.ite | dsimp only | split

theorem State.quiTruncate_kept {s0 : State} {s : State} {p : Nat} (h_s : Kept s0 s) : Kept s0 (State.quiTruncate s p).st := by
  have fold : ∀ (l : List Nat) (o : Option State) (n cut : Nat), KeptO s0 o →
      KeptO s0 (l.foldl (fun acc a => acc.bind (fun t => t.cutPage p n a cut)) o) := by
    intro l
    induction l with
    | nil => exact fun _ _ _ h => h
    | cons a l ih =>
      intro o n cut h
      refine ih _ _ _ ?_
      intro t e
      cases o with
      | none => cases e
      | some u => exact State.cutPage_kept (h u rfl) t e
  unfold State.quiTruncate
  extract_lets n new
  split
  · exact h_s
  · split
    · exact h_s
    · split
      · exact h_s
      · extract_lets r cut part
        have hr : Kept s0 r.1 := State.unmapAll_kept h_s
        split
        · rename_i t e
          exact State.setSlot_kept (State.startCows_kept (fold _ _ _ _ (.some hr) t e))
        · exact State.bump_kept h_s

theorem State.quiRetain_kept {s0 : State} {s : State} {p : Nat} (h_s : Kept s0 s) : Kept s0 (State.quiRetain s p).st := by
  delta State.quiRetain
  extract_lets sh
  split
  · exact h_s
  · split
    · exact h_s
    · exact State.incRef_kept h_s

theorem State.quiDrop_kept {s0 : State} {s : State} {p : Nat} (h_s : Kept s0 s) : Kept s0 (State.quiDrop s p).st := by
  delta State.quiDrop
  extract_lets sh
  split
  · exact h_s
  · split
    · exact h_s
    · split
      · exact h_s
      · exact State.decRef_kept h_s

theorem State.quiBatchOpen_kept {s0 : State} {s : State} {p : Nat} (h_s : Kept s0 s) : Kept s0 (State.quiBatchOpen s p).st := by
  unfold State.quiBatchOpen
  with_reducible repeat' first | assumption | intro _ | apply QuiRes.refuse_kept | apply State.setBatch_kept | apply Kept.ite1 | apply Kept.ite | dsimp only | split

theorem State.quiBatchClose_kept {s0 : State} {s : State} {p : Nat} (h_s : Kept s0 s) : Kept s0 (State.quiBatchClose s p).st := by
  unfold State.quiBatchClose
  with_reducible repeat' first | assumption | intro _ | apply QuiRes.refuse_kept | apply State.closeBatch_kept | apply Kept.ite1 | apply Kept.ite | dsimp only | split

theorem State.quiJoin_kept {s0 : State} {s : State} {p : Nat} (h_s : Kept s0 s) : Kept s0 (State.quiJoin s p).st := by
  unfold State.quiJoin
  with_reducible repeat' first | assumption | intro _ | apply QuiRes.refuse_kept | apply State.setSlot_kept | apply State.becomeMember_kept | apply Kept.ite1 | apply Kept.ite | dsimp only | split

theorem State.quiLeave_kept {s0 : State} {s : State} {p : Nat} (h_s : Kept s0 s) : Kept s0 (State.quiLeave s p).st := by
  unfold State.quiLeave
  with_reducible repeat' first | assumption | intro _ | apply QuiRes.refuse_kept | apply State.setSlot_kept | apply State.leaveBatch_kept | apply Kept.ite1 | apply Kept.ite | dsimp only | split

theorem State.quiStepBegin_kept {s0 : State} {s : State} {p : Nat} (h_s : Kept s0 s) : Kept s0 (State.quiStepBegin s p).st := by
  unfold State.quiStepBegin
  with_reducible repeat' first | assumption | intro _ | apply QuiRes.refuse_kept | apply State.stepBegin_kept | apply Kept.ite1 | apply Kept.ite | dsimp only | split

theorem State.quiClose_kept {s0 : State} {s : State} {p : Nat} {commit : Bool} (h_s : Kept s0 s) : Kept s0 (State.quiClose s p commit).st := by
  unfold State.quiClose
  with_reducible repeat' first | assumption | intro _ | apply QuiRes.refuse_kept | apply State.closeStep_kept | apply Kept.ite1 | apply Kept.ite | dsimp only | split

theorem State.quiExport_kept {s0 : State} {s : State} {p : Nat} (h_s : Kept s0 s) : Kept s0 (State.quiExport s p).st := by
  unfold State.quiExport
  with_reducible repeat' first | assumption | intro _ | apply QuiRes.refuse_kept | apply State.quiPut_kept | apply Kept.ite1 | apply Kept.ite | dsimp only | split

theorem State.quiImport_kept {s0 : State} {s : State} {p : Nat} (h_s : Kept s0 s) : Kept s0 (State.quiImport s p).st := by
  unfold State.quiImport
  with_reducible repeat' first | assumption | intro _ | apply QuiRes.refuse_kept | apply State.tookFree_kept | apply State.quiPut_kept | apply State.setSlot_kept | apply Kept.ite1 | apply Kept.ite | dsimp only | split

theorem execArmedCommit_kept {s0 : State} {b : Nat} {s : State} (h_s : Kept s0 s) : KeptR s0 (execArmedCommit b s) := by
  unfold execArmedCommit
  with_reducible repeat' first | assumption | intro _ | apply answer_kept | apply State.closeStep_kept | apply State.finishCows_kept | apply State.start_kept | apply State.setF_kept | apply State.setQuiCmd_kept | apply KeptR.next | apply KeptR.ite | apply Kept.ite | dsimp only | split

theorem execQuireCommandDone_kept {s0 : State} {p : Nat} {s : State} (h_s : Kept s0 s) : KeptR s0 (execQuireCommandDone p s) := by
  unfold execQuireCommandDone
  with_reducible repeat' first | assumption | intro _ | apply answer_kept | apply State.setF_kept | apply State.setQuiCmd_kept | apply State.start_kept | apply State.irqMsg_kept | apply KeptR.next | apply KeptR.ite | apply Kept.ite | dsimp only | split

theorem State.quiEffect_kept {s0 : State} {s : State} {p : Nat} {op : Nat} (h_s : Kept s0 s) : Kept s0 (State.quiEffect s p op).st := by
  unfold State.quiEffect
  with_reducible repeat' first | assumption | intro _ | apply QuiRes.refuse_kept | apply State.quiAdmit_kept | apply State.quiAdmitStream_kept | apply State.quiRelease_kept | apply State.quiFork_kept | apply State.quiMap_kept | apply State.quiTruncate_kept | apply State.quiRetain_kept | apply State.quiDrop_kept | apply State.quiBatchOpen_kept | apply State.quiBatchClose_kept | apply State.quiJoin_kept | apply State.quiLeave_kept | apply State.quiStepBegin_kept | apply State.quiClose_kept | apply State.quiExport_kept | apply State.quiImport_kept | apply Kept.ite1 | apply Kept.ite | dsimp only | split

theorem State.quiGo_kept {s0 : State} {s : State} {p : Nat} {op : Nat} (h_s : Kept s0 s) : Kept s0 (State.quiGo s p op) :=
  State.quiSend_kept (fun _ h => State.quiEffect_kept h) h_s

theorem State.quiWake_kept {s0 : State} {s : State} {p : Nat} (h_s : Kept s0 s) : Kept s0 (State.quiWake s p) := by
  unfold State.quiWake
  split
  · exact .ite (State.quiAct_kept (fun _ h => State.quiEffect_kept h) h_s) h_s
  · exact h_s

theorem State.quiWakes_kept {s0 : State} {s : State} (h_s : Kept s0 s) : Kept s0 (State.quiWakes s) := by
  unfold State.quiWakes
  with_reducible repeat' first | assumption | intro _ | apply State.quiWake_kept | apply Kept.fold | apply Kept.fold1 | dsimp only | split

theorem execQuiAdmit_kept {s0 : State} {m : Nat} {p : Nat} {s : State} (h_s : Kept s0 s) : KeptR s0 (execQuiAdmit m p s) := by
  unfold execQuiAdmit
  with_reducible repeat' first | assumption | intro _ | apply State.write_kept | apply State.quiGo_kept | apply State.start_kept | apply KeptR.next | dsimp only | split

theorem execAdmitStream_kept {s0 : State} {m : Nat} {p : Nat} {s : State} (h_s : Kept s0 s) : KeptR s0 (execAdmitStream m p s) := by
  unfold execAdmitStream
  with_reducible repeat' first | assumption | intro _ | apply State.write_kept | apply State.quiGo_kept | apply State.start_kept | apply KeptR.next | dsimp only | split

theorem execQuiRelease_kept {s0 : State} {m : Nat} {p : Nat} {s : State} (h_s : Kept s0 s) : KeptR s0 (execQuiRelease m p s) := by
  unfold execQuiRelease
  with_reducible repeat' first | assumption | intro _ | apply State.write_kept | apply State.quiGo_kept | apply State.start_kept | apply KeptR.next | dsimp only | split

theorem execQuiFork_kept {s0 : State} {m : Nat} {p : Nat} {s : State} (h_s : Kept s0 s) : KeptR s0 (execQuiFork m p s) := by
  unfold execQuiFork
  with_reducible repeat' first | assumption | intro _ | apply State.write_kept | apply State.quiGo_kept | apply State.start_kept | apply KeptR.next | dsimp only | split

theorem execQuiMap_kept {s0 : State} {m : Nat} {p : Nat} {s : State} (h_s : Kept s0 s) : KeptR s0 (execQuiMap m p s) := by
  unfold execQuiMap
  with_reducible repeat' first | assumption | intro _ | apply State.write_kept | apply State.quiGo_kept | apply State.start_kept | apply KeptR.next | dsimp only | split

theorem execQuiTruncate_kept {s0 : State} {m : Nat} {p : Nat} {s : State} (h_s : Kept s0 s) : KeptR s0 (execQuiTruncate m p s) := by
  unfold execQuiTruncate
  with_reducible repeat' first | assumption | intro _ | apply State.write_kept | apply State.quiGo_kept | apply State.start_kept | apply KeptR.next | dsimp only | split

theorem execQuiRetain_kept {s0 : State} {m : Nat} {p : Nat} {s : State} (h_s : Kept s0 s) : KeptR s0 (execQuiRetain m p s) := by
  unfold execQuiRetain
  with_reducible repeat' first | assumption | intro _ | apply State.write_kept | apply State.quiGo_kept | apply State.start_kept | apply KeptR.next | dsimp only | split

theorem execQuiDrop_kept {s0 : State} {m : Nat} {p : Nat} {s : State} (h_s : Kept s0 s) : KeptR s0 (execQuiDrop m p s) := by
  unfold execQuiDrop
  with_reducible repeat' first | assumption | intro _ | apply State.write_kept | apply State.quiGo_kept | apply State.start_kept | apply KeptR.next | dsimp only | split

theorem execBatchOpen_kept {s0 : State} {m : Nat} {p : Nat} {s : State} (h_s : Kept s0 s) : KeptR s0 (execBatchOpen m p s) := by
  unfold execBatchOpen
  with_reducible repeat' first | assumption | intro _ | apply State.write_kept | apply State.quiGo_kept | apply State.start_kept | apply KeptR.next | dsimp only | split

theorem execBatchClose_kept {s0 : State} {m : Nat} {p : Nat} {s : State} (h_s : Kept s0 s) : KeptR s0 (execBatchClose m p s) := by
  unfold execBatchClose
  with_reducible repeat' first | assumption | intro _ | apply State.write_kept | apply State.quiGo_kept | apply State.start_kept | apply KeptR.next | dsimp only | split

theorem execQuiJoin_kept {s0 : State} {m : Nat} {p : Nat} {s : State} (h_s : Kept s0 s) : KeptR s0 (execQuiJoin m p s) := by
  unfold execQuiJoin
  with_reducible repeat' first | assumption | intro _ | apply State.write_kept | apply State.quiGo_kept | apply State.start_kept | apply KeptR.next | dsimp only | split

theorem execQuiLeave_kept {s0 : State} {m : Nat} {p : Nat} {s : State} (h_s : Kept s0 s) : KeptR s0 (execQuiLeave m p s) := by
  unfold execQuiLeave
  with_reducible repeat' first | assumption | intro _ | apply State.write_kept | apply State.quiGo_kept | apply State.start_kept | apply KeptR.next | dsimp only | split

theorem execStepBegin_kept {s0 : State} {m : Nat} {p : Nat} {s : State} (h_s : Kept s0 s) : KeptR s0 (execStepBegin m p s) := by
  unfold execStepBegin
  with_reducible repeat' first | assumption | intro _ | apply State.write_kept | apply State.quiGo_kept | apply State.start_kept | apply KeptR.next | dsimp only | split

theorem execStepCommit_kept {s0 : State} {m : Nat} {p : Nat} {s : State} (h_s : Kept s0 s) : KeptR s0 (execStepCommit m p s) := by
  unfold execStepCommit
  with_reducible repeat' first | assumption | intro _ | apply State.write_kept | apply State.quiGo_kept | apply State.start_kept | apply KeptR.next | dsimp only | split

theorem execStepAbort_kept {s0 : State} {m : Nat} {p : Nat} {s : State} (h_s : Kept s0 s) : KeptR s0 (execStepAbort m p s) := by
  unfold execStepAbort
  with_reducible repeat' first | assumption | intro _ | apply State.write_kept | apply State.quiGo_kept | apply State.start_kept | apply KeptR.next | dsimp only | split

theorem execQuiExport_kept {s0 : State} {m : Nat} {p : Nat} {s : State} (h_s : Kept s0 s) : KeptR s0 (execQuiExport m p s) := by
  unfold execQuiExport
  with_reducible repeat' first | assumption | intro _ | apply State.write_kept | apply State.quiGo_kept | apply State.start_kept | apply KeptR.next | dsimp only | split

theorem execQuiImport_kept {s0 : State} {m : Nat} {p : Nat} {s : State} (h_s : Kept s0 s) : KeptR s0 (execQuiImport m p s) := by
  unfold execQuiImport
  with_reducible repeat' first | assumption | intro _ | apply State.write_kept | apply State.quiGo_kept | apply State.start_kept | apply KeptR.next | dsimp only | split

/-! ## Machine/Deckle.lean -/

theorem State.pop_kept {s0 : State} {s : State} {q : Nat} (h_s : Kept s0 s) : Kept s0 (State.pop s q) := by
  unfold State.pop
  with_reducible repeat' first | assumption | intro _ | apply State.setF_kept | apply State.regulate_kept | dsimp only | split

theorem State.pushRecord_kept {s0 : State} {s : State} {q : Nat} {bs : List Sys2Proof.Byte} {err : Bool} {sig : Option (Nat × Bool)} (h_s : Kept s0 s) : Kept s0 (State.pushRecord s q bs err sig) := by
  unfold State.pushRecord
  with_reducible repeat' first | assumption | intro _ | apply State.putThen_kept | dsimp only | split

theorem State.opSignal_kept {s0 : State} {s : State} {q : Nat} {cell : Nat} {cancel : Bool} (h_s : Kept s0 s) : Kept s0 (State.opSignal s q cell cancel) := by
  unfold State.opSignal
  with_reducible repeat' first | assumption | intro _ | apply State.cellCancel_kept | apply State.cellAdd_kept | apply Kept.ite | dsimp only | split

theorem State.enterTag_kept {s0 : State} {s : State} {n : Nat} {tag : Nat} (h_s : Kept s0 s) : Kept s0 (State.enterTag s n tag) := by
  unfold State.enterTag
  with_reducible repeat' first | assumption | intro _ | apply State.setF_kept | apply Kept.ite | apply Kept.fold | apply Kept.fold1 | dsimp only | split

theorem State.clearTags_kept {s0 : State} {s : State} {n : Nat} (h_s : Kept s0 s) : Kept s0 (State.clearTags s n) := by
  unfold State.clearTags
  with_reducible repeat' first | assumption | intro _ | apply State.setF_kept | apply Kept.fold | apply Kept.fold1 | dsimp only | split

theorem State.unbind_kept {s0 : State} {s : State} {q : Nat} (h_s : Kept s0 s) : Kept s0 (State.unbind s q) := by
  unfold State.unbind
  with_reducible repeat' first | assumption | intro _ | apply State.setQ_kept | apply State.setCl_kept | apply Kept.ite | dsimp only | split

theorem State.dropKept_kept {s0 : State} {s : State} {q : Nat} (h_s : Kept s0 s) : Kept s0 (State.dropKept s q) := by
  unfold State.dropKept
  with_reducible repeat' first | assumption | intro _ | apply Kept.ite | dsimp only | split | apply Kept.mk

theorem State.setAcct_kept {s0 : State} {s : State} {q : Nat} {t : Nat} {x : TaskAcct} (h_s : Kept s0 s) : Kept s0 (State.setAcct s q t x) := by
  unfold State.setAcct
  with_reducible repeat' first | assumption | intro _ | apply State.setQ_kept | dsimp only | split

theorem State.closeAcct_kept {s0 : State} {s : State} {q : Nat} {t : Nat} (h_s : Kept s0 s) : Kept s0 (State.closeAcct s q t) := by
  unfold State.closeAcct
  with_reducible repeat' first | assumption | intro _ | apply State.setAcct_kept | apply Kept.ite | dsimp only | split

theorem State.nextTask_kept {s0 : State} {s : State} {q : Nat} (h_s : Kept s0 s) : Kept s0 (State.nextTask s q) := by
  unfold State.nextTask
  with_reducible repeat' first | assumption | intro _ | apply State.closeAcct_kept | apply State.setQ_kept | dsimp only | split

theorem State.jobDone_kept {s0 : State} {s : State} {q : Nat} {slot : Nat} {part : Nat} {task : Nat} {d : OpDesc} {status : Nat} {flags : Nat} {clu : Nat} {detail : Nat} {failed : Nat} (h_s : Kept s0 s) : Kept s0 (State.jobDone s q slot part task d status flags clu detail failed) := by
  unfold State.jobDone
  with_reducible repeat' first | assumption | intro _ | apply State.bump_kept | apply State.pushRecord_kept | apply State.tookFree_kept | apply State.setAcct_kept | apply State.setQ_kept | apply State.opSignal_kept | apply Kept.ite | dsimp only | split

theorem State.cancelRecord_kept {s0 : State} {s : State} {q : Nat} {slot : Nat} {part : Nat} {d : OpDesc} {split : Bool} (h_s : Kept s0 s) : Kept s0 (State.cancelRecord s q slot part d split) := by
  unfold State.cancelRecord
  with_reducible repeat' first | assumption | intro _ | apply State.setAcct_kept | apply State.pushRecord_kept | dsimp only | split

theorem State.cancelJob_kept {s0 : State} {s : State} {q : Nat} {slot : Nat} {part : Nat} {d : OpDesc} {split : Bool} (h_s : Kept s0 s) : Kept s0 (State.cancelJob s q slot part d split) := by
  unfold State.cancelJob
  with_reducible repeat' first | assumption | intro _ | apply State.bump_kept | apply State.cancelRecord_kept | apply State.opSignal_kept | apply Kept.ite | dsimp only | split

theorem State.cancelControl_kept {s0 : State} {s : State} {o : Obj} {q : Nat} {code : Nat} {cell : Nat} {v : Nat} (h_s : Kept s0 s) : Kept s0 (State.cancelControl s o q code cell v) := by
  unfold State.cancelControl
  with_reducible repeat' first | assumption | intro _ | apply State.nextTask_kept | apply State.cellCancel_kept | apply State.setF_kept | apply Kept.ite | dsimp only | split

theorem State.cancelRun_kept {s0 : State} {o : Obj} {q stop : Nat} {force : Bool} : ∀ {n : Nat} {s : State}, Kept s0 s →
    Kept s0 (State.cancelRun s o q stop force n)
  | 0, _, h => h
  | n + 1, s, h => by
    unfold State.cancelRun
    repeat' first | with_reducible assumption | with_reducible intro _ | with_reducible apply State.setQ_kept | with_reducible apply State.cancelRun_kept | with_reducible apply State.cancelControl_kept | with_reducible apply State.cancelJob_kept | with_reducible apply State.pop_kept | with_reducible apply Kept.ite | with_reducible apply Kept.fold | dsimp only

theorem State.releaseAfterCancel_kept {s0 : State} {s : State} {q : Nat} (h_s : Kept s0 s) : Kept s0 (State.releaseAfterCancel s q) := by
  unfold State.releaseAfterCancel
  with_reducible repeat' first | assumption | intro _ | apply State.setQ_kept | apply State.unbind_kept | apply Kept.ite | dsimp only | split

theorem State.cancelUpTo_kept {s0 : State} {s : State} {q : Nat} {stop : Nat} {force : Bool} (h_s : Kept s0 s) : Kept s0 (State.cancelUpTo s q stop force) := by
  unfold State.cancelUpTo
  with_reducible repeat' first | assumption | intro _ | apply State.setQ_kept | apply State.cancelRun_kept | apply Kept.ite | dsimp only | split

theorem State.cancelTask_kept {s0 : State} {s : State} {q : Nat} (h_s : Kept s0 s) : Kept s0 (State.cancelTask s q) := by
  unfold State.cancelTask
  with_reducible repeat' first | assumption | intro _ | apply State.cancelUpTo_kept | apply State.releaseAfterCancel_kept | apply State.dropKept_kept | dsimp only | split

theorem State.resumeCancel_kept {s0 : State} {s : State} {q : Nat} (h_s : Kept s0 s) : Kept s0 (State.resumeCancel s q) := by
  unfold State.resumeCancel
  with_reducible repeat' first | assumption | intro _ | apply State.cancelUpTo_kept | apply State.releaseAfterCancel_kept | apply Kept.ite | dsimp only | split

theorem State.dropSaved_kept {s0 : State} {s : State} {q : Nat} (h_s : Kept s0 s) : Kept s0 (State.dropSaved s q) := by
  unfold State.dropSaved
  with_reducible repeat' first | assumption | intro _ | apply State.setQ_kept | dsimp only | split

theorem State.endTask_kept {s0 : State} {s : State} {q : Nat} {k : Option TaskKey} {tag : Nat} (h_s : Kept s0 s) : Kept s0 (State.endTask s q k tag) := by
  unfold State.endTask
  with_reducible repeat' first | assumption | intro _ | apply State.nextTask_kept | apply State.dropKept_kept | apply State.unbind_kept | apply State.dropSaved_kept | apply State.setQ_kept | dsimp only | split

theorem State.noteBell_kept {s0 : State} {s : State} {q : Nat} {v : Nat} (h_s : Kept s0 s) : Kept s0 (State.noteBell s q v) := by
  unfold State.noteBell
  with_reducible repeat' first | assumption | intro _ | apply State.setQ_kept | apply KeptO.getD | dsimp only | split

theorem State.clearParts_kept {s0 : State} {s : State} {ps : List PartDone} (h_s : Kept s0 s) : Kept s0 (State.clearParts s ps) := by
  unfold State.clearParts
  with_reducible repeat' first | assumption | intro _ | apply State.clearProv_kept | dsimp only | split

theorem State.settleJob_kept {s0 : State} {s : State} {q : Nat} {part : Nat} {task : Nat} {j : Job} (h_s : Kept s0 s) : Kept s0 (State.settleJob s q part task j) := by
  unfold State.settleJob
  with_reducible repeat' first | assumption | intro _ | apply State.poisonWith_kept | apply State.clearParts_kept | apply State.jobDone_kept | apply State.resumeCancel_kept | apply State.setQ_kept | apply KeptO.getD | apply Kept.ite | dsimp only | split

theorem State.uncount_kept {s0 : State} {s : State} {o : Op} (h_s : Kept s0 s) : Kept s0 (State.uncount s o) := by
  unfold State.uncount
  with_reducible repeat' first | assumption | intro _ | apply State.setQ_kept | apply State.setAcct_kept | dsimp only | split

theorem State.partDone_kept {s0 : State} {s : State} {o : Op} {j : Job} (h_s : Kept s0 s) : Kept s0 (State.partDone s o j) := by
  unfold State.partDone
  with_reducible repeat' first | assumption | intro _ | apply State.setQ_kept | apply State.settleJob_kept | apply Kept.ite | dsimp only | split

theorem State.retire_kept {s0 : State} {s : State} {o : Op} (h_s : Kept s0 s) : Kept s0 (State.retire s o) := by
  unfold State.retire
  with_reducible repeat' first | assumption | intro _ | apply State.uncount_kept | apply State.partDone_kept | apply State.ownSheets_kept | apply State.jobDone_kept | apply State.closeAcct_kept | apply Kept.ite | dsimp only | split

/-! ## Machine/DeckleCmds.lean -/

theorem State.ringBell_kept {s0 : State} {s : State} {q : Nat} {v : Nat} (h_s : Kept s0 s) : Kept s0 (State.ringBell s q v) := by
  unfold State.ringBell
  with_reducible repeat' first | assumption | intro _ | apply State.setF_kept | apply State.noteBell_kept | apply Kept.ite | dsimp only | split

theorem execQueueDoorbell_kept {s0 : State} {m : Nat} {q : Nat} {v : Nat} {s : State} (h_s : Kept s0 s) : KeptR s0 (execQueueDoorbell m q v s) := by
  unfold execQueueDoorbell
  with_reducible repeat' first | assumption | intro _ | apply State.write_kept | apply State.ringBell_kept | apply State.start_kept | apply KeptR.next | dsimp only | split

theorem State.writeCfg_kept {s0 : State} {s : State} {q : Nat} {w : Sys2Proof.Word} (h_s : Kept s0 s) : Kept s0 (State.writeCfg s q w) := by
  unfold State.writeCfg
  with_reducible repeat' first | assumption | intro _ | apply State.setF_kept | apply State.setQ_kept | apply Kept.ite | dsimp only | split

theorem execQueueCfgWrite_kept {s0 : State} {m : Nat} {q : Nat} {v : Nat} {s : State} (h_s : Kept s0 s) : KeptR s0 (execQueueCfgWrite m q v s) := by
  unfold execQueueCfgWrite
  with_reducible repeat' first | assumption | intro _ | apply State.write_kept | apply State.writeCfg_kept | apply State.start_kept | apply KeptR.next | dsimp only | split

theorem State.writeCplHead_kept {s0 : State} {s : State} {q : Nat} {v : Nat} (h_s : Kept s0 s) : Kept s0 (State.writeCplHead s q v) := by
  unfold State.writeCplHead
  with_reducible repeat' first | assumption | intro _ | apply State.setF_kept | apply State.resumeCancel_kept | apply Kept.ite | dsimp only | split

theorem execCplHeadWrite_kept {s0 : State} {m : Nat} {q : Nat} {v : Nat} {s : State} (h_s : Kept s0 s) : KeptR s0 (execCplHeadWrite m q v s) := by
  unfold execCplHeadWrite
  with_reducible repeat' first | assumption | intro _ | apply State.write_kept | apply State.writeCplHead_kept | apply State.start_kept | apply KeptR.next | dsimp only | split

theorem State.unhalt_kept {s0 : State} {s : State} {q : Nat} (h_s : Kept s0 s) : Kept s0 (State.unhalt s q) := by
  unfold State.unhalt
  with_reducible repeat' first | assumption | intro _ | apply State.setF_kept | dsimp only | split

theorem execCancelTask_kept {s0 : State} {m : Nat} {q : Nat} {res : Bool} {s : State} (h_s : Kept s0 s) : KeptR s0 (execCancelTask m q res s) := by
  unfold execCancelTask
  with_reducible repeat' first | assumption | intro _ | apply State.write_kept | apply State.cancelTask_kept | apply State.start_kept | apply State.unhalt_kept | apply KeptR.next | apply KeptR.ite | apply Kept.ite | dsimp only | split

theorem State.cancelAll_kept {s0 : State} {s : State} {q : Nat} (h_s : Kept s0 s) : Kept s0 (State.cancelAll s q) := by
  unfold State.cancelAll
  with_reducible repeat' first | assumption | intro _ | apply State.setQ_kept | apply State.dropKept_kept | apply State.dropSaved_kept | apply State.releaseAfterCancel_kept | apply State.cancelUpTo_kept | dsimp only | split

theorem execCancelAll_kept {s0 : State} {m : Nat} {q : Nat} {res : Bool} {s : State} (h_s : Kept s0 s) : KeptR s0 (execCancelAll m q res s) := by
  unfold execCancelAll
  with_reducible repeat' first | assumption | intro _ | apply State.write_kept | apply State.cancelAll_kept | apply State.start_kept | apply State.unhalt_kept | apply KeptR.next | apply KeptR.ite | apply Kept.ite | dsimp only | split

theorem execResumeQueue_kept {s0 : State} {m : Nat} {q : Nat} {s : State} (h_s : Kept s0 s) : KeptR s0 (execResumeQueue m q s) := by
  unfold execResumeQueue
  with_reducible repeat' first | assumption | intro _ | apply State.write_kept | apply State.unhalt_kept | apply State.start_kept | apply KeptR.next | dsimp only | split

theorem State.control_kept {s0 : State} {s : State} {q c : Nat} {act : State → Obj → List Byte → State}
    (hf : ∀ t o b, Kept s0 t → Kept s0 (act t o b)) (h : Kept s0 s) : KeptR s0 (State.control s q c act) := by
  unfold State.control
  split
  · exact .next (hf _ _ _ (State.pop_kept (State.start_kept h)))
  · exact answer_kept h h

theorem execTaskEntry_kept {s0 : State} {q : Nat} {s : State} (h_s : Kept s0 s) : KeptR s0 (execTaskEntry q s) := by
  unfold execTaskEntry
  with_reducible repeat' first | assumption | intro _ | apply State.control_kept | apply State.endTask_kept | apply KeptR.next | dsimp only | split

theorem execTaskEndEntry_kept {s0 : State} {q : Nat} {s : State} (h_s : Kept s0 s) : KeptR s0 (execTaskEndEntry q s) := by
  unfold execTaskEndEntry
  with_reducible repeat' first | assumption | intro _ | apply State.control_kept | apply State.endTask_kept | apply KeptR.next | dsimp only | split

theorem State.released_kept {s0 : State} {s : State} {q : Nat} {cell : Nat} {cancelRest : Bool} (h_s : Kept s0 s) : Kept s0 (State.released s q cell cancelRest) := by
  unfold State.released
  with_reducible repeat' first | assumption | intro _ | apply State.setQ_kept | apply State.cancelTask_kept | apply Kept.ite | dsimp only | split

theorem execWaitEntry_kept {s0 : State} {q : Nat} {s : State} (h_s : Kept s0 s) : KeptR s0 (execWaitEntry q s) := by
  unfold execWaitEntry
  with_reducible repeat' first | assumption | intro _ | apply State.control_kept | apply State.released_kept | apply State.setQ_kept | apply KeptR.next | apply KeptR.ite | apply Kept.ite | dsimp only | split

theorem execTimedWaitEntry_kept {s0 : State} {q : Nat} {s : State} (h_s : Kept s0 s) : KeptR s0 (execTimedWaitEntry q s) := by
  unfold execTimedWaitEntry
  with_reducible repeat' first | assumption | intro _ | apply State.control_kept | apply State.released_kept | apply State.setQ_kept | apply KeptR.next | apply KeptR.ite | apply Kept.ite | dsimp only | split

theorem execSignalEntry_kept {s0 : State} {q : Nat} {s : State} (h_s : Kept s0 s) : KeptR s0 (execSignalEntry q s) := by
  unfold execSignalEntry
  with_reducible repeat' first | assumption | intro _ | apply State.control_kept | apply State.setQ_kept | apply State.cellAdd_kept | apply KeptR.next | apply KeptR.ite | apply Kept.ite | dsimp only | split

theorem execSetEntry_kept {s0 : State} {q : Nat} {s : State} (h_s : Kept s0 s) : KeptR s0 (execSetEntry q s) := by
  unfold execSetEntry
  with_reducible repeat' first | assumption | intro _ | apply State.control_kept | apply State.setQ_kept | apply State.cellSet_kept | apply KeptR.next | apply KeptR.ite | apply Kept.ite | dsimp only | split

theorem execFenceEntry_kept {s0 : State} {q : Nat} {s : State} (h_s : Kept s0 s) : KeptR s0 (execFenceEntry q s) := by
  unfold execFenceEntry
  with_reducible repeat' first | assumption | intro _ | apply State.control_kept | apply State.setQ_kept | apply KeptR.next | apply KeptR.ite | apply Kept.ite | dsimp only | split

theorem State.halt_kept {s0 : State} {s : State} {q : Nat} {code : Nat} (h_s : Kept s0 s) : Kept s0 (State.halt s q code) := by
  unfold State.halt
  with_reducible repeat' first | assumption | intro _ | apply State.irqMsg_kept | apply State.setF_kept | dsimp only | split

theorem execReservedControlEntry_kept {s0 : State} {q : Nat} {s : State} (h_s : Kept s0 s) : KeptR s0 (execReservedControlEntry q s) := by
  unfold execReservedControlEntry
  with_reducible repeat' first | assumption | intro _ | apply State.halt_kept | apply State.pop_kept | apply State.start_kept | apply answer_kept | apply KeptR.next | dsimp only | split

theorem execWaitRelease_kept {s0 : State} {q : Nat} {s : State} (h_s : Kept s0 s) : KeptR s0 (execWaitRelease q s) := by
  unfold execWaitRelease
  with_reducible repeat' first | assumption | intro _ | apply answer_kept | apply State.released_kept | apply State.start_kept | apply KeptR.next | dsimp only | split

theorem State.timedOut_kept {s0 : State} {s : State} {q : Nat} {proceed : Bool} {toCell : Option Nat} (h_s : Kept s0 s) : Kept s0 (State.timedOut s q proceed toCell) := by
  unfold State.timedOut
  with_reducible repeat' first | assumption | intro _ | apply State.cellAdd_kept | apply State.setQ_kept | apply State.cancelTask_kept | apply Kept.ite | dsimp only | split

theorem execTimedWaitTimeout_kept {s0 : State} {q : Nat} {s : State} (h_s : Kept s0 s) : KeptR s0 (execTimedWaitTimeout q s) := by
  unfold execTimedWaitTimeout
  with_reducible repeat' first | assumption | intro _ | apply answer_kept | apply State.timedOut_kept | apply State.start_kept | apply KeptR.next | dsimp only | split

theorem execFenceRelease_kept {s0 : State} {q : Nat} {s : State} (h_s : Kept s0 s) : KeptR s0 (execFenceRelease q s) := by
  unfold execFenceRelease
  have go : ∀ f : State → State, (∀ u, Kept s0 u → Kept s0 (f u)) →
      KeptR s0 (answer ((s.q q).inflight == 0) s (f (s.start.setQ q { (s.q q) with wait := none }))) :=
    fun f hf => answer_kept h_s (hf _ (State.setQ_kept (State.start_kept h_s)))
  split
  · exact go id (fun _ h => h)
  · exact go _ (fun _ h => State.cellAdd_kept h)
  · exact go _ (fun _ h => State.cellSet_kept h)
  · exact answer_kept h_s h_s

theorem execCellWrite_kept {s0 : State} {m : Nat} {n : Nat} {v : Nat} {s : State} (h_s : Kept s0 s) : KeptR s0 (execCellWrite m n v s) := by
  unfold execCellWrite
  with_reducible repeat' first | assumption | intro _ | apply State.write_kept | apply State.cellSet_kept | apply State.start_kept | apply KeptR.next | dsimp only | split

theorem execCellAddWrite_kept {s0 : State} {m : Nat} {n : Nat} {v : Nat} {s : State} (h_s : Kept s0 s) : KeptR s0 (execCellAddWrite m n v s) := by
  unfold execCellAddWrite
  with_reducible repeat' first | assumption | intro _ | apply State.write_kept | apply State.cellAdd_kept | apply State.start_kept | apply KeptR.next | dsimp only | split

theorem State.ageAll_kept {s0 : State} {s : State} (h_s : Kept s0 s) : Kept s0 (State.ageAll s) := by
  unfold State.ageAll
  exact h_s.upd rfl rfl rfl rfl rfl

theorem execDeadlineTick_kept {s0 : State} {s : State} (h_s : Kept s0 s) : KeptR s0 (execDeadlineTick s) := by
  unfold execDeadlineTick
  with_reducible repeat' first | assumption | intro _ | apply answer_kept | apply State.ageAll_kept | apply State.start_kept | apply KeptR.next | dsimp only | split | apply Kept.mk

theorem State.bindTask_kept {s0 : State} {s : State} {q : Nat} {clu : Nat} {tag : Nat} {part : Bool} (h_s : Kept s0 s) : Kept s0 (State.bindTask s q clu tag part) := by
  unfold State.bindTask
  with_reducible repeat' first | assumption | intro _ | apply State.setCl_kept | apply State.enterTag_kept | apply State.dropKept_kept | apply State.setQ_kept | apply Kept.ite | dsimp only | split

theorem State.sendCluster_kept {s0 : State} {s : State} {o : Op} (h_s : Kept s0 s) : Kept s0 (State.sendCluster s o) := by
  unfold State.sendCluster
  with_reducible repeat' first | assumption | intro _ | apply State.tookId_kept | apply State.setCl_kept | dsimp only | split

theorem State.sendEngine_kept {s0 : State} {s : State} {e : Nat} {o : Op} (h_s : Kept s0 s) : Kept s0 (State.sendEngine s e o) := by
  unfold State.sendEngine
  with_reducible repeat' first | assumption | intro _ | apply State.tookId_kept | apply State.setEng_kept | apply Kept.ite | dsimp only | split

theorem State.countOp_kept {s0 : State} {s : State} {q : Nat} {record : Bool} (h_s : Kept s0 s) : Kept s0 (State.countOp s q record) := by
  unfold State.countOp
  with_reducible repeat' first | assumption | intro _ | apply State.setQ_kept | apply State.setAcct_kept | dsimp only | split

theorem State.sendPart_kept {s0 : State} {s : State} {o : Obj} {c : Dispatch} {j : Job} (h_s : Kept s0 s) : Kept s0 (State.sendPart s o c j) := by
  unfold State.sendPart
  with_reducible repeat' first | assumption | intro _ | apply State.countOp_kept | apply State.bindTask_kept | apply State.pop_kept | apply State.setQ_kept | apply State.sendCluster_kept | dsimp only | split

theorem State.refuseJob_kept {s0 : State} {s : State} {o : Obj} {q : Nat} {n : Nat} {h : Nat} {bs : List (List Sys2Proof.Byte)} (h_s : Kept s0 s) : Kept s0 (State.refuseJob s o q n h bs) := by
  unfold State.refuseJob
  with_reducible repeat' first | assumption | intro _ | apply State.pop_kept | apply State.setQ_kept | apply State.jobDone_kept | apply Kept.fold | apply Kept.fold1 | dsimp only | split

theorem State.sendHead_kept {s0 : State} {s : State} {o : Obj} {c : Dispatch} {n : Nat} {h : Nat} {b : List Sys2Proof.Byte} (h_s : Kept s0 s) : Kept s0 (State.sendHead s o c n h b) := by
  unfold State.sendHead
  with_reducible repeat' first | assumption | intro _ | apply State.pop_kept | apply State.bindTask_kept | apply State.countOp_kept | apply State.setQ_kept | apply State.sendCluster_kept | apply Kept.ite | dsimp only | split

theorem State.dispatch_kept {s0 : State} {s : State} {e : Nat} {o : Obj} {c : Dispatch} (h_s : Kept s0 s) : Kept s0 (State.dispatch s e o c) := by
  unfold State.dispatch
  with_reducible repeat' first | assumption | intro _ | apply State.sendPart_kept | apply State.refuseJob_kept | apply State.countOp_kept | apply State.pop_kept | apply State.sendEngine_kept | apply State.sendHead_kept | apply Kept.ite | dsimp only | split

theorem execOperationDispatch_kept {s0 : State} {e : Nat} {s : State} (h_s : Kept s0 s) : KeptR s0 (execOperationDispatch e s) := by
  unfold execOperationDispatch
  with_reducible repeat' first | assumption | intro _ | apply answer_kept | apply State.dispatch_kept | apply State.start_kept | apply KeptR.next | dsimp only | split

theorem State.startSave_kept {s0 : State} {s : State} {q : Nat} {h : Option Nat} (h_s : Kept s0 s) : Kept s0 (State.startSave s q h) := by
  unfold State.startSave
  with_reducible repeat' first | assumption | intro _ | apply State.setQ_kept | dsimp only | split

theorem execPreemptTask_kept {s0 : State} {s : State} (h_s : Kept s0 s) : KeptR s0 (execPreemptTask s) := by
  unfold execPreemptTask
  with_reducible repeat' first | assumption | intro _ | apply State.startSave_kept | apply State.start_kept | apply answer_kept | apply KeptR.next | dsimp only | split

theorem execSaveComplete_kept {s0 : State} {q : Nat} {s : State} (h_s : Kept s0 s) : KeptR s0 (execSaveComplete q s) := by
  unfold execSaveComplete
  with_reducible repeat' first | assumption | intro _ | apply State.start_kept | apply State.tookFree_kept | apply State.store_kept | apply State.unbind_kept | apply State.setCl_kept | apply State.setQ_kept | apply answer_kept | apply State.setAcct_kept | apply KeptR.next | dsimp only | split

theorem execRestoreTask_kept {s0 : State} {s : State} (h_s : Kept s0 s) : KeptR s0 (execRestoreTask s) := by
  unfold execRestoreTask
  with_reducible repeat' first | assumption | intro _ | apply State.setQ_kept | apply State.start_kept | apply answer_kept | apply KeptR.next | dsimp only | split

theorem State.unsave_kept {s0 : State} {s : State} {o : Obj} {c : Nat} {k : Nat} {rec : Nat} (h_s : Kept s0 s) : Kept s0 (State.unsave s o c k rec) := by
  unfold State.unsave
  with_reducible repeat' first | assumption | intro _ | apply State.putAll_kept | apply State.setTag_kept | apply Kept.fold | apply Kept.fold1 | dsimp only | split

theorem execRestoreComplete_kept {s0 : State} {q : Nat} {s : State} (h_s : Kept s0 s) : KeptR s0 (execRestoreComplete q s) := by
  unfold execRestoreComplete
  with_reducible repeat' first | assumption | intro _ | apply State.setQ_kept | apply State.start_kept | apply State.unsave_kept | apply answer_kept | apply State.bindTask_kept | apply KeptR.next | apply KeptR.ite | apply Kept.ite | dsimp only | split

theorem execClusterDrained_kept {s0 : State} {n : Nat} {s : State} (h_s : Kept s0 s) : KeptR s0 (execClusterDrained n s) := by
  unfold execClusterDrained
  with_reducible repeat' first | assumption | intro _ | apply answer_kept | apply State.setCl_kept | apply State.start_kept | apply KeptR.next | dsimp only | split

/-! ## Machine/Clusters.lean -/

theorem State.accept_kept {s0 : State} {s : State} {n : Nat} {o : Op} (h_s : Kept s0 s) : Kept s0 (State.accept s n o) := by
  unfold State.accept
  with_reducible repeat' first | assumption | intro _ | apply State.setCl_kept | apply State.unbind_kept | apply Kept.ite | dsimp only | split | apply Kept.mk

theorem State.putOp_kept {s0 : State} {s : State} {n : Nat} {o : Op} (h_s : Kept s0 s) : Kept s0 (State.putOp s n o) := by
  unfold State.putOp
  with_reducible repeat' first | assumption | intro _ | apply State.setCl_kept | dsimp only | split

theorem State.markWrote_kept {s0 : State} {s : State} {o : Op} (h_s : Kept s0 s) : Kept s0 (State.markWrote s o) := by
  unfold State.markWrote
  with_reducible repeat' first | assumption | intro _ | apply State.setTag_kept | apply Kept.fold | apply Kept.fold1 | dsimp only | split

theorem State.meetProv_kept {s0 : State} {s : State} {o : Op} {prov : Bool} (h_s : Kept s0 s) : Kept s0 (State.meetProv s o prov) := by
  unfold State.meetProv
  with_reducible repeat' first | assumption | intro _ | apply State.markWrote_kept | apply Kept.ite | dsimp only | split

theorem State.finish_kept {s0 : State} {s : State} {o : Op} (h_s : Kept s0 s) : Kept s0 (State.finish s o) := by
  unfold State.finish
  with_reducible repeat' first | assumption | intro _ | apply State.retire_kept | apply State.setCl_kept | apply Kept.ite | dsimp only | split

theorem State.endUntouched_kept {s0 : State} {s : State} {o : Op} {st : Nat} {det : Nat} (h_s : Kept s0 s) : Kept s0 (State.endUntouched s o st det) := by
  unfold State.endUntouched
  with_reducible repeat' first | assumption | intro _ | apply State.finish_kept | dsimp only | split

theorem State.endPoisoned_kept {s0 : State} {s : State} {o : Op} {st : Nat} {det : Nat} (h_s : Kept s0 s) : Kept s0 (State.endPoisoned s o st det) := by
  unfold State.endPoisoned
  with_reducible repeat' first | assumption | intro _ | apply State.finish_kept | apply State.poisonOut_kept | dsimp only | split

theorem State.btrEnd_kept {s0 : State} {s : State} {n : Nat} {o : Op} {st : Nat} {det : Nat} {poisoned : Bool} (h_s : Kept s0 s) : Kept s0 (State.btrEnd s n o st det poisoned) := by
  unfold State.btrEnd
  with_reducible repeat' first | assumption | intro _ | apply State.poisonOut_kept | apply State.finish_kept | apply State.putOp_kept | apply Kept.ite | dsimp only | split

theorem State.noteReads_kept {s0 : State} {s : State} {bs : List Nat} {op : Nat} {move : Nat} (h_s : Kept s0 s) : Kept s0 (State.noteReads s bs op move) := by
  unfold State.noteReads
  with_reducible repeat' first | assumption | intro _ | apply State.checkRead_kept | apply Kept.ite | apply Kept.fold | apply Kept.fold1 | dsimp only | split

theorem State.noteRaw_kept {s0 : State} {s : State} {bs : List Nat} {op : Nat} (h_s : Kept s0 s) : Kept s0 (State.noteRaw s bs op) := by
  unfold State.noteRaw
  with_reducible repeat' first | assumption | intro _ | apply State.rawCheck_kept | apply Kept.ite | apply Kept.fold | apply Kept.fold1 | dsimp only | split

/-! ## Machine/PowerOps.lean -/

theorem State.rateTick_kept {s0 : State} {s : State} {n : Nat} (h_s : Kept s0 s) : Kept s0 (State.rateTick s n) := by
  unfold State.rateTick
  with_reducible repeat' first | assumption | intro _ | apply State.setPmuClu_kept | apply Kept.ite | apply Kept.fold | apply Kept.fold1 | dsimp only | split

theorem State.pdQueue_kept {s0 : State} {s : State} {d : Nat} (h_s : Kept s0 s) : Kept s0 (State.pdQueue s d) := by
  unfold State.pdQueue
  with_reducible repeat' first | assumption | intro _ | apply Kept.ite | dsimp only | split | apply Kept.mk

theorem State.pdKickFrom_kept {s0 : State} {s : State} {lo : Nat} (h_s : Kept s0 s) : Kept s0 (State.pdKickFrom s lo) := by
  unfold State.pdKickFrom
  with_reducible repeat' first | assumption | intro _ | apply State.setPd_kept | apply Kept.ite | apply Kept.fold | apply Kept.fold1 | dsimp only | split | apply Kept.mk

theorem State.pdKick_kept {s0 : State} {s : State} (h_s : Kept s0 s) : Kept s0 (State.pdKick s) := by
  unfold State.pdKick
  with_reducible repeat' first | assumption | intro _ | apply State.pdKickFrom_kept | dsimp only | split

theorem State.pdAsk_kept {s0 : State} {s : State} {d : Nat} (h_s : Kept s0 s) : Kept s0 (State.pdAsk s d) := by
  unfold State.pdAsk
  with_reducible repeat' first | assumption | intro _ | apply State.pdKick_kept | apply State.pdQueue_kept | apply Kept.ite | dsimp only | split

/-! ## Machine/Admission.lean -/

theorem State.clearCells_kept {s0 : State} {s : State} {b : Nat} {n : Nat} (h_s : Kept s0 s) : Kept s0 (State.clearCells s b n) := by
  unfold State.clearCells
  with_reducible repeat' first | assumption | intro _ | apply State.cellSet_kept | apply Kept.fold | apply Kept.fold1 | dsimp only | split

theorem State.clearQueues_kept {s0 : State} {s : State} {b : Nat} {n : Nat} (h_s : Kept s0 s) : Kept s0 (State.clearQueues s b n) := by
  unfold State.clearQueues
  with_reducible repeat' first | assumption | intro _ | apply State.setQ_kept | apply State.resetRegs_kept | apply State.setF_kept | apply Kept.fold | apply Kept.fold1 | dsimp only | split

theorem State.settleAdmission_kept {s0 : State} {s : State} {a : Nat} {r : AdmitRes} (h_s : Kept s0 s) : Kept s0 (State.settleAdmission s a r) := by
  unfold State.settleAdmission
  with_reducible repeat' first | assumption | intro _ | apply State.clearQueues_kept | apply State.clearCells_kept | apply State.pdAsk_kept | apply Kept.ite | apply Kept.fold | apply Kept.fold1 | dsimp only | split | apply Kept.mk

theorem State.admitGo_kept {s0 : State} {s : State} {a : Nat} (h_s : Kept s0 s) : Kept s0 (State.admitGo s a) := by
  unfold State.admitGo
  with_reducible repeat' first | assumption | intro _ | apply State.settleAdmission_kept | apply Kept.ite | dsimp only | split | apply Kept.mk

theorem State.resumeAdmission_kept {s0 : State} {s : State} (h_s : Kept s0 s) : Kept s0 (State.resumeAdmission s) := by
  unfold State.resumeAdmission
  with_reducible repeat' first | assumption | intro _ | apply State.admitGo_kept | dsimp only | split

theorem State.admitCmd_kept {s0 : State} {s : State} (h_s : Kept s0 s) : Kept s0 (State.admitCmd s) := by
  unfold State.admitCmd
  with_reducible repeat' first | assumption | intro _ | apply State.setF_kept | apply State.settleAdmission_kept | apply State.admitGo_kept | apply Kept.ite | dsimp only | split

theorem execAdmitObject_kept {s0 : State} {m : Nat} {s : State} (h_s : Kept s0 s) : KeptR s0 (execAdmitObject m s) := by
  unfold execAdmitObject
  with_reducible repeat' first | assumption | intro _ | apply State.write_kept | apply State.admitCmd_kept | apply State.start_kept | apply KeptR.next | dsimp only | split

theorem State.loadDone_kept {s0 : State} {s : State} {reason : Nat} {handle : Nat} (h_s : Kept s0 s) : Kept s0 (State.loadDone s reason handle) := by
  unfold State.loadDone
  with_reducible repeat' first | assumption | intro _ | apply State.pulse_kept | apply State.setF_kept | dsimp only | split | apply Kept.mk

theorem State.zeroVat_kept {s0 : State} {s : State} {n : Nat} {v0 : Nat} {len : Nat} (h_s : Kept s0 s) : Kept s0 (State.zeroVat s n v0 len) := by
  unfold State.zeroVat
  with_reducible repeat' first | assumption | intro _ | apply State.putAll_kept | apply State.setTag_kept | apply State.clearTags_kept | apply Kept.fold | apply Kept.fold1 | dsimp only | split

theorem execAdmissionComplete_kept {s0 : State} {s : State} (h_s : Kept s0 s) : KeptR s0 (execAdmissionComplete s) := by
  unfold execAdmissionComplete
  with_reducible repeat' first | assumption | intro _ | apply State.start_kept | apply State.zeroVat_kept | apply State.store_kept | apply answer_kept | apply State.loadDone_kept | apply KeptR.next | apply KeptR.ite | apply Kept.ite | apply Kept.fold | apply Kept.fold1 | dsimp only | split

theorem State.unloadQueue_kept {s0 : State} {s : State} {q : Nat} (h_s : Kept s0 s) : Kept s0 (State.unloadQueue s q) := by
  unfold State.unloadQueue
  with_reducible repeat' first | assumption | intro _ | apply State.setQ_kept | apply State.dropKept_kept | apply State.dropSaved_kept | apply State.releaseAfterCancel_kept | apply State.cancelUpTo_kept | dsimp only | split

theorem State.unload_kept {s0 : State} {s : State} {h : Nat} (h_s : Kept s0 s) : Kept s0 (State.unload s h) := by
  unfold State.unload
  with_reducible repeat' first | assumption | intro _ | apply State.setF_kept | apply State.loadDone_kept | apply State.unloadQueue_kept | apply Kept.ite | apply Kept.fold | apply Kept.fold1 | dsimp only | split | apply Kept.mk

theorem execUnloadObject_kept {s0 : State} {m : Nat} {h : Nat} {s : State} (h_s : Kept s0 s) : KeptR s0 (execUnloadObject m h s) := by
  unfold execUnloadObject
  with_reducible repeat' first | assumption | intro _ | apply State.write_kept | apply State.unload_kept | apply State.start_kept | apply KeptR.next | dsimp only | split

theorem State.releaseAll_kept {s0 : State} {s : State} {o : Obj} (h_s : Kept s0 s) : Kept s0 (State.releaseAll s o) := by
  unfold State.releaseAll
  with_reducible repeat' first | assumption | intro _ | apply State.releaseObject_kept | apply State.clearTags_kept | apply State.setCl_kept | apply State.setF_kept | apply State.setQ_kept | apply State.unbind_kept | apply State.initPool_kept | apply Kept.ite | apply Kept.fold | apply Kept.fold1 | dsimp only | split | apply Kept.mk

/-! ## Machine/Memory.lean -/

theorem State.mbxWrite_kept {s0 : State} {s : State} {m : Nat} {a : Nat} {bs : List Sys2Proof.Byte} (h_s : Kept s0 s) : Kept s0 (State.mbxWrite s m a bs) := by
  unfold State.mbxWrite
  with_reducible repeat' first | assumption | intro _ | apply State.busError_kept | apply State.putAll_kept | apply Kept.ite | dsimp only | split

theorem State.readBlocks_kept {s0 : State} {raw : Bool} : ∀ {l : List Nat} {s : State}, Kept s0 s → Kept s0 (State.readBlocks s raw l).1
  | [], _, h => h
  | b :: l, s, h => State.readBlocks_kept (l := l) (Kept.ite1 (State.rawCheck_kept h) (State.checkRead_kept h))

theorem State.dramRead_kept {s0 : State} {s : State} {m : Nat} {a : Nat} {n : Nat} (h_s : Kept s0 s) : Kept s0 (State.dramRead s m a n) := by
  unfold State.dramRead
  with_reducible repeat' first | assumption | intro _ | apply State.readBlocks_kept | apply State.say_kept | apply Kept.ite | dsimp only | split

theorem State.metaRead_kept {s0 : State} {s : State} {m : Nat} {a : Nat} {n : Nat} (h_s : Kept s0 s) : Kept s0 (State.metaRead s m a n) := by
  unfold State.metaRead
  with_reducible repeat' first | assumption | intro _ | apply State.busError_kept | apply State.dramRead_kept | apply State.say_kept | apply Kept.ite | dsimp only | split

theorem State.zCoreRead_kept {s0 : State} {s : State} {m : Nat} {a : Nat} {n : Nat} (h_s : Kept s0 s) : Kept s0 (State.zCoreRead s m a n) := by
  unfold State.zCoreRead
  with_reducible repeat' first | assumption | intro _ | apply State.busError_kept | apply State.zResolve_kept | apply State.say_kept | apply State.zWaits_kept | apply State.zRead_kept | apply Kept.ite | dsimp only | split

theorem State.zCoreWrite_kept {s0 : State} {s : State} {m : Nat} {a : Nat} {bs : List Sys2Proof.Byte} (h_s : Kept s0 s) : Kept s0 (State.zCoreWrite s m a bs) := by
  unfold State.zCoreWrite
  with_reducible repeat' first | assumption | intro _ | apply State.busError_kept | apply State.zResolve_kept | apply State.say_kept | apply State.zWaits_kept | apply State.zWrite_kept | apply Kept.ite | dsimp only | split

theorem State.readAt_kept {s0 : State} {s : State} {m : Nat} {a : Nat} {n : Nat} (h_s : Kept s0 s) : Kept s0 (State.readAt s m a n) := by
  unfold State.readAt
  with_reducible repeat' first | assumption | intro _ | apply State.say_kept | apply State.dramRead_kept | apply State.busError_kept | apply State.metaRead_kept | apply State.pRead_kept | apply State.zCoreRead_kept | apply Kept.ite | dsimp only | split

theorem State.parityFail_kept {s0 : State} {s : State} {m : Nat} {a : Nat} {n : Nat} {op : Nat} {mv : Nat} (h_s : Kept s0 s) : Kept s0 (State.parityFail s m a n op mv) := by
  unfold State.parityFail
  with_reducible repeat' first | assumption | intro _ | apply State.say_kept | apply State.report_kept | apply State.poison_kept | apply Kept.ite | dsimp only | split

theorem State.blockWrite_kept {s0 : State} {s : State} {m : Nat} {ep : Nat} {a : Nat} {bs : List Sys2Proof.Byte} {prov : Bool} {pois : Bool} {par : Bool} {op : Nat} {mv : Nat} (h_s : Kept s0 s) : Kept s0 (State.blockWrite s m ep a bs prov pois par op mv) := by
  unfold State.blockWrite
  with_reducible repeat' first | assumption | intro _ | apply State.parityFail_kept | apply State.store_kept | apply State.say_kept | apply Kept.ite | dsimp only | split

theorem State.writeAt_kept {s0 : State} {s : State} {m : Nat} {ep : Nat} {a : Nat} {bs : List Sys2Proof.Byte} {prov : Bool} {pois : Bool} {par : Bool} {op : Nat} {mv : Nat} (h_s : Kept s0 s) : Kept s0 (State.writeAt s m ep a bs prov pois par op mv) := by
  unfold State.writeAt
  with_reducible repeat' first | assumption | intro _ | apply State.say_kept | apply State.busError_kept | apply State.blockWrite_kept | apply State.pWrite_kept | apply State.zCoreWrite_kept | apply State.putAll_kept | apply State.mbxWrite_kept | apply Kept.ite | dsimp only | split

theorem State.staleDrop_kept {s0 : State} {s : State} {n : Nat} (h_s : Kept s0 s) : Kept s0 (State.staleDrop s n) := by
  unfold State.staleDrop
  with_reducible repeat' first | assumption | intro _ | apply State.bump_kept | dsimp only | split

theorem State.staleOr_kept {s0 : State} {s : State} {m : Nat} {ep : Nat} {t : State} (h_s : Kept s0 s) (h_t : Kept s0 t) : Kept s0 (State.staleOr s m ep t) := by
  unfold State.staleOr
  with_reducible repeat' first | assumption | intro _ | apply State.staleDrop_kept | apply Kept.ite | dsimp only | split

theorem State.arm_kept {s0 : State} {s : State} {a : Nat} {c : Nat} (h_s : Kept s0 s) : Kept s0 (State.arm s a c) := by
  unfold State.arm
  with_reducible repeat' first | assumption | intro _ | apply State.setChan_kept | apply Kept.ite | dsimp only | split

theorem State.trapAt_kept {s0 : State} {s : State} {m : Nat} {h : Nat} {k : Sys2Proof.HartAccess} {a : Nat} (h_s : Kept s0 s) : Kept s0 (State.trapAt s m h k a) := by
  unfold State.trapAt
  with_reducible repeat' first | assumption | intro _ | apply State.setHart_kept | apply Kept.ite | dsimp only | split

theorem State.trapped_kept {s0 : State} {s : State} {m : Nat} {h : Nat} {k : Sys2Proof.HartAccess} {a : Nat} {n : Nat} (h_s : Kept s0 s) : Kept s0 (State.trapped s m h k a n) := by
  unfold State.trapped
  with_reducible repeat' first | assumption | intro _ | apply State.trapAt_kept | apply Kept.ite | dsimp only | split

theorem execDramWrite_kept {s0 : State} {m : Nat} {ep : Nat} {a : Nat} {bs : List Sys2Proof.Byte} {prov : Bool} {pois : Bool} {par : Bool} {link : Nat} {op : Nat} {mv : Nat} {h : Nat} {k : Sys2Proof.HartAccess} {s : State} (h_s : Kept s0 s) : KeptR s0 (execDramWrite m ep a bs prov pois par link op mv h k s) := by
  unfold execDramWrite
  with_reducible repeat' first | assumption | intro _ | apply State.arm_kept | apply State.start_kept | apply answer_kept | apply State.staleOr_kept | apply State.trapped_kept | apply State.gated_kept | apply State.say_kept | apply State.writeAt_kept | apply KeptR.next | apply KeptR.ite | apply Kept.ite | dsimp only | split

theorem State.flipAll_kept {s0 : State} {s : State} {fs : List (Nat × Nat)} (h_s : Kept s0 s) : Kept s0 (State.flipAll s fs) := by
  unfold State.flipAll
  with_reducible repeat' first | assumption | intro _ | apply State.flip_kept | apply State.arm_kept | apply Kept.ite | apply Kept.fold | apply Kept.fold1 | dsimp only | split

theorem execDramRead_kept {s0 : State} {m : Nat} {ep : Nat} {a : Nat} {n : Nat} {link : Nat} {flips : List (Nat × Nat)} {h : Nat} {k : Sys2Proof.HartAccess} {s : State} (h_s : Kept s0 s) : KeptR s0 (execDramRead m ep a n link flips h k s) := by
  unfold execDramRead
  with_reducible repeat' first | assumption | intro _ | apply State.arm_kept | apply State.flipAll_kept | apply State.start_kept | apply answer_kept | apply State.staleOr_kept | apply State.trapped_kept | apply State.gated_kept | apply State.say_kept | apply State.readAt_kept | apply KeptR.next | apply KeptR.ite | apply Kept.ite | dsimp only | split

theorem execMetadataRegionAccess_kept {s0 : State} {m : Nat} {a : Nat} {n : Nat} {wr : Bool} {s : State} (h_s : Kept s0 s) : KeptR s0 (execMetadataRegionAccess m a n wr s) := by
  unfold execMetadataRegionAccess
  with_reducible repeat' first | assumption | intro _ | apply State.start_kept | apply answer_kept | apply State.busError_kept | apply State.metaRead_kept | apply KeptR.next | apply KeptR.ite | apply Kept.ite | dsimp only | split

theorem State.setPatrol_kept {s0 : State} {s : State} {i : Nat} {x : Patrol} (h_s : Kept s0 s) : Kept s0 (State.setPatrol s i x) := by
  unfold State.setPatrol
  with_reducible repeat' first | assumption | intro _ | dsimp only | split | apply Kept.mk

theorem execPatrolSweepStart_kept {s0 : State} {i : Nat} {s : State} (h_s : Kept s0 s) : KeptR s0 (execPatrolSweepStart i s) := by
  unfold execPatrolSweepStart
  with_reducible repeat' first | assumption | intro _ | apply answer_kept | apply State.setPatrol_kept | apply State.start_kept | apply KeptR.next | dsimp only | split

theorem State.patrolFail_kept {s0 : State} {s : State} {i : Nat} {b : Nat} (h_s : Kept s0 s) : Kept s0 (State.patrolFail s i b) := by
  unfold State.patrolFail
  with_reducible repeat' first | assumption | intro _ | apply State.report_kept | apply State.poison_kept | apply State.bump_kept | dsimp only | split

theorem State.patrolCheck_kept {s0 : State} {s : State} {i : Nat} {b : Nat} (h_s : Kept s0 s) : Kept s0 (State.patrolCheck s i b) := by
  unfold State.patrolCheck
  with_reducible repeat' first | assumption | intro _ | apply State.channel_kept | apply State.retried_kept | apply State.noteChecked_kept | apply State.settle_kept | apply State.patrolFail_kept | apply Kept.ite | dsimp only | split

theorem State.patrolDone_kept {s0 : State} {s : State} {i : Nat} {j : Nat} (h_s : Kept s0 s) : Kept s0 (State.patrolDone s i j) := by
  unfold State.patrolDone
  with_reducible repeat' first | assumption | intro _ | apply State.setF_kept | apply State.setPatrol_kept | apply Kept.ite | dsimp only | split

theorem execPatrolRead_kept {s0 : State} {i : Nat} {j : Nat} {link : Nat} {flips : List (Nat × Nat)} {s : State} (h_s : Kept s0 s) : KeptR s0 (execPatrolRead i j link flips s) := by
  unfold execPatrolRead
  with_reducible repeat' first | assumption | intro _ | apply State.arm_kept | apply State.flipAll_kept | apply State.start_kept | apply answer_kept | apply State.patrolDone_kept | apply State.patrolCheck_kept | apply KeptR.next | dsimp only | split

theorem State.writeSplit_kept {s0 : State} {s : State} {w : Sys2Proof.Word} (h_s : Kept s0 s) : Kept s0 (State.writeSplit s w) := by
  unfold State.writeSplit
  with_reducible repeat' first | assumption | intro _ | apply State.remap_kept | apply State.setF_kept | apply Kept.ite | dsimp only | split

theorem execMemSplitWrite_kept {s0 : State} {m : Nat} {v : Nat} {s : State} (h_s : Kept s0 s) : KeptR s0 (execMemSplitWrite m v s) := by
  unfold execMemSplitWrite
  with_reducible repeat' first | assumption | intro _ | apply State.write_kept | apply State.writeSplit_kept | apply State.start_kept | apply KeptR.next | dsimp only | split

/-! ## Machine/Movers.lean -/

theorem State.failWait_kept {s0 : State} {s : State} {n : Nat} {cause : Nat} {o : Op} {b : Nat} (h_s : Kept s0 s) : Kept s0 (State.failWait s n cause o b) := by
  unfold State.failWait
  with_reducible repeat' first | assumption | intro _ | apply State.bump_kept | apply State.btrEnd_kept | apply State.endPoisoned_kept | apply Kept.ite | dsimp only | split

theorem State.failWaits_kept {s0 : State} {s : State} {bs : List Nat} {cause : Nat} (h_s : Kept s0 s) : Kept s0 (State.failWaits s bs cause) := by
  unfold State.failWaits
  with_reducible repeat' first | assumption | intro _ | apply State.failWait_kept | apply Kept.ite | apply Kept.fold | apply Kept.fold1 | dsimp only | split

theorem State.release_kept {s0 : State} {s : State} {bs : List Nat} {cause : Nat} {abandoned : Bool} (h_s : Kept s0 s) : Kept s0 (State.release s bs cause abandoned) := by
  unfold State.release
  with_reducible repeat' first | assumption | intro _ | apply State.failWaits_kept | apply State.fillEnd_kept | apply State.wake_kept | apply Kept.ite | dsimp only | split

theorem State.putMove_kept {s0 : State} {s : State} {m : Nat} {v : Move} (h_s : Kept s0 s) : Kept s0 (State.putMove s m v) := by
  unfold State.putMove
  with_reducible repeat' first | assumption | intro _ | apply State.setMover_kept | apply Kept.ite | dsimp only | split

theorem State.forgetReqs_kept {s0 : State} {s : State} {m : Nat} {id : Nat} {p : Nat → Bool} (h_s : Kept s0 s) : Kept s0 (State.forgetReqs s m id p) := by
  unfold State.forgetReqs
  with_reducible repeat' first | assumption | intro _ | apply State.setZport_kept | apply State.setPport_kept | apply Kept.fold | apply Kept.fold1 | dsimp only | split

theorem State.pieceFailed_kept {s0 : State} {s : State} {m : Nat} {id : Nat} {k : Nat} {pois : Bool} (h_s : Kept s0 s) : Kept s0 (State.pieceFailed s m id k pois) := by
  unfold State.pieceFailed
  with_reducible repeat' first | assumption | intro _ | apply State.putMove_kept | apply State.forgetReqs_kept | apply Kept.ite | dsimp only | split

theorem State.pieceDenied_kept {s0 : State} {s : State} {m : Nat} {id : Nat} {k : Nat} (h_s : Kept s0 s) : Kept s0 (State.pieceDenied s m id k) := by
  unfold State.pieceDenied
  with_reducible repeat' first | assumption | intro _ | apply State.putMove_kept | apply Kept.ite | dsimp only | split

theorem State.pieceOut_kept {s0 : State} {s : State} {m : Nat} {id : Nat} {k : Nat} {cid : Nat} (h_s : Kept s0 s) : Kept s0 (State.pieceOut s m id k cid) := by
  unfold State.pieceOut
  with_reducible repeat' first | assumption | intro _ | apply State.putMove_kept | dsimp only | split

theorem State.sheetFresh_kept {s0 : State} {s : State} {a : Nat} (h_s : Kept s0 s) : Kept s0 (State.sheetFresh s a) := by
  unfold State.sheetFresh
  with_reducible repeat' first | assumption | intro _ | apply State.spoil_kept | apply State.setTag_kept | apply Kept.fold | apply Kept.fold1 | dsimp only | split

theorem State.nvmeIssue_kept {s0 : State} {s : State} {m : Nat} {id : Nat} {k : Nat} {d : MoveDesc} {x : Sheet} (h_s : Kept s0 s) : Kept s0 (State.nvmeIssue s m id k d x) := by
  unfold State.nvmeIssue
  with_reducible repeat' first | assumption | intro _ | apply State.store_kept | apply State.pieceDenied_kept | apply State.sheetFresh_kept | apply State.pieceOut_kept | apply State.pWrite_kept | apply State.setMover_kept | apply KeptO.getD | apply Kept.ite | dsimp only | split

theorem State.issueWrite_kept {s0 : State} {s : State} {m : Nat} {id : Nat} {k : Nat} {v : Move} {d : MoveDesc} {x : Sheet} (h_s : Kept s0 s) : Kept s0 (State.issueWrite s m id k v d x) := by
  unfold State.issueWrite
  with_reducible repeat' first | assumption | intro _ | apply State.zResolve_kept | apply State.pieceFailed_kept | apply State.pieceOut_kept | apply State.zWrite_kept | apply State.putMove_kept | apply State.checkRead_kept | apply State.noteReads_kept | apply Kept.ite | dsimp only | split

theorem State.issueRead_kept {s0 : State} {s : State} {m : Nat} {id : Nat} {k : Nat} {d : MoveDesc} {x : Sheet} (h_s : Kept s0 s) : Kept s0 (State.issueRead s m id k d x) := by
  unfold State.issueRead
  with_reducible repeat' first | assumption | intro _ | apply State.pieceOut_kept | apply State.pRead_kept | apply State.pieceFailed_kept | apply State.zResolve_kept | apply State.zRead_kept | apply Kept.ite | dsimp only | split

theorem State.issueTry_kept {s0 : State} {s : State} {m : Nat} {id : Nat} {k : Nat} (h_s : Kept s0 s) : Kept s0 (State.issueTry s m id k) := by
  unfold State.issueTry
  with_reducible repeat' first | assumption | intro _ | apply State.nvmeIssue_kept | apply State.issueRead_kept | apply State.issueWrite_kept | apply Kept.ite | dsimp only | split

theorem State.issuePiece_kept {s0 : State} {s : State} {m : Nat} {id : Nat} {k : Nat} (h_s : Kept s0 s) : Kept s0 (State.issuePiece s m id k) := by
  unfold State.issuePiece
  with_reducible repeat' first | assumption | intro _ | apply State.issueTry_kept | apply Kept.fold | apply Kept.fold1 | dsimp only | split

theorem State.sheetTry_kept {s0 : State} {s : State} {m : Nat} {id : Nat} {sh : Nat} (h_s : Kept s0 s) : Kept s0 (State.sheetTry s m id sh) := by
  unfold State.sheetTry
  with_reducible repeat' first | assumption | intro _ | apply State.putMove_kept | apply State.checkRead_kept | apply State.noteReads_kept | apply State.release_kept | apply State.pieceFailed_kept | apply KeptO.getD | apply Kept.ite | dsimp only | split

theorem State.issueFrom_kept {s0 : State} {m id : Nat} : ∀ {l : List Nat} {s : State}, Kept s0 s → Kept s0 (State.issueFrom s m id l)
  | [], _, h => h
  | k :: ks, s, h => by
    unfold State.issueFrom
    exact .ite (State.issuePiece_kept h) (State.issueFrom_kept (State.issuePiece_kept h))

theorem State.trySheets_kept {s0 : State} {s : State} (h_s : Kept s0 s) : Kept s0 (State.trySheets s) := by
  unfold State.trySheets
  with_reducible repeat' first | assumption | intro _ | apply State.sheetTry_kept | apply Kept.fold | apply Kept.fold1 | dsimp only | split

theorem State.pump_kept {s0 : State} {s : State} (h_s : Kept s0 s) : Kept s0 (State.pump s) := by
  unfold State.pump
  with_reducible repeat' first | assumption | intro _ | apply State.startCows_kept | apply State.quiWakes_kept | apply State.trySheets_kept | apply State.issueFrom_kept | apply Kept.fold | apply Kept.fold1 | dsimp only | split

theorem State.chargePiece_kept {s0 : State} {s : State} {m : Nat} {v : Move} {d : MoveDesc} {x : Sheet} (h_s : Kept s0 s) : Kept s0 (State.chargePiece s m v d x) := by
  unfold State.chargePiece
  with_reducible repeat' first | assumption | intro _ | apply State.regulateAll_kept | apply Kept.ite | dsimp only | split

theorem State.pieceGot_kept {s0 : State} {s : State} {m : Nat} {id : Nat} {k : Nat} (h_s : Kept s0 s) : Kept s0 (State.pieceGot s m id k) := by
  unfold State.pieceGot
  with_reducible repeat' first | assumption | intro _ | apply State.chargePiece_kept | apply State.putMove_kept | apply State.sheetTry_kept | apply Kept.ite | dsimp only | split

theorem State.sharedFresh_kept {s0 : State} {s : State} {v : Move} {d : MoveDesc} {x : Sheet} (h_s : Kept s0 s) : Kept s0 (State.sharedFresh s v d x) := by
  unfold State.sharedFresh
  with_reducible repeat' first | assumption | intro _ | apply State.spoil_kept | apply State.setTag_kept | apply Kept.fold | apply Kept.fold1 | dsimp only | split

theorem State.deliver_kept {s0 : State} {s : State} {w : WTag} {m : Nat} {id : Nat} {k : Nat} {bytes : List Sys2Proof.Byte} (h_s : Kept s0 s) : Kept s0 (State.deliver s w m id k bytes).1 := by
  unfold State.deliver
  with_reducible repeat' first | assumption | intro _ | apply State.store_kept | apply State.sharedFresh_kept | apply State.putMove_kept | apply Kept.ite1 | apply Kept.ite | apply Kept.fold | apply Kept.fold1 | dsimp only | split

theorem State.checkAll_kept {s0 : State} {op move : Nat} : ∀ {l : List Nat} {s : State}, Kept s0 s → Kept s0 (State.checkAll s op move l).1
  | [], _, h => h
  | b :: l, s, h => by
    unfold State.checkAll
    have hr : Kept s0 (if s.isData (b * 4096) then s.checkRead b op move else (s, true)).1 := Kept.ite1 (State.checkRead_kept h) h
    exact Kept.ite1 (State.checkAll_kept hr) hr

theorem bothChecks_kept {s0 : State} {c : State × Bool} {f : State → State × Bool} (hf : ∀ t, Kept s0 t → Kept s0 (f t).1) (h : Kept s0 c.1) :
    Kept s0 (bothChecks c f).1 := by
  unfold bothChecks
  exact Kept.ite1 (hf _ h) h

theorem State.startReads_kept {s0 : State} {s : State} {m r : Nat} {b : List Byte} {decomp : Bool} (h_s : Kept s0 s) :
    Kept s0 (State.startReads s m r b decomp).1 := by
  unfold State.startReads
  with_reducible exact bothChecks_kept (fun _ h => Kept.ite1 (State.checkAll_kept h) h) (State.checkAll_kept h_s)

theorem State.startMove_kept {s0 : State} {s : State} {m : Nat} {r : Nat} (h_s : Kept s0 s) : Kept s0 (State.startMove s m r) := by
  unfold State.startMove
  split
  · exact h_s
  · with_reducible exact State.pump_kept (State.setFill_kept (State.setF_kept (State.setF_kept (State.setMover_kept (State.tookId_kept (State.startReads_kept (State.regulate_kept h_s)))))))

theorem State.dropMove_kept {s0 : State} {s : State} {m : Nat} {v : Move} (h_s : Kept s0 s) : Kept s0 (State.dropMove s m v) := by
  unfold State.dropMove
  with_reducible repeat' first | assumption | intro _ | apply State.setF_kept | apply State.setMover_kept | dsimp only | split

theorem State.moveDone_kept {s0 : State} {s : State} {m : Nat} {v : Move} (h_s : Kept s0 s) : Kept s0 (State.moveDone s m v) := by
  unfold State.moveDone
  with_reducible repeat' first | assumption | intro _ | apply State.dropMove_kept | apply State.release_kept | apply State.pump_kept | apply State.cellAdd_kept | apply Kept.ite | dsimp only | split

theorem State.moveFail_kept {s0 : State} {s : State} {m : Nat} {v : Move} (h_s : Kept s0 s) : Kept s0 (State.moveFail s m v) := by
  unfold State.moveFail
  with_reducible repeat' first | assumption | intro _ | apply State.tookFree_kept | apply State.poisonWith_kept | apply State.dropMove_kept | apply State.release_kept | apply State.setF_kept | apply State.pump_kept | apply State.cellCancel_kept | apply Kept.ite | dsimp only | split

end Sys2Proof.Machine
end

