-- ==== Sys2Proof/Laws/KeptRows.lean ====
section
/-! SUPPORT. What the operations and commands of Machine/Log, Integrity, Apc, MoverCmds, ClusterCmds, IntegrityCmds, Tilth, Time, Ethernet, EthernetCmds, ZethaCmds, Tick, Csi, Iommu, PcieCmds keep (Laws/Kept.lean):
one lemma for each definition that answers a state, cited by the lemmas of the definitions that call it. -/
namespace Sys2Proof.Machine
open Sys2Proof
set_option linter.all false
set_option Elab.async false

/-! ## Machine/Log.lean -/

theorem State.logEvent_kept {s0 : State} {s : State} {source : Nat} {code : Nat} {uncopied : Nat} {data : List Sys2Proof.Byte} (h_s : Kept s0 s) : Kept s0 (State.logEvent s source code uncopied data) := by
  unfold State.logEvent
  with_reducible repeat' first | assumption | intro _ | apply Kept.ite | dsimp only | split | apply Kept.mk

/-! ## Machine/Integrity.lean -/

theorem State.copyBroke_kept {s0 : State} {s : State} {kind : Nat} {bs : List Sys2Proof.Byte} (h_s : Kept s0 s) : Kept s0 (State.copyBroke s kind bs) := by
  unfold State.copyBroke
  with_reducible repeat' first | assumption | intro _ | apply State.logEvent_kept | apply Kept.ite | dsimp only | split | apply Kept.mk

theorem State.writeBroke_kept {s0 : State} {s : State} {b : Broke} (h_s : Kept s0 s) : Kept s0 (State.writeBroke s b) := by
  unfold State.writeBroke
  with_reducible repeat' first | assumption | intro _ | apply State.putThen_kept | apply State.bump_kept | apply State.setF_kept | apply State.copyBroke_kept | apply Kept.ite | dsimp only | split | apply Kept.mk

theorem State.poisonFor_kept {s0 : State} {s : State} {bs : List Nat} (h_s : Kept s0 s) : Kept s0 (State.poisonFor s bs) := by
  unfold State.poisonFor
  with_reducible repeat' first | assumption | intro _ | apply State.poisonWith_kept | dsimp only | split

theorem State.ftRequest_kept {s0 : State} {s : State} {n : Nat} {cls : Nat} {force : Bool} (h_s : Kept s0 s) : Kept s0 (State.ftRequest s n cls force).1 := by
  unfold State.ftRequest
  with_reducible repeat' first | assumption | intro _ | apply Kept.ite1 | apply Kept.ite | dsimp only | split | apply Kept.mk

theorem State.ftMust_kept {s0 : State} {s : State} {n : Nat} {cls : Nat} (h_s : Kept s0 s) : Kept s0 (State.ftMust s n cls) := by
  unfold State.ftMust
  with_reducible repeat' first | assumption | intro _ | apply State.startDrains_kept | apply State.ftRequest_kept | dsimp only | split

theorem State.strike_kept {s0 : State} {s : State} {n : Nat} (h_s : Kept s0 s) : Kept s0 (State.strike s n).1 := by
  unfold State.strike
  with_reducible repeat' first | assumption | intro _ | apply State.setF_kept | apply State.ftMust_kept | apply Kept.ite1 | apply Kept.ite | dsimp only | split

theorem State.cluRegsReset_kept {s0 : State} {s : State} {n : Nat} (h_s : Kept s0 s) : Kept s0 (State.cluRegsReset s n) := by
  unfold State.cluRegsReset
  with_reducible repeat' first | assumption | intro _ | apply State.resetRegs_kept | dsimp only | split

theorem State.repairUp_kept {s0 : State} {s : State} {n : Nat} (h_s : Kept s0 s) : Kept s0 (State.repairUp s n) := by
  unfold State.repairUp
  with_reducible repeat' first | assumption | intro _ | apply State.setF_kept | apply Kept.ite | dsimp only | split

theorem State.powerCycle_kept {s0 : State} {s : State} {n : Nat} (h_s : Kept s0 s) : Kept s0 (State.powerCycle s n) := by
  unfold State.powerCycle
  with_reducible repeat' first | assumption | intro _ | apply State.loseVat_kept | apply State.repairUp_kept | apply State.cluRegsReset_kept | apply State.setCl_kept | dsimp only | split

theorem State.endAllOps_kept {s0 : State} {s : State} {n : Nat} {failing : Nat} {st : Nat} {det : Nat} {cause : Nat} (h_s : Kept s0 s) : Kept s0 (State.endAllOps s n failing st det cause) := by
  unfold State.endAllOps
  with_reducible repeat' first | assumption | intro _ | apply State.ownSheets_kept | apply State.poisonWith_kept | apply State.retire_kept | apply State.setCl_kept | apply Kept.fold | apply Kept.fold1 | dsimp only | split

theorem State.loseTasks_kept {s0 : State} {s : State} {n : Nat} (h_s : Kept s0 s) : Kept s0 (State.loseTasks s n) := by
  unfold State.loseTasks
  with_reducible repeat' first | assumption | intro _ | apply State.setQ_kept | apply State.unbind_kept | apply State.cancelTask_kept | apply Kept.ite | apply Kept.fold | apply Kept.fold1 | dsimp only | split

theorem State.quarantine_kept {s0 : State} {s : State} {n : Nat} {failing : Nat} {st : Nat} {det : Nat} {cause : Nat} (h_s : Kept s0 s) : Kept s0 (State.quarantine s n failing st det cause).1 := by
  unfold State.quarantine
  with_reducible repeat' first | assumption | intro _ | apply State.setSvc_kept | apply State.setF_kept | apply State.clearTags_kept | apply State.loseTasks_kept | apply State.endAllOps_kept | apply State.loseStreams_kept | apply State.setCl_kept | apply State.ftRequest_kept | apply Kept.ite1 | apply Kept.ite | dsimp only | split

theorem State.reportStrike_kept {s0 : State} {s : State} {r : Sys2Proof.Report} {tagEpoch : Nat} (h_s : Kept s0 s) : Kept s0 (State.reportStrike s r tagEpoch).1 := by
  unfold State.reportStrike
  with_reducible repeat' first | assumption | intro _ | apply State.strike_kept | apply State.bump_kept | apply Kept.ite1 | apply Kept.ite | dsimp only | split

theorem State.failOp_kept {s0 : State} {s : State} {o : Op} {st : Nat} {det : Nat} (h_s : Kept s0 s) : Kept s0 (State.failOp s o st det) := by
  unfold State.failOp
  with_reducible repeat' first | assumption | intro _ | apply State.btrEnd_kept | apply State.endPoisoned_kept | apply Kept.ite | dsimp only | split | apply Kept.mk

theorem State.failMoveOf_kept {s0 : State} {s : State} {r : Sys2Proof.Report} {cause : Nat} (h_s : Kept s0 s) : Kept s0 (State.failMoveOf s r cause) := by
  unfold State.failMoveOf
  with_reducible repeat' first | assumption | intro _ | apply State.putMove_kept | apply Kept.ite | dsimp only | split

theorem State.failReader_kept {s0 : State} {s : State} {r : Sys2Proof.Report} {st : Nat} {det : Nat} {cause : Nat} (h_s : Kept s0 s) : Kept s0 (State.failReader s r st det cause) := by
  unfold State.failReader
  with_reducible repeat' first | assumption | intro _ | apply State.failOp_kept | apply State.failMoveOf_kept | dsimp only | split

theorem State.onReport_kept {s0 : State} {s : State} {r : Sys2Proof.Report} (h_s : Kept s0 s) : Kept s0 (State.onReport s r) := by
  unfold State.onReport
  with_reducible repeat' first | assumption | intro _ | apply State.ownSheets_kept | apply State.poisonFor_kept | apply State.reportStrike_kept | apply State.writeBroke_kept | apply State.startDrains_kept | apply State.quarantine_kept | apply State.failReader_kept | apply KeptO.getD | apply Kept.ite | apply Kept.fold | apply Kept.fold1 | dsimp only | split

theorem State.startTest_kept {s0 : State} {s : State} {n : Nat} {tj : Int} (h_s : Kept s0 s) : Kept s0 (State.startTest s n tj) := by
  unfold State.startTest
  with_reducible repeat' first | assumption | intro _ | apply State.loseStreams_kept | apply State.clearTags_kept | apply State.setSvc_kept | apply State.powerCycle_kept | apply State.emit_kept | apply State.setF_kept | apply State.wr_kept | apply Kept.fold | apply Kept.fold1 | dsimp only | split | apply Kept.mk

theorem State.retireCluster_kept {s0 : State} {s : State} {n : Nat} {kind : Nat} {outcome : Nat} (h_s : Kept s0 s) : Kept s0 (State.retireCluster s n kind outcome) := by
  unfold State.retireCluster
  with_reducible repeat' first | assumption | intro _ | apply State.setF_kept | apply State.setSvc_kept | apply State.writeBroke_kept | dsimp only | split

theorem State.passTest_kept {s0 : State} {s : State} {n : Nat} (h_s : Kept s0 s) : Kept s0 (State.passTest s n) := by
  unfold State.passTest
  with_reducible repeat' first | assumption | intro _ | apply State.setF_kept | apply State.setSvc_kept | apply State.zeroVat_kept | apply Kept.ite | apply Kept.fold | apply Kept.fold1 | dsimp only | split | apply Kept.mk

theorem State.locateFault_kept {s0 : State} {s : State} {n : Nat} {row : Option Nat} {col : Option Nat} (h_s : Kept s0 s) : Kept s0 (State.locateFault s n row col) := by
  unfold State.locateFault
  with_reducible repeat' first | assumption | intro _ | apply State.setF_kept | apply State.setSvc_kept | apply State.retireCluster_kept | apply KeptO.getD | apply Kept.ite | dsimp only | split

theorem State.sendNotice_kept {s0 : State} {s : State} {p : Nat} {outcome : Nat} {first : Nat} {last : Nat} {seq : Nat} (h_s : Kept s0 s) : Kept s0 (State.sendNotice s p outcome first last seq) := by
  unfold State.sendNotice
  with_reducible repeat' first | assumption | intro _ | apply State.zQueue_kept | apply State.setMac_kept | apply Kept.ite | dsimp only | split

theorem State.brokeOf_kept {s0 : State} {s : State} {t : Tracker} (h_s : Kept s0 s) : Kept s0 (State.brokeOf s t).1 := by
  unfold State.brokeOf
  with_reducible repeat' first | assumption | intro _ | apply State.tookFree_kept | apply State.writeBroke_kept | apply Kept.ite1 | apply Kept.ite | dsimp only | split

theorem State.leaveTracker_kept {s0 : State} {s : State} {p : Nat} {i : Nat} {t : Tracker} {outcome : Nat} {seq : Nat} (h_s : Kept s0 s) : Kept s0 (State.leaveTracker s p i t outcome seq) := by
  unfold State.leaveTracker
  with_reducible repeat' first | assumption | intro _ | apply State.sendNotice_kept | apply State.setTrackers_kept | dsimp only | split

theorem State.resolve_kept {s0 : State} {s : State} {p : Nat} {i : Nat} {t : Tracker} {broke : Bool} (h_s : Kept s0 s) : Kept s0 (State.resolve s p i t broke) := by
  unfold State.resolve
  with_reducible repeat' first | assumption | intro _ | apply State.brokeOf_kept | apply State.leaveTracker_kept | apply State.setTrackers_kept | apply Kept.ite | dsimp only | split

/-! ## Machine/Apc.lean -/

theorem State.hartRun_kept {s0 : State} {s : State} {h : Nat} (h_s : Kept s0 s) : Kept s0 (State.hartRun s h) := by
  unfold State.hartRun
  with_reducible repeat' first | assumption | intro _ | apply State.setF_kept | apply State.setHart_kept | dsimp only | split

theorem State.hartReject_kept {s0 : State} {s : State} {h : Nat} (h_s : Kept s0 s) : Kept s0 (State.hartReject s h) := by
  unfold State.hartReject
  with_reducible repeat' first | assumption | intro _ | apply State.pulse_kept | apply State.setF_kept | dsimp only | split

theorem State.hartStart_kept {s0 : State} {s : State} {h : Nat} (h_s : Kept s0 s) : Kept s0 (State.hartStart s h) := by
  unfold State.hartStart
  with_reducible repeat' first | assumption | intro _ | apply State.hartReject_kept | apply State.hartRun_kept | apply State.pdAsk_kept | apply Kept.ite | dsimp only | split | apply Kept.mk

theorem State.hartStop_kept {s0 : State} {s : State} {m : Nat} {self : Nat} {h : Nat} (h_s : Kept s0 s) : Kept s0 (State.hartStop s m self h) := by
  unfold State.hartStop
  with_reducible repeat' first | assumption | intro _ | apply State.setF_kept | apply State.setHart_kept | apply State.hartReject_kept | apply Kept.ite | dsimp only | split

theorem State.hartCtrl_kept {s0 : State} {s : State} {m : Nat} {self : Nat} {h : Nat} {w : Sys2Proof.Word} (h_s : Kept s0 s) : Kept s0 (State.hartCtrl s m self h w) := by
  unfold State.hartCtrl
  with_reducible repeat' first | assumption | intro _ | apply State.hartReject_kept | apply State.hartStart_kept | apply State.hartStop_kept | apply State.setHart_kept | apply Kept.ite | dsimp only | split

theorem execHartStart_kept {s0 : State} {m : Nat} {self : Nat} {h : Nat} {s : State} (h_s : Kept s0 s) : KeptR s0 (execHartStart m self h s) := by
  unfold execHartStart
  with_reducible repeat' first | assumption | intro _ | apply State.write_kept | apply State.busError_kept | apply State.hartCtrl_kept | apply State.start_kept | apply KeptR.next | apply KeptR.ite | apply Kept.ite | dsimp only | split

theorem execHartStop_kept {s0 : State} {m : Nat} {self : Nat} {h : Nat} {s : State} (h_s : Kept s0 s) : KeptR s0 (execHartStop m self h s) := by
  unfold execHartStop
  with_reducible repeat' first | assumption | intro _ | apply State.write_kept | apply State.busError_kept | apply State.hartCtrl_kept | apply State.start_kept | apply KeptR.next | apply KeptR.ite | apply Kept.ite | dsimp only | split

theorem State.groupOn_kept {s0 : State} {s : State} {g : Nat} (h_s : Kept s0 s) : Kept s0 (State.groupOn s g) := by
  unfold State.groupOn
  with_reducible repeat' first | assumption | intro _ | apply State.setF_kept | apply State.hartRun_kept | apply Kept.fold | apply Kept.fold1 | dsimp only | split | apply Kept.mk

theorem execStimecmpMatch_kept {s0 : State} {h : Nat} {t : Nat} {s : State} (h_s : Kept s0 s) : KeptR s0 (execStimecmpMatch h t s) := by
  unfold execStimecmpMatch
  with_reducible repeat' first | assumption | intro _ | apply State.setHart_kept | apply State.start_kept | apply answer_kept | apply State.emit_kept | apply KeptR.next | apply KeptR.ite | apply Kept.ite | dsimp only | split

theorem State.setPending_kept {s0 : State} {s : State} {hart : Nat} {file : Nat} {e : Nat} (h_s : Kept s0 s) : Kept s0 (State.setPending s hart file e) := by
  unfold State.setPending
  with_reducible repeat' first | assumption | intro _ | apply Kept.ite | dsimp only | split | apply Kept.mk

theorem State.claim_kept {s0 : State} {s : State} {hart : Nat} {file : Nat} {l : List Nat} (h_s : Kept s0 s) : Kept s0 (State.claim s hart file l) := by
  unfold State.claim
  with_reducible repeat' first | assumption | intro _ | dsimp only | split | apply Kept.mk

theorem execMsiMessage_kept {s0 : State} {h : Nat} {file : Nat} {e : Nat} {claimed : List Nat} {s : State} (h_s : Kept s0 s) : KeptR s0 (execMsiMessage h file e claimed s) := by
  unfold execMsiMessage
  with_reducible repeat' first | assumption | intro _ | apply answer_kept | apply State.setPending_kept | apply State.claim_kept | apply State.start_kept | apply KeptR.next | dsimp only | split | apply Kept.mk

theorem State.imsicWrite_kept {s0 : State} {s : State} {hart : Nat} {file : Nat} {w : Sys2Proof.Word} (h_s : Kept s0 s) : Kept s0 (State.imsicWrite s hart file w) := by
  unfold State.imsicWrite
  with_reducible repeat' first | assumption | intro _ | apply State.sendMsi_kept | dsimp only | split

theorem State.aplicClear_kept {s0 : State} {s : State} {d : Nat} {n : Nat} (h_s : Kept s0 s) : Kept s0 (State.aplicClear s d n) := by
  unfold State.aplicClear
  with_reducible repeat' first | assumption | intro _ | apply State.wr_kept | apply State.setF_kept | dsimp only | split

theorem State.aplicSource_kept {s0 : State} {s : State} {d : Nat} {n : Nat} {w : Sys2Proof.Word} (h_s : Kept s0 s) : Kept s0 (State.aplicSource s d n w) := by
  unfold State.aplicSource
  with_reducible repeat' first | assumption | intro _ | apply State.aplicClear_kept | apply State.wr_kept | apply State.aplicInput_kept | apply Kept.ite | dsimp only | split

theorem State.aplicSetIp_kept {s0 : State} {s : State} {d : Nat} {n : Nat} (h_s : Kept s0 s) : Kept s0 (State.aplicSetIp s d n) := by
  unfold State.aplicSetIp
  with_reducible repeat' first | assumption | intro _ | apply State.aplicForward_kept | apply State.setF_kept | apply Kept.ite | dsimp only | split

theorem State.aplicClrIp_kept {s0 : State} {s : State} {d : Nat} {n : Nat} (h_s : Kept s0 s) : Kept s0 (State.aplicClrIp s d n) := by
  unfold State.aplicClrIp
  with_reducible repeat' first | assumption | intro _ | apply State.setF_kept | apply Kept.ite | dsimp only | split

theorem State.aplicSetIe_kept {s0 : State} {s : State} {d : Nat} {n : Nat} (h_s : Kept s0 s) : Kept s0 (State.aplicSetIe s d n) := by
  unfold State.aplicSetIe
  with_reducible repeat' first | assumption | intro _ | apply State.aplicForward_kept | apply State.setF_kept | apply Kept.ite | dsimp only | split

theorem State.aplicClrIe_kept {s0 : State} {s : State} {d : Nat} {n : Nat} (h_s : Kept s0 s) : Kept s0 (State.aplicClrIe s d n) := by
  unfold State.aplicClrIe
  with_reducible repeat' first | assumption | intro _ | apply State.setF_kept | apply Kept.ite | dsimp only | split

theorem State.aplicDomain_kept {s0 : State} {s : State} {d : Nat} {w : Sys2Proof.Word} (h_s : Kept s0 s) : Kept s0 (State.aplicDomain s d w) := by
  unfold State.aplicDomain
  with_reducible repeat' first | assumption | intro _ | apply State.aplicForward_kept | apply State.setF_kept | apply Kept.ite | apply Kept.fold | apply Kept.fold1 | dsimp only | split

theorem State.aplicTarget_kept {s0 : State} {s : State} {d : Nat} {n : Nat} {w : Sys2Proof.Word} (h_s : Kept s0 s) : Kept s0 (State.aplicTarget s d n w) := by
  unfold State.aplicTarget
  with_reducible repeat' first | assumption | intro _ | apply State.wr_kept | apply Kept.ite | dsimp only | split

theorem State.ownAplic_kept {s0 : State} {s : State} {b : Nat} {d : Nat} {k : Nat} {w : Sys2Proof.Word} (h_s : Kept s0 s) : KeptO s0 (State.ownAplic s b d k w) := by
  unfold State.ownAplic
  with_reducible repeat' first | assumption | intro _ | apply State.aplicDomain_kept | apply State.aplicSource_kept | apply State.aplicSetIp_kept | apply State.aplicClrIp_kept | apply State.aplicSetIe_kept | apply State.aplicClrIe_kept | apply State.aplicMsi_kept | apply State.aplicTarget_kept | apply KeptO.none | apply KeptO.some | apply KeptO.ite | apply Kept.ite | apply Kept.fold | apply Kept.fold1 | dsimp only | split

theorem State.lineLost_kept {s0 : State} {s : State} {a : Nat} (h_s : Kept s0 s) : Kept s0 (State.lineLost s a) := by
  unfold State.lineLost
  with_reducible repeat' first | assumption | intro _ | apply State.putAll_kept | apply State.tookFree_kept | apply State.poison_kept | dsimp only | split

theorem execCacheError_kept {s0 : State} {kind : Nat} {a : Nat} {s : State} (h_s : Kept s0 s) : KeptR s0 (execCacheError kind a s) := by
  unfold execCacheError
  with_reducible repeat' first | assumption | intro _ | apply answer_kept | apply State.pulse_kept | apply State.bump_kept | apply State.lineLost_kept | apply State.start_kept | apply KeptR.next | apply KeptR.ite | apply Kept.ite | dsimp only | split

/-! ## Machine/MoverCmds.lean -/

theorem State.pmvBell_kept {s0 : State} {s : State} {m : Nat} {r : Nat} {v : Nat} (h_s : Kept s0 s) : Kept s0 (State.pmvBell s m r v) := by
  unfold State.pmvBell
  with_reducible repeat' first | assumption | intro _ | apply State.ringPush_kept | dsimp only | split

theorem execPmvDoorbell_kept {s0 : State} {m : Nat} {i : Nat} {r : Nat} {v : Nat} {s : State} (h_s : Kept s0 s) : KeptR s0 (execPmvDoorbell m i r v s) := by
  unfold execPmvDoorbell
  with_reducible repeat' first | assumption | intro _ | apply State.write_kept | apply State.pmvBell_kept | apply State.start_kept | apply KeptR.next | dsimp only | split

theorem State.pmvCfg_kept {s0 : State} {s : State} {m : Nat} {r : Nat} {w : Sys2Proof.Word} (h_s : Kept s0 s) : Kept s0 (State.pmvCfg s m r w) := by
  unfold State.pmvCfg
  with_reducible repeat' first | assumption | intro _ | apply State.setF_kept | apply Kept.ite | dsimp only | split

theorem execPmvRingCfgWrite_kept {s0 : State} {m : Nat} {i : Nat} {r : Nat} {v : Nat} {s : State} (h_s : Kept s0 s) : KeptR s0 (execPmvRingCfgWrite m i r v s) := by
  unfold execPmvRingCfgWrite
  with_reducible repeat' first | assumption | intro _ | apply State.write_kept | apply State.pmvCfg_kept | apply State.start_kept | apply KeptR.next | dsimp only | split

theorem moveRow_kept {s0 : State} {m : Nat} {p : Nat → Bool} {s : State} (h_s : Kept s0 s) : KeptR s0 (moveRow m p s) := by
  unfold moveRow
  with_reducible repeat' first | assumption | intro _ | apply State.startCows_kept | apply State.startMove_kept | apply State.start_kept | apply answer_kept | apply KeptR.next | dsimp only | split

theorem execPmvCopy_kept {s0 : State} {m : Nat} {s : State} (h_s : Kept s0 s) : KeptR s0 (execPmvCopy m s) := by
  unfold execPmvCopy
  with_reducible repeat' first | assumption | intro _ | apply moveRow_kept | apply KeptR.next | dsimp only | split

theorem execPmvFill_kept {s0 : State} {m : Nat} {s : State} (h_s : Kept s0 s) : KeptR s0 (execPmvFill m s) := by
  unfold execPmvFill
  with_reducible repeat' first | assumption | intro _ | apply moveRow_kept | apply KeptR.next | dsimp only | split

theorem execPmvTranspose_kept {s0 : State} {m : Nat} {s : State} (h_s : Kept s0 s) : KeptR s0 (execPmvTranspose m s) := by
  unfold execPmvTranspose
  with_reducible repeat' first | assumption | intro _ | apply moveRow_kept | apply KeptR.next | dsimp only | split

theorem execPmvDecomp_kept {s0 : State} {m : Nat} {s : State} (h_s : Kept s0 s) : KeptR s0 (execPmvDecomp m s) := by
  unfold execPmvDecomp
  with_reducible repeat' first | assumption | intro _ | apply moveRow_kept | apply KeptR.next | dsimp only | split

theorem execPmvFetch_kept {s0 : State} {m : Nat} {s : State} (h_s : Kept s0 s) : KeptR s0 (execPmvFetch m s) := by
  unfold execPmvFetch
  with_reducible repeat' first | assumption | intro _ | apply moveRow_kept | apply KeptR.next | dsimp only | split

theorem execPmvFetchNvme_kept {s0 : State} {m : Nat} {s : State} (h_s : Kept s0 s) : KeptR s0 (execPmvFetchNvme m s) := by
  unfold execPmvFetchNvme
  with_reducible repeat' first | assumption | intro _ | apply moveRow_kept | apply KeptR.next | dsimp only | split

theorem State.cqePop_kept {s0 : State} {s : State} {m : Nat} (h_s : Kept s0 s) : Kept s0 (State.cqePop s m) := by
  unfold State.cqePop
  with_reducible repeat' first | assumption | intro _ | apply State.pWrite_kept | apply State.setMover_kept | apply Kept.ite | dsimp only | split

theorem State.failMove_kept {s0 : State} {s : State} {m : Nat} {id : Nat} {c : Nat} (h_s : Kept s0 s) : Kept s0 (State.failMove s m id c) := by
  unfold State.failMove
  with_reducible repeat' first | assumption | intro _ | apply State.putMove_kept | apply Kept.ite | dsimp only | split

theorem State.cqeTaken_kept {s0 : State} {s : State} {m : Nat} {status : Nat} {ok : Bool} {x0 : Option (Nat × Nat)} (h_s : Kept s0 s) : Kept s0 (State.cqeTaken s m status ok x0) := by
  unfold State.cqeTaken
  with_reducible repeat' first | assumption | intro _ | apply State.pump_kept | apply State.failMove_kept | apply State.pieceGot_kept | apply State.pieceFailed_kept | apply Kept.ite | dsimp only | split

theorem execNvmeCompletion_kept {s0 : State} {m : Nat} {s : State} (h_s : Kept s0 s) : KeptR s0 (execNvmeCompletion m s) := by
  unfold execNvmeCompletion
  with_reducible repeat' first | assumption | intro _ | apply State.cqePop_kept | apply State.start_kept | apply State.checkAll_kept | apply answer_kept | apply State.cqeTaken_kept | apply KeptR.next | dsimp only | split

theorem execSheetReadTimeout_kept {s0 : State} {m : Nat} {i : Nat} {k : Nat} {s : State} (h_s : Kept s0 s) : KeptR s0 (execSheetReadTimeout m i k s) := by
  unfold execSheetReadTimeout
  with_reducible repeat' first | assumption | intro _ | apply State.pump_kept | apply State.pieceFailed_kept | apply State.start_kept | apply answer_kept | apply KeptR.next | dsimp only | split

theorem State.setProvs_kept {s0 : State} {s : State} {bs : List Nat} (h_s : Kept s0 s) : Kept s0 (State.setProvs s bs) := by
  unfold State.setProvs
  with_reducible repeat' first | assumption | intro _ | apply State.setTag_kept | apply Kept.fold | apply Kept.fold1 | dsimp only | split

theorem State.moveStore_kept {s0 : State} {s : State} {m : Nat} {v : Move} {d : MoveDesc} {ws : List (Sys2Proof.Addr × Sys2Proof.Byte)} (h_s : Kept s0 s) : Kept s0 (State.moveStore s m v d ws).1 := by
  unfold State.moveStore
  with_reducible repeat' first | assumption | intro _ | apply State.pWrite_kept | apply State.store_kept | apply State.setProvs_kept | apply Kept.ite1 | apply Kept.ite | dsimp only | split

theorem State.moveRun_kept {s0 : State} {s : State} {m : Nat} {v : Move} {d : MoveDesc} {reads : List Nat} (h_s : Kept s0 s) : Kept s0 (State.moveRun s m v d reads) := by
  unfold State.moveRun
  with_reducible repeat' first | assumption | intro _ | apply State.putMove_kept | apply State.checkRead_kept | apply State.moveFail_kept | apply State.noteReads_kept | apply State.regulateAll_kept | apply State.report_kept | apply State.moveStore_kept | apply State.moveDone_kept | apply Kept.ite | dsimp only | split

theorem execMoveComplete_kept {s0 : State} {m : Nat} {i : Nat} {s : State} (h_s : Kept s0 s) : KeptR s0 (execMoveComplete m i s) := by
  unfold execMoveComplete
  with_reducible repeat' first | assumption | intro _ | apply answer_kept | apply State.start_kept | apply State.moveFail_kept | apply State.moveRun_kept | apply State.moveDone_kept | apply KeptR.next | apply KeptR.ite | apply Kept.ite | dsimp only | split

/-! ## Machine/ClusterCmds.lean -/

theorem State.acceptCal_kept {s0 : State} {s : State} {n : Nat} {o : Op} (h_s : Kept s0 s) : Kept s0 (State.acceptCal s n o) := by
  unfold State.acceptCal
  with_reducible repeat' first | assumption | intro _ | apply State.accept_kept | apply State.endUntouched_kept | apply State.setCl_kept | dsimp only | split

theorem State.acceptBtr_kept {s0 : State} {s : State} {n : Nat} {o : Op} (h_s : Kept s0 s) : Kept s0 (State.acceptBtr s n o) := by
  unfold State.acceptBtr
  with_reducible repeat' first | assumption | intro _ | apply State.accept_kept | apply State.setCl_kept | apply State.btrEnd_kept | dsimp only | split

theorem beaterRow_kept {s0 : State} {op : Nat} {n : Nat} {s : State} (h_s : Kept s0 s) : KeptR s0 (beaterRow op n s) := by
  unfold beaterRow
  with_reducible repeat' first | assumption | intro _ | apply State.acceptBtr_kept | apply State.start_kept | apply answer_kept | apply KeptR.next | dsimp only | split

theorem execQorazNop_kept {s0 : State} {n : Nat} {s : State} (h_s : Kept s0 s) : KeptR s0 (execQorazNop n s) := by
  unfold execQorazNop
  with_reducible repeat' first | assumption | intro _ | apply State.acceptCal_kept | apply State.start_kept | apply answer_kept | apply KeptR.next | dsimp only | split

theorem execGemm_kept {s0 : State} {n : Nat} {s : State} (h_s : Kept s0 s) : KeptR s0 (execGemm n s) := by
  unfold execGemm
  with_reducible repeat' first | assumption | intro _ | apply State.acceptCal_kept | apply State.start_kept | apply answer_kept | apply KeptR.next | dsimp only | split

theorem execConv_kept {s0 : State} {n : Nat} {s : State} (h_s : Kept s0 s) : KeptR s0 (execConv n s) := by
  unfold execConv
  with_reducible repeat' first | assumption | intro _ | apply State.acceptCal_kept | apply State.start_kept | apply answer_kept | apply KeptR.next | dsimp only | split

theorem execEw_kept {s0 : State} {n : Nat} {s : State} (h_s : Kept s0 s) : KeptR s0 (execEw n s) := by
  unfold execEw
  with_reducible repeat' first | assumption | intro _ | apply beaterRow_kept | apply KeptR.next | dsimp only | split

theorem execConvertOp_kept {s0 : State} {n : Nat} {s : State} (h_s : Kept s0 s) : KeptR s0 (execConvertOp n s) := by
  unfold execConvertOp
  with_reducible repeat' first | assumption | intro _ | apply beaterRow_kept | apply KeptR.next | dsimp only | split

theorem execCurveOp_kept {s0 : State} {n : Nat} {s : State} (h_s : Kept s0 s) : KeptR s0 (execCurveOp n s) := by
  unfold execCurveOp
  with_reducible repeat' first | assumption | intro _ | apply beaterRow_kept | apply KeptR.next | dsimp only | split

theorem execReduceOp_kept {s0 : State} {n : Nat} {s : State} (h_s : Kept s0 s) : KeptR s0 (execReduceOp n s) := by
  unfold execReduceOp
  with_reducible repeat' first | assumption | intro _ | apply beaterRow_kept | apply KeptR.next | dsimp only | split

theorem execNormOp_kept {s0 : State} {n : Nat} {s : State} (h_s : Kept s0 s) : KeptR s0 (execNormOp n s) := by
  unfold execNormOp
  with_reducible repeat' first | assumption | intro _ | apply beaterRow_kept | apply KeptR.next | dsimp only | split

theorem execSplitkSum_kept {s0 : State} {n : Nat} {s : State} (h_s : Kept s0 s) : KeptR s0 (execSplitkSum n s) := by
  unfold execSplitkSum
  with_reducible repeat' first | assumption | intro _ | apply beaterRow_kept | apply KeptR.next | dsimp only | split

theorem execDotOp_kept {s0 : State} {n : Nat} {s : State} (h_s : Kept s0 s) : KeptR s0 (execDotOp n s) := by
  unfold execDotOp
  with_reducible repeat' first | assumption | intro _ | apply beaterRow_kept | apply KeptR.next | dsimp only | split

theorem execWindowOp_kept {s0 : State} {n : Nat} {s : State} (h_s : Kept s0 s) : KeptR s0 (execWindowOp n s) := by
  unfold execWindowOp
  with_reducible repeat' first | assumption | intro _ | apply beaterRow_kept | apply KeptR.next | dsimp only | split

theorem execAttnExp_kept {s0 : State} {n : Nat} {s : State} (h_s : Kept s0 s) : KeptR s0 (execAttnExp n s) := by
  unfold execAttnExp
  with_reducible repeat' first | assumption | intro _ | apply beaterRow_kept | apply KeptR.next | dsimp only | split

theorem execAttnMerge_kept {s0 : State} {n : Nat} {s : State} (h_s : Kept s0 s) : KeptR s0 (execAttnMerge n s) := by
  unfold execAttnMerge
  with_reducible repeat' first | assumption | intro _ | apply beaterRow_kept | apply KeptR.next | dsimp only | split

theorem execAttnNorm_kept {s0 : State} {n : Nat} {s : State} (h_s : Kept s0 s) : KeptR s0 (execAttnNorm n s) := by
  unfold execAttnNorm
  with_reducible repeat' first | assumption | intro _ | apply beaterRow_kept | apply KeptR.next | dsimp only | split

theorem execBoxDecode_kept {s0 : State} {n : Nat} {s : State} (h_s : Kept s0 s) : KeptR s0 (execBoxDecode n s) := by
  unfold execBoxDecode
  with_reducible repeat' first | assumption | intro _ | apply beaterRow_kept | apply KeptR.next | dsimp only | split

theorem execNms_kept {s0 : State} {n : Nat} {s : State} (h_s : Kept s0 s) : KeptR s0 (execNms n s) := by
  unfold execNms
  with_reducible repeat' first | assumption | intro _ | apply beaterRow_kept | apply KeptR.next | dsimp only | split

theorem execStateStep_kept {s0 : State} {n : Nat} {s : State} (h_s : Kept s0 s) : KeptR s0 (execStateStep n s) := by
  unfold execStateStep
  with_reducible repeat' first | assumption | intro _ | apply beaterRow_kept | apply KeptR.next | dsimp only | split

theorem State.opWaits_kept {s0 : State} {s : State} {n : Nat} {o : Op} {b : Nat} (h_s : Kept s0 s) : Kept s0 (State.opWaits s n o b) := by
  unfold State.opWaits
  with_reducible repeat' first | assumption | intro _ | apply State.putOp_kept | dsimp only | split

theorem State.opReported_kept {s0 : State} {s : State} {n : Nat} {o : Op} {st : Nat} {det : Nat} (h_s : Kept s0 s) : Kept s0 (State.opReported s n o st det) := by
  unfold State.opReported
  with_reducible repeat' first | assumption | intro _ | apply State.putOp_kept | dsimp only | split

theorem State.cowStart_kept {s0 : State} {s : State} {o : Op} {need : Nat × Nat × Nat} (h_s : Kept s0 s) : Kept s0 (State.cowStart s o need) := by
  unfold State.cowStart
  repeat' first | with_reducible assumption | with_reducible intro _ | with_reducible apply State.opWaits_kept | with_reducible apply State.startCow_kept | (refine State.startCow_kept ?_ (_, _) (by with_reducible assumption)) | with_reducible apply State.startCows_kept | with_reducible apply State.endPoisoned_kept | with_reducible apply State.bump_kept | dsimp only | split

theorem State.transfer_kept {s0 : State} {s : State} {n : Nat} {o : Op} (h_s : Kept s0 s) : Kept s0 (State.transfer s n o) := by
  unfold State.transfer
  with_reducible repeat' first | assumption | intro _ | apply State.opWaits_kept | apply State.endPoisoned_kept | apply State.opReported_kept | apply State.checkRead_kept | apply State.putOp_kept | apply State.noteReads_kept | apply State.cowStart_kept | apply State.store_kept | apply State.regulateWrites_kept | apply State.regulateAll_kept | apply Kept.ite | dsimp only | split

theorem State.acceptMove_kept {s0 : State} {s : State} {n : Nat} {o : Op} (h_s : Kept s0 s) : Kept s0 (State.acceptMove s n o) := by
  unfold State.acceptMove
  with_reducible repeat' first | assumption | intro _ | apply State.accept_kept | apply State.endUntouched_kept | apply State.setCl_kept | apply State.transfer_kept | apply Kept.ite | dsimp only | split

theorem execQorazLoad_kept {s0 : State} {n : Nat} {s : State} (h_s : Kept s0 s) : KeptR s0 (execQorazLoad n s) := by
  unfold execQorazLoad
  with_reducible repeat' first | assumption | intro _ | apply State.acceptMove_kept | apply State.start_kept | apply answer_kept | apply KeptR.next | dsimp only | split

theorem execQorazStore_kept {s0 : State} {n : Nat} {s : State} (h_s : Kept s0 s) : KeptR s0 (execQorazStore n s) := by
  unfold execQorazStore
  with_reducible repeat' first | assumption | intro _ | apply State.acceptMove_kept | apply State.start_kept | apply answer_kept | apply KeptR.next | dsimp only | split

theorem execLoadStoreComplete_kept {s0 : State} {n : Nat} {i : Nat} {ep : Nat} {s : State} (h_s : Kept s0 s) : KeptR s0 (execLoadStoreComplete n i ep s) := by
  unfold execLoadStoreComplete
  with_reducible repeat' first | assumption | intro _ | apply answer_kept | apply State.staleDrop_kept | apply State.start_kept | apply State.finish_kept | apply State.transfer_kept | apply KeptR.next | apply KeptR.ite | apply Kept.ite | dsimp only | split

theorem State.loadCurve_kept {s0 : State} {s : State} {n : Nat} {o : Op} {a : Nat} (h_s : Kept s0 s) : Kept s0 (State.loadCurve s n o a) := by
  unfold State.loadCurve
  with_reducible repeat' first | assumption | intro _ | apply State.bump_kept | apply State.opWaits_kept | apply State.opReported_kept | apply State.checkRead_kept | apply State.btrEnd_kept | apply State.noteReads_kept | apply State.putOp_kept | apply State.setCl_kept | apply Kept.ite | dsimp only | split

theorem execCurveSlotLoadDone_kept {s0 : State} {n : Nat} {s : State} (h_s : Kept s0 s) : KeptR s0 (execCurveSlotLoadDone n s) := by
  unfold execCurveSlotLoadDone
  with_reducible repeat' first | assumption | intro _ | apply answer_kept | apply State.loadCurve_kept | apply State.start_kept | apply KeptR.next | dsimp only | split

theorem State.runLanes_kept {s0 : State} {s : State} {n : Nat} {o : Op} (h_s : Kept s0 s) : Kept s0 (State.runLanes s n o) := by
  unfold State.runLanes
  with_reducible repeat' first | assumption | intro _ | apply State.btrEnd_kept | apply State.opWaits_kept | apply State.opReported_kept | apply State.checkRead_kept | apply State.noteReads_kept | apply State.tookFree_kept | apply State.store_kept | apply State.regulateWrites_kept | apply State.setCl_kept | apply State.putOp_kept | apply State.bump_kept | apply Kept.ite | dsimp only | split

theorem execLanePhaseStart_kept {s0 : State} {n : Nat} {stall : Nat} {s : State} (h_s : Kept s0 s) : KeptR s0 (execLanePhaseStart n stall s) := by
  unfold execLanePhaseStart
  with_reducible repeat' first | assumption | intro _ | apply State.runLanes_kept | apply State.bump_kept | apply State.start_kept | apply answer_kept | apply KeptR.next | dsimp only | split

theorem execBeaterOpComplete_kept {s0 : State} {n : Nat} {ep : Nat} {s : State} (h_s : Kept s0 s) : KeptR s0 (execBeaterOpComplete n ep s) := by
  unfold execBeaterOpComplete
  with_reducible repeat' first | assumption | intro _ | apply answer_kept | apply State.staleDrop_kept | apply State.start_kept | apply State.bump_kept | apply State.finish_kept | apply KeptR.next | apply KeptR.ite | apply Kept.ite | dsimp only | split

theorem State.beginChain_kept {s0 : State} {s : State} {n : Nat} {o : Op} (h_s : Kept s0 s) : Kept s0 (State.beginChain s n o) := by
  unfold State.beginChain
  with_reducible repeat' first | assumption | intro _ | apply State.putOp_kept | apply State.setCl_kept | apply Kept.ite | dsimp only | split

theorem State.readyChain_kept {s0 : State} {s : State} {n : Nat} (h_s : Kept s0 s) : KeptO1 s0 (State.readyChain s n) := by
  unfold State.readyChain
  have key : ∀ {t : State} {ch : Chain}, Kept s0 t → KeptO1 s0 (((t.cl n).cal.find? (fun o => o.id == ch.op)).map (fun o => (t, o, ch))) := by
    intro t ch h p e
    cases hx : (t.cl n).cal.find? (fun o => o.id == ch.op) with
    | none => rw [hx] at e; cases e
    | some o => rw [hx] at e; cases e; exact h
  repeat' first | with_reducible assumption | with_reducible apply KeptO1.none | with_reducible apply key | with_reducible apply State.beginChain_kept | with_reducible apply KeptO1.ite | dsimp only | split

theorem State.stallTick_kept {s0 : State} {s : State} {k : Nat} (h_s : Kept s0 s) : Kept s0 (State.stallTick s k) := by
  unfold State.stallTick
  with_reducible repeat' first | assumption | intro _ | apply State.bump_kept | apply Kept.fold | apply Kept.fold1 | dsimp only | split

theorem State.wdogTick_kept {s0 : State} {s : State} {k : Nat} (h_s : Kept s0 s) : Kept s0 (State.wdogTick s k) := by
  unfold State.wdogTick
  with_reducible repeat' first | assumption | intro _ | apply Kept.ite | dsimp only | split | apply Kept.mk

theorem State.spendCredit_kept {s0 : State} {s : State} {n : Nat} (h_s : Kept s0 s) : Kept s0 (State.spendCredit s n) := by
  unfold State.spendCredit
  with_reducible repeat' first | assumption | intro _ | apply State.setCl_kept | dsimp only | split

theorem State.workCycle_kept {s0 : State} {s : State} {n : Nat} {o : Op} {ch : Chain} (h_s : Kept s0 s) : Kept s0 (State.workCycle s n o ch) := by
  unfold State.workCycle
  with_reducible repeat' first | assumption | intro _ | apply State.endPoisoned_kept | apply State.opWaits_kept | apply State.spendCredit_kept | apply State.putOp_kept | apply State.meetProv_kept | apply State.setCl_kept | apply Kept.ite | dsimp only | split

theorem execWorkCycle_kept {s0 : State} {n : Nat} {s : State} (h_s : Kept s0 s) : KeptR s0 (execWorkCycle n s) := by
  unfold execWorkCycle
  repeat' first | with_reducible assumption | with_reducible intro _ | with_reducible apply State.readyChain_kept | (refine State.readyChain_kept ?_ (_, _) (by with_reducible assumption)) | with_reducible apply State.start_kept | with_reducible apply answer_kept | with_reducible apply State.workCycle_kept | with_reducible apply KeptR.next | dsimp only | split

theorem State.endingChain_kept {s0 : State} {s : State} {n : Nat} (h_s : Kept s0 s) : KeptO1 s0 (State.endingChain s n) := by
  unfold State.endingChain
  repeat' first | with_reducible assumption | with_reducible intro _ | with_reducible apply State.readyChain_kept | (refine State.readyChain_kept ?_ (_, _) (by with_reducible assumption)) | with_reducible apply KeptO1.none | with_reducible apply KeptO1.some | with_reducible apply KeptO1.ite | with_reducible apply Kept.ite | dsimp only | split

theorem execChainAccumulationEnd_kept {s0 : State} {n : Nat} {s : State} (h_s : Kept s0 s) : KeptR s0 (execChainAccumulationEnd n s) := by
  unfold execChainAccumulationEnd
  repeat' first | with_reducible assumption | with_reducible intro _ | with_reducible apply State.endingChain_kept | (refine State.endingChain_kept ?_ (_, _) (by with_reducible assumption)) | with_reducible apply State.start_kept | with_reducible apply answer_kept | with_reducible apply State.setCl_kept | with_reducible apply KeptR.next | dsimp only | split

theorem State.checkRow_kept {s0 : State} {s : State} {n : Nat} {o : Op} {d : OpDesc} {x : OpCtx} {c : Nat} {r : Nat} {row : RowAcc} (h_s : Kept s0 s) : Kept s0 (State.checkRow s n o d x c r row) := by
  unfold State.checkRow
  with_reducible repeat' first | assumption | intro _ | apply State.bump_kept | apply State.putOp_kept | apply State.report_kept | apply State.setF_kept | apply Kept.ite | dsimp only | split

theorem State.writeDrain_kept {s0 : State} {s : State} {n : Nat} {o : Op} {ch : Chain} (h_s : Kept s0 s) : Kept s0 (State.writeDrain s n o ch) := by
  unfold State.writeDrain
  with_reducible repeat' first | assumption | intro _ | apply State.endPoisoned_kept | apply State.opWaits_kept | apply State.cowStart_kept | apply State.store_kept | apply State.regulateWrites_kept | apply State.putOp_kept | apply State.meetProv_kept | apply State.tookFree_kept | apply State.setCl_kept | apply State.opReported_kept | apply Kept.ite | dsimp only | split

theorem execDrainStart_kept {s0 : State} {n : Nat} {ups : List (Nat × Nat × Nat)} {s : State} (h_s : Kept s0 s) : KeptR s0 (execDrainStart n ups s) := by
  unfold execDrainStart
  with_reducible repeat' first | assumption | intro _ | apply answer_kept | apply State.setCl_kept | apply State.start_kept | apply State.checkRow_kept | apply State.writeDrain_kept | apply KeptR.next | apply Kept.fold | apply Kept.fold1 | dsimp only | split

theorem State.drained_kept {s0 : State} {s : State} {n : Nat} {ch : Chain} (h_s : Kept s0 s) : Kept s0 (State.drained s n ch) := by
  unfold State.drained
  with_reducible repeat' first | assumption | intro _ | apply State.setCl_kept | apply State.putOp_kept | dsimp only | split

theorem execDrainComplete_kept {s0 : State} {n : Nat} {s : State} (h_s : Kept s0 s) : KeptR s0 (execDrainComplete n s) := by
  unfold execDrainComplete
  with_reducible repeat' first | assumption | intro _ | apply answer_kept | apply State.drained_kept | apply State.start_kept | apply State.writeDrain_kept | apply KeptR.next | apply KeptR.ite | apply Kept.ite | dsimp only | split

theorem execCalenderOpComplete_kept {s0 : State} {n : Nat} {ep : Nat} {s : State} (h_s : Kept s0 s) : KeptR s0 (execCalenderOpComplete n ep s) := by
  unfold execCalenderOpComplete
  with_reducible repeat' first | assumption | intro _ | apply answer_kept | apply State.staleDrop_kept | apply State.start_kept | apply State.bump_kept | apply State.finish_kept | apply KeptR.next | apply KeptR.ite | apply Kept.ite | dsimp only | split

theorem execCowCopyComplete_kept {s0 : State} {i : Nat} {s : State} (h_s : Kept s0 s) : KeptR s0 (execCowCopyComplete i s) := by
  unfold execCowCopyComplete
  with_reducible repeat' first | assumption | intro _ | apply answer_kept | apply State.pump_kept | apply State.finishCow_kept | apply State.start_kept | apply KeptR.next | dsimp only | split

theorem State.commitRepair_kept {s0 : State} {s : State} {n : Nat} {ok : Bool} (h_s : Kept s0 s) : Kept s0 (State.commitRepair s n ok) := by
  unfold State.commitRepair
  with_reducible repeat' first | assumption | intro _ | apply State.setF_kept | apply Kept.ite | dsimp only | split

/-! ## Machine/IntegrityCmds.lean -/

theorem execCheckFailureReport_kept {s0 : State} {ext : Option Sys2Proof.Report} {s : State} (h_s : Kept s0 s) : KeptR s0 (execCheckFailureReport ext s) := by
  unfold execCheckFailureReport
  with_reducible repeat' first | assumption | intro _ | apply answer_kept | apply State.onReport_kept | apply State.start_kept | apply KeptR.next | dsimp only | split | apply Kept.mk

theorem execWatchdogExpiry_kept {s0 : State} {n : Nat} {s : State} (h_s : Kept s0 s) : KeptR s0 (execWatchdogExpiry n s) := by
  unfold execWatchdogExpiry
  with_reducible repeat' first | assumption | intro _ | apply State.onReport_kept | apply State.start_kept | apply answer_kept | apply KeptR.next | dsimp only | split

theorem State.meshFatal_kept {s0 : State} {s : State} (h_s : Kept s0 s) : Kept s0 (State.meshFatal s) := by
  unfold State.meshFatal
  with_reducible repeat' first | assumption | intro _ | apply State.emit_kept | apply State.pulse_kept | apply State.writeBroke_kept | dsimp only | split | apply Kept.mk

theorem execMeshParityError_kept {s0 : State} {tries : Nat} {s : State} (h_s : Kept s0 s) : KeptR s0 (execMeshParityError tries s) := by
  unfold execMeshParityError
  with_reducible repeat' first | assumption | intro _ | apply answer_kept | apply State.start_kept | apply State.meshFatal_kept | apply KeptR.next | apply KeptR.ite | apply Kept.ite | dsimp only | split

theorem execHeaderParityError_kept {s0 : State} {u : Nat} {op : Nat} {move : Nat} {s : State} (h_s : Kept s0 s) : KeptR s0 (execHeaderParityError u op move s) := by
  unfold execHeaderParityError
  with_reducible repeat' first | assumption | intro _ | apply State.say_kept | apply State.report_kept | apply State.start_kept | apply KeptR.next | apply KeptR.ite | apply Kept.ite | dsimp only | split

theorem execTrackerResolve_kept {s0 : State} {p : Nat} {i : Nat} {s : State} (h_s : Kept s0 s) : KeptR s0 (execTrackerResolve p i s) := by
  unfold execTrackerResolve
  with_reducible repeat' first | assumption | intro _ | apply answer_kept | apply State.leaveTracker_kept | apply State.start_kept | apply State.resolve_kept | apply KeptR.next | dsimp only | split

theorem execProvTimeout_kept {s0 : State} {p : Nat} {i : Nat} {s : State} (h_s : Kept s0 s) : KeptR s0 (execProvTimeout p i s) := by
  unfold execProvTimeout
  with_reducible repeat' first | assumption | intro _ | apply answer_kept | apply State.resolve_kept | apply State.start_kept | apply KeptR.next | dsimp only | split

theorem State.ftWrite_kept {s0 : State} {s : State} {w : Sys2Proof.Word} (h_s : Kept s0 s) : Kept s0 (State.ftWrite s w) := by
  unfold State.ftWrite
  with_reducible repeat' first | assumption | intro _ | apply State.setF_kept | apply State.ftRequest_kept | apply State.startDrains_kept | apply Kept.ite | dsimp only | split

theorem execFtRequest_kept {s0 : State} {m : Nat} {v : Nat} {s : State} (h_s : Kept s0 s) : KeptR s0 (execFtRequest m v s) := by
  unfold execFtRequest
  with_reducible repeat' first | assumption | intro _ | apply State.write_kept | apply State.ftWrite_kept | apply State.start_kept | apply KeptR.next | dsimp only | split

theorem execSweepTestDue_kept {s0 : State} {n : Nat} {s : State} (h_s : Kept s0 s) : KeptR s0 (execSweepTestDue n s) := by
  unfold execSweepTestDue
  with_reducible repeat' first | assumption | intro _ | apply answer_kept | apply State.startDrains_kept | apply State.ftRequest_kept | apply State.start_kept | apply KeptR.next | dsimp only | split

theorem execFieldTestStart_kept {s0 : State} {tj : Int} {s : State} (h_s : Kept s0 s) : KeptR s0 (execFieldTestStart tj s) := by
  unfold execFieldTestStart
  with_reducible repeat' first | assumption | intro _ | apply State.startTest_kept | apply State.start_kept | apply answer_kept | apply KeptR.next | dsimp only | split

theorem State.ftFail_kept {s0 : State} {s : State} {n : Nat} {srow : Nat} {nom : Bool} (h_s : Kept s0 s) : Kept s0 (State.ftFail s n srow nom) := by
  unfold State.ftFail
  with_reducible repeat' first | assumption | intro _ | apply State.setF_kept | apply Kept.ite | dsimp only | split

theorem execFieldTestEnd_kept {s0 : State} {n : Nat} {out : Nat} {row : Option Nat} {col : Option Nat} {srow : Nat} {nom : Bool} {s : State} (h_s : Kept s0 s) : KeptR s0 (execFieldTestEnd n out row col srow nom s) := by
  unfold execFieldTestEnd
  with_reducible repeat' first | assumption | intro _ | apply State.start_kept | apply answer_kept | apply State.startDrains_kept | apply State.passTest_kept | apply State.locateFault_kept | apply State.ftFail_kept | apply State.retireCluster_kept | apply KeptR.next | apply KeptR.ite | apply Kept.ite | dsimp only | split | apply Kept.mk

theorem execRepairRecordCommit_kept {s0 : State} {n : Nat} {ok : Bool} {s : State} (h_s : Kept s0 s) : KeptR s0 (execRepairRecordCommit n ok s) := by
  unfold execRepairRecordCommit
  with_reducible repeat' first | assumption | intro _ | apply State.commitRepair_kept | apply State.start_kept | apply answer_kept | apply State.ftRequest_kept | apply State.setSvc_kept | apply State.retireCluster_kept | apply KeptR.next | apply KeptR.ite | apply Kept.ite | dsimp only | split

theorem State.brokePop_kept {s0 : State} {s : State} {v : Nat} (h_s : Kept s0 s) : Kept s0 (State.brokePop s v) := by
  unfold State.brokePop
  with_reducible repeat' first | assumption | intro _ | apply State.setF_kept | apply Kept.ite | dsimp only | split

theorem State.brokeEnable_kept {s0 : State} {s : State} {w : Sys2Proof.Word} (h_s : Kept s0 s) : Kept s0 (State.brokeEnable s w) := by
  unfold State.brokeEnable
  with_reducible repeat' first | assumption | intro _ | apply State.setF_kept | apply Kept.ite | dsimp only | split

theorem execBrokeHeadWrite_kept {s0 : State} {m : Nat} {v : Nat} {s : State} (h_s : Kept s0 s) : KeptR s0 (execBrokeHeadWrite m v s) := by
  unfold execBrokeHeadWrite
  with_reducible repeat' first | assumption | intro _ | apply State.write_kept | apply State.brokePop_kept | apply State.start_kept | apply KeptR.next | dsimp only | split

/-! ## Machine/Tilth.lean -/

theorem State.setCtx_kept {s0 : State} {s : State} {c : Nat} {x : TltCtx} (h_s : Kept s0 s) : Kept s0 (State.setCtx s c x) := by
  unfold State.setCtx
  with_reducible repeat' first | assumption | intro _ | dsimp only | split | apply Kept.mk

theorem State.tltEvent_kept {s0 : State} {s : State} {hi : Nat} {err : Bool} (h_s : Kept s0 s) : Kept s0 (State.tltEvent s hi err) := by
  unfold State.tltEvent
  with_reducible repeat' first | assumption | intro _ | apply State.irqMsg_kept | apply State.setF_kept | dsimp only | split

theorem State.commitGroup_kept {s0 : State} {s : State} {c : Nat} {g : Nat} (h_s : Kept s0 s) : Kept s0 (State.commitGroup s c g) := by
  unfold State.commitGroup
  with_reducible repeat' first | assumption | intro _ | apply State.setCtx_kept | apply Kept.ite | apply Kept.fold | apply Kept.fold1 | dsimp only | split

theorem State.lawDone_kept {s0 : State} {s : State} {c : Nat} {err : Nat} {l : Law} (h_s : Kept s0 s) : Kept s0 (State.lawDone s c err l) := by
  unfold State.lawDone
  with_reducible repeat' first | assumption | intro _ | apply State.tltEvent_kept | apply State.setF_kept | apply State.setCtx_kept | apply Kept.ite | dsimp only | split

theorem State.lawCmd_kept {s0 : State} {s : State} {c : Nat} {w : Sys2Proof.Word} (h_s : Kept s0 s) : Kept s0 (State.lawCmd s c w) := by
  unfold State.lawCmd
  with_reducible repeat' first | assumption | intro _ | apply State.setCtx_kept | apply Kept.ite | dsimp only | split

theorem execLawLoad_kept {s0 : State} {m : Nat} {c : Nat} {s : State} (h_s : Kept s0 s) : KeptR s0 (execLawLoad m c s) := by
  unfold execLawLoad
  with_reducible repeat' first | assumption | intro _ | apply State.write_kept | apply State.lawCmd_kept | apply State.start_kept | apply KeptR.next | dsimp only | split

theorem State.tltNote_kept {s0 : State} {s : State} {a : Nat} {n : Nat} (h_s : Kept s0 s) : Kept s0 (State.tltNote s a n) := by
  unfold State.tltNote
  with_reducible repeat' first | assumption | intro _ | apply State.rawCheck_kept | apply State.unitRead_kept | apply Kept.ite | apply Kept.fold | apply Kept.fold1 | dsimp only | split

theorem execSetpointCellChange_kept {s0 : State} {c : Nat} {s : State} (h_s : Kept s0 s) : KeptR s0 (execSetpointCellChange c s) := by
  unfold execSetpointCellChange
  with_reducible repeat' first | assumption | intro _ | apply answer_kept | apply State.setCtx_kept | apply State.start_kept | apply KeptR.next | dsimp only | split

theorem State.spReject_kept {s0 : State} {s : State} {c : Nat} (h_s : Kept s0 s) : Kept s0 (State.spReject s c) := by
  unfold State.spReject
  with_reducible repeat' first | assumption | intro _ | apply State.setF_kept | apply State.bump_kept | dsimp only | split

theorem State.testOver_kept {s0 : State} {s : State} {c : Nat} (h_s : Kept s0 s) : Kept s0 (State.testOver s c) := by
  unfold State.testOver
  with_reducible repeat' first | assumption | intro _ | apply State.tltEvent_kept | apply State.setCtx_kept | dsimp only | split

theorem State.testEnd_kept {s0 : State} {s : State} {c : Nat} (h_s : Kept s0 s) : Kept s0 (State.testEnd s c) := by
  unfold State.testEnd
  with_reducible repeat' first | assumption | intro _ | apply State.setF_kept | apply State.testOver_kept | dsimp only | split

theorem State.testStart_kept {s0 : State} {s : State} {c : Nat} (h_s : Kept s0 s) : Kept s0 (State.testStart s c) := by
  unfold State.testStart
  with_reducible repeat' first | assumption | intro _ | apply State.testEnd_kept | apply State.tookFree_kept | apply State.tltNote_kept | apply State.setCtx_kept | apply Kept.ite | dsimp only | split

theorem State.testStep_kept {s0 : State} {s : State} {c : Nat} (h_s : Kept s0 s) : Kept s0 (State.testStep s c) := by
  unfold State.testStep
  with_reducible repeat' first | assumption | intro _ | apply State.testStart_kept | apply State.testEnd_kept | apply State.testOver_kept | apply Kept.ite | dsimp only | split

theorem State.testAdvance_kept {s0 : State} {s : State} {c : Nat} (h_s : Kept s0 s) : Kept s0 (State.testAdvance s c) := by
  unfold State.testAdvance
  with_reducible repeat' first | assumption | intro _ | apply State.testEnd_kept | apply State.setCtx_kept | apply Kept.ite | dsimp only | split

theorem State.sampleFlags_kept {s0 : State} {s : State} {p : Sample} (h_s : Kept s0 s) : Kept s0 (State.sampleFlags s p) := by
  unfold State.sampleFlags
  with_reducible repeat' first | assumption | intro _ | apply State.setF_kept | apply State.bump_kept | apply State.tltEvent_kept | apply Kept.ite | dsimp only | split

theorem State.captureEnd_kept {s0 : State} {s : State} {c : Nat} (h_s : Kept s0 s) : Kept s0 (State.captureEnd s c) := by
  unfold State.captureEnd
  with_reducible repeat' first | assumption | intro _ | apply State.tltEvent_kept | apply State.setF_kept | dsimp only | split

theorem State.capture_kept {s0 : State} {s : State} {p : Sample} (h_s : Kept s0 s) : Kept s0 (State.capture s p) := by
  unfold State.capture
  with_reducible repeat' first | assumption | intro _ | apply State.captureEnd_kept | apply State.tookFree_kept | apply State.put_kept | apply State.setF_kept | apply Kept.ite | dsimp only | split

theorem State.handOver_kept {s0 : State} {s : State} {p : Sample} (h_s : Kept s0 s) : Kept s0 (State.handOver s p) := by
  unfold State.handOver
  with_reducible repeat' first | assumption | intro _ | apply State.bump_kept | apply State.setMac_kept | apply Kept.ite | dsimp only | split

theorem State.endSample_kept {s0 : State} {s : State} {p : Sample} (h_s : Kept s0 s) : Kept s0 (State.endSample s p) := by
  unfold State.endSample
  with_reducible repeat' first | assumption | intro _ | apply State.capture_kept | apply State.sampleFlags_kept | apply State.handOver_kept | apply State.setCtx_kept | apply Kept.ite | dsimp only | split | apply Kept.mk

theorem State.dropSample_kept {s0 : State} {s : State} {c : Nat} (h_s : Kept s0 s) : Kept s0 (State.dropSample s c) := by
  unfold State.dropSample
  with_reducible repeat' first | assumption | intro _ | dsimp only | split | apply Kept.mk

theorem State.countSample_kept {s0 : State} {s : State} {c : Nat} (h_s : Kept s0 s) : Kept s0 (State.countSample s c) := by
  unfold State.countSample
  with_reducible repeat' first | assumption | intro _ | apply State.setF_kept | apply State.setCtx_kept | dsimp only | split

theorem State.tltSnapshot_kept {s0 : State} {s : State} {c : Nat} (h_s : Kept s0 s) : Kept s0 (State.tltSnapshot s c).1 := by
  unfold State.tltSnapshot
  with_reducible repeat' first | assumption | intro _ | apply State.countSample_kept | apply State.testStep_kept | apply State.setCtx_kept | apply State.testAdvance_kept | dsimp only | split

theorem State.instant_kept {s0 : State} {s : State} {c : Nat} (h_s : Kept s0 s) : Kept s0 (State.instant s c) := by
  unfold State.instant
  with_reducible repeat' first | assumption | intro _ | apply State.tltSnapshot_kept | apply State.endSample_kept | apply Kept.ite | dsimp only | split | apply Kept.mk

theorem execSampleInstant_kept {s0 : State} {c : Nat} {s : State} (h_s : Kept s0 s) : KeptR s0 (execSampleInstant c s) := by
  unfold execSampleInstant
  with_reducible repeat' first | assumption | intro _ | apply answer_kept | apply State.instant_kept | apply State.start_kept | apply KeptR.next | dsimp only | split

theorem State.tltSettle_kept {s0 : State} {s : State} (h_s : Kept s0 s) : Kept s0 (State.tltSettle s) := by
  unfold State.tltSettle
  with_reducible repeat' first | assumption | intro _ | apply State.instant_kept | apply Kept.fold | apply Kept.fold1 | dsimp only | split

theorem execLawLoadDone_kept {s0 : State} {c : Nat} {s : State} (h_s : Kept s0 s) : KeptR s0 (execLawLoadDone c s) := by
  unfold execLawLoadDone
  with_reducible repeat' first | assumption | intro _ | apply State.say_kept | apply State.start_kept | apply answer_kept | apply State.lawDone_kept | apply State.tltNote_kept | apply State.tltSettle_kept | apply KeptR.next | apply KeptO.getD | apply KeptR.ite | apply Kept.ite | dsimp only | split

theorem execSetpointReadDone_kept {s0 : State} {c : Nat} {s : State} (h_s : Kept s0 s) : KeptR s0 (execSetpointReadDone c s) := by
  unfold execSetpointReadDone
  with_reducible repeat' first | assumption | intro _ | apply State.tltSettle_kept | apply State.start_kept | apply State.say_kept | apply State.tltNote_kept | apply answer_kept | apply State.setCtx_kept | apply State.spReject_kept | apply KeptR.next | apply KeptR.ite | apply Kept.ite | dsimp only | split

theorem State.tltInput_kept {s0 : State} {s : State} {c : Nat} {i : Nat} {v : Nat} (h_s : Kept s0 s) : Kept s0 (State.tltInput s c i v) := by
  unfold State.tltInput
  with_reducible repeat' first | assumption | intro _ | apply State.tltSettle_kept | apply State.setCtx_kept | apply Kept.ite | dsimp only | split

theorem State.tltCommit_kept {s0 : State} {s : State} {c : Nat} {mask : Nat} (h_s : Kept s0 s) : Kept s0 (State.tltCommit s c mask) := by
  unfold State.tltCommit
  with_reducible repeat' first | assumption | intro _ | apply State.commitGroup_kept | apply State.tltSettle_kept | apply Kept.fold | apply Kept.fold1 | dsimp only | split

theorem execTltInputWrite_kept {s0 : State} {m : Nat} {c : Nat} {i : Nat} {v : Nat} {s : State} (h_s : Kept s0 s) : KeptR s0 (execTltInputWrite m c i v s) := by
  unfold execTltInputWrite
  with_reducible repeat' first | assumption | intro _ | apply State.write_kept | apply State.tltInput_kept | apply State.start_kept | apply KeptR.next | dsimp only | split

theorem execGroupCommit_kept {s0 : State} {m : Nat} {c : Nat} {v : Nat} {s : State} (h_s : Kept s0 s) : KeptR s0 (execGroupCommit m c v s) := by
  unfold execGroupCommit
  with_reducible repeat' first | assumption | intro _ | apply State.write_kept | apply State.tltCommit_kept | apply State.start_kept | apply KeptR.next | dsimp only | split

theorem State.tltCfg_kept {s0 : State} {s : State} {c : Nat} {w : Sys2Proof.Word} (h_s : Kept s0 s) : Kept s0 (State.tltCfg s c w) := by
  unfold State.tltCfg
  with_reducible repeat' first | assumption | intro _ | apply State.tltSettle_kept | apply State.setF_kept | apply State.setCtx_kept | apply State.wr_kept | apply Kept.ite | dsimp only | split

theorem execContextEnable_kept {s0 : State} {m : Nat} {c : Nat} {v : Nat} {s : State} (h_s : Kept s0 s) : KeptR s0 (execContextEnable m c v s) := by
  unfold execContextEnable
  with_reducible repeat' first | assumption | intro _ | apply State.write_kept | apply State.tltCfg_kept | apply State.start_kept | apply KeptR.next | dsimp only | split

theorem execContextDisable_kept {s0 : State} {m : Nat} {c : Nat} {v : Nat} {s : State} (h_s : Kept s0 s) : KeptR s0 (execContextDisable m c v s) := by
  unfold execContextDisable
  with_reducible repeat' first | assumption | intro _ | apply State.write_kept | apply State.tltCfg_kept | apply State.start_kept | apply KeptR.next | dsimp only | split

theorem State.testCfg_kept {s0 : State} {s : State} {c : Nat} {w : Sys2Proof.Word} (h_s : Kept s0 s) : Kept s0 (State.testCfg s c w) := by
  unfold State.testCfg
  with_reducible repeat' first | assumption | intro _ | apply State.tltSettle_kept | apply State.setF_kept | apply State.setCtx_kept | apply State.wr_kept | apply KeptO.map | apply KeptO1.map | apply KeptO1.map1 | apply Kept.ite | dsimp only | split

theorem execTestRun_kept {s0 : State} {m : Nat} {c : Nat} {v : Nat} {s : State} (h_s : Kept s0 s) : KeptR s0 (execTestRun m c v s) := by
  unfold execTestRun
  with_reducible repeat' first | assumption | intro _ | apply State.write_kept | apply State.testCfg_kept | apply State.start_kept | apply KeptR.next | dsimp only | split

theorem execSampleComplete_kept {s0 : State} {s : State} (h_s : Kept s0 s) : KeptR s0 (execSampleComplete s) := by
  unfold execSampleComplete
  with_reducible repeat' first | assumption | intro _ | apply answer_kept | apply State.endSample_kept | apply State.dropSample_kept | apply State.start_kept | apply KeptR.next | dsimp only | split

theorem State.missSample_kept {s0 : State} {s : State} {p : Sample} {cause : Nat} (h_s : Kept s0 s) : Kept s0 (State.missSample s p cause) := by
  unfold State.missSample
  with_reducible repeat' first | assumption | intro _ | apply State.endSample_kept | apply State.dropSample_kept | dsimp only | split

theorem execSampleDeadline_kept {s0 : State} {c : Nat} {s : State} (h_s : Kept s0 s) : KeptR s0 (execSampleDeadline c s) := by
  unfold execSampleDeadline
  with_reducible repeat' first | assumption | intro _ | apply answer_kept | apply State.missSample_kept | apply State.start_kept | apply State.tltSnapshot_kept | apply State.endSample_kept | apply KeptR.next | apply KeptR.ite | apply Kept.ite | dsimp only | split

theorem State.tltMismatch_kept {s0 : State} {s : State} (h_s : Kept s0 s) : Kept s0 (State.tltMismatch s) := by
  unfold State.tltMismatch
  with_reducible repeat' first | assumption | intro _ | apply State.writeBroke_kept | apply State.bump_kept | apply State.setF_kept | apply State.endSample_kept | apply State.pulse_kept | apply State.tltEvent_kept | apply Kept.ite | apply Kept.fold | apply Kept.fold1 | dsimp only | split | apply Kept.mk

theorem execLockstepTltMismatch_kept {s0 : State} {s : State} (h_s : Kept s0 s) : KeptR s0 (execLockstepTltMismatch s) := by
  unfold execLockstepTltMismatch
  with_reducible repeat' first | assumption | intro _ | apply answer_kept | apply State.tltMismatch_kept | apply State.start_kept | apply KeptR.next | dsimp only | split

theorem execTilthPairResetDone_kept {s0 : State} {s : State} (h_s : Kept s0 s) : KeptR s0 (execTilthPairResetDone s) := by
  unfold execTilthPairResetDone
  with_reducible repeat' first | assumption | intro _ | apply answer_kept | apply State.start_kept | apply KeptR.next | dsimp only | split | apply Kept.mk

theorem State.tltResume_kept {s0 : State} {s : State} {fresh : Bool} (h_s : Kept s0 s) : Kept s0 (State.tltResume s fresh) := by
  unfold State.tltResume
  with_reducible repeat' first | assumption | intro _ | apply State.setCtx_kept | apply Kept.ite | apply Kept.fold | apply Kept.fold1 | dsimp only | split

theorem State.tltCtrl_kept {s0 : State} {s : State} {w : Sys2Proof.Word} (h_s : Kept s0 s) : Kept s0 (State.tltCtrl s w) := by
  unfold State.tltCtrl
  with_reducible repeat' first | assumption | intro _ | apply State.tltResume_kept | apply State.setF_kept | apply Kept.ite | dsimp only | split | apply Kept.mk

theorem execTltRestart_kept {s0 : State} {m : Nat} {s : State} (h_s : Kept s0 s) : KeptR s0 (execTltRestart m s) := by
  unfold execTltRestart
  with_reducible repeat' first | assumption | intro _ | apply State.write_kept | apply State.tltCtrl_kept | apply State.start_kept | apply KeptR.next | dsimp only | split

/-! ## Machine/Time.lean -/

theorem State.timEvent_kept {s0 : State} {s : State} {f : Fld} (h_s : Kept s0 s) : Kept s0 (State.timEvent s f) := by
  unfold State.timEvent
  with_reducible repeat' first | assumption | intro _ | apply State.irqMsg_kept | apply State.setF_kept | dsimp only | split

theorem State.timRateSet_kept {s0 : State} {s : State} {w : Sys2Proof.Word} (h_s : Kept s0 s) : Kept s0 (State.timRateSet s w) := by
  unfold State.timRateSet
  with_reducible repeat' first | assumption | intro _ | apply State.wr_kept | dsimp only | split

theorem execTimRateWrite_kept {s0 : State} {m : Nat} {v : Nat} {s : State} (h_s : Kept s0 s) : KeptR s0 (execTimRateWrite m v s) := by
  unfold execTimRateWrite
  with_reducible repeat' first | assumption | intro _ | apply State.write_kept | apply State.timRateSet_kept | apply State.start_kept | apply KeptR.next | dsimp only | split

theorem State.epochHi_kept {s0 : State} {s : State} {w : Sys2Proof.Word} (h_s : Kept s0 s) : Kept s0 (State.epochHi s w) := by
  unfold State.epochHi
  with_reducible repeat' first | assumption | intro _ | apply State.wr_kept | dsimp only | split | apply Kept.mk

theorem execEpochHiWrite_kept {s0 : State} {m : Nat} {v : Nat} {s : State} (h_s : Kept s0 s) : KeptR s0 (execEpochHiWrite m v s) := by
  unfold execEpochHiWrite
  with_reducible repeat' first | assumption | intro _ | apply State.write_kept | apply State.epochHi_kept | apply State.start_kept | apply KeptR.next | dsimp only | split

/-! ## Machine/Ethernet.lean -/

theorem State.ethRead_kept {s0 : State} {s : State} {n : Nat} {a : Nat} {len : Nat} (h_s : Kept s0 s) : Kept s0 (State.ethRead s n a len) := by
  unfold State.ethRead
  with_reducible repeat' first | assumption | intro _ | apply State.regulateRange_kept | apply Kept.ite | dsimp only | split

theorem State.ethPut_kept {s0 : State} {s : State} {n : Nat} {a : Nat} {bs : List Sys2Proof.Byte} (h_s : Kept s0 s) : Kept s0 (State.ethPut s n a bs) := by
  unfold State.ethPut
  with_reducible repeat' first | assumption | intro _ | apply State.putThen_kept | apply Kept.ite | dsimp only | split

theorem State.gateCtrl_kept {s0 : State} {s : State} {n : Nat} {w : Sys2Proof.Word} (h_s : Kept s0 s) : Kept s0 (State.gateCtrl s n w) := by
  unfold State.gateCtrl
  with_reducible repeat' first | assumption | intro _ | apply State.setF_kept | apply State.setMac_kept | apply State.wr_kept | apply Kept.ite | dsimp only | split

theorem State.gateChange_kept {s0 : State} {s : State} {n : Nat} {c : Nat × Nat} (h_s : Kept s0 s) : Kept s0 (State.gateChange s n c) := by
  unfold State.gateChange
  with_reducible repeat' first | assumption | intro _ | apply State.setF_kept | apply State.setMac_kept | dsimp only | split

theorem State.wire_kept {s0 : State} {s : State} {n : Nat} {f : List Sys2Proof.Byte} (h_s : Kept s0 s) : Kept s0 (State.wire s n f) := by
  unfold State.wire
  with_reducible repeat' first | assumption | intro _ | apply State.emit_kept | apply State.tookFree_kept | dsimp only | split

theorem State.keepHead_kept {s0 : State} {s : State} {n : Nat} {q : Nat} {h : EthFetch} (h_s : Kept s0 s) : Kept s0 (State.keepHead s n q h) := by
  unfold State.keepHead
  with_reducible repeat' first | assumption | intro _ | apply State.setMac_kept | dsimp only | split

theorem State.fetchSource_kept {s0 : State} {s t : State} {n q : Nat} {d : List Sys2Proof.Byte} (h_s : Kept s0 s) (h_t : Kept s0 t) :
    Kept s0 (State.fetchSource s t n q d) := by
  unfold State.fetchSource
  split
  · exact h_s
  · with_reducible exact State.keepHead_kept (.ite (State.checkRead_kept h_t) h_t)
  · split
    · exact h_s
    · rename_i r e
      exact State.keepHead_kept (State.provUnit_kept (State.noteReads_kept h_t) _ e)

theorem State.fetchHead_kept {s0 : State} {s : State} {n : Nat} {q : Nat} (h_s : Kept s0 s) : Kept s0 (State.fetchHead s n q) := by
  unfold State.fetchHead
  with_reducible repeat' first | assumption | intro _ | apply State.keepHead_kept | apply State.ethRead_kept | apply State.fetchSource_kept | apply Kept.ite | dsimp only | split

theorem State.ethFetch_kept {s0 : State} {s : State} {n : Nat} (h_s : Kept s0 s) : Kept s0 (State.ethFetch s n) := by
  unfold State.ethFetch
  with_reducible repeat' first | assumption | intro _ | apply State.fetchHead_kept | apply Kept.fold | apply Kept.fold1 | dsimp only | split

theorem State.writeBack_kept {s0 : State} {s : State} {n : Nat} {q : Nat} {status : Nat} {ts : Option Nat} {prov : Option Nat} (h_s : Kept s0 s) : Kept s0 (State.writeBack s n q status ts prov) := by
  unfold State.writeBack
  with_reducible repeat' first | assumption | intro _ | apply State.ethPut_kept | apply State.setF_kept | apply State.fetchHead_kept | apply State.setMac_kept | dsimp only | split

theorem State.sendRing_kept {s0 : State} {s : State} {n : Nat} {q : Nat} {h : EthFetch} (h_s : Kept s0 s) : Kept s0 (State.sendRing s n q h) := by
  unfold State.sendRing
  with_reducible repeat' first | assumption | intro _ | apply State.setMac_kept | apply State.wire_kept | apply Kept.ite | dsimp only | split

theorem State.sendTilth_kept {s0 : State} {s : State} {n : Nat} {q : Nat} {t : TltFrame} (h_s : Kept s0 s) : Kept s0 (State.sendTilth s n q t) := by
  unfold State.sendTilth
  with_reducible repeat' first | assumption | intro _ | apply State.setMac_kept | apply State.wire_kept | dsimp only | split

theorem State.dropTilth_kept {s0 : State} {s : State} {n : Nat} {t : TltFrame} (h_s : Kept s0 s) : Kept s0 (State.dropTilth s n t) := by
  unfold State.dropTilth
  with_reducible repeat' first | assumption | intro _ | apply State.bump_kept | apply State.setMac_kept | dsimp only | split

theorem State.clsCommit_kept {s0 : State} {s : State} {n : Nat} {e : Nat} {w : Sys2Proof.Word} (h_s : Kept s0 s) : Kept s0 (State.clsCommit s n e w) := by
  unfold State.clsCommit
  with_reducible repeat' first | assumption | intro _ | apply State.unhold_kept | apply State.wr_kept | apply Kept.fold | apply Kept.fold1 | dsimp only | split

theorem State.rxTo_kept {s0 : State} {s : State} {n : Nat} {q : Nat} {at_ : Nat} {entry : Option Nat} {f : List Sys2Proof.Byte} (h_s : Kept s0 s) : Kept s0 (State.rxTo s n q at_ entry f) := by
  unfold State.rxTo
  with_reducible repeat' first | assumption | intro _ | apply State.bump_kept | apply State.ethPut_kept | apply State.ethRead_kept | apply State.setF_kept | apply KeptO.getD | apply Kept.ite | dsimp only | split

theorem State.rxTilth_kept {s0 : State} {s : State} {n : Nat} {e : Nat} {f : List Sys2Proof.Byte} (h_s : Kept s0 s) : Kept s0 (State.rxTilth s n e f) := by
  unfold State.rxTilth
  with_reducible repeat' first | assumption | intro _ | apply State.bump_kept | apply State.tltInput_kept | apply State.tltCommit_kept | apply Kept.ite | apply Kept.fold | apply Kept.fold1 | dsimp only | split

theorem State.rxFrame_kept {s0 : State} {s : State} {n : Nat} {at_ : Nat} {fcsOk : Bool} {f : List Sys2Proof.Byte} (h_s : Kept s0 s) : Kept s0 (State.rxFrame s n at_ fcsOk f) := by
  unfold State.rxFrame
  with_reducible repeat' first | assumption | intro _ | apply State.bump_kept | apply State.rxTo_kept | apply State.rxTilth_kept | apply Kept.ite | dsimp only | split

/-! ## Machine/EthernetCmds.lean -/

theorem State.ethBell_kept {s0 : State} {s : State} {n : Nat} {q : Nat} {rx : Nat} {v : Nat} (h_s : Kept s0 s) : Kept s0 (State.ethBell s n q rx v) := by
  unfold State.ethBell
  with_reducible repeat' first | assumption | intro _ | apply State.fetchHead_kept | apply State.ringPush_kept | apply Kept.ite | dsimp only | split

theorem execEthDoorbell_kept {s0 : State} {m : Nat} {n : Nat} {q : Nat} {rx : Nat} {v : Nat} {s : State} (h_s : Kept s0 s) : KeptR s0 (execEthDoorbell m n q rx v s) := by
  unfold execEthDoorbell
  with_reducible repeat' first | assumption | intro _ | apply State.write_kept | apply State.ethBell_kept | apply State.start_kept | apply KeptR.next | apply KeptR.ite | apply Kept.ite | dsimp only | split

theorem execGateChangeRequest_kept {s0 : State} {m : Nat} {n : Nat} {v : Nat} {s : State} (h_s : Kept s0 s) : KeptR s0 (execGateChangeRequest m n v s) := by
  unfold execGateChangeRequest
  with_reducible repeat' first | assumption | intro _ | apply State.write_kept | apply State.gateCtrl_kept | apply State.start_kept | apply KeptR.next | dsimp only | split

theorem execEthClsWord0Write_kept {s0 : State} {m : Nat} {n : Nat} {e : Nat} {v : Nat} {s : State} (h_s : Kept s0 s) : KeptR s0 (execEthClsWord0Write m n e v s) := by
  unfold execEthClsWord0Write
  with_reducible repeat' first | assumption | intro _ | apply State.write_kept | apply State.clsCommit_kept | apply State.start_kept | apply KeptR.next | dsimp only | split

theorem State.ethQcfg_kept {s0 : State} {s : State} {n : Nat} {q : Nat} {w : Sys2Proof.Word} (h_s : Kept s0 s) : Kept s0 (State.ethQcfg s n q w) := by
  unfold State.ethQcfg
  with_reducible repeat' first | assumption | intro _ | apply State.wr_kept | apply State.setMac_kept | apply State.setF_kept | apply Kept.ite | dsimp only | split

theorem execGateListChange_kept {s0 : State} {n : Nat} {s : State} (h_s : Kept s0 s) : KeptR s0 (execGateListChange n s) := by
  unfold execGateListChange
  with_reducible repeat' first | assumption | intro _ | apply answer_kept | apply State.gateChange_kept | apply State.start_kept | apply KeptR.next | dsimp only | split

theorem execGateEntryAdvance_kept {s0 : State} {n : Nat} {s : State} (h_s : Kept s0 s) : KeptR s0 (execGateEntryAdvance n s) := by
  unfold execGateEntryAdvance
  with_reducible repeat' first | assumption | intro _ | apply answer_kept | apply State.setMac_kept | apply State.start_kept | apply KeptR.next | dsimp only | split

theorem execEthFrameTransmit_kept {s0 : State} {n : Nat} {s : State} (h_s : Kept s0 s) : KeptR s0 (execEthFrameTransmit n s) := by
  unfold execEthFrameTransmit
  with_reducible repeat' first | assumption | intro _ | apply State.ethFetch_kept | apply State.start_kept | apply answer_kept | apply State.sendRing_kept | apply State.setMac_kept | apply State.wire_kept | apply KeptR.next | apply KeptR.ite | apply Kept.ite | dsimp only | split

theorem execTilthFrameLaunch_kept {s0 : State} {n : Nat} {c : Nat} {s : State} (h_s : Kept s0 s) : KeptR s0 (execTilthFrameLaunch n c s) := by
  unfold execTilthFrameLaunch
  with_reducible repeat' first | assumption | intro _ | apply answer_kept | apply State.dropTilth_kept | apply State.start_kept | apply State.sendTilth_kept | apply KeptR.next | apply KeptR.ite | apply Kept.ite | dsimp only | split

theorem execEthTxComplete_kept {s0 : State} {n : Nat} {q : Nat} {s : State} (h_s : Kept s0 s) : KeptR s0 (execEthTxComplete n q s) := by
  unfold execEthTxComplete
  extract_lets t x refused
  have hs : Kept s0 s.start := State.start_kept h_s
  have ht : Kept s0 t := State.ethFetch_kept hs
  split
  · split
    · exact .next (State.say_kept hs)
    · with_reducible exact .next (.ite (State.writeBack_kept (State.setMac_kept ht)) (State.setMac_kept ht))
  · split
    · exact .next (State.say_kept hs)
    · with_reducible exact answer_kept h_s (State.writeBack_kept ht)

theorem execLateDrop_kept {s0 : State} {n : Nat} {q : Nat} {s : State} (h_s : Kept s0 s) : KeptR s0 (execLateDrop n q s) := by
  unfold execLateDrop
  with_reducible repeat' first | assumption | intro _ | apply State.ethFetch_kept | apply State.start_kept | apply State.say_kept | apply answer_kept | apply State.writeBack_kept | apply State.bump_kept | apply KeptR.next | apply KeptR.ite | apply Kept.ite | dsimp only | split

theorem execEthFrameReceive_kept {s0 : State} {n : Nat} {at_ : Nat} {fcsOk : Bool} {f : List Sys2Proof.Byte} {s : State} (h_s : Kept s0 s) : KeptR s0 (execEthFrameReceive n at_ fcsOk f s) := by
  unfold execEthFrameReceive
  with_reducible repeat' first | assumption | intro _ | apply State.say_kept | apply State.start_kept | apply answer_kept | apply State.rxFrame_kept | apply KeptR.next | apply KeptR.ite | apply Kept.ite | dsimp only | split

theorem execPauseFrameReceive_kept {s0 : State} {n : Nat} {quanta : Nat} {s : State} (h_s : Kept s0 s) : KeptR s0 (execPauseFrameReceive n quanta s) := by
  unfold execPauseFrameReceive
  with_reducible repeat' first | assumption | intro _ | apply answer_kept | apply State.setMac_kept | apply State.start_kept | apply KeptR.next | dsimp only | split

theorem execEthLinkUp_kept {s0 : State} {n : Nat} {s : State} (h_s : Kept s0 s) : KeptR s0 (execEthLinkUp n s) := by
  unfold execEthLinkUp
  with_reducible repeat' first | assumption | intro _ | apply answer_kept | apply State.ethFetch_kept | apply State.setF_kept | apply State.start_kept | apply KeptR.next | dsimp only | split

theorem State.linkDownQueue_kept {s0 : State} {s : State} {n : Nat} {q : Nat} (h_s : Kept s0 s) : Kept s0 (State.linkDownQueue s n q) := by
  unfold State.linkDownQueue
  with_reducible repeat' first | assumption | intro _ | apply State.writeBack_kept | apply Kept.ite | apply Kept.fold | apply Kept.fold1 | dsimp only | split

theorem execEthLinkDown_kept {s0 : State} {n : Nat} {s : State} (h_s : Kept s0 s) : KeptR s0 (execEthLinkDown n s) := by
  unfold execEthLinkDown
  with_reducible repeat' first | assumption | intro _ | apply State.setMac_kept | apply State.setF_kept | apply State.start_kept | apply State.bump_kept | apply answer_kept | apply State.linkDownQueue_kept | apply KeptR.next | apply Kept.fold | apply Kept.fold1 | dsimp only | split

/-! ## Machine/ZethaCmds.lean -/

theorem State.dropPartial_kept {s0 : State} {s : State} {p : Nat} {m : List Sys2Proof.Byte} (h_s : Kept s0 s) : Kept s0 (State.dropPartial s p m) := by
  unfold State.dropPartial
  with_reducible repeat' first | assumption | intro _ | apply State.store_kept | apply State.release_kept | apply State.poison_kept | apply Kept.ite | dsimp only | split

theorem State.failReq_kept {s0 : State} {s : State} {r : ZReq} (h_s : Kept s0 s) : Kept s0 (State.failReq s r) := by
  unfold State.failReq
  with_reducible repeat' first | assumption | intro _ | apply State.emit_kept | apply State.pieceFailed_kept | apply Kept.ite | dsimp only | split

theorem State.zFlush_kept {s0 : State} {s : State} {p : Nat} (h_s : Kept s0 s) : Kept s0 (State.zFlush s p) := by
  unfold State.zFlush
  with_reducible repeat' first | assumption | intro _ | apply State.setZport_kept | apply State.dropPartial_kept | apply State.emit_kept | apply State.pump_kept | apply State.failReq_kept | apply Kept.fold | apply Kept.fold1 | dsimp only | split

theorem State.zEnable_kept {s0 : State} {s : State} {p : Nat} (h_s : Kept s0 s) : Kept s0 (State.zEnable s p) := by
  unfold State.zEnable
  with_reducible repeat' first | assumption | intro _ | apply State.zEnter_kept | apply State.setF_kept | apply Kept.ite | dsimp only | split

theorem State.zDisable_kept {s0 : State} {s : State} {p : Nat} (h_s : Kept s0 s) : Kept s0 (State.zDisable s p) := by
  unfold State.zDisable
  with_reducible repeat' first | assumption | intro _ | apply State.zFlush_kept | apply State.zEnter_kept | apply State.setF_kept | apply State.zEvent_kept | apply Kept.ite | dsimp only | split

theorem execZthPortEnable_kept {s0 : State} {m : Nat} {p : Nat} {s : State} (h_s : Kept s0 s) : KeptR s0 (execZthPortEnable m p s) := by
  unfold execZthPortEnable
  with_reducible repeat' first | assumption | intro _ | apply State.write_kept | apply State.zEnable_kept | apply State.start_kept | apply KeptR.next | dsimp only | split

theorem execZthPortDisable_kept {s0 : State} {m : Nat} {p : Nat} {s : State} (h_s : Kept s0 s) : KeptR s0 (execZthPortDisable m p s) := by
  unfold execZthPortDisable
  with_reducible repeat' first | assumption | intro _ | apply State.write_kept | apply State.zDisable_kept | apply State.start_kept | apply KeptR.next | dsimp only | split

theorem execZthEnergyDetect_kept {s0 : State} {p : Nat} {s : State} (h_s : Kept s0 s) : KeptR s0 (execZthEnergyDetect p s) := by
  unfold execZthEnergyDetect
  with_reducible repeat' first | assumption | intro _ | apply answer_kept | apply State.zEnter_kept | apply State.start_kept | apply KeptR.next | dsimp only | split

theorem execZthBlockLock_kept {s0 : State} {p : Nat} {lanes : Nat} {s : State} (h_s : Kept s0 s) : KeptR s0 (execZthBlockLock p lanes s) := by
  unfold execZthBlockLock
  with_reducible repeat' first | assumption | intro _ | apply State.setF_kept | apply State.start_kept | apply answer_kept | apply State.zEnter_kept | apply KeptR.next | apply KeptR.ite | apply Kept.ite | dsimp only | split

theorem State.zActivate_kept {s0 : State} {s : State} {p : Nat} (h_s : Kept s0 s) : Kept s0 (State.zActivate s p) := by
  unfold State.zActivate
  with_reducible repeat' first | assumption | intro _ | apply State.zEvent_kept | apply State.zEnter_kept | dsimp only | split

theorem execZthAlignDone_kept {s0 : State} {p : Nat} {rev : Bool} {pol : Nat} {s : State} (h_s : Kept s0 s) : KeptR s0 (execZthAlignDone p rev pol s) := by
  unfold execZthAlignDone
  with_reducible repeat' first | assumption | intro _ | apply State.setF_kept | apply State.start_kept | apply answer_kept | apply State.zEnter_kept | apply State.setZport_kept | apply State.zActivate_kept | apply KeptR.next | apply KeptR.ite | apply Kept.ite | dsimp only | split

theorem State.zFails_kept {s0 : State} {s : State} {p : Nat} (h_s : Kept s0 s) : Kept s0 (State.zFails s p) := by
  unfold State.zFails
  with_reducible repeat' first | assumption | intro _ | apply State.zCount_kept | apply State.setZport_kept | dsimp only | split

theorem execTrainStateTimeout_kept {s0 : State} {p : Nat} {s : State} (h_s : Kept s0 s) : KeptR s0 (execTrainStateTimeout p s) := by
  unfold execTrainStateTimeout
  with_reducible repeat' first | assumption | intro _ | apply answer_kept | apply State.zFails_kept | apply State.start_kept | apply KeptR.next | dsimp only | split

theorem State.zBack_kept {s0 : State} {s : State} (h_s : Kept s0 s) : Kept s0 (State.zBack s) := by
  unfold State.zBack
  with_reducible repeat' first | assumption | intro _ | apply State.zEnter_kept | apply Kept.ite | apply Kept.fold | apply Kept.fold1 | dsimp only | split

theorem State.zMaybeActive_kept {s0 : State} {s : State} {p : Nat} (h_s : Kept s0 s) : Kept s0 (State.zMaybeActive s p) := by
  unfold State.zMaybeActive
  with_reducible repeat' first | assumption | intro _ | apply State.zActivate_kept | apply Kept.ite | dsimp only | split

theorem execCapSend_kept {s0 : State} {p : Nat} {s : State} (h_s : Kept s0 s) : KeptR s0 (execCapSend p s) := by
  unfold execCapSend
  with_reducible repeat' first | assumption | intro _ | apply State.setZport_kept | apply State.start_kept | apply answer_kept | apply State.zMaybeActive_kept | apply State.zSend_kept | apply KeptR.next | dsimp only | split

theorem State.badFlit_kept {s0 : State} {s : State} {p : Nat} (h_s : Kept s0 s) : Kept s0 (State.badFlit s p) := by
  unfold State.badFlit
  with_reducible repeat' first | assumption | intro _ | apply State.zCount_kept | apply State.setZport_kept | dsimp only | split

theorem State.inboundBroke_kept {s0 : State} {s : State} {p : Nat} {es : List InbEntry} (h_s : Kept s0 s) : Kept s0 (State.inboundBroke s p es) := by
  unfold State.inboundBroke
  with_reducible repeat' first | assumption | intro _ | apply State.poison_kept | apply Kept.fold | apply Kept.fold1 | dsimp only | split

theorem State.onCap_kept {s0 : State} {s : State} {p : Nat} {bs : List Sys2Proof.Byte} (h_s : Kept s0 s) : Kept s0 (State.onCap s p bs) := by
  unfold State.onCap
  with_reducible repeat' first | assumption | intro _ | apply State.zEvent_kept | apply State.zEnter_kept | apply State.setF_kept | apply State.inboundBroke_kept | apply State.zMaybeActive_kept | apply State.setZport_kept | apply Kept.ite | dsimp only | split

theorem execCapFlitReceive_kept {s0 : State} {p : Nat} {ls : List (List (Nat × List Sys2Proof.Byte))} {s : State} (h_s : Kept s0 s) : KeptR s0 (execCapFlitReceive p ls s) := by
  unfold execCapFlitReceive
  with_reducible repeat' first | assumption | intro _ | apply State.zRecv_kept | apply State.start_kept | apply answer_kept | apply State.onCap_kept | apply State.badFlit_kept | apply KeptR.next | apply KeptR.ite | apply Kept.ite | dsimp only | split

theorem execFlitSlot_kept {s0 : State} {p : Nat} {s : State} (h_s : Kept s0 s) : KeptR s0 (execFlitSlot p s) := by
  unfold execFlitSlot
  with_reducible repeat' first | assumption | intro _ | apply answer_kept | apply State.zSlot_kept | apply State.start_kept | apply KeptR.next | dsimp only | split

theorem State.zRetrainNow_kept {s0 : State} {s : State} {p : Nat} (h_s : Kept s0 s) : Kept s0 (State.zRetrainNow s p) := by
  unfold State.zRetrainNow
  with_reducible repeat' first | assumption | intro _ | apply State.zEnter_kept | apply State.zCount_kept | dsimp only | split

theorem State.zForward_kept {s0 : State} {s : State} {p : Nat} {vc : Nat} {m : List Sys2Proof.Byte} (h_s : Kept s0 s) : Kept s0 (State.zForward s p vc m) := by
  unfold State.zForward
  with_reducible repeat' first | assumption | intro _ | apply State.zQueue_kept | apply State.zCount_kept | apply Kept.ite | dsimp only | split

theorem State.zDiscard_kept {s0 : State} {s : State} {p : Nat} {m : List Sys2Proof.Byte} (h_s : Kept s0 s) : Kept s0 (State.zDiscard s p m) := by
  unfold State.zDiscard
  with_reducible repeat' first | assumption | intro _ | apply State.release_kept | apply Kept.ite | dsimp only | split

theorem State.zMessage_kept {s0 : State} {s : State} {p : Nat} {vc : Nat} {m : List Sys2Proof.Byte} (h_s : Kept s0 s) : Kept s0 (State.zMessage s p vc m) := by
  unfold State.zMessage
  with_reducible repeat' first | assumption | intro _ | apply State.zDiscard_kept | apply State.zCount_kept | apply State.zForward_kept | apply State.setZport_kept | apply Kept.ite | dsimp only | split

theorem State.zPend_kept {s0 : State} {s : State} {p : Nat} {before : List Sys2Proof.Byte} {m : List Sys2Proof.Byte} (h_s : Kept s0 s) : Kept s0 (State.zPend s p before m) := by
  unfold State.zPend
  with_reducible repeat' first | assumption | intro _ | apply State.setFill_kept | apply Kept.ite | dsimp only | split

theorem State.zData_kept {s0 : State} {s : State} {p : Nat} {bs : List Sys2Proof.Byte} (h_s : Kept s0 s) : Kept s0 (State.zData s p bs) := by
  unfold State.zData
  with_reducible repeat' first | assumption | intro _ | apply State.zPend_kept | apply State.setZport_kept | apply State.zDiscard_kept | apply State.zMessage_kept | apply Kept.ite | dsimp only | split

theorem State.onFlit_kept {s0 : State} {s : State} {p : Nat} {bs : List Sys2Proof.Byte} (h_s : Kept s0 s) : Kept s0 (State.onFlit s p bs) := by
  unfold State.onFlit
  with_reducible repeat' first | assumption | intro _ | apply State.badFlit_kept | apply State.setZport_kept | apply State.zData_kept | apply Kept.ite | dsimp only | split

theorem execFlitReceive_kept {s0 : State} {p : Nat} {ls : List (List (Nat × List Sys2Proof.Byte))} {s : State} (h_s : Kept s0 s) : KeptR s0 (execFlitReceive p ls s) := by
  unfold execFlitReceive
  with_reducible repeat' first | assumption | intro _ | apply State.zRecv_kept | apply State.start_kept | apply answer_kept | apply State.onFlit_kept | apply State.badFlit_kept | apply KeptR.next | apply KeptR.ite | apply Kept.ite | dsimp only | split

theorem State.onNak_kept {s0 : State} {s : State} {p : Nat} {a : Nat} (h_s : Kept s0 s) : Kept s0 (State.onNak s p a) := by
  unfold State.onNak
  with_reducible repeat' first | assumption | intro _ | apply State.zCount_kept | apply State.setZport_kept | apply State.zRetrainNow_kept | apply Kept.ite | dsimp only | split

theorem execNakReceive_kept {s0 : State} {p : Nat} {ls : List (List (Nat × List Sys2Proof.Byte))} {s : State} (h_s : Kept s0 s) : KeptR s0 (execNakReceive p ls s) := by
  unfold execNakReceive
  with_reducible repeat' first | assumption | intro _ | apply State.zRecv_kept | apply State.start_kept | apply State.onFlit_kept | apply answer_kept | apply State.onNak_kept | apply KeptR.next | apply KeptR.ite | apply Kept.ite | dsimp only | split

theorem execZthRetrain_kept {s0 : State} {m : Nat} {p : Nat} {lost : Option Nat} {s : State} (h_s : Kept s0 s) : KeptR s0 (execZthRetrain m p lost s) := by
  unfold execZthRetrain
  with_reducible repeat' first | assumption | intro _ | apply State.setF_kept | apply State.start_kept | apply answer_kept | apply State.zRetrainNow_kept | apply State.write_kept | apply KeptR.next | apply KeptR.ite | apply Kept.ite | dsimp only | split

theorem execLinkDrop_kept {s0 : State} {p : Nat} {s : State} (h_s : Kept s0 s) : KeptR s0 (execLinkDrop p s) := by
  unfold execLinkDrop
  with_reducible repeat' first | assumption | intro _ | apply answer_kept | apply State.zFlush_kept | apply State.zFails_kept | apply State.start_kept | apply KeptR.next | dsimp only | split

theorem execZthWindowAccess_kept {s0 : State} {m : Nat} {a : Nat} {n : Nat} {bs : List Sys2Proof.Byte} {wr : Bool} {s : State} (h_s : Kept s0 s) : KeptR s0 (execZthWindowAccess m a n bs wr s) := by
  unfold execZthWindowAccess
  with_reducible repeat' first | assumption | intro _ | apply answer_kept | apply State.zCoreWrite_kept | apply State.start_kept | apply State.zCoreRead_kept | apply KeptR.next | apply KeptR.ite | apply Kept.ite | dsimp only | split

theorem State.zTake_kept {s0 : State} {s : State} {p : Nat} {ty : Nat} (h_s : Kept s0 s) : KeptO2 s0 (State.zTake s p ty) := by
  unfold State.zTake
  with_reducible repeat' first | assumption | intro _ | apply State.setZport_kept | apply KeptO2.none | apply KeptO2.some | dsimp only | split

theorem State.zRespond_kept {s0 : State} {s : State} {p : Nat} {msg : List Sys2Proof.Byte} (h_s : Kept s0 s) : Kept s0 (State.zRespond s p msg) := by
  unfold State.zRespond
  with_reducible repeat' first | assumption | intro _ | apply State.zQueue_kept | apply Kept.ite | dsimp only | split

theorem State.zAck_kept {s0 : State} {s : State} {p : Nat} {m : List Sys2Proof.Byte} {status : Nat} (h_s : Kept s0 s) : Kept s0 (State.zAck s p m status) := by
  unfold State.zAck
  with_reducible repeat' first | assumption | intro _ | apply State.zRespond_kept | dsimp only | split

theorem State.landBlocks_kept {s0 : State} {s : State} {p : Nat} {a : Nat} {data : List Sys2Proof.Byte} {trailers : List Sys2Proof.Byte} (h_s : Kept s0 s) : Kept s0 (State.landBlocks s p a data trailers).1 := by
  unfold State.landBlocks
  with_reducible repeat' first | assumption | intro _ | apply State.store_kept | apply State.report_kept | apply State.zCount_kept | apply State.poison_kept | apply Kept.ite1 | apply Kept.ite | apply Kept.fold | apply Kept.fold1 | dsimp only | split

theorem State.land_kept {s0 : State} {s : State} {p : Nat} {a : Nat} {m : List Sys2Proof.Byte} (h_s : Kept s0 s) : Kept s0 (State.land s p a m).1 := by
  unfold State.land
  with_reducible repeat' first | assumption | intro _ | apply State.landBlocks_kept | apply State.store_kept | apply Kept.ite1 | apply Kept.ite | dsimp only | split

theorem State.inbound_kept {s0 : State} {s : State} {p : Nat} {m : List Sys2Proof.Byte} {bs : List Nat} (h_s : Kept s0 s) : Kept s0 (State.inbound s p m bs) := by
  unfold State.inbound
  with_reducible repeat' first | assumption | intro _ | apply State.setZport_kept | apply KeptO.getD | apply Kept.ite | dsimp only | split

theorem execZthWriteMsg_kept {s0 : State} {p : Nat} {s : State} (h_s : Kept s0 s) : KeptR s0 (execZthWriteMsg p s) := by
  unfold execZthWriteMsg
  repeat' first | with_reducible assumption | with_reducible intro _ | with_reducible apply State.zTake_kept | (refine State.zTake_kept ?_ (_, _) (by with_reducible assumption)) | with_reducible apply State.start_kept | with_reducible apply answer_kept | with_reducible apply State.zAck_kept | with_reducible apply State.zCount_kept | with_reducible apply State.land_kept | with_reducible apply State.regulateRange_kept | with_reducible apply State.release_kept | with_reducible apply State.inbound_kept | with_reducible apply KeptR.next | with_reducible apply KeptR.ite | with_reducible apply Kept.ite | dsimp only | split

theorem execZthReadReq_kept {s0 : State} {p : Nat} {s : State} (h_s : Kept s0 s) : KeptR s0 (execZthReadReq p s) := by
  unfold execZthReadReq
  repeat' first | with_reducible assumption | with_reducible intro _ | with_reducible apply State.zTake_kept | (refine State.zTake_kept ?_ (_, _) (by with_reducible assumption)) | with_reducible apply State.start_kept | with_reducible apply answer_kept | with_reducible apply State.zRespond_kept | with_reducible apply State.zCount_kept | with_reducible apply State.checkRead_kept | with_reducible apply State.noteReads_kept | with_reducible apply State.regulateRange_kept | with_reducible apply State.provUnit_kept | (refine State.provUnit_kept ?_ (_, _) (by with_reducible assumption)) | with_reducible apply KeptR.next | with_reducible apply KeptO.getD | with_reducible apply KeptR.ite | with_reducible apply Kept.ite | dsimp only | split

theorem State.zAnswered_kept {s0 : State} {s : State} {p : Nat} {m : List Sys2Proof.Byte} {wr : Bool} (h_s : Kept s0 s) : KeptO2 s0 (State.zAnswered s p m wr) := by
  unfold State.zAnswered
  with_reducible repeat' first | assumption | intro _ | apply State.zWake_kept | apply State.setZport_kept | apply KeptO2.none | apply KeptO2.some | dsimp only | split

theorem State.readLands_kept {s0 : State} {s : State} {p : Nat} {r : ZReq} {m : List Sys2Proof.Byte} (h_s : Kept s0 s) : Kept s0 (State.readLands s p r m) := by
  unfold State.readLands
  extract_lets n bs g t
  split
  · exact State.pieceFailed_kept h_s
  · have hg : Kept s0 g.1 := by with_reducible exact Kept.ite1 (State.land_kept h_s) (State.deliver_kept h_s)
    have ht : Kept s0 t := by with_reducible exact .ite (State.inbound_kept hg) hg
    clear_value t g
    with_reducible exact .ite (State.pieceGot_kept ht) (State.pieceFailed_kept ht)

theorem execZthReadResp_kept {s0 : State} {p : Nat} {s : State} (h_s : Kept s0 s) : KeptR s0 (execZthReadResp p s) := by
  unfold execZthReadResp
  split
  · exact answer_kept h_s h_s
  · rename_i m t e
    have ht : Kept s0 t := State.zTake_kept (State.start_kept h_s) _ e
    split
    · exact .next ht
    · rename_i r u e2
      have hu : Kept s0 u := State.zAnswered_kept ht _ e2
      with_reducible exact .ite (.next (.ite (State.say_kept hu) (State.say_kept hu))) (.ite (answer_kept h_s h_s) (.next (State.pump_kept (State.readLands_kept hu))))

theorem execZthWriteAck_kept {s0 : State} {p : Nat} {s : State} (h_s : Kept s0 s) : KeptR s0 (execZthWriteAck p s) := by
  unfold execZthWriteAck
  split
  · exact answer_kept h_s h_s
  · rename_i m t e
    have ht : Kept s0 t := State.zTake_kept (State.start_kept h_s) _ e
    dsimp only
    split
    · exact .next ht
    · rename_i r u e2
      have hu : Kept s0 u := State.zAnswered_kept ht _ e2
      with_reducible exact .ite (.next (.ite hu (State.say_kept hu))) (.next (State.pump_kept (.ite (State.pieceGot_kept hu) (State.pieceFailed_kept hu))))

theorem State.noticeEntry_kept {s0 : State} {s : State} {p : Nat} {broke : Bool} {e : InbEntry} (h_s : Kept s0 s) : Kept s0 (State.noticeEntry s p broke e) := by
  unfold State.noticeEntry
  with_reducible repeat' first | assumption | intro _ | apply State.poison_kept | apply State.clearProv_kept | apply Kept.ite | dsimp only | split

theorem execZthNotice_kept {s0 : State} {p : Nat} {s : State} (h_s : Kept s0 s) : KeptR s0 (execZthNotice p s) := by
  unfold execZthNotice
  repeat' first | with_reducible assumption | with_reducible intro _ | with_reducible apply State.zTake_kept | (refine State.zTake_kept ?_ (_, _) (by with_reducible assumption)) | with_reducible apply State.start_kept | with_reducible apply answer_kept | with_reducible apply State.noticeEntry_kept | with_reducible apply State.setZport_kept | with_reducible apply KeptR.next | with_reducible apply KeptR.ite | with_reducible apply Kept.ite | with_reducible apply Kept.fold | with_reducible apply Kept.fold1 | dsimp only | split

theorem State.routeWrite_kept {s0 : State} {s : State} {e : Nat} {w : Sys2Proof.Word} (h_s : Kept s0 s) : Kept s0 (State.routeWrite s e w) := by
  unfold State.routeWrite
  with_reducible repeat' first | assumption | intro _ | apply State.unhold_kept | apply State.wr_kept | dsimp only | split

theorem execZthRouteWrite_kept {s0 : State} {m : Nat} {e : Nat} {v : Nat} {s : State} (h_s : Kept s0 s) : KeptR s0 (execZthRouteWrite m e v s) := by
  unfold execZthRouteWrite
  with_reducible repeat' first | assumption | intro _ | apply State.write_kept | apply State.routeWrite_kept | apply State.start_kept | apply KeptR.next | dsimp only | split

/-! ## Machine/Tick.lean -/

theorem State.provTick_kept {s0 : State} {s : State} {n : Nat} (h_s : Kept s0 s) : Kept s0 (State.provTick s n) := by
  unfold State.provTick
  with_reducible repeat' first | assumption | intro _ | apply State.bump_kept | apply Kept.ite | apply Kept.fold | apply Kept.fold1 | dsimp only | split

theorem State.holdTick_kept {s0 : State} {s : State} {n : Nat} (h_s : Kept s0 s) : Kept s0 (State.holdTick s n) := by
  unfold State.holdTick
  with_reducible repeat' first | assumption | intro _ | apply State.bump_kept | apply Kept.fold | apply Kept.fold1 | dsimp only | split

theorem State.ticked_kept {s0 : State} {s : State} {n : Nat} (h_s : Kept s0 s) : Kept s0 (State.ticked s n) := by
  unfold State.ticked
  with_reducible repeat' first | assumption | intro _ | apply State.holdTick_kept | apply State.provTick_kept | apply State.wdogTick_kept | apply State.stallTick_kept | apply State.rateTick_kept | dsimp only | split

theorem State.timGo_kept {s0 : State} {s : State} {n : Nat} (h_s : Kept s0 s) : Kept s0 (State.timGo s n) := by
  unfold State.timGo
  with_reducible repeat' first | assumption | intro _ | apply State.pdKickFrom_kept | apply State.zBack_kept | apply State.ticked_kept | dsimp only | split | apply Kept.mk

theorem execTimeBaseTick_kept {s0 : State} {n : Nat} {s : State} (h_s : Kept s0 s) : KeptR s0 (execTimeBaseTick n s) := by
  unfold execTimeBaseTick
  with_reducible repeat' first | assumption | intro _ | apply answer_kept | apply State.timGo_kept | apply State.start_kept | apply KeptR.next | dsimp only | split

theorem execTimeBaseWrap_kept {s0 : State} {s : State} (h_s : Kept s0 s) : KeptR s0 (execTimeBaseWrap s) := by
  unfold execTimeBaseWrap
  with_reducible repeat' first | assumption | intro _ | apply answer_kept | apply State.timEvent_kept | apply State.timGo_kept | apply State.start_kept | apply KeptR.next | dsimp only | split

theorem State.timStep_kept {s0 : State} {s : State} (h_s : Kept s0 s) : Kept s0 (State.timStep s) := by
  unfold State.timStep
  with_reducible repeat' first | assumption | intro _ | apply State.tltSettle_kept | apply State.hbxSettle_kept | apply State.timGo_kept | apply State.timEvent_kept | apply State.tltResume_kept | apply State.hbxStepped_kept | apply State.ageAll_kept | apply Kept.ite | dsimp only | split | apply Kept.mk

theorem State.timCtrl_kept {s0 : State} {s : State} {w : Sys2Proof.Word} (h_s : Kept s0 s) : Kept s0 (State.timCtrl s w) := by
  unfold State.timCtrl
  with_reducible repeat' first | assumption | intro _ | apply State.timStep_kept | apply Kept.ite | dsimp only | split

theorem execTimStep_kept {s0 : State} {m : Nat} {s : State} (h_s : Kept s0 s) : KeptR s0 (execTimStep m s) := by
  unfold execTimStep
  with_reducible repeat' first | assumption | intro _ | apply State.write_kept | apply State.timCtrl_kept | apply State.start_kept | apply KeptR.next | dsimp only | split

/-! ## Machine/Csi.lean -/

theorem State.csiCount_kept {s0 : State} {s : State} {p : Nat} {k : Nat} (h_s : Kept s0 s) : Kept s0 (State.csiCount s p k) := by
  unfold State.csiCount
  with_reducible repeat' first | assumption | intro _ | apply State.bump_kept | dsimp only | split

theorem State.csiHeader_kept {s0 : State} {s : State} {p : Nat} {vc : Nat} {ecc : Nat} (h_s : Kept s0 s) : Kept s0 (State.csiHeader s p vc ecc).1 := by
  unfold State.csiHeader
  with_reducible repeat' first | assumption | intro _ | apply State.csiCount_kept | apply State.setCsi_kept | apply Kept.ite1 | apply Kept.ite | apply Kept.fold | apply Kept.fold1 | dsimp only | split

theorem State.csiBell_kept {s0 : State} {s : State} {p : Nat} {v : Nat} {n : Nat} (h_s : Kept s0 s) : Kept s0 (State.csiBell s p v n) := by
  unfold State.csiBell
  with_reducible repeat' first | assumption | intro _ | apply State.ringPush_kept | dsimp only | split

theorem execCsiDoorbell_kept {s0 : State} {m : Nat} {p : Nat} {v : Nat} {n : Nat} {s : State} (h_s : Kept s0 s) : KeptR s0 (execCsiDoorbell m p v n s) := by
  unfold execCsiDoorbell
  with_reducible repeat' first | assumption | intro _ | apply State.write_kept | apply State.csiBell_kept | apply State.start_kept | apply KeptR.next | dsimp only | split

theorem State.csiPut_kept {s0 : State} {s : State} {p : Nat} {a : Nat} {bs : List Sys2Proof.Byte} (h_s : Kept s0 s) : Kept s0 (State.csiPut s p a bs) := by
  unfold State.csiPut
  with_reducible repeat' first | assumption | intro _ | apply State.putThen_kept | apply Kept.ite | dsimp only | split

theorem State.csiClose_kept {s0 : State} {s : State} {p : Nat} {v : Nat} {f : Frame} (h_s : Kept s0 s) : Kept s0 (State.csiClose s p v f) := by
  unfold State.csiClose
  with_reducible repeat' first | assumption | intro _ | apply State.csiPut_kept | apply State.putThen_kept | apply State.setCsi_kept | apply State.setF_kept | apply State.cellAdd_kept | apply Kept.ite | dsimp only | split

theorem State.csiOpen_kept {s0 : State} {s : State} {p : Nat} {v : Nat} {num : Nat} (h_s : Kept s0 s) : Kept s0 (State.csiOpen s p v num) := by
  unfold State.csiOpen
  with_reducible repeat' first | assumption | intro _ | apply State.csiClose_kept | apply State.setCsi_kept | apply State.csiCount_kept | apply State.regulateRange_kept | apply Kept.ite | dsimp only | split

theorem execCsiFrameStart_kept {s0 : State} {p : Nat} {ecc : Nat} {vc : Nat} {num : Nat} {s : State} (h_s : Kept s0 s) : KeptR s0 (execCsiFrameStart p ecc vc num s) := by
  unfold execCsiFrameStart
  with_reducible repeat' first | assumption | intro _ | apply State.csiHeader_kept | apply State.start_kept | apply State.say_kept | apply answer_kept | apply State.csiOpen_kept | apply KeptR.next | apply KeptR.ite | apply Kept.ite | dsimp only | split

theorem Frame.line_kept {s0 : State} {s : State} {f : Frame} {p : Nat} {bs : List Sys2Proof.Byte} {crcBad : Bool} (h_s : Kept s0 s) : Kept s0 (Frame.line s f p bs crcBad).1 := by
  unfold Frame.line
  with_reducible repeat' first | assumption | intro _ | apply State.csiPut_kept | apply State.tookFree_kept | apply Kept.ite1 | apply Kept.ite | dsimp only | split

theorem execCsiLongPacket_kept {s0 : State} {p : Nat} {ecc : Nat} {vc : Nat} {dt : Nat} {bs : List Sys2Proof.Byte} {crcBad : Bool} {s : State} (h_s : Kept s0 s) : KeptR s0 (execCsiLongPacket p ecc vc dt bs crcBad s) := by
  unfold execCsiLongPacket
  with_reducible repeat' first | assumption | intro _ | apply State.csiHeader_kept | apply State.start_kept | apply answer_kept | apply State.csiCount_kept | apply Frame.line_kept | apply State.setCsi_kept | apply KeptR.next | apply KeptR.ite | apply Kept.ite | dsimp only | split

theorem execCsiFrameEnd_kept {s0 : State} {p : Nat} {ecc : Nat} {vc : Nat} {s : State} (h_s : Kept s0 s) : KeptR s0 (execCsiFrameEnd p ecc vc s) := by
  unfold execCsiFrameEnd
  with_reducible repeat' first | assumption | intro _ | apply State.csiHeader_kept | apply State.start_kept | apply State.say_kept | apply answer_kept | apply State.csiCount_kept | apply State.csiClose_kept | apply State.setCsi_kept | apply KeptR.next | apply KeptR.ite | apply Kept.ite | dsimp only | split

theorem State.csiCfg_kept {s0 : State} {s : State} {p : Nat} {w : Sys2Proof.Word} (h_s : Kept s0 s) : Kept s0 (State.csiCfg s p w) := by
  unfold State.csiCfg
  with_reducible repeat' first | assumption | intro _ | apply State.setF_kept | apply State.wr_kept | apply Kept.ite | dsimp only | split

theorem State.csiCtxCfg_kept {s0 : State} {s : State} {p : Nat} {v : Nat} {w : Sys2Proof.Word} (h_s : Kept s0 s) : Kept s0 (State.csiCtxCfg s p v w) := by
  unfold State.csiCtxCfg
  with_reducible repeat' first | assumption | intro _ | apply State.setCsi_kept | apply State.setF_kept | apply State.wr_kept | apply Kept.ite | dsimp only | split

/-! ## Machine/Iommu.lean -/

theorem State.ioKeep_kept {s0 : State} {s : State} {y : IoEntry} (h_s : Kept s0 s) : Kept s0 (State.ioKeep s y) := by
  unfold State.ioKeep
  with_reducible repeat' first | assumption | intro _ | dsimp only | split | apply Kept.mk

theorem State.ioWalk_kept {s0 : State} {s : State} {x : IoCtx} {wr : Bool} {iova : Nat} (h_s : Kept s0 s) : Kept s0 (State.ioWalk s x wr iova).1 := by
  unfold State.ioWalk
  with_reducible repeat' first | assumption | intro _ | apply State.ioKeep_kept | apply Kept.ite1 | apply Kept.ite | dsimp only | split | apply Kept.mk

theorem State.ioPend_kept {s0 : State} {s : State} (h_s : Kept s0 s) : Kept s0 (State.ioPend s) := by
  unfold State.ioPend
  with_reducible repeat' first | assumption | intro _ | apply State.setF_kept | apply State.sense_kept | apply Kept.ite | dsimp only | split

theorem State.ioStore_kept {s0 : State} {s : State} {a : Nat} {bs : List Sys2Proof.Byte} (h_s : Kept s0 s) : Kept s0 (State.ioStore s a bs).1 := by
  unfold State.ioStore
  with_reducible repeat' first | assumption | intro _ | apply State.putThen_kept | apply State.tookFree_kept | apply State.store_kept | apply Kept.ite1 | apply Kept.ite | dsimp only | split

theorem State.ioRecord_kept {s0 : State} {s : State} {wr : Bool} {did : Nat} {iova : Nat} {cause : Nat} {v2 : Nat} (h_s : Kept s0 s) : Kept s0 (State.ioRecord s wr did iova cause v2) := by
  unfold State.ioRecord
  with_reducible repeat' first | assumption | intro _ | apply State.ioPend_kept | apply State.setF_kept | apply State.ioStore_kept | apply Kept.ite | dsimp only | split

theorem State.ioStopped_kept {s0 : State} {s : State} {wr : Bool} {quiet : Bool} {did : Nat} {iova : Nat} {x0 : IoStop} (h_s : Kept s0 s) : Kept s0 (State.ioStopped s wr quiet did iova x0).1 := by
  unfold State.ioStopped
  with_reducible repeat' first | assumption | intro _ | apply State.ioRecord_kept | apply Kept.ite1 | apply Kept.ite | dsimp only | split

theorem State.ioTranslate_kept {s0 : State} {s : State} {did : Nat} {iova : Nat} {wr : Bool} (h_s : Kept s0 s) : Kept s0 (State.ioTranslate s did iova wr).1 := by
  unfold State.ioTranslate
  with_reducible repeat' first | assumption | intro _ | apply State.ioStopped_kept | apply State.ioWalk_kept | apply Kept.ite1 | apply Kept.ite | dsimp only | split

theorem State.ioCommand_kept {s0 : State} {s : State} {w0 w1 : Nat} (h : Kept s0 s) :
    (∀ t, State.ioCommand s w0 w1 = .done t → Kept s0 t) ∧ (∀ t, State.ioCommand s w0 w1 = .failed t → Kept s0 t) := by
  have ite : ∀ {c : Prop} [Decidable c] {x y : IoCmd}, ((∀ t, x = .done t → Kept s0 t) ∧ (∀ t, x = .failed t → Kept s0 t)) →
      ((∀ t, y = .done t → Kept s0 t) ∧ (∀ t, y = .failed t → Kept s0 t)) →
      (∀ t, (if c then x else y) = .done t → Kept s0 t) ∧ (∀ t, (if c then x else y) = .failed t → Kept s0 t) := by
    intro c _ x y hx hy
    split
    · exact hx
    · exact hy
  have ill : (∀ t, IoCmd.illegal = .done t → Kept s0 t) ∧ (∀ t, IoCmd.illegal = .failed t → Kept s0 t) := ⟨fun _ e => (by cases e), fun _ e => (by cases e)⟩
  have done : ∀ {u}, Kept s0 u → (∀ t, IoCmd.done u = .done t → Kept s0 t) ∧ (∀ t, IoCmd.done u = .failed t → Kept s0 t) :=
    fun k => ⟨fun _ e => (by cases e; exact k), fun _ e => (by cases e)⟩
  have failed : ∀ {u}, Kept s0 u → (∀ t, IoCmd.failed u = .done t → Kept s0 t) ∧ (∀ t, IoCmd.failed u = .failed t → Kept s0 t) :=
    fun k => ⟨fun _ e => (by cases e), fun _ e => (by cases e; exact k)⟩
  unfold State.ioCommand
  extract_lets f op page r
  have hr : Kept s0 r.1 := by
    dsimp only [r]
    with_reducible exact Kept.ite1 (State.ioStore_kept h) h
  clear_value r
  refine ite (ite ill (done (h.upd rfl rfl rfl rfl rfl))) (ite (ite ill (ite (done (Kept.ite (State.setF_kept hr) hr)) (failed hr))) (ite (ite ill (done h)) ill))

theorem State.ioStep_kept {s0 : State} {s : State} (h : Kept s0 s) : Kept s0 (State.ioStep s).1 := by
  delta State.ioStep
  extract_lets k
  split
  · exact h
  · split
    · exact h
    · exact State.setF_kept h
    · rename_i w _
      have c := State.ioCommand_kept (w0 := w % 2 ^ 64) (w1 := w / 2 ^ 64) h
      split
      · exact State.setF_kept h
      · rename_i t e; exact State.setF_kept (c.2 t e)
      · rename_i t e; exact State.setF_kept (c.1 t e)

theorem State.ioRun_kept {s0 : State} {n : Nat} {s : State} (h : Kept s0 s) : Kept s0 (State.ioRun n s) := by
  unfold State.ioRun
  exact Kept.fold1 (fun _ _ _ k => Kept.ite1 (State.ioStep_kept k) k) h

theorem State.ioGo_kept {s0 : State} {s : State} (h_s : Kept s0 s) : Kept s0 (State.ioGo s) := by
  unfold State.ioGo
  with_reducible repeat' first | assumption | intro _ | apply State.ioPend_kept | apply State.ioRun_kept | dsimp only | split

theorem State.ioCqcsr_kept {s0 : State} {s : State} {w : Sys2Proof.Word} (h_s : Kept s0 s) : Kept s0 (State.ioCqcsr s w) := by
  unfold State.ioCqcsr
  with_reducible repeat' first | assumption | intro _ | apply State.setF_kept | apply State.ioGo_kept | apply Kept.ite | apply Kept.fold | apply Kept.fold1 | dsimp only | split

theorem State.ioFqcsr_kept {s0 : State} {s : State} {w : Sys2Proof.Word} (h_s : Kept s0 s) : Kept s0 (State.ioFqcsr s w) := by
  unfold State.ioFqcsr
  with_reducible repeat' first | assumption | intro _ | apply State.setF_kept | apply State.ioPend_kept | apply Kept.ite | apply Kept.fold | apply Kept.fold1 | dsimp only | split

theorem State.ownIommu_kept {s0 : State} {s : State} {b : Nat} {w : Sys2Proof.Word} (h_s : Kept s0 s) : KeptO s0 (State.ownIommu s b w) := by
  unfold State.ownIommu
  with_reducible repeat' first | assumption | intro _ | apply State.wr_kept | apply State.setF_kept | apply State.ioGo_kept | apply State.ioCqcsr_kept | apply State.ioFqcsr_kept | apply State.ioPend_kept | apply KeptO.none | apply KeptO.some | apply KeptO.ite | apply Kept.ite | dsimp only | split

/-! ## Machine/PcieCmds.lean -/

theorem State.pInMap_kept {s0 : State} {s : State} {p : Nat} {rid : Nat} {a : Nat} {n : Nat} {wr : Bool} (h_s : Kept s0 s) : Kept s0 (State.pInMap s p rid a n wr).1 := by
  unfold State.pInMap
  with_reducible repeat' first | assumption | intro _ | apply State.ioTranslate_kept | apply Kept.ite1 | apply Kept.ite | dsimp only | split

theorem State.pUr_kept {s0 : State} {s : State} {p : Nat} (h_s : Kept s0 s) : Kept s0 (State.pUr s p) := by
  unfold State.pUr
  with_reducible repeat' first | assumption | intro _ | apply State.pEvent_kept | apply State.emit_kept | dsimp only | split

theorem State.pInRead_kept {s0 : State} {s : State} {p : Nat} {n : Nat} {at_ : Option Nat} (h_s : Kept s0 s) : Kept s0 (State.pInRead s p n at_) := by
  unfold State.pInRead
  with_reducible repeat' first | assumption | intro _ | apply State.pUr_kept | apply State.gated_kept | apply State.readAt_kept | apply State.bump_kept | apply State.emit_kept | apply Kept.ite | dsimp only | split | apply Kept.mk

theorem State.cqReport_kept {s0 : State} {s : State} {p : Nat} {a : Nat} {n : Nat} (h_s : Kept s0 s) : Kept s0 (State.cqReport s p a n) := by
  unfold State.cqReport
  with_reducible repeat' first | assumption | intro _ | apply State.setMover_kept | apply Kept.ite | apply Kept.fold | apply Kept.fold1 | dsimp only | split

theorem State.pInWrite_kept {s0 : State} {s : State} {p : Nat} {bs : List Sys2Proof.Byte} {pois : Bool} {at_ : Option Nat} (h_s : Kept s0 s) : Kept s0 (State.pInWrite s p bs pois at_) := by
  unfold State.pInWrite
  with_reducible repeat' first | assumption | intro _ | apply State.sendMsi_kept | apply State.gated_kept | apply State.blockWrite_kept | apply State.writeAt_kept | apply State.cqReport_kept | apply Kept.ite | dsimp only | split | apply Kept.mk

theorem State.pInStore_kept {s0 : State} {s : State} {p : Nat} {rid : Nat} {a : Nat} {bs : List Sys2Proof.Byte} {pois : Bool} (h_s : Kept s0 s) : Kept s0 (State.pInStore s p rid a bs pois) := by
  unfold State.pInStore
  with_reducible repeat' first | assumption | intro _ | apply State.pInMap_kept | apply State.say_kept | apply State.pInWrite_kept | apply Kept.ite | dsimp only | split

theorem State.pInLoad_kept {s0 : State} {s : State} {p : Nat} {rid : Nat} {a : Nat} {n : Nat} (h_s : Kept s0 s) : Kept s0 (State.pInLoad s p rid a n) := by
  unfold State.pInLoad
  with_reducible repeat' first | assumption | intro _ | apply State.pInMap_kept | apply State.say_kept | apply State.pInRead_kept | apply Kept.ite | dsimp only | split

theorem execPcieInboundRequest_kept {s0 : State} {p : Nat} {wr : Bool} {rid : Nat} {a : Nat} {n : Nat} {bs : List Sys2Proof.Byte} {s : State} (h_s : Kept s0 s) : KeptR s0 (execPcieInboundRequest p wr rid a n bs s) := by
  unfold execPcieInboundRequest
  with_reducible repeat' first | assumption | intro _ | apply answer_kept | apply State.pInStore_kept | apply State.start_kept | apply State.pInLoad_kept | apply KeptR.next | apply KeptR.ite | apply Kept.ite | dsimp only | split

theorem State.pTake_kept {s0 : State} {s : State} {p : Nat} {tag : Nat} (h_s : Kept s0 s) : KeptO2 s0 (State.pTake s p tag) := by
  unfold State.pTake
  intro x e
  cases hx : (s.pport p).reqs.find? (fun r => r.tag == tag) with
  | none => simp only [hx] at e; cases e
  | some r => simp only [hx] at e; cases e; exact State.setPport_kept h_s

theorem State.pFail_kept {s0 : State} {s : State} {r : PReq} (h_s : Kept s0 s) : Kept s0 (State.pFail s r) := by
  unfold State.pFail
  with_reducible repeat' first | assumption | intro _ | apply State.emit_kept | apply State.pump_kept | apply State.pieceFailed_kept | apply Kept.ite | dsimp only | split

theorem execPcieCompletion_kept {s0 : State} {p : Nat} {tag : Nat} {err : Bool} {bs : List Sys2Proof.Byte} {s : State} (h_s : Kept s0 s) : KeptR s0 (execPcieCompletion p tag err bs s) := by
  unfold execPcieCompletion
  split
  · exact answer_kept h_s h_s
  · split
    · exact answer_kept h_s h_s
    · rename_i r t e
      have ht : Kept s0 t := State.pTake_kept (State.start_kept h_s) _ e
      have hg : ∀ {w : WTag} {m v k : Nat}, Kept s0 (t.deliver w m v k bs).1 := State.deliver_kept ht
      with_reducible exact .ite (.next (.ite (State.say_kept ht) (State.pFail_kept ht))) (.ite (.next (State.say_kept ht))
        (.next (State.pump_kept (.ite (State.pieceGot_kept hg) (State.pieceDenied_kept hg)))))

theorem execPoisonedTlpReceive_kept {s0 : State} {p : Nat} {cpl : Bool} {tag : Nat} {rid : Nat} {a : Nat} {bs : List Sys2Proof.Byte} {s : State} (h_s : Kept s0 s) : KeptR s0 (execPoisonedTlpReceive p cpl tag rid a bs s) := by
  unfold execPoisonedTlpReceive
  repeat' first | with_reducible assumption | with_reducible intro _ | with_reducible apply answer_kept | with_reducible apply State.pEvent_kept | with_reducible apply State.start_kept | with_reducible apply State.pTake_kept | (refine State.pTake_kept ?_ (_, _) (by with_reducible assumption)) | with_reducible apply State.say_kept | with_reducible apply State.pFail_kept | with_reducible apply State.pInStore_kept | with_reducible apply KeptR.next | with_reducible apply KeptR.ite | with_reducible apply Kept.ite | dsimp only | split

theorem execPcieCplTimeout_kept {s0 : State} {p : Nat} {tag : Nat} {s : State} (h_s : Kept s0 s) : KeptR s0 (execPcieCplTimeout p tag s) := by
  unfold execPcieCplTimeout
  repeat' first | with_reducible assumption | with_reducible intro _ | with_reducible apply State.pTake_kept | (refine State.pTake_kept ?_ (_, _) (by with_reducible assumption)) | with_reducible apply State.start_kept | with_reducible apply answer_kept | with_reducible apply State.pFail_kept | with_reducible apply State.pEvent_kept | with_reducible apply KeptR.next | dsimp only | split

theorem State.pMsix_kept {s0 : State} {s : State} {p : Nat} {v : Nat} (h_s : Kept s0 s) : Kept s0 (State.pMsix s p v) := by
  unfold State.pMsix
  with_reducible repeat' first | assumption | intro _ | apply State.emit_kept | apply Kept.ite | dsimp only | split

theorem execMsixTrig_kept {s0 : State} {m : Nat} {p : Nat} {v : Nat} {s : State} (h_s : Kept s0 s) : KeptR s0 (execMsixTrig m p v s) := by
  unfold execMsixTrig
  with_reducible repeat' first | assumption | intro _ | apply State.write_kept | apply State.pMsix_kept | apply State.start_kept | apply KeptR.next | dsimp only | split

theorem execPcieLinkUp_kept {s0 : State} {p : Nat} {width : Nat} {rate : Nat} {s : State} (h_s : Kept s0 s) : KeptR s0 (execPcieLinkUp p width rate s) := by
  unfold execPcieLinkUp
  with_reducible repeat' first | assumption | intro _ | apply answer_kept | apply State.setF_kept | apply State.start_kept | apply KeptR.next | dsimp only | split

theorem State.pDrop_kept {s0 : State} {s : State} {p : Nat} (h_s : Kept s0 s) : Kept s0 (State.pDrop s p) := by
  unfold State.pDrop
  with_reducible repeat' first | assumption | intro _ | apply State.pEvent_kept | apply State.setF_kept | apply State.pFail_kept | apply State.setPport_kept | apply Kept.fold | apply Kept.fold1 | dsimp only | split

theorem execPcieLinkDown_kept {s0 : State} {p : Nat} {s : State} (h_s : Kept s0 s) : KeptR s0 (execPcieLinkDown p s) := by
  unfold execPcieLinkDown
  with_reducible repeat' first | assumption | intro _ | apply answer_kept | apply State.pDrop_kept | apply State.start_kept | apply KeptR.next | dsimp only | split

theorem execPerstAssert_kept {s0 : State} {p : Nat} {s : State} (h_s : Kept s0 s) : KeptR s0 (execPerstAssert p s) := by
  unfold execPerstAssert
  with_reducible repeat' first | assumption | intro _ | apply State.pDrop_kept | apply State.start_kept | apply State.wr_kept | apply State.resetRegs_kept | apply answer_kept | apply State.sense_kept | apply State.setPport_kept | apply KeptR.next | apply KeptR.ite | apply Kept.ite | dsimp only | split

theorem execPerstRelease_kept {s0 : State} {p : Nat} {s : State} (h_s : Kept s0 s) : KeptR s0 (execPerstRelease p s) := by
  unfold execPerstRelease
  with_reducible repeat' first | assumption | intro _ | apply State.setPport_kept | apply State.start_kept | apply answer_kept | apply State.emit_kept | apply KeptR.next | apply KeptR.ite | apply Kept.ite | dsimp only | split

end Sys2Proof.Machine
end

