-- ==== Sys2Proof/Laws/KeptSystem.lean ====
section
/-! SUPPORT. What the operations and commands of Machine/Can, Pins, Engines, Loam, Marl, Dune, Flash, Domains, Power, Switching, Mti, Mgt, Registers, Image, Boot, EngineCmds, Jtag, Mailbox keep (Laws/Kept.lean):
one lemma for each definition that answers a state, cited by the lemmas of the definitions that call it. -/
namespace Sys2Proof.Machine
open Sys2Proof
set_option linter.all false
set_option Elab.async false

/-! ## Machine/Can.lean -/

theorem State.canIrq_kept {s0 : State} {s : State} {n : Nat} (h_s : Kept s0 s) : Kept s0 (State.canIrq s n) := by
  unfold State.canIrq
  with_reducible repeat' first | assumption | intro _ | apply State.sense_kept | dsimp only | split

theorem State.canReq_kept {s0 : State} {s : State} {n : Nat} {v : Nat} (h_s : Kept s0 s) : Kept s0 (State.canReq s n v) := by
  unfold State.canReq
  with_reducible repeat' first | assumption | intro _ | apply State.setCan_kept | apply State.setF_kept | apply Kept.fold | apply Kept.fold1 | dsimp only | split

theorem execCanTxReq_kept {s0 : State} {m : Nat} {n : Nat} {v : Nat} {s : State} (h_s : Kept s0 s) : KeptR s0 (execCanTxReq m n v s) := by
  unfold execCanTxReq
  with_reducible repeat' first | assumption | intro _ | apply State.write_kept | apply State.canReq_kept | apply State.start_kept | apply KeptR.next | dsimp only | split

theorem State.canEnd_kept {s0 : State} {s : State} {n : Nat} {b : Nat} {done : Bool} (h_s : Kept s0 s) : Kept s0 (State.canEnd s n b done) := by
  unfold State.canEnd
  with_reducible repeat' first | assumption | intro _ | apply State.setF_kept | apply State.canIrq_kept | apply State.setCan_kept | apply Kept.ite | dsimp only | split

theorem execCanTxComplete_kept {s0 : State} {n : Nat} {sent : Bool} {sof : Nat} {s : State} (h_s : Kept s0 s) : KeptR s0 (execCanTxComplete n sent sof s) := by
  unfold execCanTxComplete
  with_reducible repeat' first | assumption | intro _ | apply answer_kept | apply State.setF_kept | apply State.start_kept | apply State.emit_kept | apply State.canEnd_kept | apply KeptR.next | apply KeptR.ite | apply Kept.ite | dsimp only | split

theorem State.canRetry_kept {s0 : State} {s : State} {n : Nat} {b : Nat} (h_s : Kept s0 s) : Kept s0 (State.canRetry s n b) := by
  unfold State.canRetry
  with_reducible repeat' first | assumption | intro _ | apply State.setCan_kept | apply Kept.ite | dsimp only | split

theorem execCanArbitrationLost_kept {s0 : State} {n : Nat} {sof : Nat} {s : State} (h_s : Kept s0 s) : KeptR s0 (execCanArbitrationLost n sof s) := by
  unfold execCanArbitrationLost
  with_reducible repeat' first | assumption | intro _ | apply answer_kept | apply State.canRetry_kept | apply State.bump_kept | apply State.start_kept | apply KeptR.next | dsimp only | split

theorem execCanBusError_kept {s0 : State} {n : Nat} {tx : Bool} {inc : Nat} {sof : Nat} {s : State} (h_s : Kept s0 s) : KeptR s0 (execCanBusError n tx inc sof s) := by
  unfold execCanBusError
  with_reducible repeat' first | assumption | intro _ | apply State.setF_kept | apply State.bump_kept | apply State.start_kept | apply State.canIrq_kept | apply answer_kept | apply State.canRetry_kept | apply KeptR.next | apply KeptR.ite | apply Kept.ite | dsimp only | split

theorem State.canRecover_kept {s0 : State} {s : State} {n : Nat} (h_s : Kept s0 s) : Kept s0 (State.canRecover s n) := by
  unfold State.canRecover
  with_reducible repeat' first | assumption | intro _ | apply State.setCan_kept | apply Kept.ite | dsimp only | split

theorem execCanRecover_kept {s0 : State} {m : Nat} {n : Nat} {s : State} (h_s : Kept s0 s) : KeptR s0 (execCanRecover m n s) := by
  unfold execCanRecover
  with_reducible repeat' first | assumption | intro _ | apply State.write_kept | apply State.canRecover_kept | apply State.start_kept | apply KeptR.next | dsimp only | split

theorem execCanRecoveryComplete_kept {s0 : State} {n : Nat} {s : State} (h_s : Kept s0 s) : KeptR s0 (execCanRecoveryComplete n s) := by
  unfold execCanRecoveryComplete
  with_reducible repeat' first | assumption | intro _ | apply answer_kept | apply State.canIrq_kept | apply State.setCan_kept | apply State.setF_kept | apply State.start_kept | apply KeptR.next | dsimp only | split

theorem State.canAbort_kept {s0 : State} {s : State} {n : Nat} {busy : Option Nat} (h_s : Kept s0 s) : Kept s0 (State.canAbort s n busy) := by
  unfold State.canAbort
  with_reducible repeat' first | assumption | intro _ | apply State.canEnd_kept | apply Kept.fold | apply Kept.fold1 | dsimp only | split

theorem execCanAbortAll_kept {s0 : State} {m : Nat} {n : Nat} {busy : Option Nat} {s : State} (h_s : Kept s0 s) : KeptR s0 (execCanAbortAll m n busy s) := by
  unfold execCanAbortAll
  with_reducible repeat' first | assumption | intro _ | apply State.write_kept | apply State.canAbort_kept | apply State.start_kept | apply KeptR.next | dsimp only | split

theorem State.canCtrl_kept {s0 : State} {s : State} {n : Nat} {w : Sys2Proof.Word} (h_s : Kept s0 s) : Kept s0 (State.canCtrl s n w) := by
  unfold State.canCtrl
  with_reducible repeat' first | assumption | intro _ | apply State.canRecover_kept | apply State.canAbort_kept | apply Kept.ite | dsimp only | split

theorem State.canPush_kept {s0 : State} {s : State} {n : Nat} {r : Nat} {entry : List Sys2Proof.Byte} (h_s : Kept s0 s) : Kept s0 (State.canPush s n r entry) := by
  unfold State.canPush
  with_reducible repeat' first | assumption | intro _ | apply State.bump_kept | apply State.canIrq_kept | apply State.setF_kept | apply State.putThen_kept | apply State.tookFree_kept | apply Kept.ite | dsimp only | split

theorem execCanFrameReceive_kept {s0 : State} {n : Nat} {w : Nat} {dlc : Nat} {flags : Nat} {data : List Sys2Proof.Byte} {sof : Nat} {s : State} (h_s : Kept s0 s) : KeptR s0 (execCanFrameReceive n w dlc flags data sof s) := by
  unfold execCanFrameReceive
  with_reducible repeat' first | assumption | intro _ | apply State.setF_kept | apply State.start_kept | apply State.tookFree_kept | apply State.say_kept | apply answer_kept | apply State.canPush_kept | apply KeptR.next | apply KeptO.getD | apply KeptR.ite | apply Kept.ite | dsimp only | split

theorem State.canBell_kept {s0 : State} {s : State} {n : Nat} {r : Nat} {v : Nat} (h_s : Kept s0 s) : Kept s0 (State.canBell s n r v) := by
  unfold State.canBell
  with_reducible repeat' first | assumption | intro _ | apply State.canIrq_kept | apply State.setF_kept | apply Kept.ite | dsimp only | split

theorem execCanRxDoorbell_kept {s0 : State} {m : Nat} {n : Nat} {r : Nat} {v : Nat} {s : State} (h_s : Kept s0 s) : KeptR s0 (execCanRxDoorbell m n r v s) := by
  unfold execCanRxDoorbell
  with_reducible repeat' first | assumption | intro _ | apply State.write_kept | apply State.canBell_kept | apply State.start_kept | apply KeptR.next | dsimp only | split

theorem State.canRings_kept {s0 : State} {s : State} {n : Nat} (h_s : Kept s0 s) : Kept s0 (State.canRings s n) := by
  unfold State.canRings
  with_reducible repeat' first | assumption | intro _ | apply State.canIrq_kept | apply State.setF_kept | apply Kept.fold | apply Kept.fold1 | dsimp only | split

theorem State.canCfg_kept {s0 : State} {s : State} {n : Nat} {w : Sys2Proof.Word} (h_s : Kept s0 s) : Kept s0 (State.canCfg s n w) := by
  unfold State.canCfg
  with_reducible repeat' first | assumption | intro _ | apply State.setF_kept | apply State.wr_kept | apply State.canRings_kept | apply Kept.ite | dsimp only | split

/-! ## Machine/Pins.lean -/

theorem State.pinSet_kept {s0 : State} {s : State} {m : Nat} {n : Nat} {w : Sys2Proof.Word} (h_s : Kept s0 s) : Kept s0 (State.pinSet s m n w) := by
  unfold State.pinSet
  with_reducible repeat' first | assumption | intro _ | apply State.wr_kept | apply Kept.ite | dsimp only | split

theorem execPinFuncWrite_kept {s0 : State} {m : Nat} {n : Nat} {v : Nat} {s : State} (h_s : Kept s0 s) : KeptR s0 (execPinFuncWrite m n v s) := by
  unfold execPinFuncWrite
  with_reducible repeat' first | assumption | intro _ | apply State.write_kept | apply State.pinSet_kept | apply State.start_kept | apply KeptR.next | dsimp only | split

theorem execParkIntervalEnd_kept {s0 : State} {n : Nat} {s : State} (h_s : Kept s0 s) : KeptR s0 (execParkIntervalEnd n s) := by
  unfold execParkIntervalEnd
  with_reducible repeat' first | assumption | intro _ | apply answer_kept | apply State.setPin_kept | apply State.setF_kept | apply State.start_kept | apply KeptR.next | dsimp only | split

theorem execPwmStart_kept {s0 : State} {n : Nat} {start : Nat} {period : Nat} {high : Nat} {s : State} (h_s : Kept s0 s) : KeptR s0 (execPwmStart n start period high s) := by
  unfold execPwmStart
  with_reducible repeat' first | assumption | intro _ | apply answer_kept | apply State.setPin_kept | apply State.start_kept | apply KeptR.next | dsimp only | split

theorem execCaptureEdge_kept {s0 : State} {n : Nat} {sel : Nat} {rising : Bool} {s : State} (h_s : Kept s0 s) : KeptR s0 (execCaptureEdge n sel rising s) := by
  unfold execCaptureEdge
  with_reducible repeat' first | assumption | intro _ | apply State.setPin_kept | apply State.start_kept | apply answer_kept | apply State.pulse_kept | apply KeptR.next | apply KeptR.ite | apply Kept.ite | dsimp only | split

theorem State.pinLevel_kept {s0 : State} {s : State} {n : Nat} (h_s : Kept s0 s) : Kept s0 (State.pinLevel s n).1 := by
  unfold State.pinLevel
  with_reducible repeat' first | assumption | intro _ | apply State.tookFree_kept | apply Kept.ite1 | apply Kept.ite | dsimp only | split

/-! ## Machine/Engines.lean -/

theorem EngRes.saw_kept {s0 : State} {r : EngRes} {prov : Bool} (h : KeptE s0 r) : KeptE s0 (EngRes.saw r prov) := by
  cases r with
  | wait b => exact .wait
  | done t o => exact .done (h t o rfl)

theorem State.engIn_kept {s0 : State} {s : State} {o : Op} {bs : List Nat} {bad : Nat → EngOut} {k : State → Bool → EngRes}
    (hk : ∀ t b, Kept s0 t → KeptE s0 (k t b)) (h : Kept s0 s) : KeptE s0 (State.engIn s o bs bad k) := by
  unfold State.engIn
  split
  · exact EngRes.saw_kept (hk _ _ (State.noteRaw_kept h))
  · exact .wait
  · exact .done (Kept.ite (State.rawCheck_kept h) h)

theorem State.engFault_kept {s0 : State} {s : State} {e : Nat} {o : Op} {st : Nat} {counter : Fld} (h_s : Kept s0 s) : Kept s0 (State.engFault s e o st counter) := by
  unfold State.engFault
  with_reducible repeat' first | assumption | intro _ | apply State.report_kept | apply State.bump_kept | dsimp only | split

theorem State.setUnit_kept {s0 : State} {s : State} {e : Nat} {load : Bool} {o : Option Op} {out : Option EngOut} (h_s : Kept s0 s) : Kept s0 (State.setUnit s e load o out) := by
  unfold State.setUnit
  with_reducible repeat' first | assumption | intro _ | apply State.setEng_kept | apply Kept.ite | dsimp only | split

theorem State.engRun_kept {s0 : State} {s : State} {e : Nat} {load : Bool} {p : Nat → Bool} {f : State → Op → Obj → EngRes}
    (hf : ∀ t o x, Kept s0 t → KeptE s0 (f t o x)) (h : Kept s0 s) : KeptR s0 (State.engRun s e load p f) := by
  unfold State.engRun
  split
  · exact answer_kept h h
  · split
    · exact .next (State.say_kept (State.setUnit_kept (State.start_kept h)))
    · rename_i heq
      exact .next (State.setUnit_kept (hf _ _ _ (State.start_kept h) _ _ heq))

theorem State.engBroken_kept {s0 : State} {s : State} {e : Nat} {o : Op} {st : Nat} {counter : Fld} {out : EngOut} (h_s : Kept s0 s) : KeptE s0 (State.engBroken s e o st counter out) := by
  unfold State.engBroken
  with_reducible repeat' first | assumption | intro _ | apply State.engFault_kept | apply KeptE.wait | apply KeptE.done | apply KeptE.ite | dsimp only | split

theorem State.engTables_kept {s0 : State} {s : State} {e : Nat} {out : EngOut} (h_s : Kept s0 s) : Kept s0 (State.engTables s e out) := by
  unfold State.engTables
  with_reducible repeat' first | assumption | intro _ | apply State.setDune_kept | apply State.setSlv_kept | dsimp only | split | apply Kept.mk

theorem State.engCounts_kept {s0 : State} {s : State} {out : EngOut} (h_s : Kept s0 s) : Kept s0 (State.engCounts s out) := by
  unfold State.engCounts
  with_reducible repeat' first | assumption | intro _ | apply State.bump_kept | apply Kept.fold | apply Kept.fold1 | dsimp only | split

theorem State.engWrites_kept {s0 : State} {s : State} {e : Nat} {o : Op} {out : EngOut} (h_s : Kept s0 s) : Kept s0 (State.engWrites s e o out).1 := by
  unfold State.engWrites
  with_reducible repeat' first | assumption | intro _ | apply State.store_kept | apply Kept.fold | apply Kept.fold1 | dsimp only | split

theorem State.engLeave_kept {s0 : State} {s : State} {e : Nat} {load : Bool} {o : Op} (h_s : Kept s0 s) : Kept s0 (State.engLeave s e load o) := by
  unfold State.engLeave
  with_reducible repeat' first | assumption | intro _ | apply State.retire_kept | apply State.setUnit_kept | dsimp only | split

theorem State.engLand_kept {s0 : State} {s : State} {e : Nat} {load : Bool} {o : Op} {out : EngOut} (h_s : Kept s0 s) : Kept s0 (State.engLand s e load o out) := by
  unfold State.engLand
  with_reducible repeat' first | assumption | intro _ | apply State.engWrites_kept | apply State.engLeave_kept | apply State.engCounts_kept | apply State.engTables_kept | apply State.poisonWith_kept | apply State.setUnit_kept | apply Kept.ite | dsimp only | split

theorem State.engForget_kept {s0 : State} {s : State} {h : Nat} (h_s : Kept s0 s) : Kept s0 (State.engForget s h) := by
  unfold State.engForget
  with_reducible repeat' first | assumption | intro _ | apply State.setDune_kept | apply State.setSlv_kept | apply Kept.fold | apply Kept.fold1 | dsimp only | split | apply Kept.mk

theorem execUnloadComplete_kept {s0 : State} {s : State} (h_s : Kept s0 s) : KeptR s0 (execUnloadComplete s) := by
  unfold execUnloadComplete
  with_reducible repeat' first | assumption | intro _ | apply answer_kept | apply State.loadDone_kept | apply State.engForget_kept | apply State.releaseAll_kept | apply State.start_kept | apply KeptR.next | dsimp only | split

/-! ## Machine/Loam.lean -/

theorem State.frameLoad_kept {s0 : State} {s : State} {o : Op} {x : Obj} (h_s : Kept s0 s) : KeptE s0 (State.frameLoad s o x) := by
  unfold State.frameLoad
  repeat' first | with_reducible assumption | with_reducible intro _ | with_reducible apply State.engIn_kept | (refine State.engIn_kept ?_ _ _ (by with_reducible assumption)) | with_reducible apply KeptE.wait | with_reducible apply KeptE.done | with_reducible apply KeptE.ite | with_reducible apply KeptE.ite | with_reducible apply Kept.ite | with_reducible apply Kept.fold | with_reducible apply Kept.fold1 | dsimp only | split

theorem State.lomTransform_kept {s0 : State} {s : State} {o : Op} {x : Obj} (h_s : Kept s0 s) : KeptE s0 (State.lomTransform s o x) := by
  unfold State.lomTransform
  repeat' first | with_reducible assumption | with_reducible intro _ | with_reducible apply State.engIn_kept | (refine State.engIn_kept ?_ _ _ (by with_reducible assumption)) | with_reducible apply KeptE.wait | with_reducible apply KeptE.done | with_reducible apply KeptE.ite | with_reducible apply KeptO.getD | with_reducible apply KeptE.ite | with_reducible apply Kept.ite | dsimp only | split

theorem State.lomAssociate_kept {s0 : State} {s : State} {o : Op} {x : Obj} (h_s : Kept s0 s) : KeptE s0 (State.lomAssociate s o x) := by
  unfold State.lomAssociate
  repeat' first | with_reducible assumption | with_reducible intro _ | with_reducible apply State.engIn_kept | (refine State.engIn_kept ?_ _ _ (by with_reducible assumption)) | with_reducible apply KeptE.wait | with_reducible apply KeptE.done | with_reducible apply KeptE.ite | with_reducible apply KeptE.ite | with_reducible apply Kept.ite | dsimp only | split

theorem State.applyTracks_kept {s0 : State} {s : State} {o : Op} {x : Obj} {rows : Nat} {cols : Nat} {prov : Bool} (h_s : Kept s0 s) : KeptE s0 (State.applyTracks s o x rows cols prov) := by
  unfold State.applyTracks
  with_reducible repeat' first | assumption | intro _ | apply KeptE.wait | apply KeptE.done | apply KeptE.ite | apply KeptE.ite | apply Kept.ite | apply Kept.fold | apply Kept.fold1 | dsimp only | split

theorem State.trackApply_kept {s0 : State} {s : State} {o : Op} {x : Obj} (h_s : Kept s0 s) : KeptE s0 (State.trackApply s o x) := by
  unfold State.trackApply
  repeat' first | with_reducible assumption | with_reducible intro _ | with_reducible apply State.engIn_kept | (refine State.engIn_kept ?_ _ _ (by with_reducible assumption)) | with_reducible apply State.applyTracks_kept | (refine State.applyTracks_kept ?_ _ _ (by with_reducible assumption)) | with_reducible apply KeptE.wait | with_reducible apply KeptE.done | with_reducible apply KeptE.ite | with_reducible apply KeptE.ite | with_reducible apply Kept.ite | dsimp only | split

theorem State.trackRead_kept {s0 : State} {s : State} {o : Op} {x : Obj} (h_s : Kept s0 s) : KeptE s0 (State.trackRead s o x) := by
  unfold State.trackRead
  with_reducible repeat' first | assumption | intro _ | apply KeptE.wait | apply KeptE.done | apply KeptE.ite | apply KeptE.ite | apply Kept.ite | dsimp only | split

theorem State.lomBroken_kept {s0 : State} {s : State} {fault : Nat} {o : Op} {out : Option EngOut} (h_s : Kept s0 s) : KeptE s0 (State.lomBroken s fault o out) := by
  unfold State.lomBroken
  repeat' first | with_reducible assumption | with_reducible intro _ | with_reducible apply State.engBroken_kept | (refine State.engBroken_kept ?_ _ _ (by with_reducible assumption)) | with_reducible apply KeptE.wait | with_reducible apply KeptE.done | with_reducible apply KeptE.ite | with_reducible apply KeptO.map | with_reducible apply KeptO1.map | with_reducible apply KeptO1.map1 | with_reducible apply KeptO.getD | with_reducible apply KeptE.ite | with_reducible apply Kept.ite | dsimp only | split | with_reducible apply Kept.mk

theorem State.lomWork_kept {s0 : State} {s : State} {o : Op} {x : Obj} (h_s : Kept s0 s) : KeptE s0 (State.lomWork s o x) := by
  unfold State.lomWork
  repeat' first | with_reducible assumption | with_reducible intro _ | with_reducible apply State.frameLoad_kept | (refine State.frameLoad_kept ?_ _ _ (by with_reducible assumption)) | with_reducible apply State.lomTransform_kept | (refine State.lomTransform_kept ?_ _ _ (by with_reducible assumption)) | with_reducible apply State.lomAssociate_kept | (refine State.lomAssociate_kept ?_ _ _ (by with_reducible assumption)) | with_reducible apply State.trackApply_kept | (refine State.trackApply_kept ?_ _ _ (by with_reducible assumption)) | with_reducible apply State.trackRead_kept | (refine State.trackRead_kept ?_ _ _ (by with_reducible assumption)) | with_reducible apply KeptE.wait | with_reducible apply KeptE.done | with_reducible apply KeptE.ite | with_reducible apply KeptE.ite | with_reducible apply Kept.ite | dsimp only | split

theorem lomRow_kept {s0 : State} {s : State} {fault : Nat} {p : Nat → Bool} {f : State → Op → Obj → EngRes}
    (hf : ∀ t o x, Kept s0 t → KeptE s0 (f t o x)) (h : Kept s0 s) : KeptR s0 (lomRow fault p f s) :=
  State.engRun_kept (fun t o x k => .ite (.ite (hf t o x k) (.done k)) (State.lomBroken_kept k)) h

theorem execLomNop_kept {s0 : State} {fault : Nat} {s : State} (h_s : Kept s0 s) : KeptR s0 (execLomNop fault s) := by
  unfold execLomNop
  repeat' first | with_reducible assumption | with_reducible intro _ | with_reducible apply State.engRun_kept | with_reducible apply State.lomBroken_kept | (refine State.lomBroken_kept ?_ _ _ (by with_reducible assumption)) | with_reducible apply KeptR.next | with_reducible apply KeptE.wait | with_reducible apply KeptE.done | with_reducible apply KeptE.ite | with_reducible apply KeptR.ite | with_reducible apply Kept.ite | dsimp only | split

theorem execFrameLoad_kept {s0 : State} {fault : Nat} {s : State} (h_s : Kept s0 s) : KeptR s0 (execFrameLoad fault s) := by
  unfold execFrameLoad
  repeat' first | with_reducible assumption | with_reducible intro _ | with_reducible apply lomRow_kept | with_reducible apply State.frameLoad_kept | (refine State.frameLoad_kept ?_ _ _ (by with_reducible assumption)) | with_reducible apply KeptR.next | dsimp only | split

theorem execLomTransform_kept {s0 : State} {fault : Nat} {s : State} (h_s : Kept s0 s) : KeptR s0 (execLomTransform fault s) := by
  unfold execLomTransform
  repeat' first | with_reducible assumption | with_reducible intro _ | with_reducible apply lomRow_kept | with_reducible apply State.lomTransform_kept | (refine State.lomTransform_kept ?_ _ _ (by with_reducible assumption)) | with_reducible apply KeptR.next | dsimp only | split

theorem execLomAssociate_kept {s0 : State} {fault : Nat} {s : State} (h_s : Kept s0 s) : KeptR s0 (execLomAssociate fault s) := by
  unfold execLomAssociate
  repeat' first | with_reducible assumption | with_reducible intro _ | with_reducible apply lomRow_kept | with_reducible apply State.lomAssociate_kept | (refine State.lomAssociate_kept ?_ _ _ (by with_reducible assumption)) | with_reducible apply KeptR.next | dsimp only | split

theorem execTrackApply_kept {s0 : State} {fault : Nat} {s : State} (h_s : Kept s0 s) : KeptR s0 (execTrackApply fault s) := by
  unfold execTrackApply
  repeat' first | with_reducible assumption | with_reducible intro _ | with_reducible apply lomRow_kept | with_reducible apply State.trackApply_kept | (refine State.trackApply_kept ?_ _ _ (by with_reducible assumption)) | with_reducible apply KeptR.next | dsimp only | split

theorem execTrackRead_kept {s0 : State} {fault : Nat} {s : State} (h_s : Kept s0 s) : KeptR s0 (execTrackRead fault s) := by
  unfold execTrackRead
  repeat' first | with_reducible assumption | with_reducible intro _ | with_reducible apply lomRow_kept | with_reducible apply State.trackRead_kept | (refine State.trackRead_kept ?_ _ _ (by with_reducible assumption)) | with_reducible apply KeptR.next | dsimp only | split

/-! ## Machine/Marl.lean -/

theorem State.qpBind_kept {s0 : State} {s : State} {e : Nat} {o : Op} {x : Obj} (h_s : Kept s0 s) : KeptE s0 (State.qpBind s e o x) := by
  unfold State.qpBind
  repeat' first | with_reducible assumption | with_reducible intro _ | with_reducible apply State.engIn_kept | (refine State.engIn_kept ?_ _ _ (by with_reducible assumption)) | with_reducible apply KeptE.wait | with_reducible apply KeptE.done | with_reducible apply KeptE.ite | with_reducible apply KeptE.ite | with_reducible apply Kept.ite | dsimp only | split

theorem State.onSlot_kept {s0 : State} {s : State} {e : Nat} {o : Op} {x : Obj} {f : SlvSlot → EngRes} (hf : ∀ y, KeptE s0 (f y)) (h : Kept s0 s) :
    KeptE s0 (State.onSlot s e o x f) := by
  unfold State.onSlot
  split
  · exact .done h
  · exact hf _

theorem State.qpUnbind_kept {s0 : State} {s : State} {e : Nat} {o : Op} {x : Obj} (h_s : Kept s0 s) : KeptE s0 (State.qpUnbind s e o x) := by
  unfold State.qpUnbind
  repeat' first | with_reducible assumption | with_reducible intro _ | with_reducible apply State.onSlot_kept | (refine State.onSlot_kept ?_ _ _ (by with_reducible assumption)) | with_reducible apply KeptE.wait | with_reducible apply KeptE.done | with_reducible apply KeptE.ite | with_reducible apply KeptE.ite | with_reducible apply Kept.ite | dsimp only | split

theorem State.qpFactor_kept {s0 : State} {s : State} {e : Nat} {o : Op} {x : Obj} {cut : Option Nat} (h_s : Kept s0 s) : KeptE s0 (State.qpFactor s e o x cut) := by
  unfold State.qpFactor
  repeat' first | with_reducible assumption | with_reducible intro _ | with_reducible apply State.onSlot_kept | (refine State.onSlot_kept ?_ _ _ (by with_reducible assumption)) | with_reducible apply State.engIn_kept | (refine State.engIn_kept ?_ _ _ (by with_reducible assumption)) | with_reducible apply KeptE.wait | with_reducible apply KeptE.done | with_reducible apply KeptE.ite | with_reducible apply KeptE.ite | with_reducible apply Kept.ite | dsimp only | split

theorem State.residuals_kept {s0 : State} {s : State} {c : Core} (h_s : Kept s0 s) : Kept s0 (State.residuals s c).1 := by
  unfold State.residuals
  with_reducible repeat' first | assumption | intro _ | apply State.tookFree_kept | dsimp only | split

theorem State.qpSolve_kept {s0 : State} {s : State} {e : Nat} {o : Op} {x : Obj} {cut : Option Nat} (h_s : Kept s0 s) : KeptE s0 (State.qpSolve s e o x cut) := by
  unfold State.qpSolve
  repeat' first | with_reducible assumption | with_reducible intro _ | with_reducible apply State.onSlot_kept | (refine State.onSlot_kept ?_ _ _ (by with_reducible assumption)) | with_reducible apply State.engIn_kept | (refine State.engIn_kept ?_ _ _ (by with_reducible assumption)) | with_reducible apply State.residuals_kept | with_reducible apply KeptE.wait | with_reducible apply KeptE.done | with_reducible apply KeptE.ite | with_reducible apply KeptE.ite | with_reducible apply Kept.ite | dsimp only | split

theorem State.stepEnd_kept {s0 : State} {s : State} {e : Nat} {o : Op} {r : List Sys2Proof.Byte} {c : Core} (h_s : Kept s0 s) : KeptE s0 (State.stepEnd s e o r c) := by
  unfold State.stepEnd
  with_reducible repeat' first | assumption | intro _ | apply State.residuals_kept | apply KeptE.wait | apply KeptE.done | apply KeptE.ite | apply KeptE.ite | apply Kept.ite | dsimp only | split

theorem State.stepSolve_kept {s0 : State} {s : State} {e : Nat} {o : Op} {r : List Sys2Proof.Byte} {f : Core} {cut : Option Nat} (h_s : Kept s0 s) : KeptE s0 (State.stepSolve s e o r f cut) := by
  unfold State.stepSolve
  repeat' first | with_reducible assumption | with_reducible intro _ | with_reducible apply State.engIn_kept | (refine State.engIn_kept ?_ _ _ (by with_reducible assumption)) | with_reducible apply State.stepEnd_kept | (refine State.stepEnd_kept ?_ _ _ (by with_reducible assumption)) | with_reducible apply KeptE.wait | with_reducible apply KeptE.done | with_reducible apply KeptE.ite | dsimp only | split

theorem State.stepWork_kept {s0 : State} {s : State} {e : Nat} {o : Op} {y : SlvSlot} {r : List Sys2Proof.Byte} {prov : Bool} {cut : Option (Bool × Nat)} (h_s : Kept s0 s) : KeptE s0 (State.stepWork s e o y r prov cut) := by
  unfold State.stepWork
  repeat' first | with_reducible assumption | with_reducible intro _ | with_reducible apply State.stepEnd_kept | (refine State.stepEnd_kept ?_ _ _ (by with_reducible assumption)) | with_reducible apply State.engIn_kept | (refine State.engIn_kept ?_ _ _ (by with_reducible assumption)) | with_reducible apply State.stepSolve_kept | (refine State.stepSolve_kept ?_ _ _ (by with_reducible assumption)) | with_reducible apply KeptE.wait | with_reducible apply KeptE.done | with_reducible apply KeptE.ite | with_reducible apply KeptE.ite | with_reducible apply Kept.ite | dsimp only | split

theorem State.mpcStep_kept {s0 : State} {s : State} {e : Nat} {o : Op} {x : Obj} {cut : Option (Bool × Nat)} (h_s : Kept s0 s) : KeptE s0 (State.mpcStep s e o x cut) := by
  unfold State.mpcStep
  repeat' first | with_reducible assumption | with_reducible intro _ | with_reducible apply State.onSlot_kept | (refine State.onSlot_kept ?_ _ _ (by with_reducible assumption)) | with_reducible apply State.engIn_kept | (refine State.engIn_kept ?_ _ _ (by with_reducible assumption)) | with_reducible apply State.stepWork_kept | (refine State.stepWork_kept ?_ _ _ (by with_reducible assumption)) | with_reducible apply KeptE.wait | with_reducible apply KeptE.done | with_reducible apply KeptE.ite | with_reducible apply KeptE.ite | with_reducible apply Kept.ite | dsimp only | split

theorem State.batchFactor_kept {s0 : State} {s : State} {e : Nat} {o : Op} {x : Obj} (h_s : Kept s0 s) : KeptE s0 (State.batchFactor s e o x) := by
  unfold State.batchFactor
  repeat' first | with_reducible assumption | with_reducible intro _ | with_reducible apply State.engIn_kept | (refine State.engIn_kept ?_ _ _ (by with_reducible assumption)) | with_reducible apply State.putAll_kept | with_reducible apply KeptE.wait | with_reducible apply KeptE.done | with_reducible apply KeptE.ite | with_reducible apply KeptE.ite | with_reducible apply Kept.ite | with_reducible apply Kept.fold | with_reducible apply Kept.fold1 | dsimp only | split

theorem State.solveOne_kept {s0 : State} {s : State} {mode : Nat} {n : Nat} {nrhs : Nat} {f : List (List Num)} {piv : List Nat} {b : List (List Num)} (h_s : Kept s0 s) : Kept s0 (State.solveOne s mode n nrhs f piv b).1 := by
  unfold State.solveOne
  with_reducible repeat' first | assumption | intro _ | apply State.tookFree_kept | apply Kept.ite1 | apply Kept.ite | dsimp only | split

theorem State.batchSolve_kept {s0 : State} {s : State} {o : Op} {x : Obj} (h_s : Kept s0 s) : KeptE s0 (State.batchSolve s o x) := by
  unfold State.batchSolve
  repeat' first | with_reducible assumption | with_reducible intro _ | with_reducible apply State.engIn_kept | (refine State.engIn_kept ?_ _ _ (by with_reducible assumption)) | with_reducible apply State.solveOne_kept | with_reducible apply State.putAll_kept | with_reducible apply KeptE.wait | with_reducible apply KeptE.done | with_reducible apply KeptE.ite | with_reducible apply KeptE.ite | with_reducible apply Kept.ite | with_reducible apply Kept.fold | with_reducible apply Kept.fold1 | dsimp only | split | with_reducible apply Kept.mk

theorem State.slvBroken_kept {s0 : State} {s : State} {e : Nat} {fault : Nat} {o : Op} {x : Obj} {out : Option EngOut} (h_s : Kept s0 s) : KeptE s0 (State.slvBroken s e fault o x out) := by
  unfold State.slvBroken
  repeat' first | with_reducible assumption | with_reducible intro _ | with_reducible apply State.engBroken_kept | (refine State.engBroken_kept ?_ _ _ (by with_reducible assumption)) | with_reducible apply KeptE.wait | with_reducible apply KeptE.done | with_reducible apply KeptE.ite | with_reducible apply KeptO.map | with_reducible apply KeptO1.map | with_reducible apply KeptO1.map1 | with_reducible apply KeptO.getD | with_reducible apply KeptE.ite | with_reducible apply Kept.ite | dsimp only | split

theorem State.slvWork_kept {s0 : State} {s : State} {e : Nat} {o : Op} {x : Obj} (h_s : Kept s0 s) : KeptE s0 (State.slvWork s e o x) := by
  unfold State.slvWork
  repeat' first | with_reducible assumption | with_reducible intro _ | with_reducible apply State.qpBind_kept | (refine State.qpBind_kept ?_ _ _ (by with_reducible assumption)) | with_reducible apply State.qpUnbind_kept | (refine State.qpUnbind_kept ?_ _ _ (by with_reducible assumption)) | with_reducible apply State.qpFactor_kept | (refine State.qpFactor_kept ?_ _ _ (by with_reducible assumption)) | with_reducible apply State.qpSolve_kept | (refine State.qpSolve_kept ?_ _ _ (by with_reducible assumption)) | with_reducible apply State.mpcStep_kept | (refine State.mpcStep_kept ?_ _ _ (by with_reducible assumption)) | with_reducible apply State.batchFactor_kept | (refine State.batchFactor_kept ?_ _ _ (by with_reducible assumption)) | with_reducible apply State.batchSolve_kept | (refine State.batchSolve_kept ?_ _ _ (by with_reducible assumption)) | with_reducible apply KeptE.wait | with_reducible apply KeptE.done | with_reducible apply KeptE.ite | with_reducible apply KeptE.ite | with_reducible apply Kept.ite | dsimp only | split

theorem slvRow_kept {s0 : State} {s : State} {e fault : Nat} {p : Nat → Bool} {f : State → Op → Obj → EngRes}
    (hf : ∀ t o x, Kept s0 t → KeptE s0 (f t o x)) (h : Kept s0 s) : KeptR s0 (slvRow e fault p f s) :=
  State.engRun_kept (fun t o x k => .ite (.ite (hf t o x k) (.done k)) (State.slvBroken_kept k)) h

theorem execSlvNop_kept {s0 : State} {e : Nat} {fault : Nat} {s : State} (h_s : Kept s0 s) : KeptR s0 (execSlvNop e fault s) := by
  unfold execSlvNop
  repeat' first | with_reducible assumption | with_reducible intro _ | with_reducible apply State.engRun_kept | with_reducible apply State.slvBroken_kept | (refine State.slvBroken_kept ?_ _ _ (by with_reducible assumption)) | with_reducible apply KeptR.next | with_reducible apply KeptE.wait | with_reducible apply KeptE.done | with_reducible apply KeptE.ite | with_reducible apply KeptR.ite | with_reducible apply Kept.ite | dsimp only | split

theorem execQpBind_kept {s0 : State} {e : Nat} {fault : Nat} {s : State} (h_s : Kept s0 s) : KeptR s0 (execQpBind e fault s) := by
  unfold execQpBind
  repeat' first | with_reducible assumption | with_reducible intro _ | with_reducible apply slvRow_kept | with_reducible apply State.qpBind_kept | (refine State.qpBind_kept ?_ _ _ (by with_reducible assumption)) | with_reducible apply KeptR.next | dsimp only | split

theorem execQpUnbind_kept {s0 : State} {e : Nat} {fault : Nat} {s : State} (h_s : Kept s0 s) : KeptR s0 (execQpUnbind e fault s) := by
  unfold execQpUnbind
  repeat' first | with_reducible assumption | with_reducible intro _ | with_reducible apply slvRow_kept | with_reducible apply State.qpUnbind_kept | (refine State.qpUnbind_kept ?_ _ _ (by with_reducible assumption)) | with_reducible apply KeptR.next | dsimp only | split

theorem execQpFactor_kept {s0 : State} {e : Nat} {fault : Nat} {s : State} (h_s : Kept s0 s) : KeptR s0 (execQpFactor e fault s) := by
  unfold execQpFactor
  repeat' first | with_reducible assumption | with_reducible intro _ | with_reducible apply slvRow_kept | with_reducible apply State.qpFactor_kept | (refine State.qpFactor_kept ?_ _ _ (by with_reducible assumption)) | with_reducible apply KeptR.next | dsimp only | split

theorem execQpSolve_kept {s0 : State} {e : Nat} {fault : Nat} {s : State} (h_s : Kept s0 s) : KeptR s0 (execQpSolve e fault s) := by
  unfold execQpSolve
  repeat' first | with_reducible assumption | with_reducible intro _ | with_reducible apply slvRow_kept | with_reducible apply State.qpSolve_kept | (refine State.qpSolve_kept ?_ _ _ (by with_reducible assumption)) | with_reducible apply KeptR.next | dsimp only | split

theorem execMpcStep_kept {s0 : State} {e : Nat} {fault : Nat} {s : State} (h_s : Kept s0 s) : KeptR s0 (execMpcStep e fault s) := by
  unfold execMpcStep
  repeat' first | with_reducible assumption | with_reducible intro _ | with_reducible apply slvRow_kept | with_reducible apply State.mpcStep_kept | (refine State.mpcStep_kept ?_ _ _ (by with_reducible assumption)) | with_reducible apply KeptR.next | dsimp only | split

theorem execBatchFactor_kept {s0 : State} {e : Nat} {fault : Nat} {s : State} (h_s : Kept s0 s) : KeptR s0 (execBatchFactor e fault s) := by
  unfold execBatchFactor
  repeat' first | with_reducible assumption | with_reducible intro _ | with_reducible apply slvRow_kept | with_reducible apply State.batchFactor_kept | (refine State.batchFactor_kept ?_ _ _ (by with_reducible assumption)) | with_reducible apply KeptR.next | dsimp only | split

theorem execBatchSolve_kept {s0 : State} {e : Nat} {fault : Nat} {s : State} (h_s : Kept s0 s) : KeptR s0 (execBatchSolve e fault s) := by
  unfold execBatchSolve
  repeat' first | with_reducible assumption | with_reducible intro _ | with_reducible apply slvRow_kept | with_reducible apply State.batchSolve_kept | (refine State.batchSolve_kept ?_ _ _ (by with_reducible assumption)) | with_reducible apply KeptR.next | dsimp only | split

theorem State.slvCut_kept {s0 : State} {s : State} {e : Nat} {o : Op} {x : Obj} {fac : Bool} {k : Nat} (h_s : Kept s0 s) : KeptE s0 (State.slvCut s e o x fac k) := by
  unfold State.slvCut
  repeat' first | with_reducible assumption | with_reducible intro _ | with_reducible apply State.qpFactor_kept | (refine State.qpFactor_kept ?_ _ _ (by with_reducible assumption)) | with_reducible apply State.qpSolve_kept | (refine State.qpSolve_kept ?_ _ _ (by with_reducible assumption)) | with_reducible apply State.mpcStep_kept | (refine State.mpcStep_kept ?_ _ _ (by with_reducible assumption)) | with_reducible apply KeptE.wait | with_reducible apply KeptE.done | with_reducible apply KeptE.ite | with_reducible apply KeptE.ite | with_reducible apply Kept.ite | dsimp only | split

theorem execSolverDeadlineMissed_kept {s0 : State} {e : Nat} {fac : Bool} {k : Nat} {s : State} (h_s : Kept s0 s) : KeptR s0 (execSolverDeadlineMissed e fac k s) := by
  unfold execSolverDeadlineMissed
  split
  · split
    · split
      · split
        · exact answer_kept h_s h_s
        · rename_i t r heq
          exact .next (State.setUnit_kept (State.slvCut_kept (State.start_kept h_s) t r heq))
      · exact answer_kept h_s h_s
    · exact answer_kept h_s h_s
  · exact answer_kept h_s h_s

/-! ## Machine/Dune.lean -/

theorem State.duneBind_kept {s0 : State} {s : State} {e : Nat} {o : Op} {x : Obj} (h_s : Kept s0 s) : KeptE s0 (State.duneBind s e o x) := by
  unfold State.duneBind
  repeat' first | with_reducible assumption | with_reducible intro _ | with_reducible apply State.engIn_kept | (refine State.engIn_kept ?_ _ _ (by with_reducible assumption)) | with_reducible apply KeptE.wait | with_reducible apply KeptE.done | with_reducible apply KeptE.ite | with_reducible apply KeptE.ite | with_reducible apply Kept.ite | dsimp only | split

theorem State.duneUnbind_kept {s0 : State} {s : State} {e : Nat} {o : Op} {x : Obj} (h_s : Kept s0 s) : KeptE s0 (State.duneUnbind s e o x) := by
  unfold State.duneUnbind
  with_reducible repeat' first | assumption | intro _ | apply KeptE.wait | apply KeptE.done | apply KeptE.ite | apply KeptE.ite | apply Kept.ite | dsimp only | split

theorem State.duneLoad_kept {s0 : State} {s : State} {b : Nat} {o : Op} {x : Obj} (h_s : Kept s0 s) : KeptE s0 (State.duneLoad s b o x) := by
  unfold State.duneLoad
  repeat' first | with_reducible assumption | with_reducible intro _ | with_reducible apply State.engIn_kept | (refine State.engIn_kept ?_ _ _ (by with_reducible assumption)) | with_reducible apply KeptE.wait | with_reducible apply KeptE.done | with_reducible apply KeptE.ite | with_reducible apply KeptE.ite | with_reducible apply Kept.ite | dsimp only | split

theorem State.duneFail_kept {s0 : State} {s : State} {e : Nat} {o : Op} {sl : DuneSlot} {first : Nat} {n : Nat} {st : Nat} {bad : Nat} (h_s : Kept s0 s) : Kept s0 (State.duneFail s e o sl first n st bad).1 := by
  unfold State.duneFail
  with_reducible repeat' first | assumption | intro _ | apply State.tookFree_kept | dsimp only | split

theorem State.duneCheck_kept {s0 : State} {s : State} {e : Nat} {o : Op} {x : Obj} {sl : DuneSlot} {k : OccBank} {first : Nat} {n : Nat} (h_s : Kept s0 s) : KeptE s0 (State.duneCheck s e o x sl k first n) := by
  unfold State.duneCheck
  with_reducible repeat' first | assumption | intro _ | apply State.duneFail_kept | apply State.rawCheck_kept | apply State.noteRaw_kept | apply KeptE.wait | apply KeptE.done | apply KeptE.ite | apply KeptE.ite | apply Kept.ite | dsimp only | split

theorem State.duneValidate_kept {s0 : State} {s : State} {e : Nat} {o : Op} {x : Obj} (h_s : Kept s0 s) : KeptE s0 (State.duneValidate s e o x) := by
  unfold State.duneValidate
  repeat' first | with_reducible assumption | with_reducible intro _ | with_reducible apply State.duneCheck_kept | (refine State.duneCheck_kept ?_ _ _ (by with_reducible assumption)) | with_reducible apply KeptE.wait | with_reducible apply KeptE.done | with_reducible apply KeptE.ite | with_reducible apply KeptE.ite | with_reducible apply Kept.ite | dsimp only | split

theorem State.duneSeek_kept {s0 : State} {s : State} {e : Nat} {o : Op} {x : Obj} {sl : DuneSlot} {ld : Nat × Nat × Nat × Nat} {goals : List Nat} {p0 : Bool} (h_s : Kept s0 s) : KeptE s0 (State.duneSeek s e o x sl ld goals p0) := by
  unfold State.duneSeek
  with_reducible repeat' first | assumption | intro _ | apply State.rawCheck_kept | apply State.noteRaw_kept | apply KeptE.wait | apply KeptE.done | apply KeptE.ite | apply KeptE.ite | apply Kept.ite | dsimp only | split

theorem State.duneSearch_kept {s0 : State} {s : State} {e : Nat} {o : Op} {x : Obj} (h_s : Kept s0 s) : KeptE s0 (State.duneSearch s e o x) := by
  unfold State.duneSearch
  repeat' first | with_reducible assumption | with_reducible intro _ | with_reducible apply State.engIn_kept | (refine State.engIn_kept ?_ _ _ (by with_reducible assumption)) | with_reducible apply State.duneSeek_kept | (refine State.duneSeek_kept ?_ _ _ (by with_reducible assumption)) | with_reducible apply KeptE.wait | with_reducible apply KeptE.done | with_reducible apply KeptE.ite | with_reducible apply KeptE.ite | with_reducible apply Kept.ite | dsimp only | split

theorem State.duneOp_kept {s0 : State} {s : State} {o : Op} {x : Obj} {f : State → EngRes} (hf : KeptE s0 (f s)) (h : Kept s0 s) :
    KeptE s0 (State.duneOp s o x f) := by
  unfold State.duneOp
  split
  · exact hf
  · exact .done h

theorem State.duneHurt_kept {s0 : State} {s : State} {e : Nat} {o : Op} {x : Obj} {st : Nat} (h_s : Kept s0 s) : Kept s0 (State.duneHurt s e o x st).1 := by
  unfold State.duneHurt
  with_reducible repeat' first | assumption | intro _ | apply State.duneFail_kept | apply Kept.ite1 | apply Kept.ite | dsimp only | split

theorem State.duneBroken_kept {s0 : State} {s : State} {e : Nat} {fault : Nat} {o : Op} {x : Obj} {out : Option EngOut} (h_s : Kept s0 s) : KeptE s0 (State.duneBroken s e fault o x out) := by
  unfold State.duneBroken
  with_reducible repeat' first | assumption | intro _ | apply State.engFault_kept | apply State.setEng_kept | apply State.setDune_kept | apply State.duneHurt_kept | apply KeptE.wait | apply KeptE.done | apply KeptE.ite | apply KeptO.map | apply KeptO1.map | apply KeptO1.map1 | apply KeptO.getD | apply KeptE.ite | apply Kept.ite | dsimp only | split

theorem execDunNop_kept {s0 : State} {e : Nat} {fault : Nat} {s : State} (h_s : Kept s0 s) : KeptR s0 (execDunNop e fault s) := by
  unfold execDunNop
  repeat' first | with_reducible assumption | with_reducible intro _ | with_reducible apply State.engRun_kept | with_reducible apply State.engBroken_kept | (refine State.engBroken_kept ?_ _ _ (by with_reducible assumption)) | with_reducible apply State.duneOp_kept | (refine State.duneOp_kept ?_ _ _ (by with_reducible assumption)) | with_reducible apply KeptR.next | with_reducible apply KeptE.wait | with_reducible apply KeptE.done | with_reducible apply KeptE.ite | with_reducible apply KeptR.ite | with_reducible apply Kept.ite | dsimp only | split

theorem execDunBind_kept {s0 : State} {e : Nat} {fault : Nat} {s : State} (h_s : Kept s0 s) : KeptR s0 (execDunBind e fault s) := by
  unfold execDunBind
  repeat' first | with_reducible assumption | with_reducible intro _ | with_reducible apply State.engRun_kept | with_reducible apply State.engBroken_kept | (refine State.engBroken_kept ?_ _ _ (by with_reducible assumption)) | with_reducible apply State.duneOp_kept | (refine State.duneOp_kept ?_ _ _ (by with_reducible assumption)) | with_reducible apply State.duneBind_kept | (refine State.duneBind_kept ?_ _ _ (by with_reducible assumption)) | with_reducible apply KeptR.next | with_reducible apply KeptR.ite | with_reducible apply Kept.ite | dsimp only | split

theorem execDunUnbind_kept {s0 : State} {e : Nat} {fault : Nat} {s : State} (h_s : Kept s0 s) : KeptR s0 (execDunUnbind e fault s) := by
  unfold execDunUnbind
  repeat' first | with_reducible assumption | with_reducible intro _ | with_reducible apply State.engRun_kept | with_reducible apply State.engBroken_kept | (refine State.engBroken_kept ?_ _ _ (by with_reducible assumption)) | with_reducible apply State.duneOp_kept | (refine State.duneOp_kept ?_ _ _ (by with_reducible assumption)) | with_reducible apply State.duneUnbind_kept | (refine State.duneUnbind_kept ?_ _ _ (by with_reducible assumption)) | with_reducible apply KeptR.next | with_reducible apply KeptR.ite | with_reducible apply Kept.ite | dsimp only | split

theorem execOccLoad_kept {s0 : State} {e : Nat} {fault : Nat} {s : State} (h_s : Kept s0 s) : KeptR s0 (execOccLoad e fault s) := by
  unfold execOccLoad
  repeat' first | with_reducible assumption | with_reducible intro _ | with_reducible apply answer_kept | with_reducible apply State.say_kept | with_reducible apply State.start_kept | with_reducible apply State.engRun_kept | with_reducible apply State.engFault_kept | with_reducible apply State.setDune_kept | with_reducible apply State.duneOp_kept | (refine State.duneOp_kept ?_ _ _ (by with_reducible assumption)) | with_reducible apply State.duneLoad_kept | (refine State.duneLoad_kept ?_ _ _ (by with_reducible assumption)) | with_reducible apply KeptR.next | with_reducible apply KeptE.wait | with_reducible apply KeptE.done | with_reducible apply KeptE.ite | with_reducible apply KeptR.ite | with_reducible apply Kept.ite | dsimp only | split

theorem execDunValidate_kept {s0 : State} {e : Nat} {fault : Nat} {s : State} (h_s : Kept s0 s) : KeptR s0 (execDunValidate e fault s) := by
  unfold execDunValidate
  repeat' first | with_reducible assumption | with_reducible intro _ | with_reducible apply State.engRun_kept | with_reducible apply State.duneOp_kept | (refine State.duneOp_kept ?_ _ _ (by with_reducible assumption)) | with_reducible apply State.duneValidate_kept | (refine State.duneValidate_kept ?_ _ _ (by with_reducible assumption)) | with_reducible apply State.duneBroken_kept | (refine State.duneBroken_kept ?_ _ _ (by with_reducible assumption)) | with_reducible apply KeptR.next | with_reducible apply KeptR.ite | with_reducible apply Kept.ite | dsimp only | split

theorem execDunSearch_kept {s0 : State} {e : Nat} {fault : Nat} {s : State} (h_s : Kept s0 s) : KeptR s0 (execDunSearch e fault s) := by
  unfold execDunSearch
  repeat' first | with_reducible assumption | with_reducible intro _ | with_reducible apply State.engRun_kept | with_reducible apply State.duneOp_kept | (refine State.duneOp_kept ?_ _ _ (by with_reducible assumption)) | with_reducible apply State.duneSearch_kept | (refine State.duneSearch_kept ?_ _ _ (by with_reducible assumption)) | with_reducible apply State.duneBroken_kept | (refine State.duneBroken_kept ?_ _ _ (by with_reducible assumption)) | with_reducible apply KeptR.next | with_reducible apply KeptR.ite | with_reducible apply Kept.ite | dsimp only | split

/-! ## Machine/Flash.lean -/

theorem State.flashSet_kept {s0 : State} {s : State} {a : Nat} {bs : List Sys2Proof.Byte} (h_s : Kept s0 s) : Kept s0 (State.flashSet s a bs) := by
  unfold State.flashSet
  with_reducible repeat' first | assumption | intro _ | apply Kept.fold | apply Kept.fold1 | dsimp only | split | apply Kept.mk

theorem State.flashProgram_kept {s0 : State} {s : State} {a : Nat} {bs : List Sys2Proof.Byte} (h_s : Kept s0 s) : Kept s0 (State.flashProgram s a bs) := by
  unfold State.flashProgram
  with_reducible repeat' first | assumption | intro _ | apply State.flashSet_kept | dsimp only | split

theorem State.flashErase_kept {s0 : State} {s : State} {a : Nat} {n : Nat} (h_s : Kept s0 s) : Kept s0 (State.flashErase s a n) := by
  unfold State.flashErase
  with_reducible repeat' first | assumption | intro _ | dsimp only | split | apply Kept.mk

theorem State.flashBegin_kept {s0 : State} {s : State} {c : FlashCmd} (h_s : Kept s0 s) : Kept s0 (State.flashBegin s c) := by
  unfold State.flashBegin
  with_reducible repeat' first | assumption | intro _ | apply State.emit_kept | apply State.setF_kept | apply Kept.ite | dsimp only | split | apply Kept.mk

theorem State.xspGo_kept {s0 : State} {s : State} {w : Sys2Proof.Word} (h_s : Kept s0 s) : Kept s0 (State.xspGo s w) := by
  unfold State.xspGo
  with_reducible repeat' first | assumption | intro _ | apply State.setF_kept | apply State.flashBegin_kept | apply Kept.ite | dsimp only | split | apply Kept.mk

theorem execFlashRead_kept {s0 : State} {m : Nat} {opcode : Nat} {s : State} (h_s : Kept s0 s) : KeptR s0 (execFlashRead m opcode s) := by
  unfold execFlashRead
  with_reducible repeat' first | assumption | intro _ | apply State.write_kept | apply State.xspGo_kept | apply State.start_kept | apply KeptR.next | dsimp only | split

theorem execFlashProgram_kept {s0 : State} {m : Nat} {opcode : Nat} {s : State} (h_s : Kept s0 s) : KeptR s0 (execFlashProgram m opcode s) := by
  unfold execFlashProgram
  with_reducible repeat' first | assumption | intro _ | apply State.write_kept | apply State.xspGo_kept | apply State.start_kept | apply KeptR.next | dsimp only | split

theorem execFlashErase_kept {s0 : State} {m : Nat} {opcode : Nat} {s : State} (h_s : Kept s0 s) : KeptR s0 (execFlashErase m opcode s) := by
  unfold execFlashErase
  with_reducible repeat' first | assumption | intro _ | apply State.write_kept | apply State.xspGo_kept | apply State.start_kept | apply KeptR.next | dsimp only | split

theorem execFlashReadSfdp_kept {s0 : State} {m : Nat} {opcode : Nat} {s : State} (h_s : Kept s0 s) : KeptR s0 (execFlashReadSfdp m opcode s) := by
  unfold execFlashReadSfdp
  with_reducible repeat' first | assumption | intro _ | apply State.write_kept | apply State.xspGo_kept | apply State.start_kept | apply KeptR.next | dsimp only | split

theorem execFlashRegRead_kept {s0 : State} {m : Nat} {opcode : Nat} {s : State} (h_s : Kept s0 s) : KeptR s0 (execFlashRegRead m opcode s) := by
  unfold execFlashRegRead
  with_reducible repeat' first | assumption | intro _ | apply State.write_kept | apply State.xspGo_kept | apply State.start_kept | apply KeptR.next | dsimp only | split

theorem execFlashRegWrite_kept {s0 : State} {m : Nat} {opcode : Nat} {s : State} (h_s : Kept s0 s) : KeptR s0 (execFlashRegWrite m opcode s) := by
  unfold execFlashRegWrite
  with_reducible repeat' first | assumption | intro _ | apply State.write_kept | apply State.xspGo_kept | apply State.start_kept | apply KeptR.next | dsimp only | split

theorem State.flashDo_kept {s0 : State} {s : State} {c : FlashCmd} (h_s : Kept s0 s) : Kept s0 (State.flashDo s c) := by
  unfold State.flashDo
  with_reducible repeat' first | assumption | intro _ | apply State.putAll_kept | apply State.flashProgram_kept | apply State.flashErase_kept | apply Kept.fold | apply Kept.fold1 | dsimp only | split | apply Kept.mk

theorem State.flashSpoil_kept {s0 : State} {s : State} {c : FlashCmd} (h_s : Kept s0 s) : Kept s0 (State.flashSpoil s c) := by
  unfold State.flashSpoil
  with_reducible repeat' first | assumption | intro _ | apply State.flashSet_kept | apply State.tookFree_kept | apply Kept.ite | dsimp only | split

theorem execXspCmdDone_kept {s0 : State} {err : Bool} {s : State} (h_s : Kept s0 s) : KeptR s0 (execXspCmdDone err s) := by
  unfold execXspCmdDone
  with_reducible repeat' first | assumption | intro _ | apply answer_kept | apply State.setF_kept | apply State.flashSpoil_kept | apply State.start_kept | apply State.flashDo_kept | apply State.flashBegin_kept | apply KeptR.next | apply KeptR.ite | apply Kept.ite | dsimp only | split | apply Kept.mk

/-! ## Machine/Domains.lean -/

theorem State.linksOff_kept {s0 : State} {s : State} {d : Nat} (h_s : Kept s0 s) : Kept s0 (State.linksOff s d) := by
  unfold State.linksOff
  with_reducible repeat' first | assumption | intro _ | apply State.wr_kept | apply Kept.ite | apply Kept.fold | apply Kept.fold1 | dsimp only | split

theorem State.domainRegs_kept {s0 : State} {s : State} {d : Nat} (h_s : Kept s0 s) : Kept s0 (State.domainRegs s d) := by
  unfold State.domainRegs
  with_reducible repeat' first | assumption | intro _ | apply State.resetRegs_kept | apply State.linksOff_kept | apply State.wr_kept | apply Kept.fold | apply Kept.fold1 | dsimp only | split | apply Kept.mk

theorem State.groupOff_kept {s0 : State} {s : State} {g : Nat} (h_s : Kept s0 s) : Kept s0 (State.groupOff s g) := by
  unfold State.groupOff
  with_reducible repeat' first | assumption | intro _ | apply State.setF_kept | apply State.setHart_kept | apply Kept.fold | apply Kept.fold1 | dsimp only | split

theorem State.egressLost_kept {s0 : State} {s : State} {p : Nat → Bool} (h_s : Kept s0 s) : Kept s0 (State.egressLost s p) := by
  unfold State.egressLost
  with_reducible repeat' first | assumption | intro _ | dsimp only | split | apply Kept.mk

theorem State.coreLost_kept {s0 : State} {s : State} {die : Nat} (h_s : Kept s0 s) : Kept s0 (State.coreLost s die) := by
  unfold State.coreLost
  with_reducible repeat' first | assumption | intro _ | apply Kept.ite | dsimp only | split | apply Kept.mk

theorem State.domainUnits_kept {s0 : State} {s : State} {d : Nat} (h_s : Kept s0 s) : Kept s0 (State.domainUnits s d) := by
  unfold State.domainUnits
  with_reducible repeat' first | assumption | intro _ | apply State.loseStreams_kept | apply State.powerCycle_kept | apply State.groupOff_kept | apply State.coreLost_kept | apply State.memLost_kept | apply State.setDune_kept | apply State.setEng_kept | apply State.setSlv_kept | apply State.egressLost_kept | apply State.setPport_kept | apply State.setZport_kept | apply Kept.ite | dsimp only | split | apply Kept.mk

theorem State.perstBalls_kept {s0 : State} {s : State} {d : Nat} (h_s : Kept s0 s) : Kept s0 (State.perstBalls s d) := by
  unfold State.perstBalls
  with_reducible repeat' first | assumption | intro _ | apply State.perstBall_kept | apply Kept.ite | apply Kept.fold | apply Kept.fold1 | dsimp only | split

theorem State.domainOff_kept {s0 : State} {s : State} {d : Nat} (h_s : Kept s0 s) : Kept s0 (State.domainOff s d) := by
  unfold State.domainOff
  with_reducible repeat' first | assumption | intro _ | apply State.perstBalls_kept | apply State.sense_kept | apply State.domainRegs_kept | apply State.domainUnits_kept | apply State.setPd_kept | apply Kept.fold | apply Kept.fold1 | dsimp only | split

theorem State.moduleReset_kept {s0 : State} {s : State} {cause : Nat} (h_s : Kept s0 s) : Kept s0 (State.moduleReset s cause) := by
  unfold State.moduleReset
  extract_lets u t
  have hu : Kept s0 u := by
    dsimp only [u]
    split
    · exact State.flashSpoil_kept h_s
    · exact h_s
  have ht : Kept s0 t := Kept.fold (fun _ _ h => State.repairUp_kept h) hu
  have hr : ∀ {r : State}, Kept s0 r → Kept s0 (if u.mgt.hold then (r.setPd 82 0).setPd 83 0 else r) :=
    fun h => .ite (State.setPd_kept (State.setPd_kept h)) h
  exact hr ⟨hu.1, fun k => ⟨rfl, Sparse.wf_drop (ht.2 k).2.1, Sparse.wf_drop (hu.2 k).2.2⟩⟩

theorem State.externalReset_kept {s0 : State} {s : State} (h_s : Kept s0 s) : Kept s0 (State.externalReset s) := by
  unfold State.externalReset
  with_reducible repeat' first | assumption | intro _ | apply State.moduleReset_kept | dsimp only | split | apply Kept.mk

/-! ## Machine/Power.lean -/

theorem State.powerEvent_kept {s0 : State} {s : State} {f : Fld} (h_s : Kept s0 s) : Kept s0 (State.powerEvent s f) := by
  unfold State.powerEvent
  with_reducible repeat' first | assumption | intro _ | apply State.sense_kept | apply State.setF_kept | dsimp only | split

theorem State.overUpdate_kept {s0 : State} {s : State} {rail : Option Nat} (h_s : Kept s0 s) : Kept s0 (State.overUpdate s rail) := by
  unfold State.overUpdate
  with_reducible repeat' first | assumption | intro _ | apply State.setF_kept | apply State.tookFree_kept | apply State.powerEvent_kept | apply State.logEvent_kept | apply Kept.ite | dsimp only | split | apply Kept.mk

theorem State.capWrite_kept {s0 : State} {s : State} {w : Sys2Proof.Word} (h_s : Kept s0 s) : Kept s0 (State.capWrite s w) := by
  unfold State.capWrite
  with_reducible repeat' first | assumption | intro _ | apply State.powerEvent_kept | apply State.setF_kept | apply Kept.ite | dsimp only | split

theorem execCapWrite_kept {s0 : State} {m : Nat} {v : Nat} {s : State} (h_s : Kept s0 s) : KeptR s0 (execCapWrite m v s) := by
  unfold execCapWrite
  with_reducible repeat' first | assumption | intro _ | apply State.write_kept | apply State.capWrite_kept | apply State.start_kept | apply KeptR.next | dsimp only | split

theorem State.share_kept {s0 : State} {s : State} (h_s : Kept s0 s) : Kept s0 (State.share s) := by
  unfold State.share
  with_reducible repeat' first | assumption | intro _ | apply State.setF_kept | apply State.overUpdate_kept | apply Kept.fold | apply Kept.fold1 | dsimp only | split | apply Kept.mk

theorem State.formPower_kept {s0 : State} {s : State} (h_s : Kept s0 s) : Kept s0 (State.formPower s) := by
  unfold State.formPower
  with_reducible repeat' first | assumption | intro _ | apply State.setF_kept | apply KeptO.getD | apply Kept.fold | apply Kept.fold1 | dsimp only | split | apply Kept.mk

theorem State.cluPeriod_kept {s0 : State} {s : State} {b : Nat} {dt : Nat} {n : Nat} (h_s : Kept s0 s) : Kept s0 (State.cluPeriod s b dt n) := by
  unfold State.cluPeriod
  with_reducible repeat' first | assumption | intro _ | apply State.bump_kept | apply State.setF_kept | apply State.setPmuClu_kept | apply Kept.ite | dsimp only | split

theorem execPmuPeriod_kept {s0 : State} {s : State} (h_s : Kept s0 s) : KeptR s0 (execPmuPeriod s) := by
  unfold execPmuPeriod
  with_reducible repeat' first | assumption | intro _ | apply State.formPower_kept | apply State.start_kept | apply State.cluPeriod_kept | apply answer_kept | apply State.share_kept | apply KeptR.next | apply Kept.fold | apply Kept.fold1 | dsimp only | split | apply Kept.mk

theorem execPhaseReport_kept {s0 : State} {n : Nat} {s : State} (h_s : Kept s0 s) : KeptR s0 (execPhaseReport n s) := by
  unfold execPhaseReport
  with_reducible repeat' first | assumption | intro _ | apply answer_kept | apply State.start_kept | apply State.setF_kept | apply State.setPmuClu_kept | apply State.share_kept | apply KeptR.next | dsimp only | split | apply Kept.mk

theorem execTestBudgetGrant_kept {s0 : State} {n : Nat} {s : State} (h_s : Kept s0 s) : KeptR s0 (execTestBudgetGrant n s) := by
  unfold execTestBudgetGrant
  with_reducible repeat' first | assumption | intro _ | apply answer_kept | apply State.start_kept | apply KeptR.next | dsimp only | split | apply Kept.mk

theorem State.credit_kept {s0 : State} {s : State} {d : Nat} {e : Nat} (h_s : Kept s0 s) : Kept s0 (State.credit s d e) := by
  unfold State.credit
  with_reducible repeat' first | assumption | intro _ | apply State.setPmuClu_kept | apply Kept.ite | dsimp only | split | apply Kept.mk

theorem State.opEarns_kept {s0 : State} {s : State} {id : Nat} {e : Nat} (h_s : Kept s0 s) : Kept s0 (State.opEarns s id e) := by
  unfold State.opEarns
  with_reducible repeat' first | assumption | intro _ | apply KeptO.map | apply KeptO1.map | apply KeptO1.map1 | apply Kept.ite | dsimp only | split | apply Kept.mk

theorem State.unitEarns_kept {s0 : State} {s : State} {u : Nat} {e : Nat} {occ : List (Nat × Nat × Nat)} (h_s : Kept s0 s) : Kept s0 (State.unitEarns s u e occ) := by
  unfold State.unitEarns
  with_reducible repeat' first | assumption | intro _ | apply State.opEarns_kept | apply Kept.ite | apply Kept.fold | apply Kept.fold1 | dsimp only | split

theorem State.masterEarns_kept {s0 : State} {s : State} {m : Nat} {e : Nat} {occ : List (Nat × Nat × Nat)} (h_s : Kept s0 s) : Kept s0 (State.masterEarns s m e occ) := by
  unfold State.masterEarns
  with_reducible repeat' first | assumption | intro _ | apply State.unitEarns_kept | apply Kept.ite | dsimp only | split

theorem State.domainEarns_kept {s0 : State} {s : State} {occ : List (Nat × Nat × Nat)} {charged : List (Nat × Nat × Nat)} {d : Nat} {e : Nat} (h_s : Kept s0 s) : Kept s0 (State.domainEarns s occ charged d e) := by
  unfold State.domainEarns
  with_reducible repeat' first | assumption | intro _ | apply State.unitEarns_kept | apply State.masterEarns_kept | apply Kept.ite | apply Kept.fold | apply Kept.fold1 | dsimp only | split

theorem execEnergyApportion_kept {s0 : State} {act : List Nat} {moved : List Nat} {occ : List (Nat × Nat × Nat)} {charged : List (Nat × Nat × Nat)} {s : State} (h_s : Kept s0 s) : KeptR s0 (execEnergyApportion act moved occ charged s) := by
  unfold execEnergyApportion
  with_reducible repeat' first | assumption | intro _ | apply State.domainEarns_kept | apply State.credit_kept | apply State.setRail_kept | apply State.tookFree_kept | apply State.start_kept | apply answer_kept | apply KeptR.next | apply KeptR.ite | apply Kept.ite | apply Kept.fold | apply Kept.fold1 | dsimp only | split

theorem execDroopFiring_kept {s0 : State} {n : Nat} {s : State} (h_s : Kept s0 s) : KeptR s0 (execDroopFiring n s) := by
  unfold execDroopFiring
  with_reducible repeat' first | assumption | intro _ | apply answer_kept | apply State.bump_kept | apply State.setPmuClu_kept | apply State.start_kept | apply KeptR.next | dsimp only | split

theorem execDroopRelease_kept {s0 : State} {n : Nat} {s : State} (h_s : Kept s0 s) : KeptR s0 (execDroopRelease n s) := by
  unfold execDroopRelease
  with_reducible repeat' first | assumption | intro _ | apply answer_kept | apply State.setPmuClu_kept | apply State.start_kept | apply KeptR.next | dsimp only | split

theorem State.qrails_kept {s0 : State} {s : State} (h_s : Kept s0 s) : Kept s0 (State.qrails s) := by
  unfold State.qrails
  with_reducible repeat' first | assumption | intro _ | apply State.setF_kept | apply Kept.fold | apply Kept.fold1 | dsimp only | split

theorem State.railClamp_kept {s0 : State} {s : State} {r : Nat} (h_s : Kept s0 s) : Kept s0 (State.railClamp s r) := by
  unfold State.railClamp
  with_reducible repeat' first | assumption | intro _ | apply State.qrails_kept | apply State.setRail_kept | apply Kept.ite | dsimp only | split

theorem State.railFail_kept {s0 : State} {s : State} {r : Nat} {code : Nat} {mask : Nat} (h_s : Kept s0 s) : Kept s0 (State.railFail s r code mask) := by
  unfold State.railFail
  with_reducible repeat' first | assumption | intro _ | apply State.railClamp_kept | apply State.setF_kept | apply State.overUpdate_kept | apply State.logEvent_kept | apply State.powerEvent_kept | apply Kept.ite | dsimp only | split

theorem State.railRelease_kept {s0 : State} {s : State} {r : Nat} (h_s : Kept s0 s) : Kept s0 (State.railRelease s r) := by
  unfold State.railRelease
  with_reducible repeat' first | assumption | intro _ | apply State.setF_kept | apply State.setRail_kept | apply State.overUpdate_kept | apply State.railClamp_kept | apply State.qrails_kept | apply Kept.ite | dsimp only | split

theorem State.railRestore_kept {s0 : State} {s : State} {r : Nat} (h_s : Kept s0 s) : Kept s0 (State.railRestore s r) := by
  unfold State.railRestore
  with_reducible repeat' first | assumption | intro _ | apply State.setRail_kept | apply State.setF_kept | apply State.railRelease_kept | apply State.logEvent_kept | apply Kept.ite | dsimp only | split

theorem execPhaseFaultInput_kept {s0 : State} {r : Nat} {low : Bool} {s : State} (h_s : Kept s0 s) : KeptR s0 (execPhaseFaultInput r low s) := by
  unfold execPhaseFaultInput
  with_reducible repeat' first | assumption | intro _ | apply State.setRail_kept | apply State.start_kept | apply answer_kept | apply State.railRestore_kept | apply State.railFail_kept | apply State.setF_kept | apply KeptR.next | apply KeptR.ite | apply Kept.ite | dsimp only | split

theorem State.railJudge_kept {s0 : State} {s : State} {r : Nat} (h_s : Kept s0 s) : Kept s0 (State.railJudge s r) := by
  unfold State.railJudge
  with_reducible repeat' first | assumption | intro _ | apply State.setF_kept | apply State.setRail_kept | apply State.railFail_kept | apply KeptO.map | apply KeptO1.map | apply KeptO1.map1 | apply Kept.ite | apply Kept.fold | apply Kept.fold1 | dsimp only | split

theorem execTelemetrySample_kept {s0 : State} {r : Nat} {mv : Nat} {is : List Nat} {s : State} (h_s : Kept s0 s) : KeptR s0 (execTelemetrySample r mv is s) := by
  unfold execTelemetrySample
  with_reducible repeat' first | assumption | intro _ | apply State.setRail_kept | apply State.start_kept | apply State.setF_kept | apply answer_kept | apply State.railRestore_kept | apply State.railJudge_kept | apply KeptR.next | apply KeptR.ite | apply Kept.ite | dsimp only | split

theorem State.restoreAsk_kept {s0 : State} {s : State} {r : Nat} {w : Sys2Proof.Word} (h_s : Kept s0 s) : Kept s0 (State.restoreAsk s r w) := by
  unfold State.restoreAsk
  with_reducible repeat' first | assumption | intro _ | apply State.railRestore_kept | apply State.setRail_kept | dsimp only | split

theorem execPhaseRestoreRequest_kept {s0 : State} {m : Nat} {r : Nat} {v : Nat} {s : State} (h_s : Kept s0 s) : KeptR s0 (execPhaseRestoreRequest m r v s) := by
  unfold execPhaseRestoreRequest
  with_reducible repeat' first | assumption | intro _ | apply State.write_kept | apply State.restoreAsk_kept | apply State.start_kept | apply KeptR.next | dsimp only | split

/-! ## Machine/Switching.lean -/

theorem State.pdRefuse_kept {s0 : State} {s : State} {d : Nat} (h_s : Kept s0 s) : Kept s0 (State.pdRefuse s d) := by
  unfold State.pdRefuse
  with_reducible repeat' first | assumption | intro _ | apply State.setF_kept | dsimp only | split

theorem State.pdOffAsk_kept {s0 : State} {s : State} {d : Nat} (h_s : Kept s0 s) : Kept s0 (State.pdOffAsk s d) := by
  unfold State.pdOffAsk
  with_reducible repeat' first | assumption | intro _ | apply State.pdRefuse_kept | apply State.pdKick_kept | apply State.domainOff_kept | apply Kept.ite | dsimp only | split | apply Kept.mk

theorem State.pdWrite_kept {s0 : State} {s : State} {d : Nat} {w : Sys2Proof.Word} (h_s : Kept s0 s) : Kept s0 (State.pdWrite s d w) := by
  unfold State.pdWrite
  with_reducible repeat' first | assumption | intro _ | apply State.pdRefuse_kept | apply State.pdAsk_kept | apply State.pdOffAsk_kept | apply Kept.ite | dsimp only | split

theorem execDomainOnRequest_kept {s0 : State} {m : Nat} {d : Nat} {s : State} (h_s : Kept s0 s) : KeptR s0 (execDomainOnRequest m d s) := by
  unfold execDomainOnRequest
  with_reducible repeat' first | assumption | intro _ | apply State.write_kept | apply State.pdWrite_kept | apply State.start_kept | apply KeptR.next | dsimp only | split

theorem execDomainOffRequest_kept {s0 : State} {m : Nat} {d : Nat} {s : State} (h_s : Kept s0 s) : KeptR s0 (execDomainOffRequest m d s) := by
  unfold execDomainOffRequest
  with_reducible repeat' first | assumption | intro _ | apply State.write_kept | apply State.pdWrite_kept | apply State.start_kept | apply KeptR.next | dsimp only | split

theorem State.domainUp_kept {s0 : State} {s : State} {d : Nat} (h_s : Kept s0 s) : Kept s0 (State.domainUp s d) := by
  unfold State.domainUp
  with_reducible repeat' first | assumption | intro _ | apply State.setF_kept | apply State.setPd_kept | apply State.clearTags_kept | apply State.groupOn_kept | dsimp only | split

theorem execPowerGood_kept {s0 : State} {d : Nat} {s : State} (h_s : Kept s0 s) : KeptR s0 (execPowerGood d s) := by
  unfold execPowerGood
  with_reducible repeat' first | assumption | intro _ | apply answer_kept | apply State.pdKick_kept | apply State.domainUp_kept | apply State.start_kept | apply KeptR.next | dsimp only | split

theorem State.pgFail_kept {s0 : State} {s : State} {d : Nat} (h_s : Kept s0 s) : Kept s0 (State.pgFail s d) := by
  unfold State.pgFail
  with_reducible repeat' first | assumption | intro _ | apply State.setF_kept | apply State.setPd_kept | apply State.powerEvent_kept | apply State.logEvent_kept | dsimp only | split | apply Kept.mk

theorem execPowerGoodTimeout_kept {s0 : State} {d : Nat} {s : State} (h_s : Kept s0 s) : KeptR s0 (execPowerGoodTimeout d s) := by
  unfold execPowerGoodTimeout
  with_reducible repeat' first | assumption | intro _ | apply answer_kept | apply State.pdKick_kept | apply State.pgFail_kept | apply State.start_kept | apply KeptR.next | dsimp only | split

theorem execAutoGateIdle_kept {s0 : State} {d : Nat} {s : State} (h_s : Kept s0 s) : KeptR s0 (execAutoGateIdle d s) := by
  unfold execAutoGateIdle
  with_reducible repeat' first | assumption | intro _ | apply answer_kept | apply State.pdKick_kept | apply State.domainOff_kept | apply State.start_kept | apply KeptR.next | dsimp only | split

theorem State.thermalEvent_kept {s0 : State} {s : State} {f : Fld} (h_s : Kept s0 s) : Kept s0 (State.thermalEvent s f) := by
  unfold State.thermalEvent
  with_reducible repeat' first | assumption | intro _ | apply State.sense_kept | apply State.setF_kept | dsimp only | split

theorem State.sensorShow_kept {s0 : State} {s : State} {i : Nat} {t : Int} (h_s : Kept s0 s) : Kept s0 (State.sensorShow s i t) := by
  unfold State.sensorShow
  with_reducible repeat' first | assumption | intro _ | apply State.setF_kept | apply Kept.ite | dsimp only | split

theorem State.sensorCount_kept {s0 : State} {s : State} {i : Nat} {t : Int} (h_s : Kept s0 s) : Kept s0 (State.sensorCount s i t) := by
  unfold State.sensorCount
  with_reducible repeat' first | assumption | intro _ | apply Kept.ite | dsimp only | split | apply Kept.mk

theorem State.sensorHold_kept {s0 : State} {s : State} {i : Nat} {t : Int} (h_s : Kept s0 s) : Kept s0 (State.sensorHold s i t) := by
  unfold State.sensorHold
  with_reducible repeat' first | assumption | intro _ | dsimp only | split | apply Kept.mk

theorem State.sensorOpen_kept {s0 : State} {s : State} {i : Nat} (h_s : Kept s0 s) : Kept s0 (State.sensorOpen s i) := by
  unfold State.sensorOpen
  with_reducible repeat' first | assumption | intro _ | apply State.tookFree_kept | apply State.setF_kept | dsimp only | split

theorem State.sensorFault_kept {s0 : State} {s : State} {i : Nat} (h_s : Kept s0 s) : Kept s0 (State.sensorFault s i) := by
  unfold State.sensorFault
  with_reducible repeat' first | assumption | intro _ | apply State.setF_kept | apply State.thermalEvent_kept | apply State.logEvent_kept | apply Kept.ite | dsimp only | split | apply Kept.mk

theorem State.sensorTake_kept {s0 : State} {s : State} {i : Nat} {r : Option Int} (h_s : Kept s0 s) : Kept s0 (State.sensorTake s i r) := by
  unfold State.sensorTake
  with_reducible repeat' first | assumption | intro _ | apply State.sensorFault_kept | apply State.sensorOpen_kept | apply State.sensorCount_kept | apply State.sensorHold_kept | apply State.sensorShow_kept | apply Kept.ite | dsimp only | split

theorem State.throttle_kept {s0 : State} {s : State} {n : Nat} (h_s : Kept s0 s) : Kept s0 (State.throttle s n) := by
  unfold State.throttle
  with_reducible repeat' first | assumption | intro _ | apply State.setPmuClu_kept | apply State.setF_kept | apply State.thermalEvent_kept | apply State.logEvent_kept | apply Kept.ite | dsimp only | split | apply Kept.mk

theorem State.throttleAll_kept {s0 : State} {s : State} (h_s : Kept s0 s) : Kept s0 (State.throttleAll s) := by
  unfold State.throttleAll
  with_reducible repeat' first | assumption | intro _ | apply State.throttle_kept | apply State.setF_kept | apply Kept.fold | apply Kept.fold1 | dsimp only | split

theorem State.railSwitch_kept {s0 : State} {s : State} {r : Nat} {on : Bool} (h_s : Kept s0 s) : Kept s0 (State.railSwitch s r on) := by
  unfold State.railSwitch
  with_reducible repeat' first | assumption | intro _ | apply State.emit_kept | apply Kept.ite | dsimp only | split | apply Kept.mk

theorem State.shutdown_kept {s0 : State} {s : State} {i : Nat} (h_s : Kept s0 s) : Kept s0 (State.shutdown s i) := by
  unfold State.shutdown
  with_reducible repeat' first | assumption | intro _ | apply State.wr_kept | apply State.railSwitch_kept | apply State.emit_kept | apply State.moduleReset_kept | apply Kept.fold | apply Kept.fold1 | dsimp only | split | apply Kept.mk

theorem execThermalSample_kept {s0 : State} {rs : List (Option Int)} {s : State} (h_s : Kept s0 s) : KeptR s0 (execThermalSample rs s) := by
  unfold execThermalSample
  with_reducible repeat' first | assumption | intro _ | apply State.sensorTake_kept | apply State.start_kept | apply State.throttleAll_kept | apply answer_kept | apply State.shutdown_kept | apply KeptR.next | apply KeptR.ite | apply Kept.ite | apply Kept.fold | apply Kept.fold1 | dsimp only | split

theorem State.aonLost_kept {s0 : State} {s : State} (h_s : Kept s0 s) : Kept s0 (State.aonLost s) := by
  unfold State.aonLost
  with_reducible repeat' first | assumption | intro _ | apply State.resetRegs_kept | dsimp only | split | apply Kept.mk

theorem execVaonPowerLoss_kept {s0 : State} {s : State} (h_s : Kept s0 s) : KeptR s0 (execVaonPowerLoss s) := by
  unfold execVaonPowerLoss
  with_reducible repeat' first | assumption | intro _ | apply answer_kept | apply State.setPd_kept | apply State.aonLost_kept | apply State.start_kept | apply KeptR.next | dsimp only | split

theorem State.logLost_kept {s0 : State} {s : State} (h_s : Kept s0 s) : Kept s0 (State.logLost s) := by
  unfold State.logLost
  with_reducible repeat' first | assumption | intro _ | apply State.logEvent_kept | apply Kept.ite | dsimp only | split | apply Kept.mk

theorem State.aonBack_kept {s0 : State} {s : State} (h_s : Kept s0 s) : Kept s0 (State.aonBack s) := by
  unfold State.aonBack
  with_reducible repeat' first | assumption | intro _ | apply State.setPd_kept | apply State.aonLost_kept | apply State.logLost_kept | apply Kept.ite | dsimp only | split

theorem execVaonPowerUp_kept {s0 : State} {s : State} (h_s : Kept s0 s) : KeptR s0 (execVaonPowerUp s) := by
  unfold execVaonPowerUp
  with_reducible repeat' first | assumption | intro _ | apply answer_kept | apply State.aonBack_kept | apply State.start_kept | apply KeptR.next | dsimp only | split

theorem execShutdownHoldRelease_kept {s0 : State} {vaon : Bool} {s : State} (h_s : Kept s0 s) : KeptR s0 (execShutdownHoldRelease vaon s) := by
  unfold execShutdownHoldRelease
  with_reducible repeat' first | assumption | intro _ | apply State.start_kept | apply answer_kept | apply State.aonBack_kept | apply State.externalReset_kept | apply KeptR.next | apply KeptR.ite | apply Kept.ite | dsimp only | split | apply Kept.mk

/-! ## Machine/Mti.lean -/

theorem State.setMti_kept {s0 : State} {s : State} {x : Mti} (h_s : Kept s0 s) : Kept s0 (State.setMti s x) := by
  unfold State.setMti
  with_reducible repeat' first | assumption | intro _ | dsimp only | split | apply Kept.mk

theorem State.audit_kept {s0 : State} {s : State} {code : Nat} {detail : Nat} (h_s : Kept s0 s) : Kept s0 (State.audit s code detail) := by
  unfold State.audit
  with_reducible repeat' first | assumption | intro _ | apply Kept.ite | dsimp only | split | apply Kept.mk

theorem State.legalIn_kept {s0 : State} : ∀ {n code detail : Nat} {s : State}, Kept s0 s → Kept s0 (State.legalIn n code detail s)
  | 0, _, _, _, h => h
  | n + 1, code, detail, s, h => by
    unfold State.legalIn
    with_reducible repeat' first | assumption | intro _ | apply State.legalIn_kept | apply State.setMti_kept | apply State.audit_kept | apply Kept.ite | apply Kept.mk | dsimp only

theorem State.legalEvent_kept {s0 : State} {s : State} {code : Nat} {detail : Nat} (h_s : Kept s0 s) : Kept s0 (State.legalEvent s code detail) := by
  unfold State.legalEvent
  with_reducible repeat' first | assumption | intro _ | apply State.legalIn_kept | dsimp only | split

theorem State.legalAdd_kept {s0 : State} {s : State} {k : Nat} {n : Nat} (h_s : Kept s0 s) : Kept s0 (State.legalAdd s k n) := by
  unfold State.legalAdd
  with_reducible repeat' first | assumption | intro _ | apply State.setMti_kept | apply State.legalEvent_kept | apply Kept.ite | dsimp only | split | apply Kept.mk

theorem State.refresh_kept {s0 : State} {s : State} {valid : Bool} (h_s : Kept s0 s) : Kept s0 (State.refresh s valid) := by
  unfold State.refresh
  with_reducible repeat' first | assumption | intro _ | apply State.setMti_kept | apply State.pulse_kept | dsimp only | split

theorem State.settleMti_kept {s0 : State} {s : State} (h_s : Kept s0 s) : Kept s0 (State.settleMti s) := by
  unfold State.settleMti
  with_reducible repeat' first | assumption | intro _ | apply State.refresh_kept | apply Kept.ite | dsimp only | split

theorem execSnapshotRefresh_kept {s0 : State} {s : State} (h_s : Kept s0 s) : KeptR s0 (execSnapshotRefresh s) := by
  unfold execSnapshotRefresh
  with_reducible repeat' first | assumption | intro _ | apply answer_kept | apply State.refresh_kept | apply State.start_kept | apply KeptR.next | dsimp only | split

theorem State.latchMti_kept {s0 : State} {s : State} {m : Nat} {sweep : Bool} (h_s : Kept s0 s) : Kept s0 (State.latchMti s m sweep) := by
  unfold State.latchMti
  with_reducible repeat' first | assumption | intro _ | apply State.setMti_kept | apply Kept.ite | dsimp only | split

theorem execSnapshotLatchRead_kept {s0 : State} {m : Nat} {sweep : Bool} {s : State} (h_s : Kept s0 s) : KeptR s0 (execSnapshotLatchRead m sweep s) := by
  unfold execSnapshotLatchRead
  with_reducible repeat' first | assumption | intro _ | apply State.say_kept | apply State.latchMti_kept | apply State.start_kept | apply State.busError_kept | apply KeptR.next | apply KeptR.ite | apply Kept.ite | dsimp only | split

theorem State.residueAdd_kept {s0 : State} {s : State} {k : Nat} {r : Nat} {unit : Nat} {n : Int} (h_s : Kept s0 s) : Kept s0 (State.residueAdd s k r unit n) := by
  unfold State.residueAdd
  with_reducible repeat' first | assumption | intro _ | apply State.tookFree_kept | apply State.legalAdd_kept | apply State.setMti_kept | apply Kept.ite | dsimp only | split

theorem State.accumulate_kept {s0 : State} {s : State} {i : Int} {v : Int} (h_s : Kept s0 s) : Kept s0 (State.accumulate s i v) := by
  unfold State.accumulate
  with_reducible repeat' first | assumption | intro _ | apply State.residueAdd_kept | apply Kept.ite | dsimp only | split

theorem State.adcFault_kept {s0 : State} {s : State} {volt : Bool} {bad : Bool} (h_s : Kept s0 s) : Kept s0 (State.adcFault s volt bad) := by
  unfold State.adcFault
  with_reducible repeat' first | assumption | intro _ | apply State.setMti_kept | apply State.legalEvent_kept | apply Kept.ite | dsimp only | split

theorem execAdcSample_kept {s0 : State} {cI : Int} {cV : Int} {badI : Bool} {badV : Bool} {s : State} (h_s : Kept s0 s) : KeptR s0 (execAdcSample cI cV badI badV s) := by
  unfold execAdcSample
  with_reducible repeat' first | assumption | intro _ | apply State.setMti_kept | apply State.start_kept | apply State.adcFault_kept | apply State.accumulate_kept | apply answer_kept | apply State.settleMti_kept | apply KeptR.next | apply KeptR.ite | apply Kept.ite | dsimp only | split

theorem State.socVNow_kept {s0 : State} {s : State} (h_s : Kept s0 s) : Kept s0 (State.socVNow s).1 := by
  unfold State.socVNow
  with_reducible repeat' first | assumption | intro _ | apply State.tookFree_kept | apply Kept.ite1 | apply Kept.ite | dsimp only | split

theorem State.socCCNow_kept {s0 : State} {s : State} (h_s : Kept s0 s) : Kept s0 (State.socCCNow s).1 := by
  unfold State.socCCNow
  with_reducible repeat' first | assumption | intro _ | apply State.tookFree_kept | apply Kept.ite1 | apply Kept.ite | dsimp only | split

theorem execSocEvaluation_kept {s0 : State} {s : State} (h_s : Kept s0 s) : KeptR s0 (execSocEvaluation s) := by
  unfold execSocEvaluation
  with_reducible repeat' first | assumption | intro _ | apply State.socVNow_kept | apply State.start_kept | apply State.setMti_kept | apply State.socCCNow_kept | apply answer_kept | apply State.settleMti_kept | apply State.legalAdd_kept | apply KeptR.next | apply KeptR.ite | apply Kept.ite | dsimp only | split

theorem State.checkpoint_kept {s0 : State} {s : State} {clean : Bool} {bad : Bool} (h_s : Kept s0 s) : Kept s0 (State.checkpoint s clean bad) := by
  unfold State.checkpoint
  with_reducible repeat' first | assumption | intro _ | apply State.legalEvent_kept | apply Kept.ite | dsimp only | split | apply Kept.mk

theorem execMtiCheckpoint_kept {s0 : State} {bad : Bool} {s : State} (h_s : Kept s0 s) : KeptR s0 (execMtiCheckpoint bad s) := by
  unfold execMtiCheckpoint
  with_reducible repeat' first | assumption | intro _ | apply State.setMti_kept | apply State.start_kept | apply answer_kept | apply State.settleMti_kept | apply State.checkpoint_kept | apply KeptR.next | dsimp only | split

theorem execPowerFailSignal_kept {s0 : State} {bad : Bool} {s : State} (h_s : Kept s0 s) : KeptR s0 (execPowerFailSignal bad s) := by
  unfold execPowerFailSignal
  with_reducible repeat' first | assumption | intro _ | apply answer_kept | apply State.settleMti_kept | apply State.checkpoint_kept | apply State.start_kept | apply KeptR.next | dsimp only | split

theorem execVmetPowerLoss_kept {s0 : State} {cut : Bool} {s : State} (h_s : Kept s0 s) : KeptR s0 (execVmetPowerLoss cut s) := by
  unfold execVmetPowerLoss
  with_reducible repeat' first | assumption | intro _ | apply State.setPd_kept | apply State.resetRegs_kept | apply State.start_kept | apply answer_kept | apply State.setMti_kept | apply KeptR.next | dsimp only | split | apply Kept.mk

theorem State.resumeMti_kept {s0 : State} {s : State} (h_s : Kept s0 s) : Kept s0 (State.resumeMti s) := by
  unfold State.resumeMti
  with_reducible repeat' first | assumption | intro _ | apply State.setF_kept | apply State.setMti_kept | apply State.legalEvent_kept | apply Kept.ite | dsimp only | split | apply Kept.mk

theorem execMtiStart_kept {s0 : State} {crc : Nat} {worn : List Nat} {s : State} (h_s : Kept s0 s) : KeptR s0 (execMtiStart crc worn s) := by
  unfold execMtiStart
  with_reducible repeat' first | assumption | intro _ | apply State.setF_kept | apply State.setPd_kept | apply State.start_kept | apply answer_kept | apply State.settleMti_kept | apply State.resumeMti_kept | apply State.refresh_kept | apply KeptR.next | apply KeptR.ite | apply Kept.ite | dsimp only | split | apply Kept.mk

theorem execClockCheck_kept {s0 : State} {bad : Bool} {s : State} (h_s : Kept s0 s) : KeptR s0 (execClockCheck bad s) := by
  unfold execClockCheck
  with_reducible repeat' first | assumption | intro _ | apply State.setMti_kept | apply State.start_kept | apply answer_kept | apply State.settleMti_kept | apply State.legalEvent_kept | apply KeptR.next | apply KeptR.ite | apply Kept.ite | dsimp only | split

theorem execRingSweep_kept {s0 : State} {ra : List (List (List Sys2Proof.Byte) × List (List Sys2Proof.Byte))} {rb : List (List (List Sys2Proof.Byte) × List (List Sys2Proof.Byte))} {s : State} (h_s : Kept s0 s) : KeptR s0 (execRingSweep ra rb s) := by
  unfold execRingSweep
  with_reducible repeat' first | assumption | intro _ | apply State.setMti_kept | apply State.start_kept | apply State.setF_kept | apply answer_kept | apply State.refresh_kept | apply KeptR.next | apply KeptR.ite | apply Kept.ite | dsimp only | split | apply Kept.mk

theorem State.svc2_kept {s0 : State} {s : State} {op : Nat} {crc : Nat} {payload : List Sys2Proof.Byte} {t : State} (h_s : Kept s0 s) (h_t : Kept s0 t) : Kept s0 (State.svc2 s op crc payload t) := by
  unfold State.svc2
  with_reducible repeat' first | assumption | intro _ | apply State.say_kept | apply Kept.ite | dsimp only | split

theorem execParamWrite_kept {s0 : State} {en : Bool} {table : List Sys2Proof.Byte} {crc : Nat} {bad : Bool} {s : State} (h_s : Kept s0 s) : KeptR s0 (execParamWrite en table crc bad s) := by
  unfold execParamWrite
  with_reducible repeat' first | assumption | intro _ | apply State.start_kept | apply answer_kept | apply State.svc2_kept | apply State.say_kept | apply State.settleMti_kept | apply State.legalEvent_kept | apply KeptR.next | apply KeptR.ite | apply Kept.ite | dsimp only | split | apply Kept.mk

theorem execParamRead_kept {s0 : State} {en : Bool} {crc : Nat} {s : State} (h_s : Kept s0 s) : KeptR s0 (execParamRead en crc s) := by
  unfold execParamRead
  with_reducible repeat' first | assumption | intro _ | apply State.start_kept | apply answer_kept | apply State.svc2_kept | apply State.say_kept | apply KeptR.next | dsimp only | split

theorem execRawRead_kept {s0 : State} {en : Bool} {crc : Nat} {s : State} (h_s : Kept s0 s) : KeptR s0 (execRawRead en crc s) := by
  unfold execRawRead
  with_reducible repeat' first | assumption | intro _ | apply State.start_kept | apply answer_kept | apply State.svc2_kept | apply State.say_kept | apply KeptR.next | dsimp only | split

theorem State.sealMti_kept {s0 : State} {s : State} (h_s : Kept s0 s) : Kept s0 (State.sealMti s) := by
  unfold State.sealMti
  with_reducible repeat' first | assumption | intro _ | apply State.legalEvent_kept | apply State.setMti_kept | dsimp only | split | apply Kept.mk

theorem execMtiSeal_kept {s0 : State} {en : Bool} {pcrc : Nat} {crc : Nat} {s : State} (h_s : Kept s0 s) : KeptR s0 (execMtiSeal en pcrc crc s) := by
  unfold execMtiSeal
  with_reducible repeat' first | assumption | intro _ | apply State.start_kept | apply answer_kept | apply State.svc2_kept | apply State.say_kept | apply State.settleMti_kept | apply State.sealMti_kept | apply KeptR.next | apply KeptR.ite | apply Kept.ite | dsimp only | split

/-! ## Machine/Mgt.lean -/

theorem State.fmtLo_kept {s0 : State} {s : State} {n : Nat} {w : Sys2Proof.Word} (h_s : Kept s0 s) : Kept s0 (State.fmtLo s n w) := by
  unfold State.fmtLo
  with_reducible repeat' first | assumption | intro _ | apply State.setF_kept | apply State.hold_kept | apply Kept.ite | dsimp only | split

theorem State.fmtHi_kept {s0 : State} {s : State} {n : Nat} {w : Sys2Proof.Word} (h_s : Kept s0 s) : Kept s0 (State.fmtHi s n w) := by
  unfold State.fmtHi
  with_reducible repeat' first | assumption | intro _ | apply State.setF_kept | apply State.unhold_kept | apply State.wr_kept | apply Kept.ite | dsimp only | split

theorem execFmtDescLoWrite_kept {s0 : State} {m : Nat} {n : Nat} {v : Nat} {s : State} (h_s : Kept s0 s) : KeptR s0 (execFmtDescLoWrite m n v s) := by
  unfold execFmtDescLoWrite
  with_reducible repeat' first | assumption | intro _ | apply State.write_kept | apply State.fmtLo_kept | apply State.start_kept | apply KeptR.next | dsimp only | split

theorem execFmtDescHiWrite_kept {s0 : State} {m : Nat} {n : Nat} {v : Nat} {s : State} (h_s : Kept s0 s) : KeptR s0 (execFmtDescHiWrite m n v s) := by
  unfold execFmtDescHiWrite
  with_reducible repeat' first | assumption | intro _ | apply State.write_kept | apply State.fmtHi_kept | apply State.start_kept | apply KeptR.next | dsimp only | split

theorem State.fmtCopied_kept {s0 : State} {s : State} (h_s : Kept s0 s) : Kept s0 (State.fmtCopied s) := by
  unfold State.fmtCopied
  with_reducible repeat' first | assumption | intro _ | apply State.resumeAdmission_kept | apply State.setF_kept | dsimp only | split

theorem execFmtEntryCopyDone_kept {s0 : State} {s : State} (h_s : Kept s0 s) : KeptR s0 (execFmtEntryCopyDone s) := by
  unfold execFmtEntryCopyDone
  with_reducible repeat' first | assumption | intro _ | apply answer_kept | apply State.fmtCopied_kept | apply State.start_kept | apply KeptR.next | dsimp only | split

theorem State.rtcSecond_kept {s0 : State} {s : State} (h_s : Kept s0 s) : Kept s0 (State.rtcSecond s) := by
  unfold State.rtcSecond
  with_reducible repeat' first | assumption | intro _ | apply State.wr_kept | apply State.logEvent_kept | apply State.setF_kept | apply Kept.ite | dsimp only | split

theorem execRtcTick_kept {s0 : State} {s : State} (h_s : Kept s0 s) : KeptR s0 (execRtcTick s) := by
  unfold execRtcTick
  with_reducible repeat' first | assumption | intro _ | apply State.start_kept | apply answer_kept | apply State.logEvent_kept | apply State.setF_kept | apply State.wr_kept | apply State.rtcSecond_kept | apply KeptR.next | apply KeptR.ite | apply Kept.ite | dsimp only | split | apply Kept.mk

theorem State.rtcSetWord_kept {s0 : State} {s : State} {date : Bool} {w : Sys2Proof.Word} (h_s : Kept s0 s) : Kept s0 (State.rtcSetWord s date w) := by
  unfold State.rtcSetWord
  with_reducible repeat' first | assumption | intro _ | apply State.wr_kept | apply State.hold_kept | apply Kept.ite | dsimp only | split

theorem State.rtcSet_kept {s0 : State} {s : State} (h_s : Kept s0 s) : Kept s0 (State.rtcSet s) := by
  unfold State.rtcSet
  with_reducible repeat' first | assumption | intro _ | apply State.setF_kept | apply State.logEvent_kept | apply Kept.ite | dsimp only | split | apply Kept.mk

theorem State.rtcCtrl_kept {s0 : State} {s : State} {w : Sys2Proof.Word} (h_s : Kept s0 s) : Kept s0 (State.rtcCtrl s w) := by
  unfold State.rtcCtrl
  with_reducible repeat' first | assumption | intro _ | apply State.setF_kept | apply State.rtcSet_kept | apply Kept.ite | dsimp only | split

theorem execRtcSet_kept {s0 : State} {m : Nat} {s : State} (h_s : Kept s0 s) : KeptR s0 (execRtcSet m s) := by
  unfold execRtcSet
  with_reducible repeat' first | assumption | intro _ | apply State.write_kept | apply State.rtcCtrl_kept | apply State.start_kept | apply KeptR.next | dsimp only | split

theorem State.mbxBell_kept {s0 : State} {s : State} {c : Nat} (h_s : Kept s0 s) : Kept s0 (State.mbxBell s c) := by
  unfold State.mbxBell
  with_reducible repeat' first | assumption | intro _ | apply State.setF_kept | apply Kept.ite | dsimp only | split | apply Kept.mk

theorem State.mbxDb_kept {s0 : State} {s : State} {w : Sys2Proof.Word} (h_s : Kept s0 s) : Kept s0 (State.mbxDb s w) := by
  unfold State.mbxDb
  with_reducible repeat' first | assumption | intro _ | apply State.mbxBell_kept | apply Kept.fold | apply Kept.fold1 | dsimp only | split

theorem execMailboxDoorbell_kept {s0 : State} {m : Nat} {v : Nat} {s : State} (h_s : Kept s0 s) : KeptR s0 (execMailboxDoorbell m v s) := by
  unfold execMailboxDoorbell
  with_reducible repeat' first | assumption | intro _ | apply State.write_kept | apply State.mbxDb_kept | apply State.start_kept | apply KeptR.next | dsimp only | split

theorem State.respond_kept {s0 : State} {s : State} {c : Nat} {op : Nat} {status : Nat} {tag : Nat} {payload : List Sys2Proof.Byte} (h_s : Kept s0 s) : Kept s0 (State.respond s c op status tag payload) := by
  unfold State.respond
  with_reducible repeat' first | assumption | intro _ | apply State.putAll_kept | apply State.pulse_kept | apply State.setF_kept | apply Kept.ite | dsimp only | split | apply Kept.mk

theorem execLockstepMgtMismatch_kept {s0 : State} {serving : Bool} {s : State} (h_s : Kept s0 s) : KeptR s0 (execLockstepMgtMismatch serving s) := by
  unfold execLockstepMgtMismatch
  with_reducible repeat' first | assumption | intro _ | apply State.writeBroke_kept | apply State.bump_kept | apply State.start_kept | apply answer_kept | apply KeptR.next | apply KeptR.ite | apply Kept.ite | dsimp only | split | apply Kept.mk

theorem State.mgtRestart_kept {s0 : State} {s : State} (h_s : Kept s0 s) : Kept s0 (State.mgtRestart s) := by
  unfold State.mgtRestart
  with_reducible repeat' first | assumption | intro _ | apply State.setF_kept | apply State.logEvent_kept | apply State.respond_kept | dsimp only | split | apply Kept.mk

theorem execMgtPairRestart_kept {s0 : State} {s : State} (h_s : Kept s0 s) : KeptR s0 (execMgtPairRestart s) := by
  unfold execMgtPairRestart
  with_reducible repeat' first | assumption | intro _ | apply answer_kept | apply State.mgtRestart_kept | apply State.start_kept | apply KeptR.next | dsimp only | split

theorem State.logProgram_kept {s0 : State} {s : State} {sector : Nat} {slot : Nat} {b : List Sys2Proof.Byte} (h_s : Kept s0 s) : Kept s0 (State.logProgram s sector slot b) := by
  unfold State.logProgram
  with_reducible repeat' first | assumption | intro _ | apply State.flashProgram_kept | dsimp only | split

theorem State.logRotate_kept {s0 : State} {s : State} (h_s : Kept s0 s) : Kept s0 (State.logRotate s) := by
  unfold State.logRotate
  with_reducible repeat' first | assumption | intro _ | apply State.flashErase_kept | apply State.logProgram_kept | dsimp only | split | apply Kept.mk

theorem State.logWrite_kept {s0 : State} {s : State} {x : LogItem} {rest : List LogItem} {ok : Bool} (h_s : Kept s0 s) : Kept s0 (State.logWrite s x rest ok) := by
  unfold State.logWrite
  with_reducible repeat' first | assumption | intro _ | apply State.logRotate_kept | apply State.logProgram_kept | apply State.flashProgram_kept | apply State.tookFree_kept | apply Kept.ite | dsimp only | split | apply Kept.mk

theorem execLogEntryWrite_kept {s0 : State} {ok : Bool} {s : State} (h_s : Kept s0 s) : KeptR s0 (execLogEntryWrite ok s) := by
  unfold execLogEntryWrite
  with_reducible repeat' first | assumption | intro _ | apply answer_kept | apply State.logWrite_kept | apply State.start_kept | apply KeptR.next | dsimp only | split

theorem State.logScan_kept {s0 : State} {s : State} (h_s : Kept s0 s) : Kept s0 (State.logScan s) := by
  unfold State.logScan
  with_reducible repeat' first | assumption | intro _ | apply Kept.ite | apply Kept.fold | apply Kept.fold1 | dsimp only | split | apply Kept.mk

theorem execResetNAssert_kept {s0 : State} {ns : Nat} {s : State} (h_s : Kept s0 s) : KeptR s0 (execResetNAssert ns s) := by
  unfold execResetNAssert
  with_reducible repeat' first | assumption | intro _ | apply State.start_kept | apply State.tookFree_kept | apply State.externalReset_kept | apply KeptR.next | apply KeptR.ite | apply Kept.ite | dsimp only | split | apply Kept.mk

theorem State.railLow_kept {s0 : State} {s : State} {rail : Nat} (h_s : Kept s0 s) : Kept s0 (State.railLow s rail) := by
  unfold State.railLow
  with_reducible repeat' first | assumption | intro _ | apply State.emit_kept | apply State.moduleReset_kept | apply Kept.ite | dsimp only | split | apply Kept.mk

theorem State.railBack_kept {s0 : State} {s : State} {rail : Nat} (h_s : Kept s0 s) : Kept s0 (State.railBack s rail) := by
  unfold State.railBack
  with_reducible repeat' first | assumption | intro _ | apply Kept.ite | dsimp only | split | apply Kept.mk

theorem execRailMonitorTrip_kept {s0 : State} {rail : Nat} {mv : Nat} {s : State} (h_s : Kept s0 s) : KeptR s0 (execRailMonitorTrip rail mv s) := by
  unfold execRailMonitorTrip
  with_reducible repeat' first | assumption | intro _ | apply answer_kept | apply State.railLow_kept | apply State.start_kept | apply State.railBack_kept | apply KeptR.next | apply KeptR.ite | apply Kept.ite | dsimp only | split

theorem execModuleResetDelayExpiry_kept {s0 : State} {s : State} (h_s : Kept s0 s) : KeptR s0 (execModuleResetDelayExpiry s) := by
  unfold execModuleResetDelayExpiry
  with_reducible repeat' first | assumption | intro _ | apply answer_kept | apply State.moduleReset_kept | apply State.start_kept | apply KeptR.next | dsimp only | split

/-! ## Machine/Registers.lean -/

theorem State.shown_kept {s0 : State} {s : State} {m : Nat} {a : Nat} (h_s : Kept s0 s) : Kept s0 (State.shown s m a).1 := by
  have first : ∀ (u : State) (w : Word), Kept s0 u → Kept s0 (u, w).1 := fun _ _ h => h
  have pin : ∀ (n : Nat) (w : State × Nat → Word), Kept s0 (have r := if s.pinUp n = true then s.pinLevel n else (s, 0); (r.1, w r)).1 :=
    fun _ _ => Kept.ite1 (State.pinLevel_kept h_s) h_s
  delta State.shown
  split
  · exact first _ _ h_s
  · split
    · exact first _ _ h_s
    · split
      · exact pin ((a - 0x66000000) / 4) (fun r => ins (s.rd a) 0 0 r.2)
      · exact first _ _ h_s

theorem State.readClears_kept {s0 : State} {s : State} {a : Nat} (h_s : Kept s0 s) : Kept s0 (State.readClears s a) := by
  unfold State.readClears
  with_reducible repeat' first | assumption | intro _ | apply State.wr_kept | apply Kept.ite | dsimp only | split

theorem State.readReg_kept {s0 : State} {s : State} {m : Nat} {a : Nat} (h_s : Kept s0 s) : Kept s0 (State.readReg s m a) := by
  unfold State.readReg
  with_reducible repeat' first | assumption | intro _ | apply State.hbxShow_kept | apply State.shown_kept | apply State.readClears_kept | apply State.latchMti_kept | apply State.say_kept | apply Kept.ite | dsimp only | split | apply Kept.mk

theorem State.narrow_kept {s0 : State} {s : State} {m : Nat} {self : Nat} {k : Sys2Proof.HartAccess} {a : Nat} (h_s : Kept s0 s) : Kept s0 (State.narrow s m self k a) := by
  unfold State.narrow
  with_reducible repeat' first | assumption | intro _ | apply State.trapAt_kept | apply State.say_kept | apply State.start_kept | apply State.busError_kept | apply Kept.ite | dsimp only | split

theorem State.busRead_kept {s0 : State} {s : State} {m : Nat} {self : Nat} {a : Nat} {n : Nat} (h_s : Kept s0 s) : Kept s0 (State.busRead s m self a n) := by
  unfold State.busRead
  with_reducible repeat' first | assumption | intro _ | apply State.narrow_kept | apply State.readReg_kept | apply State.busError_kept | apply Kept.ite | dsimp only | split

theorem execRcRead_kept {s0 : State} {m : Nat} {self : Nat} {a : Nat} {n : Nat} {s : State} (h_s : Kept s0 s) : KeptR s0 (execRcRead m self a n s) := by
  unfold execRcRead
  with_reducible repeat' first | assumption | intro _ | apply State.busRead_kept | apply State.start_kept | apply KeptR.next | dsimp only | split

theorem execLowWordRead_kept {s0 : State} {m : Nat} {self : Nat} {a : Nat} {s : State} (h_s : Kept s0 s) : KeptR s0 (execLowWordRead m self a s) := by
  unfold execLowWordRead
  with_reducible repeat' first | assumption | intro _ | apply answer_kept | apply State.busRead_kept | apply State.start_kept | apply KeptR.next | dsimp only | split

theorem State.nvmeCfg_kept {s0 : State} {s : State} {m : Nat} {w : Sys2Proof.Word} (h_s : Kept s0 s) : Kept s0 (State.nvmeCfg s m w) := by
  unfold State.nvmeCfg
  with_reducible repeat' first | assumption | intro _ | apply State.setF_kept | apply State.wr_kept | apply State.setMover_kept | apply Kept.ite | dsimp only | split

theorem State.hbxCfg_kept {s0 : State} {s : State} {i : Nat} {w : Sys2Proof.Word} (h_s : Kept s0 s) : Kept s0 (State.hbxCfg s i w) := by
  unfold State.hbxCfg
  with_reducible repeat' first | assumption | intro _ | apply State.hbxHolds_kept | apply State.wr_kept | dsimp only | split

theorem State.hbxCtrl_kept {s0 : State} {s : State} {w : Sys2Proof.Word} (h_s : Kept s0 s) : Kept s0 (State.hbxCtrl s w) := by
  unfold State.hbxCtrl
  with_reducible repeat' first | assumption | intro _ | apply State.setF_kept | apply State.wr_kept | apply Kept.ite | dsimp only | split

theorem State.pciCfg_kept {s0 : State} {s : State} {p : Nat} {d : RegDesc} {w : Sys2Proof.Word} (h_s : Kept s0 s) : Kept s0 (State.pciCfg s p d w) := by
  unfold State.pciCfg
  with_reducible repeat' first | assumption | intro _ | apply State.wr_kept | apply State.perstBall_kept | apply State.setPport_kept | apply Kept.ite | dsimp only | split

theorem State.loadCommand_kept {s0 : State} {s : State} {w : Sys2Proof.Word} (h_s : Kept s0 s) : Kept s0 (State.loadCommand s w) := by
  unfold State.loadCommand
  with_reducible repeat' first | assumption | intro _ | apply State.admitCmd_kept | apply State.unload_kept | apply Kept.ite | dsimp only | split

theorem State.queueCtrl_kept {s0 : State} {s : State} {q : Nat} {w : Sys2Proof.Word} (h_s : Kept s0 s) : Kept s0 (State.queueCtrl s q w) := by
  unfold State.queueCtrl
  with_reducible repeat' first | assumption | intro _ | apply State.cancelTask_kept | apply State.cancelAll_kept | apply State.unhalt_kept | apply Kept.ite | dsimp only | split

theorem State.zthCfg_kept {s0 : State} {s : State} {p : Nat} {d : RegDesc} {w : Sys2Proof.Word} (h_s : Kept s0 s) : Kept s0 (State.zthCfg s p d w) := by
  unfold State.zthCfg
  with_reducible repeat' first | assumption | intro _ | apply State.zEnable_kept | apply State.zDisable_kept | apply State.wr_kept | apply State.zRetrainNow_kept | apply Kept.ite | dsimp only | split

theorem State.spCtl_kept {s0 : State} {s : State} {c : Nat} {d : RegDesc} {w : Sys2Proof.Word} (h_s : Kept s0 s) : Kept s0 (State.spCtl s c d w) := by
  unfold State.spCtl
  with_reducible repeat' first | assumption | intro _ | apply State.wr_kept | apply State.setCtx_kept | dsimp only | split

theorem State.policy_kept {s0 : State} {s : State} {w : Sys2Proof.Word} (h_s : Kept s0 s) : Kept s0 (State.policy s w) := by
  unfold State.policy
  with_reducible repeat' first | assumption | intro _ | apply State.wr_kept | apply Kept.ite | dsimp only | split

theorem State.pdRegister_kept {s0 : State} {s : State} {d : Nat} {w : Sys2Proof.Word} (h_s : Kept s0 s) : Kept s0 (State.pdRegister s d w) := by
  unfold State.pdRegister
  with_reducible repeat' first | assumption | intro _ | apply State.pdWrite_kept | apply State.setF_kept | apply Kept.ite | dsimp only | split

theorem State.ownDck_kept {s0 : State} {s : State} {b : Nat} {i : Nat → Nat} {w : Sys2Proof.Word} (h_s : Kept s0 s) : KeptO s0 (State.ownDck s b i w) := by
  unfold State.ownDck
  with_reducible repeat' first | assumption | intro _ | apply State.loadCommand_kept | apply State.cellSet_kept | apply State.cellAdd_kept | apply State.writeCfg_kept | apply State.ringBell_kept | apply State.writeCplHead_kept | apply State.queueCtrl_kept | apply State.quiGo_kept | apply KeptO.none | apply KeptO.some | apply KeptO.ite | apply Kept.ite | dsimp only | split

theorem State.ownMid_kept {s0 : State} {s : State} {b : Nat} {i : Nat → Nat} {w : Sys2Proof.Word} (h_s : Kept s0 s) : KeptO s0 (State.ownMid s b i w) := by
  unfold State.ownMid
  with_reducible repeat' first | assumption | intro _ | apply State.writeSplit_kept | apply State.pmvCfg_kept | apply State.pmvBell_kept | apply State.nvmeCfg_kept | apply State.hbxMatchWrite_kept | apply State.hbxCtrl_kept | apply State.setF_kept | apply State.hbxCfg_kept | apply State.hbxHeldWrite_kept | apply State.hbxClassWrite_kept | apply State.brokeEnable_kept | apply State.brokePop_kept | apply State.ftWrite_kept | apply State.policy_kept | apply State.timRateSet_kept | apply State.timCtrl_kept | apply State.epochHi_kept | apply KeptO.none | apply KeptO.some | apply KeptO.ite | apply Kept.ite | dsimp only | split

theorem State.ownPorts_kept {s0 : State} {s : State} {m : Nat} {b : Nat} {i : Nat → Nat} {d : RegDesc} {a : Nat} {w : Sys2Proof.Word} (h_s : Kept s0 s) : KeptO s0 (State.ownPorts s m b i d a w) := by
  unfold State.ownPorts
  with_reducible repeat' first | assumption | intro _ | apply State.ethQcfg_kept | apply State.clsCommit_kept | apply State.hold_kept | apply State.gateCtrl_kept | apply State.ethBell_kept | apply State.zthCfg_kept | apply State.routeWrite_kept | apply State.csiCfg_kept | apply State.csiCtxCfg_kept | apply State.csiBell_kept | apply State.pciCfg_kept | apply State.pMsix_kept | apply State.xspGo_kept | apply State.canCfg_kept | apply State.canCtrl_kept | apply State.canReq_kept | apply State.canBell_kept | apply State.pinSet_kept | apply KeptO.none | apply KeptO.some | apply KeptO.ite | apply Kept.ite | dsimp only | split

theorem State.ownSys_kept {s0 : State} {s : State} {m : Nat} {self : Nat} {b : Nat} {i : Nat → Nat} {d : RegDesc} {w : Sys2Proof.Word} (h_s : Kept s0 s) : KeptO s0 (State.ownSys s m self b i d w) := by
  unfold State.ownSys
  repeat' first | with_reducible assumption | with_reducible intro _ | with_reducible apply State.ownAplic_kept | (refine State.ownAplic_kept ?_ _ (by with_reducible assumption)) | with_reducible apply State.ownIommu_kept | (refine State.ownIommu_kept ?_ _ (by with_reducible assumption)) | with_reducible apply State.hartCtrl_kept | with_reducible apply State.imsicWrite_kept | with_reducible apply State.fmtLo_kept | with_reducible apply State.fmtHi_kept | with_reducible apply State.mbxDb_kept | with_reducible apply State.rtcSetWord_kept | with_reducible apply State.rtcCtrl_kept | with_reducible apply State.capWrite_kept | with_reducible apply State.restoreAsk_kept | with_reducible apply State.pdRegister_kept | with_reducible apply State.tltCtrl_kept | with_reducible apply State.tltCfg_kept | with_reducible apply State.lawCmd_kept | with_reducible apply State.spCtl_kept | with_reducible apply State.testCfg_kept | with_reducible apply State.tltInput_kept | with_reducible apply State.tltCommit_kept | with_reducible apply KeptO.none | with_reducible apply KeptO.some | with_reducible apply KeptO.ite | with_reducible apply Kept.ite | dsimp only | split

theorem State.writeReg_kept {s0 : State} {s : State} {m : Nat} {self : Nat} {a : Nat} {w : Sys2Proof.Word} (h_s : Kept s0 s) : Kept s0 (State.writeReg s m self a w) := by
  have main : ∀ (own : Option State) (k : State), KeptO s0 own → Kept s0 k → Kept s0 (match own with | some t => t | none => k) := by
    intro own k ho hk
    cases own with
    | none => exact hk
    | some t => exact ho t rfl
  delta State.writeReg
  split
  · exact h_s
  · refine main _ _ ?_ (Kept.ite (State.senseAt_kept (State.wr_kept h_s)) h_s)
    split
    · rename_i u hu
      exact .some (State.ownDck_kept h_s _ hu)
    · split
      · rename_i u hu
        exact .some (State.ownMid_kept h_s _ hu)
      · split
        · rename_i u hu
          exact .some (State.ownPorts_kept h_s _ hu)
        · exact State.ownSys_kept h_s

theorem State.busWrite_kept {s0 : State} {s : State} {m : Nat} {self : Nat} {a : Nat} {n : Nat} {w : Sys2Proof.Word} (h_s : Kept s0 s) : Kept s0 (State.busWrite s m self a n w) := by
  unfold State.busWrite
  with_reducible repeat' first | assumption | intro _ | apply State.narrow_kept | apply State.writeReg_kept | apply State.busError_kept | apply Kept.ite | dsimp only | split

theorem execRegisterWrite_kept {s0 : State} {m : Nat} {self : Nat} {a : Nat} {n : Nat} {w : Nat} {s : State} (h_s : Kept s0 s) : KeptR s0 (execRegisterWrite m self a n w s) := by
  unfold execRegisterWrite
  with_reducible repeat' first | assumption | intro _ | apply State.busWrite_kept | apply State.start_kept | apply KeptR.next | dsimp only | split

/-! ## Machine/Image.lean -/

theorem State.imgSet_kept {s0 : State} {s : State} {a : Nat} {w : Sys2Proof.Word} (h_s : Kept s0 s) : Kept s0 (State.imgSet s a w) := by
  unfold State.imgSet
  with_reducible repeat' first | assumption | intro _ | apply State.wr_kept | dsimp only | split | apply Kept.mk

theorem State.vfLoad_kept {s0 : State} {s : State} {rd : Nat → Nat → Nat} (h_s : Kept s0 s) : Kept s0 (State.vfLoad s rd) := by
  unfold State.vfLoad
  with_reducible repeat' first | assumption | intro _ | dsimp only | split | apply Kept.mk

theorem State.seqRun_kept {s0 : State} {s : State} {l : List (Nat × Nat)} {fail : Option (Nat × Nat)} (h_s : Kept s0 s) : Kept s0 (State.seqRun s l fail) := by
  unfold State.seqRun
  with_reducible repeat' first | assumption | intro _ | apply State.setPd_kept | apply State.railSwitch_kept | apply Kept.ite | apply Kept.fold | apply Kept.fold1 | dsimp only | split

theorem State.pinLoad_kept {s0 : State} {s : State} {n : Nat} {w : Sys2Proof.Word} (h_s : Kept s0 s) : Kept s0 (State.pinLoad s n w) := by
  unfold State.pinLoad
  with_reducible repeat' first | assumption | intro _ | apply State.setPin_kept | apply State.imgSet_kept | apply Kept.ite | dsimp only | split

theorem State.pinMuxLoad_kept {s0 : State} {s : State} {rd : Nat → Nat → Nat} (h_s : Kept s0 s) : Kept s0 (State.pinMuxLoad s rd) := by
  unfold State.pinMuxLoad
  with_reducible repeat' first | assumption | intro _ | apply State.pinLoad_kept | apply Kept.fold | apply Kept.fold1 | dsimp only | split

theorem State.partLoad_kept {s0 : State} {s : State} {p : Nat} {r : Nat → Nat → Nat} (h_s : Kept s0 s) : Kept s0 (State.partLoad s p r) := by
  unfold State.partLoad
  with_reducible repeat' first | assumption | intro _ | apply State.imgSet_kept | apply Kept.fold | apply Kept.fold1 | dsimp only | split

theorem State.partsLoad_kept {s0 : State} {s : State} {rd : Nat → Nat → Nat} (h_s : Kept s0 s) : Kept s0 (State.partsLoad s rd) := by
  unfold State.partsLoad
  with_reducible repeat' first | assumption | intro _ | apply State.partLoad_kept | apply Kept.fold | apply Kept.fold1 | dsimp only | split

theorem State.hbxLoad_kept {s0 : State} {s : State} {rd : Nat → Nat → Nat} (h_s : Kept s0 s) : Kept s0 (State.hbxLoad s rd) := by
  unfold State.hbxLoad
  with_reducible repeat' first | assumption | intro _ | apply State.imgSet_kept | apply Kept.ite | apply Kept.fold | apply Kept.fold1 | dsimp only | split

theorem State.formatsLoad_kept {s0 : State} {s : State} {rd : Nat → Nat → Nat} (h_s : Kept s0 s) : Kept s0 (State.formatsLoad s rd) := by
  unfold State.formatsLoad
  with_reducible repeat' first | assumption | intro _ | apply State.imgSet_kept | apply Kept.fold | apply Kept.fold1 | dsimp only | split

theorem State.thermalLoad_kept {s0 : State} {s : State} {rd : Nat → Nat → Nat} (h_s : Kept s0 s) : Kept s0 (State.thermalLoad s rd) := by
  unfold State.thermalLoad
  with_reducible repeat' first | assumption | intro _ | apply State.imgSet_kept | apply Kept.fold | apply Kept.fold1 | dsimp only | split | apply Kept.mk

theorem State.tiltLoadOne_kept {s0 : State} {s : State} {rd : Nat → Nat → Nat} {c : Nat} (h_s : Kept s0 s) : Kept s0 (State.tiltLoadOne s rd c) := by
  unfold State.tiltLoadOne
  with_reducible repeat' first | assumption | intro _ | apply State.imgSet_kept | apply State.setCtx_kept | apply Kept.ite | apply Kept.fold | apply Kept.fold1 | dsimp only | split

theorem State.tiltLoad_kept {s0 : State} {s : State} {rd : Nat → Nat → Nat} (h_s : Kept s0 s) : Kept s0 (State.tiltLoad s rd) := by
  unfold State.tiltLoad
  with_reducible repeat' first | assumption | intro _ | apply State.tiltLoadOne_kept | apply Kept.fold | apply Kept.fold1 | dsimp only | split | apply Kept.mk

theorem State.loamLoad_kept {s0 : State} {s : State} {rd : Nat → Nat → Nat} {by' : Nat → Nat → List Sys2Proof.Byte} (h_s : Kept s0 s) : Kept s0 (State.loamLoad s rd by') := by
  unfold State.loamLoad
  with_reducible repeat' first | assumption | intro _ | apply Kept.ite | apply Kept.fold | apply Kept.fold1 | dsimp only | split | apply Kept.mk

theorem State.settingLoad_kept {s0 : State} {s : State} {a : Nat} {v : Nat} (h_s : Kept s0 s) : Kept s0 (State.settingLoad s a v) := by
  unfold State.settingLoad
  with_reducible repeat' first | assumption | intro _ | apply State.writeReg_kept | dsimp only | split | apply Kept.mk

theorem State.settingsLoad_kept {s0 : State} {s : State} {rd : Nat → Nat → Nat} {size : Nat} {mem : Bool} (h_s : Kept s0 s) : Kept s0 (State.settingsLoad s rd size mem) := by
  unfold State.settingsLoad
  with_reducible repeat' first | assumption | intro _ | apply State.settingLoad_kept | apply Kept.fold | apply Kept.fold1 | dsimp only | split

theorem State.sectionLoad_kept {s0 : State} {s : State} {k : Nat} {e : ImgSection} (h_s : Kept s0 s) : Kept s0 (State.sectionLoad s k e) := by
  unfold State.sectionLoad
  with_reducible repeat' first | assumption | intro _ | apply State.vfLoad_kept | apply State.pinMuxLoad_kept | apply State.partsLoad_kept | apply State.hbxLoad_kept | apply State.formatsLoad_kept | apply State.thermalLoad_kept | apply State.tiltLoad_kept | apply State.loamLoad_kept | apply State.settingsLoad_kept | dsimp only | split

/-! ## Machine/Boot.lean -/

theorem State.bootLog_kept {s0 : State} {s : State} {code : Nat} (h_s : Kept s0 s) : Kept s0 (State.bootLog s code) := by
  unfold State.bootLog
  with_reducible repeat' first | assumption | intro _ | apply State.logEvent_kept | dsimp only | split

theorem State.bootStop_kept {s0 : State} {s : State} {code : Nat} {flashOk : Bool} (h_s : Kept s0 s) : Kept s0 (State.bootStop s code flashOk) := by
  unfold State.bootStop
  with_reducible repeat' first | assumption | intro _ | apply State.setF_kept | apply State.emit_kept | apply State.bootLog_kept | apply Kept.ite | dsimp only | split

theorem State.slotReason_kept {s0 : State} {s : State} {k : Nat} {reason : Nat} {sect : Nat} (h_s : Kept s0 s) : Kept s0 (State.slotReason s k reason sect) := by
  unfold State.slotReason
  with_reducible repeat' first | assumption | intro _ | apply State.setF_kept | dsimp only | split

theorem State.bootStep2_kept {s0 : State} {s : State} (h_s : Kept s0 s) : Kept s0 (State.bootStep2 s) := by
  unfold State.bootStep2
  with_reducible repeat' first | assumption | intro _ | apply State.logScan_kept | apply State.setF_kept | apply State.wr_kept | apply State.logEvent_kept | apply State.putAll_kept | apply Kept.ite | dsimp only | split | apply Kept.mk

theorem State.bootStep3_kept {s0 : State} {s : State} {env : Sys2Proof.BootEnv} (h_s : Kept s0 s) : Kept s0 (State.bootStep3 s env) := by
  unfold State.bootStep3
  with_reducible repeat' first | assumption | intro _ | apply State.setF_kept | apply State.slotReason_kept | apply Kept.ite | apply Kept.fold | apply Kept.fold1 | dsimp only | split

theorem State.powerStop_kept {s0 : State} {s : State} {e : Nat × Nat} (h_s : Kept s0 s) : Kept s0 (State.powerStop s e) := by
  unfold State.powerStop
  with_reducible repeat' first | assumption | intro _ | apply State.wr_kept | dsimp only | split

theorem State.bootPower_kept {s0 : State} {s : State} {k : Nat} {e : ImgSection} {env : Sys2Proof.BootEnv} (h_s : Kept s0 s) : Kept s0 (State.bootPower s k e env).1 := by
  unfold State.bootPower
  with_reducible repeat' first | assumption | intro _ | apply State.powerStop_kept | apply State.seqRun_kept | apply Kept.ite1 | apply Kept.ite | dsimp only | split

theorem State.bootSection_kept {s0 : State} {k : Nat} {env : BootEnv} {acc : State × BootEnd} {e : ImgSection} (h : Kept s0 acc.1) :
    Kept s0 (State.bootSection k env acc e).1 := by
  unfold State.bootSection
  repeat' first | with_reducible assumption | with_reducible apply State.bootPower_kept | with_reducible apply State.sectionLoad_kept | with_reducible apply Kept.ite1 | dsimp only | split

theorem State.bootStep4_kept {s0 : State} {s : State} {k : Nat} {env : Sys2Proof.BootEnv} (h_s : Kept s0 s) : Kept s0 (State.bootStep4 s k env).1 := by
  unfold State.bootStep4
  with_reducible repeat' first | assumption | intro _ | apply State.bootSection_kept | apply State.setF_kept | apply Kept.fold | apply Kept.fold1 | dsimp only | split

theorem State.bootDomains_kept {s0 : State} {s : State} {l : List Nat} {env : Sys2Proof.BootEnv} (h_s : Kept s0 s) : Kept s0 (State.bootDomains s l env).1 := by
  unfold State.bootDomains
  with_reducible repeat' first | assumption | intro _ | apply State.domainUp_kept | apply State.powerStop_kept | apply Kept.ite1 | apply Kept.ite | apply Kept.fold | apply Kept.fold1 | dsimp only | split

theorem State.siteResult_kept {s0 : State} {s : State} {env : Sys2Proof.BootEnv} {trained : Bool} {n : Nat} (h_s : Kept s0 s) : Kept s0 (State.siteResult s env trained n) := by
  unfold State.siteResult
  with_reducible repeat' first | assumption | intro _ | apply State.setF_kept | apply State.wr_kept | apply Kept.ite | dsimp only | split

theorem State.bootMemory_kept {s0 : State} {s : State} {env : Sys2Proof.BootEnv} (h_s : Kept s0 s) : Kept s0 (State.bootMemory s env).1 := by
  unfold State.bootMemory
  with_reducible repeat' first | assumption | intro _ | apply State.siteResult_kept | apply State.memLost_kept | apply State.setF_kept | apply State.initPool_kept | apply Kept.ite1 | apply Kept.ite | apply Kept.fold | apply Kept.fold1 | dsimp only | split

theorem State.bootTests_kept {s0 : State} {n : Nat} {tj : Int} : ∀ {l : List BootTest} {s : State}, Kept s0 s → Kept s0 (State.bootTests n tj l s)
  | [], _, h => State.passTest_kept (State.startTest_kept h)
  | x :: l, s, h => by
    unfold State.bootTests
    repeat' first | with_reducible assumption | with_reducible apply State.bootTests_kept | with_reducible apply State.passTest_kept | with_reducible apply State.startTest_kept | with_reducible apply State.retireCluster_kept | with_reducible apply State.commitRepair_kept | with_reducible apply State.locateFault_kept | with_reducible apply State.ftFail_kept | with_reducible apply Kept.ite | dsimp only

theorem State.bootClusters_kept {s0 : State} {s : State} {env : Sys2Proof.BootEnv} (h_s : Kept s0 s) : Kept s0 (State.bootClusters s env) := by
  unfold State.bootClusters
  with_reducible repeat' first | assumption | intro _ | apply State.bootTests_kept | apply Kept.fold | apply Kept.fold1 | dsimp only | split

theorem State.bootHeld_kept {s0 : State} {s : State} {k : Nat} (h_s : Kept s0 s) : Kept s0 (State.bootHeld s k) := by
  unfold State.bootHeld
  with_reducible repeat' first | assumption | intro _ | apply State.settingsLoad_kept | dsimp only | split

theorem State.bootStep5_kept {s0 : State} {s : State} {k : Nat} {env : Sys2Proof.BootEnv} (h_s : Kept s0 s) : Kept s0 (State.bootStep5 s k env).1 := by
  unfold State.bootStep5
  with_reducible repeat' first | assumption | intro _ | apply State.bootDomains_kept | apply State.setF_kept | apply State.bootMemory_kept | apply State.bootHeld_kept | apply State.bootClusters_kept | dsimp only | split

theorem State.bootLocks_kept {s0 : State} {s : State} (h_s : Kept s0 s) : Kept s0 (State.bootLocks s) := by
  unfold State.bootLocks
  with_reducible repeat' first | assumption | intro _ | apply State.setF_kept | apply Kept.ite | dsimp only | split

theorem State.bootHandoff_kept {s0 : State} {s : State} {k : Nat} {e : ImgSection} (h_s : Kept s0 s) : Kept s0 (State.bootHandoff s k e) := by
  unfold State.bootHandoff
  with_reducible repeat' first | assumption | intro _ | apply State.put_kept | apply State.bootLocks_kept | apply State.setHart_kept | apply State.putAll_kept | apply State.setF_kept | apply State.tltCfg_kept | apply State.bootLog_kept | apply Kept.fold | apply Kept.fold1 | dsimp only | split | apply Kept.mk

theorem State.bootStep6_kept {s0 : State} {s : State} {k : Nat} {env : Sys2Proof.BootEnv} (h_s : Kept s0 s) : Kept s0 (State.bootStep6 s k env).1 := by
  unfold State.bootStep6
  with_reducible repeat' first | assumption | intro _ | apply State.setF_kept | apply State.bootHandoff_kept | apply Kept.ite1 | apply Kept.ite | dsimp only | split

theorem State.bootSlot_kept {s0 : State} {s : State} {k : Nat} {env : Sys2Proof.BootEnv} (h_s : Kept s0 s) : Kept s0 (State.bootSlot s k env).1 := by
  unfold State.bootSlot
  with_reducible repeat' first | assumption | intro _ | apply State.bootStep4_kept | apply State.setF_kept | apply State.bootStep5_kept | apply State.bootStep6_kept | dsimp only | split

theorem State.undoSlot_kept {s0 : State} {s : State} {k : Nat} (h_s : Kept s0 s) : Kept s0 (State.undoSlot s k) := by
  unfold State.undoSlot
  with_reducible repeat' first | assumption | intro _ | apply State.domainOff_kept | apply State.resetRegs_kept | apply Kept.fold | apply Kept.fold1 | dsimp only | split | apply Kept.mk

theorem State.bootSlots_kept {s0 : State} {s : State} {k : Nat} {both : Bool} {env : Sys2Proof.BootEnv} (h_s : Kept s0 s) : Kept s0 (State.bootSlots s k both env) := by
  unfold State.bootSlots
  with_reducible repeat' first | assumption | intro _ | apply State.bootSlot_kept | apply State.slotReason_kept | apply State.bootStop_kept | apply State.setF_kept | apply State.undoSlot_kept | apply Kept.ite | dsimp only | split

theorem State.bootAll_kept {s0 : State} {s : State} {env : Sys2Proof.BootEnv} (h_s : Kept s0 s) : Kept s0 (State.bootAll s env) := by
  unfold State.bootAll
  with_reducible repeat' first | assumption | intro _ | apply State.bootStep2_kept | apply State.bootStop_kept | apply State.slotReason_kept | apply State.bootStep3_kept | apply State.bootSlots_kept | apply Kept.ite | apply Kept.fold | apply Kept.fold1 | dsimp only | split

theorem State.bootStep1_kept {s0 : State} {s : State} {env : Sys2Proof.BootEnv} (h_s : Kept s0 s) : Kept s0 (State.bootStep1 s env) := by
  unfold State.bootStep1
  with_reducible repeat' first | assumption | intro _ | apply State.setF_kept | apply Kept.ite | dsimp only | split

theorem execStartUp_kept {s0 : State} {env : Sys2Proof.BootEnv} {s : State} (h_s : Kept s0 s) : KeptR s0 (execStartUp env s) := by
  unfold execStartUp
  with_reducible repeat' first | assumption | intro _ | apply answer_kept | apply State.bootAll_kept | apply State.bootStep1_kept | apply State.start_kept | apply KeptR.next | dsimp only | split

/-! ## Machine/EngineCmds.lean -/

theorem State.engFailed_kept {s0 : State} {s : State} {e : Nat} {load : Bool} {o : Op} {out : Option EngOut} (h_s : Kept s0 s) : Kept s0 (State.engFailed s e load o out).1 := by
  unfold State.engFailed
  with_reducible repeat' first | assumption | intro _ | apply State.duneHurt_kept | apply KeptO.map | apply KeptO1.map | apply KeptO1.map1 | apply KeptO.getD | apply Kept.ite1 | apply Kept.ite | dsimp only | split

theorem State.engEnd_kept {s0 : State} {s : State} {e : Nat} {load : Bool} {o : Op} {out : Option EngOut} (h_s : Kept s0 s) : Kept s0 (State.engEnd s e load o out) := by
  unfold State.engEnd
  with_reducible repeat' first | assumption | intro _ | apply State.engLand_kept | apply State.engFailed_kept | apply Kept.ite | dsimp only | split

theorem execEngineOpComplete_kept {s0 : State} {e : Nat} {load : Bool} {s : State} (h_s : Kept s0 s) : KeptR s0 (execEngineOpComplete e load s) := by
  unfold execEngineOpComplete
  with_reducible repeat' first | assumption | intro _ | apply answer_kept | apply State.say_kept | apply State.start_kept | apply State.engEnd_kept | apply KeptR.next | apply KeptO.getD | apply KeptR.ite | apply Kept.ite | dsimp only | split

/-! ## Machine/Jtag.lean -/

theorem State.captureDr_kept {s0 : State} {s : State} (h_s : Kept s0 s) : Kept s0 (State.captureDr s).1 := by
  unfold State.captureDr
  with_reducible repeat' first | assumption | intro _ | apply State.tookFree_kept | dsimp only | split

theorem State.captureIr_kept {s0 : State} {s : State} (h_s : Kept s0 s) : Kept s0 (State.captureIr s).1 := by
  unfold State.captureIr
  with_reducible repeat' first | assumption | intro _ | apply State.tookFree_kept | dsimp only | split

theorem State.tapEdge_kept {s0 : State} {s : State} {tdi : Bool} (h_s : Kept s0 s) : Kept s0 (State.tapEdge s tdi) := by
  unfold State.tapEdge
  with_reducible repeat' first | assumption | intro _ | apply State.captureDr_kept | apply State.captureIr_kept | dsimp only | split | apply Kept.mk

theorem State.boundaryOut_kept {s0 : State} {s : State} {old : Tap} (h_s : Kept s0 s) : Kept s0 (State.boundaryOut s old) := by
  unfold State.boundaryOut
  with_reducible repeat' first | assumption | intro _ | apply State.emit_kept | apply Kept.ite | dsimp only | split

theorem State.tapCycle_kept {s0 : State} {s : State} {tms : Bool} {tdi : Bool} (h_s : Kept s0 s) : Kept s0 (State.tapCycle s tms tdi) := by
  unfold State.tapCycle
  with_reducible repeat' first | assumption | intro _ | apply State.tapEdge_kept | apply State.say_kept | apply Kept.ite | dsimp only | split | apply Kept.mk

theorem execJtagTapCycle_kept {s0 : State} {tms : Bool} {tdi : Bool} {trst : Bool} {s : State} (h_s : Kept s0 s) : KeptR s0 (execJtagTapCycle tms tdi trst s) := by
  unfold execJtagTapCycle
  with_reducible repeat' first | assumption | intro _ | apply State.start_kept | apply State.boundaryOut_kept | apply State.tapCycle_kept | apply KeptR.next | apply KeptR.ite | apply Kept.ite | dsimp only | split | apply Kept.mk

/-! ## Machine/Mailbox.lean -/

theorem State.refuse_kept {s0 : State} {s : State} {status : Nat} (h_s : Kept s0 s) : Kept s0 (State.refuse s status).st := by
  unfold State.refuse
  with_reducible repeat' first | assumption | intro _ | dsimp only | split

theorem State.mbxDone_kept {s0 : State} {s : State} {payload : List Sys2Proof.Byte} (h_s : Kept s0 s) : Kept s0 (State.mbxDone s payload).st := by
  unfold State.mbxDone
  with_reducible repeat' first | assumption | intro _ | dsimp only | split

theorem mbxServe_kept {s0 : State} {op : Nat} {len : Nat → Bool} {f : State → Nat → MbxRes} {s : State}
    (hf : ∀ t c, Kept s0 t → Kept s0 (f t c).st) (h : Kept s0 s) : KeptR s0 (mbxServe op len f s) := by
  unfold mbxServe
  split
  · exact answer_kept h h
  · refine .next (State.respond_kept ?_)
    split
    · exact State.start_kept h
    · split
      · exact State.start_kept h
      · exact hf _ _ (State.start_kept h)

theorem State.mbxOpen_kept {s0 : State} {s : State} {c : Nat} (h_s : Kept s0 s) : Kept s0 (State.mbxOpen s c).st := by
  unfold State.mbxOpen
  with_reducible repeat' first | assumption | intro _ | apply State.refuse_kept | apply State.mbxDone_kept | apply State.setF_kept | apply Kept.ite1 | apply Kept.ite | dsimp only | split

theorem execMbxOpen_kept {s0 : State} {s : State} (h_s : Kept s0 s) : KeptR s0 (execMbxOpen s) := by
  unfold execMbxOpen
  with_reducible repeat' first | assumption | intro _ | apply answer_kept | apply State.start_kept | apply State.mbxOpen_kept | apply State.refuse_kept | apply State.respond_kept | apply KeptR.next | apply KeptR.ite | apply Kept.ite | dsimp only | split

theorem execMbxClose_kept {s0 : State} {s : State} (h_s : Kept s0 s) : KeptR s0 (execMbxClose s) := by
  unfold execMbxClose
  with_reducible repeat' first | assumption | intro _ | apply mbxServe_kept | apply State.mbxDone_kept | apply State.setF_kept | apply KeptR.next | dsimp only | split

theorem execMbxInfo_kept {s0 : State} {s : State} (h_s : Kept s0 s) : KeptR s0 (execMbxInfo s) := by
  unfold execMbxInfo
  with_reducible repeat' first | assumption | intro _ | apply mbxServe_kept | apply State.mbxDone_kept | apply KeptR.next | dsimp only | split

theorem State.mbxFmt_kept {s0 : State} {s : State} {c : Nat} (h_s : Kept s0 s) : Kept s0 (State.mbxFmt s c).st := by
  unfold State.mbxFmt
  with_reducible repeat' first | assumption | intro _ | apply State.refuse_kept | apply State.mbxDone_kept | apply State.fmtHi_kept | apply State.fmtLo_kept | apply Kept.ite1 | apply Kept.ite | dsimp only | split

theorem execFmtWrite_kept {s0 : State} {s : State} (h_s : Kept s0 s) : KeptR s0 (execFmtWrite s) := by
  unfold execFmtWrite
  with_reducible repeat' first | assumption | intro _ | apply mbxServe_kept | apply State.mbxFmt_kept | apply KeptR.next | dsimp only | split

theorem State.mbxPart_kept {s0 : State} {s : State} {c : Nat} (h_s : Kept s0 s) : Kept s0 (State.mbxPart s c).st := by
  unfold State.mbxPart
  with_reducible repeat' first | assumption | intro _ | apply State.refuse_kept | apply State.mbxDone_kept | apply State.initPool_kept | apply State.wr_kept | apply Kept.ite1 | apply Kept.ite | apply Kept.fold | apply Kept.fold1 | dsimp only | split

theorem execPartWrite_kept {s0 : State} {s : State} (h_s : Kept s0 s) : KeptR s0 (execPartWrite s) := by
  unfold execPartWrite
  with_reducible repeat' first | assumption | intro _ | apply mbxServe_kept | apply State.mbxPart_kept | apply KeptR.next | dsimp only | split

theorem State.mbxHbx_kept {s0 : State} {s : State} {c : Nat} (h_s : Kept s0 s) : Kept s0 (State.mbxHbx s c).st := by
  unfold State.mbxHbx
  with_reducible repeat' first | assumption | intro _ | apply State.refuse_kept | apply State.mbxDone_kept | apply State.writeReg_kept | apply State.hbxCopied_kept | apply Kept.ite1 | apply Kept.ite | apply Kept.fold | apply Kept.fold1 | dsimp only | split

theorem execHbxWrite_kept {s0 : State} {s : State} (h_s : Kept s0 s) : KeptR s0 (execHbxWrite s) := by
  unfold execHbxWrite
  with_reducible repeat' first | assumption | intro _ | apply mbxServe_kept | apply State.mbxHbx_kept | apply KeptR.next | dsimp only | split

theorem State.mbxPin_kept {s0 : State} {s : State} {c : Nat} (h_s : Kept s0 s) : Kept s0 (State.mbxPin s c).st := by
  unfold State.mbxPin
  with_reducible repeat' first | assumption | intro _ | apply State.refuse_kept | apply State.mbxDone_kept | apply State.pinSet_kept | apply Kept.ite1 | apply Kept.ite | dsimp only | split

theorem execPinWrite_kept {s0 : State} {s : State} (h_s : Kept s0 s) : KeptR s0 (execPinWrite s) := by
  unfold execPinWrite
  with_reducible repeat' first | assumption | intro _ | apply mbxServe_kept | apply State.mbxPin_kept | apply KeptR.next | dsimp only | split

theorem State.mbxLog_kept {s0 : State} {s : State} {c : Nat} (h_s : Kept s0 s) : Kept s0 (State.mbxLog s c).st := by
  unfold State.mbxLog
  with_reducible repeat' first | assumption | intro _ | apply State.refuse_kept | apply State.mbxDone_kept | apply Kept.ite1 | apply Kept.ite | dsimp only | split

theorem execLogRead_kept {s0 : State} {s : State} (h_s : Kept s0 s) : KeptR s0 (execLogRead s) := by
  unfold execLogRead
  with_reducible repeat' first | assumption | intro _ | apply mbxServe_kept | apply State.mbxLog_kept | apply KeptR.next | dsimp only | split

theorem State.setSession_kept {s0 : State} {s : State} {x : Option Session} (h_s : Kept s0 s) : Kept s0 (State.setSession s x) := by
  unfold State.setSession
  with_reducible repeat' first | assumption | intro _ | dsimp only | split | apply Kept.mk

theorem State.updateLog_kept {s0 : State} {s : State} {code : Nat} (h_s : Kept s0 s) : Kept s0 (State.updateLog s code) := by
  unfold State.updateLog
  with_reducible repeat' first | assumption | intro _ | apply State.logEvent_kept | dsimp only | split

theorem State.slotErase_kept {s0 : State} {s : State} {k : Nat} {err : Option Nat} (h_s : Kept s0 s) : Kept s0 (State.slotErase s k err) := by
  unfold State.slotErase
  with_reducible repeat' first | assumption | intro _ | apply State.flashErase_kept | apply State.flashSpoil_kept | apply Kept.ite | apply Kept.fold | apply Kept.fold1 | dsimp only | split

theorem execUpdateBegin_kept {s0 : State} {err : Option Nat} {s : State} (h_s : Kept s0 s) : KeptR s0 (execUpdateBegin err s) := by
  unfold execUpdateBegin
  with_reducible repeat' first | assumption | intro _ | apply mbxServe_kept | apply State.refuse_kept | apply State.slotErase_kept | apply State.mbxDone_kept | apply State.updateLog_kept | apply State.setSession_kept | apply KeptR.next | apply KeptR.ite | apply Kept.ite | dsimp only | split

theorem State.inSession_kept {s0 : State} {s : State} {c : Nat} {f : Session → MbxRes} (hf : ∀ x, Kept s0 (f x).st) (h : Kept s0 s) :
    Kept s0 (State.inSession s c f).st := by
  unfold State.inSession
  split
  · exact h
  · split
    · exact h
    · exact hf _

theorem State.updateWrite_kept {s0 : State} {s : State} {c : Nat} {err : Bool} {x : Session} (h_s : Kept s0 s) : Kept s0 (State.updateWrite s c err x).st := by
  unfold State.updateWrite
  with_reducible repeat' first | assumption | intro _ | apply State.refuse_kept | apply State.setSession_kept | apply State.flashSpoil_kept | apply State.mbxDone_kept | apply State.flashProgram_kept | apply Kept.ite1 | apply Kept.ite | dsimp only | split

theorem execUpdateWrite_kept {s0 : State} {err : Bool} {s : State} (h_s : Kept s0 s) : KeptR s0 (execUpdateWrite err s) := by
  unfold execUpdateWrite
  with_reducible repeat' first | assumption | intro _ | apply answer_kept | apply mbxServe_kept | apply State.inSession_kept | apply State.updateWrite_kept | apply KeptR.next | apply KeptR.ite | apply Kept.ite | dsimp only | split

theorem State.updateCommit_kept {s0 : State} {s : State} {err : Nat} (h_s : Kept s0 s) : Kept s0 (State.updateCommit s err).st := by
  unfold State.updateCommit
  with_reducible repeat' first | assumption | intro _ | apply State.refuse_kept | apply State.setSession_kept | apply State.updateLog_kept | apply State.tookFree_kept | apply State.flashSpoil_kept | apply State.mbxDone_kept | apply State.flashProgram_kept | apply KeptO.getD | apply Kept.ite1 | apply Kept.ite | dsimp only | split

theorem execUpdateCommit_kept {s0 : State} {err : Nat} {s : State} (h_s : Kept s0 s) : KeptR s0 (execUpdateCommit err s) := by
  unfold execUpdateCommit
  with_reducible repeat' first | assumption | intro _ | apply mbxServe_kept | apply State.inSession_kept | apply State.updateCommit_kept | apply KeptR.next | dsimp only | split

theorem execUpdateAbort_kept {s0 : State} {err : Bool} {s : State} (h_s : Kept s0 s) : KeptR s0 (execUpdateAbort err s) := by
  unfold execUpdateAbort
  with_reducible repeat' first | assumption | intro _ | apply mbxServe_kept | apply State.inSession_kept | apply State.refuse_kept | apply State.setSession_kept | apply State.slotErase_kept | apply State.mbxDone_kept | apply State.updateLog_kept | apply State.flashErase_kept | apply KeptR.next | apply KeptR.ite | apply Kept.ite | dsimp only | split

theorem execRollbackAdvance_kept {s0 : State} {s : State} (h_s : Kept s0 s) : KeptR s0 (execRollbackAdvance s) := by
  unfold execRollbackAdvance
  with_reducible repeat' first | assumption | intro _ | apply mbxServe_kept | apply State.mbxDone_kept | apply State.updateLog_kept | apply KeptR.next | apply KeptR.ite | apply Kept.ite | dsimp only | split | apply Kept.mk

theorem execFuseKey_kept {s0 : State} {s : State} (h_s : Kept s0 s) : KeptR s0 (execFuseKey s) := by
  unfold execFuseKey
  with_reducible repeat' first | assumption | intro _ | apply mbxServe_kept | apply State.refuse_kept | apply State.mbxDone_kept | apply State.updateLog_kept | apply KeptR.next | apply KeptR.ite | apply Kept.ite | dsimp only | split | apply Kept.mk

theorem execModuleReset_kept {s0 : State} {s : State} (h_s : Kept s0 s) : KeptR s0 (execModuleReset s) := by
  unfold execModuleReset
  with_reducible repeat' first | assumption | intro _ | apply mbxServe_kept | apply State.mbxDone_kept | apply KeptR.next | dsimp only | split | apply Kept.mk

end Sys2Proof.Machine
end

