-- ==== Sys2Proof/Laws/Start.lean ====
section
/-! SUPPORT. Putting away the last command's answer and outputs changes nothing that a command reads: one lemma for each reader of the state. -/
namespace Sys2Proof.Machine
set_option maxRecDepth 4000

section
variable (s : State)

@[simp] theorem start_State_acct {x1 x2} : State.acct s.start x1 x2 = State.acct s x1 x2 := rfl
@[simp] theorem start_State_accumulating {x1} : State.accumulating s.start x1 = State.accumulating s x1 := rfl
@[simp] theorem start_State_admitChecks {x1} : State.admitChecks s.start x1 = State.admitChecks s x1 := rfl
@[simp] theorem start_State_admitClusters {x1 x2} : State.admitClusters s.start x1 x2 = State.admitClusters s x1 x2 := rfl
@[simp] theorem start_State_admitEarly {x1} : State.admitEarly s.start x1 = State.admitEarly s x1 := rfl
@[simp] theorem start_State_admitLate {x1 x2 x3} : State.admitLate s.start x1 x2 x3 = State.admitLate s x1 x2 x3 := rfl
@[simp] theorem start_State_admitSlot {x1 x2} : State.admitSlot s.start x1 x2 = State.admitSlot s x1 x2 := rfl
@[simp] theorem start_State_aged {x1} : State.aged s.start x1 = State.aged s x1 := rfl
@[simp] theorem start_State_allSites : State.allSites s.start = State.allSites s := rfl
@[simp] theorem start_State_aplicHas {x1 x2} : State.aplicHas s.start x1 x2 = State.aplicHas s x1 x2 := rfl
@[simp] theorem start_State_aplicIn {x1 x2} : State.aplicIn s.start x1 x2 = State.aplicIn s x1 x2 := rfl
@[simp] theorem start_State_aplicMode {x1} : State.aplicMode s.start x1 = State.aplicMode s x1 := rfl
@[simp] theorem start_State_applyBad {x1 x2 x3 x4 x5} : State.applyBad s.start x1 x2 x3 x4 x5 = State.applyBad s x1 x2 x3 x4 x5 := rfl
@[simp] theorem start_State_arg {x1 x2} : State.arg s.start x1 x2 = State.arg s x1 x2 := rfl
@[simp] theorem start_State_argAddr {x1 x2 x3} : State.argAddr s.start x1 x2 x3 = State.argAddr s x1 x2 x3 := rfl
@[simp] theorem start_State_argsClean {x1 x2} : State.argsClean s.start x1 x2 = State.argsClean s x1 x2 := rfl
@[simp] theorem start_State_atPoint {x1} : State.atPoint s.start x1 = State.atPoint s x1 := rfl
@[simp] theorem start_State_atomicBarred {x1 x2 x3 x4} : State.atomicBarred s.start x1 x2 x3 x4 = State.atomicBarred s x1 x2 x3 x4 := rfl
@[simp] theorem start_State_awaited {x1} : State.awaited s.start x1 = State.awaited s x1 := rfl
@[simp] theorem start_State_awaitsSlot {x1} : State.awaitsSlot s.start x1 = State.awaitsSlot s x1 := rfl
@[simp] theorem start_State_badBlock {x1 x2} : State.badBlock s.start x1 x2 = State.badBlock s x1 x2 := rfl
@[simp] theorem start_State_badDesc {x1} : State.badDesc s.start x1 = State.badDesc s x1 := rfl
@[simp] theorem start_State_badFoot {x1 x2} : State.badFoot s.start x1 x2 = State.badFoot s x1 x2 := rfl
@[simp] theorem start_State_bandKey {x1 x2} : State.bandKey s.start x1 x2 = State.bandKey s x1 x2 := rfl
@[simp] theorem start_State_bankHeld {x1 x2} : State.bankHeld s.start x1 x2 = State.bankHeld s x1 x2 := rfl
@[simp] theorem start_State_batch {x1} : State.batch s.start x1 = State.batch s x1 := rfl
@[simp] theorem start_State_batchWord {x1} : State.batchWord s.start x1 = State.batchWord s x1 := rfl
@[simp] theorem start_State_blameOf {x1} : State.blameOf s.start x1 = State.blameOf s x1 := rfl
@[simp] theorem start_State_blockAddr {x1 x2} : State.blockAddr s.start x1 x2 = State.blockAddr s x1 x2 := rfl
@[simp] theorem start_State_blockOk {x1} : State.blockOk s.start x1 = State.blockOk s x1 := rfl
@[simp] theorem start_State_blocked {x1} : State.blocked s.start x1 = State.blocked s x1 := rfl
@[simp] theorem start_State_bootChoice : State.bootChoice s.start = State.bootChoice s := rfl
@[simp] theorem start_State_bootStatus : State.bootStatus s.start = State.bootStatus s := rfl
@[simp] theorem start_State_boundRank {x1} : State.boundRank s.start x1 = State.boundRank s x1 := rfl
@[simp] theorem start_State_breaks {x1} : State.breaks s.start x1 = State.breaks s x1 := rfl
@[simp] theorem start_State_brokeBase : State.brokeBase s.start = State.brokeBase s := rfl
@[simp] theorem start_State_brokeFill : State.brokeFill s.start = State.brokeFill s := rfl
@[simp] theorem start_State_brokeSize : State.brokeSize s.start = State.brokeSize s := rfl
@[simp] theorem start_State_btrDecode {x1} : State.btrDecode s.start x1 = State.btrDecode s x1 := rfl
@[simp] theorem start_State_btrInputs {x1} : State.btrInputs s.start x1 = State.btrInputs s x1 := rfl
@[simp] theorem start_State_btrNext {x1 x2} : State.btrNext s.start x1 x2 = State.btrNext s x1 x2 := rfl
@[simp] theorem start_State_btrStatus {x1} : State.btrStatus s.start x1 = State.btrStatus s x1 := rfl
@[simp] theorem start_State_budget : State.budget s.start = State.budget s := rfl
@[simp] theorem start_State_byRow {x1} : State.byRow s.start x1 = State.byRow s x1 := rfl
@[simp] theorem start_State_byte {x1} : State.byte s.start x1 = State.byte s x1 := rfl
@[simp] theorem start_State_bytesAt {x1 x2} : State.bytesAt s.start x1 x2 = State.bytesAt s x1 x2 := rfl
@[simp] theorem start_State_calDone {x1} : State.calDone s.start x1 = State.calDone s x1 := rfl
@[simp] theorem start_State_calNext {x1} : State.calNext s.start x1 = State.calNext s x1 := rfl
@[simp] theorem start_State_calStatus {x1} : State.calStatus s.start x1 = State.calStatus s x1 := rfl
@[simp] theorem start_State_can {x1} : State.can s.start x1 = State.can s x1 := rfl
@[simp] theorem start_State_canData {x1} : State.canData s.start x1 = State.canData s x1 := rfl
@[simp] theorem start_State_canDepth {x1 x2} : State.canDepth s.start x1 x2 = State.canDepth s x1 x2 := rfl
@[simp] theorem start_State_canEntry {x1 x2} : State.canEntry s.start x1 x2 = State.canEntry s x1 x2 := rfl
@[simp] theorem start_State_canFilter {x1 x2} : State.canFilter s.start x1 x2 = State.canFilter s x1 x2 := rfl
@[simp] theorem start_State_canFrame {x1 x2} : State.canFrame s.start x1 x2 = State.canFrame s x1 x2 := rfl
@[simp] theorem start_State_canNominal {x1} : State.canNominal s.start x1 = State.canNominal s x1 := rfl
@[simp] theorem start_State_canOffer {x1 x2} : State.canOffer s.start x1 x2 = State.canOffer s x1 x2 := rfl
@[simp] theorem start_State_canOn {x1} : State.canOn s.start x1 = State.canOn s x1 := rfl
@[simp] theorem start_State_canOneShot {x1 x2} : State.canOneShot s.start x1 x2 = State.canOneShot s x1 x2 := rfl
@[simp] theorem start_State_canPending {x1 x2 x3} : State.canPending s.start x1 x2 x3 = State.canPending s x1 x2 x3 := rfl
@[simp] theorem start_State_canTimingOk {x1 x2} : State.canTimingOk s.start x1 x2 = State.canTimingOk s x1 x2 := rfl
@[simp] theorem start_State_canUp {x1} : State.canUp s.start x1 = State.canUp s x1 := rfl
@[simp] theorem start_State_cancelStop {x1 x2} : State.cancelStop s.start x1 x2 = State.cancelStop s x1 x2 := rfl
@[simp] theorem start_State_candidate {x1 x2} : State.candidate s.start x1 x2 = State.candidate s x1 x2 := rfl
@[simp] theorem start_State_capPayload {x1} : State.capPayload s.start x1 = State.capPayload s x1 := rfl
@[simp] theorem start_State_captureBytes {x1} : State.captureBytes s.start x1 = State.captureBytes s x1 := rfl
@[simp] theorem start_State_cell {x1} : State.cell s.start x1 = State.cell s x1 := rfl
@[simp] theorem start_State_cellReached {x1 x2} : State.cellReached s.start x1 x2 = State.cellReached s x1 x2 := rfl
@[simp] theorem start_State_cfgErr {x1 x2} : State.cfgErr s.start x1 x2 = State.cfgErr s x1 x2 := rfl
@[simp] theorem start_State_cfgIdle {x1} : State.cfgIdle s.start x1 = State.cfgIdle s x1 := rfl
@[simp] theorem start_State_chanOf {x1} : State.chanOf s.start x1 = State.chanOf s x1 := rfl
@[simp] theorem start_State_chanOpen {x1} : State.chanOpen s.start x1 = State.chanOpen s x1 := rfl
@[simp] theorem start_State_checkedOf {x1} : State.checkedOf s.start x1 = State.checkedOf s x1 := rfl
@[simp] theorem start_State_choose {x1} : State.choose s.start x1 = State.choose s x1 := rfl
@[simp] theorem start_State_cidPiece {x1 x2} : State.cidPiece s.start x1 x2 = State.cidPiece s x1 x2 := rfl
@[simp] theorem start_State_cl {x1} : State.cl s.start x1 = State.cl s x1 := rfl
@[simp] theorem start_State_clsHits {x1 x2} : State.clsHits s.start x1 x2 = State.clsHits s x1 x2 := rfl
@[simp] theorem start_State_clsMatch {x1 x2 x3} : State.clsMatch s.start x1 x2 x3 = State.clsMatch s x1 x2 x3 := rfl
@[simp] theorem start_State_cluBusy {x1} : State.cluBusy s.start x1 = State.cluBusy s x1 := rfl
@[simp] theorem start_State_cluFree {x1} : State.cluFree s.start x1 = State.cluFree s x1 := rfl
@[simp] theorem start_State_cluPart {x1} : State.cluPart s.start x1 = State.cluPart s x1 := rfl
@[simp] theorem start_State_cluPower {x1} : State.cluPower s.start x1 = State.cluPower s x1 := rfl
@[simp] theorem start_State_cluRoom {x1} : State.cluRoom s.start x1 = State.cluRoom s x1 := rfl
@[simp] theorem start_State_cluStateWord {x1} : State.cluStateWord s.start x1 = State.cluStateWord s x1 := rfl
@[simp] theorem start_State_cluUp {x1} : State.cluUp s.start x1 = State.cluUp s x1 := rfl
@[simp] theorem start_State_commitFault {x1} : State.commitFault s.start x1 = State.commitFault s x1 := rfl
@[simp] theorem start_State_commitRecord {x1} : State.commitRecord s.start x1 = State.commitRecord s x1 := rfl
@[simp] theorem start_State_committed {x1} : State.committed s.start x1 = State.committed s x1 := rfl
@[simp] theorem start_State_conflicts {x1 x2 x3} : State.conflicts s.start x1 x2 x3 = State.conflicts s x1 x2 x3 := rfl
@[simp] theorem start_State_congested {x1 x2} : State.congested s.start x1 x2 = State.congested s x1 x2 := rfl
@[simp] theorem start_State_coreByte {x1} : State.coreByte s.start x1 = State.coreByte s x1 := rfl
@[simp] theorem start_State_cowHeld {x1} : State.cowHeld s.start x1 = State.cowHeld s x1 := rfl
@[simp] theorem start_State_cowMover {x1} : State.cowMover s.start x1 = State.cowMover s x1 := rfl
@[simp] theorem start_State_cowNeed {x1 x2 x3} : State.cowNeed s.start x1 x2 x3 = State.cowNeed s x1 x2 x3 := rfl
@[simp] theorem start_State_cplBase {x1} : State.cplBase s.start x1 = State.cplBase s x1 := rfl
@[simp] theorem start_State_cplFree {x1} : State.cplFree s.start x1 = State.cplFree s x1 := rfl
@[simp] theorem start_State_cplSize {x1} : State.cplSize s.start x1 = State.cplSize s x1 := rfl
@[simp] theorem start_State_cplWritten {x1} : State.cplWritten s.start x1 = State.cplWritten s x1 := rfl
@[simp] theorem start_State_cqAt {x1} : State.cqAt s.start x1 = State.cqAt s x1 := rfl
@[simp] theorem start_State_cqe {x1} : State.cqe s.start x1 = State.cqe s x1 := rfl
@[simp] theorem start_State_cqeNew {x1} : State.cqeNew s.start x1 = State.cqeNew s x1 := rfl
@[simp] theorem start_State_csc {x1 x2 x3} : State.csc s.start x1 x2 x3 = State.csc s x1 x2 x3 := rfl
@[simp] theorem start_State_csi {x1} : State.csi s.start x1 = State.csi s x1 := rfl
@[simp] theorem start_State_csiDepth {x1 x2} : State.csiDepth s.start x1 x2 = State.csiDepth s x1 x2 := rfl
@[simp] theorem start_State_csiDescAddr {x1 x2} : State.csiDescAddr s.start x1 x2 = State.csiDescAddr s x1 x2 := rfl
@[simp] theorem start_State_csiMatch {x1 x2 x3} : State.csiMatch s.start x1 x2 x3 = State.csiMatch s x1 x2 x3 := rfl
@[simp] theorem start_State_csiSize {x1 x2} : State.csiSize s.start x1 x2 = State.csiSize s x1 x2 := rfl
@[simp] theorem start_State_csiUp {x1} : State.csiUp s.start x1 = State.csiUp s x1 := rfl
@[simp] theorem start_State_csiWaits {x1} : State.csiWaits s.start x1 = State.csiWaits s x1 := rfl
@[simp] theorem start_State_ctlUp {x1} : State.ctlUp s.start x1 = State.ctlUp s x1 := rfl
@[simp] theorem start_State_ctx {x1} : State.ctx s.start x1 = State.ctx s x1 := rfl
@[simp] theorem start_State_curveLength {x1 x2} : State.curveLength s.start x1 x2 = State.curveLength s x1 x2 := rfl
@[simp] theorem start_State_curveLoad {x1} : State.curveLoad s.start x1 = State.curveLoad s x1 := rfl
@[simp] theorem start_State_curveRefs {x1} : State.curveRefs s.start x1 = State.curveRefs s x1 := rfl
@[simp] theorem start_State_cyclesIn {x1 x2 x3 x4} : State.cyclesIn s.start x1 x2 x3 x4 = State.cyclesIn s x1 x2 x3 x4 := rfl
@[simp] theorem start_State_dataRange {x1 x2} : State.dataRange s.start x1 x2 = State.dataRange s x1 x2 := rfl
@[simp] theorem start_State_decode {x1} : State.decode s.start x1 = State.decode s x1 := rfl
@[simp] theorem start_State_decodeDram {x1} : State.decodeDram s.start x1 = State.decodeDram s x1 := rfl
@[simp] theorem start_State_defaultKey {x1} : State.defaultKey s.start x1 = State.defaultKey s x1 := rfl
@[simp] theorem start_State_demands : State.demands s.start = State.demands s := rfl
@[simp] theorem start_State_dense {x1 x2 x3} : State.dense s.start x1 x2 x3 = State.dense s x1 x2 x3 := rfl
@[simp] theorem start_State_dieData : State.dieData s.start = State.dieData s := rfl
@[simp] theorem start_State_dieSites {x1} : State.dieSites s.start x1 = State.dieSites s x1 := rfl
@[simp] theorem start_State_dlKey {x1} : State.dlKey s.start x1 = State.dlKey s x1 := rfl
@[simp] theorem start_State_drainHolds {x1 x2} : State.drainHolds s.start x1 x2 = State.drainHolds s x1 x2 := rfl
@[simp] theorem start_State_drainVictim : State.drainVictim s.start = State.drainVictim s := rfl
@[simp] theorem start_State_drainWrites {x1 x2 x3} : State.drainWrites s.start x1 x2 x3 = State.drainWrites s x1 x2 x3 := rfl
@[simp] theorem start_State_dramBlocks {x1} : State.dramBlocks s.start x1 = State.dramBlocks s x1 := rfl
@[simp] theorem start_State_dramRange {x1 x2} : State.dramRange s.start x1 x2 = State.dramRange s x1 x2 := rfl
@[simp] theorem start_State_droopDone {x1} : State.droopDone s.start x1 = State.droopDone s x1 := rfl
@[simp] theorem start_State_droopRate {x1} : State.droopRate s.start x1 = State.droopRate s x1 := rfl
@[simp] theorem start_State_dunSlot {x1 x2 x3} : State.dunSlot s.start x1 x2 x3 = State.dunSlot s x1 x2 x3 := rfl
@[simp] theorem start_State_dunStatus {x1} : State.dunStatus s.start x1 = State.dunStatus s x1 := rfl
@[simp] theorem start_State_dune {x1} : State.dune s.start x1 = State.dune s x1 := rfl
@[simp] theorem start_State_duneBank {x1} : State.duneBank s.start x1 = State.duneBank s x1 := rfl
@[simp] theorem start_State_duneFree {x1} : State.duneFree s.start x1 = State.duneFree s x1 := rfl
@[simp] theorem start_State_duneSlot {x1 x2 x3} : State.duneSlot s.start x1 x2 x3 = State.duneSlot s x1 x2 x3 := rfl
@[simp] theorem start_State_earlier {x1} : State.earlier s.start x1 = State.earlier s x1 := rfl
@[simp] theorem start_State_edgeState {x1 x2 x3} : State.edgeState s.start x1 x2 x3 = State.edgeState s x1 x2 x3 := rfl
@[simp] theorem start_State_energyUj {x1} : State.energyUj s.start x1 = State.energyUj s x1 := rfl
@[simp] theorem start_State_eng {x1} : State.eng s.start x1 = State.eng s x1 := rfl
@[simp] theorem start_State_engFree {x1 x2} : State.engFree s.start x1 x2 = State.engFree s x1 x2 := rfl
@[simp] theorem start_State_engHead {x1 x2 x3} : State.engHead s.start x1 x2 x3 = State.engHead s x1 x2 x3 := rfl
@[simp] theorem start_State_engUp {x1} : State.engUp s.start x1 = State.engUp s x1 := rfl
@[simp] theorem start_State_engineOf {x1} : State.engineOf s.start x1 = State.engineOf s x1 := rfl
@[simp] theorem start_State_entry {x1 x2} : State.entry s.start x1 x2 = State.entry s x1 x2 := rfl
@[simp] theorem start_State_epoch {x1} : State.epoch s.start x1 = State.epoch s x1 := rfl
@[simp] theorem start_State_ethByte {x1} : State.ethByte s.start x1 = State.ethByte s x1 := rfl
@[simp] theorem start_State_ethDesc {x1} : State.ethDesc s.start x1 = State.ethDesc s x1 := rfl
@[simp] theorem start_State_ethHead {x1 x2} : State.ethHead s.start x1 x2 = State.ethHead s x1 x2 := rfl
@[simp] theorem start_State_ethLink {x1} : State.ethLink s.start x1 = State.ethLink s x1 := rfl
@[simp] theorem start_State_ethSource {x1 x2} : State.ethSource s.start x1 x2 = State.ethSource s x1 x2 := rfl
@[simp] theorem start_State_ethTenths {x1 x2} : State.ethTenths s.start x1 x2 = State.ethTenths s x1 x2 := rfl
@[simp] theorem start_State_ethUp {x1} : State.ethUp s.start x1 = State.ethUp s x1 := rfl
@[simp] theorem start_State_expectOk {x1 x2} : State.expectOk s.start x1 x2 = State.expectOk s x1 x2 := rfl
@[simp] theorem start_State_factorCore {x1 x2 x3} : State.factorCore s.start x1 x2 x3 = State.factorCore s x1 x2 x3 := rfl
@[simp] theorem start_State_failFoot {x1} : State.failFoot s.start x1 = State.failFoot s x1 := rfl
@[simp] theorem start_State_failOps {x1} : State.failOps s.start x1 = State.failOps s x1 := rfl
@[simp] theorem start_State_faultAddr {x1 x2} : State.faultAddr s.start x1 x2 = State.faultAddr s x1 x2 := rfl
@[simp] theorem start_State_faultPlace {x1 x2 x3} : State.faultPlace s.start x1 x2 x3 = State.faultPlace s x1 x2 x3 := rfl
@[simp] theorem start_State_filling {x1 x2} : State.filling s.start x1 x2 = State.filling s x1 x2 := rfl
@[simp] theorem start_State_firstPieces {x1} : State.firstPieces s.start x1 = State.firstPieces s x1 := rfl
@[simp] theorem start_State_firstTaker : State.firstTaker s.start = State.firstTaker s := rfl
@[simp] theorem start_State_flag {x1} : State.flag s.start x1 = State.flag s x1 := rfl
@[simp] theorem start_State_flashAt {x1 x2} : State.flashAt s.start x1 x2 = State.flashAt s x1 x2 := rfl
@[simp] theorem start_State_flashByte {x1} : State.flashByte s.start x1 = State.flashByte s x1 := rfl
@[simp] theorem start_State_flashReg {x1} : State.flashReg s.start x1 = State.flashReg s x1 := rfl
@[simp] theorem start_State_fld {x1} : State.fld s.start x1 = State.fld s x1 := rfl
@[simp] theorem start_State_fld2 {x1 x2 x3} : State.fld2 s.start x1 x2 x3 = State.fld2 s x1 x2 x3 := rfl
@[simp] theorem start_State_fmt {x1} : State.fmt s.start x1 = State.fmt s x1 := rfl
@[simp] theorem start_State_fmtLocked {x1} : State.fmtLocked s.start x1 = State.fmtLocked s x1 := rfl
@[simp] theorem start_State_found {x1} : State.found s.start x1 = State.found s x1 := rfl
@[simp] theorem start_State_fqAt {x1} : State.fqAt s.start x1 = State.fqAt s x1 := rfl
@[simp] theorem start_State_free {x1} : State.free s.start x1 = State.free s x1 := rfl
@[simp] theorem start_State_freeColSkip {x1} : State.freeColSkip s.start x1 = State.freeColSkip s x1 := rfl
@[simp] theorem start_State_freeHandle : State.freeHandle s.start = State.freeHandle s := rfl
@[simp] theorem start_State_freeRow {x1} : State.freeRow s.start x1 = State.freeRow s x1 := rfl
@[simp] theorem start_State_freeRowSkip {x1} : State.freeRowSkip s.start x1 = State.freeRowSkip s x1 := rfl
@[simp] theorem start_State_freeSlot {x1} : State.freeSlot s.start x1 = State.freeSlot s x1 := rfl
@[simp] theorem start_State_ftActive : State.ftActive s.start = State.ftActive s := rfl
@[simp] theorem start_State_ftNext : State.ftNext s.start = State.ftNext s := rfl
@[simp] theorem start_State_ftPending : State.ftPending s.start = State.ftPending s := rfl
@[simp] theorem start_State_ftReady {x1} : State.ftReady s.start x1 = State.ftReady s x1 := rfl
@[simp] theorem start_State_gateBad {x1 x2} : State.gateBad s.start x1 x2 = State.gateBad s x1 x2 := rfl
@[simp] theorem start_State_gateClose {x1 x2} : State.gateClose s.start x1 x2 = State.gateClose s x1 x2 := rfl
@[simp] theorem start_State_gateFits {x1 x2 x3} : State.gateFits s.start x1 x2 x3 = State.gateFits s x1 x2 x3 := rfl
@[simp] theorem start_State_gateIdle {x1} : State.gateIdle s.start x1 = State.gateIdle s x1 := rfl
@[simp] theorem start_State_gatesFresh {x1} : State.gatesFresh s.start x1 = State.gatesFresh s x1 := rfl
@[simp] theorem start_State_gatesNow {x1} : State.gatesNow s.start x1 = State.gatesNow s x1 := rfl
@[simp] theorem start_State_gradeMax : State.gradeMax s.start = State.gradeMax s := rfl
@[simp] theorem start_State_grantUp {x1} : State.grantUp s.start x1 = State.grantUp s x1 := rfl
@[simp] theorem start_State_groupInputs {x1 x2} : State.groupInputs s.start x1 x2 = State.groupInputs s x1 x2 := rfl
@[simp] theorem start_State_groups {x1 x2} : State.groups s.start x1 x2 = State.groups s x1 x2 := rfl
@[simp] theorem start_State_handoff {x1} : State.handoff s.start x1 = State.handoff s x1 := rfl
@[simp] theorem start_State_hart {x1} : State.hart s.start x1 = State.hart s x1 := rfl
@[simp] theorem start_State_hartBarred {x1 x2 x3} : State.hartBarred s.start x1 x2 x3 = State.hartBarred s x1 x2 x3 := rfl
@[simp] theorem start_State_hartEntry {x1} : State.hartEntry s.start x1 = State.hartEntry s x1 := rfl
@[simp] theorem start_State_hartLoses {x1 x2} : State.hartLoses s.start x1 x2 = State.hartLoses s x1 x2 := rfl
@[simp] theorem start_State_hartRuns {x1} : State.hartRuns s.start x1 = State.hartRuns s x1 := rfl
@[simp] theorem start_State_hasUpset {x1} : State.hasUpset s.start x1 = State.hasUpset s x1 := rfl
@[simp] theorem start_State_hashRight {x1 x2} : State.hashRight s.start x1 x2 = State.hashRight s x1 x2 := rfl
@[simp] theorem start_State_hbx {x1 x2} : State.hbx s.start x1 x2 = State.hbx s x1 x2 := rfl
@[simp] theorem start_State_hbxBarred {x1 x2} : State.hbxBarred s.start x1 x2 = State.hbxBarred s x1 x2 := rfl
@[simp] theorem start_State_hbxBars {x1 x2 x3 x4} : State.hbxBars s.start x1 x2 x3 x4 = State.hbxBars s x1 x2 x3 x4 := rfl
@[simp] theorem start_State_hbxBarsWrites {x1 x2 x3 x4} : State.hbxBarsWrites s.start x1 x2 x3 x4 = State.hbxBarsWrites s x1 x2 x3 x4 := rfl
@[simp] theorem start_State_hbxBudget {x1 x2 x3} : State.hbxBudget s.start x1 x2 x3 = State.hbxBudget s x1 x2 x3 := rfl
@[simp] theorem start_State_hbxByTable {x1 x2} : State.hbxByTable s.start x1 x2 = State.hbxByTable s x1 x2 := rfl
@[simp] theorem start_State_hbxClass {x1 x2 x3} : State.hbxClass s.start x1 x2 x3 = State.hbxClass s x1 x2 x3 := rfl
@[simp] theorem start_State_hbxDark {x1} : State.hbxDark s.start x1 = State.hbxDark s x1 := rfl
@[simp] theorem start_State_hbxDue {x1 x2} : State.hbxDue s.start x1 x2 = State.hbxDue s x1 x2 := rfl
@[simp] theorem start_State_hbxEntry {x1} : State.hbxEntry s.start x1 = State.hbxEntry s x1 := rfl
@[simp] theorem start_State_hbxForce {x1 x2} : State.hbxForce s.start x1 x2 = State.hbxForce s x1 x2 := rfl
@[simp] theorem start_State_hbxHeld {x1 x2 x3} : State.hbxHeld s.start x1 x2 x3 = State.hbxHeld s x1 x2 x3 := rfl
@[simp] theorem start_State_hbxIn {x1 x2 x3 x4 x5} : State.hbxIn s.start x1 x2 x3 x4 x5 = State.hbxIn s x1 x2 x3 x4 x5 := rfl
@[simp] theorem start_State_hbxLevelOf {x1 x2} : State.hbxLevelOf s.start x1 x2 = State.hbxLevelOf s x1 x2 := rfl
@[simp] theorem start_State_hbxMatches {x1 x2 x3} : State.hbxMatches s.start x1 x2 x3 = State.hbxMatches s x1 x2 x3 := rfl
@[simp] theorem start_State_hbxMayIssue {x1 x2} : State.hbxMayIssue s.start x1 x2 = State.hbxMayIssue s x1 x2 := rfl
@[simp] theorem start_State_hbxOcc {x1 x2} : State.hbxOcc s.start x1 x2 = State.hbxOcc s x1 x2 := rfl
@[simp] theorem start_State_hbxOnWay {x1 x2 x3 x4 x5} : State.hbxOnWay s.start x1 x2 x3 x4 x5 = State.hbxOnWay s x1 x2 x3 x4 x5 := rfl
@[simp] theorem start_State_hbxOver {x1 x2 x3} : State.hbxOver s.start x1 x2 x3 = State.hbxOver s x1 x2 x3 := rfl
@[simp] theorem start_State_hbxQueue {x1} : State.hbxQueue s.start x1 = State.hbxQueue s x1 := rfl
@[simp] theorem start_State_hbxQueued {x1 x2 x3 x4 x5} : State.hbxQueued s.start x1 x2 x3 x4 x5 = State.hbxQueued s x1 x2 x3 x4 x5 := rfl
@[simp] theorem start_State_hbxRank {x1} : State.hbxRank s.start x1 = State.hbxRank s x1 := rfl
@[simp] theorem start_State_hbxRate {x1} : State.hbxRate s.start x1 = State.hbxRate s x1 := rfl
@[simp] theorem start_State_hbxRoom {x1} : State.hbxRoom s.start x1 = State.hbxRoom s x1 := rfl
@[simp] theorem start_State_hbxRoute {x1 x2} : State.hbxRoute s.start x1 x2 = State.hbxRoute s x1 x2 := rfl
@[simp] theorem start_State_hbxTop {x1 x2} : State.hbxTop s.start x1 x2 = State.hbxTop s x1 x2 := rfl
@[simp] theorem start_State_hbxWritten {x1 x2} : State.hbxWritten s.start x1 x2 = State.hbxWritten s x1 x2 := rfl
@[simp] theorem start_State_headAddr {x1 x2} : State.headAddr s.start x1 x2 = State.headAddr s x1 x2 := rfl
@[simp] theorem start_State_headBad {x1} : State.headBad s.start x1 = State.headBad s x1 := rfl
@[simp] theorem start_State_headControl {x1 x2} : State.headControl s.start x1 x2 = State.headControl s x1 x2 := rfl
@[simp] theorem start_State_headEntry {x1} : State.headEntry s.start x1 = State.headEntry s x1 := rfl
@[simp] theorem start_State_headPlace {x1 x2} : State.headPlace s.start x1 x2 = State.headPlace s x1 x2 := rfl
@[simp] theorem start_State_headerRight {x1} : State.headerRight s.start x1 = State.headerRight s x1 := rfl
@[simp] theorem start_State_heldOr {x1} : State.heldOr s.start x1 = State.heldOr s x1 := rfl
@[simp] theorem start_State_heldRows {x1} : State.heldRows s.start x1 = State.heldRows s x1 := rfl
@[simp] theorem start_State_holdNext {x1 x2} : State.holdNext s.start x1 x2 = State.holdNext s x1 x2 := rfl
@[simp] theorem start_State_holdsStream {x1} : State.holdsStream s.start x1 = State.holdsStream s x1 := rfl
@[simp] theorem start_State_homeDie {x1} : State.homeDie s.start x1 = State.homeDie s x1 := rfl
@[simp] theorem start_State_hottest {x1} : State.hottest s.start x1 = State.hottest s x1 := rfl
@[simp] theorem start_State_idleSince {x1 x2} : State.idleSince s.start x1 x2 = State.idleSince s x1 x2 := rfl
@[simp] theorem start_State_imageRd {x1 x2 x3} : State.imageRd s.start x1 x2 x3 = State.imageRd s x1 x2 x3 := rfl
@[simp] theorem start_State_img {x1 x2 x3} : State.img s.start x1 x2 x3 = State.img s x1 x2 x3 := rfl
@[simp] theorem start_State_imgCount {x1} : State.imgCount s.start x1 = State.imgCount s x1 := rfl
@[simp] theorem start_State_imgIsn {x1} : State.imgIsn s.start x1 = State.imgIsn s x1 := rfl
@[simp] theorem start_State_imgKeyHash {x1} : State.imgKeyHash s.start x1 = State.imgKeyHash s x1 := rfl
@[simp] theorem start_State_imgLen {x1} : State.imgLen s.start x1 = State.imgLen s x1 := rfl
@[simp] theorem start_State_imgRollback {x1} : State.imgRollback s.start x1 = State.imgRollback s x1 := rfl
@[simp] theorem start_State_imgSection {x1 x2} : State.imgSection s.start x1 x2 = State.imgSection s x1 x2 := rfl
@[simp] theorem start_State_imgSections {x1} : State.imgSections s.start x1 = State.imgSections s x1 := rfl
@[simp] theorem start_State_inGroup {x1 x2} : State.inGroup s.start x1 x2 = State.inGroup s x1 x2 := rfl
@[simp] theorem start_State_inPart {x1 x2 x3} : State.inPart s.start x1 x2 x3 = State.inPart s x1 x2 x3 := rfl
@[simp] theorem start_State_inPool {x1 x2} : State.inPool s.start x1 x2 = State.inPool s x1 x2 := rfl
@[simp] theorem start_State_inboundOk {x1 x2 x3} : State.inboundOk s.start x1 x2 x3 = State.inboundOk s x1 x2 x3 := rfl
@[simp] theorem start_State_inboxNop {x1} : State.inboxNop s.start x1 = State.inboxNop s x1 := rfl
@[simp] theorem start_State_inboxOp {x1 x2} : State.inboxOp s.start x1 x2 = State.inboxOp s x1 x2 := rfl
@[simp] theorem start_State_inflight : State.inflight s.start = State.inflight s := rfl
@[simp] theorem start_State_inflightOf {x1} : State.inflightOf s.start x1 = State.inflightOf s x1 := rfl
@[simp] theorem start_State_instantDue {x1} : State.instantDue s.start x1 = State.instantDue s x1 := rfl
@[simp] theorem start_State_ioLoad {x1 x2 x3 x4} : State.ioLoad s.start x1 x2 x3 x4 = State.ioLoad s x1 x2 x3 x4 := rfl
@[simp] theorem start_State_ioMsi {x1 x2} : State.ioMsi s.start x1 x2 = State.ioMsi s x1 x2 := rfl
@[simp] theorem start_State_ioSize {x1} : State.ioSize s.start x1 = State.ioSize s x1 := rfl
@[simp] theorem start_State_ioStage1 {x1 x2 x3} : State.ioStage1 s.start x1 x2 x3 = State.ioStage1 s x1 x2 x3 := rfl
@[simp] theorem start_State_ioStage2 {x1 x2 x3 x4} : State.ioStage2 s.start x1 x2 x3 x4 = State.ioStage2 s x1 x2 x3 x4 := rfl
@[simp] theorem start_State_iod1 : State.iod1 s.start = State.iod1 s := rfl
@[simp] theorem start_State_isChecked {x1} : State.isChecked s.start x1 = State.isChecked s x1 := rfl
@[simp] theorem start_State_isData {x1} : State.isData s.start x1 = State.isData s x1 := rfl
@[simp] theorem start_State_isDram {x1} : State.isDram s.start x1 = State.isDram s x1 := rfl
@[simp] theorem start_State_isMeta {x1} : State.isMeta s.start x1 = State.isMeta s x1 := rfl
@[simp] theorem start_State_issueQ {x1} : State.issueQ s.start x1 = State.issueQ s x1 := rfl
@[simp] theorem start_State_joining {x1} : State.joining s.start x1 = State.joining s x1 := rfl
@[simp] theorem start_State_keptByDomain {x1} : State.keptByDomain s.start x1 = State.keptByDomain s x1 := rfl
@[simp] theorem start_State_keyRight {x1} : State.keyRight s.start x1 = State.keyRight s x1 := rfl
@[simp] theorem start_State_kvBad {x1 x2 x3 x4 x5} : State.kvBad s.start x1 x2 x3 x4 x5 = State.kvBad s x1 x2 x3 x4 x5 := rfl
@[simp] theorem start_State_kvEntries {x1 x2} : State.kvEntries s.start x1 x2 = State.kvEntries s x1 x2 := rfl
@[simp] theorem start_State_kvFoot {x1 x2 x3} : State.kvFoot s.start x1 x2 x3 = State.kvFoot s x1 x2 x3 := rfl
@[simp] theorem start_State_kvHits {x1 x2 x3 x4} : State.kvHits s.start x1 x2 x3 x4 = State.kvHits s x1 x2 x3 x4 := rfl
@[simp] theorem start_State_kvLens : State.kvLens s.start = State.kvLens s := rfl
@[simp] theorem start_State_kvOwnFoot {x1 x2 x3} : State.kvOwnFoot s.start x1 x2 x3 = State.kvOwnFoot s x1 x2 x3 := rfl
@[simp] theorem start_State_kvRead {x1 x2 x3 x4 x5 x6} : State.kvRead s.start x1 x2 x3 x4 x5 x6 = State.kvRead s x1 x2 x3 x4 x5 x6 := rfl
@[simp] theorem start_State_kvSheet {x1 x2 x3 x4} : State.kvSheet s.start x1 x2 x3 x4 = State.kvSheet s x1 x2 x3 x4 := rfl
@[simp] theorem start_State_kvSlots {x1 x2} : State.kvSlots s.start x1 x2 = State.kvSlots s x1 x2 := rfl
@[simp] theorem start_State_kvWrite {x1 x2 x3 x4 x5 x6} : State.kvWrite s.start x1 x2 x3 x4 x5 x6 = State.kvWrite s x1 x2 x3 x4 x5 x6 := rfl
@[simp] theorem start_State_laneNext {x1} : State.laneNext s.start x1 = State.laneNext s x1 := rfl
@[simp] theorem start_State_latched {x1 x2} : State.latched s.start x1 x2 = State.latched s x1 x2 := rfl
@[simp] theorem start_State_lateOf {x1} : State.lateOf s.start x1 = State.lateOf s x1 := rfl
@[simp] theorem start_State_lawAddr {x1} : State.lawAddr s.start x1 = State.lawAddr s x1 := rfl
@[simp] theorem start_State_lawWord {x1} : State.lawWord s.start x1 = State.lawWord s x1 := rfl
@[simp] theorem start_State_left {x1} : State.left s.start x1 = State.left s x1 := rfl
@[simp] theorem start_State_lineIdle {x1} : State.lineIdle s.start x1 = State.lineIdle s x1 := rfl
@[simp] theorem start_State_live {x1 x2} : State.live s.start x1 x2 = State.live s x1 x2 := rfl
@[simp] theorem start_State_liveAplic {x1 x2 x3 x4} : State.liveAplic s.start x1 x2 x3 x4 = State.liveAplic s x1 x2 x3 x4 := rfl
@[simp] theorem start_State_liveDck {x1 x2 x3} : State.liveDck s.start x1 x2 x3 = State.liveDck s x1 x2 x3 := rfl
@[simp] theorem start_State_liveEngines {x1 x2 x3} : State.liveEngines s.start x1 x2 x3 = State.liveEngines s x1 x2 x3 := rfl
@[simp] theorem start_State_liveRanges {x1 x2} : State.liveRanges s.start x1 x2 = State.liveRanges s x1 x2 := rfl
@[simp] theorem start_State_loadAddr : State.loadAddr s.start = State.loadAddr s := rfl
@[simp] theorem start_State_loaderOk {x1 x2} : State.loaderOk s.start x1 x2 = State.loaderOk s x1 x2 := rfl
@[simp] theorem start_State_localBlocks {x1} : State.localBlocks s.start x1 = State.localBlocks s x1 := rfl
@[simp] theorem start_State_logBytes {x1 x2} : State.logBytes s.start x1 x2 = State.logBytes s x1 x2 := rfl
@[simp] theorem start_State_logEntries : State.logEntries s.start = State.logEntries s := rfl
@[simp] theorem start_State_logNext : State.logNext s.start = State.logNext s := rfl
@[simp] theorem start_State_logicalUps {x1 x2} : State.logicalUps s.start x1 x2 = State.logicalUps s x1 x2 := rfl
@[simp] theorem start_State_lomFoot {x1} : State.lomFoot s.start x1 = State.lomFoot s x1 := rfl
@[simp] theorem start_State_lomStatus : State.lomStatus s.start = State.lomStatus s := rfl
@[simp] theorem start_State_lowest {x1} : State.lowest s.start x1 = State.lowest s x1 := rfl
@[simp] theorem start_State_ltLate {x1 x2} : State.ltLate s.start x1 x2 = State.ltLate s x1 x2 := rfl
@[simp] theorem start_State_ltReached {x1} : State.ltReached s.start x1 = State.ltReached s x1 := rfl
@[simp] theorem start_State_mac {x1} : State.mac s.start x1 = State.mac s x1 := rfl
@[simp] theorem start_State_makeOp {x1 x2 x3 x4 x5 x6 x7 x8} : State.makeOp s.start x1 x2 x3 x4 x5 x6 x7 x8 = State.makeOp s x1 x2 x3 x4 x5 x6 x7 x8 := rfl
@[simp] theorem start_State_mapped {x1} : State.mapped s.start x1 = State.mapped s x1 := rfl
@[simp] theorem start_State_mayBegin {x1 x2} : State.mayBegin s.start x1 x2 = State.mayBegin s x1 x2 := rfl
@[simp] theorem start_State_mayRead {x1 x2} : State.mayRead s.start x1 x2 = State.mayRead s x1 x2 := rfl
@[simp] theorem start_State_mayWrite {x1 x2} : State.mayWrite s.start x1 x2 = State.mayWrite s x1 x2 := rfl
@[simp] theorem start_State_mbxBytes {x1 x2} : State.mbxBytes s.start x1 x2 = State.mbxBytes s x1 x2 := rfl
@[simp] theorem start_State_mbxHead {x1} : State.mbxHead s.start x1 = State.mbxHead s x1 := rfl
@[simp] theorem start_State_meanCell : State.meanCell s.start = State.meanCell s := rfl
@[simp] theorem start_State_memOn {x1} : State.memOn s.start x1 = State.memOn s x1 := rfl
@[simp] theorem start_State_members {x1} : State.members s.start x1 = State.members s x1 := rfl
@[simp] theorem start_State_metaArea {x1} : State.metaArea s.start x1 = State.metaArea s x1 := rfl
@[simp] theorem start_State_metaBase : State.metaBase s.start = State.metaBase s := rfl
@[simp] theorem start_State_metaByte {x1} : State.metaByte s.start x1 = State.metaByte s x1 := rfl
@[simp] theorem start_State_metaEntry {x1 x2} : State.metaEntry s.start x1 x2 = State.metaEntry s x1 x2 := rfl
@[simp] theorem start_State_metaRange {x1} : State.metaRange s.start x1 = State.metaRange s x1 := rfl
@[simp] theorem start_State_mgtRuns : State.mgtRuns s.start = State.mgtRuns s := rfl
@[simp] theorem start_State_move {x1 x2} : State.move s.start x1 x2 = State.move s x1 x2 := rfl
@[simp] theorem start_State_moveAllowed {x1 x2} : State.moveAllowed s.start x1 x2 = State.moveAllowed s x1 x2 := rfl
@[simp] theorem start_State_moveBytes {x1 x2} : State.moveBytes s.start x1 x2 = State.moveBytes s x1 x2 := rfl
@[simp] theorem start_State_moveCellOk {x1 x2} : State.moveCellOk s.start x1 x2 = State.moveCellOk s x1 x2 := rfl
@[simp] theorem start_State_moveClass {x1 x2} : State.moveClass s.start x1 x2 = State.moveClass s x1 x2 := rfl
@[simp] theorem start_State_moveHolds {x1} : State.moveHolds s.start x1 = State.moveHolds s x1 := rfl
@[simp] theorem start_State_moveParts {x1 x2} : State.moveParts s.start x1 x2 = State.moveParts s x1 x2 := rfl
@[simp] theorem start_State_moveProv {x1 x2} : State.moveProv s.start x1 x2 = State.moveProv s x1 x2 := rfl
@[simp] theorem start_State_moveReported {x1} : State.moveReported s.start x1 = State.moveReported s x1 := rfl
@[simp] theorem start_State_moveSource {x1 x2} : State.moveSource s.start x1 x2 = State.moveSource s x1 x2 := rfl
@[simp] theorem start_State_moveWaits {x1} : State.moveWaits s.start x1 = State.moveWaits s x1 := rfl
@[simp] theorem start_State_moveWrites {x1 x2} : State.moveWrites s.start x1 x2 = State.moveWrites s x1 x2 := rfl
@[simp] theorem start_State_mover {x1} : State.mover s.start x1 = State.mover s x1 := rfl
@[simp] theorem start_State_moverLoad {x1} : State.moverLoad s.start x1 = State.moverLoad s x1 := rfl
@[simp] theorem start_State_moverPart {x1 x2 x3} : State.moverPart s.start x1 x2 x3 = State.moverPart s x1 x2 x3 := rfl
@[simp] theorem start_State_mtiAwake : State.mtiAwake s.start = State.mtiAwake s := rfl
@[simp] theorem start_State_mtiOcv : State.mtiOcv s.start = State.mtiOcv s := rfl
@[simp] theorem start_State_mtiParam {x1 x2} : State.mtiParam s.start x1 x2 = State.mtiParam s x1 x2 := rfl
@[simp] theorem start_State_mtiWord {x1 x2} : State.mtiWord s.start x1 x2 = State.mtiWord s x1 x2 := rfl
@[simp] theorem start_State_mvReads {x1} : State.mvReads s.start x1 = State.mvReads s x1 := rfl
@[simp] theorem start_State_nat {x1 x2} : State.nat s.start x1 x2 = State.nat s x1 x2 := rfl
@[simp] theorem start_State_needs {x1} : State.needs s.start x1 = State.needs s x1 := rfl
@[simp] theorem start_State_needsCurve {x1 x2} : State.needsCurve s.start x1 x2 = State.needsCurve s x1 x2 := rfl
@[simp] theorem start_State_newId : State.newId s.start = State.newId s := rfl
@[simp] theorem start_State_noRestore {x1} : State.noRestore s.start x1 = State.noRestore s x1 := rfl
@[simp] theorem start_State_nodeId : State.nodeId s.start = State.nodeId s := rfl
@[simp] theorem start_State_notKept {x1 x2} : State.notKept s.start x1 x2 = State.notKept s x1 x2 := rfl
@[simp] theorem start_State_noticeUp {x1} : State.noticeUp s.start x1 = State.noticeUp s x1 := rfl
@[simp] theorem start_State_nowhere {x1 x2} : State.nowhere s.start x1 x2 = State.nowhere s x1 x2 := rfl
@[simp] theorem start_State_nvmeAddr {x1 x2} : State.nvmeAddr s.start x1 x2 = State.nvmeAddr s x1 x2 := rfl
@[simp] theorem start_State_nvmeCids {x1} : State.nvmeCids s.start x1 = State.nvmeCids s x1 := rfl
@[simp] theorem start_State_nvmeFill {x1 x2} : State.nvmeFill s.start x1 x2 = State.nvmeFill s x1 x2 := rfl
@[simp] theorem start_State_nvmeSize {x1} : State.nvmeSize s.start x1 = State.nvmeSize s x1 := rfl
@[simp] theorem start_State_obj {x1} : State.obj s.start x1 = State.obj s x1 := rfl
@[simp] theorem start_State_objOfCell {x1} : State.objOfCell s.start x1 = State.objOfCell s x1 := rfl
@[simp] theorem start_State_objOfQueue {x1} : State.objOfQueue s.start x1 = State.objOfQueue s x1 := rfl
@[simp] theorem start_State_objQueues : State.objQueues s.start = State.objQueues s := rfl
@[simp] theorem start_State_oldestOp {x1} : State.oldestOp s.start x1 = State.oldestOp s x1 := rfl
@[simp] theorem start_State_oldestTest : State.oldestTest s.start = State.oldestTest s := rfl
@[simp] theorem start_State_oneStep {x1 x2 x3} : State.oneStep s.start x1 x2 x3 = State.oneStep s x1 x2 x3 := rfl
@[simp] theorem start_State_opCtx {x1} : State.opCtx s.start x1 = State.opCtx s x1 := rfl
@[simp] theorem start_State_opHasReport {x1} : State.opHasReport s.start x1 = State.opHasReport s x1 := rfl
@[simp] theorem start_State_opKvSlots {x1 x2} : State.opKvSlots s.start x1 x2 = State.opKvSlots s x1 x2 := rfl
@[simp] theorem start_State_opTag {x1} : State.opTag s.start x1 = State.opTag s x1 := rfl
@[simp] theorem start_State_openEnergy {x1} : State.openEnergy s.start x1 = State.openEnergy s x1 := rfl
@[simp] theorem start_State_openMaster : State.openMaster s.start = State.openMaster s := rfl
@[simp] theorem start_State_operandsPresent {x1 x2} : State.operandsPresent s.start x1 x2 = State.operandsPresent s x1 x2 := rfl
@[simp] theorem start_State_outBlocks {x1} : State.outBlocks s.start x1 = State.outBlocks s x1 := rfl
@[simp] theorem start_State_outstanding {x1} : State.outstanding s.start x1 = State.outstanding s x1 := rfl
@[simp] theorem start_State_overCap : State.overCap s.start = State.overCap s := rfl
@[simp] theorem start_State_ownCell {x1 x2} : State.ownCell s.start x1 x2 = State.ownCell s x1 x2 := rfl
@[simp] theorem start_State_pHeader {x1} : State.pHeader s.start x1 = State.pHeader s x1 := rfl
@[simp] theorem start_State_pLink {x1} : State.pLink s.start x1 = State.pLink s x1 := rfl
@[simp] theorem start_State_pMap {x1 x2} : State.pMap s.start x1 x2 = State.pMap s x1 x2 := rfl
@[simp] theorem start_State_pMaxRate {x1} : State.pMaxRate s.start x1 = State.pMaxRate s x1 := rfl
@[simp] theorem start_State_pMode {x1} : State.pMode s.start x1 = State.pMode s x1 := rfl
@[simp] theorem start_State_pOut {x1} : State.pOut s.start x1 = State.pOut s x1 := rfl
@[simp] theorem start_State_pPerst {x1} : State.pPerst s.start x1 = State.pPerst s x1 := rfl
@[simp] theorem start_State_pThere {x1} : State.pThere s.start x1 = State.pThere s x1 := rfl
@[simp] theorem start_State_pTimeout {x1} : State.pTimeout s.start x1 = State.pTimeout s x1 := rfl
@[simp] theorem start_State_pUp {x1} : State.pUp s.start x1 = State.pUp s x1 := rfl
@[simp] theorem start_State_paramCrc : State.paramCrc s.start = State.paramCrc s := rfl
@[simp] theorem start_State_parkLevel {x1} : State.parkLevel s.start x1 = State.parkLevel s x1 := rfl
@[simp] theorem start_State_partBusy {x1} : State.partBusy s.start x1 = State.partBusy s x1 := rfl
@[simp] theorem start_State_partCBase {x1} : State.partCBase s.start x1 = State.partCBase s x1 := rfl
@[simp] theorem start_State_partCCount {x1} : State.partCCount s.start x1 = State.partCCount s x1 := rfl
@[simp] theorem start_State_partChangeOk {x1 x2} : State.partChangeOk s.start x1 x2 = State.partChangeOk s x1 x2 := rfl
@[simp] theorem start_State_partClass {x1} : State.partClass s.start x1 = State.partClass s x1 := rfl
@[simp] theorem start_State_partField {x1 x2 x3} : State.partField s.start x1 x2 x3 = State.partField s x1 x2 x3 := rfl
@[simp] theorem start_State_partHi {x1} : State.partHi s.start x1 = State.partHi s x1 := rfl
@[simp] theorem start_State_partLo {x1} : State.partLo s.start x1 = State.partLo s x1 := rfl
@[simp] theorem start_State_partMask {x1} : State.partMask s.start x1 = State.partMask s x1 := rfl
@[simp] theorem start_State_partNow {x1 x2 x3} : State.partNow s.start x1 x2 x3 = State.partNow s x1 x2 x3 := rfl
@[simp] theorem start_State_partOn {x1} : State.partOn s.start x1 = State.partOn s x1 := rfl
@[simp] theorem start_State_partPlace {x1 x2 x3} : State.partPlace s.start x1 x2 x3 = State.partPlace s x1 x2 x3 := rfl
@[simp] theorem start_State_partQBase {x1} : State.partQBase s.start x1 = State.partQBase s x1 := rfl
@[simp] theorem start_State_partQCount {x1} : State.partQCount s.start x1 = State.partQCount s x1 := rfl
@[simp] theorem start_State_partRecordOk {x1} : State.partRecordOk s.start x1 = State.partRecordOk s x1 := rfl
@[simp] theorem start_State_partSeq {x1} : State.partSeq s.start x1 = State.partSeq s x1 := rfl
@[simp] theorem start_State_partTableOk {x1} : State.partTableOk s.start x1 = State.partTableOk s x1 := rfl
@[simp] theorem start_State_partsOk {x1 x2} : State.partsOk s.start x1 x2 = State.partsOk s x1 x2 := rfl
@[simp] theorem start_State_patrol {x1} : State.patrol s.start x1 = State.patrol s x1 := rfl
@[simp] theorem start_State_pdDependents {x1} : State.pdDependents s.start x1 = State.pdDependents s x1 := rfl
@[simp] theorem start_State_pdOn {x1} : State.pdOn s.start x1 = State.pdOn s x1 := rfl
@[simp] theorem start_State_pdPresent {x1} : State.pdPresent s.start x1 = State.pdPresent s x1 := rfl
@[simp] theorem start_State_pdState {x1} : State.pdState s.start x1 = State.pdState s x1 := rfl
@[simp] theorem start_State_pdWord {x1} : State.pdWord s.start x1 = State.pdWord s x1 := rfl
@[simp] theorem start_State_pendingBlock {x1} : State.pendingBlock s.start x1 = State.pendingBlock s x1 := rfl
@[simp] theorem start_State_pendingIds {x1 x2} : State.pendingIds s.start x1 x2 = State.pendingIds s x1 x2 := rfl
@[simp] theorem start_State_pendings {x1} : State.pendings s.start x1 = State.pendings s x1 := rfl
@[simp] theorem start_State_phaseMax {x1} : State.phaseMax s.start x1 = State.phaseMax s x1 := rfl
@[simp] theorem start_State_physCols {x1} : State.physCols s.start x1 = State.physCols s x1 := rfl
@[simp] theorem start_State_physRows {x1} : State.physRows s.start x1 = State.physRows s x1 := rfl
@[simp] theorem start_State_pieceHeld {x1 x2 x3 x4} : State.pieceHeld s.start x1 x2 x3 x4 = State.pieceHeld s x1 x2 x3 x4 := rfl
@[simp] theorem start_State_pin {x1} : State.pin s.start x1 = State.pin s x1 := rfl
@[simp] theorem start_State_pinUp {x1} : State.pinUp s.start x1 = State.pinUp s x1 := rfl
@[simp] theorem start_State_place {x1 x2 x3} : State.place s.start x1 x2 x3 = State.place s x1 x2 x3 := rfl
@[simp] theorem start_State_placeFree {x1} : State.placeFree s.start x1 = State.placeFree s x1 := rfl
@[simp] theorem start_State_pmuClu {x1} : State.pmuClu s.start x1 = State.pmuClu s x1 := rfl
@[simp] theorem start_State_pmuQ {x1} : State.pmuQ s.start x1 = State.pmuQ s x1 := rfl
@[simp] theorem start_State_pmvCfgErr {x1 x2} : State.pmvCfgErr s.start x1 x2 = State.pmvCfgErr s x1 x2 := rfl
@[simp] theorem start_State_pointRec {x1} : State.pointRec s.start x1 = State.pointRec s x1 := rfl
@[simp] theorem start_State_pointsOf {x1} : State.pointsOf s.start x1 = State.pointsOf s x1 := rfl
@[simp] theorem start_State_poolBase {x1} : State.poolBase s.start x1 = State.poolBase s x1 := rfl
@[simp] theorem start_State_poolFirst {x1} : State.poolFirst s.start x1 = State.poolFirst s x1 := rfl
@[simp] theorem start_State_poolFree {x1} : State.poolFree s.start x1 = State.poolFree s x1 := rfl
@[simp] theorem start_State_poolSheets {x1} : State.poolSheets s.start x1 = State.poolSheets s x1 := rfl
@[simp] theorem start_State_pport {x1} : State.pport s.start x1 = State.pport s x1 := rfl
@[simp] theorem start_State_preemptVictim : State.preemptVictim s.start = State.preemptVictim s := rfl
@[simp] theorem start_State_provLeft {x1} : State.provLeft s.start x1 = State.provLeft s x1 := rfl
@[simp] theorem start_State_provSeq {x1} : State.provSeq s.start x1 = State.provSeq s x1 := rfl
@[simp] theorem start_State_pwmLevel {x1} : State.pwmLevel s.start x1 = State.pwmLevel s x1 := rfl
@[simp] theorem start_State_q {x1} : State.q s.start x1 = State.q s x1 := rfl
@[simp] theorem start_State_qDepth {x1} : State.qDepth s.start x1 = State.qDepth s x1 := rfl
@[simp] theorem start_State_qHead {x1} : State.qHead s.start x1 = State.qHead s x1 := rfl
@[simp] theorem start_State_qHeld {x1} : State.qHeld s.start x1 = State.qHeld s x1 := rfl
@[simp] theorem start_State_qOn {x1} : State.qOn s.start x1 = State.qOn s x1 := rfl
@[simp] theorem start_State_qTail {x1} : State.qTail s.start x1 = State.qTail s x1 := rfl
@[simp] theorem start_State_qrail {x1} : State.qrail s.start x1 = State.qrail s x1 := rfl
@[simp] theorem start_State_queueStatus {x1} : State.queueStatus s.start x1 = State.queueStatus s x1 := rfl
@[simp] theorem start_State_quiActed {x1} : State.quiActed s.start x1 = State.quiActed s x1 := rfl
@[simp] theorem start_State_quiBatch {x1 x2} : State.quiBatch s.start x1 x2 = State.quiBatch s x1 x2 := rfl
@[simp] theorem start_State_quiCmd {x1} : State.quiCmd s.start x1 = State.quiCmd s x1 := rfl
@[simp] theorem start_State_quiObj {x1 x2} : State.quiObj s.start x1 x2 = State.quiObj s x1 x2 := rfl
@[simp] theorem start_State_quiSlot {x1 x2} : State.quiSlot s.start x1 x2 = State.quiSlot s x1 x2 := rfl
@[simp] theorem start_State_quiTouches {x1 x2} : State.quiTouches s.start x1 x2 = State.quiTouches s x1 x2 := rfl
@[simp] theorem start_State_quiWaits {x1 x2} : State.quiWaits s.start x1 x2 = State.quiWaits s x1 x2 := rfl
@[simp] theorem start_State_quiet {x1} : State.quiet s.start x1 = State.quiet s x1 := rfl
@[simp] theorem start_State_rail {x1} : State.rail s.start x1 = State.rail s x1 := rfl
@[simp] theorem start_State_railClamped {x1} : State.railClamped s.start x1 = State.railClamped s x1 := rfl
@[simp] theorem start_State_railData {x1 x2} : State.railData s.start x1 x2 = State.railData s x1 x2 := rfl
@[simp] theorem start_State_railDomains {x1} : State.railDomains s.start x1 = State.railDomains s x1 := rfl
@[simp] theorem start_State_railFitted {x1} : State.railFitted s.start x1 = State.railFitted s x1 := rfl
@[simp] theorem start_State_railLimit {x1} : State.railLimit s.start x1 = State.railLimit s x1 := rfl
@[simp] theorem start_State_railMax {x1} : State.railMax s.start x1 = State.railMax s x1 := rfl
@[simp] theorem start_State_railPresent {x1} : State.railPresent s.start x1 = State.railPresent s x1 := rfl
@[simp] theorem start_State_railWorking {x1} : State.railWorking s.start x1 = State.railWorking s x1 := rfl
@[simp] theorem start_State_rank {x1 x2} : State.rank s.start x1 x2 = State.rank s x1 x2 := rfl
@[simp] theorem start_State_rawBytes : State.rawBytes s.start = State.rawBytes s := rfl
@[simp] theorem start_State_rd {x1} : State.rd s.start x1 = State.rd s x1 := rfl
@[simp] theorem start_State_readTds {x1 x2} : State.readTds s.start x1 x2 = State.readTds s x1 x2 := rfl
@[simp] theorem start_State_ready {x1} : State.ready s.start x1 = State.ready s x1 := rfl
@[simp] theorem start_State_recordSignal {x1 x2 x3} : State.recordSignal s.start x1 x2 x3 = State.recordSignal s x1 x2 x3 := rfl
@[simp] theorem start_State_refs {x1 x2} : State.refs s.start x1 x2 = State.refs s x1 x2 := rfl
@[simp] theorem start_State_region {x1 x2} : State.region s.start x1 x2 = State.region s x1 x2 := rfl
@[simp] theorem start_State_repairSpare {x1} : State.repairSpare s.start x1 = State.repairSpare s x1 := rfl
@[simp] theorem start_State_reportFits {x1} : State.reportFits s.start x1 = State.reportFits s x1 := rfl
@[simp] theorem start_State_reportMove {x1} : State.reportMove s.start x1 = State.reportMove s x1 := rfl
@[simp] theorem start_State_reportOp {x1} : State.reportOp s.start x1 = State.reportOp s x1 := rfl
@[simp] theorem start_State_reqArg {x1 x2 x3} : State.reqArg s.start x1 x2 x3 = State.reqArg s x1 x2 x3 := rfl
@[simp] theorem start_State_reqBytes {x1 x2 x3} : State.reqBytes s.start x1 x2 x3 = State.reqBytes s x1 x2 x3 := rfl
@[simp] theorem start_State_reqLen {x1} : State.reqLen s.start x1 = State.reqLen s x1 := rfl
@[simp] theorem start_State_reqOp {x1} : State.reqOp s.start x1 = State.reqOp s x1 := rfl
@[simp] theorem start_State_reqTag {x1} : State.reqTag s.start x1 = State.reqTag s x1 := rfl
@[simp] theorem start_State_resolvable {x1 x2} : State.resolvable s.start x1 x2 = State.resolvable s x1 x2 := rfl
@[simp] theorem start_State_restorable : State.restorable s.start = State.restorable s := rfl
@[simp] theorem start_State_retiredMask : State.retiredMask s.start = State.retiredMask s := rfl
@[simp] theorem start_State_ringAsk {x1 x2 x3} : State.ringAsk s.start x1 x2 x3 = State.ringAsk s x1 x2 x3 := rfl
@[simp] theorem start_State_ringBase {x1} : State.ringBase s.start x1 = State.ringBase s x1 := rfl
@[simp] theorem start_State_ringHead {x1 x2} : State.ringHead s.start x1 x2 = State.ringHead s x1 x2 := rfl
@[simp] theorem start_State_ringRead {x1 x2} : State.ringRead s.start x1 x2 = State.ringRead s x1 x2 := rfl
@[simp] theorem start_State_ringSize {x1} : State.ringSize s.start x1 = State.ringSize s x1 := rfl
@[simp] theorem start_State_rmEdge {x1 x2} : State.rmEdge s.start x1 x2 = State.rmEdge s x1 x2 := rfl
@[simp] theorem start_State_rmList {x1 x2} : State.rmList s.start x1 x2 = State.rmList s x1 x2 := rfl
@[simp] theorem start_State_rmNode {x1 x2} : State.rmNode s.start x1 x2 = State.rmNode s x1 x2 := rfl
@[simp] theorem start_State_rmNodeOk {x1 x2} : State.rmNodeOk s.start x1 x2 = State.rmNodeOk s x1 x2 := rfl
@[simp] theorem start_State_rowAddr {x1 x2} : State.rowAddr s.start x1 x2 = State.rowAddr s x1 x2 := rfl
@[simp] theorem start_State_rtcSeconds : State.rtcSeconds s.start = State.rtcSeconds s := rfl
@[simp] theorem start_State_rxDepth {x1 x2} : State.rxDepth s.start x1 x2 = State.rxDepth s x1 x2 := rfl
@[simp] theorem start_State_rxDescAddr {x1 x2} : State.rxDescAddr s.start x1 x2 = State.rxDescAddr s x1 x2 := rfl
@[simp] theorem start_State_rxQueue {x1 x2} : State.rxQueue s.start x1 x2 = State.rxQueue s x1 x2 := rfl
@[simp] theorem start_State_rxWaits {x1 x2} : State.rxWaits s.start x1 x2 = State.rxWaits s x1 x2 := rfl
@[simp] theorem start_State_sampleI {x1} : State.sampleI s.start x1 = State.sampleI s x1 := rfl
@[simp] theorem start_State_sampleV {x1} : State.sampleV s.start x1 = State.sampleV s x1 := rfl
@[simp] theorem start_State_saveAddr {x1 x2} : State.saveAddr s.start x1 x2 = State.saveAddr s x1 x2 := rfl
@[simp] theorem start_State_saveBytes {x1 x2} : State.saveBytes s.start x1 x2 = State.saveBytes s x1 x2 := rfl
@[simp] theorem start_State_saveSlot {x1} : State.saveSlot s.start x1 = State.saveSlot s x1 := rfl
@[simp] theorem start_State_sec {x1 x2 x3 x4} : State.sec s.start x1 x2 x3 x4 = State.sec s x1 x2 x3 x4 := rfl
@[simp] theorem start_State_secBytes {x1 x2 x3 x4} : State.secBytes s.start x1 x2 x3 x4 = State.secBytes s x1 x2 x3 x4 := rfl
@[simp] theorem start_State_sectionOk {x1 x2} : State.sectionOk s.start x1 x2 = State.sectionOk s x1 x2 := rfl
@[simp] theorem start_State_sectionReason {x1 x2 x3} : State.sectionReason s.start x1 x2 x3 = State.sectionReason s x1 x2 x3 := rfl
@[simp] theorem start_State_sectorSeq {x1} : State.sectorSeq s.start x1 = State.sectorSeq s x1 := rfl
@[simp] theorem start_State_seeks {x1} : State.seeks s.start x1 = State.seeks s x1 := rfl
@[simp] theorem start_State_seenByte {x1} : State.seenByte s.start x1 = State.seenByte s x1 := rfl
@[simp] theorem start_State_seenBytes {x1 x2} : State.seenBytes s.start x1 x2 = State.seenBytes s x1 x2 := rfl
@[simp] theorem start_State_seenNat {x1 x2} : State.seenNat s.start x1 x2 = State.seenNat s x1 x2 := rfl
@[simp] theorem start_State_seesPad {x1 x2} : State.seesPad s.start x1 x2 = State.seesPad s x1 x2 := rfl
@[simp] theorem start_State_sensorPresent {x1} : State.sensorPresent s.start x1 = State.sensorPresent s x1 := rfl
@[simp] theorem start_State_sensorT {x1} : State.sensorT s.start x1 = State.sensorT s x1 := rfl
@[simp] theorem start_State_seqDomains : State.seqDomains s.start = State.seqDomains s := rfl
@[simp] theorem start_State_seqOk {x1 x2} : State.seqOk s.start x1 x2 = State.seqOk s x1 x2 := rfl
@[simp] theorem start_State_settingOk {x1} : State.settingOk s.start x1 = State.settingOk s x1 := rfl
@[simp] theorem start_State_settingsNamed {x1} : State.settingsNamed s.start x1 = State.settingsNamed s x1 := rfl
@[simp] theorem start_State_settingsOk {x1 x2} : State.settingsOk s.start x1 x2 = State.settingsOk s x1 x2 := rfl
@[simp] theorem start_State_shared {x1 x2} : State.shared s.start x1 x2 = State.shared s x1 x2 := rfl
@[simp] theorem start_State_sheetLate {x1 x2 x3} : State.sheetLate s.start x1 x2 x3 = State.sheetLate s x1 x2 x3 := rfl
@[simp] theorem start_State_sigRight {x1} : State.sigRight s.start x1 = State.sigRight s x1 := rfl
@[simp] theorem start_State_siteBlocks : State.siteBlocks s.start = State.siteBlocks s := rfl
@[simp] theorem start_State_siteBytes : State.siteBytes s.start = State.siteBytes s := rfl
@[simp] theorem start_State_siteOf {x1} : State.siteOf s.start x1 = State.siteOf s x1 := rfl
@[simp] theorem start_State_sitePresent {x1} : State.sitePresent s.start x1 = State.sitePresent s x1 := rfl
@[simp] theorem start_State_slot {x1} : State.slot s.start x1 = State.slot s x1 := rfl
@[simp] theorem start_State_slotCheck {x1 x2} : State.slotCheck s.start x1 x2 = State.slotCheck s x1 x2 := rfl
@[simp] theorem start_State_slotContent {x1} : State.slotContent s.start x1 = State.slotContent s x1 := rfl
@[simp] theorem start_State_slotNamed {x1 x2 x3 x4 x5} : State.slotNamed s.start x1 x2 x3 x4 x5 = State.slotNamed s x1 x2 x3 x4 x5 := rfl
@[simp] theorem start_State_slotOfBlock {x1 x2} : State.slotOfBlock s.start x1 x2 = State.slotOfBlock s x1 x2 := rfl
@[simp] theorem start_State_slotTable {x1} : State.slotTable s.start x1 = State.slotTable s x1 := rfl
@[simp] theorem start_State_slotsOf {x1} : State.slotsOf s.start x1 = State.slotsOf s x1 := rfl
@[simp] theorem start_State_slotsUsed {x1} : State.slotsUsed s.start x1 = State.slotsUsed s x1 := rfl
@[simp] theorem start_State_slv {x1} : State.slv s.start x1 = State.slv s x1 := rfl
@[simp] theorem start_State_slvLate {x1} : State.slvLate s.start x1 = State.slvLate s x1 := rfl
@[simp] theorem start_State_slvSlot {x1 x2 x3} : State.slvSlot s.start x1 x2 x3 = State.slvSlot s x1 x2 x3 := rfl
@[simp] theorem start_State_slvSlotWord {x1 x2 x3} : State.slvSlotWord s.start x1 x2 x3 = State.slvSlotWord s x1 x2 x3 := rfl
@[simp] theorem start_State_slvStatus {x1} : State.slvStatus s.start x1 = State.slvStatus s x1 := rfl
@[simp] theorem start_State_slvWith {x1 x2 x3} : State.slvWith s.start x1 x2 x3 = State.slvWith s x1 x2 x3 := rfl
@[simp] theorem start_State_snapFlags {x1} : State.snapFlags s.start x1 = State.snapFlags s x1 := rfl
@[simp] theorem start_State_snapNow : State.snapNow s.start = State.snapNow s := rfl
@[simp] theorem start_State_snapshot {x1} : State.snapshot s.start x1 = State.snapshot s x1 := rfl
@[simp] theorem start_State_solveCore {x1 x2 x3 x4 x5} : State.solveCore s.start x1 x2 x3 x4 x5 = State.solveCore s x1 x2 x3 x4 x5 := rfl
@[simp] theorem start_State_spAddr {x1} : State.spAddr s.start x1 = State.spAddr s x1 := rfl
@[simp] theorem start_State_spBlock {x1} : State.spBlock s.start x1 = State.spBlock s x1 := rfl
@[simp] theorem start_State_spCell {x1} : State.spCell s.start x1 = State.spCell s x1 := rfl
@[simp] theorem start_State_srcLevel {x1} : State.srcLevel s.start x1 = State.srcLevel s x1 := rfl
@[simp] theorem start_State_stale {x1 x2 x3} : State.stale s.start x1 x2 x3 = State.stale s x1 x2 x3 := rfl
@[simp] theorem start_State_stallCause {x1} : State.stallCause s.start x1 = State.stallCause s x1 := rfl
@[simp] theorem start_State_stalls {x1} : State.stalls s.start x1 = State.stalls s x1 := rfl
@[simp] theorem start_State_stampWrite {x1 x2} : State.stampWrite s.start x1 x2 = State.stampWrite s x1 x2 := rfl
@[simp] theorem start_State_starved {x1} : State.starved s.start x1 = State.starved s x1 := rfl
@[simp] theorem start_State_stateRecord {x1} : State.stateRecord s.start x1 = State.stateRecord s x1 := rfl
@[simp] theorem start_State_stepOffset : State.stepOffset s.start = State.stepOffset s := rfl
@[simp] theorem start_State_stepRecord {x1 x2 x3 x4} : State.stepRecord s.start x1 x2 x3 x4 = State.stepRecord s x1 x2 x3 x4 := rfl
@[simp] theorem start_State_stepReleases {x1} : State.stepReleases s.start x1 = State.stepReleases s x1 := rfl
@[simp] theorem start_State_stepWaits {x1} : State.stepWaits s.start x1 = State.stepWaits s x1 := rfl
@[simp] theorem start_State_stored {x1} : State.stored s.start x1 = State.stored s x1 := rfl
@[simp] theorem start_State_streamArgs {x1 x2} : State.streamArgs s.start x1 x2 = State.streamArgs s x1 x2 := rfl
@[simp] theorem start_State_stressPoint {x1} : State.stressPoint s.start x1 = State.stressPoint s x1 := rfl
@[simp] theorem start_State_stressPoints {x1} : State.stressPoints s.start x1 = State.stressPoints s x1 := rfl
@[simp] theorem start_State_stressRow {x1 x2} : State.stressRow s.start x1 x2 = State.stressRow s x1 x2 := rfl
@[simp] theorem start_State_svc {x1} : State.svc s.start x1 = State.svc s x1 := rfl
@[simp] theorem start_State_svcPort {x1} : State.svcPort s.start x1 = State.svcPort s x1 := rfl
@[simp] theorem start_State_sweepDue {x1} : State.sweepDue s.start x1 = State.sweepDue s x1 := rfl
@[simp] theorem start_State_sweepNow : State.sweepNow s.start = State.sweepNow s := rfl
@[simp] theorem start_State_tag {x1} : State.tag s.start x1 = State.tag s x1 := rfl
@[simp] theorem start_State_tagPos {x1 x2} : State.tagPos s.start x1 x2 = State.tagPos s x1 x2 := rfl
@[simp] theorem start_State_takeSample {x1 x2} : State.takeSample s.start x1 x2 = State.takeSample s x1 x2 := rfl
@[simp] theorem start_State_taker {x1} : State.taker s.start x1 = State.taker s x1 := rfl
@[simp] theorem start_State_taskKey {x1 x2} : State.taskKey s.start x1 x2 = State.taskKey s x1 x2 := rfl
@[simp] theorem start_State_testFits {x1} : State.testFits s.start x1 = State.testFits s x1 := rfl
@[simp] theorem start_State_testNext {x1 x2} : State.testNext s.start x1 x2 = State.testNext s x1 x2 := rfl
@[simp] theorem start_State_testValue {x1 x2} : State.testValue s.start x1 x2 = State.testValue s x1 x2 := rfl
@[simp] theorem start_State_testing : State.testing s.start = State.testing s := rfl
@[simp] theorem start_State_thermalOk {x1 x2} : State.thermalOk s.start x1 x2 = State.thermalOk s x1 x2 := rfl
@[simp] theorem start_State_tiltOk {x1 x2 x3} : State.tiltOk s.start x1 x2 x3 = State.tiltOk s x1 x2 x3 := rfl
@[simp] theorem start_State_tiltRecOk {x1 x2 x3} : State.tiltRecOk s.start x1 x2 x3 = State.tiltRecOk s x1 x2 x3 := rfl
@[simp] theorem start_State_timAdvance {x1} : State.timAdvance s.start x1 = State.timAdvance s x1 := rfl
@[simp] theorem start_State_timRate : State.timRate s.start = State.timRate s := rfl
@[simp] theorem start_State_timSum {x1} : State.timSum s.start x1 = State.timSum s x1 := rfl
@[simp] theorem start_State_timWraps {x1} : State.timWraps s.start x1 = State.timWraps s x1 := rfl
@[simp] theorem start_State_time : State.time s.start = State.time s := rfl
@[simp] theorem start_State_timerPending {x1} : State.timerPending s.start x1 = State.timerPending s x1 := rfl
@[simp] theorem start_State_tltFrame {x1 x2} : State.tltFrame s.start x1 x2 = State.tltFrame s x1 x2 := rfl
@[simp] theorem start_State_tltLaunch {x1} : State.tltLaunch s.start x1 = State.tltLaunch s x1 := rfl
@[simp] theorem start_State_tltPeriod {x1} : State.tltPeriod s.start x1 = State.tltPeriod s x1 := rfl
@[simp] theorem start_State_tltStart {x1} : State.tltStart s.start x1 = State.tltStart s x1 := rfl
@[simp] theorem start_State_tltStatus : State.tltStatus s.start = State.tltStatus s := rfl
@[simp] theorem start_State_tltUnusable {x1 x2} : State.tltUnusable s.start x1 x2 = State.tltUnusable s x1 x2 := rfl
@[simp] theorem start_State_tltUp : State.tltUp s.start = State.tltUp s := rfl
@[simp] theorem start_State_trackerFull {x1} : State.trackerFull s.start x1 = State.trackerFull s x1 := rfl
@[simp] theorem start_State_trackersOf {x1} : State.trackersOf s.start x1 = State.trackersOf s x1 := rfl
@[simp] theorem start_State_txDepth {x1 x2} : State.txDepth s.start x1 x2 = State.txDepth s x1 x2 := rfl
@[simp] theorem start_State_txDescAddr {x1 x2} : State.txDescAddr s.start x1 x2 = State.txDescAddr s x1 x2 := rfl
@[simp] theorem start_State_txHead {x1 x2} : State.txHead s.start x1 x2 = State.txHead s x1 x2 := rfl
@[simp] theorem start_State_txPosted {x1 x2} : State.txPosted s.start x1 x2 = State.txPosted s x1 x2 := rfl
@[simp] theorem start_State_txStamp {x1} : State.txStamp s.start x1 = State.txStamp s x1 := rfl
@[simp] theorem start_State_unaccepted {x1} : State.unaccepted s.start x1 = State.unaccepted s x1 := rfl
@[simp] theorem start_State_unitHere {x1} : State.unitHere s.start x1 = State.unitHere s x1 := rfl
@[simp] theorem start_State_unitUp {x1} : State.unitUp s.start x1 = State.unitUp s x1 := rfl
@[simp] theorem start_State_updateSlot : State.updateSlot s.start = State.updateSlot s := rfl
@[simp] theorem start_State_upset {x1} : State.upset s.start x1 = State.upset s x1 := rfl
@[simp] theorem start_State_variantRight {x1} : State.variantRight s.start x1 = State.variantRight s x1 := rfl
@[simp] theorem start_State_vatFree {x1 x2 x3} : State.vatFree s.start x1 x2 x3 = State.vatFree s x1 x2 x3 := rfl
@[simp] theorem start_State_vec {x1 x2} : State.vec s.start x1 x2 = State.vec s x1 x2 := rfl
@[simp] theorem start_State_versionRight {x1} : State.versionRight s.start x1 = State.versionRight s x1 := rfl
@[simp] theorem start_State_victims {x1} : State.victims s.start x1 = State.victims s x1 := rfl
@[simp] theorem start_State_walkBlocks {x1} : State.walkBlocks s.start x1 = State.walkBlocks s x1 := rfl
@[simp] theorem start_State_watchdogOut {x1} : State.watchdogOut s.start x1 = State.watchdogOut s x1 := rfl
@[simp] theorem start_State_watermark {x1} : State.watermark s.start x1 = State.watermark s x1 := rfl
@[simp] theorem start_State_wireAt {x1} : State.wireAt s.start x1 = State.wireAt s x1 := rfl
@[simp] theorem start_State_wraps : State.wraps s.start = State.wraps s := rfl
@[simp] theorem start_State_writable {x1 x2 x3} : State.writable s.start x1 x2 x3 = State.writable s x1 x2 x3 := rfl
@[simp] theorem start_State_writeFirst {x1 x2 x3 x4} : State.writeFirst s.start x1 x2 x3 x4 = State.writeFirst s x1 x2 x3 x4 := rfl
@[simp] theorem start_State_zActive {x1} : State.zActive s.start x1 = State.zActive s x1 := rfl
@[simp] theorem start_State_zEn {x1} : State.zEn s.start x1 = State.zEn s x1 := rfl
@[simp] theorem start_State_zInRange {x1 x2 x3} : State.zInRange s.start x1 x2 x3 = State.zInRange s x1 x2 x3 := rfl
@[simp] theorem start_State_zLinked {x1} : State.zLinked s.start x1 = State.zLinked s x1 := rfl
@[simp] theorem start_State_zNoRoom {x1 x2} : State.zNoRoom s.start x1 x2 = State.zNoRoom s x1 x2 := rfl
@[simp] theorem start_State_zPends {x1 x2} : State.zPends s.start x1 x2 = State.zPends s x1 x2 := rfl
@[simp] theorem start_State_zRemote {x1 x2} : State.zRemote s.start x1 x2 = State.zRemote s x1 x2 := rfl
@[simp] theorem start_State_zRoute {x1 x2} : State.zRoute s.start x1 x2 = State.zRoute s x1 x2 := rfl
@[simp] theorem start_State_zState {x1} : State.zState s.start x1 = State.zState s x1 := rfl
@[simp] theorem start_State_zThere {x1} : State.zThere s.start x1 = State.zThere s x1 := rfl
@[simp] theorem start_State_zTrailers {x1 x2} : State.zTrailers s.start x1 x2 = State.zTrailers s x1 x2 := rfl
@[simp] theorem start_State_zTrains {x1} : State.zTrains s.start x1 = State.zTrains s x1 := rfl
@[simp] theorem start_State_zUp {x1} : State.zUp s.start x1 = State.zUp s x1 := rfl
@[simp] theorem start_State_zWriteWaits {x1 x2} : State.zWriteWaits s.start x1 x2 = State.zWriteWaits s x1 x2 := rfl
@[simp] theorem start_State_zport {x1} : State.zport s.start x1 = State.zport s x1 := rfl

end

end Sys2Proof.Machine
end

