-- ==== Sys2Proof/WellFormed.lean ====
section
/-! DEFINITION. Well-formedness of commands: every operand inside the range its width or its index gives. -/
namespace Sys2Proof

/-- A listed master ID (R365). -/
def wfMaster (n : Nat) : Bool :=
  decide (n ≤ 0x50 ∨ (0x58 ≤ n ∧ n ≤ 0x5D) ∨ n = 0x60 ∨ n = 0x61 ∨ (0x70 ≤ n ∧ n ≤ 0x72) ∨ n = 0x74 ∨ n = 0x75 ∨ n = 0x78 ∨ n = 0x79)
def wfAddr (n : Nat) : Bool := decide (n < 2 ^ 48)
def wfWidth (n : Nat) : Bool := decide (n = 1 ∨ n = 2 ∨ n = 4 ∨ n = 8)
def wfWord (n : Nat) : Bool := decide (n < 2 ^ 32)
def wfDword (n : Nat) : Bool := decide (n < 2 ^ 64)
def wfHalf (n : Nat) : Bool := decide (n < 2 ^ 16)
def wfSelf (n : Nat) : Bool := decide (n ≤ 48)
def wfSixteen (n : Nat) : Bool := decide (n < 16)
def wfTag (n : Nat) : Bool := decide (n < 1024)
def wfFile (n : Nat) : Bool := decide (n < 7)
def wfCluster (n : Nat) : Bool := decide (n < 64)
def wfQueue (n : Nat) : Bool := decide (n < 32768)
def wfPart (n : Nat) : Bool := decide (n < 8)
def wfCell (n : Nat) : Bool := decide (n < 65536)
def wfFmt (n : Nat) : Bool := decide (n < 32)
def wfSite (n : Nat) : Bool := decide (n < 8)
def wfMover (n : Nat) : Bool := decide (n < 16)
def wfRing8 (n : Nat) : Bool := decide (n < 8)
def wfTwo (n : Nat) : Bool := decide (n < 2)
def wfClass (n : Nat) : Bool := decide (n < 32)
def wfEnt64 (n : Nat) : Bool := decide (n < 64)
def wfFour (n : Nat) : Bool := decide (n < 4)
/-- A parity failure of Marl: none, in a data path, or in the factor store of some of its 4 slots (R481). -/
def wfSlvFault (n : Nat) : Bool := decide (n < 17)
def wfQueue24 (n : Nat) : Bool := decide (n ≤ 24)
def wfMac (n : Nat) : Bool := decide (n < 8)
def wfEnt32 (n : Nat) : Bool := decide (n < 32)
def wfZport (n : Nat) : Bool := decide (n < 3)
/-- A bit for each of a Zetha port's eight lanes. -/
def wfLaneMask (n : Nat) : Bool := decide (n < 256)
/-- The 130-bit blocks that the eight lanes of a Zetha port bring (R559): a header of two bits and 16 bytes each. -/
def wfLanes (ls : List (List (Nat × List Byte))) : Bool :=
  decide (ls.length = 8) && ls.all (fun l => l.all (fun b => decide (b.1 < 4 ∧ b.2.length = 16)))
def wfCsi (n : Nat) : Bool := decide (n < 16)
def wfPin (n : Nat) : Bool := decide (n < 96)
def wfHart (n : Nat) : Bool := decide (n < 24)
def wfRail (n : Nat) : Bool := decide (n < 16)
def wfDomain (n : Nat) : Bool := decide (n < 96)
def wfEpoch (n : Nat) : Bool := decide (n < 16)
def wfEng (n : Nat) : Bool := decide (n < 6)
def wfPortIdx (n : Nat) : Bool := decide (n < 11)

/-- A command is well formed: each operand lies in its range. -/
def Instr.wf : Instr → Bool
  | .registerWrite m self a bytes w => wfMaster m && wfSelf self && wfAddr a && wfWidth bytes && wfWord w
  | .rcRead m self a bytes => wfMaster m && wfSelf self && wfAddr a && wfWidth bytes
  | .lowWordRead m self a => wfMaster m && wfSelf self && wfAddr a
  | .fmtDescLoWrite m n v => wfMaster m && wfFmt n && wfWord v
  | .fmtDescHiWrite m n v => wfMaster m && wfFmt n && wfWord v
  | .fmtEntryCopyDone => true
  | .operationDispatch e => wfEng e
  | .qorazNop n => wfCluster n
  | .gemm n => wfCluster n
  | .conv n => wfCluster n
  | .qorazLoad n => wfCluster n
  | .qorazStore n => wfCluster n
  | .ew n => wfCluster n
  | .convertOp n => wfCluster n
  | .curveOp n => wfCluster n
  | .reduceOp n => wfCluster n
  | .normOp n => wfCluster n
  | .splitkSum n => wfCluster n
  | .dotOp n => wfCluster n
  | .windowOp n => wfCluster n
  | .attnExp n => wfCluster n
  | .attnMerge n => wfCluster n
  | .attnNorm n => wfCluster n
  | .boxDecode n => wfCluster n
  | .nms n => wfCluster n
  | .stateStep n => wfCluster n
  | .workCycle n => wfCluster n
  | .chainAccumulationEnd n => wfCluster n
  | .drainStart n _ => wfCluster n
  | .cowCopyComplete i => wfWord i
  | .drainComplete n => wfCluster n
  | .calenderOpComplete n ep => wfCluster n && decide (ep < 16)
  | .lanePhaseStart n stall => wfCluster n && wfWord stall
  | .curveSlotLoadDone n => wfCluster n
  | .beaterOpComplete n ep => wfCluster n && decide (ep < 16)
  | .repairRecordCommit n _ => wfCluster n
  | .admitObject m => wfMaster m
  | .admissionComplete => true
  | .unloadObject m h => wfMaster m && wfWord h
  | .unloadComplete => true
  | .queueDoorbell m q v => wfMaster m && wfQueue q && wfWord v
  | .queueCfgWrite m q v => wfMaster m && wfQueue q && wfWord v
  | .cplHeadWrite m q v => wfMaster m && wfQueue q && wfWord v
  | .cancelTask m q _ => wfMaster m && wfQueue q
  | .cancelAll m q _ => wfMaster m && wfQueue q
  | .resumeQueue m q => wfMaster m && wfQueue q
  | .taskEntry q => wfQueue q
  | .waitEntry q => wfQueue q
  | .timedWaitEntry q => wfQueue q
  | .signalEntry q => wfQueue q
  | .setEntry q => wfQueue q
  | .fenceEntry q => wfQueue q
  | .taskEndEntry q => wfQueue q
  | .reservedControlEntry q => wfQueue q
  | .waitRelease q => wfQueue q
  | .timedWaitTimeout q => wfQueue q
  | .fenceRelease q => wfQueue q
  | .cellWrite m n v => wfMaster m && wfCell n && wfWord v
  | .cellAddWrite m n v => wfMaster m && wfCell n && wfWord v
  | .deadlineTick => true
  | .preemptTask => true
  | .saveComplete q => wfQueue q
  | .restoreTask => true
  | .restoreComplete q => wfQueue q
  | .clusterDrained n => wfCluster n
  | .quiAdmit m p => wfMaster m && wfPart p
  | .admitStream m p => wfMaster m && wfPart p
  | .quiRelease m p => wfMaster m && wfPart p
  | .quiFork m p => wfMaster m && wfPart p
  | .quiMap m p => wfMaster m && wfPart p
  | .quiTruncate m p => wfMaster m && wfPart p
  | .quiRetain m p => wfMaster m && wfPart p
  | .quiDrop m p => wfMaster m && wfPart p
  | .batchOpen m p => wfMaster m && wfPart p
  | .batchClose m p => wfMaster m && wfPart p
  | .quiJoin m p => wfMaster m && wfPart p
  | .quiLeave m p => wfMaster m && wfPart p
  | .stepBegin m p => wfMaster m && wfPart p
  | .stepCommit m p => wfMaster m && wfPart p
  | .stepAbort m p => wfMaster m && wfPart p
  | .quiExport m p => wfMaster m && wfPart p
  | .quiImport m p => wfMaster m && wfPart p
  | .armedCommit b => wfEnt32 b
  | .quireCommandDone p => wfPart p
  | .dramWrite m ep a _ _ _ _ link _ _ h _ => wfMaster m && wfEpoch ep && wfAddr a && decide (link < 4) && decide (h ≤ 24)
  | .dramRead m ep a n link _ h _ => wfMaster m && wfEpoch ep && wfAddr a && wfWord n && wfFour link && decide (h ≤ 24)
  | .metadataRegionAccess m a n _ => wfMaster m && wfAddr a && wfWord n
  | .patrolSweepStart i => wfSite i
  | .patrolRead i j link _ => wfSite i && wfWord j && wfFour link
  | .memSplitWrite m v => wfMaster m && wfWord v
  | .pmvDoorbell m i r v => wfMaster m && wfMover i && wfRing8 r && wfWord v
  | .pmvRingCfgWrite m i r v => wfMaster m && wfMover i && wfRing8 r && wfWord v
  | .pmvCopy m => wfMover m
  | .pmvFill m => wfMover m
  | .pmvTranspose m => wfMover m
  | .pmvDecomp m => wfMover m
  | .pmvFetch m => wfMover m
  | .pmvFetchNvme m => wfMover m
  | .nvmeCompletion m => wfMover m
  | .sheetReadTimeout m i k => wfMover m && wfWord i && wfWord k
  | .moveComplete m i => wfMover m && wfWord i
  | .hbxRequestForward _ m part src a n _ k j => wfMaster m && wfHalf part && wfFour src && wfAddr a && wfWord n && wfQueue24 k && wfWord j
  | .hbxWindowBoundary i c => wfTwo i && wfClass c
  | .hbxReadComplete k j => wfSite k && wfWord j
  | .hbxAgeRaise k j => wfQueue24 k && wfWord j
  | .hbxMatchCtrlWrite m e v => wfMaster m && wfEnt64 e && wfWord v
  | .hbxTableCopyDone => true
  | .hbxClassWrite m i c k v => wfMaster m && wfTwo i && wfClass c && decide (k < 5) && wfWord v
  | .checkFailureReport _ => true
  | .watchdogExpiry n => wfCluster n
  | .meshParityError tries => wfWord tries
  | .headerParityError u op move => wfMaster u && wfDword op && wfDword move
  | .lockstepTltMismatch => true
  | .tilthPairResetDone => true
  | .lockstepMgtMismatch _ => true
  | .mgtPairRestart => true
  | .trackerResolve p i => wfPortIdx p && wfWord i
  | .provTimeout p i => wfPortIdx p && wfWord i
  | .ftRequest m v => wfMaster m && wfWord v
  | .sweepTestDue n => wfCluster n
  | .fieldTestStart _ => true
  | .fieldTestEnd n out _ _ srow _ => wfCluster n && wfFour out && wfRing8 srow
  | .brokeHeadWrite m v => wfMaster m && wfWord v
  | .dunNop e fault => wfTwo e && wfFour fault
  | .dunBind e fault => wfTwo e && wfFour fault
  | .dunUnbind e fault => wfTwo e && wfFour fault
  | .occLoad e fault => wfTwo e && wfFour fault
  | .dunValidate e fault => wfTwo e && wfFour fault
  | .dunSearch e fault => wfTwo e && wfFour fault
  | .slvNop e fault => wfTwo e && wfSlvFault fault
  | .qpBind e fault => wfTwo e && wfSlvFault fault
  | .qpUnbind e fault => wfTwo e && wfSlvFault fault
  | .qpFactor e fault => wfTwo e && wfSlvFault fault
  | .qpSolve e fault => wfTwo e && wfSlvFault fault
  | .mpcStep e fault => wfTwo e && wfSlvFault fault
  | .batchFactor e fault => wfTwo e && wfSlvFault fault
  | .batchSolve e fault => wfTwo e && wfSlvFault fault
  | .solverDeadlineMissed e _ k => wfTwo e && wfWord k
  | .lomNop fault => wfFour fault
  | .frameLoad fault => wfFour fault
  | .lomTransform fault => wfFour fault
  | .lomAssociate fault => wfFour fault
  | .trackApply fault => wfFour fault
  | .trackRead fault => wfFour fault
  | .contextEnable m c v => wfMaster m && wfFour c && wfWord v
  | .contextDisable m c v => wfMaster m && wfFour c && wfWord v
  | .tltInputWrite m c i v => wfMaster m && wfFour c && wfWord i && wfWord v
  | .groupCommit m c v => wfMaster m && wfFour c && wfWord v
  | .sampleInstant c => wfFour c
  | .sampleDeadline c => wfFour c
  | .lawLoad m c => wfMaster m && wfFour c
  | .lawLoadDone c => wfFour c
  | .setpointCellChange c => wfFour c
  | .setpointReadDone c => wfFour c
  | .tltRestart m => wfMaster m
  | .testRun m c v => wfMaster m && wfFour c && wfWord v
  | .tilthFrameLaunch n c => wfMac n && wfFour c
  | .timeBaseTick n => wfWord n
  | .timeBaseWrap => true
  | .timRateWrite m v => wfMaster m && wfWord v
  | .timStep m => wfMaster m
  | .epochHiWrite m v => wfMaster m && wfWord v
  | .ethFrameReceive n ts _ _ => wfMac n && wfWord ts
  | .pauseFrameReceive n quanta => wfMac n && wfHalf quanta
  | .ethDoorbell m n q rx v => wfMaster m && wfMac n && wfRing8 q && wfTwo rx && wfWord v
  | .ethFrameTransmit n => wfMac n
  | .ethTxComplete n q => wfMac n && wfRing8 q
  | .lateDrop n q => wfMac n && wfRing8 q
  | .gateChangeRequest m n v => wfMaster m && wfMac n && wfWord v
  | .gateListChange n => wfMac n
  | .gateEntryAdvance n => wfMac n
  | .ethClsWord0Write m n e v => wfMaster m && wfMac n && wfEnt32 e && wfWord v
  | .zthPortEnable m p => wfMaster m && wfZport p
  | .zthPortDisable m p => wfMaster m && wfZport p
  | .trainStateTimeout p => wfZport p
  | .capFlitReceive p ls => wfZport p && wfLanes ls
  | .flitReceive p ls => wfZport p && wfLanes ls
  | .nakReceive p ls => wfZport p && wfLanes ls
  | .zthRetrain m p lost => wfMaster m && wfZport p && decide (lost.getD 0 < 8)
  | .linkDrop p => wfZport p
  | .zthWindowAccess m a n _ _ => wfMaster m && wfAddr a && wfWord n
  | .zthWriteMsg p => wfZport p
  | .zthReadReq p => wfZport p
  | .zthReadResp p => wfZport p
  | .zthWriteAck p => wfZport p
  | .zthNotice p => wfZport p
  | .zthRouteWrite m e v => wfMaster m && wfEnt32 e && wfWord v
  | .csiLongPacket p ecc vc dt _ _ => wfCsi p && wfFour ecc && wfSixteen vc && wfEnt64 dt
  | .csiFrameStart p ecc vc num => wfCsi p && wfFour ecc && wfSixteen vc && wfHalf num
  | .csiFrameEnd p ecc vc => wfCsi p && wfFour ecc && wfSixteen vc
  | .csiDoorbell m p v n => wfMaster m && wfCsi p && wfFour v && wfWord n
  | .pcieInboundRequest p wr rid a n bs => wfTwo p && wfHalf rid && wfDword a && wfWord n && decide (a % 4096 + (if wr then bs.length else n) ≤ 4096)
  | .poisonedTlpReceive p cpl tag rid a bs => wfTwo p && wfTag tag && wfHalf rid && wfDword a && (cpl || decide (a % 4096 + bs.length ≤ 4096))
  | .pcieCplTimeout p tag => wfTwo p && wfTag tag
  | .msixTrig m p v => wfMaster m && wfTwo p && wfWord v
  | .perstAssert p => wfTwo p
  | .flashRead m opcode => wfMaster m && wfHalf opcode
  | .flashProgram m opcode => wfMaster m && wfHalf opcode
  | .flashErase m opcode => wfMaster m && wfHalf opcode
  | .flashReadSfdp m opcode => wfMaster m && wfHalf opcode
  | .flashRegRead m opcode => wfMaster m && wfHalf opcode
  | .flashRegWrite m opcode => wfMaster m && wfHalf opcode
  | .xspCmdDone _ => true
  | .canTxReq m n v => wfMaster m && wfFour n && wfWord v
  | .canTxComplete n _ sof => wfFour n && wfDword sof
  | .canFrameReceive n w dlc flags _ sof => wfFour n && wfWord w && wfSixteen dlc && wfFour flags && wfWord sof
  | .canRecover m n => wfMaster m && wfFour n
  | .canAbortAll m n _ => wfMaster m && wfFour n
  | .canRxDoorbell m n r v => wfMaster m && wfFour n && wfTwo r && wfWord v
  | .pinFuncWrite m n v => wfMaster m && wfPin n && wfWord v
  | .parkIntervalEnd n => wfPin n
  | .pwmStart n start period high => wfPin n && wfWord start && wfWord period && wfWord high
  | .captureEdge n sel _ => wfPin n && decide (sel < 3)
  | .hartStart m self h => wfMaster m && wfSelf self && wfHart h
  | .hartStop m self h => wfMaster m && wfSelf self && wfHart h
  | .cacheError kind a => wfFour kind && wfAddr a
  | .msiMessage h file e _ => wfHart h && wfFile file && wfHalf e
  | .stimecmpMatch h t => wfHart h && wfDword t
  | .startUp _ => true
  | .resetNAssert ns => wfWord ns
  | .railMonitorTrip rail mv => wfTwo rail && wfHalf mv
  | .mailboxDoorbell m v => wfMaster m && wfWord v
  | .mbxOpen => true
  | .mbxClose => true
  | .mbxInfo => true
  | .fmtWrite => true
  | .partWrite => true
  | .hbxWrite => true
  | .pinWrite => true
  | .logRead => true
  | .updateBegin _ => true
  | .updateWrite _ => true
  | .updateCommit err => decide (err < 3)
  | .updateAbort _ => true
  | .rollbackAdvance => true
  | .fuseKey => true
  | .moduleReset => true
  | .moduleResetDelayExpiry => true
  | .logEntryWrite _ => true
  | .rtcTick => true
  | .rtcSet m => wfMaster m
  | .vaonPowerUp => true
  | .pmuPeriod => true
  | .phaseReport n => wfCluster n
  | .capWrite m v => wfMaster m && wfWord v
  | .energyApportion _ _ _ _ => true
  | .droopFiring n => wfCluster n
  | .droopRelease n => wfCluster n
  | .phaseFaultInput r _ => wfRail r
  | .telemetrySample r mv _ => wfRail r && wfHalf mv
  | .phaseRestoreRequest m r v => wfMaster m && wfRail r && wfWord v
  | .thermalSample _ => true
  | .shutdownHoldRelease _ => true
  | .domainOnRequest m d => wfMaster m && wfDomain d
  | .domainOffRequest m d => wfMaster m && wfDomain d
  | .powerGood d => wfDomain d
  | .powerGoodTimeout d => wfDomain d
  | .autoGateIdle d => wfDomain d
  | .testBudgetGrant n => wfCluster n
  | .adcSample _ _ _ _ => true
  | .mtiCheckpoint _ => true
  | .powerFailSignal _ => true
  | .mtiStart crc worn => wfWord crc && worn.all (fun k => decide (k < 1024))
  | .clockCheck _ => true
  | .ringSweep _ _ => true
  | .socEvaluation => true
  | .snapshotRefresh => true
  | .snapshotLatchRead m _ => wfMaster m
  | .paramWrite _ _ crc _ => wfWord crc
  | .paramRead _ crc => wfWord crc
  | .rawRead _ crc => wfWord crc
  | .mtiSeal _ pcrc crc => wfWord pcrc && wfWord crc
  | .zthEnergyDetect p => wfZport p
  | .zthBlockLock p lanes => wfZport p && wfLaneMask lanes
  | .zthAlignDone p _ pol => wfZport p && wfLaneMask pol
  | .capSend p => wfZport p
  | .flitSlot p => wfZport p
  | .ethLinkUp n => wfMac n
  | .ethLinkDown n => wfMac n
  | .pcieLinkUp p width rate => wfTwo p && wfFour width && wfRing8 rate
  | .pcieLinkDown p => wfTwo p
  | .pcieCompletion p tag _ _ => wfTwo p && wfTag tag
  | .perstRelease p => wfTwo p
  | .canArbitrationLost n sof => wfFour n && wfDword sof
  | .canBusError n _ inc sof => wfFour n && wfWord inc && wfDword sof
  | .canRecoveryComplete n => wfFour n
  | .sampleComplete => true
  | .engineOpComplete e _ => wfEng e
  | .loadStoreComplete n i ep => wfCluster n && wfWord i && decide (ep < 16)
  | .vmetPowerLoss _ => true
  | .vaonPowerLoss => true
  | .jtagTapCycle _ _ _ => true

end Sys2Proof
end

