-- ==== Sys2Proof/Tests/Slice0.lean ====
section
/-! SUPPORT. The model's own tests: WellFormed refuses what breaks each of its checks, a few commands on small states, and for every statement states
and operands that meet its hypotheses. -/
open Sys2Proof Sys2Proof.Machine
set_option maxRecDepth 4000
set_option Elab.async false

/-- Everything on, as after start-up, with no image. -/
def up : State := (List.range 96).foldl (fun t d => t.setPd d 2) State.reset

/-- A loaded object of partition 0: queues 0 to 3, cells 0 to 15, all clusters, all of DRAM granted, every format locked. -/
def obj0 : Obj := ⟨1, 0, 0x1000000000, 0x1000, 2 ^ 64 - 1, 0, 0x400000, 0, 4, 0, 16, 8, 0, 2 ^ 32 - 1, 0x1000100000, 8, 0x1000200000, 1,
  [(0x1000000000, 0x10000000, 3)], false⟩

/-- A state with that object loaded. -/
def withObj (s : State) : State := { s with objs := [obj0] }

/-- Its queue 0 on, both rings of 16 entries, a background task of band 0. -/
def qUp : State :=
  let s := withObj up
  let s := ((s.setF (DCK_QUEUE_RING_LO.LOG2_SIZE 0) 4).setF (DCK_QUEUE_RING_HI.BASE_HI 0) 0x10).setF (DCK_QUEUE_RING_LO.BASE_LO 0) 0x10
  let s := ((s.setF (DCK_QUEUE_CPL_LO.LOG2_SIZE 0) 4).setF (DCK_QUEUE_CPL_HI.BASE_HI 0) 0x10).setF (DCK_QUEUE_CPL_LO.BASE_LO 0) 0x20
  (s.setF (DCK_QUEUE_CFG.EN 0) 1).setQ 0 { QState.init with key := some ⟨false, 0, none, none⟩ }

/-- That queue with one entry pushed, whose first bytes are given. -/
def withHead (bs : List Byte) : State := (qUp.setF (DCK_QUEUE_TAIL.COUNT 0) 1).putAll (placed (qUp.ringBase 0) bs)

/-- The same with its ring outside memory, which no controller serves and the Headbox does not count. -/
def farHead (bs : List Byte) : State :=
  let s := (qUp.setF (DCK_QUEUE_RING_HI.BASE_HI 0) 4).setF (DCK_QUEUE_TAIL.COUNT 0) 1
  s.putAll (placed (s.ringBase 0) bs)

/-- That queue with the two parts of a split NOP pushed; bad: part 1's reserved byte 59 departs from part 0's. -/
def jobHead (bad : Bool) : State :=
  (qUp.setF (DCK_QUEUE_TAIL.COUNT 0) 2).putAll (placed (qUp.ringBase 0) (leBytes 64 (2 * 256 ^ 51) ++ leBytes 64 (256 ^ 50 + 2 * 256 ^ 51 + b2n bad * 256 ^ 59)))

/-- Its task bound to cluster 0, which is draining, at a pre-emption point with one save slot of a sheet. -/
def drain0 : State :=
  let s := ((qUp.setF (ITG_CLU.SVC 0) 1).setF (DCK_SAVE_SLOT.SLOTS 0) 1).setF (DCK_SAVE_SLOT.SLOT_SHEETS 0) 1
  let t := s.setQ 0 { s.q 0 with bound := some 0, mark := some 0xFFFF }
  t.setCl 0 { t.cl 0 with bound := some 0 }

/-- An operation of object 1's queue 0 on cluster 0 whose descriptor begins with the bytes given. -/
def opOf (ph : OpPhase) (bs : List Byte) : Op :=
  { id := 1, queue := 0, slot := 0, handle := 1, part := 0, clu := 0, task := 0, bytes := bs ++ List.replicate (64 - bs.length) 0,
    tds := [none, none, none, none, none, none], kvLens := [], overdue := false, split := false, phase := ph, begun := 0, drained := 0, waitBlock := none, status := 0,
    detail := 0, invalid := false, provIn := false, emptyRed := false, skip := false, reported := false, energy := 0, acceptTime := 0, copied := [], wrote := [], blame := 0 }

/-- Cluster 0 with one operation in its issue stage, in its Beater, in its address generator, or in its Calender. -/
def withInbox (bs : List Byte) : State := qUp.setCl 0 { Cluster.init with inbox := [opOf .sent bs] }
def withBtr (ph : OpPhase) (bs : List Byte) : State := qUp.setCl 0 { Cluster.init with btr := [opOf ph bs] }
def withLs (ph : OpPhase) (bs : List Byte) : State := qUp.setCl 0 { Cluster.init with ls := [opOf ph bs] }
def withCal (bs : List Byte) : State := (qUp.setCl 0 { Cluster.init with cal := [opOf .accepted bs] }).setF (PMU_CLU.QCAP 0) 64

/-- A GEMM of one row, one column and depth k in format 1. -/
def gemmOf (k : Nat) : State := withCal [1, 0, 0, 0, 1, 1, 1, 1, 1, 0, 0, 0, 1, 0, 0, 0, BitVec.ofNat 8 k]

/-- A finished chain waiting, one whose rows are written, and an operation with its one chain drained. -/
def heldOne : State := let s := gemmOf 0; s.setCl 0 { s.cl 0 with held := [⟨1, 0, 0, 0, [], false⟩] }
def drainOne : State := let s := gemmOf 0; s.setCl 0 { s.cl 0 with drain := some ⟨1, 0, 0, 0, [], true⟩ }
def calDone0 : State := let s := gemmOf 0; s.setCl 0 { s.cl 0 with cal := (s.cl 0).cal.map (fun o => { o with drained := 1 }) }

/-- A CURVE operation that waits for its record. -/
def curve0 : State := withBtr .accepted ([0x12] ++ List.replicate 57 0 ++ [0xA0])


/-- Object 1 loaded, with the arguments given in partition 0's QUI_ARG; the same with one KV slot of 8 tokens in slot 0. -/
def qArgs (as : List Nat) : State := (as.zipIdx).foldl (fun t x => t.setF (QUI_ARG.VALUE 0 x.2) x.1) (withObj up)
def kv0 : Slot := kvSlotEntry obj0 1 0 4 0x1000000000 0
def withKv (as : List Nat) : State := (qArgs as).setSlot 0 kv0

/-- The same with a pool of 4 sheets at sheet 16, sheet 16 held, sheet 17 pinned. -/
def withPool (as : List Nat) : State :=
  let s := ((withKv as).setF (QUI_POOL_LO.BASE 0) 0x10).setF (QUI_POOL_HI.BASE 0) 0x10
  let s := ((s.setF (QUI_POOL_SHEETS.SHEETS 0) 4).setF (QUI_META_LO.BASE 0) 0x20).setF (QUI_META_HI.BASE 0) 0x10
  (s.setRefs 0 16 1).setRefs 0 17 0xFFFF

/-- That pool, its slot 8 tokens long with 8 to a page, one page mapped to a shared sheet, to be cut to 4; empty: no sheet is free. -/
def kvCut : Slot := { kv0 with log2Tps := 3, length := 8 }
def cutState (empty : Bool) : State :=
  let s := ((withPool [0, 4]).setSlot 0 kvCut).writeEntry (kvCut.entryAddr 0 0 0) (some 17)
  (s.setRefs 0 17 2).setF (QUI_POOL_FREE.COUNT 0) (b2n (!empty))

/-- Object 1 on one cluster, batch 0 open, a stream slot of 4 bytes in it with state row 0. -/
def obj1 : Obj := { obj0 with mask := 1 }
def stream0 : Slot := { Slot.free with state := 2, stream := true, handle := 1, layers := 1, log2Tps := 1, batch := 0, row := 0 }
def withStream (as : List Nat) : State :=
  let s : State := { qArgs as with objs := [obj1] }
  (s.setSlot 0 stream0).setBatch 0 { Batch.free with isOpen := true, stream := true, handle := 1, rowStride := 0x1000 }
def withBatch (stepOpen : Bool) (as : List Nat) : State := (withKv as).setBatch 0 { Batch.free with isOpen := true, stepOpen := stepOpen, handle := 1, mode := 1 }

/-- Partition 0's record: enabled, all clusters, a window of 4 GiB from DRAM's base. -/
def partFill (s : State) : State :=
  [(0, 1), (2, 0xFFFFFFFF), (3, 0xFFFFFFFF), (8, 0), (9, 0x10), (10, 0xFFFFFFFF), (11, 0x10)].foldl
    (fun t (x : Nat × Nat) => t.wr (DCK_PART_REC.addr 0 x.1) (BitVec.ofNat 32 x.2)) s

/-- Partition 0 enabled, its window all of DRAM's first 4 GiB, all clusters; and ring 0 of mover 0 laid out inside it. -/
def partUp : State :=
  let s := (up.setF (MEM_PMV_RING_LO.LOG2_SIZE 0 0) 4).setF (MEM_PMV_RING_HI.BASE_HI 0 0) 0x10
  partFill s

/-- A program object of one section in partition 0's window, at DRAM's base, that asks for one cluster; bad: it references format 31, which is not loaded. -/
def imageBytes (bad : Bool) : List Byte :=
  let head := fun (crc : Nat) => leBytes 4 0x54534647 ++ [1, 1] ++ leBytes 2 1 ++ leBytes 8 152 ++ leBytes 8 0 ++ leBytes 4 crc ++ leBytes 36 0
  let body := leBytes 24 (1 + 88 * 2 ^ 64 + 64 * 2 ^ 128) ++ leBytes 64 (2 ^ 16 + b2n bad * 2 ^ 223)
  head (crc32c (head 0 ++ body)) ++ body
def withImage (bad : Bool) : State :=
  (partUp.setF DCK_LOAD_OBJ_HI.ADDR_HI 0x10).putAll (placed 0x1000000000 (imageBytes bad))

/-- Ring 0 of mover 0 on, one entry of the OP given in front. -/
def mvHead (op : Nat) : State :=
  let s := (partUp.setF (MEM_PMV_RING_CFG.EN 0 0) 1).setF (MEM_PMV_RING_TAIL.COUNT 0 0) 1
  s.putAll (placed 0x1000000000 (leBytes 64 op))

/-- Mover 0 with a FETCH_NVME move whose one sheet is outstanding as command 0, and a completion entry with the status word given. -/
def nvmeUp (status : Nat) : State :=
  let s := ((up.setF (MEM_PMV_NVME_CFG.EN 0) 1).setF (MEM_PMV_NVME_LO.ADDR 0 1) 0x400).setF (MEM_PMV_NVME_HI.ADDR 0 1) 0x10
  let s := s.putAll (placed 0x1000001000 (leBytes 16 ((status + b2n (s.mover 0).cqPhase) * 2 ^ 112)))
  s.setMover 0 { s.mover 0 with reported := [0], moves := [⟨1, 0, 0, leBytes 64 6, [], [⟨1, 0, true, false, 0, 65536, 0⟩], false, 0, false, [], false, false, [], [], 0⟩] }

/-- Mover 0 with a FILL move of one code. -/
def fillMove (code : Nat) : State :=
  up.setMover 0 { up.mover 0 with moves := [⟨1, 0, 0, leBytes 64 2, [], [], false, code, false, [], false, false, [], [], 0⟩] }

/-- Port 0 up with one tracker entry of one block, spoilt or not, open since time 0. -/
def trackUp (sp : Bool) : State := { (up.setF (ETH_CFG.LINK 0) 1).setTrackers 0 [⟨1, 2, 0x1000000, 0x1000000, 0, sp, none⟩] with cyc := 10 ^ 13 }

/-- A well-formed engine descriptor of each opcode, with an address 0 that no grant holds; an operation with it; that operation in front of a unit. -/
def engBytes (op : Nat) : List Byte :=
  let fs : List (Nat × Nat) := if op = 0x44 then [(12, 1), (14, 1), (36, 1)] else if op = 0x58 then [(4, 1), (6, 1), (40, 64)]
    else if op = 0x59 then [(4, 1), (6, 1), (48, 1)] else if op = 0x62 then [(4, 1), (6, 1), (16, 4), (20, 0x3F800000), (28, 1)]
    else if op = 0x63 then [(48, 1), (49, 1)] else if op = 0x60 ∨ op = 0x61 ∨ op = 0x64 then [(4, 1)] else []
  leBytes 64 (op + sumN (fs.map (fun f => f.2 * 2 ^ (8 * f.1))))
def engOp (op : Nat) : Op := opOf .accepted (engBytes op)
def engOn (e : Nat) (load : Bool) (op : Nat) : State := (withObj up).setUnit e load (some (engOp op)) none
def engDone (r : EngRes) : Bool := match r with | .done _ _ => true | .wait _ => false

/-- Dune 0 with a roadmap in slot 0; Marl 0 with a QP_FACTOR whose deadline has passed. -/
def duneBound : State := let s := engOn 1 false 0x41; s.setDune 0 { s.dune 0 with slots := setAt (s.dune 0).slots 0 (some ⟨1, [], true, 0, none⟩) }
/-- The same with a VALIDATE that names slot 0 posted on queue 1, which is the engine's. -/
def duneNamed : State :=
  let s := (((duneBound.setF (DCK_QUEUE_RING_LO.LOG2_SIZE 1) 4).setF (DCK_QUEUE_RING_HI.BASE_HI 1) 0x10).setF (DCK_QUEUE_CFG.ENGINE 1) 1).setF (DCK_QUEUE_CFG.EN 1) 1
  (s.setF (DCK_QUEUE_TAIL.COUNT 1) 1).putAll (placed (s.ringBase 1) [0x43])
def slvLate0 : State :=
  { (withObj up).setUnit 3 false (some (opOf .accepted (leBytes 64 0x40052))) (some (EngOut.of 0 0 [])) with dlNow := 100 }

/-- Context 0 with a law load under way, from an address in DRAM or outside it. -/
def lawUp (good : Bool) : State :=
  let s := up.setCtx 0 { TltCtx.init with loading := some (if good then 0x1000000000 else 0) }
  if good then s.setF (TLT_LAW_HI.ADDR_HI 0) 0x10 else s

/-- Context 0 with a law of one state and one output, a setpoint read of an empty block under way at an address with the high word given. -/
def law0 : Law := ⟨1, 1, 0, [], [], [0], [0], [0]⟩
def spUp (hi : Nat) : State := (up.setF (TLT_SP_HI.ADDR_HI 0) hi).setCtx 0 { TltCtx.init with law := some law0, reading := true }

/-- Context 0 enabled, a sample of it running or not, at a time, with a launch time. -/
def sampleOn (busy : Bool) (now launch : Nat) : State :=
  let s := up.setF (TLT_CFG.EN 0) 1
  let s := s.setCtx 0 { TltCtx.init with law := some law0, on := true }
  { s with now := now, tilth := { s.tilth with run := if busy then some ⟨0, 0, 0, launch, [0], 0, 0, 0, 0, [0]⟩ else none } }
def sampleDue : State := (sampleOn false 0 0).setF (TLT_CFG.PERIOD_NS 0) 50000

/-- MAC 0 on with its link up, queue 0 Tilth's, one output waiting. -/
def macUp : State := (((up.setF (ETH_CFG.EN 0) 1).setF (ETH_CFG.LINK 0) 1).setF (ETH_Q_CFG.TX_EN 0 0) 1)
def tltFrame : State := let s := macUp.setF (ETH_Q_CFG.TILTH 0 0) 1; s.setMac 0 { s.mac 0 with tilth := [⟨0, 0, 0, []⟩] }

/-- MAC 0 with one descriptor of 60 bytes posted on queue 0, LT in the past (LT_EN as given). -/
def macRing (lt : Nat) : State :=
  let s := ((macUp.setF (ETH_TXQ_HI.BASE_HI 0 0) 0x10).setF (ETH_TXQ_TAIL.COUNT 0 0) 1).setF (ETH_TXQ_LO.LOG2_SIZE 0 0) 4
  let s := s.putAll (placed 0x1000000000 (leBytes 32 (0x1000001000 + 60 * 2 ^ 48 + lt * 2 ^ 96)))
  { s with now := 10 ^ 9 }

/-- The same with its head read, of the status given, and its descriptor's block being filled or not. -/
def macRead (lt status : Nat) (fill : Bool) : State :=
  let s := macRing lt
  let h : EthFetch := ⟨s.bytesAt 0x1000000000 32, [], status, none⟩
  (s.setMac 0 ((s.mac 0).setHead 0 (some h))).setTag 0x1000000 { BlockTag.init with fill := fill }
def macSends (ring fill : Bool) : State := let s := macRead 0 0 fill; s.setMac 0 { s.mac 0 with tx := some ⟨0, ring, false, 0, none⟩ }

/-- Zetha port 0 on, in a state of R560, its inbound range the first 64 KiB of DRAM; with an arrived message of one type, length, tag and address. -/
def zAt (st : Nat) : State :=
  (((up.setF (ZTH_CFG.EN 0) 1).setF (ZTH_STATUS.STATE 0) st).setF (ZTH_IN_BASE.ADDR 0) 0x100000).setF (ZTH_IN_LIMIT.ADDR 0) 0x100000
/-- A flit as a peer's lanes bring it. -/
def zWire (bs : List Byte) : List (List (Nat × List Byte)) :=
  (ZPort.init.lanes bs).map (fun l => [(1, (l.2.drop 1).take 16), (1, l.2.drop 18)])
def zMsg (ty len tag a : Nat) : State :=
  let s := zAt 5
  s.setZport 0 { s.zport 0 with arrived := [(0, zHeader ty 0 0 1 len a tag 0 0 ++ leBytes len 0)] }
/-- The same message marked provisional, with every inbound entry taken; a port with route 0 over its window; a tagged first block. -/
def zProv (ty len a : Nat) : State :=
  let s := zMsg ty len 0 a
  s.setZport 0 { s.zport 0 with arrived := [(0, zHeader ty 2 0 1 len a 0 5 0 ++ leBytes len 0)], inb := List.replicate 256 ⟨1, 1, 0, 0⟩ }
def zRouted : State := ((zAt 5).setF (ZTH_ROUTE.VALID 0) 1).setF (ZTH_ROUTE_W1.WIN_LIMIT 0) 0xFFFF
def tag0 (s : State) (t : BlockTag) : State := s.setTag 0x1000000 t
def zReqs (wr : Bool) (mover : Nat) (s : State) : State := s.setZport 0 { s.zport 0 with reqs := [⟨0, wr, mover, 0, 0, 0, 0⟩] }

/-- Camera port 0 on, its context 0 on with a ring of 16 at DRAM's base. -/
def camUp : State :=
  (((up.setF (CSI_CFG.EN 0) 1).setF (CSI_CTX_CFG.EN 0 0) 1).setF (CSI_CTX_LO.LOG2_SIZE 0 0) 4).setF (CSI_CTX_HI.BASE_HI 0 0) 0x10

/-- PCIe port 0 a root port with its link up; the same with request 1 outstanding, of a mover or of a core (0xFF). -/
def pciUp : State := (up.setF (PCI_CFG.MODE 0) 1).setF (PCI_CFG.LINK_UP 0) 1
def pciReq (mover : Nat) : State := pciUp.setPport 0 ⟨[⟨1, mover, 0, 0, 4, 0, 0⟩], 2, false, false⟩

/-- Port 0 an endpoint with its link up, BAR0 over the bottom of the map or over DRAM's first block; the root port with an IOMMU mode and a device context
that asks for no translation in DRAM's first block, which a move fills or not. -/
def pciEp (hi : Nat) : State := ((up.setF (PCI_CFG.MODE 0) 2).setF (PCI_CFG.LINK_UP 0) 1).setF (PCI_IN_BASE_HI.ADDR 0) hi
def pciIo (mode tc : Nat) (fill : Bool) : State :=
  let s := ((pciUp.setF IOM_DDTP_LO.MODE mode).setF IOM_DDTP_HI.PPN_HI 4).putAll (placed 0x1000000000 (leBytes 8 tc))
  s.setTag 0x1000000 { s.tag 0x1000000 with fill := fill }

/-- CAN controller 0 on, buffer 0 pending since time 0. -/
def canOn0 : State := (up.setF (CAN_CFG.EN 0) 1).setF (CAN_TX_REQ.REQ 0) 1

/-- A rail of I/O die 0's balls out of range: the die's own, or VIO_18. -/
def lowRail (io vio : Bool) : State := { up with supply := { up.supply with lowIo := io, lowVio := vio } }

/-- What start-up meets outside: nothing bad. -/
def bootNone : BootEnv := ⟨true, false, [], [], none, [], 25, []⟩

/-- The firmware running, channel 0 open with a request in front: operation, length, payload. -/
def mbxReq (op len : Nat) (pl : List Byte) : State :=
  let s := (up.setF MGT_BOOT_STATUS.STAGE 6).setF MGT_MBX_STATUS.OPEN 1
  let s := (s.putAll (placed (mbxBase 0) (leBytes 4 op ++ leBytes 4 0 ++ leBytes 4 len))).putAll (placed (mbxBase 0 + 0x20) pl)
  { s with mgt := { s.mgt with queue := [0] } }

/-- Rail 0 with two phases fitted; a field test of class 2 waiting for cluster 3. -/
def railUp : State := { up with thermal := { up.thermal with phases := [2], iMax := [40] } }
def testWaits : State := { up with ftQueue := [⟨3, 2, false⟩], pmu := { up.pmu with cap := 300 } }

/-- A parameter table: gains 1, offsets 0, 1,000 mAh, 3 monitors of 1 cell, a rising OCV table; the island measuring with it, a checkpoint due. -/
def mtiTable : List Byte :=
  leBytes 32 (0x3F800000 + 0x3F800000 * 2 ^ 64 + 1000 * 2 ^ 128 + 3 * 2 ^ 160 + 2 ^ 168 + 100 * 2 ^ 176 + 100 * 2 ^ 192 + 60 * 2 ^ 208)
    ++ (List.range 32).flatMap (fun k => leBytes 4 (3000 + k + k * 2 ^ 16)) ++ leBytes 96 0
def mtiUp : State :=
  let s := up.setMti { up.mti with on := true, sinceCkpt := 10, sinceSweep := 400 }
  { s with mtiStore := { s.mtiStore with params := mtiTable } }

/-- What the tries of positions ks bring: a spoiled first response to each request, then a valid one. -/
def ringAnswers (s : State) (ks : List Nat) : List (List (List Byte) × List (List Byte)) :=
  let ans := fun (k reg len : Nat) => [[], let b := ringHead k reg len ++ leBytes len 0x1234; b ++ [crc8 b]]
  ks.map (fun k => (ans k (s.mtiParam 30 1) (2 * s.mtiParam 21 1), ans k (s.mtiParam 31 1) 4))

/-- A request in front of the queue of the controller its address names; the state in which no request of the class of masters outside the table passes to DRAM's base. -/
def hbxWaits (m a n : Nat) (rd : Bool) : State := up.setHbxQueue (hopCtl (up.siteOf a)) [⟨m, 0, 0, a, n, rd, [], 0, 0, false⟩]
/-- The request a master's access makes, and one of it that waits at the master ports. -/
def hbxReqOf (s : State) (m a n : Nat) (rd : Bool) : HbxReq := ⟨m, srcDie m 0, s.hbxClass m (s.moverPart m 0 a) a, a, n, rd, s.hbxRoute (srcDie m 0) a, 0, s.cyc, false⟩
def hbxAtPort (m a n : Nat) (rd : Bool) : State := up.setHbxQueue hopPorts [hbxReqOf up m a n rd]
def hbxShut : State := up.setF (HBX_STATUS.HOLD 0 (up.hbxClass 0x60 8 0x1000000000)) 0x7F

/-- One bit of the last byte of DRAM's first block has turned over: its check fails. -/
def badBlk : State := { up with upsets := [(0x1000000FFF, 1)] }
theorem badBlk_fails : badBlk.blockOk 0x1000000 = false := by
  have hu : badBlk.hasUpset 0x1000000 = true := by decide +kernel
  have hm : ∀ a, badBlk.byte a = 0 := fun a => rfl
  have hs : ∀ i : Nat, i < 4095 → badBlk.stored (0x1000000 * 4096 + i) = 0 := by
    intro i hi
    have this : badBlk.upset (0x1000000 * 4096 + i) = 0 := by
      have h1 : (68719476736 + i : Nat) < 68719480831 := by omega
      show (if (68719476736 + i : Nat) = 68719480831 then (1 : Byte) else if (68719476736 + i : Nat) < 68719480831 then 0 else 0) = 0
      rw [if_neg (Nat.ne_of_lt h1), if_pos h1]
    rw [State.stored, hm, this]; rfl
  unfold State.blockOk
  rw [hu]
  simp only [Bool.not_true, Bool.false_or, beq_eq_false_iff_ne]
  intro h
  unfold State.watermark State.found State.bytesAt at h
  rw [List.range_succ, List.map_append, List.map_append] at h
  rw [show (List.range 4095).map (fun i => badBlk.stored (0x1000000 * 4096 + i)) = (List.range 4095).map (fun i => badBlk.byte (0x1000000 * 4096 + i)) from
    List.map_congr_left (fun i hi => by rw [hs i (List.mem_range.mp hi), hm])] at h
  exact absurd (crc32c_last _ _ _ h) (by decide +kernel)

/-- A block's check reads the memory and the upsets alone. -/
theorem blockOk_eq {s t : State} (b : Nat) (hm : t.mem = s.mem) (hu : t.upsets = s.upsets) : t.blockOk b = s.blockOk b := by
  have hb : t.byte = s.byte := by funext a; simp only [State.byte, hm]
  have hs : t.stored = s.stored := by funext a; simp only [State.stored, State.upset, hu, hb]
  have h1 : t.bytesAt = s.bytesAt := by funext a n; simp only [State.bytesAt, hb]
  simp only [State.blockOk, State.hasUpset, State.watermark, State.found, hu, hs, h1]

/-- A sweep of controller 0 running, its first block not yet seen. -/
def patrolOn (s : State) : State := (s.setPatrol 0 ⟨true, some 0, []⟩).setF (MEM_CTL_PATROL.SWEEP_S 0) 1

/-- Witness for ExecKeepsQueue. -/
theorem wit_ExecKeepsQueue : (match exec .deadlineTick { up with now := 1000 } with | .next t => t.dlNow == 1 | _ => false) = true := by decide +kernel

/-- Witness for StepKeepsSound. -/
theorem wit_StepKeepsSound : (let s := { up with now := 1000, pending := [.deadlineTick] }; s.Sound ∧ (match step s with | .next t => t.dlNow == 1 | _ => false) = true) := by
  refine ⟨⟨?_, ?_, ?_⟩, ?_⟩ <;> decide +kernel

/-- Witness for NarrowAccess. -/
theorem wit_NarrowAccess : (2 ≠ 4 ∨ 0x10000000 % 4 ≠ 0) ∧ (4 ≠ 4 ∨ 0x10000002 % 4 ≠ 0) ∧ up.nowhere 0x60 0x80000000 = true ∧ up.nowhere 0x61 0x80000000 = false := by
  decide +kernel

/-- Witness for RegisterWriteCompletes. -/
theorem wit_RegisterWriteCompletes : up.mayWrite 0x61 0x20000100 = true ∧
    (match regAt 0x20000100 with
      | some d => let i := getAt (0 : Nat) (regIdx d 0x20000100).2
        let b := (regIdx d 0x20000100).1
        (up.start.ownDck b i 5).isNone && (up.start.ownMid b i 5).isNone && (up.start.ownPorts 0x61 b i d 0x20000100 5).isNone
          && (up.start.ownSys 0x61 24 b i d 5).isNone && up.start.writable b i 5
      | none => false) = true ∧ up.mayWrite 0x61 0x20000008 = true ∧ regAt 0x20000008 = none
    ∧ (∀ a ∈ [0x20000100, 0x20000008], lowBarred 24 a = false ∧ up.nowhere 0x61 a = false) := by decide +kernel

/-- Witness for ReadCompletes. -/
theorem wit_ReadCompletes : up.mayRead 0x60 0x10000000 = true ∧ isLow 0x10000000 = false ∧ ((regAt 0x10000000).all (fun d => d.rc == 0)) = true
    ∧ up.mayRead 0x60 0x30020004 = true ∧ isLow 0x30020004 = false ∧ ((regAt 0x30020004).any (fun d => d.rc != 0)) = true
    ∧ up.mayRead 0x60 (HBX_USED.addr 1 31) = true ∧ hbxClassReg (HBX_USED.addr 1 31) = true ∧ isLow (HBX_USED.addr 1 31) = false
    ∧ ((regAt (HBX_USED.addr 1 31)).all (fun d => d.rc == 0)) = true ∧ lowBarred 24 0x10000000 = false
    ∧ up.mayRead 0x60 TIM_NOW_LO.addr = true ∧ isLow TIM_NOW_LO.addr = true ∧ ((regAt TIM_NOW_LO.addr).all (fun d => d.rc == 0)) = true
    ∧ (∀ a ∈ [0x10000000, 0x30020004, HBX_USED.addr 1 31, TIM_NOW_LO.addr], lowBarred 24 a = false ∧ up.nowhere 0x60 a = false) := by
  decide +kernel

/-- Witness for FormatEntryWrites. -/
theorem wit_FormatEntryWrites : up.mayWrite 0x61 (MGT_FMT_DESC_LO.addr 20) = true ∧ up.mayWrite 0x61 (MGT_FMT_DESC_HI.addr 20) = true
    ∧ up.flag MGT_FMT_CTRL.BUSY = false ∧ (Fmt.ofWords (up.heldOr (MGT_FMT_DESC_LO.addr 20)).toNat (BitVec.ofNat 32 0).toNat).valid = true
    ∧ up.fmtLocked 20 = false ∧ (Fmt.ofWords (up.heldOr (MGT_FMT_DESC_LO.addr 20)).toNat (BitVec.ofNat 32 0xF0000000).toNat).valid = false
    ∧ (withObj up).fmtLocked 20 = true ∧ (withObj up).flag MGT_FMT_CTRL.BUSY = false
    ∧ (up.setF MGT_FMT_CTRL.BUSY 1).flag MGT_FMT_CTRL.BUSY = true ∧ up.adm = .idle := by decide +kernel

/-- Witness for QueueDoorbells. -/
theorem wit_QueueDoorbells : up.mayWrite 0x60 (DCK_QUEUE_DB.addr 0) = true ∧ (up.objOfQueue 0).all (fun o => !o.unloading) = true ∧ up.qOn 0 = false
    ∧ (qUp.objOfQueue 0).all (fun o => !o.unloading) = true ∧ qUp.qOn 0 = true ∧ qUp.mayWrite 0x60 (DCK_QUEUE_DB.addr 0) = true
    ∧ (1 + 2 ^ 32 - qUp.qTail 0 % 2 ^ 32) % 2 ^ 32 = 1 ∧ qUp.qDepth 0 + 1 ≤ qUp.ringSize 0 ∧ (qUp.q 0).key.isSome = true
    ∧ (17 + 2 ^ 32 - qUp.qTail 0 % 2 ^ 32) % 2 ^ 32 = 17 ∧ qUp.ringSize 0 < qUp.qDepth 0 + 17
    ∧ (let s := qUp.setQ 0 QState.init; (s.q 0).key = none ∧ s.objOfQueue 0 = some obj0 ∧ s.qOn 0 = true ∧ s.qDepth 0 + 1 ≤ s.ringSize 0)
    ∧ (let s : State := { qUp with objs := [{ obj0 with unloading := true }] }; s.qOn 0 = true ∧ (s.objOfQueue 0).any (fun o => o.unloading) = true) := by decide +kernel

/-- Witness for QueueConfiguration. -/
theorem wit_QueueConfiguration : up.mayWrite 0x60 (DCK_QUEUE_CFG.addr 0) = true ∧ up.mayWrite 0x60 (DCK_QUEUE_CPL_HEAD.addr 0) = true ∧ up.qOn 0 = false
    ∧ 5 < bits (BitVec.ofNat 32 (6 * 2 ^ 28)) 30 28 ∧ bits (BitVec.ofNat 32 (5 * 2 ^ 28)) 30 28 ≤ 5 ∧ bits (BitVec.ofNat 32 (2 ^ 31)) 30 28 ≤ 5
    ∧ bits (BitVec.ofNat 32 (2 ^ 31 + 2 ^ 22)) 30 28 ≤ 5 ∧ bits (BitVec.ofNat 32 0) 30 28 ≤ 5
    ∧ bits (BitVec.ofNat 32 (2 ^ 31)) 31 31 = 1 ∧ up.cfgErr 0 (BitVec.ofNat 32 (2 ^ 31)) = 1
    ∧ (qUp.setF (DCK_QUEUE_CFG.EN 0) 0).qOn 0 = false ∧ (qUp.setF (DCK_QUEUE_CFG.EN 0) 0).cfgErr 0 (BitVec.ofNat 32 (2 ^ 31 + 2 ^ 22)) = 0
    ∧ qUp.qOn 0 = true ∧ qUp.mayWrite 0x60 (DCK_QUEUE_CFG.addr 0) = true ∧ qUp.mayWrite 0x60 (DCK_QUEUE_CPL_HEAD.addr 0) = true
    ∧ bits (BitVec.ofNat 32 0) 31 31 = 0 ∧ qUp.cfgIdle 0 = true ∧ (qUp.setF (DCK_QUEUE_TAIL.COUNT 0) 1).cfgIdle 0 = false
    ∧ qUp.cplWritten 0 < wrapSub 1 (qUp.fld (DCK_QUEUE_CPL_HEAD.NEW_COUNT 0))
    ∧ wrapSub 0 (qUp.fld (DCK_QUEUE_CPL_HEAD.NEW_COUNT 0)) ≤ qUp.cplWritten 0 ∧ (qUp.q 0).cancelTo = none
    ∧ (let s := qUp.setQ 0 { qUp.q 0 with cancelTo := some 0 }; (s.q 0).cancelTo = some 0 ∧ wrapSub 0 (s.fld (DCK_QUEUE_CPL_HEAD.NEW_COUNT 0)) ≤ s.cplWritten 0
      ∧ s.mayWrite 0x60 (DCK_QUEUE_CFG.addr 0) = true ∧ s.mayWrite 0x60 (DCK_QUEUE_CPL_HEAD.addr 0) = true) := by decide +kernel

/-- Witness for QueueControl. -/
theorem wit_QueueControl : up.mayWrite 0x60 (DCK_QUEUE_CTRL.addr 0) = true ∧ up.objOfQueue 0 = none ∧ (up.q 0).bound = none ∧ (up.q 0).job = none := by decide +kernel

/-- Witness for ControlEntries. -/
theorem wit_ControlEntries : ((withHead [0xE0]).headControl 0 0xE0).isSome = true ∧ ((withHead [0xE6]).headControl 0 0xE6).isSome = true
    ∧ ((farHead [0xE1, 0, 0, 0, 0, 0, 0, 0, 1]).headControl 0 0xE1).isSome = true ∧ ((farHead [0xE1, 0, 0, 0, 0, 0, 0, 0, 1]).start.pop 0).cellReached 0 1 = false
    ∧ (∀ f ∈ [0, 1], ((farHead [0xE1, 0, f]).headControl 0 0xE1).isSome = true ∧ ((farHead [0xE1, 0, f]).start.pop 0).cellReached 0 0 = true)
    ∧ ((farHead [0xE2, 0, 0, 0, 0, 0, 0, 0, 1]).headControl 0 0xE2).isSome = true ∧ ((farHead [0xE2, 0, 0, 0, 0, 0, 0, 0, 1]).start.pop 0).cellReached 0 1 = false
    ∧ ((farHead [0xE2]).headControl 0 0xE2).isSome = true ∧ ((farHead [0xE2]).start.pop 0).cellReached 0 0 = true
    ∧ ((withHead [0xE3]).headControl 0 0xE3).isSome = true ∧ ((withHead [0xE4]).headControl 0 0xE4).isSome = true
    ∧ (∀ op ∈ [0xE3, 0xE4], let s := withHead [op, 0, 1]; let t := s.setQ 0 { s.q 0 with inflight := 1 }
       bitN (leAt [op, 0, 1] 2 2) 0 = true ∧ (t.headControl 0 op.toNat).isSome = true ∧ (t.q 0).inflight ≠ 0)
    ∧ ((withHead [0xE5]).headControl 0 0xE5).isSome = true ∧ ((withHead [0xE5]).q 0).inflight = 0
    ∧ (let s := withHead [0xE5]; (s.setQ 0 { s.q 0 with inflight := 1 }).headControl 0 0xE5).isSome = true
    ∧ (withHead [0xE7]).headBad 0 = some 1 := by decide +kernel

/-- Witness for WaitsEnd. -/
theorem wit_WaitsEnd : (let s := qUp.setQ 0 { qUp.q 0 with wait := some (.cell 0 0 false) }; (s.q 0).wait = some (.cell 0 0 false) ∧ s.cellReached 0 0 = true)
    ∧ (let s := { qUp with dlNow := 6 }.setQ 0 { qUp.q 0 with wait := some (.timed 0 1 5 false true none) }
       (s.q 0).wait = some (.timed 0 1 5 false true none) ∧ passed s.dlNow 5 = true ∧ s.cellReached 0 1 = false)
    ∧ (let s := qUp.setQ 0 { qUp.q 0 with wait := some .fence }; (s.q 0).wait = some .fence ∧ (s.q 0).inflight = 0) := by decide +kernel

/-- Witness for CellSignalsCarry. -/
theorem wit_CellSignalsCarry : up.Sound ∧ up.mayWrite 0x60 (DCK_CELL.addr 65535) = true ∧ up.mayWrite 0x60 (DCK_CELL_ADD.addr 0) = true :=
  ⟨⟨by decide +kernel, by decide +kernel, by decide +kernel⟩, by decide +kernel⟩

/-- Witness for DeadlineTick. -/
theorem wit_DeadlineTick : (let s := { qUp with now := 1000 }; s.dlNow ≠ s.now / 1000 % 2 ^ 32 ∧ (s.q 4095).key = none)
    ∧ (∀ o ∈ [none, some (3, 2 ^ 31)], let s := ({ up with now := 1000 }).setQ 0 { QState.init with key := some ⟨true, 0, some 5, o⟩ }
        s.dlNow ≠ s.now / 1000 % 2 ^ 32 ∧ (s.q 0).key = some ⟨true, 0, some 5, o⟩) := by
  decide +kernel

/-- Witness for DispatchSends. -/
theorem wit_DispatchSends : (let s := withHead [0]; (s.choose 0).any (fun c => c.q == 0 && c.clu == 0 && decide (c.kind ≠ .restore)) = true ∧ (s.objOfQueue 0).isSome = true
      ∧ (s.q 0).job = none ∧ splitCount 0 (s.start.entry 0 (s.start.qHead 0)) = 1)
    ∧ (∀ bad ∈ [false, true], let s := jobHead bad
       (s.choose 0).any (fun c => c.q == 0 && decide (c.kind ≠ .restore)) = true ∧ (s.q 0).job = none ∧ splitCount 0 (s.start.entry 0 (s.start.qHead 0)) = 2
       ∧ splitOk ((List.range 2).map (fun i => s.start.entry 0 ((s.start.qHead 0 + i) % 2 ^ 32))) = !bad)
    ∧ (let s := (withHead [0x40]).setF (DCK_QUEUE_CFG.ENGINE 0) 1
       (s.choose 1).any (fun c => c.q == 0 && decide (c.kind ≠ .restore)) = true ∧ (s.objOfQueue 0).isSome = true ∧ (s.q 0).job = none)
    ∧ (let t := jobHead false; let s := t.setQ 0 { t.q 0 with job := some ⟨0, [0], 2, 1, []⟩ }
       (s.choose 0).any (fun c => c.q == 0 && decide (c.kind ≠ .restore)) = true ∧ (s.objOfQueue 0).isSome = true ∧ (s.q 0).job.isSome = true) := by decide +kernel

/-- Witness for PreemptionAndDrain. -/
theorem wit_PreemptionAndDrain :
    (let s := drain0; s.preemptVictim = some (0, none) ∧ (s.start.objOfQueue 0).isSome = true ∧ (s.start.atPoint 0).isSome = true ∧ (s.q 0).bound = some 0
      ∧ s.start.saveSlot 0 = some 0)
    ∧ (let s := qUp.setQ 0 { qUp.q 0 with save := .saving 0 0 0xFFFF (some 1) }; (s.q 0).save = .saving 0 0 0xFFFF (some 1) ∧ (s.objOfQueue 0).isSome = true
       ∧ s.filling (s.saveAddr 0 0) (s.start.saveBytes 0 (s.start.liveRanges obj0 0xFFFF)).length = false)
    ∧ (let s := (withHead [0]).setQ 0 { (withHead [0]).q 0 with save := .saved 0 0xFFFF }; s.restorable.any (fun d => d.q == 0) = true)
    ∧ (∀ v ∈ [0, 1], let s := (qUp.setF (ITG_CLU.SVC 0) v).setQ 0 { qUp.q 0 with save := .restoring 0 0 0xFFFF }
       (s.q 0).save = .restoring 0 0 0xFFFF ∧ (s.objOfQueue 0).isSome = true ∧ s.fld (ITG_CLU.SVC 0) = v
       ∧ s.filling (s.saveAddr 0 0) (512 + liveBytes (s.liveRanges obj0 0xFFFF)) = false)
    ∧ (let s := up.setF (ITG_CLU.SVC 0) 1; s.fld (ITG_CLU.SVC 0) = 1 ∧ (s.cl 0).bound = none ∧ s.noRestore 0 = true ∧ (s.cl 0).ops = [] ∧ (s.cl 0).drained = false) := by
  decide +kernel

/-- Witness for ClustersAccept. -/
theorem wit_ClustersAccept : ∀ op ∈ [0, 1, 2, 8, 9, 0x10, 0x11, 0x12, 0x13, 0x14, 0x15, 0x16, 0x17, 0x18, 0x19, 0x1A, 0x1B, 0x1C, 0x1D],
    let s := withInbox [op]
    ((s.cl 0).inbox.head?.any (fun o => o.desc.opcode == op)) = true ∧ s.cluUp 0 = true ∧ (s.cl 0).btr.length < 8 := by decide +kernel

/-- Witness for CalenderRuns. -/
theorem wit_CalenderRuns :
    (match (gemmOf 4).start.readyChain 0 with
      | some (t, o, ch) =>
        t.cluUp 0 && decide (0 < t.issueQ 0) && decide (ch.cycles < calT o.desc (t.opCtx o)) && t.operandsPresent o ch
          && (match (t.scanSlots o.desc.acceptProv o.provIn [(slotA, blocksOf (chainA o.desc (t.opCtx o) ch.idx 0 4)), (slotB, blocksOf (chainB o.desc (t.opCtx o) ch.idx 0 4))]).1 with
            | .ok _ => true
            | _ => false)
      | none => false) = true
    ∧ ((gemmOf 0).start.endingChain 0).any (fun x => x.1.cluUp 0) = true
    ∧ ((heldOne.cl 0).drain = none ∧ (heldOne.cl 0).held.length = 1 ∧ ((heldOne.cl 0).cal.find? (fun o => o.id == 1)).isSome = true ∧ heldOne.pdOn (pdClu 0) = true)
    ∧ ((drainOne.cl 0).drain.any (fun ch => ch.written) = true)
    ∧ (calDone0.calDone 0).isSome = true ∧ 1 ≠ calDone0.epoch 0
    ∧ (let ch : Chain := ⟨1, 0, 0, 0, [], false⟩
       let t := heldOne.start.setCl 0 { heldOne.cl 0 with drain := some ch, held := [] }
       ((t.cl 0).cal.find? (fun e => e.id == 1)).isSome = true) := by decide +kernel

/-- Witness for BeaterRuns. -/
theorem wit_BeaterRuns : (let s := withBtr .accepted [0x10]; (s.laneNext 0).isSome = true) ∧ (let s : State := curve0; (s.curveLoad 0).any (fun x => x.1.waitBlock.isNone) = true ∧ s.cluUp 0 = true)
    ∧ (let s := withBtr .lanes [0x10]; ((s.cl 0).btr.head?.any Op.isLanes) = true)
    ∧ (let s := withBtr .ended [0x10]; ((s.cl 0).btr.head?.any (fun o => !o.isLanes && o.isEnded && !o.reported)) = true)
    ∧ (let s := withLs .lanes [8]; ((s.cl 0).ls[0]?.any Op.isLanes) = true) ∧ 1 ≠ up.epoch 0 := by decide +kernel

/-- Witness for CopiesAndRepairs. -/
theorem wit_CopiesAndRepairs : (let s : State := { up with cows := [⟨0, 0, 0, 0x100000, 0x100001, some 0, 65536⟩] }
      s.cows[0]? = some ⟨0, 0, 0, 0x100000, 0x100001, some 0, 65536⟩ ∧ s.cowHeld ⟨0, 0, 0, 0x100000, 0x100001, some 0, 65536⟩ = false ∧ s.pendingBlock (rangeBlocks (sheetBase 0x100000) 0x10000) = none)
    ∧ (let s := up.setF (CLU_CAL_REPAIR.PENDING 0) 1; s.flag (CLU_CAL_REPAIR.PENDING 0) = true ∧ s.repairSpare 0 = none
      ∧ (s.setF (ITG_FT_RESULT.FAULT_ROW_VALID 0) 1).repairSpare 0 = some (true, 0) ∧ (s.setF (ITG_FT_RESULT.FAULT_COL_VALID 0) 1).repairSpare 0 = some (false, 0)) := by
  decide +kernel

/-- Witness for ObjectsLoadAndUnload. -/
theorem wit_ObjectsLoadAndUnload : up.mayWrite 0x60 DCK_LOAD_CMD.addr = true
    ∧ (let s := up.setF DCK_LOAD_STATUS.BUSY 1; s.flag DCK_LOAD_STATUS.BUSY = true ∧ s.mayWrite 0x60 DCK_LOAD_CMD.addr = true) ∧ up.flag DCK_LOAD_STATUS.BUSY = false
    ∧ (let t := up.start.setF DCK_LOAD_STATUS.BUSY 1; (t.admitEarly t.loadAddr).any (fun r => r.obj.isNone) = true)
    ∧ (∀ bad ∈ [false, true], let s := withImage bad
       let t := s.start.setF DCK_LOAD_STATUS.BUSY 1
       s.mayWrite 0x60 DCK_LOAD_CMD.addr = true ∧ s.flag DCK_LOAD_STATUS.BUSY = false ∧ t.admitEarly t.loadAddr = none ∧ t.flag MGT_FMT_CTRL.BUSY = false
       ∧ (t.admitChecks t.loadAddr).obj.isSome = !bad)
    ∧ (let s := (withImage false).setF MGT_FMT_CTRL.BUSY 1; let t := s.start.setF DCK_LOAD_STATUS.BUSY 1; t.admitEarly t.loadAddr = none ∧ t.flag MGT_FMT_CTRL.BUSY = true)
    ∧ (∀ a ∈ [0, 0x1000000000], let s : State := { withObj up with adm := .finishing a 0 1 1 0 1 0 0 }
       s.adm = .finishing a 0 1 1 0 1 0 0 ∧ s.dramRange a 64 = decide (a ≠ 0) ∧ s.pdOn (pdClu 0) = true ∧ s.obj 1 = some obj0 ∧ s.filling (a + 32) 32 = false)
    ∧ up.obj 7 = none ∧ (withObj up).obj 1 = some obj0 ∧ (withObj up).flag DCK_LOAD_STATUS.BUSY = false ∧ (withObj up).mayWrite 0x60 DCK_LOAD_CMD.addr = true
    ∧ (let s : State := { withObj up with adm := .unloading 1 }
       s.obj 1 = some obj0 ∧ ∀ q ∈ obj0.queues, (s.q q).inflight = 0 ∧ (s.q q).job = none ∧ (s.q q).save = .none) := by decide +kernel

/-- Witness for QuireSlotCommands. -/
theorem wit_QuireSlotCommands :
    (let t := (qArgs [1, 1, 1, 0, 0x10]).start
     t.mayWrite 0x60 (QUI_CMD.addr 0) = true ∧ t.quiCmd 0 = none ∧ t.quiWaits 0 0x01 = false ∧ t.finishCows 0 = t ∧ t.argsClean 0 [0x3FFFF, 0xF07FF, 0xFFFFFFFF, 0xFFFFFFFF, 0xFFFF, 0] = true
     ∧ t.quiObj 0 (bitsN (t.arg 0 0) 15 0) = some obj0 ∧ tableOk obj0 (t.argAddr 0 3 4) (bitsN (t.arg 0 1) 10 0) (t.arg 0 2) = true
     ∧ (t.arg 0 0, bitsN (t.arg 0 1) 10 0, bitsN (t.arg 0 1) 19 16, t.arg 0 2) = (1, 1, 0, 1) ∧ t.admitSlot obj0 0 = some 0)
    ∧ (let t := (qArgs [1, 0x10001]).start
       t.quiWaits 0 0x02 = false ∧ t.finishCows 0 = t ∧ t.argsClean 0 [0x3FFFF, 0x37F3FFF, 0xFFFFFFFF, 0, 0, 0] = true ∧ (bitsN (t.arg 0 1) 13 0, bitsN (t.arg 0 1) 22 16, bitsN (t.arg 0 1) 25 24) = (1, 1, 0))
    ∧ (let t := (withPool [0, 0, 0, 16]).start
       t.argsClean 0 [0x3FF, 0, 0, 0xFFFFFFFF, 0, 0] = true ∧ (∀ op ∈ [0x03, 0x05, 0x06, 0x07, 0x08], t.quiWaits 0 op = false) ∧ t.finishCows 0 = t ∧ t.quiSlot 0 0 = some kv0 ∧ t.mayWrite 0x60 (QUI_CMD.addr 0) = true ∧ t.quiCmd 0 = none
       ∧ t.mapped (kv0.entryAddr 0 0 0) = none ∧ t.inPool 0 16 = true ∧ t.refs 0 16 = 1 ∧ t.inPool 0 17 = true ∧ t.refs 0 17 = 0xFFFF)
    ∧ (let t := (withKv [0, 0, 0, 0x1000, 0x10]).start
       t.obj kv0.handle = some obj0 ∧ tableOk obj0 (t.argAddr 0 3 4) kv0.layers kv0.maxPages = true ∧ t.admitSlot obj0 0 = some 1 ∧ t.quiWaits 0 0x04 = false ∧ t.finishCows 0 = t)
    ∧ (∀ e ∈ [false, true], let t := (cutState e).start
       t.quiSlot 0 0 = some kvCut ∧ t.quiWaits 0 0x06 = false ∧ t.finishCows 0 = t ∧ t.arg 0 1 % kvCut.tps ≠ 0
       ∧ ((kvCut.entries 0 1).foldl (fun acc a => acc.bind (fun u => u.cutPage 0 0 a 32768)) (some t)).isNone = e) := by decide +kernel

/-- Witness for QuireBatchCommands. -/
theorem wit_QuireBatchCommands :
    (let t := (withStream [0x10001, 0, 0x10, 0, 0x1000]).start
     t.mayWrite 0x60 (QUI_CMD.addr 0) = true ∧ t.quiCmd 0 = none ∧ t.quiObj 0 1 = some obj1 ∧ obj1.holds (t.argAddr 0 1 2) 10432 1 = true
     ∧ t.argAddr 0 1 2 % 64 = 0 ∧ popcount 64 obj1.mask = 1 ∧ obj1.vatBase + 256 * 0x1000 ≤ obj1.vatBytes
     ∧ (List.range 32).find? (fun b => !(t.batch b).isOpen) = some 1 ∧ t.quiWaits 0 0x10 = false ∧ t.finishCows 0 = t)
    ∧ (∀ b ∈ [false, true], let t := (withBatch b [0, 1]).start
       (t.quiBatch 0 0).any (fun x => x.stepOpen == b && !x.stream && x.handle == kv0.handle) = true ∧ t.mayWrite 0x60 (QUI_CMD.addr 0) = true ∧ t.quiCmd 0 = none
       ∧ t.quiSlot 0 0 = some kv0 ∧ kv0.batch = 0xFF ∧ (∀ op ∈ [0x11, 0x12, 0x13, 0x14, 0x15, 0x16], t.quiWaits 0 op = false) ∧ t.finishCows 0 = t)
    ∧ (let t := (withStream [0, 0, 0, 0x1000, 0x10]).start
       t.quiSlot 0 0 = some stream0 ∧ stream0.batch ≠ 0xFF ∧ t.streamArgs 0 1 = (some (0, stream0, 0x1000001000), 0) ∧ t.mayWrite 0x60 (QUI_CMD.addr 0) = true
       ∧ t.quiCmd 0 = none ∧ (∀ op ∈ [0x13, 0x20, 0x21], t.quiWaits 0 op = false) ∧ t.finishCows 0 = t
       ∧ (let u := t.putAll (placed 0x1000001000 (t.stateRecord stream0))
          u.streamArgs 0 0 = (some (0, stream0, 0x1000001000), 0) ∧ recordCode stream0 (u.bytesAt 0x1000001000 (64 + stream0.stateBytes)) = qDone)) := by decide +kernel

/-- Witness for QuireEngine. -/
theorem wit_QuireEngine :
    (let s := up.setQuiCmd 0 (some ⟨1, 0, 0, 0, false, none⟩); s.mayWrite 0x60 (QUI_CMD.addr 0) = true ∧ (s.quiCmd 0).isSome = true)
    ∧ (∀ a ∈ [false, true], let s := up.setQuiCmd 0 (some ⟨1, 0, 0, 0, a, none⟩); (s.quiCmd 0).any (fun c => c.armed == a && c.held.isNone) = true ∧ s.cows = [])
    ∧ (let s := (qArgs [1, 1, 1, 0, 0x10]).setTag 0x1000000 { BlockTag.init with fill := true }; s.start.quiWaits 0 0x01 = true ∧ s.mayWrite 0x60 (QUI_CMD.addr 0) = true ∧ s.quiCmd 0 = none)
    ∧ (let s := (withObj up).setBatch 0 { Batch.free with isOpen := true, stepOpen := true, handle := 1, armed := some (0, 0) }
       (s.batch 0).armed = some (0, 0) ∧ (s.batch 0).stepOpen = true ∧ s.quiCmd (s.batch 0).part = none ∧ s.cellReached 0 0 = true ∧ s.stepWaits 0 = false) := by decide +kernel

/-- Witness for DramWriteLands. -/
theorem wit_DramWriteLands : ∀ m ∈ [5, 0x60, 0x90], ∀ a ∈ [0x1000000000, 0x1000000FFF], let bs : List Byte := [7]; let src := srcDie m 0
    Memory.wf up = true ∧ bs ≠ [] ∧ (a + bs.length - 1) / 4096 = a / 4096 ∧ up.region a bs.length = .data ∧ up.hartBarred m a bs.length = false
    ∧ up.memOn (a / 4096 * 4096) = true ∧ (up.tag (a / 4096)).fill = false ∧ (m < 64 → 0 = up.epoch m) ∧ up.blockOk (a / 4096) = true ∧ up.chanOf (a / 4096) = 0
    ∧ (hbxWaits m a 1 false).hbxQueued m src a bs.length false = true ∧ up.hbxOnWay m src a bs.length false = false
    ∧ up.hbxMayIssue (hbxReqOf up m a bs.length false) (up.hbxQueue hopPorts) = true := by decide +kernel

/-- Witness for MemoryAccesses. -/
theorem wit_MemoryAccesses :
    (5 < 64 ∧ 1 ≠ up.epoch 5) ∧ (∀ m ∈ [0x60, 0x61, 0x90], ¬ (m < 64 ∧ 0 ≠ up.epoch m))
    ∧ (let s := hbxAtPort 0x60 0x1000000000 4 false; s.hbxQueued 0x60 (srcDie 0x60 0) 0x1000000000 4 false = false ∧ s.hbxOnWay 0x60 (srcDie 0x60 0) 0x1000000000 4 false = true)
    ∧ (hbxShut.hbxQueued 0x60 (srcDie 0x60 0) 0x1000000000 4 false = false ∧ hbxShut.hbxOnWay 0x60 (srcDie 0x60 0) 0x1000000000 4 false = false
      ∧ hbxShut.hbxMayIssue (hbxReqOf hbxShut 0x60 0x1000000000 4 false) (hbxShut.hbxQueue hopPorts) = false)
    ∧ (hbxWaits 0x60 0x1000000000 4 true).hbxQueued 0x60 (srcDie 0x60 0) 0x1000000000 4 true = true
    ∧ (∀ m ∈ [0x50, 0x60, 0x90], ∀ rd ∈ [false, true], up.hbxOnWay m (srcDie m 0) 0x1000000000 4 rd = false
      ∧ up.hbxMayIssue (hbxReqOf up m 0x1000000000 4 rd) (up.hbxQueue hopPorts) = true)
    ∧ (∀ s ∈ [up, hbxShut, up.setTag 0x1000000 { BlockTag.init with poison := true }], s.hartBarred 0x60 0x1000000000 4 = false ∧ s.region 0x1000000000 4 = .data
      ∧ (rangeBlocks 0x1000000000 4).all (fun b => s.memOn (b * 4096)) = true ∧ s.pendingBlock (rangeBlocks 0x1000000000 4) = none)
    ∧ (∀ b ∈ rangeBlocks 0x1000000000 4, (up.tag b).poison = false ∧ up.chanOf b = 0)
    ∧ (let s := up.setTag 0x1000000 { BlockTag.init with poison := true }; (rangeBlocks 0x1000000000 4).find? (fun b => (s.tag b).poison) = some 0x1000000
      ∧ s.chanOf 0x1000000 = 0 ∧ s.hbxOnWay 0x60 (srcDie 0x60 0) 0x1000000000 4 true = false
      ∧ s.hbxMayIssue (hbxReqOf s 0x60 0x1000000000 4 true) (s.hbxQueue hopPorts) = true)
    ∧ up.region up.metaBase 4 = .meta_ ∧ up.hartBarred 0x90 up.metaBase 4 = false ∧ up.dramRange up.metaBase 4 = true
    ∧ (rangeBlocks up.metaBase 4).all (fun b => up.memOn (b * 4096)) = true ∧ isCore 0x90 = false ∧ isCore 0x60 = true ∧ isCore 0x61 = true
    ∧ up.hbxOnWay 0x90 (srcDie 0x90 0) up.metaBase 4 false = false ∧ up.hbxMayIssue (hbxReqOf up 0x90 up.metaBase 4 false) (up.hbxQueue hopPorts) = true
    ∧ checksReads 0x50 = true ∧ checksReads 0x79 = true := by decide +kernel

/-- Witness for PatrolAndSplit. -/
theorem wit_PatrolAndSplit :
    (up.setF (MEM_CTL_PATROL.SWEEP_S 0) 1).sweepDue 0 = true
    ∧ up.fld (MEM_CTL_PATROL.SWEEP_S 0) = 0
    ∧ (∀ s ∈ [patrolOn up, patrolOn (up.setTag 0x1000000 { BlockTag.init with fill := true }), patrolOn (up.noteChecked 0x1000000), patrolOn badBlk],
      s.ctlUp 0 = true ∧ (s.patrol 0).running = true ∧ s.fld (MEM_CTL_PATROL.SWEEP_S 0) ≠ 0 ∧ s.chanOf 0x1000000 = 0 ∧ 0 < s.siteBlocks ∧ 0 ∉ (s.patrol 0).seen ∧ s.blockAddr 0 0 / 4096 = 0x1000000)
    ∧ ((patrolOn (up.setTag 0x1000000 { BlockTag.init with fill := true })).tag 0x1000000).fill = true ∧ (patrolOn (up.noteChecked 0x1000000)).isChecked 0x1000000 = true
    ∧ ((patrolOn up).tag 0x1000000).fill = false ∧ (patrolOn up).isChecked 0x1000000 = false ∧ (patrolOn up).blockOk 0x1000000 = true
    ∧ ((patrolOn badBlk).tag 0x1000000).fill = false ∧ (patrolOn badBlk).isChecked 0x1000000 = false
    ∧ up.mayWrite 0x61 MEM_SPLIT.addr = true ∧ up.flag MEM_SPLIT.LOCK = false ∧ bits (BitVec.ofNat 32 1) 11 0 ≤ up.dieData / 0x2000000
    ∧ bits (BitVec.ofNat 32 1) 31 31 = 0 ∧ (up.setF MEM_SPLIT.LOCK 1).mayWrite 0x61 MEM_SPLIT.addr = true ∧ (up.setF MEM_SPLIT.LOCK 1).flag MEM_SPLIT.LOCK = true
    ∧ bits (BitVec.ofNat 32 0x80000000) 31 31 = 1 ∧ up.dieData / 0x2000000 < bits (BitVec.ofNat 32 0xFFF) 11 0 ∧ bits (BitVec.ofNat 32 0xFFF) 31 31 = 0
    ∧ up.dieData / 0x2000000 < bits (BitVec.ofNat 32 0x80000FFF) 11 0 ∧ bits (BitVec.ofNat 32 0x80000FFF) 31 31 = 1 := by decide +kernel
theorem wit_PatrolAndSplit_fails : (patrolOn badBlk).blockOk 0x1000000 = false := by
  rw [blockOk_eq (s := badBlk) 0x1000000 (by decide +kernel) (by decide +kernel)]; exact badBlk_fails

/-- Witness for MoverRings. -/
theorem wit_MoverRings :
    (let s := (up.setF (MEM_PMV_RING_CFG.EN 0 0) 1).setF (MEM_PMV_RING_LO.LOG2_SIZE 0 0) 4
     s.mayWrite 0x60 (MEM_PMV_RING_DB.addr 0 0) = true ∧ s.mayWrite 0x60 (MEM_PMV_RING_CFG.addr 0 0) = true ∧ s.flag (MEM_PMV_RING_CFG.EN 0 0) = true
     ∧ s.fld (MEM_PMV_RING_TAIL.COUNT 0 0) = 0 ∧ s.fld (MEM_PMV_RING_HEAD.COUNT 0 0) = 0 ∧ (16 + 2 ^ 32 - 0) % 2 ^ 32 = 16 ∧ (s.mover 0).moves.any (fun x => x.ring == 0) = false)
    ∧ (let s := partUp; s.flag (MEM_PMV_RING_CFG.EN 0 0) = false ∧ s.pmvCfgErr 0 0 = 0 ∧ up.pmvCfgErr 0 0 ≠ 0 ∧ s.mayWrite 0x60 (MEM_PMV_RING_CFG.addr 0 0) = true)
    ∧ (let s := ((up.setF (MEM_PMV_RING_CFG.EN 0 0) 1).setF (MEM_PMV_RING_TAIL.COUNT 0 0) 1)
       s.fld (MEM_PMV_RING_HEAD.COUNT 0 0) ≠ s.fld (MEM_PMV_RING_TAIL.COUNT 0 0) ∧ s.mayWrite 0x60 (MEM_PMV_RING_CFG.addr 0 0) = true) := by decide +kernel

/-- Witness for MovesRun. -/
theorem wit_MovesRun :
    (∀ op ∈ [1, 2, 3, 4, 5, 6], let s := mvHead op
      s.startCows.nextRing 0 = some 0 ∧ (s.startCows.ringHead 0 0).any (fun b => leAt b 0 1 == op) = true)
    ∧ (∀ x ∈ [0, 4], let s := nvmeUp x
       s.cqeNew 0 = true ∧ (s.cidPiece 0 (leAt (s.cqe 0) 12 2)).isSome = true ∧ leAt (s.cqe 0) 14 2 / 2 = x / 2
       ∧ (s.start.cqePop 0 |>.checkAll 0 1 (rangeBlocks (s.nvmeAddr 0 1 + 16 * (s.mover 0).cqHead) 16)).2 = true)
    ∧ (let t := nvmeUp 0; let s := t.setMover 0 { t.mover 0 with moves := [] }; s.cqeNew 0 = true ∧ s.cidPiece 0 (leAt (s.cqe 0) 12 2) = none)
    ∧ (let s := nvmeUp 0; s.fld (MEM_PMV_T2_TIMEOUT.US 0) * 1000 ≤ ({ s with cyc := 10 ^ 9 } : State).cyc
       ∧ (s.mover 0).moves.any (fun v => (MoveDesc.ofBytes v.bytes).fetch && (getAt ⟨0, 0, false, true, 0, 0, 0⟩ v.sheets 0).out) = true)
    ∧ (∀ c ∈ [0, 5], let s := fillMove c
       (s.mover 0).moves.any (fun v => !v.busy && !s.moveReported v.id && v.code == c && v.sheets.isEmpty && v.reads.isEmpty && (MoveDesc.ofBytes v.bytes).op == 2 && !s.hbxBars 0x40 v.ring 0 v.writes) = true) := by decide +kernel

/-- The completion queue of mover 0 in that failing block, a new entry of zeros in front for the sheet outstanding as command 0. -/
def nvmeBad : State :=
  let s := (badBlk.setF (MEM_PMV_NVME_CFG.EN 0) 1).setF (MEM_PMV_NVME_HI.ADDR 0 1) 0x10
  s.setMover 0 { s.mover 0 with cqPhase := false, reported := [0], moves := [⟨1, 0, 0, leBytes 64 6, [], [⟨1, 0, true, false, 0, 65536, 0⟩], false, 0, false, [], false, false, [], [], 0⟩] }
theorem wit_MovesRun_fails : nvmeBad.cqeNew 0 = true ∧ nvmeBad.cidPiece 0 (leAt (nvmeBad.cqe 0) 12 2) = some (1, 0)
    ∧ ((nvmeBad.start.cqePop 0).checkAll 0 1 (rangeBlocks (nvmeBad.nvmeAddr 0 1 + 16 * (nvmeBad.mover 0).cqHead) 16)).2 = false := by
  refine ⟨by decide +kernel, by decide +kernel, ?_⟩
  rw [show rangeBlocks (nvmeBad.nvmeAddr 0 1 + 16 * (nvmeBad.mover 0).cqHead) 16 = [0x1000000] by decide +kernel]
  have hd : (nvmeBad.start.cqePop 0).isData (0x1000000 * 4096) = true := by decide +kernel
  have hc : (nvmeBad.start.cqePop 0).isChecked 0x1000000 = false := by decide +kernel
  have hb : ((nvmeBad.start.cqePop 0).channel 0x1000000).1.blockOk 0x1000000 = false := by
    rw [blockOk_eq (s := badBlk) 0x1000000 (by decide +kernel) (by decide +kernel)]; exact badBlk_fails
  simp [State.checkAll, hd, State.checkRead, hc, State.dramCheck, hb]

/-- Witness for HeadboxRegulates. -/
theorem wit_HeadboxRegulates :
    (masterDies 5).contains 0 = true ∧ up.hbxRoute 0 0x10000000 = [] ∧ up.hbxRoute 0 0x1000000000 ≠ [] ∧ up.hbxDark (up.hbxRoute 0 0x1000000000) = false
    ∧ (let r : HbxReq := ⟨5, 0, up.hbxClass 5 8 0x1000000000, 0x1000000000, 64, true, up.hbxRoute 0 0x1000000000, 0, up.cyc, false⟩
       let t := up.start.hbxCount 5 8 0x1000000000
       let u := hbxShut.start.hbxCount 5 8 0x1000000000
       t.hbxMayIssue r (t.hbxQueue hopPorts) = true ∧ hbxShut.hbxClass 5 8 0x1000000000 = r.cls ∧ u.hbxMayIssue r (u.hbxQueue hopPorts) = false
       ∧ up.hbxMayIssue r [] = true ∧ up.hbxDark r.route = false ∧ hbxNext hopPorts [r] 0 = true)
    ∧ (∀ rd ∈ [false, true], let s := hbxWaits 5 0x1000000000 64 rd; let k := hopCtl (s.siteOf 0x1000000000)
       k ≠ hopPorts ∧ k < 8 ∧ ((s.hbxQueue k)[0]?).any (fun r => r.rd == rd && !r.aged && s.hbxRoom r && !s.hbxDark (r.route ++ [k])) = true
       ∧ hbxNext k (s.hbxQueue k) 0 = true ∧ s.pdOn (pdCore (k / 4)) = true)
    ∧ (let s : State := { (hbxWaits 5 0x1000000000 64 true).setF (HBX_CFG.AGE_64NS 0) 1 with cyc := 64 }; let k := hopCtl (s.siteOf 0x1000000000)
       hopInst k = 0 ∧ s.fld (HBX_CFG.AGE_64NS 0) = 1 ∧ ((s.hbxQueue k)[0]?).any (fun r => decide (1 * 64 ≤ s.cyc - r.since)) = true)
    ∧ (let s : State := { up with now := windowNs (up.hbxForce 0 31).1 }; s.pdOn (pdCore 0) = true ∧ s.hbxDue 0 31 = some false)
    ∧ up.mayWrite 0x61 (HBX_MATCH_CTRL.addr 63) = true ∧ up.flag HBX_TBL_CTRL.BUSY = false ∧ (up.setF HBX_TBL_CTRL.BUSY 1).flag HBX_TBL_CTRL.BUSY = true
    ∧ (up.setF HBX_TBL_CTRL.BUSY 1).mayWrite 0x61 (HBX_MATCH_CTRL.addr 63) = true ∧ bits (BitVec.ofNat 32 0x40000000) 30 30 = 1
    ∧ (let s := up.hold (HBX_MATCH_BASE.addr 0) 1; (s.start.heldOr (HBX_MATCH_LIMIT.addr 0)).toNat < (s.start.heldOr (HBX_MATCH_BASE.addr 0)).toNat
      ∧ s.mayWrite 0x61 (HBX_MATCH_CTRL.addr 0) = true ∧ s.flag HBX_TBL_CTRL.BUSY = false)
    ∧ up.mayWrite 0x61 (HBX_CLASS.addr 1 31) = true ∧ up.mayWrite 0x61 (HBX_BUDGET.addr 1 31) = true ∧ up.mayWrite 0x61 (HBX_LINK_BUDGET.addr 1 31 2) = true
    ∧ bits (BitVec.ofNat 32 0xCFFFFFFF) 31 28 = 12 ∧ bits (BitVec.ofNat 32 0xD0000000) 31 28 = 13 := by decide +kernel

/-- Witness for IntegrityReports. -/
theorem wit_IntegrityReports :
    ({ up with reports := [⟨1, 0, 64, 0, 0, 0, 0, 0, 0, 0⟩] } : State).reports = ⟨1, 0, 64, 0, 0, 0, 0, 0, 0, 0⟩ :: [] ∧ reportOk ⟨1, 0, 64, 0, 0, 0, 0, 0, 0, 0⟩ = true
    ∧ up.reportFits ⟨1, 0, 64, 0, 0, 0, 0, 0, 0, 0⟩ = true
    ∧ (let t := (gemmOf 1).setF ITG_POLICY.WDOG 1; let s := t.setCl 0 { t.cl 0 with wdog := 100000 }
       (s.oldestOp 0).isSome = true ∧ s.fld ITG_POLICY.WDOG ≠ 0 ∧ s.svc 0 ≤ 1 ∧ s.fld ITG_POLICY.WDOG * 100000 ≤ (s.cl 0).wdog) := by decide +kernel

/-- Witness for ProvisionalResults. -/
theorem wit_ProvisionalResults :
    (∀ sp ∈ [false, true], ∀ l ∈ [0, 1], let s := (trackUp sp).setF (ETH_CFG.LINK 0) l
      (s.trackersOf 0).any (fun t => t.spoiled == sp && t.done == none && t.blocks.all (fun b => !(s.tag b).poison && !(s.tag b).prov)
        && decide (t.since + s.fld ITG_POLICY.PROV_TIMEOUT_MS * 1000000 ≤ s.cyc)) = true
      ∧ s.noticeUp 0 = decide (l = 1))
    ∧ (let s := (trackUp true).setTrackers 0 [⟨1, 2, 0x1000000, 0x1000000, 0, true, some (2, 9)⟩]; (s.trackersOf 0).any (fun t => t.done == some (2, 9)) = true ∧ s.noticeUp 0 = true)
    ∧ up.mayWrite 0x60 ITG_BROKE_HEAD.addr = true ∧ up.brokeFill < wrapSub 1 (up.fld ITG_BROKE_HEAD.COUNT)
    ∧ wrapSub 0 (up.fld ITG_BROKE_HEAD.COUNT) ≤ up.brokeFill := by decide +kernel

/-- Witness for FieldTests. -/
theorem wit_FieldTests :
    up.mayWrite 0x60 ITG_FT_REQ.addr = true
    ∧ (let s := up.setF (ITG_CLU.SVC 0) 0; s.svc 0 ≠ 5 ∧ s.oldestTest.any (fun k => s.svc k != 5) = true)
    ∧ (let s := (List.range 64).foldl (fun (t : State) n => t.setF (ITG_CLU.SVC n) 5) up; s.oldestTest = none ∧ s.svc 63 = 5 ∧ s.mayWrite 0x60 ITG_FT_REQ.addr = true)
    ∧ (let s : State := { (up.setF (ITG_CLU.SVC 0) 0).setF ITG_SWEEP.SWEEP_H 1 with cyc := 10 ^ 13 }
       s.fld ITG_SWEEP.SWEEP_H ≠ 0 ∧ s.svc 0 = 0 ∧ Sparse.get (fun _ => 0) s.lastPass 0 + s.fld ITG_SWEEP.SWEEP_H * 3600000000000 ≤ s.cyc ∧ s.ftPending < 64
       ∧ (s.ftQueue.any (fun r => r.clu == 0)) = false)
    ∧ (let s : State := { up.setF (ITG_CLU.SVC 0) 2 with ftQueue := [⟨0, 1, false⟩] }; s.ftNext = some ⟨0, 1, false⟩)
    ∧ (let s := up.setF (ITG_CLU.SVC 0) 3; s.svc 0 = 3 ∧ s.faultPlace 0 (some 0) none = true)
    ∧ (let s : State := { up.setF (ITG_CLU.SVC 0) 3 with ftPoints := [(0, [(1, 20, 0)])] }; s.svc 0 = 3 ∧ (s.pointsOf 0).any (fun p => p.1 == 1) = true) := by decide +kernel

/-- Witness for DuneOperations. -/
theorem wit_DuneOperations :
    (∀ op ∈ [0, 0x40, 0x41, 0x43, 0x44, 0x4F], let s := engOn 1 false op
      (s.engHead 1 false (fun k => k == op)).any (fun y => y.1.bytes == engBytes op && y.2 == obj0) = true)
    ∧ (let s := engOn 1 true 0x42; (s.engHead 1 true (fun k => k == 0x42)).isSome = true ∧ (s.duneFree 0).isSome = true)
    ∧ (∀ op ∈ [0, 0x40, 0x41, 0x42, 0x43, 0x44], duneParamOk (engBytes op) obj0 = true)
    ∧ duneParamOk ([0x44, 0, 0xFF, 0xFF] ++ List.replicate 60 0) obj0 = false ∧ duneParamOk (leBytes 64 0xFF0000) obj0 = false
    ∧ (let s := engOn 1 false 0x40; let o := engOp 0x40
       engDone (s.duneBind 0 o obj0) = true ∧ engDone (s.duneLoad 0 (engOp 0x42) obj0) = true ∧ engDone (s.duneValidate 0 (engOp 0x43) obj0) = true
       ∧ engDone (s.duneSearch 0 (engOp 0x44) obj0) = true ∧ s.duneSlot 0 o obj0 = none
       ∧ (∀ f ∈ [1, 2], engDone (s.duneBroken 0 f (engOp 0x43) obj0 (s.duneValidate 0 (engOp 0x43) obj0).out) = true
         ∧ engDone (s.duneBroken 0 f (engOp 0x44) obj0 (s.duneSearch 0 (engOp 0x44) obj0).out) = true))
    ∧ (let s := duneBound; (s.duneSlot 0 (engOp 0x41) obj0).isSome = true ∧ (s.engHead 1 false (fun k => k == 0x41)).isSome = true ∧ s.slotNamed 1 0 0 obj0 [0x41, 0x43, 0x44] = false)
    ∧ (let s := duneNamed; (s.duneSlot 0 (engOp 0x41) obj0).isSome = true ∧ (s.engHead 1 false (fun k => k == 0x41)).isSome = true ∧ s.slotNamed 1 0 0 obj0 [0x41, 0x43, 0x44] = true) := by
  decide +kernel

/-- Witness for MarlOperations. -/
theorem wit_MarlOperations :
    (∀ op ∈ [0, 0x50, 0x51, 0x52, 0x53, 0x54, 0x58, 0x59], let s := engOn 3 false op
      (s.engHead 3 false (fun k => k == op)).any (fun y => y.1.bytes == engBytes op && y.2 == obj0) = true ∧ slvParamOk (engBytes op) obj0 = true)
    ∧ ((engOn 3 false 0x5F).engHead 3 false (fun op => !(decide (0x50 ≤ op ∧ op ≤ 0x54) || op == 0x58 || op == 0x59))).isSome = true
    ∧ slvParamOk ([0x50, 1] ++ List.replicate 62 0) obj0 = false
    ∧ (let s := engOn 3 false 0x50
       engDone (s.qpBind 0 (engOp 0x50) obj0) = true ∧ engDone (s.qpUnbind 0 (engOp 0x51) obj0) = true ∧ engDone (s.qpFactor 0 (engOp 0x52) obj0 none) = true
       ∧ engDone (s.qpSolve 0 (engOp 0x53) obj0 none) = true ∧ engDone (s.mpcStep 0 (engOp 0x54) obj0 none) = true
       ∧ engDone (s.batchFactor 0 (engOp 0x58) obj0) = true ∧ engDone (s.batchSolve (engOp 0x59) obj0) = true
       ∧ (∀ f ∈ [1, 2], engDone (s.slvBroken 0 f (engOp 0x53) obj0 (s.qpSolve 0 (engOp 0x53) obj0 none).out) = true
         ∧ engDone (s.slvBroken 0 f (engOp 0x54) obj0 (s.mpcStep 0 (engOp 0x54) obj0 none).out) = true))
    ∧ (let s := slvLate0
       (s.eng 3).main.any (fun o => s.slvLate o.bytes && slvCuttable o.bytes (EngOut.of 0 0 []) true 0 && !s.opHasReport o.id && o.status == 0
         && engDone (s.slvCut 0 o obj0 true 0)) = true ∧ (s.eng 3).mainOut = some (EngOut.of 0 0 [])) := by decide +kernel

/-- Witness for LoamOperations. -/
theorem wit_LoamOperations :
    (∀ op ∈ [0, 0x60, 0x61, 0x62, 0x63, 0x64], let s := engOn 5 false op
      (s.engHead 5 false (fun k => k == op)).any (fun y => y.1.bytes == engBytes op && y.2 == obj0) = true ∧ lomParamOk (engBytes op) obj0 = true)
    ∧ ((engOn 5 false 0x6F).engHead 5 false (fun op => !decide (0x60 ≤ op ∧ op ≤ 0x64))).isSome = true
    ∧ lomParamOk ([0x60, 1] ++ List.replicate 62 0) obj0 = false
    ∧ (let s := engOn 5 false 0x60
       engDone (s.frameLoad (engOp 0x60) obj0) = true ∧ engDone (s.lomTransform (engOp 0x61) obj0) = true ∧ engDone (s.lomAssociate (engOp 0x62) obj0) = true
       ∧ engDone (s.trackApply (engOp 0x63) obj0) = true ∧ engDone (s.trackRead (engOp 0x64) obj0) = true
       ∧ (∀ f ∈ [1, 2], engDone (s.lomBroken f (engOp 0x62) (s.lomAssociate (engOp 0x62) obj0).out) = true))
    ∧ (let s := slvLate0; let out := EngOut.of 0 0 []
       (s.eng 3).main.any (fun o => !s.opHasReport o.id && o.status == 0 && (s.start.engWrites 3 o out).2.isEmpty) = true ∧ s.engUp 3 = true ∧ s.pendingBlock out.blocks = none) := by decide +kernel

/-- Witness for TilthContexts. -/
theorem wit_TilthContexts :
    up.mayWrite 5 (TLT_IN.addr 3 255) = true ∧ up.start.tltSettle.inGroup 0 0 = false ∧ (up.setF (TLT_GROUP.VALID 0 0) 1).start.tltSettle.inGroup 0 0 = true
    ∧ (up.setF (TLT_GROUP.VALID 0 0) 1).mayWrite 5 (TLT_IN.addr 0 0) = true ∧ up.mayWrite 5 (TLT_COMMIT.addr 0) = true ∧ up.mayWrite 0x60 (TLT_LAW_CMD.addr 0) = true
    ∧ (up.ctx 0).loading = none ∧ (lawUp true).mayWrite 0x60 (TLT_LAW_CMD.addr 0) = true
    ∧ (let s := lawUp false; (s.ctx 0).loading = some 0 ∧ s.pdOn pdTlt = true ∧ s.tilth.inReset = false ∧ s.dataRange 0 1664 = false)
    ∧ (let s := lawUp true; let a := 0x1000000000; (s.ctx 0).loading = some a ∧ s.pdOn pdTlt = true ∧ s.tilth.inReset = false
       ∧ (let len := Nat.max 1664 (Nat.min (s.imageRd a 12 4) 1048576)
          s.dataRange a 1664 = true ∧ s.dataRange a len = true ∧ s.pendingBlock (rangeBlocks a len) = none))
    ∧ (let s := (up.setF (TLT_SP_CTL.SP_EN 0) 1).setF (DCK_CELL.VALUE 0) 7; s.flag (TLT_SP_CTL.SP_EN 0) = true ∧ (s.ctx 0).cell ≠ s.spCell 0)
    ∧ (let s := spUp 0x10; let r := s.start.tltSettle; s.pdOn pdTlt = true ∧ s.tilth.inReset = false ∧ (r.ctx 0).reading = true ∧ r.spBlock 0 ≠ none
       ∧ s.pendingBlock (rangeBlocks (s.spAddr 0) 32) = none ∧ (r.ctx 0).law.any (fun l => l.spCount == 0) = true)
    ∧ (let s := spUp 0; let r := s.start.tltSettle; s.pdOn pdTlt = true ∧ s.tilth.inReset = false ∧ (r.ctx 0).reading = true ∧ r.spBlock 0 = none ∧ s.pendingBlock (rangeBlocks (s.spAddr 0) 32) = none)
    ∧ (let s := (spUp 0).setF (TLT_LAUNCH.LAUNCH_NS 0) 2000; let r := s.start.tltSettle; let t := r.wr (TLT_CFG.addr 0) (ins (BitVec.ofNat 32 50000) 31 31 1 &&& 0x7F1FFFFF)
       s.mayWrite 0x60 (TLT_CFG.addr 0) = true ∧ r.flag (TLT_CFG.EN 0) = false ∧ (r.ctx 0).law ≠ none ∧ t.tltPeriod 0 = 50000 ∧ t.tltLaunch 0 = 2000)
    ∧ (up.start.tltSettle.ctx 0).law = none ∧ up.mayWrite 0x60 (TLT_CFG.addr 0) = true ∧ up.start.tltSettle.flag (TLT_CFG.EN 0) = false
    ∧ (∀ b ∈ [false, true], let s := { sampleOn b 0 5000 with tilth := { (sampleOn b 0 5000).tilth with inReset := true } }; let r := s.start.tltSettle
       r.flag (TLT_CFG.EN 0) = true ∧ (r.tilth.run.toList ++ r.tilth.wait).any (fun p => p.ctx == 0) = b ∧ s.mayWrite 0x60 (TLT_CFG.addr 0) = true) := by decide +kernel

/-- Witness for TilthSamples. -/
theorem wit_TilthSamples :
    (let s := sampleDue; s.instantDue 0 = true ∧ s.tilth.inReset = false)
    ∧ (let s := sampleOn true 0 5000; s.tilth.run.any (fun p => decide (s.now ≤ p.deadline)) = true ∧ s.tltUp = true ∧ s.tilth.inReset = false)
    ∧ (∀ b ∈ [false, true], let s := { sampleOn true 9000 5000 with tilth := { (sampleOn true 9000 5000).tilth with inReset := b } }
       (s.outstanding 0).any (fun p => decide (p.deadline ≤ s.now)) = true ∧ s.tltUp = true)
    ∧ (∀ k ∈ [0, 1], let s := (spUp 0).setF (TLT_TEST_CFG.RUN 0) k; s.mayWrite 0x60 (TLT_TEST_CFG.addr 0) = true ∧ (s.start.tltSettle.ctx 0).nu = 1
       ∧ bits (ins (BitVec.ofNat 32 0) 31 31 1) 31 31 = 1 ∧ bits (ins (BitVec.ofNat 32 0) 31 31 1) 28 22 = 0 ∧ bits (ins (BitVec.ofNat 32 0x60000000) 31 31 1) 30 29 = 3
       ∧ bits (ins (BitVec.ofNat 32 0) 31 31 1) 30 29 ≠ 3 ∧ bits (ins (BitVec.ofNat 32 0) 31 31 1) 13 13 = 0)
    ∧ up.pdOn pdTlt = true ∧ up.tilth.inReset = false
    ∧ up.mayWrite 0x60 TLT_CTRL.addr = true ∧ up.flag TLT_STATUS.STOPPED = false ∧ (up.setF TLT_STATUS.STOPPED 1).flag TLT_STATUS.STOPPED = true
    ∧ (let s := tltFrame; (s.mac 0).tilth.any (fun f => s.chosen 0 == some f.queue && s.ethHead 0 f.queue == some (.tilth f) && decide (s.now ≤ f.launch + s.fld (ETH_CFG.LATE_NS 0))) = true
       ∧ s.ethLink 0 = true ∧ s.lineIdle 0 = true)
    ∧ (tltFrame.setF (ETH_CFG.LINK 0) 0).ethLink 0 = false := by decide +kernel

/-- Witness for TimeBaseAdvances. -/
theorem wit_TimeBaseAdvances :
    up.timWraps 1 = false ∧
    (∀ a ∈ [(0, 0), (0, -4294967), (2 ^ 32 - 1, 1)], let s : State := { up with timAcc := a.1, timRho := a.2 }
      s.timAcc < 2 ^ 32 ∧ -4294967 ≤ s.timRho ∧ s.timRho ≤ 4294967 ∧ s.now < 2 ^ 64 - 2 ∧ s.now % 2 ^ 32 + 2 < 2 ^ 32)
    ∧ (let s : State := { up with now := 2 ^ 32 - 1 }; s.timAcc < 2 ^ 32 ∧ s.timRho = 0 ∧ 2 ^ 32 ≤ s.now % 2 ^ 32 + 1) := by decide +kernel

/-- Witness for TimeRateAndStep. -/
theorem wit_TimeRateAndStep :
    up.mayWrite 0x60 TIM_RATE.addr = true ∧ up.mayWrite 0x60 TIM_CTRL.addr = true ∧ up.mayWrite 0x60 TIM_EPOCH_HI.addr = true
    ∧ up.start.timWraps 1 = false
    ∧ (let s : State := { up with now := 2 ^ 32 - 1 }; s.start.timWraps 1 = true ∧ s.mayWrite 0x60 TIM_CTRL.addr = true
       ∧ ((s.start.timGo 1).now + s.start.stepOffset) % 2 ^ 64 / 2 ^ 32 = (s.start.timGo 1).now / 2 ^ 32) := by decide +kernel

/-- Witness for EthernetTransmits. -/
theorem wit_EthernetTransmits :
    (let s := macUp; s.mayWrite 0x60 (ETH_TXQ_DB.addr 0 0) = true ∧ s.flag (ETH_Q_CFG.TX_EN 0 0) = true ∧ s.flag (ETH_Q_CFG.TILTH 0 0) = false ∧ s.fld (ETH_TXQ_TAIL.COUNT 0 0) = 0
       ∧ s.fld (ETH_TXQ_HEAD.COUNT 0 0) = 0 ∧ s.mayWrite 0x60 (ETH_RXQ_DB.addr 0 0) = true ∧ s.flag (ETH_Q_CFG.RX_EN 0 0) = false ∧ s.mayWrite 0x60 (ETH_GATE_CTRL.addr 0) = true)
    ∧ bits (ins (BitVec.ofNat 32 1) 30 30 1) 30 30 = 1 ∧ bits (ins (BitVec.ofNat 32 1) 30 30 1) 8 0 = 1 ∧ bits (ins (BitVec.ofNat 32 0) 30 30 1) 30 30 = 1 ∧ bits (ins (BitVec.ofNat 32 0) 30 30 1) 8 0 = 0
    ∧ (let s := (((macUp.setF (ETH_GATE_CYCLE.CYCLE_NS 0) 100).setF (ETH_GATE_BASE_LO.BASE 0) 5000).setF (ETH_GCL.INTERVAL 0 0) 50)
       s.mayWrite 0x60 (ETH_GATE_CTRL.addr 0) = true ∧ s.fld (ETH_GATE_CYCLE.CYCLE_NS 0) = 100 ∧ s.fld (ETH_GCL.INTERVAL 0 0) = 50
       ∧ s.now + 1000 ≤ s.fld (ETH_GATE_BASE_LO.BASE 0) + s.fld (ETH_GATE_BASE_HI.BASE 0) * 2 ^ 32)
    ∧ (let s := macUp.setMac 0 { Mac.init with change := some (0, 100) }; (s.mac 0).change = some (0, 100) ∧ s.ethUp 0 = true ∧ 0 ≤ s.now)
    ∧ (let s := macUp.setMac 0 { Mac.init with gates := [(0xFF, 50), (0, 50)], cycle := 100, entry := 1 }; s.ethUp 0 = true ∧ (s.mac 0).entry ≠ (s.mac 0).entryAt s.now ∧ (s.mac 0).change = none)
    ∧ (let t := (macRing 0).start.ethFetch 0; t.lineIdle 0 = true ∧ t.chosen 0 = some 0 ∧ (match t.ethHead 0 0 with | some (.ring _) => true | _ => false) = true)
    ∧ (let t := (macUp.setMac 0 { Mac.init with notices := [[0]] }).start.ethFetch 0; t.lineIdle 0 = true ∧ t.chosen 0 = some 0 ∧ t.ethHead 0 0 = some (.notice [0])) := by decide +kernel
theorem wit_EthernetTransmits_heads :
    (∀ r ∈ [false, true], ∀ w ∈ [false, true], let t := (macSends r w).start.ethFetch 0; (t.mac 0).tx = some ⟨0, r, false, 0, none⟩ ∧ t.filling (t.txDescAddr 0 0) 32 = w)
    ∧ (∀ w ∈ [false, true], let t := (macRead 0 2 w).start.ethFetch 0
       (t.mac 0).tx = none ∧ t.ethUp 0 = true ∧ t.txPosted 0 0 = true ∧ t.refusal 0 0 ≠ 0 ∧ t.filling (t.txDescAddr 0 0) 32 = w)
    ∧ (∀ w ∈ [false, true], let t := ((macRead 1 0 w).setF (ETH_Q_CFG.LATE_POLICY 0 0) 1).start.ethFetch 0
       ((t.mac 0).head 0).any (fun h => h.status == 0 && t.ltLate 0 h.desc) = true ∧ t.ethLink 0 = true ∧ t.txPosted 0 0 = true ∧ (t.mac 0).tx = none
       ∧ t.flag (ETH_Q_CFG.LATE_POLICY 0 0) = true ∧ t.filling (t.txDescAddr 0 0) 32 = w) := by decide +kernel

/-- Witness for EthernetReceives. -/
theorem wit_EthernetReceives :
    macUp.ethLink 0 = true ∧ macUp.ethUp 0 = true ∧ macUp.flag (ETH_CFG.LINK 0) = true ∧ (macUp.setF (ETH_CFG.LINK 0) 0).ethUp 0 = true
    ∧ (macUp.setF (ETH_CFG.LINK 0) 0).flag (ETH_CFG.LINK 0) = false ∧ (true && isPause (leBytes 60 0)) = false ∧ (leBytes 60 0).length = 60 ∧ macUp.rxWaits 0 (leBytes 60 0) = false
    ∧ (let s := (((macUp.setF (ETH_Q_CFG.RX_EN 0 0) 1).setF (ETH_RXQ_HI.BASE_HI 0 0) 0x10).setF (ETH_RXQ_TAIL.COUNT 0 0) 1).setTag 0x1000000 { BlockTag.init with fill := true }
      s.ethLink 0 = true ∧ s.rxWaits 0 (leBytes 60 0) = true)
    ∧ (leBytes 59 0).length < 60 ∧ (true && isPause (leBytes 59 0)) = false ∧ macUp.mayWrite 0x60 (ETH_CLS.addr 3 31) = true := by decide +kernel

/-- Witness for ZethaTrains. -/
theorem wit_ZethaTrains :
    up.mayWrite 0x60 (ZTH_CFG.addr 0) = true ∧ up.zEn 0 = false ∧ (up.setF (ZTH_CFG.EN 0) 1).zEn 0 = true ∧ (up.setF (ZTH_CFG.EN 0) 1).mayWrite 0x60 (ZTH_CFG.addr 0) = true
    ∧ (∀ st ∈ [1, 2, 3, 4, 6], let s := zAt st; s.zUp 0 = true ∧ s.zState 0 = st ∧ s.zTrains 0 = true ∧ (s.zport 0).capAt = none)
    ∧ (∀ k ∈ [1, 0xFF], (zAt 2).fld (ZTH_STATUS.LANE_LOCK 0) ||| k = k)
    ∧ (∀ st ∈ [3, 6], let s := (zAt st).setF (ZTH_STATUS.LANE_LOCK 0) 0xFF; s.fld (ZTH_STATUS.LANE_LOCK 0) = 0xFF ∧ s.zState 0 = st ∧ s.zTrains 0 = true)
    ∧ (let s : State := { zAt 2 with cyc := 10 ^ 7 }; trainLimit (s.zState 0) = some 2000000 ∧ (s.zport 0).since + 2000000 < s.cyc ∧ s.zTrains 0 = true)
    ∧ (let r := (zAt 4).start.zRecv 0 (zWire ((zAt 4).zport 0 |>.flitBytes 2 0 none ((zAt 4).capPayload ((zAt 4).zport 0))))
       flitOk r.2.1 r.2.2 = true ∧ leAt r.2.1 0 2 / 4096 = 2 ∧ leAt r.2.1 12 1 = 1)
    ∧ (let r := (zAt 4).start.zRecv 0 (List.replicate 8 []); flitOk r.2.1 r.2.2 = false)
    ∧ up.mayWrite 0x60 (ZTH_ROUTE.addr 31) = true := by decide +kernel

/-- Witness for ZethaFlits. -/
theorem wit_ZethaFlits :
    (let s := zAt 5; s.zActive 0 = true ∧ s.mayWrite 0x60 (ZTH_CFG.addr 0) = true) ∧ up.zActive 0 = false ∧ up.mayWrite 0x60 (ZTH_CFG.addr 0) = true
    ∧ (∀ st ∈ [2, 6], let s := zAt st; s.zActive 0 = false ∧ s.zUp 0 = true ∧ s.zState 0 = st)
    ∧ (∀ n ∈ [false, true], let r := (zAt 5).start.zRecv 0 (zWire (({ (zAt 5).zport 0 with nak := n } : ZPort).flitBytes 0 0 none []))
       flitOk r.2.1 r.2.2 = true ∧ bitN (leAt r.2.1 2 2) 13 = n ∧ ((zAt 5).zport 0).discards r.2.1 = false)
    ∧ (let r := (zAt 5).start.zRecv 0 (zWire (({ (zAt 5).zport 0 with nak := true } : ZPort).flitBytes 1 0 none []))
       flitOk r.2.1 r.2.2 = true ∧ bitN (leAt r.2.1 2 2) 13 = true ∧ ((zAt 5).zport 0).discards r.2.1 = true)
    ∧ (let r := (zAt 5).start.zRecv 0 (List.replicate 8 []); flitOk r.2.1 r.2.2 = false)
    ∧ (let s : State := { zAt 6 with cyc := 10 ^ 7 }; s.zTrains 0 = true ∧ s.zState 0 = 6 ∧ (s.zport 0).since + 1000000 < s.cyc) := by decide +kernel

/-- Witness for ZethaMessages. -/
theorem wit_ZethaMessages :
    isZWin 0x300000000 = true
    ∧ (let s := zMsg 1 1 0 0; (s.start.zTake 0 1).any (fun x => !x.2.zInRange 0 (leAt x.1 8 6) (leAt x.1 4 4)) = true)
    ∧ (let s := zMsg 1 1 0 0x1000000000; (s.start.zTake 0 1).any (fun x => x.2.zInRange 0 (leAt x.1 8 6) (leAt x.1 4 4) && !x.2.moveHolds (messageBlocks x.1) && x.2.inboundOk 0 x.1 (messageBlocks x.1)) = true)
    ∧ (let s := zMsg 2 0 0 0x1000000000; (s.start.zTake 0 2).any (fun x => leAt x.1 4 4 == 0) = true)
    ∧ (let s := zMsg 2 1 0 0x1000000000; (s.start.zTake 0 2).any (fun x => x.2.zInRange 0 (leAt x.1 8 6) (leAt x.1 4 4)
        && (match x.2.scanBlocks true false (rangeBlocks (leAt x.1 8 6) (leAt x.1 4 4)) with | .ok _ => true | _ => false)
        && ((x.2.noteReads (rangeBlocks (leAt x.1 8 6) (leAt x.1 4 4)) 0 0).provUnit 8 (rangeBlocks (leAt x.1 8 6) (leAt x.1 4 4))).isSome) = true)
    ∧ (∀ ty ∈ [3, 5], (let s := zMsg ty 0 9 0; (s.start.zTake 0 ty).any (fun x => (x.2.zAnswered 0 x.1 (ty == 5)).isNone) = true)
      ∧ (∀ mv ∈ [0, 0xFF], let s := zReqs (ty == 5) mv (zMsg ty 0 0 0)
         (s.start.zTake 0 ty).any (fun x => (x.2.zAnswered 0 x.1 (ty == 5)).any (fun y => y.1.mover == mv && y.1.dst == 0 && y.1.len == leAt x.1 4 4 && leAt x.1 20 1 == 0)) = true))
    ∧ (let s := zMsg 4 0 0 0; let e := s.start.zTake 0 4
       e.any (fun x => !x.2.writeFirst 0 (leAt x.1 36 4) (leAt x.1 40 4) [] && ((x.2.zport 0).inb.filter (fun e => e.covered (leAt x.1 36 4) (leAt x.1 40 4))).isEmpty) = true)
    ∧ (let t := zMsg 4 0 0 0; let h : InbEntry := ⟨0, 0, 0, 0⟩; let s := t.setZport 0 { t.zport 0 with inb := [h] }
       (s.start.zTake 0 4).any (fun x => (x.2.zport 0).inb.filter (fun e => e.covered (leAt x.1 36 4) (leAt x.1 40 4)) == [h]
         && !x.2.writeFirst 0 (leAt x.1 36 4) (leAt x.1 40 4) [h]) = true)
    ∧ (let t := zMsg 4 0 0 0; let s := t.setZport 0 { t.zport 0 with arrived := (t.zport 0).arrived ++ [(1, zHeader 1 2 0 1 1 0x1000000000 0 0 0 ++ [0])] }
       (s.start.zTake 0 4).any (fun x => x.2.writeFirst 0 (leAt x.1 36 4) (leAt x.1 40 4) []) = true) := by decide +kernel
theorem wit_ZethaMessages_window :
    isZWin 0x3BFFFFFFC = true ∧ isCore 5 = false ∧ isCore 0x60 = true ∧ hartAligned 0x300000002 4 = false ∧ hartAligned 0x300000000 4 = true
    ∧ (up.setPd 89 0).zUp (zWin 0x300000000).1 = false ∧ (zAt 5).zUp (zWin 0x300000000).1 = true
    ∧ ((zAt 5).start.zResolve 0x300000000).2 = none
    ∧ (let r := zRouted.start.zResolve 0x300000000; zRouted.zUp 0 = true ∧ r.2 = some (0, 0) ∧ (r.1.zport 0).freeTag = some 0 ∧ (r.1.provUnit 8 []).isSome = true) := by decide +kernel
/-- Every tag of a port taken. -/
def zFull : ZPort := { zRouted.zport 0 with reqs := (List.range 1024).map (fun i => ⟨i, false, 0xFF, 0, 0, 4, 0⟩) }
theorem wit_ZethaMessages_tags : (((zRouted.setZport 0 zFull).start.zResolve 0x300000000).1.zport 0).freeTag = none := by
  show zFull.freeTag = none
  simp only [ZPort.freeTag, List.find?_eq_none]
  intro t ht
  obtain ⟨i, -, rfl⟩ := List.mem_map.mp ht
  have h : zFull.reqs.any (fun r => r.tag == (zFull.nextTag + i) % 1024) = true := by
    rw [show zFull.reqs = (List.range 1024).map (fun i => (⟨i, false, 0xFF, 0, 0, 4, 0⟩ : ZReq)) from rfl, List.any_map, List.any_eq_true]
    exact ⟨(zFull.nextTag + i) % 1024, List.mem_range.mpr (Nat.mod_lt _ (by decide)), by simp⟩
  simp [h]
theorem wit_ZethaMessages_waits :
    (∀ s ∈ [zProv 1 1 0x1000000000, (let t := zMsg 1 1 0 0x1000000000; t.setMover 0 { t.mover 0 with moves := [⟨1, 0, 0, [], [0x1000000], [], false, 0, false, [], false, false, [], [], 0⟩] })],
      (s.start.zTake 0 1).any (fun x => x.2.zInRange 0 (leAt x.1 8 6) (leAt x.1 4 4) && (x.2.moveHolds (messageBlocks x.1) || !x.2.inboundOk 0 x.1 (messageBlocks x.1))) = true)
    ∧ (let s := tag0 (zMsg 2 1 0 0x1000000000) { BlockTag.init with fill := true }
       (s.start.zTake 0 2).any (fun x => x.2.zInRange 0 (leAt x.1 8 6) (leAt x.1 4 4) && x.2.scanBlocks true false (rangeBlocks (leAt x.1 8 6) (leAt x.1 4 4)) == .wait 0x1000000) = true)
    ∧ (let s := tag0 (zMsg 2 1 0 0x1000000000) { BlockTag.init with poison := true }
       (s.start.zTake 0 2).any (fun x => x.2.scanBlocks true false (rangeBlocks (leAt x.1 8 6) (leAt x.1 4 4)) == .stop stPoisoned 0x1000000) = true)
    ∧ (let s := (tag0 (zMsg 2 1 0 0x1000000000) { BlockTag.init with prov := true }).setTrackers 8 (List.replicate 256 ⟨1, 1, 0, 0, 0, false, none⟩)
       (s.start.zTake 0 2).any (fun x => x.2.scanBlocks true false (rangeBlocks (leAt x.1 8 6) (leAt x.1 4 4)) == .ok true
         && ((x.2.noteReads (rangeBlocks (leAt x.1 8 6) (leAt x.1 4 4)) 0 0).provUnit 8 (rangeBlocks (leAt x.1 8 6) (leAt x.1 4 4))).isNone) = true)
    ∧ (let t := zProv 3 1 0; let s := t.setZport 0 { t.zport 0 with reqs := [⟨0, false, 0, 0, 0, 1, 0x1000000000⟩] }
       (s.start.zTake 0 3).any (fun x => (x.2.zAnswered 0 x.1 false).any (fun y => y.1.dst != 0 && !y.2.inboundOk 0 x.1 (rangeBlocks y.1.dst y.1.len))) = true)
    ∧ (let s := zReqs true 0 (let t := zMsg 5 0 0 0; t.setZport 0 { t.zport 0 with arrived := [(0, zHeader 5 0 0 1 0 0 0 0 2)] })
       (s.start.zTake 0 5).any (fun x => (x.2.zAnswered 0 x.1 true).any (fun y => y.1.mover != 0xFF && leAt x.1 20 1 == 2)) = true) := by decide +kernel
theorem wit_ZethaMessages_fails : (let s := zMsg 2 1 0 0x1000000000
    (s.start.zTake 0 2).any (fun x => x.2.zInRange 0 (leAt x.1 8 6) (leAt x.1 4 4) && rangeBlocks (leAt x.1 8 6) (leAt x.1 4 4) == [0x1000000]) = true)
    ∧ badBlk.scanBlocks true false [0x1000000] = .stop stWatermark 0x1000000 := by
  refine ⟨by decide +kernel, ?_⟩
  have ht : badBlk.tag 0x1000000 = BlockTag.init := rfl
  have hd : badBlk.isData (0x1000000 * 4096) = true := by decide +kernel
  have hc : badBlk.isChecked 0x1000000 = false := by decide +kernel
  simp [State.scanBlocks, State.scanWith, ht, BlockTag.init, State.badBlock, hd, hc, badBlk_fails]

/-- Witness for CameraFrames. -/
theorem wit_CameraFrames :
    camUp.csiUp 0 = true ∧ camUp.csiWaits 0 = false ∧ (camUp.setTag 0x1000000 { BlockTag.init with fill := true }).csiWaits 0 = true
    ∧ (camUp.setTag 0x1000000 { BlockTag.init with fill := true }).csiUp 0 = true ∧ camUp.csiMatch 0 0 (some 0) = [0] ∧ camUp.csiMatch 0 0 none = [0] ∧ camUp.csiMatch 0 1 (some 0) = [] ∧ camUp.csiMatch 0 1 none = []
    ∧ (camUp.start.csi (csiKey 0 0)).frame = none ∧ camUp.start.csiDepth 0 0 = 0
    ∧ (let s := camUp.setF (CSI_CTX_TAIL.COUNT 0 0) 1; s.csiUp 0 = true ∧ s.csiWaits 0 = false ∧ s.csiMatch 0 0 none = [0] ∧ (s.start.csi (csiKey 0 0)).frame = none ∧ s.start.csiDepth 0 0 ≠ 0
      ∧ s.start.dataRange (s.start.csiDescAddr 0 0) 32 = true)
    ∧ (let s := camUp.setCsi (csiKey 0 0) ⟨some ⟨0, 0, 0, 0, 0, 0, 0, 0, 0, 0⟩, false⟩
      s.csiUp 0 = true ∧ s.csiWaits 0 = false ∧ s.csiMatch 0 0 (some 0) = [0] ∧ s.csiMatch 0 0 none = [0] ∧ (s.start.csi (csiKey 0 0)).frame.isSome = true)
    ∧ camUp.mayWrite 0x60 (CSI_CTX_DB.addr 0 0) = true ∧ camUp.start.flag (CSI_CTX_CFG.EN 0 0) = true ∧ camUp.start.csiDepth 0 0 + 16 ≤ camUp.start.csiSize 0 0
    ∧ camUp.start.csiSize 0 0 < camUp.start.csiDepth 0 0 + 17 := by decide +kernel

/-- Witness for PinFunctions. -/
theorem wit_PinFunctions :
    up.mayWrite 0x61 (GPIO_PIN.addr 95) = true ∧ up.mayWrite 0x60 (GPIO_PIN.addr 63) = true ∧ up.start.pinUp 63 = true ∧ up.start.pinUp 64 = false
    ∧ bits (BitVec.ofNat 32 0) 31 29 = bits (up.start.rd (GPIO_PIN.addr 0)) 31 29 ∧ bits (BitVec.ofNat 32 (2 ^ 29)) 31 29 ≠ bits (up.start.rd (GPIO_PIN.addr 0)) 31 29
    ∧ (up.setF (GPIO_PIN.PARKING 63) 1).flag (GPIO_PIN.PARKING 63) = true ∧ (up.pin 0).pwm = none ∧ (up.time + 2 ^ 32 - 0 % 2 ^ 32) % 2 ^ 32 < 2 ^ 31
    ∧ (∀ k ∈ [0, 15, 16], let s := up.setPin 0 { up.pin 0 with func := 5, caps := List.replicate k 0 }
      s.pinUp 0 = true ∧ (s.pin 0).func = 5 ∧ s.flag (GPIO_PIN.PARKING 0) = false ∧ (s.pin 0).caps.length = k) := by decide +kernel

/-- Witness for PcieTransactions. -/
theorem wit_PcieTransactions :
    (∀ s ∈ [pciEp 0x10, pciIo 2 1 true, pciUp], s.pLink 0 = true)
    ∧ ((pciIo 2 1 true).start.pInMap 0 0 0x1000001000 4 true).2 = .waits ∧ ((pciIo 2 1 true).start.pInMap 0 0 0x1000001000 4 false).2 = .waits
    ∧ (pciUp.start.pInMap 0 0 0x1000001000 4 true).2 = .refused ∧ (pciUp.start.pInMap 0 0 0x1000001000 4 false).2 = .refused
    ∧ ((pciIo 1 1 true).start.pInMap 0 0 0 4 true).2 = .to 0 ∧ ((pciIo 1 1 true).start.pInMap 0 0 0 4 false).2 = .to 0
    ∧ ((pciIo 1 1 true).start.pInMap 0 0 0 4 false).1.region 0 4 ≠ .data
    ∧ (let r := (pciEp 0x10).start.pInMap 0 0 0x1000 4 false; r.2 = .to 0x1000001000 ∧ r.1.region 0x1000001000 4 = .data
      ∧ (match (r.1.gated (pMaster 0) 2 0x1000001000 4 true 0 (r.1.readAt (pMaster 0) 0x1000001000 4)).resp with | .bytes l => l.length == 4 | _ => false) = true)
    ∧ (let t := (pciEp 0x10).start.pEvent 0 (PCI_EVENT.POISON_RX 0); (t.pInMap 0 0 0x1000 4 true).2 = .to 0x1000001000 ∧ t.pTake 0 1 = none)
    ∧ (∀ mv ∈ [0, 0xFF], let s := pciReq mv
      s.pLink 0 = true ∧ (s.start.pTake 0 1).map (fun x => (x.1.mover, x.1.len)) = some (mv, 4)
      ∧ ((s.start.pEvent 0 (PCI_EVENT.POISON_RX 0)).pTake 0 1).map (fun x => x.1.mover) = some mv)
    ∧ (let s : State := { pciReq 0xFF with cyc := 10 ^ 8 }; s.pUp 0 = true
      ∧ (s.start.pTake 0 1).map (fun x => decide (x.1.sent + 1000 * Nat.max 50 (Nat.min 50000 (s.fld (PCI_CPL_TIMEOUT.US 0))) ≤ s.cyc)) = some true)
    ∧ up.mayWrite 0x60 (PCI_MSIX_TRIG.addr 0) = true
    ∧ pciUp.fld IOM_DDTP_LO.MODE = 0 ∧ (pciIo 1 1 true).fld IOM_DDTP_LO.MODE = 1 ∧ 2 ≤ (pciIo 2 1 false).fld IOM_DDTP_LO.MODE
    ∧ (match (pciIo 2 1 false).ioContext 0 with
      | .ok x => (match ((pciIo 2 1 false).ioWalk x true 0x1000001000).2 with | .ok pa => pa == 0x1000001000 | _ => false)
        && (match ((pciIo 2 1 true).ioWalk { x with satp := 8 * 2 ^ 60 + 0x1000000 } false 0).2 with | .error .waits => true | _ => false)
        && (match ((pciIo 2 1 false).ioWalk { x with satp := 8 * 2 ^ 60 + 0x1000000 } false 0).2 with | .error (.fault 5 0) => true | _ => false)
      | .error _ => false) = true := by decide +kernel

/-- Witness for PcieLink. -/
theorem wit_PcieLink :
    (let s := (pciUp.setF (PCI_CFG.LINK_UP 0) 0).setPport 0 { PPort.init with released := true }
     s.pUp 0 = true ∧ s.pMode 0 = 1 ∧ s.flag (PCI_CFG.LINK_UP 0) = false ∧ s.pPerst 0 = false
      ∧ 3 ≤ s.fld (PCI_CFG.MAX_WIDTH 0) ∧ s.fld (PCI_CFG.MAX_RATE 0) = 5)
    ∧ pciUp.flag (PCI_CFG.LINK_UP 0) = true
    ∧ (let s := (pciUp.setF (PCI_CFG.LINK_UP 0) 0).setF (PCI_CFG.MODE 0) 2; s.pMode 0 = 2 ∧ (s.pport 0).perst = false ∧ s.pPerst 0 = false ∧ s.pUp 0 = true)
    ∧ pciUp.pPerst 0 = true
    ∧ (let s := (pciUp.setF (PCI_CFG.MODE 0) 2).setPport 0 { PPort.init with perst := true }; s.pUp 0 = true ∧ s.pMode 0 = 2 ∧ s.pPerst 0 = true) := by decide +kernel

/-- Witness for BootFlash. -/
theorem wit_BootFlash :
    up.mayWrite 0x61 XSP_CMD.addr = true ∧ up.pdOn 83 = true
    ∧ (∀ k ∈ [0, 1, 2, 3, 4, 5], ∀ h ∈ [none, some (⟨0, 0x1234, 0, 1, 0⟩ : FlashCmd)], let s : State := { up with flashCmd := some ⟨k, 0, 0, 1, 0⟩, flashHeld := h }
       s.pdOn 83 = true ∧ s.flashCmd.isSome = true ∧ s.flashHeld = h) := by decide +kernel

/-- Witness for CanFrames. -/
theorem wit_CanFrames :
    canOn0.mayWrite 0x60 (CAN_TX_REQ.addr 0) = true ∧ canOn0.mayWrite 0x60 (CAN_CTRL.addr 0) = true ∧ canOn0.mayWrite 0x60 (CAN_RXR_DB.addr 0 1) = true
    ∧ canOn0.canOn 0 = true ∧ 0 ≤ canOn0.now ∧ canOn0.canOffer 0 0 = some 0 ∧ (canOn0.can 0).failed = none ∧ canOn0.fld (CAN_STATUS.TEC 0) + 8 < 256
    ∧ (let t := canOn0.start.setF (CAN_TXB.WORD 0 0 2) 0; t.fld (CAN_STATUS.TEC 0) < 128 ∧ t.fld (CAN_STATUS.REC 0) < 128)
    ∧ (let s := canOn0.setF (CAN_STATUS.TEC 0) 200; let t := s.start.setF (CAN_TXB.WORD 0 0 2) 0; s.canOn 0 = true ∧ s.canOffer 0 0 = some 0
      ∧ 128 ≤ (t.setF (CAN_STATUS.TEC 0) (t.fld (CAN_STATUS.TEC 0) - 1)).fld (CAN_STATUS.TEC 0) ∧ s.fld (CAN_STATUS.REC 0) < 128
      ∧ 128 ≤ (s.start.setF (CAN_STATUS.REC 0) 0).fld (CAN_STATUS.TEC 0) ∧ (s.setF (CAN_FLT_ID.VALID 0 3) 1).canFilter 0 0 = some 3
      ∧ (let u := (s.setF (CAN_FLT_ID.VALID 0 3) 1).setF (CAN_RXR_HI.BASE_HI 0 0) 0x10; u.filling (u.canEntry 0 (u.fld (CAN_FLT_ID.RING 0 3))) 80 = false
        ∧ (u.setTag 0x1000000 { BlockTag.init with fill := true }).filling (u.canEntry 0 (u.fld (CAN_FLT_ID.RING 0 3))) 80 = true))
    ∧ (bitN 0 31 = false ∧ ([] : List Byte).length = canLen 0 (0 % 16) ∧ canOn0.canFilter 0 0 = none ∧ canOn0.fld (CAN_CFG.UNMATCHED 0) = 0 ∧ canOn0.fld (CAN_STATUS.REC 0) < 128
      ∧ (canOn0.start.setF (CAN_STATUS.REC 0) 0).fld (CAN_STATUS.TEC 0) < 128)
    ∧ (let s := canOn0.setCan 0 { canOn0.can 0 with failed := some 0 }; s.canOn 0 = true ∧ (s.can 0).failed = some 0)
    ∧ (let s := (canOn0.setF (CAN_STATUS.STATE 0) 2).setCan 0 { canOn0.can 0 with recovering := true }
      s.start.fld (CAN_STATUS.STATE 0) = 2 ∧ s.canUp 0 = true ∧ (s.can 0).recovering = true)
    ∧ canOn0.start.fld (CAN_STATUS.STATE 0) ≠ 2 ∧ canOn0.start.canDepth 0 1 < 1 ∧ 0 ≤ canOn0.start.canDepth 0 1 := by decide +kernel

/-- Witness for ApcHarts. -/
theorem wit_ApcHarts :
    (lowBarred 25 (APC_HART_CTRL.addr 0) = true ∧ lowBarred 24 (APC_HART_CTRL.addr 0) = false)
    ∧ up.mayWrite 0x60 (APC_HART_CTRL.addr 0) = true ∧ up.start.hartRuns 0 = false ∧ up.start.pdOn (pdApc (0 / 4)) = true
    ∧ (up.hart 0).ctl = none ∧ (let s := up.setHart 0 { up.hart 0 with ctl := some (up.cyc, 5) }; (s.hart 0).ctl = some (s.cyc, 5) ∧ s.mayWrite 0x60 (APC_HART_CTRL.addr 0) = true)
    ∧ (let s := up.setF (APC_HART_STATUS.STATE 0) 1; s.start.hartRuns 0 = true ∧ s.mayWrite 0x60 (APC_HART_CTRL.addr 0) = true
      ∧ (s.start.setHart 0 { s.hart 0 with stimecmp := 0 }).timerPending 0 = true ∧ (s.start.setHart 0 { s.hart 0 with stimecmp := 2 ^ 64 - 1 }).timerPending 0 = false)
    ∧ (let s := up.setPd 32 0; s.start.hartRuns 0 = false ∧ s.start.pdOn (pdApc (0 / 4)) = false ∧ s.mayWrite 0x60 (APC_HART_CTRL.addr 0) = true)
    ∧ (let s : State := { up with msis := [(0, 1, 2047)] }; s.msis.contains (0, 1, 2047) = true ∧ (s.pendingIds 0 1).contains 2047 = false)
    ∧ (let s : State := { up with msis := [(0, 1, 1)], eip := [(1, [1])] }; s.msis.contains (0, 1, 1) = true ∧ (s.pendingIds 0 1).contains 1 = true)
    ∧ up.isData 0x1000000000 = true := by decide +kernel

/-- Witness for StartUpAndReset. -/
theorem wit_StartUpAndReset :
    (let s := State.reset; s.pdOn 80 = true ∧ s.pdOn 81 = true ∧ s.pdOn 82 = true ∧ s.mgt.hold = false ∧ s.supply.up = true ∧ s.supply.heldTo ≤ s.cyc ∧ s.fld MGT_BOOT_STATUS.STAGE = 0)
    ∧ bootNone.octal = false ∧ { bootNone with flashOk := false }.flashOk = false ∧ { bootNone with badHeader := [0, 1] }.badHeader.contains 1 = true
    ∧ up.supply.up = true ∧ (lowRail true false).supply.up = false ∧ ({ (lowRail true false).supply with lowIo := false } : Supply).up = true
    ∧ ({ (lowRail true true).supply with lowIo := false } : Supply).up = false ∧ ({ (lowRail false true).supply with lowVio := false } : Supply).up = true
    ∧ (bootNone.badHeader.contains 0 && bootNone.badHeader.contains 1) = false ∧ bootNone.flashOk = true
    ∧ (let s : State := { up with mgt := { up.mgt with resetAt := some 0 } }; s.mgt.resetAt = some 0 ∧ 0 ≤ s.cyc)
    ∧ up.mgt.down = false ∧ (let s : State := { up with mgt := { up.mgt with down := true } }; s.mgt.down = true ∧ s.mgt.serving = none)
    ∧ up.pdOn 80 = true ∧ (up.setPd 80 0).pdOn 80 = false := by decide +kernel

/-- Witness for ClockLogAndTap. -/
theorem wit_ClockLogAndTap :
    up.pdOn 80 = true ∧ up.rtcNext = none ∧ up.fld MGT_RTC_TIME.SUBSEC < 32767
    ∧ (let s := up.wr MGT_RTC_TIME.addr (timeWord 0 0 0 32767); s.pdOn 80 = true ∧ s.rtcNext = none ∧ 32767 ≤ s.fld MGT_RTC_TIME.SUBSEC ∧ s.fld MGT_RTC_TIME.SEC < 59)
    ∧ (let s := (up.wr MGT_RTC_TIME.addr (timeWord 23 59 59 32767)).wr MGT_RTC_DATE.addr (dateWord 399 12 31); s.pdOn 80 = true ∧ s.rtcNext = none
      ∧ 32767 ≤ s.fld MGT_RTC_TIME.SUBSEC ∧ s.rd MGT_RTC_DATE.addr = dateWord 399 12 31 ∧ s.fld MGT_RTC_TIME.SEC = 59 ∧ s.fld MGT_RTC_TIME.MIN = 59 ∧ s.fld MGT_RTC_TIME.HOUR = 23)
    ∧ (let s : State := { up with rtcNext := some (0, 0) }; s.pdOn 80 = true ∧ s.rtcNext = some (0, 0)) ∧ up.mayWrite 0x61 MGT_RTC_CTRL.addr = true
    ∧ setOk (dateWord 400 1 1) 0 = false ∧ setOk (dateWord 100 2 29) 0 = false ∧ setOk (dateWord 399 12 31) 0 = true
    ∧ (let s := up.hold MGT_RTC_SET_DATE.addr (dateWord 0 2 29); setOk (s.start.heldOr MGT_RTC_SET_DATE.addr) (s.start.heldOr MGT_RTC_SET_TIME.addr) = true)
    ∧ (let s := up.hold MGT_RTC_SET_DATE.addr (dateWord 1 2 29); setOk (s.start.heldOr MGT_RTC_SET_DATE.addr) (s.start.heldOr MGT_RTC_SET_TIME.addr) = false)
    ∧ (let s : State := State.setF { up with log := { up.log with queue := [⟨0, 0, 0, 1, 0, 0, []⟩], slot := 1023 } } MGT_BOOT_STATUS.STAGE 6; s.log.queue.length = 1 ∧ s.pdOn 82 = true ∧ s.mgt.down = false ∧ 2 ≤ s.fld MGT_BOOT_STATUS.STAGE
      ∧ 1 ≤ s.log.slot ∧ s.log.slot < 1024)
    ∧ up.mayWrite 0x60 MGT_MBX_DB.addr = true ∧ bitN (up.start.fld MGT_MBX_STATUS.BUSY) 7 = false
    ∧ bitN ((up.setF MGT_MBX_STATUS.BUSY 128).start.fld MGT_MBX_STATUS.BUSY) 7 = true ∧ up.tap.state = 0 ∧ up.supply.up = true ∧ (lowRail false true).supply.up = false
    ∧ (∀ k ∈ [3, 4, 11, 5, 9, 12], (let x := { up.tap with state := k }; x.state = k ∧ x.instruction = 3 ∧ x.extest = false))
    ∧ (∀ k ∈ [3, 4, 11, 5, 9, 12], ({ up with tap := { up.tap with state := k } } : State).tap.state = k) := by decide +kernel

/-- Witness for MailboxOperations. -/
theorem wit_MailboxOperations :
    (∀ p ∈ [(1, 2), (2, 0), (3, 0), (0x10, 12), (0x11, 132), (0x13, 8), (0x20, 8), (0x30, 0), (0x31, 16), (0x32, 0), (0x33, 0), (0x34, 0), (0x35, 48), (0x40, 0)],
      let s := mbxReq p.1 p.2 []; s.start.reqLen 0 = p.2 ∧ s.start.chanOpen 0 = true ∧ s.start.reqOp 0 = p.1
      ∧ (if p.1 = 1 then s.mbxHead (fun o => o == 1 || !mbxOps.contains o) = some 0 else s.mbxHead (fun o => o == p.1) = some 0))
    ∧ (let s := mbxReq 0x10 4 []; s.start.reqLen 0 ≠ 12 ∧ (s.setF MGT_MBX_STATUS.OPEN 0).start.chanOpen 0 = false ∧ s.mbxHead (fun o => o == 0x10) = some 0)
    ∧ (let s := mbxReq 0x41 0 []; s.start.reqOp 0 ≠ 1 ∧ s.mbxHead (fun o => o == 1 || !mbxOps.contains o) = some 0)
    ∧ (let s := mbxReq 1 2 [0, 1]; s.start.reqArg 0 0 1 ≤ 1 ∧ 1 ≤ s.start.reqArg 0 1 1) ∧ (let s := mbxReq 1 2 [2, 3]; 1 < s.start.reqArg 0 0 1)
    ∧ (∀ n ∈ [8, 2016, 2024, 4], let s := mbxReq 0x12 n []; s.mbxHead (fun o => o == 0x12) = some 0 ∧ s.start.reqLen 0 = n)
    ∧ (let s := mbxReq 0x31 16 []; s.pendingBlock (rangeBlocks (s.reqArg 0 0 8) (Nat.min 1048576 (s.reqArg 0 12 4))) = none) := by decide +kernel

/-- Witness for PowerSharing. -/
theorem wit_PowerSharing :
    up.mayWrite 0x60 PMU_CAP.addr = true ∧ (∀ v ∈ [39, 40, 120, 301], bits (BitVec.ofNat 32 v) 8 0 = v) ∧ up.thermal.coldPlate = false
    ∧ (64 * (-1) < (levelCost [⟨0, 250000, 1000⟩] 0 : Int)) ∧ ((levelCost [⟨0, 250000, 1000⟩] 0 : Int) ≤ 64 * 250000) ∧ up.pdOn 82 = true
    ∧ (let s : State := { up with cyc := 100000 }; s.pmu.period + 100000 ≤ s.cyc)
    ∧ (let s : State := { up with phaseReports := [(3, 5)] }; s.phaseReports.find? (fun e => e.1 == 3) = some (3, 5))
    ∧ (railUp.pdOn 82 = true ∧ railUp.railPresent 0 = true ∧ 0 < railUp.railFitted 0 ∧ (railUp.rail 0).low = false ∧ (railUp.rail 0).naming = none
      ∧ [100, 100].length = railUp.railFitted 0 ∧ railUp.railPresent 10 = true)
    ∧ (let s := railUp.setRail 0 { railUp.rail 0 with low := true }; (s.rail 0).low = true ∧ s.railPresent 0 = true ∧ 0 < s.railFitted 0 ∧ s.pdOn 82 = true)
    ∧ (testWaits.ftQueue.any (fun x => x.clu == 3 && decide (2 ≤ x.cls)) = true ∧ testWaits.budgeted.contains 3 = false ∧ testWaits.testFits 3 = true ∧ testWaits.pdOn 82 = true)
    ∧ up.pdOn (pdClu 31) = true ∧ (let s := up.setPmuClu 0 { up.pmuClu 0 with droop := some 0 }; (s.pmuClu 0).droop = some 0
      ∧ s.thermal.droopHold * 1000 ≤ (s.cyc - 0) * getAt 0 s.running.mhz 0)
    ∧ up.mayWrite 0x61 (PMU_RAIL_FAULT.addr 0) = true := by decide +kernel

/-- Witness for DomainsAndThermal. -/
theorem wit_DomainsAndThermal :
    up.mayWrite 0x61 (PMU_PD.addr 80) = true ∧ up.start.pdPresent 80 = true ∧ up.mayWrite 0x61 (PMU_PD.addr 95) = true ∧ up.start.pdPresent 95 = false
    ∧ up.mayWrite 0x61 (PMU_PD.addr 36) = true ∧ up.start.pdPresent 36 = true ∧ up.pdDependents 36 = true
    ∧ up.mayWrite 0x61 (PMU_PD.addr 0) = true ∧ up.start.pdPresent 0 = true ∧ up.pdDependents 0 = false ∧ up.pdState 0 ≠ 0 ∧ (up.setPd 0 0).pdDependents 0 = false ∧ (up.setPd 0 0).pdState 0 = 0
    ∧ (let s : State := { up.setPd 0 1 with cyc := 52000 }; s.pdOn 82 = true ∧ s.pdState 0 = 1 ∧ Sparse.get (fun _ => 0) s.pmu.pdSince 0 + 52000 ≤ s.cyc)
    ∧ (let s : State := { up.setF PMU_PD_CTRL.AUTO_GATE 1 with cyc := 1000000 }; s.flag PMU_PD_CTRL.AUTO_GATE = true ∧ s.gateIdle 32 = true)
    ∧ (List.replicate 128 (none : Option Int)).length = 128 ∧ up.thermal.loaded = false
    ∧ (let s : State := { up with mgt := { up.mgt with hold := true } }; s.mgt.hold = true ∧ s.supply.up = true)
    ∧ Registers.wf up = true ∧ up.imageRegs = [] ∧ (∀ x ∈ [(0x20000100, regHome 0x20000100)], up.keptByDomain x.1 = false ∧ x.2 < 96) := by decide +kernel

/-- Witness for MetrologyIsland. -/
theorem wit_MetrologyIsland :
    mtiUp.pdOn 81 = true ∧ mtiUp.mti.on = true ∧ mtiUp.mti.samples < 4000 ∧ (10 ≤ mtiUp.mti.sinceCkpt) ∧ mtiUp.mti.clockBad = false
    ∧ (let s := mtiUp.setMti { mtiUp.mti with samples := 4000 }; s.pdOn 81 = true ∧ s.mti.on = true ∧ s.mti.samples = 4000)
    ∧ mtiUp.sampleI 5 = 5 ∧ mtiUp.sampleI 0 = 0 ∧ mtiUp.sampleI (-5) = -5 ∧ mtiUp.mtiParam 20 1 ≤ 32 ∧ mtiUp.mtiParam 20 1 = 3 ∧ mtiUp.mtiParam 21 1 ≤ 12
    ∧ 4 * mtiUp.mtiParam 22 2 ≤ mtiUp.mti.sinceSweep
    ∧ (∀ k < 3, (mtiUp.ringRead k (getAt ([], []) (ringAnswers mtiUp [0, 1, 2]) k)).isSome = true)
    ∧ (mtiUp.ringRead 1 (getAt ([], []) (ringAnswers mtiUp [0]) 1) = none ∧ ∀ j < 1, (mtiUp.ringRead j (getAt ([], []) (ringAnswers mtiUp [0]) j)).isSome = true)
    ∧ (let s := up.setF MTI_STATUS.ROM_FAIL 1; s.pdOn 81 = true ∧ s.mti.on = false ∧ s.flag MTI_STATUS.ROM_FAIL = true)
    ∧ (∀ w ∈ [false, true], mtiUp.mayRead 0x60 (if w then MTI_SWEEP.addr 0 else MTI_SNAP.addr 0) = true)
    ∧ up.mti.on = false ∧ up.flag MTI_STATUS.ROM_FAIL = false ∧ up.mtiStore.ckpt = none ∧ up.mtiStore.torn = false
    ∧ ({ up with mtiStore := { up.mtiStore with torn := true } } : State).mtiStore.torn = true
    ∧ ({ up with mtiStore := { up.mtiStore with ckpt := some (Mti.init.ckpt false) } } : State).mtiStore.ckpt.isSome = true
    ∧ mtiUp.svcPort true = true ∧ paramOk mtiTable = true ∧ mtiTable.length = 256 ∧ paramOk (List.replicate 256 0) = false ∧ mtiUp.paramCrc % 2 ^ 32 = mtiUp.paramCrc
    ∧ (mtiUp.paramCrc + 1) % 2 ^ 32 ≠ mtiUp.paramCrc := by decide +kernel

/-! Well-formedness refuses an operand outside its range, one term for each check, and accepts the last value inside. -/

theorem test_wf_refuses :
    [Instr.lowWordRead 0x51 0 0, .lowWordRead 0 0 (2 ^ 48), .registerWrite 0 24 0 3 0, .registerWrite 0 49 0 4 0, .registerWrite 0 24 0 4 (2 ^ 32),
     .fmtDescLoWrite 0 32 0, .dunNop 2 0, .dunNop 0 4, .slvNop 0 17, .operationDispatch 6, .qorazNop 64, .taskEntry 32768, .quiAdmit 0 8, .cellWrite 0 65536 0,
     .armedCommit 32, .dramRead 0 16 0 0 0 [] 0 .load, .dramRead 0 0 0 0 4 [] 0 .load, .dramRead 0 0 0 0 0 [] 25 .load, .patrolSweepStart 8, .pmvCopy 16,
     .pmvDoorbell 0 0 8 0, .hbxWindowBoundary 2 0, .hbxWindowBoundary 0 32, .hbxAgeRaise 25 0, .hbxMatchCtrlWrite 0 64 0, .hbxClassWrite 0 0 0 5 0,
     .watchdogExpiry 64, .headerParityError 0 (2 ^ 64) 0, .trackerResolve 11 0, .sampleInstant 4, .ethLinkUp 8].map Instr.wf = List.replicate 31 false := by decide

theorem test_wf_refuses_more :
    [Instr.zthRouteWrite 0 32 0, .capSend 3, .zthBlockLock 0 256, .capFlitReceive 0 [], .flitReceive 0 (List.replicate 8 [(4, [])]), .zthRetrain 0 0 (some 8),
     .csiFrameStart 16 0 0 0, .csiFrameStart 0 0 16 0, .csiFrameStart 0 0 0 65536, .csiLongPacket 0 0 0 64 [] false, .pcieCplTimeout 0 1024,
     .pcieInboundRequest 0 false 0 4095 2 [], .parkIntervalEnd 96, .captureEdge 0 3 true, .hartStart 0 0 24, .msiMessage 0 7 0 [], .updateCommit 3,
     .mtiStart 0 [1024], .phaseFaultInput 16 false, .powerGood 96].map Instr.wf = List.replicate 20 false := by decide

theorem test_wf_accepts :
    [Instr.lowWordRead 0x50 48 (2 ^ 48 - 1), .registerWrite 0 48 0 8 (2 ^ 32 - 1), .qorazNop 63, .taskEntry 32767, .cellWrite 0 65535 0, .powerGood 95,
     .csiLongPacket 15 3 15 63 [] true, .hartStart 0 48 23, .msiMessage 23 6 2047 [], .dramRead 0 15 0 0 3 [] 24 .fetch, .hbxClassWrite 0 1 31 4 0, .slvNop 1 16,
     .zthBlockLock 2 255, .flitReceive 0 (List.replicate 8 []), .zthRetrain 0 0 (some 7), .captureEdge 95 2 false, .updateCommit 2, .mtiStart 0 [1023]].map Instr.wf
      = List.replicate 18 true := by decide

/-! Register accesses (R13–R20). -/

/-- R15: a narrow write by a hart is an access fault (R618). -/
theorem test_narrow_write : (match exec (.registerWrite 0x60 24 PMU_CAP.addr 2 100) up with | .next t => t.resp == .accessFault | _ => false) = true := by decide +kernel

/-- A queue of two commands runs the first one first. -/
theorem test_step_takes_front :
    (match step { State.reset with pending := [.resetNAssert 5, .resetNAssert 6] } with | .next t => t.pending == [.resetNAssert 6] | _ => false) = true := by
  decide +kernel

/-- R665's example: 2100-02-29 is refused, and 2399-12-31 23:59:59 is followed by 2000-01-01. -/
theorem test_calendar : setOk (dateWord 100 2 29) (timeWord 12 0 0 0) = false ∧ setOk (dateWord 399 12 31) (timeWord 23 59 58 0) = true
    ∧ nextDay 399 12 31 = ((0, 1, 1), true) := by decide +kernel

/-- R663: leap years of the Gregorian rule. -/
theorem test_leap : leapYear 0 = true ∧ leapYear 100 = false ∧ leapYear 4 = true ∧ leapYear 1 = false := by decide

/-- The check values of the CRC-32C and of the frame check sequence over the nine digits. -/
theorem test_crc : crc32c [0x31, 0x32, 0x33, 0x34, 0x35, 0x36, 0x37, 0x38, 0x39] = 0xE3069283
    ∧ crc32Eth [0x31, 0x32, 0x33, 0x34, 0x35, 0x36, 0x37, 0x38, 0x39] = 0xCBF43926 := by decide +kernel

/-- The block has no encoding: no word spells a command, and placing one changes nothing. -/
theorem test_no_words : decodeTableWord 32 0 = none ∧ State.reset.withFetchWord 32 0 = State.reset := ⟨rfl, rfl⟩
end

/-! # Scope: steps, what every command keeps, that every command answers, and register accesses (00_scope.md) -/

namespace Sys2Proof.Machine
open Sys2Proof

/-! ## Steps -/

theorem step_of_empty {s : State} (h : s.pending = []) : step s = .next s := by
  unfold step
  rw [h]

theorem step_of_front {s : State} {c : Instr} {rest : List Instr} (h : s.pending = c :: rest) : step s = exec c (s.dequeue rest) := by
  unfold step
  rw [h]

/-- Soundness does not rest on the queue. -/
theorem State.sound_dequeue {s : State} {rest : List Instr} : (s.dequeue rest).Sound ↔ s.Sound := Iff.rfl

/-- Settles O1: both halves are the two equations of step. -/
theorem stepRunsFront : Obligations.StepRunsFront :=
  ⟨fun _ _ _ => step_of_front rfl, fun _ => step_of_empty rfl⟩

/-! ## What every command keeps

Each row's lemma stands in Laws/Kept*.lean; exec sends a command to its row. -/

/-- The dispatch of Laws/Kept*.lean: whatever the command, the queue stays and a sound state stays sound. -/
theorem exec_kept {s0 s : State} (h : Kept s0 s) : ∀ c : Instr, KeptR s0 (exec c s)
  | .registerWrite .. => execRegisterWrite_kept h
  | .rcRead .. => execRcRead_kept h
  | .lowWordRead .. => execLowWordRead_kept h
  | .fmtDescLoWrite .. => execFmtDescLoWrite_kept h
  | .fmtDescHiWrite .. => execFmtDescHiWrite_kept h
  | .fmtEntryCopyDone .. => execFmtEntryCopyDone_kept h
  | .operationDispatch .. => execOperationDispatch_kept h
  | .qorazNop .. => execQorazNop_kept h
  | .gemm .. => execGemm_kept h
  | .conv .. => execConv_kept h
  | .qorazLoad .. => execQorazLoad_kept h
  | .qorazStore .. => execQorazStore_kept h
  | .ew .. => execEw_kept h
  | .convertOp .. => execConvertOp_kept h
  | .curveOp .. => execCurveOp_kept h
  | .reduceOp .. => execReduceOp_kept h
  | .normOp .. => execNormOp_kept h
  | .splitkSum .. => execSplitkSum_kept h
  | .dotOp .. => execDotOp_kept h
  | .windowOp .. => execWindowOp_kept h
  | .attnExp .. => execAttnExp_kept h
  | .attnMerge .. => execAttnMerge_kept h
  | .attnNorm .. => execAttnNorm_kept h
  | .boxDecode .. => execBoxDecode_kept h
  | .nms .. => execNms_kept h
  | .stateStep .. => execStateStep_kept h
  | .workCycle .. => execWorkCycle_kept h
  | .chainAccumulationEnd .. => execChainAccumulationEnd_kept h
  | .drainStart .. => execDrainStart_kept h
  | .cowCopyComplete .. => execCowCopyComplete_kept h
  | .drainComplete .. => execDrainComplete_kept h
  | .calenderOpComplete .. => execCalenderOpComplete_kept h
  | .lanePhaseStart .. => execLanePhaseStart_kept h
  | .curveSlotLoadDone .. => execCurveSlotLoadDone_kept h
  | .beaterOpComplete .. => execBeaterOpComplete_kept h
  | .repairRecordCommit .. => execRepairRecordCommit_kept h
  | .admitObject .. => execAdmitObject_kept h
  | .admissionComplete .. => execAdmissionComplete_kept h
  | .unloadObject .. => execUnloadObject_kept h
  | .unloadComplete .. => execUnloadComplete_kept h
  | .queueDoorbell .. => execQueueDoorbell_kept h
  | .queueCfgWrite .. => execQueueCfgWrite_kept h
  | .cplHeadWrite .. => execCplHeadWrite_kept h
  | .cancelTask .. => execCancelTask_kept h
  | .cancelAll .. => execCancelAll_kept h
  | .resumeQueue .. => execResumeQueue_kept h
  | .taskEntry .. => execTaskEntry_kept h
  | .waitEntry .. => execWaitEntry_kept h
  | .timedWaitEntry .. => execTimedWaitEntry_kept h
  | .signalEntry .. => execSignalEntry_kept h
  | .setEntry .. => execSetEntry_kept h
  | .fenceEntry .. => execFenceEntry_kept h
  | .taskEndEntry .. => execTaskEndEntry_kept h
  | .reservedControlEntry .. => execReservedControlEntry_kept h
  | .waitRelease .. => execWaitRelease_kept h
  | .timedWaitTimeout .. => execTimedWaitTimeout_kept h
  | .fenceRelease .. => execFenceRelease_kept h
  | .cellWrite .. => execCellWrite_kept h
  | .cellAddWrite .. => execCellAddWrite_kept h
  | .deadlineTick .. => execDeadlineTick_kept h
  | .preemptTask .. => execPreemptTask_kept h
  | .saveComplete .. => execSaveComplete_kept h
  | .restoreTask .. => execRestoreTask_kept h
  | .restoreComplete .. => execRestoreComplete_kept h
  | .clusterDrained .. => execClusterDrained_kept h
  | .quiAdmit .. => execQuiAdmit_kept h
  | .admitStream .. => execAdmitStream_kept h
  | .quiRelease .. => execQuiRelease_kept h
  | .quiFork .. => execQuiFork_kept h
  | .quiMap .. => execQuiMap_kept h
  | .quiTruncate .. => execQuiTruncate_kept h
  | .quiRetain .. => execQuiRetain_kept h
  | .quiDrop .. => execQuiDrop_kept h
  | .batchOpen .. => execBatchOpen_kept h
  | .batchClose .. => execBatchClose_kept h
  | .quiJoin .. => execQuiJoin_kept h
  | .quiLeave .. => execQuiLeave_kept h
  | .stepBegin .. => execStepBegin_kept h
  | .stepCommit .. => execStepCommit_kept h
  | .stepAbort .. => execStepAbort_kept h
  | .quiExport .. => execQuiExport_kept h
  | .quiImport .. => execQuiImport_kept h
  | .armedCommit .. => execArmedCommit_kept h
  | .quireCommandDone .. => execQuireCommandDone_kept h
  | .dramWrite .. => execDramWrite_kept h
  | .dramRead .. => execDramRead_kept h
  | .metadataRegionAccess .. => execMetadataRegionAccess_kept h
  | .patrolSweepStart .. => execPatrolSweepStart_kept h
  | .patrolRead .. => execPatrolRead_kept h
  | .memSplitWrite .. => execMemSplitWrite_kept h
  | .pmvDoorbell .. => execPmvDoorbell_kept h
  | .pmvRingCfgWrite .. => execPmvRingCfgWrite_kept h
  | .pmvCopy .. => execPmvCopy_kept h
  | .pmvFill .. => execPmvFill_kept h
  | .pmvTranspose .. => execPmvTranspose_kept h
  | .pmvDecomp .. => execPmvDecomp_kept h
  | .pmvFetch .. => execPmvFetch_kept h
  | .pmvFetchNvme .. => execPmvFetchNvme_kept h
  | .nvmeCompletion .. => execNvmeCompletion_kept h
  | .sheetReadTimeout .. => execSheetReadTimeout_kept h
  | .moveComplete .. => execMoveComplete_kept h
  | .hbxRequestForward .. => execHbxRequestForward_kept h
  | .hbxWindowBoundary .. => execHbxWindowBoundary_kept h
  | .hbxReadComplete .. => execHbxReadComplete_kept h
  | .hbxAgeRaise .. => execHbxAgeRaise_kept h
  | .hbxMatchCtrlWrite .. => execHbxMatchCtrlWrite_kept h
  | .hbxTableCopyDone .. => execHbxTableCopyDone_kept h
  | .hbxClassWrite .. => execHbxClassWrite_kept h
  | .checkFailureReport .. => execCheckFailureReport_kept h
  | .watchdogExpiry .. => execWatchdogExpiry_kept h
  | .meshParityError .. => execMeshParityError_kept h
  | .headerParityError .. => execHeaderParityError_kept h
  | .lockstepTltMismatch .. => execLockstepTltMismatch_kept h
  | .tilthPairResetDone .. => execTilthPairResetDone_kept h
  | .lockstepMgtMismatch .. => execLockstepMgtMismatch_kept h
  | .mgtPairRestart .. => execMgtPairRestart_kept h
  | .trackerResolve .. => execTrackerResolve_kept h
  | .provTimeout .. => execProvTimeout_kept h
  | .ftRequest .. => execFtRequest_kept h
  | .sweepTestDue .. => execSweepTestDue_kept h
  | .fieldTestStart .. => execFieldTestStart_kept h
  | .fieldTestEnd .. => execFieldTestEnd_kept h
  | .brokeHeadWrite .. => execBrokeHeadWrite_kept h
  | .dunNop .. => execDunNop_kept h
  | .dunBind .. => execDunBind_kept h
  | .dunUnbind .. => execDunUnbind_kept h
  | .occLoad .. => execOccLoad_kept h
  | .dunValidate .. => execDunValidate_kept h
  | .dunSearch .. => execDunSearch_kept h
  | .slvNop .. => execSlvNop_kept h
  | .qpBind .. => execQpBind_kept h
  | .qpUnbind .. => execQpUnbind_kept h
  | .qpFactor .. => execQpFactor_kept h
  | .qpSolve .. => execQpSolve_kept h
  | .mpcStep .. => execMpcStep_kept h
  | .batchFactor .. => execBatchFactor_kept h
  | .batchSolve .. => execBatchSolve_kept h
  | .solverDeadlineMissed .. => execSolverDeadlineMissed_kept h
  | .lomNop .. => execLomNop_kept h
  | .frameLoad .. => execFrameLoad_kept h
  | .lomTransform .. => execLomTransform_kept h
  | .lomAssociate .. => execLomAssociate_kept h
  | .trackApply .. => execTrackApply_kept h
  | .trackRead .. => execTrackRead_kept h
  | .contextEnable .. => execContextEnable_kept h
  | .contextDisable .. => execContextDisable_kept h
  | .tltInputWrite .. => execTltInputWrite_kept h
  | .groupCommit .. => execGroupCommit_kept h
  | .sampleInstant .. => execSampleInstant_kept h
  | .sampleDeadline .. => execSampleDeadline_kept h
  | .lawLoad .. => execLawLoad_kept h
  | .lawLoadDone .. => execLawLoadDone_kept h
  | .setpointCellChange .. => execSetpointCellChange_kept h
  | .setpointReadDone .. => execSetpointReadDone_kept h
  | .tltRestart .. => execTltRestart_kept h
  | .testRun .. => execTestRun_kept h
  | .tilthFrameLaunch .. => execTilthFrameLaunch_kept h
  | .timeBaseTick .. => execTimeBaseTick_kept h
  | .timeBaseWrap .. => execTimeBaseWrap_kept h
  | .timRateWrite .. => execTimRateWrite_kept h
  | .timStep .. => execTimStep_kept h
  | .epochHiWrite .. => execEpochHiWrite_kept h
  | .ethFrameReceive .. => execEthFrameReceive_kept h
  | .pauseFrameReceive .. => execPauseFrameReceive_kept h
  | .ethDoorbell .. => execEthDoorbell_kept h
  | .ethFrameTransmit .. => execEthFrameTransmit_kept h
  | .ethTxComplete .. => execEthTxComplete_kept h
  | .lateDrop .. => execLateDrop_kept h
  | .gateChangeRequest .. => execGateChangeRequest_kept h
  | .gateListChange .. => execGateListChange_kept h
  | .gateEntryAdvance .. => execGateEntryAdvance_kept h
  | .ethClsWord0Write .. => execEthClsWord0Write_kept h
  | .zthPortEnable .. => execZthPortEnable_kept h
  | .zthPortDisable .. => execZthPortDisable_kept h
  | .trainStateTimeout .. => execTrainStateTimeout_kept h
  | .capFlitReceive .. => execCapFlitReceive_kept h
  | .flitReceive .. => execFlitReceive_kept h
  | .nakReceive .. => execNakReceive_kept h
  | .zthRetrain .. => execZthRetrain_kept h
  | .linkDrop .. => execLinkDrop_kept h
  | .zthWindowAccess .. => execZthWindowAccess_kept h
  | .zthWriteMsg .. => execZthWriteMsg_kept h
  | .zthReadReq .. => execZthReadReq_kept h
  | .zthReadResp .. => execZthReadResp_kept h
  | .zthWriteAck .. => execZthWriteAck_kept h
  | .zthNotice .. => execZthNotice_kept h
  | .zthRouteWrite .. => execZthRouteWrite_kept h
  | .csiLongPacket .. => execCsiLongPacket_kept h
  | .csiFrameStart .. => execCsiFrameStart_kept h
  | .csiFrameEnd .. => execCsiFrameEnd_kept h
  | .csiDoorbell .. => execCsiDoorbell_kept h
  | .pcieInboundRequest .. => execPcieInboundRequest_kept h
  | .poisonedTlpReceive .. => execPoisonedTlpReceive_kept h
  | .pcieCplTimeout .. => execPcieCplTimeout_kept h
  | .msixTrig .. => execMsixTrig_kept h
  | .perstAssert .. => execPerstAssert_kept h
  | .flashRead .. => execFlashRead_kept h
  | .flashProgram .. => execFlashProgram_kept h
  | .flashErase .. => execFlashErase_kept h
  | .flashReadSfdp .. => execFlashReadSfdp_kept h
  | .flashRegRead .. => execFlashRegRead_kept h
  | .flashRegWrite .. => execFlashRegWrite_kept h
  | .xspCmdDone .. => execXspCmdDone_kept h
  | .canTxReq .. => execCanTxReq_kept h
  | .canTxComplete .. => execCanTxComplete_kept h
  | .canFrameReceive .. => execCanFrameReceive_kept h
  | .canRecover .. => execCanRecover_kept h
  | .canAbortAll .. => execCanAbortAll_kept h
  | .canRxDoorbell .. => execCanRxDoorbell_kept h
  | .pinFuncWrite .. => execPinFuncWrite_kept h
  | .parkIntervalEnd .. => execParkIntervalEnd_kept h
  | .pwmStart .. => execPwmStart_kept h
  | .captureEdge .. => execCaptureEdge_kept h
  | .hartStart .. => execHartStart_kept h
  | .hartStop .. => execHartStop_kept h
  | .cacheError .. => execCacheError_kept h
  | .msiMessage .. => execMsiMessage_kept h
  | .stimecmpMatch .. => execStimecmpMatch_kept h
  | .startUp .. => execStartUp_kept h
  | .resetNAssert .. => execResetNAssert_kept h
  | .railMonitorTrip .. => execRailMonitorTrip_kept h
  | .mailboxDoorbell .. => execMailboxDoorbell_kept h
  | .mbxOpen .. => execMbxOpen_kept h
  | .mbxClose .. => execMbxClose_kept h
  | .mbxInfo .. => execMbxInfo_kept h
  | .fmtWrite .. => execFmtWrite_kept h
  | .partWrite .. => execPartWrite_kept h
  | .hbxWrite .. => execHbxWrite_kept h
  | .pinWrite .. => execPinWrite_kept h
  | .logRead .. => execLogRead_kept h
  | .updateBegin .. => execUpdateBegin_kept h
  | .updateWrite .. => execUpdateWrite_kept h
  | .updateCommit .. => execUpdateCommit_kept h
  | .updateAbort .. => execUpdateAbort_kept h
  | .rollbackAdvance .. => execRollbackAdvance_kept h
  | .fuseKey .. => execFuseKey_kept h
  | .moduleReset .. => execModuleReset_kept h
  | .moduleResetDelayExpiry .. => execModuleResetDelayExpiry_kept h
  | .logEntryWrite .. => execLogEntryWrite_kept h
  | .rtcTick .. => execRtcTick_kept h
  | .rtcSet .. => execRtcSet_kept h
  | .vaonPowerUp .. => execVaonPowerUp_kept h
  | .pmuPeriod .. => execPmuPeriod_kept h
  | .phaseReport .. => execPhaseReport_kept h
  | .capWrite .. => execCapWrite_kept h
  | .energyApportion .. => execEnergyApportion_kept h
  | .droopFiring .. => execDroopFiring_kept h
  | .droopRelease .. => execDroopRelease_kept h
  | .phaseFaultInput .. => execPhaseFaultInput_kept h
  | .telemetrySample .. => execTelemetrySample_kept h
  | .phaseRestoreRequest .. => execPhaseRestoreRequest_kept h
  | .thermalSample .. => execThermalSample_kept h
  | .shutdownHoldRelease .. => execShutdownHoldRelease_kept h
  | .domainOnRequest .. => execDomainOnRequest_kept h
  | .domainOffRequest .. => execDomainOffRequest_kept h
  | .powerGood .. => execPowerGood_kept h
  | .powerGoodTimeout .. => execPowerGoodTimeout_kept h
  | .autoGateIdle .. => execAutoGateIdle_kept h
  | .testBudgetGrant .. => execTestBudgetGrant_kept h
  | .adcSample .. => execAdcSample_kept h
  | .mtiCheckpoint .. => execMtiCheckpoint_kept h
  | .powerFailSignal .. => execPowerFailSignal_kept h
  | .mtiStart .. => execMtiStart_kept h
  | .clockCheck .. => execClockCheck_kept h
  | .ringSweep .. => execRingSweep_kept h
  | .socEvaluation .. => execSocEvaluation_kept h
  | .snapshotRefresh .. => execSnapshotRefresh_kept h
  | .snapshotLatchRead .. => execSnapshotLatchRead_kept h
  | .paramWrite .. => execParamWrite_kept h
  | .paramRead .. => execParamRead_kept h
  | .rawRead .. => execRawRead_kept h
  | .mtiSeal .. => execMtiSeal_kept h
  | .zthEnergyDetect .. => execZthEnergyDetect_kept h
  | .zthBlockLock .. => execZthBlockLock_kept h
  | .zthAlignDone .. => execZthAlignDone_kept h
  | .capSend .. => execCapSend_kept h
  | .flitSlot .. => execFlitSlot_kept h
  | .ethLinkUp .. => execEthLinkUp_kept h
  | .ethLinkDown .. => execEthLinkDown_kept h
  | .pcieLinkUp .. => execPcieLinkUp_kept h
  | .pcieLinkDown .. => execPcieLinkDown_kept h
  | .pcieCompletion .. => execPcieCompletion_kept h
  | .perstRelease .. => execPerstRelease_kept h
  | .canArbitrationLost .. => execCanArbitrationLost_kept h
  | .canBusError .. => execCanBusError_kept h
  | .canRecoveryComplete .. => execCanRecoveryComplete_kept h
  | .sampleComplete .. => execSampleComplete_kept h
  | .engineOpComplete .. => execEngineOpComplete_kept h
  | .loadStoreComplete .. => execLoadStoreComplete_kept h
  | .vmetPowerLoss .. => execVmetPowerLoss_kept h
  | .vaonPowerLoss .. => execVaonPowerLoss_kept h
  | .jtagTapCycle .. => execJtagTapCycle_kept h

/-- Settles O2: the first half of exec_kept. -/
theorem execKeepsQueue : Obligations.ExecKeepsQueue := by
  unfold Obligations.ExecKeepsQueue
  intro c s t h
  exact (exec_kept (.refl s) c t h).1

/-- Settles O4: taking the front command leaves the tables alone, and the second half of exec_kept speaks of its run. -/
theorem stepKeepsSound : Obligations.StepKeepsSound := by
  unfold Obligations.StepKeepsSound
  intro s t hs h
  cases hp : s.pending with
  | nil =>
    rw [step_of_empty hp] at h
    cases h
    exact hs
  | cons c rest =>
    rw [step_of_front hp] at h
    exact (exec_kept (.refl (s.dequeue rest)) c t h).2 (State.sound_dequeue.2 hs)

/-! ## Every command answers a next state -/

/-- The outcome is a next state. -/
def Answers (o : Host.Outcome State Fault Refusal) : Prop := ∃ t, o = .next t

section
variable {s t : State}

@[simp] theorem answers_next : Answers (.next t) := ⟨t, rfl⟩

@[simp] theorem answers_answer {ok : Bool} : Answers (answer ok s t) := by
  unfold answer
  split <;> simp

@[simp] theorem answers_write {m a : Nat} : Answers (s.write m a t) := answers_next

theorem answers_ite {c : Prop} [Decidable c] {o p : Host.Outcome State Fault Refusal} (ho : Answers o) (hp : Answers p) :
    Answers (if c then o else p) := by
  split <;> assumption

/-! ### The shared rows -/

theorem answers_control {q c : Nat} {act : State → Obj → List Byte → State} : Answers (s.control q c act) := by
  unfold State.control
  split <;> simp

@[simp] theorem answers_engRun {e : Nat} {load : Bool} {p : Nat → Bool} {f : State → Op → Obj → EngRes} : Answers (s.engRun e load p f) := by
  unfold State.engRun
  split
  · simp
  · split <;> simp

theorem answers_slvRow {e fault : Nat} {p : Nat → Bool} {f : State → Op → Obj → EngRes} : Answers (slvRow e fault p f s) := answers_engRun

theorem answers_lomRow {fault : Nat} {p : Nat → Bool} {f : State → Op → Obj → EngRes} : Answers (lomRow fault p f s) := answers_engRun

theorem answers_beaterRow {op n : Nat} : Answers (beaterRow op n s) := by
  unfold beaterRow
  split <;> simp

theorem answers_moveRow {m : Nat} {p : Nat → Bool} : Answers (moveRow m p s) := by
  unfold moveRow
  dsimp only
  split <;> simp

theorem answers_mbxServe {op : Nat} {len : Nat → Bool} {f : State → Nat → MbxRes} : Answers (mbxServe op len f s) := by
  unfold mbxServe
  split <;> simp

/-! ### Commands that look at the state before they answer

The proofs follow the choices of each meaning: split for what it looks up, answers_ite for its conditions. -/

theorem execOperationDispatch_answers {e : Nat} : Answers (execOperationDispatch e s) := by
  unfold execOperationDispatch
  split
  · simp
  · split <;> simp

theorem execQorazNop_answers {n : Nat} : Answers (execQorazNop n s) := by
  unfold execQorazNop
  split <;> simp

theorem execGemm_answers {n : Nat} : Answers (execGemm n s) := by
  unfold execGemm
  split <;> simp

theorem execConv_answers {n : Nat} : Answers (execConv n s) := by
  unfold execConv
  split <;> simp

theorem execQorazLoad_answers {n : Nat} : Answers (execQorazLoad n s) := by
  unfold execQorazLoad
  split <;> simp

theorem execQorazStore_answers {n : Nat} : Answers (execQorazStore n s) := by
  unfold execQorazStore
  split <;> simp

theorem execWorkCycle_answers {n : Nat} : Answers (execWorkCycle n s) := by
  unfold execWorkCycle
  split <;> simp

theorem execChainAccumulationEnd_answers {n : Nat} : Answers (execChainAccumulationEnd n s) := by
  unfold execChainAccumulationEnd
  split <;> simp

theorem execDrainStart_answers {n : Nat} {ups : List (Nat × Nat × Nat)} : Answers (execDrainStart n ups s) := by
  unfold execDrainStart
  split
  · split
    · simp
    · dsimp only
      split <;> simp
  · simp

theorem execCowCopyComplete_answers {i : Nat} : Answers (execCowCopyComplete i s) := by
  unfold execCowCopyComplete
  split <;> simp

theorem execDrainComplete_answers {n : Nat} : Answers (execDrainComplete n s) := by
  unfold execDrainComplete
  split
  · simp
  · refine answers_ite answers_next ?_
    split
    · simp
    · exact answers_ite answers_answer answers_next

theorem execCalenderOpComplete_answers {n ep : Nat} : Answers (execCalenderOpComplete n ep s) := by
  unfold execCalenderOpComplete
  refine answers_ite answers_answer ?_
  split <;> simp

theorem execLanePhaseStart_answers {n stall : Nat} : Answers (execLanePhaseStart n stall s) := by
  unfold execLanePhaseStart
  split <;> simp

theorem execCurveSlotLoadDone_answers {n : Nat} : Answers (execCurveSlotLoadDone n s) := by
  unfold execCurveSlotLoadDone
  split <;> simp

theorem execBeaterOpComplete_answers {n ep : Nat} : Answers (execBeaterOpComplete n ep s) := by
  unfold execBeaterOpComplete
  refine answers_ite answers_answer ?_
  split
  · exact answers_ite answers_next answers_answer
  · simp

theorem execAdmissionComplete_answers : Answers (execAdmissionComplete s) := by
  unfold execAdmissionComplete
  split <;> simp

theorem execUnloadComplete_answers : Answers (execUnloadComplete s) := by
  unfold execUnloadComplete
  split
  · split <;> simp
  · simp

theorem execReservedControlEntry_answers {q : Nat} : Answers (execReservedControlEntry q s) := by
  unfold execReservedControlEntry
  split <;> simp

theorem execWaitRelease_answers {q : Nat} : Answers (execWaitRelease q s) := by
  unfold execWaitRelease
  split <;> simp

theorem execTimedWaitTimeout_answers {q : Nat} : Answers (execTimedWaitTimeout q s) := by
  unfold execTimedWaitTimeout
  split <;> simp

theorem execFenceRelease_answers {q : Nat} : Answers (execFenceRelease q s) := by
  unfold execFenceRelease
  split <;> simp

theorem execPreemptTask_answers : Answers (execPreemptTask s) := by
  unfold execPreemptTask
  split <;> simp

theorem execSaveComplete_answers {q : Nat} : Answers (execSaveComplete q s) := by
  unfold execSaveComplete
  split <;> simp

theorem execRestoreTask_answers : Answers (execRestoreTask s) := by
  unfold execRestoreTask
  split
  · split <;> simp
  · simp

theorem execRestoreComplete_answers {q : Nat} : Answers (execRestoreComplete q s) := by
  unfold execRestoreComplete
  split
  · exact answers_ite answers_next answers_answer
  · simp

theorem execArmedCommit_answers {b : Nat} : Answers (execArmedCommit b s) := by
  unfold execArmedCommit
  dsimp only
  split <;> simp

theorem execQuireCommandDone_answers {p : Nat} : Answers (execQuireCommandDone p s) := by
  unfold execQuireCommandDone
  split
  · simp
  · exact answers_ite answers_answer (answers_ite answers_next answers_next)

theorem execSheetReadTimeout_answers {m i k : Nat} : Answers (execSheetReadTimeout m i k s) := by
  unfold execSheetReadTimeout
  split <;> simp

theorem execMoveComplete_answers {m i : Nat} : Answers (execMoveComplete m i s) := by
  unfold execMoveComplete
  split
  · simp
  · exact answers_ite answers_answer (answers_ite answers_next (answers_ite answers_answer
      (answers_ite answers_next (answers_ite answers_next answers_next))))

theorem execHbxRequestForward_answers {new : Bool} {m part src a n : Nat} {rd : Bool} {k j : Nat} :
    Answers (execHbxRequestForward new m part src a n rd k j s) := by
  unfold execHbxRequestForward
  refine answers_ite answers_answer ?_
  split <;> simp

theorem execHbxReadComplete_answers {k j : Nat} : Answers (execHbxReadComplete k j s) := by
  unfold execHbxReadComplete
  split <;> simp

theorem execHbxAgeRaise_answers {k j : Nat} : Answers (execHbxAgeRaise k j s) := by
  unfold execHbxAgeRaise
  split <;> simp

theorem execHbxClassWrite_answers {m i c k v : Nat} : Answers (execHbxClassWrite m i c k v s) := by
  unfold execHbxClassWrite
  split <;> simp

theorem execCheckFailureReport_answers {ext : Option Report} : Answers (execCheckFailureReport ext s) := by
  unfold execCheckFailureReport
  split <;> simp

theorem execWatchdogExpiry_answers {n : Nat} : Answers (execWatchdogExpiry n s) := by
  unfold execWatchdogExpiry
  split <;> simp

theorem execTrackerResolve_answers {p i : Nat} : Answers (execTrackerResolve p i s) := by
  unfold execTrackerResolve
  split
  · split <;> simp
  · simp

theorem execProvTimeout_answers {p i : Nat} : Answers (execProvTimeout p i s) := by
  unfold execProvTimeout
  split <;> simp

theorem execFieldTestStart_answers {tj : Int} : Answers (execFieldTestStart tj s) := by
  unfold execFieldTestStart
  split <;> simp

theorem execFieldTestEnd_answers {n out : Nat} {row col : Option Nat} {srow : Nat} {nom : Bool} : Answers (execFieldTestEnd n out row col srow nom s) :=
  answers_ite answers_answer (answers_ite answers_next (answers_ite answers_answer answers_next))

theorem execOccLoad_answers {e fault : Nat} : Answers (execOccLoad e fault s) := by
  unfold execOccLoad
  split <;> simp

theorem execSolverDeadlineMissed_answers {e : Nat} {fac : Bool} {k : Nat} : Answers (execSolverDeadlineMissed e fac k s) := by
  unfold execSolverDeadlineMissed
  split
  · split
    · refine answers_ite ?_ answers_answer
      split <;> simp
    · simp
  · simp

theorem execSampleDeadline_answers {c : Nat} : Answers (execSampleDeadline c s) := by
  unfold execSampleDeadline
  split <;> simp

theorem execLawLoadDone_answers {c : Nat} : Answers (execLawLoadDone c s) := answers_ite answers_next answers_answer

theorem execSetpointReadDone_answers {c : Nat} : Answers (execSetpointReadDone c s) := answers_ite answers_next answers_answer

theorem execTilthFrameLaunch_answers {n c : Nat} : Answers (execTilthFrameLaunch n c s) := by
  unfold execTilthFrameLaunch
  split
  · simp
  · exact answers_ite answers_next answers_answer

theorem execEthFrameReceive_answers {n at_ : Nat} {fcsOk : Bool} {f : List Byte} : Answers (execEthFrameReceive n at_ fcsOk f s) :=
  answers_ite answers_next answers_answer

theorem execEthFrameTransmit_answers {n : Nat} : Answers (execEthFrameTransmit n s) := by
  unfold execEthFrameTransmit
  refine answers_ite answers_answer ?_
  split
  · simp
  · split <;> simp

theorem execEthTxComplete_answers {n q : Nat} : Answers (execEthTxComplete n q s) := by
  unfold execEthTxComplete
  dsimp only
  split
  · exact answers_ite answers_next answers_next
  · exact answers_ite answers_next answers_answer

theorem execLateDrop_answers {n q : Nat} : Answers (execLateDrop n q s) := answers_ite answers_next answers_answer

theorem execGateListChange_answers {n : Nat} : Answers (execGateListChange n s) := by
  unfold execGateListChange
  split <;> simp

theorem execZthRetrain_answers {m p : Nat} {lost : Option Nat} : Answers (execZthRetrain m p lost s) := by
  unfold execZthRetrain
  split <;> simp

theorem execZthWriteMsg_answers {p : Nat} : Answers (execZthWriteMsg p s) := by
  unfold execZthWriteMsg
  split
  · simp
  · exact answers_ite answers_next (answers_ite answers_answer answers_next)

theorem execZthReadReq_answers {p : Nat} : Answers (execZthReadReq p s) := by
  unfold execZthReadReq
  split
  · simp
  · refine answers_ite answers_next ?_
    dsimp only
    split
    · simp
    · simp
    · split <;> simp

theorem execZthReadResp_answers {p : Nat} : Answers (execZthReadResp p s) := by
  unfold execZthReadResp
  split
  · simp
  · split
    · simp
    · exact answers_ite answers_next (answers_ite answers_answer answers_next)

theorem execZthWriteAck_answers {p : Nat} : Answers (execZthWriteAck p s) := by
  unfold execZthWriteAck
  split
  · simp
  · dsimp only
    split
    · simp
    · exact answers_ite answers_next answers_next

theorem execZthNotice_answers {p : Nat} : Answers (execZthNotice p s) := by
  unfold execZthNotice
  split
  · simp
  · exact answers_ite answers_answer answers_next

theorem execCsiFrameStart_answers {p ecc vc num : Nat} : Answers (execCsiFrameStart p ecc vc num s) := by
  unfold execCsiFrameStart
  split <;> simp

theorem execCsiFrameEnd_answers {p ecc vc : Nat} : Answers (execCsiFrameEnd p ecc vc s) := by
  unfold execCsiFrameEnd
  split <;> simp

theorem execPoisonedTlpReceive_answers {p : Nat} {cpl : Bool} {tag rid a : Nat} {bs : List Byte} : Answers (execPoisonedTlpReceive p cpl tag rid a bs s) := by
  unfold execPoisonedTlpReceive
  refine answers_ite answers_answer (answers_ite ?_ answers_next)
  split <;> simp

theorem execPcieCplTimeout_answers {p tag : Nat} : Answers (execPcieCplTimeout p tag s) := by
  unfold execPcieCplTimeout
  split <;> simp

theorem execXspCmdDone_answers {err : Bool} : Answers (execXspCmdDone err s) := by
  unfold execXspCmdDone
  split <;> simp

theorem execCanTxComplete_answers {n : Nat} {sent : Bool} {sof : Nat} : Answers (execCanTxComplete n sent sof s) := by
  unfold execCanTxComplete
  refine answers_ite answers_answer (answers_ite ?_ ?_)
  · split <;> simp
  · split <;> simp

theorem execCanFrameReceive_answers {n w dlc flags : Nat} {data : List Byte} {sof : Nat} : Answers (execCanFrameReceive n w dlc flags data sof s) :=
  answers_ite answers_next answers_answer

theorem execMbxOpen_answers : Answers (execMbxOpen s) := by
  unfold execMbxOpen
  split <;> simp

theorem execUpdateWrite_answers {err : Bool} : Answers (execUpdateWrite err s) := answers_ite answers_answer answers_mbxServe

theorem execLogEntryWrite_answers {ok : Bool} : Answers (execLogEntryWrite ok s) := by
  unfold execLogEntryWrite
  split <;> simp

theorem execPhaseReport_answers {n : Nat} : Answers (execPhaseReport n s) := by
  unfold execPhaseReport
  split <;> simp

theorem execZthAlignDone_answers {p : Nat} {rev : Bool} {pol : Nat} : Answers (execZthAlignDone p rev pol s) :=
  answers_ite answers_answer (answers_ite answers_next (answers_ite answers_next answers_answer))

theorem execPcieCompletion_answers {p tag : Nat} {err : Bool} {bs : List Byte} : Answers (execPcieCompletion p tag err bs s) := by
  unfold execPcieCompletion
  refine answers_ite answers_answer ?_
  split
  · simp
  · exact answers_ite answers_next (answers_ite answers_next answers_next)

theorem execCanArbitrationLost_answers {n sof : Nat} : Answers (execCanArbitrationLost n sof s) := by
  unfold execCanArbitrationLost
  split <;> simp

theorem execCanBusError_answers {n : Nat} {tx : Bool} {inc sof : Nat} : Answers (execCanBusError n tx inc sof s) := by
  unfold execCanBusError
  refine answers_ite ?_ answers_answer
  split <;> simp

theorem execSampleComplete_answers : Answers (execSampleComplete s) := by
  unfold execSampleComplete
  split <;> simp

theorem execEngineOpComplete_answers {e : Nat} {load : Bool} : Answers (execEngineOpComplete e load s) := by
  unfold execEngineOpComplete
  dsimp only
  split
  · simp
  · exact answers_ite answers_answer (answers_ite answers_next answers_next)

theorem execLoadStoreComplete_answers {n i ep : Nat} : Answers (execLoadStoreComplete n i ep s) := by
  unfold execLoadStoreComplete
  refine answers_ite answers_answer ?_
  split
  · simp
  · refine answers_ite answers_next (answers_ite ?_ answers_answer)
    dsimp only
    split <;> simp

end

/-! ### Every command -/

/-- Every command answers a next state. The arms stand by the shape of their meanings: one next state, an event that may not happen here, a register
write, a shared row; then those that look at the state first. -/
theorem exec_answers (s : State) : ∀ c : Instr, Answers (exec c s)
  | .registerWrite .. | .rcRead .. | .headerParityError .. | .resetNAssert .. | .snapshotLatchRead .. | .jtagTapCycle .. => answers_next
  | .lowWordRead .. | .fmtEntryCopyDone .. | .repairRecordCommit .. | .deadlineTick .. | .clusterDrained .. | .dramWrite .. | .dramRead ..
  | .metadataRegionAccess .. | .patrolSweepStart .. | .patrolRead .. | .nvmeCompletion .. | .hbxWindowBoundary .. | .hbxTableCopyDone ..
  | .meshParityError .. | .lockstepTltMismatch .. | .tilthPairResetDone .. | .lockstepMgtMismatch .. | .mgtPairRestart .. | .sweepTestDue ..
  | .sampleInstant .. | .setpointCellChange .. | .timeBaseTick .. | .timeBaseWrap .. | .pauseFrameReceive .. | .gateEntryAdvance ..
  | .trainStateTimeout .. | .capFlitReceive .. | .flitReceive .. | .nakReceive .. | .linkDrop .. | .zthWindowAccess .. | .csiLongPacket ..
  | .pcieInboundRequest .. | .perstAssert .. | .parkIntervalEnd .. | .pwmStart .. | .captureEdge .. | .cacheError .. | .msiMessage ..
  | .stimecmpMatch .. | .startUp .. | .railMonitorTrip .. | .moduleResetDelayExpiry .. | .rtcTick .. | .vaonPowerUp .. | .pmuPeriod ..
  | .energyApportion .. | .droopFiring .. | .droopRelease .. | .phaseFaultInput .. | .telemetrySample .. | .thermalSample ..
  | .shutdownHoldRelease .. | .powerGood .. | .powerGoodTimeout .. | .autoGateIdle .. | .testBudgetGrant .. | .adcSample .. | .mtiCheckpoint ..
  | .powerFailSignal .. | .mtiStart .. | .clockCheck .. | .ringSweep .. | .socEvaluation .. | .snapshotRefresh .. | .paramWrite .. | .paramRead ..
  | .rawRead .. | .mtiSeal .. | .zthEnergyDetect .. | .zthBlockLock .. | .capSend .. | .flitSlot .. | .ethLinkUp .. | .ethLinkDown ..
  | .pcieLinkUp .. | .pcieLinkDown .. | .perstRelease .. | .canRecoveryComplete .. | .vmetPowerLoss .. | .vaonPowerLoss .. => answers_answer
  | .fmtDescLoWrite .. | .fmtDescHiWrite .. | .admitObject .. | .unloadObject .. | .queueDoorbell .. | .queueCfgWrite .. | .cplHeadWrite ..
  | .cancelTask .. | .cancelAll .. | .resumeQueue .. | .cellWrite .. | .cellAddWrite .. | .quiAdmit .. | .admitStream .. | .quiRelease ..
  | .quiFork .. | .quiMap .. | .quiTruncate .. | .quiRetain .. | .quiDrop .. | .batchOpen .. | .batchClose .. | .quiJoin .. | .quiLeave ..
  | .stepBegin .. | .stepCommit .. | .stepAbort .. | .quiExport .. | .quiImport .. | .memSplitWrite .. | .pmvDoorbell .. | .pmvRingCfgWrite ..
  | .hbxMatchCtrlWrite .. | .ftRequest .. | .brokeHeadWrite .. | .contextEnable .. | .contextDisable .. | .tltInputWrite .. | .groupCommit ..
  | .lawLoad .. | .tltRestart .. | .testRun .. | .timRateWrite .. | .timStep .. | .epochHiWrite .. | .ethDoorbell .. | .gateChangeRequest ..
  | .ethClsWord0Write .. | .zthPortEnable .. | .zthPortDisable .. | .zthRouteWrite .. | .csiDoorbell .. | .msixTrig .. | .flashRead ..
  | .flashProgram .. | .flashErase .. | .flashReadSfdp .. | .flashRegRead .. | .flashRegWrite .. | .canTxReq .. | .canRecover .. | .canAbortAll ..
  | .canRxDoorbell .. | .pinFuncWrite .. | .hartStart .. | .hartStop .. | .mailboxDoorbell .. | .rtcSet .. | .capWrite .. | .phaseRestoreRequest ..
  | .domainOnRequest .. | .domainOffRequest .. => answers_write
  | .ew .. | .convertOp .. | .curveOp .. | .reduceOp .. | .normOp .. | .splitkSum .. | .dotOp .. | .windowOp .. | .attnExp .. | .attnMerge ..
  | .attnNorm .. | .boxDecode .. | .nms .. | .stateStep .. => answers_beaterRow
  | .pmvCopy .. | .pmvFill .. | .pmvTranspose .. | .pmvDecomp .. | .pmvFetch .. | .pmvFetchNvme .. => answers_moveRow
  | .operationDispatch .. => execOperationDispatch_answers
  | .qorazNop .. => execQorazNop_answers
  | .gemm .. => execGemm_answers
  | .conv .. => execConv_answers
  | .qorazLoad .. => execQorazLoad_answers
  | .qorazStore .. => execQorazStore_answers
  | .workCycle .. => execWorkCycle_answers
  | .chainAccumulationEnd .. => execChainAccumulationEnd_answers
  | .drainStart .. => execDrainStart_answers
  | .cowCopyComplete .. => execCowCopyComplete_answers
  | .drainComplete .. => execDrainComplete_answers
  | .calenderOpComplete .. => execCalenderOpComplete_answers
  | .lanePhaseStart .. => execLanePhaseStart_answers
  | .curveSlotLoadDone .. => execCurveSlotLoadDone_answers
  | .beaterOpComplete .. => execBeaterOpComplete_answers
  | .admissionComplete .. => execAdmissionComplete_answers
  | .unloadComplete .. => execUnloadComplete_answers
  | .taskEntry .. => show Answers (execTaskEntry _ s) from answers_control
  | .waitEntry .. => show Answers (execWaitEntry _ s) from answers_control
  | .timedWaitEntry .. => show Answers (execTimedWaitEntry _ s) from answers_control
  | .signalEntry .. => show Answers (execSignalEntry _ s) from answers_control
  | .setEntry .. => show Answers (execSetEntry _ s) from answers_control
  | .fenceEntry .. => show Answers (execFenceEntry _ s) from answers_control
  | .taskEndEntry .. => show Answers (execTaskEndEntry _ s) from answers_control
  | .reservedControlEntry .. => execReservedControlEntry_answers
  | .waitRelease .. => execWaitRelease_answers
  | .timedWaitTimeout .. => execTimedWaitTimeout_answers
  | .fenceRelease .. => execFenceRelease_answers
  | .preemptTask .. => execPreemptTask_answers
  | .saveComplete .. => execSaveComplete_answers
  | .restoreTask .. => execRestoreTask_answers
  | .restoreComplete .. => execRestoreComplete_answers
  | .armedCommit .. => execArmedCommit_answers
  | .quireCommandDone .. => execQuireCommandDone_answers
  | .sheetReadTimeout .. => execSheetReadTimeout_answers
  | .moveComplete .. => execMoveComplete_answers
  | .hbxRequestForward .. => execHbxRequestForward_answers
  | .hbxReadComplete .. => execHbxReadComplete_answers
  | .hbxAgeRaise .. => execHbxAgeRaise_answers
  | .hbxClassWrite .. => execHbxClassWrite_answers
  | .checkFailureReport .. => execCheckFailureReport_answers
  | .watchdogExpiry .. => execWatchdogExpiry_answers
  | .trackerResolve .. => execTrackerResolve_answers
  | .provTimeout .. => execProvTimeout_answers
  | .fieldTestStart .. => execFieldTestStart_answers
  | .fieldTestEnd .. => execFieldTestEnd_answers
  | .dunNop .. => show Answers (execDunNop _ _ s) from answers_engRun
  | .dunBind .. => show Answers (execDunBind _ _ s) from answers_engRun
  | .dunUnbind .. => show Answers (execDunUnbind _ _ s) from answers_engRun
  | .occLoad .. => execOccLoad_answers
  | .dunValidate .. => show Answers (execDunValidate _ _ s) from answers_engRun
  | .dunSearch .. => show Answers (execDunSearch _ _ s) from answers_engRun
  | .slvNop .. => show Answers (execSlvNop _ _ s) from answers_engRun
  | .qpBind .. => show Answers (execQpBind _ _ s) from answers_slvRow
  | .qpUnbind .. => show Answers (execQpUnbind _ _ s) from answers_slvRow
  | .qpFactor .. => show Answers (execQpFactor _ _ s) from answers_slvRow
  | .qpSolve .. => show Answers (execQpSolve _ _ s) from answers_slvRow
  | .mpcStep .. => show Answers (execMpcStep _ _ s) from answers_slvRow
  | .batchFactor .. => show Answers (execBatchFactor _ _ s) from answers_slvRow
  | .batchSolve .. => show Answers (execBatchSolve _ _ s) from answers_slvRow
  | .solverDeadlineMissed .. => execSolverDeadlineMissed_answers
  | .lomNop .. => show Answers (execLomNop _ s) from answers_engRun
  | .frameLoad .. => show Answers (execFrameLoad _ s) from answers_lomRow
  | .lomTransform .. => show Answers (execLomTransform _ s) from answers_lomRow
  | .lomAssociate .. => show Answers (execLomAssociate _ s) from answers_lomRow
  | .trackApply .. => show Answers (execTrackApply _ s) from answers_lomRow
  | .trackRead .. => show Answers (execTrackRead _ s) from answers_lomRow
  | .sampleDeadline .. => execSampleDeadline_answers
  | .lawLoadDone .. => execLawLoadDone_answers
  | .setpointReadDone .. => execSetpointReadDone_answers
  | .tilthFrameLaunch .. => execTilthFrameLaunch_answers
  | .ethFrameReceive .. => execEthFrameReceive_answers
  | .ethFrameTransmit .. => execEthFrameTransmit_answers
  | .ethTxComplete .. => execEthTxComplete_answers
  | .lateDrop .. => execLateDrop_answers
  | .gateListChange .. => execGateListChange_answers
  | .zthRetrain .. => execZthRetrain_answers
  | .zthWriteMsg .. => execZthWriteMsg_answers
  | .zthReadReq .. => execZthReadReq_answers
  | .zthReadResp .. => execZthReadResp_answers
  | .zthWriteAck .. => execZthWriteAck_answers
  | .zthNotice .. => execZthNotice_answers
  | .csiFrameStart .. => execCsiFrameStart_answers
  | .csiFrameEnd .. => execCsiFrameEnd_answers
  | .poisonedTlpReceive .. => execPoisonedTlpReceive_answers
  | .pcieCplTimeout .. => execPcieCplTimeout_answers
  | .xspCmdDone .. => execXspCmdDone_answers
  | .canTxComplete .. => execCanTxComplete_answers
  | .canFrameReceive .. => execCanFrameReceive_answers
  | .mbxOpen .. => execMbxOpen_answers
  | .mbxClose .. => show Answers (execMbxClose s) from answers_mbxServe
  | .mbxInfo .. => show Answers (execMbxInfo s) from answers_mbxServe
  | .fmtWrite .. => show Answers (execFmtWrite s) from answers_mbxServe
  | .partWrite .. => show Answers (execPartWrite s) from answers_mbxServe
  | .hbxWrite .. => show Answers (execHbxWrite s) from answers_mbxServe
  | .pinWrite .. => show Answers (execPinWrite s) from answers_mbxServe
  | .logRead .. => show Answers (execLogRead s) from answers_mbxServe
  | .updateBegin .. => show Answers (execUpdateBegin _ s) from answers_mbxServe
  | .updateWrite .. => execUpdateWrite_answers
  | .updateCommit .. => show Answers (execUpdateCommit _ s) from answers_mbxServe
  | .updateAbort .. => show Answers (execUpdateAbort _ s) from answers_mbxServe
  | .rollbackAdvance .. => show Answers (execRollbackAdvance s) from answers_mbxServe
  | .fuseKey .. => show Answers (execFuseKey s) from answers_mbxServe
  | .moduleReset .. => show Answers (execModuleReset s) from answers_mbxServe
  | .logEntryWrite .. => execLogEntryWrite_answers
  | .phaseReport .. => execPhaseReport_answers
  | .zthAlignDone .. => execZthAlignDone_answers
  | .pcieCompletion .. => execPcieCompletion_answers
  | .canArbitrationLost .. => execCanArbitrationLost_answers
  | .canBusError .. => execCanBusError_answers
  | .sampleComplete .. => execSampleComplete_answers
  | .engineOpComplete .. => execEngineOpComplete_answers
  | .loadStoreComplete .. => execLoadStoreComplete_answers

/-- Settles O3: exec_answers, with what Answers says. -/
theorem execAnswersNext : Obligations.ExecAnswersNext := fun c s => exec_answers s c

/-! ## Which accesses reach a register (R15, R21, R619, R628) -/

theorem State.mayWrite_aligned {s : State} {m a : Nat} (h : s.mayWrite m a = true) : a % 4 = 0 := by
  simp only [State.mayWrite, Bool.and_eq_true, decide_eq_true_eq] at h
  tauto

theorem State.mayRead_aligned {s : State} {m a : Nat} (h : s.mayRead m a = true) : a % 4 = 0 := by
  simp only [State.mayRead, Bool.and_eq_true, decide_eq_true_eq] at h
  tauto

/-! ### A narrow or misaligned access, or one outside the harts' ranges -/

/-- Any master but the application cores takes a bus error (R15). -/
theorem State.narrow_bus {s : State} {m self : Nat} (k : HartAccess) (a : Nat) (h : m ≠ 0x60) :
    s.start.narrow m self k a = { s with resp := .busError, out := [] } := if_neg h

/-- The application cores take an access fault, which no hart holds where none is named. -/
theorem State.narrow_unnamed {s : State} {self : Nat} (k : HartAccess) (a : Nat) (h : 24 ≤ selfHart self) :
    s.start.narrow 0x60 self k a = { s with resp := .accessFault, out := [] } := by
  unfold State.narrow State.trapAt
  rw [if_pos rfl, if_neg (by omega)]
  rfl

/-- The hart behind the access holds its kind and address (R620). -/
theorem State.narrow_hart {s : State} {self : Nat} (k : HartAccess) (a : Nat) (h : selfHart self < 24) :
    s.start.narrow 0x60 self k a = ({ s with resp := .accessFault, out := [] } : State).setHart (selfHart self)
      { s.hart (selfHart self) with trap := some (k, a) } := by
  unfold State.narrow State.trapAt
  rw [if_pos rfl, if_pos ⟨rfl, h⟩]
  rfl

theorem exec_registerWrite_narrow {s : State} {m self a n w : Nat} (h : n ≠ 4 ∨ a % 4 ≠ 0 ∨ s.nowhere m a = true) :
    exec (.registerWrite m self a n w) s = .next (s.start.narrow m self .store a) :=
  congrArg Host.Outcome.next (if_pos h : s.start.busWrite m self a n _ = _)

theorem exec_rcRead_narrow {s : State} {m self a n : Nat} (h : n ≠ 4 ∨ a % 4 ≠ 0 ∨ s.nowhere m a = true) :
    exec (.rcRead m self a n) s = .next (s.start.narrow m self .load a) :=
  congrArg Host.Outcome.next (if_pos h : s.start.busRead m self a n = _)

/-- Settles O6: both accesses end in State.narrow, by whose three cases the requester is answered. -/
theorem narrowAccess : Obligations.NarrowAccess := by
  unfold Obligations.NarrowAccess
  intro s m self a n w h
  rw [exec_registerWrite_narrow h, exec_rcRead_narrow h]
  constructor
  · intro hm
    exact ⟨congrArg _ (State.narrow_bus _ _ hm), congrArg _ (State.narrow_bus _ _ hm)⟩
  · rintro rfl hart t rfl rfl
    constructor
    · intro unnamed
      exact ⟨congrArg _ (State.narrow_unnamed _ _ unnamed), congrArg _ (State.narrow_unnamed _ _ unnamed)⟩
    · intro named
      exact ⟨congrArg _ (State.narrow_hart _ _ named), congrArg _ (State.narrow_hart _ _ named)⟩

/-! ### A write by access codes -/

theorem exec_registerWrite_of_mayWrite {s : State} {m self a w : Nat} (hm : s.mayWrite m a = true) (hl : lowBarred self a = false)
    (hn : s.nowhere m a = false) : exec (.registerWrite m self a 4 w) s = .next (s.start.writeReg m self a (BitVec.ofNat 32 w)) := by
  have hb : s.start.busWrite m self a 4 (BitVec.ofNat 32 w) = s.start.writeReg m self a (BitVec.ofNat 32 w) := by
    simp [State.busWrite, State.mayWrite_aligned hm, hn, hm, hl]
  exact congrArg Host.Outcome.next hb

/-- An address that holds no register ignores a write (R21). -/
theorem State.writeReg_of_none {s : State} {m self a : Nat} {w : Word} (h : regAt a = none) : s.writeReg m self a w = s := by
  simp only [State.writeReg, h]

/-- A register whose write is no command of its own takes the word by its access codes (R14). -/
theorem State.writeReg_of_not_own {s : State} {m self a : Nat} {d : RegDesc} {w : Word} (h : regAt a = some d)
    (hDck : s.ownDck (regIdx d a).1 (getAt (0 : Nat) (regIdx d a).2) w = none)
    (hMid : s.ownMid (regIdx d a).1 (getAt (0 : Nat) (regIdx d a).2) w = none)
    (hPorts : s.ownPorts m (regIdx d a).1 (getAt (0 : Nat) (regIdx d a).2) d a w = none)
    (hSys : s.ownSys m self (regIdx d a).1 (getAt (0 : Nat) (regIdx d a).2) d w = none)
    (hw : s.writable (regIdx d a).1 (getAt (0 : Nat) (regIdx d a).2) w = true) :
    s.writeReg m self a w = (s.wr a (codeWrite d (s.rd a) w)).senseAt a := by
  simp only [State.writeReg, h, hDck, hMid, hPorts, hSys, hw, if_true]

/-- Settles O7: the access reaches State.writeReg, which finds a register without a row of its own, or none. -/
theorem registerWriteCompletes : Obligations.RegisterWriteCompletes := by
  unfold Obligations.RegisterWriteCompletes
  intro s m self a w hm hl hn
  rw [exec_registerWrite_of_mayWrite hm hl hn]
  constructor
  · intro d hd i b x hDck hMid hPorts hSys hw
    rw [State.writeReg_of_not_own hd hDck hMid hPorts hSys hw]
    rfl
  · intro hd
    rw [State.writeReg_of_none hd]

/-! ### What a read shows and what it does -/

/-- The state a read finds: a class register of the Headbox is brought up to date first (R385 to R388). -/
def State.upToDate (s : State) (a : Nat) : State :=
  if hbxClassReg a then s.hbxShow ((a - 0x22000000) / 0x800000) ((a % 0x800000 - 0x10000) / 64) else s

/-- The word master m reads at a: the latched one (R20), else the live one. -/
def State.seenWord (s : State) (m a : Nat) : Word := (s.latched m a).getD (s.live m a)

/-- Away from the input pins, a read shows the word seen and leaves the state. -/
theorem State.shown_of_not_pin (s : State) (m : Nat) {a : Nat} (h : ¬ (0x66000000 ≤ a ∧ a < 0x66000180)) :
    s.shown m a = (s, s.seenWord m a) := by
  unfold State.shown State.seenWord
  cases s.latched m a with
  | some w => rfl
  | none =>
    rw [if_neg (fun k => h ⟨k.1, k.2.1⟩), if_neg h]
    rfl

theorem State.readClears_of_no_rc {s : State} {a : Nat} (h : ∀ d, regAt a = some d → d.rc = 0) : s.readClears a = s := by
  unfold State.readClears
  split
  · rfl
  · next d hd => exact if_pos (h d hd)

theorem State.readClears_of_rc {s : State} {a : Nat} {d : RegDesc} (hd : regAt a = some d) (h : d.rc ≠ 0) :
    s.readClears a = s.wr a ((s.rd a &&& ~~~(BitVec.ofNat 32 d.rc)) ||| (BitVec.ofNat 32 d.reset &&& BitVec.ofNat 32 d.rc)) := by
  simp only [State.readClears, hd, h, if_false]

theorem exec_rcRead_of_mayRead {s : State} {m self a : Nat} (hm : s.mayRead m a = true) (hl : lowBarred self a = false)
    (hn : s.nowhere m a = false) : exec (.rcRead m self a 4) s = .next (s.start.readReg m a) := by
  have hb : s.start.busRead m self a 4 = s.start.readReg m a := by
    simp [State.busRead, State.mayRead_aligned hm, hn, hm, hl]
  exact congrArg Host.Outcome.next hb

/-- A read of a low word by its own row is the general read (log 11). -/
theorem exec_lowWordRead_of_isLow {s : State} {m self a : Nat} (h : isLow a = true) :
    exec (.lowWordRead m self a) s = exec (.rcRead m self a 4) s := if_pos h

section
variable {s : State} {m a : Nat} (hp : ¬ (0x66000000 ≤ a ∧ a < 0x66000180)) (hSnap : a ≠ MTI_SNAP.addr 0) (hSweep : a ≠ MTI_SWEEP.addr 0)
include hp hSnap hSweep

theorem State.readReg_of_not_low (hlow : isLow a = false) :
    s.readReg m a = ((s.upToDate a).readClears a).say (.word ((s.upToDate a).seenWord m a)) := by
  simp only [State.readReg, State.upToDate, State.shown_of_not_pin _ _ hp, hlow, hSnap, hSweep, if_false, Bool.false_eq_true]

theorem State.readReg_of_low (hlow : isLow a = true) (hr : ∀ d, regAt a = some d → d.rc = 0) :
    s.readReg m a = { s.upToDate a with
      latches := Sparse.set (fun _ => none) (s.upToDate a).latches (latchKey m (a + 4)) (some ((s.upToDate a).live m (a + 4))),
      resp := .word ((s.upToDate a).seenWord m a) } := by
  simp only [State.readReg, State.upToDate, State.shown_of_not_pin _ _ hp, State.readClears_of_no_rc hr, hlow, hSnap, hSweep, if_false, if_true]
  rfl

end

/-- Settles O8: the access reaches State.readReg; the three clauses are a register with no RC field, one with RC fields, and a low word. -/
theorem readCompletes : Obligations.ReadCompletes := by
  unfold Obligations.ReadCompletes
  intro s m self a hm hl hn hp hSnap hSweep u w
  have hb := exec_rcRead_of_mayRead hm hl hn
  refine ⟨fun hlow hr => ?_, fun hlow d hd hr => ?_, fun hlow hr => ?_⟩
  · rw [hb, State.readReg_of_not_low hp hSnap hSweep hlow, State.readClears_of_no_rc hr]
    rfl
  · rw [hb, State.readReg_of_not_low hp hSnap hSweep hlow, State.readClears_of_rc hd hr]
    rfl
  · have hrow := exec_lowWordRead_of_isLow (s := s) (m := m) (self := self) hlow
    refine ⟨?_, hrow.symm⟩
    rw [hrow, hb, State.readReg_of_low hp hSnap hSweep hlow hr]
    rfl

end Sys2Proof.Machine

/-! # Architecture: the reset state, start-up and resets, power domains and thermal shutdown (01_architecture.md) -/

namespace Sys2Proof.Machine
open Sys2Proof

/-! ## The reset state (R52, R531, R632) -/

theorem State.sound_reset : State.reset.Sound := ⟨rfl, rfl, rfl⟩

theorem State.pdState_reset (d : Nat) : State.reset.pdState d = pdReset d := rfl

theorem pdReset_eq_two_iff {d : Nat} : pdReset d = 2 ↔ 80 ≤ d ∧ d ≤ 83 := by
  unfold pdReset
  split <;> simp [*]

theorem State.pdOn_reset {d : Nat} : State.reset.pdOn d = true ↔ 80 ≤ d ∧ d ≤ 83 := by
  rw [State.pdOn, State.pdState_reset, beq_iff_eq, pdReset_eq_two_iff]

/-- Settles O5: the tables of the reset state list nothing, so a domain and a register read their defaults. -/
theorem resetState : Obligations.ResetState := by
  unfold Obligations.ResetState
  exact ⟨State.sound_reset, rfl, rfl, fun _ => State.pdOn_reset, rfl, fun _ => rfl⟩

/-! ## Commands whose conditions hold -/

theorem answer_of_true {ok : Bool} {s t : State} (h : ok = true) : answer ok s t = .next t := if_pos h

theorem State.write_of_mayWrite {s t : State} {m a : Nat} (h : s.mayWrite m a = true) : s.write m a t = .next t :=
  congrArg Host.Outcome.next (if_pos h)

/-! ## Start-up (R632, R634) -/

theorem exec_startUp {s : State} (env : BootEnv) (hAon : s.pdOn 80 = true) (hMti : s.pdOn 81 = true) (hMgt : s.pdOn 82 = true)
    (hHold : s.mgt.hold = false) (hUp : s.supply.up = true) (hHeld : s.supply.heldTo ≤ s.cyc) (hStage : s.fld MGT_BOOT_STATUS.STAGE = 0) :
    exec (.startUp env) s = .next ((s.start.bootStep1 env).bootAll env) :=
  answer_of_true (by simp [hAon, hMti, hMgt, hHold, hUp, hHeld, hStage])

section
variable {s : State} {env : BootEnv}

theorem State.bootStep1_of_no_flash (h : env.flashOk = false) : s.bootStep1 env = s := by
  simp [State.bootStep1, h]

theorem State.bootStep1_of_flash (h : env.flashOk = true) : s.bootStep1 env = if env.octal then s.setF XSP_CFG.OCTAL 1 else s := by
  simp [State.bootStep1, h]

theorem State.bootAll_of_no_flash (h : env.flashOk = false) : s.bootAll env = s.bootStep2.bootStop 2 false := by
  simp [State.bootAll, h]

theorem State.bootAll_of_no_header (h : env.flashOk = true) (hb : (env.badHeader.contains 0 && env.badHeader.contains 1) = true) :
    s.bootAll env = ((s.bootStep2.slotReason 0 rsnRead 0).slotReason 1 rsnRead 0).bootStop 2 false := by
  simp only [State.bootAll, h, hb, Bool.not_true, Bool.or_true, if_true, List.foldl]

section
variable (h : env.flashOk = true) (hb : (env.badHeader.contains 0 && env.badHeader.contains 1) = false)
include h hb

theorem State.bootAll_of_no_slot (hc : (s.bootStep2.bootStep3 env).bootChoice = none) :
    s.bootAll env = (s.bootStep2.bootStep3 env).bootStop 1 true := by
  simp only [State.bootAll, h, hb, hc, Bool.not_true, Bool.or_false, Bool.false_eq_true, if_false]

theorem State.bootAll_of_slot {k : Nat} {both : Bool} (hc : (s.bootStep2.bootStep3 env).bootChoice = some (k, both)) :
    s.bootAll env = (s.bootStep2.bootStep3 env).bootSlots k both env := by
  simp only [State.bootAll, h, hb, hc, Bool.not_true, Bool.or_false, Bool.false_eq_true, if_false]

end
end

/-! ## Resets from outside (R734, R735, R737) -/

section
variable {s : State}

theorem exec_resetNAssert_of_long {ns : Nat} (hUp : s.supply.up = true) (h : 10000 ≤ ns) :
    exec (.resetNAssert ns) s = .next ({ s.start with mgt := { s.mgt with hold := false } } : State).externalReset := by
  have hOut : ¬ (1000 ≤ ns ∧ ns < 10000) := by omega
  show execResetNAssert ns s = _
  simp only [execResetNAssert, hUp, h, hOut, decide_true, Bool.true_or, Bool.not_true, Bool.false_eq_true, if_true, if_false, State.start_mgt]

theorem exec_resetNAssert_of_short {ns : Nat} (h : ns < 1000) : exec (.resetNAssert ns) s = .next s.start := by
  have hLong : ¬ 10000 ≤ ns := by omega
  have hMid : ¬ 1000 ≤ ns := by omega
  show execResetNAssert ns s = _
  simp [execResetNAssert, hLong, hMid]

theorem exec_resetNAssert_of_rail_low {ns : Nat} (h : s.supply.up = false) : exec (.resetNAssert ns) s = .next s.start := by
  show execResetNAssert ns s = _
  simp only [execResetNAssert, h, Bool.not_false, if_true]

/-- What the monitor of a rail has found, replaced. -/
def Supply.setLow (x : Supply) (rail : Nat) (b : Bool) : Supply := if rail = 0 then { x with lowIo := b } else { x with lowVio := b }

theorem State.railLow_of_up {rail : Nat} (h : s.supply.up = true) :
    s.railLow rail = { (s.moduleReset 1).emit (.note "IO0_BALLS" [2]) with
      supply := Supply.setLow ((s.moduleReset 1).emit (.note "IO0_BALLS" [2])).supply rail true } := by
  simp only [State.railLow, h, if_true, Supply.setLow]

theorem State.railLow_of_low {rail : Nat} (h : s.supply.up = false) : s.railLow rail = { s with supply := s.supply.setLow rail true } := by
  simp only [State.railLow, h, Bool.false_eq_true, if_false, Supply.setLow]

theorem State.railBack_of_last {rail : Nat} (hx : (s.supply.setLow rail false).up = true) (h : s.supply.up = false) :
    s.railBack rail = { s with out := s.out ++ resetBalls s.tap.shifting,
                               supply := { s.supply.setLow rail false with heldTo := s.cyc + 1000000 } } :=
  if_pos (by
    show ((s.supply.setLow rail false).up && !s.supply.up) = true
    rw [hx, h]
    rfl)

theorem State.railBack_of_other {rail : Nat} (h : (s.supply.setLow rail false).up = false ∨ s.supply.up = true) :
    s.railBack rail = { s with supply := s.supply.setLow rail false } :=
  if_neg (by
    show ¬ ((s.supply.setLow rail false).up && !s.supply.up) = true
    rcases h with h | h <;> simp [h])

section
variable {rail mv : Nat} (hr : rail < 2)
include hr

theorem exec_railMonitorTrip : exec (.railMonitorTrip rail mv) s =
    .next (if mv < railTrip rail then s.start.railLow rail else if railTrip rail + 20 ≤ mv then s.start.railBack rail else s.start) :=
  answer_of_true (decide_eq_true hr)

theorem exec_railMonitorTrip_of_low (h : mv < railTrip rail) : exec (.railMonitorTrip rail mv) s = .next (s.start.railLow rail) := by
  rw [exec_railMonitorTrip hr, if_pos h]

theorem exec_railMonitorTrip_of_between (h : railTrip rail ≤ mv) (h' : mv < railTrip rail + 20) :
    exec (.railMonitorTrip rail mv) s = .next s.start := by
  rw [exec_railMonitorTrip hr, if_neg (by omega), if_neg (by omega)]

theorem exec_railMonitorTrip_of_back (h : railTrip rail + 20 ≤ mv) : exec (.railMonitorTrip rail mv) s = .next (s.start.railBack rail) := by
  rw [exec_railMonitorTrip hr, if_neg (by omega), if_pos h]

end

theorem exec_moduleResetDelayExpiry {t : Nat} (h : s.mgt.resetAt = some t) (ht : t ≤ s.cyc) :
    exec .moduleResetDelayExpiry s = .next (s.start.moduleReset 2) :=
  answer_of_true (by rw [h]; exact decide_eq_true ht)

/-! ## The management pair (R403, R660) and its log queue (R662) -/

section
variable {source code uncopied : Nat} {data : List Byte}

theorem State.logEvent_mgt : (s.logEvent source code uncopied data).mgt = s.mgt := by
  unfold State.logEvent
  split <;> rfl

theorem State.logEvent_regs : (s.logEvent source code uncopied data).regs = s.regs := by
  unfold State.logEvent
  split <;> rfl

theorem State.logEvent_queue_length (h : s.log.queue.length < 256) :
    (s.logEvent source code uncopied data).log.queue.length = s.log.queue.length + 1 := by
  simp [State.logEvent, h]

end

theorem exec_lockstepMgtMismatch {serving : Bool} (hOn : s.pdOn 82 = true) (hRuns : s.mgt.down = false) :
    exec (.lockstepMgtMismatch serving) s =
      .next (let t := (s.start.bump ITG_LOCKSTEP.MGT 1).writeBroke { Broke.plain 0x0A with unit := 0x61 }
       { t with mgt := { t.mgt with down := true, serving := if serving then t.mgt.queue.head? else none } }) :=
  answer_of_true (by rw [hOn, hRuns]; rfl)

theorem exec_mgtPairRestart (h : s.mgt.down = true) : exec .mgtPairRestart s = .next s.start.mgtRestart := answer_of_true h

/-- The pair as it comes back, its queue of log entries lost and its channels closed, before the restart is logged. -/
def State.pairBack (s : State) : State :=
  (({ s with mgt := { s.mgt with down := false, serving := none, session := none }, log := { s.log with queue := [], dropped := 0 } } : State).setF
    MGT_MBX_STATUS.OPEN 0).setF MGT_MBX_STATUS.RESTARTED 1

@[simp] theorem State.log_queue_pairBack : s.pairBack.log.queue = [] := rfl

/-- A pair that was serving no request answers none. -/
theorem State.mgtRestart_of_idle (h : s.mgt.serving = none) : s.mgtRestart = s.pairBack.logEvent logMgt 1 0 [] := by
  simp only [State.mgtRestart, h, State.pairBack]

/-! ## The supply of the always-on domain (R52, R663) -/

theorem exec_vaonPowerLoss (h : s.pdOn 80 = true) : exec .vaonPowerLoss s = .next (s.start.aonLost.setPd 80 0) := answer_of_true h

theorem exec_vaonPowerUp (h : s.pdOn 80 = false) : exec .vaonPowerUp s = .next s.start.aonBack := answer_of_true (by rw [h]; rfl)

end

/-- Settles O55: each clause is the rule of its command above. -/
theorem startUpAndReset : Obligations.StartUpAndReset := by
  unfold Obligations.StartUpAndReset
  intro s env ns rail mv sv
  refine ⟨fun hAon hMti hMgt hHold hUp hHeld hStage => ?startUp, exec_resetNAssert_of_long, ?ignored, fun hr => ?rails,
    fun t => exec_moduleResetDelayExpiry, exec_lockstepMgtMismatch, fun hDown hIdle => ?restart, exec_vaonPowerLoss, exec_vaonPowerUp⟩
  case startUp =>
    rw [exec_startUp env hAon hMti hMgt hHold hUp hHeld hStage]
    refine ⟨fun h => ?_, fun h hb => ?_, fun h hb => ?_⟩
    · rw [State.bootStep1_of_no_flash h, State.bootAll_of_no_flash h]
    · rw [State.bootStep1_of_flash h, State.bootAll_of_no_header h hb]
    · rw [State.bootStep1_of_flash h]
      generalize (if env.octal = true then s.start.setF XSP_CFG.OCTAL 1 else s.start) = t
      dsimp only
      split
      next hc => rw [State.bootAll_of_no_slot h hb hc]
      next k both hc => rw [State.bootAll_of_slot h hb hc]
  case ignored =>
    rintro (h | h)
    · exact exec_resetNAssert_of_short h
    · exact exec_resetNAssert_of_rail_low h
  case rails =>
    refine ⟨fun h hUp => ?_, fun h hLow => ?_, exec_railMonitorTrip_of_between hr, fun h hx hLow => ?_, fun h hx => ?_⟩
    · rw [exec_railMonitorTrip_of_low hr h, State.railLow_of_up (s := s.start) hUp]
      rfl
    · rw [exec_railMonitorTrip_of_low hr h, State.railLow_of_low (s := s.start) hLow]
      rfl
    · rw [exec_railMonitorTrip_of_back hr h, State.railBack_of_last (s := s.start) hx hLow]
      rfl
    · rw [exec_railMonitorTrip_of_back hr h, State.railBack_of_other (s := s.start) hx]
      rfl
  case restart =>
    refine ⟨_, exec_mgtPairRestart hDown, ?_⟩
    rw [State.mgtRestart_of_idle (s := s.start) hIdle, State.logEvent_mgt, State.logEvent_regs, State.logEvent_queue_length (by simp),
      State.log_queue_pairBack]
    exact ⟨rfl, rfl, rfl⟩


/-! ## Requests to switch a domain (R52, R688, R689, R699) -/

section
variable {s : State} {d : Nat}

theorem State.pdWrite_of_absent {w : Word} (h : s.pdPresent d = false) : s.pdWrite d w = s := by
  simp [State.pdWrite, h]

section
variable (hp : s.pdPresent d = true)
include hp

theorem State.pdAsk_of_present : s.pdAsk d = ((s.pdQueue (pdCoreOf d)).pdQueue d).pdKick := by
  simp [State.pdAsk, hp]

/-- The four domains no command switches refuse ON and OFF. -/
theorem State.pdWrite_of_fixed {w : Word} (hd : 80 ≤ d ∧ d < 84) (hw : ¬ (bits w 1 1 = 0 ∧ bits w 0 0 = 0)) : s.pdWrite d w = s.pdRefuse d := by
  simp [State.pdWrite, hp, hd, hw]

theorem State.pdWrite_of_on {w : Word} (hd : ¬ (80 ≤ d ∧ d < 84)) (hon : bits w 1 1 = 1) (hoff : bits w 0 0 = 0) :
    s.pdWrite d w = s.pdAsk d := by
  simp [State.pdWrite, hp, hd, hon, hoff]

theorem State.pdWrite_of_off {w : Word} (hd : ¬ (80 ≤ d ∧ d < 84)) (hon : bits w 1 1 = 0) (hoff : bits w 0 0 = 1) :
    s.pdWrite d w = s.pdOffAsk d := by
  simp [State.pdWrite, hp, hd, hon, hoff]

end

/-- The state in which domain d waits no longer to be switched on. -/
def State.pdUnqueue (s : State) (d : Nat) : State := { s with pmu := { s.pmu with pdWait := s.pmu.pdWait.filter (· != d) } }

theorem State.pdOffAsk_of_dependents (h : s.pdDependents d = true) : s.pdOffAsk d = s.pdRefuse d := if_pos h

section
variable (h : s.pdDependents d = false)
include h

theorem State.pdOffAsk_of_off (h0 : (s.pdUnqueue d).pdState d = 0) : s.pdOffAsk d = s.pdUnqueue d := by
  unfold State.pdOffAsk
  rw [if_neg (by simp [h])]
  exact if_pos h0

theorem State.pdOffAsk_of_not_off (h0 : (s.pdUnqueue d).pdState d ≠ 0) : s.pdOffAsk d = ((s.pdUnqueue d).domainOff d).pdKick := by
  unfold State.pdOffAsk
  rw [if_neg (by simp [h])]
  exact if_neg h0

end

section
variable {m : Nat} (hm : s.mayWrite m (PMU_PD.addr d) = true)
include hm

theorem exec_domainOnRequest : exec (.domainOnRequest m d) s = .next (s.start.pdWrite d 2) := State.write_of_mayWrite hm

theorem exec_domainOffRequest : exec (.domainOffRequest m d) s = .next (s.start.pdWrite d 1) := State.write_of_mayWrite hm

end

/-! ## Power-good and AUTO_GATE (R688, R689, R690) -/

section
variable (hOn : s.pdOn 82 = true)
include hOn

theorem exec_powerGood (h : s.pdState d = 1) : exec (.powerGood d) s = .next (s.start.domainUp d).pdKick :=
  answer_of_true (by rw [hOn, h]; rfl)

theorem exec_powerGoodTimeout (h : s.pdState d = 1) (ht : Sparse.get (fun _ => 0) s.pmu.pdSince d + 52000 ≤ s.cyc) :
    exec (.powerGoodTimeout d) s = .next (s.start.pgFail d).pdKick :=
  answer_of_true (by rw [hOn, h, decide_eq_true ht]; rfl)

theorem exec_autoGateIdle (hGate : s.flag PMU_PD_CTRL.AUTO_GATE = true) (h : s.gateIdle d = true) :
    exec (.autoGateIdle d) s = .next (s.start.domainOff d).pdKick :=
  answer_of_true (by rw [hOn, hGate, h]; rfl)

end
end

/-! ## The registers of a domain that goes off (R593, R688) -/

/-- The register file is in its canonical form and the register at a holds w. -/
def State.Reads (s : State) (a : Nat) (w : Word) : Prop := Registers.wf s = true ∧ s.rd a = w

section
variable {s : State} {a : Nat} {w : Word} (h : s.Reads a w)
include h

theorem State.Reads.wr_other {b : Nat} (v : Word) (hb : b ≠ a) : (s.wr b v).Reads a w :=
  ⟨Registers.wf_wr h.1, (State.rd_wr_other h.1 hb.symm).trans h.2⟩

theorem State.Reads.wr_same : (s.wr a w).Reads a w := ⟨Registers.wf_wr h.1, State.rd_wr_same h.1⟩

/-- Taking the links down leaves any register whose link bits are clear already. -/
theorem State.Reads.linksOff (d : Nat) (hw : ∀ p < 2, PCI_CFG.addr p = a → pciLinkOff w = w) : (s.linksOff d).Reads a w := by
  unfold State.linksOff
  refine List.foldlRecOn (motive := fun t : State => t.Reads a w) _ _ h fun t ht p hp => ?_
  split
  · by_cases ha : PCI_CFG.addr p = a
    · rw [ha, ht.2, hw p (List.mem_range.1 (show p ∈ List.range 2 from hp)) ha]
      exact ht.wr_same
    · exact ht.wr_other _ ha
  · exact ht

end

theorem State.imageRegs_linksOff (s : State) (d : Nat) : (s.linksOff d).imageRegs = s.imageRegs := by
  simp only [State.linksOff, List.foldl, apply_ite State.imageRegs, State.wr_imageRegs, ite_self]

theorem regReset_pciCfg {p : Nat} (hp : p < 2) : regReset (PCI_CFG.addr p) = 0x1D00A000 := by
  interval_cases p <;> decide +kernel

/-- A PCIe port comes out of reset with its link down. -/
theorem pciLinkOff_regReset {p : Nat} (hp : p < 2) : pciLinkOff (regReset (PCI_CFG.addr p)) = regReset (PCI_CFG.addr p) := by
  rw [regReset_pciCfg hp]
  decide

theorem State.domainRegs_reads {s : State} {a : Nat} (hs : Registers.wf s = true) (hk : s.keptByDomain a = false)
    (hi : ∀ e ∈ s.imageRegs, e.1 ≠ a) : (s.domainRegs (regHome a)).Reads a (regReset a) := by
  have hReset : (s.resetRegs (fun b => regHome b == regHome a && !s.keptByDomain b)).Reads a (regReset a) :=
    ⟨Registers.wf_resetRegs hs, by rw [State.rd_resetRegs hs, if_pos (by simp [hk])]⟩
  unfold State.domainRegs
  refine List.foldlRecOn (motive := fun t : State => t.Reads a (regReset a)) _ _ ?links fun t ht e he => ?image
  case links =>
    refine State.Reads.linksOff ?_ (regHome a) fun p hp hpa => ?_
    · exact hReset
    · rw [← hpa]
      exact pciLinkOff_regReset hp
  case image =>
    have hImage : e ∈ s.imageRegs := by
      have := (List.mem_filter.1 he).1
      rwa [State.imageRegs_linksOff] at this
    split
    · exact ht.wr_other _ (hi e hImage)
    · exact ht

/-! ## Thermal samples (R684, R685, R686) -/

/-- The state once every sensor is read and, with a THERMAL section in force, every ceiling has moved. -/
def State.sensed (s : State) (rs : List (Option Int)) : State :=
  let t := (List.range 128).foldl (fun (t : State) i => t.sensorTake i (getAt none rs i)) s.start
  if t.thermal.loaded then t.throttleAll else t

/-- Sensor i calls for a shutdown: too hot for three samples, with a THERMAL section in force. -/
def State.tooHot (s : State) (i : Nat) : Bool := s.thermal.loaded && decide (3 ≤ Sparse.get (fun _ => 0) s.pmu.hot i)

/-- The first sensor that calls for a shutdown. -/
def State.firstHot (s : State) : Option Nat := (List.range 128).find? s.tooHot

section
variable {s : State}

theorem State.firstHot_eq_none (h : ∀ i < 128, s.tooHot i = false) : s.firstHot = none := by
  simpa [State.firstHot] using h

theorem State.firstHot_eq_some {i : Nat} (hi : i < 128) (h : s.tooHot i = true) (hj : ∀ j < i, s.tooHot j = false) : s.firstHot = some i := by
  rw [State.firstHot, List.find?_range_eq_some]
  simpa [h, hi] using hj

theorem exec_thermalSample {rs : List (Option Int)} (hOn : s.pdOn 82 = true) (hl : rs.length = 128) :
    exec (.thermalSample rs) s = .next ((s.sensed rs).firstHot.elim (s.sensed rs) (s.sensed rs).shutdown) := by
  have hBoth : (s.pdOn 82 && rs.length == 128) = true := by rw [hOn, hl]; rfl
  refine (answer_of_true hBoth).trans (congrArg Host.Outcome.next ?_)
  show (match (s.sensed rs).firstHot with | some i => (s.sensed rs).shutdown i | none => s.sensed rs) = _
  cases (s.sensed rs).firstHot with
  | none => rfl
  | some i => rfl

end

theorem Thermal.ceiling_of_le {x : Thermal} {t : Int} (h : t ≤ x.tThr) : x.ceiling t = 64 := if_pos h

theorem Thermal.ceiling_of_limit {x : Thermal} {t : Int} (h : x.tThr < t) (hl : x.tLim ≤ t) : x.ceiling t = x.qMin := by
  rw [Thermal.ceiling, if_neg (by omega), if_pos hl]

section
variable {s : State} (h : s.mgt.hold = true)
include h

theorem exec_shutdownHoldRelease_vaon : exec (.shutdownHoldRelease true) s = .next s.start.aonBack :=
  answer_of_true (by rw [h]; rfl)

theorem exec_shutdownHoldRelease_reset (hUp : s.supply.up = true) :
    exec (.shutdownHoldRelease false) s = .next ({ s.start with mgt := { s.mgt with hold := false } } : State).externalReset :=
  answer_of_true (by rw [h, hUp]; rfl)

end

/-- Settles O59: requests, power-good and gating by their commands' rules; the registers by domainRegs_reads; a sample by the first sensor
that calls for a shutdown. -/
theorem domainsAndThermal : Obligations.DomainsAndThermal := by
  unfold Obligations.DomainsAndThermal
  intro s m d rs
  refine ⟨fun hm => ?requests, fun hOn => ⟨fun h => ⟨exec_powerGood hOn h, exec_powerGoodTimeout hOn h⟩, exec_autoGateIdle hOn, fun hl => ?sample⟩,
    fun a hs hd hk hi => ?registers, fun x t => ⟨Thermal.ceiling_of_le, Thermal.ceiling_of_limit⟩,
    fun h => ⟨exec_shutdownHoldRelease_vaon h, exec_shutdownHoldRelease_reset h⟩⟩
  case requests =>
    rw [exec_domainOnRequest hm, exec_domainOffRequest hm]
    refine ⟨fun hp => ?_, fun hp hlo hhi => ?_, fun hp hd => ?_⟩
    · exact ⟨congrArg _ (State.pdWrite_of_absent hp), congrArg _ (State.pdWrite_of_absent hp)⟩
    · exact ⟨congrArg _ (State.pdWrite_of_fixed hp ⟨hlo, hhi⟩ (by decide)), congrArg _ (State.pdWrite_of_fixed hp ⟨hlo, hhi⟩ (by decide))⟩
    · have hd' : ¬ (80 ≤ d ∧ d < 84) := by omega
      rw [State.pdWrite_of_on hp hd' (by decide) (by decide), State.pdAsk_of_present hp, State.pdWrite_of_off hp hd' (by decide) (by decide)]
      refine ⟨rfl, fun t ht => ?_⟩
      subst ht
      exact ⟨fun h => congrArg _ (State.pdOffAsk_of_dependents h), fun h h0 => congrArg _ (State.pdOffAsk_of_off h h0),
        fun h h0 => congrArg _ (State.pdOffAsk_of_not_off h h0)⟩
  case sample =>
    rintro t u rfl hu
    have hu' : u = s.sensed rs := hu
    rw [exec_thermalSample hOn hl, hu']
    refine ⟨fun h => ?_, fun h hc => ?_, fun h i hi hHot hFirst => ?_⟩
    · rw [State.firstHot_eq_none fun i _ => by simp [State.tooHot, h]]
      rfl
    · rw [State.firstHot_eq_none fun i hi => by simp [State.tooHot, hc i hi]]
      rfl
    · rw [State.firstHot_eq_some hi (by simp [State.tooHot, h, hHot]) fun j hj => by simp [State.tooHot, hFirst j hj]]
      rfl
  case registers =>
    rw [← hd]
    exact (State.domainRegs_reads hs hk hi).2

end Sys2Proof.Machine

/-! # Number formats: the loadable format entries, and the Calender's work cycles, chains and drains (02_number_formats.md) -/

namespace Sys2Proof.Machine
open Sys2Proof

/-! ## Writes of a loadable format entry (R86, R87, R90, R91) -/

/-- The entry that a HI write of w to entry n stands for, with the LO word held for it (R90). -/
def State.offeredFmt (s : State) (n : Nat) (w : Word) : Fmt := Fmt.ofWords (s.heldOr (MGT_FMT_DESC_LO.addr n)).toNat w.toNat

/-- The state once a HI write of entry n is taken up: its held LO word is gone and LAST_INDEX names the entry (R88). -/
def State.fmtTaken (s : State) (n : Nat) : State := (s.unhold (MGT_FMT_DESC_LO.addr n)).setF MGT_FMT_CTRL.LAST_INDEX n

/-- The bits of the two checks: REJECT of an entry the table of R90 refuses, LOCKED of one that a loaded object references (R91). -/
def State.fmtMarked (s : State) (valid locked : Bool) : State :=
  let t := if valid then s else s.setF MGT_FMT_CTRL.REJECT 1
  if locked then t.setF MGT_FMT_CTRL.LOCKED 1 else t

/-- Entry n replaced by f, and the copy to every unit begun (R90). -/
def State.enterFmt (s : State) (n : Nat) (f : Fmt) : State :=
  ((s.wr (MGT_FMT_DESC_LO.addr n) (BitVec.ofNat 32 f.lo)).wr (MGT_FMT_DESC_HI.addr n) (BitVec.ofNat 32 f.hi)).setF MGT_FMT_CTRL.BUSY 1

section
variable {s : State} {n : Nat} {w : Word} (hn : 20 ≤ n) (hIdle : s.flag MGT_FMT_CTRL.BUSY = false)
include hn hIdle

theorem State.fmtLo_of_idle : s.fmtLo n w = s.hold (MGT_FMT_DESC_LO.addr n) w := by
  simp [State.fmtLo, Nat.not_lt.2 hn, hIdle]

/-- Both checks leave their mark; only an entry that passes both is entered. -/
theorem State.fmtHi_of_idle :
    s.fmtHi n w = if (s.offeredFmt n w).valid = true ∧ s.fmtLocked n = false
      then ((s.fmtTaken n).fmtMarked (s.offeredFmt n w).valid (s.fmtLocked n)).enterFmt n (s.offeredFmt n w)
      else (s.fmtTaken n).fmtMarked (s.offeredFmt n w).valid (s.fmtLocked n) := by
  unfold State.fmtHi
  rw [if_neg (Nat.not_lt.2 hn), hIdle]
  rfl

theorem State.fmtHi_of_accepted (hValid : (s.offeredFmt n w).valid = true) (hFree : s.fmtLocked n = false) :
    s.fmtHi n w = (s.fmtTaken n).enterFmt n (s.offeredFmt n w) := by
  rw [State.fmtHi_of_idle hn hIdle, hValid, hFree]
  rfl

theorem State.fmtHi_of_invalid (hValid : (s.offeredFmt n w).valid = false) (hFree : s.fmtLocked n = false) :
    s.fmtHi n w = (s.fmtTaken n).setF MGT_FMT_CTRL.REJECT 1 := by
  rw [State.fmtHi_of_idle hn hIdle, hValid, hFree]
  rfl

theorem State.fmtHi_of_locked (hValid : (s.offeredFmt n w).valid = true) (hLocked : s.fmtLocked n = true) :
    s.fmtHi n w = (s.fmtTaken n).setF MGT_FMT_CTRL.LOCKED 1 := by
  rw [State.fmtHi_of_idle hn hIdle, hValid, hLocked]
  rfl

theorem State.fmtHi_of_invalid_and_locked (hValid : (s.offeredFmt n w).valid = false) (hLocked : s.fmtLocked n = true) :
    s.fmtHi n w = ((s.fmtTaken n).setF MGT_FMT_CTRL.REJECT 1).setF MGT_FMT_CTRL.LOCKED 1 := by
  rw [State.fmtHi_of_idle hn hIdle, hValid, hLocked]
  rfl

end

section
variable {s : State} {m n v : Nat}

theorem exec_fmtDescLoWrite (hm : s.mayWrite m (MGT_FMT_DESC_LO.addr n) = true) :
    exec (.fmtDescLoWrite m n v) s = .next (s.start.fmtLo n (BitVec.ofNat 32 v)) := State.write_of_mayWrite hm

theorem exec_fmtDescHiWrite (hm : s.mayWrite m (MGT_FMT_DESC_HI.addr n) = true) :
    exec (.fmtDescHiWrite m n v) s = .next (s.start.fmtHi n (BitVec.ofNat 32 v)) := State.write_of_mayWrite hm

theorem exec_fmtEntryCopyDone (hBusy : s.flag MGT_FMT_CTRL.BUSY = true) :
    exec .fmtEntryCopyDone s = .next (s.start.setF MGT_FMT_CTRL.BUSY 0).resumeAdmission := answer_of_true hBusy

/-- Only an admission that waits for the format table goes on (R206). -/
theorem State.resumeAdmission_of_idle (h : s.adm = .idle) : s.resumeAdmission = s := by
  simp only [State.resumeAdmission, h]

end

/-- Settles O9: a LO write by fmtLo_of_idle, a HI write by the four outcomes of its two checks, the end of the copy by the admission
that waits or does not. -/
theorem formatEntryWrites : Obligations.FormatEntryWrites := by
  unfold Obligations.FormatEntryWrites
  intro s m n v hn _ hLo hHi
  refine ⟨fun hIdle => ?writes, fun hBusy => ⟨exec_fmtEntryCopyDone hBusy, fun hAdm => ?copied⟩⟩
  case writes =>
    have hStart : s.start.flag MGT_FMT_CTRL.BUSY = false := hIdle
    rw [exec_fmtDescLoWrite hLo, exec_fmtDescHiWrite hHi, State.fmtLo_of_idle hn hStart]
    exact ⟨rfl, fun hv hf => congrArg _ (State.fmtHi_of_accepted hn hStart hv hf),
      fun hv hf => congrArg _ (State.fmtHi_of_invalid hn hStart hv hf),
      fun hv hl => congrArg _ (State.fmtHi_of_locked hn hStart hv hl),
      fun hv hl => congrArg _ (State.fmtHi_of_invalid_and_locked hn hStart hv hl)⟩
  case copied =>
    rw [exec_fmtEntryCopyDone hBusy, State.resumeAdmission_of_idle (by simpa using hAdm)]

/-! ## A work cycle (R71, R94, R95, R104) -/

/-- The accumulators of a chain after its next work cycle: they advance on the last cycle of a step (R71, R95). -/
def State.rowsAfterCycle (s : State) (d : OpDesc) (x : OpCtx) (ch : Chain) : List RowAcc :=
  let cps := cyclesPerStep (x.fmt slotA) (x.fmt slotB)
  if (ch.cycles + 1) % cps = 0 then tileStep s.byte d x ch.idx (ch.cycles / cps) ch.rows else ch.rows

/-- Operation o on cluster n where its inputs were provisional or not: it has then met provisional input (R190). -/
def State.noteProv (s : State) (n : Nat) (o : Op) (prov : Bool) : State :=
  if prov then (s.meetProv o prov).putOp n { o with provIn := true } else s

/-- Cluster n's accumulating chain replaced. -/
def State.setAcc (s : State) (n : Nat) (ch : Chain) : State := s.setCl n { s.cl n with acc := some ch }

section
variable {s t : State} {n : Nat} {o : Op} {ch : Chain}

theorem exec_workCycle (hReady : s.start.readyChain n = some (t, o, ch)) (hUp : t.cluUp n = true) (hq : 0 < t.issueQ n)
    (hLeft : ch.cycles < calT o.desc (t.opCtx o)) (hOperands : t.operandsPresent o ch = true) :
    exec (.workCycle n) s = .next (t.workCycle n o ch) := by
  show execWorkCycle n s = _
  simp only [execWorkCycle, hReady]
  exact answer_of_true (by simp [hUp, hq, hLeft, hOperands])

/-- A work cycle whose inputs pass their test spends its credit and adds one cycle to its chain. -/
theorem State.workCycle_of_ok {prov : Bool} {i : Nat}
    (hScan : t.scanSlots o.desc.acceptProv o.provIn (cycleBlocks o.desc (t.opCtx o) ch) = (.ok prov, i)) :
    t.workCycle n o ch = ((t.spendCredit n).noteProv n o prov).setAcc n
      { ch with cycles := ch.cycles + 1, rows := (t.spendCredit n).rowsAfterCycle o.desc (t.opCtx o) ch } := by
  simp only [State.workCycle, hScan]
  rfl

/-! ## The end of a chain, its drain and the operation's completion (R98–R102, R107, R113) -/

theorem exec_chainAccumulationEnd (hEnd : s.start.endingChain n = some (t, ch)) (hUp : t.cluUp n = true) :
    exec (.chainAccumulationEnd n) s = .next (t.setCl n { t.cl n with acc := none, held := (t.cl n).held ++ [ch] }) := by
  show execChainAccumulationEnd n s = _
  simp only [execChainAccumulationEnd, hEnd]
  exact answer_of_true hUp

/-- The rows of a chain as its drain compares them: over all 32 columns, each with the upsets that strike it (R82, R108, R114). -/
def State.comparedRows (s : State) (n : Nat) (ups : List (Nat × Nat × Nat)) (ch : Chain) : List RowAcc :=
  (List.range ch.rows.length).map (fun r => upsetRow r (s.logicalUps n ups) (getAt ⟨[], .zero, .zero⟩ ch.rows r).padded)

/-- A chain with its compared rows cut to the columns of its tile. -/
def Chain.cut (ch : Chain) (d : OpDesc) (rows : List RowAcc) : Chain :=
  { ch with rows := rows.map (fun w => { w with accs := w.accs.take (tileCols d ch.idx) }) }

/-- The state in which a chain has taken the drain path, the chains behind it held, and its rows are compared in order (R113). -/
def State.drainCompared (s : State) (n : Nat) (o : Op) (ch : Chain) (behind : List Chain) (rows : List RowAcc) : State :=
  (List.range rows.length).foldl (fun (t : State) r => t.checkRow n o o.desc (s.opCtx o) ch.idx r (getAt ⟨[], .zero, .zero⟩ rows r))
    (s.setCl n { s.cl n with drain := some (ch.cut o.desc rows), held := behind })

/-- With the drain path free, the oldest finished chain is compared, then written. -/
theorem exec_drainStart {behind : List Chain} {o1 : Op} {ups : List (Nat × Nat × Nat)} (hFree : (s.cl n).drain = none)
    (hHeld : (s.cl n).held = ch :: behind) (hOp : (s.cl n).cal.find? (fun e => e.id == ch.op) = some o) (hOn : s.pdOn (pdClu n) = true)
    (hAfter : ((s.start.drainCompared n o ch behind (s.comparedRows n ups ch)).cl n).cal.find? (fun e => e.id == o.id) = some o1) :
    exec (.drainStart n ups) s = .next
      ((s.start.drainCompared n o ch behind (s.comparedRows n ups ch)).writeDrain n o1 (ch.cut o.desc (s.comparedRows n ups ch))) := by
  show execDrainStart n ups s = _
  simp only [execDrainStart, hFree, hHeld, hOp]
  simp only [State.drainCompared, State.comparedRows, Chain.cut, start_State_opCtx, start_State_cl] at hAfter ⊢
  simp only [hAfter]
  exact answer_of_true hOn

theorem exec_drainComplete_of_written (hDrain : (s.cl n).drain = some ch) (hWritten : ch.written = true) :
    exec (.drainComplete n) s = .next (s.start.drained n ch) := by
  show execDrainComplete n s = _
  simp only [execDrainComplete, hDrain, hWritten, if_true]

/-- A completion under another epoch than the cluster's present one is dropped and counted (R397). -/
theorem exec_calenderOpComplete_of_stale {ep : Nat} (hn : n < 64) (hStale : ep ≠ s.epoch n) :
    exec (.calenderOpComplete n ep) s = .next (s.start.staleDrop n) := by
  show execCalenderOpComplete n ep s = _
  rw [execCalenderOpComplete, if_pos hStale]
  exact answer_of_true (decide_eq_true hn)

theorem exec_calenderOpComplete_of_done (hDone : s.calDone n = some o) :
    exec (.calenderOpComplete n (s.epoch n)) s = .next
      ((if decide (o.desc.k = 0) then s.start.bump (CLU_CAL_EMPTY_RED.COUNT n) 1 else s.start).finish
        { o with status := stOk, emptyRed := decide (o.desc.k = 0) }) := by
  show execCalenderOpComplete n (s.epoch n) s = _
  simp only [execCalenderOpComplete, hDone, ne_eq, not_true_eq_false, if_false]

end

/-- Settles O20: each clause is the rule of its command above; the stalled cycles are as State.stallTick counts them (R119, log 79). -/
theorem calenderRuns : Obligations.CalenderRuns := by
  unfold Obligations.CalenderRuns
  intro s n
  refine ⟨?workCycle, fun k => rfl, fun t ch => exec_chainAccumulationEnd, ?drainStart, ?drainComplete,
    fun ep => exec_calenderOpComplete_of_stale, fun o => exec_calenderOpComplete_of_done⟩
  case workCycle =>
    intro t o ch prov i hReady hUp hq hLeft hOperands c m u x cps kps k0 k1 hScan
    rw [exec_workCycle hReady hUp hq hLeft hOperands, State.workCycle_of_ok hScan]
    rfl
  case drainStart =>
    intro ch rest o o1 ups hFree hHeld hOp hOn rows ch1 t hAfter
    exact exec_drainStart hFree hHeld hOp hOn hAfter
  case drainComplete =>
    intro ch hDrain hWritten
    rw [exec_drainComplete_of_written hDrain hWritten]
    rfl

end Sys2Proof.Machine

/-! # The clusters' issue stage and field tests (03_calender_array.md) -/

namespace Sys2Proof.Machine
open Sys2Proof

/-! ## An operation leaves the issue stage for its engine (R106, R128, R129, R166, R171) -/

section
variable {s : State} {n op : Nat} {o : Op} {rest : List Op} (hFront : (s.cl n).inbox = o :: rest) (hUp : s.cluUp n = true)
include hFront hUp

theorem State.inboxOp_of_front (hop : o.desc.opcode = op) : s.inboxOp n op = some o := by
  simp only [State.inboxOp, hFront]
  exact if_pos ⟨hUp, hop⟩

theorem State.inboxNop_of_front (hop : o.desc.opcode = 0 ∨ Machine.engineOf o.desc.opcode = none) : s.inboxNop n = some o := by
  simp only [State.inboxNop, hFront]
  exact if_pos ⟨hUp, hop⟩

theorem State.btrNext_of_front (hRoom : (s.cl n).btr.length < 8) (hop : o.desc.opcode = op) : s.btrNext n op = some o :=
  (if_pos hRoom).trans (State.inboxOp_of_front hFront hUp hop)

theorem exec_qorazNop_of_front (hop : o.desc.opcode = 0 ∨ Machine.engineOf o.desc.opcode = none) :
    exec (.qorazNop n) s = .next (s.start.acceptCal n o) := by
  show execQorazNop n s = _
  rw [execQorazNop, State.inboxNop_of_front hFront hUp hop]

theorem exec_gemm_of_front (hop : o.desc.opcode = 1) : exec (.gemm n) s = .next (s.start.acceptCal n o) := by
  show execGemm n s = _
  rw [execGemm, State.inboxOp_of_front hFront hUp hop]

theorem exec_conv_of_front (hop : o.desc.opcode = 2) : exec (.conv n) s = .next (s.start.acceptCal n o) := by
  show execConv n s = _
  rw [execConv, State.inboxOp_of_front hFront hUp hop]

theorem exec_qorazLoad_of_front (hop : o.desc.opcode = 8) : exec (.qorazLoad n) s = .next (s.start.acceptMove n o) := by
  show execQorazLoad n s = _
  rw [execQorazLoad, State.inboxOp_of_front hFront hUp hop]

theorem exec_qorazStore_of_front (hop : o.desc.opcode = 9) : exec (.qorazStore n) s = .next (s.start.acceptMove n o) := by
  show execQorazStore n s = _
  rw [execQorazStore, State.inboxOp_of_front hFront hUp hop]

/-- The shared row of the fourteen Beater operations. -/
theorem beaterRow_of_front (hRoom : (s.cl n).btr.length < 8) (hop : o.desc.opcode = op) :
    beaterRow op n s = .next (s.start.acceptBtr n o) := by
  rw [beaterRow, State.btrNext_of_front hFront hUp hRoom hop]

end

/-- Settles O19: a Calender operation by acceptCal, one of the address generator by acceptMove, a Beater operation by the row that all
fourteen share; an unlisted opcode runs in the NOP row (log 17). -/
theorem clustersAccept : Obligations.ClustersAccept := by
  unfold Obligations.ClustersAccept
  intro s n o rest hFront hUp u o' cal v btr w mv
  refine ⟨exec_qorazNop_of_front hFront hUp, exec_gemm_of_front hFront hUp, exec_conv_of_front hFront hUp,
    exec_qorazLoad_of_front hFront hUp, exec_qorazStore_of_front hFront hUp, fun hRoom => ?_⟩
  have hRow {op : Nat} (hop : o.desc.opcode = op) : beaterRow op n s = .next btr := beaterRow_of_front hFront hUp hRoom hop
  exact ⟨hRow, hRow, hRow, hRow, hRow, hRow, hRow, hRow, hRow, hRow, hRow, hRow, hRow, hRow⟩

/-! ## Requests of field tests (R399, R412, R424) -/

/-- The cluster that a write of w to ITG_FT_REQ asks a test of: the one it names, or with ANY the one tested longest ago. -/
def State.ftTarget (s : State) (w : Word) : Option Nat := if bits w 31 31 = 1 then s.oldestTest else some (bits w 5 0)

section
variable {s : State} {w : Word} {k : Nat}

theorem State.ftTarget_of_any (h : bits w 31 31 = 1) : s.ftTarget w = s.oldestTest := if_pos h

theorem State.ftTarget_of_index (h : bits w 31 31 = 0) : s.ftTarget w = some (bits w 5 0) := if_neg (by omega)

theorem State.ftWrite_of_none (h : s.ftTarget w = none) : s.ftWrite w = s.setF ITG_FT_STATUS.REJECT 1 := by
  rw [State.ftTarget] at h
  simp only [State.ftWrite, h]

theorem State.ftWrite_of_retired (h : s.ftTarget w = some k) (hRetired : s.svc k = 5) : s.ftWrite w = s.setF ITG_FT_STATUS.REJECT 1 := by
  rw [State.ftTarget] at h
  simp only [State.ftWrite, h, hRetired, if_true]

/-- Of a cluster that is not retired: queued at class 3, or refused where there is no place. -/
theorem State.ftWrite_of_live (h : s.ftTarget w = some k) (hLive : s.svc k ≠ 5) :
    s.ftWrite w = if (s.ftRequest k 3 (bits w 30 30 == 1)).2 then (s.ftRequest k 3 (bits w 30 30 == 1)).1.startDrains
      else s.setF ITG_FT_STATUS.REJECT 1 := by
  rw [State.ftTarget] at h
  simp only [State.ftWrite, h, hLive, if_false]

theorem exec_ftRequest {m v : Nat} (hm : s.mayWrite m ITG_FT_REQ.addr = true) :
    exec (.ftRequest m v) s = .next (s.start.ftWrite (BitVec.ofNat 32 v)) := State.write_of_mayWrite hm

theorem exec_sweepTestDue {n : Nat} (hOn : s.fld ITG_SWEEP.SWEEP_H ≠ 0) (hSvc : s.svc n = 0)
    (hDue : Sparse.get (fun _ => 0) s.lastPass n + s.fld ITG_SWEEP.SWEEP_H * 3600000000000 ≤ s.cyc)
    (hNew : (s.ftQueue.any (fun r => r.clu == n)) = false) (hRoom : s.ftPending < 64) :
    exec (.sweepTestDue n) s = .next (s.start.ftRequest n 4 false).1.startDrains :=
  answer_of_true (by simp [-List.any_eq_false, hOn, hSvc, hDue, hNew, hRoom])

theorem exec_fieldTestStart {r : FtReq} {tj : Int} (h : s.ftNext = some r) : exec (.fieldTestStart tj) s = .next (s.start.startTest r.clu tj) := by
  show execFieldTestStart tj s = _
  rw [execFieldTestStart, h]

end

/-! ## The end of a field test (R410, R414, R415) -/

/-- The state once cluster n's test has ended: the points it ran at are put away. -/
def State.clearPoints (s : State) (n : Nat) : State := { s with ftPoints := Sparse.set (fun _ => []) s.ftPoints n [] }

/-- The point a failure is reported at is one the test of cluster n ran at: the nominal point, or stress point srow. -/
def State.ranAt (s : State) (n srow : Nat) (nom : Bool) : Prop := nom = true ∨ (s.pointsOf n).any (fun p => p.1 == srow) = true

section
variable {s : State} {n srow : Nat} {row col : Option Nat} {nom : Bool} (hTest : s.svc n = 3)
include hTest

theorem exec_fieldTestEnd_pass : exec (.fieldTestEnd n 0 row col srow nom) s = .next ((s.start.clearPoints n).passTest n).startDrains := by
  show execFieldTestEnd n 0 row col srow nom s = _
  rw [execFieldTestEnd, if_neg (by simp [hTest]), if_pos rfl]
  rfl

variable (hRan : s.ranAt n srow nom)
include hRan

/-- The guard of FIELD_TEST_END lets every result through of a test in progress that names one of its own points. -/
theorem State.fieldTestEnd_applies {out : Nat} : ¬ (s.svc n ≠ 3 ∨ (out ≠ 0 ∧ !nom ∧ !(s.pointsOf n).any (fun p => p.1 == srow))) := by
  rintro (hSvc | ⟨-, hNom, hPoint⟩)
  · exact hSvc hTest
  · rcases hRan with h | h
    · simp [h] at hNom
    · simp [-List.any_eq_true, h] at hPoint

theorem exec_fieldTestEnd_located (hPlace : s.faultPlace n row col = true) :
    exec (.fieldTestEnd n 1 row col srow nom) s = .next (((s.start.clearPoints n).ftFail n srow nom).locateFault n row col) := by
  show execFieldTestEnd n 1 row col srow nom s = _
  rw [execFieldTestEnd, if_neg (State.fieldTestEnd_applies hTest hRan), if_neg (by decide), if_pos rfl]
  exact answer_of_true hPlace

theorem exec_fieldTestEnd_notLocated :
    exec (.fieldTestEnd n 2 row col srow nom) s = .next (((s.start.clearPoints n).ftFail n srow nom).retireCluster n 0x0E 2) := by
  show execFieldTestEnd n 2 row col srow nom s = _
  rw [execFieldTestEnd, if_neg (State.fieldTestEnd_applies hTest hRan), if_neg (by decide), if_neg (by decide)]
  rfl

end

/-- Settles O35: a request by the cluster it names and whether that is retired, a sweep's test and a start by their commands' rules, an end by
its three results. -/
theorem fieldTests : Obligations.FieldTests := by
  unfold Obligations.FieldTests
  intro s m v n
  refine ⟨fun hm => ?requests, exec_sweepTestDue, fun r tj => exec_fieldTestStart, fun row col srow nom hTest => ?ends⟩
  case requests =>
    rw [exec_ftRequest hm]
    exact ⟨fun k hk hLive => congrArg _ (State.ftWrite_of_live hk hLive),
      fun hAny hNone => congrArg _ (State.ftWrite_of_none ((State.ftTarget_of_any hAny).trans hNone)),
      fun hIndex hRetired => congrArg _ (State.ftWrite_of_retired (State.ftTarget_of_index hIndex) hRetired)⟩
  case ends =>
    exact ⟨exec_fieldTestEnd_pass hTest, exec_fieldTestEnd_located hTest, exec_fieldTestEnd_notLocated hTest⟩

end Sys2Proof.Machine

/-! # The Beater's lanes, curve loads and completions (04_beater_and_image_operators.md) -/

namespace Sys2Proof.Machine
open Sys2Proof

/-! ## Lane phases and curve slots (R128, R141, R753) -/

section
variable {s : State} {n : Nat} {o : Op}

theorem exec_lanePhaseStart_of_next {stall : Nat} (hNext : s.laneNext n = some o) :
    exec (.lanePhaseStart n stall) s = .next ((s.start.bump (CLU_BTR_VAT_STALL.STALL_CYCLES n) stall).runLanes n o) := by
  show execLanePhaseStart n stall s = _
  rw [execLanePhaseStart, hNext]

theorem exec_curveSlotLoadDone_of_load {a : Nat} (hLoad : s.curveLoad n = some (o, a)) (hWait : o.waitBlock = none) (hUp : s.cluUp n = true) :
    exec (.curveSlotLoadDone n) s = .next (s.start.loadCurve n o a) := by
  show execCurveSlotLoadDone n s = _
  rw [execCurveSlotLoadDone, hLoad]
  exact answer_of_true (by rw [hWait, hUp]; rfl)

end

/-! ## Completions under the cluster's present epoch (R184, R192) -/

section
variable {s : State} {n i : Nat} {o : Op} {rest : List Op}

theorem exec_beaterOpComplete_of_lanes (hOldest : (s.cl n).btr = o :: rest) (hLanes : o.isLanes = true) :
    exec (.beaterOpComplete n (s.epoch n)) s = .next
      ((if o.emptyRed then s.start.bump (CLU_CAL_EMPTY_RED.COUNT n) 1 else s.start).finish { o with status := stOk }) := by
  show execBeaterOpComplete n (s.epoch n) s = _
  rw [execBeaterOpComplete, if_neg (not_not_intro rfl), hOldest]
  exact if_pos hLanes

theorem exec_beaterOpComplete_of_ended (hOldest : (s.cl n).btr = o :: rest) (hLanes : o.isLanes = false) (hEnded : o.isEnded = true)
    (hReported : o.reported = false) : exec (.beaterOpComplete n (s.epoch n)) s = .next (s.start.finish o) := by
  show execBeaterOpComplete n (s.epoch n) s = _
  rw [execBeaterOpComplete, if_neg (not_not_intro rfl), hOldest]
  exact (if_neg (by simp [hLanes])).trans (answer_of_true (by rw [hEnded, hReported]; rfl))

theorem exec_loadStoreComplete_of_lanes (hOp : (s.cl n).ls[i]? = some o) (hLanes : o.isLanes = true) :
    exec (.loadStoreComplete n i (s.epoch n)) s = .next (s.start.finish { o with status := stOk }) := by
  show execLoadStoreComplete n i (s.epoch n) s = _
  rw [execLoadStoreComplete, if_neg (not_not_intro rfl), hOp]
  exact if_pos hLanes

end

/-! ## Completions under another epoch (R397) -/

section
variable {s : State} {n ep : Nat} (hn : n < 64) (hStale : ep ≠ s.epoch n)
include hn hStale

/-- The test that every completion begins with: one of another epoch is dropped and counted, whatever r it would have done. -/
theorem State.epochTest_of_stale (r : Host.Outcome State Fault Refusal) :
    (if ep ≠ s.epoch n then answer (decide (n < 64)) s (s.start.staleDrop n) else r) = .next (s.start.staleDrop n) :=
  (if_pos hStale).trans (answer_of_true (decide_eq_true hn))

theorem exec_beaterOpComplete_of_stale : exec (.beaterOpComplete n ep) s = .next (s.start.staleDrop n) := by
  show execBeaterOpComplete n ep s = _
  exact State.epochTest_of_stale hn hStale _

theorem exec_loadStoreComplete_of_stale (i : Nat) : exec (.loadStoreComplete n i ep) s = .next (s.start.staleDrop n) := by
  show execLoadStoreComplete n i ep s = _
  exact State.epochTest_of_stale hn hStale _

end

/-- Settles O21: a lane phase and a curve load by their commands' rules, a completion by the phase its operation is in, or by its stale epoch. -/
theorem beaterRuns : Obligations.BeaterRuns := by
  unfold Obligations.BeaterRuns
  intro s n
  exact ⟨fun o stall => exec_lanePhaseStart_of_next, fun o a => exec_curveSlotLoadDone_of_load,
    fun o rest => exec_beaterOpComplete_of_lanes, fun o rest => exec_beaterOpComplete_of_ended,
    fun i o => exec_loadStoreComplete_of_lanes,
    fun i ep hn hStale => ⟨exec_beaterOpComplete_of_stale hn hStale, exec_loadStoreComplete_of_stale hn hStale i⟩⟩

end Sys2Proof.Machine

/-! # The Deckle's dispatch of operations (05_qoraz_operations.md) -/

namespace Sys2Proof.Machine
open Sys2Proof

/-! ## What a dispatch does for the candidate chosen (R230, R231, R248) -/

section
variable {s : State} {e : Nat} {o : Obj} {c : Dispatch}

theorem exec_operationDispatch_of_choice (hChoice : s.choose e = some c) (hKind : c.kind ≠ .restore) (hObj : s.objOfQueue c.q = some o) :
    exec (.operationDispatch e) s = .next (s.start.dispatch e o c) := by
  show execOperationDispatch e s = _
  rw [execOperationDispatch, hChoice]
  dsimp only
  rw [hObj]
  cases hc : c.kind with
  | restore => exact absurd hc hKind
  | op => rfl
  | part => rfl

theorem State.dispatch_of_job {j : Job} (hJob : (s.q c.q).job = some j) : s.dispatch e o c = s.sendPart o c j := by
  simp only [State.dispatch, hJob]

/-- Only the clusters' queues hold split jobs (R219, R231): an engine's entry stands alone. -/
theorem splitCount_of_engine (he : e ≠ 0) (b : List Byte) : splitCount e b = 1 := if_neg fun h => he h.1

/-- The entries of the split job of n parts whose part 0 is at the head of queue q. -/
def State.jobEntries (s : State) (q n : Nat) : List (List Byte) := (List.range n).map (fun i => s.entry q ((s.qHead q + i) % 2 ^ 32))

section
variable (hJob : (s.q c.q).job = none)
include hJob

theorem State.dispatch_of_engine (he : e ≠ 0) :
    let t := (s.pop c.q).countOp c.q (OpDesc.ofBytes (s.entry c.q (s.qHead c.q))).record
    s.dispatch e o c = t.sendEngine e
      (t.makeOp o c.q (s.qHead c.q) 0xFF (s.entry c.q (s.qHead c.q)) [] (keyOverdue (s.q c.q).key) false) := by
  simp only [State.dispatch, hJob, splitCount_of_engine he, Nat.lt_irrefl, false_and, if_false]
  exact if_pos he

variable {n : Nat} (hn : splitCount 0 (s.entry c.q (s.qHead c.q)) = n)
include hn

theorem State.dispatch_of_bad_split (hSplit : 1 < n) (hBad : splitOk (s.jobEntries c.q n) = false) :
    s.dispatch 0 o c = s.refuseJob o c.q n (s.qHead c.q) (s.jobEntries c.q n) := by
  simp only [State.dispatch, hJob, hn]
  exact if_pos ⟨hSplit, by simpa [State.jobEntries] using hBad⟩

theorem State.dispatch_of_head (hGood : n ≤ 1 ∨ splitOk (s.jobEntries c.q n) = true) :
    s.dispatch 0 o c = s.sendHead o c n (s.qHead c.q) (s.entry c.q (s.qHead c.q)) := by
  have hNotBad : ¬ (1 < n ∧ (!splitOk (s.jobEntries c.q n)) = true) := by
    rintro ⟨hSplit, hBad⟩
    rcases hGood with hSingle | hOk
    · exact absurd hSplit (Nat.not_lt.2 hSingle)
    · simp [hOk] at hBad
  simp only [State.dispatch, hJob, hn]
  exact (if_neg hNotBad).trans (if_neg (not_not_intro rfl))

end
end

/-- Settles O17: the candidate fixes the dispatch; what it sends goes by the job under way, the engine and the parts of the head's split job. -/
theorem dispatchSends : Obligations.DispatchSends := by
  unfold Obligations.DispatchSends
  intro s e c o hChoice hKind hObj b
  rw [exec_operationDispatch_of_choice hChoice hKind hObj]
  refine ⟨fun j hJob => ?part, fun hJob he => ?engine, fun hJob he => ?cluster⟩
  case part => rw [State.dispatch_of_job (s := s.start) hJob]
  case engine => exact congrArg _ (State.dispatch_of_engine (s := s.start) hJob he)
  case cluster =>
    subst he
    exact ⟨fun hSplit hBad => congrArg _ (State.dispatch_of_bad_split (s := s.start) hJob rfl hSplit hBad),
      fun hGood => congrArg _ (State.dispatch_of_head (s := s.start) hJob rfl hGood)⟩

end Sys2Proof.Machine

/-! # The admission unit: objects loaded and unloaded (06_program_objects.md) -/

namespace Sys2Proof.Machine
open Sys2Proof

/-! ## The load command (R205, R206, R213) -/

/-- The admission of the image at address a decided as the refusal r: it is going to end, with nothing granted. -/
def State.refuseImage (s : State) (a : Nat) (r : AdmitRes) : State :=
  { s with adm := .finishing a r.reason r.ver 0xFFFF r.detail 0 0 0 }

/-- The admission of the image at address a decided as the grant of object o, before its gated clusters are asked for. -/
def State.enterObject (s : State) (a : Nat) (o : Obj) : State :=
  let t := (s.clearCells o.cBase o.cCount).clearQueues o.qBase o.qCount
  { t with objs := t.objs ++ [o], adm := .finishing a 0 1 o.handle 0 o.mask o.qBase o.cBase }

/-- The clusters that a grant names, asked for where the PMU gates them (R689). -/
def State.askGranted (s : State) (gated : Bool) (mask : Nat) : State :=
  if gated then (maskClusters mask).foldl (fun (u : State) n => u.pdAsk (pdClu n)) s else s

section
variable {s : State} {a : Nat}

/-- Whichever of checks 1 to 5 fails, what they answer grants nothing. -/
theorem State.admitEarly_grants_nothing : (s.admitEarly a).all (fun r => r.obj.isNone) = true := by
  unfold State.admitEarly
  dsimp only
  repeat' split
  all_goals rfl

theorem State.obj_of_admitEarly {r : AdmitRes} (h : s.admitEarly a = some r) : r.obj = none := by
  simpa [h] using s.admitEarly_grants_nothing (a := a)

theorem State.settleAdmission_of_refusal {r : AdmitRes} (h : r.obj = none) : s.settleAdmission a r = s.refuseImage a r := by
  simp only [State.settleAdmission, h]
  rfl

theorem State.settleAdmission_of_grant {r : AdmitRes} {o : Obj} (h : r.obj = some o) :
    s.settleAdmission a r = (s.enterObject a o).askGranted (s.flag PMU_PD_CTRL.AUTO_GATE) o.mask := by
  simp only [State.settleAdmission, h]
  rfl

theorem State.admitGo_of_copying (h : s.flag MGT_FMT_CTRL.BUSY = true) : s.admitGo a = { s with adm := .waitFmt a } := if_pos h

theorem State.admitGo_of_idle (h : s.flag MGT_FMT_CTRL.BUSY = false) : s.admitGo a = s.settleAdmission a (s.admitChecks a) :=
  if_neg (by simp [h])

end

/-- The state in which a load command is checked: BUSY is set. -/
def State.admitting (s : State) : State := s.setF DCK_LOAD_STATUS.BUSY 1

section
variable {s : State}

theorem State.admitCmd_of_busy (h : s.flag DCK_LOAD_STATUS.BUSY = true) : s.admitCmd = s.setF DCK_LOAD_STATUS.CMD_REJECT 1 := if_pos h

section
variable (hIdle : s.flag DCK_LOAD_STATUS.BUSY = false)
include hIdle

theorem State.admitCmd_of_early {r : AdmitRes} (h : s.admitting.admitEarly s.admitting.loadAddr = some r) :
    s.admitCmd = s.admitting.refuseImage s.admitting.loadAddr r := by
  rw [← State.settleAdmission_of_refusal (State.obj_of_admitEarly h)]
  rw [State.admitting] at h
  simp [State.admitCmd, hIdle, h, State.admitting]

theorem State.admitCmd_of_passed (h : s.admitting.admitEarly s.admitting.loadAddr = none) :
    s.admitCmd = s.admitting.admitGo s.admitting.loadAddr := by
  rw [State.admitting] at h
  simp [State.admitCmd, hIdle, h, State.admitting]

end

theorem exec_admitObject {m : Nat} (hm : s.mayWrite m DCK_LOAD_CMD.addr = true) : exec (.admitObject m) s = .next s.start.admitCmd :=
  State.write_of_mayWrite hm

end

/-! ## The completion of an admission (R206, R689) -/

/-- The Vat range of the object with a handle zeroed on each cluster of a mask; without such an object, nothing. -/
def State.zeroGranted (s : State) (handle mask : Nat) : State :=
  match s.obj handle with
  | some o => (maskClusters mask).foldl (fun (u : State) n => u.zeroVat n o.vatBase o.vatBytes) s
  | none => s

/-- The bytes of GRANT (R206). -/
def grantBytes (reason ver handle detail mask qb cb : Nat) : List Byte :=
  leBytes 1 reason ++ leBytes 1 ver ++ leBytes 2 handle ++ leBytes 4 detail ++ leBytes 8 mask ++ leBytes 2 qb ++ leBytes 2 cb ++ leBytes 12 0

/-- GRANT written into the header at address a, where that lies in DRAM. -/
def State.writeGrant (s : State) (a : Nat) (grant : List Byte) : State :=
  if s.dramRange a 64 then (s.store ⟨deckleMaster, 0, false, false, .silent⟩ (placed (a + 32) grant) 0 0).1 else s

section
variable {s : State} {a reason ver handle detail mask qb cb : Nat}

theorem State.writeGrant_of_dram {g : List Byte} (h : s.dramRange a 64 = true) :
    s.writeGrant a g = (s.store ⟨deckleMaster, 0, false, false, .silent⟩ (placed (a + 32) g) 0 0).1 := if_pos h

theorem State.writeGrant_of_outside {g : List Byte} (h : s.dramRange a 64 = false) : s.writeGrant a g = s := if_neg (by simp [h])

/-- Every granted cluster is on, or failed its power-good, where the PMU gates them. -/
theorem State.grantUp_of_each
    (h : ∀ n ∈ maskClusters mask, s.flag PMU_PD_CTRL.AUTO_GATE = true → s.pdOn (pdClu n) = true ∨ s.flag (PMU_PD.PG_FAIL (pdClu n)) = true) :
    s.grantUp mask = true := by
  cases hGate : s.flag PMU_PD_CTRL.AUTO_GATE with
  | false => simp [State.grantUp, hGate]
  | true => simpa [State.grantUp, hGate] using h

theorem exec_admissionComplete (hAdm : s.adm = .finishing a reason ver handle detail mask qb cb) (hUp : s.grantUp mask = true)
    (hFill : s.filling (a + 32) 32 = false) :
    exec .admissionComplete s = .next
      (((s.start.zeroGranted handle mask).writeGrant a (grantBytes reason ver handle detail mask qb cb)).loadDone reason handle) := by
  show execAdmissionComplete s = _
  simp only [execAdmissionComplete, hAdm]
  exact answer_of_true (by simp [hUp, hFill])

end

/-! ## The unload command and its completion (R208, R209, R215) -/

/-- The state in which an unload of handle h is under way, its object o marked and o's queues cancelled. -/
def State.startUnload (s : State) (h : Nat) (o : Obj) : State :=
  (o.queues.foldl (fun (u : State) q => u.unloadQueue q)
    { s with objs := s.objs.map (fun (x : Obj) => if x.handle = h then { x with unloading := true } else x), adm := .unloading h }).setF
    DCK_LOAD_STATUS.BUSY 1

section
variable {s : State} {m h : Nat} {o : Obj}

@[simp] theorem State.setF_obj {f : Fld} {v : Nat} : (s.setF f v).obj h = s.obj h := rfl

theorem State.unload_of_busy (hBusy : s.flag DCK_LOAD_STATUS.BUSY = true) : s.unload h = s.setF DCK_LOAD_STATUS.CMD_REJECT 1 := if_pos hBusy

section
variable (hIdle : s.flag DCK_LOAD_STATUS.BUSY = false)
include hIdle

theorem State.unload_of_none (hObj : s.obj h = none) : s.unload h = (s.setF DCK_LOAD_LOST.COUNT 0).loadDone 0x21 h := by
  simp [State.unload, hIdle, hObj]

theorem State.unload_of_loaded (hObj : s.obj h = some o) : s.unload h = (s.setF DCK_LOAD_LOST.COUNT 0).startUnload h o := by
  simp [State.unload, hIdle, hObj, State.startUnload]

end

theorem exec_unloadObject (hm : s.mayWrite m DCK_LOAD_CMD.addr = true) : exec (.unloadObject m h) s = .next (s.start.unload h) :=
  State.write_of_mayWrite hm

theorem State.quiet_of_each (hQueues : ∀ q ∈ o.queues, (s.q q).inflight = 0 ∧ (s.q q).job = none ∧ (s.q q).save = .none) :
    s.quiet o = true := by
  simpa [State.quiet, and_assoc] using hQueues

theorem exec_unloadComplete (hAdm : s.adm = .unloading h) (hObj : s.obj h = some o) (hQuiet : s.quiet o = true) :
    exec .unloadComplete s = .next (((s.start.releaseAll o).engForget h).loadDone 0x20 h) := by
  show execUnloadComplete s = _
  simp only [execUnloadComplete, hAdm, hObj]
  exact answer_of_true hQuiet

end

/-- Settles O23: a command by whether one runs, a load command by how far its checks go, an unload command by whether its handle is loaded;
the completions by their commands' rules. Which handle a completion names, where GRANT is not written and what an unload of no loaded
object clears are as log 82 decides. -/
theorem objectsLoadAndUnload : Obligations.ObjectsLoadAndUnload := by
  unfold Obligations.ObjectsLoadAndUnload
  intro s m done
  refine ⟨fun hm => ⟨fun hBusy => ?running, fun hIdle => ?idle⟩, ?admitted, ?unloaded⟩
  case running =>
    exact ⟨(exec_admitObject hm).trans (congrArg _ (State.admitCmd_of_busy hBusy)),
      fun h => (exec_unloadObject hm).trans (congrArg _ (State.unload_of_busy hBusy))⟩
  case idle =>
    have hStart : s.start.flag DCK_LOAD_STATUS.BUSY = false := hIdle
    rw [exec_admitObject hm]
    refine ⟨fun r hEarly => congrArg _ (State.admitCmd_of_early hStart hEarly), fun hPassed hCopying => ?copying,
      fun hPassed hCopied => ?checked, fun h hNone => (exec_unloadObject hm).trans (congrArg _ (State.unload_of_none hStart hNone)),
      fun h o hObj => (exec_unloadObject hm).trans (congrArg _ (State.unload_of_loaded hStart hObj))⟩
    case copying =>
      exact congrArg _ ((State.admitCmd_of_passed hStart hPassed).trans (State.admitGo_of_copying hCopying))
    case checked =>
      rw [(State.admitCmd_of_passed hStart hPassed).trans (State.admitGo_of_idle hCopied)]
      exact ⟨fun hNone => congrArg _ (State.settleAdmission_of_refusal hNone), fun o hObj => congrArg _ (State.settleAdmission_of_grant hObj)⟩
  case admitted =>
    intro a reason ver handle detail mask qb cb hAdm hOn hFill t grant
    rw [exec_admissionComplete hAdm (State.grantUp_of_each hOn) hFill]
    have hDone {u v : State} (huv : u = v) : u.loadDone reason handle = done v reason handle :=
      congrArg (fun w : State => w.loadDone reason handle) huv
    exact ⟨fun hDram => congrArg _ (hDone (State.writeGrant_of_dram hDram)),
      fun hOutside => congrArg _ (hDone (State.writeGrant_of_outside hOutside))⟩
  case unloaded =>
    intro h o hAdm hObj hQueues
    rw [exec_unloadComplete hAdm hObj (State.quiet_of_each hQueues)]
    rfl

end Sys2Proof.Machine

/-! # The Deckle's scheduling (07_deckle_scheduling.md) -/

namespace Sys2Proof.Machine
open Sys2Proof

/-! ## Cells (R233, R234) -/

/-- Cells have registers of their own. -/
theorem cellAddr_ne {n k : Nat} (hn : n < 65536) (hk : k < 65536) (h : k ≠ n) : DCK_CELL.addr k ≠ DCK_CELL.addr n := by
  unfold DCK_CELL.addr
  split_ifs <;> omega

/-- The values of cells and their flags stand in different pages. -/
theorem cellAddr_ne_flags {n k : Nat} (hn : n < 65536) (hk : k < 65536) : DCK_CELL.addr k ≠ DCK_CELL_FLAGS.addr n := by
  unfold DCK_CELL.addr DCK_CELL_FLAGS.addr
  split_ifs <;> omega

section
variable {s : State} {n v : Nat}

theorem State.cellAdd_of_carry (h : 2 ^ 32 ≤ s.cell n + v % 2 ^ 32) :
    s.cellAdd n v = (s.setF (DCK_CELL.VALUE n) ((s.cell n + v % 2 ^ 32) % 2 ^ 32)).setF (DCK_CELL_FLAGS.WRAP n) 1 := if_pos h

theorem State.cellAdd_of_no_carry (h : ¬ 2 ^ 32 ≤ s.cell n + v % 2 ^ 32) :
    s.cellAdd n v = s.setF (DCK_CELL.VALUE n) ((s.cell n + v % 2 ^ 32) % 2 ^ 32) := if_neg h

/-- A signal reaches registers alone. -/
theorem State.cellAdd_regs : ∃ r, s.cellAdd n v = { s with regs := r } := by
  unfold State.cellAdd
  dsimp only
  split <;> exact ⟨_, rfl⟩

section
variable (hs : Registers.wf s = true)
include hs

theorem State.rd_setF_other {f : Fld} {a : Nat} (h : a ≠ f.addr) : (s.setF f v).rd a = s.rd a := State.rd_wr_other hs h

theorem State.cell_setF_same : (s.setF (DCK_CELL.VALUE n) v).cell n = v % 2 ^ 32 :=
  State.fld_setF_same hs (Nat.zero_le 31) (show 31 < 32 by omega)

theorem State.rd_cellAdd_other {a : Nat} (hv : a ≠ DCK_CELL.addr n) (hf : a ≠ DCK_CELL_FLAGS.addr n) : (s.cellAdd n v).rd a = s.rd a := by
  by_cases h : 2 ^ 32 ≤ s.cell n + v % 2 ^ 32
  · rw [State.cellAdd_of_carry h, State.rd_setF_other (Registers.wf_setF hs) hf, State.rd_setF_other hs hv]
  · rw [State.cellAdd_of_no_carry h, State.rd_setF_other hs hv]

variable (hn : n < 65536)
include hn

theorem State.cell_cellAdd_same : (s.cellAdd n v).cell n = (s.cell n + v % 2 ^ 32) % 2 ^ 32 := by
  have hValue : ∀ x : Nat, (s.setF (DCK_CELL.VALUE n) (x % 2 ^ 32)).cell n = x % 2 ^ 32 := fun x => by
    rw [State.cell_setF_same hs, Nat.mod_mod]
  by_cases h : 2 ^ 32 ≤ s.cell n + v % 2 ^ 32
  · rw [State.cellAdd_of_carry h]
    exact (State.fld_setF_reg (f := DCK_CELL_FLAGS.WRAP n) (Registers.wf_setF hs) (cellAddr_ne_flags hn hn)).trans (hValue _)
  · rw [State.cellAdd_of_no_carry h, hValue]

theorem State.wrap_cellAdd :
    (s.cellAdd n v).fld (DCK_CELL_FLAGS.WRAP n) = if 2 ^ 32 ≤ s.cell n + v % 2 ^ 32 then 1 else s.fld (DCK_CELL_FLAGS.WRAP n) := by
  split
  case isTrue h =>
    rw [State.cellAdd_of_carry h]
    exact State.fld_setF_same (Registers.wf_setF hs) (Nat.le_refl 0) (show 0 < 32 by omega)
  case isFalse h =>
    rw [State.cellAdd_of_no_carry h]
    exact State.fld_setF_reg hs (cellAddr_ne_flags hn hn).symm

theorem State.cancel_cellAdd : (s.cellAdd n v).fld (DCK_CELL_FLAGS.CANCEL n) = s.fld (DCK_CELL_FLAGS.CANCEL n) := by
  have hValue : ∀ x, (s.setF (DCK_CELL.VALUE n) x).fld (DCK_CELL_FLAGS.CANCEL n) = s.fld (DCK_CELL_FLAGS.CANCEL n) :=
    fun x => State.fld_setF_reg hs (cellAddr_ne_flags hn hn).symm
  by_cases h : 2 ^ 32 ≤ s.cell n + v % 2 ^ 32
  · rw [State.cellAdd_of_carry h, ← hValue]
    exact State.fld_setF_bits (Registers.wf_setF hs) (Nat.le_refl 0) (show 0 < 32 by omega) (Nat.le_refl 1) (.inl Nat.zero_lt_one)
  · rw [State.cellAdd_of_no_carry h, hValue]

end
end

section
variable {s : State} {m n v : Nat}

theorem exec_cellWrite (hm : s.mayWrite m (DCK_CELL.addr n) = true) : exec (.cellWrite m n v) s = .next (s.start.setF (DCK_CELL.VALUE n) v) :=
  State.write_of_mayWrite hm

theorem exec_cellAddWrite (hm : s.mayWrite m (DCK_CELL_ADD.addr n) = true) : exec (.cellAddWrite m n v) s = .next (s.start.cellAdd n v) :=
  State.write_of_mayWrite hm

end

/-- Settles O15: a set and a signal by what they do to the two registers of their cell; every other cell has registers of its own. -/
theorem cellSignalsCarry : Obligations.CellSignalsCarry := by
  unfold Obligations.CellSignalsCarry
  intro s m n v ⟨_, hRegs, _⟩ hn hv
  have hs : Registers.wf s.start = true := hRegs
  have hvMod : v % 2 ^ 32 = v := Nat.mod_eq_of_lt hv
  refine ⟨fun hm => ⟨_, exec_cellWrite hm, ?set, fun k hk hkn => ?setOther, fun a ha => State.rd_setF_other hs ha, _, rfl⟩,
    fun hm => ⟨_, exec_cellAddWrite hm, ?add, ?wrap, State.cancel_cellAdd hs hn, fun k hk hkn => ?addOther,
      fun a hv hf => State.rd_cellAdd_other hs hv hf, State.cellAdd_regs⟩⟩
  case set => rw [State.cell_setF_same hs, hvMod]
  case setOther => exact State.fld_setF_reg hs (cellAddr_ne hn hk hkn)
  case add => rw [State.cell_cellAdd_same hs hn, hvMod]; rfl
  case wrap => rw [State.wrap_cellAdd hs hn, hvMod]; rfl
  case addOther =>
    exact congrArg (fun w : Word => bits w 31 0) (State.rd_cellAdd_other hs (cellAddr_ne hn hk hkn) (cellAddr_ne_flags hn hk))

/-! ## The deadline clock (R239–R242) -/

/-- A function that keeps what unlisted keys read as may be applied to what is listed. -/
theorem Sparse.get_map {β : Type} {d : Nat → β} {f : β → β} (hf : ∀ k, f (d k) = d k) (k : Nat) :
    ∀ l : List (Nat × β), Sparse.get d (l.map (fun e => (e.1, f e.2))) k = f (Sparse.get d l k)
  | [] => (hf k).symm
  | (k', x) :: l => by
    simp only [List.map_cons, Sparse.get]
    split_ifs
    · rfl
    · exact (hf k).symm
    · exact Sparse.get_map hf k l

section
variable {s : State} {k : TaskKey}

/-- Ageing a key makes it overdue or leaves it. -/
theorem State.aged_keeps : (s.aged k).deadline = k.deadline ∧ (s.aged k).band = k.band ∧ (s.aged k).isDl = k.isDl := by
  unfold State.aged
  split
  · split <;> exact ⟨rfl, rfl, rfl⟩
  · exact ⟨rfl, rfl, rfl⟩

theorem State.aged_of_overdue (h : k.overdue.isSome = true) : s.aged k = k := by
  obtain ⟨x, hx⟩ := Option.isSome_iff_exists.1 h
  simp only [State.aged, hx]

theorem State.aged_overdue_iff {d : Nat} (h : k.overdue = none) (hd : k.deadline = some d) :
    (s.aged k).overdue.isSome = true ↔ 2 ^ 31 ≤ s.left d := by
  simp only [State.aged, h, hd]
  split_ifs with hPast <;> simp only [hPast, h, Option.isSome_some, Option.isSome_none, Bool.false_eq_true]

/-- What a tick makes of a queue. -/
def State.agedQ (s : State) (x : QState) : QState := { x with key := x.key.map s.aged, bells := x.bells.map (fun b => (b.1, s.aged b.2)) }

theorem State.ageAll_q (q : Nat) : s.ageAll.q q = s.agedQ (s.q q) :=
  Sparse.get_map (f := s.agedQ) (fun _ => rfl) q s.queues

end

/-- The state in which the keys are evaluated at a tick. -/
def State.dlTicked (s : State) : State := { s.start with dlNow := (s.dlNow + 1) % 2 ^ 32, overdueCtr := s.overdueCtr + 1 }

theorem exec_deadlineTick {s : State} (h : s.dlNow ≠ s.now / 1000 % 2 ^ 32) : exec .deadlineTick s = .next s.dlTicked.ageAll :=
  answer_of_true (bne_iff_ne.2 h)

/-- Settles O16: every queue is as State.agedQ leaves it, and a key by what State.aged does. -/
theorem deadlineTick : Obligations.DeadlineTick := by
  unfold Obligations.DeadlineTick
  intro s h
  refine ⟨_, exec_deadlineTick h, rfl, rfl, fun q => ?_⟩
  have hq : s.dlTicked.ageAll.q q = s.dlTicked.agedQ (s.q q) := State.ageAll_q q
  rw [hq]
  refine ⟨fun k hk => ?key, fun hNone => ?noKey, ?bells, rfl⟩
  case key =>
    have hAged : (s.dlTicked.agedQ (s.q q)).key = some (s.dlTicked.aged k) := by simp [State.agedQ, hk]
    obtain ⟨hDeadline, hBand, hDl⟩ := State.aged_keeps (s := s.dlTicked) (k := k)
    exact ⟨_, hAged, hDeadline, hBand, hDl, State.aged_of_overdue, fun hNone d hd => State.aged_overdue_iff hNone hd⟩
  case noKey => simp [State.agedQ, hNone]
  case bells => simp [State.agedQ]

/-! ## Doorbells of queues (R208, R218, R223, R229) -/

/-- What is no default is read back from any table, canonical or not. -/
theorem Sparse.get_set_of_ne {β : Type} [DecidableEq β] {d : Nat → β} {k : Nat} {v : β} (hv : v ≠ d k) :
    ∀ l : List (Nat × β), Sparse.get d (Sparse.set d l k v) k = v
  | [] => by simp [Sparse.set, Sparse.cons, Sparse.get, hv]
  | (k', x) :: l => by
    simp only [Sparse.set, Sparse.cons, if_neg hv]
    split_ifs with hBefore hAt
    · simp [Sparse.get]
    · simp [Sparse.get]
    · simp only [Sparse.get, if_neg hAt, if_neg hBefore]
      exact Sparse.get_set_of_ne hv l

section
variable {s : State} {q v : Nat}

/-- A queue that holds a key is read as it was written. -/
theorem State.q_setQ_of_key {x : QState} {k : TaskKey} (hx : x.key = some k) : (s.setQ q x).q q = x :=
  Sparse.get_set_of_ne (fun h => by simp [h, QState.init] at hx) s.queues

theorem State.ringBell_of_off (hOn : s.qOn q = false) : s.ringBell q v = s.setF (DCK_QUEUE_STATUS.DB_IGNORED q) 1 := by
  simp [State.ringBell, hOn]

section
variable (hOn : s.qOn q = true)
include hOn

theorem State.ringBell_of_unloading {o : Obj} (hObj : s.objOfQueue q = some o) (hUnload : o.unloading = true) : s.ringBell q v = s := by
  simp [State.ringBell, hOn, hObj, hUnload]

theorem State.ringBell_of_no_entry (hNone : wrapSub v (s.qTail q) = 0) : s.ringBell q v = s := by
  simp [State.ringBell, hOn, hNone]

section
variable (hLoaded : (s.objOfQueue q).all (fun o => !o.unloading) = true) (hSome : wrapSub v (s.qTail q) ≠ 0)
include hLoaded hSome

theorem State.ringBell_of_entries : s.ringBell q v =
    if s.qDepth q + wrapSub v (s.qTail q) ≤ s.ringSize q then (s.setF (DCK_QUEUE_TAIL.COUNT q) v).noteBell q v
    else s.setF (DCK_QUEUE_STATUS.FULL_REJ q) 1 := by
  cases hObj : s.objOfQueue q with
  | none => simp [State.ringBell, hOn, hObj, hSome]
  | some o =>
    have hStays : o.unloading = false := by simpa [hObj] using hLoaded
    simp [State.ringBell, hOn, hObj, hStays, hSome]

theorem State.ringBell_of_fits (hFits : s.qDepth q + wrapSub v (s.qTail q) ≤ s.ringSize q) :
    s.ringBell q v = (s.setF (DCK_QUEUE_TAIL.COUNT q) v).noteBell q v :=
  (State.ringBell_of_entries hOn hLoaded hSome).trans (if_pos hFits)

theorem State.ringBell_of_full (hFull : s.ringSize q < s.qDepth q + wrapSub v (s.qTail q)) :
    s.ringBell q v = s.setF (DCK_QUEUE_STATUS.FULL_REJ q) 1 :=
  (State.ringBell_of_entries hOn hLoaded hSome).trans (if_neg (by omega))

end
end

theorem State.noteBell_of_no_object (hObj : s.objOfQueue q = none) : s.noteBell q v = s := by
  simp only [State.noteBell, hObj]

/-- The key of a queue's task is kept where there is one, else that of the default task's band. -/
theorem State.noteBell_key {o : Obj} (hObj : s.objOfQueue q = some o) :
    ((s.noteBell q v).q q).key = some ((s.q q).key.getD (s.bandKey o.part (s.fld (DCK_QUEUE_CFG.DEF_BAND q)))) := by
  simp only [State.noteBell, hObj]
  rw [State.q_setQ_of_key rfl]

theorem exec_queueDoorbell {m : Nat} (hm : s.mayWrite m (DCK_QUEUE_DB.addr q) = true) :
    exec (.queueDoorbell m q v) s = .next (s.start.ringBell q v) :=
  State.write_of_mayWrite hm

end

/-- Settles O10: the doorbell by the queue's state and by how many entries it adds; the key of its task as State.noteBell leaves it. -/
theorem queueDoorbells : Obligations.QueueDoorbells := by
  unfold Obligations.QueueDoorbells
  intro s m q v hm n
  rw [exec_queueDoorbell hm]
  refine ⟨fun hOff => congrArg _ (State.ringBell_of_off hOff), fun hOn hNothing => congrArg _ ?nothing,
    fun hLoaded hOn hSome => ⟨fun hFits => ⟨congrArg _ (State.ringBell_of_fits (s := s.start) hOn hLoaded hSome hFits), fun k hKey => ?kept,
      fun hNone o hObj => ?given⟩,
      fun hFull => congrArg _ (State.ringBell_of_full (s := s.start) hOn hLoaded hSome hFull)⟩⟩
  case nothing =>
    rcases hNothing with hNone | ⟨o, hObj, hUnload⟩
    · exact State.ringBell_of_no_entry (s := s.start) hOn hNone
    · exact State.ringBell_of_unloading (s := s.start) hOn hObj hUnload
  case kept =>
    cases hObj : s.objOfQueue q with
    | none =>
      rw [State.noteBell_of_no_object (s := s.start.setF _ v) hObj]
      rfl
    | some o => exact (State.noteBell_key (s := s.start.setF _ v) hObj).trans (congrArg (fun x => some (Option.getD x _)) hKey)
  case given => exact (State.noteBell_key (s := s.start.setF _ v) hObj).trans (congrArg (fun x => some (Option.getD x _)) hNone)

/-! ## Queue configuration and completion heads (R221, R223, R259, R263) -/

/-- The RW fields of a CFG word taken. -/
def State.takeCfg (s : State) (q : Nat) (w : Word) : State :=
  (((s.setF (DCK_QUEUE_CFG.ENGINE q) (bits w 30 28)).setF (DCK_QUEUE_CFG.DEF_BAND q) (bits w 27 26)).setF (DCK_QUEUE_CFG.VER_MAX q) (bits w 25 22)).setF
    (DCK_QUEUE_CFG.VER_MIN q) (bits w 21 18)

/-- A queue put on: its version, its four counts at 0, nothing of an earlier use left. -/
def State.putOn (s : State) (q : Nat) (w : Word) : State :=
  (((((((s.setF (DCK_QUEUE_CFG.EN q) 1).setF (DCK_QUEUE_CFG.VER_USED q) (Nat.min (bits w 25 22) 1)).setF (DCK_QUEUE_STATUS.CFG_ERR q) 0).setF
    (DCK_QUEUE_HEAD.COUNT q) 0).setF (DCK_QUEUE_TAIL.COUNT q) 0).setF (DCK_QUEUE_CPL_HEAD.NEW_COUNT q) 0).setF (DCK_QUEUE_CPL_TAIL.COUNT q) 0).setQ q
    QState.init

/-- A queue put off. -/
def State.putOff (s : State) (q : Nat) : State :=
  ((s.setF (DCK_QUEUE_CFG.EN q) 0).setF (DCK_QUEUE_CFG.VER_USED q) 0).setF (DCK_QUEUE_STATUS.CFG_ERR q) 0

section
variable {s : State} {m q v : Nat} {w : Word}

theorem State.writeCfg_of_bad_engine (h : 5 < bits w 30 28) : s.writeCfg q w = s.setF (DCK_QUEUE_STATUS.CFG_ERR q) 4 := if_pos h

section
variable (hEngine : bits w 30 28 ≤ 5)
include hEngine

theorem State.writeCfg_of_enable (hOff : s.qOn q = false) (hEn : bits w 31 31 = 1) : s.writeCfg q w =
    if s.cfgErr q w = 0 then (s.takeCfg q w).putOn q w else (s.takeCfg q w).setF (DCK_QUEUE_STATUS.CFG_ERR q) (s.cfgErr q w) := by
  have hOn : (bits w 31 31 == 1) = true := beq_iff_eq.2 hEn
  exact (if_neg (Nat.not_lt.2 hEngine)).trans (if_pos ⟨hOff, hOn⟩)

theorem State.writeCfg_of_disable (hOn : s.qOn q = true) (hEn : bits w 31 31 = 0) : s.writeCfg q w =
    if s.cfgIdle q = true then (s.takeCfg q w).putOff q else (s.takeCfg q w).setF (DCK_QUEUE_STATUS.CFG_ERR q) 6 := by
  have hOff : (bits w 31 31 == 1) = false := beq_false_of_ne (by omega)
  have hNoEnable : ¬ (s.qOn q = false ∧ (bits w 31 31 == 1) = true) := by simp [hOn]
  exact (if_neg (Nat.not_lt.2 hEngine)).trans ((if_neg hNoEnable).trans (if_pos ⟨hOn, hOff⟩))

theorem State.writeCfg_of_kept (hKept : s.qOn q = (bits w 31 31 == 1)) :
    s.writeCfg q w = (s.takeCfg q w).setF (DCK_QUEUE_STATUS.CFG_ERR q) 0 := by
  simp only [State.writeCfg, if_neg (Nat.not_lt.2 hEngine), ← hKept]
  cases s.qOn q <;> rfl

end

theorem exec_queueCfgWrite (hm : s.mayWrite m (DCK_QUEUE_CFG.addr q) = true) :
    exec (.queueCfgWrite m q v) s = .next (s.start.writeCfg q (BitVec.ofNat 32 v)) :=
  State.write_of_mayWrite hm

theorem State.resumeCancel_of_none (h : (s.q q).cancelTo = none) : s.resumeCancel q = s := by
  simp only [State.resumeCancel, h]

theorem State.writeCplHead_of_too_many (h : s.cplWritten q < wrapSub v (s.fld (DCK_QUEUE_CPL_HEAD.NEW_COUNT q))) :
    s.writeCplHead q v = s.setF (DCK_QUEUE_STATUS.CPL_REJ q) 1 := if_pos h

theorem State.writeCplHead_of_written (h : wrapSub v (s.fld (DCK_QUEUE_CPL_HEAD.NEW_COUNT q)) ≤ s.cplWritten q) :
    s.writeCplHead q v = (s.setF (DCK_QUEUE_CPL_HEAD.NEW_COUNT q) v).resumeCancel q := if_neg (Nat.not_lt.2 h)

theorem exec_cplHeadWrite (hm : s.mayWrite m (DCK_QUEUE_CPL_HEAD.addr q) = true) :
    exec (.cplHeadWrite m q v) s = .next (s.start.writeCplHead q v) :=
  State.write_of_mayWrite hm

end

/-- Settles O11: a CFG write by its engine (6 and 7 as log 73 decides), by EN before and after, and by the conditions of that change; a head count
by how many records it pops and whether a cancellation waits. -/
theorem queueConfiguration : Obligations.QueueConfiguration := by
  unfold Obligations.QueueConfiguration
  intro s m q v hCfg hCpl w f
  rw [exec_queueCfgWrite hCfg, exec_cplHeadWrite hCpl]
  refine ⟨fun hBad => congrArg _ (State.writeCfg_of_bad_engine hBad), fun hOff hEn hErr hEngine => congrArg _ ?refused,
    fun hOff hEn hGood hEngine => congrArg _ ?enabled, fun hOn hEn hIdle hEngine => congrArg _ ?disabled,
    fun hOn hEn hBusy hEngine => congrArg _ ?busy, fun hKept hEngine => congrArg _ (State.writeCfg_of_kept (s := s.start) hEngine hKept),
    fun hMany => congrArg _ (State.writeCplHead_of_too_many hMany), fun hFew hNone => congrArg _ ?popped, fun hFew stop hStop => congrArg _ ?resumed⟩
  case refused => exact (State.writeCfg_of_enable (s := s.start) hEngine hOff hEn).trans (if_neg hErr)
  case enabled => exact (State.writeCfg_of_enable (s := s.start) hEngine hOff hEn).trans (if_pos hGood)
  case disabled => exact (State.writeCfg_of_disable (s := s.start) hEngine hOn hEn).trans (if_pos hIdle)
  case busy => exact (State.writeCfg_of_disable (s := s.start) hEngine hOn hEn).trans (if_neg (by simp [hBusy]))
  case popped => exact (State.writeCplHead_of_written (s := s.start) hFew).trans (State.resumeCancel_of_none hNone)
  case resumed =>
    have hWaits : ((s.start.setF (DCK_QUEUE_CPL_HEAD.NEW_COUNT q) v).q q).cancelTo = some stop := hStop
    rw [State.writeCplHead_of_written (s := s.start) hFew]
    simp only [State.resumeCancel, hWaits]
    rfl

/-! ## Queue control (R228, R253, R254, R265) -/

section
variable {s : State} {m q : Nat}

theorem exec_resumeQueue (hm : s.mayWrite m (DCK_QUEUE_CTRL.addr q) = true) : exec (.resumeQueue m q) s = .next (s.start.unhalt q) :=
  State.write_of_mayWrite hm

theorem exec_cancelTask {res : Bool} (hm : s.mayWrite m (DCK_QUEUE_CTRL.addr q) = true) :
    exec (.cancelTask m q res) s = .next (if res then (s.start.cancelTask q).unhalt q else s.start.cancelTask q) :=
  State.write_of_mayWrite hm

theorem exec_cancelAll {res : Bool} (hm : s.mayWrite m (DCK_QUEUE_CTRL.addr q) = true) :
    exec (.cancelAll m q res) s = .next (if res then (s.start.cancelAll q).unhalt q else s.start.cancelAll q) :=
  State.write_of_mayWrite hm

theorem State.cancelUpTo_of_no_object {stop : Nat} {force : Bool} (hObj : s.objOfQueue q = none) (hJob : (s.q q).job = none) :
    s.cancelUpTo q stop force = s := by
  simp [State.cancelUpTo, hObj, hJob]

theorem State.releaseAfterCancel_of_unbound (hBound : (s.q q).bound = none) :
    s.releaseAfterCancel q = s.setQ q { s.q q with releasing := false } := by
  simp [State.releaseAfterCancel, State.unaccepted, State.unbind, hBound]

theorem State.cancelTask_of_nothing (hObj : s.objOfQueue q = none) (hBound : (s.q q).bound = none) (hJob : (s.q q).job = none) :
    s.cancelTask q = (s.dropKept q).setQ q { s.q q with releasing := false } := by
  unfold State.cancelTask
  dsimp only
  rw [State.cancelUpTo_of_no_object hObj hJob]
  exact State.releaseAfterCancel_of_unbound (s := s.dropKept q) hBound

end

/-- Settles O12: each write by its command's rule; without an object, a binding or a split job there is nothing to cancel. -/
theorem queueControl : Obligations.QueueControl := by
  unfold Obligations.QueueControl
  intro s m q res hm
  refine ⟨exec_resumeQueue hm, exec_cancelTask hm, exec_cancelAll hm, fun hObj hBound hJob => ?_⟩
  exact (exec_cancelTask hm).trans (congrArg _ (State.cancelTask_of_nothing (s := s.start) hObj hBound hJob))

/-! ## The ends of waits (R226, R236, R237, R244) -/

section
variable {s : State} {q cell target : Nat} {rest : Bool}

/-- A wait that has ended leaves registers alone, so what its cell's CANCEL says is as it was. -/
theorem State.released_eq : s.released q cell rest =
    if rest && s.flag (DCK_CELL_FLAGS.CANCEL cell) then (s.setQ q { s.q q with wait := none }).cancelTask q
    else s.setQ q { s.q q with wait := none } := rfl

theorem exec_waitRelease_of_cell (hWait : (s.q q).wait = some (.cell cell target rest)) (hReached : s.cellReached cell target = true) :
    exec (.waitRelease q) s = .next (s.start.released q cell rest) := by
  show execWaitRelease q s = _
  simp only [execWaitRelease, hWait]
  exact answer_of_true hReached

section
variable {tEnd : Nat} {proceed : Bool} {toCell : Option Nat} (hWait : (s.q q).wait = some (.timed cell target tEnd rest proceed toCell))
include hWait

theorem exec_waitRelease_of_timed (hReached : s.cellReached cell target = true) :
    exec (.waitRelease q) s = .next (s.start.released q cell rest) := by
  show execWaitRelease q s = _
  simp only [execWaitRelease, hWait]
  exact answer_of_true hReached

theorem exec_timedWaitTimeout (hPast : passed s.dlNow tEnd = true) (hShort : s.cellReached cell target = false) :
    exec (.timedWaitTimeout q) s = .next (s.start.timedOut q proceed toCell) := by
  show execTimedWaitTimeout q s = _
  simp only [execTimedWaitTimeout, hWait]
  exact answer_of_true (by rw [hPast, hShort]; rfl)

end

section
variable (hRetired : (s.q q).inflight = 0)
include hRetired

theorem exec_fenceRelease_of_fence (hWait : (s.q q).wait = some .fence) :
    exec (.fenceRelease q) s = .next (s.start.setQ q { s.q q with wait := none }) := by
  show execFenceRelease q s = _
  simp only [execFenceRelease, hWait]
  exact answer_of_true (beq_iff_eq.2 hRetired)

theorem exec_fenceRelease_of_signal {c v : Nat} (hWait : (s.q q).wait = some (.signalAfter c v)) :
    exec (.fenceRelease q) s = .next ((s.start.setQ q { s.q q with wait := none }).cellAdd c v) := by
  show execFenceRelease q s = _
  simp only [execFenceRelease, hWait]
  exact answer_of_true (beq_iff_eq.2 hRetired)

theorem exec_fenceRelease_of_set {c v : Nat} {clear : Bool} (hWait : (s.q q).wait = some (.setAfter c v clear)) :
    exec (.fenceRelease q) s = .next ((s.start.setQ q { s.q q with wait := none }).cellSet c v clear) := by
  show execFenceRelease q s = _
  simp only [execFenceRelease, hWait]
  exact answer_of_true (beq_iff_eq.2 hRetired)

end
end

/-- Settles O14: each end by its command's rule for the wait that the queue holds. -/
theorem waitsEnd : Obligations.WaitsEnd := by
  unfold Obligations.WaitsEnd
  intro s q cell target
  refine ⟨fun rest hWait hReached => ?cell, fun tEnd rest proceed toCell hWait => ⟨fun hReached => ?timed, fun hPast hShort => ?timeout⟩,
    fun hRetired => ⟨exec_fenceRelease_of_fence hRetired, fun c v => exec_fenceRelease_of_signal hRetired,
      fun c v clear => exec_fenceRelease_of_set hRetired⟩⟩
  case cell => exact (exec_waitRelease_of_cell hWait hReached).trans (congrArg _ State.released_eq)
  case timed => exact (exec_waitRelease_of_timed hWait hReached).trans (congrArg _ State.released_eq)
  case timeout =>
    rw [exec_timedWaitTimeout hWait hPast hShort]
    cases toCell <;> rfl

/-! ## Pre-emption, restores and drains (R249–R252, R257) -/

section
variable {s : State} {q c k rec : Nat} {o : Obj} {h : Option Nat}

theorem State.startSave_of_point (hObj : s.objOfQueue q = some o) (hPoint : s.atPoint q = some rec) (hBound : (s.q q).bound = some c)
    (hSlot : s.saveSlot o.part = some k) : s.startSave q h = s.setQ q { s.q q with save := .saving c k rec h } := by
  simp only [State.startSave, hObj, hPoint, hBound, hSlot]

theorem exec_preemptTask (hVictim : s.preemptVictim = some (q, h)) : exec .preemptTask s = .next (s.start.startSave q h) := by
  show execPreemptTask s = _
  simp only [execPreemptTask, hVictim]

/-- The slot of a save written, with the open values of its header used up. -/
def State.writeSlot (s : State) (o : Obj) (c k rec : Nat) : State :=
  (s.store ⟨deckleMaster, 0, false, false, .silent⟩ (placed (s.saveAddr o.part k) (s.saveBytes c (s.liveRanges o rec))) 0 0).1.tookFree 64

/-- A task saved in slot k unbound, its cluster kept for the task of queue h, and PREEMPTED owed to its next record. -/
def State.nowSaved (s : State) (q c k rec : Nat) (h : Option Nat) : State :=
  let t := s.unbind q
  let u := t.setCl c { t.cl c with keptFor := h }
  let v := u.setQ q { u.q q with save := .saved k rec }
  v.setAcct q (v.q q).task { v.acct q (v.q q).task with preempted := true }

theorem exec_saveComplete (hSave : (s.q q).save = .saving c k rec h) (hObj : s.objOfQueue q = some o)
    (hFill : s.filling (s.saveAddr o.part k) (s.start.saveBytes c (s.start.liveRanges o rec)).length = false) :
    exec (.saveComplete q) s = .next ((s.start.writeSlot o c k rec).nowSaved q c k rec h) := by
  show execSaveComplete q s = _
  simp only [execSaveComplete, hSave, hObj]
  exact answer_of_true (by rw [hFill]; rfl)

theorem exec_restoreTask {d : Dispatch} (hFirst : s.restorable = some d) (hSaved : (s.q d.q).save = .saved k rec) :
    exec .restoreTask s = .next (s.start.setQ d.q { s.q d.q with save := .restoring d.clu k rec }) := by
  show execRestoreTask s = _
  simp only [execRestoreTask, hFirst, hSaved]

/-- A task whose ranges are back in the Vat of cluster c bound there, its slot free. -/
def State.resumeSaved (s : State) (q c : Nat) : State :=
  let t := s.setQ q { s.q q with save := .none, mark := none }
  t.bindTask q c (t.q q).resTag false

section
variable (hRestore : (s.q q).save = .restoring c k rec) (hObj : s.objOfQueue q = some o)
include hRestore hObj

theorem exec_restoreComplete_of_service (hService : s.fld (ITG_CLU.SVC c) = 0)
    (hFill : s.filling (s.saveAddr o.part k) (512 + liveBytes (s.liveRanges o rec)) = false) :
    exec (.restoreComplete q) s = .next ((s.start.unsave o c k rec).resumeSaved q c) := by
  show execRestoreComplete q s = _
  simp only [execRestoreComplete, hRestore, hObj]
  rw [if_neg (not_not_intro hService)]
  exact answer_of_true (by rw [hFill]; rfl)

theorem exec_restoreComplete_of_drain (hService : s.fld (ITG_CLU.SVC c) ≠ 0) :
    exec (.restoreComplete q) s = .next (s.start.setQ q { s.q q with save := .saved k rec }) := by
  show execRestoreComplete q s = _
  simp only [execRestoreComplete, hRestore, hObj]
  exact if_pos hService

end

theorem exec_clusterDrained {n : Nat} (hDrain : s.fld (ITG_CLU.SVC n) = 1) (hBound : (s.cl n).bound = none) (hNone : s.noRestore n = true)
    (hOps : (s.cl n).ops = []) (hNew : (s.cl n).drained = false) :
    exec (.clusterDrained n) s = .next (s.start.setCl n { s.cl n with drained := true }) :=
  answer_of_true (by simp [hDrain, hBound, hNone, hOps, hNew])

end

/-- Settles O18: each event by its command's rule; that a restore which ends on a draining cluster leaves its task saved, and that the cluster
is kept for the task the save was made for, are as log 81 decides. -/
theorem preemptionAndDrain : Obligations.PreemptionAndDrain := by
  unfold Obligations.PreemptionAndDrain
  intro s
  refine ⟨fun q h o rec c k hVictim hObj hPoint hBound hSlot => ?preempted, fun q o c k rec h hSave hObj hFill => exec_saveComplete hSave hObj hFill,
    fun d k rec hFirst hSaved => exec_restoreTask hFirst hSaved, fun q o c k rec hRestore hObj => ⟨fun hService hFill => ?resumed, fun hDrain => ?stays⟩,
    fun n hDrain hBound hNone hOps hNew => exec_clusterDrained hDrain hBound hNone hOps hNew⟩
  case preempted => exact (exec_preemptTask hVictim).trans (congrArg _ (State.startSave_of_point hObj hPoint hBound hSlot))
  case resumed => exact exec_restoreComplete_of_service hRestore hObj hService hFill
  case stays => exact exec_restoreComplete_of_drain hRestore hObj hDrain

/-! ## Waits that pass (R219, R227, R235, R237) -/

section
variable {s : State} {q : Nat} {o : Obj} {b : List Byte}

theorem exec_waitEntry_of_reached (hHead : s.headControl q 0xE1 = some (o, b))
    (hReached : (s.start.pop q).cellReached (leAt b 4 2) (leAt b 8 4) = true) :
    exec (.waitEntry q) s = .next ((s.start.pop q).released q (leAt b 4 2) (bitN (leAt b 2 2) 0)) := by
  show execWaitEntry q s = _
  simp only [execWaitEntry, State.control, hHead]
  exact congrArg _ (if_pos hReached)

theorem exec_timedWaitEntry_of_reached (hHead : s.headControl q 0xE2 = some (o, b))
    (hReached : (s.start.pop q).cellReached (leAt b 4 2) (leAt b 8 4) = true) :
    exec (.timedWaitEntry q) s = .next ((s.start.pop q).released q (leAt b 4 2) (bitN (leAt b 2 2) 0)) := by
  show execTimedWaitEntry q s = _
  simp only [execTimedWaitEntry, State.control, hHead]
  exact congrArg _ (if_pos hReached)

end

/-! ### What a pop leaves alone (R219, R363) -/

/-- Where the Headbox's registers begin. -/
def hbxBase : Nat := 0x22000000

/-- The registers of a class stand above it. -/
theorem hbxClassReg_above {r : Nat} (hr : hbxBase ≤ r) (i c : Nat) : hbxBase ≤ r + i * 0x800000 + c * 0x40 := by omega

theorem State.Reads.ite {s t : State} {a : Nat} {w : Word} {p : Prop} [Decidable p] (hs : s.Reads a w) (ht : t.Reads a w) :
    (if p then s else t).Reads a w := by
  split <;> assumption

theorem State.Reads.setHbx {s : State} {a : Nat} {w : Word} (h : s.Reads a w) (i c : Nat) (x : HbxClass) : (s.setHbx i c x).Reads a w := h

section
variable {s : State} {a : Nat} {w : Word} (h : s.Reads a w) (ha : a < hbxBase)
include h ha

theorem State.Reads.setF_hbx {f : Fld} (v : Nat) (hf : hbxBase ≤ f.addr) : (s.setF f v).Reads a w :=
  h.wr_other _ (Nat.ne_of_gt (Nat.lt_of_lt_of_le ha hf))

theorem State.Reads.bump_hbx {f : Fld} (n : Nat) (hf : hbxBase ≤ f.addr) : (s.bump f n).Reads a w := h.setF_hbx ha _ hf

theorem State.Reads.hbxCount (m part x : Nat) : (s.hbxCount m part x).Reads a w := by
  unfold State.hbxCount
  split
  · exact h
  · split
    · exact h.bump_hbx ha 1 (by decide)
    · exact h
    · exact h.bump_hbx ha 1 (by decide)

variable (i c : Nat)

theorem State.Reads.hbxHeldTo (u : Nat) : (s.hbxHeldTo i c u).Reads a w := by
  unfold State.hbxHeldTo
  dsimp only
  split
  · exact h
  · exact (h.bump_hbx ha (f := HBX_HELD.COUNT i c) _ (hbxClassReg_above (by decide) i c)).setHbx i c _

theorem State.Reads.hbxBoundary (renew : Bool) : (s.hbxBoundary i c renew).Reads a w := by
  unfold State.hbxBoundary
  dsimp only
  refine State.Reads.setF_hbx (State.Reads.setF_hbx (State.Reads.setF_hbx (State.Reads.setHbx ?_ i c _) ha 0 ?_) ha 0 ?_) ha 0 ?_
  · exact h.hbxHeldTo ha i c _
  all_goals exact hbxClassReg_above (by decide) i c

theorem State.Reads.hbxSync : (s.hbxSync i c).Reads a w := by
  unfold State.hbxSync
  split
  · exact h.hbxBoundary ha i c _
  · exact h

/-- What a charge shows in the registers of its class. -/
theorem State.Reads.showCharge (lo hi units ovr : Nat) : ((((s.setF (HBX_BYTES_LO.BYTES i c) lo).setF (HBX_BYTES_HI.BYTES i c) hi).setF
    (HBX_USED.UNITS i c) units).setF (HBX_STATUS.OVER i c) ovr).Reads a w := by
  refine State.Reads.setF_hbx (State.Reads.setF_hbx (State.Reads.setF_hbx (h.setF_hbx ha lo ?_) ha hi ?_) ha units ?_) ha ovr ?_
  all_goals exact hbxClassReg_above (by decide) i c

theorem State.Reads.hbxCharge (t n : Nat) : (s.hbxCharge i c t n).Reads a w := by
  have hShown := fun x y => State.Reads.showCharge (((h.hbxSync ha i c).setHbx i c x).setHbx i c y) ha i c
  unfold State.hbxCharge
  dsimp only
  refine State.Reads.ite ?_ ?_
  · exact State.Reads.bump_hbx (hShown _ _ _ _ _ _) ha 1 (hbxClassReg_above (by decide) i c)
  · exact hShown _ _ _ _ _ _

theorem State.Reads.hbxHold (t : Nat) : (s.hbxHold i c t).Reads a w := by
  unfold State.hbxHold
  dsimp only
  have hSync := h.hbxSync ha i c
  split_ifs
  · exact (hSync.setF_hbx ha _ (hbxClassReg_above (by decide) i c)).setHbx i c _
  · exact hSync.setF_hbx ha _ (hbxClassReg_above (by decide) i c)
  · exact hSync

omit i c

theorem State.Reads.hbxHolds : s.hbxHolds.Reads a w :=
  List.foldlRecOn (motive := fun u : State => u.Reads a w) _ _ h fun _ hu e _ =>
    List.foldlRecOn (motive := fun u : State => u.Reads a w) _ _ hu fun _ hv t _ => hv.hbxHold ha (e.1 / 32) (e.1 % 32) t

/-- Charging a request changes the Headbox's registers alone. -/
theorem State.Reads.regulate (m part src x n : Nat) : (s.regulate m part src x n).Reads a w := by
  unfold State.regulate
  dsimp only
  split
  · exact h
  · refine State.Reads.hbxHolds (List.foldlRecOn (motive := fun u : State => u.Reads a w) _ _ (h.hbxCount ha m part x) fun _ hu k _ => ?_) ha
    exact hu.hbxCharge ha _ _ _ _

/-- A pop changes the queue's HEAD and the Headbox's registers alone. -/
theorem State.Reads.pop {q : Nat} (hq : DCK_QUEUE_HEAD.addr q ≠ a) : (s.pop q).Reads a w :=
  (h.regulate ha _ _ _ _ _).wr_other _ hq

end

theorem leNat_lt (l : List Byte) : leNat l < 256 ^ l.length := by
  induction l with
  | nil => decide
  | cons b l ih =>
    have hb := b.isLt
    simp only [leNat, List.length_cons, Nat.pow_succ]
    omega

/-- A field of two bytes names one of the 65,536 cells. -/
theorem leAt_two_lt (b : List Byte) (off : Nat) : leAt b off 2 < 65536 :=
  Nat.lt_of_lt_of_le (leNat_lt _) (Nat.pow_le_pow_right (by omega) (List.length_take_le 2 _))

theorem cellFlags_ne_head {n : Nat} (q : Nat) (hn : n < 65536) : DCK_QUEUE_HEAD.addr q ≠ DCK_CELL_FLAGS.addr n := by
  unfold DCK_QUEUE_HEAD.addr DCK_CELL_FLAGS.addr
  split_ifs <;> omega

theorem cellFlags_below_hbx {n : Nat} (hn : n < 65536) : DCK_CELL_FLAGS.addr n < hbxBase := by
  unfold DCK_CELL_FLAGS.addr hbxBase
  split_ifs <;> omega

section
variable {s : State} {q : Nat} {o : Obj} {b : List Byte} (hs : Registers.wf s = true)
include hs

/-- With a canonical register file a pop leaves the CANCEL of every cell as it was. -/
theorem State.cancel_pop {n : Nat} (hn : n < 65536) : (s.pop q).flag (DCK_CELL_FLAGS.CANCEL n) = s.flag (DCK_CELL_FLAGS.CANCEL n) := by
  have hReads : s.Reads (DCK_CELL_FLAGS.addr n) (s.rd (DCK_CELL_FLAGS.addr n)) := ⟨hs, rfl⟩
  exact congrArg (fun w : Word => bits w 1 1 == 1) (hReads.pop (cellFlags_below_hbx hn) (cellFlags_ne_head q hn)).2

theorem State.released_pop (rest : Bool) : (s.pop q).released q (leAt b 4 2) rest =
    if rest && s.flag (DCK_CELL_FLAGS.CANCEL (leAt b 4 2)) then ((s.pop q).setQ q { (s.pop q).q q with wait := none }).cancelTask q
    else (s.pop q).setQ q { (s.pop q).q q with wait := none } := by
  rw [State.released_eq, State.cancel_pop hs (leAt_two_lt b 4)]

/-- What O13 says of a WAIT that passes, where the register file is canonical. -/
theorem exec_waitEntry_of_canonical (hHead : s.headControl q 0xE1 = some (o, b))
    (hReached : (s.start.pop q).cellReached (leAt b 4 2) (leAt b 8 4) = true) :
    let u := (s.start.pop q).setQ q { (s.start.pop q).q q with wait := none }
    exec (.waitEntry q) s = .next (if bitN (leAt b 2 2) 0 && s.flag (DCK_CELL_FLAGS.CANCEL (leAt b 4 2)) then u.cancelTask q else u) :=
  (exec_waitEntry_of_reached hHead hReached).trans (congrArg _ (State.released_pop (s := s.start) hs _))

/-- What O13 says of a TIMED_WAIT that passes, where the register file is canonical. -/
theorem exec_timedWaitEntry_of_canonical (hHead : s.headControl q 0xE2 = some (o, b))
    (hReached : (s.start.pop q).cellReached (leAt b 4 2) (leAt b 8 4) = true) :
    let u := (s.start.pop q).setQ q { (s.start.pop q).q q with wait := none }
    exec (.timedWaitEntry q) s = .next (if bitN (leAt b 2 2) 0 && s.flag (DCK_CELL_FLAGS.CANCEL (leAt b 4 2)) then u.cancelTask q else u) :=
  (exec_timedWaitEntry_of_reached hHead hReached).trans (congrArg _ (State.released_pop (s := s.start) hs _))

end

/-! ### A register file that no run reaches -/

theorem getAt_mem {α : Type} (d : α) : ∀ {l : List α} {i : Nat}, i < l.length → getAt d l i ∈ l
  | [], _, h => absurd h (Nat.not_lt_zero _)
  | _ :: _, 0, _ => List.mem_cons_self
  | _ :: _, _ + 1, h => List.mem_cons_of_mem _ (getAt_mem d (Nat.lt_of_succ_lt_succ h))

/-- Whichever master ID the Deckle's own requests carry, it is one of the list. -/
theorem deckleMaster_mem : deckleMaster ∈ masterIds := getAt_mem _ (Nat.mod_lt _ (by decide))

/-- A pop whose read is charged to master m; State.pop charges it to the Deckle's, which is open. -/
def State.popAs (s : State) (m q : Nat) : State :=
  (s.regulate m 8 (q / 16384) (s.ringBase q + 64 * (s.qHead q % s.ringSize q)) 64).setF (DCK_QUEUE_HEAD.COUNT q) ((s.qHead q + 1) % 2 ^ 32)

theorem State.pop_eq_popAs (s : State) (q : Nat) : s.pop q = s.popAs deckleMaster q := rfl

/-- A queue past the 32,768 of the Deckle: the registers that the address map's arithmetic gives it stand above the Headbox's. -/
def strayQueue : Nat := 2 ^ 20

/-- An object that holds it, and cell 0. -/
def strayObj : Obj := ⟨1, 0, 0, 0, 0, 0, 0, strayQueue, 1, 0, 1, 0, 0, 0, 0, 0, 0, 0, [], false⟩

/-- A WAIT on cell 0 with ON_CANCEL and TARGET 0. -/
def strayWait : List Byte := [0xE1, 0, 1] ++ List.replicate 61 0

/-- That WAIT at the head of that queue, and a register file out of its canonical form: HBX_STATUS_0_0 stands before the flags of cell 0, whose
address is lower, and hides their CANCEL. The charge of the pop clears OVER, which takes HBX_STATUS_0_0 off the list. -/
def strayState : State :=
  { State.reset with
    regs := [(MGT_VARIANT.addr, ins 0 MGT_VARIANT.SITE_MAP.hi MGT_VARIANT.SITE_MAP.lo 1),
      (HBX_STATUS.addr 0 0, ins 0 (HBX_STATUS.OVER 0 0).hi (HBX_STATUS.OVER 0 0).lo 1),
      (DCK_CELL_FLAGS.addr 0, ins 0 (DCK_CELL_FLAGS.CANCEL 0).hi (DCK_CELL_FLAGS.CANCEL 0).lo 1),
      (DCK_QUEUE_CFG.addr strayQueue, ins 0 (DCK_QUEUE_CFG.EN 0).hi (DCK_QUEUE_CFG.EN 0).lo 1),
      (DCK_QUEUE_RING_HI.addr strayQueue, 0x10), (DCK_QUEUE_TAIL.addr strayQueue, 1)]
    hbxCopy := some (0, ins 0 31 31 1, 0, 0)
    mem := [(dramBase, 0xE1), (dramBase + 2, 1)]
    objs := [strayObj]
    queues := [(strayQueue, { QState.init with releasing := true })] }

theorem strayState_head : strayState.headControl strayQueue 0xE1 = some (strayObj, strayWait) := by decide +kernel

theorem strayState_hides_cancel : strayState.flag (DCK_CELL_FLAGS.CANCEL (leAt strayWait 4 2)) = false := by decide +kernel

/-- Whichever master the read is charged to: the wait passes, and it cancels the rest of its task, which ends the release under way. -/
theorem strayState_cancels : ∀ m ∈ masterIds, let t := strayState.start.popAs m strayQueue
    t.cellReached (leAt strayWait 4 2) (leAt strayWait 8 4) = true
      ∧ ((t.released strayQueue (leAt strayWait 4 2) (bitN (leAt strayWait 2 2) 0)).q strayQueue).releasing = false
      ∧ ((t.setQ strayQueue { t.q strayQueue with wait := none }).q strayQueue).releasing = true := by
  decide +kernel

/-- Refutes O13: the clause of a WAIT that passes reads CANCEL before the pop, the model after it (R219, R237). In strayState, whose register file
is not canonical and whose queue the Deckle does not have, the charge of the pop uncovers a CANCEL: the model cancels the rest of the task where
the statement goes on. With a canonical register file the clause holds (exec_waitEntry_of_canonical, exec_timedWaitEntry_of_canonical). -/
theorem not_controlEntries : ¬ Obligations.ControlEntries := by
  unfold Obligations.ControlEntries
  intro h
  obtain ⟨hReached, hCancelled, hReleasing⟩ := strayState_cancels deckleMaster deckleMaster_mem
  rw [← State.pop_eq_popAs] at hReached hCancelled hReleasing
  obtain ⟨_, _, _, hPasses, _⟩ := h strayState strayQueue strayObj strayWait
  have hClause := (hPasses _ hReached rfl).1 strayState_head
  rw [exec_waitEntry_of_reached strayState_head hReached, strayState_hides_cancel, Bool.and_false] at hClause
  have hSame := congrArg (fun t : State => (t.q strayQueue).releasing) (Host.Outcome.next.inj hClause)
  exact absurd (hCancelled.symm.trans (hSame.trans hReleasing)) Bool.noConfusion
end Sys2Proof.Machine

/-! # The rings of the page movers (09_memory_tiers.md) -/

namespace Sys2Proof.Machine
open Sys2Proof

/-! ## Pushes on rings (R217, R218) -/

section
variable {s : State} {en : Bool} {size v : Nat} {head tail : Fld} {full : Option Fld}

theorem State.ringPush_of_nothing (h : en = false ∨ (v + 2 ^ 32 - s.fld tail) % 2 ^ 32 = 0) : s.ringPush en size head tail full v = s :=
  if_pos (by simpa using h)

section
variable (hOn : en = true) (hSome : (v + 2 ^ 32 - s.fld tail) % 2 ^ 32 ≠ 0)
include hOn hSome

theorem State.ringPush_of_fits (h : (s.fld tail + 2 ^ 32 - s.fld head) % 2 ^ 32 + (v + 2 ^ 32 - s.fld tail) % 2 ^ 32 ≤ size) :
    s.ringPush en size head tail full v = s.setF tail v :=
  (if_neg (by simpa [hOn] using hSome)).trans (if_pos h)

theorem State.ringPush_of_full (h : ¬ (s.fld tail + 2 ^ 32 - s.fld head) % 2 ^ 32 + (v + 2 ^ 32 - s.fld tail) % 2 ^ 32 ≤ size) :
    s.ringPush en size head tail full v = full.elim s (fun f => s.setF f 1) := by
  refine (if_neg (by simpa [hOn] using hSome)).trans ((if_neg h).trans ?_)
  cases full <;> rfl

end

/-- On a ring without FULL_REJ a push that does not land changes nothing. -/
theorem State.ringPush_of_refused (h : en = false ∨ (v + 2 ^ 32 - s.fld tail) % 2 ^ 32 = 0
      ∨ ¬ (s.fld tail + 2 ^ 32 - s.fld head) % 2 ^ 32 + (v + 2 ^ 32 - s.fld tail) % 2 ^ 32 ≤ size) :
    s.ringPush en size head tail none v = s := by
  by_cases hNothing : en = false ∨ (v + 2 ^ 32 - s.fld tail) % 2 ^ 32 = 0
  · exact State.ringPush_of_nothing hNothing
  · obtain ⟨hOn, hSome⟩ := not_or.1 hNothing
    exact State.ringPush_of_full (by simpa using hOn) hSome ((h.resolve_left (fun hOff => hNothing (.inl hOff))).resolve_left hSome)

end

/-! ## The page movers' rings (R217–R220, R332, R358) -/

section
variable {s : State} {m i r v : Nat} {w : Word}

theorem exec_pmvDoorbell (hm : s.mayWrite m (MEM_PMV_RING_DB.addr i r) = true) : exec (.pmvDoorbell m i r v) s = .next (s.start.pmvBell i r v) :=
  State.write_of_mayWrite hm

theorem exec_pmvRingCfgWrite (hm : s.mayWrite m (MEM_PMV_RING_CFG.addr i r) = true) :
    exec (.pmvRingCfgWrite m i r v) s = .next (s.start.pmvCfg i r (BitVec.ofNat 32 v)) :=
  State.write_of_mayWrite hm

theorem State.pmvCfg_of_enable (hOff : s.flag (MEM_PMV_RING_CFG.EN i r) = false) (hEn : bits w 31 31 = 1) : s.pmvCfg i r w =
    if s.pmvCfgErr i r = 0 then
      (((s.setF (MEM_PMV_RING_CFG.EN i r) 1).setF (MEM_PMV_RING_HEAD.COUNT i r) 0).setF (MEM_PMV_RING_TAIL.COUNT i r) 0).setF (MEM_PMV_RING_CFG.CFG_ERR i r) 0
    else s.setF (MEM_PMV_RING_CFG.CFG_ERR i r) (s.pmvCfgErr i r) :=
  if_pos (by rw [hOff, hEn]; rfl)

theorem State.pmvCfg_of_disable (hOn : s.flag (MEM_PMV_RING_CFG.EN i r) = true) (hEn : bits w 31 31 = 0) : s.pmvCfg i r w =
    if s.fld (MEM_PMV_RING_HEAD.COUNT i r) = s.fld (MEM_PMV_RING_TAIL.COUNT i r) ∧ (!(s.mover i).moves.any (fun x => x.ring == r)) = true then
      (s.setF (MEM_PMV_RING_CFG.EN i r) 0).setF (MEM_PMV_RING_CFG.CFG_ERR i r) 0
    else s.setF (MEM_PMV_RING_CFG.CFG_ERR i r) 4 :=
  (if_neg (by simp [hOn])).trans (if_pos (by rw [hOn, hEn]; rfl))

end

/-- Settles O30: a doorbell is a push on a ring that has FULL_REJ; a configuration write by EN before and after. -/
theorem moverRings : Obligations.MoverRings := by
  unfold Obligations.MoverRings
  intro s m i r v
  refine ⟨fun hm => ?doorbell, fun hm => ?configuration⟩
  case doorbell =>
    rw [exec_pmvDoorbell hm]
    exact ⟨fun hOn hSome hFits => congrArg _ (State.ringPush_of_fits hOn hSome hFits),
      fun hOn hSome hFull => congrArg _ (State.ringPush_of_full hOn hSome (Nat.not_le.2 hFull)),
      fun hNothing => congrArg _ (State.ringPush_of_nothing hNothing)⟩
  case configuration =>
    rw [exec_pmvRingCfgWrite hm]
    refine ⟨fun hOff hEn => ⟨fun hGood => congrArg _ ?enabled, fun hBad => congrArg _ ?refused⟩,
      fun hOn hEn => ⟨fun hIdle => congrArg _ ?disabled, fun hBusy => congrArg _ ?busy⟩⟩
    case enabled => exact (State.pmvCfg_of_enable (s := s.start) hOff hEn).trans (if_pos hGood)
    case refused => exact (State.pmvCfg_of_enable (s := s.start) hOff hEn).trans (if_neg hBad)
    case disabled => exact (State.pmvCfg_of_disable (s := s.start) hOn hEn).trans (if_pos ⟨hIdle.1, by rw [Bool.not_eq_true']; exact hIdle.2⟩)
    case busy =>
      refine (State.pmvCfg_of_disable (s := s.start) hOn hEn).trans (if_neg fun hIdle => ?_)
      obtain ⟨hEmpty, hNoMove⟩ := hIdle
      rcases hBusy with hFilled | hMoves
      · exact hFilled hEmpty
      · rw [Bool.not_eq_true'] at hNoMove
        exact absurd (hMoves.symm.trans hNoMove) Bool.noConfusion

end Sys2Proof.Machine

/-! # Ethernet transmission (16_time_and_network.md) -/

namespace Sys2Proof.Machine
open Sys2Proof

/-! ## Doorbells and gate lists (R218, R540, R544, R545, R556) -/

section
variable {s : State} {m n q v : Nat}

theorem exec_ethDoorbell_tx (hm : s.mayWrite m (ETH_TXQ_DB.addr n q) = true) : exec (.ethDoorbell m n q 0 v) s = .next (s.start.ethBell n q 0 v) :=
  State.write_of_mayWrite (s := s) hm

theorem exec_ethDoorbell_rx (hm : s.mayWrite m (ETH_RXQ_DB.addr n q) = true) : exec (.ethDoorbell m n q 1 v) s = .next (s.start.ethBell n q 1 v) :=
  State.write_of_mayWrite (s := s) hm

theorem State.ethBell_tx : s.ethBell n q 0 v =
    (s.ringPush (s.flag (ETH_Q_CFG.TX_EN n q) && !s.flag (ETH_Q_CFG.TILTH n q)) (2 ^ s.fld (ETH_TXQ_LO.LOG2_SIZE n q)) (ETH_TXQ_HEAD.COUNT n q)
      (ETH_TXQ_TAIL.COUNT n q) none v).fetchHead n q := if_pos rfl

theorem State.ethBell_rx : s.ethBell n q 1 v =
    s.ringPush (s.flag (ETH_Q_CFG.RX_EN n q)) (2 ^ s.fld (ETH_RXQ_LO.LOG2_SIZE n q)) (ETH_RXQ_HEAD.COUNT n q) (ETH_RXQ_TAIL.COUNT n q) none v :=
  if_neg Nat.one_ne_zero

theorem exec_gateChangeRequest (hm : s.mayWrite m (ETH_GATE_CTRL.addr n) = true) :
    exec (.gateChangeRequest m n v) s = .next (s.start.gateCtrl n (ins (BitVec.ofNat 32 v) 30 30 1)) :=
  State.write_of_mayWrite hm

/-- Why the administrative list cannot take effect (R544; a list of more than 256 entries as log 37 decides). -/
theorem State.gateBad_iff {len : Nat} : s.gateBad n len = true ↔ len = 0 ∨ 256 < len ∨ s.fld (ETH_GATE_CYCLE.CYCLE_NS n) = 0
    ∨ (List.range len).any (fun e => s.fld (ETH_GCL.INTERVAL n e) == 0) = true := by
  simp only [State.gateBad, Bool.or_eq_true, beq_iff_eq, decide_eq_true_eq, or_assoc]

/-- The fields of a write of GATE_CTRL, taken. -/
def State.takeGateCtrl (s : State) (n : Nat) (w : Word) : State :=
  ((s.setF (ETH_GATE_CTRL.GATE_EN n) (bits w 31 31)).setF (ETH_GATE_CTRL.LIST_LEN n) (bits w 8 0)).setF (ETH_GATE_CTRL.REJECT n)
    (if bits w 29 29 = 1 then 0 else s.fld (ETH_GATE_CTRL.REJECT n))

/-- The first start of a cycle at least 1,000 ns from now. -/
def State.gateStart (s : State) (n : Nat) : Nat :=
  let cyc := s.fld (ETH_GATE_CYCLE.CYCLE_NS n)
  let base := s.fld (ETH_GATE_BASE_LO.BASE n) + s.fld (ETH_GATE_BASE_HI.BASE n) * 2 ^ 32
  if s.now + 1000 ≤ base then base else base + ceilDiv (s.now + 1000 - base) cyc * cyc

/-- A change of the gate list that waits for its time. -/
def State.askGateChange (s : State) (n at_ cyc : Nat) : State :=
  (s.wr (ETH_GATE_CTRL.addr n) (ins (s.rd (ETH_GATE_CTRL.addr n)) 30 30 1)).setMac n { s.mac n with change := some (at_, cyc) }

section
variable {w : Word} (hChange : bits w 30 30 = 1)
include hChange

theorem State.gateCtrl_of_bad (hBad : s.gateBad n (bits w 8 0) = true) : s.gateCtrl n w = s.setF (ETH_GATE_CTRL.REJECT n) 1 :=
  (if_neg (by omega)).trans (if_pos hBad)

theorem State.gateCtrl_of_good (hGood : ¬ s.gateBad n (bits w 8 0) = true) :
    s.gateCtrl n w = (s.takeGateCtrl n w).askGateChange n (s.gateStart n) (s.fld (ETH_GATE_CYCLE.CYCLE_NS n)) :=
  (if_neg (by omega)).trans (if_neg hGood)

end

theorem exec_gateListChange {c : Nat × Nat} (hChange : (s.mac n).change = some c) (hUp : s.ethUp n = true) (hDue : c.1 ≤ s.now) :
    exec (.gateListChange n) s = .next (s.start.gateChange n c) := by
  show execGateListChange n s = _
  simp only [execGateListChange, hChange]
  exact answer_of_true (by simp [hUp, hDue])

theorem exec_gateEntryAdvance (hUp : s.ethUp n = true) (hEntry : (s.mac n).entry ≠ (s.mac n).entryAt s.now)
    (hNotDue : ∀ c, (s.mac n).change = some c → s.now < c.1) :
    exec (.gateEntryAdvance n) s = .next (s.start.setMac n { s.mac n with entry := (s.mac n).entryAt s.now }) := by
  refine answer_of_true ?_
  cases hChange : (s.mac n).change with
  | none => simp [hUp, hEntry]
  | some c => simp [hUp, hEntry, hNotDue c hChange]

end

/-! ## Transmission and its end (R537, R540, R543, R547) -/

section
variable {s : State} {n q : Nat}

section
variable {k : Nat} (hIdle : (s.start.ethFetch n).lineIdle n = true) (hChosen : (s.start.ethFetch n).chosen n = some k)
include hIdle hChosen

theorem exec_ethFrameTransmit_of_ring {h : EthFetch} (hHead : (s.start.ethFetch n).ethHead n k = some (.ring h)) :
    exec (.ethFrameTransmit n) s = .next ((s.start.ethFetch n).sendRing n k h) := by
  show execEthFrameTransmit n s = _
  simp only [execEthFrameTransmit, hIdle, hChosen, hHead]
  rfl

theorem exec_ethFrameTransmit_of_notice {f : List Byte} (hHead : (s.start.ethFetch n).ethHead n k = some (.notice f)) :
    let t := s.start.ethFetch n
    exec (.ethFrameTransmit n) s =
      .next ((t.wire n f).setMac n { t.mac n with notices := (t.mac n).notices.tail, tx := some ⟨k, false, false, t.txStamp n, none⟩ }) := by
  show execEthFrameTransmit n s = _
  simp only [execEthFrameTransmit, hIdle, hChosen, hHead]
  rfl

end

theorem Mac.onLine_of_queue {x : Mac} {f : TxFrame} (hLine : x.tx = some f) (hQueue : f.queue = q) : x.onLine q = some f := by
  simp [Mac.onLine, hLine, hQueue]

theorem Mac.onLine_of_other {x : Mac} (h : ∀ f, x.tx = some f → f.queue ≠ q) : x.onLine q = none := by
  simpa [Mac.onLine, Option.filter_eq_none_iff] using h

section
variable {f : TxFrame} (hLine : ((s.start.ethFetch n).mac n).onLine q = some f)
include hLine

theorem exec_ethTxComplete_of_line (hFree : f.ring = false ∨ (s.start.ethFetch n).filling ((s.start.ethFetch n).txDescAddr n q) 32 = false) :
    let t := s.start.ethFetch n
    let u := t.setMac n { t.mac n with tx := none }
    exec (.ethTxComplete n q) s = .next (if f.ring then u.writeBack n q 0 (if f.tsReq then some (f.stamp % 2 ^ 32) else none) f.prov else u) := by
  show execEthTxComplete n q s = _
  simp only [execEthTxComplete, hLine]
  exact if_neg (by rcases hFree with h | h <;> simp [h])

theorem exec_ethTxComplete_of_line_filling (hRing : f.ring = true)
    (hFill : (s.start.ethFetch n).filling ((s.start.ethFetch n).txDescAddr n q) 32 = true) :
    exec (.ethTxComplete n q) s = .next (s.start.say .waits) := by
  show execEthTxComplete n q s = _
  simp only [execEthTxComplete, hLine]
  exact if_pos (by simp [hRing, hFill])

end

section
variable (hLine : ((s.start.ethFetch n).mac n).onLine q = none) (hUp : (s.start.ethFetch n).ethUp n = true)
  (hPosted : (s.start.ethFetch n).txPosted n q = true) (hRefused : (s.start.ethFetch n).refusal n q ≠ 0)
include hLine hUp hPosted hRefused

theorem exec_ethTxComplete_of_refused (hFree : (s.start.ethFetch n).filling ((s.start.ethFetch n).txDescAddr n q) 32 = false) :
    exec (.ethTxComplete n q) s = .next ((s.start.ethFetch n).writeBack n q ((s.start.ethFetch n).refusal n q) none none) := by
  show execEthTxComplete n q s = _
  simp only [execEthTxComplete, hLine]
  exact (if_neg (by simp [hFree])).trans (answer_of_true (by simp [hUp, hPosted, hRefused]))

theorem exec_ethTxComplete_of_refused_filling (hFill : (s.start.ethFetch n).filling ((s.start.ethFetch n).txDescAddr n q) 32 = true) :
    exec (.ethTxComplete n q) s = .next (s.start.say .waits) := by
  show execEthTxComplete n q s = _
  simp only [execEthTxComplete, hLine]
  exact if_pos (by simp [hUp, hPosted, hRefused, hFill])

end

section
variable {h : EthFetch} (hHead : ((s.start.ethFetch n).mac n).head q = some h) (hGood : h.status = 0)
  (hLate : (s.start.ethFetch n).ltLate n h.desc = true) (hLink : (s.start.ethFetch n).ethLink n = true)
  (hPosted : (s.start.ethFetch n).txPosted n q = true) (hLine : ((s.start.ethFetch n).mac n).onLine q = none)
  (hPolicy : (s.start.ethFetch n).flag (ETH_Q_CFG.LATE_POLICY n q) = true)
include hHead hGood hLate hLink hPosted hLine hPolicy

theorem exec_lateDrop_of_late (hFree : (s.start.ethFetch n).filling ((s.start.ethFetch n).txDescAddr n q) 32 = false) :
    exec (.lateDrop n q) s = .next (((s.start.ethFetch n).bump (ETH_CNT.COUNT n 6) 1).writeBack n q 1 none none) :=
  (if_neg (by simp [hFree])).trans (answer_of_true (by simp [hHead, hGood, hLate, hLink, hPosted, hLine, hPolicy]))

theorem exec_lateDrop_of_filling (hFill : (s.start.ethFetch n).filling ((s.start.ethFetch n).txDescAddr n q) 32 = true) :
    exec (.lateDrop n q) s = .next (s.start.say .waits) :=
  if_pos (by simp [hHead, hGood, hLate, hLink, hPosted, hLine, hPolicy, hFill])

end
end

/-- Settles O43: a doorbell is a push on a ring without FULL_REJ; a change request by whether its list can take effect (one of more than 256
entries cannot, log 37); gates, transmission, its end and late heads by their commands' rules, once the heads have been read. -/
theorem ethernetTransmits : Obligations.EthernetTransmits := by
  unfold Obligations.EthernetTransmits
  intro s m n q v
  refine ⟨fun hm => ?txDoorbell, fun hm => ?rxDoorbell, fun hm => ?gateRequest, fun c hChange hUp hDue => exec_gateListChange hChange hUp hDue,
    exec_gateEntryAdvance, fun k hIdle hChosen => ?transmit, fun f hLine hQueue => ?sent, fun hOther hUp hPosted hRefused => ?refused,
    fun h hHead hGood hLate hLink hPosted hOther hPolicy => ?late⟩
  case txDoorbell =>
    rw [exec_ethDoorbell_tx hm, State.ethBell_tx]
    refine ⟨fun hOn hSome hFits => congrArg _ (congrArg (fun t : State => t.fetchHead n q) (State.ringPush_of_fits ?on hSome hFits)),
      fun hNot => congrArg _ (congrArg (fun t : State => t.fetchHead n q) (State.ringPush_of_refused ?off))⟩
    case on => simp [hOn]
    case off => exact hNot.imp_left fun hOff => by simpa using hOff
  case rxDoorbell =>
    rw [exec_ethDoorbell_rx hm, State.ethBell_rx]
    exact ⟨fun hOn hSome hFits => congrArg _ (State.ringPush_of_fits (s := s.start) hOn hSome hFits),
      fun hNot => congrArg _ (State.ringPush_of_refused (s := s.start) (hNot.imp_left Bool.eq_false_of_not_eq_true))⟩
  case gateRequest =>
    rw [exec_gateChangeRequest hm]
    have hChange : bits (ins (BitVec.ofNat 32 v) 30 30 1) 30 30 = 1 := bits_ins_same _ _ _ _ (Nat.le_refl 30) (by omega)
    exact ⟨fun hBad => congrArg _ (State.gateCtrl_of_bad hChange (State.gateBad_iff.2 hBad)),
      fun hGood => congrArg _ (State.gateCtrl_of_good hChange (fun hBad => hGood (State.gateBad_iff.1 hBad)))⟩
  case transmit =>
    exact ⟨fun h hHead => exec_ethFrameTransmit_of_ring hIdle hChosen hHead, fun f hHead => exec_ethFrameTransmit_of_notice hIdle hChosen hHead⟩
  case sent =>
    have hOn := Mac.onLine_of_queue hLine hQueue
    refine ⟨fun hRing => ?_, fun hRing hFree => ?_, fun hRing hFill => exec_ethTxComplete_of_line_filling hOn hRing hFill⟩
    · exact (exec_ethTxComplete_of_line hOn (.inl hRing)).trans (congrArg _ (if_neg (by simp [hRing])))
    · exact (exec_ethTxComplete_of_line hOn (.inr hFree)).trans (congrArg _ (if_pos hRing))
  case refused =>
    have hNone := Mac.onLine_of_other hOther
    exact ⟨exec_ethTxComplete_of_refused hNone hUp hPosted hRefused, exec_ethTxComplete_of_refused_filling hNone hUp hPosted hRefused⟩
  case late =>
    have hNone := Mac.onLine_of_other hOther
    exact ⟨exec_lateDrop_of_late hHead hGood hLate hLink hPosted hNone hPolicy,
      exec_lateDrop_of_filling hHead hGood hLate hLink hPosted hNone hPolicy⟩

end Sys2Proof.Machine

/-! # The Quire's command engine and its commands (08_quire_sequence_state.md) -/

namespace Sys2Proof.Machine
open Sys2Proof

/-! ## Commands sent to the engine (R302, R305, R334) -/

/-- The commands that a write of QUI_CMD by master m starts in partition p, with their codes (R303). -/
def quireCommands (m p : Nat) : List (Instr × Nat) :=
  [(.quiAdmit m p, 0x01), (.admitStream m p, 0x02), (.quiRelease m p, 0x03), (.quiFork m p, 0x04), (.quiMap m p, 0x05), (.quiTruncate m p, 0x06),
    (.quiRetain m p, 0x07), (.quiDrop m p, 0x08), (.batchOpen m p, 0x10), (.batchClose m p, 0x11), (.quiJoin m p, 0x12), (.quiLeave m p, 0x13),
    (.stepBegin m p, 0x14), (.stepCommit m p, 0x15), (.stepAbort m p, 0x16), (.quiExport m p, 0x20), (.quiImport m p, 0x21)]

/-- A command of the model is a write of op to partition p's QUI_CMD by master m. -/
def QuireSends (c : Instr) (m p op : Nat) : Prop := ∀ s : State, exec c s = s.write m (QUI_CMD.addr p) (s.start.quiGo p op)

theorem quireSends_of_mem {m p : Nat} : ∀ x ∈ quireCommands m p, QuireSends x.1 m p x.2 := by
  simp only [quireCommands, List.forall_mem_cons, List.not_mem_nil, false_implies, implies_true, and_true]
  and_intros <;> exact fun _ => rfl

/-- The engine of partition p taken: what it keeps of a command until its end, BUSY set. -/
def State.quiTake (s : State) (p : Nat) (c : QuiCmd) : State := (s.setQuiCmd p (some c)).setF (QUI_CMD_STATUS.BUSY p) 1

section
variable {s : State} {m p op : Nat} {c : Instr}

theorem State.quiGo_of_busy (h : (s.quiCmd p).isSome = true) : s.quiGo p op = s.setF (QUI_CMD_STATUS.CMD_REJECT p) 1 := if_pos h

section
variable (hIdle : s.quiCmd p = none)
include hIdle

theorem State.quiGo_of_filling (h : s.quiWaits p op = true) :
    s.quiGo p op = s.quiTake p ⟨op, 0, 0, 0, false, some ((List.range 6).map (s.arg p))⟩ :=
  (if_neg (by simp [hIdle])).trans (if_pos h)

theorem State.quiGo_of_effect {r : QuiRes} (h : s.quiWaits p op = false) (hr : (s.finishCows p).quiEffect p op = r) :
    s.quiGo p op = r.st.quiTake p ⟨op, r.code, r.r0, r.r1, false, none⟩ := by
  subst hr
  exact (if_neg (by simp [hIdle])).trans (if_neg (by simp [h]))

end

section
variable (hc : QuireSends c m p op) (hm : s.mayWrite m (QUI_CMD.addr p) = true)
include hc hm

theorem QuireSends.exec_eq : exec c s = .next (s.start.quiGo p op) := (hc s).trans (State.write_of_mayWrite hm)

theorem QuireSends.exec_of_effect {r : QuiRes} (hIdle : s.quiCmd p = none) (h : s.start.quiWaits p op = false)
    (hr : (s.start.finishCows p).quiEffect p op = r) : exec c s = .next (r.st.quiTake p ⟨op, r.code, r.r0, r.r1, false, none⟩) :=
  (hc.exec_eq hm).trans (congrArg _ (State.quiGo_of_effect (s := s.start) hIdle h hr))

end

/-! ## The end of a command and the armed commit (R295, R304, R305, R311) -/

theorem State.quiActed_of {c : QuiCmd} (hc : s.quiCmd p = some c) (hHeld : c.held = none) (hCows : ∀ x ∈ s.cows, x.part = p → 65536 ≤ x.cut) :
    s.quiActed p = true := by
  have hNone : s.cows.any (fun x => x.part == p && decide (x.cut < 65536)) = false := by simpa using hCows
  simp [State.quiActed, hc, hHeld, hNone]

/-- The engine of partition p free, BUSY cleared. -/
def State.quiFree (s : State) (p : Nat) : State := (s.setQuiCmd p none).setF (QUI_CMD_STATUS.BUSY p) 0

/-- The results of a command in the partition's registers, DONE set. -/
def State.quiPublish (s : State) (p : Nat) (c : QuiCmd) : State :=
  ((((s.setF (QUI_CMD_STATUS.LAST_OP p) c.op).setF (QUI_CMD_STATUS.CODE p) c.code).setF (QUI_RESULT.VALUE p 0) c.r0).setF (QUI_RESULT.VALUE p 1) c.r1).setF
    (QUI_CMD_STATUS.DONE p) 1

theorem exec_quireCommandDone {c : QuiCmd} (hc : s.quiCmd p = some c) (hActed : s.quiActed p = true) :
    exec (.quireCommandDone p) s = .next (if c.armed then s.start.quiFree p else
      ((s.start.quiFree p).quiPublish p c).irqMsg (QUI_IRQ.EN p) (QUI_IRQ.ERR_ONLY p) (QUI_IRQ.HART p) (QUI_IRQ.EIID p)
        (c.code != qDone && c.code != qPinned)) := by
  show execQuireCommandDone p s = _
  cases hArmed : c.armed <;>
    simp only [execQuireCommandDone, hc, hActed, hArmed, Bool.not_true, Bool.false_eq_true, if_true, if_false, State.quiFree, State.quiPublish]

theorem exec_armedCommit {b c k : Nat} (hArmed : (s.batch b).armed = some (c, k)) (hStep : (s.batch b).stepOpen = true)
    (hIdle : s.quiCmd (s.batch b).part = none) (hReached : s.cellReached c k = true) (hFree : s.stepWaits b = false) :
    exec (.armedCommit b) s = .next (((s.start.finishCows (s.batch b).part).closeStep b (!s.flag (DCK_CELL_FLAGS.CANCEL c))).quiTake (s.batch b).part
      ⟨if s.flag (DCK_CELL_FLAGS.CANCEL c) then 0x16 else 0x15, qDone, (s.batch b).rows.length, 0, true, none⟩) := by
  show execArmedCommit b s = _
  simp only [execArmedCommit, hArmed]
  rw [answer_of_true (by simp [hStep, hIdle, hReached, hFree])]
  cases s.flag (DCK_CELL_FLAGS.CANCEL c) <;> rfl

end

/-- Settles O26: a command by whether the engine is idle and whether its memory is being filled (held with its arguments, log 83); its end and the
armed commit, after the partition's copies in progress (log 83), by their rules. -/
theorem quireEngine : Obligations.QuireEngine := by
  unfold Obligations.QuireEngine
  intro s m p
  refine ⟨fun hm hBusy c hc => ?rejected, fun hm hIdle c op hc hFill => ?held, fun c hc hHeld hCows => ?ended,
    fun b c k hArmed hStep hIdle hReached hFree => exec_armedCommit hArmed hStep hIdle hReached hFree⟩
  case rejected =>
    obtain ⟨op, hMem⟩ : ∃ op, (c, op) ∈ quireCommands m p := by simpa [quireCommands, exists_or] using hc
    have hSends : QuireSends c m p op := quireSends_of_mem _ hMem
    exact (hSends.exec_eq hm).trans (congrArg _ (State.quiGo_of_busy (s := s.start) hBusy))
  case held =>
    have hSends : QuireSends c m p op := quireSends_of_mem _ hc
    exact (hSends.exec_eq hm).trans (congrArg _ (State.quiGo_of_filling (s := s.start) hIdle hFill))
  case ended =>
    have hDone := exec_quireCommandDone hc (State.quiActed_of hc hHeld hCows)
    exact ⟨fun hArmed => hDone.trans (congrArg _ (if_pos hArmed)), fun hOwn => hDone.trans (congrArg _ (if_neg (by simp [hOwn])))⟩

/-! ## Commands on slots and sheets, where they succeed (R278, R287–R289, R291) -/

section
variable {s : State} {p n : Nat} {o : Obj} {e : Slot}

theorem State.quiAdmit_of_slot (hObj : s.quiObj p (bitsN (s.arg p 0) 15 0) = some o)
    (hArgs : ¬ (bitsN (s.arg p 0) 17 16 = 3 ∨ bitsN (s.arg p 1) 10 0 = 0 ∨ 1024 < bitsN (s.arg p 1) 10 0 ∨ 12 < bitsN (s.arg p 1) 19 16 ∨ s.arg p 2 = 0
      ∨ 65536 < s.arg p 2 ∨ !tableOk o (s.argAddr p 3 4) (bitsN (s.arg p 1) 10 0) (s.arg p 2)))
    (hSlot : s.admitSlot o (bitsN (s.arg p 0) 17 16) = some n) :
    s.quiAdmit p = ⟨qDone, n, 0, (s.zeroTable (s.argAddr p 3 4) (bitsN (s.arg p 1) 10 0) (s.arg p 2)).setSlot n
      (kvSlotEntry o (bitsN (s.arg p 1) 10 0) (bitsN (s.arg p 1) 19 16) (s.arg p 2) (s.argAddr p 3 4) 0)⟩ := by
  simp only [State.quiAdmit, hObj, if_neg hArgs, hSlot]

theorem State.quiAdmitStream_of_slot (hObj : s.quiObj p (bitsN (s.arg p 0) 15 0) = some o)
    (hArgs : ¬ (bitsN (s.arg p 0) 17 16 = 3 ∨ bitsN (s.arg p 1) 13 0 = 0 ∨ 8192 < bitsN (s.arg p 1) 13 0 ∨ bitsN (s.arg p 1) 22 16 = 0
      ∨ 64 < bitsN (s.arg p 1) 22 16 ∨ bitsN (s.arg p 1) 25 24 = 3))
    (hSlot : s.admitSlot o (bitsN (s.arg p 0) 17 16) = some n) :
    s.quiAdmitStream p = ⟨qDone, n, 0, s.setSlot n { Slot.free with
      state := 1, stream := true, handle := o.handle, part := p, layers := bitsN (s.arg p 1) 13 0, log2Tps := bitsN (s.arg p 1) 22 16,
      fmt := bitsN (s.arg p 1) 25 24, maxPages := s.arg p 2 }⟩ := by
  simp only [State.quiAdmitStream, hObj, if_neg hArgs, hSlot]

section
variable (hSlot : s.quiSlot p (bitsN (s.arg p 0) 9 0) = some e)
include hSlot

theorem State.quiRelease_of_out (hOut : e.inStep = false) : s.quiRelease p = ⟨qDone, 0, 0, s.releaseSlot (bitsN (s.arg p 0) 9 0)⟩ := by
  simp only [State.quiRelease, hSlot, hOut, Bool.false_eq_true, if_false]

section
variable (hKv : e.stream = false)
include hKv

theorem State.quiFork_of_slot (hObj : s.obj e.handle = some o) (hHome : bitsN (s.arg p 0) 17 16 ≠ 3)
    (hArgs : ¬ (e.length < s.arg p 1 ∨ !tableOk o (s.argAddr p 3 4) e.layers e.maxPages)) (hNew : s.admitSlot o (bitsN (s.arg p 0) 17 16) = some n) :
    let new := kvSlotEntry o e.layers e.log2Tps e.maxPages (s.argAddr p 3 4) (s.arg p 1)
    let r := ((s.zeroTable (s.argAddr p 3 4) e.layers e.maxPages).setSlot n new).sharePages p e new (Nat.min e.maxPages (e.pagesFor (s.arg p 1)))
    s.quiFork p = ⟨qDone, n, r.2, r.1⟩ := by
  simp only [State.quiFork, hSlot, hObj, if_neg hHome, hKv, Bool.false_eq_true, if_false, if_neg hArgs, hNew]

theorem State.quiMap_of_held (hArgs : ¬ (e.layers ≤ bitsN (s.arg p 1) 9 0 ∨ e.maxPages ≤ s.arg p 2))
    (hUnmapped : s.mapped (e.entryAddr (bitsN (s.arg p 1) 9 0) (bitsN (s.arg p 1) 16 16) (s.arg p 2)) = none) (hNamed : bitN (s.arg p 3) 31 = false)
    (hPool : s.inPool p (bitsN (s.arg p 3) 21 0) = true) (hHeld : s.refs p (bitsN (s.arg p 3) 21 0) ≠ 0) :
    s.quiMap p = ⟨qDone, bitsN (s.arg p 3) 21 0, 0,
      (s.writeEntry (e.entryAddr (bitsN (s.arg p 1) 9 0) (bitsN (s.arg p 1) 16 16) (s.arg p 2)) (some (bitsN (s.arg p 3) 21 0))).incRef p
        (bitsN (s.arg p 3) 21 0)⟩ := by
  have hFound : (!s.inPool p (bitsN (s.arg p 3) 21 0) || s.refs p (bitsN (s.arg p 3) 21 0) == 0) = false := by simp [hPool, hHeld]
  simp only [State.quiMap, hSlot, hKv, Bool.false_eq_true, if_false, if_neg hArgs, hUnmapped, Option.isSome_none, hNamed, hFound]

/-- The pages beyond the new length unmapped: the state, and how many were mapped (R288). -/
def State.unmapBeyond (s : State) (p new : Nat) (e : Slot) : State × Nat := s.unmapAll p (e.entries (e.pagesFor new) e.maxPages)

/-- Then the page that keeps a part cut, of each layer; none where a copy finds no sheet (R288). -/
def State.cutBeyond (s : State) (p n new : Nat) (e : Slot) : Option State :=
  (if new % e.tps = 0 then [] else e.entries (new / e.tps) (new / e.tps + 1)).foldl
    (fun acc a => acc.bind (fun u => u.cutPage p n a (new % e.tps * 65536 / e.tps))) (some (s.unmapBeyond p new e).1)

section
variable (hOut : e.inStep = false) (hLen : s.arg p 1 ≤ e.length)
include hOut hLen

theorem State.quiTruncate_of_cut {u : State} (hCut : s.cutBeyond p (bitsN (s.arg p 0) 9 0) (s.arg p 1) e = some u) :
    s.quiTruncate p = ⟨qDone, 0, (s.unmapBeyond p (s.arg p 1) e).2,
      u.startCows.setSlot (bitsN (s.arg p 0) 9 0) { (u.slot (bitsN (s.arg p 0) 9 0)) with length := s.arg p 1 }⟩ := by
  simp only [State.cutBeyond, State.unmapBeyond] at hCut
  simp only [State.quiTruncate, hSlot, hKv, hOut, Bool.false_eq_true, or_self, if_false, if_neg (Nat.not_lt.2 hLen), hCut, State.unmapBeyond]

theorem State.quiTruncate_of_empty_pool (hCut : s.cutBeyond p (bitsN (s.arg p 0) 9 0) (s.arg p 1) e = none) :
    s.quiTruncate p = ⟨qPoolEmpty, 0, 0, s.bump (QUI_POOL_EMPTY.COUNT p) 1⟩ := by
  simp only [State.cutBeyond, State.unmapBeyond] at hCut
  simp only [State.quiTruncate, hSlot, hKv, hOut, Bool.false_eq_true, or_self, if_false, if_neg (Nat.not_lt.2 hLen), hCut, QuiRes.refuse]

end
end
end

section
variable (hPool : s.inPool p (bitsN (s.arg p 3) 21 0) = true) (hHeld : s.refs p (bitsN (s.arg p 3) 21 0) ≠ 0)
include hPool hHeld

theorem State.quiRetain_of_held : s.quiRetain p =
    ⟨qDone, (s.incRef p (bitsN (s.arg p 3) 21 0)).refs p (bitsN (s.arg p 3) 21 0), 0, s.incRef p (bitsN (s.arg p 3) 21 0)⟩ := by
  simp only [State.quiRetain, hPool, Bool.true_eq_false, if_false, if_neg hHeld]

theorem State.quiDrop_of_held : s.quiDrop p = if s.refs p (bitsN (s.arg p 3) 21 0) = 0xFFFF then ⟨qPinned, 0xFFFF, 0, s⟩ else
    ⟨qDone, (s.decRef p (bitsN (s.arg p 3) 21 0)).refs p (bitsN (s.arg p 3) 21 0), 0, s.decRef p (bitsN (s.arg p 3) 21 0)⟩ := by
  simp only [State.quiDrop, hPool, Bool.true_eq_false, if_false, if_neg hHeld]

end
end

/-- Settles O24: with the copies in progress ended (log 83), each command is what its rule above makes of its arguments. -/
theorem quireSlotCommands : Obligations.QuireSlotCommands := by
  unfold Obligations.QuireSlotCommands
  intro s m p hm hIdle may t a0 a1 fin
  have hActs {c : Instr} {op : Nat} {r : QuiRes} (hc : QuireSends c m p op) (hMay : may op) (hr : t.quiEffect p op = r) : exec c s = fin op r :=
    hc.exec_of_effect hm hIdle hMay hr
  refine ⟨fun o n hClean hObj hArgs hSlot hMay => ?admitKv, fun o n hClean hObj hArgs hSlot hMay => ?admitStream,
    fun e hClean hSlot hOut hMay => ?release, fun e o n hClean hSlot hObj hHome hKv hArgs hNew hMay => ?fork,
    fun e hClean hSlot hKv hArgs hUnmapped hNamed hPool hHeld hMay => ?map,
    fun e hClean hSlot hKv hOut hLen => ⟨fun u hCut hMay => ?truncate, fun hCut hMay => ?emptyPool⟩,
    fun hClean hPool hHeld => ⟨fun hMay => ?retain, fun hUnpinned hMay => ?drop, fun hPinned hMay => ?pinned⟩⟩
  case admitKv => exact hActs (fun _ => rfl) hMay ((if_pos hClean).trans (State.quiAdmit_of_slot hObj hArgs hSlot))
  case admitStream => exact hActs (fun _ => rfl) hMay ((if_pos hClean).trans (State.quiAdmitStream_of_slot hObj hArgs hSlot))
  case release => exact hActs (fun _ => rfl) hMay ((if_pos hClean).trans (State.quiRelease_of_out hSlot hOut))
  case fork => exact hActs (fun _ => rfl) hMay ((if_pos hClean).trans (State.quiFork_of_slot hSlot hKv hObj hHome hArgs hNew))
  case map => exact hActs (fun _ => rfl) hMay ((if_pos hClean).trans (State.quiMap_of_held hSlot hKv hArgs hUnmapped hNamed hPool hHeld))
  case truncate => exact hActs (fun _ => rfl) hMay ((if_pos hClean).trans (State.quiTruncate_of_cut hSlot hKv hOut hLen hCut))
  case emptyPool => exact hActs (fun _ => rfl) hMay ((if_pos hClean).trans (State.quiTruncate_of_empty_pool hSlot hKv hOut hLen hCut))
  case retain => exact hActs (fun _ => rfl) hMay ((if_pos hClean).trans (State.quiRetain_of_held hPool hHeld))
  case drop => exact hActs (fun _ => rfl) hMay ((if_pos hClean).trans ((State.quiDrop_of_held hPool hHeld).trans (if_neg hUnpinned)))
  case pinned => exact hActs (fun _ => rfl) hMay ((if_pos hClean).trans ((State.quiDrop_of_held hPool hHeld).trans (if_pos hPinned)))

/-! ## Commands on batches, steps and state records, where they succeed (R290–R296, R300, R301) -/

section
variable {s : State} {p n a b : Nat} {o : Obj} {e : Slot} {x : Batch}

theorem State.quiBatchOpen_of_stream (hObj : s.quiObj p (bitsN (s.arg p 0) 15 0) = some o) (hStream : bitN (s.arg p 0) 16 = true)
    (hRows : s.arg p 2 ≤ 65535) (hAlign : s.argAddr p 1 2 % 64 = 0) (hArea : o.holds (s.argAddr p 1 2) 10432 1 = true)
    (hCluster : popcount 64 o.mask = 1) (hBase : s.arg p 3 % 4096 = 0) (hStride : s.arg p 4 % 4096 = 0) (hFrom : o.vatBase ≤ s.arg p 3)
    (hTo : s.arg p 3 + 256 * s.arg p 4 ≤ o.vatBase + o.vatBytes) (hBatch : (List.range 32).find? (fun b => !(s.batch b).isOpen) = some b) :
    s.quiBatchOpen p = ⟨qDone, b, 0, s.setBatch b { Batch.free with
      isOpen := true, stream := true, mode := bitsN (s.arg p 0) 17 17, part := p, handle := o.handle, area := s.argAddr p 1 2, bounds := [],
      stateBase := s.arg p 3, rowStride := s.arg p 4 }⟩ := by
  have hInVat : ¬ (s.arg p 3 < o.vatBase ∨ o.vatBase + o.vatBytes < s.arg p 3 + 256 * s.arg p 4) := by omega
  simp [State.quiBatchOpen, hObj, hStream, Nat.not_lt.2 hRows, hAlign, hArea, hCluster, hBase, hStride, hInVat, hBatch]

section
variable (hBatch : s.quiBatch p (bitsN (s.arg p 0) 4 0) = some x)
include hBatch

theorem State.quiBatchClose_of_closed (hStep : x.stepOpen = false) : s.quiBatchClose p = ⟨qDone, 0, 0, s.closeBatch (bitsN (s.arg p 0) 4 0)⟩ := by
  simp only [State.quiBatchClose, hBatch, hStep, Bool.false_eq_true, if_false]

theorem State.quiClose_of_open {commit : Bool} (hStep : x.stepOpen = true) :
    s.quiClose p commit = ⟨qDone, x.rows.length, 0, s.closeStep (bitsN (s.arg p 0) 4 0) commit⟩ := by
  simp only [State.quiClose, hBatch, hStep, if_true]

theorem State.quiStepBegin_of_no_cell (hReady : bitN (s.arg p 1) 16 = false) (hArm : bitN (s.arg p 2) 16 = false) (hStep : x.stepOpen = false) :
    let r := s.stepBegin p (bitsN (s.arg p 0) 4 0) none none
    s.quiStepBegin p = ⟨qDone, r.2.1, r.2.2, r.1⟩ := by
  simp only [State.quiStepBegin, hBatch, hReady, hArm, hStep, Bool.false_and, Bool.or_self, Bool.false_eq_true, if_false]

end

/-- A KV slot in no batch joins one: at once, or when the step that is open ends. -/
theorem State.quiJoin_of_kv (hSlot : s.quiSlot p (bitsN (s.arg p 0) 9 0) = some e) (hBatch : s.quiBatch p (bitsN (s.arg p 0) 20 16) = some x)
    (hHandle : e.handle = x.handle) (hKv : e.stream = false) (hKvBatch : x.stream = false) (hSome : s.arg p 1 ≠ 0) (hTokens : s.arg p 1 ≤ 8192)
    (hFree : e.batch = 0xFF) (hOther : bitsN (s.arg p 0) 20 16 ≠ e.batch) :
    let e1 := { e with stepTokens := s.arg p 1, batch := bitsN (s.arg p 0) 20 16 }
    let u := (s.setSlot (bitsN (s.arg p 0) 9 0) e1).becomeMember (bitsN (s.arg p 0) 9 0)
    s.quiJoin p = if x.stepOpen then ⟨qDone, 0xFFFF, 1, s.setSlot (bitsN (s.arg p 0) 9 0) { e1 with joinPend := true }⟩ else
      ⟨qDone, (u.slot (bitsN (s.arg p 0) 9 0)).row, 0, u⟩ := by
  have hArgs : ¬ (e.handle ≠ x.handle ∨ e.stream ≠ x.stream ∨ s.arg p 1 = 0 ∨ (if e.stream then 4096 else 8192) < s.arg p 1) := by
    simp [hHandle, hKv, hKvBatch, hSome, hTokens]
  have hNoRow {P : Prop} : ¬ (e.stream = true ∧ P) := by simp [hKv]
  simp only [State.quiJoin, hSlot, hBatch, if_neg hArgs, if_neg hOther.symm, if_neg (not_not.2 hFree), if_neg hNoRow]

theorem State.quiLeave_of_out (hSlot : s.quiSlot p (bitsN (s.arg p 0) 9 0) = some e) (hMember : e.batch ≠ 0xFF) (hOut : e.inStep = false) :
    s.quiLeave p = ⟨qDone, 0, 0, s.leaveBatch (bitsN (s.arg p 0) 9 0)⟩ := by
  simp only [State.quiLeave, hSlot, if_neg hMember, hOut, Bool.false_eq_true, if_false]

theorem State.quiExport_of_kept (hArgs : s.streamArgs p 1 = (some (n, e, a), 0)) (hKept : e.stateLost = false) :
    s.quiExport p = ⟨qDone, (s.stateRecord e).length, 0, s.quiPut a (s.stateRecord e)⟩ := by
  simp only [State.quiExport, hArgs, hKept, Bool.false_eq_true, if_false]

theorem State.quiImport_of_record (hArgs : s.streamArgs p 0 = (some (n, e, a), 0))
    (hRecord : recordCode e (s.seenBytes a (64 + e.stateBytes)) = qDone) :
    let r := s.seenBytes a (64 + e.stateBytes)
    let pad := alignUp e.stateBytes 4096 - e.stateBytes
    let u := (s.quiPut (s.rowAddr e.batch e.row) (r.drop 64 ++ (List.range pad).map (fun i => Config.freeValue 8 (s.freeCtr + i)))).tookFree pad
    s.quiImport p = ⟨qDone, r.length, 0, u.setSlot n { (u.slot n) with length := leAt r 16 4, stateLost := false }⟩ := by
  simp only [State.quiImport, hArgs, hRecord, ne_eq, not_true_eq_false, if_false]

end

/-- Settles O25: with the copies in progress ended (log 83), each command is what its rule above makes of its arguments. -/
theorem quireBatchCommands : Obligations.QuireBatchCommands := by
  unfold Obligations.QuireBatchCommands
  intro s m p hm hIdle may t a0 fin
  have hActs {c : Instr} {op : Nat} {r : QuiRes} (hc : QuireSends c m p op) (hMay : may op) (hr : t.quiEffect p op = r) : exec c s = fin op r :=
    hc.exec_of_effect hm hIdle hMay hr
  refine ⟨fun o b hClean hObj hStream hRows hAlign hArea hCluster hBase hStride hFrom hTo hBatch hMay => ?batchOpen,
    fun hClean x hBatch => ⟨fun hStep hMay => ?batchClose, fun hStep => ⟨fun hMay => ?stepCommit, fun hMay => ?stepAbort⟩⟩,
    fun e x hClean hSlot hBatch hHandle hKv hKvBatch hSome hTokens hFree hOther => ?join,
    fun e hClean hSlot hMember hOut hMay => ?leave, fun x hClean hBatch hReady hArm hStep hMay => ?stepBegin,
    fun n e a hClean hArgs hKept hMay => ?exportRecord, fun n e a hClean hArgs hRecord hMay => ?importRecord⟩
  case batchOpen =>
    exact hActs (fun _ => rfl) hMay ((if_pos hClean).trans
      (State.quiBatchOpen_of_stream hObj hStream hRows hAlign hArea hCluster hBase hStride hFrom hTo hBatch))
  case batchClose => exact hActs (fun _ => rfl) hMay ((if_pos hClean).trans (State.quiBatchClose_of_closed hBatch hStep))
  case stepCommit => exact hActs (fun _ => rfl) hMay ((if_pos hClean).trans (State.quiClose_of_open hBatch hStep))
  case stepAbort => exact hActs (fun _ => rfl) hMay ((if_pos hClean).trans (State.quiClose_of_open hBatch hStep))
  case join =>
    have hJoin := (if_pos hClean : t.quiEffect p 0x12 = t.quiJoin p).trans
      (State.quiJoin_of_kv hSlot hBatch hHandle hKv hKvBatch hSome hTokens hFree hOther)
    exact ⟨fun hStep hMay => hActs (fun _ => rfl) hMay (hJoin.trans (if_neg (by simp [hStep]))),
      fun hStep hMay => hActs (fun _ => rfl) hMay (hJoin.trans (if_pos hStep))⟩
  case leave => exact hActs (fun _ => rfl) hMay ((if_pos hClean).trans (State.quiLeave_of_out hSlot hMember hOut))
  case stepBegin => exact hActs (fun _ => rfl) hMay ((if_pos hClean).trans (State.quiStepBegin_of_no_cell hBatch hReady hArm hStep))
  case exportRecord => exact hActs (fun _ => rfl) hMay ((if_pos hClean).trans (State.quiExport_of_kept hArgs hKept))
  case importRecord => exact hActs (fun _ => rfl) hMay ((if_pos hClean).trans (State.quiImport_of_record hArgs hRecord))

end Sys2Proof.Machine

/-! # Memory: accesses, the patrol, the split between the dies, and page moves (09_memory_tiers.md) -/

namespace Sys2Proof.Machine
open Sys2Proof

theorem answer_of_false {ok : Bool} {s t : State} (h : ok = false) : answer ok s t = .next { s.start with resp := .inapplicable } :=
  if_neg (by simp [h])

/-- An access that meets nothing on the channel leaves it as it is (R328). -/
theorem State.arm_zero (s : State) (a : Nat) : s.arm a 0 = s := if_neg (by simp)

theorem State.channel_of_quiet {s : State} {b : Nat} (h : s.chanOf b = 0) : s.channel b = (s, false) := by
  simp [State.channel, h]

/-! ## What a charge at the Headbox leaves alone (R363, R368) -/

/-- From s to t only registers and the Headbox's classes change. -/
def State.Charged (s t : State) : Prop := ∃ r h, t = { s with regs := r, hbxs := h }

section
variable {s0 s : State}

theorem State.Charged.refl (s : State) : s.Charged s := ⟨_, _, rfl⟩

theorem State.Charged.ite {c : Prop} [Decidable c] {t : State} (hs : s0.Charged s) (ht : s0.Charged t) : s0.Charged (if c then s else t) := by
  split <;> assumption

theorem State.Charged.fold {α : Type} {f : State → α → State} (hf : ∀ t x, s0.Charged t → s0.Charged (f t x)) (l : List α)
    (h : s0.Charged s) : s0.Charged (l.foldl f s) := foldl_keeps (State.Charged s0) hf l s h

variable (h : s0.Charged s)
include h

theorem State.Charged.setF (f : Fld) (v : Nat) : s0.Charged (s.setF f v) := by
  obtain ⟨r, x, rfl⟩ := h
  exact ⟨_, _, rfl⟩

theorem State.Charged.bump (f : Fld) (n : Nat) : s0.Charged (s.bump f n) := h.setF f _

theorem State.Charged.setHbx (i c : Nat) (y : HbxClass) : s0.Charged (s.setHbx i c y) := by
  obtain ⟨r, x, rfl⟩ := h
  exact ⟨_, _, rfl⟩

theorem State.Charged.hbxCount (m part a : Nat) : s0.Charged (s.hbxCount m part a) := by
  unfold State.hbxCount
  split
  · exact h
  · split
    · exact h.bump _ 1
    · exact h
    · exact h.bump _ 1

variable (i c : Nat)

theorem State.Charged.hbxHeldTo (u : Nat) : s0.Charged (s.hbxHeldTo i c u) := .ite h ((h.bump _ _).setHbx i c _)

theorem State.Charged.hbxBoundary (renew : Bool) : s0.Charged (s.hbxBoundary i c renew) :=
  ((((h.hbxHeldTo i c _).setHbx i c _).setF _ 0).setF _ 0).setF _ 0

theorem State.Charged.hbxSync : s0.Charged (s.hbxSync i c) := by
  unfold State.hbxSync
  split
  · exact h.hbxBoundary i c _
  · exact h

theorem State.Charged.hbxCharge (t n : Nat) : s0.Charged (s.hbxCharge i c t n) := by
  have hShown := fun x y lo hi units ovr => ((((((h.hbxSync i c).setHbx i c x).setHbx i c y).setF (HBX_BYTES_LO.BYTES i c) lo).setF
    (HBX_BYTES_HI.BYTES i c) hi).setF (HBX_USED.UNITS i c) units).setF (HBX_STATUS.OVER i c) ovr
  exact .ite ((hShown _ _ _ _ _ _).bump _ 1) (hShown _ _ _ _ _ _)

theorem State.Charged.hbxHold (t : Nat) : s0.Charged (s.hbxHold i c t) :=
  .ite (.ite (((h.hbxSync i c).setF _ _).setHbx i c _) ((h.hbxSync i c).setF _ _)) (h.hbxSync i c)

omit i c

theorem State.Charged.hbxHolds : s0.Charged s.hbxHolds :=
  .fold (fun _ e hu => .fold (fun _ t hv => hv.hbxHold (e.1 / 32) (e.1 % 32) t) _ hu) _ h

theorem State.Charged.regulate (m part src a n : Nat) : s0.Charged (s.regulate m part src a n) :=
  .ite h (State.Charged.hbxHolds (.fold (fun _ _ hu => hu.hbxCharge _ _ _ _) _ (h.hbxCount m part a)))

end

/-! ## An access at the Headbox (R363, R371) -/

/-- An answer of an access that reached its memory: no wait, no bus error, no access fault. -/
def Resp.reached : Resp → Bool
  | .waits => false
  | .busError => false
  | .accessFault => false
  | _ => true

/-- The port of master m may issue an access of n bytes at a now, for the move mv (0: none). -/
def State.hbxIssues (s : State) (m src a n : Nat) (rd : Bool) (mv : Nat) : Bool :=
  s.hbxMayIssue ⟨m, src, s.hbxClass m (s.moverPart m mv a) a, a, n, rd, s.hbxRoute src a, 0, s.cyc, false⟩ (s.hbxQueue hopPorts)

/-- The Headbox lets the access pass: it has come through the queues of its route, or its port may issue it now. -/
def State.HbxLets (s : State) (m src a n : Nat) (rd : Bool) (mv : Nat) : Prop :=
  s.hbxQueued m src a n rd = true ∨ s.hbxOnWay m src a n rd = false ∧ s.hbxIssues m src a n rd mv = true

/-- The outcome t of an access that passes: charged where it did not come through the queues. -/
def State.hbxPassed (s : State) (m src a n : Nat) (rd : Bool) (mv : Nat) (t : State) : State :=
  if s.hbxQueued m src a n rd then t else t.regulate m (s.moverPart m mv a) src a n

theorem State.hbxPassed_charged (s t : State) (m src a n : Nat) (rd : Bool) (mv : Nat) : t.Charged (s.hbxPassed m src a n rd mv t) :=
  .ite (.refl t) ((State.Charged.refl t).regulate _ _ _ _ _)

section
variable {s t : State} {m src a n mv : Nat} {rd : Bool}

@[simp] theorem State.hbxPassed_resp : (s.hbxPassed m src a n rd mv t).resp = t.resp := by
  obtain ⟨r, h, e⟩ := s.hbxPassed_charged t m src a n rd mv
  rw [e]

/-- What becomes of an access at the Headbox: in the queues, on its way to them, with no memory to go to, or at its port. -/
theorem State.gated_eq : s.gated m src a n rd mv t =
    if s.hbxQueued m src a n rd then t
    else if s.hbxOnWay m src a n rd then s.say .waits
    else if t.resp.reached then
      (if s.hbxIssues m src a n rd mv then t.regulate m (s.moverPart m mv a) src a n else (s.hbxNew m (s.moverPart m mv a) src a n rd).say .waits)
    else t := by
  unfold State.gated State.hbxIssues
  dsimp only
  cases s.hbxMayIssue _ _ <;> cases t.resp <;> rfl

theorem State.gated_of_lets (hLets : s.HbxLets m src a n rd mv) (hResp : t.resp.reached = true) :
    s.gated m src a n rd mv t = s.hbxPassed m src a n rd mv t := by
  rw [State.gated_eq, State.hbxPassed]
  rcases hLets with hQueued | ⟨hOff, hIssues⟩
  · rw [if_pos hQueued, if_pos hQueued]
  · simp only [hOff, hIssues, hResp, Bool.false_eq_true, if_false, if_true]

/-- An access that found no memory to go to is not charged. -/
theorem State.gated_of_unreached (hLets : s.HbxLets m src a n rd mv) (hResp : t.resp.reached = false) : s.gated m src a n rd mv t = t := by
  rw [State.gated_eq]
  rcases hLets with hQueued | ⟨hOff, -⟩
  · exact if_pos hQueued
  · simp only [hOff, hResp, Bool.false_eq_true, if_false, ite_self]

section
variable (hNew : s.hbxQueued m src a n rd = false)
include hNew

theorem State.gated_of_on_way (hOn : s.hbxOnWay m src a n rd = true) : s.gated m src a n rd mv t = s.say .waits := by
  simp only [State.gated_eq, hNew, hOn, Bool.false_eq_true, if_false, if_true]

theorem State.gated_of_kept (hOff : s.hbxOnWay m src a n rd = false) (hHeld : s.hbxIssues m src a n rd mv = false) (hResp : t.resp.reached = true) :
    s.gated m src a n rd mv t = (s.hbxNew m (s.moverPart m mv a) src a n rd).say .waits := by
  simp only [State.gated_eq, hNew, hOff, hHeld, hResp, Bool.false_eq_true, if_false, if_true]

end
end

/-! ## Bytes placed in one block (R187, R322) -/

theorem rangeBlocks_of_one_block {a n : Nat} (hn : n ≠ 0) (h : (a + n - 1) / 4096 = a / 4096) : rangeBlocks a n = [a / 4096] := by
  simp [rangeBlocks, hn, h]

theorem placed_cons (a : Nat) (b : Byte) (bs : List Byte) : placed a (b :: bs) = (a, b) :: placed (a + 1) bs := by
  simp [placed, List.range_succ_eq_map, List.zip_map_left, List.map_map, Function.comp_def, Nat.add_assoc, Nat.add_comm 1]

theorem map_fst_placed (a : Nat) (bs : List Byte) : (placed a bs).map Prod.fst = List.range' a bs.length := by
  induction bs generalizing a with
  | nil => rfl
  | cons b bs ih => rw [placed_cons, List.map_cons, ih, List.length_cons, List.range'_succ]

theorem length_placed (a : Nat) (bs : List Byte) : (placed a bs).length = bs.length := by
  simpa using congrArg List.length (map_fst_placed a bs)

theorem mem_fst_placed {a x : Nat} {bs : List Byte} : (∃ p ∈ placed a bs, p.1 = x) ↔ a ≤ x ∧ x < a + bs.length := by
  rw [← List.mem_map, map_fst_placed, List.mem_range'_1]

theorem writeBlocks_of_one_block {ws : List (Addr × Byte)} {b : Nat} (hSome : ws ≠ []) (hb : ∀ p ∈ ws, p.1 / 4096 = b) :
    writeBlocks ws = [b] := by
  cases ws with
  | nil => exact absurd rfl hSome
  | cons p ws =>
    unfold writeBlocks
    rw [List.foldl_cons, hb p List.mem_cons_self]
    refine congrArg List.reverse (List.foldlRecOn (motive := fun acc => acc = [b]) _ _ rfl fun acc hacc q hq => ?_)
    subst hacc
    exact if_pos (hb q (List.mem_cons_of_mem _ hq))

section
variable {a : Nat} {bs : List Byte} (hOne : (a + bs.length - 1) / 4096 = a / 4096)
include hOne

theorem placed_in_block : ∀ p ∈ placed a bs, p.1 / 4096 = a / 4096 := by
  intro p hp
  have hLo : a / 4096 ≤ p.1 / 4096 := Nat.div_le_div_right (mem_fst_placed.1 ⟨p, hp, rfl⟩).1
  have hHi : p.1 / 4096 ≤ (a + bs.length - 1) / 4096 := Nat.div_le_div_right (by have := mem_fst_placed.1 ⟨p, hp, rfl⟩; omega)
  exact Nat.le_antisymm (hHi.trans_eq hOne) hLo

/-- Bytes inside one block cover it exactly when there are 4,096 of them. -/
theorem placed_covers_block : (decide (4096 ≤ (placed a bs).length) &&
    (List.range 4096).all (fun i => (placed a bs).any (fun p => p.1 == a / 4096 * 4096 + i))) = (bs.length == 4096) := by
  rw [length_placed]
  by_cases hWhole : bs.length = 4096
  · have hAll : ∀ i : Nat, i < 4096 → ∃ p ∈ placed a bs, p.1 = a / 4096 * 4096 + i := fun i hi => mem_fst_placed.2 (by omega)
    simpa [hWhole] using hAll
  · have hShort : ¬ 4096 ≤ bs.length := by omega
    simp [hWhole, hShort]

end

/-! ## What memory holds after a write (R324, R325) -/

/-- From s to t only the bytes of memory and their upsets change. -/
def State.BytesOnly (s t : State) : Prop := ∃ m u, t = { s with mem := m, upsets := u }

theorem State.BytesOnly.putByte {s t : State} (h : s.BytesOnly t) (a : Nat) (b : Byte) : s.BytesOnly (t.putByte a b) := by
  obtain ⟨m, u, rfl⟩ := h
  exact ⟨_, _, rfl⟩

theorem State.BytesOnly.putAll {s t : State} (h : s.BytesOnly t) (ws : List (Addr × Byte)) : s.BytesOnly (t.putAll ws) :=
  foldl_keeps (State.BytesOnly s) (fun _ _ hu => hu.putByte _ _) ws t h

theorem State.settle_bytesOnly (s : State) (b : Nat) : s.BytesOnly (s.settle b) := by
  unfold State.settle
  split
  · refine foldl_keeps (State.BytesOnly s) (fun t i hu => ?_) _ s ⟨_, _, rfl⟩
    dsimp only
    split
    · exact hu
    · exact hu.putByte _ _
  · exact ⟨_, _, rfl⟩

section
variable {s : State} {a c : Nat} {b : Byte} (hs : Memory.wf s = true)
include hs

theorem State.stored_putByte_same : (s.putByte a b).stored a = b := by
  have hUpset : (s.putByte a b).upset a = 0 := Sparse.get_set_same (Memory.wf_iff.1 hs).2
  simp [State.stored, hUpset, State.byte_putByte_same hs]

theorem State.stored_putByte_other (h : c ≠ a) : (s.putByte a b).stored c = s.stored c := by
  have hUpset : (s.putByte a b).upset c = s.upset c := Sparse.get_set_other (Memory.wf_iff.1 hs).2 h
  simp [State.stored, hUpset, State.byte_putByte_other hs h]

theorem State.stored_putAll_other {ws : List (Addr × Byte)} (h : ∀ p ∈ ws, p.1 ≠ c) : (s.putAll ws).stored c = s.stored c := by
  refine (List.foldlRecOn (motive := fun t : State => Memory.wf t = true ∧ t.stored c = s.stored c) ws _ ⟨hs, rfl⟩ fun t ht p hp => ?_).2
  exact ⟨Memory.wf_putByte ht.1, (State.stored_putByte_other ht.1 (h p hp).symm).trans ht.2⟩

/-- A block settled holds what it held. -/
theorem State.stored_settle (n : Nat) : (s.settle n).stored c = s.stored c := by
  unfold State.settle
  split
  · refine (List.foldlRecOn (motive := fun t : State => Memory.wf t = true ∧ t.stored c = s.stored c) _ _ ⟨hs, rfl⟩ fun t ht i hi => ?_).2
    dsimp only
    split
    · exact ht
    · refine ⟨Memory.wf_putByte ht.1, Eq.trans ?_ ht.2⟩
      by_cases hc : c = n * 4096 + i
      · subst hc
        exact State.stored_putByte_same ht.1
      · exact State.stored_putByte_other ht.1 hc
  · rfl

end

theorem State.stored_putAll_placed {s : State} {a i : Nat} {v : Byte} {bs : List Byte} (hs : Memory.wf s = true) (hv : bs[i]? = some v) :
    (s.putAll (placed a bs)).stored (a + i) = v := by
  induction bs generalizing s a i with
  | nil => simp at hv
  | cons b bs ih =>
    have hw : Memory.wf (s.putByte a b) = true := Memory.wf_putByte hs
    rw [placed_cons]
    show ((s.putByte a b).putAll (placed (a + 1) bs)).stored (a + i) = v
    cases i with
    | zero =>
      have hOther : ∀ p ∈ placed (a + 1) bs, p.1 ≠ a := fun p hp => Nat.ne_of_gt (mem_fst_placed.1 ⟨p, hp, rfl⟩).1
      have hb : b = v := by simpa using hv
      exact (State.stored_putAll_other hw hOther).trans ((State.stored_putByte_same hs).trans hb)
    | succ i =>
      rw [show a + (i + 1) = a + 1 + i by omega]
      exact ih hw (by simpa using hv)

/-! ## A write of one block (R187, R324, R326) -/

theorem State.store_of_one_block {s : State} {w : WTag} {ws : List (Addr × Byte)} {b op mv : Nat} (hSome : ws ≠ [])
    (hb : ∀ p ∈ ws, p.1 / 4096 = b) : s.store w ws op mv = ((s.storeBlock w b ws op mv).1, if (s.storeBlock w b ws op mv).2 then [] else [b]) := by
  have hAll : ws.filter (fun p => p.1 / 4096 == b) = ws := List.filter_eq_self.2 (by simpa using hb)
  simp only [State.store, writeBlocks_of_one_block hSome hb, List.foldl_cons, List.foldl_nil, hAll, List.nil_append]

/-- The bytes of a write in a block, and its tags: what is stored of the rest of the block is what it was (R324). -/
def State.landBlock (s : State) (w : WTag) (b : Nat) (ws : List (Addr × Byte)) (whole : Bool) : State :=
  let t := ((if whole then s else s.settle b).putAll ws).forgetChecked b
  (t.setTag b ((t.tag b).after w whole)).spoil b whole

section
variable {s : State} {w : WTag} {b op mv : Nat} {ws : List (Addr × Byte)} {whole : Bool}

/-- A write of a block that meets nothing on the channel and passes its check lands. -/
theorem State.storeBlock_of_good (hDram : isVat (b * 4096) = false) (hQuiet : s.chanOf b = 0) (hOk : s.blockOk b = true)
    (hWhole : (w.kind == .camera || decide (4096 ≤ ws.length) && (List.range 4096).all (fun i => ws.any (fun p => p.1 == b * 4096 + i))) = whole) :
    s.storeBlock w b ws op mv = (s.landBlock w b ws whole, true) := by
  have hChan : s.chanWrite b = s := if_pos hQuiet
  unfold State.storeBlock
  rw [hWhole]
  cases whole <;> simp [hDram, hOk, hChan, State.channel_of_quiet hQuiet, State.retried, State.landBlock]

variable (s) in
theorem State.landBlock_frame : ∃ m u c p k, s.landBlock w b ws whole =
    { s with mem := m, upsets := u, checked := c, poisonBy := p, trackers := k, tags := (s.setTag b ((s.tag b).after w whole)).tags } := by
  have hBytes : s.BytesOnly ((if whole then s else s.settle b).putAll ws) := by
    refine State.BytesOnly.putAll ?_ ws
    split
    · exact ⟨_, _, rfl⟩
    · exact s.settle_bytesOnly b
  obtain ⟨m, u, e⟩ := hBytes
  unfold State.landBlock
  rw [e]
  unfold State.forgetChecked State.spoil
  dsimp only
  split_ifs <;> exact ⟨_, _, _, _, _, rfl⟩

theorem State.landBlock_regs : (s.landBlock w b ws whole).regs = s.regs := by
  obtain ⟨_, _, _, _, _, e⟩ := s.landBlock_frame
  rw [e]

theorem State.landBlock_resp : (s.landBlock w b ws whole).resp = s.resp := by
  obtain ⟨_, _, _, _, _, e⟩ := s.landBlock_frame
  rw [e]

theorem State.landBlock_tags : (s.landBlock w b ws whole).tags = (s.setTag b ((s.tag b).after w whole)).tags := by
  obtain ⟨_, _, _, _, _, e⟩ := s.landBlock_frame
  rw [e]

theorem State.landBlock_stored (c : Nat) : (s.landBlock w b ws whole).stored c = ((if whole then s else s.settle b).putAll ws).stored c := by
  unfold State.landBlock State.forgetChecked State.spoil
  dsimp only
  split_ifs <;> rfl

theorem Memory.wf_landBlock (hs : Memory.wf s = true) : Memory.wf (s.landBlock w b ws whole) = true :=
  Memory.wf_spoil (Memory.wf_forgetChecked (Memory.wf_putAll (Memory.wf_ite hs (Memory.wf_settle hs))))

end

/-! ## What a write leaves of the answer -/

section
variable {s : State} {w : WTag} {b op mv : Nat} {ws : List (Addr × Byte)}

@[simp] theorem State.putAll_resp : (s.putAll ws).resp = s.resp := by
  obtain ⟨m, u, e⟩ := State.BytesOnly.putAll (s := s) ⟨_, _, rfl⟩ ws
  rw [e]

@[simp] theorem State.settle_resp : (s.settle b).resp = s.resp := by
  obtain ⟨m, u, e⟩ := s.settle_bytesOnly b
  rw [e]

@[simp] theorem State.poison_resp {l : List Nat} : (s.poison l).resp = s.resp :=
  foldl_keeps (fun t : State => t.resp = s.resp) (fun t x ht => by dsimp only; split <;> exact ht) l s rfl

@[simp] theorem State.wmFail_resp : (s.wmFail b op mv).resp = s.resp := rfl

@[simp] theorem State.retried_resp {lost : Bool} : (s.retried b lost).resp = s.resp := by unfold State.retried; split <;> rfl

@[simp] theorem State.forgetChecked_resp : (s.forgetChecked b).resp = s.resp := by unfold State.forgetChecked; dsimp only; split <;> rfl

@[simp] theorem State.spoil_resp {whole : Bool} : (s.spoil b whole).resp = s.resp := by unfold State.spoil; split <;> rfl

@[simp] theorem State.channel_resp : (s.channel b).1.resp = s.resp := by unfold State.channel; dsimp only; split_ifs <;> rfl

@[simp] theorem State.chanWrite_resp : (s.chanWrite b).resp = s.resp := by unfold State.chanWrite; dsimp only; split_ifs <;> rfl

theorem State.storeBlock_resp : (s.storeBlock w b ws op mv).1.resp = s.resp := by
  simp [State.storeBlock, apply_ite Prod.fst, apply_ite State.resp]

theorem State.store_resp : (s.store w ws op mv).1.resp = s.resp :=
  foldl_keeps (fun acc : State × List Nat => acc.1.resp = s.resp) (fun _ _ h => State.storeBlock_resp.trans h) _ (s, []) rfl

end

/-! ## Accesses of DRAM data (R325, R334, R390, R397, R619, R620) -/

/-- n bytes at a are DRAM data that master m may reach: their memory is on and none of their blocks is being filled. -/
def State.DataReady (s : State) (m a n : Nat) : Prop :=
  s.hartBarred m a n = false ∧ s.region a n = .data ∧ (rangeBlocks a n).all (fun b => s.memOn (b * 4096)) = true
    ∧ s.pendingBlock (rangeBlocks a n) = none

theorem State.DataReady.data {s : State} {m a n : Nat} (h : s.DataReady m a n) : s.region a n = .data := h.2.1

theorem State.DataReady.free {s : State} {m a n : Nat} (h : s.DataReady m a n) : s.pendingBlock (rangeBlocks a n) = none := h.2.2.2

section
variable {s t : State} {m ep a n op mv h : Nat} {k : HartAccess} {bs : List Byte} {prov pois par : Bool}

theorem State.dramRange_of_data (hData : s.region a n = .data) : s.dramRange a n = true := by
  by_contra hOut
  unfold State.region at hData
  rw [if_neg hOut] at hData
  split_ifs at hData

theorem State.not_vat_of_data (hData : s.region a n = .data) : isVat (a / 4096 * 4096) = false := by
  have hLo : dramBase ≤ a := (of_decide_eq_true (State.dramRange_of_data hData)).1
  simp only [dramBase] at hLo
  simp only [isVat, decide_eq_false_iff_not]
  omega

theorem State.atomicBarred_of_dram (h : s.region a n = .data ∨ s.region a n = .meta_) : s.atomicBarred m k a n = false := by
  rcases h with h | h <;> simp [State.atomicBarred, h]

theorem State.trapped_of_reached (hResp : t.resp.reached = true) : t.trapped m h k a n = t :=
  if_neg fun hFault => by simp [hFault, Resp.reached] at hResp

/-! ### Writes -/

theorem State.writeAt_of_ready (hReady : s.DataReady m a bs.length) :
    s.writeAt m ep a bs prov pois par op mv = s.blockWrite m ep a bs prov pois par op mv := by
  obtain ⟨hBar, hData, hOn, hFree⟩ := hReady
  simp only [State.writeAt, hBar, hData, hOn, hFree, Option.isSome_none, Bool.not_true, Bool.false_eq_true, if_false]

theorem State.writeAt_of_meta (hBar : s.hartBarred m a bs.length = false) (hMeta : s.region a bs.length = .meta_) :
    s.writeAt m ep a bs prov pois par op mv = s.busError := by
  simp only [State.writeAt, hBar, hMeta, Bool.false_eq_true, if_false]

theorem State.blockWrite_reached (hs : s.resp.reached = true) : (s.blockWrite m ep a bs prov pois par op mv).resp.reached = true := by
  unfold State.blockWrite
  dsimp only
  split_ifs
  · rfl
  · rw [State.store_resp]
    exact hs
  · rfl

theorem exec_dramWrite_of_stale (hSome : bs ≠ []) (hm : m < 64) (hStale : ep ≠ s.epoch m) :
    exec (.dramWrite m ep a bs prov pois par 0 op mv h k) s = .next (s.start.bump (ITG_STALE_DROP.COUNT m) 1) := by
  show execDramWrite m ep a bs prov pois par 0 op mv h k s = _
  unfold execDramWrite
  rw [State.arm_zero]
  exact (answer_of_true (by simp [hSome])).trans (congrArg _ (if_pos ⟨hm, hStale⟩))

section
variable (hSome : bs ≠ []) (hFresh : ¬ (m < 64 ∧ ep ≠ s.epoch m))
include hSome hFresh

theorem exec_dramWrite : exec (.dramWrite m ep a bs prov pois par 0 op mv h k) s =
    .next ((s.start.gated m (srcDie m ep) a bs.length false mv (if s.atomicBarred m k a bs.length then s.start.say .accessFault
      else s.start.writeAt m ep a bs prov pois par op mv)).trapped m h k a bs.length) := by
  show execDramWrite m ep a bs prov pois par 0 op mv h k s = _
  unfold execDramWrite
  rw [State.arm_zero]
  exact (answer_of_true (by simp [hSome])).trans (congrArg _ (if_neg hFresh))

theorem exec_dramWrite_of_on_way (hNew : s.hbxQueued m (srcDie m ep) a bs.length false = false)
    (hOn : s.hbxOnWay m (srcDie m ep) a bs.length false = true) :
    exec (.dramWrite m ep a bs prov pois par 0 op mv h k) s = .next (s.start.say .waits) := by
  rw [exec_dramWrite hSome hFresh, State.gated_of_on_way (s := s.start) hNew hOn]
  rfl

theorem exec_dramWrite_of_meta (hLets : s.HbxLets m (srcDie m ep) a bs.length false mv) (hBar : s.hartBarred m a bs.length = false)
    (hMeta : s.region a bs.length = .meta_) : exec (.dramWrite m ep a bs prov pois par 0 op mv h k) s = .next s.start.busError := by
  rw [exec_dramWrite hSome hFresh, State.atomicBarred_of_dram (.inr hMeta), if_neg Bool.false_ne_true,
    State.writeAt_of_meta (s := s.start) hBar hMeta, State.gated_of_unreached (s := s.start) hLets rfl]
  rfl

variable (hReady : s.DataReady m a bs.length)
include hReady

theorem exec_dramWrite_of_ready : exec (.dramWrite m ep a bs prov pois par 0 op mv h k) s =
    .next ((s.start.gated m (srcDie m ep) a bs.length false mv (s.start.blockWrite m ep a bs prov pois par op mv)).trapped m h k a bs.length) := by
  rw [exec_dramWrite hSome hFresh, State.atomicBarred_of_dram (.inl hReady.data), if_neg Bool.false_ne_true,
    State.writeAt_of_ready (s := s.start) hReady]

theorem exec_dramWrite_of_kept (hNew : s.hbxQueued m (srcDie m ep) a bs.length false = false)
    (hOff : s.hbxOnWay m (srcDie m ep) a bs.length false = false) (hHeld : s.hbxIssues m (srcDie m ep) a bs.length false mv = false) :
    exec (.dramWrite m ep a bs prov pois par 0 op mv h k) s =
      .next ((s.start.hbxNew m (s.moverPart m mv a) (srcDie m ep) a bs.length false).say .waits) := by
  rw [exec_dramWrite_of_ready hSome hFresh hReady, State.gated_of_kept (s := s.start) hNew hOff hHeld (State.blockWrite_reached rfl)]
  rfl

theorem exec_dramWrite_of_lets (hLets : s.HbxLets m (srcDie m ep) a bs.length false mv) :
    exec (.dramWrite m ep a bs prov pois par 0 op mv h k) s =
      .next (s.hbxPassed m (srcDie m ep) a bs.length false mv (s.start.blockWrite m ep a bs prov pois par op mv)) := by
  have hReached : (s.start.blockWrite m ep a bs prov pois par op mv).resp.reached = true := State.blockWrite_reached rfl
  rw [exec_dramWrite_of_ready hSome hFresh hReady, State.gated_of_lets (s := s.start) hLets hReached,
    State.trapped_of_reached (by simpa using hReached)]
  rfl

end

/-! ### Reads -/

theorem checksReads_of_core (hCore : isCore m = true) : checksReads m = false := by
  have hm : m = 0x60 ∨ m = 0x61 := by simpa [isCore] using hCore
  rcases hm with rfl | rfl <;> rfl

theorem State.readBlocks_of_quiet {l : List Nat} (hQuiet : ∀ b ∈ l, s.chanOf b = 0) : s.readBlocks true l = (s, true) := by
  induction l with
  | nil => rfl
  | cons b l ih =>
    have hb : s.chanOf b = 0 := hQuiet b List.mem_cons_self
    have hRead : s.rawCheck b 0 0 = (s, true) := by simp [State.rawCheck, hb, State.channel_of_quiet hb]
    simp [State.readBlocks, hRead, ih fun c hc => hQuiet c (List.mem_cons_of_mem _ hc)]

section
variable (hFree : s.pendingBlock (rangeBlocks a n) = none)
include hFree

theorem State.dramRead_of_core (hCore : isCore m = true) (hQuiet : ∀ b ∈ rangeBlocks a n, s.chanOf b = 0) : s.dramRead m a n =
    if m == 0x60 && (rangeBlocks a n).any (fun b => (s.tag b).poison) then s.say .accessFault else s.say (.bytes (s.seenBytes a n)) := by
  simp only [State.dramRead, checksReads_of_core hCore, Bool.not_false, State.readBlocks_of_quiet hQuiet, hFree, Option.isSome_none, Bool.false_eq_true,
    if_false, if_true]

theorem State.dramRead_of_checker (hChecks : checksReads m = true) : s.dramRead m a n =
    let r := s.readBlocks false (rangeBlocks a n)
    if r.2 then r.1.say (.bytes (r.1.bytesAt a n)) else r.1.say (.failed stWatermark) := by
  have hHart : (m == 0x60) = false := beq_false_of_ne fun hm => by simp [hm, checksReads] at hChecks
  simp only [State.dramRead, hChecks, Bool.not_true, hHart, Bool.false_and, hFree, Option.isSome_none, Bool.false_eq_true, if_false]

end

section
variable (hn : n ≠ 0) (hFresh : ¬ (m < 64 ∧ ep ≠ s.epoch m)) (hReady : s.DataReady m a n) (hLets : s.HbxLets m (srcDie m ep) a n true 0)
include hn hFresh hReady

theorem exec_dramRead : exec (.dramRead m ep a n 0 [] h k) s =
    .next ((s.start.gated m (srcDie m ep) a n true 0 (s.start.dramRead m a n)).trapped m h k a n) := by
  obtain ⟨hBar, hData, hOn, -⟩ := hReady
  have hArm : (s.start.flipAll []).arm a 0 = s.start := s.start.arm_zero a
  have hAtomic : s.start.atomicBarred m k a n = false := State.atomicBarred_of_dram (.inl hData)
  have hRead : s.start.readAt m a n = s.start.dramRead m a n := by
    simp [State.readAt, hBar, hData, hOn]
  show execDramRead m ep a n 0 [] h k s = _
  unfold execDramRead
  rw [hArm]
  refine (answer_of_true (by simp [hn])).trans (congrArg _ ((if_neg hFresh).trans ?_))
  rw [hAtomic, if_neg Bool.false_ne_true, hRead]

include hLets

theorem exec_dramRead_of_reached (hReached : (s.start.dramRead m a n).resp.reached = true) :
    exec (.dramRead m ep a n 0 [] h k) s = .next (s.hbxPassed m (srcDie m ep) a n true 0 (s.start.dramRead m a n)) := by
  rw [exec_dramRead hn hFresh hReady, State.gated_of_lets (s := s.start) hLets hReached,
    State.trapped_of_reached (by simpa using hReached)]
  rfl

theorem exec_dramRead_of_core (hCore : isCore m = true) (hClean : m = 0x60 → ∀ b ∈ rangeBlocks a n, (s.tag b).poison = false)
    (hQuiet : ∀ b ∈ rangeBlocks a n, s.chanOf b = 0) :
    exec (.dramRead m ep a n 0 [] h k) s = .next (s.hbxPassed m (srcDie m ep) a n true 0 (s.start.say (.bytes (s.seenBytes a n)))) := by
  have hNoFault : ¬ (m == 0x60 && (rangeBlocks a n).any (fun b => (s.tag b).poison)) = true := by simpa using hClean
  have hRead : s.start.dramRead m a n = s.start.say (.bytes (s.seenBytes a n)) :=
    (State.dramRead_of_core (s := s.start) hReady.free hCore hQuiet).trans (if_neg hNoFault)
  rw [exec_dramRead_of_reached hn hFresh hReady hLets (by rw [hRead]; rfl), hRead]

theorem exec_dramRead_of_checker (hChecks : checksReads m = true) :
    let r := s.start.readBlocks false (rangeBlocks a n)
    exec (.dramRead m ep a n 0 [] h k) s = .next (s.hbxPassed m (srcDie m ep) a n true 0
      (if r.2 then r.1.say (.bytes (r.1.bytesAt a n)) else r.1.say (.failed stWatermark))) := by
  have hRead := State.dramRead_of_checker (s := s.start) hReady.free hChecks
  dsimp only at hRead ⊢
  rw [exec_dramRead_of_reached hn hFresh hReady hLets (by rw [hRead]; split <;> rfl), hRead]

end

/-- An application core's read that meets a poisoned block faults at the block's first byte in the range. -/
theorem exec_dramRead_of_poison {b : Nat} (hn : n ≠ 0) (hReady : s.DataReady 0x60 a n) (hLets : s.HbxLets 0x60 (srcDie 0x60 ep) a n true 0)
    (hHart : h < 24) (hQuiet : ∀ b ∈ rangeBlocks a n, s.chanOf b = 0) (hPoison : (rangeBlocks a n).find? (fun b => (s.tag b).poison) = some b) :
    exec (.dramRead 0x60 ep a n 0 [] h k) s =
      .next ((s.start.say .accessFault).setHart h { s.hart h with trap := some (k, Nat.max a (b * 4096)) }) := by
  have hMeets : (0x60 == 0x60 && (rangeBlocks a n).any (fun b => (s.tag b).poison)) = true := by
    simpa using ⟨b, List.mem_of_find?_eq_some hPoison, by simpa using List.find?_some hPoison⟩
  have hRead : s.start.dramRead 0x60 a n = s.start.say .accessFault :=
    (State.dramRead_of_core (s := s.start) hReady.free rfl hQuiet).trans (if_pos hMeets)
  have hAddr : s.faultAddr a n = Nat.max a (b * 4096) := by simp [State.faultAddr, hReady.data, hPoison]
  rw [exec_dramRead hn (by simp) hReady, hRead, State.gated_of_unreached (s := s.start) hLets rfl, ← hAddr]
  exact congrArg _ ((if_pos rfl).trans (if_pos ⟨rfl, hHart⟩))

/-! ### The metadata region (R327) -/

section
variable {wr : Bool} (hn : n ≠ 0) (hDram : s.dramRange a n = true) (hReaches : s.metaBase < a + n)
include hn hDram hReaches

theorem exec_metadataRegionAccess : exec (.metadataRegionAccess m a n wr) s = .next (if wr then s.start.busError else s.start.metaRead m a n) :=
  answer_of_true (by simp [hn, hDram, hReaches])

theorem exec_metadataRegionAccess_of_refused (h : wr = true ∨ isCore m = false) :
    exec (.metadataRegionAccess m a n wr) s = .next s.start.busError := by
  rw [exec_metadataRegionAccess hn hDram hReaches]
  rcases h with rfl | hMaster
  · rfl
  · cases wr
    · exact congrArg _ ((if_neg Bool.false_ne_true).trans (if_pos (by simp [hMaster])))
    · rfl

theorem exec_metadataRegionAccess_of_core (hMeta : s.metaBase ≤ a) (hCore : isCore m = true)
    (hOn : (rangeBlocks a n).all (fun b => s.memOn (b * 4096)) = true) :
    exec (.metadataRegionAccess m a n false) s = .next (s.start.say (.bytes ((List.range n).map (fun i => s.start.metaByte (a + i))))) := by
  have hLow : s.metaBase - a = 0 := by omega
  rw [exec_metadataRegionAccess hn hDram hReaches]
  simp [State.metaRead, hCore, hOn, hLow]

end
end

/-- Settles O28: a write by its epoch, by where it lands and by its parity; a read by who makes it; either as the Headbox lets it pass, keeps it at its
port (log 84) or finds it on its way. A core may read the controller's checked copy (log 83). -/
theorem memoryAccesses : Obligations.MemoryAccesses := by
  unfold Obligations.MemoryAccesses
  intro s m ep a h k src issues may pass ready
  refine ⟨fun bs prov pois par op mv hSome hm hStale => exec_dramWrite_of_stale hSome hm hStale,
    fun bs prov pois par op mv hSome hFresh hNew => ⟨exec_dramWrite_of_on_way hSome hFresh hNew,
      fun hOff hHeld hReady => exec_dramWrite_of_kept hSome hFresh hReady hNew hOff hHeld⟩,
    fun bs prov pois op mv hSome hFresh hLets hReady => exec_dramWrite_of_lets hSome hFresh hReady hLets,
    fun bs prov pois par op mv hSome hFresh hLets hBar hMeta => exec_dramWrite_of_meta hSome hFresh hLets hBar hMeta,
    fun n wr hn hDram hReaches hRefused => exec_metadataRegionAccess_of_refused hn hDram hReaches hRefused,
    fun n hn hDram hReaches hMeta hCore hOn => exec_metadataRegionAccess_of_core hn hDram hReaches hMeta hCore hOn,
    fun n hn hFresh hLets hReady => ⟨exec_dramRead_of_core hn hFresh hReady hLets, fun hm hHart hQuiet b hPoison => ?poisoned,
      exec_dramRead_of_checker hn hFresh hReady hLets⟩⟩
  case poisoned =>
    subst hm
    exact exec_dramRead_of_poison hn hReady hLets hHart hQuiet hPoison

/-! ## A write inside one block lands (R318, R324, R326) -/

section
variable {s : State} {m ep a i c op mv : Nat} {bs : List Byte} {w : WTag} {b : Nat} {whole prov pois : Bool} {v : Byte}

theorem State.Charged.stored {t : State} (h : s.Charged t) : t.stored c = s.stored c := by
  obtain ⟨r, x, rfl⟩ := h
  rfl

theorem State.Charged.tags_eq {t : State} (h : s.Charged t) : t.tags = s.tags := by
  obtain ⟨r, x, rfl⟩ := h
  rfl

theorem Memory.wf_charged {t : State} (h : s.Charged t) (hs : Memory.wf s = true) : Memory.wf t = true := by
  obtain ⟨r, x, rfl⟩ := h
  exact hs

section
variable (hs : Memory.wf s = true)
include hs

theorem State.stored_landBlock_placed (hv : bs[i]? = some v) : (s.landBlock w b (placed a bs) whole).stored (a + i) = v :=
  (State.landBlock_stored _).trans (State.stored_putAll_placed (Memory.wf_ite hs (Memory.wf_settle hs)) hv)

theorem State.stored_landBlock_other (hc : c < a ∨ a + bs.length ≤ c) : (s.landBlock w b (placed a bs) whole).stored c = s.stored c := by
  have hOutside : ∀ p ∈ placed a bs, p.1 ≠ c := fun p hp => by
    obtain ⟨hLo, hHi⟩ := mem_fst_placed.1 ⟨p, hp, rfl⟩
    rcases hc with hc | hc
    · exact Nat.ne_of_gt (Nat.lt_of_lt_of_le hc hLo)
    · exact Nat.ne_of_lt (Nat.lt_of_lt_of_le hHi hc)
  rw [State.landBlock_stored, State.stored_putAll_other (Memory.wf_ite hs (Memory.wf_settle hs)) hOutside]
  split
  · rfl
  · exact State.stored_settle hs b

end

theorem writerKind_ne_camera : (writerKind m == .camera) = false := by
  unfold writerKind
  split <;> rfl

theorem State.blockWrite_of_good (hSome : bs ≠ []) (hOne : (a + bs.length - 1) / 4096 = a / 4096) (hData : s.region a bs.length = .data)
    (hOk : s.blockOk (a / 4096) = true) (hQuiet : s.chanOf (a / 4096) = 0) : s.blockWrite m ep a bs prov pois false op mv =
      s.landBlock ⟨m, ep, prov, pois, writerKind m⟩ (a / 4096) (placed a bs) (bs.length == 4096) := by
  have hPlaced : placed a bs ≠ [] := by
    rw [← List.length_pos_iff, length_placed]
    exact List.length_pos_iff.2 hSome
  have hLands := State.storeBlock_of_good (w := ⟨m, ep, prov, pois, writerKind m⟩) (ws := placed a bs) (whole := bs.length == 4096)
    (op := op) (mv := mv) (State.not_vat_of_data hData) hQuiet hOk (by rw [writerKind_ne_camera, Bool.false_or]; exact placed_covers_block hOne)
  simp [State.blockWrite, State.store_of_one_block hPlaced (placed_in_block hOne), hLands]

end

/-- Settles O27: the write lands in its block, and is then charged where it waits for leave at its port (log 84). -/
theorem dramWriteLands : Obligations.DramWriteLands := by
  unfold Obligations.DramWriteLands
  intro s m ep a op mv h k bs prov pois hs hSome hOne hData hBar hOn hFill hEpoch hOk hQuiet src part hLets
  have hBlocks : rangeBlocks a bs.length = [a / 4096] := rangeBlocks_of_one_block (by simpa using hSome) hOne
  have hReady : s.DataReady m a bs.length := ⟨hBar, hData, by simp [hBlocks, hOn], by simp [hBlocks, State.pendingBlock, hFill]⟩
  have hFresh : ¬ (m < 64 ∧ ep ≠ s.epoch m) := fun hStale => hStale.2 (hEpoch hStale.1)
  have hExec := exec_dramWrite_of_lets (s := s) (h := h) (k := k) (prov := prov) (pois := pois) (par := false) (op := op) hSome hFresh hReady hLets
  rw [State.blockWrite_of_good (s := s.start) hSome hOne hData hOk hQuiet] at hExec
  have hCharged := s.hbxPassed_charged (s.start.landBlock ⟨m, ep, prov, pois, writerKind m⟩ (a / 4096) (placed a bs) (bs.length == 4096)) m src a
    bs.length false mv
  have hStart : Memory.wf s.start = true := hs
  exact ⟨_, _, hExec, rfl, State.landBlock_regs, fun i v hv => hCharged.stored.trans (State.stored_landBlock_placed hStart hv),
    fun c hc => hCharged.stored.trans (State.stored_landBlock_other hStart hc), hCharged.tags_eq.trans (State.landBlock_tags),
    State.hbxPassed_resp.trans (State.landBlock_resp), Memory.wf_charged hCharged (Memory.wf_landBlock hStart)⟩

/-! ## The patrol (R329) -/

section
variable {s : State} {i j b : Nat}

theorem State.patrolCheck_of_skipped (h : (s.tag b).fill = true ∨ s.isChecked b = true) : s.patrolCheck i b = s :=
  if_pos (by simpa using h)

section
variable (hFill : (s.tag b).fill = false) (hUnheld : s.isChecked b = false) (hQuiet : s.chanOf b = 0)
include hFill hUnheld hQuiet

theorem State.patrolCheck_of_good (hOk : s.blockOk b = true) : s.patrolCheck i b = (s.settle b).noteChecked b := by
  simp [State.patrolCheck, hFill, hUnheld, State.channel_of_quiet hQuiet, hOk, State.retried]

theorem State.patrolCheck_of_bad (hBad : s.blockOk b = false) : s.patrolCheck i b = s.patrolFail i b := by
  simp [State.patrolCheck, hFill, hUnheld, State.channel_of_quiet hQuiet, hBad]

end

theorem exec_patrolSweepStart (h : s.sweepDue i = true) : exec (.patrolSweepStart i) s = .next (s.start.setPatrol i ⟨true, some s.cyc, []⟩) :=
  answer_of_true h

theorem exec_patrolRead_of_off (h : s.fld (MEM_CTL_PATROL.SWEEP_S i) = 0) :
    exec (.patrolRead i j 0 []) s = .next { s.start with resp := .inapplicable } :=
  answer_of_false (by simp [h])

theorem exec_patrolRead (hUp : s.ctlUp i = true) (hRuns : (s.patrol i).running = true) (hOn : s.fld (MEM_CTL_PATROL.SWEEP_S i) ≠ 0)
    (hj : j < s.siteBlocks) (hNew : j ∉ (s.patrol i).seen) :
    exec (.patrolRead i j 0 []) s = .next ((s.start.patrolCheck i (s.blockAddr i j / 4096)).patrolDone i j) := by
  have hArm : (s.start.flipAll []).arm (s.blockAddr i j) 0 = s.start := s.start.arm_zero _
  show execPatrolRead i j 0 [] s = _
  unfold execPatrolRead
  rw [hArm]
  exact answer_of_true (by simp [hUp, hRuns, hOn, hj, hNew])

end

/-! ## MEM_SPLIT (R318, R352) -/

section
variable {s : State} {m v : Nat} {w : Word}

theorem exec_memSplitWrite (hm : s.mayWrite m MEM_SPLIT.addr = true) : exec (.memSplitWrite m v) s = .next (s.start.writeSplit (BitVec.ofNat 32 v)) :=
  State.write_of_mayWrite hm

theorem State.writeSplit_of_taken (hOpen : s.flag MEM_SPLIT.LOCK = false) (hFits : bits w 11 0 ≤ s.dieData / 0x2000000) :
    s.writeSplit w = if bits w 31 31 = 1 then (s.remap (s.setF MEM_SPLIT.BOTH_32M (bits w 11 0))).setF MEM_SPLIT.LOCK 1
      else s.remap (s.setF MEM_SPLIT.BOTH_32M (bits w 11 0)) := by
  have hTaken : ¬ (s.flag MEM_SPLIT.LOCK || decide (s.dieData / 0x2000000 < bits w 11 0)) = true := by simpa [hOpen] using hFits
  simp only [State.writeSplit, if_neg hTaken]

theorem State.writeSplit_of_ignored (h : s.flag MEM_SPLIT.LOCK = true ∨ s.dieData / 0x2000000 < bits w 11 0) :
    s.writeSplit w = if bits w 31 31 = 1 then s.setF MEM_SPLIT.LOCK 1 else s := by
  have hIgnored : (s.flag MEM_SPLIT.LOCK || decide (s.dieData / 0x2000000 < bits w 11 0)) = true := by simpa using h
  simp only [State.writeSplit, if_pos hIgnored]

end

/-- Settles O29: a patrol read by what it finds of the block (a held checked copy is log 68); a write of MEM_SPLIT by whether its value is taken and
whether it sets LOCK (log 87). -/
theorem patrolAndSplit : Obligations.PatrolAndSplit := by
  unfold Obligations.PatrolAndSplit
  intro s i j m v
  refine ⟨exec_patrolSweepStart, exec_patrolRead_of_off, fun hUp hRuns hOn hj hNew => ?patrol, fun hm => ?split⟩
  case patrol =>
    rw [exec_patrolRead hUp hRuns hOn hj hNew]
    have hThen {t u : State} (h : t = u) : (Host.Outcome.next (t.patrolDone i j) : Host.Outcome State Fault Refusal) = .next (u.patrolDone i j) := by
      rw [h]
    exact ⟨fun hSkip => hThen (State.patrolCheck_of_skipped (s := s.start) hSkip),
      fun hFill hUnheld hQuiet hOk => hThen (State.patrolCheck_of_good (s := s.start) hFill hUnheld hQuiet hOk),
      fun hFill hUnheld hQuiet hBad => hThen (State.patrolCheck_of_bad (s := s.start) hFill hUnheld hQuiet hBad)⟩
  case split =>
    rw [exec_memSplitWrite hm]
    have hUnset {x : Nat} (h : x = 0) : ¬ x = 1 := by omega
    refine ⟨fun hLock hKeep => congrArg _ ?_, fun hOpen hFits t ht => ?taken, fun hOpen hBeyond => ?beyond, fun hLock hSet => congrArg _ ?_⟩
    · exact (State.writeSplit_of_ignored (s := s.start) (.inl hLock)).trans (if_neg (hUnset hKeep))
    case taken =>
      subst ht
      have hWrite := State.writeSplit_of_taken (s := s.start) hOpen hFits
      exact ⟨fun hKeep => congrArg _ (hWrite.trans (if_neg (hUnset hKeep))), fun hSet => congrArg _ (hWrite.trans (if_pos hSet))⟩
    case beyond =>
      have hWrite := State.writeSplit_of_ignored (s := s.start) (.inr hBeyond)
      exact ⟨fun hKeep => congrArg _ (hWrite.trans (if_neg (hUnset hKeep))), fun hSet => congrArg _ (hWrite.trans (if_pos hSet))⟩
    · exact (State.writeSplit_of_ignored (s := s.start) (.inl hLock)).trans (if_pos hSet)

/-! ## Page moves (R335–R337, R347, R348) -/

section
variable {s : State} {m : Nat}

theorem moveRow_of_head {p : Nat → Bool} {r : Nat} {b : List Byte} (hRing : s.startCows.nextRing m = some r)
    (hHead : s.startCows.ringHead m r = some b) (hp : p (leAt b 0 1) = true) :
    moveRow m p s = .next (s.startCows.start.startMove m r) := by
  simp only [moveRow, State.nextMove, hRing, hHead, hp, if_true]

theorem State.cqeTaken_of_unowned {status : Nat} {ok : Bool} : s.cqeTaken m status ok none = s := rfl

theorem State.cqeTaken_of_bad {status : Nat} {ok : Bool} {p : Nat × Nat} (hBad : ok = false) :
    s.cqeTaken m status ok (some p) = (s.failMove m p.1 3).pump := by
  subst hBad
  rfl

theorem State.cqeTaken_of_good {status : Nat} {ok : Bool} {p : Nat × Nat} (hGood : ok = true) :
    s.cqeTaken m status ok (some p) = (if status = 0 then s.pieceGot m p.1 p.2 else s.pieceFailed m p.1 p.2 false).pump := by
  subst hGood
  rfl

/-- The blocks of the entry at the head of mover m's completion queue. -/
def State.cqeBlocks (s : State) (m : Nat) : List Nat := rangeBlocks (s.nvmeAddr m 1 + 16 * (s.mover m).cqHead) 16

section
variable (hNew : s.cqeNew m = true)
include hNew

theorem exec_nvmeCompletion_of_unowned (hOwn : s.cidPiece m (leAt (s.cqe m) 12 2) = none) :
    exec (.nvmeCompletion m) s = .next ((s.start.cqePop m).checkAll 0 0 (s.cqeBlocks m)).1 := by
  show execNvmeCompletion m s = _
  simp only [execNvmeCompletion, hOwn, answer_of_true hNew]
  exact congrArg _ State.cqeTaken_of_unowned

theorem exec_nvmeCompletion_of_owned {id k : Nat} (hOwn : s.cidPiece m (leAt (s.cqe m) 12 2) = some (id, k)) :
    let r := (s.start.cqePop m).checkAll 0 id (s.cqeBlocks m)
    exec (.nvmeCompletion m) s = .next (r.1.cqeTaken m (leAt (s.cqe m) 14 2 / 2) r.2 (some (id, k))) := by
  show execNvmeCompletion m s = _
  simp only [execNvmeCompletion, hOwn, State.cqeBlocks, answer_of_true hNew]

end

theorem exec_sheetReadTimeout {i k : Nat} {v : Move} (hv : (s.mover m).moves[i]? = some v) (hFetch : (MoveDesc.ofBytes v.bytes).fetch = true)
    (hOut : (getAt ⟨0, 0, false, true, 0, 0, 0⟩ v.sheets k).out = true)
    (hLate : (getAt ⟨0, 0, false, true, 0, 0, 0⟩ v.sheets k).issued + s.fld (MEM_PMV_T2_TIMEOUT.US m) * 1000 ≤ s.cyc) :
    exec (.sheetReadTimeout m i k) s = .next ((s.start.pieceFailed m v.id k false).pump) := by
  have hSheet : s.sheetLate m i k = some v := by simp [State.sheetLate, hv, hFetch, hOut, hLate]
  show execSheetReadTimeout m i k s = _
  simp only [execSheetReadTimeout, hSheet]

section
variable {i : Nat} {v : Move} (hv : (s.mover m).moves[i]? = some v) (hIdle : v.busy = false) (hQuiet : s.moveReported v.id = false)
include hv hIdle hQuiet

theorem exec_moveComplete_of_failed (hCode : v.code ≠ 0) : exec (.moveComplete m i) s = .next (s.start.moveFail m v) := by
  show execMoveComplete m i s = _
  simp [execMoveComplete, hv, hIdle, hQuiet, hCode]

/-- A move of good standing with no piece and nothing to wait for runs here. -/
theorem exec_moveComplete_of_local (hCode : v.code = 0) (hSheets : v.sheets = []) (hWaits : s.moveWaits v = []) :
    exec (.moveComplete m i) s = .next (s.start.moveRun m v (MoveDesc.ofBytes v.bytes) v.sources) := by
  have hWhole : v.whole = true := by simp [Move.whole, hSheets]
  show execMoveComplete m i s = _
  simp [execMoveComplete, hv, hIdle, hQuiet, hCode, hSheets, hWaits, hWhole]

end

theorem State.moveWaits_of_fill {v : Move} (hReads : v.reads = []) (hOp : (MoveDesc.ofBytes v.bytes).op = 2) : s.moveWaits v = [] := by
  have hFetch : (MoveDesc.ofBytes v.bytes).fetch = false := by simp [MoveDesc.fetch, hOp]
  simp [State.moveWaits, hReads, hFetch, State.dramBlocks, State.localBlocks, blocksOf, State.pendings]

/-- A FILL reads nothing: it is charged for its bytes and writes them. -/
theorem State.moveRun_of_fill {v : Move} {d : MoveDesc} (hSheets : v.sheets = []) (hReads : v.reads = []) (hOp : d.op = 2)
    (hFree : s.hbxBars (0x40 + m) v.ring (m / 8) v.writes = false) :
    s.moveRun m v d v.sources =
      let r := (s.regulateAll (0x40 + m) v.ring (m / 8) v.writes).moveStore m v d (placed d.dst (List.replicate d.len (BitVec.ofNat 8 d.fill)))
      if r.2 then r.1.moveDone m v else r.1.putMove m { v with code := 3 } := by
  have hSources : v.sources = [] := by simp [Move.sources, hSheets, hReads, blocksOf]
  have hScan : s.moveScan v [] = .ok false := rfl
  have hNote : s.noteReads [] 0 v.id = s := rfl
  have hNothing : s.regulateAll (0x40 + m) v.ring (m / 8) [] = s := rfl
  have hBytes : s.moveBytes v d = some (placed d.dst (List.replicate d.len (BitVec.ofNat 8 d.fill))) := if_pos hOp
  simp [State.moveRun, hSources, hScan, hSheets, hReads, hFree, hNote, hNothing, hBytes, hOp, Option.filter]

end

/-- Settles O31: a start by the OP of the head; a completion entry, whose layout and phase are log 34 (PRESUMED), by its check and its status; a FILL,
charged where its ring's class lets it go (log 84), as it runs. -/
theorem movesRun : Obligations.MovesRun := by
  unfold Obligations.MovesRun
  intro s m
  refine ⟨fun r b hRing hHead => ?starts, fun hNew => ?completion, fun i k v hv hFetch hOut hLate => exec_sheetReadTimeout hv hFetch hOut hLate,
    fun i v hv hIdle hQuiet => ⟨exec_moveComplete_of_failed hv hIdle hQuiet, fun hCode hSheets hReads hOp hFree => ?fill⟩⟩
  case starts =>
    have hStarts {p : Nat → Bool} {n : Nat} (hp : p n = true) (hn : leAt b 0 1 = n) : moveRow m p s = .next (s.startCows.start.startMove m r) :=
      moveRow_of_head hRing hHead (by rw [hn]; exact hp)
    exact ⟨hStarts rfl, hStarts rfl, hStarts rfl, hStarts rfl, hStarts rfl, hStarts rfl⟩
  case completion =>
    refine ⟨exec_nvmeCompletion_of_unowned hNew, fun id k hOwn => ?_⟩
    have hTaken := exec_nvmeCompletion_of_owned hNew hOwn
    refine ⟨fun hBad => hTaken.trans (congrArg _ (State.cqeTaken_of_bad hBad)), fun hGood hOk => hTaken.trans (congrArg _ ?_),
      fun hGood hError => hTaken.trans (congrArg _ ?_)⟩
    · exact (State.cqeTaken_of_good hGood).trans (congrArg State.pump (if_pos hOk))
    · exact (State.cqeTaken_of_good hGood).trans (congrArg State.pump (if_neg hError))
  case fill =>
    rw [exec_moveComplete_of_local hv hIdle hQuiet hCode hSheets (State.moveWaits_of_fill hReads hOp)]
    exact congrArg _ (State.moveRun_of_fill (s := s.start) hSheets hReads hOp hFree)

end Sys2Proof.Machine

/-! # The Headbox (10_headbox_regulation.md) -/

namespace Sys2Proof.Machine
open Sys2Proof

/-! ## Requests at their master ports and on their way (R362–R364, R366, R371, R376) -/

/-- A request of n bytes at a as it reaches its master port: its class given, its whole route ahead (R364). -/
def State.hbxArrival (s : State) (m part src a n : Nat) (rd : Bool) : HbxReq :=
  ⟨m, src, s.hbxClass m part a, a, n, rd, s.hbxRoute src a, 0, s.cyc, false⟩

section
variable {s : State} {m part src a n k j : Nat} {rd : Bool}

theorem exec_hbxRequestForward_of_new (hDie : (masterDies m).contains src = true) (hThere : src = 3 → s.iod1 = true) (hBytes : n ≠ 0)
    (hOn : s.hbxDark (s.hbxRoute src a) = false) :
    exec (.hbxRequestForward true m part src a n rd k j) s = .next (s.start.hbxNew m part src a n rd) := by
  have hPresent : (src != 3 || s.iod1) = true := by simpa [imp_iff_not_or] using hThere
  exact answer_of_true (by rw [hDie, hPresent, hOn, bne_iff_ne.2 hBytes]; rfl)

theorem State.hbxNew_of_unrouted (h : s.hbxRoute src a = []) : s.hbxNew m part src a n rd = s := if_pos (by rw [h]; rfl)

section
variable (hRouted : s.hbxRoute src a ≠ [])
include hRouted

theorem State.hbxNew_of_routed : s.hbxNew m part src a n rd =
    let t := s.hbxCount m part a
    let r := s.hbxArrival m part src a n rd
    if t.hbxMayIssue r (t.hbxQueue hopPorts) then t.hbxPass r else t.setHbxQueue hopPorts (t.hbxQueue hopPorts ++ [r]) :=
  if_neg (by simpa using hRouted)

theorem State.hbxNew_of_issued
    (h : (s.hbxCount m part a).hbxMayIssue (s.hbxArrival m part src a n rd) ((s.hbxCount m part a).hbxQueue hopPorts) = true) :
    s.hbxNew m part src a n rd = (s.hbxCount m part a).hbxPass (s.hbxArrival m part src a n rd) :=
  (State.hbxNew_of_routed hRouted).trans (if_pos h)

theorem State.hbxNew_of_held
    (h : (s.hbxCount m part a).hbxMayIssue (s.hbxArrival m part src a n rd) ((s.hbxCount m part a).hbxQueue hopPorts) = false) :
    s.hbxNew m part src a n rd =
      (s.hbxCount m part a).setHbxQueue hopPorts ((s.hbxCount m part a).hbxQueue hopPorts ++ [s.hbxArrival m part src a n rd]) :=
  (State.hbxNew_of_routed hRouted).trans (if_neg (by simp [h]))

end

section
variable {r : HbxReq} (hr : (s.hbxQueue k)[j]? = some r)
include hr

theorem exec_hbxRequestForward_of_port (hPort : k = hopPorts) (hMay : s.hbxMayIssue r ((s.hbxQueue k).take j) = true)
    (hOn : s.hbxDark r.route = false) :
    exec (.hbxRequestForward false m part src a n rd k j) s = .next (s.start.hbxLeave k j r) := by
  show execHbxRequestForward false m part src a n rd k j s = _
  simp only [execHbxRequestForward, hr, if_pos hPort, List.append_nil]
  exact answer_of_true (by rw [hMay, hOn]; rfl)

/-- A read stays in its controller's queue until its data have been read (R374). -/
theorem exec_hbxRequestForward_of_queue (hQueue : k ≠ hopPorts) (hMoves : 8 ≤ k ∨ r.rd = false) (hNext : hbxNext k (s.hbxQueue k) j = true)
    (hRoom : s.hbxRoom r = true) (hOn : s.hbxDark (r.route ++ [k]) = false) :
    exec (.hbxRequestForward false m part src a n rd k j) s = .next (s.start.hbxLeave k j r) := by
  have hNotRead : (decide (k < 8) && r.rd) = false := by simpa [imp_iff_not_or] using hMoves
  show execHbxRequestForward false m part src a n rd k j s = _
  simp only [execHbxRequestForward, hr, if_neg hQueue]
  exact answer_of_true (by rw [hNext, hRoom, hNotRead, hOn]; rfl)

end
end

/-! ## Windows, latencies and age (R368, R373–R376) -/

section
variable {s : State} {i c k j : Nat} {r : HbxReq}

theorem State.hbxSync_of_due {renew : Bool} (h : s.hbxDue i c = some renew) : s.hbxSync i c = s.hbxBoundary i c renew := by
  simp only [State.hbxSync, h]

theorem exec_hbxWindowBoundary {renew : Bool} (hOn : s.pdOn (pdCore i) = true) (hDue : s.hbxDue i c = some renew) :
    exec (.hbxWindowBoundary i c) s = .next (s.start.hbxBoundary i c renew) := by
  rw [← State.hbxSync_of_due (s := s.start) hDue]
  exact answer_of_true (by rw [hOn, hDue]; rfl)

theorem exec_hbxReadComplete (hk : k < 8) (hr : (s.hbxQueue k)[j]? = some r) (hRead : r.rd = true) (hNext : hbxNext k (s.hbxQueue k) j = true)
    (hOn : s.pdOn (pdCore (k / 4)) = true) :
    exec (.hbxReadComplete k j) s =
      .next (((s.start.setHbxQueue k ((s.hbxQueue k).eraseIdx j)).hbxSync (k / 4) r.cls).hbxLatency (k / 4) r.cls (s.cyc - r.since)) := by
  show execHbxReadComplete k j s = _
  simp only [execHbxReadComplete, hr]
  exact answer_of_true (by rw [decide_eq_true hk, hRead, hNext, hOn]; rfl)

theorem exec_hbxAgeRaise (hOwn : hopOwn k = true) (hr : (s.hbxQueue k)[j]? = some r) (hFirst : r.aged = false)
    (hOn : s.pdOn (pdCore (hopInst k)) = true) (hAge : s.fld (HBX_CFG.AGE_64NS (hopInst k)) ≠ 0)
    (hOld : s.fld (HBX_CFG.AGE_64NS (hopInst k)) * 64 ≤ s.cyc - r.since) :
    exec (.hbxAgeRaise k j) s =
      .next ((s.start.setHbxQueue k (setAt (s.hbxQueue k) j { r with level := 7, aged := true })).bump (HBX_AGED.COUNT (hopInst k)) 1) := by
  show execHbxAgeRaise k j s = _
  simp only [execHbxAgeRaise, hr]
  exact answer_of_true (by rw [hOwn, hOn, hFirst, bne_iff_ne.2 hAge, decide_eq_true hOld]; rfl)

end

/-! ## The class table (R367) -/

/-- The held BASE word of entry e, or the one it has. -/
def State.hbxEntryBase (s : State) (e : Nat) : Word := s.heldOr (HBX_MATCH_BASE.addr e)
/-- The held LIMIT word of entry e, or the one it has. -/
def State.hbxEntryLimit (s : State) (e : Nat) : Word := s.heldOr (HBX_MATCH_LIMIT.addr e)

/-- Entry e takes CTRL with its BASE and LIMIT words, while the ports keep the entry they have. -/
def State.hbxEnter (s : State) (e : Nat) (w : Word) : State :=
  let t := { s.setF HBX_TBL_CTRL.LAST_ENTRY e with hbxCopy := some (e, s.hbxEntry e) }
  let u := (t.wr (HBX_MATCH_CTRL.addr e) (w &&& 0xF01FFFFF)).wr (HBX_MATCH_BASE.addr e) (s.hbxEntryBase e)
  let u := u.wr (HBX_MATCH_LIMIT.addr e) (s.hbxEntryLimit e)
  ((u.unhold (HBX_MATCH_BASE.addr e)).unhold (HBX_MATCH_LIMIT.addr e)).setF HBX_TBL_CTRL.BUSY 1

section
variable {s : State} {m e v : Nat} {w : Word}

theorem exec_hbxMatchCtrlWrite (hm : s.mayWrite m (HBX_MATCH_CTRL.addr e) = true) :
    exec (.hbxMatchCtrlWrite m e v) s = .next (s.start.hbxMatchWrite e (BitVec.ofNat 32 v)) :=
  State.write_of_mayWrite hm

theorem State.hbxMatchWrite_of_busy (h : s.flag HBX_TBL_CTRL.BUSY = true) : s.hbxMatchWrite e w = s.setF HBX_TBL_CTRL.REJECT 1 := if_pos h

section
variable (hIdle : s.flag HBX_TBL_CTRL.BUSY = false)
include hIdle

theorem State.hbxMatchWrite_of_idle : s.hbxMatchWrite e w =
    if bits w 30 30 = 1 ∧ (s.hbxEntryLimit e).toNat < (s.hbxEntryBase e).toNat
      then (s.setF HBX_TBL_CTRL.LAST_ENTRY e).setF HBX_TBL_CTRL.REJECT 1 else s.hbxEnter e w :=
  if_neg (by simp [hIdle])

theorem State.hbxMatchWrite_of_refused (hWindow : bits w 30 30 = 1) (hEmpty : (s.hbxEntryLimit e).toNat < (s.hbxEntryBase e).toNat) :
    s.hbxMatchWrite e w = (s.setF HBX_TBL_CTRL.LAST_ENTRY e).setF HBX_TBL_CTRL.REJECT 1 :=
  (State.hbxMatchWrite_of_idle hIdle).trans (if_pos ⟨hWindow, hEmpty⟩)

theorem State.hbxMatchWrite_of_taken (h : bits w 30 30 = 1 → (s.hbxEntryBase e).toNat ≤ (s.hbxEntryLimit e).toNat) :
    s.hbxMatchWrite e w = s.hbxEnter e w :=
  (State.hbxMatchWrite_of_idle hIdle).trans (if_neg fun ⟨hWindow, hEmpty⟩ => Nat.not_lt.2 (h hWindow) hEmpty)

end

theorem exec_hbxTableCopyDone (h : s.flag HBX_TBL_CTRL.BUSY = true) : exec .hbxTableCopyDone s = .next s.start.hbxCopied := answer_of_true h

end

/-! ## The class and budget registers (R373, R384) -/

section
variable {s : State} {m i c k v : Nat} {w : Word}

theorem exec_hbxClassWrite (hk : k < 5) (hm : s.mayWrite m (hbxClassAddr i c k) = true) :
    exec (.hbxClassWrite m i c k v) s = .next (s.start.hbxClassWrite i c k (BitVec.ofNat 32 v)) :=
  (if_neg (Nat.not_le.2 hk)).trans (State.write_of_mayWrite hm)

theorem State.hbxClassWrite_of_class (h : bits w 31 28 ≤ 12) :
    s.hbxClassWrite i c 0 w = (s.hbxKeep i c).wr (HBX_CLASS.addr i c) (w &&& 0xFFFCFFFF) :=
  (if_pos rfl).trans (if_neg (by omega))

theorem State.hbxClassWrite_of_long_window (h : 13 ≤ bits w 31 28) : s.hbxClassWrite i c 0 w = s :=
  (if_pos rfl).trans (if_pos h)

theorem State.hbxClassWrite_of_budget : s.hbxClassWrite i c 1 w = (s.hbxKeep i c).wr (HBX_BUDGET.addr i c) w := rfl

theorem State.hbxClassWrite_of_link {l : Nat} : s.hbxClassWrite i c (l + 2) w = (s.hbxKeep i c).wr (HBX_LINK_BUDGET.addr i c l) w := rfl

end

/-- Settles O32: a request by whether it is new, and then by its route and its leave, or by the queue it stands in (ports, routes and charges are
log 84, DESIGN CHOICE); a boundary, a completed read and a raise by their commands' rules; a CTRL write by the copy and by its window; a class write
by its register and its window length. -/
theorem headboxRegulates : Obligations.HeadboxRegulates := by
  unfold Obligations.HeadboxRegulates
  intro s m i c
  refine ⟨fun part src a n rd k j hDie hThere hBytes hOn => ?new,
    fun part src a n rd k j r hr => ⟨exec_hbxRequestForward_of_port hr, exec_hbxRequestForward_of_queue hr⟩,
    fun renew => exec_hbxWindowBoundary, fun k j r => exec_hbxReadComplete, fun k j r => exec_hbxAgeRaise, fun e v hm => ?entry,
    exec_hbxTableCopyDone, fun v => ?settings⟩
  case new =>
    rw [exec_hbxRequestForward_of_new hDie hThere hBytes hOn]
    exact ⟨fun hLocal => congrArg _ (State.hbxNew_of_unrouted (s := s.start) hLocal),
      fun hRouted hMay => congrArg _ (State.hbxNew_of_issued (s := s.start) hRouted hMay),
      fun hRouted hHeld => congrArg _ (State.hbxNew_of_held (s := s.start) hRouted hHeld)⟩
  case entry =>
    rw [exec_hbxMatchCtrlWrite hm]
    exact ⟨fun hBusy => congrArg _ (State.hbxMatchWrite_of_busy (s := s.start) hBusy),
      fun hIdle hWindow hEmpty => congrArg _ (State.hbxMatchWrite_of_refused (s := s.start) hIdle hWindow hEmpty),
      fun hIdle hFits => congrArg _ (State.hbxMatchWrite_of_taken (s := s.start) hIdle hFits)⟩
  case settings =>
    refine ⟨fun hm hFits => ?_, fun hm hLong => ?_, fun hm => ?_, fun l hl hm => ?_⟩
    · exact (exec_hbxClassWrite (k := 0) (by decide) hm).trans (congrArg _ (State.hbxClassWrite_of_class hFits))
    · exact (exec_hbxClassWrite (k := 0) (by decide) hm).trans (congrArg _ (State.hbxClassWrite_of_long_window hLong))
    · exact (exec_hbxClassWrite (k := 1) (by decide) hm).trans (congrArg _ State.hbxClassWrite_of_budget)
    · exact (exec_hbxClassWrite (k := l + 2) (by omega) hm).trans (congrArg _ State.hbxClassWrite_of_link)

end Sys2Proof.Machine

/-! # Reports, the watchdog and parity (11_integrity.md) -/

namespace Sys2Proof.Machine
open Sys2Proof

section
variable {s : State}

theorem exec_checkFailureReport_of_waiting {r : Report} {rest : List Report} (h : s.reports = r :: rest) :
    exec (.checkFailureReport none) s = .next ({ s.start with reports := rest }.onReport r) := by
  show execCheckFailureReport none s = _
  simp only [execCheckFailureReport, h]

theorem exec_checkFailureReport_of_outside {r : Report} (hOk : reportOk r = true) (hFits : s.reportFits r = true) :
    exec (.checkFailureReport (some r)) s = .next (s.start.onReport r) :=
  answer_of_true (by rw [hOk, hFits]; rfl)

theorem State.watchdogOut_of_spent {n : Nat} {o : Op} (hOp : s.oldestOp n = some o) (hOn : s.fld ITG_POLICY.WDOG ≠ 0) (hService : s.svc n ≤ 1)
    (hSpent : s.fld ITG_POLICY.WDOG * 100000 ≤ (s.cl n).wdog) : s.watchdogOut n = some o :=
  (if_pos ⟨hOn, hService, hSpent⟩).trans hOp

theorem exec_watchdogExpiry {n : Nat} {o : Op} (h : s.watchdogOut n = some o) :
    exec (.watchdogExpiry n) s = .next (s.start.onReport ⟨0x0B, n, n, o.id, 0, 0, 0, 0, 0, 0⟩) := by
  show execWatchdogExpiry n s = _
  simp only [execWatchdogExpiry, h]

theorem exec_meshParityError_of_retry {k : Nat} (hSome : k ≠ 0) (hFew : k < 4) : exec (.meshParityError k) s = .next s.start :=
  (answer_of_true (by simpa using hSome)).trans (congrArg _ (if_pos hFew))

end

/-- Settles O33: a report by where it comes from (waiting reports stand in a list, log 16; one from outside fits what it names, log 85); the
watchdog, the control mesh and a header by their commands' rules. -/
theorem integrityReports : Obligations.IntegrityReports := by
  unfold Obligations.IntegrityReports
  intro s
  refine ⟨fun r rest => exec_checkFailureReport_of_waiting, fun r => exec_checkFailureReport_of_outside,
    fun n o hOp hOn hService hSpent => exec_watchdogExpiry (State.watchdogOut_of_spent hOp hOn hService hSpent),
    fun k hk => exec_meshParityError_of_retry (by omega) (by omega), ?fatal, ?header⟩
  case fatal => rfl
  case header => exact fun u op move => rfl

end Sys2Proof.Machine

/-! # The robotics engines: an operation runs and completes (12_dune_planning.md, 13_marl_solver.md, 15_loam_fusion.md) -/

namespace Sys2Proof.Machine
open Sys2Proof

/-! ## What every engine's operation does -/

/-- An operation kept in its unit with what it has come to at a moment. -/
def State.engKeep (s : State) (e : Nat) (load : Bool) (o : Op) (cyc : Nat) (out : EngOut) : State :=
  s.setUnit e load (some { o with acceptTime := cyc, provIn := out.provIn }) (some out)

section
variable {s u : State} {e : Nat} {load : Bool} {p : Nat → Bool} {f : State → Op → Obj → EngRes} {o : Op} {x : Obj} {out : EngOut}

/-- An operation that waits at the front of its unit and comes to an outcome is kept there with it. -/
theorem State.engRun_of_done (hHead : s.engHead e load p = some (o, x)) (hRun : f s.start o x = .done u out) :
    s.engRun e load p f = .next (u.engKeep e load o s.cyc out) := by
  simp only [State.engRun, hHead, hRun]
  rfl

end

/-! ## Dune (R435, R441–R455) -/

section
variable {s u : State} {e : Nat} {o : Op} {x : Obj} {out : EngOut}

theorem State.duneOp_of_ok (f : State → EngRes) (hOk : duneParamOk o.bytes x = true) (hDone : f s = .done u out) : s.duneOp o x f = .done u out :=
  (if_pos hOk).trans hDone

theorem State.duneOp_of_bad {f : State → EngRes} (h : duneParamOk o.bytes x = false) : s.duneOp o x f = .done s (EngOut.of stBadParam 0 []) :=
  if_neg (by rw [h]; exact Bool.false_ne_true)

/-- A NOP comes to OK or to BAD_PARAM. -/
theorem State.duneOp_of_nop : s.duneOp o x (fun u => .done u (EngOut.of 0 0 [])) =
    .done s (EngOut.of (if duneParamOk o.bytes x then 0 else stBadParam) 0 []) := by
  unfold State.duneOp
  split <;> rfl

theorem State.duneUnbind_of_empty (h : s.duneSlot e o x = none) : s.duneUnbind e o x = .done s (EngOut.of dunNoRoadmap 0 []) := by
  simp only [State.duneUnbind, h]

section
variable {y : DuneSlot} (hSlot : s.duneSlot e o x = some y)
include hSlot

theorem State.duneUnbind_of_named (h : s.slotNamed (e + 1) o.queue (leAt o.bytes 1 1) x [0x41, 0x43, 0x44] = true) :
    s.duneUnbind e o x = .done s (EngOut.of dunSlotBusy 0 []) := by
  simp only [State.duneUnbind, hSlot, h, if_true]

theorem State.duneUnbind_of_unnamed (h : s.slotNamed (e + 1) o.queue (leAt o.bytes 1 1) x [0x41, 0x43, 0x44] = false) :
    s.duneUnbind e o x = .done s { EngOut.of 0 0 [] with duneSlots := some (setAt (s.dune e).slots (leAt o.bytes 1 1) none) } := by
  simp only [State.duneUnbind, hSlot, h, Bool.false_eq_true, if_false]

end

section
variable (hHead : s.engHead (e + 1) false (fun op => op == 0 || !(decide (0x40 ≤ op ∧ op ≤ 0x44))) = some (o, x))
include hHead

theorem exec_dunNop_of_unlisted (hOp : leAt o.bytes 0 1 ≠ 0) :
    exec (.dunNop e 0) s = .next (s.start.engKeep (e + 1) false o s.cyc (EngOut.of stBadOpcode 0 [])) := by
  show execDunNop e 0 s = _
  unfold execDunNop
  exact State.engRun_of_done hHead (if_pos hOp)

theorem exec_dunNop_of_nop (hOp : leAt o.bytes 0 1 = 0) : exec (.dunNop e 0) s =
    .next (s.start.engKeep (e + 1) false o s.cyc (EngOut.of (if duneParamOk o.bytes x then 0 else stBadParam) 0 [])) := by
  show execDunNop e 0 s = _
  unfold execDunNop
  exact State.engRun_of_done hHead ((if_neg (not_not.2 hOp)).trans State.duneOp_of_nop)

end

/-- The state after Dune e has reported a parity failure of an operation. -/
def State.duneFaulted (s : State) (e : Nat) (o : Op) : State := s.engFault (e + 1) o dunEngine (DUN_PARITY.COUNT e)

theorem exec_dunNop_of_parity (hHead : s.engHead (e + 1) false (fun op => op == 0 || !(decide (0x40 ≤ op ∧ op ≤ 0x44))) = some (o, x)) :
    exec (.dunNop e 1) s = .next ((s.start.duneFaulted e o).engKeep (e + 1) false o s.cyc (EngOut.of dunEngine 0 [])) := by
  show execDunNop e 1 s = _
  unfold execDunNop
  exact State.engRun_of_done hHead rfl

section
variable (hHead : s.engHead (e + 1) false (fun op => op == 0x40) = some (o, x))
include hHead

theorem exec_dunBind_of_ok (hOk : duneParamOk o.bytes x = true) (hDone : s.start.duneBind e o x = .done u out) :
    exec (.dunBind e 0) s = .next (u.engKeep (e + 1) false o s.cyc out) := by
  show execDunBind e 0 s = _
  unfold execDunBind
  exact State.engRun_of_done hHead (State.duneOp_of_ok (fun t => t.duneBind e o x) hOk hDone)

theorem exec_dunBind_of_parity :
    exec (.dunBind e 1) s = .next ((s.start.duneFaulted e o).engKeep (e + 1) false o s.cyc (EngOut.of dunEngine 0 [])) := by
  show execDunBind e 1 s = _
  unfold execDunBind
  exact State.engRun_of_done hHead rfl

end

section
variable (hHead : s.engHead (e + 1) false (fun op => op == 0x41) = some (o, x))
include hHead

theorem exec_dunUnbind_of_ok (hOk : duneParamOk o.bytes x = true) (hDone : s.start.duneUnbind e o x = .done u out) :
    exec (.dunUnbind e 0) s = .next (u.engKeep (e + 1) false o s.cyc out) := by
  show execDunUnbind e 0 s = _
  unfold execDunUnbind
  exact State.engRun_of_done hHead (State.duneOp_of_ok (fun t => t.duneUnbind e o x) hOk hDone)

theorem exec_dunUnbind_of_parity :
    exec (.dunUnbind e 1) s = .next ((s.start.duneFaulted e o).engKeep (e + 1) false o s.cyc (EngOut.of dunEngine 0 [])) := by
  show execDunUnbind e 1 s = _
  unfold execDunUnbind
  exact State.engRun_of_done hHead rfl

end

section
variable {b : Nat} (hFree : s.duneFree e = some b) (hHead : s.engHead (e + 1) true (fun op => op == 0x42) = some (o, x))
include hFree hHead

theorem exec_occLoad_of_ok (hOk : duneParamOk o.bytes x = true) (hDone : s.start.duneLoad b o x = .done u out) :
    exec (.occLoad e 0) s = .next (u.engKeep (e + 1) true o s.cyc out) := by
  show execOccLoad e 0 s = _
  simp only [execOccLoad, hFree]
  exact State.engRun_of_done hHead (State.duneOp_of_ok (fun t => t.duneLoad b o x) hOk hDone)

theorem exec_occLoad_of_parity : let t := s.start.duneFaulted e o
    exec (.occLoad e 1) s = .next ((t.setDune e { (t.dune e) with banks := setAt (t.dune e).banks b none }).engKeep (e + 1) true o s.cyc
      (EngOut.of dunEngine 0 [])) := by
  show execOccLoad e 1 s = _
  simp only [execOccLoad, hFree]
  exact State.engRun_of_done hHead rfl

end

section
variable (hHead : s.engHead (e + 1) false (fun op => op == 0x43) = some (o, x))
include hHead

theorem exec_dunValidate (hDone : s.start.duneOp o x (fun t => t.duneValidate e o x) = .done u out) :
    exec (.dunValidate e 0) s = .next (u.engKeep (e + 1) false o s.cyc out) := by
  show execDunValidate e 0 s = _
  unfold execDunValidate
  exact State.engRun_of_done hHead hDone

theorem exec_dunValidate_of_parity {fault : Nat} {v : State} {r : EngOut} (hFault : fault ≠ 0)
    (hWould : s.start.duneOp o x (fun t => t.duneValidate e o x) = .done u out) (hBroken : s.start.duneBroken e fault o x (some out) = .done v r) :
    exec (.dunValidate e fault) s = .next (v.engKeep (e + 1) false o s.cyc r) := by
  show execDunValidate e fault s = _
  unfold execDunValidate
  exact State.engRun_of_done hHead (by simp only [hWould, if_neg hFault]; exact hBroken)

end

section
variable (hHead : s.engHead (e + 1) false (fun op => op == 0x44) = some (o, x))
include hHead

theorem exec_dunSearch (hDone : s.start.duneOp o x (fun t => t.duneSearch e o x) = .done u out) :
    exec (.dunSearch e 0) s = .next (u.engKeep (e + 1) false o s.cyc out) := by
  show execDunSearch e 0 s = _
  unfold execDunSearch
  exact State.engRun_of_done hHead hDone

theorem exec_dunSearch_of_parity {fault : Nat} {v : State} {r : EngOut} (hFault : fault ≠ 0)
    (hWould : s.start.duneOp o x (fun t => t.duneSearch e o x) = .done u out) (hBroken : s.start.duneBroken e fault o x (some out) = .done v r) :
    exec (.dunSearch e fault) s = .next (v.engKeep (e + 1) false o s.cyc r) := by
  show execDunSearch e fault s = _
  unfold execDunSearch
  exact State.engRun_of_done hHead (by simp only [hWould, if_neg hFault]; exact hBroken)

end
end

/-- Settles O36: an operation at the front of its unit comes to what its row gives; UNBIND by its slot (one that a posted entry of another queue
names is busy, log 86), a load by its free bank, an unlisted opcode in the NOP row (log 17), parity before the parameters (log 29). -/
theorem duneOperations : Obligations.DuneOperations := by
  unfold Obligations.DuneOperations
  intro s e o x
  refine ⟨fun hHead => ?nop, fun hHead => ?bind, fun hHead => ?unbind, fun b hFree hHead => ?load, fun hOk u out => ?search, fun hBad => ?bad⟩
  case nop => exact ⟨exec_dunNop_of_unlisted hHead, exec_dunNop_of_nop hHead, exec_dunNop_of_parity hHead⟩
  case bind => exact ⟨fun hOk u out => exec_dunBind_of_ok hHead hOk, exec_dunBind_of_parity hHead⟩
  case unbind =>
    refine ⟨fun hOk => ⟨fun hEmpty => ?_, fun y hSlot => ⟨fun hNamed => ?_, fun hUnnamed => ?_⟩⟩, exec_dunUnbind_of_parity hHead⟩
    · exact exec_dunUnbind_of_ok hHead hOk (State.duneUnbind_of_empty hEmpty)
    · exact exec_dunUnbind_of_ok hHead hOk (State.duneUnbind_of_named hSlot hNamed)
    · exact exec_dunUnbind_of_ok hHead hOk (State.duneUnbind_of_unnamed hSlot hUnnamed)
  case load => exact ⟨fun hOk u out => exec_occLoad_of_ok hFree hHead hOk, exec_occLoad_of_parity hFree hHead⟩
  case search =>
    have hValidate := State.duneOp_of_ok (s := s.start) (u := u) (out := out) (fun t => t.duneValidate e o x) hOk
    have hSearch := State.duneOp_of_ok (s := s.start) (u := u) (out := out) (fun t => t.duneSearch e o x) hOk
    exact ⟨fun hHead hDone => exec_dunValidate hHead (hValidate hDone), fun hHead hDone => exec_dunSearch hHead (hSearch hDone),
      fun fault v r hFault hBroken => ⟨fun hHead hDone => exec_dunValidate_of_parity hHead hFault (hValidate hDone) hBroken,
        fun hHead hDone => exec_dunSearch_of_parity hHead hFault (hSearch hDone) hBroken⟩⟩
  case bad =>
    exact ⟨fun hHead => exec_dunValidate hHead (State.duneOp_of_bad hBad), fun hHead => exec_dunSearch hHead (State.duneOp_of_bad hBad)⟩

end Sys2Proof.Machine

/-! # Marl and Loam: an operation runs (13_marl_solver.md, 15_loam_fusion.md) -/

namespace Sys2Proof.Machine
open Sys2Proof

/-! ## Marl (R464–R481) -/

section
variable {s u v : State} {e fault : Nat} {p : Nat → Bool} {f : State → Op → Obj → EngRes} {o : Op} {x : Obj} {out r : EngOut}

/-- An operation of a Marl engine whose parameters pass comes to what its rule gives. -/
theorem slvRow_of_ok (hHead : s.engHead (e + 3) false p = some (o, x)) (hOk : slvParamOk o.bytes x = true)
    (hDone : f s.start o x = .done u out) : slvRow e 0 p f s = .next (u.engKeep (e + 3) false o s.cyc out) :=
  State.engRun_of_done hHead ((if_pos hOk).trans hDone)

/-- One whose parameters do not pass is refused. -/
theorem slvRow_of_bad (hHead : s.engHead (e + 3) false p = some (o, x)) (hBad : slvParamOk o.bytes x = false) :
    slvRow e 0 p f s = .next (s.start.engKeep (e + 3) false o s.cyc (slvRefused o.bytes x)) :=
  State.engRun_of_done hHead (if_neg (Bool.not_eq_true _ ▸ hBad))

/-- One that meets a parity failure comes to what the failure leaves of its outcome. -/
theorem slvRow_of_parity (hHead : s.engHead (e + 3) false p = some (o, x)) (hOk : slvParamOk o.bytes x = true) (hFault : fault ≠ 0)
    (hDone : f s.start o x = .done u out) (hBroken : s.start.slvBroken e fault o x (some out) = .done v r) :
    slvRow e fault p f s = .next (v.engKeep (e + 3) false o s.cyc r) :=
  State.engRun_of_done hHead (by simp only [if_neg hFault, if_pos hOk, hDone]; exact hBroken)

section
variable (hHead : s.engHead (e + 3) false (fun op => !(decide (0x50 ≤ op ∧ op ≤ 0x54) || op == 0x58 || op == 0x59)) = some (o, x))
include hHead

theorem exec_slvNop_of_unlisted (hOp : leAt o.bytes 0 1 ≠ 0) :
    exec (.slvNop e 0) s = .next (s.start.engKeep (e + 3) false o s.cyc (EngOut.of stBadOpcode 0 [])) := by
  show execSlvNop e 0 s = _
  unfold execSlvNop
  exact State.engRun_of_done hHead (congrArg (EngRes.done s.start) (if_pos hOp))

theorem exec_slvNop_of_nop (hOp : leAt o.bytes 0 1 = 0) : exec (.slvNop e 0) s =
    .next (s.start.engKeep (e + 3) false o s.cyc (if slvParamOk o.bytes x then EngOut.of 0 0 [] else slvRefused o.bytes x)) := by
  show execSlvNop e 0 s = _
  unfold execSlvNop
  exact State.engRun_of_done hHead (congrArg (EngRes.done s.start) (if_neg (not_not.2 hOp)))

end

/-- A running operation that its deadline reaches comes to the outcome it has at that point. -/
theorem exec_solverDeadlineMissed {fac : Bool} {k : Nat} (hMain : (s.eng (e + 3)).main = some o) (hOut : (s.eng (e + 3)).mainOut = some out)
    (hObj : s.obj o.handle = some x) (hLate : s.slvLate o.bytes = true) (hCut : slvCuttable o.bytes out fac k = true)
    (hReport : s.opHasReport o.id = false) (hStatus : o.status = 0) (hDone : s.start.slvCut e o x fac k = .done u r) :
    exec (.solverDeadlineMissed e fac k) s = .next (u.setUnit (e + 3) false (some { o with provIn := r.provIn }) (some r)) := by
  show execSolverDeadlineMissed e fac k s = _
  simp only [execSolverDeadlineMissed, hMain, hOut, hObj, hLate, hCut, hReport, hStatus, hDone]
  rfl

end

/-- Settles O37: each row by the rule of its opcode once R464's test has passed; an unlisted opcode in the NOP row (log 17), the first offending byte in
`slvRefused` (log 71), a busy slot in the rules (log 86), a missed deadline by evaluating the operation anew up to that point (log 31). -/
theorem marlOperations : Obligations.MarlOperations := by
  unfold Obligations.MarlOperations
  intro s e o x
  refine ⟨fun hHead => ⟨exec_slvNop_of_unlisted hHead, exec_slvNop_of_nop hHead⟩, fun hOk u out => ?ok, fun hBad hHead => slvRow_of_bad (f := fun t o x => t.qpBind e o x) hHead hBad, ?late⟩
  case ok =>
    refine ⟨?bind, ?unbind, ?factor, ?solve, ?step, ?batchFactor, ?batchSolve, fun fault v r hFault hBroken => ⟨?solveParity, ?stepParity⟩⟩
    case bind => exact fun hHead hDone => slvRow_of_ok (f := fun t o x => t.qpBind e o x) hHead hOk hDone
    case unbind => exact fun hHead hDone => slvRow_of_ok (f := fun t o x => t.qpUnbind e o x) hHead hOk hDone
    case factor => exact fun hHead hDone => slvRow_of_ok (f := fun t o x => t.qpFactor e o x none) hHead hOk hDone
    case solve => exact fun hHead hDone => slvRow_of_ok (f := fun t o x => t.qpSolve e o x none) hHead hOk hDone
    case step => exact fun hHead hDone => slvRow_of_ok (f := fun t o x => t.mpcStep e o x none) hHead hOk hDone
    case batchFactor => exact fun hHead hDone => slvRow_of_ok (f := fun t o x => t.batchFactor e o x) hHead hOk hDone
    case batchSolve => exact fun hHead hDone => slvRow_of_ok (f := fun t o x => t.batchSolve o x) hHead hOk hDone
    case solveParity => exact fun hHead hDone => slvRow_of_parity (f := fun t o x => t.qpSolve e o x none) hHead hOk hFault hDone hBroken
    case stepParity => exact fun hHead hDone => slvRow_of_parity (f := fun t o x => t.mpcStep e o x none) hHead hOk hFault hDone hBroken
  case late => exact fun out fac k u r => exec_solverDeadlineMissed

/-! ## Loam (R513–R527) -/

section
variable {s u v : State} {fault : Nat} {p : Nat → Bool} {f : State → Op → Obj → EngRes} {o : Op} {x : Obj} {out r : EngOut}

/-- An operation of Loam whose parameters pass comes to what its rule gives. -/
theorem lomRow_of_ok (hHead : s.engHead 5 false p = some (o, x)) (hOk : lomParamOk o.bytes x = true)
    (hDone : f s.start o x = .done u out) : lomRow 0 p f s = .next (u.engKeep 5 false o s.cyc out) :=
  State.engRun_of_done hHead ((if_pos hOk).trans hDone)

/-- One whose parameters do not pass is refused. -/
theorem lomRow_of_bad (hHead : s.engHead 5 false p = some (o, x)) (hBad : lomParamOk o.bytes x = false) :
    lomRow 0 p f s = .next (s.start.engKeep 5 false o s.cyc (EngOut.of stBadParam 0 [])) :=
  State.engRun_of_done hHead (if_neg (Bool.not_eq_true _ ▸ hBad))

/-- One that meets a parity failure comes to what the failure leaves of its outcome. -/
theorem lomRow_of_parity (hHead : s.engHead 5 false p = some (o, x)) (hOk : lomParamOk o.bytes x = true) (hFault : fault ≠ 0)
    (hDone : f s.start o x = .done u out) (hBroken : s.start.lomBroken fault o (some out) = .done v r) :
    lomRow fault p f s = .next (v.engKeep 5 false o s.cyc r) :=
  State.engRun_of_done hHead (by simp only [if_neg hFault, if_pos hOk, hDone]; exact hBroken)

section
variable (hHead : s.engHead 5 false (fun op => !decide (0x60 ≤ op ∧ op ≤ 0x64)) = some (o, x))
include hHead

theorem exec_lomNop_of_unlisted (hOp : leAt o.bytes 0 1 ≠ 0) :
    exec (.lomNop 0) s = .next (s.start.engKeep 5 false o s.cyc (EngOut.of stBadOpcode 0 [])) := by
  show execLomNop 0 s = _
  unfold execLomNop
  exact State.engRun_of_done hHead (congrArg (fun st => EngRes.done s.start (EngOut.of st 0 [])) (if_pos hOp))

theorem exec_lomNop_of_nop (hOp : leAt o.bytes 0 1 = 0) : exec (.lomNop 0) s =
    .next (s.start.engKeep 5 false o s.cyc (EngOut.of (if lomParamOk o.bytes x then 0 else stBadParam) 0 [])) := by
  show execLomNop 0 s = _
  unfold execLomNop
  exact State.engRun_of_done hHead (congrArg (fun st => EngRes.done s.start (EngOut.of st 0 [])) (if_neg (not_not.2 hOp)))

end
end

/-! ## An engine's operation completes (R431) -/

section
variable {s : State} {e : Nat} {load : Bool} {o : Op} {out : EngOut}

/-- The operation of a unit with its effects: its writes, the poison of its footprint, its tables and counters; it retires with its status. -/
def State.engDone (s : State) (e : Nat) (load : Bool) (o : Op) (out : EngOut) : State :=
  ((((s.engWrites e o out).1.poisonWith (if o.blame = 0 then out.blame else o.blame) (blocksOf out.foot)).engTables e out).engCounts out).engLeave e load
    { o with status := out.status, detail := out.detail, wrote := out.blocks }

theorem State.engEnd_of_good (hStatus : o.status = 0) (hGood : (s.engWrites e o out).2 = []) :
    s.engEnd e load o (some out) = s.engDone e load o out :=
  (if_pos (.inl hStatus)).trans (if_pos (by rw [hGood]; rfl))

theorem exec_engineOpComplete (hOp : (if load then (s.eng e).load else (s.eng e).main) = some o)
    (hOut : (if load then (s.eng e).loadOut else (s.eng e).mainOut) = some out) (hReport : s.opHasReport o.id = false) (hUp : s.engUp e = true)
    (hFree : s.pendingBlock out.blocks = none) : exec (.engineOpComplete e load) s = .next (s.start.engEnd e load o (some out)) := by
  show execEngineOpComplete e load s = _
  simp [execEngineOpComplete, hOp, hOut, hReport, hUp, hFree]

end

/-- Settles O38: each row by the rule of its opcode once R513's test has passed (an unlisted opcode in the NOP row, log 17); an operation of any unit
completes once no report of it waits (log 16). -/
theorem loamOperations : Obligations.LoamOperations := by
  unfold Obligations.LoamOperations
  intro s o x
  refine ⟨fun hHead => ⟨exec_lomNop_of_unlisted hHead, exec_lomNop_of_nop hHead⟩, fun hOk u out => ?ok, fun hBad hHead =>
    lomRow_of_bad (f := fun t o x => t.frameLoad o x) hHead hBad, ?complete⟩
  case ok =>
    refine ⟨?load, ?transform, ?associate, ?apply, ?read, fun fault v r hFault hBroken => ?parity⟩
    case load => exact fun hHead hDone => lomRow_of_ok (f := fun t o x => t.frameLoad o x) hHead hOk hDone
    case transform => exact fun hHead hDone => lomRow_of_ok (f := fun t o x => t.lomTransform o x) hHead hOk hDone
    case associate => exact fun hHead hDone => lomRow_of_ok (f := fun t o x => t.lomAssociate o x) hHead hOk hDone
    case apply => exact fun hHead hDone => lomRow_of_ok (f := fun t o x => t.trackApply o x) hHead hOk hDone
    case read => exact fun hHead hDone => lomRow_of_ok (f := fun t o x => t.trackRead o x) hHead hOk hDone
    case parity => exact fun hHead hDone => lomRow_of_parity (f := fun t o x => t.lomAssociate o x) hHead hOk hFault hDone hBroken
  case complete =>
    intro e load out hOp hOut hReport hUp hStatus hFree hGood
    exact (exec_engineOpComplete hOp hOut hReport hUp hFree).trans (congrArg _ (State.engEnd_of_good hStatus hGood))

end Sys2Proof.Machine

/-! # Tilth: laws and contexts (14_tilth_control.md) -/

namespace Sys2Proof.Machine
open Sys2Proof

/-! ## The end of a load of a law (R494) -/

section
variable {s : State} {c a : Nat} (hLoad : (s.ctx c).loading = some a) (hOn : s.pdOn pdTlt = true) (hReset : s.tilth.inReset = false)
include hLoad hOn hReset

/-- A table outside data DRAM ends its load with code 8; what Tilth reads of it is noted once the instants that have come have been taken. -/
theorem exec_lawLoadDone_of_outside (h : s.dataRange a 1664 = false) :
    exec (.lawLoadDone c) s = .next ((s.start.tltSettle.tltNote a 1664).lawDone c 8 (lawOf (s.imageRd a))) := by
  show execLawLoadDone c s = _
  simp only [execLawLoadDone, hLoad, hOn, hReset, h, Option.getD_some, Bool.false_eq_true, if_false, Bool.and_false, Bool.false_and]
  rfl

end

theorem State.tltNote_of_outside {s : State} {a n : Nat} (h : s.dataRange a n = false) : s.tltNote a n = s :=
  if_neg (by rw [h]; exact Bool.false_ne_true)

/-- Where the instants leave the table outside data DRAM, the load ends as R494 says. -/
theorem exec_lawLoadDone_of_outside_still {s : State} {c a : Nat} (hLoad : (s.ctx c).loading = some a) (hOn : s.pdOn pdTlt = true)
    (hReset : s.tilth.inReset = false) (h : s.dataRange a 1664 = false) (hStill : s.start.tltSettle.dataRange a 1664 = false) :
    exec (.lawLoadDone c) s = .next (((s.start.tltSettle.setCtx c { s.start.tltSettle.ctx c with loading := none }).setF (TLT_LAW_CMD.LAW_ERR c) 8).tltEvent
      (19 + c) false) := by
  rw [exec_lawLoadDone_of_outside hLoad hOn hReset h, State.tltNote_of_outside hStill]
  rfl

/-- The first address after the data DRAM of the module as it is after reset. -/
def farTable : Nat := dramBase + 2 * (3 * (16 * 2 ^ 30 / 512 * 511))

/-- A context of Tilth at its instant whose law is being loaded from there, with a capture running, and a register file out of its canonical form:
HBX_STATUS_0_0 stands before MGT_VARIANT, whose address is lower, and hides that all eight sites are populated. The charge of the capture's record
clears OVER, which takes HBX_STATUS_0_0 off the list. -/
def strayTilth : State :=
  { State.reset with
    regs := [(HBX_STATUS.addr 0 0, ins 0 (HBX_STATUS.OVER 0 0).hi (HBX_STATUS.OVER 0 0).lo 1),
      (MGT_VARIANT.addr, ins (regReset MGT_VARIANT.addr) MGT_VARIANT.SITE_MAP.hi MGT_VARIANT.SITE_MAP.lo 0xFF),
      (TLT_CFG.addr 0, ins (ins 0 (TLT_CFG.EN 0).hi (TLT_CFG.EN 0).lo 1) (TLT_CFG.PERIOD_NS 0).hi (TLT_CFG.PERIOD_NS 0).lo 50000),
      (TLT_TEST_CFG.addr 0, ins 0 (TLT_TEST_CFG.CAP_EN 0).hi (TLT_TEST_CFG.CAP_EN 0).lo 1),
      (TLT_TEST_CAP_HI.addr 0, 0x10),
      (TLT_CAP_RECORDS.addr 0, 5)]
    hbxCopy := some (0, ins 0 31 31 1, 0, 0)
    pd := [(pdTlt, 2)]
    tilth := { Tilth.init with ctxs := [(0, { TltCtx.init with on := true, loading := some farTable })] } }

theorem strayTilth_outside : strayTilth.dataRange farTable 1664 = false := by decide +kernel

/-- Once the instant has been taken the table lies in data DRAM, and Tilth's reading of it is charged. -/
theorem strayTilth_charged : let r := strayTilth.start.tltSettle
    ((r.tltNote farTable 1664).lawDone 0 8 (lawOf (strayTilth.imageRd farTable))).hbxs
      ≠ (((r.setCtx 0 { r.ctx 0 with loading := none }).setF (TLT_LAW_CMD.LAW_ERR 0) 8).tltEvent 19 false).hbxs := by
  decide +kernel

/-- Refutes O39: the clause of a load from outside data DRAM has nothing of the table read, where the model reads it if the instants that come first
(log 33) leave it inside. In strayTilth, whose register file is not canonical, taking the instant uncovers two memory sites. Where the table stays
outside the clause holds (exec_lawLoadDone_of_outside_still). -/
theorem not_tilthContexts : ¬ Obligations.TilthContexts := by
  unfold Obligations.TilthContexts
  intro h
  obtain ⟨_, _, _, hDone, _⟩ := h strayTilth 0 0 0 0
  have hClause := (hDone farTable (by decide +kernel) (by decide +kernel) rfl).1 strayTilth_outside
  rw [exec_lawLoadDone_of_outside (by decide +kernel) (by decide +kernel) rfl strayTilth_outside] at hClause
  exact strayTilth_charged (congrArg State.hbxs (Host.Outcome.next.inj hClause))

end Sys2Proof.Machine

/-! # Tilth: samples, test signals, the pair and its restart (14_tilth_control.md) -/

namespace Sys2Proof.Machine
open Sys2Proof

section
variable {s : State} {c m n v : Nat}

theorem exec_sampleInstant (hDue : s.instantDue c = true) (hReset : s.tilth.inReset = false) :
    exec (.sampleInstant c) s = .next (s.start.instant c) :=
  answer_of_true (by rw [hDue, hReset]; rfl)

section
variable {p : Sample} (hUp : s.tltUp = true)
include hUp

theorem exec_sampleComplete (hRun : s.tilth.run = some p) (hReset : s.tilth.inReset = false) (hTime : s.now ≤ p.deadline) :
    exec .sampleComplete s = .next ((s.start.dropSample p.ctx).endSample p) := by
  show execSampleComplete s = _
  simp only [execSampleComplete, hRun]
  exact answer_of_true (by simp [hUp, hReset, hTime])

/-- A sample whose deadline has come is missed, with the cause that the pair gives. -/
theorem exec_sampleDeadline (hOut : s.outstanding c = some p) (hTime : p.deadline ≤ s.now) :
    exec (.sampleDeadline c) s = .next (s.start.missSample p (if s.tilth.inReset then 5 else 1)) := by
  show execSampleDeadline c s = _
  simp only [execSampleDeadline, hOut]
  exact answer_of_true (by simp [hUp, hTime])

end

/-! ## Test signals (R501) -/

section
variable {w : Word} (hRun : bits w 31 31 = 1)
include hRun

theorem State.testCfg_of_refused (h : bits w 30 29 = 3 ∨ (s.tltSettle.ctx c).nu ≤ bits w 28 22) :
    s.testCfg c w = s.tltSettle.setF (TLT_FLAGS.TEST_REJECT c) 1 :=
  if_pos (by simpa [hRun] using h)

theorem State.testCfg_of_ok (hWave : bits w 30 29 ≠ 3) (hOut : bits w 28 22 < (s.tltSettle.ctx c).nu) (hCap : bits w 13 13 = 0) :
    s.testCfg c w = s.tltSettle.wr (TLT_TEST_CFG.addr c) (w &&& 0xFFFFEFFF) := by
  simp [State.testCfg, hRun, hWave, Nat.not_le.2 hOut, hCap]

end

theorem exec_testRun (hm : s.mayWrite m (TLT_TEST_CFG.addr c) = true) :
    exec (.testRun m c v) s = .next (s.start.testCfg c (ins (BitVec.ofNat 32 v) 31 31 1)) :=
  State.write_of_mayWrite hm

/-! ## The pair and RESTART (R402, R500) -/

section
variable (hOn : s.pdOn pdTlt = true)
include hOn

theorem exec_lockstepTltMismatch (hReset : s.tilth.inReset = false) : exec .lockstepTltMismatch s = .next s.start.tltMismatch :=
  answer_of_true (by rw [hOn, hReset]; rfl)

theorem exec_tilthPairResetDone (hReset : s.tilth.inReset = true) :
    exec .tilthPairResetDone s = .next { s.start with tilth := { s.tilth with inReset := false } } :=
  answer_of_true (by rw [hOn, hReset]; rfl)

end

theorem exec_tltRestart_of_stopped (hm : s.mayWrite m TLT_CTRL.addr = true) (hStopped : s.flag TLT_STATUS.STOPPED = true) :
    exec (.tltRestart m) s = .next (({ s.start with tilth := { s.tilth with faults := [] } }.setF TLT_STATUS.STOPPED 0).tltResume true) :=
  (State.write_of_mayWrite hm).trans (congrArg _ (if_pos ⟨by decide, hStopped⟩))

theorem exec_tltRestart_of_running (hm : s.mayWrite m TLT_CTRL.addr = true) (hStopped : s.flag TLT_STATUS.STOPPED = false) :
    exec (.tltRestart m) s = .next s.start :=
  (State.write_of_mayWrite hm).trans (congrArg _ (if_neg (fun h => absurd (hStopped.symm.trans h.2) Bool.noConfusion)))

/-! ## Outputs (R546) -/

section
variable {f : TltFrame} (hFind : (s.mac n).tilth.find? (fun t => t.ctx == c) = some f)
include hFind

theorem exec_tilthFrameLaunch_of_drop (h : s.ethLink n = false ∨ f.launch + s.fld (ETH_CFG.LATE_NS n) < s.now) :
    exec (.tilthFrameLaunch n c) s = .next (s.start.dropTilth n f) := by
  show execTilthFrameLaunch n c s = _
  simp only [execTilthFrameLaunch, hFind]
  exact if_pos (by simpa using h)

theorem exec_tilthFrameLaunch_of_chosen (hLink : s.ethLink n = true) (hTime : s.now ≤ f.launch + s.fld (ETH_CFG.LATE_NS n))
    (hIdle : s.lineIdle n = true) (hChosen : s.chosen n = some f.queue) (hHead : s.ethHead n f.queue = some (.tilth f)) :
    exec (.tilthFrameLaunch n c) s = .next (s.start.sendTilth n f.queue f) := by
  show execTilthFrameLaunch n c s = _
  simp only [execTilthFrameLaunch, hFind]
  exact (if_neg (by simpa [hLink] using hTime)).trans (answer_of_true (by simp [hIdle, hChosen, hHead]))

end
end

/-- Settles O40: each command's case by its rule; a write of TEST_CFG takes the instants first, and a RUN that R501 refuses changes nothing else
(log 33). -/
theorem tilthSamples : Obligations.TilthSamples := by
  unfold Obligations.TilthSamples
  intro s m c v n
  refine ⟨exec_sampleInstant, fun p hRun hUp => exec_sampleComplete hUp hRun, fun p hOut hUp => ⟨?running, ?inReset⟩, fun hm => ⟨?refused, ?runs⟩,
    fun hOn => ⟨exec_lockstepTltMismatch hOn, exec_tilthPairResetDone hOn⟩,
    fun hm => ⟨exec_tltRestart_of_stopped hm, exec_tltRestart_of_running hm⟩,
    fun f hFind => ⟨exec_tilthFrameLaunch_of_drop hFind, exec_tilthFrameLaunch_of_chosen hFind⟩⟩
  case running => exact fun hReset hTime => (exec_sampleDeadline hUp hOut hTime).trans (by rw [hReset]; rfl)
  case inReset => exact fun hReset hTime => (exec_sampleDeadline hUp hOut hTime).trans (by rw [hReset]; rfl)
  all_goals have hRun : bits (ins (BitVec.ofNat 32 v) 31 31 1) 31 31 = 1 := bits_ins_same _ 31 31 1 (by decide) (by decide)
  case refused => exact fun h => (exec_testRun hm).trans (congrArg _ (State.testCfg_of_refused hRun h))
  case runs => exact fun hWave hOut hCap => (exec_testRun hm).trans (congrArg _ (State.testCfg_of_ok hRun hWave hOut hCap))

end Sys2Proof.Machine

/-! # The device time base (16_time_and_network.md) -/

namespace Sys2Proof.Machine
open Sys2Proof

/-! ## What the units count leaves the clock, the bytes and the queues alone -/

/-- What of a state no unit's counting changes: the time and its accumulator, the bytes of memory, the commands waiting, the queues, DL_NOW. -/
def State.timeView (s : State) : Nat × Nat × Nat × Int × List Host.Cell × List Instr × List (Nat × QState) × Nat :=
  (s.now, s.cyc, s.timAcc, s.timRho, s.mem, s.pending, s.queues, s.dlNow)

section
variable {s : State}

/-- A fold of steps that keep the view keeps it. -/
theorem State.timeView_foldl {α : Type} {f : State → α → State} (hf : ∀ t x, (f t x).timeView = t.timeView) (l : List α) :
    (l.foldl f s).timeView = s.timeView :=
  foldl_keeps (fun t => t.timeView = s.timeView) (fun t x h => (hf t x).trans h) l s rfl

theorem State.timeView_rateTick {n : Nat} : (s.rateTick n).timeView = s.timeView := by
  refine State.timeView_foldl (fun t x => ?_) _
  rfl

theorem State.timeView_stallTick {n : Nat} : (s.stallTick n).timeView = s.timeView := by
  refine State.timeView_foldl (fun t x => ?_) _
  rfl

theorem State.timeView_provTick {n : Nat} : (s.provTick n).timeView = s.timeView := by
  refine State.timeView_foldl (fun t x => ?_) _
  rfl

theorem State.timeView_holdTick {n : Nat} : (s.holdTick n).timeView = s.timeView := by
  refine State.timeView_foldl (fun t x => ?_) _
  rfl

theorem State.timeView_ticked {n : Nat} : (s.ticked n).timeView = s.timeView :=
  calc (s.ticked n).timeView = (((s.rateTick n).stallTick n).wdogTick n).timeView := State.timeView_holdTick.trans State.timeView_provTick
    _ = (s.rateTick n).timeView := State.timeView_stallTick
    _ = s.timeView := State.timeView_rateTick

theorem State.timeView_zEnter {p st : Nat} : (s.zEnter p st).timeView = s.timeView := by
  unfold State.zEnter
  split <;> rfl

theorem State.timeView_zBack : s.zBack.timeView = s.timeView := by
  refine State.timeView_foldl (fun t p => ?_) _
  split
  · exact State.timeView_zEnter
  · rfl

theorem State.timeView_pdKickFrom {lo : Nat} : (s.pdKickFrom lo).timeView = s.timeView := by
  refine State.timeView_foldl (fun t d => ?_) _
  split
  · simp only []
    split <;> rfl
  · rfl

/-- n cycles move the view as R532 says and nothing else of it. -/
theorem State.timeView_timGo {n : Nat} : (s.timGo n).timeView =
    ((s.now + s.timAdvance n) % 2 ^ 64, s.cyc + n, unsigned 32 (s.timSum n), s.timRate, s.mem, s.pending, s.queues, s.dlNow) := by
  have hTicked := @State.timeView_ticked s n
  simp only [State.timeView, Prod.mk.injEq] at hTicked
  obtain ⟨_, _, _, _, hMem, hPending, hQueues, hDl⟩ := hTicked
  rw [State.timGo, State.timeView_pdKickFrom, State.timeView_zBack]
  simp only [State.timeView, hMem, hPending, hQueues, hDl]

/-! ## One cycle (R532) -/

theorem State.timSum_one : s.timSum 1 = (s.timAcc : Int) + s.timRho := by
  simp [State.timSum]

/-- The nanoseconds of one cycle. -/
theorem State.timAdvance_one (hAcc : s.timAcc < 2 ^ 32) (hLow : -4294967 ≤ s.timRho) (hHigh : s.timRho ≤ 4294967) : s.timAdvance 1 =
    if 2 ^ 32 ≤ (s.timAcc : Int) + s.timRho then 2 else if (s.timAcc : Int) + s.timRho < 0 then 0 else 1 := by
  rw [State.timAdvance, State.timSum_one]
  split
  · omega
  · split <;> omega

theorem State.timAdvance_one_le (hAcc : s.timAcc < 2 ^ 32) (hLow : -4294967 ≤ s.timRho) (hHigh : s.timRho ≤ 4294967) : s.timAdvance 1 ≤ 2 := by
  rw [State.timAdvance_one hAcc hLow hHigh]
  split
  · exact Nat.le_refl 2
  · split <;> decide

theorem exec_timeBaseTick {n : Nat} (hn : 1 ≤ n) (h : s.timWraps n = false) : exec (.timeBaseTick n) s = .next (s.start.timGo n) :=
  answer_of_true (by simp [hn, h])

theorem exec_timeBaseWrap (h : s.timWraps 1 = true) : exec .timeBaseWrap s = .next ((s.start.timGo 1).timEvent TIM_EVENT.WRAP) :=
  answer_of_true h

end

/-- Settles O41: cycles that do not wrap are `timGo` (n at once, log 36); one cycle advances as its sum carries (`timAdvance_one`), and what the units
count in it leaves time, bytes, queues and waiting commands alone (`timeView_timGo`). -/
theorem timeBaseAdvances : Obligations.TimeBaseAdvances := by
  unfold Obligations.TimeBaseAdvances
  intro s
  refine ⟨fun n => exec_timeBaseTick, fun hAcc hLow hHigh hNow => ?_⟩
  intro sum adv ok
  have hAdv : s.timAdvance 1 = adv := State.timAdvance_one hAcc hLow hHigh
  have hNowNext : (s.now + s.timAdvance 1) % 2 ^ 64 = s.now + adv := by
    have hTwo := State.timAdvance_one_le hAcc hLow hHigh
    rw [hAdv] at hTwo ⊢
    exact Nat.mod_eq_of_lt (by omega)
  have hAccNext : unsigned 32 (s.start.timSum 1) = (sum % 2 ^ 32).toNat := by
    rw [State.timSum_one]
    rfl
  have hOk : ok (s.start.timGo 1) := by
    have hView := @State.timeView_timGo s.start 1
    simp only [State.timeView, Prod.mk.injEq] at hView
    obtain ⟨hNow', hCyc, hAcc', hRho, hMem, hPending, hQueues, hDl⟩ := hView
    refine ⟨?_, hNow'.trans hNowNext, hCyc, ?_, hRho, hMem, hPending, hQueues, hDl⟩
    · rw [← hNowNext, ← hAccNext]
      rfl
    · rw [hAcc', hAccNext]
      exact Int.toNat_of_nonneg (Int.emod_nonneg sum (b := 2 ^ 32) (by decide))
  have hWraps : s.timWraps 1 = decide (2 ^ 32 ≤ s.now % 2 ^ 32 + adv) := by rw [← hAdv]; rfl
  refine ⟨fun hFits => ⟨_, exec_timeBaseTick (Nat.le_refl 1) ?_, hOk⟩, fun hWrap => ⟨_, hOk, exec_timeBaseWrap ?_⟩⟩
  · rw [hWraps]
    exact decide_eq_false (Nat.not_le.2 hFits)
  · rw [hWraps]
    exact decide_eq_true hWrap

/-! ## Rate, step and epoch (R532–R534, R550, R552) -/

/-- The time a step leads to from the advance of its cycle. -/
def State.timStepNow (s : State) : Nat := (((s.timGo 1).hbxSettle).now + s.stepOffset) % 2 ^ 64

/-- A state at the time a step leads to, its gate entries looked up afresh. -/
def State.timJump (t : State) (now : Nat) : State :=
  let u := { t with now := now, timAcc := 0, dlNow := now / 1000 % 2 ^ 32, overdueCtr := t.overdueCtr + 1 }
  { u with macs := u.macs.map (fun (e : Nat × Mac) => (e.1, { e.2 with entry := e.2.entryAt now })) }

theorem State.timJump_eq (t : State) (now : Nat) : t.timJump now =
    { t with now := now, timAcc := 0, dlNow := now / 1000 % 2 ^ 32, overdueCtr := t.overdueCtr + 1,
             macs := t.macs.map (fun (e : Nat × Mac) => (e.1, { e.2 with entry := e.2.entryAt now })) } := rfl

/-- The state a step leads to, EVENT.WRAP apart. -/
def State.timStepped (s : State) : State :=
  (((((s.timGo 1).hbxSettle).timJump s.timStepNow).ageAll.hbxStepped).tltResume false).timEvent TIM_EVENT.STEPPED

section
variable {s : State} {m v : Nat}

theorem State.timStep_eq : s.timStep =
    if s.tltSettle.timWraps 1 && decide (s.tltSettle.timStepNow / 2 ^ 32 = ((s.tltSettle.timGo 1).hbxSettle).now / 2 ^ 32) then
      s.tltSettle.timStepped.timEvent TIM_EVENT.WRAP
    else s.tltSettle.timStepped := by
  unfold State.timStep State.timStepped State.timStepNow State.timJump
  rfl

theorem exec_timRateWrite (hm : s.mayWrite m TIM_RATE.addr = true) :
    exec (.timRateWrite m v) s = .next (s.start.timRateSet (BitVec.ofNat 32 v)) :=
  State.write_of_mayWrite hm

section
variable (hm : s.mayWrite m TIM_CTRL.addr = true)
include hm

theorem exec_timStep : exec (.timStep m) s = .next s.start.timStep :=
  (State.write_of_mayWrite hm).trans (congrArg _ (if_pos (by decide)))

theorem exec_timStep_of_wraps (hWraps : s.start.tltSettle.timWraps 1 = true)
    (hSame : s.start.tltSettle.timStepNow / 2 ^ 32 = ((s.start.tltSettle.timGo 1).hbxSettle).now / 2 ^ 32) :
    exec (.timStep m) s = .next (s.start.tltSettle.timStepped.timEvent TIM_EVENT.WRAP) := by
  rw [exec_timStep hm, State.timStep_eq, hWraps, decide_eq_true hSame]
  rfl

theorem exec_timStep_of_plain (h : s.start.tltSettle.timWraps 1 = false
      ∨ s.start.tltSettle.timStepNow / 2 ^ 32 ≠ ((s.start.tltSettle.timGo 1).hbxSettle).now / 2 ^ 32) :
    exec (.timStep m) s = .next s.start.tltSettle.timStepped := by
  rw [exec_timStep hm, State.timStep_eq]
  refine congrArg _ (if_neg ?_)
  rw [Bool.and_eq_true_iff, decide_eq_true_eq]
  exact fun ⟨hWraps, hSame⟩ => h.elim (fun hOff => absurd (hOff.symm.trans hWraps) Bool.noConfusion) (fun hNe => hNe hSame)

end

theorem exec_epochHiWrite (hm : s.mayWrite m TIM_EPOCH_HI.addr = true) :
    exec (.epochHiWrite m v) s = .next (s.start.epochHi (BitVec.ofNat 32 v)) :=
  State.write_of_mayWrite hm

end

/-- Settles O42: a rate and an epoch are their writes; a step sets WRAP besides STEPPED when the advance wrapped and the offset left WRAPS alone. -/
theorem timeRateAndStep : Obligations.TimeRateAndStep := by
  unfold Obligations.TimeRateAndStep
  intro s m v
  refine ⟨exec_timRateWrite, fun hm => ⟨fun hWraps hSame => ?wraps, fun hNot => ?plain⟩, exec_epochHiWrite⟩
  case wraps =>
    refine (exec_timStep_of_wraps hm hWraps hSame).trans ?_
    rw [State.timStepped, State.timJump_eq]
    rfl
  case plain =>
    refine (exec_timStep_of_plain hm hNot).trans ?_
    rw [State.timStepped, State.timJump_eq]
    rfl

end Sys2Proof.Machine

/-! # Ethernet: frames received and the link (16_time_and_network.md) -/

namespace Sys2Proof.Machine
open Sys2Proof

/-! ## Frames (R539, R541, R542) -/

section
variable {s : State} {n at_ : Nat} {ok : Bool} {f : List Byte} (hLink : s.ethLink n = true) (hPause : (ok && isPause f) = false)
include hLink hPause

section
variable (hLow : 60 ≤ f.length) (hHigh : f.length ≤ 9216)
include hLow hHigh

/-- A frame whose length R539 allows is received once nothing it goes to is being filled; one with a bad check sequence waits for nothing. -/
theorem exec_ethFrameReceive_of_free (hFree : ok = true → s.rxWaits n f = false) :
    exec (.ethFrameReceive n at_ ok f) s = .next (s.start.rxFrame n at_ ok f) := by
  have hReady : (s.ethLink n && !(ok && isPause f) && ok && decide (60 ≤ f.length ∧ f.length ≤ 9216) && s.rxWaits n f) = false := by
    cases ok with
    | false => simp
    | true => rw [hFree rfl, Bool.and_false]
  refine (if_neg (by rw [hReady]; exact Bool.false_ne_true)).trans ((answer_of_true (by rw [hLink, hPause]; rfl)).trans (congrArg _ (if_neg ?_)))
  omega

theorem exec_ethFrameReceive_of_filling (hOk : ok = true) (hWaits : s.rxWaits n f = true) :
    exec (.ethFrameReceive n at_ ok f) s = .next (s.start.say .waits) := by
  subst hOk
  exact if_pos (by simp [hLink, hPause, hLow, hHigh, hWaits])

end

theorem exec_ethFrameReceive_of_length (h : f.length < 60 ∨ 9216 < f.length) : exec (.ethFrameReceive n at_ ok f) s = .next s.start := by
  have hOut : ¬ (60 ≤ f.length ∧ f.length ≤ 9216) := by omega
  refine (if_neg (by simp [hOut])).trans ((answer_of_true (by rw [hLink, hPause]; rfl)).trans (congrArg _ (if_pos h)))

end

section
variable {s : State} {m n e v : Nat}

theorem exec_pauseFrameReceive {q : Nat} (hLink : s.ethLink n = true) : exec (.pauseFrameReceive n q) s =
    .next (s.start.setMac n { s.mac n with pausedTo := s.cyc + ceilDiv (q % 65536 * 64 * s.ethByte n) 10 }) :=
  answer_of_true hLink

theorem exec_ethClsWord0Write (hm : s.mayWrite m (ETH_CLS.addr n e) = true) :
    exec (.ethClsWord0Write m n e v) s = .next (s.start.clsCommit n e (BitVec.ofNat 32 v)) :=
  State.write_of_mayWrite hm

/-! ## The link (R546, R553) -/

theorem exec_ethLinkUp (hUp : s.ethUp n = true) (hLink : s.flag (ETH_CFG.LINK n) = false) :
    exec (.ethLinkUp n) s = .next ((s.start.setF (ETH_CFG.LINK n) 1).ethFetch n) :=
  answer_of_true (by rw [hUp, hLink]; rfl)

/-- The link goes down: the Tilth outputs that waited are dropped and counted, every posted frame is written back. -/
theorem exec_ethLinkDown (hUp : s.ethUp n = true) (hLink : s.flag (ETH_CFG.LINK n) = true) :
    exec (.ethLinkDown n) s = .next ((List.range 8).foldl (fun (u : State) q => u.linkDownQueue n q)
      (((s.start.setF (ETH_CFG.LINK n) 0).setMac n { s.mac n with tx := none, tilth := [], heads := [] }).bump (ETH_CNT.COUNT n 5)
        (s.mac n).tilth.length)) :=
  answer_of_true (by rw [hUp, hLink]; rfl)

end

/-- Settles O44: a frame by its length and by what it goes to; PAUSE, the classifier and the link by their commands' rules (what a link that goes down
writes back, log 38). -/
theorem ethernetReceives : Obligations.EthernetReceives := by
  unfold Obligations.EthernetReceives
  intro s m n e v
  exact ⟨fun hLink at_ ok f hPause => ⟨exec_ethFrameReceive_of_free hLink hPause, exec_ethFrameReceive_of_filling hLink hPause,
      exec_ethFrameReceive_of_length hLink hPause⟩,
    fun hLink q => exec_pauseFrameReceive hLink, exec_ethClsWord0Write, exec_ethLinkUp, exec_ethLinkDown⟩

end Sys2Proof.Machine

/-! # Zetha: training (17_zetha.md) -/

namespace Sys2Proof.Machine
open Sys2Proof

section
variable {s : State} {m p : Nat}

/-! ## EN (R560) -/

section
variable (hm : s.mayWrite m (ZTH_CFG.addr p) = true)
include hm

theorem exec_zthPortEnable_of_off (hOff : s.zEn p = false) : exec (.zthPortEnable m p) s = .next ((s.start.setF (ZTH_CFG.EN p) 1).zEnter p 1) :=
  (State.write_of_mayWrite hm).trans (congrArg _ (if_neg (Bool.not_eq_true _ ▸ hOff)))

theorem exec_zthPortEnable_of_on (hOn : s.zEn p = true) : exec (.zthPortEnable m p) s = .next s.start :=
  (State.write_of_mayWrite hm).trans (congrArg _ (if_pos hOn))

/-- A port that was on goes DOWN with its link layer flushed. -/
theorem exec_zthPortDisable_of_on (hOn : s.zEn p = true) : exec (.zthPortDisable m p) s = .next
    (let t := (((s.start.setF (ZTH_CFG.EN p) 0).setF (ZTH_STATUS.LANE_LOCK p) 0).zEnter p 0).zFlush p
     if s.zState p = 5 then t.zEvent p (ZTH_EVENT.DOWN p) else t) :=
  (State.write_of_mayWrite hm).trans (congrArg _ (if_neg (by
    rw [show s.start.zEn p = true from hOn]
    exact Bool.false_ne_true)))

theorem exec_zthPortDisable_of_off (hOff : s.zEn p = false) : exec (.zthPortDisable m p) s = .next s.start :=
  (State.write_of_mayWrite hm).trans (congrArg _ (if_pos (by
    rw [show s.start.zEn p = false from hOff]
    rfl)))

end

/-! ## DETECT, LOCK, ALIGN (R560, R576) -/

theorem exec_zthEnergyDetect (hUp : s.zUp p = true) (hState : s.zState p = 1) : exec (.zthEnergyDetect p) s = .next (s.start.zEnter p 2) :=
  answer_of_true (by rw [hUp, hState]; rfl)

section
variable (hTrains : s.zTrains p = true)
include hTrains

/-- Lanes come into block lock: LOCK gives way to ALIGN once all of them are. -/
theorem exec_zthBlockLock {lanes : Nat} (hState : s.zState p = 2 ∨ s.zState p = 3 ∨ s.zState p = 6) :
    let lock := s.fld (ZTH_STATUS.LANE_LOCK p) ||| lanes
    let t := s.start.setF (ZTH_STATUS.LANE_LOCK p) lock
    exec (.zthBlockLock p lanes) s = .next (if s.zState p = 2 ∧ lock = 0xFF then t.zEnter p 3 else t) :=
  answer_of_true (by simpa [hTrains, or_assoc] using hState)

section
variable {rev : Bool} {pol : Nat} (hLock : s.fld (ZTH_STATUS.LANE_LOCK p) = 0xFF)
include hLock

theorem exec_zthAlignDone_of_align (hState : s.zState p = 3) :
    let t := (s.start.setF (ZTH_STATUS.REVERSED p) (b2n rev)).setF (ZTH_STATUS.POLARITY p) pol
    exec (.zthAlignDone p rev pol) s = .next ((t.setZport p (t.zport p).relink).zEnter p 4) :=
  (if_neg (by rw [hTrains, hLock]; exact Bool.false_ne_true)).trans (if_pos hState)

theorem exec_zthAlignDone_of_retrain (hState : s.zState p = 6) :
    let t := (s.start.setF (ZTH_STATUS.REVERSED p) (b2n rev)).setF (ZTH_STATUS.POLARITY p) pol
    exec (.zthAlignDone p rev pol) s = .next ((t.setZport p { (t.zport p) with lfsr := zSeeds, blocks := 0, rxLfsr := zSeeds }).zActivate p) :=
  (if_neg (by rw [hTrains, hLock]; exact Bool.false_ne_true)).trans ((if_neg (by rw [hState]; decide)).trans (if_pos hState))

end

theorem exec_trainStateTimeout {l : Nat} (hLimit : trainLimit (s.zState p) = some l) (hLate : (s.zport p).since + l < s.cyc) :
    exec (.trainStateTimeout p) s = .next (s.start.zFails p) :=
  answer_of_true (by simp [hTrains, hLimit, hLate])

/-! ## NEGOTIATE (R561) -/

theorem exec_capSend (hState : s.zState p = 4) (hDue : (s.zport p).capAt = none ∨ ∃ c, (s.zport p).capAt = some c ∧ c + 1000 ≤ s.cyc) :
    exec (.capSend p) s = .next (((s.start.setZport p { s.zport p with capAt := some s.cyc, fresh := false, sentSeen := (s.zport p).sentSeen || (s.zport p).seen }).zSend p
      ((s.zport p).flitBytes 2 0 none (s.start.capPayload (s.zport p)))).zMaybeActive p) := by
  refine answer_of_true ?_
  rw [hTrains, hState]
  rcases hDue with hNone | ⟨c, hSome, hTime⟩
  · rw [hNone]
    rfl
  · rw [hSome]
    simp [hTime]

section
variable {ls : List (List (Nat × List Byte))} {t : State} {bs : List Byte} {bad : Bool} (hState : s.zState p = 4)
  (hRecv : s.start.zRecv p ls = (t, bs, bad))
include hState hRecv

theorem exec_capFlitReceive_of_good (hGood : flitOk bs bad = true) (hType : leAt bs 0 2 / 4096 = 2) (hVersion : leAt bs 12 1 = 1) :
    exec (.capFlitReceive p ls) s = .next (t.onCap p bs) := by
  show execCapFlitReceive p ls s = _
  simp only [execCapFlitReceive, hRecv, hGood]
  exact answer_of_true (by simp [hTrains, hState, hType, hVersion])

theorem exec_capFlitReceive_of_bad (hBad : flitOk bs bad = false) : exec (.capFlitReceive p ls) s = .next (t.badFlit p) := by
  show execCapFlitReceive p ls s = _
  simp only [execCapFlitReceive, hRecv, hBad]
  exact answer_of_true (by simp [hTrains, hState])

end
end

theorem exec_zthRouteWrite {e v : Nat} (hm : s.mayWrite m (ZTH_ROUTE.addr e) = true) :
    exec (.zthRouteWrite m e v) s = .next (s.start.routeWrite e (BitVec.ofNat 32 v)) :=
  State.write_of_mayWrite hm

end

/-- Settles O45: each change of a port's state by its command; clearing EN flushes the link layer (log 35), a retrained port's scramblers start from
their seeds (log 88). -/
theorem zethaTrains : Obligations.ZethaTrains := by
  unfold Obligations.ZethaTrains
  intro s m p e v
  refine ⟨fun hm => ⟨exec_zthPortEnable_of_off hm, exec_zthPortEnable_of_on hm, exec_zthPortDisable_of_on hm, exec_zthPortDisable_of_off hm⟩,
    exec_zthEnergyDetect, fun hTrains => ⟨fun lanes hState => ⟨fun hLock hAll => ?locked, fun hNot => ?locking⟩,
      fun rev pol hLock => ⟨exec_zthAlignDone_of_align hTrains hLock, exec_zthAlignDone_of_retrain hTrains hLock⟩,
      fun l => exec_trainStateTimeout hTrains, exec_capSend hTrains,
      fun hState ls t bs bad hRecv => ⟨exec_capFlitReceive_of_good hTrains hState hRecv, exec_capFlitReceive_of_bad hTrains hState hRecv⟩⟩,
    exec_zthRouteWrite⟩
  case locked => exact (exec_zthBlockLock hTrains hState).trans (congrArg _ (if_pos ⟨hLock, hAll⟩))
  case locking => exact (exec_zthBlockLock hTrains hState).trans (congrArg _ (if_neg (not_and_or.2 hNot)))

end Sys2Proof.Machine

/-! # Zetha: flits (17_zetha.md) -/

namespace Sys2Proof.Machine
open Sys2Proof

section
variable {s u : State} {p : Nat} {ls : List (List (Nat × List Byte))} {bs : List Byte} {bad : Bool} (hActive : s.zActive p = true)
  (hRecv : s.start.zRecv p ls = (u, bs, bad)) (hGood : flitOk bs bad = true) (hNak : bitN (leAt bs 2 2) 13 = true)
include hActive hRecv hGood hNak

/-- A good flit with NAK that is discarded as the lanes bring it: the model asks for the replay by the port as it stood before. -/
theorem exec_nakReceive_of_discarded (hDiscards : (s.zport p).discards bs = true) : exec (.nakReceive p ls) s = .next (u.onFlit p bs) := by
  show execNakReceive p ls s = _
  simp only [execNakReceive, hRecv]
  exact (answer_of_true (by rw [hActive, hGood, hNak]; rfl)).trans (congrArg _ (if_pos hDiscards))

/-- Where the port as the lanes left it discards the flit too, it is a bad flit. -/
theorem exec_nakReceive_of_discarded_still (hDiscards : (s.zport p).discards bs = true) (hStill : (u.zport p).discards bs = true) :
    exec (.nakReceive p ls) s = .next (u.badFlit p) :=
  (exec_nakReceive_of_discarded hActive hRecv hGood hNak hDiscards).trans (congrArg _ (if_pos hStill))

end

/-- Reading the lanes of a port whose table is canonical changes nothing that discarding looks at. -/
theorem State.discards_zRecv {s : State} {p : Nat} {ls : List (List (Nat × List Byte))} {bs : List Byte}
    (hWf : Sparse.wf (fun _ => ZPort.init) s.zports = true) : ((s.zRecv p ls).1.zport p).discards bs = (s.zport p).discards bs := by
  have hPort : (s.zRecv p ls).1.zport p = ((s.zport p).recv (s.flag (ZTH_STATUS.REVERSED p)) (s.fld (ZTH_STATUS.POLARITY p)) ls).1 :=
    Sparse.get_set_same hWf
  rw [hPort]
  rfl

/-- A DATA flit numbered 5 with NAK set. -/
def strayFlit : List Byte := ({ ZPort.init with nak := true } : ZPort).flitBytes 1 5 (some ⟨0, false, false, [0]⟩) [0]

/-- The lanes that bring it, each with an ordered set behind its two blocks. -/
def strayLanes : List (List (Nat × List Byte)) :=
  (ZPort.init.lanes strayFlit).map (fun l => [(1, (l.2.drop 1).take 16), (1, l.2.drop 18), (2, [])])

/-- Zetha port 0 ACTIVE, and a table of the ports out of its canonical form: an entry as at reset stands before another one of the same port. The
ordered sets leave the descramblers at their seeds, so that the port is again as at reset and its entry goes off the list. -/
def strayZetha : State :=
  { State.reset with
    regs := [((ZTH_CFG.EN 0).addr, ins 0 (ZTH_CFG.EN 0).hi (ZTH_CFG.EN 0).lo 1), ((ZTH_STATUS.STATE 0).addr, ins 0 (ZTH_STATUS.STATE 0).hi (ZTH_STATUS.STATE 0).lo 5)]
    pd := [(pdZth 0, 2)]
    zports := [(0, ZPort.init), (0, { ZPort.init with rxSeq := 5 })] }

theorem strayZetha_recv : let r := strayZetha.start.zRecv 0 strayLanes
    flitOk r.2.1 r.2.2 = true ∧ bitN (leAt r.2.1 2 2) 13 = true ∧ (strayZetha.zport 0).discards r.2.1 = true
      ∧ (r.1.onFlit 0 r.2.1).zports ≠ ((r.1.zCount 0 zCrcErr).setZport 0 { (r.1.zCount 0 zCrcErr).zport 0 with nak := true }).zports := by
  decide +kernel

/-- Refutes O46: the clause of a flit with NAK that is discarded (as a bad one is, log 35) looks at the port before the lanes are read, the model,
when it takes the flit, after it. In strayZetha, whose table of ports is not canonical, reading the lanes uncovers a port that expects the flit.
With a canonical table the port discards it before and after
(State.discards_zRecv), and the clause holds (exec_nakReceive_of_discarded_still). -/
theorem not_zethaFlits : ¬ Obligations.ZethaFlits := by
  unfold Obligations.ZethaFlits
  intro h
  obtain ⟨hGood, hNak, hDiscards, hDiffer⟩ := strayZetha_recv
  have hActive : strayZetha.zActive 0 = true := by decide +kernel
  obtain ⟨hClauses, _⟩ := h strayZetha 0 0 strayLanes _ _ _ rfl
  obtain ⟨_, _, _, hNakClauses, _⟩ := hClauses hActive
  have hClause := (hNakClauses hGood hNak).2 hDiscards
  rw [exec_nakReceive_of_discarded hActive rfl hGood hNak hDiscards] at hClause
  exact hDiffer (congrArg State.zports (Host.Outcome.next.inj hClause))

end Sys2Proof.Machine

/-! # Zetha: window accesses and messages (17_zetha.md) -/

namespace Sys2Proof.Machine
open Sys2Proof

/-! ## A core's access (R569, R571, R572) -/

section
variable {s u v : State} {m a n e q t : Nat} {bs : List Byte} {num : Option Nat}

theorem exec_zthWindowAccess (hWin : isZWin a = true) (wr : Bool) :
    exec (.zthWindowAccess m a n bs wr) s = .next (if wr then s.start.zCoreWrite m a bs else s.start.zCoreRead m a n) :=
  answer_of_true hWin

theorem State.zCoreRead_of_barred (h : isCore m = false ∨ hartAligned a n = false ∨ s.zUp (zWin a).1 = false) : s.zCoreRead m a n = s.busError :=
  if_pos (by simpa [or_assoc] using h)

theorem State.zCoreWrite_of_barred (h : isCore m = false ∨ hartAligned a bs.length = false ∨ s.zUp (zWin a).1 = false) :
    s.zCoreWrite m a bs = s.busError :=
  if_pos (by simpa [or_assoc] using h)

section
variable (hCore : isCore m = true) (hUp : s.zUp (zWin a).1 = true)
include hCore hUp

section
variable (hAligned : hartAligned a n = true)
include hAligned

theorem State.zCoreRead_of_unrouted (hRoute : s.zResolve a = (u, none)) : s.zCoreRead m a n = u.say .busError := by
  simp [State.zCoreRead, hCore, hUp, hAligned, hRoute]

theorem State.zCoreRead_of_waits (hRoute : s.zResolve a = (u, some (e, q))) (hTag : (u.zport q).freeTag = none) :
    s.zCoreRead m a n = (u.zWaits e q (zWin a).2 false m n []).say .waits := by
  simp [State.zCoreRead, hCore, hUp, hAligned, hRoute, hTag]

theorem State.zCoreRead_of_tag (hRoute : s.zResolve a = (u, some (e, q))) (hTag : (u.zport q).freeTag = some t) : s.zCoreRead m a n =
    ((u.setZport q { u.zport q with nextTag := (t + 1) % 1024, reqs := (u.zport q).reqs ++ [⟨t, false, 0xFF, m, 0, n, 0⟩] }).zQueue q 0
      (zHeader 2 (b2n (wholeBlocks (s.zRemote e (zWin a).2) n)) (s.fld (ZTH_ROUTE.DST_NODE e)) s.nodeId n (s.zRemote e (zWin a).2) t 0 0)).say .waits := by
  simp [State.zCoreRead, State.zRead, hCore, hUp, hAligned, hRoute, hTag]

end

section
variable (hAligned : hartAligned a bs.length = true)
include hAligned

theorem State.zCoreWrite_of_unrouted (hRoute : s.zResolve a = (u, none)) : s.zCoreWrite m a bs = u.say .busError := by
  simp [State.zCoreWrite, hCore, hUp, hAligned, hRoute]

theorem State.zCoreWrite_of_waits (hRoute : s.zResolve a = (u, some (e, q))) (hTag : (u.zport q).freeTag = none) :
    s.zCoreWrite m a bs = (u.zWaits e q (zWin a).2 true m bs.length bs).say .waits := by
  simp [State.zCoreWrite, hCore, hUp, hAligned, hRoute, hTag]

theorem State.zCoreWrite_of_tag (hRoute : s.zResolve a = (u, some (e, q))) (hTag : (u.zport q).freeTag = some t)
    (hProv : u.provUnit (8 + q) [] = some (v, num)) : let wm := wholeBlocks (s.zRemote e (zWin a).2) bs.length
    s.zCoreWrite m a bs =
    ((v.setZport q { u.zport q with nextTag := (t + 1) % 1024, reqs := (u.zport q).reqs ++ [⟨t, true, 0xFF, m, 0, bs.length, 0⟩] }).zQueue q
      (s.fld (ZTH_ROUTE.VC e)) (zHeader 1 (b2n wm + 2 * b2n num.isSome) (s.fld (ZTH_ROUTE.DST_NODE e)) s.nodeId bs.length (s.zRemote e (zWin a).2) t
        (num.getD 0) 0 ++ bs ++ (if wm then s.zTrailers bs [] else []))).say .waits := by
  simp [State.zCoreWrite, State.zWrite, hCore, hUp, hAligned, hRoute, hTag, hProv]

end
end
end

/-! ## Arrived messages (R567–R573) -/

/-- The first message that arrived is the first of its type on its channel. -/
theorem State.zTake_of_head {s : State} {p vc : Nat} {w : List Byte} {rest : List (Nat × List Byte)} (h : (s.zport p).arrived = (vc, w) :: rest) :
    s.zTake p (leAt w 0 1) = some (w, s.setZport p { s.zport p with arrived := rest }) := by
  have hFirst : ∀ f : Nat → Bool, f 0 = true → (List.range (rest.length + 1)).find? f = some 0 := by
    intro f hf
    rw [List.range_succ_eq_map, List.find?_cons_of_pos hf]
  simp only [State.zTake, h, List.length_cons]
  rw [hFirst _ (by simp [msgType, getAt])]
  rfl

section
variable {s t u : State} {p : Nat} {w : List Byte}

/-! ### WRITE (R568) -/

section
variable (hTake : s.start.zTake p 1 = some (w, t))
include hTake

theorem exec_zthWriteMsg_of_outside (hRange : t.zInRange p (leAt w 8 6) (leAt w 4 4) = false) :
    exec (.zthWriteMsg p) s = .next ((t.zCount p zInbReject).zAck p w 1) := by
  show execZthWriteMsg p s = _
  simp [execZthWriteMsg, hTake, hRange]

variable (hRange : t.zInRange p (leAt w 8 6) (leAt w 4 4) = true)
include hRange

theorem exec_zthWriteMsg_of_waits (h : t.moveHolds (messageBlocks w) = true ∨ t.inboundOk p w (messageBlocks w) = false) :
    exec (.zthWriteMsg p) s = .next { s.start with resp := .inapplicable } := by
  have hWaits : t.zWriteWaits p w = true := by simpa [State.zWriteWaits, hRange] using h
  show execZthWriteMsg p s = _
  simp [execZthWriteMsg, hTake, hRange, hWaits, answer]

theorem exec_zthWriteMsg_of_lands (hMove : t.moveHolds (messageBlocks w) = false) (hRoom : t.inboundOk p w (messageBlocks w) = true) :
    let r := (t.regulateRange (zMaster p) 8 (srcDie (zMaster p) 2) (leAt w 8 6, leAt w 4 4)).land p (leAt w 8 6) w
    exec (.zthWriteMsg p) s = .next (((r.1.inbound p w (messageBlocks w)).release (messageBlocks w) 6 false).zAck p w (if r.2 then 0 else 1)) := by
  have hGoes : t.zWriteWaits p w = false := by simp [State.zWriteWaits, hMove, hRoom]
  show execZthWriteMsg p s = _
  simp [execZthWriteMsg, hTake, hRange, hGoes]

end

/-! ### READ_REQ (R568, R571) -/

theorem State.zInRange_of_length {a n : Nat} (h : n = 0 ∨ 65536 < n) : s.zInRange p a n = false := by
  have hOut : ¬ (1 ≤ n ∧ n ≤ 65536 ∧ s.fld (ZTH_IN_BASE.ADDR p) * 65536 ≤ a ∧ a + n ≤ (s.fld (ZTH_IN_LIMIT.ADDR p) + 1) * 65536) := by omega
  rw [State.zInRange, decide_eq_false hOut, Bool.false_and]

/-- A READ_RESP to the message w. -/
def State.zReply (t : State) (w : List Byte) (flags len seq st : Nat) : List Byte :=
  zHeader 3 flags (leAt w 3 1) t.nodeId len 0 (leAt w 14 2 % 1024) seq st

section
variable (hTake : s.start.zTake p 2 = some (w, t))
include hTake

theorem exec_zthReadReq_of_outside (hRange : t.zInRange p (leAt w 8 6) (leAt w 4 4) = false) :
    exec (.zthReadReq p) s = .next ((t.zCount p zInbReject).zRespond p (t.zReply w 0 0 0 1)) := by
  show execZthReadReq p s = _
  simp [execZthReadReq, hTake, hRange, State.zReply]

variable (hRange : t.zInRange p (leAt w 8 6) (leAt w 4 4) = true)
include hRange

theorem exec_zthReadReq_of_wait {b : Nat} (hScan : t.scanBlocks true false (rangeBlocks (leAt w 8 6) (leAt w 4 4)) = .wait b) :
    exec (.zthReadReq p) s = .next { s.start with resp := .inapplicable } := by
  show execZthReadReq p s = _
  simp [execZthReadReq, hTake, hRange, hScan, answer]

theorem exec_zthReadReq_of_watermark {b : Nat} (hScan : t.scanBlocks true false (rangeBlocks (leAt w 8 6) (leAt w 4 4)) = .stop stWatermark b) :
    exec (.zthReadReq p) s = .next ((t.checkRead b 0 0).1.zRespond p (t.zReply w 0 0 0 1)) := by
  show execZthReadReq p s = _
  simp [execZthReadReq, hTake, hRange, hScan, State.zReply]

theorem exec_zthReadReq_of_unusable {st b : Nat} (hSt : st ≠ stWatermark)
    (hScan : t.scanBlocks true false (rangeBlocks (leAt w 8 6) (leAt w 4 4)) = .stop st b) :
    exec (.zthReadReq p) s = .next (t.zRespond p (t.zReply w 0 0 0 2)) := by
  show execZthReadReq p s = _
  simp [execZthReadReq, hTake, hRange, hScan, hSt, State.zReply]

/-- The state in which the data of a request are read. -/
def State.zReads (t : State) (p : Nat) (w : List Byte) : State :=
  (t.regulateRange (zMaster p) 8 (srcDie (zMaster p) 2) (leAt w 8 6, leAt w 4 4)).noteReads (rangeBlocks (leAt w 8 6) (leAt w 4 4)) 0 0

variable {prov : Bool} (hScan : t.scanBlocks true false (rangeBlocks (leAt w 8 6) (leAt w 4 4)) = .ok prov)
include hScan

theorem exec_zthReadReq_of_stalled (hProv : (t.zReads p w).provUnit (8 + p) (rangeBlocks (leAt w 8 6) (leAt w 4 4)) = none) :
    exec (.zthReadReq p) s = .next { s.start with resp := .inapplicable } := by
  unfold State.zReads at hProv
  show execZthReadReq p s = _
  simp [execZthReadReq, hTake, hRange, hScan, hProv, answer]

theorem exec_zthReadReq_of_ok {i : State × Option Nat} (hProv : (t.zReads p w).provUnit (8 + p) (rangeBlocks (leAt w 8 6) (leAt w 4 4)) = some i) :
    let wm := wholeBlocks (leAt w 8 6) (leAt w 4 4)
    let data := i.1.bytesAt (leAt w 8 6) (leAt w 4 4)
    exec (.zthReadReq p) s = .next (i.1.zRespond p (t.zReply w (b2n wm + 2 * b2n i.2.isSome) (leAt w 4 4) (i.2.getD 0) 0 ++ data
      ++ (if wm then i.1.zTrailers data (rangeBlocks (leAt w 8 6) (leAt w 4 4)) else []))) := by
  obtain ⟨v, num⟩ := i
  unfold State.zReads at hProv
  show execZthReadReq p s = _
  simp [execZthReadReq, hTake, hRange, hScan, hProv, State.zReply]

end

/-! ### READ_RESP and WRITE_ACK (R571, R572) -/

section
variable {r : ZReq}

section
variable (hTake : s.start.zTake p 3 = some (w, t))
include hTake

theorem exec_zthReadResp_of_unasked (hNone : t.zAnswered p w false = none) : exec (.zthReadResp p) s = .next t := by
  show execZthReadResp p s = _
  simp [execZthReadResp, hTake, hNone]

variable (hAnswers : t.zAnswered p w false = some (r, u))
include hAnswers

theorem exec_zthReadResp_of_core (hCore : r.mover = 0xFF) : exec (.zthReadResp p) s =
    .next (if leAt w 20 1 = 0 ∧ leAt w 4 4 = r.len then u.say (.bytes ((w.drop 32).take r.len)) else u.say .busError) := by
  show execZthReadResp p s = _
  simp [execZthReadResp, hTake, hAnswers, hCore]

variable (hMove : r.mover ≠ 0xFF)
include hMove

theorem exec_zthReadResp_of_lands (hRoom : r.dst = 0 ∨ u.inboundOk p w (rangeBlocks r.dst r.len) = true) :
    exec (.zthReadResp p) s = .next (u.readLands p r w).pump := by
  have hGoes : (r.dst ≠ 0 && !u.inboundOk p w (rangeBlocks r.dst r.len)) = false := by
    rcases hRoom with h | h <;> simp [h]
  show execZthReadResp p s = _
  simp only [execZthReadResp, hTake, hAnswers, hMove, hGoes]
  rfl

theorem exec_zthReadResp_of_stalled (hDst : r.dst ≠ 0) (hRoom : u.inboundOk p w (rangeBlocks r.dst r.len) = false) :
    exec (.zthReadResp p) s = .next { s.start with resp := .inapplicable } := by
  show execZthReadResp p s = _
  simp [execZthReadResp, hTake, hAnswers, hMove, hDst, hRoom, answer]

end

section
variable (hTake : s.start.zTake p 5 = some (w, t))
include hTake

theorem exec_zthWriteAck_of_unasked (hNone : t.zAnswered p w true = none) : exec (.zthWriteAck p) s = .next t := by
  show execZthWriteAck p s = _
  simp [execZthWriteAck, hTake, hNone]

variable (hAnswers : t.zAnswered p w true = some (r, u))
include hAnswers

theorem exec_zthWriteAck_of_core (hCore : r.mover = 0xFF) : exec (.zthWriteAck p) s = .next (if leAt w 20 1 = 0 then u else u.say .busError) := by
  show execZthWriteAck p s = _
  simp [execZthWriteAck, hTake, hAnswers, hCore]

variable (hMove : r.mover ≠ 0xFF)
include hMove

theorem exec_zthWriteAck_of_good (hStatus : leAt w 20 1 = 0) : exec (.zthWriteAck p) s = .next (u.pieceGot r.mover r.move r.piece).pump := by
  show execZthWriteAck p s = _
  simp [execZthWriteAck, hTake, hAnswers, hMove, hStatus]

theorem exec_zthWriteAck_of_bad (hStatus : leAt w 20 1 ≠ 0) :
    exec (.zthWriteAck p) s = .next (u.pieceFailed r.mover r.move r.piece (leAt w 20 1 == 2)).pump := by
  show execZthWriteAck p s = _
  simp [execZthWriteAck, hTake, hAnswers, hMove, hStatus]

end
end

/-! ### NOTICE (R573) -/

/-- The inbound entries of a port that a notice covers. -/
def ZPort.hits (x : ZPort) (w : List Byte) : List InbEntry := x.inb.filter (fun e => e.covered (leAt w 36 4) (leAt w 40 4))

section
variable (hTake : s.start.zTake p 4 = some (w, t))
include hTake

theorem exec_zthNotice_of_waits (h : t.writeFirst p (leAt w 36 4) (leAt w 40 4) ((t.zport p).hits w) = true) :
    exec (.zthNotice p) s = .next { s.start with resp := .inapplicable } := by
  unfold ZPort.hits at h
  show execZthNotice p s = _
  simp [execZthNotice, hTake, h, answer]

/-- Where nothing is hit the credits held stay held. -/
theorem exec_zthNotice_of_lands (h : t.writeFirst p (leAt w 36 4) (leAt w 40 4) ((t.zport p).hits w) = false) :
    let x := t.zport p
    let y := { x with inb := x.inb.filter (fun e => !e.covered (leAt w 36 4) (leAt w 40 4)) }
    exec (.zthNotice p) s = .next (((x.hits w).foldl (fun (v : State) e => v.noticeEntry p (leAt w 33 1 == 2) e) t).setZport p (if x.hits w = [] then y
      else { y with freed := (List.range 4).map (fun v => (getAt 0 x.freed v + getAt 0 x.owed v) % 256), owed := [0, 0, 0, 0] })) := by
  unfold ZPort.hits at h ⊢
  show execZthNotice p s = _
  simp only [execZthNotice, hTake, h, List.isEmpty_iff, Bool.false_eq_true, if_false]
  split <;> rfl

end
end

/-- Settles O47: a core's access by its window, its route and a free tag (without one it is kept, log 91); each kind of message by what it finds
(lengths that are refused, log 35). -/
theorem zethaMessages : Obligations.ZethaMessages := by
  unfold Obligations.ZethaMessages
  intro s m p a n bs
  refine ⟨fun hWin => ⟨fun wr hBarred => ?barred, fun wr u hCore hAligned hUp => ⟨fun hRoute => ?unrouted, fun e q hRoute => ⟨fun hTag => ?waits,
      fun t hTag => ⟨fun hRead => ?read, fun hWrite v num hProv => ?write⟩⟩⟩⟩,
    fun vc w rest h => State.zTake_of_head h,
    fun w t hTake => ⟨exec_zthWriteMsg_of_outside hTake, exec_zthWriteMsg_of_waits hTake, exec_zthWriteMsg_of_lands hTake⟩,
    fun w t hTake => ⟨fun hOut => ?outside, fun hRange => ⟨fun b => exec_zthReadReq_of_wait hTake hRange, fun b => exec_zthReadReq_of_watermark hTake hRange,
      fun st b => exec_zthReadReq_of_unusable hTake hRange, fun prov => exec_zthReadReq_of_stalled hTake hRange,
      fun prov i hScan hProv => exec_zthReadReq_of_ok hTake hRange hScan hProv⟩⟩,
    fun w t hTake => ⟨exec_zthReadResp_of_unasked hTake, fun r u hAnswers => ⟨exec_zthReadResp_of_core hTake hAnswers,
      exec_zthReadResp_of_lands hTake hAnswers, exec_zthReadResp_of_stalled hTake hAnswers⟩⟩,
    fun w t hTake => ⟨exec_zthWriteAck_of_unasked hTake, fun r u hAnswers => ⟨exec_zthWriteAck_of_core hTake hAnswers,
      exec_zthWriteAck_of_good hTake hAnswers, exec_zthWriteAck_of_bad hTake hAnswers⟩⟩,
    fun w t hTake => ⟨exec_zthNotice_of_waits hTake, exec_zthNotice_of_lands hTake⟩⟩
  case barred =>
    refine (exec_zthWindowAccess hWin wr).trans (congrArg _ ?_)
    cases wr with
    | false => exact State.zCoreRead_of_barred hBarred
    | true => exact State.zCoreWrite_of_barred hBarred
  case unrouted =>
    refine (exec_zthWindowAccess hWin wr).trans (congrArg _ ?_)
    cases wr with
    | false => exact State.zCoreRead_of_unrouted hCore hUp hAligned hRoute
    | true => exact State.zCoreWrite_of_unrouted hCore hUp hAligned hRoute
  case waits =>
    refine (exec_zthWindowAccess hWin wr).trans (congrArg _ ?_)
    cases wr with
    | false => exact State.zCoreRead_of_waits hCore hUp hAligned hRoute hTag
    | true => exact State.zCoreWrite_of_waits hCore hUp hAligned hRoute hTag
  case read =>
    subst hRead
    exact (exec_zthWindowAccess hWin false).trans (congrArg _ (State.zCoreRead_of_tag hCore hUp hAligned hRoute hTag))
  case write =>
    subst hWrite
    exact (exec_zthWindowAccess hWin true).trans (congrArg _ (State.zCoreWrite_of_tag hCore hUp hAligned hRoute hTag hProv))
  case outside =>
    have hRange : t.zInRange p (leAt w 8 6) (leAt w 4 4) = false := by
      rcases hOut with hZero | hLong | hRange
      · exact State.zInRange_of_length (.inl hZero)
      · exact State.zInRange_of_length (.inr hLong)
      · exact hRange
    exact exec_zthReadReq_of_outside hTake hRange

end Sys2Proof.Machine

/-! # Camera ports: frames and rings (18_other_ports.md) -/

namespace Sys2Proof.Machine
open Sys2Proof

section
variable {s t : State} {m p v n vc dt num ecc : Nat} {bs : List Byte} {bad : Bool} {l : List Nat}

/-! ## Packet headers (R581) -/

/-- The state once a header has been counted that is good or has one bit in error. -/
def State.csiHeard (s : State) (p ecc : Nat) : State := if ecc = 0 then s else s.csiCount p 0

theorem State.csiHeader_of_good (h : ecc < 2) : s.csiHeader p vc ecc = (s.csiHeard p ecc, true) := by
  unfold State.csiHeader State.csiHeard
  rcases Nat.lt_succ_iff_lt_or_eq.1 h with h0 | rfl
  · obtain rfl : ecc = 0 := by omega
    rfl
  · rfl

theorem State.csiHeader_of_bad (h : 2 ≤ ecc) : (s.csiHeader p vc ecc).2 = false := by
  unfold State.csiHeader
  rw [if_neg (by omega), if_neg (by omega)]

section
variable (hUp : s.csiUp p = true)
include hUp

theorem exec_csiFrameStart_of_waits (hWaits : s.csiWaits p = true) : exec (.csiFrameStart p ecc vc num) s = .next (s.start.say .waits) :=
  if_pos (by rw [hUp, hWaits]; rfl)

theorem exec_csiFrameEnd_of_waits (hWaits : s.csiWaits p = true) : exec (.csiFrameEnd p ecc vc) s = .next (s.start.say .waits) :=
  if_pos (by rw [hUp, hWaits]; rfl)

/-! ## Headers that discard their packet -/

section
variable (hBad : 2 ≤ ecc)
include hBad

theorem exec_csiLongPacket_of_header : exec (.csiLongPacket p ecc vc dt bs bad) s = .next (s.start.csiHeader p vc ecc).1 :=
  (answer_of_true hUp).trans (congrArg _ (if_neg (Bool.not_eq_true _ ▸ State.csiHeader_of_bad hBad)))

variable (hWaits : s.csiWaits p = false)
include hWaits

theorem exec_csiFrameStart_of_header : exec (.csiFrameStart p ecc vc num) s = .next (s.start.csiHeader p vc ecc).1 :=
  (if_neg (by rw [hUp, hWaits]; exact Bool.false_ne_true)).trans
    ((answer_of_true hUp).trans (congrArg _ (if_neg (Bool.not_eq_true _ ▸ State.csiHeader_of_bad hBad))))

theorem exec_csiFrameEnd_of_header : exec (.csiFrameEnd p ecc vc) s = .next (s.start.csiHeader p vc ecc).1 :=
  (if_neg (by rw [hUp, hWaits]; exact Bool.false_ne_true)).trans
    ((answer_of_true hUp).trans (congrArg _ (if_neg (Bool.not_eq_true _ ▸ State.csiHeader_of_bad hBad))))

end

/-! ## Long packets (R582, R584) -/

section
variable (hGood : ecc < 2)
include hGood

theorem exec_csiLongPacket_of_unmatched (hMatch : s.csiMatch p vc (some dt) = []) :
    exec (.csiLongPacket p ecc vc dt bs bad) s = .next ((s.start.csiHeard p ecc).csiCount p 2) := by
  refine (answer_of_true hUp).trans (congrArg _ ?_)
  simp only [State.csiHeader_of_good hGood, hMatch, if_true]

section
variable (hMatch : s.csiMatch p vc (some dt) = v :: l)
include hMatch

theorem exec_csiLongPacket_of_open {f : Frame} (hFrame : ((s.start.csiHeard p ecc).csi (csiKey p v)).frame = some f) :
    exec (.csiLongPacket p ecc vc dt bs bad) s =
      .next ((f.line (s.start.csiHeard p ecc) p bs bad).1.setCsi (csiKey p v) ⟨some (f.line (s.start.csiHeard p ecc) p bs bad).2, false⟩) := by
  refine (answer_of_true hUp).trans (congrArg _ ?_)
  simp only [State.csiHeader_of_good hGood, hMatch, hFrame, if_true]

theorem exec_csiLongPacket_of_closed (hFrame : ((s.start.csiHeard p ecc).csi (csiKey p v)).frame = none) :
    exec (.csiLongPacket p ecc vc dt bs bad) s = .next (s.start.csiHeard p ecc) := by
  refine (answer_of_true hUp).trans (congrArg _ ?_)
  simp only [State.csiHeader_of_good hGood, hMatch, hFrame, if_true]

end

/-! ## Frame Start and Frame End (R584, R585) -/

variable (hWaits : s.csiWaits p = false)
include hWaits

theorem exec_csiFrameStart_of_unmatched (hMatch : s.csiMatch p vc none = []) :
    exec (.csiFrameStart p ecc vc num) s = .next (s.start.csiHeard p ecc) := by
  refine (if_neg (by rw [hUp, hWaits]; exact Bool.false_ne_true)).trans ((answer_of_true hUp).trans (congrArg _ ?_))
  simp only [State.csiHeader_of_good hGood, hMatch, if_true]

theorem exec_csiFrameEnd_of_unmatched (hMatch : s.csiMatch p vc none = []) :
    exec (.csiFrameEnd p ecc vc) s = .next ((s.start.csiHeard p ecc).csiCount p 4) := by
  refine (if_neg (by rw [hUp, hWaits]; exact Bool.false_ne_true)).trans ((answer_of_true hUp).trans (congrArg _ ?_))
  simp only [State.csiHeader_of_good hGood, hMatch, if_true]

variable (hMatch : s.csiMatch p vc none = v :: l)
include hMatch

theorem exec_csiFrameStart_of_matched : exec (.csiFrameStart p ecc vc num) s = .next ((s.start.csiHeard p ecc).csiOpen p v num) := by
  refine (if_neg (by rw [hUp, hWaits]; exact Bool.false_ne_true)).trans ((answer_of_true hUp).trans (congrArg _ ?_))
  simp only [State.csiHeader_of_good hGood, hMatch, if_true]

theorem exec_csiFrameEnd_of_open {f : Frame} (hFrame : ((s.start.csiHeard p ecc).csi (csiKey p v)).frame = some f) :
    exec (.csiFrameEnd p ecc vc) s = .next ((s.start.csiHeard p ecc).csiClose p v f) := by
  refine (if_neg (by rw [hUp, hWaits]; exact Bool.false_ne_true)).trans ((answer_of_true hUp).trans (congrArg _ ?_))
  simp only [State.csiHeader_of_good hGood, hMatch, hFrame, if_true]

theorem exec_csiFrameEnd_of_closed (hFrame : ((s.start.csiHeard p ecc).csi (csiKey p v)).frame = none) :
    exec (.csiFrameEnd p ecc vc) s = .next (((s.start.csiHeard p ecc).setCsi (csiKey p v) ⟨none, false⟩).csiCount p 4) := by
  refine (if_neg (by rw [hUp, hWaits]; exact Bool.false_ne_true)).trans ((answer_of_true hUp).trans (congrArg _ ?_))
  simp only [State.csiHeader_of_good hGood, hMatch, hFrame, if_true]

end
end

section
variable (hFrame : (t.csi (csiKey p v)).frame = none)
include hFrame

theorem State.csiOpen_of_empty (hDepth : t.csiDepth p v = 0) : t.csiOpen p v num = (t.csiCount p 3).setCsi (csiKey p v) ⟨none, true⟩ := by
  simp only [State.csiOpen, hFrame, hDepth, if_true]

/-- A frame opens from the descriptor at HEAD. -/
theorem State.csiOpen_of_posted (hDepth : t.csiDepth p v ≠ 0) (hRange : t.dataRange (t.csiDescAddr p v) 32 = true) : t.csiOpen p v num =
    (let d := t.seenBytes (t.csiDescAddr p v) 32
     (t.regulateRange csiMaster 8 (csiDie p) (t.csiDescAddr p v, 32)).setCsi (csiKey p v) ⟨some ⟨leAt d 0 6, leAt d 6 2,
       64 * Nat.max 1 (t.fld (CSI_CTX_CFG.LINE_PITCH_64 p v)), 0, 0, 0, 0, num,
       (t.now + 2 ^ 32 - t.fld (CSI_LAT.LAT_NS p)) % 2 ^ 32, t.now / 2 ^ 32 % 2 ^ 32⟩, false⟩) := by
  simp only [State.csiOpen, hFrame, hDepth, hRange, if_false, if_true]

end

/-! ## Doorbells (R583) -/

section
variable (hm : s.mayWrite m (CSI_CTX_DB.addr p v) = true)
include hm

theorem exec_csiDoorbell : exec (.csiDoorbell m p v n) s = .next (s.start.csiBell p v n) := State.write_of_mayWrite hm

theorem exec_csiDoorbell_of_fits (hOn : s.start.flag (CSI_CTX_CFG.EN p v) = true)
    (hFits : s.start.csiDepth p v + (n + 2 ^ 32 - s.start.fld (CSI_CTX_TAIL.COUNT p v)) % 2 ^ 32 ≤ s.start.csiSize p v) :
    exec (.csiDoorbell m p v n) s = .next (if (n + 2 ^ 32 - s.start.fld (CSI_CTX_TAIL.COUNT p v)) % 2 ^ 32 = 0 then s.start
      else s.start.setF (CSI_CTX_TAIL.COUNT p v) n) := by
  refine (exec_csiDoorbell hm).trans (congrArg _ ?_)
  split
  next hNothing => exact State.ringPush_of_nothing (.inr hNothing)
  next hSome => exact State.ringPush_of_fits hOn hSome hFits

theorem exec_csiDoorbell_of_refused (h : s.start.flag (CSI_CTX_CFG.EN p v) = false
      ∨ s.start.csiSize p v < s.start.csiDepth p v + (n + 2 ^ 32 - s.start.fld (CSI_CTX_TAIL.COUNT p v)) % 2 ^ 32) :
    exec (.csiDoorbell m p v n) s = .next s.start :=
  (exec_csiDoorbell hm).trans (congrArg _ (State.ringPush_of_refused (h.imp_right (fun hFull => .inr (Nat.not_le.2 hFull)))))

end
end

/-- Settles O48: a packet by its header, by the context that matches it and by that context's frame; a doorbell by its ring. -/
theorem cameraFrames : Obligations.CameraFrames := by
  unfold Obligations.CameraFrames
  intro s m p v n vc dt num bs bad
  refine ⟨fun hUp => ⟨fun ecc hWaits => ⟨exec_csiFrameStart_of_waits hUp hWaits, exec_csiFrameEnd_of_waits hUp hWaits⟩,
      fun ecc hBad => ⟨exec_csiLongPacket_of_header hUp hBad, fun hWaits => ⟨exec_csiFrameStart_of_header hUp hBad hWaits,
        exec_csiFrameEnd_of_header hUp hBad hWaits⟩⟩,
      fun ecc t hGood ht => ?good⟩,
    fun hm => ⟨exec_csiDoorbell_of_fits hm, exec_csiDoorbell_of_refused hm⟩⟩
  case good =>
    obtain rfl : t = s.start.csiHeard p ecc := ht
    refine ⟨exec_csiLongPacket_of_unmatched hUp hGood,
      fun l hMatch => ⟨fun f => exec_csiLongPacket_of_open hUp hGood hMatch, exec_csiLongPacket_of_closed hUp hGood hMatch⟩,
      fun hWaits hMatch => ⟨exec_csiFrameStart_of_unmatched hUp hGood hWaits hMatch, exec_csiFrameEnd_of_unmatched hUp hGood hWaits hMatch⟩,
      fun l hWaits hMatch => ?_⟩
    have hStart := exec_csiFrameStart_of_matched (num := num) hUp hGood hWaits hMatch
    exact ⟨hStart, fun hFrame => ⟨fun hDepth => hStart.trans (congrArg _ (State.csiOpen_of_empty hFrame hDepth)),
        fun hDepth hRange => hStart.trans (congrArg _ (State.csiOpen_of_posted hFrame hDepth hRange))⟩,
      fun f => exec_csiFrameEnd_of_open hUp hGood hWaits hMatch, exec_csiFrameEnd_of_closed hUp hGood hWaits hMatch⟩

end Sys2Proof.Machine

/-! # Multiplexed pins (18_other_ports.md) -/

namespace Sys2Proof.Machine
open Sys2Proof

section
variable {s : State} {m n : Nat} {w : Word}

/-! ## A write of a pin's register (R613, R614) -/

theorem State.pinSet_of_absent (h : s.pinUp n = false) : s.pinSet m n w = s := if_pos (by rw [h]; rfl)

/-- The register of a pin with OE and OUT as written. -/
def State.pinOe (s : State) (n : Nat) (w : Word) : Word := ins (s.rd (GPIO_PIN.addr n)) 2 1 (bits w 2 1)

section
variable (hUp : s.pinUp n = true)
include hUp

theorem State.pinSet_of_other (hm : m ≠ 0x61) : s.pinSet m n w = s.wr (GPIO_PIN.addr n) (s.pinOe n w) :=
  (if_neg (by rw [hUp]; exact Bool.false_ne_true)).trans (if_pos hm)

/-- A management core changes the function, and with it begins a park interval when FUNC changes. -/
theorem State.pinSet_of_core : s.pinSet 0x61 n w = s.wr (GPIO_PIN.addr n)
    (let new := ins (s.pinOe n w) 31 23 (bits w 31 23)
     if bits w 31 29 = bits (s.rd (GPIO_PIN.addr n)) 31 29 then new else ins new 22 22 1) :=
  (if_neg (by rw [hUp]; exact Bool.false_ne_true)).trans (if_neg (not_not.2 rfl))

end

theorem exec_pinFuncWrite {v : Nat} (hm : s.mayWrite m (GPIO_PIN.addr n) = true) :
    exec (.pinFuncWrite m n v) s = .next (s.start.pinSet m n (BitVec.ofNat 32 v)) :=
  State.write_of_mayWrite hm

/-! ## The end of the park interval, PWM and capture channels (R611, R612, R614) -/

section
variable (hUp : s.pinUp n = true)
include hUp

theorem exec_parkIntervalEnd (hParking : s.flag (GPIO_PIN.PARKING n) = true) : exec (.parkIntervalEnd n) s =
    .next ((s.start.setF (GPIO_PIN.PARKING n) 0).setPin n { s.pin n with func := funcOf (s.fld (GPIO_PIN.FUNC n)) }) :=
  answer_of_true (by rw [hUp, hParking]; rfl)

theorem exec_pwmStart {start period high : Nat} (hIdle : (s.pin n).pwm = none) (hDue : (s.time + 2 ^ 32 - start % 2 ^ 32) % 2 ^ 32 < 2 ^ 31)
    (hPeriod : 1 ≤ period) (hHigh : 1 ≤ high) :
    exec (.pwmStart n start period high) s = .next (s.start.setPin n { s.pin n with pwm := some (s.cyc, period, high) }) := by
  refine answer_of_true ?_
  rw [hUp, hIdle, decide_eq_true hDue, decide_eq_true ⟨hPeriod, hHigh⟩]
  rfl

/-- A pin in function 5 outside a park interval sees its pad. -/
theorem State.seesPad_capture (hFunc : (s.pin n).func = 5) (hParking : s.flag (GPIO_PIN.PARKING n) = false) : s.seesPad n 5 = true := by
  rw [State.seesPad, hUp, hFunc, hParking]
  rfl

section
variable {sel : Nat} {rising : Bool} (hFunc : (s.pin n).func = 5) (hParking : s.flag (GPIO_PIN.PARKING n) = false)
  (hEdge : edgeSelected sel rising = true)
include hFunc hParking hEdge

theorem exec_captureEdge_of_room (hRoom : (s.pin n).caps.length < 16) : exec (.captureEdge n sel rising) s =
    .next ((s.start.setPin n { s.pin n with caps := (s.pin n).caps ++ [(s.time + 2 ^ 32 - 10) % 2 ^ 32] }).pulse (if n < 64 then 48 else 49)) := by
  refine (answer_of_true (by rw [State.seesPad_capture hUp hFunc hParking, hEdge]; rfl)).trans ?_
  rw [if_neg (Nat.not_le.2 hRoom)]

theorem exec_captureEdge_of_full (hFull : 16 ≤ (s.pin n).caps.length) : exec (.captureEdge n sel rising) s =
    .next ((s.start.setPin n { s.pin n with capLost := satAdd sat32 (s.pin n).capLost 1 }).pulse (if n < 64 then 48 else 49)) := by
  refine (answer_of_true (by rw [State.seesPad_capture hUp hFunc hParking, hEdge]; rfl)).trans ?_
  rw [if_pos hFull]

end
end
end

/-- FUNC 6 and 7 act as 0. -/
theorem funcOf_eq (v : Nat) : funcOf v = if v < 6 then v else 0 := by
  unfold funcOf
  split <;> split <;> omega

theorem edgeSelected_of {sel : Nat} {rising : Bool} (h : sel = 2 ∨ (sel = 0 ∧ rising = true) ∨ (sel = 1 ∧ rising = false)) :
    edgeSelected sel rising = true := by
  rcases h with rfl | ⟨rfl, rfl⟩ | ⟨rfl, rfl⟩ <;> rfl

/-- Settles O49: a write of a pin by who writes and whether FUNC changes; the channels' settings and the edge come with their commands (log 89). -/
theorem pinFunctions : Obligations.PinFunctions := by
  unfold Obligations.PinFunctions
  intro s m n v start period high
  refine ⟨fun hm => ⟨fun hAbsent => ?absent, fun hUp old oe hOld hOe => ?written⟩, fun hUp => ⟨fun hParking => ?park, exec_pwmStart hUp,
    fun sel rising hFunc hParking hEdge => ⟨exec_captureEdge_of_room hUp hFunc hParking (edgeSelected_of hEdge),
      exec_captureEdge_of_full hUp hFunc hParking (edgeSelected_of hEdge)⟩⟩⟩
  case absent => exact (exec_pinFuncWrite hm).trans (congrArg _ (State.pinSet_of_absent hAbsent))
  case written =>
    subst hOld hOe
    refine ⟨fun hOther => ?_, fun hCore hSame => ?_, fun hCore hChange => ?_⟩
    · exact (exec_pinFuncWrite hm).trans (congrArg _ (State.pinSet_of_other hUp hOther))
    · subst hCore
      exact (exec_pinFuncWrite hm).trans (congrArg _ ((State.pinSet_of_core hUp).trans (congrArg _ (if_pos hSame))))
    · subst hCore
      exact (exec_pinFuncWrite hm).trans (congrArg _ ((State.pinSet_of_core hUp).trans (congrArg _ (if_neg hChange))))
  case park =>
    rw [exec_parkIntervalEnd hUp hParking, funcOf_eq]

end Sys2Proof.Machine

/-! # PCIe ports: requests, the IOMMU and the link (18_peripheral_io.md, 19_application_cores.md) -/

namespace Sys2Proof.Machine
open Sys2Proof

/-! ## Inbound requests (R590, R591, R626) -/

section
variable {s : State} {p rid a n d : Nat} {bs l : List Byte} {pois : Bool}

section
variable (hLink : s.pLink p = true)
include hLink

theorem exec_pcieInboundRequest_of_write : exec (.pcieInboundRequest p true rid a n bs) s = .next (s.start.pInStore p rid a bs false) :=
  answer_of_true hLink

theorem exec_pcieInboundRequest_of_read : exec (.pcieInboundRequest p false rid a n bs) s = .next (s.start.pInLoad p rid a n) :=
  answer_of_true hLink

end

theorem State.pInStore_of_waits (h : (s.pInMap p rid a bs.length true).2 = .waits) :
    s.pInStore p rid a bs pois = (s.pInMap p rid a bs.length true).1.say .waits := if_pos h

theorem State.pInStore_of_refused (h : (s.pInMap p rid a bs.length true).2 = .refused) :
    s.pInStore p rid a bs pois = (s.pInMap p rid a bs.length true).1 := by
  simp only [State.pInStore, h, reduceCtorEq, if_false]
  rfl

theorem State.pInStore_of_to (h : (s.pInMap p rid a bs.length true).2 = .to d) :
    s.pInStore p rid a bs pois = (s.pInMap p rid a bs.length true).1.pInWrite p bs pois (some d) := by
  simp only [State.pInStore, h, reduceCtorEq, if_false]
  rfl

theorem State.pInLoad_of_waits (h : (s.pInMap p rid a n false).2 = .waits) :
    s.pInLoad p rid a n = (s.pInMap p rid a n false).1.say .waits := if_pos h

theorem State.pInLoad_of_refused (h : (s.pInMap p rid a n false).2 = .refused) :
    s.pInLoad p rid a n = (s.pInMap p rid a n false).1.pUr p := by
  simp only [State.pInLoad, h, reduceCtorEq, if_false]
  rfl

theorem State.pInLoad_of_to (h : (s.pInMap p rid a n false).2 = .to d) :
    s.pInLoad p rid a n = (s.pInMap p rid a n false).1.pInRead p n (some d) := by
  simp only [State.pInLoad, h, reduceCtorEq, if_false]
  rfl

theorem State.pInRead_of_other (h : s.region d n ≠ .data) : s.pInRead p n (some d) = s.pUr p := if_pos (bne_iff_ne.2 h)

/-- A read of DRAM that the Headbox lets pass is answered with its bytes. -/
theorem State.pInRead_of_data {t : State} (h : s.region d n = .data)
    (ht : t = s.gated (pMaster p) (2 + p) d n true 0 (s.readAt (pMaster p) d n)) (hResp : t.resp = .bytes l) : s.pInRead p n (some d) =
    (({ t with resp := .done } : State).bump (PCI_PROV_READ.COUNT p) (((rangeBlocks d n).filter (fun b => (t.tag b).prov)).length)).emit
      (.frame (if (rangeBlocks d n).any (fun b => (t.tag b).poison) then "PCIE_CPL_POISONED" else "PCIE_CPL") p l) := by
  subst ht
  unfold State.pInRead
  simp only [h, bne_self_eq_false, Bool.false_eq_true, if_false, hResp]

/-! ## Poison and completions (R591, R592, R595) -/

section
variable {v : Nat} {r : PReq} {t u : State}

section
variable (hLink : s.pLink p = true)
include hLink

theorem exec_poisonedTlpReceive_of_write (hTo : ((s.start.pEvent p (PCI_EVENT.POISON_RX p)).pInMap p rid a bs.length true).2 = .to d) :
    exec (.poisonedTlpReceive p false v rid a bs) s =
      .next (((s.start.pEvent p (PCI_EVENT.POISON_RX p)).pInMap p rid a bs.length true).1.pInWrite p bs true (some d)) :=
  (if_neg (by rw [hLink]; exact Bool.false_ne_true)).trans ((if_neg Bool.false_ne_true).trans (congrArg _ (State.pInStore_of_to hTo)))

theorem exec_poisonedTlpReceive_of_completion (hTake : (s.start.pEvent p (PCI_EVENT.POISON_RX p)).pTake p v = some (r, u)) :
    exec (.poisonedTlpReceive p true v rid a bs) s = .next (if r.mover = 0xFF then u.say .busError else u.pFail r) := by
  show execPoisonedTlpReceive p true v rid a bs s = _
  simp [execPoisonedTlpReceive, hLink, hTake]

theorem exec_poisonedTlpReceive_of_unasked (hTake : (s.start.pEvent p (PCI_EVENT.POISON_RX p)).pTake p v = none) :
    exec (.poisonedTlpReceive p true v rid a bs) s = .next (s.start.pEvent p (PCI_EVENT.POISON_RX p)) := by
  show execPoisonedTlpReceive p true v rid a bs s = _
  simp [execPoisonedTlpReceive, hLink, hTake]

section
variable (hTake : s.start.pTake p v = some (r, t))
include hTake

/-- A completion with an error, or of a wrong length, ends its request with an error. -/
theorem exec_pcieCompletion_of_bad {err : Bool} (h : err = true ∨ bs.length ≠ r.len) :
    exec (.pcieCompletion p v err bs) s = .next (if r.mover = 0xFF then t.say .busError else t.pFail r) := by
  show execPcieCompletion p v err bs s = _
  simp only [execPcieCompletion, hLink, hTake]
  exact if_pos h

theorem exec_pcieCompletion_of_core (hCore : r.mover = 0xFF) (hLen : bs.length = r.len) :
    exec (.pcieCompletion p v false bs) s = .next (t.say (.bytes bs)) := by
  show execPcieCompletion p v false bs s = _
  simp [execPcieCompletion, hLink, hTake, hCore, hLen]

theorem exec_pcieCompletion_of_piece {ok : Bool} (hMove : r.mover ≠ 0xFF) (hLen : bs.length = r.len)
    (hDeliver : t.deliver ⟨0x40 + r.mover, 0, false, false, .unit⟩ r.mover r.move r.piece bs = (u, ok)) :
    exec (.pcieCompletion p v false bs) s = .next (if ok then u.pieceGot r.mover r.move r.piece else u.pieceDenied r.mover r.move r.piece).pump := by
  show execPcieCompletion p v false bs s = _
  simp [execPcieCompletion, hLink, hTake, hMove, hLen, hDeliver]

end
end

theorem State.pFail_of_core (hCore : r.mover = 0xFF) : (if r.mover = 0xFF then t.say .busError else t.pFail r) = t.say .busError := if_pos hCore

theorem State.pFail_of_piece (hMove : r.mover ≠ 0xFF) :
    (if r.mover = 0xFF then t.say .busError else t.pFail r) = (t.pieceFailed r.mover r.move r.piece false).pump :=
  (if_neg hMove).trans (if_neg hMove)

theorem exec_pcieCplTimeout (hUp : s.pUp p = true) (hTake : s.start.pTake p v = some (r, t)) (hLate : r.sent + s.pTimeout p ≤ s.cyc) :
    exec (.pcieCplTimeout p v) s = .next ((t.pEvent p (PCI_EVENT.CPL_TIMEOUT p)).pFail r) := by
  show execPcieCplTimeout p v s = _
  simp only [execPcieCplTimeout, hTake]
  exact answer_of_true (by rw [hUp, decide_eq_true hLate]; rfl)

end

/-! ## MSI-X (R595) -/

/-- MSIX_TRIG raises a vector of an endpoint only. -/
theorem State.pMsix_eq {v : Nat} : s.pMsix p v = if s.pMode p = 2 then s.emit (.note "PCIE_MSIX" [p, v % 64]) else s := by
  unfold State.pMsix State.pHeader
  by_cases hRoot : s.pMode p = 1
  · simp [hRoot]
  · by_cases hEnd : s.pMode p = 2
    · simp [hEnd]
    · simp [hRoot, hEnd]

theorem exec_msixTrig {m v : Nat} (hm : s.mayWrite m (PCI_MSIX_TRIG.addr p) = true) :
    exec (.msixTrig m p v) s = .next (if s.pMode p = 2 then s.start.emit (.note "PCIE_MSIX" [p, v % 64]) else s.start) := by
  refine (State.write_of_mayWrite hm).trans ?_
  rw [State.pMsix_eq]
  rfl

end

/-! ## The IOMMU (R625, R626) -/

section
variable {s : State} {did a : Nat} {wr : Bool}

theorem State.ioTranslate_of_off (h : s.fld IOM_DDTP_LO.MODE = 0) : s.ioTranslate did a wr = (s.ioRecord wr did a 256 0, .refused) := by
  simp [State.ioTranslate, State.ioStopped, h]

theorem State.ioTranslate_of_bare (h : s.fld IOM_DDTP_LO.MODE = 1) : s.ioTranslate did a wr = (s, .to a) := by
  simp [State.ioTranslate, h]

section
variable {x : IoCtx} (hMode : 2 ≤ s.fld IOM_DDTP_LO.MODE) (hContext : s.ioContext did = .ok x)
include hMode hContext

theorem State.ioTranslate_of_page {pa : Nat} (h : (s.ioWalk x wr a).2 = .ok pa) : s.ioTranslate did a wr = ((s.ioWalk x wr a).1, .to pa) := by
  simp only [State.ioTranslate, if_neg (show ¬ s.fld IOM_DDTP_LO.MODE = 0 by omega), if_neg (show ¬ s.fld IOM_DDTP_LO.MODE = 1 by omega), hContext, h]

theorem State.ioTranslate_of_stop {y : IoStop} (h : (s.ioWalk x wr a).2 = .error y) :
    s.ioTranslate did a wr = (s.ioWalk x wr a).1.ioStopped wr (ioBits x.tc 4 4 == 1) did a y := by
  simp only [State.ioTranslate, if_neg (show ¬ s.fld IOM_DDTP_LO.MODE = 0 by omega), if_neg (show ¬ s.fld IOM_DDTP_LO.MODE = 1 by omega), hContext, h]

end
end

/-- Settles O50: a request by its translation (off, fault 256 and its record, the bare mode and the directory, log 40; what is discarded, log 41); a
completion by its request. -/
theorem pcieTransactions : Obligations.PcieTransactions := by
  unfold Obligations.PcieTransactions
  intro s m p rid a n v bs
  refine ⟨fun hLink => ⟨fun r hr => ?write, fun r hr => ?read, fun t ht => ?poison, fun r t hTake => ?completion⟩,
    fun r t hUp hTake hLate => exec_pcieCplTimeout hUp hTake (by rw [State.pTimeout, Nat.mul_comm]; exact hLate), exec_msixTrig,
    fun did wr => ⟨State.ioTranslate_of_off, State.ioTranslate_of_bare, fun x hMode hContext => ⟨fun pa => State.ioTranslate_of_page hMode hContext,
      fun h => congrArg Prod.snd (State.ioTranslate_of_stop hMode hContext h), fun c v h => congrArg Prod.snd (State.ioTranslate_of_stop hMode hContext h)⟩⟩⟩
  case write =>
    subst hr
    have hStore := exec_pcieInboundRequest_of_write (rid := rid) (a := a) (n := n) (bs := bs) hLink
    exact ⟨fun h => hStore.trans (congrArg _ (State.pInStore_of_waits h)), fun h => hStore.trans (congrArg _ (State.pInStore_of_refused h)),
      fun d h => hStore.trans (congrArg _ (State.pInStore_of_to h))⟩
  case read =>
    subst hr
    have hLoad := exec_pcieInboundRequest_of_read (rid := rid) (a := a) (n := n) (bs := bs) hLink
    refine ⟨fun h => hLoad.trans (congrArg _ (State.pInLoad_of_waits h)), fun h => hLoad.trans (congrArg _ ?_), fun d t l hTo hData ht hResp => ?_⟩
    · rcases h with hRefused | ⟨d, hTo, hOther⟩
      · exact State.pInLoad_of_refused hRefused
      · exact (State.pInLoad_of_to hTo).trans (State.pInRead_of_other hOther)
    · exact hLoad.trans (congrArg _ ((State.pInLoad_of_to hTo).trans (State.pInRead_of_data hData ht hResp)))
  case poison =>
    subst ht
    refine ⟨fun r hr d hTo => ?_, fun r u hTake hCore => ?_, fun r u hTake hMove => ?_, exec_poisonedTlpReceive_of_unasked hLink⟩
    · subst hr
      exact exec_poisonedTlpReceive_of_write hLink hTo
    · exact (exec_poisonedTlpReceive_of_completion hLink hTake).trans (congrArg _ (State.pFail_of_core hCore))
    · exact (exec_poisonedTlpReceive_of_completion hLink hTake).trans (congrArg _ (State.pFail_of_piece hMove))
  case completion =>
    refine ⟨exec_pcieCompletion_of_core hLink hTake, fun hCore => ?_, fun hCore hLen => ?_, fun hMove => ?_,
      fun hMove hLen u ok => exec_pcieCompletion_of_piece hLink hTake hMove hLen⟩
    · exact (exec_pcieCompletion_of_bad hLink hTake (.inl rfl)).trans (congrArg _ (State.pFail_of_core hCore))
    · exact (exec_pcieCompletion_of_bad hLink hTake (.inr hLen)).trans (congrArg _ (State.pFail_of_core hCore))
    · exact (exec_pcieCompletion_of_bad hLink hTake (.inl rfl)).trans (congrArg _ (State.pFail_of_piece hMove))

/-! ## The link and fundamental reset (R593, R596, R730) -/

section
variable {s : State} {p width rate : Nat} (hUp : s.pUp p = true)
include hUp

theorem exec_pcieLinkUp (hMode : s.pMode p ≠ 0) (hDown : s.flag (PCI_CFG.LINK_UP p) = false) (hBall : s.pPerst p = false)
    (hWidth : width ≤ s.fld (PCI_CFG.MAX_WIDTH p)) (hLow : 1 ≤ rate) (hHigh : rate ≤ s.pMaxRate p) : exec (.pcieLinkUp p width rate) s =
    .next (((s.start.setF (PCI_CFG.LINK_UP p) 1).setF (PCI_CFG.WIDTH p) width).setF (PCI_CFG.RATE p) rate) :=
  answer_of_true (by simp [hUp, hMode, hDown, hBall, hWidth, hLow, hHigh])

theorem exec_pcieLinkDown (hLink : s.flag (PCI_CFG.LINK_UP p) = true) : exec (.pcieLinkDown p) s = .next (s.start.pDrop p) :=
  answer_of_true (by rw [hUp, hLink]; rfl)

end

/-- The addresses of a port's registers. -/
def pciBlock (p a : Nat) : Bool := decide (PCI_CFG.addr p ≤ a ∧ a < PCI_CFG.addr p + 0x800000)

/-- A port as the fundamental reset leaves it, before its interrupt is looked at. -/
def State.perstReset (s : State) (p : Nat) : State :=
  ((s.resetRegs (pciBlock p)).wr (PCI_CFG.addr p) (pciLinkOff (s.rd (PCI_CFG.addr p)))).setPport p { PPort.init with perst := true }

section
variable {s : State} {p a : Nat}

theorem exec_perstAssert (hUp : s.pUp p = true) (hMode : s.pMode p = 2) (hHigh : (s.pport p).perst = false) (hDown : s.flag (PCI_CFG.LINK_UP p) = false) :
    exec (.perstAssert p) s = .next ((s.start.perstReset p).sense (50 + p)) := by
  refine (answer_of_true (by rw [hUp, hMode, hHigh]; rfl)).trans ?_
  rw [if_neg (Bool.not_eq_true _ ▸ hDown)]
  rfl

section
variable (hWf : Registers.wf s = true)
include hWf

theorem State.rd_perstReset_same : (s.perstReset p).rd (PCI_CFG.addr p) = ins (s.rd (PCI_CFG.addr p)) 23 18 0 :=
  State.rd_wr_same (Registers.wf_resetRegs hWf)

theorem State.rd_perstReset_other (hOther : a ≠ PCI_CFG.addr p) :
    (s.perstReset p).rd a = if pciBlock p a = true then regReset a else s.rd a :=
  (State.rd_wr_other (Registers.wf_resetRegs hWf) hOther).trans (State.rd_resetRegs hWf)

theorem State.rd_perstReset_outside (h : a < PCI_CFG.addr p ∨ PCI_CFG.addr p + 0x800000 ≤ a) : (s.perstReset p).rd a = s.rd a :=
  (State.rd_perstReset_other hWf (by omega)).trans (if_neg (by rw [pciBlock, decide_eq_true_eq]; omega))

theorem State.rd_perstReset_inside (hLow : PCI_CFG.addr p < a) (hHigh : a < PCI_CFG.addr p + 0x800000) : (s.perstReset p).rd a = regReset a :=
  (State.rd_perstReset_other hWf (by omega)).trans (if_pos (by rw [pciBlock, decide_eq_true_eq]; omega))

end

/-- Whoever drives it, the ball goes high. -/
theorem exec_perstRelease (hUp : s.pUp p = true) (hMode : s.pMode p ≠ 0) (hBall : s.pPerst p = true) :
    let t := s.start.setPport p { s.pport p with perst := false, released := true }
    exec (.perstRelease p) s = .next (if s.pMode p = 1 then t.emit (.note "PCI_PERST_N" [p, 1]) else t) :=
  answer_of_true (by simp [hUp, hMode, hBall])

end

/-- Settles O51: the link by its commands; a fundamental reset by what it leaves of the port's block (the fields of CFG that stay, log 41). -/
theorem pcieLink : Obligations.PcieLink := by
  unfold Obligations.PcieLink
  intro s p width rate hUp
  refine ⟨exec_pcieLinkUp hUp, exec_pcieLinkDown hUp, fun hMode hHigh hDown => ⟨exec_perstAssert hUp hMode hHigh hDown, fun hWf => ?reset⟩,
    fun hBall => ⟨fun hMode => ?root, fun hMode => ?endpoint⟩⟩
  case reset =>
    have hWf' : Registers.wf s.start = true := hWf
    exact ⟨fun a => State.rd_perstReset_outside hWf', fun a => State.rd_perstReset_inside hWf', State.rd_perstReset_same hWf'⟩
  case root => exact (exec_perstRelease hUp (by omega) hBall).trans (congrArg _ (if_pos hMode))
  case endpoint => exact (exec_perstRelease hUp (by omega) hBall).trans (congrArg _ (if_neg (by omega)))

end Sys2Proof.Machine

/-! # The flash port (18_peripheral_io.md) -/

namespace Sys2Proof.Machine
open Sys2Proof

/-! ## Tables, canonical or not -/

section
variable {β : Type} {d : Nat → β}

/-- A value that is no key's default reads back from any table. -/
theorem Sparse.get_set_same_of_ne [DecidableEq β] {k : Nat} {v : β} (hv : v ≠ d k) : ∀ l : List (Nat × β), Sparse.get d (Sparse.set d l k v) k = v
  | [] => by simp [Sparse.set, Sparse.cons, hv, Sparse.get]
  | (k', v') :: l => by
    by_cases hLow : k < k'
    · simp [Sparse.set, Sparse.cons, hv, Sparse.get, hLow]
    · by_cases hSame : k = k'
      · subst hSame
        simp [Sparse.set, Sparse.cons, hv, Sparse.get]
      · simpa [Sparse.set, Sparse.get, hLow, hSame] using Sparse.get_set_same_of_ne hv l

/-- Writing it changes no other key. -/
theorem Sparse.get_set_other_of_ne [DecidableEq β] {k j : Nat} {v : β} (hv : v ≠ d k) (hj : j ≠ k) :
    ∀ l : List (Nat × β), Sparse.get d (Sparse.set d l k v) j = Sparse.get d l j
  | [] => by simp [Sparse.set, Sparse.cons, hv, Sparse.get, hj]
  | (k', v') :: l => by
    by_cases hLow : k < k'
    · by_cases hBelow : j < k
      · have hNot : j ≠ k' := by omega
        simp [Sparse.set, Sparse.cons, hv, Sparse.get, hLow, hj, hBelow, hNot, Nat.lt_trans hBelow hLow]
      · simp [Sparse.set, Sparse.cons, hv, Sparse.get, hLow, hj, hBelow]
    · by_cases hSame : k = k'
      · subst hSame
        simp [Sparse.set, Sparse.cons, hv, Sparse.get, hj]
      · simp [Sparse.set, Sparse.get, hLow, hSame, Sparse.get_set_other_of_ne hv hj l]

/-- A dropped key reads as its default. -/
theorem Sparse.get_drop_of_mem {p : Nat → Bool} {k : Nat} (hk : p k = true) : ∀ l : List (Nat × β), Sparse.get d (Sparse.drop p l) k = d k
  | [] => rfl
  | (k', v') :: l => by
    by_cases hp : p k' = true
    · simp [Sparse.drop, hp, Sparse.get_drop_of_mem hk l]
    · have hNot : k ≠ k' := fun h => hp (h ▸ hk)
      simp [Sparse.drop, hp, Sparse.get, hNot, Sparse.get_drop_of_mem hk l]

theorem Sparse.drop_eq_filter (p : Nat → Bool) : ∀ l : List (Nat × β), Sparse.drop p l = l.filter (fun e => !p e.1)
  | [] => rfl
  | (k, v) :: l => by
    by_cases hp : p k = true
    · simp [Sparse.drop, hp, Sparse.drop_eq_filter p l]
    · simp [Sparse.drop, hp, Sparse.drop_eq_filter p l]

end

/-! ## A command is given (R600) -/

theorem xspWord_toNat {k op : Nat} (hk : k < 8) : (xspWord k op).toNat = 2 ^ 31 + k * 2 ^ 28 + op % 2 ^ 16 := by
  rw [xspWord, BitVec.toNat_ofNat, Nat.mod_eq_of_lt (by omega)]

section
variable {k op : Nat} (hk : k < 8)
include hk

theorem bits_xspWord_go : bits (xspWord k op) 31 31 = 1 := by
  rw [bits, xspWord_toNat hk, bitsN]
  omega

theorem bits_xspWord_kind : bits (xspWord k op) 30 28 = k := by
  rw [bits, xspWord_toNat hk, bitsN]
  omega

theorem bits_xspWord_code : bits (xspWord k op) 15 0 = op % 65536 := by
  rw [bits, xspWord_toNat hk, bitsN]
  omega

end

/-- The command of a kind and a code that the port's registers make. -/
def State.xspCmd (s : State) (k op : Nat) : FlashCmd :=
  { kind := k, opcode := op % 65536, addr := s.fld XSP_ADDR.ADDR, len := s.fld XSP_LEN.BYTES, buf := s.fld XSP_BUF.OFFSET / 4 * 4 }

theorem FlashCmd.ok_iff {c : FlashCmd} (hKind : c.kind < 6) :
    c.ok = true ↔ c.kind = 2 ∨ (1 ≤ c.len ∧ c.len ≤ (if c.kind = 1 then 256 else 4096) ∧ (c.kind = 1 → c.addr % 256 + c.len ≤ 256)) := by
  unfold FlashCmd.ok
  by_cases hProgram : c.kind = 1
  · simp [hProgram]
  · simp [hProgram, Nat.le_of_lt_succ hKind]

section
variable {s : State} {k op : Nat}

/-- A GO starts its command, is held, or is rejected. -/
theorem State.xspGo_eq (hk : k < 8) : s.xspGo (xspWord k op) =
    if (s.xspCmd k op).ok = true then
      (if s.flag XSP_STATUS.BUSY = false then s.flashBegin (s.xspCmd k op)
       else if s.flashHeld = none then { s with flashHeld := some (s.xspCmd k op) } else s.setF XSP_STATUS.REJECT 1)
    else s.setF XSP_STATUS.REJECT 1 := by
  have hCmd : (⟨bits (xspWord k op) 30 28, bits (xspWord k op) 15 0, s.fld XSP_ADDR.ADDR, s.fld XSP_LEN.BYTES, s.fld XSP_BUF.OFFSET / 4 * 4⟩ : FlashCmd) =
      s.xspCmd k op := by
    rw [bits_xspWord_kind hk, bits_xspWord_code hk]
    rfl
  unfold State.xspGo
  simp only [hCmd, bits_xspWord_go hk, Nat.one_ne_zero, if_false, Option.isNone_iff_eq_none, Bool.not_eq_true']
  by_cases hOk : (s.xspCmd k op).ok = true
  · rw [if_neg (by rw [hOk]; exact Bool.noConfusion), if_pos hOk]
  · rw [if_pos (by simpa using hOk), if_neg hOk]

end

/-! ## What a command does (R600, R601) -/

section
variable {s : State} {c : FlashCmd}

theorem State.flashDo_of_read (h : c.kind = 0) : s.flashDo c = s.putAll (placed (0x1000000 + c.buf) (s.flashAt c.addr c.len)) := by
  simp only [State.flashDo, h]
  rfl

theorem State.flashDo_of_program (h : c.kind = 1) : s.flashDo c = s.flashProgram c.addr (s.bytesAt (0x1000000 + c.buf) c.len) := by
  simp only [State.flashDo, h]
  rfl

theorem State.flashDo_of_erase (h : c.kind = 2) : s.flashDo c = s.flashErase (c.addr / 65536 * 65536) 65536 := by
  simp only [State.flashDo, h]

/-- The keys an erase of a sector drops are the sector's. -/
theorem mem_sector (a b : Nat) : decide (b / 65536 * 65536 ≤ a ∧ a < b / 65536 * 65536 + 65536) = (a / 65536 == b / 65536) := by
  rw [Bool.eq_iff_iff, decide_eq_true_eq, beq_iff_eq]
  omega

theorem State.flashByte_erased {a : Nat} (h : c.kind = 2) (ha : a / 65536 = c.addr / 65536) : (s.flashDo c).flashByte a = 0xFF := by
  rw [State.flashDo_of_erase h]
  exact Sparse.get_drop_of_mem (by rw [mem_sector, ha, beq_self_eq_true]) s.flash

theorem State.flashDo_erase_eq (h : c.kind = 2) : s.flashDo c = { s with flash := s.flash.filter (fun e => e.1 / 65536 != c.addr / 65536) } := by
  rw [State.flashDo_of_erase h, State.flashErase, Sparse.drop_eq_filter]
  simp only [mem_sector]
  rfl

end

/-! ## A command ends (R601) -/

/-- A word with a bit set is not 0. -/
theorem ne_zero_of_bit {w : Word} {i : Nat} (h : bits w i i = 1) : w ≠ 0 := by
  rintro rfl
  simp [bits, bitsN] at h

section
variable {s : State} {c h : FlashCmd} {b : Nat}

/-- With DONE set the register of STATUS is not at its reset value, and what clears BUSY leaves every other register alone. -/
theorem State.rd_xspDone (hb : b ≠ XSP_STATUS.addr) : ((s.setF XSP_STATUS.DONE 1).setF XSP_STATUS.BUSY 0).rd b = s.rd b := by
  have hReset : regReset XSP_STATUS.addr = 0 := by decide +kernel
  have hDone : bits (ins (s.rd XSP_STATUS.addr) 30 30 1) 30 30 = 1 := bits_ins_same _ 30 30 1 (by decide) (by decide)
  have hSet : ins (s.rd XSP_STATUS.addr) 30 30 1 ≠ regReset XSP_STATUS.addr := hReset ▸ ne_zero_of_bit hDone
  have hRead : (s.setF XSP_STATUS.DONE 1).rd XSP_STATUS.addr = ins (s.rd XSP_STATUS.addr) 30 30 1 := Sparse.get_set_same_of_ne hSet s.regs
  have hKept : bits (ins ((s.setF XSP_STATUS.DONE 1).rd XSP_STATUS.addr) 31 31 0) 30 30 = 1 := by
    rw [bits_ins_other _ 31 31 0 30 30 (by decide) (by decide) (by decide) (by decide), hRead, hDone]
  have hClear : ins ((s.setF XSP_STATUS.DONE 1).rd XSP_STATUS.addr) 31 31 0 ≠ regReset XSP_STATUS.addr := hReset ▸ ne_zero_of_bit hKept
  exact (Sparse.get_set_other_of_ne hClear hb _).trans (Sparse.get_set_other_of_ne hSet hb _)

theorem State.regs_putAll (ws : List (Addr × Byte)) : (s.putAll ws).regs = s.regs := by
  refine foldl_keeps (fun t => t.regs = s.regs) (fun t e ht => ?_) ws s rfl
  exact ht

/-- A command changes no register. -/
theorem State.regs_flashDo : (s.flashDo c).regs = s.regs := by
  unfold State.flashDo
  split
  · exact State.regs_putAll _
  · rfl
  · rfl
  · exact State.regs_putAll _
  · exact State.regs_putAll _
  · rfl

theorem State.rd_flashDo : (s.flashDo c).rd b = s.rd b := by
  rw [State.rd, State.regs_flashDo]
  rfl

section
variable (hOn : s.pdOn 83 = true) (hCmd : s.flashCmd = some c)
include hOn hCmd

theorem exec_xspCmdDone_of_idle {err : Bool} (hHeld : s.flashHeld = none) : exec (.xspCmdDone err) s =
    .next { (if err then (s.start.flashSpoil c).setF XSP_STATUS.ERROR 1 else (s.start.flashDo c).setF XSP_STATUS.DONE 1).setF XSP_STATUS.BUSY 0 with
      flashCmd := none } := by
  show execXspCmdDone err s = _
  simp only [execXspCmdDone, hCmd, hHeld]
  exact answer_of_true hOn

theorem exec_xspCmdDone_of_held (hHeld : s.flashHeld = some h) : exec (.xspCmdDone false) s =
    .next (({ ((s.start.flashDo c).setF XSP_STATUS.DONE 1).setF XSP_STATUS.BUSY 0 with flashCmd := none, flashHeld := none } : State).flashBegin h) := by
  show execXspCmdDone false s = _
  simp only [execXspCmdDone, hCmd, hHeld]
  exact answer_of_true hOn

end

theorem State.flag_of_regs {t u : State} {f : Fld} (hRegs : t.regs = u.regs) : t.flag f = u.flag f := by
  rw [State.flag, State.fld, State.rd, hRegs]
  rfl

/-- The mode in which the code of a command goes out is as it was when the one before it ended. -/
theorem State.flag_octal_done {t : State} (hRegs : t.regs = (((s.flashDo c).setF XSP_STATUS.DONE 1).setF XSP_STATUS.BUSY 0).regs) :
    t.flag XSP_CFG.OCTAL = s.flag XSP_CFG.OCTAL := by
  have hRead : (((s.flashDo c).setF XSP_STATUS.DONE 1).setF XSP_STATUS.BUSY 0).rd XSP_CFG.addr = s.rd XSP_CFG.addr :=
    (State.rd_xspDone (by decide)).trans State.rd_flashDo
  rw [State.flag_of_regs hRegs]
  exact congrArg (fun w => bits w 31 31 == 1) hRead

/-- The code of a command as it goes out in a mode. -/
def FlashCmd.codeNote (c : FlashCmd) (octal : Bool) : Out :=
  .note "XSP_CODE" (if octal then [c.opcode / 256 % 256, c.opcode % 256] else [c.opcode % 256])

theorem State.flashBegin_of_mode {octal : Bool} (hMode : s.flag XSP_CFG.OCTAL = octal) :
    s.flashBegin c = { (s.emit (c.codeNote octal)).setF XSP_STATUS.BUSY 1 with flashCmd := some c } := by
  subst hMode
  rfl

end

/-- Settles O52: a GO by its length and by what the port holds; each kind by what it does (the program's clearing and the erased byte, log 44); a
command that ends sets DONE or ERROR (log 89), and the code of the one held goes out in the mode that STATUS leaves alone. -/
theorem bootFlash : Obligations.BootFlash := by
  unfold Obligations.BootFlash
  intro s m op code
  refine ⟨fun hm k c hc => ?go, fun hOn c hCmd u => ⟨fun hu => ?done, fun hu hHeld => ?failed⟩, fun c => ⟨State.flashDo_of_read, State.flashDo_of_program,
    fun h => ⟨fun a => State.flashByte_erased h, State.flashDo_erase_eq h⟩⟩⟩
  case go =>
    subst hc
    intro t
    have hGo (hk : k < 6) : s.write m XSP_CMD.addr (s.start.xspGo (xspWord k op)) = .next t :=
      (State.write_of_mayWrite hm).trans (congrArg _ ((State.xspGo_eq (by omega)).trans (if_congr (FlashCmd.ok_iff hk) rfl rfl)))
    refine ⟨?_, ?_, ?_, ?_, ?_, ?_⟩ <;> (rintro rfl; exact hGo (by decide))
  case done =>
    subst hu
    cases hHeld : s.flashHeld with
    | none => exact exec_xspCmdDone_of_idle hOn hCmd hHeld
    | some h =>
      have hMode : ({ ((s.start.flashDo c).setF XSP_STATUS.DONE 1).setF XSP_STATUS.BUSY 0 with flashCmd := none, flashHeld := none } : State).flag
          XSP_CFG.OCTAL = s.start.flag XSP_CFG.OCTAL := State.flag_octal_done rfl
      have hStart : s.start.flag XSP_CFG.OCTAL = s.flag XSP_CFG.OCTAL := State.flag_of_regs rfl
      rw [exec_xspCmdDone_of_held hOn hCmd hHeld, State.flashBegin_of_mode (hMode.trans hStart)]
      rfl
  case failed =>
    subst hu
    exact exec_xspCmdDone_of_idle hOn hCmd hHeld

end Sys2Proof.Machine

/-! # CAN FD controllers (18_peripheral_io.md) -/

namespace Sys2Proof.Machine
open Sys2Proof

section
variable {s : State} {m n v sof b : Nat}

theorem exec_canTxReq (hm : s.mayWrite m (CAN_TX_REQ.addr n) = true) : exec (.canTxReq m n v) s = .next (s.start.canReq n v) :=
  State.write_of_mayWrite hm

/-! ## Transmission (R603, R607) -/

section
variable (hOn : s.canOn n = true) (hTime : sof ≤ s.now)
include hOn hTime

/-- A controller after a frame of buffer b that began at sof has been sent, before its error state is looked at. -/
def State.canSent (s : State) (n b sof : Nat) : State :=
  let t := s.setF (CAN_TXB.WORD n b 2) (sof % 2 ^ 32)
  t.setF (CAN_STATUS.TEC n) (t.fld (CAN_STATUS.TEC n) - 1)

section
variable (hOffer : s.canOffer n sof = some b)
include hOffer

theorem exec_canTxComplete_of_sent : let t := s.start.canSent n b sof
    exec (.canTxComplete n true sof) s = .next (((if t.fld (CAN_STATUS.TEC n) < 128 ∧ t.fld (CAN_STATUS.REC n) < 128 then t.setF (CAN_STATUS.STATE n) 0
      else t).canEnd n b true).emit (.frame "CAN" n (s.canFrame n b))) := by
  show execCanTxComplete n true sof s = _
  simp only [execCanTxComplete, hOn, Nat.not_lt.2 hTime, hOffer]
  rfl

section
variable (hFailed : (s.can n).failed = none)
include hFailed

theorem exec_canArbitrationLost : exec (.canArbitrationLost n sof) s = .next ((s.start.bump (CAN_CNT.COUNT n 1) 1).canRetry n b) := by
  show execCanArbitrationLost n sof s = _
  simp only [execCanArbitrationLost, hOffer]
  exact answer_of_true (by simp [hOn, hFailed, hTime])

/-- An error while sending, short of bus-off. -/
theorem exec_canBusError_of_sending {inc : Nat} (hInc : inc = 1 ∨ inc = 8) (hLow : s.fld (CAN_STATUS.TEC n) + inc < 256) :
    exec (.canBusError n true inc sof) s = .next (((((((s.start.bump (CAN_CNT.COUNT n 2) 1).setF (CAN_STATUS.TEC n) (s.fld (CAN_STATUS.TEC n) + inc)).setF
      (CAN_STATUS.REC n) (Nat.min 255 (s.fld (CAN_STATUS.REC n))))).setF (CAN_STATUS.STATE n)
        (if 128 ≤ s.fld (CAN_STATUS.TEC n) + inc ∨ 128 ≤ Nat.min 255 (s.fld (CAN_STATUS.REC n)) then 1 else 0)).canIrq n).canRetry n b) := by
  have hTec : Nat.min 511 (s.fld (CAN_STATUS.TEC n) + inc) = s.fld (CAN_STATUS.TEC n) + inc := Nat.min_eq_right (by omega)
  show execCanBusError n true inc sof s = _
  simp only [execCanBusError, if_true, hTec, hOffer, canStateOf, if_neg (Nat.not_le.2 hLow), Nat.add_zero]
  exact answer_of_true (by simp [hOn, hFailed, hTime, hInc])

end
end

theorem exec_canTxComplete_of_failed (hFailed : (s.can n).failed = some b) : exec (.canTxComplete n false sof) s = .next (s.start.canEnd n b false) := by
  show execCanTxComplete n false sof s = _
  simp only [execCanTxComplete, hOn, Nat.not_lt.2 hTime, hFailed]
  rfl

end

/-! ## Reception (R604, R607) -/

/-- A controller after a good frame, below the error-passive limit, before its error state is looked at. -/
def State.canHeard (s : State) (n : Nat) : State := s.setF (CAN_STATUS.REC n) (s.fld (CAN_STATUS.REC n) - 1)

section
variable {w dlc flags : Nat} {data : List Byte} (hOn : s.canOn n = true) (hClassic : bitN w 31 = false) (hLen : data.length = canLen w (dlc % 16))
include hOn hClassic hLen

section
variable {f : Nat} (hFilter : s.canFilter n w = some f)
include hFilter

theorem exec_canFrameReceive_of_filling (hFilling : s.filling (s.canEntry n (s.fld (CAN_FLT_ID.RING n f))) 80 = true) :
    exec (.canFrameReceive n w dlc flags data sof) s = .next (s.start.say .waits) := by
  show execCanFrameReceive n w dlc flags data sof s = _
  simp only [execCanFrameReceive, hFilter]
  exact if_pos (by simp [hOn, hClassic, hLen, hFilling])

theorem exec_canFrameReceive_of_passive (hFree : s.filling (s.canEntry n (s.fld (CAN_FLT_ID.RING n f))) 80 = false)
    (hRec : s.fld (CAN_STATUS.REC n) < 128) (hTec : 128 ≤ (s.start.canHeard n).fld (CAN_STATUS.TEC n)) :
    exec (.canFrameReceive n w dlc flags data sof) s = .next ((s.start.canHeard n).canPush n (s.fld (CAN_FLT_ID.RING n f))
      (leBytes 4 w ++ leBytes 1 (dlc % 16) ++ leBytes 1 (flags % 4) ++ leBytes 1 f ++ leBytes 1 0 ++ leBytes 4 sof ++ leBytes 4 0 ++ data
        ++ leBytes (64 - data.length) 0)) := by
  have hData : data.take (canLen w (dlc % 16)) = data := List.take_of_length_le (Nat.le_of_eq hLen)
  have hHeard : s.start.setF (CAN_STATUS.REC n) (s.fld (CAN_STATUS.REC n) - 1) = s.start.canHeard n := rfl
  show execCanFrameReceive n w dlc flags data sof s = _
  simp only [execCanFrameReceive, hFilter, hData, if_pos hRec, hHeard, if_neg (Nat.not_lt.2 hTec), Option.any_some, hFree, Bool.and_false,
    Bool.false_eq_true, if_false, Option.getD_some]
  exact answer_of_true (by simp [hOn, hClassic, hLen])

end

theorem exec_canFrameReceive_of_unmatched (hFilter : s.canFilter n w = none) (hUnmatched : s.fld (CAN_CFG.UNMATCHED n) = 0)
    (hRec : s.fld (CAN_STATUS.REC n) < 128) (hTec : (s.start.canHeard n).fld (CAN_STATUS.TEC n) < 128) :
    exec (.canFrameReceive n w dlc flags data sof) s = .next ((s.start.canHeard n).setF (CAN_STATUS.STATE n) 0) := by
  have hHeard : s.start.setF (CAN_STATUS.REC n) (s.fld (CAN_STATUS.REC n) - 1) = s.start.canHeard n := rfl
  show execCanFrameReceive n w dlc flags data sof s = _
  simp only [execCanFrameReceive, hFilter, hUnmatched, if_pos hRec, hHeard, if_pos hTec, Option.any_none, Bool.and_false, Bool.false_eq_true, if_false]
  exact answer_of_true (by simp [hOn, hClassic, hLen])

end

/-! ## CTRL, bus-off and the rings (R604, R607, R609) -/

section
variable (hm : s.mayWrite m (CAN_CTRL.addr n) = true)
include hm

theorem exec_canRecover_of_off (hOff : s.start.fld (CAN_STATUS.STATE n) = 2) :
    exec (.canRecover m n) s = .next (s.start.setCan n { s.can n with recovering := true }) :=
  (State.write_of_mayWrite hm).trans (congrArg _ (if_pos hOff))

theorem exec_canRecover_of_other (hOther : s.start.fld (CAN_STATUS.STATE n) ≠ 2) : exec (.canRecover m n) s = .next s.start :=
  (State.write_of_mayWrite hm).trans (congrArg _ (if_neg hOther))

/-- With no frame in transmission every pending buffer is withdrawn. -/
theorem exec_canAbortAll_of_idle : exec (.canAbortAll m n none) s = .next
    (((List.range 32).filter (fun b => bitN (s.start.fld (CAN_TX_REQ.REQ n)) b)).foldl (fun (t : State) b => t.canEnd n b false) s.start) := by
  refine (State.write_of_mayWrite hm).trans (congrArg _ ?_)
  unfold State.canAbort
  have hAll (b : Nat) : ((none : Option Nat) != some b) = true := rfl
  simp only [Option.bind_none, hAll, Bool.and_true]

end

theorem exec_canRecoveryComplete (hUp : s.canUp n = true) (hOff : s.fld (CAN_STATUS.STATE n) = 2) (hRecovering : (s.can n).recovering = true) :
    exec (.canRecoveryComplete n) s = .next
      (((((s.start.setF (CAN_STATUS.STATE n) 0).setF (CAN_STATUS.TEC n) 0).setF (CAN_STATUS.REC n) 0).setCan n { s.can n with recovering := false }).canIrq n) :=
  answer_of_true (by rw [hUp, hOff, hRecovering]; rfl)

section
variable {r : Nat} (hm : s.mayWrite m (CAN_RXR_DB.addr n r) = true)
include hm

theorem exec_canRxDoorbell_of_fits (h : (v + 2 ^ 32 - s.start.fld (CAN_RXR_HEAD.COUNT n r)) % 2 ^ 32 ≤ s.start.canDepth n r) :
    exec (.canRxDoorbell m n r v) s = .next ((s.start.setF (CAN_RXR_HEAD.COUNT n r) v).canIrq n) :=
  (State.write_of_mayWrite hm).trans (congrArg _ (if_pos h))

theorem exec_canRxDoorbell_of_refused (h : s.start.canDepth n r < (v + 2 ^ 32 - s.start.fld (CAN_RXR_HEAD.COUNT n r)) % 2 ^ 32) :
    exec (.canRxDoorbell m n r v) s = .next s.start :=
  (State.write_of_mayWrite hm).trans (congrArg _ (if_neg (Nat.not_le.2 h)))

end
end

/-- Settles O53: a sent frame by the error state its counters leave (log 43), an error by its counters, a received frame by its filter, its ring and
the counters; CTRL and the rings by their registers. -/
theorem canFrames : Obligations.CanFrames := by
  unfold Obligations.CanFrames
  intro s m n v sof
  refine ⟨exec_canTxReq, fun hOn hTime => ⟨fun b hOffer => ⟨⟨fun hPassive => ?passive, fun hTec hRec => ?active⟩, fun hFailed =>
        ⟨exec_canArbitrationLost hOn hTime hOffer hFailed, fun inc => exec_canBusError_of_sending hOn hTime hOffer hFailed⟩⟩,
      fun b => exec_canTxComplete_of_failed hOn hTime,
      fun w dlc flags data f hClassic hLen hFilter => exec_canFrameReceive_of_filling hOn hClassic hLen hFilter,
      fun w dlc flags data f hClassic hLen hFilter => exec_canFrameReceive_of_passive hOn hClassic hLen hFilter,
      fun w dlc flags data hClassic hLen => exec_canFrameReceive_of_unmatched hOn hClassic hLen⟩,
    fun hm => ⟨exec_canRecover_of_off hm, exec_canRecover_of_other hm, exec_canAbortAll_of_idle hm⟩, exec_canRecoveryComplete, fun r hm k hk => ?bell⟩
  case passive =>
    have hNot : ¬ ((s.start.canSent n b sof).fld (CAN_STATUS.TEC n) < 128 ∧ (s.start.canSent n b sof).fld (CAN_STATUS.REC n) < 128) :=
      fun ⟨hTec, hRec⟩ => hPassive.elim (Nat.not_le.2 hTec) (Nat.not_le.2 hRec)
    exact (exec_canTxComplete_of_sent hOn hTime hOffer).trans (by rw [if_neg hNot]; rfl)
  case active => exact (exec_canTxComplete_of_sent hOn hTime hOffer).trans (by rw [if_pos ⟨hTec, hRec⟩]; rfl)
  case bell =>
    subst hk
    exact ⟨exec_canRxDoorbell_of_fits hm, exec_canRxDoorbell_of_refused hm⟩

end Sys2Proof.Machine

/-! # The application cores' harts (19_application_cores.md) -/

namespace Sys2Proof.Machine
open Sys2Proof

section
variable {s : State} {m self h : Nat}

/-! ## A write of a hart's control register (R628, R630) -/

theorem State.hartLoses_of_earlier (hEarlier : ∃ k, (s.hart h).ctl = some (s.cyc, k) ∧ k < m) : s.hartLoses m h = true := by
  obtain ⟨k, hCtl, hLower⟩ := hEarlier
  simp [State.hartLoses, hCtl, hLower]

theorem State.hartLoses_of_first (hFirst : ∀ k, (s.hart h).ctl = some (s.cyc, k) → m ≤ k) : s.hartLoses m h = false := by
  unfold State.hartLoses
  split
  next t k hCtl =>
    by_cases hNow : t = s.cyc
    · simp [Nat.not_lt.2 (hFirst k (hNow ▸ hCtl))]
    · simp [hNow]
  next => rfl

/-- The state with the time and the writer of a hart's control register kept. -/
def State.hartKept (t : State) (h : Nat) (ctl : Nat × Nat) : State := t.setHart h { t.hart h with ctl := some ctl }

theorem State.hartCtrl_of_loses {w : Word} (hSome : bits w 31 30 ≠ 0) (hLoses : s.hartLoses m h = true) : s.hartCtrl m self h w = s.hartReject h :=
  (if_neg hSome).trans (if_pos hLoses)

theorem State.hartCtrl_of_start (hLoses : s.hartLoses m h = false) :
    s.hartCtrl m self h (BitVec.ofNat 32 (2 ^ 31)) = (s.hartStart h).hartKept h (s.cyc, m) :=
  (if_neg (by decide)).trans (if_neg (Bool.not_eq_true _ ▸ hLoses))

theorem State.hartCtrl_of_stop (hLoses : s.hartLoses m h = false) :
    s.hartCtrl m self h (BitVec.ofNat 32 (2 ^ 30)) = (s.hartStop m self h).hartKept h (s.cyc, m) :=
  (if_neg (by decide)).trans (if_neg (Bool.not_eq_true _ ▸ hLoses))

section
variable (hm : s.mayWrite m (APC_HART_CTRL.addr h) = true)
include hm

section
variable (hLow : lowBarred self (APC_HART_CTRL.addr h) = true)
include hLow

theorem exec_hartStart_of_low : exec (.hartStart m self h) s = .next s.busError := (State.write_of_mayWrite hm).trans (congrArg _ (if_pos hLow))

theorem exec_hartStop_of_low : exec (.hartStop m self h) s = .next s.busError := (State.write_of_mayWrite hm).trans (congrArg _ (if_pos hLow))

end

variable (hHigh : lowBarred self (APC_HART_CTRL.addr h) = false)
include hHigh

theorem exec_hartStart : exec (.hartStart m self h) s = .next (s.start.hartCtrl m self h (BitVec.ofNat 32 (2 ^ 31))) :=
  (State.write_of_mayWrite hm).trans (congrArg _ (if_neg (Bool.not_eq_true _ ▸ hHigh)))

theorem exec_hartStop : exec (.hartStop m self h) s = .next (s.start.hartCtrl m self h (BitVec.ofNat 32 (2 ^ 30))) :=
  (State.write_of_mayWrite hm).trans (congrArg _ (if_neg (Bool.not_eq_true _ ▸ hHigh)))

end

/-! ## START and STOP (R630) -/

theorem State.hartStart_of_running (hRuns : s.hartRuns h = true) : s.hartStart h = s.hartReject h := if_pos hRuns

theorem State.hartStart_of_on (hRuns : s.hartRuns h = false) (hOn : s.pdOn (pdApc (h / 4)) = true) : s.hartStart h = s.hartRun h :=
  (if_neg (Bool.not_eq_true _ ▸ hRuns)).trans (if_pos hOn)

/-- A hart whose group is off waits, while the group is asked for. -/
theorem State.hartStart_of_off (hRuns : s.hartRuns h = false) (hOff : s.pdOn (pdApc (h / 4)) = false) :
    h ∈ (s.hartStart h).pmu.hartWait ∧ (s.hartStart h).regs = (s.pdAsk (pdApc (h / 4))).regs ∧ (s.hartStart h).pd = (s.pdAsk (pdApc (h / 4))).pd := by
  unfold State.hartStart
  rw [if_neg (Bool.not_eq_true _ ▸ hRuns), if_neg (Bool.not_eq_true _ ▸ hOff)]
  simp only []
  split
  next hWaits => exact ⟨by simpa using hWaits, rfl, rfl⟩
  next => exact ⟨by simp, rfl, rfl⟩

theorem State.hartStop_of_self (hRuns : s.hartRuns h = true) :
    s.hartStop 0x60 h h = (s.setHart h Hart.init).setF (APC_HART_STATUS.STATE h) 0 := if_pos ⟨rfl, rfl, hRuns⟩

theorem State.hartStop_of_other (hOther : m ≠ 0x60 ∨ self ≠ h ∨ s.hartRuns h = false) : s.hartStop m self h = s.hartReject h := by
  refine if_neg (fun ⟨hCore, hSelf, hRuns⟩ => ?_)
  rcases hOther with hNot | hNot | hNot
  · exact hNot hCore
  · exact hNot hSelf
  · exact absurd (hNot.symm.trans hRuns) Bool.noConfusion

/-! ## Timers, messages and cache errors (R617, R621, R623) -/

theorem exec_stimecmpMatch {t : Nat} (hRuns : s.hartRuns h = true) (ht : t < 2 ^ 64) : let u := s.start.setHart h { s.hart h with stimecmp := t }
    exec (.stimecmpMatch h t) s = .next (if u.timerPending h then u.emit (.note "stip" [h]) else u) :=
  answer_of_true (by rw [hRuns, decide_eq_true ht]; rfl)

/-- The state in which a message sets its identity: the message is under way no more, and the hart has claimed what it has. -/
def State.msiTaken (s : State) (h file e : Nat) (claimed : List Nat) : State := ({ s with msis := eraseOne (h, file, e) s.msis } : State).claim h file claimed

theorem exec_msiMessage {file e : Nat} {claimed : List Nat} (hUnder : s.msis.contains (h, file, e) = true) :
    exec (.msiMessage h file e claimed) s = .next ((s.start.msiTaken h file e claimed).setPending h file e) :=
  answer_of_true hUnder

theorem State.setPending_of_pending {file e : Nat} (hPending : (s.pendingIds h file).contains e = true) : s.setPending h file e = s :=
  if_pos (.inr (.inr hPending))

theorem State.setPending_of_new {file e : Nat} (hLow : 1 ≤ e) (hHigh : e < 2048) (hNew : (s.pendingIds h file).contains e = false) :
    s.setPending h file e = { s with eip := Sparse.set (fun _ => []) s.eip (h * 7 + file) (s.pendingIds h file ++ [e]) } := by
  refine if_neg (fun hNot => ?_)
  rcases hNot with hZero | hOut | hPending
  · omega
  · omega
  · exact absurd (hNew.symm.trans hPending) Bool.noConfusion

theorem exec_cacheError_of_corrected {kind a : Nat} (hData : s.isData a = true) (hKind : kind ≤ 2) :
    exec (.cacheError kind a) s = .next (s.start.bump APC_CACHE_CORR.COUNT 1) :=
  (answer_of_true (by rw [hData, decide_eq_true (show kind ≤ 3 by omega)]; rfl)).trans (congrArg _ (if_neg (by omega)))

theorem exec_cacheError_of_dirty {a : Nat} (hData : s.isData a = true) :
    exec (.cacheError 3 a) s = .next (((s.start.lineLost a).bump APC_CACHE_UNCORR.COUNT 1).pulse 56) :=
  (answer_of_true (by rw [hData]; rfl)).trans (congrArg _ (if_pos rfl))

end

/-- Settles O54: START and STOP by the earlier write of the cycle (two commands with `State.cyc` unmoved are of one cycle, log 45), the hart and its
group; timers, messages and cache errors by their rules. -/
theorem apcHarts : Obligations.ApcHarts := by
  unfold Obligations.ApcHarts
  intro s m self h
  refine ⟨fun hm hLow => ⟨exec_hartStart_of_low hm hLow, exec_hartStop_of_low hm hLow⟩, fun hm hHigh hEarlier => ?loses, fun hm hHigh hFirst => ?wins,
    fun t hRuns ht => ⟨fun hPending => ?now, fun hPending => ?later⟩,
    fun file e claimed hUnder hLow hHigh => ⟨fun hPending => ?pending, fun hNew => ?new⟩,
    fun a hData => ⟨fun kind hKind => exec_cacheError_of_corrected hData hKind, exec_cacheError_of_dirty hData⟩⟩
  case loses =>
    have hLoses : s.start.hartLoses m h = true := State.hartLoses_of_earlier hEarlier
    exact ⟨(exec_hartStart hm hHigh).trans (congrArg _ (State.hartCtrl_of_loses (by decide) hLoses)),
      (exec_hartStop hm hHigh).trans (congrArg _ (State.hartCtrl_of_loses (by decide) hLoses))⟩
  case wins =>
    have hWins : s.start.hartLoses m h = false := State.hartLoses_of_first hFirst
    have hStart := (exec_hartStart hm hHigh).trans (congrArg _ (State.hartCtrl_of_start (self := self) hWins))
    have hStop := (exec_hartStop hm hHigh).trans (congrArg _ (State.hartCtrl_of_stop (self := self) hWins))
    refine ⟨fun hRuns => ?_, fun hRuns hOn => ?_, fun hRuns hOff => ⟨_, hStart, State.hartStart_of_off hRuns hOff⟩, fun hCore hSelf hRuns => ?_,
      fun hOther => ?_⟩
    · rw [hStart, State.hartStart_of_running hRuns]
      rfl
    · rw [hStart, State.hartStart_of_on hRuns hOn]
      rfl
    · subst hCore hSelf
      rw [hStop, State.hartStop_of_self hRuns]
      rfl
    · rw [hStop, State.hartStop_of_other hOther]
      rfl
  case now => exact (exec_stimecmpMatch hRuns ht).trans (congrArg _ (if_pos hPending))
  case later => exact (exec_stimecmpMatch hRuns ht).trans (congrArg _ (if_neg (Bool.not_eq_true _ ▸ hPending)))
  case pending => exact (exec_msiMessage hUnder).trans (congrArg _ (State.setPending_of_pending hPending))
  case new => exact (exec_msiMessage hUnder).trans (congrArg _ (State.setPending_of_new hLow hHigh hNew))

end Sys2Proof.Machine

/-! # The calendar clock, the event log's writer and the test access port (21_management_core.md, 26_reset_and_debug.md) -/

namespace Sys2Proof.Machine
open Sys2Proof

section
variable {s : State} {m c : Nat} {tms tdi : Bool}

/-! ## The calendar clock (R663–R665) -/

section
variable (hOn : s.pdOn 80 = true)
include hOn

theorem exec_rtcTick_of_pending {x : Word × Word} (hSet : s.rtcNext = some x) : exec .rtcTick s = .next
    ((((({ s.start with rtcNext := none } : State).wr MGT_RTC_DATE.addr x.1).wr MGT_RTC_TIME.addr x.2).setF MGT_RTC_CTRL.SET_PENDING 0).logEvent 7 1 0 []) := by
  refine (answer_of_true hOn).trans ?_
  rw [hSet]
  rfl

variable (hSet : s.rtcNext = none)
include hSet

theorem exec_rtcTick_of_count (hSub : s.fld MGT_RTC_TIME.SUBSEC < 32767) :
    exec .rtcTick s = .next (s.start.setF MGT_RTC_TIME.SUBSEC (s.fld MGT_RTC_TIME.SUBSEC + 1)) := by
  refine (answer_of_true hOn).trans ?_
  rw [hSet]
  exact congrArg _ (if_pos hSub)

theorem exec_rtcTick_of_second (hSub : 32767 ≤ s.fld MGT_RTC_TIME.SUBSEC) : exec .rtcTick s = .next s.start.rtcSecond := by
  refine (answer_of_true hOn).trans ?_
  rw [hSet]
  exact congrArg _ (if_neg (Nat.not_lt.2 hSub))

end

theorem State.rtcSecond_of_sec (hSec : s.fld MGT_RTC_TIME.SEC < 59) : s.rtcSecond =
    s.wr MGT_RTC_TIME.addr (timeWord (s.fld MGT_RTC_TIME.HOUR) (s.fld MGT_RTC_TIME.MIN) (s.fld MGT_RTC_TIME.SEC + 1) 0) := if_pos hSec

/-- The last second of 2399 gives way to the first of 2000. -/
theorem State.rtcSecond_of_last (hDate : s.rd MGT_RTC_DATE.addr = dateWord 399 12 31) (hSec : s.fld MGT_RTC_TIME.SEC = 59)
    (hMin : s.fld MGT_RTC_TIME.MIN = 59) (hHour : s.fld MGT_RTC_TIME.HOUR = 23) : s.rtcSecond =
    (((s.wr MGT_RTC_TIME.addr (timeWord 0 0 0 0)).wr MGT_RTC_DATE.addr (dateWord 0 1 1)).setF MGT_RTC_CTRL.CENTURY_WRAP 1).logEvent 7 3 0 [] := by
  have hNext : nextDay (s.fld MGT_RTC_DATE.YEAR_OFF) (s.fld MGT_RTC_DATE.MONTH) (s.fld MGT_RTC_DATE.DAY) = ((0, 1, 1), true) := by
    rw [show s.fld MGT_RTC_DATE.YEAR_OFF = 399 from (congrArg (bits · 24 16) hDate).trans (by decide),
      show s.fld MGT_RTC_DATE.MONTH = 12 from (congrArg (bits · 11 8) hDate).trans (by decide),
      show s.fld MGT_RTC_DATE.DAY = 31 from (congrArg (bits · 4 0) hDate).trans (by decide)]
    decide
  simp [State.rtcSecond, hSec, hMin, hHour, hNext, logRtc]

theorem State.rtcCtrl_set : s.rtcCtrl (BitVec.ofNat 32 (2 ^ 31)) = s.rtcSet := rfl

theorem State.rtcSet_of_ok (h : setOk (s.heldOr MGT_RTC_SET_DATE.addr) (s.heldOr MGT_RTC_SET_TIME.addr) = true) : s.rtcSet =
    { s.setF MGT_RTC_CTRL.SET_PENDING 1 with rtcNext := some (s.heldOr MGT_RTC_SET_DATE.addr, s.heldOr MGT_RTC_SET_TIME.addr) } := if_pos h

theorem State.rtcSet_of_bad (h : setOk (s.heldOr MGT_RTC_SET_DATE.addr) (s.heldOr MGT_RTC_SET_TIME.addr) = false) :
    s.rtcSet = (s.setF MGT_RTC_CTRL.DATE_REJECT 1).logEvent 7 2 0 [] := if_neg (Bool.not_eq_true _ ▸ h)

theorem exec_rtcSet (hm : s.mayWrite m MGT_RTC_CTRL.addr = true) : exec (.rtcSet m) s = .next s.start.rtcSet :=
  (State.write_of_mayWrite hm).trans (congrArg _ State.rtcCtrl_set)

/-! ## The event log (R661, R662) and doorbells (R654) -/

/-- An entry of another source than Broke, in a sector with room: programmed in the next slot, and the numbers go on. -/
theorem State.logWrite_of_room {x : LogItem} {rest : List LogItem} (hSource : x.source ≠ 2) (hLow : 1 ≤ s.log.slot) (hHigh : s.log.slot < 1024) :
    s.logWrite x rest true = let u := s.logProgram s.log.sector s.log.slot (logEntry x s.log.seq s.log.dropped)
      { u with log := { u.log with queue := rest, dropped := 0, slot := s.log.slot + 1, seq := (s.log.seq + 1) % 2 ^ 32 } } := by
  have hRoom : ¬(s.log.slot = 0 ∨ 1024 ≤ s.log.slot) := by omega
  have hBroke : (x.source == logBroke) = false := beq_eq_false_iff_ne.2 hSource
  unfold State.logWrite
  rw [if_neg hRoom, hBroke]
  rfl

theorem exec_logEntryWrite_of_head {x : LogItem} {rest : List LogItem} (hQueue : s.log.queue = x :: rest) (hOn : s.pdOn 82 = true)
    (hUp : s.mgt.down = false) (hStage : 2 ≤ s.fld MGT_BOOT_STATUS.STAGE) : exec (.logEntryWrite true) s = .next (s.start.logWrite x rest true) := by
  show execLogEntryWrite true s = _
  unfold execLogEntryWrite
  rw [hQueue]
  exact answer_of_true (by rw [hOn, hUp, decide_eq_true hStage]; rfl)

/-- A write of one bit rings one channel. -/
theorem State.mbxDb_of_bit (hc : c < 8) : s.mbxDb (BitVec.ofNat 32 (2 ^ c)) = s.mbxBell c := by
  have hOne : (List.range 8).filter (fun k => bitN (BitVec.ofNat 32 (2 ^ c)).toNat k) = [c] := by
    revert c
    decide
  rw [State.mbxDb, hOne]
  rfl

theorem exec_mailboxDoorbell (hm : s.mayWrite m MGT_MBX_DB.addr = true) (hc : c < 8) : exec (.mailboxDoorbell m (2 ^ c)) s = .next (s.start.mbxBell c) :=
  (State.write_of_mayWrite hm).trans (congrArg _ (State.mbxDb_of_bit hc))

/-! ## The test access port (R734, R738) -/

theorem exec_jtagTapCycle_of_down (hUp : s.supply.up = false) (trst : Bool) : exec (.jtagTapCycle tms tdi trst) s = .next s.start :=
  congrArg _ (if_pos (by rw [hUp]; rfl))

section
variable (hUp : s.supply.up = true)
include hUp

theorem exec_jtagTapCycle_of_trst : exec (.jtagTapCycle tms tdi true) s =
    .next (State.boundaryOut { s.start with tap := { s.tap with state := 0, ir := none } } s.tap) :=
  congrArg _ (if_neg (by rw [hUp]; decide))

theorem exec_jtagTapCycle_of_cycle {t : State} (hCycle : s.start.tapCycle tms tdi = t) :
    exec (.jtagTapCycle tms tdi false) s = .next (t.boundaryOut s.tap) :=
  congrArg _ ((if_neg (by rw [hUp]; decide)).trans (congrArg (·.boundaryOut s.tap) hCycle))

end

theorem State.tapCycle_of_idcode (hState : s.tap.state = 3) (hId : s.tap.instruction = 3) :
    s.tapCycle tms tdi = { s with tap := { s.tap with state := tapNext 3 tms, shift := bitList 32 Config.tapIdcode.toNat } } := by
  have hEdge : s.tapEdge tdi = { s with tap := { s.tap with shift := bitList 32 Config.tapIdcode.toNat } } := by
    simp only [State.tapEdge, State.captureDr, hState, hId]
  have hShift : s.tap.shifting = false := by rw [Tap.shifting, hState]; rfl
  unfold State.tapCycle
  rw [hEdge, hShift, hState]
  cases tms <;> rfl

theorem State.tapCycle_of_shift (hState : s.tap.state = 4 ∨ s.tap.state = 11) : s.tapCycle tms tdi =
    { s with tap := ({ s.tap with state := tapNext s.tap.state tms, shift := s.tap.shift.drop 1 ++ [tdi] } : Tap).enter,
             resp := .word (BitVec.ofNat 32 (b2n (s.tap.shift.headD false))) } := by
  have hEdge : s.tapEdge tdi = { s with tap := { s.tap with shift := s.tap.shift.drop 1 ++ [tdi] } } := by
    rcases hState with h | h <;> simp only [State.tapEdge, h]
  have hShift : s.tap.shifting = true := by rcases hState with h | h <;> rw [Tap.shifting, h] <;> rfl
  unfold State.tapCycle
  rw [hEdge, hShift]
  rfl

/-- In a state that neither captures nor shifts, a cycle only moves on. -/
theorem State.tapCycle_of_other (hCapture : s.tap.state ≠ 3 ∧ s.tap.state ≠ 10) (hShifts : s.tap.state ≠ 4 ∧ s.tap.state ≠ 11) :
    s.tapCycle tms tdi = { s with tap := ({ s.tap with state := tapNext s.tap.state tms } : Tap).enter } := by
  have hEdge : s.tapEdge tdi = s := by
    unfold State.tapEdge
    split
    next h => exact absurd h hCapture.1
    next h => exact absurd h hCapture.2
    next h => exact absurd h hShifts.1
    next h => exact absurd h hShifts.2
    next => rfl
  have hShift : s.tap.shifting = false := by simp [Tap.shifting, hShifts]
  unfold State.tapCycle
  rw [hEdge, hShift]
  rfl

theorem State.boundaryOut_of_update {x y : Tap} (hIn : x.extest = true) (hNew : y.extest = false ∨ y.boundary ≠ x.boundary) :
    ({ s with tap := x } : State).boundaryOut y = ({ s with tap := x } : State).emit (.note "BOUNDARY" (x.boundary.map b2n)) := by
  refine (if_pos hIn).trans (if_neg (fun hKept => ?_))
  obtain ⟨hOld, hSame⟩ := Bool.and_eq_true_iff.1 hKept
  exact hNew.elim (fun h => Bool.noConfusion (hOld.symm.trans h)) (fun h => h (eq_of_beq hSame))

theorem State.boundaryOut_of_outside {x y : Tap} (hIn : x.extest = false) (hOld : y.extest = false) :
    ({ s with tap := x } : State).boundaryOut y = { s with tap := x } :=
  (if_neg (Bool.not_eq_true _ ▸ hIn)).trans (if_neg (Bool.not_eq_true _ ▸ hOld))

end

/-- Settles O56: the tick by the pending set and the carries, SET by R664, the log's writer and the doorbell by their rules, and a cycle of the test
access port by the state it is in (log 53; a set is logged at its tick, log 51). -/
theorem clockLogAndTap : Obligations.ClockLogAndTap := by
  unfold Obligations.ClockLogAndTap
  intro s m c tms tdi
  refine ⟨fun hOn => ⟨fun x hSet => exec_rtcTick_of_pending hOn hSet, fun hSet hSub => exec_rtcTick_of_count hOn hSet hSub,
      fun hSet hSub hSec => ?second, fun hSet hSub hDate hSec hMin hHour => ?century⟩,
    fun hm => ⟨fun hOk => (exec_rtcSet hm).trans (congrArg _ (State.rtcSet_of_ok hOk)),
      fun hBad => (exec_rtcSet hm).trans (congrArg _ (State.rtcSet_of_bad hBad))⟩,
    fun x rest hQueue hSource hOn hUp hStage hLow hHigh b hb => ?entry,
    fun hm hc => ⟨fun hFree => (exec_mailboxDoorbell hm hc).trans (congrArg _ (if_neg (Bool.not_eq_true _ ▸ hFree))),
      fun hBusy => (exec_mailboxDoorbell hm hc).trans (congrArg _ (if_pos hBusy))⟩,
    fun hUp trst => exec_jtagTapCycle_of_down hUp trst,
    fun hUp => ⟨exec_jtagTapCycle_of_trst hUp, fun hState hId => ?idcode, fun hState => ?shift, fun hState => ?other,
      fun x y => ⟨State.boundaryOut_of_update, State.boundaryOut_of_outside⟩⟩⟩
  case second => exact (exec_rtcTick_of_second hOn hSet hSub).trans (congrArg _ (State.rtcSecond_of_sec hSec))
  case century => exact (exec_rtcTick_of_second hOn hSet hSub).trans (congrArg _ (State.rtcSecond_of_last hDate hSec hMin hHour))
  case entry =>
    subst hb
    exact (exec_logEntryWrite_of_head hQueue hOn hUp hStage).trans (congrArg _ (State.logWrite_of_room hSource hLow hHigh))
  case idcode => exact exec_jtagTapCycle_of_cycle hUp (State.tapCycle_of_idcode hState hId)
  case shift => exact exec_jtagTapCycle_of_cycle hUp (State.tapCycle_of_shift hState)
  case other => exact exec_jtagTapCycle_of_cycle hUp (State.tapCycle_of_other (s := s.start) (show s.tap.state ≠ 3 ∧ s.tap.state ≠ 10 by omega)
    (show s.tap.state ≠ 4 ∧ s.tap.state ≠ 11 by omega))

end Sys2Proof.Machine

/-! # The operations of the management mailbox (21_management_core.md) -/

namespace Sys2Proof.Machine
open Sys2Proof

/-! ## Serving a request (R655, R657) -/

/-- The answer to the request of channel c: the response written, on the effect of the operation. -/
def MbxRes.answered (r : MbxRes) (c op tag : Nat) : Host.Outcome State Fault Refusal := .next (r.st.respond c op r.status tag r.payload)

section
variable {s : State} {c op : Nat} {len : Nat → Bool} {f : State → Nat → MbxRes}

theorem mbxServe_of_head (hHead : s.mbxHead (fun o => o == op) = some c) : mbxServe op len f s =
    (if !s.start.chanOpen c then s.start.refuse mbxNotOpen else if !len (s.start.reqLen c) then s.start.refuse mbxBadArg else f s.start c).answered
      c op (s.start.reqTag c) := by
  unfold mbxServe
  rw [hHead]
  rfl

theorem mbxServe_of_closed (hHead : s.mbxHead (fun o => o == op) = some c) (hOpen : s.start.chanOpen c = false) :
    mbxServe op len f s = (s.start.refuse 3).answered c op (s.start.reqTag c) := by
  rw [mbxServe_of_head hHead, hOpen]
  rfl

section
variable (hHead : s.mbxHead (fun o => o == op) = some c) (hOpen : s.start.chanOpen c = true)
include hHead hOpen

theorem mbxServe_of_length (hLen : len (s.start.reqLen c) = false) : mbxServe op len f s = (s.start.refuse 2).answered c op (s.start.reqTag c) := by
  rw [mbxServe_of_head hHead, hOpen, hLen]
  rfl

theorem mbxServe_of_fits (hLen : len (s.start.reqLen c) = true) : mbxServe op len f s = (f s.start c).answered c op (s.start.reqTag c) := by
  rw [mbxServe_of_head hHead, hOpen, hLen]
  rfl

end

/-- The three answers of an operation with a payload of fixed length. -/
theorem mbxServe_fixed {n : Nat} {r : MbxRes} (hEffect : f s.start c = r) (hHead : s.mbxHead (fun o => o == op) = some c) :
    (s.start.chanOpen c = false → mbxServe op (· == n) f s = (s.start.refuse 3).answered c op (s.start.reqTag c))
    ∧ (s.start.chanOpen c = true → s.start.reqLen c ≠ n → mbxServe op (· == n) f s = (s.start.refuse 2).answered c op (s.start.reqTag c))
    ∧ (s.start.chanOpen c = true → s.start.reqLen c = n → mbxServe op (· == n) f s = r.answered c op (s.start.reqTag c)) :=
  ⟨mbxServe_of_closed hHead, fun hOpen hLen => mbxServe_of_length hHead hOpen (beq_eq_false_iff_ne.2 hLen),
    fun hOpen hLen => hEffect ▸ mbxServe_of_fits hHead hOpen (beq_iff_eq.2 hLen)⟩

end

section
variable {s : State} {c : Nat}

/-! ## Opening a channel (R655) -/

theorem State.mbxOpen_of_length (hLen : s.reqLen c ≠ 2) : s.mbxOpen c = s.refuse 2 := if_pos hLen

theorem State.mbxOpen_of_version (hLen : s.reqLen c = 2) (hVersion : 1 < s.reqArg c 0 1 ∨ s.reqArg c 1 1 = 0) : s.mbxOpen c = s.refuse 4 := by
  have hNone : Nat.min (s.reqArg c 1 1) 1 < s.reqArg c 0 1 ∨ Nat.min (s.reqArg c 1 1) 1 = 0 := by
    have hMin : Nat.min (s.reqArg c 1 1) 1 ≤ 1 := Nat.min_le_right _ _
    rcases hVersion with h | h
    · exact .inl (by omega)
    · exact .inr (by rw [h]; rfl)
  exact (if_neg (not_not.2 hLen)).trans (if_pos hNone)

theorem State.mbxOpen_of_ok (hLen : s.reqLen c = 2) (hLow : s.reqArg c 0 1 ≤ 1) (hHigh : 1 ≤ s.reqArg c 1 1) :
    s.mbxOpen c = (s.setF MGT_MBX_STATUS.OPEN (Nat.lor (s.fld MGT_MBX_STATUS.OPEN) (2 ^ c))).mbxDone [1] := by
  have hOne : Nat.min (s.reqArg c 1 1) 1 = 1 := Nat.min_eq_right hHigh
  have hSome : ¬(1 < s.reqArg c 0 1 ∨ 1 = 0) := by omega
  unfold State.mbxOpen
  rw [hOne, if_neg (not_not.2 hLen), if_neg hSome]
  rfl

section
variable (hHead : s.mbxHead (fun o => o == 1 || !mbxOps.contains o) = some c)
include hHead

theorem exec_mbxOpen_of_unlisted (hOp : s.start.reqOp c ≠ 1) :
    exec .mbxOpen s = (s.start.refuse 1).answered c (s.start.reqOp c) (s.start.reqTag c) := by
  show execMbxOpen s = _
  unfold execMbxOpen
  rw [hHead]
  simp only [if_neg hOp]
  rfl

theorem exec_mbxOpen_of_open {r : MbxRes} (hOp : s.start.reqOp c = 1) (hOpen : s.start.mbxOpen c = r) :
    exec .mbxOpen s = r.answered c 1 (s.start.reqTag c) := by
  show execMbxOpen s = _
  unfold execMbxOpen
  rw [hHead]
  simp only [hOp, if_true, hOpen]
  rfl

end

/-! ## Update sessions (R658, R659) -/

/-- What an operation of a session comes to, when its effect does not depend on how far the session is. -/
theorem State.inSession_const {r : MbxRes} : s.inSession c (fun _ => r) =
    if s.mgt.session = none then s.refuse 6 else if s.mgt.session.map (·.chan) ≠ some c then s.refuse 5 else r := by
  unfold State.inSession
  cases s.mgt.session with
  | none => rfl
  | some x => simp [mbxInUse]

/-- Nothing that UPDATE_WRITE reads is being filled: it is served. -/
theorem exec_updateWrite_of_filled {err : Bool} (hHead : s.mbxHead (fun o => o == 0x31) = some c)
    (hFilled : s.pendingBlock (rangeBlocks (s.reqArg c 0 8) (Nat.min 1048576 (s.reqArg c 12 4))) = none) :
    exec (.updateWrite err) s = mbxServe 0x31 (· == 16) (fun t c => t.inSession c (t.updateWrite c err)) s := by
  show execUpdateWrite err s = _
  unfold execUpdateWrite
  simp [hHead, hFilled]

/-! ## Writes of the host interface's registers (R656) -/

section
variable (hHead : s.mbxHead (fun o => o == 0x12) = some c) (hOpen : s.start.chanOpen c = true)
include hHead hOpen

theorem exec_hbxWrite_of_length (hLen : s.start.reqLen c % 8 ≠ 0 ∨ s.start.reqLen c < 8 ∨ 2016 < s.start.reqLen c) :
    exec .hbxWrite s = (s.start.refuse 2).answered c 0x12 (s.start.reqTag c) := by
  have hOut : (s.start.reqLen c % 8 == 0 && decide (8 ≤ s.start.reqLen c ∧ s.start.reqLen c ≤ 2016)) = false := by
    rw [Bool.and_eq_false_iff, beq_eq_false_iff_ne, decide_eq_false_iff_not]
    omega
  exact mbxServe_of_length (len := fun n => n % 8 == 0 && decide (8 ≤ n ∧ n ≤ 2016)) hHead hOpen hOut

theorem exec_hbxWrite_of_fits (hPairs : s.start.reqLen c % 8 = 0) (hLow : 8 ≤ s.start.reqLen c) (hHigh : s.start.reqLen c ≤ 2016) :
    exec .hbxWrite s = (s.start.mbxHbx c).answered c 0x12 (s.start.reqTag c) := by
  have hIn : (s.start.reqLen c % 8 == 0 && decide (8 ≤ s.start.reqLen c ∧ s.start.reqLen c ≤ 2016)) = true := by
    rw [Bool.and_eq_true_iff, beq_iff_eq, decide_eq_true_iff]
    exact ⟨hPairs, hLow, hHigh⟩
  exact mbxServe_of_fits (len := fun n => n % 8 == 0 && decide (8 ≤ n ∧ n ≤ 2016)) hHead hOpen hIn

end

end

section
variable (s : State) (k : Nat) (eo : Option Nat)

/-! ## The row of R656 that serves each operation -/

theorem exec_mbxClose_eq : exec .mbxClose s =
    mbxServe 0x2 (· == 0) (fun t c => (t.setF MGT_MBX_STATUS.OPEN (t.fld MGT_MBX_STATUS.OPEN - 2 ^ c)).mbxDone []) s := rfl

theorem exec_mbxInfo_eq : exec .mbxInfo s =
    mbxServe 0x3 (· == 0) (fun t _ => t.mbxDone (leBytes 4 t.bootStatus.toNat
      ++ leBytes 4 (t.rd (MGT_BOOT_SLOT.addr 0)).toNat ++ leBytes 4 (t.rd (MGT_BOOT_SLOT.addr 1)).toNat ++ leBytes 4 t.running.isn
      ++ leBytes 4 t.fuses.rollback ++ leBytes 8 t.running.retired)) s := rfl

theorem exec_fmtWrite_eq : exec .fmtWrite s =
    mbxServe 0x10 (· == 12) (fun t c => t.mbxFmt c) s := rfl

theorem exec_partWrite_eq : exec .partWrite s =
    mbxServe 0x11 (· == 132) (fun t c => t.mbxPart c) s := rfl

theorem exec_pinWrite_eq : exec .pinWrite s =
    mbxServe 0x13 (· == 8) (fun t c => t.mbxPin c) s := rfl

theorem exec_logRead_eq : exec .logRead s =
    mbxServe 0x20 (· == 8) (fun t c => t.mbxLog c) s := rfl

theorem exec_updateCommit_eq : exec (.updateCommit k) s =
    mbxServe 0x32 (· == 0) (fun t c => t.inSession c (fun _ => t.updateCommit k)) s := rfl

theorem exec_rollbackAdvance_eq : exec .rollbackAdvance s =
    mbxServe 0x34 (· == 0) (fun t _ =>
      if t.running.rollback ≤ t.fuses.rollback then t.mbxDone []
      else (({ t with fuses := { t.fuses with rollback := t.running.rollback } } : State).updateLog 5).mbxDone []) s := rfl

theorem exec_fuseKey_eq : exec .fuseKey s =
    mbxServe 0x35 (· == 48) (fun t c =>
      if t.fuses.keyHash ≠ 0 then t.refuse mbxDenied
      else (({ t with fuses := { t.fuses with keyHash := beNat (t.reqBytes c 0 48) } } : State).updateLog 6).mbxDone []) s := rfl

theorem exec_moduleReset_eq : exec .moduleReset s =
    mbxServe 0x40 (· == 0) (fun t _ =>
      ({ t with mgt := { t.mgt with resetAt := some (t.cyc + 1000000) } } : State).mbxDone []) s := rfl

theorem exec_updateBegin_eq : exec (.updateBegin eo) s =
    mbxServe 0x30 (· == 0) (fun t c =>
      if t.mgt.session.isSome then t.refuse mbxInUse
      else let u := t.slotErase t.updateSlot eo
        if eo.isSome then u.refuse mbxFlash else ((u.setSession (some ⟨c, 0⟩)).updateLog 1).mbxDone []) s := rfl

theorem exec_updateAbort_eq : exec (.updateAbort false) s =
    mbxServe 0x33 (· == 0) (fun t c => t.inSession c (fun _ =>
    (((t.flashErase (commitBase t.updateSlot) 65536).setSession none).updateLog 4).mbxDone [])) s := rfl

end

/-- Settles O57: an operation of fixed length by `mbxServe_fixed` and its effect, the others by their own rules (BAD_OP before NOT_OPEN and the order of
refusals logs 17 and 60, INFO's layout log 61). -/
theorem mailboxOperations : Obligations.MailboxOperations := by
  unfold Obligations.MailboxOperations
  intro s c k err eo t rsp sv
  have hServe : ∀ {op len i f r}, exec i s = mbxServe op (· == len) f s → f t c = r → sv op len i r := by
    intro op len i f r hExec hEffect hHead
    rw [hExec]
    exact mbxServe_fixed hEffect hHead
  refine ⟨fun hHead => ⟨fun hOp => exec_mbxOpen_of_unlisted hHead hOp, fun hOp hLen => exec_mbxOpen_of_open hHead hOp (State.mbxOpen_of_length hLen),
      fun hOp hLen hVersion => exec_mbxOpen_of_open hHead hOp (State.mbxOpen_of_version hLen hVersion),
      fun hOp hLen hLow hHigh => exec_mbxOpen_of_open hHead hOp (State.mbxOpen_of_ok hLen hLow hHigh)⟩,
    hServe (exec_mbxClose_eq s) rfl,
    hServe (exec_mbxInfo_eq s) rfl,
    hServe (exec_fmtWrite_eq s) rfl,
    hServe (exec_partWrite_eq s) rfl,
    fun hHead hOpen => ⟨exec_hbxWrite_of_length hHead hOpen, exec_hbxWrite_of_fits hHead hOpen⟩,
    hServe (exec_pinWrite_eq s) rfl,
    hServe (exec_logRead_eq s) rfl,
    hServe (exec_updateBegin_eq s eo) rfl,
    fun hFilled hHead => hServe (exec_updateWrite_of_filled hHead hFilled) rfl hHead,
    hServe (exec_updateCommit_eq s k) State.inSession_const,
    hServe (exec_updateAbort_eq s) State.inSession_const,
    hServe (exec_rollbackAdvance_eq s) rfl,
    hServe (exec_fuseKey_eq s) rfl,
    hServe (exec_moduleReset_eq s) rfl⟩

end Sys2Proof.Machine

/-! # Power: the cap, sharing, energy, droop and rails (22_power_and_thermal.md) -/

namespace Sys2Proof.Machine
open Sys2Proof

/-! ## The share-out (R677) -/

theorem sumN_eq_sum (l : List Nat) : sumN l = l.sum := List.sum_eq_foldl.symm

theorem Demand.q_mono {x : Demand} {l l' : Nat} (h : l ≤ l') : x.q l ≤ x.q l' := by
  unfold Demand.q
  split
  next => exact Nat.le_refl _
  next => exact min_le_min_left _ (Nat.div_le_div_right (Nat.mul_le_mul_left _ h))

theorem levelCost_mono {cs : List Demand} {l l' : Nat} (h : l ≤ l') : levelCost cs l ≤ levelCost cs l' := by
  rw [levelCost, levelCost, sumN_eq_sum, sumN_eq_sum]
  exact List.sum_le_sum (fun x _ => Nat.add_le_add_left (Nat.mul_le_mul_right _ (Nat.mul_le_mul_left _ (Demand.q_mono h))) _)

/-- Level 10 k fits a budget of b µW. -/
def levelFits (cs : List Demand) (b : Int) (k : Nat) : Prop := (levelCost cs (10 * k) : Int) ≤ 64 * b

theorem levelFits_of_le {cs : List Demand} {b : Int} {j k : Nat} (hFits : levelFits cs b k) (h : j ≤ k) : levelFits cs b j :=
  (Int.ofNat_le.2 (levelCost_mono (Nat.mul_le_mul_left 10 h))).trans hFits

/-- k is the greatest level of R677's steps that fits. -/
def GreatestLevel (cs : List Demand) (b : Int) (k : Nat) : Prop := k ≤ 6553 ∧ levelFits cs b k ∧ ∀ j ≤ 6553, levelFits cs b j → j ≤ k

/-- The search halves the range in which the greatest level lies: it stands at a level that fits, and none fits at 2 ^ n above. -/
theorem greatestLevel_levelSearch {cs : List Demand} {b : Int} : ∀ (n k : Nat), k ≤ 6553 → levelFits cs b k →
    (∀ j ≤ 6553, levelFits cs b j → j < k + 2 ^ n) → GreatestLevel cs b (levelSearch cs b n k)
  | 0, k, hStep, hFits, hAbove => ⟨hStep, hFits, fun j hj h => Nat.lt_succ_iff.1 (hAbove j hj h)⟩
  | n + 1, k, hStep, hFits, hAbove => by
    unfold levelSearch
    by_cases hHalf : k + 2 ^ n ≤ 6553 ∧ (levelCost cs (10 * (k + 2 ^ n)) : Int) ≤ 64 * b
    · simp only [if_pos hHalf]
      refine greatestLevel_levelSearch n _ hHalf.1 hHalf.2 (fun j hj h => ?_)
      have := hAbove j hj h
      omega
    · simp only [if_neg hHalf]
      refine greatestLevel_levelSearch n k hStep hFits (fun j hj h => ?_)
      by_contra hNot
      exact hHalf ⟨by omega, levelFits_of_le h (by omega)⟩

theorem shareOut_of_fits {qf : Nat} {cs : List Demand} {b : Int} (hFits : (levelCost cs 0 : Int) ≤ 64 * b) :
    ∃ k, GreatestLevel cs b k ∧ shareOut qf cs b = (cs.map (fun x => (x.clu, Nat.max qf (x.q (10 * k)))), false) :=
  ⟨_, greatestLevel_levelSearch 13 0 (Nat.zero_le _) hFits (fun j hj _ => by omega), if_pos hFits⟩

theorem shareOut_of_over {qf : Nat} {cs : List Demand} {b : Int} (hOver : 64 * b < (levelCost cs 0 : Int)) :
    shareOut qf cs b = (cs.map (fun x => (x.clu, qf)), true) := if_neg (by omega)

/-! ## The parts of a rail's energy (R674) -/

/-- The parts of an energy before what the rounding down leaves is given to one of them. -/
def roundedParts (e : Nat) (ws : List (Nat × Nat)) : List (Nat × Nat) :=
  ws.map (fun w => (w.1, if sumN (ws.map (fun w => w.2)) = 0 then 0 else e * w.2 / sumN (ws.map (fun w => w.2))))

theorem sum_div_le {e t : Nat} : ∀ ws : List (Nat × Nat), (ws.map (fun w => e * w.2 / t)).sum ≤ e * (ws.map (fun w => w.2)).sum / t
  | [] => Nat.zero_le _
  | w :: ws => by
    rw [List.map_cons, List.map_cons, List.sum_cons, List.sum_cons, Nat.mul_add]
    exact (Nat.add_le_add_left (sum_div_le ws) _).trans (Nat.div_add_div_le_add_div ..)

theorem sum_roundedParts_le {e : Nat} {ws : List (Nat × Nat)} : ((roundedParts e ws).map (fun p => p.2)).sum ≤ e := by
  unfold roundedParts
  rw [List.map_map, sumN_eq_sum]
  by_cases hTotal : (ws.map (fun w => w.2)).sum = 0
  · simp [hTotal, Function.comp_def]
  · simp only [if_neg hTotal, Function.comp_def]
    exact (sum_div_le ws).trans (Nat.mul_div_cancel _ (Nat.pos_of_ne_zero hTotal)).le

theorem sum_add_at {k d : Nat} : ∀ (l : List (Nat × Nat)) (a : Nat),
    (((List.range' a l.length).zip l).map (fun p => (if p.1 = k then (p.2.1, p.2.2 + d) else p.2).2)).sum =
      (l.map (fun p => p.2)).sum + if a ≤ k ∧ k < a + l.length then d else 0
  | [], a => by simp
  | x :: l, a => by
    rw [List.length_cons, List.range'_succ, List.zip_cons_cons, List.map_cons, List.sum_cons, sum_add_at l (a + 1), List.map_cons, List.sum_cons]
    by_cases hHere : a = k
    · simp only [if_pos hHere]
      rw [if_neg (by omega), if_pos (by omega)]
      omega
    · simp only [if_neg hHere]
      have hLater : (a + 1 ≤ k ∧ k < a + 1 + l.length) ↔ (a ≤ k ∧ k < a + (l.length + 1)) := by omega
      simp only [hLater]
      omega

theorem sum_divide {e f : Nat} {ws : List (Nat × Nat)} (h : ws ≠ []) : sumN ((divide e f ws).map (fun p => p.2)) = e := by
  have hLen : 0 < ws.length := List.length_pos_iff.2 h
  have hPlace : f % ws.length < ws.length := Nat.mod_lt _ hLen
  have hParts : (roundedParts e ws).length = ws.length := List.length_map ..
  have hRest := sum_roundedParts_le (e := e) (ws := ws)
  have hDivide : divide e f ws = ((List.range' 0 (roundedParts e ws).length).zip (roundedParts e ws)).map
      (fun p => if p.1 = f % ws.length then (p.2.1, p.2.2 + (e - sumN ((roundedParts e ws).map (fun p => p.2)))) else p.2) := by
    rw [← List.range_eq_range', divide, List.isEmpty_eq_false_iff.2 h]
    rfl
  rw [sumN_eq_sum, hDivide, List.map_map]
  refine (sum_add_at (roundedParts e ws) 0).trans ?_
  rw [if_pos (by omega), sumN_eq_sum]
  omega

section
variable {s : State} {m n v r : Nat}

/-! ## The cap (R675) -/

section
variable (hm : s.mayWrite m PMU_CAP.addr = true)
include hm

theorem exec_capWrite_of_ok (hLow : 40 ≤ bits (BitVec.ofNat 32 v) 8 0) (hHigh : bits (BitVec.ofNat 32 v) 8 0 ≤ 300)
    (hCold : bits (BitVec.ofNat 32 v) 8 0 ≤ 120 ∨ s.thermal.coldPlate = true) :
    exec (.capWrite m v) s = .next (s.start.setF PMU_CAP.CAP_W (bits (BitVec.ofNat 32 v) 8 0)) := by
  refine (State.write_of_mayWrite hm).trans (congrArg _ (if_neg ?_))
  rintro (h | h | ⟨h, hAir⟩)
  · omega
  · omega
  · exact hCold.elim (fun hc => by omega) (fun hc => Bool.noConfusion (hAir.symm.trans hc))

theorem exec_capWrite_of_rejected
    (h : bits (BitVec.ofNat 32 v) 8 0 < 40 ∨ 300 < bits (BitVec.ofNat 32 v) 8 0 ∨ 120 < bits (BitVec.ofNat 32 v) 8 0 ∧ s.thermal.coldPlate = false) :
    exec (.capWrite m v) s = .next ((s.start.setF PMU_EVENT.CAP_REJECT 1).sense 4) :=
  (State.write_of_mayWrite hm).trans (congrArg _ (if_pos h))

end

/-! ## Periods, reports and the test budget (R673–R679) -/

section
variable (hOn : s.pdOn 82 = true)
include hOn

theorem exec_pmuPeriod_of_due (hDue : s.pmu.period + 100000 ≤ s.cyc) : exec .pmuPeriod s = .next
    (let t := (List.range 64).foldl (fun (t : State) k => t.cluPeriod s.pmu.period (s.cyc - s.pmu.period) k) s.start.formPower
     ({ t with pmu := { t.pmu with cap := t.fld PMU_CAP.CAP_W, period := t.cyc } } : State).share) :=
  answer_of_true (by rw [hOn, decide_eq_true hDue]; rfl)

theorem exec_phaseReport_of_oldest {e : Nat × Nat} (hOldest : s.phaseReports.find? (fun e => e.1 == n) = some e) : exec (.phaseReport n) s = .next
    (let t : State := { s.start with phaseReports := eraseOne e s.phaseReports }
     ((t.setPmuClu n { t.pmuClu n with moved := true }).setF (PMU_CLU.PHASE n) e.2).share) := by
  show execPhaseReport n s = _
  unfold execPhaseReport
  rw [hOldest]
  exact answer_of_true hOn

theorem exec_testBudgetGrant_of_fits (hWaits : s.ftQueue.any (fun x => x.clu == n && decide (2 ≤ x.cls)) = true) (hNew : s.budgeted.contains n = false)
    (hFits : s.testFits n = true) : exec (.testBudgetGrant n) s = .next { s.start with budgeted := s.budgeted ++ [n] } :=
  answer_of_true (by rw [hOn, hWaits, hNew, hFits]; rfl)

/-! ## Rails (R672, R681, R682) -/

section
variable (hRail : r < 6) (hPresent : s.railPresent r = true) (hFitted : 0 < s.railFitted r)
include hRail hPresent hFitted

theorem exec_phaseFaultInput_of_falls (hLow : (s.rail r).low = false) (hNaming : (s.rail r).naming = none) : exec (.phaseFaultInput r true) s = .next
    (((s.start.setRail r { s.rail r with low := true, naming := some 0 }).setF (PMU_RAIL_FAULT.UNNAMED r) 1).railFail r 1 0) := by
  refine (answer_of_true (by rw [hOn, decide_eq_true hRail, hPresent, decide_eq_true hFitted, hLow]; rfl)).trans ?_
  rw [hNaming]
  rfl

theorem exec_phaseFaultInput_of_rises (hLow : (s.rail r).low = true) : exec (.phaseFaultInput r false) s =
    .next ((s.start.setRail r { s.rail r with low := false, naming := (s.rail r).naming }).railRestore r) :=
  answer_of_true (by rw [hOn, decide_eq_true hRail, hPresent, decide_eq_true hFitted, hLow]; rfl)

end

/-- The rail as a sample leaves it, with the counts of its bad and good readings. -/
def State.railSampled (s : State) (r mv : Nat) (is : List Nat) : Rail :=
  { s.rail r with mv := mv, i := sumN is, at_ := some s.cyc, phases := is
                  bad := (List.range is.length).map (fun k => if phaseBad is (s.railMax r) k then getAt 0 (s.rail r).bad k + 1 else 0)
                  good := (List.range is.length).map (fun k => if phaseGood is k then getAt 0 (s.rail r).good k + 1 else 0) }

/-- The state after a sample, before it is judged. -/
def State.sampleTaken (s : State) (r mv : Nat) (is : List Nat) : State :=
  ((((s.start.setRail r (s.railSampled r mv is)).setF (PMU_RAIL.MV r) mv).setF (PMU_RAIL.I_100MA r) (Nat.min 65535 (sumN is / 10))).setF
    (PMU_RAIL.STALE r) 0)

section
variable {mv : Nat} {is : List Nat} (hPresent : s.railPresent r = true) (hMv : mv < 16384)
include hPresent hMv

theorem exec_telemetrySample_of_whole (hRail : 6 ≤ r) (hOne : is.length = 1) : exec (.telemetrySample r mv is) s = .next (s.sampleTaken r mv is) := by
  refine (answer_of_true ?_).trans (congrArg _ (if_neg (Nat.not_lt.2 hRail)))
  rw [hOn, hPresent, decide_eq_true hMv, if_neg (Nat.not_lt.2 hRail), hOne]
  rfl

theorem exec_telemetrySample_of_phases (hRail : r < 6) (hFitted : is.length = s.railFitted r) :
    exec (.telemetrySample r mv is) s = .next (((s.sampleTaken r mv is).railJudge r).railRestore r) := by
  refine (answer_of_true ?_).trans (congrArg _ (if_pos hRail))
  rw [hOn, hPresent, decide_eq_true hMv, if_pos hRail, hFitted, beq_self_eq_true]
  rfl

end

end

theorem exec_phaseRestoreRequest_of_mayWrite (hm : s.mayWrite m (PMU_RAIL_FAULT.addr r) = true) : exec (.phaseRestoreRequest m r v) s = .next
    ((s.start.setRail r { s.rail r with
      restore := Nat.lor (s.rail r).restore (Nat.land (bits (BitVec.ofNat 32 v) 15 0) (s.fld (PMU_RAIL_FAULT.FAILED r))) }).railRestore r) :=
  State.write_of_mayWrite hm

/-! ## Droop (R680) -/

theorem exec_droopFiring_of_on (hn : n < 64) (hOn : s.pdOn (pdClu n) = true) : exec (.droopFiring n) s = .next
    ((s.start.setPmuClu n { s.pmuClu n with droop := some s.cyc }).bump (PMU_CLU_DROOPS.COUNT n) 1) :=
  answer_of_true (by rw [decide_eq_true hn, hOn]; rfl)

theorem exec_droopRelease_of_held {k : Nat} (hDroop : (s.pmuClu n).droop = some k)
    (hHeld : s.thermal.droopHold * 1000 ≤ (s.cyc - k) * getAt 0 s.running.mhz 0) :
    exec (.droopRelease n) s = .next (s.start.setPmuClu n { s.pmuClu n with droop := none }) :=
  answer_of_true (by rw [hDroop]; exact decide_eq_true hHeld)

end

/-- Settles O58: the share-out by the search for the greatest level, the parts of an energy by `sum_divide` (a remainder may go to a free domain,
log 46), and each command by its rule (the droop's release by the operating frequency, log 48). -/
theorem powerSharing : Obligations.PowerSharing := by
  unfold Obligations.PowerSharing
  intro s m v n r mv is act moved occ ch
  refine ⟨fun hm _ c hc => ?cap, fun qf cs b => ⟨shareOut_of_over, fun hFits => ?level⟩,
    fun hOn => ⟨exec_pmuPeriod_of_due hOn, fun e => exec_phaseReport_of_oldest hOn, answer_of_true hOn,
      fun hRail hPresent hFitted => ⟨exec_phaseFaultInput_of_falls hOn hRail hPresent hFitted, exec_phaseFaultInput_of_rises hOn hRail hPresent hFitted⟩,
      fun u t hPresent hMv hu ht => ?sample, exec_testBudgetGrant_of_fits hOn⟩,
    fun e f ws => sum_divide, exec_droopFiring_of_on, fun k => exec_droopRelease_of_held, exec_phaseRestoreRequest_of_mayWrite⟩
  case cap =>
    subst hc
    exact ⟨exec_capWrite_of_ok hm, exec_capWrite_of_rejected hm⟩
  case level =>
    obtain ⟨k, ⟨hStep, hLevel, hGreatest⟩, hShare⟩ := shareOut_of_fits (qf := qf) hFits
    exact ⟨k, hStep, hLevel, hGreatest, hShare⟩
  case sample =>
    subst hu ht
    exact ⟨exec_telemetrySample_of_whole hOn hPresent hMv, exec_telemetrySample_of_phases hOn hPresent hMv⟩

end Sys2Proof.Machine

/-! # The metrology island (24_metrology_island.md) -/

namespace Sys2Proof.Machine
open Sys2Proof

section
variable {s : State} {n : Nat}

/-! ## What a pulse, a legal event and a refresh leave of the island unchanged (R711, R713, R720) -/

theorem State.mti_aplicMsi {d hart guest eiid : Nat} : (s.aplicMsi d hart guest eiid).mti = s.mti := by
  unfold State.aplicMsi State.sendMsi
  split <;> rfl

theorem State.mti_aplicInput {d mode : Nat} {v : Bool} : (s.aplicInput d n mode v).mti = s.mti := by
  unfold State.aplicInput State.aplicForward
  split
  · split
    · exact State.mti_aplicMsi
    · rfl
  · split <;> rfl

theorem State.mti_wireTo {v : Bool} : (s.wireTo n v).mti = s.mti := by
  have hEmit : (if v = true then s.emit (.irq n) else s).mti = s.mti := by split <;> rfl
  unfold State.wireTo
  dsimp only
  split
  · exact State.mti_aplicInput.trans hEmit
  · exact hEmit

theorem State.mti_pulse : (s.pulse n).mti = s.mti := State.mti_wireTo.trans State.mti_wireTo

theorem State.mti_audit {code detail : Nat} : (s.audit code detail).mti = s.mti := by
  unfold State.audit
  dsimp only
  split
  · rfl
  · split <;> rfl

/-- The island but for its legal registers, its snapshot and whether one is due. -/
def Mti.measured (x : Mti) : Mti := { x with regs := [], due := false, snapSeq := 0, snap := [] }

theorem State.measured_refresh {valid : Bool} : (s.refresh valid).mti.measured = s.mti.measured :=
  (congrArg Mti.measured State.mti_pulse).trans rfl

theorem State.measured_settleMti : s.settleMti.mti.measured = s.mti.measured := by
  unfold State.settleMti
  split
  · exact State.measured_refresh
  · rfl

theorem State.measured_legalIn {code detail : Nat} : (State.legalIn n code detail s).mti.measured = s.mti.measured := by
  induction n generalizing code detail s with
  | zero => rfl
  | succ n ih =>
    unfold State.legalIn
    dsimp only
    split
    · split
      · exact ih.trans ((congrArg Mti.measured State.mti_audit).trans rfl)
      · exact (congrArg Mti.measured State.mti_audit).trans rfl
    · split
      · rfl
      · exact (congrArg Mti.measured (State.mti_audit.trans State.mti_audit)).trans rfl

theorem State.measured_legalAdd {k : Nat} : (s.legalAdd k n).mti.measured = s.mti.measured := by
  unfold State.legalAdd State.legalEvent
  dsimp only
  split
  · exact State.measured_legalIn.trans rfl
  · rfl

end

section
variable {s : State}

/-! ## Samples (R709, R710) -/

section
variable {i v : Int}

theorem State.accumulate_of_zero (h : i = 0) : s.accumulate i v = s := (if_neg (by omega)).trans (if_neg (by omega))

theorem State.accumulate_of_pos (h : 0 < i) :
    s.accumulate i v = (s.residueAdd 0 2 14400000000 i).residueAdd 1 0 14400000000000000 (i * v) := if_pos h

theorem State.accumulate_of_neg (h : i < 0) :
    s.accumulate i v = (s.residueAdd 2 3 14400000000 (-i)).residueAdd 3 1 14400000000000000 (-i * v) :=
  (if_neg (by omega)).trans (if_pos h)

end

/-- The island after a sample of codes cI and cV, before its charge and energy are accumulated: i and v as formed, kI and kV the runs of clipped codes. -/
def Mti.sampled (x : Mti) (cI cV i v : Int) (kI kV : Nat) : Mti :=
  { x with codeI := cI, codeV := cV, clipI := kI, clipV := kV, sumI := x.sumI + i, sumAbs := x.sumAbs + i.natAbs, sumV := x.sumV + v,
           samples := x.samples + 1, qnet := x.qnet + i, sinceSweep := x.sinceSweep + 1 }

section
variable (hOn : s.pdOn 81 = true) (hRuns : s.mti.on = true)
include hOn hRuns

theorem exec_adcSample_of_codes {cI cV : Int} {badI badV : Bool} {t : State} (hFew : s.mti.samples < 4000) (hILow : -8388608 ≤ cI) (hIHigh : cI ≤ 8388607)
    (hVLow : 0 ≤ cV) (hVHigh : cV ≤ 16777215) {kI kV : Nat} (hI : kI = if cI = -8388608 ∨ cI = 8388607 then s.mti.clipI + 1 else 0)
    (hV : kV = if cV = 0 ∨ cV = 16777215 then s.mti.clipV + 1 else 0)
    (ht : (s.start.setMti (s.mti.sampled cI cV (s.sampleI cI) (s.sampleV cV) kI kV)).accumulate (s.sampleI cI) (s.sampleV cV) = t) :
    exec (.adcSample cI cV badI badV) s = .next ((t.adcFault false (badI || decide (4 ≤ kI))).adcFault true (badV || decide (4 ≤ kV))).settleMti := by
  subst hI hV ht
  refine answer_of_true ?_
  rw [hOn, hRuns, decide_eq_true hFew, decide_eq_true ⟨hILow, hIHigh, hVLow, hVHigh⟩]
  rfl

/-! ## Checkpoints and clocks (R705, R712) -/

theorem exec_mtiCheckpoint_of_due {bad : Bool} (hDue : 10 ≤ s.mti.sinceCkpt) :
    exec (.mtiCheckpoint bad) s = .next ((s.start.setMti { s.mti with sinceCkpt := 0 }).checkpoint false bad).settleMti :=
  answer_of_true (by rw [hOn, hRuns, decide_eq_true hDue]; rfl)

theorem exec_powerFailSignal_of_on {bad : Bool} : exec (.powerFailSignal bad) s = .next (s.start.checkpoint true bad).settleMti :=
  answer_of_true (by rw [hOn, hRuns]; rfl)

theorem exec_clockCheck_of_bad (hGood : s.mti.clockBad = false) :
    exec (.clockCheck true) s = .next ((s.start.setMti { s.mti with clockBad := true }).legalEvent 5 0).settleMti := by
  refine (answer_of_true (by rw [hOn, hRuns]; rfl)).trans ?_
  rw [hGood]
  rfl

theorem exec_clockCheck_of_good : exec (.clockCheck false) s = .next (s.start.setMti { s.mti with clockBad := false }).settleMti :=
  answer_of_true (by rw [hOn, hRuns]; rfl)

theorem exec_snapshotRefresh_of_on : exec .snapshotRefresh s = .next (s.start.refresh true) := by
  refine (answer_of_true ?_).trans (congrArg (fun b => Host.Outcome.next (s.start.refresh b)) hRuns)
  rw [hOn, State.mtiAwake, hRuns]
  rfl

end

theorem State.checkpoint_of_good {clean : Bool} : s.checkpoint clean false = { s with mtiStore := { s.mtiStore with ckpt := some (s.mti.ckpt clean) } } := rfl

theorem State.checkpoint_of_bad {clean : Bool} : s.checkpoint clean true = s.legalEvent 6 0 := rfl

theorem exec_snapshotRefresh_of_romFail (hOn : s.pdOn 81 = true) (hStopped : s.mti.on = false) (hFail : s.flag MTI_STATUS.ROM_FAIL = true) :
    exec .snapshotRefresh s = .next (s.start.refresh false) := by
  refine (answer_of_true ?_).trans (congrArg (fun b => Host.Outcome.next (s.start.refresh b)) hStopped)
  rw [hOn, State.mtiAwake, hStopped, hFail]
  rfl

theorem exec_snapshotLatchRead_of_mayRead {m : Nat} {sweep : Bool} (hm : s.mayRead m (if sweep then MTI_SWEEP.addr 0 else MTI_SNAP.addr 0) = true) :
    exec (.snapshotLatchRead m sweep) s = .next
      ((s.start.latchMti m sweep).say (.word (BitVec.ofNat 32 (leAt (if sweep then s.sweepNow else s.snapNow) 0 4)))) :=
  congrArg _ (if_pos hm)

/-! ## The service port (R708) -/

theorem State.svc2_of_good {op crc : Nat} {payload : List Byte} {t : State} (h : crc = crc32c (leBytes 1 op ++ payload)) : s.svc2 op crc payload t = t :=
  if_pos h

theorem State.svc2_of_bad {op crc : Nat} {payload : List Byte} {t : State} (h : crc ≠ crc32c (leBytes 1 op ++ payload)) :
    s.svc2 op crc payload t = s.say (svcReply 1 []) := if_neg h

section
variable {en : Bool} {crc : Nat} (hPort : s.svcPort en = true)
include hPort

section
variable {table : List Byte} {bad : Bool} (hTable : table.length = 256)
include hTable

theorem exec_paramWrite_of_badCrc (hCrc : crc ≠ crc32c (leBytes 1 1 ++ table)) :
    exec (.paramWrite en table crc bad) s = .next (s.start.say (svcReply 1 [])) :=
  (answer_of_true (by rw [hPort, hTable]; rfl)).trans (congrArg _ (State.svc2_of_bad hCrc))

theorem exec_paramWrite_of_badTable (hCrc : crc = crc32c (leBytes 1 1 ++ table)) (hBad : paramOk table = false) :
    exec (.paramWrite en table crc bad) s = .next (s.start.say (svcReply 2 [])) := by
  refine (answer_of_true (by rw [hPort, hTable]; rfl)).trans (congrArg _ ((State.svc2_of_good hCrc).trans ?_))
  rw [hBad]
  rfl

theorem exec_paramWrite_of_good (hCrc : crc = crc32c (leBytes 1 1 ++ table)) (hOk : paramOk table = true) : exec (.paramWrite en table crc false) s =
    .next (({ s.start with mtiStore := { s.mtiStore with params := table } } : State).say (svcReply 0 (leBytes 4 (crc32c table)))) := by
  refine (answer_of_true (by rw [hPort, hTable]; rfl)).trans (congrArg _ ((State.svc2_of_good hCrc).trans ?_))
  rw [hOk]
  rfl

end

theorem exec_paramRead_of_good (hCrc : crc = crc32c (leBytes 1 2)) : exec (.paramRead en crc) s = .next (s.start.say (svcReply 0 s.mtiStore.params)) :=
  (answer_of_true hPort).trans (congrArg _ (State.svc2_of_good (hCrc.trans (congrArg _ (List.append_nil _).symm))))

theorem exec_rawRead_of_good (hCrc : crc = crc32c (leBytes 1 3)) : exec (.rawRead en crc) s =
    .next (s.start.say (svcReply 0 (leBytes 4 (unsigned 32 s.mti.codeI) ++ leBytes 4 (unsigned 32 s.mti.codeV)))) :=
  (answer_of_true hPort).trans (congrArg _ (State.svc2_of_good (hCrc.trans (congrArg _ (List.append_nil _).symm))))

section
variable {pcrc : Nat} (hCrc : crc = crc32c (leBytes 1 4 ++ leBytes 4 pcrc))
include hCrc

theorem exec_mtiSeal_of_otherTable (hOther : pcrc % 2 ^ 32 ≠ s.paramCrc) : exec (.mtiSeal en pcrc crc) s = .next (s.start.say (svcReply 2 [])) :=
  (answer_of_true hPort).trans (congrArg _ ((State.svc2_of_good hCrc).trans (if_neg hOther)))

theorem exec_mtiSeal_of_table (hSame : pcrc % 2 ^ 32 = s.paramCrc) :
    exec (.mtiSeal en pcrc crc) s = .next (s.start.sealMti.settleMti.say (svcReply 0 [])) :=
  (answer_of_true hPort).trans (congrArg _ ((State.svc2_of_good hCrc).trans (if_pos hSame)))

end

end

/-! ## Start and loss of VMET (R704, R706, R722) -/

/-- The state in which the controller starts, with the checksum it computes of its ROM. -/
def State.mtiStarted (s : State) (crc : Nat) (worn : List Nat) : State :=
  (({ s.start with mtiStore := { s.mtiStore with worn := worn } } : State).setPd 81 2).setF MTI_FW_CRC.CRC crc

/-- The controller at work, before it takes up a checkpoint. -/
def State.mtiRunning (t : State) : State :=
  { (t.setMti { Mti.init with on := true }).setF MTI_STATUS.RUNNING 1 with mtiStore := { t.mtiStore with torn := false } }

/-- The island with what a checkpoint gives back. -/
def State.mtiTaken (t : State) : Option Ckpt → State
  | none => t
  | some c => t.setMti c.resumed

/-- A start without a checkpoint is clean. -/
def ckptClean : Option Ckpt → Bool
  | none => true
  | some c => c.clean

theorem State.mtiTaken_store (t : State) (st : MtiStore) (x : Option Ckpt) :
    { t.mtiTaken x with mtiStore := st } = ({ t with mtiStore := st } : State).mtiTaken x := by
  cases x <;> rfl

theorem State.mtiStore_mtiTaken (t : State) (x : Option Ckpt) : (t.mtiTaken x).mtiStore = t.mtiStore := by
  cases x <;> rfl

theorem State.resumeMti_eq : s.resumeMti =
    if ckptClean s.mtiStore.ckpt && !s.mtiStore.torn then s.mtiRunning.mtiTaken s.mtiStore.ckpt
    else (s.mtiRunning.mtiTaken s.mtiStore.ckpt).legalEvent 2 0 := by
  have hTaken : s.resumeMti =
      let u := ((s.setMti { Mti.init with on := true }).setF MTI_STATUS.RUNNING 1).mtiTaken s.mtiStore.ckpt
      let v : State := { u with mtiStore := { u.mtiStore with torn := false } }
      if ckptClean s.mtiStore.ckpt && !u.mtiStore.torn then v else v.legalEvent 2 0 := rfl
  rw [hTaken]
  simp only [State.mtiTaken_store, State.mtiStore_mtiTaken]
  rfl

theorem State.resumeMti_of_none (hNone : s.mtiStore.ckpt = none) :
    s.resumeMti = if s.mtiStore.torn then s.mtiRunning.legalEvent 2 0 else s.mtiRunning := by
  rw [State.resumeMti_eq, hNone]
  cases s.mtiStore.torn <;> rfl

theorem State.resumeMti_of_some {c : Ckpt} (hSome : s.mtiStore.ckpt = some c) : s.resumeMti =
    if c.clean && !s.mtiStore.torn then s.mtiRunning.setMti c.resumed else (s.mtiRunning.setMti c.resumed).legalEvent 2 0 := by
  rw [State.resumeMti_eq, hSome]
  rfl

section
variable {crc : Nat} {worn : List Nat} (hOff : s.mti.on = false) (hFail : s.flag MTI_STATUS.ROM_FAIL = false)
include hOff hFail

theorem exec_mtiStart_of_badRom (hRom : crc ≠ 0x5A1C7E39) :
    exec (.mtiStart crc worn) s = .next (((s.mtiStarted crc worn).setF MTI_STATUS.ROM_FAIL 1).refresh false) :=
  (answer_of_true (by rw [hOff, hFail]; rfl)).trans (congrArg _ (if_neg hRom))

theorem exec_mtiStart_of_rom {t : State} (hRom : crc = 0x5A1C7E39) (hResume : (s.mtiStarted crc worn).resumeMti = t) :
    exec (.mtiStart crc worn) s = .next t.settleMti :=
  (answer_of_true (by rw [hOff, hFail]; rfl)).trans (congrArg _ ((if_pos hRom).trans (congrArg _ hResume)))

end

/-- The store of the island after a loss of VMET: an entry that was cut off has spent its slot. -/
def MtiStore.cutOff (x : MtiStore) (cut : Bool) : MtiStore :=
  { x with next := x.next + b2n (cut && decide (x.next < 1024)), torn := cut && decide (x.next < 1024) }

theorem exec_vmetPowerLoss_of_on {cut : Bool} (hOn : s.pdOn 81 = true) :
    ∃ t, exec (.vmetPowerLoss cut) s = .next t ∧ t.mti = Mti.init ∧ t.mtiStore = s.mtiStore.cutOff cut :=
  ⟨_, answer_of_true hOn, rfl, rfl⟩

theorem MtiStore.next_cutOff (x : MtiStore) (cut : Bool) :
    (x.cutOff cut).next = if cut && decide (x.next < 1024) then x.next + 1 else x.next := by
  unfold MtiStore.cutOff
  cases (cut && decide (x.next < 1024)) <;> rfl

/-! ## The second (R711, R718, R719) -/

theorem State.mti_socVNow : s.socVNow.1.mti = s.mti := by
  unfold State.socVNow
  dsimp only
  split <;> rfl

theorem State.mti_socCCNow : s.socCCNow.1.mti = s.mti := by
  unfold State.socCCNow
  dsimp only
  split <;> rfl

/-- Rest after a second: 4,000 samples of little current in all, REST_S seconds in turn. -/
def State.restNow (s : State) : Nat := if decide (s.mti.sumAbs < 4000 * 1000 * s.mtiParam 24 2) then s.mti.rest + 1 else 0
def State.atRestNow (s : State) : Bool := decide (s.mti.sumAbs < 4000 * 1000 * s.mtiParam 24 2) && decide (s.mtiParam 26 2 ≤ s.restNow)

theorem State.atRestNow_eq :
    s.atRestNow = (decide (s.mti.sumAbs < 4000 * 1000 * s.mtiParam 24 2) && decide (s.mtiParam 26 2 ≤ s.mti.rest + 1)) := by
  unfold State.atRestNow State.restNow
  cases decide (s.mti.sumAbs < 4000 * 1000 * s.mtiParam 24 2) <;> rfl

/-- The island with the voltage estimate of the second, and the anchor it takes at rest. -/
def State.secondVolt (s : State) : State :=
  s.start.socVNow.1.setMti { s.mti with
    meanI := rneDiv s.mti.sumI 4000, meanV := rneDiv s.mti.sumV 4000, rest := s.restNow, atRest := s.atRestNow, socV := s.start.socVNow.2
    anchor := if s.atRestNow then (s.start.socVNow.2 : Int) else s.mti.anchor, qnet := if s.atRestNow then 0 else s.mti.qnet }

/-- The island with both estimates, its sums at 0. -/
def State.secondOver (s : State) : Mti :=
  { s.secondVolt.mti with
    socCC := s.secondVolt.socCCNow.2, disagree := decide (s.secondVolt.socCCNow.2 ≤ 0) && decide (s.mtiParam 28 2 < s.start.socVNow.2)
    sumI := 0, sumAbs := 0, sumV := 0, samples := 0, sinceCkpt := s.mti.sinceCkpt + 1 }

/-- A second leaves the island as its evaluation makes it, but for the count of seconds and what a legal event does. -/
theorem exec_socEvaluation_of_second (hOn : s.pdOn 81 = true) (hRuns : s.mti.on = true) (hFull : s.mti.samples = 4000) :
    ∃ t, exec .socEvaluation s = .next t ∧ t.mti.measured = s.secondOver.measured := by
  refine ⟨_, answer_of_true (by rw [hOn, hRuns, hFull]; rfl), State.measured_settleMti.trans (State.measured_legalAdd.trans ?_)⟩
  rw [State.mti_socVNow, State.mti_socCCNow]
  rfl

end

/-! ## The battery-monitor ring (R715–R717) -/

theorem getAt_eq_getElem? {α : Type} (d : α) : ∀ (l : List α) (k : Nat), getAt d l k = l[k]?.getD d
  | [], _ => rfl
  | _ :: _, 0 => rfl
  | _ :: l, k + 1 => by rw [getAt, getAt_eq_getElem? d l k, List.getElem?_cons_succ]

theorem getAt_map_range {α : Type} {d : α} {f : Nat → α} {n k : Nat} (h : k < n) : getAt d ((List.range n).map f) k = f k := by
  rw [getAt_eq_getElem?, List.getElem?_map, List.getElem?_range h]
  rfl

/-- The first elements of a range that have a property: all before the place where they end, not the one there. -/
theorem length_takeWhile_range' {p : Nat → Bool} : ∀ n a : Nat, let r := ((List.range' a n).takeWhile p).length
    r ≤ n ∧ (∀ j < r, p (a + j) = true) ∧ (r < n → p (a + r) = false)
  | 0, a => ⟨Nat.le_refl _, fun _ h => absurd h (Nat.not_lt_zero _), fun h => absurd h (Nat.not_lt_zero _)⟩
  | n + 1, a => by
    rw [List.range'_succ, List.takeWhile_cons]
    cases hp : p a with
    | false => exact ⟨Nat.zero_le _, fun _ h => absurd h (Nat.not_lt_zero _), fun _ => hp⟩
    | true =>
      obtain ⟨hLe, hBefore, hAt⟩ := length_takeWhile_range' (p := p) n (a + 1)
      refine ⟨Nat.succ_le_succ hLe, fun j hj => ?_, fun h => ?_⟩
      · cases j with
        | zero => exact hp
        | succ j => exact Nat.succ_add_eq_add_succ a j ▸ hBefore j (Nat.lt_of_succ_lt_succ hj)
      · exact Nat.succ_add_eq_add_succ a _ ▸ hAt (Nat.lt_of_succ_lt_succ h)

/-- Positions answered in turn: up to the first that is not. -/
theorem answered_map_range (f : Nat → Option (List Nat × List Nat)) (n : Nat) : let r := answered ((List.range n).map f) n
    r ≤ n ∧ (∀ j < r, (f j).isSome = true) ∧ (r < n → f r = none) := by
  obtain ⟨hLe, hBefore, hAt⟩ := length_takeWhile_range' (p := fun k => (getAt none ((List.range n).map f) k).isSome) n 0
  rw [← List.range_eq_range'] at hLe hBefore hAt
  simp only [Nat.zero_add] at hBefore hAt
  refine ⟨hLe, fun j hj => ?_, fun h => ?_⟩
  · rw [← getAt_map_range (d := none) (f := f) (Nat.lt_of_lt_of_le hj hLe)]
    exact hBefore j hj
  · rw [← getAt_map_range (d := none) (f := f) h]
    exact Option.isSome_eq_false_iff.1 (hAt h) |> Option.isNone_iff_eq_none.1

section
variable (fa fb : Nat → Option (List Nat × List Nat)) (n cells : Nat)

/-- How many positions the pass from end A reads before its first failure, and the pass from end B of those it leaves. -/
def reachA : Nat := answered ((List.range n).map fa) n
def reachB : Nat :=
  answered ((List.range (n - reachA fa n)).map (fun i => getAt none ((List.range n).map fb) (n - 1 - i))) (n - reachA fa n)

/-- Position k as the sweep of both ends leaves it. -/
def sweptMonitor (k : Nat) : Monitor :=
  if k < reachA fa n then monitorRead (if decide (reachA fa n = n) then 0 else 1) cells (getAt none ((List.range n).map fa) k)
  else if n - reachB fa fb n ≤ k then monitorRead 2 cells (getAt none ((List.range n).map fb) k)
  else monitorRead 3 cells none

variable {fa fb n cells}

theorem monitorRead_state {st : Nat} {r : Option (List Nat × List Nat)} (h : r.isSome = true) : (monitorRead st cells r).state = st := by
  obtain ⟨x, rfl⟩ := Option.isSome_iff_exists.1 h
  rfl

theorem reachA_le : reachA fa n ≤ n := (answered_map_range fa n).1

theorem isSome_of_lt_reachA {j : Nat} (h : j < reachA fa n) : (fa j).isSome = true := (answered_map_range fa n).2.1 j h

theorem reachA_eq_of_all (h : ∀ k < n, (fa k).isSome = true) : reachA fa n = n := by
  refine Nat.le_antisymm reachA_le (Nat.not_lt.1 (fun hLess => ?_))
  have hNone : fa (reachA fa n) = none := (answered_map_range fa n).2.2 hLess
  simpa [hNone] using h _ hLess

theorem reachA_eq_of_none {k : Nat} (hk : k < n) (hNone : fa k = none) (hBefore : ∀ j < k, (fa j).isSome = true) : reachA fa n = k := by
  rcases Nat.lt_trichotomy (reachA fa n) k with h | h | h
  · have hStop : fa (reachA fa n) = none := (answered_map_range fa n).2.2 (h.trans hk)
    simpa [hStop] using hBefore _ h
  · exact h
  · simpa [hNone] using isSome_of_lt_reachA h

/-- From end B a position is read when it and every one behind it answer. -/
theorem reachB_le_iff {j : Nat} (hLeft : reachA fa n ≤ j) (hj : j < n) :
    n - reachB fa fb n ≤ j ↔ ∀ i < n, j ≤ i → (fb i).isSome = true := by
  obtain ⟨hLe, hBefore, hAt⟩ := answered_map_range (fun i => getAt none ((List.range n).map fb) (n - 1 - i)) (n - reachA fa n)
  change reachB fa fb n ≤ _ at hLe
  constructor
  · intro hReach i hi hji
    have hRead := hBefore (n - 1 - i) (show n - 1 - i < reachB fa fb n by omega)
    rwa [getAt_map_range (by omega), show n - 1 - (n - 1 - i) = i by omega] at hRead
  · intro hAll
    by_contra hShort
    have hStop := hAt (show reachB fa fb n < n - reachA fa n by omega)
    change getAt none _ (n - 1 - reachB fa fb n) = none at hStop
    rw [getAt_map_range (by omega)] at hStop
    simpa [hStop] using hAll (n - 1 - reachB fa fb n) (by omega) (by omega)

theorem sweptMonitor_state_of_reached {k : Nat} (hk : k < n) (h : k < reachA fa n) :
    (sweptMonitor fa fb n cells k).state = if decide (reachA fa n = n) then 0 else 1 := by
  rw [sweptMonitor, if_pos h, getAt_map_range hk]
  exact monitorRead_state (isSome_of_lt_reachA h)

theorem sweptMonitor_state_of_left {k : Nat} (hk : k < n) (hLeft : reachA fa n ≤ k) : (sweptMonitor fa fb n cells k).state =
    if (∀ i < n, k ≤ i → (fb i).isSome = true) then 2 else 3 := by
  rw [sweptMonitor, if_neg (Nat.not_lt.2 hLeft), getAt_map_range hk]
  by_cases hAll : ∀ i < n, k ≤ i → (fb i).isSome = true
  · rw [if_pos ((reachB_le_iff hLeft hk).2 hAll), if_pos hAll]
    exact monitorRead_state (hAll k hk (Nat.le_refl _))
  · rw [if_neg (fun h => hAll ((reachB_le_iff hLeft hk).1 h)), if_neg hAll]
    rfl

end

section
variable {s : State} {ra rb : List (List (List Byte) × List (List Byte))}

/-- What the tries of a pass bring of each position. -/
def State.ringReads (s : State) (rs : List (List (List Byte) × List (List Byte))) (k : Nat) : Option (List Nat × List Nat) :=
  s.ringRead k (getAt ([], []) rs k)

/-- Both passes of a sweep that is due: the positions, the breaks, and a refresh of the snapshot, with CHAIN_BREAKS where the chain is broken. -/
theorem exec_ringSweep_eq (hOn : s.pdOn 81 = true) (hRuns : s.mti.on = true) (hFitted : s.mtiParam 20 1 ≤ 32) (hCells : s.mtiParam 21 1 ≤ 12)
    (hDue : 4 * s.mtiParam 22 2 ≤ s.mti.sinceSweep) :
    ∃ (whole : Bool) (t : State) (f : Fld) (v : Nat), exec (.ringSweep ra rb) s = .next ((if whole then t else t.setF f v).refresh true)
      ∧ t.mti.sinceSweep = 0
      ∧ t.mti.monitors = (List.range (s.mtiParam 20 1)).map (sweptMonitor (s.ringReads ra) (s.ringReads rb) (s.mtiParam 20 1) (s.mtiParam 21 1))
      ∧ t.mti.breakA = (if decide (reachA (s.ringReads ra) (s.mtiParam 20 1) = s.mtiParam 20 1) then 0xFF
          else reachA (s.ringReads ra) (s.mtiParam 20 1))
      ∧ (reachA (s.ringReads ra) (s.mtiParam 20 1) = s.mtiParam 20 1 → t.mti.breakB = 0xFF) := by
  have hGo : (s.pdOn 81 && s.mti.on && decide (s.mtiParam 20 1 ≤ 32 ∧ s.mtiParam 21 1 ≤ 12 ∧ 4 * s.mtiParam 22 2 ≤ s.mti.sinceSweep)) = true := by
    rw [hOn, hRuns, decide_eq_true ⟨hFitted, hCells, hDue⟩]
    rfl
  exact ⟨_, _, _, _, answer_of_true hGo, rfl, rfl, rfl, fun hWhole => if_pos (.inl (decide_eq_true hWhole))⟩

/-- A sweep that is due, in the terms of what the passes find: no break where all answer from end A, else the break before the first that does not,
with the state of each position. -/
theorem exec_ringSweep_of_due (hOn : s.pdOn 81 = true) (hRuns : s.mti.on = true) (hFitted : s.mtiParam 20 1 ≤ 32) (hCells : s.mtiParam 21 1 ≤ 12)
    (hDue : 4 * s.mtiParam 22 2 ≤ s.mti.sinceSweep) : let n := s.mtiParam 20 1
    ∃ t, exec (.ringSweep ra rb) s = .next t ∧ t.mti.sinceSweep = 0 ∧ t.mti.monitors.length = n
      ∧ ((∀ k < n, (s.ringReads ra k).isSome = true) → t.mti.breakA = 0xFF ∧ t.mti.breakB = 0xFF ∧ ∀ x ∈ t.mti.monitors, x.state = 0)
      ∧ (∀ k < n, s.ringReads ra k = none → (∀ j < k, (s.ringReads ra j).isSome = true) → t.mti.breakA = k
        ∧ (∀ j < k, ∀ x, t.mti.monitors[j]? = some x → x.state = 1)
        ∧ (∀ j, k ≤ j → ∀ x, t.mti.monitors[j]? = some x →
          x.state = if (∀ i < n, j ≤ i → (s.ringReads rb i).isSome = true) then 2 else 3)) := by
  intro n
  obtain ⟨whole, t, f, v, hExec, hSince, hMonitors, hBreakA, hBreakB⟩ := exec_ringSweep_eq (ra := ra) (rb := rb) hOn hRuns hFitted hCells hDue
  have hKept : ((if whole then t else t.setF f v).refresh true).mti.measured = t.mti.measured :=
    State.measured_refresh.trans (by cases whole <;> rfl)
  have hRead : ((if whole then t else t.setF f v).refresh true).mti.monitors = _ := (congrArg Mti.monitors hKept).trans hMonitors
  refine ⟨_, hExec, (congrArg Mti.sinceSweep hKept).trans hSince, by rw [hRead, List.length_map, List.length_range], fun hAll => ?whole,
    fun k hk hNone hBefore => ?broken⟩
  case whole =>
    have hReach := reachA_eq_of_all hAll
    refine ⟨((congrArg Mti.breakA hKept).trans hBreakA).trans (if_pos (decide_eq_true hReach)), (congrArg Mti.breakB hKept).trans (hBreakB hReach),
      fun x hx => ?_⟩
    rw [hRead] at hx
    obtain ⟨k, hk, rfl⟩ := List.mem_map.1 hx
    have hLess : k < n := List.mem_range.1 hk
    rw [sweptMonitor_state_of_reached hLess (hReach.symm ▸ hLess), if_pos (decide_eq_true hReach)]
  case broken =>
    have hReach := reachA_eq_of_none hk hNone hBefore
    have hBroken : ¬decide (reachA (s.ringReads ra) n = n) = true := by rw [hReach, decide_eq_true_iff]; omega
    have hAt : ∀ j x, ((if whole then t else t.setF f v).refresh true).mti.monitors[j]? = some x →
        j < n ∧ x = sweptMonitor (s.ringReads ra) (s.ringReads rb) n (s.mtiParam 21 1) j := by
      intro j x hx
      rw [hRead, List.getElem?_map] at hx
      obtain ⟨i, hi, rfl⟩ := Option.map_eq_some_iff.1 hx
      obtain ⟨hLess, hi⟩ := List.getElem?_eq_some_iff.1 hi
      rw [List.getElem_range] at hi
      exact ⟨hLess.trans_eq List.length_range, hi ▸ rfl⟩
    refine ⟨((congrArg Mti.breakA hKept).trans hBreakA).trans ((if_neg hBroken).trans hReach), fun j hj x hx => ?_, fun j hj x hx => ?_⟩
    · obtain ⟨hLess, rfl⟩ := hAt j x hx
      rw [sweptMonitor_state_of_reached hLess (hReach.symm ▸ hj), if_neg hBroken]
    · obtain ⟨hLess, rfl⟩ := hAt j x hx
      exact sweptMonitor_state_of_left hLess (hReach.symm ▸ hj)

end

/-- Settles O60: a sample by the sign of i, the second by what neither a legal event nor a refresh changes, the sweep by the reach of its two passes, and
the rest by each command's rule (RAW_READ's payload log 50; the clock fault once per episode, a start without a checkpoint and SEAL's extent log 49). -/
theorem metrologyIsland : Obligations.MetrologyIsland := by
  unfold Obligations.MetrologyIsland
  intro s cI cV badI badV bad en sweep cut m crc pcrc table worn ra rb
  refine ⟨fun hOn hRuns => ⟨fun hFew hILow hIHigh hVLow hVHigh i v kI kV hi hv hI hV t ht => ?sample,
      fun hDue => ⟨exec_mtiCheckpoint_of_due hOn hRuns hDue, exec_mtiCheckpoint_of_due hOn hRuns hDue⟩,
      exec_powerFailSignal_of_on hOn hRuns, exec_powerFailSignal_of_on hOn hRuns, exec_clockCheck_of_bad hOn hRuns, exec_clockCheck_of_good hOn hRuns,
      fun hFull => ?second, fun hFitted hCells hDue fa fb hfa hfb => ?sweep, exec_snapshotRefresh_of_on hOn hRuns⟩,
    exec_snapshotRefresh_of_romFail, exec_snapshotLatchRead_of_mayRead, fun hOff hFail t ht => ?start,
    fun hPort => ⟨fun hTable => ⟨exec_paramWrite_of_badCrc hPort hTable, exec_paramWrite_of_badTable hPort hTable, exec_paramWrite_of_good hPort hTable⟩,
      exec_paramRead_of_good hPort, exec_rawRead_of_good hPort,
      fun hCrc => ⟨exec_mtiSeal_of_otherTable hPort hCrc, exec_mtiSeal_of_table hPort hCrc⟩⟩, fun hOn => ?loss⟩
  case sample =>
    subst hi hv ht
    have hSample := fun {t} => exec_adcSample_of_codes (badI := badI) (badV := badV) (t := t) hOn hRuns hFew hILow hIHigh hVLow hVHigh hI hV
    exact ⟨fun h => hSample (State.accumulate_of_zero h), fun h => hSample (State.accumulate_of_pos h), fun h => hSample (State.accumulate_of_neg h)⟩
  case second =>
    obtain ⟨t, hExec, hKept⟩ := exec_socEvaluation_of_second hOn hRuns hFull
    have hRest : t.mti.atRest = s.atRestNow := congrArg Mti.atRest hKept
    have hVolt : t.mti.socV = s.start.socVNow.2 := congrArg Mti.socV hKept
    have hCharge : t.mti.socCC = s.secondVolt.socCCNow.2 := congrArg Mti.socCC hKept
    refine ⟨t, hExec, congrArg Mti.samples hKept, hVolt, hRest.trans State.atRestNow_eq, fun h => ?_, fun h => ?_, ?_⟩
    · have hNow : s.atRestNow = true := hRest.symm.trans h
      exact ⟨(congrArg Mti.anchor hKept).trans (if_pos hNow), (congrArg Mti.qnet hKept).trans (if_pos hNow)⟩
    · have hNow : ¬s.atRestNow = true := Bool.not_eq_true _ ▸ hRest.symm.trans h
      exact ⟨(congrArg Mti.anchor hKept).trans (if_neg hNow), (congrArg Mti.qnet hKept).trans (if_neg hNow)⟩
    · rw [hCharge, hVolt]
      exact congrArg Mti.disagree hKept
  case sweep =>
    obtain rfl : fa = s.ringReads ra := funext hfa
    obtain rfl : fb = s.ringReads rb := funext hfb
    exact exec_ringSweep_of_due hOn hRuns hFitted hCells hDue
  case start =>
    subst ht
    refine ⟨exec_mtiStart_of_badRom hOff hFail, fun hRom u hu => ?_⟩
    obtain rfl : u = (s.mtiStarted crc worn).mtiRunning := hu
    refine ⟨fun hNone => exec_mtiStart_of_rom hOff hFail hRom (State.resumeMti_of_none hNone), fun c v hSome hv => ?_⟩
    subst hv
    exact exec_mtiStart_of_rom hOff hFail hRom (State.resumeMti_of_some hSome)
  case loss =>
    obtain ⟨t, hExec, hMti, hStore⟩ := exec_vmetPowerLoss_of_on (cut := cut) hOn
    refine ⟨t, hExec, hMti, ?_⟩
    rw [hStore]
    exact ⟨rfl, rfl, rfl, rfl, rfl, MtiStore.next_cutOff ..⟩

end Sys2Proof.Machine
